-- ==== Sys2Proof/Word.lean ====
section
/-! DEFINITION. The word types of the model: bytes, shared identifiers (Table 1-5) and rows of values. -/

namespace Sys2Proof

/-- One byte (R7: bit 0 is the least significant). -/
abbrev Byte := BitVec 8

/-- A 32-bit register or FP32 bit pattern. -/
abbrev Word := BitVec 32

/-- A Timebase count in nanoseconds (R303). -/
abbrev Tick := Nat

/-- A row of FP32 bit patterns. -/
abbrev Row := List (BitVec 32)

/-- A row of BF16 bit patterns. -/
abbrev HRow := List (BitVec 16)

end Sys2Proof
end

