-- ==== Sys2Proof/Syntax.lean ====
section
/-! DEFINITION. The commands: one constructor per row of spec/opcode_table.json, with its operands. -/

namespace Sys2Proof

/-- A fault found by hardware that no row of its own reports (R382). -/
inductive FoundFault where
  /-- Uncorrectable error in state of no context, at an address. -/
  | stateUe (addr : Nat)
  /-- Uncorrectable error in a partition record, or in the state of one of its Toll Gates. -/
  | partStateUe (part : Nat) (gate : Option Nat)
  /-- Loss of a T1 stack. -/
  | hbmStackFail (stack : Nat)
deriving DecidableEq, Repr

/-- What one quarter's sensors show at a pace sample: supply in mV, its two temperatures in °C, pace Q4.12. -/
structure PaceReading where
  vmeas : Nat
  tjA   : Nat
  tjB   : Nat
  pace  : Nat
deriving DecidableEq, Repr

/-- A timestamp flit payload (Table 14-5). -/
structure Timestamp where
  tSend     : Nat
  tEchoSend : Nat
  tEchoRecv : Nat
  master    : Nat
  hops      : Nat
  aligned   : Bool
  bound     : Nat
deriving DecidableEq, Repr

/-- Who waits for data read on another package (R243). -/
inductive Reader where
  /-- A lane of a string of a launch. -/
  | lane (c launch str lane : Nat)
  /-- A compute die, for a context. -/
  | die (port c : Nat)
deriving DecidableEq, Repr

/-- The commands of the block. -/
inductive Instr where
  /-- PWR_GOOD rises: everything starts from reset values except fuses, and the ROM boot begins (R399). -/
  | powerOn (straps : Nat)
  /-- PWR_GOOD falls: Seltos stops at once and keeps no state except fuses (R399). -/
  | pwrGoodFall
  /-- PERST# is released: a device reset reruns the whole boot sequence, or retrains only PCIe in STOPPED_C4 (R402). -/
  | perstRelease (straps : Nat)
  /-- A PCIe hot reset or link disable is received and performs a device reset (R402). -/
  | hotReset (straps : Nat)
  /-- The ROM finishes reading a candidate bundle, checks its digest, signature and security version, and boots it or tries the next flash (R404). -/
  | bundleLoadComplete
  /-- The host writes RECOVERY_LEN in RECOVERY; the ROM checks the bundle in token staging and writes it to both flashes, or sets RECOVERY_FAIL (R406). -/
  | recoveryLenWrite (len : Nat)
  /-- Training of a UCIe port ends; the port runs at the fraction of its modules that trained, or the die is recorded absent (R416). -/
  | ucieTrainComplete (port modules dieBytes : Nat)
  /-- Training of a T1 stack ends with post-package repair, or raises C3 HBM_STACK_FAIL (R408). -/
  | hbmTrainComplete (stack : Nat) (ok : Bool)
  /-- Training of a CXL port ends and sets the kind-4 limit, which is zero when either port or expander fails (R415). -/
  | cxlTrainComplete (port : Nat) (ok : Bool) (bytes : Nat)
  /-- Steward finishes copying the verified bundle to T1 for use at restarts (R407). -/
  | t1CopyComplete
  /-- Training of a fabric port ends in UP4, UP2 or FAILED, and the peer ID is exchanged (R278). -/
  | portTrainComplete (port lanes : Nat) (spare : Bool) (peer : Nat)
  /-- A powered-down port detects a peer's signal and starts training (R408). -/
  | portSignalDetect (port : Nat)
  /-- Two seconds after training began, fabric training is declared complete (R408). -/
  | fabricTrainTimeout
  /-- The board asserts or deasserts THROTTLE_N, which sets or ends trigger 0x9 (R387). -/
  | throttleNChange (high : Bool)
  /-- The host writes SUBMIT; Seltos takes the request, sets OWNER, clears DONE and stamps the receipt in one act (R338). -/
  | mailboxSubmit (w : Nat) (irqEn : Bool)
  /-- The host writes 1 to the W1C DONE bit of WIN_CTRL (R10). -/
  | doneClear (w : Nat) (irqEn : Bool)
  /-- The host writes 1 to the W1C IRQ_PEND bit of FAULT_STATUS (R10). -/
  | irqPendClear (irqClass : Nat)
  /-- A read of POWER_STATUS returns PEAK_W and clears it to zero in one act (R10). -/
  | peakWRead
  /-- A host write to a kind-7 register that has no row of its own sets RW fields and ignores everything else (R337). -/
  | registerWrite (off size value : Nat)
  /-- A host read or write through BAR2 reaches an allowed region, or completes as Unsupported Request (R412). -/
  | hostApertureAccess (off len : Nat) (data : Option (List Byte)) (poisoned : Bool)
  /-- An MCTP packet arrives on PCIe VDM or I3C and is assembled into a message (R414). -/
  | mctpPacket (path src tag seq : Nat) (som eom : Bool) (body : List Byte)
  /-- A message whose next packet is more than 100 ms late is discarded (R414). -/
  | mctpReassemblyTimeout (path : Nat)
  /-- The board management controller assigns the EID with Set Endpoint ID (R414). -/
  | mctpSetEndpointId (path eid : Nat)
  /-- The I3C target takes part in dynamic address assignment (R414). -/
  | i3cEntdaa (addr : Nat)
  /-- A Prota message assembled on an MCTP virtual window is handled as a submit, or completes ST_BUSY when the path's previous message is open (R346). -/
  | mctpProtaMessage (path : Nat)
  /-- Steward answers SPDM GET_VERSION (R411). -/
  | spdmGetVersion (t : Nat)
  /-- Steward answers SPDM GET_CAPABILITIES (R411). -/
  | spdmGetCapabilities (t version : Nat)
  /-- Steward answers SPDM NEGOTIATE_ALGORITHMS (R411). -/
  | spdmNegotiateAlgorithms (t : Nat) (base hash : Nat)
  /-- Steward answers SPDM GET_DIGESTS for slot 0 (R411). -/
  | spdmGetDigests (t : Nat)
  /-- Steward returns the slot-0 certificate chain (R411). -/
  | spdmGetCertificate (t slot off len : Nat)
  /-- Steward answers SPDM CHALLENGE with the Alias key (R411). -/
  | spdmChallenge (t slot nonce : Nat)
  /-- Steward returns the measurement blocks, read in one act (R411). -/
  | spdmGetMeasurements (t index : Nat) (sign : Bool) (nonce : Nat)
  /-- The TAP runs BYPASS (R418). -/
  | jtagBypass
  /-- The TAP shifts out IDCODE (R418). -/
  | jtagIdcode
  /-- The TAP runs SAMPLE/PRELOAD on the boundary-scan register (R418). -/
  | jtagSamplePreload (pins : Nat)
  /-- The TAP runs EXTEST while PERST# is low, and BYPASS otherwise (R418). -/
  | jtagExtest
  /-- The TAP runs CLAMP while PERST# is low, and BYPASS otherwise (R418). -/
  | jtagClamp
  /-- The TAP runs HIGHZ while PERST# is low, and BYPASS otherwise (R418). -/
  | jtagHighz
  /-- Binds windows to a new session, negotiates the version and grants features (R342). -/
  | pmpSessionOpen (w : Nat)
  /-- Unbinds the sending session's windows (R342). -/
  | pmpSessionClose (w : Nat)
  /-- The management session sets PART_MASK on windows and on the virtual windows (R344). -/
  | pmpWindowConfig (w : Nat)
  /-- Returns the granted and the supported feature bitmaps (R343). -/
  | pmpFeatures (w : Nat)
  /-- Reserves a FREE sequence entry and allocates its control block; the message is answered after the next boundary's phase 4 with ST_OK or ST_DEFERRED (R46). -/
  | pmpSeqOpen (w : Nat)
  /-- Appends input tokens to a sequence's feed ring, which may move it to PREFILL (R47). -/
  | pmpSeqFeed (w : Nat)
  /-- Moves a sequence to LEAVING at once, or at the commit of its current step (R44). -/
  | pmpSeqRetire (w : Nat)
  /-- Ends a sequence at once and discards its work in the step in flight (R54). -/
  | pmpSeqCancel (w : Nat)
  /-- Creates an IDLE sequence that shares every column of its parent (R62). -/
  | pmpSeqFork (w : Nat)
  /-- Returns one Sequence Table entry or the context's step counters (R43). -/
  | pmpSeqQuery (w : Nat)
  /-- Replaces a sequence's sampler fields from the next build on (R66). -/
  | pmpSeqSetSampler (w : Nat)
  /-- Sets STEP_TOKEN_LIMIT and PREFILL_CHUNK for the context (R48). -/
  | pmpStepConfig (w : Nat)
  /-- Returns the step-record ring location and its HEAD and OLDEST offsets (R70). -/
  | pmpStepRecords (w : Nat)
  /-- Checks and loads a model descriptor (R372). -/
  | pmpModelLoad (w : Nat)
  /-- Loads a range of expert images and reports when model load is complete (R372). -/
  | pmpModelImages (w : Nat)
  /-- Writes a layer's route configuration into the shadow copy, to complete at the flip (R73). -/
  | pmpRouteConfig (w : Nat)
  /-- Replaces a layer's bias vector through the shadow copy (R89). -/
  | pmpRouteBias (w : Nat)
  /-- Returns a layer's configurations and expert entries from the active copy (R72). -/
  | pmpRouteQuery (w : Nat)
  /-- Returns the routing counters and writes the layer's histogram (R95). -/
  | pmpRouteStats (w : Nat)
  /-- Sets a layer's dispatch configuration through the route generation (R98). -/
  | pmpDispatchConfig (w : Nat)
  /-- The host supplies capacity arrays, and optionally reserved-mode requests, for a consulted layer (R113). -/
  | pmpPlanSet (w : Nat)
  /-- Returns the dispatch counters (R123). -/
  | pmpDispatchStats (w : Nat)
  /-- Sets a layer's combine configuration through the route generation (R143). -/
  | pmpCombineConfig (w : Nat)
  /-- Returns the return counters (R146). -/
  | pmpCombineStats (w : Nat)
  /-- Sets the context's return timeout from the next step on (R139). -/
  | pmpReturnTimeout (w : Nat)
  /-- Applies a placement hint to a range of experts, or holds it (R163). -/
  | pmpExpertHint (w : Nat)
  /-- Returns an expert's replicas, copies, heat and hints (R165). -/
  | pmpResidencyQuery (w : Nat)
  /-- Sets the context's residency policy (R165). -/
  | pmpResidencyPolicy (w : Nat)
  /-- Writes a new source copy of an expert and completes when the primary is RESIDENT (R169). -/
  | pmpExpertReload (w : Nat)
  /-- Returns the residency counters (R171). -/
  | pmpResidencyStats (w : Nat)
  /-- Fills or clears a user special-function slot in the shadow copy, to complete at the flip (R208). -/
  | pmpSfnLoad (w : Nat)
  /-- Returns SFN_GEN, the numerics revision, the counters and the user headers (R210). -/
  | pmpSfnQuery (w : Nat)
  /-- Writes descriptors into the shadow layout table, to complete at the flip (R211). -/
  | pmpLayoutLoad (w : Nat)
  /-- Returns descriptors of the active layout copy (R211). -/
  | pmpLayoutQuery (w : Nat)
  /-- Returns the limits, shares, use and lots of each tier (R239). -/
  | pmpTierQuery (w : Nat)
  /-- Applies a memory hint to a sequence or context, or holds it (R242). -/
  | pmpMemHint (w : Nat)
  /-- Sets the package's lending limits and recall limit (R235). -/
  | pmpLendConfig (w : Nat)
  /-- Returns the tier and Tally Post counters (R253). -/
  | pmpTierStats (w : Nat)
  /-- Allocates a buffer for the host session and returns its handle (R260). -/
  | pmpKhanAlloc (w : Nat)
  /-- Frees the buffer that a handle names, or defers the free to a generation release (R261). -/
  | pmpKhanFree (w : Nat)
  /-- Sets a requester's quota in one tier (R259). -/
  | pmpKhanQuota (w : Nat)
  /-- Returns the Khan and Waystation counters (R275). -/
  | pmpKhanStats (w : Nat)
  /-- Activates a FREE Waystation and allocates its middle (R265). -/
  | pmpWsCreate (w : Nat)
  /-- Discards a Waystation's words and returns it to FREE (R265). -/
  | pmpWsDestroy (w : Nat)
  /-- Returns a Waystation record, and clears the sticky bits when CLEAR is set (R274). -/
  | pmpWsQuery (w : Nat)
  /-- The host pops words, with an optional mark first and release after (R274). -/
  | pmpWsPop (w : Nat)
  /-- The host releases up to READ_PTR (R272). -/
  | pmpWsRelease (w : Nat)
  /-- The host rewinds READ_PTR to the mark (R272). -/
  | pmpWsRewind (w : Nat)
  /-- The host pushes all of its words, or none of them with ST_BUSY when the queue is full (R268). -/
  | pmpWsPush (w : Nat)
  /-- Queues one layout command after the checks of R223 (R214). -/
  | pmpLayoutRun (w : Nat)
  /-- Returns the layout counters (R229). -/
  | pmpLayoutStats (w : Nat)
  /-- Creates a collective group on this package (R289). -/
  | pmpCollGroup (w : Nat)
  /-- Checks a collective, admits it and sends the join to the leader; the response waits for GO or abort (R290). -/
  | pmpCollLaunch (w : Nat)
  /-- Returns a collective's state (R296). -/
  | pmpCollStatus (w : Nat)
  /-- Kills a collective and sends an abort to every member (R296). -/
  | pmpCollKill (w : Nat)
  /-- Returns the collective counters (R297). -/
  | pmpCollStats (w : Nat)
  /-- Deletes a collective group that has no collective in flight (R371). -/
  | pmpCollGroupDelete (w : Nat)
  /-- The management session sets a partition's enable, scheduling, core set and overrun (R318). -/
  | pmpPartConfig (w : Nat)
  /-- Returns a partition record and its Toll Gate records (R317). -/
  | pmpPartQuery (w : Nat)
  /-- Sets one Toll Gate record and clips the bucket to the new capacity (R325). -/
  | pmpTollConfig (w : Nat)
  /-- Returns the per-partition counters (R335). -/
  | pmpTollStats (w : Nat)
  /-- Tears down every context of a partition, clears HALTED and completes when all are FREE (R333). -/
  | pmpPartReset (w : Nat)
  /-- Checks a share record and creates a context (R323). -/
  | pmpCtxCreate (w : Nat)
  /-- Tears a context down and completes when it is FREE (R330). -/
  | pmpCtxDestroy (w : Nat)
  /-- Returns a context's state, share record and use (R322). -/
  | pmpCtxQuery (w : Nat)
  /-- Kills the context's step in flight, optionally holding the next phase 3 (R328). -/
  | pmpStepKill (w : Nat)
  /-- Ends a hold placed by PMP_STEP_KILL (R328). -/
  | pmpCtxResume (w : Nat)
  /-- Returns the Timebase counter, its status and the timing counters (R316). -/
  | pmpTimeQuery (w : Nat)
  /-- Sets the context's execution mode from its next Manifest on (R310). -/
  | pmpDetMode (w : Nat)
  /-- Returns the mode, NUMERICS_REV and SHAPE_DIGEST (R311). -/
  | pmpDetQuery (w : Nat)
  /-- Checks a kernel image and assigns a kernel ID (R185). -/
  | pmpKernelLoad (w : Nat)
  /-- Checks and accepts a software launch and binds its table generations (R186). -/
  | pmpKernelLaunch (w : Nat)
  /-- Frees a kernel ID once no launch of it remains in flight (R185). -/
  | pmpKernelUnload (w : Nat)
  /-- Returns a launch's state (R187). -/
  | pmpKernelStatus (w : Nat)
  /-- Kills a software launch (R191). -/
  | pmpKernelKill (w : Nat)
  /-- Returns the array counters (R193). -/
  | pmpArrayStats (w : Nat)
  /-- Arms a Tally Post and raises its phase (R246). -/
  | pmpTallyConfig (w : Nat)
  /-- The host arrives at a post after its earlier posted writes have taken effect (R250). -/
  | pmpTallyArrive (w : Nat)
  /-- Returns a Tally Post record (R246). -/
  | pmpTallyQuery (w : Nat)
  /-- Verifies a bundle, writes it to the other flash and keeps a copy in T1 (R357). -/
  | pmpFwStage (w : Nat)
  /-- Starts activation of the staged bundle on the named processors, or defers it (R358). -/
  | pmpFwActivate (w : Nat)
  /-- Clears ACT_PENDING on the processors not yet activated (R363). -/
  | pmpFwWithdraw (w : Nat)
  /-- Returns FW_SUMMARY, the status blocks, the staged header and the counters (R358). -/
  | pmpFwQuery (w : Nat)
  /-- Restarts a processor with cause requested; a Warden restart is deferred unless every quarter has been at E0 for 1 s (R356). -/
  | pmpFwpRestart (w : Nat)
  /-- Sets a processor's watchdog period (R351). -/
  | pmpFwpWatchdog (w : Nat)
  /-- Returns whole log records of a processor from a given SEQ (R349). -/
  | pmpLogRead (w : Nat)
  /-- Sets bits of the trace enable mask (R350). -/
  | pmpTraceMask (w : Nat)
  /-- Returns stored fault messages and the latch status (R380). -/
  | pmpFaultRead (w : Nat)
  /-- Sets EVENTS and WINDOW_MS for every counting window (R385). -/
  | pmpFaultWindow (w : Nat)
  /-- Returns ageing use, spares left and the highest levels (R393). -/
  | pmpHealthQuery (w : Nat)
  /-- Returns the core map summary word and its entries (R172). -/
  | pmpArrayQuery (w : Nat)
  /-- Returns port status words and the link and transport counters (R278). -/
  | pmpLinkQuery (w : Nat)
  /-- Returns the 24 quarter status words (R299). -/
  | pmpQuarterQuery (w : Nat)
  /-- Once the emit Waystations have room, the boundary runs commit, release, grow and select, and admission, in order (R56). -/
  | stepBoundary (c : Nat)
  /-- Caravan Master computes and publishes a layer's planned capacities before its route seal (R109). -/
  | planPublish (c layer : Nat)
  /-- A compute die reads the Manifest over UCIe (R60). -/
  | manifestRead (die c : Nat)
  /-- A hidden row lands in token staging from a compute die (R118). -/
  | hiddenRowReceive (die c epoch layer : Nat) (convoyB : Bool) (slot : Nat) (row : List Nat)
  /-- A slot's residual row arrives, which lets a waiting fused pass start (R145). -/
  | residualRowReceive (die c epoch layer : Nat) (convoyB : Bool) (slot : Nat) (row : List Nat)
  /-- A compute die makes a memory access transfer over UCIe (R417). -/
  | ucieMemoryAccess (die c addr n : Nat) (data : Option (List Byte))
  /-- The gate strings of a convoy layer start and compute logits and scores (R74). -/
  | gateLaunch (c layer : Nat) (convoyB : Bool)
  /-- After a convoy's gate, the predictor strings start at low priority (R91). -/
  | predictorLaunch (c layer : Nat) (convoyB : Bool)
  /-- Predicted counts trigger prefetch offers and soft reservations of credits and bays (R93). -/
  | predictorComplete (c layer : Nat) (convoyB : Bool)
  /-- The Top-k Selector processes one token as one act, reads the generation and emits its waybills (R76). -/
  | tokenSelect (c layer : Nat) (convoyB : Bool) (slot : Nat)
  /-- Each waybill's replica is chosen by weighted round robin, and its destination fields are set (R99). -/
  | routeSeal (c layer : Nat) (convoyB : Bool)
  /-- STALL_LIMIT passes; the marked assignments are dropped and the set proceeds (R168). -/
  | stallLimitExpiry (c layer : Nat) (convoyB : Bool)
  /-- Once the last waybill of a set is route-sealed, the Sorting Yard orders the set by key (R103). -/
  | sort (c layer : Nat) (convoyB : Bool)
  /-- A sub-convoy's waybills get SUB_CONVOY, RETURN_ROW and CRC, and its landing entries are written, after any wait for a landing table (R114). -/
  | finalSeal (c layer : Nat) (convoyB : Bool) (dst index : Nat)
  /-- Injection of a sub-convoy begins: its note is built, credits are claimed and rows are gathered and injected (R121). -/
  | subconvoyInject (c layer : Nat) (convoyB : Bool) (dst index : Nat)
  /-- Sub-convoy j+1 is released once every answer of sub-convoy j is accounted (R108). -/
  | subconvoyRelease (c layer : Nat) (convoyB : Bool) (dst index : Nat)
  /-- A receiver checks a consignment note (R116). -/
  | noteReceive (src header : Nat) (entries : List Nat)
  /-- A receiver checks a row and accepts, discards or refuses it (R116). -/
  | rowReceive (src bill : Nat) (data : List Byte)
  /-- BATCH_WINDOW passes since a batch's first row, and the batch closes (R117). -/
  | batchWindowExpiry (c layer expert replica : Nat)
  /-- A compute die returns an answer; it is sent to its home and its receive space is freed, while pad answers are discarded (R117). -/
  | answerFromDie (die : Nat) (pad : Bool) (bill : Nat) (refusal : Option Nat) (row : List Nat)
  /-- A receiver discards a home's unconsumed rows of a killed epoch (R122). -/
  | retireNoticeReceive (src c epoch : Nat)
  /-- An incomplete note's rows are discarded after the receiver's return timeout (R122). -/
  | incompleteNoteTimeout (c note : Nat)
  /-- An answer is stamped, checked in order and combined or discarded (R127). -/
  | answerReceive (src bill : Nat) (row : List Nat)
  /-- A refusal is stamped, checked, and drops its rank with cause refused (R127). -/
  | refusalReceive (src bill : Nat)
  /-- A bay claim that waits 1 µs spills its row group to T1 (R137). -/
  | bayWaitSpill (c layer : Nat) (convoyB : Bool) (group : Nat)
  /-- A freed bay goes to the oldest waiting combine claim before any collective (R137). -/
  | bayFree
  /-- A completed slot is summed or scaled, residual-added and normalised once its residual is present (R144). -/
  | fusedPass (c layer : Nat) (convoyB : Bool) (slot : Nat)
  /-- At a sub-convoy's deadline tick, EMPTY entries become LOST and their ranks drop (R140). -/
  | returnTimeoutExpiry (c layer : Nat) (convoyB : Bool) (dst index : Nat)
  /-- One return timeout after its layer completes, the landing table is freed (R125). -/
  | landingBufferFree (c epoch layer : Nat) (convoyB : Bool)
  /-- The return timeout since a kill passes; quarantine ends and the landing table is freed (R142). -/
  | quarantineExpiry (c epoch layer : Nat) (convoyB : Bool)
  /-- The Sampler turns a logit row into a token by the sampling procedure (R66). -/
  | logitRowReceive (c slot fmt : Nat) (logits : List Nat)
  /-- An old table copy is released when nothing bound to it remains, and waiting changes merge into it (R89). -/
  | generationRelease (c table : Nat)
  /-- A software table change not merged within 1 ms completes ST_BUSY (R89). -/
  | tableReloadTimeout (w : Nat)
  /-- The fetch arbiter takes a frame request, merging it into a running fetch when one exists (R153). -/
  | fetchRequest (c layer expert replica prio die : Nat)
  /-- A fetch starts when pool space is found, evicting by age, or after waiting (R155). -/
  | fetchStart (c layer expert replica : Nat)
  /-- A fetched 4 KiB chunk is checked against its CRC (R148). -/
  | fetchChunkRead (c layer expert replica : Nat) (bad : Bool)
  /-- The frame becomes RESIDENT and held batches are handed to the die in closing order (R151). -/
  | fetchComplete (c layer expert replica : Nat)
  /-- An eviction request moves T2 columns to a lot or to T4, or stays pending (R240). -/
  | kvEviction (c : Nat) (grant : Option (Nat × Nat))
  /-- Far columns of a waking sequence are copied back to T2 between boundaries (R241). -/
  | kvFarReturn (c : Nat)
  /-- Every PLAN_PERIOD, each package sends its heat to the placement leader (R157). -/
  | planPeriodExpiry (c : Nat)
  /-- The leader takes heat reports and computes replica counts (R157). -/
  | guideHeatReport (src c level : Nat) (heats : List (Nat × Nat))
  /-- A package writes a new replica entry into its shadow copy (R158). -/
  | guideReplicaEntry (c layer expert index pkg die share : Nat) (active : Bool)
  /-- A package writes ACTIVE 0 for a retiring secondary and acknowledges when its steps are done (R159). -/
  | guideRemoval (c layer expert replica : Nat)
  /-- The holder counts acknowledgements of a removal (R159). -/
  | guideRemovalAck (src c layer expert replica : Nat)
  /-- One return timeout after all acknowledgements, the frame drains and is freed (R159). -/
  | replicaDrainTimeout (c layer expert replica : Nat)
  /-- A package records another package's RX_AREA for a context (R106). -/
  | guideRxAreaAnnounce (src c area : Nat)
  /-- A package treats the torn-down package's replicas of the context as removed (R332). -/
  | guideTeardownAnnounce (src c : Nat)
  /-- A package applies its weight-error policy to a reported unreadable expert (R167). -/
  | guideExpertUeReport (c layer expert : Nat)
  /-- A compute die is lost in operation; its replicas are removed and primaries moved (R170). -/
  | ucieLinkDown (port : Nat)
  /-- A lender grants a 256 MiB lot to a borrowing context (R236). -/
  | lotRequest (lender borrower c base : Nat)
  /-- A lender recalls its most recent lot, and the borrower moves its items out (R237). -/
  | lotRecall (lender c base : Nat)
  /-- A recall not complete within RECALL_LIMIT logs C0 (R237). -/
  | recallOverdue (base : Nat)
  /-- A remote memory read message is served (R243). -/
  | memReadReceive (src c addr n : Nat) (poison : Bool)
  /-- Read data returns to the waiting lane or engine (R243). -/
  | memReadDataReceive (reader : Reader) (data : List Byte) (poison : Bool)
  /-- A remote write takes effect in path order (R243). -/
  | memWriteReceive (addr : Nat) (data : List Byte)
  /-- A remote atomic is applied (R184). -/
  | memAtomicReceive (src c addr value : Nat) (float : Bool)
  /-- An atomic's old value returns to the string (R184). -/
  | memAtomicDataReceive (c launch str lane old : Nat)
  /-- A post's arbiter stamps an arrival and takes it as in time, surplus, late, stale or refused (R247). -/
  | tallyArrival (post pkg value : Nat) (phase : Option Nat)
  /-- Once every arrival stamped by DEADLINE is taken, the post becomes TIMED_OUT and its waiters wake (R248). -/
  | tallyDeadline (post : Nat)
  /-- A late record is appended to LATE_WS when room appears (R249). -/
  | tallyLateDelivery (post : Nat)
  /-- An engine allocation takes a block of the smallest fitting class, with upward fall-back (R255). -/
  | khanAlloc (c engine tier die n : Nat)
  /-- An engine free returns a block, or is a bad free that tears the context down (R261). -/
  | khanFree (c pool a : Nat)
  /-- A cache refill or write-back between the pool cache and its T1 ring completes (R263). -/
  | khanRefill (c pool cls : Nat)
  /-- Quartermaster moves an all-free chunk to an empty class (R254). -/
  | khanChunkMove (c pool chunk cls : Nat)
  /-- A burst of 32 words moves between tail, middle and head (R267). -/
  | wsMiddleMove (q : Nat) (toHead : Bool) (poison : Option Nat)
  /-- START_TICK is reached and the launch's strings begin placement (R308). -/
  | launchStartTick (c launch : Nat)
  /-- A string is placed on a core with room, or waits (R188). -/
  | stringPlace (c launch str : Nat)
  /-- An uncorrectable lane-store or scratch error kills the launch or the step (R180). -/
  | arrayUeEvent (c core off : Nat) (str : Option (Nat × Nat)) (slot : Nat)
  /-- A corrected error is counted in its source's counting window (R385). -/
  | correctedErrorEvent (source : Nat) (addr ctx : Option Nat)
  /-- A counting window closes after WINDOW_MS and its count clears (R385). -/
  | faultWindowClose (source : Nat)
  /-- Warden declares a lasting-pending source lasting and repairs it (R386). -/
  | lastingFaultDeclare (source : Nat)
  /-- One millisecond after RETIRING, remaining strings are killed and a spare takes the core (R173). -/
  | coreRetireTimeout (phys : Nat)
  /-- A queued layout command starts once it may, in program order (R227). -/
  | layoutCommandStart (c : Nat)
  /-- A layout command completes DONE, CANCELLED, FAULTED or REJECTED and arrives at its post (R226). -/
  | layoutCommandComplete (c index : Nat) (ue : Option Nat)
  /-- A data flit is accepted or discarded with a NAK, and acknowledgement and credits are processed (R280). -/
  | flitReceive (port corrected : Nat) (uncorrected : List Nat) (bytes : List Byte)
  /-- Two microseconds without acknowledgement progress replay the oldest flit; eight replays take the port down (R280). -/
  | linkAckTimeout (port : Nat)
  /-- A chunk closes at 4,096 bytes or after 50 ns without a ready byte (R282). -/
  | chunkClose (pkg tc : Nat)
  /-- A chunk is checked in order and accepted, forwarded or discarded (R283). -/
  | chunkReceive (port tc : Nat)
  /-- The destination sends an acknowledgement entry within 4 µs of a chunk taking effect (R284). -/
  | transportAckSend (pkg : Nat)
  /-- The origin takes acknowledgement entries, returns credit and resends on a NACK (R284). -/
  | transportAckReceive
  /-- Eight microseconds without progress resend the path's unacknowledged chunks and may move the path to a detour (R284). -/
  | transportResendTimeout (pkg tc : Nat)
  /-- A path returns to direct ports 1 ms after one comes up (R286). -/
  | detourReturn (pkg tc : Nat)
  /-- After 10 ms without a route, Wayfinder declares a package departed and broadcasts it (R288). -/
  | departureTimeout (pkg : Nat)
  /-- A departure message discards pending chunks and applies the departure's effects (R288). -/
  | departureReceive (pkg : Nat)
  /-- Every 10 µs each up port sends a timestamp flit (R305). -/
  | timestampSend (port : Nat)
  /-- A timestamp flit updates the offset estimate and ALIGN_BOUND (R306). -/
  | timestampReceive (port : Nat) (stamp : Timestamp)
  /-- At most once per 2,000 ticks the counter advances by 0 or 2 (R303). -/
  | timebaseSlew
  /-- After 100 µs without an exchange the Timebase enters HOLDOVER (R307). -/
  | timebaseHoldover
  /-- After 10 ms in HOLDOVER, C0 TIMEBASE_HOLDOVER is logged (R307). -/
  | holdoverLog
  /-- The leader takes a join and sends GO or an abort when all have joined (R290). -/
  | collJoinReceive (c group id index : Nat) (granted : Bool) (crc : Nat)
  /-- A member receives GO, answers its launch and begins (R290). -/
  | collGoReceive (c group id : Nat)
  /-- A member receives an abort, releases its holdings and completes (R296). -/
  | collAbortReceive (c group id status : Nat)
  /-- A member receives a slab grant and sends its piece (R291). -/
  | collGrantReceive (c group id slab : Nat)
  /-- JOIN_TIMEOUT passes without GO; the leader or the member aborts with ST_TIMEOUT (R290). -/
  | collJoinTimeout (c group id : Nat)
  /-- The owner opens its next slab once a bay is free, and sends grants (R292). -/
  | collSlabOpen (c group id : Nat)
  /-- An owner reduces a piece into its slab, or a gather-product piece is consumed (R293). -/
  | collPieceReceive (c group id slab index : Nat) (data : List Byte)
  /-- A member writes a received slab result into its output (R294). -/
  | collResultReceive (c group id slab : Nat) (data : List Byte)
  /-- The slice passes to the next resident context at SLICE_US, or when the holder has nothing ready (R320). -/
  | slicePass (p : Nat)
  /-- At the slice end plus OVERRUN_US, the uncommitted work of the slice is killed (R321). -/
  | overrunDeadline (p : Nat)
  /-- After the return timeout plus 1 ms, a torn-down context becomes FREE (R331). -/
  | teardownFree (c : Nat)
  /-- A teardown not FREE in time raises C2 (R382). -/
  | teardownStuck (c : Nat)
  /-- The Fault Collector takes a fault message, applies its class action, latches it and queues it (R378). -/
  | faultTake (found : Option FoundFault)
  /-- Warden stores queued messages and re-arms the C0 and C1 latches (R379). -/
  | faultDrain
  /-- Every 10 µs each quarter's pace, skew and thermal triggers are evaluated (R301). -/
  | paceSample (readings : List PaceReading)
  /-- Every 1 µs package power is sampled and the power triggers are evaluated (R395). -/
  | powerSample (watts : Nat) (quarters : List Nat)
  /-- An hourly ageing mean of 1% raises a quarter's base set-point and burns a fuse (R392). -/
  | ageingHourly
  /-- A processor's watchdog period passes without service and the processor restarts (R351). -/
  | watchdogExpiry (n : Nat)
  /-- A processor exception or a memory error restarts the processor (R351). -/
  | fwpException (n : Nat) (memErr : Bool)
  /-- A restarted processor is RUNNING and takes its held messages; activation proceeds to the next processor (R352). -/
  | fwpRestartComplete (n : Nat)
  /-- After 100 ms with EMERGENCY_ACTIVE 0, a deferred activation resumes (R361). -/
  | activationResume
  /-- After 1 s of every quarter at E0, Warden or all six processors are activated (R359). -/
  | waitE0Expiry
  /-- After 60 s without restart, the bundle becomes the boot choice and the security minimum is raised (R364). -/
  | bundleProven
  /-- Integer addition per guarded lane (R179). -/
  | iadd (c launch str : Nat)
  /-- Integer subtraction per guarded lane (R179). -/
  | isub (c launch str : Nat)
  /-- Low 32 bits of the integer product (R179). -/
  | imul (c launch str : Nat)
  /-- Signed high 32 bits of the integer product (R179). -/
  | imulh (c launch str : Nat)
  /-- Bitwise AND (R179). -/
  | and (c launch str : Nat)
  /-- Bitwise OR (R179). -/
  | or (c launch str : Nat)
  /-- Bitwise XOR (R179). -/
  | xor (c launch str : Nat)
  /-- Shift left (R179). -/
  | shl (c launch str : Nat)
  /-- Logical shift right (R179). -/
  | shr (c launch str : Nat)
  /-- Arithmetic shift right (R179). -/
  | sar (c launch str : Nat)
  /-- Integer minimum (R179). -/
  | imin (c launch str : Nat)
  /-- Integer maximum (R179). -/
  | imax (c launch str : Nat)
  /-- Integer compare into a predicate (R179). -/
  | icmp (c launch str : Nat)
  /-- Moves the immediate into a register (R179). -/
  | movi (c launch str : Nat)
  /-- FP32 addition (R30). -/
  | fadd (c launch str : Nat)
  /-- FP32 multiplication (R30). -/
  | fmul (c launch str : Nat)
  /-- FP32 fused multiply-add with one rounding (R30). -/
  | ffma (c launch str : Nat)
  /-- FP32 minimum (R29). -/
  | fmin (c launch str : Nat)
  /-- FP32 maximum (R29). -/
  | fmax (c launch str : Nat)
  /-- FP32 compare into a predicate (R29). -/
  | fcmp (c launch str : Nat)
  /-- FP32 negation (R29). -/
  | fneg (c launch str : Nat)
  /-- Converts FP32 to FMT per lane (R42). -/
  | cvtTo (c launch str : Nat)
  /-- Converts FMT to FP32 per lane (R42). -/
  | cvtFrom (c launch str : Nat)
  /-- Each half-string converts as one MX block or two KV4S blocks (R33). -/
  | blockTo (c launch str : Nat)
  /-- Inverse block conversion to FP32 (R32). -/
  | blockFrom (c launch str : Nat)
  /-- Load from an appliance address (R183). -/
  | ld (c launch str : Nat) (ue : Option Nat)
  /-- Store to an appliance address (R183). -/
  | st (c launch str : Nat)
  /-- 32-bit integer atomic addition returning the old value (R184). -/
  | aaddI (c launch str : Nat)
  /-- FP32 atomic addition returning the old value (R184). -/
  | aaddF (c launch str : Nat)
  /-- Makes the string's earlier stores visible before its later accesses (R244). -/
  | fence (c launch str : Nat)
  /-- Looks up the route, special-function or layout table of the bound generation (R190). -/
  | tlook (c launch str : Nat)
  /-- Takes the string's next work item (R189). -/
  | claim (c launch str : Nat)
  /-- Runs a matrix-unit multiply-accumulate into an accumulator tile (R175). -/
  | mma (c launch str : Nat)
  /-- Writes +0 to an accumulator tile (R177). -/
  | accZero (c launch str : Nat)
  /-- Converts a tile and stores it to scratch (R177). -/
  | accStore (c launch str : Nat)
  /-- Evaluates a special function with a single rounding (R195). -/
  | sfn (c launch str : Nat)
  /-- Branches if the predicate holds in any guarded lane (R179). -/
  | brAny (c launch str : Nat)
  /-- Branches if the predicate holds in every guarded lane (R179). -/
  | brAll (c launch str : Nat)
  /-- Predicate logic (R179). -/
  | pset (c launch str : Nat)
  /-- Reads a register of another lane (R179). -/
  | lshuf (c launch str : Nat)
  /-- Ordered FP32 sum over the guarded lanes (R182). -/
  | lsum (c launch str : Nat)
  /-- Maximum over the guarded lanes (R182). -/
  | lmax (c launch str : Nat)
  /-- The string arrives at a Tally Post with release semantics (R250). -/
  | tpArrive (c launch str : Nat)
  /-- The string waits on a local post until RELEASED or TIMED_OUT (R250). -/
  | tpWait (c launch str : Nat)
  /-- The string appends a word, waiting while the queue is full (R273). -/
  | wsPush (c launch str : Nat)
  /-- The string pops a word, with underrun and poison predicates (R273). -/
  | wsPop (c launch str : Nat)
  /-- The string marks at READ_PTR (R272). -/
  | wsPopMark (c launch str : Nat)
  /-- The string rewinds to the mark (R272). -/
  | wsPopRewind (c launch str : Nat)
  /-- The string releases up to READ_PTR (R272). -/
  | wsPopRelease (c launch str : Nat)
  /-- The string retires; the last END completes the launch and arrives at its post (R187). -/
  | endString (c launch str : Nat)
  /-- At each flit slot of a port, the slot goes to a due control or timestamp flit, TC_CONTROL data, forwarded chunks within the detour reserve, or local classes by weighted round robin under Toll Gates and link credit (R287). -/
  | flitSlot (port : Nat)
  /-- A CXL.mem read unanswered for 10 ms, or a CXL.io request without completion for 50 ms, returns poisoned data (R415). -/
  | cxlCompletionTimeout (addr : Nat)
  /-- The host moves the function between D0 and D3hot, and in D3hot both BARs decode nothing while serving continues (R412). -/
  | pciePowerStateWrite (d3hot : Bool)
  /-- A package learns that an expert's reload has completed, sets AVAILABLE back to 1 with cause 0x00 at its next flip, and releases stall holds waiting on that reload (R169). -/
  | guideExpertReloaded (c layer expert : Nat)
  /-- The borrower finishes moving every item out of a recalled lot, and the lot becomes free at the lender, so the allocation that waited on it proceeds (R237). -/
  | lotRelease (lender c base : Nat)
  /-- Programming of a bundle or boot record into xSPI flash finishes; Steward reads it back, checks it, keeps the T1 copy, sets ACT_STATE STAGED and completes the stage (R357). -/
  | flashWriteComplete
deriving DecidableEq, Repr

end Sys2Proof
end

