-- ==== Sys2Proof/Config.lean ====
section
/-! DEFINITION. What an implementation fixes and what the spec leaves open: constants without a body, so no proof
can see a value of them. -/

namespace Sys2Proof.Config

/-- SHA-384 of bytes (R404, R410): cryptography is a function the spec names and does not spell out. -/
opaque sha384 : List Byte → Nat
/-- The signature block of a bundle verifies against the fused root digest (R405). -/
opaque signatureOk : List Byte → Bool
/-- Fused unique device secret (R409). -/
opaque uds : Nat
/-- HKDF-SHA-384 of a secret with an input (R410). -/
opaque hkdf : Nat → Nat → Nat
/-- Alias private key derived from the CDI (R410). -/
opaque aliasKey : Nat → Nat
/-- Slot-0 certificate chain for an Alias key and a measurement M (R411). -/
opaque certChain : Nat → Nat → List Byte
/-- An SPDM signature with a key over a nonce and a content digest (R411). -/
opaque spdmSign : Nat → Nat → Nat → Nat
/-- SHA-384 of the ROM (Table 19-9 index 1). -/
opaque romDigest : Nat
/-- Fields of the JTAG IDCODE that the BSDL file gives: manufacturer (R418). -/
opaque bsdlFields : Nat
/-- Default trace mask of a bundle's catalogue, whose layout the spec does not give (R350). -/
opaque traceDefaults : List Byte → Nat
/-- `IPC_REV` values that the running firmware knows beside its own (R357). -/
opaque ipcKnown : Nat → Nat → Bool
/-- Bytes of the numerics block of a bundle, whose place the spec does not give (R410). -/
opaque numericsBlock : List Byte → List Byte
/-- A package that departed has been reset since, as the training of a port to it shows at a tick (R288): the spec does not
say how training shows it. -/
opaque peerReset : Nat → Nat → Bool
/-- Move of a base set-point that Warden makes under R301, in mV: the spec states no amount. -/
opaque setpointMove : Nat → Int
/-- Body of a fabric message whose layout the spec does not give, from its type and fields (Table 13-6). -/
opaque bodyCode : Nat → List Nat → List Byte
/-- Place in the list of present dies where Guide puts an expert's primary at model load: the spec gives no rule (R149). -/
opaque primaryPlace : Nat → Nat → Nat
/-- Present compute dies of another package, as a bit mask: this package is told of none (R157). -/
opaque peerDies : Nat → Nat
/-- Plan request (R113), whose layout the spec does not give: epoch, token counts of convoys A and B, histogram handle. -/
opaque planRequest : Nat → Nat → Nat → Nat → Nat
/-- Token-staging offset, in units of 64 bytes, of a hidden row: context, layer, slot (Table 4-4 `ROW_ADDR`). -/
opaque rowAddr : Nat → Nat → Nat → Nat
/-- Segment entry of a built-in function (R207): numerics revision, table, binade (both halves counted on), segment. -/
opaque sfnSegment : Nat → Nat → Nat → Nat → Nat
/-- `ICMP`'s relation for a condition code (Table 8-5 gives no codes): signed less, unsigned less, equal. -/
opaque icmpTest : Nat → Bool → Bool → Bool → Bool
/-- `FCMP`'s relation for a condition code: less, equal, unordered. -/
opaque fcmpTest : Nat → Bool → Bool → Bool → Bool
/-- Predicate logic of `PSET`, whose codes the spec does not give: the word's fields from `DST` on, and P0 to P3. -/
opaque psetTest : Nat → Nat → Bool
/-- Signedness of `IMIN` and `IMAX`, which Table 8-5 does not state. -/
opaque minMaxSigned : Bool
/-- Result of `SHL`, `SHR`, `SAR` (0, 1, 2) by a count of 32 or more: the spec states none. -/
opaque wideShift : Nat → Nat → Nat → Nat
/-- Sign of `FMIN` of two zeros of different sign. -/
opaque fminZeroNeg : Bool
/-- How `LD` of 4, 8 or 16 bits (0, 1, 2) fills a register: the spec states none. -/
opaque loadFill : Nat → Nat → Nat
/-- Whether a 4-bit access at an address means the upper half of its byte. -/
opaque upperNibble : Nat → Bool
/-- Field of a branch's word that names its predicate: `DST`, `SRC_A`, `SRC_B` or `SRC_C` by the value's last two bits (Table 8-5
gives no place). -/
opaque branchField : Nat
/-- Memory ranges, address and bytes, that a killed launch's arguments name for writing, by the count of free values: what stands at
`ARGS` is the kernel's own (R187). -/
opaque argRanges : Nat → List (Nat × Nat)
/-- Branch offsets count from the next word, else from the branch itself. -/
opaque branchNext : Bool
/-- Word that `TLOOK` reads: table, `SRC_A`, `SRC_B`, and the bound generation's records. -/
opaque tlookWord : Nat → Nat → Nat → List Nat → Nat
/-- Tile, runs and activation format in the `IMM` of MMA, ACC_ZERO and ACC_STORE (Table 8-5 gives no places). -/
opaque mmaTile : Nat → Nat
opaque mmaRuns : Nat → Nat
opaque mmaAct : Nat → Nat
/-- m and n in lane 0's `SRC_C`. -/
opaque mmaRows : Nat → Nat
opaque mmaCols : Nat → Nat
/-- Place of a context's T4 share in the far pool: the spec gives none. -/
opaque farBase : Nat → Nat
/-- An address of another package lies in a context's shares there: this package is not told. -/
opaque foreignShare : Nat → Nat → Bool
/-- An intermediate package has an up port to a destination at a tick: this package is not told (R286). -/
opaque peerUp : Nat → Nat → Nat → Bool
/-- Every port of an intermediate package to a destination has been down for 10 ms at a tick (R288). -/
opaque peerDark : Nat → Nat → Nat → Bool
/-- Element of the weight operand of `GATHER_PRODUCT` for `K_DIM`, `N_DIM`, row k, column n: the spec gives no layout
(R295). -/
opaque productPlace : Nat → Nat → Nat → Nat → Nat
/-- Positions of the two elements that a conversion to format 0x09 keeps of a group of four, from the group's codes (R35). -/
opaque sparseKept : Nat → Nat
/-- FP32 element of a K or V row that the compute dies give the KV Page Keeper for a committed token: occurrence, sequence,
position, layer, V, element.  No transfer of Table 19-11 carries these rows. -/
opaque kvElement : Nat → Nat → Nat → Nat → Bool → Nat → BitVec 32
/-- Place in a context's token staging, in units of 64 bytes, of the residual row of a context, layer and slot (R145): the spec
gives none. -/
opaque residPlace : Nat → Nat → Nat → Nat
/-- Entry of a column or ring list for a column (R421): the spec gives it 4 bytes and no layout. -/
opaque columnEntry : Nat → Nat
/-- Lendable lots that a package has at a tick, as this one knows them (R236): the spec gives no message for the count. -/
opaque lendable : Nat → Nat → Nat
/-- The buffer that a handle names holds an MXFP6 element plane: a raw descriptor does not say so, and the spec gives Seltos no other
word of it (R34, R213). -/
opaque mxfp6Plane : Nat → Bool
/-- A fresh free value: n-th value a step draws (entropy, order choices, undefined values). -/
opaque freeValue : Nat → Nat

end Sys2Proof.Config
end

