-- ==== Sys2Proof/Machine/Num.lean ====
section
/-! DEFINITION. Number formats and arithmetic (02_number_formats.md): exact decoding, one rounding to nearest even,
block formats, Q1.15, the matrix-unit run, CRC-32C, Philox and FNV-1a. Patterns are naturals below 2^width. -/

namespace Sys2Proof.Num

/-- An exact value: `fin s m e` is (-1)^s * m * 2^e (Table 2-2; R29 has one NaN). -/
inductive Val where
  | nan
  | inf (neg : Bool)
  | fin (neg : Bool) (m : Nat) (e : Int)
  deriving DecidableEq, Repr

/-- Parameters of a scalar format (Table 2-2). -/
structure Fmt where
  eBits : Nat
  mBits : Nat
  bias : Nat
  hasInf : Bool
  /-- largest finite magnitude pattern -/
  maxFin : Nat
  /-- canonical NaN written (R29) -/
  cnan : Nat
  deriving DecidableEq, Repr

def fp32 : Fmt := ⟨8, 23, 127, true, 0x7F7FFFFF, 0x7FC00000⟩
def bf16 : Fmt := ⟨8, 7, 127, true, 0x7F7F, 0x7FC0⟩
def e4m3 : Fmt := ⟨4, 3, 7, false, 0x7E, 0x7F⟩
def e5m2 : Fmt := ⟨5, 2, 15, true, 0x7B, 0x7F⟩
def e3m2 : Fmt := ⟨3, 2, 3, false, 0x1F, 0⟩
def e2m3 : Fmt := ⟨2, 3, 1, false, 0x1F, 0⟩
def e2m1 : Fmt := ⟨2, 1, 1, false, 0x7, 0⟩

/-- Width of the format without its sign. -/
def Fmt.mag (f : Fmt) : Nat := f.eBits + f.mBits

/-- 2^e as a rational (numerator, denominator). -/
def pow2 (e : Int) : Nat × Nat := if 0 ≤ e then (2 ^ e.toNat, 1) else (1, 2 ^ (-e).toNat)

/-- num / den rounded to the nearest integer, ties to even (R30). -/
def rne (num den : Nat) : Nat :=
  let q := num / den
  let r := num % den
  if 2 * r > den then q + 1 else if 2 * r = den then q + q % 2 else q

/-- floor(log2(num / den)) for num, den > 0. -/
def ilog2 (num den : Nat) : Int :=
  let k : Int := (Nat.log2 num : Int) - (Nat.log2 den : Int)
  let p := pow2 k
  if num * p.2 < den * p.1 then k - 1 else k

/-- Magnitude pattern of num / den in `f`: one rounding, then R31's overflow rule. -/
def roundMag (f : Fmt) (num den : Nat) : Nat :=
  if num = 0 then 0 else
  let emin : Int := 1 - (f.bias : Int)
  let e := max (ilog2 num den) emin
  let q := pow2 (e - (f.mBits : Int))
  let n := rne (num * q.2) (den * q.1)
  let bits := (e + (f.bias : Int) - 1).toNat * 2 ^ f.mBits + n
  if bits > f.maxFin then (if f.hasInf then f.maxFin + 1 else f.maxFin) else bits

def signBit (f : Fmt) (neg : Bool) : Nat := if neg then 2 ^ f.mag else 0

/-- A rational with sign rounded into `f`. -/
def encQ (f : Fmt) (neg : Bool) (num den : Nat) : Nat := signBit f neg + roundMag f num den

/-- A value rounded into `f` (R28 to R31, Table 2-6). -/
def enc (f : Fmt) : Val → Nat
  | .nan => f.cnan
  | .inf neg => signBit f neg + (if f.hasInf then f.maxFin + 1 else f.maxFin)
  | .fin neg m e => let p := pow2 e; encQ f neg (m * p.1) p.2

/-- The exact value of a pattern; MX element formats have no NaN and no infinity. -/
def dec (f : Fmt) (b : Nat) : Val :=
  let neg := (b / 2 ^ f.mag) % 2 = 1
  let g := b % 2 ^ f.mag
  if g > f.maxFin then (if f.hasInf ∧ g = f.maxFin + 1 then .inf neg else .nan) else
  let ex := g / 2 ^ f.mBits
  let fr := g % 2 ^ f.mBits
  if ex = 0 then .fin neg fr (1 - (f.bias : Int) - (f.mBits : Int))
  else .fin neg (fr + 2 ^ f.mBits) ((ex : Int) - (f.bias : Int) - (f.mBits : Int))

def Val.isNan : Val → Bool
  | .nan => true
  | _ => false

def Val.isFin : Val → Bool
  | .fin .. => true
  | _ => false

def Val.neg : Val → Val
  | .nan => .nan
  | .inf s => .inf (!s)
  | .fin s m e => .fin (!s) m e

def Val.abs : Val → Val
  | .nan => .nan
  | .inf _ => .inf false
  | .fin _ m e => .fin false m e

/-- Signed integer of a finite value scaled to exponent `e0 ≤ e`. -/
def sInt (neg : Bool) (m : Nat) (e e0 : Int) : Int :=
  let v : Int := (m * 2 ^ (e - e0).toNat : Nat)
  if neg then -v else v

/-- Exact sum; an exact zero is +0 unless both addends are -0 (R28). Inf - Inf is NaN (R29). -/
def Val.add : Val → Val → Val
  | .nan, _ => .nan
  | _, .nan => .nan
  | .inf a, .inf b => if a = b then .inf a else .nan
  | .inf a, _ => .inf a
  | _, .inf b => .inf b
  | .fin a m e, .fin b n g =>
    let e0 := min e g
    let s := sInt a m e e0 + sInt b n g e0
    if s = 0 then .fin (a && b && m == 0 && n == 0) 0 0 else .fin (s < 0) s.natAbs e0

/-- Exact product; 0 × Inf is NaN (R29). -/
def Val.mul : Val → Val → Val
  | .nan, _ => .nan
  | _, .nan => .nan
  | .inf a, .inf b => .inf (a != b)
  | .inf a, .fin b n _ => if n = 0 then .nan else .inf (a != b)
  | .fin a m _, .inf b => if m = 0 then .nan else .inf (a != b)
  | .fin a m e, .fin b n g => .fin (a != b) (m * n) (e + g)

/-- Order of two values that are not NaN: -1, 0 or 1; the two zeros are equal. -/
def Val.cmp : Val → Val → Int
  | .inf a, .inf b => if a = b then 0 else if a then -1 else 1
  | .inf a, _ => if a then -1 else 1
  | _, .inf b => if b then 1 else -1
  | .fin a m e, .fin b n g =>
    let e0 := min e g
    let d := sInt a m e e0 - sInt b n g e0
    if d < 0 then -1 else if d = 0 then 0 else 1
  | _, _ => 0

def Val.lt (a b : Val) : Bool := !a.isNan && !b.isNan && decide (a.cmp b < 0)

/-- `a ≥ b`, false where either is NaN. -/
def Val.ge (a b : Val) : Bool := !a.isNan && !b.isNan && !decide (a.cmp b < 0)

def v32 (x : BitVec 32) : Val := dec fp32 x.toNat
def to32 (v : Val) : BitVec 32 := BitVec.ofNat 32 (enc fp32 v)
def v16 (x : BitVec 16) : Val := dec bf16 x.toNat
def toBf (v : Val) : BitVec 16 := BitVec.ofNat 16 (enc bf16 v)

/-- BF16 widened exactly to FP32. -/
def widen (x : BitVec 16) : BitVec 32 := to32 (v16 x)
/-- FP32 rounded to BF16 (R42). -/
def narrow (x : BitVec 32) : BitVec 16 := toBf (v32 x)

/-- FP32 addition, rounded once. -/
def fadd (a b : BitVec 32) : BitVec 32 := to32 ((v32 a).add (v32 b))
/-- FP32 multiplication, rounded once. -/
def fmul (a b : BitVec 32) : BitVec 32 := to32 ((v32 a).mul (v32 b))
/-- FP32 fused multiply-add, one rounding. -/
def ffma (a b c : BitVec 32) : BitVec 32 := to32 (((v32 a).mul (v32 b)).add (v32 c))
/-- FP32 negation: the sign changes; a NaN gives the canonical NaN (R29). -/
def fneg (a : BitVec 32) : BitVec 32 := to32 (v32 a).neg

def nan32 : BitVec 32 := 0x7FC00000#32

/-- FP32 maximum: NaN when either operand is NaN, +0 for max(+0, -0) (R219, R293). -/
def fmax (a b : BitVec 32) : BitVec 32 :=
  if (v32 a).isNan || (v32 b).isNan then nan32 else
  match (v32 a).cmp (v32 b) with
  | .ofNat 0 => if a = b then a else 0#32
  | .ofNat _ => a
  | _ => b

/-- FP32 minimum; the sign of min(+0, -0) is the caller's `zneg`. -/
def fmin (zneg : Bool) (a b : BitVec 32) : BitVec 32 :=
  if (v32 a).isNan || (v32 b).isNan then nan32 else
  match (v32 a).cmp (v32 b) with
  | .ofNat 0 => if a = b then a else (if zneg then 0x80000000#32 else 0#32)
  | .ofNat _ => b
  | _ => a

/-- Correctly rounded division into `f` with the IEEE results for zeros and infinities (R201). -/
def divV (f : Fmt) : Val → Val → Nat
  | .nan, _ => f.cnan
  | _, .nan => f.cnan
  | .inf _, .inf _ => f.cnan
  | .inf a, .fin b _ _ => enc f (.inf (a != b))
  | .fin a _ _, .inf b => enc f (.fin (a != b) 0 0)
  | .fin a m e, .fin b n g =>
    if n = 0 then (if m = 0 then f.cnan else enc f (.inf (a != b)))
    else
      let p := pow2 (e - g)
      encQ f (a != b) (m * p.1) (n * p.2)

/-- FDIV to FP32 (R201). -/
def fdiv (a b : BitVec 32) : BitVec 32 := BitVec.ofNat 32 (divV fp32 (v32 a) (v32 b))

/-- FP32 of a natural (rounded once). -/
def ofNat32 (n : Nat) : BitVec 32 := to32 (.fin false n 0)
/-- FP32 of the quotient of two naturals, rounded once (R80, R132). -/
def fp32Ratio (n d : Nat) : BitVec 32 := BitVec.ofNat 32 (encQ fp32 false n d)

/-- FP32 to Q1.15 (R38). -/
def toQ115 (x : BitVec 32) : Int :=
  match v32 x with
  | .nan => -32768
  | .inf neg => if neg then -32768 else 32767
  | .fin neg m e =>
    let p := pow2 (e + 15)
    let n : Int := rne (m * p.1) p.2
    if neg then max (-n) (-32768) else min n 32767

/-- Q1.15 bits (two's complement) to an exact value. -/
def q115Val (b : Nat) : Val :=
  if b % 65536 < 32768 then .fin false (b % 32768) (-15) else .fin true (65536 - b % 65536) (-15)

/-! ### Format codes (Table 2-1) -/

/-- Codes that Table 2-1 defines. -/
def codeKnown (c : Nat) : Bool := c ≤ 0x0C
/-- Scalar or element format of a code; INT8, KV4S and Q1.15 elements are handled apart. -/
def codeFmt : Nat → Option Fmt
  | 0x00 => some fp32 | 0x01 => some bf16 | 0x02 => some e4m3 | 0x03 => some e5m2
  | 0x04 => some e4m3 | 0x05 => some e5m2 | 0x06 => some e2m3 | 0x07 => some e3m2
  | 0x08 => some e2m1 | 0x09 => some e2m1 | _ => none
/-- Element bits of a code as stored. -/
def codeBits : Nat → Nat
  | 0x00 => 32 | 0x01 => 16 | 0x0C => 16 | 0x06 => 6 | 0x07 => 6
  | 0x08 => 4 | 0x09 => 4 | 0x0B => 4 | _ => 8
/-- MX formats carry E8M0 block scales. -/
def codeMx (c : Nat) : Bool := 0x04 ≤ c && c ≤ 0x0A
/-- emax of R33. -/
def codeEmax : Nat → Int
  | 0x08 => 2 | 0x09 => 2 | 0x06 => 2 | 0x07 => 4 | 0x04 => 8 | 0x05 => 15 | _ => 0

/-- Exact value of one stored element of a code, without its block scale. -/
def elemVal (c b : Nat) : Val :=
  if c = 0x0A then (if b < 128 then .fin false b (-6) else .fin true (256 - b) (-6))
  else if c = 0x0B then (if b < 8 then .fin false b 0 else .fin true (16 - b) 0)
  else if c = 0x0C then q115Val b
  else match codeFmt c with | some f => dec f b | none => .nan

/-- Saturating rounding of v / 2^x into an element of MX code `c` (R31, R33). -/
def elemEnc (c : Nat) (x : Int) : Val → Nat
  | .nan => 0
  | .inf neg => if c = 0x0A then (if neg then 129 else 127) else match codeFmt c with
      | some f => signBit f neg + f.maxFin
      | none => 0
  | .fin neg m e =>
    if c = 0x0A then
      let p := pow2 (e - x + 6)
      let n := min (rne (m * p.1) p.2) 127
      if neg ∧ n ≠ 0 then 256 - n else n
    else match codeFmt c with
      | some f =>
        let p := pow2 (e - x)
        signBit f neg + min (roundMag f (m * p.1) p.2) f.maxFin
      | none => 0

/-- floor(log2) of a finite nonzero magnitude. -/
def valLog2 (m : Nat) (e : Int) : Int := (Nat.log2 m : Int) + e

/-- Largest finite magnitude of a list as (mantissa, exponent); (0, 0) when none. -/
def amax : List Val → Nat × Int
  | [] => (0, 0)
  | .fin _ m e :: vs =>
    let r := amax vs
    if (Val.fin false r.1 r.2).cmp (.fin false m e) < 0 then (m, e) else r
  | _ :: vs => amax vs

/-- R33: a block to an MX format: (scale byte, elements). -/
def mxBlock (c : Nat) (vs : List Val) : Nat × List Nat :=
  if vs.any Val.isNan then (0xFF, vs.map fun _ => 0) else
  let a := amax vs
  if a.1 = 0 then (0x00, vs.map (elemEnc c 0)) else
  let x := max (-127) (min 127 (valLog2 a.1 a.2 - codeEmax c))
  ((x + 127).toNat, vs.map (elemEnc c x))

/-- Scale 2^(s-127) applied exactly; scale 0xFF makes NaN (R32). -/
def mxScaled (s : Nat) (v : Val) : Val :=
  if s = 0xFF then .nan else v.mul (.fin false 1 ((s : Int) - 127))

/-- A KV4S scale rounded from amax / 7 in FP32, by nearest even or with 16 random bits (R36, R37). -/
def kvScale (a : BitVec 32) (stoch : Option Nat) : BitVec 16 :=
  let q := fdiv a (ofNat32 7)
  match stoch with
  | none => narrow q
  | some r => BitVec.ofNat 16 (min ((q.toNat + r % 65536) / 65536) 0x7F7F)

/-- KV4S element: round_nearest_even(v / scale) saturated to ±7, in 4-bit two's complement. -/
def kvElem (v : Val) (scale : BitVec 16) : Nat :=
  match v, v16 scale with
  | .fin neg m e, .fin sneg n g =>
    if n = 0 then 0 else
    let p := pow2 (e - g)
    let k := min (rne (m * p.1) (n * p.2)) 7
    if neg != sneg ∧ k ≠ 0 then 16 - k else k
  | .inf neg, _ => if neg then 9 else 7
  | _, _ => 0

/-- ±Inf counts as ±0x7F7F before scaling (R36). -/
def kvClamp : Val → Val
  | .inf neg => match dec bf16 0x7F7F with
    | .fin _ m e => .fin neg m e
    | v => v
  | v => v

/-- R36: 16 values to a KV4S block: (BF16 scale, elements). -/
def kvBlock (vs : List Val) (stoch : Option Nat) : BitVec 16 × List Nat :=
  if vs.any Val.isNan then (0x7FC0#16, vs.map fun _ => 0) else
  let ws := vs.map kvClamp
  let a := amax ws
  if a.1 = 0 then (0#16, vs.map fun _ => 0) else
  let sc := kvScale (to32 (.fin false a.1 a.2)) stoch
  if sc.toNat % 32768 = 0 then (0#16, vs.map fun _ => 0) else (sc, ws.map (kvElem · sc))

/-- Value of a KV4S element under its scale; a NaN scale is 16 NaN elements (R36). -/
def kvScaled (scale : BitVec 16) (b : Nat) : Val := (v16 scale).mul (elemVal 0x0B b)

/-- One FP32 value to a scalar code (R42): pattern in the code's width. -/
def cvtTo (c : Nat) (x : BitVec 32) : Nat :=
  if c = 0x0C then ((toQ115 x) % 65536).toNat
  else match codeFmt c with | some f => enc f (v32 x) | none => 0
/-- One scalar pattern to FP32, rounded once where needed (R38, R42). -/
def cvtFrom (c b : Nat) : BitVec 32 := to32 (elemVal c b)

/-! ### Matrix unit (R35, R39, R40) -/

/-- Exact sum of products; the sum of exact zeros keeps +0 unless every product is -0. -/
def dotExact : List (Val × Val) → Val
  | [] => .fin false 0 0
  | [p] => p.1.mul p.2
  | p :: ps => (p.1.mul p.2).add (dotExact ps)

/-- One run: exact sum of 32 products, scaled, rounded once to FP32, then added to the accumulator. -/
def mmaRun (acc : BitVec 32) (ps : List (Val × Val)) (sw sa : Option Nat) : BitVec 32 :=
  let s := dotExact ps
  let s := match sw with | some k => mxScaled k s | none => s
  let s := match sa with | some k => mxScaled k s | none => s
  fadd acc (to32 s)

/-- Operand pairs of Table 2-5: weight code, activation code. -/
def pairOk (w a : Nat) : Bool :=
  let act6 := [0x02, 0x03, 0x06, 0x07, 0x04, 0x05, 0x0A]
  (w == 0x08 && a == 0x08) || (w == 0x09 && a == 0x08) || (w == 0x01 && a == 0x01)
    || (([0x08, 0x06, 0x07, 0x04, 0x05, 0x0A, 0x02, 0x03]).contains w && act6.contains a)

/-- Matrix-unit steps of one run (R175). -/
def runSteps (w a : Nat) : Nat :=
  if w = 0x09 then 16 else if w = 0x08 ∧ a = 0x08 then 32 else if w = 0x01 then 256 else 64

/-! ### CRC-32C, Philox, FNV-1a -/

/-- One bit of the reflected CRC-32C (R83). -/
def crcBit (c : Nat) : Nat := if c % 2 = 1 then (c / 2) ^^^ 0x82F63B78 else c / 2
def crcByte (c : Nat) (b : Byte) : Nat :=
  crcBit (crcBit (crcBit (crcBit (crcBit (crcBit (crcBit (crcBit (c ^^^ b.toNat))))))))
/-- CRC-32C of a byte list (R83). -/
def crc32c (bs : List Byte) : Nat := (bs.foldl crcByte 0xFFFFFFFF) ^^^ 0xFFFFFFFF

/-- One Philox-4x32 round. -/
def philoxRound (k0 k1 : Nat) (x : Nat × Nat × Nat × Nat) : Nat × Nat × Nat × Nat :=
  let p0 := 0xD2511F53 * x.1
  let p1 := 0xCD9E8D57 * x.2.2.1
  ((p1 / 2 ^ 32) ^^^ x.2.1 ^^^ k0, p1 % 2 ^ 32, (p0 / 2 ^ 32) ^^^ x.2.2.2 ^^^ k1, p0 % 2 ^ 32)

def philoxGo : Nat → Nat → Nat → Nat × Nat × Nat × Nat → Nat × Nat × Nat × Nat
  | 0, _, _, x => x
  | n + 1, k0, k1, x =>
    philoxGo n ((k0 + 0x9E3779B9) % 2 ^ 32) ((k1 + 0xBB67AE85) % 2 ^ 32) (philoxRound k0 k1 x)

/-- Philox-4x32-10 word 0: key = 64-bit seed (low word first, entry 9), counter (c0, c1, c2, 0) (R67). -/
def philox (seed c0 c1 c2 : Nat) : Nat :=
  (philoxGo 10 (seed % 2 ^ 32) (seed / 2 ^ 32 % 2 ^ 32)
    (c0 % 2 ^ 32, c1 % 2 ^ 32, c2 % 2 ^ 32, 0)).1

/-- Random bits of KV4S block `block` of a layer's page frame whose first token stands at `pos` (R37, R64, R67): purpose
0x02 and the layer in the third counter word. -/
def kvBits (seed pos layer block : Nat) : Nat := philox seed pos block (0x00020000 + layer) % 65536

/-- FNV-1a, 64 bits (R65). -/
def fnv1a (bs : List Byte) : Nat :=
  bs.foldl (fun h b => ((h ^^^ b.toNat) * 0x100000001B3) % 2 ^ 64) 0xCBF29CE484222325

end Sys2Proof.Num
end

