-- ==== Sys2Proof/Machine/Exact.lean ====
section
/-! DEFINITION. The exact mathematical values that bound the special functions (09 R196), in fixed point of 256 fractional bits: their
own error is far below an ulp of any destination format. -/

namespace Sys2Proof.Machine.Exact

open Sys2Proof.Num

/-- 1 in fixed point. -/
def one : Nat := 2 ^ 256

/-- e^r for r in [0, 1), by 64 terms of the series. -/
def expFix (r : Nat) : Nat := (List.range 64).foldl (fun acc i => one + r * acc / (one * (64 - i))) one

/-- ln y for y in [1, 2], by 84 terms of the series of artanh((y − 1) / (y + 1)). -/
def lnFix (y : Nat) : Nat :=
  let z := (y - one) * one / (y + one)
  2 * ((List.range 84).foldl (fun (t : Nat × Nat) i => (t.1 + t.2 / (2 * i + 1), t.2 * (z * z / one) / one)) (0, z)).1

/-- ln 2. -/
def ln2Fix : Nat := lnFix (2 * one)

/-- A value in fixed point. -/
def fix (neg : Bool) (m : Nat) (e : Int) : Int :=
  let p := pow2 (e + 256)
  let v : Int := (m * p.1 / p.2 : Nat)
  if neg then -v else v

/-- A fixed-point number as a value. -/
def ofFix (x : Int) : Val := .fin (decide (x < 0)) x.natAbs (-256)

/-- 2^x. -/
def exp2Fix (x : Int) : Val := .fin false (expFix ((x % one).toNat * ln2Fix / one)) (x / one - 256)

/-- x × log2 e. -/
def byLog2e (x : Int) : Int := x * one / ln2Fix

/-- log2 of m × 2^e, m not zero. -/
def log2Fix (m : Nat) (e : Int) : Int :=
  let lg := Nat.log2 m
  ((lg : Int) + e) * one + (lnFix (m * one / 2 ^ lg) * one / ln2Fix : Nat)

/-- (p + q E) / (1 + E) with E = e^(−x), for x ≥ 0 in fixed point. -/
def overExp (p q : Int) (x : Nat) : Val :=
  match exp2Fix (byLog2e (-(x : Int))) with
  | .fin _ m k =>
    let u : Nat := 2 ^ (-k).toNat
    let s : Nat := 300 + (-k).toNat
    let n := p * u + q * m
    .fin (decide (n < 0)) (n.natAbs * 2 ^ s / (u + m)) (-(s : Int))
  | v => v

/-- The exact value of a result and its bound (Table 9-1): ulps for FP32 and for a narrower format, and an absolute bound. -/
structure Ref where
  val    : Val
  ulps   : Nat
  narrow : Nat
  abs    : Val
deriving DecidableEq, Repr

/-- No absolute bound. -/
def noAbs : Val := .fin false 0 0

/-- The exact value of a function of Table 9-1 at a finite argument ± m × 2^e other than zero, where its table or small and large
rules apply: EXP2 0, EXP 1, LOG2 2, LN 3, RCP 4, RSQRT 5, SQRT 6, SIGMOID 7, TANH 8, SILU 9. -/
def ref (n : Nat) (neg : Bool) (m : Nat) (e : Int) : Option Ref :=
  let x := fix neg m e
  let a := x.natAbs
  let small := decide (valLog2 m e < 10)
  let sig : Val := overExp (if neg then 0 else 1) (if neg then 1 else 0) a
  let inv (v : Val) : Val := if neg then v.neg else v
  match n with
  | 0 => if small then some ⟨exp2Fix x, 2, 1, noAbs⟩ else none
  | 1 => if small then some ⟨exp2Fix (byLog2e x), 2, 1, noAbs⟩ else none
  | 2 => if neg then none else
      some ⟨ofFix (log2Fix m e), 2, 1, if -1 ≤ valLog2 m e ∧ valLog2 m e ≤ 0 then .fin false 1 (-22) else noAbs⟩
  | 3 => if neg then none else
      some ⟨ofFix (log2Fix m e * ln2Fix / one), 2, 1,
        if -1 ≤ valLog2 m e ∧ valLog2 m e ≤ 0 then .fin false 1 (-23) else noAbs⟩
  | 4 => some ⟨inv (exp2Fix (-log2Fix m e)), 1, 1, noAbs⟩
  | 5 => if neg then none else some ⟨exp2Fix (-log2Fix m e / 2), 1, 1, noAbs⟩
  | 6 => if neg then none else some ⟨exp2Fix (log2Fix m e / 2), 1, 1, noAbs⟩
  | 7 => if small then some ⟨sig, 2, 1, noAbs⟩ else none
  | 8 => if small then some ⟨inv (overExp 1 (-1) (2 * a)), 2, 1, noAbs⟩ else none
  | 9 => if small then some ⟨(Val.fin neg m e).mul sig, 4, 1, .fin false 1 (-20)⟩ else none
  | _ => none

/-- The exact value of R204's product 0.5 × a × (1 + TANH(v)) for finite a and v. -/
def geluRef (a v : Val) : Option Ref :=
  let half (t : Val) : Option Ref := some ⟨(Val.fin false 1 (-1)).mul (a.mul ((Val.fin false 1 0).add t)), 4, 1, .fin false 1 (-20)⟩
  match v with
  | .fin neg m e => if m = 0 then half (.fin neg 0 0) else (ref 8 neg m e).bind (fun r => half r.val)
  | _ => none

/-- The exact value of act(a) × b (R203): the activation's bound and one ulp; its absolute bound grows with a b above 1. -/
def Ref.times (r : Ref) (b : Val) : Option Ref :=
  match b with
  | .fin .. => some ⟨r.val.mul b, r.ulps + 1, 1, if b.abs.cmp (.fin false 1 0) < 0 then r.abs else r.abs.mul b.abs⟩
  | _ => none

/-- The number that a pattern stands for on the scale of its format; an infinity stands one step above the largest finite value. -/
def real (f : Fmt) (r : Nat) : Val :=
  match dec f r with
  | .inf neg => .fin neg 1 ((f.bias : Int) + 1)
  | v => v

/-- A pattern lies within its bound of the exact value: in ulps of the destination format at the correctly rounded result, or by the
absolute bound (R196). -/
def Ref.holds (q : Ref) (f : Fmt) (wide : Bool) (r : Nat) : Bool :=
  let c := enc f q.val
  let e : Int := match dec f c with | .fin _ _ e => e | _ => (f.bias : Int) - f.mBits
  let gap := ((real f r).add q.val.neg).abs
  r == c || (!(dec f r).isNan && (gap.cmp (.fin false ((if wide then q.ulps else q.narrow) * 2 ^ 40 + 1) (e - 40)) < 0
    || gap.cmp q.abs < 0))

end Sys2Proof.Machine.Exact
end

