-- ==== Sys2Proof/Machine/Tbl.lean ====
section
/-! DEFINITION. Sparse tables in one canonical form, small list helpers, and bit fields of words held as numbers. -/

namespace Sys2Proof

/-- A sparse table: (key, value) pairs, keys strictly rising. -/
abbrev Tbl (α : Type) := List (Nat × α)

/-- The value at a key, or the given default. -/
def Tbl.getD {α : Type} (t : Tbl α) (k : Nat) (d : α) : α :=
  match t with
  | [] => d
  | (k', v) :: r => if k' = k then v else Tbl.getD r k d

/-- The value at a key, if the table lists one. -/
def Tbl.find {α : Type} (t : Tbl α) (k : Nat) : Option α :=
  match t with
  | [] => none
  | (k', v) :: r => if k' = k then some v else Tbl.find r k

/-- Lists a value at a key, keeping keys rising. -/
def Tbl.put {α : Type} (t : Tbl α) (k : Nat) (v : α) : Tbl α :=
  match t with
  | [] => [(k, v)]
  | (k', v') :: r =>
    if k < k' then (k, v) :: (k', v') :: r
    else if k = k' then (k, v) :: r
    else (k', v') :: Tbl.put r k v

/-- Removes a key. -/
def Tbl.del {α : Type} (t : Tbl α) (k : Nat) : Tbl α :=
  match t with
  | [] => []
  | (k', v') :: r => if k = k' then Tbl.del r k else (k', v') :: Tbl.del r k

/-- Writes a value where `d` is what an unlisted key reads as: writing `d` removes the entry. -/
def Tbl.setD {α : Type} [DecidableEq α] (t : Tbl α) (d : α) (k : Nat) (v : α) : Tbl α :=
  if v = d then t.del k else t.put k v

/-- Changes the listed value at a key; an unlisted key stays unlisted. -/
def Tbl.adjust {α : Type} (t : Tbl α) (k : Nat) (f : α → α) : Tbl α :=
  match t with
  | [] => []
  | (k', v) :: r => if k' = k then (k', f v) :: r else (k', v) :: Tbl.adjust r k f

/-- Drops the entries that a test on key and value picks. -/
def Tbl.drop {α : Type} (t : Tbl α) (p : Nat → α → Bool) : Tbl α := t.filter (fun e => !p e.1 e.2)

/-- Changes every listed value. -/
def Tbl.mapV {α : Type} (t : Tbl α) (f : Nat → α → α) : Tbl α := t.map (fun e => (e.1, f e.1 e.2))

/-- The listed values. -/
def Tbl.vals {α : Type} (t : Tbl α) : List α := t.map (fun e => e.2)

/-- The listed keys. -/
def Tbl.keys {α : Type} (t : Tbl α) : List Nat := t.map (fun e => e.1)

/-- Keys strictly rising. -/
def Tbl.rising {α : Type} : Tbl α → Bool
  | [] => true
  | [_] => true
  | (a, _) :: (b, w) :: r => decide (a < b) && Tbl.rising ((b, w) :: r)

/-- The canonical form of a table whose unlisted keys read as `d`. -/
def Tbl.wf {α : Type} [DecidableEq α] (d : α) (t : Tbl α) : Bool :=
  Tbl.rising t && t.all (fun e => decide (e.2 ≠ d))

/-- The first number below `n` that a test accepts. -/
def firstBelow (n : Nat) (p : Nat → Bool) : Option Nat := (List.range n).find? p

/-- Sum of a list of numbers. -/
def sumN (l : List Nat) : Nat := l.foldl (· + ·) 0

/-- Largest of a list of numbers, 0 for none. -/
def maxN (l : List Nat) : Nat := l.foldl Nat.max 0

/-- Number of entries that a test accepts. -/
def countP {α : Type} (p : α → Bool) (l : List α) : Nat := (l.filter p).length

/-- A flag as a bit. -/
def b2n (b : Bool) : Nat := if b then 1 else 0

/-- Bits [lo + w − 1 : lo] of a word. -/
def bits (x lo w : Nat) : Nat := (x >>> lo) % 2 ^ w

/-- Bit i of a word. -/
def bit (x i : Nat) : Bool := x.testBit i

/-- A word from fields (place, width, value), each cut to its width. -/
def packF (fs : List (Nat × Nat × Nat)) : Nat :=
  sumN (fs.map (fun f => (f.2.2 % 2 ^ f.2.1) * 2 ^ f.1))

/-- Writes a field of a word. -/
def setBits (x lo w v : Nat) : Nat := x - bits x lo w * 2 ^ lo + (v % 2 ^ w) * 2 ^ lo

/-- The number of ones among the low n bits. -/
def popCount (n x : Nat) : Nat := countP (fun i => x.testBit i) (List.range n)

/-- The positions of the ones among the low n bits, ascending. -/
def onesOf (n x : Nat) : List Nat := (List.range n).filter (fun i => x.testBit i)

/-- The word whose ones are the listed positions. -/
def maskOf (l : List Nat) : Nat := l.foldl (fun a i => a ||| 2 ^ i) 0

/-- Little-endian bytes of a number (R7). -/
def toLE : Nat → Nat → List Byte
  | 0, _ => []
  | n + 1, x => BitVec.ofNat 8 x :: toLE n (x / 256)

/-- The number that little-endian bytes spell (R7). -/
def ofLE : List Byte → Nat
  | [] => 0
  | b :: r => b.toNat + 256 * ofLE r

/-- Rounds up to a multiple. -/
def roundUp (x m : Nat) : Nat := (x + m - 1) / m * m

/-- Quotient rounded up. -/
def ceilDiv (x m : Nat) : Nat := (x + m - 1) / m

/-- Stable insertion sort by a key that must not fall. -/
def insertBy {α : Type} (le : α → α → Bool) (x : α) : List α → List α
  | [] => [x]
  | y :: r => if le x y then x :: y :: r else y :: insertBy le x r

/-- Stable sort: equal elements keep their order. -/
def sortBy {α : Type} (le : α → α → Bool) : List α → List α
  | [] => []
  | x :: r => insertBy le x (sortBy le r)

/-- The first element with the least key. -/
def minBy {α : Type} (key : α → Nat) : List α → Option α
  | [] => none
  | x :: r =>
    match minBy key r with
    | none => some x
    | some y => if key y < key x then some y else some x

/-- Applies a change to the element at an index. -/
def updAt {α : Type} (l : List α) (i : Nat) (f : α → α) : List α :=
  match l, i with
  | [], _ => []
  | x :: r, 0 => f x :: r
  | x :: r, n + 1 => x :: updAt r n f

/-- Removes the first element that a test accepts. -/
def eraseFirst {α : Type} (p : α → Bool) : List α → List α
  | [] => []
  | x :: r => if p x then r else x :: eraseFirst p r

/-- The status of the first check that fails. -/
def firstFail : List (Bool × Nat) → Option Nat
  | [] => none
  | (bad, st) :: r => if bad then some st else firstFail r

end Sys2Proof
end

