-- ==== Sys2Proof/Machine/Ctr.lean ====
section
/-! DEFINITION. The counters of every counter table of the spec, their widths, and their table order. -/

namespace Sys2Proof.Machine

/-- Every counter of the spec, in the order of its table. -/
inductive Ctr where
  -- Table 3-11 (R71)
  | stepsCommitted | stepsKilled | framesLate | pauses | admitDeferrals | lateCancels
  | recordsOverwritten
  -- Table 4-10 (R95)
  | tokensRouted | assignments | nullSkips | nullCuts | kmaxCuts | tieCuts | emptyTokens
  | nanTokens | predPairs | predHits | predAbandoned | routeFlips | routeWaits
  -- Table 5-9 (R123)
  | rowsDispatched | rowsLocal | bytesInjected | subconvoys | reservedLayers | capacityDrops
  | noReplicaDrops | staleSkips | standingPlans | consultMisses | rxRows | rxRefused | rxCrcDrops
  | rxNoteDrops | rxMisrouted | rxRetired | padRows
  -- Table 6-7 (R146)
  | answersCombined | staleReturns | retiredReturns | retUnmatched | lateReturns | dupReturns
  | retCrcDrops | retMisdirected | retMismatch | refusals | lostReturns | renormSlots
  | nonfiniteReturns | bayWaits | spilledGroups | quarantines | quarantineExpiries | landingWaits
  -- Table 7-7 (R171)
  | fetchDemand | fetchPrefetch | fetchFill | fetchMerged | fetchBytes | fetchWaits | prefetchShed
  | prefetchUsed | heldRows | evictFrames | replicasAdded | replicasRetired | weightUe
  | mirrorRecoveries | stalledSets | stallExpiries | reloads
  -- Table 8-13 (R193)
  | launches | stringsRun | stringsKilled | stringFaults | placeWaits | mmaSteps | sfnPasses
  | arrayCe | arrayUe
  -- Table 9-6 (R210)
  | sfnEmptySlot | normClamps | sfnLoads | sfnFlips
  -- Table 10-6 (R229)
  | layoutCmds | layoutBytes | layoutRejects | layoutKills | layoutUe | collisions | transposeCmds
  | layoutFlips
  -- Table 11-8 (R253)
  | evictColumns | evictBlocked | kvReturns | lotsBorrowed | lotsRecalled | recallOverdue | memUe
  | tallyArrivals | tallyTimeouts | tallyLate | tallySurplus | tallyStale | tallyRefused
  -- Table 12-8 (R275)
  | khanAllocs | khanFrees | khanFallbacks | khanFails | khanFragFails | khanQuotaFails
  | khanBadFrees | khanDeferredFrees | wsPushes | wsPops | wsFullWaits | wsUnderruns | wsPoison
  | wsRewinds | emitStalls
  -- Table 13-12 (R297)
  | fecCorrected | fecUncorrected | linkCrcErrors | replays | retrains | flitsTx | flitsRx
  -- Table 13-13 (R297)
  | chunksRx | hdrCrcDrops | misrouted | forwarded | dupChunks | windowDrops | chunkCrcDrops
  | reorderDrops | resends | detourPaths | msgUnknown | departures
  -- Table 13-14 (R297)
  | collLaunched | collBusy | collDone | collKilled | collFaulted | collStale | collBayWaits
  | collStaged
  -- Table 14-11 (R316)
  | lateStarts | fixedSteps | skewEvents | skewTrips | timeExchanges | holdovers | masterChanges
  -- Table 15-7 (R335)
  | tollBytes | tollWaits | slices | sliceSkips | overrunKills | teardowns | partHalts
  -- Table 16-12 (R366)
  | msgsDone | msgsRestarted | watchdogExpiries | winIgnored | mctpBusy | actDeferrals
  | logOverwrites
  -- Table 18-8 (R396)
  | faultsTakenC0 | faultsTakenC1 | faultsTakenC2 | faultsTakenC3 | faultsTakenC4 | faultsDropped
  | lastingFaults | spareSwaps | e1Entries | e2Entries | e2TimeUs | ageingRaises
deriving DecidableEq, Repr

/-- Bytes of a counter: 8 for the 64-bit ones, else 4. -/
def Ctr.bytes : Ctr → Nat
  | .stepsCommitted | .framesLate | .pauses | .recordsOverwritten | .tokensRouted | .assignments
  | .nullSkips | .nullCuts | .kmaxCuts | .predPairs | .predHits | .rowsDispatched | .rowsLocal
  | .bytesInjected | .subconvoys | .capacityDrops | .rxRows | .padRows | .answersCombined
  | .staleReturns | .renormSlots | .fetchDemand | .fetchPrefetch | .fetchMerged | .fetchBytes
  | .prefetchUsed | .heldRows | .evictFrames | .launches | .stringsRun | .stringsKilled
  | .placeWaits | .mmaSteps | .sfnPasses | .normClamps | .layoutCmds | .layoutBytes
  | .transposeCmds | .evictColumns | .kvReturns | .tallyArrivals | .khanAllocs | .khanFrees
  | .wsPushes | .wsPops | .fecCorrected | .flitsTx | .flitsRx | .chunksRx | .forwarded
  | .dupChunks | .resends | .collLaunched | .collDone | .collStaged | .fixedSteps
  | .timeExchanges | .tollBytes | .slices | .msgsDone | .logOverwrites | .faultsTakenC0
  | .faultsTakenC1 | .faultsTakenC2 | .faultsTakenC3 | .faultsTakenC4 | .e2TimeUs => 8
  | _ => 4

/-- A counter after n more events: it wraps at its width. -/
def Ctr.plus (c : Ctr) (v n : Nat) : Nat := (v + n) % 256 ^ c.bytes

/-- Table 3-11 (R71), in table order. -/
def stepCtrs : List Ctr :=
  [.stepsCommitted, .stepsKilled, .framesLate, .pauses, .admitDeferrals, .lateCancels,
   .recordsOverwritten]

/-- Table 4-10 (R95), in table order. -/
def routeCtrs : List Ctr :=
  [.tokensRouted, .assignments, .nullSkips, .nullCuts, .kmaxCuts, .tieCuts, .emptyTokens,
   .nanTokens, .predPairs, .predHits, .predAbandoned, .routeFlips, .routeWaits]

/-- Table 5-9 (R123), in table order. -/
def dispatchCtrs : List Ctr :=
  [.rowsDispatched, .rowsLocal, .bytesInjected, .subconvoys, .reservedLayers, .capacityDrops,
   .noReplicaDrops, .staleSkips, .standingPlans, .consultMisses, .rxRows, .rxRefused,
   .rxCrcDrops, .rxNoteDrops, .rxMisrouted, .rxRetired, .padRows]

/-- Table 6-7 (R146), in table order. -/
def retCtrs : List Ctr :=
  [.answersCombined, .staleReturns, .retiredReturns, .retUnmatched, .lateReturns, .dupReturns,
   .retCrcDrops, .retMisdirected, .retMismatch, .refusals, .lostReturns, .renormSlots,
   .nonfiniteReturns, .bayWaits, .spilledGroups, .quarantines, .quarantineExpiries, .landingWaits]

/-- Table 7-7 (R171), in table order. -/
def residCtrs : List Ctr :=
  [.fetchDemand, .fetchPrefetch, .fetchFill, .fetchMerged, .fetchBytes, .fetchWaits,
   .prefetchShed, .prefetchUsed, .heldRows, .evictFrames, .replicasAdded, .replicasRetired,
   .weightUe, .mirrorRecoveries, .stalledSets, .stallExpiries, .reloads]

/-- Table 8-13 (R193), in table order. -/
def arrayCtrs : List Ctr :=
  [.launches, .stringsRun, .stringsKilled, .stringFaults, .placeWaits, .mmaSteps, .sfnPasses,
   .arrayCe, .arrayUe]

/-- Table 9-6 (R210), in table order. -/
def sfnCtrs : List Ctr :=
  [.sfnEmptySlot, .normClamps, .sfnLoads, .sfnFlips]

/-- Table 10-6 (R229), in table order. -/
def layoutCtrs : List Ctr :=
  [.layoutCmds, .layoutBytes, .layoutRejects, .layoutKills, .layoutUe, .collisions,
   .transposeCmds, .layoutFlips]

/-- Table 11-8 (R253), in table order. -/
def tierCtrs : List Ctr :=
  [.evictColumns, .evictBlocked, .kvReturns, .lotsBorrowed, .lotsRecalled, .recallOverdue,
   .memUe, .tallyArrivals, .tallyTimeouts, .tallyLate, .tallySurplus, .tallyStale, .tallyRefused]

/-- Table 12-8 (R275), in table order. -/
def khanCtrs : List Ctr :=
  [.khanAllocs, .khanFrees, .khanFallbacks, .khanFails, .khanFragFails, .khanQuotaFails,
   .khanBadFrees, .khanDeferredFrees, .wsPushes, .wsPops, .wsFullWaits, .wsUnderruns, .wsPoison,
   .wsRewinds, .emitStalls]

/-- Table 13-12 (R297), in table order. -/
def portCtrs : List Ctr :=
  [.fecCorrected, .fecUncorrected, .linkCrcErrors, .replays, .retrains, .flitsTx, .flitsRx]

/-- Table 13-13 (R297), in table order. -/
def transpCtrs : List Ctr :=
  [.chunksRx, .hdrCrcDrops, .misrouted, .forwarded, .dupChunks, .windowDrops, .chunkCrcDrops,
   .reorderDrops, .resends, .detourPaths, .msgUnknown, .departures]

/-- Table 13-14 (R297), in table order. -/
def collCtrs : List Ctr :=
  [.collLaunched, .collBusy, .collDone, .collKilled, .collFaulted, .collStale, .collBayWaits,
   .collStaged]

/-- Table 14-11 (R316), in table order. -/
def timeCtrs : List Ctr :=
  [.lateStarts, .fixedSteps, .skewEvents, .skewTrips, .timeExchanges, .holdovers, .masterChanges]

/-- Table 15-7 (R335), in table order. -/
def partCtrs : List Ctr :=
  [.tollBytes, .tollWaits, .slices, .sliceSkips, .overrunKills, .teardowns, .partHalts]

/-- Table 16-12 (R366), in table order. -/
def fwCtrs : List Ctr :=
  [.msgsDone, .msgsRestarted, .watchdogExpiries, .winIgnored, .mctpBusy, .actDeferrals,
   .logOverwrites]

/-- Table 18-8 (R396), in table order. -/
def faultCtrs : List Ctr :=
  [.faultsTakenC0, .faultsTakenC1, .faultsTakenC2, .faultsTakenC3, .faultsTakenC4,
   .faultsDropped, .lastingFaults, .spareSwaps, .e1Entries, .e2Entries, .e2TimeUs, .ageingRaises]

/-- The value of a counter in a store of counters; an unlisted one is 0. -/
def ctrGet (t : Tbl Nat) (c : Ctr) : Nat := t.getD c.ctorIdx 0

/-- A store of counters after n more events of one counter. -/
def ctrAdd (t : Tbl Nat) (c : Ctr) (n : Nat) : Tbl Nat :=
  t.setD 0 c.ctorIdx (c.plus (ctrGet t c) n)

end Sys2Proof.Machine
end

