-- ==== Sys2Proof/Machine/TypesA.lean ====
section
/-! DEFINITION. State of the board, boot, host link, mailboxes, firmware processors, faults, health, Timebase and
partitions (01, 14 to 19). -/

namespace Sys2Proof.Machine

/-- Signals and straps of Table 19-1 and the package ID sampled from them (R397). -/
structure Board where
  pwrGood   : Bool
  perstN    : Bool
  throttleN : Bool
  straps    : Nat
  pkgId     : Nat
deriving DecidableEq, Repr

/-- Fuses: the one state that a loss of power keeps (R392, R399, R403, R409, R172, R173). -/
structure Fuses where
  /-- Physical cores recorded as defective or retired (R172, R173). -/
  badCores  : List Nat
  /-- Physical cores retired since manufacture (Table 8-2). -/
  retired   : Nat
  /-- Ageing fuses burnt, per quarter (R392). -/
  ageing    : List Nat
  /-- Fused security minimum, 0 to 64 (R403). -/
  secMin    : Nat
  /-- Lifecycle fuse: production locks every JTAG instruction but six (R418). -/
  production : Bool
deriving DecidableEq, Repr

/-- One flash device: its boot record (Table 19-5) and its bundle. -/
structure Flash where
  bytes   : Nat
  magic   : Bool
  epoch   : Nat
  proven  : Bool
  bundleBytes : Nat
  digest  : Nat
  bundle  : List Byte
deriving DecidableEq, Repr

/-- `BOOT_STATUS.STAGE` (Table 19-7). -/
inductive Stage where
  | rom | load | verify | start | train | serving | recovery | failed
deriving DecidableEq, Repr

/-- Boot progress (R404 to R410, Table 19-7). -/
structure Boot where
  stage    : Stage
  flash    : Nat
  flashOk  : List Bool
  recoveryFail : Bool
  /-- Candidate flashes still to try (R404). -/
  cands    : List Nat
  hbmUp    : List Bool
  hbmDone  : List Bool
  diesUp   : List Bool
  dieDone  : List Bool
  /-- UCIe modules trained per port (R416). -/
  modules  : List Nat
  cxlUp    : List Bool
  cxlDone  : List Bool
  /-- Capacity of each expander found at training (R415). -/
  cxlBytes : List Nat
  /-- T2 capacity of each compute die found at training (R231). -/
  dieBytes : List Nat
  ready    : Bool
  recoveryLen : Nat
  t1Copy   : Bool
  /-- Start of fabric training, and whether it is complete (R408). -/
  fabricStart : Nat
  fabricDone  : Bool
  /-- Bundle that runs, as read at boot. -/
  bundle   : List Byte
  /-- SHA-384 measurement M, Alias private key, UDS lock, DeviceID key erased (R409, R410). -/
  measM    : Nat
  aliasKey : Nat
  udsLocked : Bool
  deviceKeyErased : Bool
  /-- T1 rows waiting for post-package repair (Table 18-6). -/
  romPending : List Nat
deriving DecidableEq, Repr

/-- A Prota window: `WIN_CTRL` and its two buffers (R338, Table 16-5). -/
structure Win where
  irqEn    : Bool
  done     : Bool
  owner    : Bool
  bound    : Bool
  partMask : Nat
  session  : Nat
  req      : List (Nat × Byte)
  resp     : List Byte
deriving DecidableEq, Repr

/-- A session (R342 to R344). -/
structure Session where
  id      : Nat
  wins    : List Nat
  major   : Nat
  minor   : Nat
  granted : Nat
  mgmt    : Bool
deriving DecidableEq, Repr

/-- What an open message waits for. -/
inductive Phase where
  /-- Stamped, not yet routed by Steward. -/
  | unrouted
  /-- Routed; its owner has not taken it. -/
  | routed
  /-- Held during a boundary (R45). -/
  | heldBoundary
  /-- A `PMP_SEQ_OPEN` answered after the next boundary's phase 4 (R46): the sequence it reserved. -/
  | openWait (seq : Nat)
  /-- Waits for the shadow copy to be free, until the tick (R89). -/
  | reloadWait (untilTick : Nat)
  /-- Merged, completes at the flip to a generation (R89). -/
  | atFlip (gen : Nat)
  /-- A collective launch that waits for GO or abort (R290). -/
  | joinWait
  /-- A layout command whose map an earlier command of its queue may write: its checks end at its start (R214, R227). -/
  | layoutWait
  /-- A context destroy or a partition reset that waits for FREE (R331, R333). -/
  | freeWait
  /-- A reload that waits for the primary to be RESIDENT (R169). -/
  | residentWait (layer expert : Nat)
  /-- A context creation whose T1 or T2 waits for a recalled lot (R237). -/
  | lotWait
  /-- A stage whose flash write runs (R357). -/
  | flashWait
deriving DecidableEq, Repr

/-- An open Prota message (R338 to R341). -/
structure Msg where
  win     : Nat
  op      : Nat
  sess    : Nat
  tag     : Nat
  major   : Nat
  minor   : Nat
  stamp   : Nat
  payload : List Byte
  phase   : Phase
  crcEn   : Bool
  /-- Check 1 of R339 failed when the request was taken. -/
  fmtBad  : Bool
  /-- MCTP endpoint that sent it, for a virtual window (R414). -/
  eid     : Nat
  /-- Layout generation that its command binds to (R214). -/
  layGen  : Nat
deriving DecidableEq, Repr

/-- MCTP and I3C endpoint state, per path 0 PCIe VDM and 1 I3C (R414). -/
structure MctpPath where
  eid      : Nat
  /-- Message being assembled: source EID, tag, next packet number, bytes, tick of the last packet. -/
  asm      : Option (Nat × Nat × Nat × List Byte × Nat)
  /-- Assembled messages not yet answered: (source EID, message type, body). -/
  ready    : List (Nat × Nat × List Byte)
deriving DecidableEq, Repr

/-- SPDM state of one transport (R411): requests done so far. -/
structure Spdm where
  version  : Nat
  capsDone : Bool
  algDone  : Bool
deriving DecidableEq, Repr

/-- An SPDM request on a transport (Table 19-8). -/
inductive SpdmReq where
  | getVersion | getCapabilities (version : Nat) | negotiateAlgorithms (base hash : Nat)
  | getDigests | getCertificate (slot off len : Nat) | challenge (slot nonce : Nat)
  | getMeasurements (index : Nat) (sign : Bool) (nonce : Nat)
deriving DecidableEq, Repr

/-- An SPDM response; its fields are those that Tables 19-8 and 19-9 give. -/
inductive SpdmResp where
  | version (list : List Nat)
  | capabilities (cert chal measSig measFresh : Bool) (ctExponent : Nat)
  | algorithms (ecdsaP384 sha384 : Bool)
  | digests (slot0 : Nat)
  | certificate (part : List Byte) (remaining : Nat)
  | challengeAuth (chainDigest signature : Nat)
  | measurements (count : Nat) (blocks : List (Nat × Nat × Nat)) (signature : Option Nat)
  /-- Request not supported, or out of order. -/
  | error
deriving DecidableEq, Repr

/-- JTAG instruction in force (R418). -/
inductive TapInstr where
  | bypass | idcode | samplePreload | extest | clamp | highz
deriving DecidableEq, Repr

/-- Test access port (R418). -/
structure Tap where
  instr    : TapInstr
  boundary : Nat
  /-- Pins driven or released by the boundary-scan register. -/
  driving  : Bool
  released : Bool
deriving DecidableEq, Repr

/-- Host link, windows, sessions, open messages and management links. -/
structure HostIf where
  d3hot    : Bool
  linkUp   : Bool
  wins     : Tbl Win
  sessions : List Session
  nextSession : Nat
  msgs     : List Msg
  paths    : List MctpPath
  i3cAddr  : Nat
  spdm     : List Spdm
  /-- SPDM requests that wait for Steward (R411): (transport, request). -/
  spdmWait : List (Nat × SpdmReq)
  tap      : Tap
deriving DecidableEq, Repr

/-- Processor state of Table 16-4. -/
inductive FwSt where
  | off | running | restarting | failed
deriving DecidableEq, Repr

/-- A log record (Table 16-8). -/
structure LogRec where
  stamp : Nat
  point : Nat
  level : Nat
  words : List Nat
  seq   : Nat
deriving DecidableEq, Repr

/-- One firmware processor (Table 16-4, R348 to R354, R358). -/
structure Fwp where
  st         : FwSt
  cause      : Nat
  actPending : Bool
  watchdogMs : Nat
  imageRev   : Nat
  restartTick : Nat
  restarts   : Nat
  logSeq     : Nat
  log        : List LogRec
  /-- Ticks of the restarts that R354 counts, newest first. -/
  counted    : List Nat
  lastService : Nat
  ctr        : Tbl Nat
  /-- Bundle the processor runs. -/
  bundle     : List Byte
deriving DecidableEq, Repr

/-- `ACT_STATE` (Table 16-3). -/
inductive ActSt where
  | none | staged | deferred | activating | waitE0 | proving
deriving DecidableEq, Repr

/-- Staged update (R357 to R364). -/
structure Update where
  st        : ActSt
  staged    : Option (List Byte)
  /-- A flash write of a stage is in progress: the bundle. -/
  writing   : Option (List Byte)
  unequal   : Bool
  /-- Processors activated with the bundle that is being proved. -/
  activated : List Nat
  /-- Processor restarting for activation. -/
  current   : Option Nat
  /-- Tick from which `EMERGENCY_ACTIVE` has been 0 without a break. -/
  clearFrom : Nat
  /-- Tick from which no activated processor has restarted, while PROVING. -/
  provingFrom : Nat
  numerics  : Nat
  traceMask : Nat
  swapBusy  : Bool
deriving DecidableEq, Repr

/-- A fault message (R376). -/
structure FaultMsg where
  stamp  : Nat
  source : Nat
  kind   : Nat
  cls    : Nat
  ctx    : Nat
  dtype  : Nat
  detail : Nat
deriving DecidableEq, Repr

/-- `DEVICE_STATE` (Table 18-4). -/
inductive DevSt where
  | serving | stoppedC3 | stoppedC4
deriving DecidableEq, Repr

/-- An open counting window of a source (R385). -/
structure CountWin where
  source   : Nat
  opened   : Nat
  count    : Nat
  events   : Nat
  windowMs : Nat
deriving DecidableEq, Repr

/-- Fault Collector, fault store and counting windows (R376 to R386). -/
structure Faults where
  /-- Messages that wait at the arbiter. -/
  arriving : List FaultMsg
  /-- Fault queue: messages lost just before each one, and the message (R378, R379). -/
  queue    : List (Nat × FaultMsg)
  /-- Messages dropped since the last one queued. -/
  dropped  : Nat
  latches  : List (Option FaultMsg)
  overLost : List Bool
  irqClass : Nat
  irqPend  : Bool
  dev      : DevSt
  thermTrip : Bool
  /-- Fault store: (sequence number, message), oldest first. -/
  store    : List (Nat × FaultMsg)
  nextSeq  : Nat
  /-- Tick of the reset that ended a C3, if one did (R384). -/
  endedC3  : Option Nat
  windows  : List CountWin
  events   : Nat
  windowMs : Nat
  /-- Lasting-pending sources: (source, events, window). -/
  lasting  : List (Nat × Nat × Nat)
  ctr      : Tbl Nat
deriving DecidableEq, Repr

/-- A trigger of Table 18-7a in force: its code and the tick from which its end condition has held. -/
structure Trigger where
  code  : Nat
  okFrom : Option Nat
deriving DecidableEq, Repr

/-- One quarter (Table 14-2, R387 to R393, R301). -/
structure Quarter where
  vset   : Nat
  vmeas  : Nat
  tj     : Nat
  level  : Nat
  pace   : Nat
  skew   : Bool
  skewTrip : Bool
  /-- Move that Warden makes under R301, in mV. -/
  move   : Int
  triggers : List Trigger
  /-- Own-power samples of the last 1 ms, newest first, in W. -/
  power  : List Nat
  /-- Ageing loss summed over the hour as a fraction, and samples taken (R392). -/
  lossNum : Int
  lossDen : Nat
  lossCount : Nat
deriving DecidableEq, Repr

/-- A neighbour pair under R301: the tick from which it has stayed within 160 mV and 28 °C. -/
structure SkewPair where
  a      : Nat
  b      : Nat
  beyond : Bool
  /-- Warden has logged and answered the skew. -/
  told   : Bool
  /-- Quarters of the pair put into E2 for it. -/
  trip   : List Nat
  okFrom : Option Nat
deriving DecidableEq, Repr

/-- Health and power of the package (18). -/
structure Health where
  quarters : List Quarter
  pairs    : List SkewPair
  /-- Package samples of the last 10 ms, newest first, in W. -/
  samples  : List Nat
  peak     : Nat
  levelMax : Nat
  /-- First pace sample of the unbroken run of samples with every quarter at E0 (R356). -/
  e0From   : Option Nat
  lastPace : Nat
  ageFrom  : Nat
deriving DecidableEq, Repr

/-- `STATE` of Table 14-4. -/
inductive TbSt where
  | free | acquiring | aligned | holdover
deriving DecidableEq, Repr

/-- Timebase (R303 to R307). -/
structure Timebase where
  count    : Nat
  st       : TbSt
  master   : Nat
  hops     : Nat
  offset   : Int
  delay    : Int
  /-- `ALIGN_BOUND` at the last exchange; it grows with the drift since (R306, R307). -/
  bound    : Nat
  /-- Twice the last offsets, newest first, at most 16 (R306: halves are exact). -/
  offsets  : List Int
  exchanges : Nat
  loaded   : Bool
  lastExchange : Nat
  lastSlew : Nat
  /-- Nanoseconds still to slew: the counter is to move by this much. -/
  slew     : Int
  /-- Package aligned to and the port used. -/
  peer     : Nat
  port     : Nat
  /-- Bound of the peer in its last timestamp. -/
  peerBound : Nat
  heldFrom : Nat
  heldLogged : Bool
  /-- Per port: `T_SEND` of the last timestamp received, the own count at its arrival, the sender's `HOPS`. -/
  echo     : Tbl (Nat × Nat × Nat)
  ctr      : Tbl Nat
deriving DecidableEq, Repr

/-- One Toll Gate: Table 15-4, its bucket and its counters (R325). -/
structure Gate where
  rate   : Nat
  burst  : Nat
  weight : Nat
  bucket : Int
  bytes  : Nat
  waits  : Nat
deriving DecidableEq, Repr

/-- A slice that ended while work started in it still runs (R321). -/
structure Overrun where
  ctx      : Nat
  /-- Start of the slice. -/
  slice    : Nat
  deadline : Nat
deriving DecidableEq, Repr

/-- Partition record and gates (Table 15-1). -/
structure Part where
  enabled   : Bool
  sched     : Bool
  halted    : Bool
  coreFirst : Nat
  coreCount : Nat
  overrunUs : Nat
  holder    : Nat
  gates     : List Gate
  sliceStart : Nat
  overruns  : List Overrun
  /-- Scan pointer of free-mode placement (R188). -/
  scan      : Nat
  ctr       : Tbl Nat
deriving DecidableEq, Repr

/-- Context share record (Table 15-3). -/
structure Share where
  ctx       : Nat
  partition : Nat
  mode      : Nat
  seqFirst  : Nat
  seqCount  : Nat
  wsFirst   : Nat
  wsCount   : Nat
  tpFirst   : Nat
  tpCount   : Nat
  stagingMib : Nat
  rxMib     : Nat
  table64k  : Nat
  t1Mib     : Nat
  t2Mib     : List Nat
  t4Gib     : Nat
  t3Lots    : Nat
  classSplit : Nat
  dModel    : Nat
  stepLimit : Nat
  sliceUs   : Nat
deriving DecidableEq, Repr

/-- Reset value of a window (Table 16-5). -/
def Win.fresh : Win := ⟨false, false, false, false, 0x01, 0, [], []⟩

/-- Reset value of a processor (Table 16-4). -/
def Fwp.fresh : Fwp := ⟨.off, 0, false, 0x14, 0, 0, 0, 0, [], [], 0, [], []⟩

/-- Reset value of a quarter with its base set-point (Table 14-2, R392). -/
def Quarter.fresh (age : Nat) : Quarter :=
  ⟨0x2D0 + 5 * age, 0, 0, 0, 0x1000, false, false, 0, [], [], 0, 1, 0⟩

/-- Reset value of a Toll Gate (Table 15-4, R325). -/
def Gate.fresh : Gate := ⟨0xFFFF, 0x400, 0x10, 0x400 * 1024, 0, 0⟩

/-- Reset value of a partition record (Table 15-1): partition 0 is enabled with every core. -/
def Part.fresh (p : Nat) : Part :=
  ⟨p == 0, false, false, 0, if p = 0 then 0x200 else 0, 0x2710, 0, List.replicate 7 Gate.fresh, 0, [], 0, []⟩

/-- The share record of a FREE context (Table 15-3 resets). -/
def Share.fresh : Share := ⟨0, 0, 0, 0, 0, 0, 0, 0, 0, 0, 0, 0, 0, [0, 0, 0, 0], 0, 0, 0, 0, 0, 0⟩

/-- The 34 neighbour pairs of quarters (R300). -/
def neighbourPairs : List (Nat × Nat) :=
  ((List.range 3).map (fun f =>
      ((List.range 3).map (fun i => (8 * f + i, 8 * f + i + 1)))
      ++ ((List.range 3).map (fun i => (8 * f + 4 + i, 8 * f + 5 + i)))
      ++ ((List.range 4).map (fun i => (8 * f + i, 8 * f + 4 + i))))).flatten
  ++ ((List.range 2).map (fun f => [(8 * f + 3, 8 * f + 8), (8 * f + 7, 8 * f + 12)])).flatten

/-- Empty flash device (R403): the model starts with none programmed. -/
def Flash.empty (n : Nat) : Flash := ⟨n, false, 0, false, 0, 0, []⟩

end Sys2Proof.Machine
end

