-- ==== Sys2Proof/Machine/Prota.lean ====
section
/-! DEFINITION. Prota payloads, headers and status codes: every operand form of a message (16, 17 R367 to R371). -/

namespace Sys2Proof.Machine

/-- Status codes of Table 17-1 (R370). -/
inductive Status where
  | ok | busy | format | version | bounds | denied | noMemory | fwRestarted | deferred | cancelled
  | unavailable | timeout | faulted | unsupported
deriving DecidableEq, Repr

/-- The 16-bit code of a status (Table 17-1). -/
def Status.code (st : Status) : Nat := st.ctorIdx

/-- A payload field (R367): an unsigned integer of n bytes, a record or bitmap of n bits, or bytes. -/
inductive Fld where
  | u8 | u16 | u32 | u64
  | r (bits : Nat)
deriving DecidableEq, Repr

/-- Bytes of a field. -/
def Fld.size : Fld → Nat
  | .u8 => 1 | .u16 => 2 | .u32 => 4 | .u64 => 8
  | .r n => n / 8

/-- Placement of a field: integers at multiples of their size, records of 64 bits or more at multiples of 8. -/
def Fld.align : Fld → Nat
  | .r n => if 64 ≤ n then 8 else n / 8
  | f => f.size

/-- The first status of a list of checks, in order, whose condition holds. -/
def firstBad : List (Bool × Status) → Option Status
  | [] => none
  | (bad, st) :: r => if bad then some st else firstBad r

/-- Offset of the first byte of a field placed after offset `o` (R367). -/
def Fld.place (f : Fld) (o : Nat) : Nat := roundUp o f.align

/-- End offset of fields placed from offset `o`. -/
def fieldsEnd : List Fld → Nat → Nat
  | [], o => o
  | f :: r, o => fieldsEnd r (f.place o + f.size)

/-- `n` bytes from offset `o`; missing bytes read as zero. -/
def takeBytes (bs : List Byte) (o n : Nat) : List Byte :=
  (List.range n).map (fun i => bs.getD (o + i) 0)

/-- The number that `n` bytes from offset `o` spell. -/
def numAt (bs : List Byte) (o n : Nat) : Nat := ofLE (takeBytes bs o n)

/-- Values of the fields, each with the check that the bytes skipped before it are zero (R367, R8). -/
def readFields : List Fld → Nat → List Byte → Option (List Nat)
  | [], _, _ => some []
  | f :: r, o, bs =>
    let p := f.place o
    if numAt bs o (p - o) ≠ 0 then none
    else
      match readFields r (p + f.size) bs with
      | none => none
      | some vs => some (numAt bs p f.size :: vs)

/-- Reads a request of fixed length: `LENGTH` must be the end of the last field (R367). -/
def readRequest (fs : List Fld) (bs : List Byte) : Option (List Nat) :=
  if bs.length = fieldsEnd fs 0 then readFields fs 0 bs else none

/-- Writes fields from offset `o`; skipped bytes are zero, an integer is cut to its width. -/
def writeFrom : List (Fld × Nat) → Nat → List Byte
  | [], _ => []
  | (f, v) :: r, o =>
    let p := f.place o
    toLE (p - o) 0 ++ toLE f.size v ++ writeFrom r (p + f.size)

/-- A response payload (R367). -/
def writeFields (fs : List (Fld × Nat)) : List Byte := writeFrom fs 0

/-- A counter as a response field of its width (R369). -/
def ctrFld (t : Tbl Nat) (c : Ctr) : Fld × Nat :=
  (if c.bytes = 8 then .u64 else .u32, ctrGet t c)

/-- A whole counter table as response fields, in table order (R369). -/
def ctrFlds (t : Tbl Nat) (l : List Ctr) : List (Fld × Nat) := l.map (ctrFld t)

/-- A message header (Table 16-6). -/
structure Header where
  op     : Nat
  status : Nat
  length : Nat
  res1   : Nat
  sess   : Nat
  tag    : Nat
  major  : Nat
  minor  : Nat
  resp   : Bool
  crcEn  : Bool
  handler : Nat
  res2   : Nat
  stamp  : Nat
  crc    : Nat
  res3   : Nat
deriving DecidableEq, Repr

/-- Splits the 32 bytes of a header (Table 16-6). -/
def Header.read (bs : List Byte) : Header :=
  let x := numAt bs 0 32
  ⟨bits x 0 16, bits x 16 16, bits x 32 12, bits x 44 4, bits x 48 16, bits x 64 32, bits x 96 8, bits x 104 8,
   bit x 112, bit x 113, bits x 114 3, bits x 117 11, bits x 128 64, bits x 192 32, bits x 224 32⟩

/-- The 32 bytes of a header (Table 16-6). -/
def Header.write (h : Header) : List Byte :=
  toLE 32 (packF [(0, 16, h.op), (16, 16, h.status), (32, 12, h.length), (44, 4, h.res1), (48, 16, h.sess),
    (64, 32, h.tag), (96, 8, h.major), (104, 8, h.minor), (112, 1, b2n h.resp), (113, 1, b2n h.crcEn),
    (114, 3, h.handler), (117, 11, h.res2), (128, 64, h.stamp), (192, 32, h.crc), (224, 32, h.res3)])

/-- Firmware processors in their numbering (Table 1-3). -/
def fwSteward : Nat := 0
def fwCaravan : Nat := 1
def fwGuide : Nat := 2
def fwWayfinder : Nat := 3
def fwQuarter : Nat := 4
def fwWarden : Nat := 5

/-- Owning processor of an opcode (Table 16-7). -/
def owner (op : Nat) : Nat :=
  if op ≤ 0x00FF then fwSteward
  else if op ≤ 0x01FF then fwCaravan
  else if op ≤ 0x02FF then fwGuide
  else if op ≤ 0x03FF then fwQuarter
  else if op ≤ 0x04FF then fwWayfinder
  else if op ≤ 0x050F then fwQuarter
  else if op ≤ 0x05FF then fwCaravan
  else if op ≤ 0x060F then fwWayfinder
  else if op ≤ 0x061F then fwCaravan
  else if op ≤ 0x07FF then fwSteward
  else if op ≤ 0x081F then fwWarden
  else if op ≤ 0x082F then fwWayfinder
  else fwWarden

/-- Opcodes of Tables 17-2 to 17-10 with the version that introduced each: (opcode, major, minor) (R371, R374). -/
def opcodes : List (Nat × Nat × Nat) :=
  [(0x0001, 2, 0), (0x0002, 2, 0), (0x0003, 3, 0), (0x0004, 2, 0),
   (0x0100, 2, 0), (0x0101, 2, 0), (0x0102, 2, 0), (0x0103, 2, 0), (0x0104, 2, 0), (0x0105, 2, 0),
   (0x0106, 2, 4), (0x0110, 2, 4), (0x0111, 2, 4)]
  ++ [(0x0200, 2, 0), (0x0201, 2, 0), (0x0210, 2, 0), (0x0211, 2, 0), (0x0212, 2, 0), (0x0213, 3, 0),
   (0x0214, 3, 0), (0x0215, 3, 1), (0x0216, 3, 0), (0x0217, 3, 0), (0x0218, 3, 0), (0x0219, 3, 0),
   (0x0220, 2, 4), (0x0221, 3, 0), (0x0222, 3, 0), (0x0223, 3, 0), (0x0224, 3, 0), (0x0230, 3, 0),
   (0x0231, 3, 0), (0x0232, 3, 0), (0x0233, 3, 0)]
  ++ [(0x0300, 3, 0), (0x0301, 3, 0), (0x0302, 3, 2), (0x0303, 3, 0), (0x0310, 2, 0), (0x0311, 2, 0),
   (0x0312, 3, 0), (0x0314, 3, 0), (0x0320, 2, 0), (0x0321, 2, 0), (0x0322, 2, 0), (0x0323, 2, 0),
   (0x0324, 2, 0), (0x0325, 2, 0), (0x0326, 2, 0), (0x0340, 3, 0), (0x0341, 3, 0)]
  ++ [(0x0400, 2, 0), (0x0401, 2, 0), (0x0402, 2, 0), (0x0403, 2, 0), (0x0404, 3, 0), (0x0405, 3, 1),
   (0x0500, 3, 0), (0x0501, 3, 0), (0x0502, 3, 0), (0x0503, 3, 0), (0x0504, 3, 0), (0x0508, 3, 0),
   (0x0509, 3, 0), (0x050A, 3, 0), (0x0510, 3, 0), (0x0511, 3, 0)]
  ++ [(0x0600, 2, 0), (0x0610, 3, 0), (0x0611, 3, 0), (0x0620, 2, 0), (0x0621, 2, 0), (0x0622, 3, 0),
   (0x0623, 2, 0), (0x0624, 3, 0), (0x0625, 3, 0), (0x0640, 3, 0), (0x0641, 3, 0), (0x0642, 3, 0)]
  ++ [(0x0700, 2, 0), (0x0701, 2, 0), (0x0702, 3, 0), (0x0703, 2, 0), (0x0704, 3, 0), (0x0705, 3, 0),
   (0x0710, 2, 0), (0x0711, 3, 0), (0x0800, 2, 0), (0x0801, 3, 0), (0x0802, 3, 0), (0x0810, 3, 0),
   (0x0820, 3, 0), (0x0830, 3, 0)]

/-- Whether a version holds an opcode: a major-3 opcode is absent from major 2; minors count within the
introducing major (R371, R374). -/
def opInVersion (op major minor : Nat) : Bool :=
  opcodes.any (fun e => e.1 == op &&
    (if e.2.1 = 3 then decide (major = 3 ∧ e.2.2 ≤ minor)
     else decide (major = 3 ∨ (major = 2 ∧ e.2.2 ≤ minor))))

/-- Messages whose names end in `_QUERY` or `_STATS` (R383). -/
def opQueryStats (op : Nat) : Bool :=
  [0x0105, 0x0212, 0x0213, 0x0216, 0x0218, 0x0221, 0x0224, 0x0231, 0x0233, 0x0300, 0x0303, 0x0314, 0x0322,
   0x0341, 0x0404, 0x0501, 0x0503, 0x050A, 0x0600, 0x0611, 0x0625, 0x0642, 0x0703, 0x0802, 0x0810, 0x0820,
   0x0830].contains op

/-- Opcodes reserved to the management session (R318, R344, R350, R351, R356 to R358, R363, R235, Table 17-10). -/
def opManagement (op : Nat) : Bool :=
  [0x0003, 0x0302, 0x0500, 0x0502, 0x0504, 0x0700, 0x0701, 0x0704, 0x0705, 0x0711, 0x0801].contains op

/-- Feature bit that gates an opcode (Table 17-11). -/
def opFeature (op : Nat) : Nat :=
  if op = 0x0215 then 2
  else if 0x0620 ≤ op ∧ op ≤ 0x0625 then 4
  else if op = 0x0230 then 5
  else if 0x0400 ≤ op ∧ op ≤ 0x0405 then 6
  else if op = 0x0302 then 8
  else if op = 0x0223 then 12
  else if op = 0x0711 then 13
  else 0

/-- Feature bits that a request's flags and field values need beside its opcode's (Table 17-11).  `KV_STOCH` stands in
the model descriptor and is checked by `PMP_MODEL_LOAD`. -/
def fieldFeatures (op : Nat) (crcEn : Bool) (p : List Byte) : List Nat :=
  (if crcEn then [10] else [])
  ++ (if op = 0x0100 ∧ bit (numAt p 4 4) 0 then [1] else [])
  ++ (if op = 0x0214 ∧ numAt p 8 16 % 4 = 1 then [2] else [])
  ++ (if op = 0x0610 ∧ numAt p 1 1 = 1 then [3] else [])
  ++ (if op = 0x0508 ∧ bit (numAt p 0 64) 7 then [3] else [])
  ++ (if op = 0x0508 ∧ bits (numAt p 0 64) 296 16 ≠ 0 then [8] else [])
  ++ (if op = 0x0500 ∧ bit (numAt p 4 4) 1 then [9] else [])
  ++ (if op = 0x0222 ∧ numAt p 8 16 % 4 = 1 then [12] else [])
  ++ (if op = 0x0621 ∧ bit (numAt p 0 32) 22 then [3] else [])
  ++ (if op = 0x0340 ∧ bit (numAt p 0 40) 79 then [3] else [])
  ++ (if op = 0x0401 ∧ bit (numAt p 0 40) 31 then [3] else [])
  ++ (if op = 0x0401 ∧ bits (numAt p 0 40) 16 3 = 6 then [7] else [])

/-- Features that a session of a major may be granted: B0 supports bits 0 to 13; major 2 only 0, 1, 4, 6, 10. -/
def supportedFeatures (major : Nat) : Nat := if major = 2 then maskOf [0, 1, 4, 6, 10] else 0x3FFF

/-- `C` field of a request (R367): the first byte. -/
def msgCtx (p : List Byte) : Nat := numAt p 0 1

end Sys2Proof.Machine
end

