-- ==== Sys2Proof/Machine/TypesF.lean ====
section
/-! DEFINITION. State of the fabric: ports, link, transport paths and collectives (13). -/

namespace Sys2Proof.Machine

/-- Port state (Table 13-3). -/
inductive PortSt where
  | off | training | up4 | up2 | failed
deriving DecidableEq, Repr

/-- A whole chunk, or the rest of one, that waits for flit slots of a port. -/
structure TxChunk where
  /-- Forwarded for a detour (R286). -/
  fwd   : Bool
  /-- Bytes of the chunk already sent lie before these. -/
  bytes : List Byte
  /-- No byte of the chunk has been sent yet. -/
  whole : Bool
  /-- Toll Gate 0 charges of a new local chunk of classes 0 to 3: (partition, bytes) (R326). -/
  charge : List (Nat × Nat)
  /-- A Toll Gate has held it back. -/
  held   : Bool
  /-- Link credits that a forwarded chunk returns once it is on its way: port, class, flits, and when that port came up
  (R281). -/
  back   : Option (Nat × Nat × Nat × Nat)
deriving DecidableEq, Repr

/-- One fabric port (Table 13-3, R278 to R281, R287). -/
structure Port where
  st        : PortSt
  peer      : Nat
  spareIn   : Bool
  spareFor  : Nat
  lanesGood : Nat
  backsSpare : Bool
  /-- Lanes with a lasting fault, bit 4 for the group's spare (R278). -/
  badLanes  : Nat
  /-- Tick at which the port came up (R286), and at which it last went down (R288). -/
  upFrom    : Nat
  downAt    : Nat
  /-- Link sequence number of the next data flit. -/
  txSeq     : Nat
  /-- Unacknowledged data flits, oldest first: SEQ, header without its acknowledgement and credit fields, payload. -/
  replay    : List (Nat × Nat × List Byte)
  /-- SEQs that a replay has still to send again, oldest first. -/
  resend    : List Nat
  lastProgress : Nat
  replayRuns : Nat
  rxSeq     : Nat
  /-- A NAK was sent and flits are discarded until the expected one (R280). -/
  nakSent   : Bool
  nakDue    : Bool
  ackDue    : Bool
  /-- Link credits held per class (R281). -/
  credits   : List Nat
  /-- Link credits to return per class. -/
  giveBack  : List Nat
  /-- Chunks waiting per class. -/
  tx        : List (List TxChunk)
  /-- Received bytes per class not yet taken as chunks; the offsets in them at which a chunk was said to begin; and the
  bytes left of each flit that holds them. -/
  rx        : List (List Byte)
  rxMarks   : List (List Nat)
  rxFlits   : List (List Nat)
  /-- Flit slots counted in the run of 60, in the run of 10,000, those given to forwarded chunks and to the three
  limited classes in it (R279, R287, Table 18-7b). -/
  slot60    : Nat
  slotRun   : Nat
  fwdRun    : Nat
  limitRun  : Nat
  /-- Turns left of the weighted round robin (R287): RETURN, DISPATCH, COLLECTIVE, MEMORY, forwarded. -/
  turns     : List Nat
  /-- Turns left of the partitions at Toll Gate 0 (R325). -/
  partTurns : List Nat
  lastStamp : Nat
  ctr       : Tbl Nat
  /-- A timestamp flit is due in the reserved slot (R305). -/
  stampDue  : Bool
deriving DecidableEq, Repr

/-- An unacknowledged chunk of a path: its PSN, payload, first send tick and the stream offset after it. -/
structure SentChunk where
  psn     : Nat
  payload : List Byte
  tick    : Nat
  endOff  : Nat
deriving DecidableEq, Repr

/-- A path stream out of this package: one destination, one class (R282 to R286). -/
structure PathOut where
  /-- Bytes of the stream not yet in a chunk, message by message: (partition, bytes). -/
  stream   : List (Nat × List Byte)
  /-- Tick at which the last byte became ready. -/
  lastByte : Nat
  nextPsn  : Nat
  unacked  : List SentChunk
  credits  : Nat
  opened   : Bool
  detour   : Option Nat
  /-- Tick of the last move to a detour. -/
  movedAt  : Nat
  /-- Resend timeouts in a row (R286). -/
  timeouts : Nat
  lastProgress : Nat
  /-- Bytes ever put into the stream, and bytes acknowledged. -/
  queuedEnd : Nat
  ackedEnd  : Nat
  lastPort : Nat
deriving DecidableEq, Repr

/-- A path stream into this package: one origin, one class (R283, R284). -/
structure PathIn where
  expected : Nat
  reorder  : List (Nat × List Byte)
  /-- Stream bytes in effect that are not yet a whole message. -/
  part     : List Byte
  /-- Tick from which an acknowledgement entry is due. -/
  ackFrom  : Option Nat
  nackDue  : Bool
  /-- Chunks taken into effect since the last entry: credits to return. -/
  giveBack : Nat
deriving DecidableEq, Repr

/-- A 256 MiB lot that this package lends (R235 to R237). -/
structure Lent where
  base     : Nat
  borrower : Nat
  ctx      : Nat
  recalled : Option Nat
  logged   : Bool
deriving DecidableEq, Repr

/-- Lending of this package's idle memory (R235). -/
structure Lending where
  lendT1   : Nat
  lendT2   : Nat
  recallMs : Nat
  /-- Lots lent, oldest grant first. -/
  lots     : List Lent
deriving DecidableEq, Repr

/-- A dispatch message held on its path (R106): 0 a row, 1 a note, 2 a retire notice; its waybill, note header or epoch; a note's
entries or a notice's context; a row's bytes. -/
structure HeldRx where
  src     : Nat
  kind    : Nat
  word    : Nat
  entries : List Nat
  data    : List Byte
deriving DecidableEq, Repr

/-- Fabric of the package. -/
structure Fabric where
  ports    : List Port
  outs     : Tbl PathOut
  ins      : Tbl PathIn
  /-- Packages present (R288, R304), this one included once its fabric is trained. -/
  present  : List Nat
  departed : List Nat
  /-- Per package: tick of the last acknowledgement, or from which chunks to it have been pending (R288). -/
  silent   : Tbl Nat
  /-- A peer presented this package's own ID: every port stays down (R16). -/
  twin     : Bool
  /-- Acknowledgement entries received and not yet taken, oldest first: (origin package, entry of Table 13-8). -/
  entries  : List (Nat × Nat)
  /-- Highest emergency level of other packages, as last told. -/
  peerLevel : Tbl Nat
  /-- Packages whose last note failed its CRC: rows on their path are discarded (R116). -/
  noNote   : List Nat
  /-- Rows without room in their receive area and what came behind them on their paths, in order of arrival (R106). -/
  heldRx   : List HeldRx
deriving DecidableEq, Repr

/-- A collective group of a context (R289). -/
structure CollGroup where
  id        : Nat
  members   : List Nat
  timeoutUs : Nat
  /-- The last 256 completed: (COLL_ID, state). -/
  finished  : List (Nat × Nat)
  /-- Joins that reached the leader before its own launch: (COLL_ID, index, admission granted, record CRC). -/
  early     : List (Nat × Nat × Bool × Nat)
deriving DecidableEq, Repr

/-- A collective launch record (Table 13-10). -/
structure CollRec where
  group   : Nat
  ctx     : Nat
  op      : Nat
  redOp   : Nat
  inFmt   : Nat
  outFmt  : Nat
  fixed   : Bool
  collId  : Nat
  count   : Nat
  root    : Nat
  tallyEn : Bool
  tally   : Nat
  inH     : Nat
  outH    : Nat
  wH      : Nat
  wFmt    : Nat
  kDim    : Nat
  nDim    : Nat
deriving DecidableEq, Repr

/-- An open slab at its owner (R292, R293). -/
structure Slab where
  index : Nat
  /-- Source of its bay: 0 the collectives' floor, 1 the shared pool. -/
  bay   : Nat
  /-- Staging of its pieces in fixed-order mode: a handle, 0 for none. -/
  staging : Nat
  acc   : Row
  /-- Member indices already added. -/
  added : List Nat
  /-- Pieces that wait for their turn in fixed-order mode: (member index, elements). -/
  staged : List (Nat × Row)
deriving DecidableEq, Repr

/-- A collective in flight on this package (R290 to R296). -/
structure Coll where
  info    : CollRec
  /-- Running: GO has been received. -/
  running : Bool
  started : Nat
  crc     : Nat
  /-- Joins at the leader: (member index, admission granted, record CRC). -/
  joins   : List (Nat × Bool × Nat)
  decided : Bool
  /-- Sources of the bays held and not in an open slab, as `Slab.bay`. -/
  spareBays : List Nat
  /-- Staging handles held and not in an open slab (R292), or those of pieces not yet consumed (R295). -/
  spareStaging : List Nat
  open_   : List Slab
  nextSlab : Nat
  /-- Owned slabs finished. -/
  slabsDone : Nat
  /-- Ranges of the output written so far, as slab or member numbers. -/
  written : List Nat
  /-- The next slab waits for a bay, since this tick. -/
  bayWait : Option Nat
  /-- Sends not yet acknowledged: (path key, stream offset after the message). -/
  sends   : List (Nat × Nat)
  /-- Own pieces sent: slab numbers. -/
  sentPieces : List Nat
deriving DecidableEq, Repr

/-- Lending at reset (R235). -/
def Lending.fresh : Lending := ⟨64, 0, 50, []⟩

/-- A port at reset. -/
def Port.fresh : Port :=
  ⟨.off, 0, false, 0, 0, false, 0, 0, 0, 0, [], [], 0, 0, 0, false, false, false, [0, 0, 0, 0, 0], [0, 0, 0, 0, 0],
   List.replicate 5 [], List.replicate 5 [], List.replicate 5 [], List.replicate 5 [], 0, 0, 0, 0, [4, 2, 2, 1, 2],
   List.replicate 8 0, 0, [], false⟩

/-- A path out before its first byte. -/
def PathOut.fresh : PathOut := ⟨[], 0, 0, [], 0, false, none, 0, 0, 0, 0, 0, 127⟩

/-- A path in before its first chunk. -/
def PathIn.fresh : PathIn := ⟨0, [], [], none, false, 0⟩

/-- The fabric at reset. -/
def Fabric.fresh : Fabric := ⟨List.replicate 128 Port.fresh, [], [], [], [], [], false, [], [], [], []⟩

end Sys2Proof.Machine
end

