-- ==== Sys2Proof/Machine/TypesM.lean ====
section
/-! DEFINITION. State of Khan, Waystations and Tally Posts (11 Table 11-6, 12). -/

namespace Sys2Proof.Machine

/-- A handle-table slot (R257). -/
structure KSlot where
  base   : Nat
  extent : Nat
  /-- Class of its block (Table 12-1). -/
  cls    : Nat
  /-- Requester's engine code (Table 12-3). -/
  engine : Nat
  tag    : Nat
  live   : Bool
deriving DecidableEq, Repr

/-- Khan's pool of one tier and die (R254, R263): chunks with their class, allocated blocks with the engine charged,
and the entries in each class's cache. -/
structure Pool where
  /-- Chunk base address to class. -/
  chunks : Tbl Nat
  /-- Allocated block address to engine. -/
  used   : Tbl Nat
  cached : List Nat
deriving DecidableEq, Repr

/-- Khan of one context: handle table, the pools T0, T1 and T2 of dies 0 to 3, and quotas. -/
structure Khan where
  slots  : Tbl KSlot
  /-- Next slot never used, and freed slots, oldest first (R261). -/
  nextNew : Nat
  freed  : List Nat
  pools  : List Pool
  /-- Quota by engine × 8 + pool (R259). -/
  quotas : Tbl Nat
  /-- Handles whose free waits for a generation (R262). -/
  deferred : List Nat
deriving DecidableEq, Repr

/-- The default quota: no limit (R259). -/
def noQuota : Nat := 0xFFFFFFFFFF

/-- An empty pool. -/
def Pool.fresh : Pool := ⟨[], [], List.replicate 8 0⟩

/-- Khan of a context before its pools are carved. -/
def Khan.fresh : Khan := ⟨[], 1, [], List.replicate 6 Pool.fresh, [], []⟩

/-- One Waystation (Table 12-5, R266, R267, R270). -/
structure Ws where
  /-- 0 FREE, 1 ACTIVE, 2 SELTOS. -/
  st         : Nat
  ctx        : Nat
  width      : Nat
  consumer   : Nat
  hostPush   : Bool
  lanePush   : Bool
  markHeld   : Bool
  underrun   : Bool
  poisonSeen : Bool
  depthLog2  : Nat
  middle     : Nat
  writePtr   : Nat
  readPtr    : Nat
  releasePtr : Nat
  markPtr    : Nat
  lastPush   : Nat
  /-- Words not yet released, oldest first: bits and poison tag. -/
  words      : List (Nat × Bool)
  /-- The last word that a read delivered (R270). -/
  last       : Nat × Bool
  /-- Words in the head and in the middle; the rest are in the tail (R267). -/
  headN      : Nat
  midN       : Nat
  /-- Strings that wait to push: (context, launch handle, string index), oldest first (R268). -/
  pushers    : List (Nat × Nat × Nat)
deriving DecidableEq, Repr

/-- A FREE Waystation (Table 12-5 resets). -/
def Ws.fresh : Ws := ⟨0, 0, 0, 0, false, false, false, false, false, 0, 0, 0, 0, 0, 0, 0, [], (0, false), 0, 0, []⟩

/-- One Tally Post (Table 11-6). -/
structure Post where
  /-- 0 IDLE, 1 ARMED, 2 RELEASED, 3 TIMED_OUT. -/
  st       : Nat
  ctx      : Nat
  lateMode : Bool
  remoteOk : Bool
  lateWs   : Nat
  target   : Nat
  arrived  : Nat
  phase    : Nat
  /-- Strings that wait: (context, launch handle, string index). -/
  waiters  : List (Nat × Nat × Nat)
  deadline : Nat
  valueOr  : Nat
  valueMax : Nat
  /-- Late records that wait for room in `LATE_WS` (R249, R268). -/
  late     : List Nat
deriving DecidableEq, Repr

/-- All ones: no deadline. -/
def noDeadline : Nat := 0xFFFFFFFFFFFFFFFF

/-- A post at reset (Table 11-6). -/
def Post.fresh : Post := ⟨0, 0, false, false, 0, 0, 0, 0, [], noDeadline, 0, 0, []⟩

end Sys2Proof.Machine
end

