-- ==== Sys2Proof/Machine/TypesS.lean ====
section
/-! DEFINITION. State of sequences, KV columns, steps, convoy layers, routing tables, dispatch, reception, returns and
expert residency (03 to 07, 09, 10). -/

namespace Sys2Proof.Machine

/-- Sequence state (Table 3-2). -/
inductive SeqSt where
  | free | waiting | prefill | decode | idle | leaving
deriving DecidableEq, Repr

/-- One Sequence Table entry (Table 3-1) with its control block's lists (R421, R420). -/
structure Seq where
  st        : SeqSt
  ctx       : Nat
  part      : Nat
  kvFar     : Bool
  paused    : Bool
  retire    : Bool
  emitWs    : Nat
  perFrame  : Nat
  tag       : Nat
  pos       : Nat
  maxLen    : Nat
  deadline  : Nat
  period    : Nat
  frameDone : Nat
  pauses    : Nat
  misses    : Nat
  seed      : Nat
  cb        : Nat
  temp      : Nat
  topP      : Nat
  topK      : Nat
  stopSet   : Nat
  turnSet   : Nat
  /-- Column list and ring list: column numbers of the KV Page Keeper. -/
  cols      : List Nat
  ring      : List Nat
  /-- Feed ring: pending input tokens, a moved pending token at its head (R420). -/
  feed      : List Nat
  /-- Segments of the feed ring: (Khan handle, tokens of it still pending). -/
  segs      : List (Nat × Nat)
  /-- Receipt stamps of the feeds still pending: (stamp, tokens left). -/
  stamps    : List (Nat × Nat)
  /-- The sampled token that the next DECODE entry places (R420). -/
  pendTok   : Option Nat
  openStamp : Nat
  usePrefix : Bool
  /-- A loss since the last emit record: the next one carries `DEGRADED` (R131). -/
  degraded  : Bool
deriving DecidableEq, Repr

/-- A FREE entry (R43). -/
def Seq.fresh : Seq :=
  ⟨.free, 0, 0, false, false, false, 0, 0, 0, 0, 0, 0, 0, 0, 0, 0, 0, 0, 0, 0, 0, 0, 0, [], [], [], [], [], none, 0,
   false, false⟩

/-- Where a far column lies: a lot of a lender, or this package's T4 (R240). -/
inductive FarPlace where
  | lot (lender base : Nat) | t4
deriving DecidableEq, Repr

/-- A KV column (R62, R63, R154). -/
structure Col where
  ring     : Bool
  granules : List Nat
  count    : Nat
  /-- Page tokens, kept beside the count for the prefix tree (R65). -/
  tokens   : List Nat
  stamp    : Nat
  far      : Option FarPlace
  /-- Contents while far: cells by offset in the column. -/
  saved    : List (Nat × Byte)
deriving DecidableEq, Repr

/-- A prefix-tree node (R65). -/
structure Node where
  key     : Nat
  parent  : Nat
  tokens  : List Nat
  col     : Nat
  matched : Nat
deriving DecidableEq, Repr

/-- A borrowed lot (R236): lender, base address there, kind, bytes in use, and whether it is being recalled. -/
structure Borrowed where
  lender   : Nat
  base     : Nat
  granted  : Nat
  recalled : Bool
deriving DecidableEq, Repr

/-- KV Page Keeper of a context (R62, R65, R419). -/
structure Kv where
  cols     : Tbl Col
  nextCol  : Nat
  /-- Free lists: the granules of each formed column. -/
  freeFull : List (List Nat)
  freeRing : List (List Nat)
  tree     : List Node
  /-- Eviction requests pending: (full columns, ring columns) still short (R419, R240). -/
  wanted   : Nat × Nat
  /-- Granules freed for the pending request, and whether it has been counted as blocked (R240, R419). -/
  covered  : Nat
  blocked  : Bool
  lots     : List Borrowed
  /-- Memory hints in force and held: (sequence, kind) (R242). -/
  hints    : List (Nat × Nat)
  heldHints : List (Nat × Nat)
  noLend   : Bool
  /-- Granules of columns evicted between boundaries, which join the pool in phase 2 (R56). -/
  evicted  : List Nat
deriving DecidableEq, Repr

/-- A Manifest entry (Table 3-6) with the sampler fields of its build (R66) and what becomes of it in the step. -/
structure Entry where
  seq      : Nat
  slot     : Nat
  tokens   : Nat
  convoyB  : Bool
  sample   : Bool
  start    : Nat
  cb       : Nat
  temp     : Nat
  topP     : Nat
  topK     : Nat
  seed     : Nat
  stopSet  : Nat
  turnSet  : Nat
  /-- Token IDs placed, and the feeds that they came from: (receipt stamp, tokens). -/
  input    : List Nat
  taken    : List (Nat × Nat)
  shrunk   : Bool
  /-- Cancelled with a generation raise: commit skips it (R54). -/
  skipped  : Bool
  cancelled : Bool
  drops    : Nat
  degraded : Bool
  /-- Sampled token, `BAD_LOGITS` as none inside. -/
  result   : Option (Option Nat)
deriving DecidableEq, Repr

/-- The Manifest of the step in flight (Table 3-5) and the generations it binds (R89, R190). -/
structure Manifest where
  epoch    : Nat
  fixed    : Bool
  tokens   : Nat
  tokensA  : Nat
  entries  : List Entry
  genA     : Nat
  genB     : Nat
  /-- Generation raises made in each convoy (R54). -/
  raisesA  : Nat
  raisesB  : Nat
  buildTick : Nat
  routeGen : Nat
  sfnGen   : Nat
  layGen   : Nat
  /-- Return timeout in force at the build, in µs (R139). -/
  returnUs : Nat
  dropsTotal : Nat
  reservedAny : Bool
  /-- Layers that the projection or the host switched to reserved (R111, R113). -/
  switched : List Nat
  /-- Faults logged once per step: 0 GATE_NAN, 1 NO_REPLICA, 2 RETURN_TIMEOUT. -/
  logged   : List Nat
deriving DecidableEq, Repr

/-- Step control of a context (R48, R52, R55, R69, R70, R310, R328). -/
structure Steps where
  tokenLimit : Nat
  prefillChunk : Nat
  mode     : Bool
  nextEpoch : Nat
  man      : Option Manifest
  /-- Epochs committed and epochs killed, as bit sets over the 65,536 values. -/
  doneMask : Nat
  killedMask : Nat
  /-- The step killed since its boundary: phase 1 commits nothing (R55). -/
  ring     : Nat
  ringHead : Nat
  ringOldest : Nat
  /-- Records in the ring, oldest first: (offset, bytes). -/
  records  : List (Nat × Nat)
  /-- Since the last committed step: paused, admitted and left sequences (R69), with the flags of Table 3-10 from bit 48. -/
  notes    : Tbl Nat
  /-- Noted sequences that have become FREE since: ID, flags, last `POSITION`. -/
  gone     : List (Nat × Nat × Nat)
  /-- Durations of the last 16 steps and costs of the last 16 later sub-convoys (R111). -/
  lastSteps : List Nat
  lastSubs : List Nat
  /-- The wait of R269 has been counted for the coming boundary. -/
  stalled  : Bool
  /-- A boundary is in progress: it stands between phases 2 and 3 behind a hold, a slice or a quarantine. -/
  between  : Bool
  /-- Slice and time in which the step started (R321). -/
  sliceAt  : Nat
deriving DecidableEq, Repr

/-- A waybill (Table 4-4). -/
structure Bill where
  epoch : Nat
  gen   : Nat
  ctx   : Nat
  src   : Nat
  slot  : Nat
  seq   : Nat
  layer : Nat
  expert : Nat
  rank  : Nat
  weight : Nat
  flags : Nat
  dst   : Nat
  replica : Nat
  rowAddr : Nat
  ret   : Nat
  crc   : Nat
deriving DecidableEq, Repr

/-- Slot record (Table 6-1) with the rows that belong to the slot. -/
structure Slot where
  emitted  : Nat
  kept     : Nat
  done     : Nat
  emptied  : Bool
  gen      : Nat
  dropMask : Nat
  late     : Bool
  degraded : Bool
  spilled  : Bool
  sNorm    : Nat
  causes   : List Nat
  qws      : List Nat
  /-- Combine row of free mode, or plane 0 once summed. -/
  acc      : Row
  /-- Planes of fixed-order mode: (rank, row widened). -/
  planes   : List (Nat × Row)
  /-- The combine row is final: scaled or summed. -/
  summed   : Bool
  handed   : Bool
deriving DecidableEq, Repr

/-- A slot record before its layer. -/
def Slot.fresh : Slot :=
  ⟨0, 0, 0, false, 0, 0, false, false, false, 0, List.replicate 16 0, List.replicate 16 0, [], [], false, false⟩

/-- A sub-convoy (R107, R108, R121, R140). -/
structure Sub where
  dst      : Nat
  index    : Nat
  last     : Bool
  bills    : List Bill
  /-- Finally sealed (R114). -/
  sealed_  : Bool
  released : Bool
  injected : Bool
  releasedAt : Nat
  deadline : Nat
  /-- Landing rows still EMPTY among those the note counts. -/
  waits    : List Nat
  finished : Bool
deriving DecidableEq, Repr

/-- A row group of a combine region (R135, R137): bays held and where from, or spilled. -/
structure Group where
  index   : Nat
  spilled : Bool
  /-- Bays taken from: the layer's minimum, the context's set-aside, the shared pool. -/
  fromMin : Nat
  fromSet : Nat
  fromPool : Nat
  waitFrom : Option Nat
deriving DecidableEq, Repr

/-- Progress of one convoy layer of the step in flight. -/
structure Layer where
  /-- Hidden rows landed: slot to (die, BF16 row), and the converted rows (R118). -/
  hidden   : Tbl (Nat × List Nat)
  convRows : Tbl (List Byte)
  resid    : Tbl (Nat × List Nat)
  /-- Scores of the gate: slot to (q, qw, a logit was NaN). -/
  scores   : Tbl (List Nat × List Nat × Bool)
  gated    : Bool
  predRun  : Bool
  predDone : Bool
  selected : List Nat
  /-- Assignments counted so far by real expert (R86). -/
  hist     : Tbl Nat
  slots    : Tbl Slot
  /-- Waybills emitted and not yet route-sealed, in emission order; then those kept. -/
  raw      : List Bill
  kept     : List Bill
  /-- Weighted round robin by expert (R99), and kept counts by expert × 16 + replica (R101). -/
  robin    : Tbl (List Int)
  keptBy   : Tbl Nat
  /-- Assignments marked by the stall policy, and since when the set is held (R168). -/
  stalled  : List Bill
  stallFrom : Option Nat
  sealing  : Bool
  reserved : Bool
  caps     : Tbl Nat
  sorted   : Bool
  subs     : List Sub
  landWait : Bool
  groups   : List Group
  minLeft  : Nat
  /-- Accepted answers that wait for a bay: (waybill, row). -/
  queue    : List (Bill × List Nat)
  softBays : Nat
  softCredits : Tbl Nat
  done     : Bool
  /-- Tick at which the set became complete at the input of the sort, and once sorted of the final seal (R96). -/
  due      : Option Nat
  /-- Rows by destination for which transport credits are claimed and not yet spent (R120). -/
  hardCredits : Tbl Nat
deriving DecidableEq, Repr

/-- A layer before its first row. -/
def Layer.fresh : Layer :=
  ⟨[], [], [], [], false, false, false, [], [], [], [], [], [], [], [], none, false, false, [], false, [], false, [], 0, [],
   0, [], false, none, []⟩

/-- A landing entry (Table 6-2): its state, slot, rank and sub-convoy. -/
structure Landing where
  st   : Nat
  slot : Nat
  rank : Nat
  sub  : Nat
deriving DecidableEq, Repr

/-- A sub-convoy whose rows were injected: destination, index, deadline tick, and its landing rows with their sequences
(R140). -/
structure Outstanding where
  dst      : Nat
  index    : Nat
  deadline : Nat
  rows     : List (Nat × Nat)
deriving DecidableEq, Repr

/-- A landing buffer (R125, R142). -/
structure LandBuf where
  epoch   : Nat
  layer   : Nat
  convoyB : Bool
  /-- Slots of the convoy: first and one past the last (R61). -/
  first   : Nat
  past    : Nat
  table   : Nat
  entries : List Landing
  quarantined : Bool
  /-- Completion or kill tick. -/
  from_   : Option Nat
  returnUs : Nat
  /-- Of a step that has committed: `SLOT_GEN` of its slots, the sub-convoys that were injected, and whether its
  `RETURN_TIMEOUT` has been logged (R127, R140). -/
  gens    : Tbl Nat
  outst   : List Outstanding
  logged  : Bool
deriving DecidableEq, Repr

/-- A replica entry (Table 4-8). -/
structure Replica where
  pkg    : Nat
  die    : Nat
  active : Bool
  share  : Nat
deriving DecidableEq, Repr

/-- An expert entry (Table 4-7) with its replicas. -/
structure Expert where
  avail    : Bool
  mirrored : Bool
  hintHeld : Bool
  cause    : Nat
  replicas : List Replica
deriving DecidableEq, Repr

/-- A layer's configurations in a route copy (Tables 4-1, 5-2, 6-5) with its bias vector. -/
structure LayerCfg where
  cfg  : Nat
  disp : Nat
  planWs : Nat
  comb : Nat
  bias : List Nat
deriving DecidableEq, Repr

/-- A copy of the route table (R88). -/
structure Route where
  layers  : Tbl LayerCfg
  /-- By layer × 65,536 + expert. -/
  experts : Tbl Expert
deriving DecidableEq, Repr

/-- The second copy of a double-buffered table (R89). -/
inductive Other (α : Type) where
  | free
  | shadow (c : α)
  /-- The copy before the last flip, still referenced. -/
  | old (c : α)
deriving DecidableEq, Repr

/-- A double-buffered table (R89, R207, R211). -/
structure Gen (α : Type) where
  gen    : Nat
  active : α
  other  : Other α
deriving DecidableEq, Repr

/-- A change that Guide makes to a route table (R89, R158, R159, R166 to R170). -/
inductive GuideChange where
  /-- Entry of a replica index: appended where it is the next one, else replaced. -/
  | entry (layer expert index : Nat) (r : Replica)
  | deactivate (layer expert replica : Nat)
  | avail (layer expert : Nat) (up : Bool) (cause : Nat)
  | mirrored (layer expert : Nat) (on : Bool)
  | dropDie (pkg die : Nat)
  | dropPkg (pkg : Nat)
  | setShare (pkg share : Nat)
  | hint (layer expert : Nat) (held : Bool)
deriving DecidableEq, Repr

/-- A user function of a special-function table: header and segment words (Table 9-5). -/
structure UserFn where
  header   : Nat
  segments : List Nat
  /-- Buffer of the `PMP_SFN_LOAD` that brought it (R262). -/
  handle   : Nat
deriving DecidableEq, Repr

/-- A model (Table 17-5). -/
structure Model where
  share    : Option Nat
  stoch    : Bool
  moe      : Nat
  page     : Nat
  vocab    : Nat
  heads    : Nat
  headDim  : Nat
  window   : Nat
  imageBytes : Nat
  /-- KV format and sliding-window flag of each attention layer. -/
  attn     : List Nat
  /-- `LAST_EXPERT` per MoE layer. -/
  last     : List Nat
  stops    : List (List Nat)
  turns    : List (List Nat)
  complete : Bool
deriving DecidableEq, Repr

/-- Source and mirror of an expert's image (R147 to R149).  `kind` is 4 for the far pool of `pkg`, else the base address
of the lot there that holds the image. -/
structure Source where
  pkg    : Nat
  kind   : Nat
  image  : List Byte
  /-- CRC-32C of each 4 KiB chunk (R148). -/
  crcs   : List Nat
  bad    : Bool
  mirror : Option (Nat × Nat)
deriving DecidableEq, Repr

/-- A replica frame on this package (Table 7-2). -/
structure Frame where
  layer   : Nat
  expert  : Nat
  replica : Nat
  die     : Nat
  /-- 0 COLD, 1 FETCHING, 2 RESIDENT, 3 DRAINING. -/
  st      : Nat
  granules : List Nat
  stamp   : Nat
  prefetched : Bool
deriving DecidableEq, Repr

/-- A request at a die's fetch arbiter (R153), and its progress once started. -/
structure Fetch where
  layer   : Nat
  expert  : Nat
  replica : Nat
  die     : Nat
  prio    : Nat
  stamp   : Nat
  started : Bool
  waited  : Bool
  /-- Copy read: 0 replica here, 1 replica elsewhere, 2 source, 3 mirror; and the next chunk. -/
  copy    : Nat
  chunk   : Nat
  /-- Replica index read for a copy 0 or 1, and those whose read was uncorrectable (R152). -/
  source  : Nat
  tried   : List Nat
deriving DecidableEq, Repr

/-- A secondary that the leader has ordered and whose entry has not come yet (R157, R158). -/
structure FillOrder where
  layer   : Nat
  expert  : Nat
  replica : Nat
  pkg     : Nat
  die     : Nat
deriving DecidableEq, Repr

/-- A removal in progress (R159): acknowledged by these packages. -/
structure Removal where
  layer   : Nat
  expert  : Nat
  replica : Nat
  acks    : List Nat
  ackedAt : Option Nat
deriving DecidableEq, Repr

/-- Expert residency of a context on this package (07). -/
structure Resid where
  policy  : Nat
  /-- The policy of the plan period in force: `FREEZE`, the loads and `REPLICA_CAP` are read here (R165). -/
  planPolicy : Nat
  sources : Tbl Source
  frames  : List Frame
  fetches : List Fetch
  heat    : Tbl Nat
  /-- Hints by layer × 65,536 + expert: (kind, value) applied, and held. -/
  hints   : Tbl (List (Nat × Nat))
  held    : Tbl (List (Nat × Nat))
  /-- Experts reported unreadable, with no reload completed (R167). -/
  unread  : List Nat
  /-- Heat reports held by the leader: package × 2^25 + layer × 65,536 + expert. -/
  reports : Tbl Nat
  lastPlan : Nat
  removals : List Removal
  /-- Packages where the context is resident, as announced. -/
  resident : List Nat
  /-- Removals written here and not yet acknowledged: (layer, expert, replica) (R159). -/
  toAck    : List (Nat × Nat × Nat)
  /-- Removals that this holder has asked the leader for (R159). -/
  asked    : List (Nat × Nat × Nat)
  /-- The leader's orders that are not yet entries (R157). -/
  orders   : List FillOrder
deriving DecidableEq, Repr

/-- A consignment note held by a receiver (Tables 5-4, 5-5). -/
structure RxNote where
  id      : Nat
  src     : Nat
  epoch   : Nat
  layer   : Nat
  convoyB : Bool
  reserved : Bool
  lastSub : Bool
  fixed   : Bool
  sub     : Nat
  rows    : Nat
  format  : Nat
  /-- (expert, replica, rows, capacity, rows taken so far). -/
  entries : List (Nat × Nat × Nat × Nat × Nat)
  arrived : Nat
  got     : Nat
  /-- The return timeout passed with the note incomplete: its rows are discarded (R122). -/
  expired : Bool
deriving DecidableEq, Repr

/-- A row in the receive area. -/
structure RxRow where
  /-- Note that announced the row, 0 for none. -/
  note : Nat
  bill : Nat
  src  : Nat
  /-- Convoy that its note names. -/
  convoyB : Bool
  data : List Byte
deriving DecidableEq, Repr

/-- A batch of one (layer, expert, replica) (R117). -/
structure Batch where
  layer   : Nat
  expert  : Nat
  replica : Nat
  opened  : Nat
  closed  : Bool
  /-- Tick at which it closed. -/
  closedAt : Nat
  /-- Handed to the die: its rows wait for their answers. -/
  handed  : Bool
  fixed   : Bool
  rows    : List RxRow
  /-- Pad rows to form at the hand-over: note's epoch and convoy, and how many. -/
  pads    : List (Nat × Bool × Nat)
deriving DecidableEq, Repr

/-- Reception for a context (R105, R106, R116, R117, R122). -/
structure Rx where
  nextNote : Nat
  notes   : List RxNote
  batches : List Batch
  /-- Epochs retired by a home: (package, epoch). -/
  retired : List (Nat × Nat)
  /-- `RX_AREA` announced by each destination. -/
  areas   : Tbl Nat
deriving DecidableEq, Repr

/-- Capacity plans (R109, R113). -/
structure Plans where
  /-- Published for the step in flight and standing: layer × 2 + convoy to capacities by expert × 16 + replica. -/
  now      : Tbl (Tbl Nat)
  standing : Tbl (Tbl Nat)
  host     : Tbl (Tbl Nat)
  hostReserved : List Nat
  /-- Histograms of the step in flight, by layer × 2 + convoy, and of the last committed step with its tokens. -/
  hist     : Tbl (Tbl Nat)
  lastHist : Tbl (Tbl Nat)
  lastTokens : Nat
  /-- Predicted counts: layer × 65,536 + expert; pairs predicted at distance one: layer and slot to experts. -/
  pred     : Tbl Nat
  pairs    : Tbl (List Nat)
  /-- Histogram buffers of plan requests (R113). -/
  requests : List Nat
deriving DecidableEq, Repr

end Sys2Proof.Machine
end

