-- ==== Sys2Proof/Machine/TypesL.lean ====
section
/-! DEFINITION. State of the Scoring Array and the Layout Engine: cores, kernels, launches, strings and commands
(08, 10). -/

namespace Sys2Proof.Machine

/-- Core map entry (Table 8-1). -/
structure Core where
  phys   : Nat
  /-- 0 ENABLED, 1 RETIRING, 3 ABSENT. -/
  st     : Nat
  since  : Nat
deriving DecidableEq, Repr

/-- The Scoring Array's core map (Table 8-2). -/
structure Cores where
  cores   : List Core
  /-- Physical cores that are working spares. -/
  spares  : List Nat
  retired : Nat
deriving DecidableEq, Repr

/-- A loaded kernel (R185). -/
structure Kernel where
  handle : Nat
  entry  : Nat
  code   : List Nat
  fpAtomic : Bool
deriving DecidableEq, Repr

/-- What a resident string waits for, if it is not ready (R181). -/
inductive Wait where
  | none
  | tally (post : Nat)
  /-- Woken by its post: the value that `TP_WAIT` returns. -/
  | woken (value : Nat)
  | ws (w : Nat)
  /-- A load from other packages: destination register and (lane, package) still open. -/
  | mem (dst : Nat) (lanes : List (Nat × Nat))
deriving DecidableEq, Repr

/-- A string (R178): registers by lane, predicates by lane, tiles and scratch. -/
structure Str where
  /-- 0 WAITING, 1 RESIDENT, 2 gone. -/
  st    : Nat
  /-- Logical core; in fixed-order mode, while WAITING, the core whose room the string waits for (R188). -/
  core  : Nat
  /-- It has found no room and entered WAITING for it (Table 8-13 `PLACE_WAITS`). -/
  waited : Bool
  /-- Offset of its scratch in the core's. -/
  scratch : Nat
  pc    : Nat
  /-- Register r of lane l at r × 64 + l; predicate p of lane l at p × 64 + l. -/
  regs  : List Nat
  preds : List Bool
  /-- Accumulator tiles of 64 × 96 elements owned. -/
  tiles : List (List Nat)
  claims : Nat
  wait  : Wait
  /-- Stores and atomics to other packages not yet acknowledged: path key and stream offset. -/
  sent  : List (Nat × Nat)
deriving DecidableEq, Repr

/-- A launch (Table 8-8). -/
structure Launch where
  id     : Nat
  kernel : Nat
  prio   : Nat
  fixed  : Bool
  strings : Nat
  scratch4k : Nat
  tilesN : Nat
  items  : Nat
  tallyEn : Bool
  tally  : Nat
  args   : Nat
  startTick : Nat
  /-- 0 HELD, 1 RUNNING, 2 DONE, 3 CANCELLED, 4 FAULTED. -/
  st     : Nat
  nextItem : Nat
  routeGen : Nat
  sfnGen : Nat
  layGen : Nat
  strs   : List Str
  accepted : Nat
  sliceAt : Nat
  /-- State in which a killed launch completes once its strings' stores are acknowledged (R187, R244). -/
  dying  : Option Nat
deriving DecidableEq, Repr

/-- A layout command (Table 10-2) in the queue or running. -/
structure Cmd where
  raw    : Nat
  layGen : Nat
  /-- Launch whose string pushed it (R228). -/
  launch : Option Nat
  running : Bool
  sliceAt : Nat
  poisoned : Bool
  /-- Status code of the check of R223 that failed at its start. -/
  bad    : Option Nat
  /-- The response of its `PMP_LAYOUT_RUN` is still to come (R214). -/
  answer : Bool
  /-- Source and destination map entries as its start read them (R217). -/
  maps   : Option (List Nat × List Nat)
deriving DecidableEq, Repr

/-- Kernels, launches and layout commands of a context. -/
structure Lanes where
  kernels  : Tbl Kernel
  launches : List Launch
  nextLaunch : Nat
  /-- Finished launches still known: (handle, state), newest first (Table 17-9). -/
  known    : List (Nat × Nat)
  layoutWs : Nat
  cmds     : List Cmd
deriving DecidableEq, Repr

/-- KV Page Keeper at a context's creation. -/
def Kv.fresh : Kv := ⟨[], 0, [], [], [], (0, 0), 0, false, [], [], [], false, []⟩

/-- Step control at a context's creation (R48, R52): limit, mode and ring address from the share record. -/
def Steps.fresh (limit : Nat) (mode : Bool) (ring : Nat) : Steps :=
  ⟨limit, 8192, mode, 0, none, 0, 0, ring, 0, 0, [], [], [], [], [], false, false, 0⟩

/-- A double-buffered table at a context's creation. -/
def Gen.fresh {α : Type} (a : α) : Gen α := ⟨0, a, .free⟩

/-- Residency at a context's creation, with the policy of Table 7-5's Reset column. -/
def Resid.fresh : Resid :=
  let p := packF [(8, 16, 0x000A), (24, 16, 0x0100), (40, 16, 0x0040), (56, 16, 0x2000), (72, 16, 0x0064), (88, 16, 0x0008)]
  ⟨p, p, [], [], [], [], [], [], [], [], 0, [], [], [], [], []⟩

/-- Reception at a context's creation. -/
def Rx.fresh : Rx := ⟨1, [], [], [], []⟩

/-- Plans at a context's creation. -/
def Plans.fresh : Plans := ⟨[], [], [], [], [], [], 0, [], [], []⟩

/-- Kernels and launches at a context's creation. -/
def Lanes.fresh : Lanes := ⟨[], [], 1, [], 0, []⟩

/-- The core map that fuses give (R172): logical cores on the first 512 good physical cores, the rest are spares. -/
def Cores.fresh (bad : List Nat) (retired : Nat) : Cores :=
  let good := (List.range 520).filter (fun n => !bad.contains n)
  ⟨(List.range 512).map (fun i => match good[i]? with | some n => ⟨n, 0, 0⟩ | none => ⟨0, 3, 0⟩), good.drop 512, retired⟩

end Sys2Proof.Machine
end

