-- ==== Sys2Proof/Machine/TypesZ.lean ====
section
/-! DEFINITION. Contexts (15 R322, R330) and what leaves the block. -/

namespace Sys2Proof.Machine

/-- Context state (Table 17-8, R330, R331). -/
inductive CtxSt where
  | free | active | teardown
deriving DecidableEq, Repr

/-- One context: everything the package holds for it. -/
structure Ctx where
  st        : CtxSt
  share     : Share
  /-- Tick of step 2 of the teardown (R331). -/
  tornAt    : Nat
  /-- A `PMP_STEP_KILL` with `HOLD` keeps the next phase 3 (R328). -/
  held      : Bool
  /-- The teardown has been reported as stuck (R382). -/
  stuck     : Bool
  returnUs  : Nat
  ctr       : Tbl Nat
  khan      : Khan
  kv        : Kv
  steps     : Steps
  /-- Convoy layers of the step in flight, by layer × 2 + convoy. -/
  layers    : Tbl Layer
  lands     : List LandBuf
  model     : Option Model
  route     : Gen Route
  sfn       : Gen (Tbl UserFn)
  /-- Numerics revision of the built-in functions, in force at creation (R207). -/
  sfnRev    : Nat
  lay       : Gen (Tbl Nat)
  /-- Guide's own changes that wait for the old route copy (R89). -/
  guideWait : List GuideChange
  resid     : Resid
  rx        : Rx
  plans     : Plans
  lanes     : Lanes
  groups    : List CollGroup
  colls     : List Coll
  /-- Bays of the set-aside in use (R136), beyond nothing: minima included. -/
  setUsed   : Nat
  /-- Bytes of the spill reserve (R138). -/
  spill     : Nat
  /-- Base addresses of the 4 MiB units of token staging and of kinds 1 and 2 that the context's shares take (R324). -/
  units     : List Nat
  /-- Bytes of each route copy as allocated, and the handles of both (R88). -/
  copyBytes : Nat
  copyH     : List Nat
deriving DecidableEq, Repr

/-- A FREE context. -/
def Ctx.fresh : Ctx := ⟨.free, Share.fresh, 0, false, false, 100, [], Khan.fresh, Kv.fresh,
  Steps.fresh 0 false 0, [], [], none, Gen.fresh ⟨[], []⟩, Gen.fresh [], 0, Gen.fresh [], [], Resid.fresh, Rx.fresh, Plans.fresh,
  Lanes.fresh, [], [], 0, 0, [], 0, []⟩

/-- What leaves the block, oldest first: the environment sees nothing else. -/
inductive Out where
  /-- A PCIe read completion with its value. -/
  | completion (value : Nat)
  /-- An aperture read completion with its bytes. -/
  | data (bytes : List Byte)
  /-- An aperture read completion with a poisoned TLP (R412). -/
  | poisoned
  /-- Completion as Unsupported Request (R337, R412). -/
  | unsupported
  /-- An MSI-X write of a vector (Table 19-10). -/
  | msix (vector : Nat)
  /-- An MCTP message to an endpoint on a path: 0 PCIe VDM, 1 I3C. -/
  | mctp (path eid type : Nat) (body : List Byte)
  /-- A completion of an MCTP control message: the completion code. -/
  | mctpControl (path code : Nat)
  /-- An SPDM response on a transport: 0 DOE, 1 MCTP over VDM, 2 MCTP over I3C. -/
  | spdm (transport : Nat) (r : SpdmResp)
  /-- The payload of a timestamp flit that a port received, handed to the Timebase, which takes it as `TIMESTAMP_RECEIVE`
  (Table 14-5, log entry 114). -/
  | timestamp (port : Nat) (t : Timestamp)
  /-- A fabric message to a package (Table 13-6): type, context, fields and body. -/
  | msg (dst type ctx : Nat) (fields : List Nat) (body : List Byte)
  /-- A flit on a port (Table 13-4). -/
  | flit (port : Nat) (bytes : List Byte)
  /-- A received message handed to the block that takes it: type, context, source and body. -/
  | deliver (type ctx src : Nat) (body : List Byte)
  /-- A transfer to a compute die (Table 19-11): port, type, context, epoch, layer, convoy, slot, pad, body. -/
  | ucie (port type ctx epoch layer : Nat) (convoyB : Bool) (slot : Nat) (pad : Bool) (body : List Byte)
  /-- A memory access transfer whose data is poisoned (R234): port, context, body. -/
  | uciePoison (port ctx : Nat) (body : List Byte)
  /-- What the test port shifts out on TDO (R418). -/
  | tdo (value : Nat)
deriving DecidableEq, Repr

end Sys2Proof.Machine
end

