-- ==== Sys2Proof/Machine/State.lean ====
section
/-! DEFINITION. The state of the block, its reasons to stop, and the state after reset. -/

namespace Sys2Proof.Machine

/-- Reasons for which a command stops the machine. -/
inductive Fault where
  /-- Raised by `UCIE_MEMORY_ACCESS`: the address does not exist (R230, R231) and the spec gives the transfer no
  outcome there. Safe: the hardware may go on where the model stops. -/
  | noSuchAddress
deriving DecidableEq, Repr

/-- Reasons for which a command is refused. -/
inductive Refusal where
  /-- Raised by `exec` for a command without a meaning. Safe: nothing is claimed of it. -/
  | notModelled (mnemonic : String)
deriving DecidableEq, Repr

/-- Everything the spec gives the machine, and the queue of waiting commands. -/
structure State where
  board   : Board
  fuses   : Fuses
  flashes : List Flash
  boot    : Boot
  host    : HostIf
  fws     : List Fwp
  upd     : Update
  flt     : Faults
  hlt     : Health
  tb      : Timebase
  parts   : List Part
  ctxs    : List Ctx
  fab     : Fabric
  lend    : Lending
  mem     : List Host.Cell
  ws      : Tbl Ws
  posts   : Tbl Post
  seqs    : Tbl Seq
  cores   : Cores
  /-- Bays in use of the collectives' floor and of the shared pool (R136). -/
  floorUsed : Nat
  poolUsed  : Nat
  /-- Counters kept per package: firmware and mailbox (R366), transport (R297). -/
  ctr     : Tbl Nat
  /-- The model's own count of free values drawn. -/
  freeCtr : Nat
  /-- Last tick at which a rate-limited fault kind was logged. -/
  lastLog : Tbl Nat
  /-- 64-byte lines whose next read returns poisoned data (R234, R415). -/
  poison  : List Nat
  pending : List Instr
  out     : List Out
deriving DecidableEq, Repr

/-- Fuses of a part as the model starts it: no defect, no ageing, minimum 0, production lifecycle. -/
def Fuses.fresh : Fuses := ⟨[], 0, List.replicate 24 0, 0, true⟩

/-- Boot progress at reset (Table 19-7). -/
def Boot.fresh : Boot :=
  ⟨.rom, 0, [false, false], false, [], [false, false], [false, false], List.replicate 4 false,
   List.replicate 4 false, List.replicate 4 0, [false, false], [false, false], [0, 0], [0, 0, 0, 0], false, 0, false,
   0, false, [], 0, 0, false, false, []⟩

/-- Host link and mailboxes at reset. -/
def HostIf.fresh : HostIf :=
  ⟨false, false, [], [], 1, [], List.replicate 2 ⟨0, none, []⟩, 0x5A, List.replicate 3 ⟨0, false, false⟩, [],
   ⟨.idcode, 0, false, false⟩⟩

/-- Update engine at reset (Table 16-3). -/
def Update.fresh : Update := ⟨.none, none, none, false, [], none, 0, 0, 0, 0, false⟩

/-- Fault Collector at reset (Table 18-4, R385). -/
def Faults.fresh : Faults :=
  ⟨[], [], 0, List.replicate 5 none, List.replicate 5 false, 0x1, false, .serving, false, [], 0, none, [], 16, 1000,
   [], []⟩

/-- Health at reset for given ageing fuses. -/
def Health.fresh (age : List Nat) : Health :=
  ⟨(List.range 24).map (fun q => Quarter.fresh (age.getD q 0)),
   neighbourPairs.map (fun p => ⟨p.1, p.2, false, false, [], none⟩), [], 0, 0, none, 0, 0⟩

/-- Timebase at reset (Table 14-4, R303). -/
def Timebase.fresh : Timebase :=
  ⟨0, .free, 0, 0, 0, 0, 0xFFFF, [], 0, false, 0, 0, 0, 0, 0, 0, 0, false, [], []⟩

/-- The block with everything at its reset value, over given fuses, flash devices and straps. -/
def State.fresh (fz : Fuses) (fl : List Flash) (straps : Nat) : State where
  board := ⟨true, false, true, straps, straps⟩
  fuses := fz
  flashes := fl
  boot := Boot.fresh
  host := HostIf.fresh
  fws := List.replicate 6 Fwp.fresh
  upd := Update.fresh
  flt := Faults.fresh
  hlt := Health.fresh fz.ageing
  tb := Timebase.fresh
  parts := (List.range 8).map Part.fresh
  ctxs := List.replicate 16 Ctx.fresh
  fab := Fabric.fresh
  lend := Lending.fresh
  mem := []
  ws := []
  posts := []
  seqs := []
  cores := Cores.fresh fz.badCores fz.retired
  floorUsed := 0
  poolUsed := 0
  ctr := []
  freeCtr := 0
  lastLog := []
  poison := []
  pending := []
  out := []

/-- The machine right after `PWR_GOOD` rose: every register at its reset value, `PERST#` low, no command waiting. -/
def State.reset : State := State.fresh Fuses.fresh [Flash.empty 67108864, Flash.empty 67108864] 0

end Sys2Proof.Machine
end

