-- ==== Sys2Proof/Machine/Ops.lean ====
section
/-! DEFINITION. The named operations over the state that every meaning shares: counters, memory, faults, windows,
sessions and responses. -/

namespace Sys2Proof.Machine

/-! ### Free values -/

/-- Draws a fresh free value (an order or a value the spec leaves open). -/
def State.draw (s : State) : Nat × State :=
  (Config.freeValue s.freeCtr, { s with freeCtr := s.freeCtr + 1 })

/-- Free values that one act takes by index; the act then advances the count of free values by one. -/
def State.free (s : State) (i : Nat) : Nat := Config.freeValue (2 ^ 80 * (s.freeCtr + 1) + i)

/-- Advances the count of free values. -/
def State.freed (s : State) : State := { s with freeCtr := s.freeCtr + 1 }

/-- Random bits of KV4S block b of values that no page frame holds: R37's generator over a seed, a frame, a layer and a block
index that the spec does not name for them (log entry 58). -/
def State.looseBits (s : State) (b : Nat) : Nat :=
  let f (i : Nat) : Nat := s.free (2 ^ 60 + 4 * b + i)
  Num.kvBits (f 0 % 2 ^ 64) (f 1 % 2 ^ 32) (f 2 % 512) (f 3 % 2 ^ 32)

/-! ### Counters -/

/-- A package counter after n events (R366, R297). -/
def State.bump (s : State) (c : Ctr) (n : Nat) : State := { s with ctr := ctrAdd s.ctr c n }

/-- A fault, health or power counter of Table 18-8 after n events (R396). -/
def State.bumpFlt (s : State) (c : Ctr) (n : Nat) : State :=
  { s with flt := { s.flt with ctr := ctrAdd s.flt.ctr c n } }

/-- A Timebase counter of the package after n events (R316). -/
def State.bumpTb (s : State) (c : Ctr) (n : Nat) : State :=
  { s with tb := { s.tb with ctr := ctrAdd s.tb.ctr c n } }

/-- A processor's counter after n events (Table 16-12). -/
def State.bumpFw (s : State) (p : Nat) (c : Ctr) (n : Nat) : State :=
  { s with fws := updAt s.fws p (fun f => { f with ctr := ctrAdd f.ctr c n }) }

/-- A partition's counter after n events (R335). -/
def State.bumpPart (s : State) (p : Nat) (c : Ctr) (n : Nat) : State :=
  { s with parts := updAt s.parts p (fun r => { r with ctr := ctrAdd r.ctr c n }) }

/-- A context's counter after n events (R71 and the counter tables of every chapter). -/
def State.bumpCtx (s : State) (c : Nat) (k : Ctr) (n : Nat) : State :=
  { s with ctxs := updAt s.ctxs c (fun x => { x with ctr := ctrAdd x.ctr k n }) }

/-! ### Parts of the state by number -/

/-- Context c. -/
def State.ctx (s : State) (c : Nat) : Ctx := s.ctxs.getD c Ctx.fresh

/-- Changes context c. -/
def State.onCtx (s : State) (c : Nat) (f : Ctx → Ctx) : State := { s with ctxs := updAt s.ctxs c f }

/-- Partition p. -/
def State.part (s : State) (p : Nat) : Part := s.parts.getD p (Part.fresh 8)

/-- Changes partition p. -/
def State.onPart (s : State) (p : Nat) (f : Part → Part) : State := { s with parts := updAt s.parts p f }

/-- Processor n. -/
def State.fw (s : State) (n : Nat) : Fwp := s.fws.getD n Fwp.fresh

/-- Changes processor n. -/
def State.onFw (s : State) (n : Nat) (f : Fwp → Fwp) : State := { s with fws := updAt s.fws n f }

/-- Quarter q. -/
def State.quarter (s : State) (q : Nat) : Quarter := s.hlt.quarters.getD q (Quarter.fresh 0)

/-- Window w (0 to 255) or virtual window w (256, 257). -/
def State.win (s : State) (w : Nat) : Win := s.host.wins.getD w Win.fresh

/-- Changes window w. -/
def State.onWin (s : State) (w : Nat) (f : Win → Win) : State :=
  { s with host := { s.host with wins := s.host.wins.setD Win.fresh w (f (s.win w)) } }

/-- Timebase count now: the stamp of every act. -/
def State.now (s : State) : Nat := s.tb.count

/-- Something leaves the block. -/
def State.emit (s : State) (o : Out) : State := { s with out := s.out ++ [o] }

/-- The block acts at all: power is good. -/
def State.powered (s : State) : Bool := s.board.pwrGood

/-- The firmware has started and the device is out of reset. -/
def State.booted (s : State) : Bool :=
  s.board.pwrGood && s.board.perstN &&
  match s.boot.stage with
  | .train => true
  | .serving => true
  | .failed => true
  | _ => false

/-! ### Memory -/

/-- What a byte of memory that nothing has written reads as: the spec gives none (DESIGN CHOICE, log entry 2). -/
def memDefault : Byte := 0

/-- One byte of this package's memory, by kind and offset together (Table 11-1, package bits dropped). -/
def State.byteAt (s : State) (a : Nat) : Byte := Tbl.getD s.mem a memDefault

/-- n bytes from an address. -/
def State.bytesAt (s : State) (a n : Nat) : List Byte := (List.range n).map (fun i => s.byteAt (a + i))

/-- The number that n bytes at an address spell (R7). -/
def State.numAt (s : State) (a n : Nat) : Nat := ofLE (s.bytesAt a n)

/-- Bytes of a memory after bytes are written from an address. -/
def memWrite (m : List Host.Cell) (a : Nat) : List Byte → List Host.Cell
  | [] => m
  | b :: r => memWrite (Tbl.setD m memDefault a b) (a + 1) r

/-- Writes bytes from an address. -/
def State.writeAt (s : State) (a : Nat) (bs : List Byte) : State := { s with mem := memWrite s.mem a bs }

/-- An address of kind k (Table 11-1), package bits left out. -/
def addr (k off : Nat) : Nat := k * 2 ^ 54 + off

/-- The canonical form of memory. -/
def memWf (m : List Host.Cell) : Bool := Tbl.wf memDefault m

/-! ### Toll Gates (R325, R326) -/

/-- Toll Gate g of partition p. -/
def State.gate (s : State) (p g : Nat) : Gate := (s.part p).gates.getD g Gate.fresh

/-- Changes Toll Gate g of partition p. -/
def State.onGate (s : State) (p g : Nat) (f : Gate → Gate) : State :=
  s.onPart p (fun r => { r with gates := updAt r.gates g f })

/-- The gate holds back its partition's transfers: a rate of 0xFFFF never does. -/
def Gate.holds (g : Gate) : Bool := g.rate != 0xFFFF && decide (g.bucket ≤ 0)

/-- A transfer of n bytes starts through a gate. -/
def State.toll (s : State) (p g n : Nat) : State :=
  s.onGate p g (fun x => { x with bucket := x.bucket - (n : Int), bytes := (x.bytes + n) % 2 ^ 64 })

/-- A transfer is held back at a gate. -/
def State.tollWait (s : State) (p g : Nat) : State := s.onGate p g (fun x => { x with waits := (x.waits + 1) % 2 ^ 32 })

/-- Gate that meters an address of this package's memory, by kind and die. -/
def gateOf (a : Nat) : Option Nat :=
  if bits a 54 3 = 1 then some 1 else if bits a 54 3 = 2 then some (2 + bits a 52 2)
  else if bits a 54 3 = 4 then some 6 else none

/-- Charges n bytes read or written at an address for a context. -/
def State.charge (s : State) (c a n : Nat) : State :=
  match gateOf a with
  | some g => s.toll (s.ctx c).share.partition g n
  | none => s

/-- The gate of an address holds back a context's transfers. -/
def State.heldAt (s : State) (c a : Nat) : Bool :=
  match gateOf a with
  | some g => (s.gate (s.ctx c).share.partition g).holds
  | none => false

/-- Counts a transfer of a context held back at an address. -/
def State.heldWait (s : State) (c a : Nat) : State :=
  match gateOf a with
  | some g => s.tollWait (s.ctx c).share.partition g
  | none => s

/-! ### Poison (R234, R415) -/

/-- A read of n bytes takes the poison of the lines it meets: whether it met any, and the state after. -/
def State.takePoison (s : State) (a n : Nat) : Bool × State :=
  let hit (l : Nat) : Bool := decide (a / 64 ≤ l ∧ l ≤ (a + n - 1) / 64)
  (s.poison.any hit, { s with poison := s.poison.filter (fun l => !hit l) })

/-! ### Faults -/

/-- A block finds an event: its message waits at the Fault Collector's arbiter (R376, R378). -/
def State.raise (s : State) (source kind cls ctx dtype detail : Nat) : State :=
  { s with flt := { s.flt with
      arriving := s.flt.arriving ++ [⟨s.now % 2 ^ 48, source, kind, cls, ctx, dtype, detail⟩] } }

/-- As `raise`, at most once per 1 ms for the kind (R116, R127, R271, Table 13-6). -/
def State.raiseRated (s : State) (source kind ctx dtype detail : Nat) : State :=
  match s.lastLog.find kind with
  | some t =>
    if s.now < t + 1000000 then s
    else { s.raise source kind 0 ctx dtype detail with lastLog := s.lastLog.put kind s.now }
  | none => { s.raise source kind 0 ctx dtype detail with lastLog := s.lastLog.put kind s.now }

/-- The 128 bits of a fault message (R376). -/
def FaultMsg.pack (m : FaultMsg) : Nat :=
  packF [(0, 51, m.detail), (51, 2, m.dtype), (53, 4, m.ctx), (57, 3, m.cls), (60, 7, m.kind), (68, 12, m.source),
    (80, 48, m.stamp)]

/-- Detail of type 2: epoch, sequence, slot (R376). -/
def workDetail (epoch seq slot : Nat) : Nat := packF [(0, 18, slot), (18, 17, seq), (35, 16, epoch)]

/-- Detail of type 1: a local address (R376). -/
def addrDetail (a : Nat) : Nat := packF [(0, 48, a / 64), (48, 3, a / 2 ^ 54)]

/-- Detail "L/E" (R377). -/
def layerExpert (layer expert : Nat) : Nat := packF [(0, 16, expert), (16, 9, layer)]

/-! ### Responses -/

/-- MSI-X of a window whose response is written (R338). -/
def State.irq (s : State) (w : Nat) : State := if (s.win w).irqEn then s.emit (.msix w) else s

/-- Completes a message: the completion slot's response is written, `DONE` set and `OWNER` cleared in one act
(R338, R341, R369). A response that is not `ST_OK` carries no payload, except as R369 says. -/
def State.complete (s : State) (m : Msg) (handler : Nat) (st : Status) (body : List Byte) : State :=
  let h : Header :=
    ⟨m.op, st.code, body.length, 0, m.sess, m.tag, m.major, m.minor, true, m.crcEn, handler, 0, m.stamp,
     if m.crcEn then Num.crc32c body else 0, 0⟩
  let bytes := h.write ++ body
  let s1 := { s with host := { s.host with msgs := eraseFirst (fun x => decide (x = m)) s.host.msgs } }
  let s2 := s1.onWin m.win (fun x => { x with resp := bytes, done := true, owner := false })
  let s3 := if m.win < 256 then s2.irq m.win else s2.emit (.mctp (m.win - 256) m.eid 0x7E bytes)
  let s4 := if handler < 6 then s3.bumpFw handler .msgsDone 1 else s3
  if st = .fwRestarted then s4.bumpFw handler .msgsRestarted 1 else s4

/-- Replaces the phase of an open message. -/
def State.setPhase (s : State) (m : Msg) (p : Phase) : State :=
  { s with host := { s.host with
      msgs := s.host.msgs.map (fun x => if x = m then { x with phase := p } else x) } }

/-! ### Sessions -/

/-- The session with an ID. -/
def State.session (s : State) (id : Nat) : Option Session := s.host.sessions.find? (fun x => x.id == id)

/-- Partitions a session is admitted to: the ones in the `PART_MASK` of all its windows; the management session is
admitted to every partition (R344). -/
def State.admission (s : State) (x : Session) : Nat :=
  if x.mgmt then 0xFF else x.wins.foldl (fun a w => a &&& (s.win w).partMask) 0xFF

/-- Partitions the session of a message is admitted to. -/
def State.admitted (s : State) (id : Nat) : Nat :=
  match s.session id with
  | some x => s.admission x
  | none => 0

/-- A session owns a context when admitted to its partition (R345). -/
def State.owns (s : State) (id c : Nat) : Bool := (s.admitted id).testBit (s.ctx c).share.partition

end Sys2Proof.Machine
end

