-- ==== Sys2Proof/Machine/Mailbox.lean ====
section
/-! DEFINITION. Taking, checking, routing and committing a Prota message (16 R338 to R341, 17 R367 to R369), and the
session messages (R342 to R347). -/

namespace Sys2Proof.Machine

/-- What a processor does with a message it takes: completes it, or keeps it waiting. -/
inductive Act where
  | reply (s : State) (st : Status) (body : List Byte)
  | hold (s : State) (p : Phase)

/-- Completes `ST_OK` with response fields. -/
def Act.ok (s : State) (fs : List (Fld × Nat)) : Act := .reply s .ok (writeFields fs)

/-- Completes with a status and no effect. -/
def Act.no (s : State) (st : Status) : Act := .reply s st []

/-- Checks 2 to 6 of R339, in order; check 1 was made when the request was taken.  `PMP_SESSION_OPEN` skips 2 to 5. -/
def State.headerCheck (s : State) (m : Msg) : Option Status :=
  let x := s.session (s.win m.win).session
  let maj := (x.map (·.major)).getD 0
  let min := (x.map (·.minor)).getD 0
  let granted := (x.map (·.granted)).getD 0
  let need := opFeature m.op :: fieldFeatures m.op m.crcEn m.payload
  let rest :=
    [(!(s.win m.win).bound || (s.win m.win).session != m.sess, Status.denied),
     (m.major != maj || m.minor != min, .version),
     (!opInVersion m.op maj min || need.any (fun f => !granted.testBit f), .unsupported),
     (opManagement m.op && !((x.map (·.mgmt)).getD false), .denied)]
  firstBad ([(m.fmtBad, Status.format)] ++ (if m.op = 0x0001 then [] else rest)
    ++ [((s.fw (owner m.op)).st == .failed, .unavailable)])

/-- A processor that C4 has stopped: every one but Steward and Warden (R383). -/
def State.stopped (s : State) (p : Nat) : Bool :=
  s.flt.dev == .stoppedC4 && p != fwSteward && p != fwWarden

/-- Steward checks and routes one message (R339, R340); a message of a processor stopped by C4 completes at once
(R383). -/
def State.route (s : State) (m : Msg) : State :=
  match s.headerCheck m with
  | some st => s.complete m fwSteward st []
  | none => if s.stopped (owner m.op) then s.complete m 7 .faulted [] else s.setPhase m .routed

/-- Check 1 of R339. -/
def formatBad (h : Header) (payload : List Byte) : Bool :=
  decide (h.length > 4064) || h.resp || h.status != 0 || h.handler != 0 || h.stamp != 0 ||
  h.res1 != 0 || h.res2 != 0 || h.res3 != 0 || (h.crcEn && h.crc != Num.crc32c payload)

/-- The layout copies in force for a request when it is received: `PMP_LAYOUT_RUN` binds them then (R214). -/
def State.layGenFor (s : State) (op : Nat) (payload : List Byte) : Nat :=
  if op = 0x0340 then (s.ctx (bits (ofLE (takeBytes payload 0 40)) 80 4)).lay.gen else 0

/-- Seltos takes a request of 4,096 bytes from a window or a path: the receipt is stamped, `OWNER` set and `DONE`
cleared in one act (R338). -/
def State.takeRequest (s : State) (w eid : Nat) (raw : List Byte) : State :=
  let h := Header.read raw
  let payload := takeBytes raw 32 (Nat.min h.length 4064)
  let m : Msg := ⟨w, h.op, h.sess, h.tag, h.major, h.minor, s.now, payload, .unrouted, h.crcEn,
    formatBad h payload, eid, s.layGenFor h.op payload⟩
  let s1 := s.onWin w (fun x => { x with owner := true, done := false })
  let s2 := { s1 with host := { s1.host with msgs := s1.host.msgs ++ [m] } }
  match (s.fw fwSteward).st with
  | .running => s2.route m
  | .failed => s2.complete m 7 .unavailable []
  | _ => s2

/-- Routes every message stamped while Steward did not run, in stamp order (R352). -/
def routeAll : List Msg → State → State
  | [], s => s
  | m :: r, s => routeAll r (s.route m)

/-- The oldest message that a processor has not taken, when it is the one named (R340): one at a time, in order of
receipt stamp. -/
def State.oldest (s : State) (w op : Nat) : Option Msg :=
  match s.host.msgs.find? (fun m => m.phase == .routed && owner m.op == owner op) with
  | some m => if m.win = w ∧ m.op = op then some m else none
  | none => none

/-- During STOPPED_C3 a message completes `ST_FAULTED` unless its opcode is exempt (R383). -/
def State.stopFault (s : State) (op : Nat) : Bool :=
  s.flt.dev != .serving &&
  !(decide (op ≤ 0x00FF) || decide (0x0700 ≤ op ∧ op ≤ 0x08FF) || opQueryStats op)

/-- The commit act of a message by its running owner: its effect and its response together (R341). -/
def commitMsg (w op : Nat) (k : Msg → State → Act) (s : State) : State :=
  match s.oldest w op with
  | none => s
  | some m =>
    if (s.fw (owner op)).st != .running then s
    else if s.stopFault op then s.complete m (owner op) .faulted []
    else
      match k m s with
      | .reply t st body => t.complete m (owner op) st body
      | .hold t p => t.setPhase m p

/-- Reads a request of fixed length, or completes `ST_FORMAT` (R367). -/
def withReq (fs : List Fld) (k : List Nat → Msg → State → Act) (m : Msg) (s : State) : Act :=
  match readRequest fs m.payload with
  | none => .no s .format
  | some a => k a m s

/-- Common checks of a message that names a context (R367, R368); a FREE context is owned by nobody. -/
def State.ctxChecks (s : State) (m : Msg) (c : Nat) : List (Bool × Status) :=
  [(decide (c > 15), .bounds),
   ((s.ctx c).st == .free, .unavailable),
   (!s.owns m.sess c, .denied),
   ((s.ctx c).st == .teardown, .unavailable),
   ((s.part (s.ctx c).share.partition).halted, .faulted)]

/-- Runs the rest of a meaning when no check fails. -/
def checked (cs : List (Bool × Status)) (s : State) (k : Act) : Act :=
  match firstBad cs with
  | some st => .no s st
  | none => k

/-- A request whose first field is `C`: format, then the common checks, then the message's own meaning. -/
def withCtx (fs : List Fld) (k : Nat → List Nat → Msg → State → Act) (m : Msg) (s : State) : Act :=
  match readRequest (.u8 :: fs) m.payload with
  | none => .no s .format
  | some [] => .no s .format
  | some (c :: a) => checked (s.ctxChecks m c) s (k c a m s)

/-- Flag bits above the ones a message defines are reserved (R367). -/
def flagsBad (flags n : Nat) : Bool := decide (flags ≥ 2 ^ n)

/-! ### Sessions -/

/-- Versions Seltos implements: major 3 minors 0 to 2, major 2 minors 0 to 7 (R343). -/
def ownVersions : List Nat := [0x0300, 0x0301, 0x0302, 0x0200, 0x0201, 0x0202, 0x0203, 0x0204, 0x0205, 0x0206, 0x0207]

/-- Highest version in both ranges (R343). -/
def negotiate (lo hi : Nat) : Option Nat :=
  let l := ownVersions.filter (fun v => decide (lo ≤ v ∧ v ≤ hi))
  if l.isEmpty then none else some (maxN l)

/-- Unbinds a session's windows and forgets it (R342). -/
def State.closeSession (s : State) (id : Nat) : State :=
  { s with host := { s.host with
      wins := (s.host.wins.mapV (fun _ x =>
        if x.bound && x.session == id then { x with bound := false, session := 0 } else x)).filter
          (fun e => decide (e.2 ≠ Win.fresh)),
      sessions := s.host.sessions.filter (fun x => x.id != id) } }

/-- Next session ID: upward from 0x0001, wrapping after 0xFFFF, skipping bound ones (R342). -/
def State.freshSession (s : State) : Nat :=
  let wrap (i : Nat) : Nat := (s.host.nextSession - 1 + i) % 65535 + 1
  match firstBelow 65 (fun i => (s.session (wrap i)).isNone) with
  | some i => wrap i
  | none => 1

/-- Effect of `PMP_SESSION_OPEN` once its checks passed (R342, R347). -/
def State.openSession (s : State) (wins : List Nat) (version : Nat) (features : Nat) (mgmt takeover : Bool) :
    Nat × State :=
  let holders := s.host.sessions.filter (fun x => x.wins.any (fun w => wins.contains w) || (mgmt && x.mgmt))
  let s1 := if takeover then holders.foldl (fun t x => t.closeSession x.id) s else s
  let id := s1.freshSession
  let granted := (features &&& supportedFeatures (version / 256)) ||| 1
  let s2 := wins.foldl (fun t w => t.onWin w (fun x => { x with bound := true, session := id })) s1
  (id, { s2 with host := { s2.host with
    sessions := s2.host.sessions ++ [⟨id, wins, version / 256, version % 256, granted, mgmt⟩],
    nextSession := id % 65535 + 1 } })

/-- `PMP_SESSION_OPEN` (R342, R343, R347). -/
def sessionOpen (a : List Nat) (m : Msg) (s : State) : Act :=
  match a with
  | [wmap, lo, hi, feats, flags] =>
    let mgmt := bit flags 0
    let take := bit flags 1
    let virt := decide (m.win ≥ 256)
    let wins := onesOf 256 wmap ++ (if virt then [m.win] else [])
    let v := negotiate lo hi
    checked
      [(flagsBad flags 2, .format),
       (!virt && !wmap.testBit m.win, .format),
       (v.isNone, .version),
       (!take && (wins.any (fun w => (s.win w).bound) || (mgmt && s.host.sessions.any (·.mgmt))), .busy),
       (mgmt && !virt && !wmap.testBit 0, .denied),
       (decide (s.host.sessions.length ≥ 64), .noMemory)] s
      (let r := s.openSession wins (v.getD 0) feats mgmt take
       let x := r.2.session r.1
       Act.ok r.2 [(.u16, r.1), (.u16, v.getD 0), (.u8, (x.map r.2.admission).getD 0), (.u32, b2n mgmt),
         (.r 128, (x.map (·.granted)).getD 0)])
  | _ => .no s .format

def execPmpSessionOpen (w : Nat) (s : State) : Host.Outcome State Fault Refusal :=
  .next (commitMsg w 0x0001 (withReq [.r 256, .u16, .u16, .r 128, .u32] sessionOpen) s)

/-- `PMP_SESSION_CLOSE` unbinds the sending session's windows and touches nothing else (R342). -/
def sessionClose (_ : List Nat) (m : Msg) (s : State) : Act := .ok (s.closeSession m.sess) []

def execPmpSessionClose (w : Nat) (s : State) : Host.Outcome State Fault Refusal :=
  .next (commitMsg w 0x0002 (withReq [] sessionClose) s)

/-- `PMP_WINDOW_CONFIG` sets `PART_MASK` on windows and on the virtual windows (R344, R347). -/
def windowConfig (a : List Nat) (_ : Msg) (s : State) : Act :=
  match a with
  | [wmap, mask, flags] =>
    checked [(flagsBad flags 2, .format)] s
      (.ok ((onesOf 256 wmap ++ (if bit flags 0 then [256] else []) ++ (if bit flags 1 then [257] else [])).foldl
        (fun t w => t.onWin w (fun x => { x with partMask := mask })) s) [])
  | _ => .no s .format

def execPmpWindowConfig (w : Nat) (s : State) : Host.Outcome State Fault Refusal :=
  .next (commitMsg w 0x0003 (withReq [.r 256, .u8, .u32] windowConfig) s)

/-- `PMP_FEATURES` (R343, R373). -/
def featuresMsg (_ : List Nat) (m : Msg) (s : State) : Act :=
  .ok s [(.r 128, ((s.session m.sess).map (·.granted)).getD 0), (.r 128, 0x3FFF)]

def execPmpFeatures (w : Nat) (s : State) : Host.Outcome State Fault Refusal :=
  .next (commitMsg w 0x0004 (withReq [] featuresMsg) s)

end Sys2Proof.Machine
end

