-- ==== Sys2Proof/Machine/Flags.lean ====
section
/-! DEFINITION. Status words, signals and limits that the state implies: every register of kind 7 as the host reads it
(16 R337, Tables 16-2 to 16-5, 18-3, 18-4, 18-7, 19-7), and the level and emergency conditions. -/

namespace Sys2Proof.Machine

/-! ### Levels and conditions -/

/-- Level that a trigger sets (Table 18-7a). -/
def triggerLevel (code : Nat) : Nat :=
  if code = 0x3 then 3
  else if code = 0x1 ∨ code = 0x4 ∨ code = 0x5 then 1
  else if code = 0 then 0
  else 2

/-- Highest level of any quarter (R389). -/
def State.packageLevel (s : State) : Nat := maxN (s.hlt.quarters.map (·.level))

/-- `EMERGENCY_ACTIVE` (R360): a quarter at E2 or E3, a `SKEW_TRIP`, or a spare swap in progress. -/
def State.emergency (s : State) : Bool :=
  s.hlt.quarters.any (fun q => decide (2 ≤ q.level) || q.skewTrip) || s.upd.swapBusy

/-- Every quarter has been at E0 for the last 1 s, counted from pace samples since device reset (R356, R359). -/
def State.calm (s : State) : Bool :=
  match s.hlt.e0From with
  | none => false
  | some t => decide (t + 1000000000 ≤ s.hlt.lastPace)

/-- `READY` pin (R398). -/
def State.readyPin (s : State) : Bool := s.boot.ready && s.powered

/-- `ALERT_N`: low while the C2, C3 or C4 latch is full (Table 19-1). -/
def State.alertN (s : State) : Bool :=
  !((List.range 3).any (fun i => (s.flt.latches.getD (i + 2) none).isSome))

/-- `THERM_TRIP_N`: low while `THERM_TRIP` is 1 (Table 18-4). -/
def State.thermTripN (s : State) : Bool := !s.flt.thermTrip

/-- The host reaches kind 7: powered, out of reset, in D0 (R337, R412). -/
def State.barOn (s : State) : Bool := s.powered && s.board.perstN && !s.host.d3hot

/-! ### Capacities -/

def mib : Nat := 1048576
def gib : Nat := 1073741824

/-- Kind-4 limit (R415): twice the smaller expander, zero when either port fails. -/
def State.farLimit (s : State) : Nat :=
  if s.boot.cxlUp.all id then 2 * Nat.min (s.boot.cxlBytes.getD 0 0) (s.boot.cxlBytes.getD 1 0) else 0

/-- T2 capacity of a die: zero when it is absent (R231). -/
def State.dieLimit (s : State) (d : Nat) : Nat := if s.boot.diesUp.getD d false then s.boot.dieBytes.getD d 0 else 0

/-- A byte range meets a lot that this package lends (R412). -/
def State.inLent (s : State) (a n : Nat) : Bool :=
  s.lend.lots.any (fun l => decide (a < l.base + 256 * mib ∧ l.base < a + n))

/-- Ports UP4 or UP2 (Table 19-7). -/
def Port.up (p : Port) : Bool := p.st == .up4 || p.st == .up2

def State.portsUp (s : State) : Nat := countP Port.up s.fab.ports

/-! ### Registers -/

def stageCode : Stage → Nat
  | .rom => 0 | .load => 1 | .verify => 2 | .start => 3 | .train => 4 | .serving => 5 | .recovery => 6 | .failed => 7

def fwStCode : FwSt → Nat
  | .off => 0 | .running => 1 | .restarting => 2 | .failed => 3

def actCode : ActSt → Nat
  | .none => 0 | .staged => 1 | .deferred => 2 | .activating => 3 | .waitE0 => 4 | .proving => 5

def devCode : DevSt → Nat
  | .serving => 0 | .stoppedC3 => 1 | .stoppedC4 => 2

/-- Word of flags, bit i for the i-th. -/
def flagWord (l : List Bool) : Nat := maskOf ((List.range l.length).filter (fun i => l.getD i false))

/-- `DEVICE_ID` (Table 16-2). -/
def State.deviceId (s : State) : Nat := packF [(0, 16, 0x9600), (16, 8, 0xB0), (24, 7, s.board.pkgId)]

/-- `FW_SUMMARY` (Table 16-3). -/
def State.fwSummary (s : State) : Nat :=
  packF [(0, 6, flagWord (s.fws.map (fun f => f.st == .running))),
    (6, 6, flagWord (s.fws.map (fun f => f.st == .failed))),
    (12, 1, b2n s.emergency), (13, 3, actCode s.upd.st), (32, 32, s.upd.numerics)]

/-- `BOOT_STATUS` (Table 19-7). -/
def State.bootStatus (s : State) : Nat :=
  packF [(0, 4, stageCode s.boot.stage), (4, 1, s.boot.flash), (5, 1, b2n (s.boot.flashOk.getD 0 false)),
    (6, 1, b2n (s.boot.flashOk.getD 1 false)), (7, 1, b2n s.boot.recoveryFail), (8, 2, flagWord s.boot.hbmUp),
    (10, 4, flagWord s.boot.diesUp), (14, 2, flagWord s.boot.cxlUp), (16, 1, b2n s.boot.ready), (32, 8, s.portsUp)]

/-- `FAULT_STATUS` (Table 18-4). -/
def State.faultStatus (s : State) : Nat :=
  packF [(0, 5, flagWord (s.flt.latches.map (·.isSome))), (8, 5, flagWord s.flt.overLost), (16, 3, s.flt.irqClass),
    (19, 1, b2n s.flt.irqPend), (20, 2, devCode s.flt.dev), (22, 1, b2n s.flt.thermTrip)]

/-- `LATCHES` of `PMP_FAULT_READ` (R380). -/
def State.latchWord (s : State) : Nat := setBits (s.faultStatus % 2 ^ 13) 5 3 0

/-- Package power over the last 1 ms and 10 ms, in whole W. -/
def State.power1ms (s : State) : Nat := sumN (s.hlt.samples.take 1000) / 1000
def State.power10ms (s : State) : Nat := sumN (s.hlt.samples.take 10000) / 10000

/-- Highest level that triggers 0x5 and 0x6 set now (Table 18-7). -/
def State.powerLevel (s : State) : Nat :=
  maxN (((s.quarter 0).triggers.filter (fun t => t.code == 5 || t.code == 6)).map (fun t => triggerLevel t.code))

/-- `POWER_STATUS` (Table 18-7). -/
def State.powerStatus (s : State) : Nat :=
  packF [(0, 12, s.power1ms), (12, 12, s.power10ms), (24, 12, s.hlt.peak), (36, 2, s.powerLevel)]

/-- `RECENT_RESTARTS`: restarts that R354 counts within the last 60 s. -/
def State.recent (s : State) (f : Fwp) : Nat := countP (fun t => decide (s.now < t + 60000000000)) f.counted

/-- Processor status block (Table 16-4). -/
def State.fwBlock (s : State) (f : Fwp) : Nat :=
  packF [(0, 3, fwStCode f.st), (3, 3, f.cause), (6, 2, s.recent f), (8, 1, b2n f.actPending), (16, 16, f.watchdogMs),
    (32, 32, f.imageRev), (64, 64, f.restartTick), (128, 32, f.restarts), (160, 32, f.logSeq)]

/-- `WIN_CTRL` as read: `SUBMIT` is write-only (Table 16-5). -/
def Win.ctrl (x : Win) : Nat :=
  packF [(1, 1, b2n x.irqEn), (2, 1, b2n x.done), (3, 1, b2n x.owner), (4, 1, b2n x.bound), (8, 8, x.partMask),
    (16, 16, x.session)]

/-- Quarter status word (Table 14-2). -/
def Quarter.word (q : Quarter) : Nat :=
  packF [(0, 10, q.vset), (10, 10, q.vmeas), (20, 8, q.tj), (28, 2, q.level), (32, 16, q.pace), (48, 1, b2n q.skew),
    (49, 1, b2n q.skewTrip)]

/-- Bits of a signed number in two's complement. -/
def twos (w : Nat) (x : Int) : Nat := (x % (2 ^ w : Nat)).toNat

def tbCode : TbSt → Nat
  | .free => 0 | .acquiring => 1 | .aligned => 2 | .holdover => 3

/-- `ALIGN_BOUND` now: the bound at the last exchange plus the drift since, 100 ns per ms at most; 0 at the master,
0xFFFF where there is none (R303, R306, R307). -/
def State.alignBound (s : State) : Nat :=
  if s.tb.hops = 0 ∧ s.tb.st = .aligned then 0
  else if s.tb.bound ≥ 0xFFFF then 0xFFFF
  else Nat.min 0xFFFF (s.tb.bound + ceilDiv (s.now - s.tb.lastExchange) 10000)

/-- Timebase status word (Table 14-4). -/
def State.tbStatus (s : State) : Nat :=
  packF [(0, 2, tbCode s.tb.st), (2, 7, s.tb.master), (9, 2, s.tb.hops), (16, 16, twos 16 s.tb.offset),
    (32, 16, twos 16 s.tb.delay), (48, 16, s.alignBound)]

def portCode : PortSt → Nat
  | .off => 0 | .training => 1 | .up4 => 2 | .up2 => 3 | .failed => 4

/-- Port status word (Table 13-3). -/
def Port.word (p : Port) : Nat :=
  packF [(0, 3, portCode p.st), (3, 7, p.peer), (10, 1, b2n p.spareIn), (11, 2, p.spareFor), (13, 4, p.lanesGood),
    (17, 1, b2n p.backsSpare)]

/-- One byte of kind 7 as the host reads it now; reserved offsets and write-only fields read zero (R337). -/
def State.regByte (s : State) (off : Nat) : Byte :=
  let byteOf (w : Nat) (i : Nat) : Byte := BitVec.ofNat 8 (w >>> (8 * i))
  if off < 0x08 then byteOf s.deviceId off
  else if off < 0x10 then byteOf s.fwSummary (off - 0x08)
  else if off < 0x18 then byteOf s.bootStatus (off - 0x10)
  else if 0x40 ≤ off ∧ off < 0x48 then byteOf s.faultStatus (off - 0x40)
  else if 0x80 ≤ off ∧ off < 0xD0 then
    byteOf (((s.flt.latches.getD ((off - 0x80) / 16) none).map FaultMsg.pack).getD 0) (off % 16)
  else if 0xD0 ≤ off ∧ off < 0xD8 then byteOf s.powerStatus (off - 0xD0)
  else if 0x200 ≤ off ∧ off < 0x200 + 8 * faultCtrs.length then
    byteOf (((faultCtrs.map (ctrGet s.flt.ctr)).getD ((off - 0x200) / 8) 0)) (off % 8)
  else if 0x1000 ≤ off ∧ off < 0x1600 ∧ off % 0x100 < 32 then
    byteOf (s.fwBlock (s.fw ((off - 0x1000) / 0x100))) (off % 0x100)
  else if 0x100000 ≤ off ∧ off < 0x500000 then
    let x := s.win ((off - 0x100000) / 0x4000)
    let o := off % 0x4000
    if o < 0x1000 then Tbl.getD x.req o 0
    else if o < 0x2000 then x.resp.getD (o - 0x1000) 0
    else if o < 0x2004 then byteOf x.ctrl (o - 0x2000)
    else 0
  else 0

/-- A host read of kind 7, 4 or 8 bytes (R337). -/
def State.regRead (s : State) (off size : Nat) : Nat := ofLE ((List.range size).map (fun i => s.regByte (off + i)))

/-- Naturally aligned accesses of 4 or 8 bytes are the only ones kind 7 takes (R337). -/
def regAccessOk (off size : Nat) : Bool := (size == 4 || size == 8) && off % size == 0

end Sys2Proof.Machine
end

