-- ==== Sys2Proof/Machine/Khan.lean ====
section
/-! DEFINITION. Khan (12 R254 to R263): allocation, freeing and handles, shared by messages and engines. -/

namespace Sys2Proof.Machine

/-- Block size of a class (Table 12-1). -/
def classBytes (cls : Nat) : Nat := 256 * 4 ^ cls

/-- A chunk. -/
def chunkBytes : Nat := 4 * mib

/-- Pool index of a tier and die: 0 T0, 1 T1, 2 to 5 T2. -/
def poolIdx (tier die : Nat) : Nat := if tier < 2 then tier else 2 + die % 4

/-- Context c's pool p. -/
def Ctx.pool (x : Ctx) (p : Nat) : Pool := x.khan.pools.getD p Pool.fresh

/-- Changes a pool. -/
def Ctx.onPool (x : Ctx) (p : Nat) (f : Pool → Pool) : Ctx :=
  { x with khan := { x.khan with pools := updAt x.khan.pools p f } }

/-- Class of the chunk that holds an address, if the pool has one. -/
def Pool.classOf (p : Pool) (a : Nat) : Option Nat := p.chunks.find (a / chunkBytes * chunkBytes)

/-- Free blocks of a chunk. -/
def Pool.freeIn (p : Pool) (base cls : Nat) : List Nat :=
  ((List.range (chunkBytes / classBytes cls)).map (fun i => base + i * classBytes cls)).filter
    (fun a => (p.used.find a).isNone)

/-- Free blocks of a class's pool. -/
def Pool.freeBlocks (p : Pool) (cls : Nat) : List Nat :=
  ((p.chunks.filter (fun e => e.2 == cls)).map (fun e => p.freeIn e.1 cls)).flatten

/-- Blocks of a class in all, less those allocated. -/
def Pool.freeCount (p : Pool) (cls : Nat) : Nat :=
  countP (fun e : Nat × Nat => e.2 == cls) p.chunks * (chunkBytes / classBytes cls)
    - countP (fun e : Nat × Nat => p.classOf e.1 == some cls) p.used

/-- Bytes of the blocks an engine holds in a pool (R259). -/
def Pool.heldBy (p : Pool) (engine : Nat) : Nat :=
  sumN ((p.used.filter (fun e => e.2 == engine)).map (fun e => ((p.classOf e.1).map classBytes).getD 0))

/-- Bytes of all blocks allocated in a pool. -/
def Pool.usedBytes (p : Pool) : Nat := sumN (p.used.map (fun e => ((p.classOf e.1).map classBytes).getD 0))

/-- Bytes of the layout queue's middle (R264, R266). -/
def layoutMiddle : Nat := (1024 - 128) * 64

/-- Bytes that an engine holds in a pool, with what was carved for it from the T1 share at creation: the spill reserve and the layout
queue's middle (R259, R324). -/
def Ctx.charged (x : Ctx) (engine p : Nat) : Nat :=
  (x.pool p).heldBy engine
    + (if p = 1 ∧ engine = 3 then x.spill else if p = 1 ∧ engine = 9 ∧ x.st = .active then layoutMiddle else 0)

/-- An engine's quota in a pool. -/
def Ctx.quota (x : Ctx) (engine p : Nat) : Nat := x.khan.quotas.getD (engine * 8 + p) noQuota

/-- The smallest class that holds n bytes, n ≤ 4 MiB. -/
def classFor (n : Nat) : Nat := (firstBelow 8 (fun c => decide (n ≤ classBytes c))).getD 7

/-- The lowest run of n consecutive free class-7 blocks. -/
def Pool.findRun (p : Pool) (n : Nat) : Option Nat :=
  let free := p.freeBlocks 7
  free.find? (fun a => (List.range n).all (fun i => free.contains (a + i * chunkBytes)))

/-- Why an allocation failed. -/
inductive KhanFail where
  | pool | frag | quota
deriving DecidableEq, Repr

/-- An allocation of n ≥ 1 bytes for an engine: (block bases, class, 1 for a fall-back), or why it fails (R255, R259).  Which
block is taken is a free value. -/
def Ctx.plan (x : Ctx) (p engine n pick : Nat) : KhanFail ⊕ (List Nat × Nat × Nat) :=
  let q := x.pool p
  if n ≤ chunkBytes then
    let c0 := classFor n
    match (List.range 8).find? (fun c => decide (c0 ≤ c) && !(q.freeBlocks c).isEmpty) with
    | none => .inl .pool
    | some c =>
      if x.charged engine p + classBytes c > x.quota engine p then .inl .quota
      else
        let l := q.freeBlocks c
        .inr ([l.getD (pick % l.length) 0], c, b2n (c != c0))
  else
    let k := ceilDiv n chunkBytes
    match q.findRun k with
    | none => .inl .frag
    | some a =>
      if x.charged engine p + k * chunkBytes > x.quota engine p then .inl .quota
      else .inr ((List.range k).map (fun i => a + i * chunkBytes), 7, 0)

/-- Takes blocks out of a pool, through the cache of their class (R263). -/
def Ctx.take (x : Ctx) (p engine : Nat) (blocks : List Nat) (cls : Nat) : Ctx :=
  x.onPool p (fun q => { q with
    used := blocks.foldl (fun t a => t.put a engine) q.used
    cached := updAt q.cached cls (fun n => n - blocks.length) })

/-- Next handle slot: never used ones first, then freed, oldest first (R261). -/
def Khan.nextSlot (k : Khan) : Option Nat :=
  if k.nextNew ≤ 262143 then some k.nextNew else k.freed.head?

/-- A handle (Table 12-2). -/
def handleOf (tier die ctx slot tag : Nat) : Nat :=
  packF [(0, 6, tag), (6, 18, slot), (24, 4, ctx), (28, 2, die), (30, 2, tier)]

/-- Fields of a handle. -/
def hTag (h : Nat) : Nat := bits h 0 6
def hSlot (h : Nat) : Nat := bits h 6 18
def hCtx (h : Nat) : Nat := bits h 24 4
def hDie (h : Nat) : Nat := bits h 28 2
def hTier (h : Nat) : Nat := bits h 30 2
/-- Pool of a handle. -/
def hPool (h : Nat) : Nat := poolIdx (hTier h) (hDie h)

/-- Counts a failed allocation (Table 12-8). -/
def State.khanFail (s : State) (c : Nat) (f : KhanFail) : State :=
  match f with
  | .pool => s.bumpCtx c .khanFails 1
  | .frag => s.bumpCtx c .khanFragFails 1
  | .quota => s.bumpCtx c .khanQuotaFails 1

/-- Khan allocates n ≥ 1 bytes and gives a handle (R255, R257, R261): the handle and its address. -/
def State.khanAlloc (s : State) (c tier die engine n : Nat) : Option (Nat × Nat) × State :=
  let x := s.ctx c
  let p := poolIdx tier die
  let d := s.draw
  match x.plan p engine n d.1, x.khan.nextSlot with
  | .inl f, _ => (none, s.khanFail c f)
  | .inr _, none => (none, s.bumpCtx c .khanFails 1)
  | .inr (blocks, cls, falls), some slot =>
    let base := blocks.headD 0
    let tag := (((x.khan.slots.find slot).map (·.tag)).getD 0 + 1) % 64
    let k := x.khan
    let s1 := d.2.onCtx c (fun y =>
      let y1 := y.take p engine blocks cls
      { y1 with khan := { y1.khan with
        slots := y1.khan.slots.put slot ⟨base, n, cls, engine, tag, true⟩
        nextNew := if k.nextNew ≤ 262143 then k.nextNew + 1 else k.nextNew
        freed := if k.nextNew ≤ 262143 then k.freed else k.freed.drop 1 } })
    (some (handleOf tier die c slot tag, base), (s1.bumpCtx c .khanAllocs 1).bumpCtx c .khanFallbacks falls)

/-- R258's checks of a handle named by context c: the status that rejects it. -/
def State.handleBad (s : State) (c h : Nat) : Option Status :=
  if hCtx h ≠ c then some .denied
  else if hTier h = 3 ∨ (hDie h ≠ 0 ∧ hTier h ≠ 2) then some .format
  else
    match (s.ctx c).khan.slots.find (hSlot h) with
    | some k => if k.live ∧ k.tag = hTag h then none else some .format
    | none => some .format

/-- The allocation that a good handle names. -/
def State.slotOf (s : State) (h : Nat) : KSlot :=
  ((s.ctx (hCtx h)).khan.slots.find (hSlot h)).getD ⟨0, 0, 0, 0, 0, false⟩

/-- Extent of the allocation a handle names: 0 where it names none. -/
def State.extent (s : State) (h : Nat) : Nat :=
  if (s.handleBad (hCtx h) h).isNone then (s.slotOf h).extent else 0

/-- Bytes of a buffer. -/
def State.bufBytes (s : State) (h off n : Nat) : List Byte := s.bytesAt ((s.slotOf h).base + off) n

/-- A handle names a buffer of context c that is at least n bytes long, else the status. -/
def State.bufBad (s : State) (c h n : Nat) : Option Status :=
  match s.handleBad c h with
  | some st => some st
  | none => if (s.slotOf h).extent < n then some .bounds else none

/-- Returns blocks to a pool (R263). -/
def Ctx.giveBack (x : Ctx) (p : Nat) (blocks : List Nat) : Ctx :=
  x.onPool p (fun q =>
    let cls := (q.classOf (blocks.headD 0)).getD 0
    { q with
      used := blocks.foldl (fun t a => t.del a) q.used
      cached := updAt q.cached cls (fun n => Nat.min 512 (n + blocks.length)) })

/-- A free of an address that R261 refuses: outside the pool's chunks, misaligned, or not allocated. -/
def Pool.badFree (p : Pool) (a : Nat) : Bool :=
  match p.classOf a with
  | none => true
  | some c => a % classBytes c != 0 || (p.used.find a).isNone

/-- Blocks of the allocation in a slot. -/
def KSlot.blocks (k : KSlot) : List Nat :=
  (List.range (if k.extent ≤ chunkBytes then 1 else ceilDiv k.extent chunkBytes)).map (fun i => k.base + i * chunkBytes)

/-- Frees the allocation that a good handle names (R261). -/
def State.khanFree (s : State) (h : Nat) : State :=
  let c := hCtx h
  let k := s.slotOf h
  let s1 := s.onCtx c (fun y =>
    let y1 := y.giveBack (hPool h) k.blocks
    { y1 with khan := { y1.khan with
      slots := y1.khan.slots.put (hSlot h) { k with live := false }
      freed := y1.khan.freed ++ [hSlot h] } })
  s1.bumpCtx c .khanFrees 1

/-- Frees a handle if it names an allocation. -/
def State.khanDrop (s : State) (h : Nat) : State :=
  if h ≠ 0 ∧ (s.handleBad (hCtx h) h).isNone then s.khanFree h else s

/-- n class-4 granules from the T2 pools, from die d on in cyclic order, without fall-back (R256). -/
def Ctx.granules (x : Ctx) (d n : Nat) : List Nat :=
  ((((List.range 4).map (fun i => (x.pool (2 + (d + i) % 4)).freeBlocks 4)).flatten).take n)

/-- Free class-4 granules of the context's T2 pools (R419: G). -/
def Ctx.freeGranules (x : Ctx) : Nat := sumN ((List.range 4).map (fun d => (x.pool (2 + d)).freeCount 4))

/-- Pool of a T2 address. -/
def t2Pool (a : Nat) : Nat := 2 + bits a 52 2

/-- A context's counter after n events. -/
def Ctx.count (x : Ctx) (k : Ctr) (n : Nat) : Ctx := { x with ctr := ctrAdd x.ctr k n }

/-- Allocates granules to an engine, each of them an allocation (R256, Table 12-8). -/
def Ctx.takeGranules (x : Ctx) (engine : Nat) (l : List Nat) : Ctx :=
  (l.foldl (fun y a => y.take (t2Pool a) engine [a] 4) x).count .khanAllocs l.length

/-- Frees granules. -/
def Ctx.dropGranules (x : Ctx) (l : List Nat) : Ctx :=
  (l.foldl (fun y a => y.giveBack (t2Pool a) [a]) x).count .khanFrees l.length

end Sys2Proof.Machine
end

