-- ==== Sys2Proof/Machine/Queues.lean ====
section
/-! DEFINITION. Waystations and Tally Posts: their operations, messages and events (11 R246 to R250; 12 R264 to R274). -/

namespace Sys2Proof.Machine

/-! ### Waystations -/

/-- Waystation w. -/
def State.wst (s : State) (w : Nat) : Ws := s.ws.getD w Ws.fresh

/-- Changes Waystation w. -/
def State.onWs (s : State) (w : Nat) (f : Ws → Ws) : State := { s with ws := s.ws.setD Ws.fresh w (f (s.wst w)) }

/-- Bytes of a word (Table 12-6). -/
def Ws.wordBytes (q : Ws) : Nat := 4 * 2 ^ q.width

/-- Depth in words. -/
def Ws.depth (q : Ws) : Nat := 2 ^ q.depthLog2

/-- Room left (R266). -/
def Ws.room (q : Ws) : Nat := q.depth - q.words.length

/-- Words not yet read (R266). -/
def Ws.unread (q : Ws) : List (Nat × Bool) := q.words.drop ((q.readPtr + 2 ^ 32 - q.releasePtr) % 2 ^ 32)

/-- Head and middle never hold more than the queue does, and the head fills from what is behind it (R267). -/
def Ws.level (q : Ws) : Ws :=
  let n := q.words.length
  let mid := Nat.min q.midN (n - Nat.min n q.headN)
  { q with headN := if mid = 0 then Nat.min 64 n else Nat.min 64 (Nat.min n q.headN), midN := mid }

/-- Appends one word (R266, R271). -/
def Ws.push (q : Ws) (v now : Nat) : Ws :=
  Ws.level { q with
    words := q.words ++ [(v % 2 ^ (8 * q.wordBytes), false)], writePtr := (q.writePtr + 1) % 2 ^ 32, lastPush := now }

/-- `RELEASE_PTR` follows to `READ_PTR`. -/
def Ws.freeTo (q : Ws) : Ws :=
  Ws.level { q with
    words := q.words.drop ((q.readPtr + 2 ^ 32 - q.releasePtr) % 2 ^ 32), releasePtr := q.readPtr
    headN := q.headN - (q.readPtr + 2 ^ 32 - q.releasePtr) % 2 ^ 32 }

/-- Pop of R272 from a queue with an unread word. -/
def Ws.pop (q : Ws) (v : Nat × Bool) : Ws :=
  let r := { q with readPtr := (q.readPtr + 1) % 2 ^ 32, last := v, poisonSeen := q.poisonSeen || v.2 }
  if q.markHeld then r else r.freeTo

/-- Mark of R272. -/
def Ws.mark (q : Ws) : Ws := { q with markPtr := q.readPtr, markHeld := true }

/-- Rewind of R272: nothing without a mark. -/
def Ws.rewind (q : Ws) : Ws := if q.markHeld then { q with readPtr := q.markPtr } else q

/-- Release of R272: nothing without a mark. -/
def Ws.release (q : Ws) : Ws := if q.markHeld then { q.freeTo with markHeld := false } else q

/-- The record (Table 12-5). -/
def Ws.record (q : Ws) : Nat :=
  packF [(0, 2, q.st), (2, 4, q.ctx), (6, 3, q.width), (9, 3, q.consumer), (12, 1, b2n q.hostPush),
    (13, 1, b2n q.lanePush), (14, 1, b2n q.markHeld), (15, 1, b2n (q.readPtr == q.writePtr)),
    (16, 1, b2n (q.st != 0 && q.room == 0)), (17, 1, b2n q.underrun), (18, 1, b2n q.poisonSeen), (19, 5, q.depthLog2),
    (32, 32, q.middle), (64, 32, q.writePtr), (96, 32, q.readPtr), (128, 32, q.releasePtr), (160, 32, q.markPtr),
    (192, 64, q.lastPush)]

/-- Pushes words whole, counting them (R268). -/
def State.wsPush (s : State) (w : Nat) (vs : List Nat) : State :=
  (s.onWs w (fun q => vs.foldl (fun r v => r.push v s.now) q)).bumpCtx (s.wst w).ctx .wsPushes vs.length

/-- Delivers the next word of a Waystation with an unread one: counts it, and its poison (R271). -/
def State.wsPop (s : State) (w : Nat) : State × Option (Nat × Bool) :=
  let q := s.wst w
  match q.unread with
  | [] => (s, none)
  | v :: _ =>
    let s1 := (s.onWs w (fun r => r.pop v)).bumpCtx q.ctx .wsPops 1
    let s2 := if v.2 then (s1.bumpCtx q.ctx .wsPoison 1).raiseRated 0x80C 0x09 q.ctx 3 w else s1
    (s2, some v)

/-- Pops up to n words. -/
def State.wsPopN : Nat → State → Nat → State × List (Nat × Bool)
  | 0, s, _ => (s, [])
  | n + 1, s, w =>
    match s.wsPop w with
    | (s1, none) => (s1, [])
    | (s1, some v) =>
      let r := State.wsPopN n s1 w
      (r.1, v :: r.2)

/-- Rewinds, counting a rewind that moved `READ_PTR`. -/
def State.wsRewind (s : State) (w : Nat) : State :=
  let q := s.wst w
  (s.onWs w Ws.rewind).bumpCtx q.ctx .wsRewinds (b2n (q.markHeld && q.readPtr != q.markPtr))

/-- A Waystation lies in a context's share. -/
def Ctx.hasWs (x : Ctx) (w : Nat) : Bool := decide (x.share.wsFirst ≤ w ∧ w < x.share.wsFirst + x.share.wsCount)

/-- R269: an emit, late or plan Waystation must be ACTIVE in the share with `WIDTH` 2 and `CONSUMER` 0. -/
def State.emitWsBad (s : State) (c w : Nat) : Bool :=
  !(s.ctx c).hasWs w || (s.wst w).st != 1 || (s.wst w).width != 2 || (s.wst w).consumer != 0

/-- Something names the Waystation or waits on it (R265). -/
def State.wsNamed (s : State) (c w : Nat) : Bool :=
  let r := (s.ctx c).route
  let plan (t : Route) : Bool := t.layers.any (fun e => bits e.2.disp 0 2 == 1 && e.2.planWs == w)
  s.seqs.any (fun e => e.2.ctx == c && e.2.st != .free && e.2.emitWs == w)
  || s.posts.any (fun e => e.2.ctx == c && e.2.st == 1 && e.2.lateMode && e.2.lateWs == w)
  || plan r.active || (match r.other with | .shadow t => plan t | .old t => plan t | .free => false)
  || !(s.wst w).pushers.isEmpty

/-- `PMP_WS_CREATE` (R265).  Which FREE Waystation is taken is a free value. -/
def wsCreate (c : Nat) (a : List Nat) (_ : Msg) (s : State) : Act :=
  match a with
  | [width, consumer, depth, flags] =>
    let x := s.ctx c
    let free := ((List.range x.share.wsCount).map (· + x.share.wsFirst)).filter (fun w => (s.wst w).st == 0)
    checked [(flagsBad flags 2, .format), (decide (width > 4 ∨ consumer > 2 ∨ depth < 7 ∨ 24 < depth), .format),
      (free.isEmpty, .noMemory)] s
      (let d := s.draw
       let w := free.getD (d.1 % free.length) 0
       let bytes := (2 ^ depth - 128) * (4 * 2 ^ width)
       let r := if bytes = 0 then (some (0, 0), d.2) else d.2.khanAlloc c 1 0 0x9 bytes
       match r.1 with
       | none => .no { s with ctxs := r.2.ctxs } .noMemory
       | some h =>
         .ok (r.2.onWs w (fun _ =>
           { Ws.fresh with
             st := 1, ctx := c, width := width, consumer := consumer, depthLog2 := depth, middle := h.1
             hostPush := bit flags 0, lanePush := bit flags 1 })) [(.u16, w)])
  | _ => .no s .format

def execPmpWsCreate (w : Nat) (s : State) : Host.Outcome State Fault Refusal :=
  .next (commitMsg w 0x0320 (withCtx [.u8, .u8, .u8, .u32] wsCreate) s)

/-- `PMP_WS_DESTROY` (R265). -/
def wsDestroy (c : Nat) (a : List Nat) (_ : Msg) (s : State) : Act :=
  match a with
  | [w] =>
    let q := s.wst w
    checked [(!(s.ctx c).hasWs w, .bounds), (decide (q.st = 2), .denied), (decide (q.st = 0), .unavailable),
      (s.wsNamed c w, .busy)] s
      (.ok ((s.khanDrop q.middle).onWs w (fun _ => Ws.fresh)) [])
  | _ => .no s .format

def execPmpWsDestroy (w : Nat) (s : State) : Host.Outcome State Fault Refusal :=
  .next (commitMsg w 0x0321 (withCtx [.u16] wsDestroy) s)

/-- `PMP_WS_QUERY` (R274). -/
def wsQuery (c : Nat) (a : List Nat) (_ : Msg) (s : State) : Act :=
  match a with
  | [w, flags] =>
    let q := s.wst w
    checked [(!(s.ctx c).hasWs w, .bounds), (flagsBad flags 1, .format)] s
      (.ok (if bit flags 0 then s.onWs w (fun r => { r with underrun := false, poisonSeen := false }) else s)
        [(.r 256, q.record)])
  | _ => .no s .format

def execPmpWsQuery (w : Nat) (s : State) : Host.Outcome State Fault Refusal :=
  .next (commitMsg w 0x0322 (withCtx [.u16, .u32] wsQuery) s)

/-- Largest count of a width (Table 12-6). -/
def wsMaxCount (width : Nat) : Nat := Nat.min 256 ((4064 - 48) / (4 * 2 ^ width))

/-- `PMP_WS_POP` (R274). -/
def wsPopMsg (c : Nat) (a : List Nat) (_ : Msg) (s : State) : Act :=
  match a with
  | [w, count, flags] =>
    let q := s.wst w
    checked [(!(s.ctx c).hasWs w, .bounds), (flagsBad flags 2, .format), (decide (q.st = 0), .unavailable),
      (decide (q.consumer ≠ 0), .denied), (decide (count > wsMaxCount q.width), .bounds)] s
      (let s0 := if bit flags 0 && count != 0 then s.onWs w Ws.mark else s
       let r := s0.wsPopN count w
       let s1 := if bit flags 1 && count != 0 then r.1.onWs w Ws.release else r.1
       let e := s1.wst w
       let n := r.2.length
       let poison := maskOf ((List.range n).filter (fun i => (r.2.getD i (0, false)).2))
       .reply s1 .ok (writeFields [(.u16, n), (.u8, b2n (e.readPtr == e.writePtr)), (.u32, e.readPtr),
           (.u32, e.writePtr), (.u32, 0)]
         ++ toLE 32 poison ++ (r.2.map (fun v => toLE q.wordBytes v.1)).flatten))
  | _ => .no s .format

def execPmpWsPop (w : Nat) (s : State) : Host.Outcome State Fault Refusal :=
  .next (commitMsg w 0x0323 (withCtx [.u16, .u16, .u32] wsPopMsg) s)

/-- Checks of a message on a Waystation that the host consumes. -/
def State.hostWsChecks (s : State) (c w : Nat) : List (Bool × Status) :=
  [(!(s.ctx c).hasWs w, .bounds), (decide ((s.wst w).st = 0), .unavailable),
   (decide ((s.wst w).consumer ≠ 0), .denied)]

/-- `PMP_WS_RELEASE` (R272, R274). -/
def wsReleaseMsg (c : Nat) (a : List Nat) (_ : Msg) (s : State) : Act :=
  match a with
  | [w] => checked (s.hostWsChecks c w) s
      (.ok (s.onWs w Ws.release) [(.u32, ((s.onWs w Ws.release).wst w).releasePtr)])
  | _ => .no s .format

def execPmpWsRelease (w : Nat) (s : State) : Host.Outcome State Fault Refusal :=
  .next (commitMsg w 0x0324 (withCtx [.u16] wsReleaseMsg) s)

/-- `PMP_WS_REWIND` (R272, R274). -/
def wsRewindMsg (c : Nat) (a : List Nat) (_ : Msg) (s : State) : Act :=
  match a with
  | [w] => checked (s.hostWsChecks c w) s (.ok (s.wsRewind w) [(.u32, ((s.wsRewind w).wst w).readPtr)])
  | _ => .no s .format

def execPmpWsRewind (w : Nat) (s : State) : Host.Outcome State Fault Refusal :=
  .next (commitMsg w 0x0325 (withCtx [.u16] wsRewindMsg) s)

/-- `PMP_WS_PUSH` (R268, R274): `LENGTH` follows from the count and the Waystation's width. -/
def wsPushMsg (m : Msg) (s : State) : Act :=
  let p := m.payload
  let c := numAt p 0 1
  let w := numAt p 2 2
  let n := numAt p 4 2
  let q := s.wst w
  let words := (List.range n).map (fun i => numAt p (48 + i * q.wordBytes) q.wordBytes)
  if p.length < 48 ∨ numAt p 1 1 ≠ 0 ∨ numAt p 6 42 ≠ 0 ∨ (n = 0 ∧ p.length ≠ 48) then .no s .format
  else
    checked (s.ctxChecks m c ++ [(!(s.ctx c).hasWs w, .bounds), (decide (q.st = 0), .unavailable),
      (!q.hostPush, .denied), (decide (n > wsMaxCount q.width), .bounds),
      (decide (p.length ≠ 48 + n * q.wordBytes), .format)]) s
      (if n ≤ q.room then
         .ok (s.wsPush w words) [(.u32, ((s.wsPush w words).wst w).writePtr)]
       else .no (s.bumpCtx c .wsFullWaits 1) .busy)

def execPmpWsPush (w : Nat) (s : State) : Host.Outcome State Fault Refusal :=
  .next (commitMsg w 0x0326 wsPushMsg s)

/-- `WS_MIDDLE_MOVE` (R267, R271): 32 words move from the tail to the middle or from the middle to the head.  An uncorrectable T1
error in the middle, or an error that a word's parity check will find wherever the word stands, poisons the word it hits. -/
def wsMiddleMove (w : Nat) (toHead : Bool) (poison : Option Nat) (s : State) : State :=
  let q := s.wst w
  let tail := q.words.length - q.headN - q.midN
  let hit (r : Ws) : Ws :=
    match poison with
    | some i => { r with words := updAt r.words i (fun v => (v.1, true)) }
    | none => r
  if toHead then
    if q.midN = 0 ∨ 32 < q.headN then s.onWs w hit
    else s.onWs w (fun r => hit { r with headN := r.headN + Nat.min 32 r.midN, midN := r.midN - Nat.min 32 r.midN })
  else if tail < 32 ∨ (q.midN = 0 ∧ q.headN < 64) then s.onWs w hit
  else s.onWs w (fun r => hit { r with midN := r.midN + 32 })

def execWsMiddleMove (w : Nat) (toHead : Bool) (poison : Option Nat) (s : State) :
    Host.Outcome State Fault Refusal := .next (wsMiddleMove w toHead poison s)

/-! ### Tally Posts -/

/-- Post t. -/
def State.post (s : State) (t : Nat) : Post := s.posts.getD t Post.fresh

/-- Changes post t. -/
def State.onPost (s : State) (t : Nat) (f : Post → Post) : State :=
  { s with posts := s.posts.setD Post.fresh t (f (s.post t)) }

/-- Changes string i of launch h of context c. -/
def State.onStr (s : State) (c h i : Nat) (f : Str → Str) : State :=
  s.onCtx c (fun x => { x with lanes := { x.lanes with
    launches := x.lanes.launches.map (fun l => if l.id = h then { l with strs := updAt l.strs i f } else l) } })

/-- State and phase as `TP_WAIT` returns them (R250). -/
def Post.waitValue (p : Post) : Nat := packF [(0, 3, p.st), (16, 15, p.phase)]

/-- The post leaves ARMED for state v: its waiters wake (R247, R248). -/
def State.postWake (s : State) (t v : Nat) : State :=
  let ws := (s.post t).waiters
  let s1 := s.onPost t (fun p => { p with st := v, waiters := [] })
  ws.foldl (fun u w => u.onStr w.1 w.2.1 w.2.2 (fun g => { g with wait := .woken (s1.post t).waitValue })) s1

/-- Folds the value of an arrival taken. -/
def Post.fold (p : Post) (v : Nat) : Post :=
  { p with
    arrived := Nat.min 0xFFFFFFFF (p.arrived + 1), valueOr := p.valueOr ||| v % 2 ^ 32
    valueMax := Nat.max p.valueMax (v % 2 ^ 32) }

/-- A late record (R249). -/
def lateRecord (t phase pkg v stamp : Nat) : Nat :=
  packF [(0, 16, t), (16, 15, phase), (32, 7, pkg), (64, 32, v), (96, 32, stamp)]

/-- Context under which a post's arrivals count: an IDLE post counts under context 0 (R253). -/
def Post.owner (p : Post) : Nat := if p.st = 0 then 0 else p.ctx

/-- An arrival that the post's arbiter stamps now and takes: the new state and the outcome code of
`PMP_TALLY_ARRIVE` (R247, R249). -/
def State.arrive (s : State) (t pkg v : Nat) (phase : Option Nat) : State × Nat :=
  let p := s.post t
  if phase.isSome ∧ phase ≠ some p.phase then (s.bumpCtx p.owner .tallyStale 1, 3)
  else if p.st = 0 ∨ (pkg ≠ s.board.pkgId ∧ !p.remoteOk) then (s.bumpCtx p.owner .tallyRefused 1, 4)
  else if p.st = 1 ∧ s.now ≤ p.deadline then
    let s1 := (s.onPost t (fun q => q.fold v)).bumpCtx p.ctx .tallyArrivals 1
    (if (s1.post t).arrived = p.target then s1.postWake t 2 else s1, 0)
  else if p.st = 2 then ((s.onPost t (fun q => q.fold v)).bumpCtx p.ctx .tallySurplus 1, 1)
  else
    let s1 := s.bumpCtx p.ctx .tallyLate 1
    let r := lateRecord t p.phase pkg v s.now
    let q := s1.wst p.lateWs
    if !p.lateMode then (s1, 2)
    else if p.late.isEmpty && q.st == 1 && decide (0 < q.room) then (s1.wsPush p.lateWs [r], 2)
    else ((s1.onPost t (fun x => { x with late := x.late ++ [r] })).bumpCtx q.ctx .wsFullWaits 1, 2)

/-- `TALLY_ARRIVAL` (R247): the arbiter stamps and takes an arrival from a package. -/
def tallyArrival (t pkg v : Nat) (phase : Option Nat) (s : State) : State := (s.arrive t pkg v phase).1

def execTallyArrival (t pkg v : Nat) (phase : Option Nat) (s : State) : Host.Outcome State Fault Refusal :=
  .next (tallyArrival t pkg v phase s)

/-- `TALLY_DEADLINE` (R248): every arrival stamped by the deadline is taken, and the post is short of its target. -/
def tallyDeadline (t : Nat) (s : State) : State :=
  let p := s.post t
  if p.st = 1 ∧ p.arrived < p.target ∧ p.deadline < s.now ∧ p.deadline ≠ noDeadline then
    (s.postWake t 3).bumpCtx p.ctx .tallyTimeouts 1
  else s

def execTallyDeadline (t : Nat) (s : State) : Host.Outcome State Fault Refusal := .next (tallyDeadline t s)

/-- `TALLY_LATE_DELIVERY` (R249): the oldest late record that waits goes to `LATE_WS` when room appears. -/
def tallyLateDelivery (t : Nat) (s : State) : State :=
  let p := s.post t
  match p.late with
  | r :: rest =>
    if (s.wst p.lateWs).st = 1 ∧ 0 < (s.wst p.lateWs).room then
      (s.wsPush p.lateWs [r]).onPost t (fun q => { q with late := rest })
    else s
  | [] => s

def execTallyLateDelivery (t : Nat) (s : State) : Host.Outcome State Fault Refusal := .next (tallyLateDelivery t s)

/-- A post lies in a context's share. -/
def Ctx.hasPost (x : Ctx) (t : Nat) : Bool := decide (x.share.tpFirst ≤ t ∧ t < x.share.tpFirst + x.share.tpCount)

/-- `PMP_TALLY_CONFIG` (R246, R269): `PHASE` rises with each arming. -/
def tallyConfig (c : Nat) (a : List Nat) (m : Msg) (s : State) : Act :=
  match a with
  | [t, lateWs, flags, target, deadline] =>
    let p := s.post t
    checked [(flagsBad flags 2, .format), (!(s.ctx c).hasPost t, .denied),
      (s.emitWsBad c lateWs, .format), (decide (deadline ≤ m.stamp), .bounds),
      (decide (p.st = 1) || !p.waiters.isEmpty, .busy)] s
      (let phase := (p.phase + 1) % 32768
       .ok (s.onPost t (fun q => { q with
         st := if target = 0 then 2 else 1, ctx := c, lateMode := bit flags 0, remoteOk := bit flags 1
         lateWs := lateWs % 4096, target := target, arrived := 0, phase := phase, deadline := deadline, valueOr := 0
         valueMax := 0 })) [(.u16, phase)])
  | _ => .no s .format

def execPmpTallyConfig (w : Nat) (s : State) : Host.Outcome State Fault Refusal :=
  .next (commitMsg w 0x0640 (withCtx [.u16, .u16, .u32, .u32, .u64] tallyConfig) s)

/-- `PMP_TALLY_ARRIVE` (R247, R250). -/
def tallyArriveMsg (c : Nat) (a : List Nat) (_ : Msg) (s : State) : Act :=
  match a with
  | [t, phase, flags, v] =>
    checked [(flagsBad flags 1, .format), (!(s.ctx c).hasPost t, .denied)] s
      (let r := s.arrive t s.board.pkgId v (if bit flags 0 then some phase else none)
       .ok r.1 [(.u8, r.2)])
  | _ => .no s .format

def execPmpTallyArrive (w : Nat) (s : State) : Host.Outcome State Fault Refusal :=
  .next (commitMsg w 0x0641 (withCtx [.u16, .u16, .u32, .u32] tallyArriveMsg) s)

/-- The record (Table 11-6). -/
def Post.record (p : Post) : Nat :=
  packF [(0, 3, p.st), (3, 4, p.ctx), (7, 1, b2n p.lateMode), (8, 1, b2n p.remoteOk), (16, 12, p.lateWs),
    (32, 32, p.target), (64, 32, p.arrived), (96, 15, p.phase), (112, 16, p.waiters.length), (128, 64, p.deadline),
    (192, 32, p.valueOr), (224, 32, p.valueMax)]

/-- `PMP_TALLY_QUERY` (R246). -/
def tallyQuery (c : Nat) (a : List Nat) (_ : Msg) (s : State) : Act :=
  match a with
  | [t] => checked [(!(s.ctx c).hasPost t, .denied)] s (.ok s [(.r 256, (s.post t).record)])
  | _ => .no s .format

def execPmpTallyQuery (w : Nat) (s : State) : Host.Outcome State Fault Refusal :=
  .next (commitMsg w 0x0642 (withCtx [.u16] tallyQuery) s)

/-! ### Khan's messages and events -/

/-- `PMP_KHAN_ALLOC` (R260). -/
def khanAllocMsg (c : Nat) (a : List Nat) (_ : Msg) (s : State) : Act :=
  match a with
  | [tier, die, n] =>
    let sh := (s.ctx c).share
    let lim := mib * (if tier = 0 then sh.stagingMib else if tier = 1 then sh.t1Mib else sh.t2Mib.getD die 0)
    checked [(decide (tier ≥ 3 ∨ (die ≠ 0 ∧ tier ≠ 2) ∨ die > 3), .format), (decide (n > lim), .bounds)] s
      (if n = 0 then .ok s [(.u32, 0), (.u64, 0)]
       else
         match s.khanAlloc c tier die 0 n with
         | (some h, t) => .ok t [(.u32, h.1), (.u64, s.board.pkgId * 2 ^ 57 + h.2)]
         | (none, t) => .no t .noMemory)
  | _ => .no s .format

def execPmpKhanAlloc (w : Nat) (s : State) : Host.Outcome State Fault Refusal :=
  .next (commitMsg w 0x0310 (withCtx [.u8, .u8, .u64] khanAllocMsg) s)

/-- Handles that a route copy names (Tables 4-1, 6-5). -/
def Route.handles (r : Route) : List Nat :=
  (r.layers.map (fun e => [bits e.2.cfg 128 32, bits e.2.cfg 160 32, bits e.2.cfg 192 32, bits e.2.comb 48 32,
    bits e.2.comb 80 32])).flatten

/-- Handles that a layout copy names (Table 10-1). -/
def layHandles (t : Tbl Nat) : List Nat := t.map (fun e => bits e.2 0 32)

/-- A buffer is named in a generation that has not been released (R90, R262). -/
def Ctx.genNames (x : Ctx) (h : Nat) : Bool :=
  x.route.active.handles.contains h || (layHandles x.lay.active).contains h
  || (match x.route.other with | .shadow t => t.handles.contains h | .old t => t.handles.contains h | .free => false)
  || (match x.lay.other with
      | .shadow t => (layHandles t).contains h | .old t => (layHandles t).contains h | .free => false)
  || x.sfn.active.any (fun e => e.2.handle == h)
  || (match x.sfn.other with
      | .shadow t => t.any (fun e => e.2.handle == h) | .old t => t.any (fun e => e.2.handle == h) | .free => false)

/-- A bad free: C1 `KHAN_BAD_FREE` for the context (R261). -/
def State.badFree (s : State) (c a : Nat) : State := (s.raise 0x80B 0x0B 1 c 1 (addrDetail a)).bumpCtx c .khanBadFrees 1

/-- `PMP_KHAN_FREE` (R261, R262).  A handle whose address is no block of its pool, as that of the layout queue's middle, is a bad
free; the message's status is not stated (log entry 106).  The null handle names no allocation.  A second free of a buffer whose
free is still held changes nothing (log entry 97). -/
def khanFreeMsg (c : Nat) (a : List Nat) (_ : Msg) (s : State) : Act :=
  match a with
  | [h] =>
    match s.handleBad c h with
    | some st => .no s st
    | none =>
      if ((s.ctx c).pool (hPool h)).badFree (s.slotOf h).base then
        .ok (s.badFree c (s.slotOf h).base) []
      else if (s.ctx c).genNames h then
        .ok (if (s.ctx c).khan.deferred.contains h then s
          else (s.onCtx c (fun x => { x with khan := { x.khan with deferred := x.khan.deferred ++ [h] } })).bumpCtx c
            .khanDeferredFrees 1) []
      else .ok (s.khanFree h) []
  | _ => .no s .format

def execPmpKhanFree (w : Nat) (s : State) : Host.Outcome State Fault Refusal :=
  .next (commitMsg w 0x0311 (withCtx [.u32] khanFreeMsg) s)

/-- `PMP_KHAN_QUOTA` (R259). -/
def khanQuota (c : Nat) (a : List Nat) (_ : Msg) (s : State) : Act :=
  match a with
  | [engine, tier, die, quota] =>
    checked [(decide (engine > 0xB ∨ tier ≥ 3 ∨ (die ≠ 0 ∧ tier ≠ 2) ∨ die > 3), .format),
      (decide (quota > noQuota), .bounds)] s
      (.ok (s.onCtx c (fun x => { x with khan := { x.khan with
        quotas := x.khan.quotas.setD noQuota (engine * 8 + poolIdx tier die) quota } })) [])
  | _ => .no s .format

def execPmpKhanQuota (w : Nat) (s : State) : Host.Outcome State Fault Refusal :=
  .next (commitMsg w 0x0312 (withCtx [.u8, .u8, .u8, .u64] khanQuota) s)

/-- A response that is one counter table of the context. -/
def ctrReply (l : List Ctr) (c : Nat) (_ : List Nat) (_ : Msg) (s : State) : Act := .ok s (ctrFlds (s.ctx c).ctr l)

/-- `PMP_KHAN_STATS` (R275). -/
def execPmpKhanStats (w : Nat) (s : State) : Host.Outcome State Fault Refusal :=
  .next (commitMsg w 0x0314 (withCtx [] (ctrReply khanCtrs)) s)

/-- `PMP_TIER_STATS` (R253). -/
def execPmpTierStats (w : Nat) (s : State) : Host.Outcome State Fault Refusal :=
  .next (commitMsg w 0x0303 (withCtx [] (ctrReply tierCtrs)) s)

/-- `KHAN_ALLOC`: an engine's allocation (R255, R259). -/
def khanAllocEngine (c engine tier die n : Nat) (s : State) : State :=
  if (s.ctx c).st ≠ .active ∨ n = 0 ∨ 0xB < engine ∨ 2 < tier ∨ 3 < die then s else (s.khanAlloc c tier die engine n).2

def execKhanAlloc (c engine tier die n : Nat) (s : State) : Host.Outcome State Fault Refusal :=
  .next (khanAllocEngine c engine tier die n s)

/-- `KHAN_FREE`: an engine frees the address it holds; a bad free raises C1 `KHAN_BAD_FREE` (R261). -/
def khanFreeEngine (c pool a : Nat) (s : State) : State :=
  if (s.ctx c).st ≠ .active ∨ 6 ≤ pool then s
  else if ((s.ctx c).pool pool).badFree a then
    s.badFree c a
  else
    match (s.ctx c).khan.slots.find? (fun e => e.2.live && e.2.base == a) with
    | some e => s.khanFree (handleOf (Nat.min pool 2) (pool - 2) c e.1 e.2.tag)
    | none => (s.onCtx c (fun x => x.giveBack pool [a])).bumpCtx c .khanFrees 1

def execKhanFree (c pool a : Nat) (s : State) : Host.Outcome State Fault Refusal := .next (khanFreeEngine c pool a s)

/-- `KHAN_REFILL` (R263): below 64 entries the cache takes 128 from its ring, above 448 it writes 128 back. -/
def khanRefill (c pool cls : Nat) (s : State) : State :=
  let p := (s.ctx c).pool pool
  let n := p.cached.getD cls 0
  if 6 ≤ pool ∨ 8 ≤ cls ∨ (s.ctx c).st ≠ .active then s
  else if n < 64 then
    s.onCtx c (fun x => x.onPool pool (fun q => { q with
      cached := updAt q.cached cls (fun k => k + Nat.min 128 (q.freeCount cls - k)) }))
  else if 448 < n then
    s.onCtx c (fun x => x.onPool pool (fun q => { q with cached := updAt q.cached cls (fun k => k - 128) }))
  else s

def execKhanRefill (c pool cls : Nat) (s : State) : Host.Outcome State Fault Refusal := .next (khanRefill c pool cls s)

/-- `KHAN_CHUNK_MOVE` (R254): a chunk whose blocks are all free moves to a class whose pool is empty. -/
def khanChunkMove (c pool chunk cls : Nat) (s : State) : State :=
  let p := (s.ctx c).pool pool
  match p.chunks.find chunk with
  | some old =>
    if 6 ≤ pool ∨ 8 ≤ cls ∨ old = cls ∨ (s.ctx c).st ≠ .active ∨ (s.fw fwQuarter).st ≠ .running ∨ 0 < p.freeCount cls ∨
        p.used.any (fun e => e.1 / chunkBytes * chunkBytes == chunk) then s
    else s.onCtx c (fun x => x.onPool pool (fun q =>
      { q with
        chunks := q.chunks.put chunk cls
        cached := updAt q.cached old (fun k => Nat.min k (q.freeCount old - chunkBytes / classBytes old)) }))
  | none => s

def execKhanChunkMove (c pool chunk cls : Nat) (s : State) : Host.Outcome State Fault Refusal :=
  .next (khanChunkMove c pool chunk cls s)

end Sys2Proof.Machine
end

