-- ==== Sys2Proof/Machine/Send.lean ====
section
/-! DEFINITION. Sending a message to a package (13 R282, Tables 13-5, 13-6): the bytes join the path stream of its
destination and class. -/

namespace Sys2Proof.Machine

/-- Traffic classes (Table 11-5). -/
def tcDispatch : Nat := 0
def tcReturn : Nat := 1
def tcCollective : Nat := 2
def tcMemory : Nat := 3
def tcControl : Nat := 4

/-- Class of a message type (Table 13-6). -/
def msgClass (type : Nat) : Nat :=
  if type ≤ 0x03 then tcDispatch
  else if type ≤ 0x05 then tcReturn
  else if type ≤ 0x11 then tcCollective
  else if type = 0x12 then tcControl
  else if type ≤ 0x24 then tcMemory
  else tcControl

/-- Key of a path to or from a package. -/
def pathKey (pkg tc : Nat) : Nat := pkg * 8 + tc

/-- Path out. -/
def State.pathOut (s : State) (k : Nat) : PathOut := s.fab.outs.getD k PathOut.fresh

/-- Changes a path out. -/
def State.onOut (s : State) (k : Nat) (f : PathOut → PathOut) : State :=
  { s with fab := { s.fab with outs := s.fab.outs.setD PathOut.fresh k (f (s.pathOut k)) } }

/-- Path in. -/
def State.pathIn (s : State) (k : Nat) : PathIn := s.fab.ins.getD k PathIn.fresh

/-- Changes a path in. -/
def State.onIn (s : State) (k : Nat) (f : PathIn → PathIn) : State :=
  { s with fab := { s.fab with ins := s.fab.ins.setD PathIn.fresh k (f (s.pathIn k)) } }

/-- The 8-byte message header (Table 13-5). -/
def msgHeader (type ctx part len : Nat) : List Byte :=
  toLE 8 (packF [(0, 8, type), (8, 4, ctx), (12, 3, part), (32, 32, len)])

/-- Sends a message.  To another package its bytes join the path stream; to this package it stays on the die.  The
body is given, and its fields are what the environment sees of it. -/
def State.sendMsg (s : State) (dst type ctx : Nat) (fields : List Nat) (body : List Byte) : State :=
  let part := (s.ctx ctx).share.partition
  let s1 := s.emit (.msg dst type ctx fields body)
  if dst = s.board.pkgId ∨ s.fab.departed.contains dst then s1
  else
    let bytes := msgHeader type ctx part body.length ++ body
    s1.onOut (pathKey dst (msgClass type)) (fun p => { p with
      stream := p.stream ++ [(part, bytes)], lastByte := s.now, queuedEnd := p.queuedEnd + bytes.length })

/-- Sends a message whose body layout the spec leaves open. -/
def State.sendOpen (s : State) (dst type ctx : Nat) (fields : List Nat) (data : List Byte) : State :=
  s.sendMsg dst type ctx fields (Config.bodyCode type fields ++ data)

/-- The path and the stream offset after the last byte sent to a package in a class. -/
def State.sentMark (s : State) (dst tc : Nat) : Nat × Nat := (pathKey dst tc, (s.pathOut (pathKey dst tc)).queuedEnd)

/-- What was sent up to a mark has been acknowledged, or its package has departed. -/
def State.acked (s : State) (m : Nat × Nat) : Bool :=
  decide (m.2 ≤ (s.pathOut m.1).ackedEnd) || s.fab.departed.contains (m.1 / 8) || m.1 / 8 == s.board.pkgId

/-- Packages present other than this one. -/
def State.others (s : State) : List Nat := s.fab.present.filter (fun p => p != s.board.pkgId)

/-- Sends one Guide message to every package of a list but this one. -/
def State.sendGuide (s : State) (ctx : Nat) (fields : List Nat) (l : List Nat) : State :=
  (l.filter (fun p => p != s.board.pkgId)).foldl (fun t p => t.sendOpen p 0x31 ctx fields []) s

end Sys2Proof.Machine
end

