-- ==== Sys2Proof/Machine/Kv.lean ====
section
/-! DEFINITION. The KV Page Keeper (03 R61 to R65, R419): columns, rings, demand, free lists and the prefix tree. -/

namespace Sys2Proof.Machine

/-! ### Geometry (Table 3-7) -/

/-- A granule is a class-4 block: 64 KiB. -/
def granule : Nat := 65536

/-- K elements of one token in one layer. -/
def Model.kElems (m : Model) : Nat := m.heads * m.headDim

/-- Bytes that one token's K (or V) row takes in the element plane and in the scale plane of a KV format code: 0 KV8, 1 KV4,
2 KV4S (Table 3-7). -/
def Model.tokElems (m : Model) (fmt : Nat) : Nat := m.kElems * (if fmt = 0 then 8 else 4) / 8
def Model.tokScales (m : Model) (fmt : Nat) : Nat := if fmt = 2 then m.kElems / 16 * 2 else m.kElems / 32

/-- Bytes of a page frame (Table 3-7). -/
def Model.frameBytes (m : Model) (fmt : Nat) : Nat :=
  2 * (roundUp (m.page * m.tokElems fmt) 256 + roundUp (m.page * m.tokScales fmt) 256)

/-- Planes of a page frame that begins at an offset: K elements, K scales, V elements, V scales, each with its bytes per token. -/
def Model.framePlanes (m : Model) (fmt base : Nat) : List (Nat × Nat) :=
  let e := roundUp (m.page * m.tokElems fmt) 256
  let sc := roundUp (m.page * m.tokScales fmt) 256
  [(base, m.tokElems fmt), (base + e, m.tokScales fmt), (base + e + sc, m.tokElems fmt),
    (base + 2 * e + sc, m.tokScales fmt)]

/-- Frames of a column of a kind: attention layer, KV format, offset in the column. -/
def Model.frames (m : Model) (ring : Bool) : List (Nat × Nat × Nat) :=
  ((m.attn.zipIdx.filter (fun a => bit a.1 2 == ring)).foldl (fun (t : Nat × List (Nat × Nat × Nat)) a =>
    (t.1 + m.frameBytes (bits a.1 0 2), t.2 ++ [(a.2, bits a.1 0 2, t.1)])) (0, [])).2

/-- Bytes of a column: the frames of its kind's attention layers. -/
def Model.colBytes (m : Model) (ring : Bool) : Nat :=
  sumN ((m.attn.filter (fun a => bit a 2 == ring)).map (fun a => m.frameBytes (bits a 0 2)))

/-- Granules of a column of the context's model (R256). -/
def Ctx.colGran (x : Ctx) (ring : Bool) : Nat :=
  match x.model with
  | some m => ceilDiv (m.colBytes ring) granule
  | none => 0

/-- Page size P; 64 before a model is loaded. -/
def Ctx.page (x : Ctx) : Nat := match x.model with | some m => m.page | none => 64

/-- Ring columns of each sequence: ceil(W / P) + 1 with sliding-window layers, else none. -/
def Ctx.ringLen (x : Ctx) : Nat :=
  match x.model with
  | some m => if m.attn.any (fun a => bit a 2) then ceilDiv m.window m.page + 1 else 0
  | none => 0

/-- `columns_to_cover(p)` (R58).  A column of a model without full-attention layers takes no granule. -/
def Ctx.cover (x : Ctx) (p : Nat) : Nat := ceilDiv p x.page

/-! ### Granules under a requester's quota (R256, R259) -/

/-- Free granules an engine may still take on die d. -/
def Ctx.granOn (x : Ctx) (engine d : Nat) : Nat :=
  let p := x.pool (2 + d)
  Nat.min (p.freeCount 4) ((x.quota engine (2 + d) - p.heldBy engine) / granule)

/-- Free granules an engine may still take on all dies: R419's G. -/
def Ctx.granFree (x : Ctx) (engine : Nat) : Nat := sumN ((List.range 4).map (x.granOn engine))

/-- n granules for an engine, from die d on in cyclic order. -/
def Ctx.pickGran (x : Ctx) (engine d n : Nat) : List Nat :=
  (((List.range 4).map (fun i =>
    ((x.pool (2 + (d + i) % 4)).freeBlocks 4).take (x.granOn engine ((d + i) % 4)))).flatten).take n

/-! ### Rows in a KV format (R33, R34, R36, R37) -/

/-- A list cut into pieces of w, at most n of them. -/
def cutBy {α : Type} (w : Nat) : Nat → List α → List (List α)
  | 0, _ => []
  | n + 1, l => if l.isEmpty then [] else l.take w :: cutBy w n (l.drop w)

/-- Digits to a base, least significant first, as a number. -/
def ofDigits (b : Nat) (l : List Nat) : Nat := l.foldr (fun x a => x % b + a * b) 0

/-- Elements packed at a width, element 0 lowest (R34). -/
def packElems (w : Nat) (l : List Nat) : List Byte := toLE (ceilDiv (l.length * w) 8) (ofDigits (2 ^ w) l)

/-- KV4S blocks of values from block index k on: scale and elements. -/
def kvBlocks (stoch : Option (Nat → Nat)) (k : Nat) (vs : List Num.Val) : List (Nat × List Nat) :=
  ((cutBy 16 vs.length vs).zipIdx k).map (fun b =>
    let r := Num.kvBlock b.1 (stoch.map (fun f => f b.2))
    (r.1.toNat, r.2))

/-! ### Demand (R419) -/

/-- Shortfall of a demand of f full and r ring columns, per kind. -/
def Ctx.shortfall (x : Ctx) (f r : Nat) : Nat × Nat :=
  let f1 := f - x.kv.freeFull.length
  let r1 := r - x.kv.freeRing.length
  let g := x.granFree 0x5
  let gr := x.colGran true
  let gf := x.colGran false
  let mr := if gr = 0 then r1 else Nat.min r1 (g / gr)
  let mf := if gf = 0 then f1 else Nat.min f1 ((g - mr * gr) / gf)
  (f1 - mf, r1 - mr)

/-- A demand does not fit and a quota alone keeps granules back (R259). -/
def Ctx.quotaStops (x : Ctx) (f r : Nat) : Bool := x.shortfall f r != (0, 0) && decide (x.granFree 0x5 < x.freeGranules)

/-- A demand fits when its shortfall is zero in both kinds. -/
def Ctx.fits (x : Ctx) (f r : Nat) : Bool := x.shortfall f r == (0, 0)

/-- Takes one column of a kind: from its list first, else formed from granules beginning at die d.  Answers the
granules, or none when there are not enough. -/
def Ctx.takeCol (x : Ctx) (ring : Bool) (d : Nat) : Option (List Nat) × Ctx :=
  let l := if ring then x.kv.freeRing else x.kv.freeFull
  match l with
  | g :: rest =>
    (some g, { x with kv := if ring then { x.kv with freeRing := rest } else { x.kv with freeFull := rest } })
  | [] =>
    let n := x.colGran ring
    let g := x.pickGran 0x5 d n
    if g.length = n then (some g, x.takeGranules 0x5 g) else (none, x)

/-- Column n. -/
def Kv.col (k : Kv) (n : Nat) : Col := k.cols.getD n ⟨false, [], 0, [], 0, none, []⟩

/-- Changes column n. -/
def Ctx.onCol (x : Ctx) (n : Nat) (f : Col → Col) : Ctx := { x with kv := { x.kv with cols := x.kv.cols.adjust n f } }

/-- Makes a new column of count 1 of a kind; answers its number. -/
def Ctx.newCol (x : Ctx) (ring : Bool) (d now : Nat) : Option Nat × Ctx :=
  match x.takeCol ring d with
  | (none, y) => (none, y)
  | (some g, y) =>
    (some y.kv.nextCol, { y with kv := { y.kv with
      cols := y.kv.cols.put y.kv.nextCol ⟨ring, g, 1, [], now, none, []⟩, nextCol := y.kv.nextCol + 1 } })

/-- Makes n new columns of a kind. -/
def Ctx.newCols (ring : Bool) (d now : Nat) : Nat → Ctx → List Nat × Ctx
  | 0, x => ([], x)
  | n + 1, x =>
    match x.newCol ring d now with
    | (none, y) => ([], y)
    | (some c, y) =>
      let r := Ctx.newCols ring d now n y
      (c :: r.1, r.2)

/-- Drops one reference on a column; the last one puts it on the free list of its kind, or frees its far copy
(R56, R62, R241). -/
def Ctx.unref (x : Ctx) (n : Nat) : Ctx :=
  let c := x.kv.col n
  if c.count ≤ 1 then
    let k := { x.kv with cols := x.kv.cols.del n }
    if c.far.isSome then { x with kv := k }
    else if c.ring then { x with kv := { k with freeRing := k.freeRing ++ [c.granules] } }
    else { x with kv := { k with freeFull := k.freeFull ++ [c.granules] } }
  else x.onCol n (fun c => { c with count := c.count - 1 })

/-- Raises a column's count by one. -/
def Ctx.ref (x : Ctx) (n : Nat) : Ctx := x.onCol n (fun c => { c with count := c.count + 1 })

/-- Columns still on a free list when phase 4 ends return their granules (R419). -/
def Ctx.dropLists (x : Ctx) : Ctx :=
  let l := x.kv.freeFull.flatten ++ x.kv.freeRing.flatten
  let y := x.dropGranules l
  { y with kv := { y.kv with freeFull := [], freeRing := [] } }

/-- Granules of columns evicted between boundaries join the pool in phase 2 (R56). -/
def Ctx.joinEvicted (x : Ctx) : Ctx :=
  let y := x.dropGranules x.kv.evicted
  { y with kv := { y.kv with evicted := [] } }

/-! ### Contents of columns -/

/-- Cells of a memory within n bytes of an address, by offset. -/
def memPart (m : List Host.Cell) (a n : Nat) : List (Nat × Byte) :=
  (m.filter (fun e => decide (a ≤ e.1 ∧ e.1 < a + n))).map (fun e => (e.1 - a, e.2))

/-- A memory with n bytes from an address replaced by given cells. -/
def memFill (m : List Host.Cell) (a n : Nat) (cells : List (Nat × Byte)) : List Host.Cell :=
  cells.foldl (fun t e => Tbl.setD t memDefault (a + e.1) e.2)
    (m.filter (fun e => !decide (a ≤ e.1 ∧ e.1 < a + n)))

/-- Contents of granules, by offset in their sequence. -/
def granCells (m : List Host.Cell) (g : List Nat) : List (Nat × Byte) :=
  ((List.range g.length).map (fun i => (memPart m (g.getD i 0) granule).map (fun e => (i * granule + e.1, e.2)))).flatten

/-- A memory with contents written into granules. -/
def granFill (m : List Host.Cell) (g : List Nat) (cells : List (Nat × Byte)) : List Host.Cell :=
  (List.range g.length).foldl (fun t i =>
    memFill t (g.getD i 0) granule
      ((cells.filter (fun e => e.1 / granule == i)).map (fun e => (e.1 % granule, e.2)))) m

/-- The Layout Engine copies column `src` into column `dst` (R62, R63). -/
def State.copyCol (s : State) (c src dst : Nat) : State :=
  let k := (s.ctx c).kv
  let a := k.col src
  let cells := if a.far.isSome then a.saved else granCells s.mem a.granules
  { s with mem := granFill s.mem (k.col dst).granules cells }

/-! ### KV quantisation (Table 8-11, R42) -/

/-- One row of K or V elements in a KV format: its element bytes and its scale bytes.  `stoch` gives the random bits of a KV4S
block by its index in the layer's frame, `k0` is the index of the row's first block (R36, R37). -/
def kvRowBytes (fmt : Nat) (stoch : Option (Nat → Nat)) (k0 : Nat) (vs : List Num.Val) : List Byte × List Byte :=
  if fmt = 2 then
    let b := kvBlocks stoch k0 vs
    (packElems 4 (b.flatMap (·.2)), b.flatMap (fun z => toLE 2 z.1))
  else
    let code := if fmt = 0 then 0x04 else 0x08
    let b := (cutBy 32 vs.length vs).map (Num.mxBlock code)
    (packElems (Num.codeBits code) (b.flatMap (·.2)), b.map (fun z => BitVec.ofNat 8 z.1))

/-- Writes bytes at an offset of granules. -/
def State.granWrite (s : State) (g : List Nat) (off : Nat) (bs : List Byte) : State :=
  (bs.zipIdx off).foldl (fun t z =>
    match g[z.2 / granule]? with
    | some a => t.writeAt (a + z.2 % granule) [z.1]
    | none => t) s

/-- Byte ranges of the first r rows of every frame of a column (Table 3-7). -/
def Model.rowRanges (m : Model) (ring : Bool) (r : Nat) : List (Nat × Nat) :=
  (m.frames ring).flatMap (fun f => (m.framePlanes f.2.1 f.2.2).map (fun z => (z.1, r * z.2)))

/-- Strings of a kernel that Seltos runs itself count under the context it serves; how many they are, how many waited and how many
steps and passes they took is open (R192, R193; log entry 108). -/
def State.ownStrings (s : State) (c : Nat) (mma sfn : Bool) : State :=
  let v (i : Nat) : Nat := s.free (2 ^ 61 + i)
  ((((s.bumpCtx c .stringsRun (v 0)).bumpCtx c .placeWaits (v 1)).bumpCtx c .mmaSteps (b2n mma * v 2)).bumpCtx c .sfnPasses
    (b2n sfn * v 3)).freed

/-- A layout command of one of Seltos's own blocks counts under the context it serves: its destination bytes, and as many commands as
the block cuts it into, which is open (R229; log entry 111). -/
def State.ownLayout (s : State) (c n : Nat) : State :=
  ((s.bumpCtx c .layoutCmds (s.free (2 ^ 61 + 5))).bumpCtx c .layoutBytes n).freed

/-- Strings of a kernel that Seltos runs itself are killed (R92, R191). -/
def State.ownKilled (s : State) (c : Nat) : State := (s.bumpCtx c .stringsKilled (s.free (2 ^ 61 + 4))).freed

/-- Row of a sequence's token at a position in one layer's frame of column n: K and V converted and written (R42, R64). -/
def State.kvRow (s : State) (c q p n : Nat) (m : Model) (f : Nat × Nat × Nat) : State :=
  let k := (s.ctx c).kv.col n
  let row := p % m.page
  let per := m.kElems / 16
  let stoch := if m.stoch then some (Num.kvBits (s.seqs.getD q Seq.fresh).seed (p - row) f.1) else none
  let r (v : Bool) : List Byte × List Byte :=
    kvRowBytes f.2.1 stoch (row * per + (if v then m.page * per else 0))
      ((List.range m.kElems).map (fun i => Num.v32 (Config.kvElement s.freeCtr q p f.1 v i)))
  let out := [(r false).1, (r false).2, (r true).1, (r true).2]
  let s1 := ((m.framePlanes f.2.1 f.2.2).zip out).foldl (fun t z => t.granWrite k.granules (z.1.1 + row * z.1.2) z.2) s
  s1.charge c (k.granules.headD 0) (sumN (out.map List.length))

/-- Rows of one token in every layer: its page's column holds the full-attention frames, its ring column the rest (R63). -/
def State.kvToken (s : State) (c q p : Nat) : State :=
  match (s.ctx c).model with
  | none => s
  | some m =>
    let e := s.seqs.getD q Seq.fresh
    let put (t : State) (ring : Bool) (n : Option Nat) : State :=
      match n with
      | some n => (m.frames ring).foldl (fun u f => u.kvRow c q p n m f) t
      | none => t
    put (put s false e.cols[p / m.page]?) true e.ring[p / m.page % Nat.max 1 e.ring.length]?

/-- Rows of n tokens from a position. -/
def State.kvTokens (s : State) (c q p n : Nat) : State :=
  if n = 0 then s else ((List.range n).foldl (fun t i => t.kvToken c q (p + i)) s).ownStrings c false false

/-! ### The prefix tree (R65) -/

/-- Node key of a page under a parent. -/
def nodeKey (c parent : Nat) (toks : List Nat) : Nat :=
  Num.fnv1a (toLE 1 c ++ toLE 8 parent ++ (toks.map (toLE 4)).flatten)

/-- Walks the tree over whole pages, at most n of them: the nodes matched.  A node whose column is not in T2 stops the
walk (R154). -/
def Kv.walk (k : Kv) (c page : Nat) : Nat → Nat → List Nat → List Node
  | 0, _, _ => []
  | n + 1, parent, toks =>
    let p := toks.take page
    match k.tree.find? (fun e => e.parent == parent && e.key == nodeKey c parent p && e.tokens == p) with
    | none => []
    | some e => if (k.col e.col).far.isSome then [] else e :: Kv.walk k c page n e.key (toks.drop page)

/-- A node is a leaf when no other node names it as parent. -/
def Kv.leaf (k : Kv) (e : Node) : Bool := !k.tree.any (fun x => x.parent == e.key)

/-- Releases one leaf whose column count is 1, least recently matched first (R65). -/
def Ctx.reclaimOne (x : Ctx) : Option Ctx :=
  match minBy (·.matched) (x.kv.tree.filter (fun e => x.kv.leaf e && (x.kv.col e.col).count == 1
      && (x.kv.col e.col).far.isNone)) with
  | none => none
  | some e =>
    let y := { x with kv := { x.kv with tree := x.kv.tree.filter (fun n => n != e) } }
    some (y.unref e.col)

/-- Releases leaves until a demand fits or none is left. -/
def Ctx.reclaim (f r : Nat) : Nat → Ctx → Ctx
  | 0, x => x
  | n + 1, x => if x.fits f r then x else match x.reclaimOne with | none => x | some y => Ctx.reclaim f r n y

/-- Inserts the nodes of a sequence's pages from index i on whose key is absent; each node refers to its column
(R65). -/
def Ctx.insertPages (c now : Nat) : List (List Nat × Nat) → Nat → Ctx → Ctx
  | [], _, x => x
  | (toks, col) :: r, parent, x =>
    let key := nodeKey c parent toks
    if x.kv.tree.any (fun e => e.key == key) then Ctx.insertPages c now r key x
    else
      let y := (x.ref col).onCol col (fun k => { k with tokens := toks })
      Ctx.insertPages c now r key { y with kv := { y.kv with tree := y.kv.tree ++ [⟨key, parent, toks, col, now⟩] } }

/-! ### Eviction (R154, R240) -/

/-- Sequences of a context that hold a column. -/
def State.holders (s : State) (c col : Nat) : List Nat :=
  (s.seqs.filter (fun e => e.2.ctx == c && e.2.st != .free && (e.2.cols.contains col || e.2.ring.contains col))).map
    (fun e => e.1)

/-- Sequence q. -/
def State.seq (s : State) (q : Nat) : Seq := s.seqs.getD q Seq.fresh

/-- Changes sequence q. -/
def State.onSeq (s : State) (q : Nat) (f : Seq → Seq) : State :=
  { s with seqs := s.seqs.setD Seq.fresh q (f (s.seq q)) }

/-- A column may be evicted: in T2, and every sequence that holds it is IDLE. -/
def State.colEvictable (s : State) (c : Nat) (n : Nat) (k : Col) : Bool :=
  k.far.isNone && (s.holders c n).all (fun q => (s.seq q).st == .idle)

/-- A hint kind is in force for some sequence that holds a column (Table 11-4). -/
def State.colHint (s : State) (c n kind : Nat) : Bool :=
  (s.holders c n).any (fun q => (s.ctx c).kv.hints.contains (q, kind))

/-- Age of a column for R154: `KV_EVICT_FIRST` is older than every unhinted one, `KV_KEEP` newer. -/
def State.colAge (s : State) (c n : Nat) (k : Col) : Nat :=
  (if s.colHint c n 0x2 then 0 else if s.colHint c n 0x1 then 2 else 1) * 2 ^ 64 + k.stamp

/-- Bytes of an image with its chunk CRCs (R148, R169). -/
def imageSpan (n : Nat) : Nat := n + 4 * ceilDiv n 4096

/-- Bytes of T4 that a context holds on this package: far columns and source or mirror copies here. -/
def State.t4Used (s : State) (c : Nat) : Nat :=
  let x := s.ctx c
  granule * sumN ((x.kv.cols.filter (fun e => e.2.far == some .t4)).map (fun e => e.2.granules.length))
  + sumN (x.resid.sources.map (fun e =>
      let n := imageSpan ((x.model.map (·.imageBytes)).getD 0)
      (if e.2.pkg = s.board.pkgId ∧ e.2.kind = 4 then n else 0)
      + (match e.2.mirror with | some (p, k) => if p = s.board.pkgId ∧ k = 4 then n else 0 | none => 0)))

/-- Bytes used in a borrowed lot. -/
def State.lotUsed (s : State) (c : Nat) (l : Borrowed) : Nat :=
  granule * sumN (((s.ctx c).kv.cols.filter (fun e => e.2.far == some (.lot l.lender l.base))).map
    (fun e => e.2.granules.length))
  + countP (fun (e : Nat × Source) => e.2.pkg == l.lender && e.2.kind == l.base) (s.ctx c).resid.sources
    * imageSpan (((s.ctx c).model.map (·.imageBytes)).getD 0)

/-- Bytes of a lot. -/
def lotBytes : Nat := 268435456

/-- A held lot with room for n bytes that is not being recalled. -/
def State.lotRoom (s : State) (c n : Nat) (but : Option FarPlace) : Option Borrowed :=
  (s.ctx c).kv.lots.find? (fun l => !l.recalled && but != some (.lot l.lender l.base)
    && decide (s.lotUsed c l + n ≤ lotBytes))

/-- T4 has room for n more bytes of a context. -/
def State.t4Room (s : State) (c n : Nat) : Bool := decide (s.t4Used c + n ≤ (s.ctx c).share.t4Gib * gib)

/-- A context may borrow one more lot (R236, R242). -/
def Ctx.mayBorrow (x : Ctx) : Bool := !x.kv.noLend && decide (x.kv.lots.length < x.share.t3Lots)

/-- A lot joins a context. -/
def State.borrow (s : State) (c lender base : Nat) : State :=
  (s.onCtx c (fun x => { x with kv := { x.kv with lots := x.kv.lots ++ [⟨lender, base, s.now, false⟩] } })).bumpCtx c
    .lotsBorrowed 1

/-- Where an item of n bytes evicted from T2 goes (R240): a held lot; a new lot within the quota, as a package asks for one; the
context's T4 share here.  `ask` gives what a lender granted. -/
def State.farPlace (s : State) (c n : Nat) (poolOnly : Bool) (ask : State → Option (Nat × Nat) × State) :
    Option FarPlace × State :=
  let own (t : State) : Option FarPlace × State := (if t.t4Room c n then some .t4 else none, t)
  if poolOnly then own s
  else
    match s.lotRoom c n none with
    | some l => (some (.lot l.lender l.base), s)
    | none =>
      if (s.ctx c).mayBorrow ∧ n ≤ lotBytes then
        match ask s with
        | (some g, t) => (some (.lot g.1 g.2), t.borrow c g.1 g.2)
        | (none, t) => own t
      else own s

/-- Moves column n out of T2 to a place; its granules wait for the next phase 2; `KV_FAR` is set on its holders. -/
def State.colOut (s : State) (c n : Nat) (p : FarPlace) : State :=
  let k := (s.ctx c).kv.col n
  let hs := s.holders c n
  let s1 := s.onCtx c (fun x =>
    let y := x.onCol n (fun k => { k with far := some p, saved := granCells s.mem k.granules })
    { y with kv := { y.kv with evicted := y.kv.evicted ++ k.granules } })
  let s2 := hs.foldl (fun t q => t.onSeq q (fun e => { e with kvFar := true })) s1
  let s3 := k.granules.foldl (fun t a => t.charge c a granule) s2
  let s4 := if p = .t4 then s3.charge c (addr 4 0) (k.granules.length * granule) else s3
  s4.bumpCtx c .evictColumns 1

/-- Brings a far column back into granules of T2 (R241). -/
def State.colBack (s : State) (c n : Nat) (g : List Nat) : State :=
  let k := (s.ctx c).kv.col n
  let s0 := g.foldl (fun t a => t.charge c a granule) { s with mem := granFill s.mem g k.saved }
  let s1 := if k.far = some .t4 then s0.charge c (addr 4 0) (k.granules.length * granule) else s0
  (s1.onCtx c (fun x => x.onCol n (fun k => { k with granules := g, far := none, saved := [], stamp := s.now }))).bumpCtx
    c .kvReturns 1

/-- Far columns of a sequence. -/
def State.farCols (s : State) (q : Nat) : List Nat :=
  let e := s.seq q
  (e.cols ++ e.ring).filter (fun n => ((s.ctx e.ctx).kv.col n).far.isSome)

/-- `KV_FAR` clears on a context's sequences whose columns are all back. -/
def State.clearFar (s : State) (c : Nat) : State :=
  (s.seqs.filter (fun e => e.2.ctx == c && e.2.kvFar)).foldl (fun t e =>
    if (t.farCols e.1).isEmpty then t.onSeq e.1 (fun x => { x with kvFar := false }) else t) s

end Sys2Proof.Machine
end

