-- ==== Sys2Proof/Machine/Gens.lean ====
section
/-! DEFINITION. Double-buffered tables (04 R88 to R90, 09 R207, 10 R211): what a change writes, flips and releases. -/

namespace Sys2Proof.Machine

/-! ### Route copies -/

/-- Layer L of a copy. -/
def Route.layer (r : Route) (l : Nat) : LayerCfg := r.layers.getD l ⟨0, 0, 0, 0, []⟩

/-- A layer has a route configuration: KMIN is at least 1 in every one. -/
def Route.has (r : Route) (l : Nat) : Bool := (r.layer l).cfg != 0

/-- Key of an expert entry. -/
def expKey (l e : Nat) : Nat := l * 65536 + e

/-- Expert entry. -/
def Route.expert (r : Route) (l e : Nat) : Expert := r.experts.getD (expKey l e) ⟨false, false, false, 0, []⟩

def cfgLast (c : Nat) : Nat := bits c 0 16
def cfgKmin (c : Nat) : Nat := bits c 16 5
def cfgKmax (c : Nat) : Nat := bits c 21 5
def cfgSigmoid (c : Nat) : Bool := bit c 26
def cfgNorm (c : Nat) : Bool := bit c 27
def cfgNull (c : Nat) : Bool := bit c 28
def cfgBias (c : Nat) : Bool := bit c 29
def cfgDepth (c : Nat) : Nat := bits c 30 2
def cfgTau (c : Nat) : Nat := bits c 32 16
def cfgGateFmt (c : Nat) : Nat := bits c 48 5
def cfgActFmt (c : Nat) : Nat := bits c 53 5
def cfgPredM (c : Nat) : Nat := bits c 58 4
def cfgScale (c : Nat) : Nat := bits c 64 32
def cfgWScale (c : Nat) : Nat := bits c 96 16
def cfgPrefMin (c : Nat) : Nat := bits c 112 16
def cfgGateH (c : Nat) : Nat := bits c 128 32
def cfgBiasH (c : Nat) : Nat := bits c 160 32
def cfgPredH (c : Nat) : Nat := bits c 192 32

/-- Columns of a layer's gate: real experts and the null column. -/
def cfgCols (c : Nat) : Nat := cfgLast c + 1 + b2n (cfgNull c)

/-- Largest `KMAX` over a copy's layers, 1 for none. -/
def Route.kmax (r : Route) : Nat := Nat.max 1 (maxN (r.layers.map (fun e => cfgKmax e.2.cfg)))

/-- Defaults of Table 5-2. -/
def dispDefault : Nat :=
  packF [(3, 5, 0x02), (16, 16, 0x0140), (32, 16, 0x0140), (48, 16, 2), (64, 32, 0x3F800000), (96, 16, 0x3E8),
    (112, 16, 0x64)]

/-- Defaults of Table 6-5. -/
def combDefault : Nat := packF [(2, 5, 1), (7, 5, 1), (16, 32, 0x3727C5AC)]

/-- Bytes of a tensor of n elements of a format: element plane, then scale plane (R34, R36). -/
def tensorBytes (fmt n : Nat) : Nat :=
  if fmt = 0x09 then n / 32 * 12 + n / 32
  else ceilDiv (n * Num.codeBits fmt) 8 + (if Num.codeMx fmt then n / 32 else 0)

/-- `u32` words of a buffer. -/
def State.bufWords (s : State) (h n : Nat) : List Nat :=
  (List.range n).map (fun i => ofLE (s.bufBytes h (4 * i) 4))

/-! ### What each software change writes -/

/-- n bytes of a message's payload from an offset, as a number. -/
def Msg.num (m : Msg) (o n : Nat) : Nat := numAt m.payload o n

/-- A route copy with the change of a message (R72, R73, R98, R143). -/
def State.routeChange (s : State) (m : Msg) (r : Route) : Route :=
  let l := m.num 2 2
  let old := r.layer l
  if m.op = 0x0210 then
    let cfg := m.num 8 32
    { r with layers := r.layers.put l { old with
        cfg := cfg
        disp := if old.cfg = 0 then dispDefault else old.disp
        comb := if old.cfg = 0 then combDefault else old.comb
        bias := if cfgBias cfg then s.bufWords (cfgBiasH cfg) (cfgCols cfg) else [] } }
  else if m.op = 0x0211 then
    let h := m.num 4 4
    { r with layers := r.layers.put l { old with
        cfg := setBits old.cfg 160 32 h, bias := s.bufWords h (cfgCols old.cfg) } }
  else if m.op = 0x0214 then
    { r with layers := r.layers.put l { old with disp := m.num 8 16, planWs := m.num 4 2 } }
  else { r with layers := r.layers.put l { old with comb := m.num 8 16 } }

/-- Segments of a user function (Table 9-5): 32 a binade and half (R208). -/
def sfnSegments (h : Nat) : Nat := 32 * bits h 24 7 * (b2n (bit h 32) + b2n (bit h 33))

/-- A special-function table with the change of a `PMP_SFN_LOAD` (R208). -/
def State.sfnChange (s : State) (m : Msg) (t : Tbl UserFn) : Tbl UserFn :=
  let h := m.num 4 4
  let hd := ofLE (s.bufBytes h 0 32)
  if bit hd 12 then t.del (bits hd 0 8)
  else t.put (bits hd 0 8)
    ⟨hd, (List.range (sfnSegments hd)).map (fun i => ofLE (s.bufBytes h (32 + 16 * i) 16)), h⟩

/-- A layout table with the change of a `PMP_LAYOUT_LOAD` (R211). -/
def State.layChange (s : State) (m : Msg) (t : Tbl Nat) : Tbl Nat :=
  let f := m.num 2 2
  let n := m.num 4 2
  let h := m.num 8 4
  (List.range n).foldl (fun u i => u.setD 0 (f + i) (ofLE (s.bufBytes h (64 * i) 64))) t

/-! ### Guide's own changes -/

/-- Changes an expert entry. -/
def Route.onExpert (r : Route) (l e : Nat) (f : Expert → Expert) : Route :=
  { r with experts := r.experts.adjust (expKey l e) f }

/-- A route copy with a change of Guide (R89, R158, R159, R161, R166 to R170, R332). -/
def Route.guide (r : Route) : GuideChange → Route
  | .entry l e i x => r.onExpert l e (fun k =>
      if k.replicas.length ≤ i ∧ i < 16 then
        { k with replicas := k.replicas ++ List.replicate (i - k.replicas.length) ⟨0, 0, false, 0⟩ ++ [x] }
      else { k with replicas := updAt k.replicas i (fun _ => x) })
  | .deactivate l e i => r.onExpert l e (fun k =>
      { k with replicas := updAt k.replicas i (fun x => { x with active := false }) })
  | .avail l e up cause => r.onExpert l e (fun k => { k with avail := up, cause := cause })
  | .mirrored l e on => r.onExpert l e (fun k => { k with mirrored := on })
  | .dropDie p d => { r with experts := r.experts.mapV (fun _ k =>
      { k with replicas := k.replicas.map (fun x => if x.pkg = p ∧ x.die = d then { x with active := false } else x) }) }
  | .dropPkg p => { r with experts := r.experts.mapV (fun _ k =>
      { k with replicas := k.replicas.map (fun x => if x.pkg = p then { x with active := false } else x) }) }
  | .setShare p n => { r with experts := r.experts.mapV (fun _ k =>
      { k with replicas := k.replicas.map (fun x => if x.pkg = p then { x with share := n } else x) }) }
  | .hint l e on => r.onExpert l e (fun k => { k with hintHeld := on })

/-! ### References, merges, flips -/

/-- A table: 0 route, 1 special function, 2 layout. -/
def tableOf (op : Nat) : Nat := if op = 0x0230 then 1 else if op = 0x0232 then 2 else 0

/-- The second copy of a context's table is an old one. -/
def Ctx.holdsOld (x : Ctx) (t : Nat) : Bool :=
  if t = 0 then (match x.route.other with | .old _ => true | _ => false)
  else if t = 1 then (match x.sfn.other with | .old _ => true | _ => false)
  else (match x.lay.other with | .old _ => true | _ => false)

/-- The second copy is a shadow with changes. -/
def Ctx.holdsShadow (x : Ctx) (t : Nat) : Bool :=
  if t = 0 then (match x.route.other with | .shadow _ => true | _ => false)
  else if t = 1 then (match x.sfn.other with | .shadow _ => true | _ => false)
  else (match x.lay.other with | .shadow _ => true | _ => false)

/-- Generation of a context's table. -/
def Ctx.genOf (x : Ctx) (t : Nat) : Nat := if t = 0 then x.route.gen else if t = 1 then x.sfn.gen else x.lay.gen

/-- Something is still bound to the generation before the active one (R89). -/
def Ctx.oldReferenced (x : Ctx) (t : Nat) : Bool :=
  let old := (x.genOf t + 2 ^ 32 - 1) % 2 ^ 32
  (match x.steps.man with
   | some m => (if t = 0 then m.routeGen else if t = 1 then m.sfnGen else m.layGen) == old
   | none => false)
  || x.lanes.launches.any (fun l => l.strs.any (fun g => g.st != 2) &&
      (if t = 0 then l.routeGen else if t = 1 then l.sfnGen else l.layGen) == old)
  || (t == 2 && x.lanes.cmds.any (fun k => k.layGen == old))

/-- A layout command received and not yet taken is bound to the generation before the active one (R214). -/
def State.runBinds (s : State) (c t : Nat) : Bool :=
  t == 2 && s.host.msgs.any (fun m => m.op == 0x0340 && bits (m.num 0 40) 80 4 == c
    && m.layGen == (((s.ctx c).genOf t) + 2 ^ 32 - 1) % 2 ^ 32)

/-- Merges a software change into the shadow; a free second copy first becomes the shadow. -/
def State.mergeChange (s : State) (c : Nat) (m : Msg) : State :=
  let t := tableOf m.op
  s.onCtx c (fun x =>
    if t = 0 then
      let b := match x.route.other with | .shadow r => r | _ => x.route.active
      { x with route := { x.route with other := .shadow (s.routeChange m b) } }
    else if t = 1 then
      let b := match x.sfn.other with | .shadow r => r | _ => x.sfn.active
      { x with sfn := { x.sfn with other := .shadow (s.sfnChange m b) } }
    else
      let b := match x.lay.other with | .shadow r => r | _ => x.lay.active
      { x with lay := { x.lay with other := .shadow (s.layChange m b) } })

/-- The copy that the next change builds on. -/
def Ctx.draft (x : Ctx) : Route := match x.route.other with | .shadow r => r | _ => x.route.active

/-- Bytes of one copy (R88): configurations, expert entries, bias vectors, and the replica array of the primaries with n
secondaries, or of the entries there are if they are more. -/
def Route.bytes (r : Route) (moe n : Nat) : Nat :=
  64 * moe + 8 * r.experts.length + 4 * sumN (r.layers.map (fun e => e.2.bias.length))
    + 4 * Nat.max (r.experts.length + n) (sumN (r.experts.map (fun e => e.2.replicas.length)))

/-- Quartermaster makes both copies at least n bytes each from the context's T1 share, or finds no room (R88). -/
def State.fitCopies (s : State) (c n : Nat) : Bool × State :=
  if n ≤ (s.ctx c).copyBytes then (true, s)
  else
    match ((s.ctx c).copyH.foldl State.khanDrop s).khanAlloc c 1 0 0x7 n with
    | (none, t) => (false, s.onCtx c (fun x => { x with ctr := (t.ctx c).ctr }))
    | (some h, t) =>
      match t.khanAlloc c 1 0 0x7 n with
      | (none, u) => (false, s.onCtx c (fun x => { x with ctr := (u.ctx c).ctr }))
      | (some g, u) => (true, u.onCtx c (fun x => { x with copyBytes := n, copyH := [h.1, g.1] }))

/-- The copies grow with the entries that Guide adds; copies that cannot grow keep their size (log entry 99). -/
def State.growCopies (s : State) (c : Nat) : State :=
  let x := s.ctx c
  (s.fitCopies c (if x.copyBytes = 0 then 0 else x.draft.bytes ((x.model.map (·.moe)).getD 0) 0)).2

/-- A change of Guide adds a replica entry. -/
def GuideChange.adds : GuideChange → Bool
  | .entry _ _ _ _ => true
  | _ => false

/-- Merges a change of Guide. -/
def Ctx.mergeGuide (x : Ctx) (g : GuideChange) : Ctx :=
  let b := match x.route.other with | .shadow r => r | _ => x.route.active
  { x with route := { x.route with other := .shadow (b.guide g) } }

/-- No step of the context is in flight and no boundary is running. -/
def Ctx.idle (x : Ctx) : Bool := x.steps.man.isNone && !x.steps.between

/-- Flips one table that holds a shadow, and completes the messages merged into it (R89). -/
def State.flip (s : State) (c t : Nat) : State :=
  if !(s.ctx c).holdsShadow t then s
  else
    let s1 := s.onCtx c (fun x =>
      if t = 0 then match x.route.other with
        | .shadow r => { x with route := ⟨(x.route.gen + 1) % 2 ^ 32, r, .old x.route.active⟩ }
        | _ => x
      else if t = 1 then match x.sfn.other with
        | .shadow r => { x with sfn := ⟨(x.sfn.gen + 1) % 2 ^ 32, r, .old x.sfn.active⟩ }
        | _ => x
      else match x.lay.other with
        | .shadow r => { x with lay := ⟨(x.lay.gen + 1) % 2 ^ 32, r, .old x.lay.active⟩ }
        | _ => x)
    let s2 := s1.bumpCtx c (if t = 0 then .routeFlips else if t = 1 then .sfnFlips else .layoutFlips) 1
    let g := (s2.ctx c).genOf t
    let ms := s2.host.msgs.filter (fun m =>
      (match m.phase with | .atFlip _ => true | _ => false) && msgCtx m.payload == c && tableOf m.op == t)
    ms.foldl (fun u m => u.complete m (owner m.op) .ok (writeFields [(.u32, g)]))
      (if t = 1 then s2.bumpCtx c .sfnLoads ms.length else s2)

/-- A software change is written into the shadow; its message completes at the flip. -/
def State.takeChange (s : State) (c : Nat) (m : Msg) : State :=
  (s.mergeChange c m).setPhase m (.atFlip (((s.ctx c).genOf (tableOf m.op) + 1) % 2 ^ 32))

/-- Handles whose deferred free may take effect: no live copy names them (R90, R262). -/
def State.freeDeferred (s : State) (c : Nat) : State :=
  let x := s.ctx c
  let go := x.khan.deferred.filter (fun h => !x.genNames h)
  let s1 := s.onCtx c (fun y => { y with khan := { y.khan with
    deferred := y.khan.deferred.filter (fun h => y.genNames h) } })
  go.foldl State.khanDrop s1

/-- Releases an old copy that nothing refers to any more; deferred frees take effect, and the changes that waited
merge in order of receipt stamp, Guide's own with them; one that has waited past its 1 ms ends in `ST_BUSY` (R89). -/
def State.releaseOld (s : State) (c t : Nat) : State :=
  let x := s.ctx c
  if !x.holdsOld t || x.oldReferenced t || s.runBinds c t then s
  else
    let s1 := s.onCtx c (fun y =>
      if t = 0 then { y with route := { y.route with other := .free } }
      else if t = 1 then { y with sfn := { y.sfn with other := .free } }
      else { y with lay := { y.lay with other := .free } })
    let s2 := s1.freeDeferred c
    let ms := sortBy (fun (a b : Msg) => decide (a.stamp ≤ b.stamp)) (s2.host.msgs.filter (fun m =>
      (match m.phase with | .reloadWait _ => true | _ => false) && msgCtx m.payload == c && tableOf m.op == t))
    let late (m : Msg) : Bool := match m.phase with | .reloadWait d => decide (d < s.now) | _ => false
    let s3 := ms.foldl (fun u m => if late m then u.complete m (owner m.op) .busy [] else u.takeChange c m) s2
    if t = 0 then
      (s3.onCtx c (fun y => { (y.guideWait.foldl Ctx.mergeGuide y) with guideWait := [] })).growCopies c
    else s3

/-- The flip happens at once when no step is in flight and no boundary runs. -/
def State.flipIdle (s : State) (c t : Nat) : State := if (s.ctx c).idle then s.flip c t else s

/-- A software change arrives (R89): it merges, or waits up to 1 ms while the old copy is still referenced. -/
def softChange (c : Nat) (m : Msg) (s : State) : Act :=
  let t := tableOf m.op
  let s1 := s.releaseOld c t
  if (s1.ctx c).holdsOld t then
    .hold (if t = 0 then s1.bumpCtx c .routeWaits 1 else s1) (.reloadWait (m.stamp + 1000000))
  else
    let s2 := s1.mergeChange c m
    if (s2.ctx c).idle then
      let s3 := (s2.flip c t).bumpCtx c .sfnLoads (b2n (t == 1))
      .ok s3 [(.u32, (s3.ctx c).genOf t)]
    else .hold s2 (.atFlip (((s2.ctx c).genOf t + 1) % 2 ^ 32))

/-- A change of Guide (R89): it merges, or waits without limit. -/
def State.guideChange (s : State) (c : Nat) (g : GuideChange) : State :=
  let s1 := s.releaseOld c 0
  if (s1.ctx c).holdsOld 0 then
    (s1.onCtx c (fun x => { x with guideWait := x.guideWait ++ [g] })).bumpCtx c .routeWaits 1
  else
    let s2 := s1.onCtx c (fun x => x.mergeGuide g)
    (if g.adds then s2.growCopies c else s2).flipIdle c 0

/-- Flips every table with a shadow: between phases 2 and 3 of a boundary. -/
def State.flipAll (s : State) (c : Nat) : State := ((s.flip c 0).flip c 1).flip c 2

/-- `GENERATION_RELEASE` (R89, R90, R207, R211). -/
def generationRelease (c t : Nat) (s : State) : State :=
  if 16 ≤ c ∨ 3 ≤ t ∨ (s.ctx c).st ≠ .active then s else (s.releaseOld c t).flipIdle c t

def execGenerationRelease (c t : Nat) (s : State) : Host.Outcome State Fault Refusal :=
  .next (generationRelease c t s)

/-- `TABLE_RELOAD_TIMEOUT`: a change not merged within 1 ms of receipt completes `ST_BUSY` (R89).  The owner need not
run: the message's own deadline has passed. -/
def tableReloadTimeout (w : Nat) (s : State) : State :=
  match s.host.msgs.find? (fun m => m.win == w &&
      (match m.phase with | .reloadWait t => decide (t < s.now) | _ => false)) with
  | some m => s.complete m (owner m.op) .busy []
  | none => s

def execTableReloadTimeout (w : Nat) (s : State) : Host.Outcome State Fault Refusal := .next (tableReloadTimeout w s)

end Sys2Proof.Machine
end

