-- ==== Sys2Proof/Machine/Routes.lean ====
section
/-! DEFINITION. Route, dispatch, combine, special-function and layout configurations (04 R72, R73; 05 R98, R105; 06
R125, R138, R143; 09 R208, R209; 10 R211) and the messages that only read them. -/

namespace Sys2Proof.Machine

/-- The first two checks of every 0x02xx message that names a layer (R73). -/
def State.layerChecks (s : State) (c l : Nat) : List (Bool × Status) :=
  [((s.ctx c).model.isNone, .unavailable),
   (decide ((((s.ctx c).model.map (·.moe)).getD 0) ≤ l), .bounds)]

/-- `LAST_EXPERT` of a layer in the model descriptor. -/
def Ctx.lastExpert (x : Ctx) (l : Nat) : Nat := (x.model.map (fun m => m.last.getD l 0)).getD 0

/-- Packages of the appliance: this one and those present (R15); N of R105 and the shares of R160 follow it, so they fall as a
package departs (log entry 104). -/
def State.appliance (s : State) : Nat := (s.board.pkgId :: s.others).length

/-- `share_bp(n, at16, at64, at128)` (R160). -/
def shareBp (n a b c : Nat) : Nat :=
  if n ≤ 16 then a else if n ≤ 64 then a + ceilDiv ((n - 16) * (b - a)) 48 else b + ceilDiv ((n - 64) * (c - b)) 64

/-- Headroom and detour reserves of an appliance of n packages, in basis points (R160). -/
def headroomBp (n : Nat) : Nat := shareBp n 300 600 900
def detourBp (n : Nat) : Nat := shareBp n 200 400 600

/-- Real experts of a context's model. -/
def Ctx.expertCount (x : Ctx) : Nat := match x.model with | some m => sumN (m.last.map (· + 1)) | none => 0

/-- FP32 pattern that is zero, negative, infinite or NaN. -/
def badScale32 (x : Nat) : Bool :=
  x % 2 ^ 31 == 0 || bit x 31 || decide (0x7F800000 ≤ x % 2 ^ 31)

/-- BF16 pattern that is zero, negative, infinite or NaN. -/
def badScale16 (x : Nat) : Bool := badScale32 (x * 65536)

/-! ### Reserves and landing tables -/

/-- Row size rb of a combine region (R135). -/
def rowBytes (d : Nat) : Nat := roundUp (d * 4) 256

/-- Spill reserve of a step limit, d_model and plane count (R138). -/
def spillBytes (limit d planes : Nat) : Nat := limit * rowBytes d * planes

/-- A chunk whose blocks are all free. -/
def Pool.chunkFree (p : Pool) (base : Nat) : Bool := !p.used.any (fun e => e.1 / chunkBytes * chunkBytes == base)

/-- Weights of the first carve: a `CLASS_SPLIT` of zero gives every class the weight 1 (R324). -/
def classWeights (split : Nat) : List Nat :=
  (List.range 8).map (fun c => if split = 0 then 1 else bits split (4 * c) 4)

/-- Chunks of each class: floors, then what is left over to the highest class with a weight (R324). -/
def classCounts (split chunks : Nat) : List Nat :=
  let w := classWeights split
  let base := w.map (fun x => chunks * x / Nat.max 1 (sumN w))
  let top := ((List.range 8).reverse.find? (fun c => w.getD c 0 != 0)).getD 7
  updAt base top (fun n => n + (chunks - sumN base))

/-- A pool over chunks, given the number of each class. -/
def carve : List Nat → Nat → List Nat → Pool → Pool
  | [], _, _, p => p
  | n :: r, cls, us, p =>
    carve r (cls + 1) (us.drop n) { p with chunks := (us.take n).foldl (fun t u => t.put u cls) p.chunks }

/-- Makes the spill reserve n bytes.  The T1 pool keeps the chunks that the share has left: growth takes all-free chunks, none
where they do not suffice; what a smaller reserve gives up becomes chunks (R138, R324). -/
def Ctx.fitSpill (x : Ctx) (n : Nat) : Option Ctx :=
  let fixed := 24 * mib + layoutMiddle + n
  let p := x.pool 1
  let want := (x.share.t1Mib * mib - fixed) / chunkBytes
  if n = x.spill then some x
  else if x.share.t1Mib * mib < fixed then none
  else if want ≤ p.chunks.length then
    let k := p.chunks.length - want
    let go := ((p.chunks.filter (fun e => p.chunkFree e.1)).map (fun e => e.1)).take k
    if go.length < k then none
    else some { (x.onPool 1 (fun q => { q with chunks := q.chunks.filter (fun e => !go.contains e.1) })) with spill := n }
  else
    let named (u : Nat) : Bool := x.khan.slots.any (fun e => e.2.live && e.2.base / chunkBytes * chunkBytes == u)
    let back := (((x.units.drop 4).filter (fun u => bits u 54 3 == 1 && (p.chunks.find u).isNone && !named u)).reverse).take
      (want - p.chunks.length)
    some { (x.onPool 1 (carve (classCounts x.share.classSplit back.length) 0 back)) with spill := n }

/-- Spill planes that a mode and a route copy need: 16 before the first route configuration (R324), then `KMAX` (R138). -/
def planesOf (mode : Bool) (r : Route) : Nat := if !mode then 1 else if r.layers.isEmpty then 16 else r.kmax

/-- One landing table fits the T0 Khan pool (R125). -/
def Ctx.landingFits (x : Ctx) (limit kmax : Nat) : Bool :=
  decide (8 * Nat.min 2097152 (limit * kmax) ≤ (x.pool 0).chunks.length * chunkBytes)

/-- Bytes of a dispatched row with its waybill (Table 5-6). -/
def dispBytes (fmt d : Nat) : Nat := tensorBytes fmt d + 32

/-- Receive allowance of a home at a destination for a row format (R105, R106). -/
def State.allowance (s : State) (c dst fmt : Nat) : Nat :=
  match (s.ctx c).rx.areas.find dst with
  | none => 16
  | some a => Nat.max 1 (a / (2 * s.appliance * dispBytes fmt (s.ctx c).share.dModel))

/-- This package's own receive allowance before the minimum of one. -/
def State.ownAllowance (s : State) (c fmt : Nat) : Nat :=
  (s.ctx c).share.rxMib * mib / (2 * s.appliance * dispBytes fmt (s.ctx c).share.dModel)

/-! ### Configuration messages -/

/-- A handle that must be null unless in use, and then name a buffer of at least n bytes. -/
def State.handleUse (s : State) (c h : Nat) (used : Bool) (n : Nat) : List (Bool × Status) :=
  if used then
    match s.bufBad c h n with
    | some st => [(true, st)]
    | none => []
  else [(h != 0, .format)]

/-- Bytes of predictor weights (R91): projection and one head per predicted layer that exists, each plane at a multiple
of 256. -/
def Ctx.predBytes (x : Ctx) (l cfg : Nat) : Nat :=
  let d := x.share.dModel
  let part (n k : Nat) : Nat := roundUp (n * k / 2) 256 + roundUp (n * k / 32) 256
  let n := (x.model.map (·.moe)).getD 0
  part 256 d + sumN (((List.range (cfgDepth cfg)).filter (fun i => decide (l + 1 + i < n))).map
    (fun i => part (x.lastExpert (l + 1 + i) + 1) 256))

/-- Checks of R73 in order, after those of the layer. -/
def State.routeChecks (s : State) (c l cfg : Nat) : List (Bool × Status) :=
  let x := s.ctx c
  let d := x.share.dModel
  let gh := s.bufBad c (cfgGateH cfg) (tensorBytes (cfgGateFmt cfg) (cfgCols cfg * d))
  let short (r : Option Status) : Bool := r == some .bounds
  let bh := if cfgBias cfg then s.bufBad c (cfgBiasH cfg) (4 * cfgCols cfg) else none
  let ph := if cfgDepth cfg ≠ 0 then s.bufBad c (cfgPredH cfg) (x.predBytes l cfg) else none
  let named (r : Option Status) : List (Bool × Status) := match r with
    | some .bounds => [] | some st => [(true, st)] | none => []
  [(bits cfg 62 2 != 0 || bits cfg 224 32 != 0, .format),
   (decide (cfgLast cfg > 0xFFFD), .bounds),
   (decide (cfgKmin cfg = 0 ∨ 16 < cfgKmin cfg ∨ cfgKmax cfg = 0 ∨ 16 < cfgKmax cfg ∨ cfgKmax cfg < cfgKmin cfg),
     .bounds),
   (bit (cfgTau cfg) 15, .bounds),
   (cfgPrefMin cfg == 0, .bounds),
   (cfgDepth cfg != 0 && decide (cfgPredM cfg = 0 ∨ 8 < cfgPredM cfg), .bounds),
   (short gh || short bh || short ph, .bounds),
   (!Num.pairOk (cfgGateFmt cfg) (cfgActFmt cfg), .format),
   (d % 32 != 0 && (Num.codeMx (cfgGateFmt cfg) || Num.codeMx (cfgActFmt cfg)), .format),
   (badScale32 (cfgScale cfg) || badScale16 (cfgWScale cfg), .format),
   ((!cfgBias cfg && cfgBiasH cfg != 0) || (cfgDepth cfg == 0 && cfgPredH cfg != 0), .format),
   (cfgLast cfg != x.lastExpert l, .format)]
  ++ named gh ++ named bh ++ named ph

/-- `PMP_ROUTE_CONFIG` (R73, R88, R89, R125, R138). -/
def routeConfig (c : Nat) (a : List Nat) (m : Msg) (s : State) : Act :=
  match a with
  | [l, cfg] =>
    let x := s.ctx c
    checked (s.layerChecks c l ++ s.routeChecks c l cfg) s
      (let k := Nat.max x.draft.kmax (cfgKmax cfg)
       let need := spillBytes x.steps.tokenLimit x.share.dModel (if x.steps.mode then k else 1)
       match x.fitSpill need with
       | none => .no s .noMemory
       | some y =>
         let s1 := s.onCtx c (fun _ => y)
         let r := s.routeChange m x.draft
         let z := s1.fitCopies c (r.bytes ((x.model.map (·.moe)).getD 0) (ceilDiv (x.expertCount * headroomBp s.appliance) 10000))
         if !x.landingFits x.steps.tokenLimit k then .no s .noMemory
         else if z.1 then softChange c m z.2
         else .no (s.onCtx c (fun v => { v with ctr := (z.2.ctx c).ctr })) .noMemory)
  | _ => .no s .format

def execPmpRouteConfig (w : Nat) (s : State) : Host.Outcome State Fault Refusal :=
  .next (commitMsg w 0x0210 (withCtx [.u16, .r 256] routeConfig) s)

/-- `PMP_ROUTE_BIAS` (R72, R89). -/
def routeBias (c : Nat) (a : List Nat) (m : Msg) (s : State) : Act :=
  match a with
  | [l, h] =>
    let cfg := ((s.ctx c).draft.layer l).cfg
    checked (s.layerChecks c l ++ [(cfg == 0, .unavailable), (!cfgBias cfg, .format)]
      ++ s.handleUse c h true (4 * cfgCols cfg)) s (softChange c m s)
  | _ => .no s .format

def execPmpRouteBias (w : Nat) (s : State) : Host.Outcome State Fault Refusal :=
  .next (commitMsg w 0x0211 (withCtx [.u16, .u32] routeBias) s)

/-- Fields of a dispatch configuration (Table 5-2). -/
def dispMode (x : Nat) : Nat := bits x 0 2
def dispFo (x : Nat) : Bool := bit x 2
def dispFmt (x : Nat) : Nat := bits x 3 5
def dispFactor (x : Nat) : Nat := bits x 16 16
def dispHead (x : Nat) : Nat := bits x 32 16
def dispFloor (x : Nat) : Nat := bits x 48 16
def dispScale (x : Nat) : Nat := bits x 64 32
def dispMargin (x : Nat) : Nat := bits x 96 16
def dispWindow (x : Nat) : Nat := bits x 112 16

/-- `PMP_DISPATCH_CONFIG` (R98, R89, R269). -/
def dispatchConfig (c : Nat) (a : List Nat) (m : Msg) (s : State) : Act :=
  match a with
  | [l, ws, g] =>
    checked (s.layerChecks c l ++
      [(bits g 8 8 != 0, .format),
       (dispMode g == 3 || !([1, 2, 3, 4, 8].contains (dispFmt g)), .format),
       (Num.codeMx (dispFmt g) && (s.ctx c).share.dModel % 32 != 0, .format),
       (badScale32 (dispScale g), .format),
       (decide (dispFactor g < 0x100 ∨ dispHead g < 0x100 ∨ dispWindow g = 0), .bounds),
       (dispMode g == 1 && s.emitWsBad c ws, .format),
       (decide (s.ownAllowance c (dispFmt g) < 16), .noMemory),
       (!(s.ctx c).draft.has l, .unavailable)]) s (softChange c m s)
  | _ => .no s .format

def execPmpDispatchConfig (w : Nat) (s : State) : Host.Outcome State Fault Refusal :=
  .next (commitMsg w 0x0214 (withCtx [.u16, .u16, .r 128] dispatchConfig) s)

/-- Fields of a combine configuration (Table 6-5). -/
def combFused (x : Nat) : Bool := bit x 0
def combVar (x : Nat) : Bool := bit x 1
def combResid (x : Nat) : Nat := bits x 2 5
def combOut (x : Nat) : Nat := bits x 7 5
def combEps (x : Nat) : Nat := bits x 16 32
def combGamma (x : Nat) : Nat := bits x 48 32
def combBeta (x : Nat) : Nat := bits x 80 32

/-- `PMP_COMBINE_CONFIG` (R143, R89). -/
def combineConfig (c : Nat) (a : List Nat) (m : Msg) (s : State) : Act :=
  match a with
  | [l, g] =>
    let n := (s.ctx c).share.dModel * 2
    let e := combEps g
    checked (s.layerChecks c l ++
      [(bits g 12 4 != 0 || bits g 112 16 != 0, .format),
       (decide (1 < combResid g ∨ 1 < combOut g), .format),
       ((bit e 31 && e % 2 ^ 31 != 0) || decide (0x7F800000 ≤ e % 2 ^ 31), .format),
       (combFused g && combGamma g == 0, .format),
       ((!combFused g && combGamma g != 0) || (!(combFused g && combVar g) && combBeta g != 0), .format)]
      ++ (if combFused g then s.handleUse c (combGamma g) true n else [])
      ++ (if combBeta g ≠ 0 then s.handleUse c (combBeta g) true n else [])
      ++ [(!(s.ctx c).draft.has l, .unavailable)]) s (softChange c m s)
  | _ => .no s .format

def execPmpCombineConfig (w : Nat) (s : State) : Host.Outcome State Fault Refusal :=
  .next (commitMsg w 0x0217 (withCtx [.u16, .r 128] combineConfig) s)

/-! ### Queries -/

/-- Replicas of the experts before one, in a copy: `REPLICA_BASE` (R88). -/
def Route.base (r : Route) (l e : Nat) : Nat :=
  sumN ((r.experts.filter (fun x => decide (x.1 < expKey l e))).map (fun x => x.2.replicas.length))

/-- Expert entry as a word (Table 4-7). -/
def Route.entryWord (r : Route) (l e : Nat) : Nat :=
  let k := r.expert l e
  packF [(0, 1, b2n k.avail), (1, 1, b2n k.mirrored), (2, 1, b2n k.hintHeld), (4, 4, k.replicas.length - 1),
    (8, 24, r.base l e), (32, 8, k.cause)]

/-- Replica entry as a word (Table 4-8). -/
def Replica.word (x : Replica) : Nat := packF [(0, 7, x.pkg), (7, 2, x.die), (9, 1, b2n x.active), (16, 8, x.share)]

/-- `PMP_ROUTE_QUERY` (R72). -/
def routeQuery (c : Nat) (a : List Nat) (_ : Msg) (s : State) : Act :=
  match a with
  | [l, first_, n] =>
    let r := (s.ctx c).route.active
    let g := r.layer l
    checked (s.layerChecks c l ++ [(g.cfg == 0, .unavailable),
      (decide ((s.ctx c).lastExpert l + 1 < first_ + n ∨ 499 < n), .bounds)]) s
      (.ok s ([(.u32, (s.ctx c).route.gen), (.r 256, g.cfg), (.r 128, g.disp), (.r 128, g.comb)]
        ++ (List.range n).map (fun i => (Fld.u64, r.entryWord l (first_ + i)))))
  | _ => .no s .format

def execPmpRouteQuery (w : Nat) (s : State) : Host.Outcome State Fault Refusal :=
  .next (commitMsg w 0x0212 (withCtx [.u16, .u16, .u16] routeQuery) s)

/-- The latest histogram of a layer: the step in flight's convoys, else the last committed step's. -/
def Ctx.histOf (x : Ctx) (l e : Nat) : Nat :=
  let k := expKey l e
  let now := (x.plans.hist.getD (2 * l) []).getD e 0 + (x.plans.hist.getD (2 * l + 1) []).getD e 0
  if (x.plans.hist.find (2 * l)).isSome || (x.plans.hist.find (2 * l + 1)).isSome then now
  else (x.plans.lastHist.getD l []).getD (k % 65536) 0

/-- `PMP_ROUTE_STATS` (R72, R95): the histogram is written to a nonzero handle. -/
def routeStats (c : Nat) (a : List Nat) (_ : Msg) (s : State) : Act :=
  match a with
  | [l, h] =>
    let x := s.ctx c
    let n := x.lastExpert l + 1
    checked (s.layerChecks c l ++ (if h ≠ 0 then s.handleUse c h true (4 * n) else [])) s
      (let has := x.route.active.has l
       let words := (List.range n).map (fun e => toLE 4 (if has then x.histOf l e else 0))
       let t := if h ≠ 0 then s.writeAt (s.slotOf h).base words.flatten else s
       .ok t (ctrFlds x.ctr routeCtrs))
  | _ => .no s .format

def execPmpRouteStats (w : Nat) (s : State) : Host.Outcome State Fault Refusal :=
  .next (commitMsg w 0x0213 (withCtx [.u16, .u32] routeStats) s)

/-- `PMP_DISPATCH_STATS` (R123). -/
def execPmpDispatchStats (w : Nat) (s : State) : Host.Outcome State Fault Refusal :=
  .next (commitMsg w 0x0216 (withCtx [] (ctrReply dispatchCtrs)) s)

/-- `PMP_COMBINE_STATS` (R146). -/
def execPmpCombineStats (w : Nat) (s : State) : Host.Outcome State Fault Refusal :=
  .next (commitMsg w 0x0218 (withCtx [] (ctrReply retCtrs)) s)

/-- `PMP_RESIDENCY_STATS` (R171). -/
def execPmpResidencyStats (w : Nat) (s : State) : Host.Outcome State Fault Refusal :=
  .next (commitMsg w 0x0224 (withCtx [] (ctrReply residCtrs)) s)

/-- `PMP_LAYOUT_STATS` (R229). -/
def execPmpLayoutStats (w : Nat) (s : State) : Host.Outcome State Fault Refusal :=
  .next (commitMsg w 0x0341 (withCtx [] (ctrReply layoutCtrs)) s)

/-- `PMP_COLL_STATS` (R297). -/
def execPmpCollStats (w : Nat) (s : State) : Host.Outcome State Fault Refusal :=
  .next (commitMsg w 0x0404 (withCtx [] (ctrReply collCtrs)) s)

/-- `PMP_ARRAY_STATS` (R193). -/
def execPmpArrayStats (w : Nat) (s : State) : Host.Outcome State Fault Refusal :=
  .next (commitMsg w 0x0625 (withCtx [] (ctrReply arrayCtrs)) s)

/-- `PMP_RETURN_TIMEOUT` (R139): from the next step on. -/
def returnTimeoutMsg (c : Nat) (a : List Nat) (_ : Msg) (s : State) : Act :=
  match a with
  | [t] => checked [(decide (t < 10 ∨ 10000 < t), .bounds)] s (.ok (s.onCtx c (fun x => { x with returnUs := t })) [])
  | _ => .no s .format

def execPmpReturnTimeout (w : Nat) (s : State) : Host.Outcome State Fault Refusal :=
  .next (commitMsg w 0x0219 (withCtx [.u32] returnTimeoutMsg) s)

/-! ### Special functions -/

/-- Signed value of a w-bit field. -/
def signed (w x : Nat) : Int := if x % 2 ^ w < 2 ^ (w - 1) then (x % 2 ^ w : Nat) else ((x % 2 ^ w : Nat) : Int) - (2 ^ w : Nat)

/-- A segment that its declared direction forbids, or an invalid `MONO` (R209). -/
def segBad (w : Nat) : Bool :=
  let c1 := signed 28 (bits w 32 28)
  let c2 := signed 20 (bits w 60 20)
  let mono := bits w 88 2
  mono == 3 || (mono == 1 && decide (c1 < 0 ∨ c1 + 2 * c2 < 0)) || (mono == 2 && decide (0 < c1 ∨ 0 < c1 + 2 * c2))

/-- Bytes of a filled user slot: its segments, up to 64 KiB (R207). -/
def slotBytes (f : UserFn) : Nat := 16 * sfnSegments f.header

/-- Table SRAM units of 64 KiB that both copies take with a set of user slots filled (R207, R211). -/
def tableUnits (slots : Tbl UserFn) : Nat :=
  ceilDiv (2 * 262144 + 2 * (38 * 1024 + sumN (slots.map (fun e => slotBytes e.2)))) 65536

/-- User slots filled in the newest copy. -/
def Ctx.sfnDraft (x : Ctx) : Tbl UserFn := match x.sfn.other with | .shadow t => t | _ => x.sfn.active

/-- `PMP_SFN_LOAD` (R208, R209). -/
def sfnLoad (c : Nat) (a : List Nat) (m : Msg) (s : State) : Act :=
  match a with
  | [h] =>
    let hd := ofLE (s.bufBytes h 0 32)
    let slot := bits hd 0 8
    let clear := bit hd 12
    let n := sfnSegments hd
    let eLo := signed 8 (bits hd 16 8)
    let segs := (List.range n).map (fun i => ofLE (s.bufBytes h (32 + 16 * i) 16))
    checked (s.handleUse c h true 32) s
      (checked
        [(decide (slot < 0x20 ∨ 0x27 < slot), .format),
         (!clear && (bits hd 13 3 != 0 || bit hd 31 || bits hd 36 4 != 0 || bits hd 168 88 != 0), .format),
         (!clear && (bits hd 34 2 == 3 || decide (bits hd 24 7 = 0 ∨ 64 < bits hd 24 7)
            || decide (eLo < -126 ∨ 128 < eLo + (bits hd 24 7 : Int)) || bits hd 32 2 == 0), .format),
         (!clear && decide ((s.slotOf h).extent < 32 + 16 * n), .bounds),
         (!clear && segs.any (fun w => segBad w || bits w 90 38 != 0), .format),
         (!s.owns m.sess (bits hd 8 4), .denied),
         (!clear && decide ((s.ctx c).share.table64k
            < tableUnits (((s.ctx c).sfnDraft.put slot ⟨hd, [], h⟩))), .noMemory)] s (softChange c m s))
  | _ => .no s .format

def execPmpSfnLoad (w : Nat) (s : State) : Host.Outcome State Fault Refusal :=
  .next (commitMsg w 0x0230 (withCtx [.u32] sfnLoad) s)

/-- `PMP_SFN_QUERY` (R210). -/
def sfnQuery (c : Nat) (_ : List Nat) (_ : Msg) (s : State) : Act :=
  let x := s.ctx c
  .ok s ([(.u32, x.sfn.gen), (.u32, x.sfnRev), (.u8, maskOf (x.sfn.active.keys.map (· - 0x20)))]
    ++ ctrFlds x.ctr sfnCtrs ++ x.sfn.active.map (fun e => (Fld.r 256, e.2.header)))

def execPmpSfnQuery (w : Nat) (s : State) : Host.Outcome State Fault Refusal :=
  .next (commitMsg w 0x0231 (withCtx [] sfnQuery) s)

/-! ### Layout tables -/

/-- `PMP_LAYOUT_LOAD` (R211). -/
def layoutLoad (c : Nat) (a : List Nat) (m : Msg) (s : State) : Act :=
  match a with
  | [f, n, h] =>
    checked ([(decide (4096 < f + n), .bounds)] ++ s.handleUse c h true (64 * n)) s (softChange c m s)
  | _ => .no s .format

def execPmpLayoutLoad (w : Nat) (s : State) : Host.Outcome State Fault Refusal :=
  .next (commitMsg w 0x0232 (withCtx [.u16, .u16, .u32] layoutLoad) s)

/-- `PMP_LAYOUT_QUERY` (R211): a descriptor never loaded reads as zero. -/
def layoutQuery (c : Nat) (a : List Nat) (_ : Msg) (s : State) : Act :=
  match a with
  | [f, n] =>
    checked [(decide (4096 < f + n ∨ 63 < n), .bounds)] s
      (.ok s ([(.u32, (s.ctx c).lay.gen)]
        ++ (List.range n).map (fun i => (Fld.r 512, (s.ctx c).lay.active.getD (f + i) 0))))
  | _ => .no s .format

def execPmpLayoutQuery (w : Nat) (s : State) : Host.Outcome State Fault Refusal :=
  .next (commitMsg w 0x0233 (withCtx [.u16, .u16] layoutQuery) s)

end Sys2Proof.Machine
end

