-- ==== Sys2Proof/Machine/Sfn.lean ====
section
/-! DEFINITION. Special functions and normalisation (09): exact segment values, argument reduction, seam guard and one
rounding. -/

namespace Sys2Proof.Machine.Sfn

open Sys2Proof.Num

/-- A table of segments: binade index and segment to a 128-bit entry. -/
abbrev Seg := Nat → Nat → Nat

/-- `MONO` that the numerics revision sets on a built-in segment (R199, Table 9-1): EXP2, LOG2, SQRT and the positive halves of
SIGMOID and TANH rise; RCP, RSQRT and the negative halves, which are tabled on |a|, fall. -/
def builtinMono (table b : Nat) : Nat :=
  if table = 2 ∨ table = 3 ∨ (5 ≤ table ∧ 17 ≤ b) then 2 else 1

/-- Tables of the built-in functions: 0 EXP2, 1 LOG2, 2 RCP, 3 RSQRT, 4 SQRT, 5 SIGMOID, 6 TANH.  An entry carries its function's
`MONO` over a quadratic that keeps it; one that would break it, which no numerics revision holds, is read without its slope
(R197, R199, R209). -/
def builtin (rev table : Nat) : Seg := fun b j =>
  let w := setBits (Config.sfnSegment rev table b j) 88 40 (builtinMono table b)
  if segBad w then setBits w 32 48 0 else w

/-- Value of a segment at t = k / 2^24, exactly (Table 9-2). -/
def segAt (w k : Nat) : Val :=
  let n : Int := signed 32 (bits w 0 32) * 2 ^ 48 + signed 28 (bits w 32 28) * (k : Int) * 2 ^ 24
    + signed 20 (bits w 60 20) * (k : Int) * (k : Int)
  .fin (decide (n < 0)) n.natAbs ((bits w 80 8 : Int) - 205)

/-- Direction that a segment declares. -/
def segMono (w : Nat) : Nat := bits w 88 2

/-- The seam guard of R199: the exact value against the neighbour's end value. -/
def guard (mono : Nat) (v e : Val) : Val :=
  if mono = 1 then (if v.cmp e < 0 then e else v)
  else if mono = 2 then (if 0 < v.cmp e then e else v)
  else v

/-- Scaling by a power of two. -/
def scale2 (k : Int) (v : Val) : Val := v.mul (.fin false 1 k)

/-- Exponent of the binade, segment and 24-bit t of a nonzero magnitude m × 2^e; lower bits are truncated. -/
def split (m : Nat) (e : Int) : Int × Nat × Nat :=
  let lg := Nat.log2 m
  let f := m * 2 ^ 29 / 2 ^ lg - 2 ^ 29
  ((lg : Int) + e, f / 2 ^ 24, f % 2 ^ 24)

/-- A tabled value whose segment 0 meets segment 31 of another binade or a rule: `below` is that end value. -/
def tabled (s : Seg) (b j k : Nat) (carry : Val → Val) (below : Val) : Val :=
  let e := if j = 0 then below else carry (segAt (s b (j - 1)) (2 ^ 24))
  guard (segMono (s b j)) (carry (segAt (s b j) k)) e

/-- 2^x for an exact x = ± m × 2^e.  Below −600 every result rounds to zero. -/
def exp2Val (s : Seg) (neg : Bool) (m : Nat) (e : Int) : Val :=
  if m = 0 then .fin false 1 0
  else if (Nat.log2 m : Int) + e ≥ 10 then (if neg then .fin false 1 (-600) else .inf false)
  else
    let p := pow2 e
    let q := m * p.1 / p.2
    let exact := m * p.1 % p.2 = 0
    let n : Int := if neg then (if exact then -(q : Int) else -(q : Int) - 1) else q
    if !neg ∧ 128 ≤ q then .inf false
    else if exact then .fin false 1 n
    else
      -- fraction of x above n, to 29 bits
      let r := m * p.1 % p.2
      let f := (if neg then p.2 - r else r) * 2 ^ 29 / p.2
      tabled s 0 (f / 2 ^ 24) (f % 2 ^ 24) (scale2 n) (scale2 (n - 1) (segAt (s 0 31) (2 ^ 24)))

/-- log2 e as a 64-bit constant. -/
def log2e : Val := .fin false 0xB8AA3B295C17F0BC (-63)
/-- ln 2 as a 64-bit constant (R197). -/
def ln2 : Val := .fin false 0xB17217F7D1CF79AC (-64)

/-- |v| < 2^k. -/
def below2 (v : Val) (k : Int) : Bool := decide (v.abs.cmp (.fin false 1 k) < 0)

def exp2 (s : Seg) : Val → Val
  | .nan => .nan
  | .inf neg => if neg then .fin false 0 0 else .inf false
  | .fin neg m e => if below2 (.fin neg m e) (-24) then .fin false 1 0 else exp2Val s neg m e

def exp (s : Seg) : Val → Val
  | .nan => .nan
  | .inf neg => if neg then .fin false 0 0 else .inf false
  | .fin neg m e =>
    if below2 (.fin neg m e) (-25) then .fin false 1 0
    else
      match (Val.fin neg m e).mul log2e with
      | .fin n k g => exp2Val s n k g
      | v => v

/-- LOG2 carried through `c`, which is the identity or the product with ln 2. -/
def logVal (s : Seg) (c : Val → Val) : Val → Val
  | .nan => .nan
  | .inf neg => if neg then .nan else .inf false
  | .fin neg m e =>
    if m = 0 then .inf true
    else if neg then .nan
    else
      let p := split m e
      if m = 2 ^ Nat.log2 m ∧ p.1 = 0 then .fin false 0 0
      else
        let add (x : Int) (v : Val) : Val := c (v.add (.fin (decide (x < 0)) x.natAbs 0))
        tabled s 0 p.2.1 p.2.2 (add p.1) (add (p.1 - 1) (segAt (s 0 31) (2 ^ 24)))

def rcp (s : Seg) : Val → Val
  | .nan => .nan
  | .inf neg => .fin neg 0 0
  | .fin neg m e =>
    if m = 0 then .inf neg
    else
      let p := split m e
      let v := if m = 2 ^ Nat.log2 m then Val.fin false 1 (-p.1)
        else tabled s 0 p.2.1 p.2.2 (scale2 (-p.1)) (scale2 (1 - p.1) (segAt (s 0 31) (2 ^ 24)))
      if neg then v.neg else v

/-- The tables over [1, 4): RSQRT scales by 2^(−q), SQRT by 2^q. -/
def rootVal (s : Seg) (up : Bool) (m : Nat) (e : Int) : Val :=
  let p := split m e
  let b := (p.1 % 2).toNat
  let q := (p.1 - p.1 % 2) / 2
  let sc (q : Int) : Val → Val := scale2 (if up then q else -q)
  tabled s b p.2.1 p.2.2 (sc q)
    (if b = 1 then sc q (segAt (s 0 31) (2 ^ 24)) else sc (q - 1) (segAt (s 1 31) (2 ^ 24)))

def rsqrt (s : Seg) : Val → Val
  | .nan => .nan
  | .inf neg => if neg then .nan else .fin false 0 0
  | .fin neg m e => if m = 0 then .inf neg else if neg then .nan else rootVal s false m e

def sqrt (s : Seg) : Val → Val
  | .nan => .nan
  | .inf neg => if neg then .nan else .inf false
  | .fin neg m e => if m = 0 then .fin neg 0 0 else if neg then .nan else rootVal s true m e

/-- A function tabled on |a| over `n` binades from exponent `lo`, each sign its own half. -/
def halves (s : Seg) (lo : Int) (n half : Nat) (small : Val → Val) (large : Val) (neg : Bool) (m : Nat) (e : Int) : Val :=
  let a := Val.fin neg m e
  if m = 0 ∨ below2 a lo then small a
  else
    let p := split m e
    let i := (p.1 - lo).toNat
    if n ≤ i then
      guard (segMono (s (half + n - 1) 31)) large (segAt (s (half + n - 1) 31) (2 ^ 24))
    else
      tabled s (half + i) p.2.1 p.2.2 id
        (if i = 0 then small (.fin neg 1 lo) else segAt (s (half + i - 1) 31) (2 ^ 24))

def sigmoid (s e2 : Seg) : Val → Val
  | .nan => .nan
  | .inf neg => if neg then .fin false 0 0 else .fin false 1 0
  | .fin neg m e =>
    if m = 0 then .fin false 1 (-1)
    else halves s (-12) 17 (if neg then 17 else 0) (fun a => (Val.fin false 1 (-1)).add (scale2 (-2) a))
      (if neg then exp e2 (.fin neg m e) else .fin false 1 0) neg m e

def tanh (s : Seg) : Val → Val
  | .nan => .nan
  | .inf neg => .fin neg 1 0
  | .fin neg m e =>
    if m = 0 then .fin neg 0 0
    else halves s (-12) 17 (if neg then 17 else 0) id (.fin neg 1 0) neg m e

def silu (s e2 : Seg) (a : Val) : Val :=
  match a with
  | .nan => .nan
  | .inf neg => if neg then .fin true 0 0 else .inf false
  | .fin .. => a.mul (sigmoid s e2 a)

/-- Inner argument of R204. -/
def geluArg (a : BitVec 32) : BitVec 32 := fmul 0x3F4C422A#32 (ffma (fmul 0x3D372713#32 (fmul a a)) a a)

def gelu (s : Seg) (a : BitVec 32) : Val :=
  match v32 a with
  | .nan => .nan
  | .inf neg => if neg then .fin true 0 0 else .inf false
  | .fin neg m e =>
    let t := tanh s (v32 (geluArg a))
    if t.cmp (.fin true 1 0) = 0 then .fin true 0 0
    else if m = 0 then .fin neg 0 0
    else scale2 (-1) ((Val.fin neg m e).mul ((Val.fin false 1 0).add t))

def sqrelu : Val → Val
  | .nan => .nan
  | .inf neg => if neg then .fin false 0 0 else .inf false
  | .fin neg m e => if neg then .fin false 0 0 else .fin false (m * m) (2 * e)

/-- A user function (R208). -/
def user (f : UserFn) (a : Val) : Val :=
  let h := f.header
  let lo := signed 8 (bits h 16 8)
  let n := bits h 24 7
  let pos := bit h 32
  let seg : Seg := fun b j => f.segments.getD (32 * b + j) 0
  let small (v : Val) : Val :=
    match bits h 34 2 with
    | 0 => v32 (BitVec.ofNat 32 (bits h 40 32))
    | 1 => (v32 (BitVec.ofNat 32 (bits h 40 32))).add ((v32 (BitVec.ofNat 32 (bits h 72 32))).mul v)
    | _ => v
  let has (neg : Bool) : Bool := if neg then bit h 33 else pos
  let large (neg : Bool) : Val := v32 (BitVec.ofNat 32 (if neg then bits h 136 32 else bits h 104 32))
  let off (neg : Bool) : Nat := if neg && pos then n else 0
  match a with
  | .nan => .nan
  | .inf neg =>
    if has neg then guard (segMono (seg (off neg + n - 1) 31)) (large neg) (segAt (seg (off neg + n - 1) 31) (2 ^ 24))
    else .nan
  | .fin neg m e =>
    if m = 0 ∨ below2 a lo then small a
    else if has neg then halves seg lo n (off neg) small (large neg) neg m e else .nan

/-- SFN function numbers that exist (Table 9-1). -/
def known (n : Nat) : Bool := decide (n ≤ 0x0C ∨ (0x10 ≤ n ∧ n ≤ 0x13) ∨ (0x20 ≤ n ∧ n ≤ 0x27))

/-- Passes of a function (Table 9-1). -/
def passes (n : Nat) : Nat :=
  if n = 0x09 then 2 else if n = 0x0A then 3 else if n = 0x0C then 4
  else if n = 0x10 then 3 else if n = 0x11 then 4 else if n = 0x12 ∨ n = 0x13 then 2 else 1

/-- Exact value of a function; an empty user slot is a NaN (R194). -/
def value (rev : Nat) (users : Tbl UserFn) (n : Nat) (a b : BitVec 32) : Val :=
  let t := builtin rev
  let x := v32 a
  match n with
  | 0x00 => exp2 (t 0) x
  | 0x01 => exp (t 0) x
  | 0x02 => logVal (t 1) id x
  | 0x03 => logVal (t 1) (fun v => v.mul ln2) x
  | 0x04 => rcp (t 2) x
  | 0x05 => rsqrt (t 3) x
  | 0x06 => sqrt (t 4) x
  | 0x07 => sigmoid (t 5) (t 0) x
  | 0x08 => tanh (t 6) x
  | 0x09 => silu (t 5) (t 0) x
  | 0x0A => gelu (t 6) a
  | 0x0B => sqrelu x
  | 0x10 => (silu (t 5) (t 0) x).mul (v32 b)
  | 0x11 => (gelu (t 6) a).mul (v32 b)
  | 0x12 => (sqrelu x).mul (v32 b)
  | 0x13 => (sigmoid (t 5) (t 0) x).mul (v32 b)
  | _ => match users.find n with | some f => user f x | none => .nan

/-- The exact value that a function's result must be near, with its bound; none where rules alone fix the result, or where there is no
bound (Table 9-1, R196). -/
def nearTo (n : Nat) (a b : BitVec 32) : Option Exact.Ref :=
  match v32 a with
  | .fin neg m e =>
    if m = 0 then none
    else if n ≤ 0x09 then Exact.ref n neg m e
    else if n = 0x0A then Exact.geluRef (v32 a) (v32 (geluArg a))
    else if n = 0x10 then (Exact.ref 9 neg m e).bind (fun r => r.times (v32 b))
    else if n = 0x11 then (Exact.geluRef (v32 a) (v32 (geluArg a))).bind (fun r => r.times (v32 b))
    else if n = 0x13 then (Exact.ref 7 neg m e).bind (fun r => r.times (v32 b))
    else none
  | _ => none

/-- Result pattern in a destination format: 0 FP32, 1 BF16, 2 E4M3, 3 E5M2 (R195).  A table that would leave the bound of Table 9-1,
which no numerics revision holds, gives the exact value correctly rounded (R196, log entry 110). -/
def eval (rev : Nat) (users : Tbl UserFn) (n fmt : Nat) (a b : BitVec 32) : Nat :=
  let f := (codeFmt fmt).getD fp32
  if n = 0x0C then divV f (v32 a) (v32 b)
  else
    let r := enc f (value rev users n a b)
    match nearTo n a b with
    | some q => if q.holds f (fmt == 0) r then r else enc f q.val
    | none => r

/-- A function of one operand with an FP32 result. -/
def eval32 (rev n : Nat) (a : BitVec 32) : BitVec 32 := BitVec.ofNat 32 (eval rev [] n 0 a 0)

/-! ### Normalisation (R205) -/

/-- Sums of the first loop: (sum, sum of squares). -/
def sums (mean : Bool) : List (BitVec 32) → BitVec 32 × BitVec 32 → BitVec 32 × BitVec 32
  | [], s => s
  | h :: r, s => sums mean r (if mean then fadd s.1 h else s.1, ffma h h s.2)

/-- `normalise` of R205: the row and whether the variance was clamped.  A NaN or infinite element of h makes every element NaN. -/
def normalise (rev : Nat) (h : List (BitVec 32)) (mean : Bool) (eps : BitVec 32)
    (gamma beta : List (BitVec 16)) : List (BitVec 32) × Bool :=
  let s := sums mean h (0#32, 0#32)
  let d := ofNat32 h.length
  let msq := fdiv s.2 d
  let at_ (l : List (BitVec 16)) (i : Nat) : BitVec 32 := widen (l.getD i 0#16)
  if !h.all (fun v => (v32 v).isFin) then (h.map (fun _ => nan32), false)
  else if !mean then
    let r := eval32 rev 0x05 (fadd msq eps)
    ((List.range h.length).map (fun i => fmul (fmul (h.getD i 0#32) r) (at_ gamma i)), false)
  else
    let m := fdiv s.1 d
    let v := ffma (fneg m) m msq
    let clamp := !(v32 v).isNan && decide ((v32 v).cmp (.fin false 0 0) ≤ 0)
    let w := if clamp then 0#32 else v
    let r := eval32 rev 0x05 (fadd w eps)
    ((List.range h.length).map (fun i =>
      ffma (fmul (fadd (h.getD i 0#32) (fneg m)) r) (at_ gamma i) (at_ beta i)), clamp)

end Sys2Proof.Machine.Sfn
end

