-- ==== Sys2Proof/Machine/Operands.lean ====
section
/-! DEFINITION. Operand forms of the string instructions: fields of the instruction word (Table 8-4), guards, registers and
predicates of lanes, and the checks of a word at kernel load (08 R175, R179, R182, R185, R194, R195). -/

namespace Sys2Proof.Machine

/-! ### The instruction word (Table 8-4) -/

def iOp (w : Nat) : Nat := bits w 0 8
def iDst (w : Nat) : Nat := bits w 8 4
def iA (w : Nat) : Nat := bits w 12 4
def iB (w : Nat) : Nat := bits w 16 4
def iC (w : Nat) : Nat := bits w 20 4
def iGuardP (w : Nat) : Nat := bits w 24 2
def iGuardEn (w : Nat) : Bool := bit w 26
def iGuardNeg (w : Nat) : Bool := bit w 27
def iFmt (w : Nat) : Nat := bits w 28 5
def iImm (w : Nat) : Nat := bits w 33 31
/-- The field that names a branch's predicate (log entry 62). -/
def iBranch (w : Nat) : Nat := bits w (8 + 4 * (Config.branchField % 4)) 4
/-- Destination predicate. -/
def iPred (w : Nat) : Nat := bits w 8 2

/-- The immediate as a signed number. -/
def iSimm (w : Nat) : Int := if iImm w < 2 ^ 30 then iImm w else (iImm w : Int) - 2 ^ 31

/-! ### Lanes -/

/-- Register r of lane l. -/
def Str.reg (g : Str) (r l : Nat) : Nat := g.regs.getD (r * 64 + l) 0

/-- Predicate p of lane l. -/
def Str.pred (g : Str) (p l : Nat) : Bool := g.preds.getD (p * 64 + l) false

/-- The guard of a word in lane l (R179). -/
def Str.guard (g : Str) (w l : Nat) : Bool := !iGuardEn w || (g.pred (iGuardP w) l != iGuardNeg w)

/-- Lanes whose guard is true, ascending. -/
def Str.lanes (g : Str) (w : Nat) : List Nat := (List.range 64).filter (fun l => g.guard w l)

/-- Writes a register in the lanes that a test picks, 32 bits each. -/
def Str.setReg (g : Str) (r : Nat) (on : Nat → Bool) (v : Nat → Nat) : Str :=
  { g with regs := (List.range 1024).map (fun k =>
      if k / 64 = r ∧ on (k % 64) then v (k % 64) % 2 ^ 32 else g.regs.getD k 0) }

/-- Writes a predicate in the lanes that a test picks. -/
def Str.setPred (g : Str) (p : Nat) (on : Nat → Bool) (v : Nat → Bool) : Str :=
  { g with preds := (List.range 256).map (fun k =>
      if k / 64 = p ∧ on (k % 64) then v (k % 64) else g.preds.getD k false) }

/-- Writes `DST` in the guarded lanes. -/
def Str.writeDst (g : Str) (w : Nat) (v : Nat → Nat) : Str := g.setReg (iDst w) (g.guard w) v

/-- Writes the destination predicate in the guarded lanes. -/
def Str.writePred (g : Str) (w : Nat) (v : Nat → Bool) : Str := g.setPred (iPred w) (g.guard w) v

/-- The next word. -/
def Str.next (g : Str) : Str := { g with pc := g.pc + 1 }

/-- Word w of lane l's `SRC_A`, `SRC_B`, `SRC_C`. -/
def Str.srcA (g : Str) (w l : Nat) : Nat := g.reg (iA w) l
def Str.srcB (g : Str) (w l : Nat) : Nat := g.reg (iB w) l
def Str.srcC (g : Str) (w l : Nat) : Nat := g.reg (iC w) l

/-- 64-bit address of a lane: `SRC_A` is its upper half (log entry 61). -/
def Str.address (g : Str) (w l : Nat) : Nat := g.srcA w l * 2 ^ 32 + g.srcB w l

/-- A register value as 32 bits. -/
def b32 (x : Nat) : BitVec 32 := BitVec.ofNat 32 x

/-! ### Words at kernel load (R182, R185) -/

/-- Fields beside the guard that an opcode uses: `DST`, `SRC_A`, `SRC_B`, `SRC_C`, `FMT`, `IMM`. -/
def opUses (op : Nat) : Option (Bool × Bool × Bool × Bool × Bool × Bool) :=
  if op ≤ 0x0B then some (true, true, true, false, false, false)
  else if op = 0x0C then some (true, true, true, false, false, true)
  else if op = 0x0D then some (true, false, false, false, false, true)
  else if op = 0x22 then some (true, true, true, true, false, false)
  else if op = 0x25 then some (true, true, true, false, false, true)
  else if op = 0x26 then some (true, true, false, false, false, false)
  else if 0x20 ≤ op ∧ op ≤ 0x24 then some (true, true, true, false, false, false)
  else if op = 0x40 ∨ op = 0x41 then some (true, true, false, false, true, false)
  else if op = 0x42 ∨ op = 0x43 then some (true, true, false, true, true, false)
  else if op = 0x60 then some (true, true, true, false, false, true)
  else if op = 0x61 then some (false, true, true, true, false, true)
  else if op = 0x62 ∨ op = 0x63 then some (true, true, true, true, false, false)
  else if op = 0x64 ∨ op = 0xCA then some (false, false, false, false, false, false)
  else if op = 0x65 then some (true, true, true, false, false, true)
  else if op = 0x66 then some (true, false, false, false, false, false)
  else if op = 0x80 then some (false, true, true, true, true, true)
  else if op = 0x81 then some (false, false, false, false, false, true)
  else if op = 0x82 then some (false, true, false, true, true, true)
  else if op = 0xA0 then some (true, true, true, false, true, true)
  else if op = 0xC0 ∨ op = 0xC1 then
    let f (k : Nat) : Bool := Config.branchField % 4 == k
    some (f 0, f 1, f 2, f 3, false, true)
  else if op = 0xC2 then some (true, true, true, true, false, true)
  else if op = 0xC3 then some (true, true, true, false, false, false)
  else if op = 0xC4 ∨ op = 0xC5 then some (true, true, false, false, false, false)
  else if op = 0xC6 then some (false, true, true, true, false, false)
  else if op = 0xC7 then some (true, true, false, false, false, false)
  else if op = 0xC8 then some (false, true, true, false, false, false)
  else if op = 0xC9 then some (true, true, false, false, false, true)
  else none

/-- Scalar formats of `CVT_TO` and `CVT_FROM` (Table 2-6). -/
def scalarFmt (f : Nat) : Bool := decide (f ≤ 0x03 ∨ f = 0x0C)

/-- Block formats of `BLOCK_TO` and `BLOCK_FROM` (R33, R36). -/
def blockFmt (f : Nat) : Bool := decide ((0x04 ≤ f ∧ f ≤ 0x08) ∨ f = 0x0A ∨ f = 0x0B)

/-- A word that a kernel may hold (R175, R182, R194, R195, R26). -/
def wordOk (w : Nat) : Bool :=
  match opUses (iOp w) with
  | none => false
  | some (d, a, b, c, f, m) =>
    (d || iDst w == 0) && (a || iA w == 0) && (b || iB w == 0) && (c || iC w == 0) && (f || iFmt w == 0)
    && (m || iImm w == 0)
    && (if iOp w = 0xA0 then Sfn.known (iImm w % 256) && decide (iImm w < 256 ∧ iFmt w ≤ 3)
        else if iOp w = 0x40 ∨ iOp w = 0x41 then scalarFmt (iFmt w)
        else if iOp w = 0x42 ∨ iOp w = 0x43 then blockFmt (iFmt w)
        else if iOp w = 0x80 then Num.pairOk (iFmt w) (Config.mmaAct (iImm w))
        else if iOp w = 0x82 then decide (iFmt w ≤ 1)
        else true)

end Sys2Proof.Machine
end

