-- ==== Sys2Proof/Machine/Bills.lean ====
section
/-! DEFINITION. Waybills, notes, refusals and the layers of the step in flight (04 Tables 4-4, 4-5, R83; 05 Tables 5-4,
5-5; 06 Tables 6-1, 6-3). -/

namespace Sys2Proof.Machine

/-! ### Waybills -/

/-- The 256 bits of a waybill (Table 4-4). -/
def Bill.pack (b : Bill) : Nat :=
  packF [(0, 32, b.crc), (32, 32, b.ret), (70, 52, b.rowAddr), (122, 4, b.replica), (126, 7, b.dst), (133, 8, b.flags),
    (141, 16, b.weight), (157, 4, b.rank), (161, 16, b.expert), (177, 9, b.layer), (186, 17, b.seq), (203, 18, b.slot),
    (221, 7, b.src), (228, 4, b.ctx), (232, 8, b.gen), (240, 16, b.epoch)]

/-- Reads a waybill (Table 4-4). -/
def Bill.read (x : Nat) : Bill :=
  { epoch := bits x 240 16, gen := bits x 232 8, ctx := bits x 228 4, src := bits x 221 7, slot := bits x 203 18
    seq := bits x 186 17, layer := bits x 177 9, expert := bits x 161 16, rank := bits x 157 4, weight := bits x 141 16
    flags := bits x 133 8, dst := bits x 126 7, replica := bits x 122 4, rowAddr := bits x 70 52, ret := bits x 32 32
    crc := bits x 0 32 }

/-- CRC-32C over bytes 4 to 31 (R83). -/
def billCrc (x : Nat) : Nat := Num.crc32c ((toLE 32 x).drop 4)

/-- The CRC of a waybill word holds (R83). -/
def billCrcOk (x : Nat) : Bool := billCrc x == bits x 0 32

/-- Bits of `FLAGS` (Table 4-5). -/
def flLast : Nat := 1
def flNull : Nat := 2
def flKmax : Nat := 4
def flTie : Nat := 8
def flFixed : Nat := 16
def flLocal : Nat := 32
def flReserved : Nat := 64
def flSub : Nat := 128

/-- The waybill sealed: its CRC computed last (R114). -/
def Bill.seal (b : Bill) : Bill := let z := { b with crc := 0 }; { z with crc := billCrc z.pack }

/-! ### Convoy layers -/

/-- Key of a convoy layer. -/
def layKey (l : Nat) (b : Bool) : Nat := 2 * l + b2n b

/-- Convoy layer of a context's step. -/
def Ctx.layer (x : Ctx) (k : Nat) : Layer := x.layers.getD k Layer.fresh

/-- Changes a convoy layer. -/
def State.onLayer (s : State) (c k : Nat) (f : Layer → Layer) : State :=
  s.onCtx c (fun x => { x with layers := x.layers.put k (f (x.layer k)) })

/-- The Manifest entry that covers a slot. -/
def Manifest.entryOf (m : Manifest) (slot : Nat) : Option Entry :=
  m.entries.find? (fun e => decide (e.slot ≤ slot ∧ slot < e.slot + e.tokens))

/-- Changes the entry that covers a slot. -/
def Manifest.onEntry (m : Manifest) (slot : Nat) (f : Entry → Entry) : Manifest :=
  { m with entries := m.entries.map (fun e => if e.slot ≤ slot ∧ slot < e.slot + e.tokens then f e else e) }

/-- Slots of a convoy: the first and one past the last (R61). -/
def Manifest.slots (m : Manifest) (b : Bool) : Nat × Nat := if b then (m.tokensA, m.tokens) else (0, m.tokensA)

/-- Generation of a convoy. -/
def Manifest.gen (m : Manifest) (b : Bool) : Nat := if b then m.genB else m.genA

/-- Changes the Manifest of the step in flight. -/
def State.onMan (s : State) (c : Nat) (f : Manifest → Manifest) : State :=
  s.onCtx c (fun x => { x with steps := { x.steps with man := x.steps.man.map f } })

/-- The route copy that the step in flight is bound to (R89). -/
def Ctx.boundRoute (x : Ctx) : Route :=
  match x.steps.man with
  | some m => if m.routeGen = x.route.gen then x.route.active
              else match x.route.other with | .old r => r | _ => x.route.active
  | none => x.route.active

/-- Changes a slot record of a convoy layer. -/
def Layer.onSlot (l : Layer) (slot : Nat) (f : Slot → Slot) : Layer :=
  { l with slots := l.slots.put slot (f (l.slots.getD slot Slot.fresh)) }

/-- Slot record. -/
def Layer.slot (l : Layer) (slot : Nat) : Slot := l.slots.getD slot Slot.fresh

/-- `SLOT_GEN` of a slot is one value for the step: it is written in every convoy layer that holds the slot (R53). -/
def State.setSlotGen (s : State) (c slot g : Nat) : State :=
  s.onCtx c (fun x => { x with layers := x.layers.mapV (fun _ l =>
    { l with slots := l.slots.adjust slot (fun r => { r with gen := g }) }) })

/-- Logs a fault once per context and step: 0 GATE_NAN, 1 NO_REPLICA, 2 RETURN_TIMEOUT (R79, R100, R140). -/
def State.raiseOnce (s : State) (c which source kind dtype detail : Nat) : State :=
  match (s.ctx c).steps.man with
  | none => s
  | some m =>
    if m.logged.contains which then s
    else (s.raise source kind 0 c dtype detail).onMan c (fun m => { m with logged := m.logged ++ [which] })

/-- Counts a drop of a rank: the slot's mask and cause, the sequence's `DROPS` and the step's `DROPS_TOTAL` (R102,
R131). -/
def State.dropRank (s : State) (c k slot rank cause : Nat) : State :=
  let bad := decide (2 ≤ cause)
  let s1 := s.onLayer c k (fun l => l.onSlot slot (fun r => { r with
    dropMask := r.dropMask ||| 2 ^ rank, causes := updAt r.causes rank (fun _ => cause)
    degraded := r.degraded || bad
    late := r.late || decide (4 ≤ cause), done := r.done + (if 4 ≤ cause then 1 else 0) }))
  s1.onMan c (fun m => { m.onEntry slot (fun e => { e with
      drops := Nat.min 0xFFFF (e.drops + 1), degraded := e.degraded || bad }) with
    dropsTotal := Nat.min 0xFFFFFFFF (m.dropsTotal + 1) })

/-! ### Notes -/

/-- Entry of a note (Table 5-5). -/
def noteEntry (expert replica rows cap : Nat) : Nat :=
  packF [(0, 16, expert), (16, 4, replica), (20, 18, rows), (38, 18, cap)]

/-- Header of a note with its `NOTE_CRC` over bytes 0 to 27 (Table 5-4). -/
def noteHeader (epoch ctx src layer : Nat) (convoyB reserved last fixed : Bool) (sub rows entries fmt gen : Nat) : Nat :=
  let x := packF [(0, 16, epoch), (16, 4, ctx), (20, 7, src), (27, 9, layer), (36, 1, b2n convoyB), (37, 1, b2n reserved),
    (38, 1, b2n last), (39, 1, b2n fixed), (40, 17, sub), (64, 18, rows), (82, 18, entries), (100, 5, fmt), (128, 32, gen)]
  x + Num.crc32c ((toLE 32 x).take 28) * 2 ^ 224

/-- `NOTE_CRC` holds. -/
def noteCrcOk (x : Nat) : Bool := Num.crc32c ((toLE 32 x).take 28) == bits x 224 32

/-- Refusal codes (Table 6-3). -/
def refNoContext : Nat := 1
def refNotHosted : Nat := 2
def refDieAbsent : Nat := 3

end Sys2Proof.Machine
end

