-- ==== Sys2Proof/Machine/Rx.lean ====
section
/-! DEFINITION. Reception of notes and rows, batches, and what a receiver sends back (05 R106, R115 to R117, R122; 07
R150, R151, R153). -/

namespace Sys2Proof.Machine

/-! ### Frames and fetch requests -/

/-- Context whose images and frames context c uses (R149). -/
def State.imgOwner (s : State) (c : Nat) : Nat :=
  match (s.ctx c).model with
  | some m => m.share.getD c
  | none => c

/-- Residency record that holds context c's frames. -/
def State.frames (s : State) (c : Nat) : Resid := (s.ctx (s.imgOwner c)).resid

/-- Changes the residency record of context c itself. -/
def State.onResid (s : State) (c : Nat) (f : Resid → Resid) : State := s.onCtx c (fun x => { x with resid := f x.resid })

/-- Frame of a replica on this package; none is COLD. -/
def Resid.frame (r : Resid) (l e i : Nat) : Option Frame :=
  r.frames.find? (fun f => f.layer == l && f.expert == e && f.replica == i)

/-- Changes a frame. -/
def Resid.onFrame (r : Resid) (l e i : Nat) (f : Frame → Frame) : Resid :=
  { r with frames := r.frames.map (fun x => if x.layer = l ∧ x.expert = e ∧ x.replica = i then f x else x) }

/-- Die of a replica here: of its frame, else of the active route copy's entry. -/
def State.replicaDie (s : State) (c l e i : Nat) : Option Nat :=
  match (s.frames c).frame l e i with
  | some f => some f.die
  | none =>
    match ((s.ctx c).route.active.expert l e).replicas[i]? with
    | some x => if x.pkg = s.board.pkgId then some x.die else none
    | none => none

/-- Why rows for a replica are refused here (R116, R150, R167, R170). -/
def State.refuse (s : State) (c l e i : Nat) : Option Nat :=
  if (s.ctx c).st ≠ .active then some refNoContext
  else
    let r := s.frames c
    match s.replicaDie c l e i with
    | none => some refNotHosted
    | some d =>
      if i ≠ 0 ∧ (r.frame l e i).isNone then some refNotHosted
      else if !(s.boot.diesUp.getD d false) then some refDieAbsent
      else if r.unread.contains (expKey l e) then some refNotHosted
      else none

/-- Limit of prefetches in flight per die (Table 7-5). -/
def Resid.prefetchLimit (r : Resid) : Nat := bits r.policy 88 16

/-- A prefetch finds as many running on a die as `PREFETCH_FRAMES` allows (R153). -/
def Resid.prefetchFull (r : Resid) (d : Nat) : Bool :=
  decide (r.prefetchLimit ≤ countP (fun (f : Fetch) => f.prio == 4 && f.die == d && f.started) r.fetches)

/-- The fetch arbiter takes a request for the frame of replica i (R153): it merges into a running fetch, is dropped at
the prefetch limit, or waits.  Priorities: 1 demand, 2 reload, 3 new primary, 4 prefetch, 5 secondary fill, 6 mirror
rebuild, which needs no frame; a fill and a new primary name their die. -/
def State.fetchRequest (s : State) (c l e i prio die : Nat) : State :=
  let o := s.imgOwner c
  let r := (s.ctx o).resid
  match r.frame l e i with
  | some f => if f.st = 1 then s.bumpCtx o .fetchMerged 1 else s
  | none =>
    match (if prio = 3 ∨ prio ≥ 5 then some (die % 4) else s.replicaDie c l e i) with
    | none => s
    | some d =>
      if r.fetches.any (fun f => f.layer == l && f.expert == e && f.replica == i) then
        s.onResid o (fun r => { r with fetches := r.fetches.map (fun f =>
          if f.layer = l ∧ f.expert = e ∧ f.replica = i ∧ prio < f.prio then { f with prio := prio } else f) })
      else if prio = 4 ∧ r.prefetchFull d then
        s.bumpCtx o .prefetchShed 1
      else
        s.onResid o (fun r => { r with fetches := r.fetches ++ [⟨l, e, i, d, prio, s.now, false, false, 2, 0, 0, []⟩] })

/-! ### Batches -/

/-- A row that waits for the die or for its answer belongs to this home and epoch. -/
def RxRow.of (x : RxRow) (src epoch : Nat) : Bool := x.src == src && bits x.bill 240 16 == epoch

/-- Changes reception of a context. -/
def State.onRx (s : State) (c : Nat) (f : Rx → Rx) : State := s.onCtx c (fun x => { x with rx := f x.rx })

/-- Whether a batch is for a key. -/
def Batch.key (b : Batch) (l e i : Nat) : Bool := b.layer == l && b.expert == e && b.replica == i

/-- Bytes of the receive area in use: every row until its answer leaves (R117). -/
def Rx.used (r : Rx) : Nat := sumN (r.batches.map (fun b => sumN (b.rows.map (fun x => x.data.length + 32))))

/-- A note entry of a key is still incomplete. -/
def Rx.keyOpen (r : Rx) (l e i : Nat) : Bool :=
  r.notes.any (fun n => !n.expired && n.layer == l && n.entries.any (fun x => x.1 == e && x.2.1 == i && decide (x.2.2.2.2 < x.2.2.1)))

/-- Rows of a batch as the die takes them: in fixed-order mode by ascending home, each home's in note order (R117). -/
def Batch.order (b : Batch) : List RxRow :=
  if b.fixed then sortBy (fun (x y : RxRow) => decide (x.src ≤ y.src)) b.rows else b.rows

/-- Hands a closed batch to its die: its rows and pad rows cross the UCIe port; the frame's stamp is now (R117, R151,
R154). -/
def State.handBatch (s : State) (c : Nat) (b : Batch) (d : Nat) : State :=
  let o := s.imgOwner c
  let n := (b.rows.head?.map (fun x => x.data.length)).getD (tensorBytes (dispFmt ((s.ctx c).route.active.layer b.layer).disp)
    (s.ctx c).share.dModel)
  let s1 := b.order.foldl (fun t x =>
    t.emit (.ucie d 0x5 c (bits x.bill 240 16) b.layer x.convoyB (bits x.bill 203 18) false (toLE 32 x.bill ++ x.data))) s
  let s2 := b.pads.foldl (fun t p => (List.range p.2.2).foldl (fun u _ =>
    u.emit (.ucie d 0x5 c p.1 b.layer p.2.1 0 true (List.replicate n 0))) t) s1
  let used := match (s.ctx o).resid.frame b.layer b.expert b.replica with
    | some f => f.prefetched
    | none => false
  let s3 := (s2.bumpCtx c .padRows (sumN (b.pads.map (fun p => p.2.2)))).bumpCtx o .prefetchUsed (b2n used)
  s3.onResid o (fun r => r.onFrame b.layer b.expert b.replica (fun f => { f with stamp := s.now, prefetched := false }))

/-- Hands every closed batch whose frame is RESIDENT or DRAINING, in the order in which they closed. -/
def handAll (c : Nat) : List Batch → State → State
  | [], s => s
  | b :: rest, s =>
    match (s.frames c).frame b.layer b.expert b.replica with
    | some f =>
      if b.closed ∧ !b.handed ∧ (f.st = 2 ∨ f.st = 3) then
        handAll c rest ((s.handBatch c b f.die).onRx c (fun r => { r with batches := r.batches.map (fun y =>
          if y = b then { y with handed := true } else y) }))
      else handAll c rest s
    | none => handAll c rest s

/-- Closes the open batch of a key; closed batches stand in closing order. -/
def Rx.close (r : Rx) (l e i now : Nat) : Rx :=
  let isOpen (b : Batch) : Bool := b.key l e i && !b.closed
  let done := (r.batches.filter isOpen).map (fun b => { b with closed := true, closedAt := now })
  { r with batches := r.batches.filter (fun b => !isOpen b) ++ done }

/-- Closes a key's batch when every note held for it is complete, and hands what may be handed (R117). -/
def State.settleRow (s : State) (c l e i : Nat) : State :=
  let s1 := if (s.ctx c).rx.keyOpen l e i then s else s.onRx c (fun r => r.close l e i s.now)
  handAll c (s1.ctx c).rx.batches s1

/-! ### Notes -/

/-- Context under which a row or note counts: its own if resident, else context 0 (R123). -/
def State.rxCtx (s : State) (c : Nat) : Nat := if (s.ctx c).st = .active then c else 0

/-- Messages from a package wait on its dispatch path (R106). -/
def State.heldFrom (s : State) (src : Nat) : Bool := s.fab.heldRx.any (fun h => h.src == src)

/-- A message joins those held on its path. -/
def State.holdRx (s : State) (h : HeldRx) : State := { s with fab := { s.fab with heldRx := s.fab.heldRx ++ [h] } }

/-- A note takes effect (R116, R151). -/
def State.noteNow (s : State) (src header : Nat) (entries : List Nat) : State :=
  let c := bits header 16 4
  if !noteCrcOk header then
    (({ s with fab := { s.fab with noNote := if s.fab.noNote.contains src then s.fab.noNote else s.fab.noNote ++ [src] } })).bumpCtx
      (s.rxCtx c) .rxNoteDrops 1
  else
    let s1 := { s with fab := { s.fab with noNote := s.fab.noNote.filter (fun p => p != src) } }
    if (s.ctx c).st ≠ .active then s1
    else
      let l := bits header 27 9
      let epoch := bits header 0 16
      let es := entries.map (fun w => (bits w 0 16, bits w 16 4, bits w 20 18, bits w 38 18, 0))
      let s2 := s1.onRx c (fun r =>
        { r with
          nextNote := r.nextNote + 1
          retired := r.retired.filter (fun e => e != (src, epoch))
          notes := r.notes.filter (fun n => !(n.expired && n.src == src)) ++ [⟨r.nextNote, src, epoch, l, bit header 36, bit header 37, bit header 38, bit header 39,
            bits header 40 17, bits header 64 18, bits header 100 5, es, s.now, 0, false⟩] })
      let s3 := es.foldl (fun t e =>
        if (t.refuse c l e.1 e.2.1).isSome then t
        else match (t.frames c).frame l e.1 e.2.1 with
          | none => t.fetchRequest c l e.1 e.2.1 1 0
          | some _ => t) s2
      s3.onRx c (fun r => { r with notes := r.notes.filter (fun n => n.rows != 0) })

/-- `NOTE_RECEIVE` (R106, R116, R151): behind a held row it waits on the path. -/
def noteReceive (src header : Nat) (entries : List Nat) (s : State) : State :=
  if !s.booted then s
  else if s.heldFrom src then s.holdRx ⟨src, 1, header, entries, []⟩
  else s.noteNow src header entries

def execNoteReceive (src header : Nat) (entries : List Nat) (s : State) : Host.Outcome State Fault Refusal :=
  .next (noteReceive src header entries s)

/-! ### Rows -/

/-- Sends a refusal to the row's home (R116, Table 6-3). -/
def State.sendRefusal (s : State) (bill code : Nat) : State :=
  let word := packF [(0, 8, code), (16, 7, s.board.pkgId)]
  s.sendMsg (bits bill 221 7) 0x05 (bits bill 228 4) [bill, word] (toLE 32 bill ++ toLE 8 word)

/-- The oldest note of a home that still expects a row of a key. -/
def Rx.noteFor (r : Rx) (src : Nat) (b : Bill) : Option RxNote :=
  r.notes.find? (fun n => n.src == src && n.epoch == b.epoch && n.layer == b.layer &&
    n.entries.any (fun x => x.1 == b.expert && x.2.1 == b.replica && decide (x.2.2.2.2 < x.2.2.1)))

/-- Marks one row of a key taken in a note. -/
def RxNote.take (n : RxNote) (e i : Nat) : RxNote :=
  { n with
    got := n.got + 1
    entries := n.entries.map (fun x =>
      if x.1 = e ∧ x.2.1 = i then (x.1, x.2.1, x.2.2.1, x.2.2.2.1, x.2.2.2.2 + 1) else x) }

/-- Pad rows that a note's entry of a key adds when its last row is taken: reserved mode fills it to `CAPACITY`. -/
def RxNote.pads (n : RxNote) (e i : Nat) : Nat :=
  if n.reserved then
    sumN (n.entries.map (fun x => if x.1 = e ∧ x.2.1 = i ∧ x.2.2.2.2 + 1 = x.2.2.1 then x.2.2.2.1 - x.2.2.1 else 0))
  else 0

/-- Puts a row into the open batch of its key, opening one if none is open. -/
def Rx.addRow (r : Rx) (b : Bill) (x : RxRow) (now : Nat) (pads : List (Nat × Bool × Nat)) (fixed : Bool) : Rx :=
  let isOpen (y : Batch) : Bool := y.key b.layer b.expert b.replica && !y.closed
  if r.batches.any isOpen then
    { r with batches := r.batches.map (fun y => if isOpen y then { y with rows := y.rows ++ [x], pads := y.pads ++ pads } else y) }
  else
    { r with batches := r.batches ++ [⟨b.layer, b.expert, b.replica, now, false, 0, false, fixed, [x], pads⟩] }

/-- Takes an accepted row (R116, R117, R151). -/
def State.acceptRow (s : State) (src bill : Nat) (data : List Byte) : State :=
  let b := Bill.read bill
  let c := b.ctx
  let o := s.imgOwner c
  let n := (s.ctx c).rx.noteFor src b
  let conv := (n.map (·.convoyB)).getD false
  let k : Nat := match n with | some n => n.pads b.expert b.replica | none => 0
  let pads := if k = 0 then [] else [(b.epoch, conv, k)]
  let id := (n.map (·.id)).getD 0
  let frame := (s.ctx o).resid.frame b.layer b.expert b.replica
  let held := match frame with | some f => f.st == 1 | none => true
  let s1 := s.onRx c (fun r =>
    let r1 := r.addRow b ⟨id, bill, src, conv, data⟩ s.now pads (bit b.flags 4)
    let ns := r1.notes.map (fun x => if x.id = id then x.take b.expert b.replica else x)
    { r1 with notes := ns.filter (fun x => decide (x.got < x.rows)) })
  let s2 := (s1.bumpCtx c .rxRows 1).bumpCtx o .heldRows (b2n held)
  let s3 := if frame.isNone then s2.fetchRequest c b.layer b.expert b.replica 1 0 else s2
  if id = 0 then s3 else s3.settleRow c b.layer b.expert b.replica

/-- Pad rows join the open batch of a key, or open one. -/
def Rx.addPads (r : Rx) (l e i now : Nat) (fixed : Bool) (pads : Nat × Bool × Nat) : Rx :=
  let isOpen (y : Batch) : Bool := y.key l e i && !y.closed
  if r.batches.any isOpen then
    { r with batches := r.batches.map (fun y => if isOpen y then { y with pads := y.pads ++ [pads] } else y) }
  else { r with batches := r.batches ++ [⟨l, e, i, now, false, 0, false, fixed, [], [pads]⟩] }

/-- A row that a note counts has come and is not taken: its entry fills all the same, and where the key is hosted the entry's pad
rows are formed (R117). -/
def State.rowGone (s : State) (c : Nat) (n : RxNote) (e i : Nat) : State :=
  let k := if (s.refuse c n.layer e i).isSome then 0 else n.pads e i
  let s1 := s.onRx c (fun r =>
    let r1 := if k = 0 then r else r.addPads n.layer e i s.now n.fixed (n.epoch, n.convoyB, k)
    { r1 with notes := (r1.notes.map (fun x => if x.id = n.id then x.take e i else x)).filter (fun x => decide (x.got < x.rows)) })
  s1.settleRow c n.layer e i

/-- The note whose row comes next on a home's path, and the key of that row: notes stand in order of arrival, their rows in order of
their entries (R115). -/
def State.nextRow (s : State) (src : Nat) : Option (Nat × RxNote × Nat × Nat) :=
  (minBy (fun (x : Nat × RxNote) => x.2.arrived) ((List.range 16).flatMap (fun c =>
    ((s.ctx c).rx.notes.filter (fun n => n.src == src)).map (fun n => (c, n))))).bind (fun x =>
      (x.2.entries.find? (fun y => decide (y.2.2.2.2 < y.2.2.1))).map (fun y => (x.1, x.2, y.1, y.2.1)))

/-- A row takes effect: the checks of R116 in order; none where the receive area has no room for it (R106).  A row whose waybill
fails its CRC is known by its place on the path. -/
def State.rowNow (s : State) (src bill : Nat) (data : List Byte) : Option State :=
  let b := Bill.read bill
  let k := s.rxCtx b.ctx
  let n := (s.ctx b.ctx).rx.noteFor src b
  let expired := (n.map (·.expired)).getD false
  if s.fab.noNote.contains src then some s
  else if !billCrcOk bill then
    let s1 := (s.bumpCtx k .rxCrcDrops 1).raiseRated (0xA00 + src) 0x13 k 3 src
    match s.nextRow src with
    | some (c, n, e, i) => some (s1.rowGone c n e i)
    | none => some s1
  else if b.dst ≠ s.board.pkgId then
    some ((s.bumpCtx k .rxMisrouted 1).raise (0xA00 + src) 0x14 0 k 3 src)
  else if (s.ctx b.ctx).rx.retired.contains (b.src, b.epoch) then some (s.bumpCtx k .rxRetired 1)
  else if expired then
    let took (x : RxNote) : RxNote := if some x = n then x.take b.expert b.replica else x
    some ((s.bumpCtx k .rxRetired 1).onRx b.ctx (fun r => { r with
      notes := (r.notes.map took).filter (fun x => decide (x.got < x.rows)) }))
  else
    match s.refuse b.ctx b.layer b.expert b.replica with
    | some code =>
      let s1 := (s.bumpCtx k .rxRefused 1).sendRefusal bill code
      match n with
      | some n => some (s1.rowGone b.ctx n b.expert b.replica)
      | none => some s1
    | none =>
      if (s.ctx b.ctx).share.rxMib * mib < (s.ctx b.ctx).rx.used + data.length + 32 then none
      else some (s.acceptRow src bill data)

/-- `ROW_RECEIVE` (R106, R116): a row without room, or behind one, waits on its path. -/
def rowReceive (src bill : Nat) (data : List Byte) (s : State) : State :=
  if !s.booted then s
  else if s.heldFrom src then s.holdRx ⟨src, 0, bill, [], data⟩
  else (s.rowNow src bill data).getD (s.holdRx ⟨src, 0, bill, [], data⟩)

def execRowReceive (src bill : Nat) (data : List Byte) (s : State) : Host.Outcome State Fault Refusal :=
  .next (rowReceive src bill data s)

/-- Discards unconsumed rows that a test picks, counting them; batches that this leaves without rows are gone. -/
def State.discardRows (s : State) (c : Nat) (p : RxRow → Bool) (k : Option Ctr) : State :=
  let n := sumN ((s.ctx c).rx.batches.map (fun b => if b.handed then 0 else countP p b.rows))
  let s1 := s.onRx c (fun r => { r with batches :=
      (r.batches.filter (fun b => b.handed || b.rows.isEmpty || b.rows.any (fun x => !p x))).map (fun b =>
        if b.handed then b else { b with rows := b.rows.filter (fun x => !p x) }) })
  match k with
  | some k => s1.bumpCtx c k n
  | none => s1

/-- A note that the receiver no longer holds lets the batches of its keys close (R117). -/
def State.settleNote (s : State) (c : Nat) (n : RxNote) : State :=
  n.entries.foldl (fun t e => t.settleRow c n.layer e.1 e.2.1) s

/-- A retire notice takes effect (R122). -/
def State.retireNow (s : State) (src c epoch : Nat) : State :=
  if (s.ctx c).st ≠ .active then s
  else
    let gone := (s.ctx c).rx.notes.filter (fun n => n.src == src && n.epoch == epoch)
    let s1 := s.discardRows c (fun x => x.of src epoch) (some .rxRetired)
    let s2 := s1.onRx c (fun r => { r with
      notes := r.notes.filter (fun n => !(n.src == src && n.epoch == epoch))
      retired := if r.retired.contains (src, epoch) then r.retired else r.retired ++ [(src, epoch)] })
    gone.foldl (fun t n => t.settleNote c n) s2

/-- Effect of a held message, none where it must wait on. -/
def State.heldNow (s : State) (h : HeldRx) : Option State :=
  if h.kind = 0 then s.rowNow h.src h.word h.data
  else if h.kind = 1 then some (s.noteNow h.src h.word h.entries)
  else some (s.retireNow h.src (h.entries.headD 0) h.word)

/-- The first held message that heads its path and can take effect does; none where no path can move. -/
def State.serveOne (s : State) : List HeldRx → List Nat → Option State
  | [], _ => none
  | h :: r, blocked =>
    if blocked.contains h.src then s.serveOne r blocked
    else
      match s.heldNow h with
      | some t => some { t with fab := { t.fab with heldRx := eraseFirst (fun x => decide (x = h)) t.fab.heldRx } }
      | none => s.serveOne r (blocked ++ [h.src])

/-- Held messages take effect, path by path in order, as far as room allows. -/
def serveHeld : Nat → State → State
  | 0, s => s
  | n + 1, s => match s.serveOne s.fab.heldRx [] with | some t => serveHeld n t | none => s

/-- Room has appeared in a receive area (R106). -/
def State.serveRx (s : State) : State := serveHeld s.fab.heldRx.length s

/-- `BATCH_WINDOW` of a layer in ns: the active route copy of the receiver. -/
def Ctx.batchWindow (x : Ctx) (l : Nat) : Nat := 10 * dispWindow (x.route.active.layer l).disp

/-- `BATCH_WINDOW_EXPIRY` (R117). -/
def batchWindowExpiry (c l e i : Nat) (s : State) : State :=
  if (s.ctx c).rx.batches.any (fun b => b.key l e i && !b.closed && decide (b.opened + (s.ctx c).batchWindow l ≤ s.now)) then
    let s1 := s.onRx c (fun r => r.close l e i s.now)
    handAll c (s1.ctx c).rx.batches s1
  else s

def execBatchWindowExpiry (c layer expert replica : Nat) (s : State) : Host.Outcome State Fault Refusal :=
  .next (batchWindowExpiry c layer expert replica s)

/-- Removes the row of a waybill from the batches handed to a die; a batch without rows is gone. -/
def Rx.answered (r : Rx) (bill : Nat) : Rx :=
  let bs := r.batches.map (fun b =>
    if b.handed then { b with rows := eraseFirst (fun x => x.bill == bill) b.rows } else b)
  { r with batches := bs.filter (fun b => !b.handed || !b.rows.isEmpty) }

/-- `ANSWER_FROM_DIE` (R117, R126): the answer goes to its home, whose Return Path checks it, and the row's receive space
is freed; the answer to a pad row is discarded.  A die may refuse a row instead. -/
def answerFromDie (die : Nat) (pad : Bool) (bill : Nat) (refusal : Option Nat) (row : List Nat) (s : State) : State :=
  let b := Bill.read bill
  if pad ∨ !s.boot.diesUp.getD die false then s
  else
    let s1 := (s.onRx b.ctx (fun r => r.answered bill)).serveRx
    match refusal with
    | some code => s1.sendRefusal bill code
    | none => s1.sendMsg b.src 0x04 b.ctx [bill] (toLE 32 bill ++ (row.map (toLE 2)).flatten)

def execAnswerFromDie (die : Nat) (pad : Bool) (bill : Nat) (refusal : Option Nat) (row : List Nat) (s : State) :
    Host.Outcome State Fault Refusal := .next (answerFromDie die pad bill refusal row s)

/-- `RETIRE_NOTICE_RECEIVE` (R122): behind a held row it waits on the path. -/
def retireNotice (src c epoch : Nat) (s : State) : State :=
  if s.heldFrom src then s.holdRx ⟨src, 2, epoch, [c], []⟩ else (s.retireNow src c epoch).serveRx

def execRetireNoticeReceive (src c epoch : Nat) (s : State) : Host.Outcome State Fault Refusal :=
  .next (retireNotice src c epoch s)

/-- `INCOMPLETE_NOTE_TIMEOUT` (R122): one receiver's return timeout after the note arrived. -/
def incompleteNote (c id : Nat) (s : State) : State :=
  match (s.ctx c).rx.notes.find? (fun n => n.id == id) with
  | none => s
  | some n =>
    if !n.expired ∧ n.arrived + (s.ctx c).returnUs * 1000 < s.now then
      (((s.discardRows c (fun x => x.note == id) (some .rxRetired)).onRx c (fun r => { r with
        notes := r.notes.map (fun y => if y.id = id then { y with expired := true } else y) })).settleNote c n).serveRx
    else s

def execIncompleteNoteTimeout (c note : Nat) (s : State) : Host.Outcome State Fault Refusal :=
  .next (incompleteNote c note s)

/-- `GUIDE_RX_AREA_ANNOUNCE` (R106): every package records it, with the context resident here or not. -/
def rxAreaAnnounce (src c area : Nat) (s : State) : State :=
  (s.onRx c (fun r => { r with areas := r.areas.put src area })).onResid c (fun r => { r with
    resident := if r.resident.contains src then r.resident else r.resident ++ [src] })

def execGuideRxAreaAnnounce (src c area : Nat) (s : State) : Host.Outcome State Fault Refusal :=
  .next (rxAreaAnnounce src c area s)

end Sys2Proof.Machine
end

