-- ==== Sys2Proof/Machine/Residency.lean ====
section
/-! DEFINITION. Expert residency: policy, retirement, eviction by age, fetches and unreadable experts (07 R148 to R156, R159, R166,
R167). -/

namespace Sys2Proof.Machine

/-! ### Policy and hints -/

def Resid.errPolicy (r : Resid) : Nat := bits r.policy 0 2
def Resid.mirrorAll (r : Resid) : Bool := bit r.policy 2
def Resid.freeze (r : Resid) : Bool := bit r.planPolicy 3
def Resid.stallMs (r : Resid) : Nat := bits r.policy 8 16
def Resid.replicaLoad (r : Resid) : Nat := bits r.planPolicy 24 16
def Resid.homeLoad (r : Resid) : Nat := bits r.planPolicy 40 16
def Resid.replicaCap (r : Resid) : Nat := bits r.planPolicy 56 16
def Resid.planPeriod (r : Resid) : Nat := bits r.policy 72 16

/-- Value of an applied hint of an expert. -/
def Resid.hint (r : Resid) (k kind : Nat) : Option Nat :=
  ((r.hints.getD k []).find? (fun h => h.1 == kind)).map (fun h => h.2)

/-- The `MIRROR` hint is in force for an expert. -/
def Resid.mirrors (r : Resid) (k : Nat) : Bool :=
  match r.hint k 5 with
  | some v => v == 1
  | none => r.mirrorAll

/-- Bytes of an image of a context's model and its granules (R148). -/
def State.imageBytes (s : State) (c : Nat) : Nat := (((s.ctx (s.imgOwner c)).model).map (·.imageBytes)).getD 0
def State.frameGran (s : State) (c : Nat) : Nat := ceilDiv (s.imageBytes c) granule

/-- Contexts that use the images of context o (R149). -/
def State.sharers (s : State) (o : Nat) : List Nat :=
  (List.range 16).filter (fun c => (s.ctx c).st == .active && (s.ctx c).model.isSome && s.imgOwner c == o)

/-- Contexts that share context c's images, c among them. -/
def State.users (s : State) (c : Nat) : List Nat :=
  let l := s.sharers (s.imgOwner c)
  if l.contains c then l else l ++ [c]

/-- A hint kind is applied to an expert by some context that shares the image. -/
def State.hinted (s : State) (o k kind : Nat) : Bool := (s.users o).any (fun c => ((s.ctx c).resid.hint k kind).isSome)

/-- The `MIRROR` hint is in force for an image in some context that shares it (log entry 105). -/
def State.mirrorWanted (s : State) (o k : Nat) : Bool := (s.users o).any (fun c => (s.ctx c).resid.mirrors k)

/-- A change of Guide in the table of every context that shares the images of one (R149). -/
def State.guideAll (s : State) (c : Nat) (g : GuideChange) : State :=
  (s.users c).foldl (fun t k => t.guideChange k g) s

/-- Placement leader: the lowest package where the context is resident (R157). -/
def State.leader (s : State) (c : Nat) : Nat :=
  (minBy id (s.board.pkgId :: (s.ctx c).resid.resident)).getD s.board.pkgId

/-- This package leads the placement of a context. -/
def State.leads (s : State) (c : Nat) : Bool := s.leader c == s.board.pkgId

/-! ### Retirement of secondaries (R159, R160) -/

/-- Secondaries that are on their way out: written here, asked for, or draining. -/
def Resid.leaving (r : Resid) : List (Nat × Nat × Nat) :=
  r.toAck ++ r.asked ++ r.removals.map (fun x => (x.layer, x.expert, x.replica))

/-- Active secondaries of a context's images that stay. -/
def State.secondaries (s : State) (o : Nat) : Nat :=
  let x := s.ctx o
  let gone := x.resid.leaving
  sumN (x.route.active.experts.map (fun e => countP (fun i => i != 0
    && ((e.2.replicas[i]?).map (·.active)).getD false && !gone.contains (e.1 / 65536, e.1 % 65536, i))
    (List.range e.2.replicas.length)))

/-- Smallest number of secondaries of a context (R160). -/
def State.floorCount (s : State) (c : Nat) : Nat := ceilDiv ((s.ctx c).expertCount * headroomBp s.appliance) 10000

/-- The headroom floor stays met with one secondary fewer. -/
def State.overFloor (s : State) (o : Nat) : Bool := decide (s.floorCount o < s.secondaries o)

/-- Tells every package where the context is resident of a removal (R159). -/
def State.sendRemoval (s : State) (o l e i : Nat) : State := s.sendGuide o [0x4, l, e, i] (s.ctx o).resid.resident

/-- Writes `ACTIVE` 0 for a retiring secondary and, on its holder, opens the count of acknowledgements (R159). -/
def State.removeHere (s : State) (c l e i : Nat) : State :=
  let o := s.imgOwner c
  let r := (s.ctx o).resid
  let s0 := s.onResid o (fun r => { r with asked := r.asked.filter (fun k => k != (l, e, i)) })
  if r.toAck.contains (l, e, i) ∨ r.removals.any (fun x => x.layer == l && x.expert == e && x.replica == i) then s0
  else
    (s0.guideAll o (.deactivate l e i)).onResid o (fun r => { r with
      toAck := r.toAck ++ [(l, e, i)]
      removals := if (r.frame l e i).isSome then r.removals ++ [⟨l, e, i, [], none⟩] else r.removals })

/-- A secondary is to leave (R159): the leader sends the removal to every package; another holder asks the leader for it. -/
def State.retire (s : State) (o l e i : Nat) : State :=
  if (s.ctx o).resid.leaving.contains (l, e, i) then s
  else if s.leads o then (s.sendRemoval o l e i).removeHere o l e i
  else (s.sendOpen (s.leader o) 0x31 o [0x4, l, e, i] []).onResid o (fun r => { r with asked := r.asked ++ [(l, e, i)] })

/-- Word of a replica entry as a Guide message carries it, with the entry's place. -/
def entryFields (l e i : Nat) (r : Replica) : List Nat := [0x3, l, e, i, r.word]

/-- A replica entry goes to every package through the leader (R158). -/
def State.announce (s : State) (o l e i : Nat) (r : Replica) : State :=
  if s.leads o then s.sendGuide o (entryFields l e i r) (s.ctx o).resid.resident
  else s.sendOpen (s.leader o) 0x31 o (entryFields l e i r) []

/-! ### Eviction by age (R154) -/

/-- An evictable item. -/
inductive Victim where
  | frame (l e i : Nat)
  | col (n : Nat)
deriving DecidableEq, Repr

/-- Rows are held or on the die for a replica, in any context that uses it. -/
def State.frameRows (s : State) (o l e i : Nat) : Bool :=
  (s.users o).any (fun c => (s.ctx c).rx.batches.any (fun b => b.key l e i))

/-- Rows are held, on the die or announced by a note entry for a replica (R154, R155). -/
def State.frameBusy (s : State) (o l e i : Nat) : Bool :=
  s.frameRows o l e i || (s.users o).any (fun c => (s.ctx c).rx.keyOpen l e i)

/-- The layout of a context's images is frozen (R161). -/
def State.frozen (s : State) (o : Nat) : Bool := (s.ctx o).resid.freeze

/-- A frame may be evicted: a primary frame that is idle and not pinned, or a secondary above the floor of a layout that is
not frozen. -/
def State.frameEvictable (s : State) (o : Nat) (f : Frame) : Bool :=
  f.st == 2 &&
  (if f.replica = 0 then !s.frameBusy o f.layer f.expert 0 && !s.hinted o (expKey f.layer f.expert) 1
   else !s.frozen o && s.overFloor o && !(s.ctx o).resid.leaving.contains (f.layer, f.expert, f.replica))

/-- Age of a frame: the `COLD` hint makes it older than any frame without it. -/
def State.frameAge (s : State) (o : Nat) (f : Frame) : Nat :=
  (if s.hinted o (expKey f.layer f.expert) 6 then 0 else 1) * 2 ^ 64 + f.stamp

/-- Granules of a list that lie on a die. -/
def onDie (d : Nat) (l : List Nat) : Nat := countP (fun a => t2Pool a == 2 + d) l

/-- Evictable items of a context with granules on a die, with age and lowest granule. -/
def State.victims (s : State) (o d : Nat) : List (Nat × Nat × Victim) :=
  let x := s.ctx o
  ((x.resid.frames.filter (fun f => f.die == d && s.frameEvictable o f)).map (fun f =>
    (s.frameAge o f, (minBy id f.granules).getD 0, Victim.frame f.layer f.expert f.replica)))
  ++ ((x.kv.cols.filter (fun e => e.2.granules.any (fun a => t2Pool a == 2 + d) && s.colEvictable o e.1 e.2)).map
    (fun e => (s.colAge o e.1 e.2, (minBy id e.2.granules).getD 0, Victim.col e.1)))

/-- Oldest first, ties to the lower granule address. -/
def victimLe (a b : Nat × Nat × Victim) : Bool := decide (a.1 < b.1 ∨ (a.1 = b.1 ∧ a.2.1 ≤ b.2.1))

/-- Frees a frame: its granules return and the replica is COLD or gone. -/
def State.freeFrame (s : State) (o l e i : Nat) : State :=
  match (s.ctx o).resid.frame l e i with
  | none => s
  | some f => s.onCtx o (fun x =>
      let y := x.dropGranules f.granules
      { y with resid := { y.resid with frames := y.resid.frames.filter (fun g => g != f) } })

/-- Lender that a package asks (R236): the one with the most lendable lots, ties to the lower package ID. -/
def State.bestLender (s : State) : Option Nat :=
  minBy (fun p => 2 ^ 64 - Config.lendable p s.now) (sortBy (fun (a b : Nat) => decide (a ≤ b)) s.others)

/-- Asks the best lender for one lot of kind 1 of a context.  Whether it grants one by then, and where, is a free value. -/
def State.askLot (s : State) (c : Nat) : Option (Nat × Nat) × State :=
  match s.bestLender with
  | none => (none, s)
  | some p =>
    let d := (s.sendOpen p 0x31 c [0x13, 1] []).draw
    let base := addr 1 (d.1 / 2 % 352 * lotBytes)
    (if d.1 % 2 = 0 ∨ (s.ctx c).kv.lots.any (fun l => l.lender == p && l.base == base) then none else some (p, base), d.2)

/-- What a walk over evictable items has come to: granules still short, granules freed, and a column found no place. -/
structure Evicted where
  short   : Nat
  freed   : Nat
  blocked : Bool
deriving DecidableEq, Repr

/-- k granules are freed or promised. -/
def Evicted.got (v : Evicted) (k : Nat) : Evicted := { v with short := v.short - k, freed := v.freed + k }

/-- Evicts items in turn until enough granules are freed or promised (R154, R240).  `here` counts the granules of an item that
serve the request. -/
def evictItems (o : Nat) (here : List Nat → Nat) (ask : State → Option (Nat × Nat) × State) :
    List (Nat × Nat × Victim) → Evicted → State → Evicted × State
  | [], v, s => (v, s)
  | (_, _, .frame l e i) :: rest, v, s =>
    match (s.ctx o).resid.frame l e i with
    | none => evictItems o here ask rest v s
    | some f =>
      if v.short = 0 ∨ !s.frameEvictable o f then evictItems o here ask rest v s
      else
        evictItems o here ask rest (v.got (here f.granules))
          (if i = 0 then (s.freeFrame o l e i).bumpCtx o .evictFrames 1 else s.retire o l e i)
  | (_, _, .col n) :: rest, v, s =>
    let k := (s.ctx o).kv.col n
    if v.short = 0 ∨ k.far.isSome then evictItems o here ask rest v s
    else
      match s.farPlace o (k.granules.length * granule) (s.colHint o n 0x3) ask with
      | (some p, t) => evictItems o here ask rest (v.got (here k.granules)) (t.colOut o n p)
      | (none, t) => evictItems o here ask rest { v with blocked := true } t

/-- Granules on a die that earlier evictions have promised: they come back at the next phase 2, or at the end of a retirement. -/
def State.promised (s : State) (o d : Nat) : Nat :=
  let x := s.ctx o
  onDie d x.kv.evicted + sumN (x.resid.frames.map (fun f =>
    if f.die = d ∧ x.resid.leaving.contains (f.layer, f.expert, f.replica) then f.granules.length else 0))

/-- Makes room for n granules on a die for a fetch; whether the request was blocked (R155, R240). -/
def State.evictOn (s : State) (o d n : Nat) : Bool × State :=
  let r := evictItems o (onDie d) (fun t => t.askLot o) (sortBy victimLe (s.victims o d)) ⟨n - s.promised o d, 0, false⟩ s
  (r.1.blocked && r.1.short != 0, r.2)

/-! ### Fetches -/

/-- Request of the arbiter for a replica. -/
def Resid.fetch (r : Resid) (l e i : Nat) : Option Fetch :=
  r.fetches.find? (fun f => f.layer == l && f.expert == e && f.replica == i)

/-- Changes a request. -/
def Resid.onFetch (r : Resid) (l e i : Nat) (f : Fetch → Fetch) : Resid :=
  { r with fetches := r.fetches.map (fun x => if x.layer = l ∧ x.expert = e ∧ x.replica = i then f x else x) }

/-- Takes a request out of the arbiter. -/
def Resid.dropFetch (r : Resid) (l e i : Nat) : Resid :=
  { r with fetches := r.fetches.filter (fun f => !(f.layer == l && f.expert == e && f.replica == i)) }

/-- The request that a die's arbiter issues next, and the context that it is for (R153).  A request of another context that
waits for that context's own pool is passed over. -/
def State.nextFetch (s : State) (o d : Nat) : Option (Nat × Fetch) :=
  minBy (fun (p : Nat × Fetch) => p.2.prio * 2 ^ 64 + p.2.stamp) ((List.range 16).flatMap (fun c =>
    ((s.ctx c).resid.fetches.filter (fun f => f.die == d && !f.started && (c == o || !f.waited))).map (fun f => (c, f))))

/-- The good copies that are left for a fetch, in the order of R152: (0, replica here), (1, replica elsewhere), (2, source),
(3, mirror).  Whether a primary elsewhere is RESIDENT is a free value; a reload and a mirror rebuild read the source. -/
def State.copies (s : State) (o : Nat) (f : Fetch) : List (Nat × Nat) :=
  let x := s.ctx o
  let untried (i : Nat) : Bool := i != f.replica && !f.tried.contains i
  let ent := (x.route.active.expert f.layer f.expert).replicas
  let here := sortBy (fun (a b : Nat) => decide (a ≤ b)) ((x.resid.frames.filter (fun g =>
    g.layer == f.layer && g.expert == f.expert && g.st == 2 && untried g.replica)).map (·.replica))
  let there := sortBy (fun (a b : Nat × Nat) => decide (a.1 ≤ b.1)) ((List.range ent.length).filterMap (fun i =>
    match ent[i]? with
    | some r => if untried i ∧ r.active ∧ r.pkg ≠ s.board.pkgId ∧ (i ≠ 0 ∨ s.free 0 % 2 = 1) then some (r.pkg, i) else none
    | none => none))
  let q := x.resid.sources.find (expKey f.layer f.expert)
  let src : List (Nat × Nat) := match q with
    | some q =>
      if !q.bad then [(2, 0)]
      else if q.mirror.isSome ∧ (x.route.active.expert f.layer f.expert).mirrored then [(3, 0)] else []
    | none => [(2, 0)]
  (if f.prio = 2 ∨ f.prio = 6 then [] else here.map (fun i => (0, i)) ++ there.map (fun p => (1, p.2))) ++ src

/-- A request reads from a copy. -/
def Fetch.reads (f : Fetch) (p : Nat × Nat) : Fetch := { f with copy := p.1, source := p.2 }

/-- Refuses every unconsumed row of a replica in one context (R167, R170). -/
def State.refuseRows (s : State) (c l e i code : Nat) (handed : Bool) : State :=
  let bs := (s.ctx c).rx.batches.filter (fun b => b.key l e i && (handed || !b.handed))
  let rows := (bs.map (fun b => b.rows)).flatten
  let s1 := s.onRx c (fun r => { r with batches := r.batches.filter (fun b => !(b.key l e i && (handed || !b.handed))) })
  ((rows.foldl (fun t x => t.sendRefusal x.bill code) s1).bumpCtx c .rxRefused rows.length).serveRx

/-- A context's policy acts on an unreadable expert at its next flip (R167). -/
def State.weightError (s : State) (c l e : Nat) : State :=
  let p := (s.ctx c).resid.errPolicy
  if p = 2 then s.raise 0x80A 0x22 1 c 3 (layerExpert l e)
  else
    (s.guideChange c (if p = 1 then .avail l e true 3 else .avail l e false 1)).raise 0x80A 0x22 0 c 3 (layerExpert l e)

/-- An expert is reported unreadable: recorded, and each context that routes to it acts (R167). -/
def State.reportUe (s : State) (c l e : Nat) : State :=
  let o := s.imgOwner c
  let s1 := s.onResid o (fun r => { r with
    unread := if r.unread.contains (expKey l e) then r.unread else r.unread ++ [expKey l e]
    orders := r.orders.filter (fun x => !(x.layer == l && x.expert == e)) })
  (s1.users o).foldl (fun t k => t.weightError k l e) s1

/-- No copy is left to read: held rows are refused, the frame is COLD, every package is told (R167). -/
def State.unreadable (s : State) (o l e i : Nat) : State :=
  let s1 := (s.users o).foldl (fun t c => t.refuseRows c l e i refNotHosted false) s
  let s2 := (s1.freeFrame o l e i).onResid o (fun r => r.dropFetch l e i)
  (s2.sendGuide o [0x6, l, e] s2.others).reportUe o l e

/-- `FETCH_START` (R153, R155): the arbiter's next request starts when the pool has room, after eviction by age; else it
waits.  A prefetch that would run beyond the limit is dropped; a request without a copy to read finds the expert unreadable. -/
def fetchStart (c l e i : Nat) (s : State) : State :=
  let o := s.imgOwner c
  match (s.ctx o).resid.fetch l e i with
  | none => s
  | some f =>
    if f.started ∨ s.nextFetch o f.die ≠ some (o, f) then s
    else if f.prio = 4 ∧ (s.ctx o).resid.prefetchFull f.die then
      (s.onResid o (fun r => r.dropFetch l e i)).bumpCtx o .prefetchShed 1
    else
      match s.copies o f with
      | [] => if f.prio = 6 then s.onResid o (fun r => r.dropFetch l e i) else s.unreadable o l e i
      | p :: _ =>
        if f.prio = 6 then s.onResid o (fun r => r.onFetch l e i (fun f => { f.reads p with started := true }))
        else if !s.boot.diesUp.getD f.die false then s
        else
          let n := s.frameGran o
          let free := (s.ctx o).granOn 0x6 f.die
          let ev := if free < n then s.freed.evictOn o f.die (n - free) else (false, s.freed)
          let s1 := ev.2
          let g := (((s1.ctx o).pool (2 + f.die)).freeBlocks 4).take (Nat.min n ((s1.ctx o).granOn 0x6 f.die))
          if g.length < n then
            ((s1.onResid o (fun r => r.onFetch l e i (fun f => { f with waited := true }))).bumpCtx o .fetchWaits
              (b2n (!f.waited))).bumpCtx o .evictBlocked (b2n (ev.1 && !f.waited)) |>.bumpCtx o .khanQuotaFails
                (b2n (!f.waited && decide (n ≤ ((s1.ctx o).pool (2 + f.die)).freeCount 4)))
          else
            let s2 := (s1.onCtx o (fun x =>
              let y := x.takeGranules 0x6 g
              { y with resid := { (y.resid.onFetch l e i (fun f => { f.reads p with started := true })) with
                frames := y.resid.frames ++ [⟨l, e, i, f.die, 1, g, s.now, false⟩] } }))
            if f.prio = 1 then s2.bumpCtx o .fetchDemand 1
            else if f.prio = 4 then s2.bumpCtx o .fetchPrefetch 1
            else if f.prio = 3 ∨ f.prio = 5 then s2.bumpCtx o .fetchFill 1
            else s2

def execFetchStart (c layer expert replica : Nat) (s : State) : Host.Outcome State Fault Refusal :=
  .next (fetchStart c layer expert replica s)

/-- Changes the source record of an expert. -/
def State.onSource (s : State) (o l e : Nat) (f : Source → Source) : State :=
  s.onResid o (fun r => { r with sources := r.sources.adjust (expKey l e) f })

/-- A replica gave an uncorrectable read: it is logged and Guide retires exactly that replica (R152).  A primary here goes COLD;
one elsewhere is its own package's to retire. -/
def State.replicaUe (s : State) (o l e copy i : Nat) : State :=
  let s1 := s.raise 0x80A 0x20 0 o 3 (layerExpert l e)
  if i ≠ 0 then s1.retire o l e i else if copy = 0 then s1.freeFrame o l e 0 else s1

/-- The next copy of a fetch, or the expert is unreadable (R152, R167). -/
def State.nextCopy (s : State) (o l e i : Nat) : State :=
  match (s.ctx o).resid.fetch l e i with
  | none => s
  | some f =>
    match s.copies o f with
    | p :: _ => (s.onResid o (fun r => r.onFetch l e i (fun f => f.reads p))).freed
    | [] => s.unreadable o l e i

/-- The source and the mirror of an expert have failed for a fetch: it is unreadable, but for a mirror rebuild of one with a
RESIDENT frame here. -/
def State.sourceLost (s : State) (o l e i : Nat) : State :=
  let s1 := s.onSource o l e (fun q => { q with bad := true, mirror := none })
  if i = 16 ∧ (s.ctx o).resid.frames.any (fun f => f.layer == l && f.expert == e && f.st == 2) then
    s1.onResid o (fun r => r.dropFetch l e i)
  else s1.unreadable o l e i

/-- Address of a chunk in the granules of a frame. -/
def Frame.chunkAt (f : Frame) (k : Nat) : Nat := f.granules.getD (k / 16) 0 + k % 16 * 4096

/-- `FETCH_CHUNK_READ` (R148, R152, R166, R167): the next 4 KiB chunk is read and checked against its stored CRC; a mismatch or
a poisoned or uncorrectable read moves on to the next copy. -/
def fetchChunk (c l e i : Nat) (bad : Bool) (s : State) : State :=
  let o := s.imgOwner c
  match (s.ctx o).resid.fetch l e i with
  | none => s
  | some f =>
    let n := s.imageBytes o
    let src := (s.ctx o).resid.sources.find (expKey l e)
    let len := Nat.min 4096 (n - 4096 * f.chunk)
    if !f.started ∨ ceilDiv n 4096 ≤ f.chunk then s
    else
      let held := ((s.ctx o).resid.frame l e f.source).filter (fun g => decide (2 ≤ g.st))
      if f.copy = 0 ∧ held.isNone then s.nextCopy o l e i
      else
        let at_ := (held.map (fun g => g.chunkAt f.chunk)).getD 0
        let poison := if f.copy = 0 then s.takePoison at_ len else (false, s)
        let part : List Byte := if f.copy = 0 then s.bytesAt at_ len
          else (((src.map (·.image)).getD []).drop (4096 * f.chunk)).take len
        let worse := bad || poison.1 || Num.crc32c part != ((src.map (·.crcs)).getD []).getD f.chunk 0
        if !worse then
          let s0 := if f.copy = 2 ∧ (src.map (·.pkg)) = some s.board.pkgId then s.charge o (addr 4 0) part.length else s
          let s1 := match (s.ctx o).resid.frame l e i with
            | some g => (s0.writeAt (g.chunkAt f.chunk) part).charge o (g.chunkAt f.chunk) part.length
            | none => s0
          (s1.onResid o (fun r => r.onFetch l e i (fun f => { f with chunk := f.chunk + 1 }))).bumpCtx o .fetchBytes
            (if f.prio = 6 then 0 else part.length)
        else if f.copy = 0 ∨ f.copy = 1 then
          ((poison.2.replicaUe o l e f.copy f.source).onResid o (fun r =>
            r.onFetch l e i (fun x => { x with tried := x.tried ++ [f.source] }))).nextCopy o l e i
        else
          let s1 := s.bumpCtx o .weightUe 1
          if f.copy = 2 ∧ (src.bind (·.mirror)).isSome ∧ ((s.ctx o).route.active.expert l e).mirrored then
            ((s1.onSource o l e (fun q => { q with bad := true })).onResid o (fun r =>
              r.onFetch l e i (fun f => f.reads (3, 0)))).raise 0x80A 0x21 0 o 3 (layerExpert l e)
          else s1.sourceLost o l e i

def execFetchChunkRead (c layer expert replica : Nat) (bad : Bool) (s : State) : Host.Outcome State Fault Refusal :=
  .next (fetchChunk c layer expert replica bad s)

/-- A package other than a given one, for a mirror: the lowest present one (R149, R163). -/
def State.mirrorHome (s : State) (src : Nat) : Option Nat :=
  ((s.board.pkgId :: s.others).filter (fun p => p != src)) |> minBy id

/-- A mirror rebuild is requested where the `MIRROR` hint is in force (R165, R166). -/
def State.rebuildMirror (s : State) (o l e : Nat) : State :=
  if s.mirrorWanted o (expKey l e) then s.fetchRequest o l e 16 6 0 else s

/-- The mirror becomes the source (R166). -/
def Source.promote (q : Source) : Source :=
  match q.mirror with
  | some m => { q with pkg := m.1, kind := m.2, bad := false, mirror := none }
  | none => q

/-- A reload of an expert is complete: experts are readable again and stall holds on it end (R168, R169). -/
def State.reloaded (s : State) (c l e : Nat) : State :=
  let o := s.imgOwner c
  let s1 := s.onResid o (fun r => { r with unread := r.unread.filter (fun k => k != expKey l e) })
  (s1.users o).foldl (fun t k =>
    (t.guideChange k (.avail l e true 0)).onCtx k (fun x => { x with layers := x.layers.mapV (fun q y =>
      if q / 2 = l then
        let w := y.stalled.filter (fun b => b.expert != e)
        { y with stalled := w, due := if w.isEmpty && y.stallFrom.isSome && y.due.isNone then some s.now else y.due }
      else y) })) s1

/-- The message that waits for a reload completes (R169). -/
def State.reloadDone (s : State) (o l e : Nat) : State :=
  match s.host.msgs.find? (fun m => m.phase == .residentWait l e && s.imgOwner (msgCtx m.payload) == o) with
  | some m => s.complete m (owner m.op) .ok []
  | none => s

/-- A primary is fetched anew from its source at reload priority: a fetch that runs for it ends, its frame is given up (R169). -/
def State.reloadHere (s : State) (o l e die : Nat) : State :=
  ((s.freeFrame o l e 0).onResid o (fun r => r.dropFetch l e 0)).fetchRequest o l e 0 2 die

/-- `FETCH_REQUEST` (R153, R162, R169). -/
def fetchRequestCmd (c l e i prio die : Nat) (s : State) : State :=
  if (s.ctx c).st ≠ .active ∨ prio = 0 ∨ 6 < prio then s
  else if prio = 2 then (s.onSource (s.imgOwner c) l e (fun q => { q with bad := false })).reloadHere (s.imgOwner c) l e die
  else s.fetchRequest c l e i prio die

def execFetchRequest (c layer expert replica prio die : Nat) (s : State) : Host.Outcome State Fault Refusal :=
  .next (fetchRequestCmd c layer expert replica prio die s)

/-- What the completion of a fetch brings about beside the RESIDENT frame. -/
def State.fetched (s : State) (o : Nat) (f : Fetch) : State :=
  let l := f.layer
  let e := f.expert
  let s1 := if f.copy = 3 then
      (((s.bumpCtx o .mirrorRecoveries 1).onSource o l e Source.promote).guideAll o (.mirrored l e false)).rebuildMirror o l e
    else s
  let r : Replica := ⟨s.board.pkgId, f.die, true, 8⟩
  if f.prio = 2 then
    ((((s1.reloaded o l e).bumpCtx o .reloads 1).sendGuide o [0x7, l, e] s1.others).reloadDone o l e).rebuildMirror o l e
  else if f.prio = 3 then ((s1.guideAll o (.entry l e 0 r)).guideAll o (.avail l e true 0)).announce o l e 0 r
  else if f.prio = 5 then
    let s2 := s1.announce o l e f.replica r
    if s1.leads o then (((s2.guideAll o (.entry l e f.replica r)).bumpCtx o .replicasAdded 1)).onResid o (fun r => { r with
      orders := r.orders.filter (fun x => !(x.layer == l && x.expert == e && x.replica == f.replica)) })
    else s2
  else s1

/-- Batches of every context that shares a frame are handed to its die in the order in which they closed (R151). -/
def State.handShared (s : State) (o : Nat) : State :=
  (sortBy (fun (a b : Nat × Batch) => decide (a.2.closedAt ≤ b.2.closedAt)) ((s.users o).flatMap (fun k =>
    (s.ctx k).rx.batches.map (fun b => (k, b))))).foldl (fun t p => handAll p.1 [p.2] t) s

/-- `FETCH_COMPLETE` (R151, R158, R162, R166, R169): every chunk is checked; the frame is RESIDENT and held batches go
to the die in closing order; a mirror rebuild writes the mirror. -/
def fetchComplete (c l e i : Nat) (s : State) : State :=
  let o := s.imgOwner c
  match (s.ctx o).resid.fetch l e i with
  | none => s
  | some f =>
    if !f.started ∨ f.chunk < ceilDiv (s.imageBytes o) 4096 then s
    else
      let s1 := s.onResid o (fun r => { r with fetches := r.fetches.filter (fun x => x != f) })
      if f.prio = 6 then
        match (s.ctx o).resid.sources.find (expKey l e), s.mirrorHome (((s.ctx o).resid.sources.find
            (expKey l e)).map (·.pkg) |>.getD 0) with
        | some _, some p =>
          (s1.onSource o l e (fun q => { q with mirror := some (p, 4) })).guideAll o (.mirrored l e true)
        | _, _ => s1
      else
        ((s1.onResid o (fun r => r.onFrame l e i (fun g => { g with
          st := 2, stamp := s.now, prefetched := f.prio == 4 }))).fetched o f).handShared o

def execFetchComplete (c layer expert replica : Nat) (s : State) : Host.Outcome State Fault Refusal :=
  .next (fetchComplete c layer expert replica s)

end Sys2Proof.Machine
end

