-- ==== Sys2Proof/Machine/Placement.lean ====
section
/-! DEFINITION. Placement of expert replicas: heat, plans, entries, removals, loss of a die, hints, policy and reloads (07 R156 to
R165, R167 to R170). -/

namespace Sys2Proof.Machine

/-! ### Heat and replication -/

/-- Folds a histogram into heat at commit (R156). -/
def foldHeat (h hist : Nat) : Nat := Nat.min (h - h / 8 + hist) 0xFFFFFFFF

/-- Every real expert of a context, in order. -/
def Ctx.allExperts (x : Ctx) : List (Nat × Nat) :=
  match x.model with
  | some m => ((List.range m.last.length).map (fun l => (List.range (m.last.getD l 0 + 1)).map (fun e => (l, e)))).flatten
  | none => []

/-- Heat of an expert from one package as the leader knows it, over the contexts that share the image (log entry 105). -/
def State.heatFrom (s : State) (c pkg k : Nat) : Nat :=
  sumN ((s.users c).map (fun u =>
    if pkg = s.board.pkgId then (s.ctx u).resid.heat.getD k 0 else (s.ctx u).resid.reports.getD (pkg * 2 ^ 25 + k) 0))

/-- Packages where a context is resident, this one first. -/
def State.homes (s : State) (c : Nat) : List Nat := s.board.pkgId :: (s.ctx c).resid.resident

/-- Sum of an expert's heat over packages. -/
def State.heatSum (s : State) (c k : Nat) : Nat := sumN ((s.homes c).map (fun p => s.heatFrom c p k))

/-- Smallest and largest count of replicas that the hints of an expert ask for (log entry 105). -/
def State.hintMin (s : State) (c k : Nat) : Nat := maxN (1 :: (s.users c).map (fun u => ((s.ctx u).resid.hint k 3).getD 1))
def State.hintMax (s : State) (c k : Nat) : Nat :=
  16 - maxN ((s.users c).map (fun u => 16 - ((s.ctx u).resid.hint k 4).getD 16))

/-- `want` of an expert before fill and trim (R157). -/
def State.want (s : State) (c : Nat) (zero : Bool) (k : Nat) : Nat :=
  let r := (s.ctx c).resid
  let l := (s.homes c).map (fun p => if zero then 0 else s.heatFrom c p k)
  let w := Nat.max 1 (Nat.max (ceilDiv (sumN l) (8 * r.replicaLoad)) (ceilDiv (maxN l) (8 * r.homeLoad)))
  Nat.min (Nat.max w (s.hintMin c k)) (Nat.min 16 (s.hintMax c k))

/-- Raises or lowers the first entry that a test picks. -/
def bumpWant (w : Tbl Nat) (k : Nat) (up : Bool) : Tbl Nat := w.adjust k (fun n => if up then n + 1 else n - 1)

/-- Total of secondaries wanted. -/
def wantSum (w : Tbl Nat) : Nat := sumN (w.map (fun e => e.2 - 1))

/-- Fill to the floor, hottest first, ties to the lower expert (R157). -/
def fillWant (heat cap : Nat → Nat) (floor : Nat) : Nat → Tbl Nat → Tbl Nat
  | 0, w => w
  | n + 1, w =>
    if floor ≤ wantSum w then w
    else
      match minBy (fun (e : Nat × Nat) => 2 ^ 64 - heat e.1) (w.filter (fun e => decide (e.2 < cap e.1))) with
      | some e => fillWant heat cap floor n (bumpWant w e.1 true)
      | none => w

/-- Trim to the cap, coldest first, ties to the higher expert (R157). -/
def trimWant (heat low : Nat → Nat) (cap : Nat) : Nat → Tbl Nat → Tbl Nat
  | 0, w => w
  | n + 1, w =>
    if wantSum w ≤ cap then w
    else
      match minBy (fun (e : Nat × Nat) => heat e.1 * 2 ^ 40 + (2 ^ 30 - e.1)) (w.filter (fun e => decide (low e.1 < e.2))) with
      | some e => trimWant heat low cap n (bumpWant w e.1 false)
      | none => w

/-- Present dies that the leader knows: (package, die), ascending. -/
def State.dieList (s : State) (c : Nat) : List (Nat × Nat) :=
  let pk := sortBy (fun (a b : Nat) => decide (a ≤ b)) (s.board.pkgId :: (s.ctx c).resid.resident)
  (pk.map (fun p => ((List.range 4).filter (fun d =>
    if p = s.board.pkgId then s.boot.diesUp.getD d false else (Config.peerDies p).testBit d)).map (fun d => (p, d)))).flatten

/-- Largest number of secondaries: the floor, or what `REPLICA_CAP` leaves of the T2 pool over the present dies (R157). -/
def State.replicaMax (s : State) (c : Nat) : Nat :=
  let pool := sumN ((s.dieList c).map (fun p => (s.ctx c).share.t2Mib.getD p.2 0 * mib))
  let frame := 65536 * s.frameGran c
  Nat.max (s.floorCount c) (if frame = 0 then 0 else (s.ctx c).resid.replicaCap * pool / (65536 * frame))

/-- The replica counts that the leader computes (R157, R160, R161). -/
def State.wants (s : State) (c : Nat) (zero : Bool) : Tbl Nat :=
  let keys := (s.ctx c).allExperts.map (fun e => expKey e.1 e.2)
  let heat (k : Nat) : Nat := if zero then 0 else s.heatSum c k
  let w1 := fillWant heat (fun k => Nat.min 16 (s.hintMax c k)) (s.floorCount c) (16 * keys.length)
    (keys.map (fun k => (k, s.want c zero k)))
  trimWant heat (s.hintMin c) (s.replicaMax c) (16 * keys.length) w1

/-- Replica indices of an expert that count for the plan: active ones that stay, and orders under way. -/
def State.planned (s : State) (c l e : Nat) : List (Nat × Nat × Nat) :=
  let x := s.ctx c
  let rs := (x.draft.expert l e).replicas
  (List.range rs.length).filterMap (fun i => match rs[i]? with
    | some r => if (r.active || i == 0) ∧ !x.resid.leaving.contains (l, e, i) then some (i, r.pkg, r.die) else none
    | none => none)
  ++ (x.resid.orders.filter (fun o => o.layer == l && o.expert == e)).map (fun o => (o.replica, o.pkg, o.die))

/-- Sum of heat over the replicas on a die, those ordered among them; a plan at heat 0 sees none (R157, R161). -/
def State.dieHeat (s : State) (c : Nat) (zero : Bool) (p d : Nat) : Nat :=
  if zero then 0
  else sumN ((s.ctx c).draft.experts.map (fun e =>
    if (s.planned c (e.1 / 65536) (e.1 % 65536)).any (fun x => x.2 == (p, d)) then s.heatSum c e.1 else 0))

/-- Die for an added replica of an expert: one without a replica of it, with the least heat (R157). -/
def State.pickDie (s : State) (c l e : Nat) (zero : Bool) (only : Option Nat) : Option (Nat × Nat) :=
  minBy (fun (p : Nat × Nat) => s.dieHeat c zero p.1 p.2) ((s.dieList c).filter (fun p =>
    !(s.planned c l e).any (fun x => x.2 == p) && (only.isNone || only == some p.1)))

/-- The leader orders one more secondary of an expert: the holder fetches it first (R157, R158). -/
def State.orderOne (s : State) (c l e : Nat) (zero : Bool) : State :=
  let rs := ((s.ctx c).draft.expert l e).replicas
  let out := (s.ctx c).resid.leaving
  let used := (s.planned c l e).map (fun x => x.1)
  match s.pickDie c l e zero none, (List.range 16).find? (fun i => i != 0 && !used.contains i && !out.contains (l, e, i)
      && !((rs[i]?).map (·.active)).getD false) with
  | some (p, d), some i =>
    let t := s.onResid c (fun r => { r with orders := r.orders ++ [⟨l, e, i, p, d⟩] })
    if p = s.board.pkgId then t.fetchRequest c l e i 5 d else t.sendOpen p 0x31 c [0x2, l, e, i, d] []
  | _, _ => s

/-- Orders secondaries of an expert until w replicas are planned. -/
def orderUp (c l e w : Nat) (zero : Bool) : Nat → State → State
  | 0, s => s
  | n + 1, s => if (s.planned c l e).length < w then orderUp c l e w zero n (s.orderOne c l e zero) else s

/-- Removes surplus secondaries of an expert, highest index first, until w replicas are planned. -/
def dropDown (c l e w : Nat) : Nat → State → State
  | 0, s => s
  | n + 1, s =>
    if w < (s.planned c l e).length ∧ n ≠ 0 ∧ (s.planned c l e).any (fun x => x.1 == n)
        ∧ !(s.ctx c).resid.orders.any (fun o => o.layer == l && o.expert == e && o.replica == n) then
      dropDown c l e w n (s.retire c l e n)
    else dropDown c l e w n s

/-- The leader orders what the plan changes for one expert (R157 to R159). -/
def State.orderPlan (s : State) (c : Nat) (zero : Bool) (k w : Nat) : State :=
  let l := k / 65536
  let e := k % 65536
  orderUp c l e w zero 16 (dropDown c l e w 16 s)

/-- The leader's plan (R157); under `FREEZE` it is made with every heat 0, at model load and at a change of shape.  The context
that loaded the images plans for those that share them (log entry 105). -/
def State.planReplicas (s : State) (c : Nat) (zero : Bool) : State :=
  if !s.leads c ∨ s.imgOwner c ≠ c then s
  else (s.wants c zero).foldl (fun t e => t.orderPlan c zero e.1 e.2) s

/-- `SHARE` for a package's level (R157). -/
def levelShare (level : Nat) : Nat := if level = 3 then 0 else if level = 2 then 4 else 8

/-- `SHARE` of the replicas on a package as the leader knows its level. -/
def State.shareOf (s : State) (p : Nat) : Nat :=
  levelShare (if p = s.board.pkgId then s.packageLevel else s.fab.peerLevel.getD p 0)

/-- The leader sets `SHARE` on the replicas of packages whose level has changed (R157); a frozen layout stays as it is (R161). -/
def State.syncShares (s : State) (c : Nat) : State :=
  if !s.leads c ∨ s.imgOwner c ≠ c ∨ s.frozen c then s
  else (s.homes c).foldl (fun t p =>
    if (t.ctx c).draft.experts.any (fun e => e.2.replicas.any (fun r => r.pkg == p && r.share != t.shareOf p)) then
      (t.guideAll c (.setShare p (t.shareOf p))).sendGuide c [0x5, p, t.shareOf p] (t.ctx c).resid.resident
    else t) s

/-! ### Hints (R163) -/

/-- Pins never exceed half of the context's T2 pool on a die (Table 7-4). -/
def State.pinFits (s : State) (c l e : Nat) : Bool :=
  match s.replicaDie c l e 0 with
  | none => true
  | some d =>
    let pins := ((s.users c).flatMap (fun u => ((s.ctx u).resid.hints.filter (fun h => h.2.any (fun x => x.1 == 1))).map
      (fun h => h.1))).eraseDups
    let on := countP (fun k => k != expKey l e && s.replicaDie c (k / 65536) (k % 65536) 0 == some d) pins
    decide (2 * (on + 1) * s.frameGran c * granule ≤ ((s.ctx (s.imgOwner c)).share.t2Mib.getD d 0) * mib)

/-- Whether a hint may be applied now (Table 7-4). -/
def State.hintFits (s : State) (c l e kind v : Nat) : Bool :=
  if kind = 1 then s.pinFits c l e
  else if kind = 3 then decide (s.secondaries (s.imgOwner c) + v ≤ s.replicaMax (s.imgOwner c) + 1)
  else if kind = 5 ∧ v = 1 then (s.mirrorHome s.board.pkgId).isSome
  else true

/-- Sets or replaces a hint kind in a list of hints. -/
def setHint (l : List (Nat × Nat)) (kind v : Nat) : List (Nat × Nat) := l.filter (fun h => h.1 != kind) ++ [(kind, v)]

/-- Applies one hint to one expert, or holds it: whether it applies, and the state (R163). -/
def State.hintOne (s : State) (c l e kind v : Nat) : Bool × State :=
  let k := expKey l e
  let mark (t : State) : State :=
    t.guideChange c (.hint l e (((t.ctx c).resid.hints.getD k []).any (fun h => h.1 != 6)))
  if kind = 7 then
    (true, mark (s.onResid c (fun r => { r with hints := r.hints.del k, held := r.held.del k })))
  else if kind = 2 then
    (true, mark (s.onResid c (fun r => { r with
      hints := r.hints.setD [] k ((r.hints.getD k []).filter (fun h => h.1 != 1))
      held := r.held.setD [] k ((r.held.getD k []).filter (fun h => h.1 != 1)) })))
  else if s.hintFits c l e kind v then
    let s1 := mark (s.onResid c (fun r => { r with
      hints := r.hints.put k (setHint (r.hints.getD k []) kind v)
      held := r.held.setD [] k ((r.held.getD k []).filter (fun h => h.1 != kind)) }))
    (true, if kind = 5 ∧ v = 1 ∧ ((s.frames c).sources.find k).bind (·.mirror) = none then s1.fetchRequest c l e 16 6 0 else s1)
  else (false, s.onResid c (fun r => { r with held := r.held.put k (setHint (r.held.getD k []) kind v) }))

/-- Applies a hint to a range of experts: applied, held, state. -/
def hintRange (c l kind v : Nat) : List Nat → Nat → Nat → State → Nat × Nat × State
  | [], a, h, s => (a, h, s)
  | e :: r, a, h, s =>
    let o := s.hintOne c l e kind v
    hintRange c l kind v r (a + b2n o.1) (h + b2n (!o.1)) o.2

/-- Held hints are applied where their limits now allow, lowest layer and expert first (R163). -/
def State.retryHints (s : State) (c : Nat) : State :=
  (sortBy (fun (a b : Nat × List (Nat × Nat)) => decide (a.1 ≤ b.1)) (s.ctx c).resid.held).foldl (fun t h =>
    h.2.foldl (fun u x =>
      if u.hintFits c (h.1 / 65536) (h.1 % 65536) x.1 x.2 then (u.hintOne c (h.1 / 65536) (h.1 % 65536) x.1 x.2).2 else u) t) s

/-- Mirrors that the hints and `MIRROR_ALL` ask for and that do not exist are requested at the source's package (R163, R165). -/
def State.startMirrors (s : State) (c : Nat) : State :=
  let o := s.imgOwner c
  (s.ctx o).resid.sources.foldl (fun t e =>
    if e.2.pkg = s.board.pkgId ∧ e.2.mirror.isNone ∧ !e.2.image.isEmpty then
      t.rebuildMirror o (e.1 / 65536) (e.1 % 65536)
    else t) s

/-- `PMP_EXPERT_HINT` (R163, R164). -/
def expertHint (c : Nat) (a : List Nat) (_ : Msg) (s : State) : Act :=
  match a with
  | [l, f, n, kind, v] =>
    checked (s.layerChecks c l ++
      [(decide (kind = 0 ∨ 7 < kind), .format),
       ((kind == 3 || kind == 4) && decide (v = 0 ∨ 16 < v), .format), (kind == 5 && decide (1 < v), .format),
       (decide (n ≠ 0 ∧ (s.ctx c).lastExpert l + 1 < f + n), .bounds)]) s
      (let r := hintRange c l kind v ((List.range n).map (· + f)) 0 0 s
       .ok (r.2.2.retryHints c) [(.u32, r.1), (.u32, r.2.1)])
  | _ => .no s .format

def execPmpExpertHint (w : Nat) (s : State) : Host.Outcome State Fault Refusal :=
  .next (commitMsg w 0x0220 (withCtx [.u16, .u16, .u32, .u8, .u8] expertHint) s)

/-! ### Plan periods and heat reports -/

/-- `PLAN_PERIOD_EXPIRY` (R157, R165): changes of the policy apply; the leader plans, another package reports its heat. -/
def planPeriod (c : Nat) (s : State) : State :=
  let r := (s.ctx c).resid
  if (s.ctx c).st ≠ .active ∨ s.now < r.lastPlan + r.planPeriod * 100000 ∨ (s.fw fwGuide).st ≠ .running then s
  else
    let s1 := (s.onResid c (fun r => { r with lastPlan := s.now, planPolicy := r.policy })).retryHints c
    if s1.leads c then
      let s2 := s1.syncShares c
      if s2.frozen c then s2 else s2.planReplicas c false
    else s1.sendOpen (s1.leader c) 0x31 c ([0x1, s1.packageLevel] ++ (r.heat.map (fun e => [e.1, e.2])).flatten) []

def execPlanPeriodExpiry (c : Nat) (s : State) : Host.Outcome State Fault Refusal := .next (planPeriod c s)

/-- `GUIDE_HEAT_REPORT` (R157): the leader, its Guide running, takes the report and computes replica counts by the policy of the
plan period in force. -/
def heatReport (src c level : Nat) (heats : List (Nat × Nat)) (s : State) : State :=
  if (s.ctx c).st ≠ .active ∨ !s.leads c ∨ (s.fw fwGuide).st ≠ .running then s
  else
    let o := s.imgOwner c
    let s1 := s.onResid c (fun r => { r with
      reports := heats.foldl (fun t e => t.setD 0 (src * 2 ^ 25 + e.1 % 2 ^ 25) (e.2 % 2 ^ 32)) r.reports })
    let s2 := ({ s1 with fab := { s1.fab with peerLevel := Tbl.setD s1.fab.peerLevel 0 src level } }).syncShares o
    if s2.frozen o then s2 else s2.planReplicas o false

def execGuideHeatReport (src c level : Nat) (heats : List (Nat × Nat)) (s : State) :
    Host.Outcome State Fault Refusal := .next (heatReport src c level heats s)

/-! ### Entries (R158, R170) -/

/-- An entry is written into the shadow copies of the contexts that share the images (R158).  An entry of index 0 names a new
primary, which ends cause 0x02; one that is not active says that the primary's die is lost (R170). -/
def State.writeEntry (s : State) (o l e i : Nat) (r : Replica) : State :=
  let old := (s.ctx o).draft.expert l e
  let s1 := s.onResid o (fun q => { q with
    orders := q.orders.filter (fun x => !(x.layer == l && x.expert == e && x.replica == i)) })
  if i = 0 ∧ !r.active then s1.guideAll o (.avail l e false 2)
  else
    let s2 := (s1.guideAll o (.entry l e i r)).bumpCtx o .replicasAdded
      (b2n (decide (i ≠ 0) && r.active && !((old.replicas[i]?).map (·.active)).getD false))
    if i = 0 ∧ old.cause = 2 then s2.guideAll o (.avail l e true 0) else s2

/-- A new primary is named on this package: a secondary's frame there becomes its frame, else it is fetched (R170). -/
def State.takePrimary (s : State) (o l e : Nat) (r : Replica) : State :=
  match (s.ctx o).resid.frames.find? (fun f => f.layer == l && f.expert == e && f.die == r.die && f.st == 2) with
  | some f => (s.onResid o (fun q => q.onFrame l e f.replica (fun g => { g with replica := 0 }))).writeEntry o l e 0 r
  | none =>
    if ((s.ctx o).draft.expert l e).cause = 2 then s.fetchRequest o l e 0 3 r.die else s.writeEntry o l e 0 r

/-- The leader assigns a new primary of an expert on a present die of a package, which fetches it (R170). -/
def State.newPrimary (s : State) (o l e pkg : Nat) : State :=
  match s.pickDie o l e false (some pkg) with
  | some p =>
    if pkg = s.board.pkgId then s.fetchRequest o l e 0 3 p.2
    else s.sendOpen pkg 0x31 o (entryFields l e 0 ⟨pkg, p.2, true, 8⟩) []
  | none => s

/-- `GUIDE_REPLICA_ENTRY` (R158): the leader passes an entry on to every package, with the `SHARE` of its package; each writes it
into its shadow copy. -/
def replicaEntry (c l e i pkg die share : Nat) (active : Bool) (s : State) : State :=
  if (s.ctx c).st ≠ .active ∨ 16 ≤ i then s
  else
    let o := s.imgOwner c
    let lead := s.leads o
    let r : Replica := ⟨pkg % 128, die % 4, active, if lead ∧ !s.frozen o then s.shareOf (pkg % 128) else share % 256⟩
    let s1 := if lead then s.sendGuide o (entryFields l e i r) (s.ctx o).resid.resident else s
    if i = 0 ∧ active ∧ r.pkg = s.board.pkgId then s1.takePrimary o l e r
    else
      let s2 := s1.writeEntry o l e i r
      if lead ∧ i = 0 ∧ !active then s2.newPrimary o l e r.pkg else s2

def execGuideReplicaEntry (c layer expert index pkg die share : Nat) (active : Bool) (s : State) :
    Host.Outcome State Fault Refusal := .next (replicaEntry c layer expert index pkg die share active s)

/-! ### Removals (R159) -/

/-- Holder of a replica as the active copy names it. -/
def Ctx.holderOf (x : Ctx) (l e i : Nat) : Option Nat := ((x.route.active.expert l e).replicas[i]?).map (·.pkg)

/-- Every package where the context is resident has acknowledged, or has left. -/
def State.allAcked (s : State) (o : Nat) (acks : List Nat) : Bool :=
  (s.homes o).all (fun p => acks.contains p || s.fab.departed.contains p)

/-- A removal that every package has acknowledged starts the wait of one return timeout. -/
def State.settleAcks (s : State) (o : Nat) : State :=
  s.onResid o (fun r => { r with removals := r.removals.map (fun x =>
    if x.ackedAt.isNone && s.allAcked o x.acks then { x with ackedAt := some s.now } else x) })

/-- Records an acknowledgement at the holder (R159). -/
def State.takeAck (s : State) (src c l e i : Nat) : State :=
  let o := s.imgOwner c
  (s.onResid o (fun r => { r with removals := r.removals.map (fun x =>
    if x.layer = l ∧ x.expert = e ∧ x.replica = i ∧ !x.acks.contains src then { x with acks := x.acks ++ [src] } else x) })).settleAcks o

/-- A context's flip of a removal is done and no step of it is bound to an older generation. -/
def Ctx.removalDone (x : Ctx) (k : Nat × Nat × Nat) : Bool :=
  !((((x.route.active.expert k.1 k.2.1).replicas[k.2.2]?).map (·.active)).getD false) &&
  (match x.steps.man with | some m => m.routeGen == x.route.gen | none => true)

/-- Acknowledges the removals whose flip is done and to whose older generation no step is bound, in every context that shares the
images (R159). -/
def State.sendAcks (s : State) (c : Nat) : State :=
  let o := s.imgOwner c
  let done := (s.ctx o).resid.toAck.filter (fun k => (s.users o).all (fun u => (s.ctx u).removalDone k))
  let s1 := s.onResid o (fun r => { r with toAck := r.toAck.filter (fun k => !done.contains k) })
  done.foldl (fun t k =>
    match (t.ctx o).holderOf k.1 k.2.1 k.2.2 with
    | some p => if p = t.board.pkgId then t.takeAck p o k.1 k.2.1 k.2.2
                else t.sendOpen p 0x31 o [0x8, k.1, k.2.1, k.2.2] []
    | none => t) s1

/-- `GUIDE_REMOVAL` (R159): what a holder asks the leader for, the leader sends to every package. -/
def guideRemoval (c l e i : Nat) (s : State) : State :=
  if (s.ctx c).st ≠ .active ∨ i = 0 then s
  else
    let o := s.imgOwner c
    (if s.leads o then s.retire o l e i else s.removeHere o l e i).sendAcks o

def execGuideRemoval (c layer expert replica : Nat) (s : State) : Host.Outcome State Fault Refusal :=
  .next (guideRemoval c layer expert replica s)

def execGuideRemovalAck (src c layer expert replica : Nat) (s : State) : Host.Outcome State Fault Refusal :=
  .next (s.takeAck src c layer expert replica)

/-- `REPLICA_DRAIN_TIMEOUT` (R159): one return timeout after every acknowledgement the frame drains, and is freed once
no row waits for it. -/
def replicaDrain (c l e i : Nat) (s : State) : State :=
  let o := s.imgOwner c
  match (s.ctx o).resid.removals.find? (fun x => x.layer == l && x.expert == e && x.replica == i) with
  | none => s
  | some x =>
    match x.ackedAt with
    | none => s
    | some t =>
      if s.now ≤ t + (s.ctx o).returnUs * 1000 then s
      else if s.frameRows o l e i then s.onResid o (fun r => r.onFrame l e i (fun f => { f with st := 3 }))
      else
        ((s.freeFrame o l e i).onResid o (fun r => { r with
          removals := r.removals.filter (fun y => y != x) })).bumpCtx o .replicasRetired 1

def execReplicaDrainTimeout (c layer expert replica : Nat) (s : State) : Host.Outcome State Fault Refusal :=
  .next (replicaDrain c layer expert replica s)

/-- A package is no longer where a context is resident: removals no longer wait for it, nor orders for its dies, and what its Guide
was asked as leader is asked again (R157, R159). -/
def State.leaveHome (s : State) (c pkg : Nat) : State :=
  let asked := if s.leader c = pkg then (s.ctx c).resid.asked else []
  let s1 := (s.onResid c (fun r => { r with
    resident := r.resident.filter (fun p => p != pkg), orders := r.orders.filter (fun x => x.pkg != pkg)
    asked := r.asked.filter (fun k => !asked.contains k) })).settleAcks c
  asked.foldl (fun t k => t.retire c k.1 k.2.1 k.2.2) s1

/-- `GUIDE_TEARDOWN_ANNOUNCE` (R332): the package's replicas count as removed, and it as having left for the leader. -/
def teardownAnnounce (src c : Nat) (s : State) : State :=
  let s1 := if (s.ctx c).st = .active then s.guideChange c (.dropPkg src) else s
  (s1.onRx c (fun r => { r with areas := r.areas.del src })).leaveHome c src

def execGuideTeardownAnnounce (src c : Nat) (s : State) : Host.Outcome State Fault Refusal :=
  .next (teardownAnnounce src c s)

/-! ### Reports of other packages -/

/-- `GUIDE_EXPERT_UE_REPORT` (R167). -/
def execGuideExpertUeReport (c layer expert : Nat) (s : State) : Host.Outcome State Fault Refusal :=
  .next (if (s.ctx c).st = .active then s.reportUe c layer expert else s)

/-- `GUIDE_EXPERT_RELOADED` (R168, R169): a message that waits for a primary elsewhere completes. -/
def execGuideExpertReloaded (c layer expert : Nat) (s : State) : Host.Outcome State Fault Refusal :=
  .next (if (s.ctx c).st = .active then (s.reloaded c layer expert).reloadDone (s.imgOwner c) layer expert else s)

/-! ### Loss of a compute die (R170) -/

/-- A secondary that can become the primary: one RESIDENT here, else an active one elsewhere, lowest index first. -/
def State.heir (s : State) (o l e : Nat) : Option (Nat × Replica) :=
  let x := s.ctx o
  let rs := (x.draft.expert l e).replicas
  let here (i : Nat) : Bool := ((x.resid.frame l e i).map (fun f => f.st == 2)).getD false
  ((List.range 16).find? (fun i => i != 0 && here i)).bind (fun i => (x.resid.frame l e i).map (fun f =>
      (i, (⟨s.board.pkgId, f.die, true, 8⟩ : Replica))))
    |>.orElse (fun _ => ((List.range 16).find? (fun i => i != 0 && ((rs[i]?).map (fun r => r.active && r.pkg != s.board.pkgId)).getD
      false)).bind (fun i => (rs[i]?).map (fun r => (i, r))))

/-- The primary of an expert lay on a lost die: a RESIDENT secondary takes its place and leaves its old index; else the expert is
unavailable until the leader's new primary is RESIDENT (R150, R170). -/
def State.movePrimary (s : State) (o l e d : Nat) : State :=
  match s.heir o l e with
  | some (i, r) =>
    let s1 := ((s.guideAll o (.entry l e 0 r)).guideAll o (.deactivate l e i)).onResid o (fun q =>
      q.onFrame l e i (fun g => { g with replica := 0 }))
    (s1.announce o l e 0 r).announce o l e i { r with active := false }
  | none =>
    let s1 := (s.guideAll o (.avail l e false 2)).announce o l e 0 ⟨s.board.pkgId, d, false, 8⟩
    if s1.leads o then s1.newPrimary o l e s1.board.pkgId else s1

/-- One context loses die d: its frames and pool there go, rows sent to it are refused, its replicas there are removed on every
package, primaries move (R170). -/
def State.dieLost (s : State) (d c : Nat) : State :=
  if (s.ctx c).st ≠ .active then s
  else
    let me := s.board.pkgId
    let fs := (s.ctx c).resid.frames.filter (fun f => f.die == d)
    let gone := (s.ctx c).draft.experts.flatMap (fun e => (List.range e.2.replicas.length).filterMap (fun i =>
      match e.2.replicas[i]? with
      | some r => if r.pkg = me ∧ r.die = d then some (e.1 / 65536, e.1 % 65536, i) else none
      | none => none))
    let s1 := fs.foldl (fun t f => (t.users c).foldl (fun u k =>
      u.refuseRows k f.layer f.expert f.replica refDieAbsent true) t) s
    let s2 := s1.onCtx c (fun x => { (x.onPool (2 + d) (fun _ => Pool.fresh)) with
      resid := { x.resid with
        frames := x.resid.frames.filter (fun f => f.die != d)
        fetches := x.resid.fetches.filter (fun f => f.die != d)
        removals := x.resid.removals.filter (fun r => !gone.contains (r.layer, r.expert, r.replica))
        asked := x.resid.asked.filter (fun k => !gone.contains k)
        orders := x.resid.orders.filter (fun r => !(r.pkg == me && r.die == d)) } })
    let s3 := s2.guideChange c (.dropDie me d)
    if s3.imgOwner c ≠ c then s3
    else
      let s4 := (gone.filter (fun k => k.2.2 != 0)).foldl (fun t k =>
        t.announce c k.1 k.2.1 k.2.2 ⟨me, d, false, 8⟩) s3
      (gone.filter (fun k => k.2.2 == 0)).foldl (fun t k => t.movePrimary c k.1 k.2.1 d) s4

/-- `UCIE_LINK_DOWN` (R170): a compute die is lost in operation. -/
def ucieDown (port : Nat) (s : State) : State :=
  if !s.boot.diesUp.getD port false then s
  else
    let s1 := { s with boot := { s.boot with diesUp := updAt s.boot.diesUp port (fun _ => false) } }
    (List.range 16).foldl (fun t c => t.dieLost port c) (s1.raise (0x720 + port) 0x25 0 0 3 port)

def execUcieLinkDown (port : Nat) (s : State) : Host.Outcome State Fault Refusal := .next (ucieDown port s)

/-! ### Messages -/

/-- `PMP_RESIDENCY_POLICY` (R165): `FREEZE`, the loads and the cap wait for the next plan period. -/
def residencyPolicy (c : Nat) (a : List Nat) (_ : Msg) (s : State) : Act :=
  match a with
  | [p] =>
    checked [(bits p 4 4 != 0 || bits p 104 24 != 0, .format), (bits p 0 2 == 3, .format),
      (bits p 8 16 == 0 || bits p 24 16 == 0 || bits p 40 16 == 0 || bits p 72 16 == 0 || bits p 88 16 == 0, .bounds)] s
      (.ok ((s.onResid c (fun r => { r with policy := p })).startMirrors c) [])
  | _ => .no s .format

def execPmpResidencyPolicy (w : Nat) (s : State) : Host.Outcome State Fault Refusal :=
  .next (commitMsg w 0x0222 (withCtx [.r 128] residencyPolicy) s)

/-- State of a replica as Table 7-2 codes it: 0 COLD, 1 FETCHING, 2 RESIDENT, 3 DRAINING.  A replica on another package is
not held here; the spec gives no way to learn its state, so it is a free value. -/
def State.replicaState (s : State) (c l e i pkg : Nat) : Nat :=
  if pkg = s.board.pkgId then (((s.frames c).frame l e i).map (·.st)).getD 0
  else Config.freeValue (s.freeCtr + i) % 4

/-- Package and address kind of a copy as `SRC` and `MIRROR` hold them (17, Table 17-4); a copy in a lot has the lot's
base address for its place. -/
def copyWord (pkg kind : Nat) : Nat := packF [(0, 7, pkg), (8, 3, if kind < 8 then kind else bits kind 54 3)]

/-- `PMP_RESIDENCY_QUERY` (R165). -/
def residencyQuery (c : Nat) (a : List Nat) (_ : Msg) (s : State) : Act :=
  match a with
  | [l, e] =>
    let x := s.ctx c
    let k := expKey l e
    let src := (s.frames c).sources.find k
    let rs := (x.route.active.expert l e).replicas
    checked (s.layerChecks c l ++ [(decide (x.lastExpert l < e), .bounds)]) s
      (.ok { s with freeCtr := s.freeCtr + 16 }
        ([(.u64, x.route.active.entryWord l e), (.u64, s.heatSum c k),
          (.u16, (src.map (fun q => copyWord q.pkg q.kind)).getD 0),
          (.u16, match src.bind (·.mirror) with | some m => copyWord m.1 m.2 | none => 0xFFFF),
          (.u32, maskOf ((x.resid.hints.getD k []).map (fun h => h.1))), (.u8, rs.length)]
        ++ (List.range rs.length).map (fun i =>
          let r := rs.getD i ⟨0, 0, false, 0⟩
          (Fld.u64, r.word + s.replicaState c l e i r.pkg * 2 ^ 32))))
  | _ => .no s .format

def execPmpResidencyQuery (w : Nat) (s : State) : Host.Outcome State Fault Refusal :=
  .next (commitMsg w 0x0221 (withCtx [.u16, .u16] residencyQuery) s)

/-! ### Images in buffers -/

/-- Every chunk of an image at an offset of a buffer passes its CRC: the image, then one `u32` per chunk. -/
def State.imageOk (s : State) (h off n : Nat) : Bool :=
  (List.range (ceilDiv n 4096)).all (fun i =>
    Num.crc32c (s.bufBytes h (off + 4096 * i) (Nat.min 4096 (n - 4096 * i)))
      == ofLE (s.bufBytes h (off + n + 4 * i) 4))

/-- Chunk CRCs that stand after an image in a buffer. -/
def State.imageCrcs (s : State) (h off n : Nat) : List Nat :=
  (List.range (ceilDiv n 4096)).map (fun i => ofLE (s.bufBytes h (off + n + 4 * i) 4))

/-- `PMP_EXPERT_RELOAD` (R169): rows for the expert are refused until the reload completes. -/
def expertReload (c : Nat) (a : List Nat) (_ : Msg) (s : State) : Act :=
  match a with
  | [l, e, h] =>
    let x := s.ctx c
    let o := s.imgOwner c
    let k := expKey l e
    let n := s.imageBytes c
    let cause := (x.route.active.expert l e).cause
    checked (s.layerChecks c l ++ [(decide (x.lastExpert l < e), .bounds),
      (cause != 1 && cause != 3 && !(s.frames c).unread.contains k, .denied)] ++ s.handleUse c h true (imageSpan n)
      ++ [(hTier h != 1, .format)]) s
      (if !s.imageOk h 0 n then .no s .format
       else if !s.t4Room o (imageSpan n) ∧ (s.lotRoom o (imageSpan n) none).isNone then .no s .noMemory
       else
         let place : Nat × Nat := if s.t4Room o (imageSpan n) then (s.board.pkgId, 4)
           else ((s.lotRoom o (imageSpan n) none).map (fun q => (q.lender, q.base))).getD (s.board.pkgId, 4)
         let q : Source := ⟨place.1, place.2, s.bufBytes h 0 n, s.imageCrcs h 0 n, false, none⟩
         let s1 := s.onResid o (fun r => { r with sources := r.sources.put k q })
         let s2 := if (x.route.active.expert l e).mirrored then s1.guideAll o (.mirrored l e false) else s1
         match (x.route.active.expert l e).replicas.head? with
         | some p =>
           if p.pkg = s.board.pkgId then .hold (s2.reloadHere o l e p.die) (.residentWait l e)
           else .hold (s2.sendOpen p.pkg 0x31 c [0x9, l, e] (s.bufBytes h 0 n)) (.residentWait l e)
         | none => .hold s2 (.residentWait l e))
  | _ => .no s .format

def execPmpExpertReload (w : Nat) (s : State) : Host.Outcome State Fault Refusal :=
  .next (commitMsg w 0x0223 (withCtx [.u16, .u16, .u32] expertReload) s)

end Sys2Proof.Machine
end

