-- ==== Sys2Proof/Machine/Returns.lean ====
section
/-! DEFINITION. Return path and combine in flight (06): bays, answers, drops, the fused pass, landing buffers. -/

namespace Sys2Proof.Machine

/-! ### Geometry of a combine region (R135, R136) -/

/-- Bytes of a bay. -/
def bayBytes : Nat := 262144

/-- Configuration of a layer in the bound copy. -/
def Ctx.cfgOf (x : Ctx) (l : Nat) : Nat := (x.boundRoute.layer l).cfg

/-- Manifest of the step in flight, or an empty one. -/
def Ctx.man (x : Ctx) : Manifest :=
  x.steps.man.getD ⟨0, false, 0, 0, [], 0, 0, 0, 0, 0, 0, 0, 0, 0, 0, false, [], []⟩

/-- Planes of a layer's region. -/
def Ctx.planes (x : Ctx) (l : Nat) : Nat := if x.man.fixed then Nat.max 1 (cfgKmax (x.cfgOf l)) else 1

/-- First and last bay that row i touches, of rb bytes. -/
def rowBays (rb i : Nat) : Nat × Nat := (i * rb / bayBytes, ((i + 1) * rb - 1) / bayBytes)

/-- Combine minimum of a convoy layer of t slots (R136). -/
def Ctx.minBays (x : Ctx) (l t : Nat) : Nat :=
  if x.man.fixed then Nat.max 2 (Nat.min 32 (2 * cfgKmax (x.cfgOf l)))
  else Nat.max 2 (Nat.min 32 (ceilDiv (ceilDiv (t * rowBytes x.share.dModel) bayBytes) 8))

/-- Slots of a convoy. -/
def Ctx.convoy (x : Ctx) (b : Bool) : Nat × Nat := x.man.slots b

/-- Bays of the shared pool that are free: all but the floor and the set-asides (R136). -/
def State.poolFree (s : State) : Nat :=
  1536 - 384 - 64 * countP (fun (x : Ctx) => x.st == .active) s.ctxs - s.poolUsed

/-- Bays of the shared pool that lookahead reservations hold (R94). -/
def State.softTotal (s : State) : Nat := sumN (s.ctxs.map (fun x => sumN (x.layers.map (fun e => e.2.softBays))))

/-- Takes n soft-reserved bays from layers. -/
def cutSoft : Nat → Tbl Layer → Nat × Tbl Layer
  | n, [] => (n, [])
  | n, (k, y) :: r =>
    let f := Nat.min n y.softBays
    let z := cutSoft (n - f) r
    (z.1, (k, { y with softBays := y.softBays - f }) :: z.2)

/-- Takes n soft-reserved bays from contexts. -/
def cutSoftAll : Nat → List Ctx → List Ctx
  | _, [] => []
  | n, x :: r =>
    let z := cutSoft n x.layers
    { x with layers := z.2 } :: cutSoftAll z.1 r

/-- A hard claim took bays of the pool: soft reservations that no free bay backs any more give way at once (R94). -/
def State.trimSoft (s : State) : State :=
  if s.softTotal ≤ s.poolFree then s else { s with ctxs := cutSoftAll (s.softTotal - s.poolFree) s.ctxs }

/-- Largest combine minimum of a convoy of t slots in any MoE layer. -/
def Ctx.topMin (x : Ctx) (t : Nat) : Nat :=
  maxN ((List.range ((x.model.map (·.moe)).getD 0)).map (fun l => x.minBays l t))

/-- Free bays of a context's set-aside for a claim of a convoy layer: all but what is in use, this layer's minimum, and the most
that the other convoy's layers may need (R136, R137). -/
def Ctx.setFree (x : Ctx) (l : Nat) (b : Bool) : Nat :=
  let t (v : Bool) : Nat := if v then x.man.tokens - x.man.tokensA else x.man.tokensA
  64 - x.minBays l (t b) - x.topMin (t !b) - x.setUsed

/-- Entry of a row group. -/
def Layer.group (y : Layer) (g : Nat) : Group := (y.groups.find? (fun r => r.index == g)).getD ⟨g, false, 0, 0, 0, none⟩

/-- Bays held at a bay's place over all planes. -/
def Group.held (g : Group) : Nat := g.fromMin + g.fromSet + g.fromPool

/-- Changes a row group. -/
def Layer.onGroup (y : Layer) (g : Nat) (f : Group → Group) : Layer :=
  { y with groups := (y.groups.filter (fun r => r.index != g)) ++ [f (y.group g)] }

/-- Row group of a slot of a convoy that begins at `first`. -/
def groupOf (rb first slot : Nat) : Nat := (rowBays rb (slot - first)).1

/-- The bays, by place, that a claim of row group g covers: to the last byte of its last row (R135). -/
def claimCols (rb t g : Nat) : List Nat :=
  let last := Nat.min (t - 1) (((g + 1) * bayBytes - 1) / rb)
  (List.range ((rowBays rb last).2 + 1 - g)).map (· + g)

/-- Takes p bays for one place from the sources of R137, in order: minimum, set-aside, and then the shared pool, where the bays
that lookahead reserved for this layer are the first taken. -/
def State.claimCol (s : State) (c l : Nat) (b : Bool) (p col : Nat) : Option State :=
  let k := layKey l b
  let x := s.ctx c
  let y := x.layer k
  if (y.group col).held ≠ 0 then some s
  else
    let m := Nat.min p y.minLeft
    let q := Nat.min (p - m) (x.setFree l b)
    let r := p - m - q
    if s.poolFree < r then none
    else
      let s1 := { (s.onCtx c (fun x => { x with setUsed := x.setUsed + q })) with poolUsed := s.poolUsed + r }
      some (s1.onLayer c k (fun y => { (y.onGroup col (fun g => { g with
          fromMin := m, fromSet := q, fromPool := r })) with
        minLeft := y.minLeft - m, softBays := y.softBays - r })).trimSoft

/-- Claims places one by one; all or none. -/
def claimAll (c l : Nat) (b : Bool) (p : Nat) : List Nat → State → Option State
  | [], s => some s
  | g :: r, s =>
    match s.claimCol c l b p g with
    | none => none
    | some t => claimAll c l b p r t

/-- Row group g holds every bay of its claim. -/
def Layer.covered (y : Layer) (cols : List Nat) : Bool := cols.all (fun g => (y.group g).held != 0)

/-- Returns the bays of a place to their sources. -/
def State.freeCol (s : State) (c k col : Nat) : State :=
  let g := ((s.ctx c).layer k).group col
  let s1 := s.onLayer c k (fun y => { (y.onGroup col (fun g => { g with fromMin := 0, fromSet := 0, fromPool := 0 })) with
    minLeft := y.minLeft + g.fromMin })
  { (s1.onCtx c (fun x => { x with setUsed := x.setUsed - g.fromSet })) with poolUsed := s1.poolUsed - g.fromPool }

/-- Frees the places that a slot's row touches when every row touching them has been handed back (R137). -/
def State.freeRow (s : State) (c l : Nat) (b : Bool) (slot : Nat) : State :=
  let x := s.ctx c
  let rb := rowBytes x.share.dModel
  let cv := x.convoy b
  let y := x.layer (layKey l b)
  let r := rowBays rb (slot - cv.1)
  let cols := (List.range (r.2 + 1 - r.1)).map (· + r.1)
  let done (col : Nat) : Bool :=
    ((List.range (cv.2 - cv.1)).filter (fun i => decide ((rowBays rb i).1 ≤ col ∧ col ≤ (rowBays rb i).2))).all
      (fun i => (y.slot (cv.1 + i)).handed)
  (cols.filter done).foldl (fun t col => t.freeCol c (layKey l b) col) s

/-- Frees every bay of a convoy layer. -/
def State.freeBays (s : State) (c k : Nat) : State :=
  ((s.ctx c).layer k).groups.foldl (fun t g => t.freeCol c k g.index) s

/-- Lookahead reservations of a convoy layer end (R94). -/
def State.releaseSoft (s : State) (c k : Nat) : State :=
  s.onLayer c k (fun y => { y with softBays := 0, softCredits := [] })

/-! ### Weights (R132) -/

/-- Ranks of a 16-bit mask. -/
def ranksOf (mask : Nat) : List Nat := onesOf 16 mask

/-- Ranks dropped at the route seal: causes 1 to 3. -/
def Slot.sealDrops (r : Slot) : Nat :=
  maskOf ((ranksOf r.dropMask).filter (fun i => decide (r.causes.getD i 0 ≤ 3)))

/-- S less the weight scores of dropped ranks. -/
def Slot.rest (r : Slot) (mask : Nat) : Nat := r.sNorm - sumN ((ranksOf mask).map (fun i => r.qws.getD i 0))

/-- The weight of a score under a normalisation sum (R80, R132). -/
def weightOf (norm : Bool) (scale qw total rest : Nat) : BitVec 16 :=
  if rest = 0 then 0#16
  else
    let w := Num.widen (BitVec.ofNat 16 scale)
    if norm then Num.narrow (Num.fmul (Num.fp32Ratio qw rest) w)
    else Num.narrow (Num.fmul (Num.fmul (Num.fp32Ratio (qw * total) rest) (Num.to32 (.fin false 1 (-15)))) w)

/-- Final weight of a kept rank with the drops of a mask (R132). -/
def Slot.finalWeight (r : Slot) (cfg rank mask : Nat) : BitVec 16 :=
  weightOf (cfgNorm cfg) (cfgWScale cfg) (r.qws.getD rank 0) r.sNorm (r.rest mask)

/-! ### Combine (R129, R130) -/

/-- Adds a weighted answer into a combine row. -/
def addAnswer (w : BitVec 16) : List Nat → Row → Row
  | [], acc => acc
  | a :: r, acc =>
    let p := Num.fmul (Num.widen w) (Num.widen (BitVec.ofNat 16 a))
    Num.fadd (acc.headD 0#32) p :: addAnswer w r acc.tail

/-- An answer holds a NaN or an infinite element (R133). -/
def nonfinite (row : List Nat) : Bool := row.any (fun a => !(Num.v16 (BitVec.ofNat 16 a)).isFin)

/-- Combines an accepted answer whose row is held or spilled. -/
def State.combineNow (s : State) (c : Nat) (b : Bill) (k : Nat) (row : List Nat) : State :=
  let cfg := (s.ctx c).cfgOf b.layer
  let fixed := (s.ctx c).man.fixed
  s.onLayer c k (fun y => y.onSlot b.slot (fun r =>
    if fixed then { r with planes := (r.planes.filter (fun p => p.1 != b.rank)) ++
        [(b.rank, row.map (fun a => Num.widen (BitVec.ofNat 16 a)))] }
    else
      let d := r.sealDrops
      let w := if d = 0 then BitVec.ofNat 16 b.weight else r.finalWeight cfg b.rank d
      { r with acc := addAnswer w row r.acc }))

/-- Combines the queued answers of a row group. -/
def State.drainGroup (s : State) (c l : Nat) (b : Bool) (g : Nat) : State :=
  let k := layKey l b
  let x := s.ctx c
  let rb := rowBytes x.share.dModel
  let first := (x.convoy b).1
  let mine := (x.layer k).queue.filter (fun q => groupOf rb first q.1.slot == g)
  let s1 := s.onLayer c k (fun y => { (y.onGroup g (fun r => { r with waitFrom := none })) with
    queue := y.queue.filter (fun q => groupOf rb first q.1.slot != g) })
  mine.foldl (fun t q => t.combineNow c q.1 k q.2) s1

/-- A row group spills: its rows lie in T1 for the layer from now on (R137). -/
def State.spillGroup (s : State) (c l : Nat) (b : Bool) (g : Nat) : State :=
  let k := layKey l b
  let x := s.ctx c
  let rb := rowBytes x.share.dModel
  let first := (x.convoy b).1
  let s1 := s.onLayer c k (fun y => { (y.onGroup g (fun r => { r with spilled := true })) with
    slots := y.slots.mapV (fun n r => if groupOf rb first n = g then { r with spilled := true } else r) })
  (s1.bumpCtx c .spilledGroups 1).drainGroup c l b g

/-- Waiting combine claims: (tick, context, layer key, group). -/
def State.waitingClaims (s : State) : List (Nat × Nat × Nat × Nat) :=
  ((List.range 16).map (fun c => ((s.ctx c).layers.map (fun e =>
    (e.2.groups.filterMap (fun g => g.waitFrom.map (fun t => (t, c, e.1, g.index)))))).flatten)).flatten

/-- Another claim has waited longer than row group g's has, if g's waits at all (R24). -/
def State.olderClaim (s : State) (c k g : Nat) : Bool :=
  let mine := (((s.ctx c).layer k).group g).waitFrom
  s.waitingClaims.any (fun w => w.2 != (c, k, g) && (match mine with | some t => decide (w.1 < t) | none => true))

/-- Claims a row group's bays; bays of the shared pool go first come, first served (R24, R137). -/
def State.claimGroup (s : State) (c l : Nat) (b : Bool) (g : Nat) : Option State :=
  let x := s.ctx c
  let cv := x.convoy b
  match claimAll c l b (x.planes l) (claimCols (rowBytes x.share.dModel) (cv.2 - cv.1) g) s with
  | none => none
  | some t => if s.poolUsed < t.poolUsed ∧ s.olderClaim c (layKey l b) g then none else some t

/-- Row group g of a convoy layer holds every bay of its claim. -/
def State.holds (s : State) (c l : Nat) (b : Bool) (g : Nat) : Bool :=
  let x := s.ctx c
  let cv := x.convoy b
  (x.layer (layKey l b)).covered (claimCols (rowBytes x.share.dModel) (cv.2 - cv.1) g)

/-- Combines what waits in the row groups of a convoy layer that hold their bays now: a group's bays may all have been claimed by
the groups beside it (R129). -/
def State.drainHeld (s : State) (c l : Nat) (b : Bool) : State :=
  (((s.ctx c).layer (layKey l b)).groups.filter (fun g => g.waitFrom.isSome && s.holds c l b g.index)).foldl
    (fun t g => t.drainGroup c l b g.index) s

/-- The oldest waiting claims that can be met are met, oldest first (R24, R137). -/
def serveClaims : Nat → State → State
  | 0, s => s
  | n + 1, s =>
    match minBy (fun w => w.1) s.waitingClaims with
    | none => s
    | some (_, c, k, g) =>
      match s.claimGroup c (k / 2) (k % 2 == 1) g with
      | some t => serveClaims n ((t.drainGroup c (k / 2) (k % 2 == 1) g).drainHeld c (k / 2) (k % 2 == 1))
      | none => s

/-- An accepted answer goes to its row: held, spilled, claimed now, or waiting (R137). -/
def State.combine (s : State) (c : Nat) (b : Bill) (conv : Bool) (row : List Nat) : State :=
  let l := b.layer
  let k := layKey l conv
  let x := s.ctx c
  let cv := x.convoy conv
  let rb := rowBytes x.share.dModel
  let g := groupOf rb cv.1 b.slot
  let y := x.layer k
  let s0 := s.bumpCtx c .nonfiniteReturns (b2n (nonfinite row))
  if (y.group g).spilled then s0.combineNow c b k row
  else if y.covered (claimCols rb (cv.2 - cv.1) g) then
    (if (y.group g).waitFrom.isSome then s0.drainGroup c l conv g else s0).combineNow c b k row
  else
    match s0.claimGroup c l conv g with
    | some t => ((t.drainGroup c l conv g).combineNow c b k row).drainHeld c l conv
    | none =>
      if 64 ≤ y.queue.length then (s0.spillGroup c l conv g).combineNow c b k row
      else
        let fresh := (y.group g).waitFrom.isNone
        (s0.onLayer c k (fun y => { (y.onGroup g (fun r => { r with
            waitFrom := if fresh then some s.now else r.waitFrom })) with queue := y.queue ++ [(b, row)] })).bumpCtx c
          .bayWaits (b2n fresh)

/-! ### Landing buffers and the checks of R127 -/

/-- A buffer that a waybill falls in. -/
def LandBuf.matches (x : LandBuf) (b : Bill) : Bool :=
  x.epoch == b.epoch && x.layer == b.layer && decide (x.first ≤ b.slot ∧ b.slot < x.past)

/-- Changes one landing buffer. -/
def State.onLand (s : State) (c : Nat) (z : LandBuf) (f : LandBuf → LandBuf) : State :=
  s.onCtx c (fun x => { x with lands := x.lands.map (fun y =>
    if y.epoch = z.epoch ∧ y.layer = z.layer ∧ y.convoyB = z.convoyB then f y else y) })

/-- The layer of a buffer belongs to the step in flight. -/
def Ctx.live (x : Ctx) (z : LandBuf) : Bool := match x.steps.man with | some m => m.epoch == z.epoch | none => false

/-- The cost of a sub-convoy of index 1 or more, once its last landing entry has left EMPTY (R111). -/
def Ctx.noteCost (x : Ctx) (now : Nat) (u : Sub) : Ctx :=
  if u.index = 0 then x
  else { x with steps := { x.steps with lastSubs := ((now - u.releasedAt) :: x.steps.lastSubs).take 16 } }

/-- Sets a landing entry; a sub-convoy of the step in flight waits for it no more. -/
def State.setLanding (s : State) (c : Nat) (z : LandBuf) (i v : Nat) : State :=
  let s1 := s.onLand c z (fun y => { y with entries := updAt y.entries i (fun e => { e with st := v }) })
  let k := layKey z.layer z.convoyB
  if (s.ctx c).live z then
    let ended := ((s.ctx c).layer k).subs.filter (fun u => u.waits == [i])
    (s1.onLayer c k (fun y => { y with subs := y.subs.map (fun u =>
      { u with waits := u.waits.filter (fun n => n != i), finished := u.finished || u.waits == [i] }) })).onCtx c (fun x =>
        ended.foldl (fun y u => y.noteCost s.now u) x)
  else s1

/-- `SLOT_GEN` of a slot of a step in flight; 0 before its first waybill. -/
def Ctx.flightGen (x : Ctx) (slot : Nat) : Nat :=
  match x.layers.find? (fun e => (e.2.slots.find slot).isSome) with
  | some e => (e.2.slot slot).gen
  | none => 0

/-- `SLOT_GEN` of a slot under a landing buffer: of the step in flight, or as it stood when the step committed (R127). -/
def Ctx.slotGen (x : Ctx) (z : LandBuf) (slot : Nat) : Nat := if x.live z then x.flightGen slot else z.gens.getD slot 0

/-- Sub-convoys of a landing buffer that have been injected (R140). -/
def Ctx.outstanding (x : Ctx) (z : LandBuf) : List Outstanding :=
  if x.live z then
    ((x.layer (layKey z.layer z.convoyB)).subs.filter (fun u => u.injected && u.deadline != 0)).map (fun u =>
      ⟨u.dst, u.index, u.deadline, u.bills.map (fun w => (w.ret, w.seq))⟩)
  else z.outst

/-- The step in flight commits: its landing buffers keep what later answers need (R125, R127). -/
def Ctx.keepLands (x : Ctx) : List LandBuf :=
  x.lands.map (fun z => if x.live z then { z with
    gens := ((List.range (z.past - z.first)).map (fun i => (z.first + i, x.flightGen (z.first + i)))).filter (fun e => e.2 != 0)
    outst := x.outstanding z, logged := x.man.logged.contains 2 } else z)

/-- Frees a landing buffer and its table. -/
def State.dropLand (s : State) (c : Nat) (z : LandBuf) : State :=
  (s.onCtx c (fun x => { x with lands := x.lands.filter (fun y =>
    !(y.epoch == z.epoch && y.layer == z.layer && y.convoyB == z.convoyB)) })).khanDrop z.table

/-- Quarantine ends when no entry is EMPTY. -/
def State.checkQuarantine (s : State) (c : Nat) (z : LandBuf) : State :=
  match (s.ctx c).lands.find? (fun y => y.epoch == z.epoch && y.layer == z.layer && y.convoyB == z.convoyB) with
  | some y => if y.quarantined && y.entries.all (fun e => e.st != 0) then s.dropLand c y else s
  | none => s

/-- Logs `RETURN_TIMEOUT`, once per context and step (R140). -/
def State.logTimeout (s : State) (c : Nat) (z : LandBuf) (detail : Nat) : State :=
  if (s.ctx c).live z then s.raiseOnce c 2 0x805 0x18 2 detail
  else if (s.ctx c).lands.any (fun y => y.epoch == z.epoch && y.logged) then s
  else (s.raise 0x805 0x18 0 c 2 detail).onCtx c (fun x => { x with
    lands := x.lands.map (fun y => if y.epoch = z.epoch then { y with logged := true } else y) })

/-- Landing rows past their deadline: those still EMPTY become LOST, and their ranks are dropped with cause 5; an emptied slot's
drop nothing (R140, R141). -/
def loseRows (c : Nat) (z : LandBuf) : List (Nat × Nat) → State → State
  | [], s => s
  | w :: r, s =>
    match z.entries[w.1]? with
    | none => loseRows c z r s
    | some e =>
      if e.st ≠ 0 then loseRows c z r s
      else
        let k := layKey z.layer z.convoyB
        let s1 := (s.setLanding c z w.1 3).bumpCtx c .lostReturns 1
        let s2 := if (s.ctx c).live z ∧ !(((s.ctx c).layer k).slot e.slot).emptied then s1.dropRank c k e.slot e.rank 5 else s1
        loseRows c z r (s2.logTimeout c z (workDetail z.epoch w.2 e.slot))

/-- Acts on the sub-convoys of a landing buffer that a test picks and whose deadline has passed (R140). -/
def State.expire (s : State) (c : Nat) (z : LandBuf) (p : Outstanding → Bool) : State :=
  if z.quarantined then s
  else (((s.ctx c).outstanding z).filter (fun o => p o && decide (o.deadline < s.now))).foldl (fun t o => loseRows c z o.rows t) s

/-- As `expire`, on every buffer that a waybill falls in: an answer that comes after the deadline finds LOST. -/
def State.expireFor (s : State) (b : Bill) : State :=
  ((s.ctx b.ctx).lands.filter (fun z => z.matches b)).foldl (fun t z => t.expire b.ctx z (fun _ => true)) s

/-- The checks of R127 from the fourth on. -/
def State.takeLive (s : State) (b : Bill) (row : Option (List Nat)) : State :=
  let c := s.rxCtx b.ctx
  let x := s.ctx b.ctx
  match x.lands.find? (fun z => !z.quarantined && z.matches b) with
  | none => s.bumpCtx c .retUnmatched 1
  | some z =>
    let e := z.entries[b.ret]?
    if x.slotGen z b.slot ≠ b.gen then
      let s1 := s.bumpCtx b.ctx .staleReturns 1
      if (e.map (·.st)) = some 0 then s1.setLanding b.ctx z b.ret 4 else s1
    else
      match e with
      | none => (s.raise 0x805 0x17 0 b.ctx 2 (workDetail b.epoch b.seq b.slot)).bumpCtx b.ctx .retMismatch 1
      | some e =>
        if e.slot ≠ b.slot ∨ e.rank ≠ b.rank then
          (s.raise 0x805 0x17 0 b.ctx 2 (workDetail b.epoch b.seq b.slot)).bumpCtx b.ctx .retMismatch 1
        else if e.st = 3 then s.bumpCtx b.ctx .lateReturns 1
        else if e.st ≠ 0 then s.bumpCtx b.ctx .dupReturns 1
        else
          let k := layKey z.layer z.convoyB
          match row with
          | none =>
            ((s.setLanding b.ctx z b.ret 2).dropRank b.ctx k b.slot b.rank 4).bumpCtx b.ctx .refusals 1
          | some r =>
            let s1 := (s.setLanding b.ctx z b.ret 1).bumpCtx b.ctx .answersCombined 1
            (s1.onLayer b.ctx k (fun y => y.onSlot b.slot (fun q => { q with done := q.done + 1 }))).combine b.ctx b
              z.convoyB r

/-- Checks of R127 in order on an answer or refusal from a package; `row` is none for a refusal. -/
def State.takeReturn (s : State) (src bill : Nat) (row : Option (List Nat)) : State :=
  let b := Bill.read bill
  let c := s.rxCtx b.ctx
  let x := s.ctx b.ctx
  if !billCrcOk bill then (s.raiseRated (0xA00 + src) 0x15 0 3 src).bumpCtx c .retCrcDrops 1
  else if b.src ≠ s.board.pkgId then (s.raise (0xA00 + src) 0x16 0 0 3 src).bumpCtx c .retMisdirected 1
  else
    match x.lands.find? (fun z => z.quarantined && z.matches b) with
    | some z =>
      let s1 := s.bumpCtx c .retiredReturns 1
      if (z.entries[b.ret]?.map (·.st)) = some 0 then (s1.setLanding b.ctx z b.ret 5).checkQuarantine b.ctx z else s1
    | none => (s.expireFor b).takeLive b row

/-- `ANSWER_RECEIVE` (R126, R127). -/
def execAnswerReceive (src bill : Nat) (row : List Nat) (s : State) : Host.Outcome State Fault Refusal :=
  .next (s.takeReturn src bill (some row))

/-- `REFUSAL_RECEIVE` (R126, R127). -/
def execRefusalReceive (src bill : Nat) (s : State) : Host.Outcome State Fault Refusal :=
  .next (s.takeReturn src bill none)

/-! ### Bay events -/

/-- `BAY_WAIT_SPILL` (R137): a claim that has waited 1 µs spills its row group, and those behind it may be met; one whose bays are
all held by now waits no more. -/
def bayWaitSpill (c l : Nat) (b : Bool) (g : Nat) (s : State) : State :=
  match (((s.ctx c).layer (layKey l b)).group g).waitFrom with
  | some t =>
    if s.holds c l b g then s.drainGroup c l b g
    else if t + 1000 ≤ s.now then serveClaims s.waitingClaims.length (s.spillGroup c l b g)
    else s
  | none => s

def execBayWaitSpill (c layer : Nat) (convoyB : Bool) (group : Nat) (s : State) : Host.Outcome State Fault Refusal :=
  .next (bayWaitSpill c layer convoyB group s)

/-- `RETURN_TIMEOUT_EXPIRY` (R140): the deadline of a sub-convoy has passed, of the step in flight or of a committed one whose
buffers stay live. -/
def returnTimeout (c l : Nat) (b : Bool) (dst index : Nat) (s : State) : State :=
  ((s.ctx c).lands.filter (fun z => z.layer == l && z.convoyB == b)).foldl (fun t z =>
    t.expire c z (fun o => o.dst == dst && o.index == index)) s

def execReturnTimeoutExpiry (c layer : Nat) (convoyB : Bool) (dst index : Nat) (s : State) :
    Host.Outcome State Fault Refusal := .next (returnTimeout c layer convoyB dst index s)

/-- `LANDING_BUFFER_FREE` (R125): one return timeout after the convoy layer completed. -/
def landingFree (c epoch l : Nat) (b : Bool) (s : State) : State :=
  match (s.ctx c).lands.find? (fun z => z.epoch == epoch && z.layer == l && z.convoyB == b && !z.quarantined) with
  | some z => (match z.from_ with
    | some t => if t + z.returnUs * 1000 < s.now then (s.expire c z (fun _ => true)).dropLand c z else s
    | none => s)
  | none => s

def execLandingBufferFree (c epoch layer : Nat) (convoyB : Bool) (s : State) : Host.Outcome State Fault Refusal :=
  .next (landingFree c epoch layer convoyB s)

/-- `QUARANTINE_EXPIRY` (R142). -/
def quarantineExpiry (c epoch l : Nat) (b : Bool) (s : State) : State :=
  match (s.ctx c).lands.find? (fun z => z.epoch == epoch && z.layer == l && z.convoyB == b && z.quarantined) with
  | some z => (match z.from_ with
    | some t => if t + z.returnUs * 1000 < s.now then (s.dropLand c z).bumpCtx c .quarantineExpiries 1 else s
    | none => s)
  | none => s

def execQuarantineExpiry (c epoch layer : Nat) (convoyB : Bool) (s : State) : Host.Outcome State Fault Refusal :=
  .next (quarantineExpiry c epoch layer convoyB s)

/-! ### Cancellation (R54, R141) -/

/-- Empties a slot of a convoy layer unless it has been handed back.  Its bays return with the hand-back of its row (R137). -/
def State.emptySlot (s : State) (c l : Nat) (b : Bool) (slot : Nat) : State :=
  let k := layKey l b
  if (((s.ctx c).layer k).slot slot).handed then s
  else
    s.onLayer c k (fun y => { (y.onSlot slot (fun r => { r with emptied := true, acc := [], planes := [] })) with
      queue := y.queue.filter (fun q => q.1.slot != slot) })

/-! ### Complete sets (R96, R168) -/

/-- A slot's entry was cancelled with a generation raise (R54). -/
def Ctx.gone (x : Ctx) (slot : Nat) : Bool := match x.man.entryOf slot with | some e => e.skipped | none => false

/-- Slots of a convoy, ascending. -/
def Ctx.slotList (x : Ctx) (b : Bool) : List Nat :=
  let v := x.man.slots b
  (List.range (v.2 - v.1)).map (· + v.1)

/-- Selection is complete for a convoy's layer: every slot selected or cancelled. -/
def Ctx.selectionDone (x : Ctx) (k : Nat) (b : Bool) : Bool :=
  (x.slotList b).all (fun n => (x.layer k).selected.contains n || x.gone n)

/-- A set whose waybills are all sealed: held while some of its experts are stalled (R168), else complete at the input of the sort
(R96). -/
def State.holdSet (s : State) (c k : Nat) (b : Bool) : State :=
  let x := s.ctx c
  let y := x.layer k
  if !(x.selectionDone k b && y.raw.isEmpty) then s
  else if y.stalled.isEmpty then
    if y.due.isSome || y.sorted then s else s.onLayer c k (fun y => { y with due := some s.now })
  else if y.stallFrom.isNone then
    (s.onLayer c k (fun y => { y with stallFrom := some s.now })).bumpCtx c .stalledSets 1
  else s

/-! ### Completion, fused pass and hand-back (R134, R144, R145) -/

/-- A slot is empty (R134). -/
def Slot.empty (r : Slot) : Bool := r.kept == 0 || popCount 16 r.dropMask == r.emitted || r.emptied

/-- A slot is complete: emptied, or sealed and empty or with every kept rank accounted and combined. -/
def Ctx.slotComplete (x : Ctx) (k slot : Nat) : Bool :=
  let y := x.layer k
  let r := y.slot slot
  let gone := match x.man.entryOf slot with | some e => e.skipped | none => false
  gone || r.emptied || (y.sorted && (r.empty || r.done == r.kept) && !y.queue.any (fun q => q.1.slot == slot))

/-- Multiplies a row by a factor. -/
def scaleRow (f : BitVec 32) (r : Row) : Row := r.map (fun a => Num.fmul a f)

/-- Sum of the accepted planes by rank (R130). -/
def Slot.sumPlanes (r : Slot) (cfg d : Nat) : Row :=
  (List.range 16).foldl (fun acc i =>
    match r.planes.find? (fun p => p.1 == i) with
    | some p =>
      let w := Num.widen (r.finalWeight cfg i r.dropMask)
      (List.range d).map (fun j => Num.fadd (acc.getD j 0#32) (Num.fmul w (p.2.getD j 0#32)))
    | none => acc) (List.replicate d 0#32)

/-- The final combine row: summed by rank in fixed-order mode, scaled after late drops in free mode (R130, R132). -/
def Slot.final (r : Slot) (fixed : Bool) (cfg d : Nat) : Row :=
  let acc := (List.range d).map (fun i => r.acc.getD i 0#32)
  if fixed then r.sumPlanes cfg d
  else if r.late then
    let sf := r.rest r.dropMask
    scaleRow (if sf = 0 then 0#32 else Num.fp32Ratio (r.rest r.sealDrops) sf) acc
  else acc

/-- BF16 elements of a vector in a buffer. -/
def State.vec16 (s : State) (h d : Nat) : List (BitVec 16) :=
  (List.range d).map (fun i => BitVec.ofNat 16 (ofLE (s.bufBytes h (2 * i) 2)))

/-- An element of a residual row as FP32: format 0 FP32, 1 BF16. -/
def residVal (fmt a : Nat) : BitVec 32 := if fmt = 0 then BitVec.ofNat 32 a else Num.widen (BitVec.ofNat 16 a)

/-- An element converted to a residual or hand-back format. -/
def outVal (fmt : Nat) (x : BitVec 32) : Nat := if fmt = 0 then x.toNat else (Num.narrow x).toNat

/-- Bytes of an element of a residual or hand-back row. -/
def outBytes (fmt : Nat) : Nat := if fmt = 0 then 4 else 2

/-- Address of a byte of a slot's residual row in the context's token staging (R145); where the row lies is left open (log entry
100). -/
def Ctx.residAt (x : Ctx) (c l slot i : Nat) : Option Nat :=
  let u := x.units.filter (fun a => bits a 54 3 == 0)
  let off := (64 * Config.residPlace c l slot + i) % (u.length * chunkBytes)
  u[off / chunkBytes]?.map (fun a => a + off % chunkBytes)

/-- Writes a slot's residual row where the compute dies read it. -/
def State.residWrite (s : State) (c l slot fmt : Nat) (row : List Nat) : State :=
  ((row.flatMap (fun v => toLE (outBytes fmt) v)).zipIdx).foldl (fun t z =>
    match (s.ctx c).residAt c l slot z.2 with
    | some a => t.writeAt a [z.1]
    | none => t) s

/-- The completion record of a convoy layer on every present port (R145, R417). -/
def State.completeLayer (s : State) (c l : Nat) (b : Bool) : State :=
  let x := s.ctx c
  let k := layKey l b
  let cv := x.convoy b
  let y := x.layer k
  let slots := (List.range (cv.2 - cv.1)).map (· + cv.1)
  if y.done || !slots.all (fun n => (y.slot n).handed) then s
  else
    let bad := countP (fun n => (y.slot n).degraded) slots
    let on (d : Nat) : Nat := countP (fun n => (y.hidden.find n).map (·.1) == some d) slots
    let s1 := ((List.range 4).filter (fun d => s.boot.diesUp.getD d false)).foldl (fun t d =>
      t.emit (.ucie d 0x4 c x.man.epoch l b 0 false (toLE 4 (on d) ++ toLE 4 bad))) s
    let s2 := (s1.onLayer c k (fun y => { y with done := true })).releaseSoft c k
    s2.onCtx c (fun x => { x with lands := x.lands.map (fun z =>
      if x.live z ∧ z.layer = l ∧ z.convoyB = b then { z with from_ := some s.now } else z) })

/-- `FUSED_PASS` (R144, R145): a complete slot, with its residual row present where the fused pass runs, is summed or
scaled, normalised and handed back to the die that sent its hidden row. -/
def fusedPass (c l : Nat) (b : Bool) (slot : Nat) (s : State) : State :=
  let x := s.ctx c
  let k := layKey l b
  let y := x.layer k
  let r := y.slot slot
  let cv := x.convoy b
  match x.steps.man, y.hidden.find slot with
  | some m, some (die, _) =>
    let g := (x.boundRoute.layer l).comb
    let fused := combFused g
    if !(decide (cv.1 ≤ slot ∧ slot < cv.2) && x.slotComplete k slot && !r.handed
        && (!fused || (y.resid.find slot).isSome)) then s
    else
      let d := x.share.dModel
      let gone := match m.entryOf slot with | some e => e.skipped | none => false
      let empty := r.empty || gone
      let acc := if empty then List.replicate d 0#32 else r.final m.fixed (x.cfgOf l) d
      let res := ((y.resid.find slot).map (·.2)).getD []
      let h := (List.range d).map (fun i =>
        let v := residVal (combResid g) (res.getD i 0)
        if empty then v else Num.fadd v (acc.getD i 0#32))
      let n := Sfn.normalise x.sfnRev h (combVar g) (BitVec.ofNat 32 (combEps g)) (s.vec16 (combGamma g) d)
        (if combBeta g = 0 then List.replicate d 0#16 else s.vec16 (combBeta g) d)
      let row := if fused then n.1 else acc
      let body := (row.map (fun v => toLE (outBytes (combOut g)) (outVal (combOut g) v))).flatten
      let upd := h.map (outVal (combResid g))
      let s0 := s.onLayer c k (fun y => { (y.onSlot slot (fun r => { r with
          summed := true, handed := true, acc := acc, planes := [] })) with
        resid := if fused then y.resid.adjust slot (fun z => (z.1, upd)) else y.resid })
      let s1 := if fused then s0.residWrite c l slot (combResid g) upd else s0
      let s2 := (s1.bumpCtx c .renormSlots (b2n (r.dropMask != 0))).bumpCtx c .normClamps (b2n (fused && n.2))
      let s3 := if !empty && (m.fixed || r.late) then s2.ownStrings c false true else s2
      ((s3.emit (.ucie die 0x3 c m.epoch l b slot false body)).freeRow c l b slot).completeLayer c l b
  | _, _ => s

def execFusedPass (c layer : Nat) (convoyB : Bool) (slot : Nat) (s : State) : Host.Outcome State Fault Refusal :=
  .next (fusedPass c layer convoyB slot s)

end Sys2Proof.Machine
end

