-- ==== Sys2Proof/Machine/LayoutEng.lean ====
section
/-! DEFINITION. The Layout Engine (10 R212 to R226): descriptors, checks, iteration, conversion, collisions, completion. -/

namespace Sys2Proof.Machine

/-! ### Descriptors (Table 10-1) -/

/-- A layout descriptor. -/
structure Desc where
  handle : Nat
  offset : Nat
  fmt    : Nat
  raw    : Bool
  /-- Element bits: 4, 8, 16 or 32. -/
  ebits  : Nat
  plane  : Bool
  dims   : Nat
  pad    : Nat
  strides : List Int
  extents : List Nat
  /-- A reserved field is nonzero. -/
  reserved : Bool
deriving DecidableEq, Repr

/-- Reads a descriptor word. -/
def Desc.read (w : Nat) : Desc :=
  { handle := bits w 0 32, offset := bits w 32 48, fmt := bits w 80 5, raw := bit w 85, ebits := 4 * 2 ^ bits w 86 2
    plane := bit w 88, dims := bits w 89 3, pad := bits w 96 32
    strides := (List.range 5).map (fun d => signed 40 (bits w (128 + 72 * d) 40))
    extents := (List.range 5).map (fun d => bits w (168 + 72 * d) 32)
    reserved := bits w 92 4 != 0 || bits w 488 24 != 0 }

def Desc.stride (d : Desc) (i : Nat) : Int := d.strides.getD i 0
def Desc.extent (d : Desc) (i : Nat) : Nat := d.extents.getD i 0

/-- An element plane of an MX or KV4S format. -/
def Desc.block (d : Desc) : Bool := !d.raw && !d.plane && (Num.codeMx d.fmt || d.fmt == 0x0B)

/-- Elements of a block: 32 for MX formats, 16 for KV4S (R220). -/
def Desc.blockLen (d : Desc) : Nat := if d.fmt = 0x0B then 16 else 32

/-- Whole three-byte groups of packed 6-bit elements (R34, R213). -/
def Desc.wholeGroups (d : Desc) : Bool := d.strides.headD 0 == 1 && d.extents.headD 0 % 3 == 0 && d.offset % 3 == 0

/-- The format cases of R213.  That a raw 8-bit descriptor moves an MXFP6 element plane is open: it names no format (log entry 112). -/
def Desc.caseOk (d : Desc) : Bool :=
  if d.raw then d.fmt == 0 && !d.plane && (d.ebits != 8 || d.wholeGroups || !Config.mxfp6Plane d.handle)
  else if d.plane then
    ([0x04, 0x05, 0x08, 0x09, 0x0A].contains d.fmt && d.ebits == 8) || (d.fmt == 0x0B && d.ebits == 16)
  else
    [0x00, 0x01, 0x02, 0x03, 0x04, 0x05, 0x08, 0x09, 0x0A, 0x0B, 0x0C].contains d.fmt && d.ebits == Num.codeBits d.fmt

/-- Element index of a position (R212). -/
def Desc.index (d : Desc) (is : List Nat) : Int :=
  (List.range d.dims).foldl (fun a i => a + (is.getD i 0 : Int) * d.stride i) (d.offset : Int)

/-- Lowest and highest element index of the whole extent; none where it holds no element (R224). -/
def Desc.bounds (d : Desc) : Option (Int × Int) :=
  if (List.range d.dims).any (fun i => d.extent i == 0) then none
  else some ((List.range d.dims).foldl (fun a i =>
    let span := d.stride i * ((d.extent i : Int) - 1)
    if span < 0 then (a.1 + span, a.2) else (a.1, a.2 + span)) ((d.offset : Int), (d.offset : Int)))

/-- The lowest dimension of stride 1 or -1. -/
def Desc.unit (d : Desc) : Option Nat := (List.range d.dims).find? (fun i => (d.stride i).natAbs == 1)

/-- Multi-index of a linear position, dimension 0 fastest. -/
def splitIndex : List Nat → Nat → List Nat
  | [], _ => []
  | e :: r, n => n % Nat.max 1 e :: splitIndex r (n / Nat.max 1 e)

/-! ### Commands (Table 10-2) -/

/-- A command with its descriptors as one generation of the table gives them. -/
structure LayCmd where
  src : Desc
  dst : Desc
  smap : Option Desc
  dmap : Option Desc
  sscale : Option Desc
  dscale : Option Desc
  op  : Nat
  check : Bool
  fixed : Bool
  ctx : Nat
  tallyEn : Bool
  tally : Nat
  lead : List Nat
  mul : Nat
  reserved : Bool
  /-- Map entries, source and destination, that the command's start read; none before it. -/
  mapped : Option (List Nat × List Nat)
deriving DecidableEq, Repr

/-- Reads a command against a layout table. -/
def LayCmd.read (t : Tbl Nat) (w : Nat) : LayCmd :=
  let d (lo : Nat) : Desc := Desc.read (t.getD (bits w lo 12) 0)
  let use (i lo : Nat) : Option Desc := if bit w (72 + i) then some (d lo) else none
  { src := d 0, dst := d 12, smap := use 0 24, dmap := use 1 36, sscale := use 2 48, dscale := use 3 60
    op := bits w 76 2, check := bit w 78, fixed := bit w 79, ctx := bits w 80 4, tallyEn := bit w 84
    tally := bits w 96 16, lead := (List.range 5).map (fun i => bits w (128 + 24 * i) 24), mul := bits w 256 32
    reserved := bits w 85 11 != 0 || bits w 112 16 != 0 || bits w 248 8 != 0 || bits w 288 32 != 0, mapped := none }

/-- Every named descriptor. -/
def LayCmd.named (k : LayCmd) : List Desc := [k.src, k.dst] ++ [k.smap, k.dmap, k.sscale, k.dscale].filterMap id

/-- Layout table of a generation that the context holds. -/
def Ctx.layAt (x : Ctx) (gen : Nat) : Tbl Nat :=
  if x.lay.gen = gen then x.lay.active else match x.lay.other with | .old t => t | _ => x.lay.active

/-- A queued command read against the generation it bound, with the map entries that its start read. -/
def Ctx.cmd (x : Ctx) (k : Cmd) : LayCmd := { LayCmd.read (x.layAt k.layGen) k.raw with mapped := k.maps }

/-- Iterated extents (R215). -/
def LayCmd.iter (k : LayCmd) : List Nat :=
  (List.range k.dst.dims).map (fun i =>
    match k.dmap with
    | some m => if i = 1 then m.extent 0 else k.dst.extent i
    | none => k.dst.extent i)

/-- Iteration count. -/
def LayCmd.count (k : LayCmd) : Nat := k.iter.foldl (· * ·) 1

/-! ### Elements in memory -/

/-- Element `e` of a buffer at `base`. -/
def State.elemAt (s : State) (base ebits e : Nat) : Nat :=
  if ebits = 4 then (s.byteAt (base + e / 2)).toNat / 16 ^ (e % 2) % 16 else s.numAt (base + e * ebits / 8) (ebits / 8)

/-- Writes element `e` of a buffer: no other element of its byte changes (R222). -/
def State.putElem (s : State) (base ebits e v : Nat) : State :=
  if ebits = 4 then
    let b := (s.byteAt (base + e / 2)).toNat
    s.writeAt (base + e / 2) [BitVec.ofNat 8 (setBits b (4 * (e % 2)) 4 v)]
  else s.writeAt (base + e * ebits / 8) (toLE (ebits / 8) v)

/-- Address of a descriptor's buffer. -/
def State.descBase (s : State) (d : Desc) : Nat := (s.slotOf d.handle).base

/-- Byte address of element `e` of a descriptor's buffer. -/
def State.elemAddr (s : State) (d : Desc) (e : Nat) : Nat := s.descBase d + e * d.ebits / 8

/-- Bounding byte range [from, to) of a descriptor; none where it holds no element. -/
def State.descRange (s : State) (d : Desc) : Option (Int × Int) :=
  d.bounds.map (fun b => ((s.descBase d : Int) + b.1 * (d.ebits : Int) / 8,
    (s.descBase d : Int) + ((b.2 + 1) * (d.ebits : Int) + 7) / 8))

/-- Two byte ranges share a byte. -/
def meet : Option (Int × Int) → Option (Int × Int) → Bool
  | some a, some b => decide (a.1 < b.2 ∧ b.1 < a.2)
  | _, _ => false

/-! ### Checks (R223) -/

/-- Entry `i` of an index map. -/
def State.mapAt (s : State) (m : Desc) (i : Nat) : Nat := s.elemAt (s.descBase m) 32 (m.index [i]).toNat

/-- Entry i of a command's source or destination map: as its start read it, else as memory holds it. -/
def State.entryAt (s : State) (k : LayCmd) (src : Bool) (m : Desc) (i : Nat) : Nat :=
  match k.mapped with
  | some z => (if src then z.1 else z.2).getD i 0xFFFFFFFF
  | none => s.mapAt m i

/-- The all-ones map entry. -/
def skipEntry : Nat := 0xFFFFFFFF

/-- Map of R217's form. -/
def Desc.mapForm (d : Desc) : Bool := d.raw && d.ebits == 32 && d.dims == 1

/-- A block descriptor against R220. -/
def Desc.blockBad (d : Desc) (scale : Option Desc) : Bool :=
  d.block && (d.stride 0 != 1 || d.offset % d.blockLen != 0 || d.extent 0 % d.blockLen != 0 ||
    match scale with | some z => z.fmt != d.fmt | none => true)

/-- An operator against its destination format (R219, R220). -/
def LayCmd.opBad (k : LayCmd) : Bool :=
  k.op != 0 && (k.dst.raw || k.dst.block || k.dst.plane ||
    !((k.op == 1 && k.dst.fmt == 0) || (k.op == 2 && k.dst.fmt == 1) || (k.op == 3 && decide (k.dst.fmt ≤ 1))))

/-- Indices along dimension 1 at which a source map entry is reached. -/
def LayCmd.mapReach (k : LayCmd) (m : Desc) : List Nat :=
  if k.count = 0 then []
  else (List.range (k.iter.getD 1 0)).filterMap (fun i =>
    if k.lead.getD 1 0 ≤ i ∧ i - k.lead.getD 1 0 < m.extent 0 then some (i - k.lead.getD 1 0) else none)

/-- A map entry that R217 rejects. -/
def State.mapBad (s : State) (m : Desc) (lim : Nat) (reach : List Nat) : Bool :=
  reach.any (fun i => s.mapAt m i != skipEntry && decide (lim ≤ s.mapAt m i))

/-- Reach beyond the handle's extent (R224). -/
def State.descOut (s : State) (d : Desc) : Bool :=
  match d.bounds with
  | none => false
  | some b => decide (b.1 < 0 ∨ ((s.slotOf d.handle).extent * 8 : Int) < (b.2 + 1) * (d.ebits : Int))

/-- What the checks of R223 say of a command: rejected, nothing to do, or go. -/
inductive Verdict where
  | bad (st : Status) | zero | go
deriving DecidableEq, Repr

/-- Checks 1 to 6 of R223, in order; `own` says whether the sender owns the command's context. -/
def State.layFields (s : State) (c : Nat) (own : Bool) (k : LayCmd) : List (Bool × Status) :=
  let handles := k.named.map (fun d => s.handleBad c d.handle)
  let r (d : Option Desc) : Option (Int × Int) := d.bind s.descRange
  [(k.reserved || k.named.any (fun d => d.reserved), .format),
   (k.named.any (fun d => decide (d.dims = 0 ∨ 5 < d.dims) || !d.caseOk ||
      (List.range 5).any (fun i => decide (d.dims ≤ i) && (d.stride i != 0 || d.extent i != 0))), .format),
   (k.src.dims != k.dst.dims || k.src.raw != k.dst.raw || (k.src.raw && k.src.ebits != k.dst.ebits)
      || badScale32 k.mul || (k.src.raw && k.mul != 0x3F800000), .format),
   (k.opBad || k.src.blockBad k.sscale || k.dst.blockBad k.dscale
      || [k.sscale, k.dscale].any (fun z => match z with | some d => !d.plane | none => false)
      || [k.smap, k.dmap].any (fun z => match z with | some d => !d.mapForm || decide (k.dst.dims < 2) | none => false),
     .format),
   (!own, .denied)]
  ++ handles.filterMap (fun h => h.map (fun st => (true, st)))
  ++ [([r (some k.src), r k.smap, r k.sscale].any (fun a => meet a (r (some k.dst)) || meet a (r k.dscale))
      || meet (r k.dmap) (r (some k.dst)), .format)]

/-- Check 10 of R223 fails: a map entry against R217. -/
def State.mapsBad (s : State) (k : LayCmd) : Bool :=
  (match k.smap with | some m => s.mapBad m (k.src.extent 1) (k.mapReach m) | none => false)
  || (match k.dmap with | some m => s.mapBad m (k.dst.extent 1) (List.range (m.extent 0)) | none => false)

/-- Checks 1 to 9 of R223. -/
def State.layFirst (s : State) (c : Nat) (own : Bool) (k : LayCmd) : Verdict :=
  match firstBad (s.layFields c own k) with
  | some st => .bad st
  | none =>
    if k.count = 0 then .zero
    else if 2 ^ 48 < k.count ∨ k.named.any s.descOut then .bad .bounds
    else .go

/-- The checks of R223. -/
def State.layCheck (s : State) (c : Nat) (own : Bool) (k : LayCmd) : Verdict :=
  match s.layFirst c own k with
  | .go => if s.mapsBad k then .bad .bounds else .go
  | v => v

/-- The map entries that a command reaches, read before any write (R217). -/
def State.readMaps (s : State) (k : LayCmd) : List Nat × List Nat :=
  ((match k.smap with | some m => (List.range (Nat.min (m.extent 0) (k.iter.getD 1 0))).map (s.mapAt m) | none => []),
   (match k.dmap with | some m => (List.range (m.extent 0)).map (s.mapAt m) | none => []))

/-! ### Positions (R215, R216) -/

/-- What an iteration position does: nothing, a padding element, or source element `j` at destination element `e`. -/
inductive Pos where
  | skip
  | pad (e : Nat)
  | val (e j : Nat)
deriving DecidableEq, Repr

/-- Source element index of an iteration position; none for a padding position. -/
def State.srcIndex (s : State) (k : LayCmd) (is : List Nat) : Option Nat :=
  let n := k.src.dims
  let j (d : Nat) : Int := (is.getD d 0 : Int) - (k.lead.getD d 0 : Int)
  let inside (d lim : Nat) : Bool := decide (0 ≤ j d ∧ j d < (lim : Int))
  if !((List.range n).all (fun d => d == 1 || inside d (k.src.extent d))) then none
  else
    let js (f : Int → Nat) : List Nat := (List.range n).map (fun d => if d = 1 then f (j 1) else (j d).toNat)
    match k.smap with
    | some m =>
      if n ≤ 1 ∨ !inside 1 (m.extent 0) then none
      else
        let v := s.entryAt k true m (j 1).toNat
        if v = skipEntry then none else some (k.src.index (js (fun _ => v))).toNat
    | none =>
      if 1 < n ∧ !inside 1 (k.src.extent 1) then none else some (k.src.index (js Int.toNat)).toNat

/-- Iteration position n. -/
def State.position (s : State) (k : LayCmd) (n : Nat) : Pos :=
  let is := splitIndex k.iter n
  let row : Option Nat := match k.dmap with
    | some m => if s.entryAt k false m (is.getD 1 0) = skipEntry then none else some (s.entryAt k false m (is.getD 1 0))
    | none => some (is.getD 1 0)
  match row with
  | none => .skip
  | some r =>
    let e := (k.dst.index ((List.range k.dst.dims).map (fun d => if d = 1 then r else is.getD d 0))).toNat
    match s.srcIndex k is with
    | some j => .val e j
    | none => .pad e

/-! ### Values (R218 to R220) -/

/-- Element of a scale descriptor for block number `b`, by its own layout; none past its elements. -/
def Desc.scaleIndex (z : Desc) (b : Nat) : Option Nat :=
  let es := (List.range z.dims).map z.extent
  if b < es.foldl (· * ·) 1 then some (z.index (splitIndex es b)).toNat else none

/-- Scale of block `b` of a descriptor; a free value where the scale plane holds none. -/
def State.scaleOf (s : State) (z : Option Desc) (b : Nat) : Nat :=
  match z with
  | none => 0
  | some d =>
    match d.scaleIndex b with
    | some e => s.elemAt (s.descBase d) d.ebits e
    | none => s.free (2 ^ 78 + b) % 2 ^ d.ebits

/-- A plain element or a scale widened to FP32: a scale of KV4S is BF16, one of an MX format an exponent (R32, R213). -/
def Desc.plain (d : Desc) (x : Nat) : BitVec 32 :=
  if !d.plane then Num.cvtFrom d.fmt x
  else if d.fmt = 0x0B then Num.cvtFrom 0x01 x
  else if x = 0xFF then Num.nan32 else Num.to32 (.fin false 1 ((x : Int) - 127))

/-- An FP32 value as an MX scale: an exact power of two has its exponent and NaN 0xFF; the spec states no other, so it is the free
value given (log entry 113). -/
def toScale (v : BitVec 32) (open_ : Nat) : Nat :=
  match Num.v32 v with
  | .nan => 0xFF
  | .fin false m e =>
    let x := Num.valLog2 m e + 127
    if m = 2 ^ Nat.log2 m ∧ 0 ≤ x ∧ x ≤ 0xFE then x.toNat else open_ % 256
  | _ => open_ % 256

/-- Source element `j` widened to FP32, its block scale applied, and multiplied by `MUL` (R219). -/
def State.srcValue (s : State) (k : LayCmd) (j : Nat) : BitVec 32 :=
  let x := s.elemAt (s.descBase k.src) k.src.ebits j
  let v :=
    if k.src.block then
      let sc := s.scaleOf k.sscale (j / k.src.blockLen)
      if k.src.fmt = 0x0B then Num.to32 (Num.kvScaled (BitVec.ofNat 16 sc) x)
      else Num.to32 (Num.mxScaled sc (Num.elemVal k.src.fmt x))
    else k.src.plain x
  if k.mul = 0x3F800000 then v else Num.fmul v (BitVec.ofNat 32 k.mul)

/-- Pattern written at a position of a destination that is not a block format. -/
def State.scalarOut (s : State) (k : LayCmd) (j : Nat) : Nat :=
  if k.src.raw then s.elemAt (s.descBase k.src) k.src.ebits j
  else if !k.dst.plane then Num.cvtTo k.dst.fmt (s.srcValue k j)
  else if k.dst.fmt = 0x0B then Num.cvtTo 0x01 (s.srcValue k j)
  else toScale (s.srcValue k j) (s.free (2 ^ 77 + j))

/-- BF16 addition with one rounding (R41). -/
def addBf (a b : Nat) : Nat := (Num.narrow (Num.fadd (Num.widen (BitVec.ofNat 16 a)) (Num.widen (BitVec.ofNat 16 b)))).toNat

/-- The operators (R219). -/
def applyOp (op fmt old new : Nat) : Nat :=
  if op = 1 then (Num.fadd (BitVec.ofNat 32 old) (BitVec.ofNat 32 new)).toNat
  else if op = 2 then addBf old new
  else if fmt = 0 then (Num.fmax (BitVec.ofNat 32 old) (BitVec.ofNat 32 new)).toNat
  else (Num.narrow (Num.fmax (Num.widen (BitVec.ofNat 16 old)) (Num.widen (BitVec.ofNat 16 new)))).toNat

/-! ### Collisions (R221) -/

/-- Writers of one destination unit, in iteration order: whether each is padding, and what it writes. -/
structure Writers (α : Type) where
  at_  : Nat
  list : List (Bool × α)
deriving DecidableEq, Repr

/-- Collects writers by destination unit, units in order of first write. -/
def addWriter {α : Type} (e : Nat) (w : Bool × α) : List (Writers α) → List (Writers α)
  | [] => [⟨e, [w]⟩]
  | x :: r => if x.at_ = e then ⟨e, x.list ++ [w]⟩ :: r else x :: addWriter e w r

/-- The writer that an overwrite keeps: valid over padding; the last in fixed-order mode, any in free mode. -/
def Writers.winner {α : Type} (w : Writers α) (fixed : Bool) (pick : Nat) : Option α :=
  let v := w.list.filter (fun x => !x.1)
  let l := if v.isEmpty then w.list else v
  if fixed then l.getLast?.map (·.2) else l[pick % Nat.max 1 l.length]?.map (·.2)

/-- Takes elements of a list in an order that free values choose. -/
def freeOrder {α : Type} (f : Nat → Nat) : Nat → List α → List α
  | 0, l => l
  | n + 1, l =>
    match l[f n % Nat.max 1 l.length]? with
    | none => l
    | some x => x :: freeOrder f n (l.eraseIdx (f n % Nat.max 1 l.length))

/-! ### Running a command -/

/-- Positions of a command, in iteration order. -/
def State.positions (s : State) (k : LayCmd) : List Pos := (List.range k.count).map (s.position k)

/-- Writers of a destination that is not a block format. -/
def State.scalarWrites (s : State) (k : LayCmd) : List (Writers Nat) :=
  (s.positions k).foldl (fun l p => match p with
    | .skip => l
    | .pad e => if k.op = 0 then addWriter e (true, k.dst.pad % 2 ^ k.dst.ebits) l else l
    | .val e j => addWriter e (false, s.scalarOut k j) l) []

/-- FP32 value of a position that fills a block: padding enters as `PAD_VALUE` (R218). -/
def State.blockValue (s : State) (k : LayCmd) : Pos → BitVec 32
  | .val _ j => s.srcValue k j
  | _ => BitVec.ofNat 32 k.dst.pad

/-- A block converted: its scale and elements (R33, R36, nearest even). -/
def blockOut (fmt : Nat) (vs : List (BitVec 32)) : Nat × List Nat :=
  if fmt = 0x0B then
    let r := Num.kvBlock (vs.map Num.v32) none
    (r.1.toNat, r.2)
  else Num.mxBlock (if fmt = 0x09 then 0x08 else fmt) (vs.map Num.v32)

/-- Destination element of a position. -/
def Pos.dst : Pos → Option Nat
  | .skip => none
  | .pad e => some e
  | .val e _ => some e

/-- A position that writes a source value. -/
def Pos.valid : Pos → Bool
  | .val _ _ => true
  | _ => false

/-- Writers of a block destination: a unit is a block, named by its first element. -/
def State.blockWrites (s : State) (k : LayCmd) : List (Writers (Nat × List Nat)) :=
  let n := k.dst.blockLen
  (List.range (k.count / n)).foldl (fun l b =>
    let ps := (List.range n).map (fun i => s.position k (b * n + i))
    match (ps.head?).bind Pos.dst with
    | none => l
    | some e => addWriter e (!ps.any Pos.valid, blockOut k.dst.fmt (ps.map (s.blockValue k))) l) []

/-- Writes the result of a scalar unit. -/
def State.putScalar (s t : State) (k : LayCmd) (w : Writers Nat) : State :=
  let f (i : Nat) : Nat := s.free (w.at_ * 65536 + i)
  let base := s.descBase k.dst
  if k.op = 0 then
    match w.winner k.fixed (f 0) with
    | some v => t.putElem base k.dst.ebits w.at_ v
    | none => t
  else
    let l := w.list.map (·.2)
    let old := t.elemAt base k.dst.ebits w.at_
    t.putElem base k.dst.ebits w.at_
      ((if k.fixed then l else freeOrder f l.length l).foldl (applyOp k.op k.dst.fmt) old)

/-- Writes the result of a block unit: elements, then the scale. -/
def State.putBlock (s t : State) (k : LayCmd) (w : Writers (Nat × List Nat)) : State :=
  match w.winner k.fixed (s.free w.at_) with
  | none => t
  | some v =>
    let t1 := (List.range v.2.length).foldl (fun u i =>
      u.putElem (s.descBase k.dst) k.dst.ebits (w.at_ + i) (v.2.getD i 0)) t
    match k.dscale with
    | some z =>
      match z.scaleIndex (w.at_ / k.dst.blockLen) with
      | some e => t1.putElem (s.descBase z) z.ebits e v.1
      | none => t1
    | none => t1

/-- A destination unit has more than one writer. -/
def collided {α : Type} (l : List (Writers α)) : Bool := l.any (fun w => decide (1 < w.list.length))

/-- What a command did: whether writes collided, destination bytes, and the state. -/
structure LayDone where
  collision : Bool
  bytes : Nat
  state : State
deriving DecidableEq, Repr

/-- Every write of a command takes effect (R219 to R221). -/
def State.layRun (s : State) (k : LayCmd) : LayDone :=
  if k.dst.block then
    let l := s.blockWrites k
    ⟨collided l, ceilDiv (l.length * (k.dst.blockLen * k.dst.ebits + (if k.dst.fmt = 0x0B then 16 else 8))) 8,
      (l.foldl (fun t w => s.putBlock t k w) s).freed⟩
  else
    let l := s.scalarWrites k
    ⟨collided l, ceilDiv (l.length * k.dst.ebits) 8, (l.foldl (fun t w => s.putScalar t k w) s).freed⟩

/-- Every destination element that a command reaches becomes undefined, scale planes included (R228). -/
def State.layUndef (s : State) (k : LayCmd) : State :=
  let es := (s.positions k).filterMap Pos.dst
  let t := es.foldl (fun t e => t.putElem (s.descBase k.dst) k.dst.ebits e (s.free (2 * e) % 2 ^ k.dst.ebits)) s
  let t1 := match k.dscale with
    | some z => es.foldl (fun (u : State) e =>
        match z.scaleIndex (e / k.dst.blockLen) with
        | some i => u.putElem (s.descBase z) z.ebits i (s.free (2 * e + 1) % 2 ^ z.ebits)
        | none => u) t
    | none => t
  t1.freed

/-- Addresses of the elements, scales and map entries that a command reads, those that an accumulating operator reads at the
destination among them; a command of no iteration reads nothing (R215). -/
def State.layReads (s : State) (k : LayCmd) : List Nat :=
  if k.count = 0 then [] else
  let js := (s.positions k).filterMap (fun p => match p with | .val _ j => some j | _ => none)
  js.map (s.elemAddr k.src)
  ++ (match k.sscale with
      | some z => if k.src.block then js.filterMap (fun j => (z.scaleIndex (j / k.src.blockLen)).map (s.elemAddr z)) else []
      | none => [])
  ++ (match k.smap with | some m => (k.mapReach m).map (fun i => s.elemAddr m (m.index [i]).toNat) | none => [])
  ++ (match k.dmap with | some m => (List.range (m.extent 0)).map (fun i => s.elemAddr m (m.index [i]).toNat) | none => [])
  ++ (if k.op = 0 then [] else (s.positions k).filterMap (fun p => if p.valid then p.dst.map (s.elemAddr k.dst) else none))

/-! ### Completion (R226) -/

/-- The arrival value of a completion. -/
def layValue (st : Nat) (seen : Bool) (status : Nat) : Nat := packF [(0, 3, st), (8, 1, b2n seen), (16, 16, status)]

/-- The completion arrival at `TALLY`. -/
def State.layArrive (s : State) (k : LayCmd) (v : Nat) : State :=
  if k.tallyEn then (s.arrive k.tally s.board.pkgId v none).1 else s

/-- A command completes DONE with its effect (R226, R229). -/
def State.layDone (s : State) (c : Nat) (k : LayCmd) : State :=
  let r := if k.count = 0 then ⟨false, 0, s⟩ else s.layRun k
  let seen := k.check && r.collision
  let turn := match k.src.unit, k.dst.unit with | some a, some b => a != b | _, _ => false
  ((((r.state.bumpCtx c .layoutCmds 1).bumpCtx c .layoutBytes r.bytes).bumpCtx c .collisions (b2n seen)).bumpCtx c
    .transposeCmds (b2n (turn && k.count != 0))).layArrive k (layValue 2 seen 0)

/-- A command completes REJECTED. -/
def State.layReject (s : State) (c : Nat) (k : LayCmd) (status : Nat) : State :=
  (s.bumpCtx c .layoutRejects 1).layArrive k (layValue 5 false status)

/-- A command completes CANCELLED; where it had passed its checks its destination is undefined. -/
def State.layCancel (s : State) (c : Nat) (k : LayCmd) : State :=
  let s1 := if k.mapped.isSome ∨ s.layCheck c true k = .go then s.layUndef k else s
  (s1.bumpCtx c .layoutKills 1).layArrive k (layValue 3 false 0)

/-- A command completes FAULTED: `LAYOUT_UE` at an address (R226). -/
def State.layFault (s : State) (c : Nat) (k : LayCmd) (a : Nat) : State :=
  let s1 := if k.mapped.isSome ∨ s.layCheck c true k = .go then s.layUndef k else s
  ((s1.raise 0x807 0x0A 0 c 1 (addrDetail a)).bumpCtx c .layoutUe 1).layArrive k (layValue 4 false 0)

/-- The `PMP_LAYOUT_RUN` message of a context's oldest command whose response is still to come. -/
def State.layoutMsg (s : State) (c : Nat) : Option Msg :=
  s.host.msgs.find? (fun m => m.phase == .layoutWait && bits (m.num 0 40) 80 4 == c)

/-- Answers that message. -/
def State.layoutAnswer (s : State) (c : Nat) (st : Status) : State :=
  match s.layoutMsg c with
  | some m => s.complete m (owner m.op) st []
  | none => s

/-- Kills the commands of a context's queue from the first that a test picks (R228); a message that still waits for the checks of one
of them completes `ST_CANCELLED`. -/
def State.killCmds (s : State) (c : Nat) (p : Cmd → Bool) : State :=
  let x := s.ctx c
  let l := x.lanes.cmds
  let gone := l.dropWhile (fun k => !p k)
  let keep := l.takeWhile (fun k => !p k)
  let waiting := countP (fun (k : Cmd) => !k.running) gone
  let s1 := s.onCtx c (fun y => { y with lanes := { y.lanes with cmds := keep } })
  let s2 := s1.onWs x.lanes.layoutWs (fun q =>
    Ws.level { q with words := q.words.take (q.words.length - waiting), readPtr := (q.readPtr + waiting) % 2 ^ 32, releasePtr := (q.releasePtr + waiting) % 2 ^ 32 })
  gone.foldl (fun t k => (if k.answer then t.layoutAnswer c .cancelled else t).layCancel c (x.cmd k)) s2

end Sys2Proof.Machine
end

