-- ==== Sys2Proof/Machine/Units.lean ====
section
/-! DEFINITION. Ending units of work: launches, layout commands, steps and collectives, by completion or by a kill
(06 R142, 08 R187 and R191, 10 R228, 13 R296, 15 R327 to R329). -/

namespace Sys2Proof.Machine

/-! ### Addresses (R230, R231) -/

/-- Fields of an appliance address. -/
def aPkg (a : Nat) : Nat := bits a 57 7
def aKind (a : Nat) : Nat := bits a 54 3
def aOff (a : Nat) : Nat := bits a 0 54

/-- n bytes from an address of this package exist: a kind of Table 11-1 but MMIO, within its limit. -/
def State.exists_ (s : State) (a n : Nat) : Bool :=
  let o := aOff a
  match aKind a with
  | 0 => decide (o + n ≤ 0x6C000000)
  | 1 => decide (o + n ≤ 96 * gib)
  | 2 => decide (o % 2 ^ 52 + n ≤ s.dieLimit (o / 2 ^ 52))
  | 4 => decide (o + n ≤ s.farLimit)
  | _ => false

/-! ### Shares of lanes (R183, R230 to R232, R239) -/

/-- n bytes from an address of this package lie in a context's share of staging, T1, T2 or T4. -/
def State.inShare (s : State) (c a n : Nat) : Bool :=
  let o := a % 2 ^ 57
  let x := s.ctx c
  if !s.exists_ o n || s.inLent o n then false
  else if aKind o = 4 then
    decide (Config.farBase c ≤ aOff o ∧ aOff o + n ≤ Config.farBase c + x.share.t4Gib * gib)
  else x.units.contains (o / chunkBytes * chunkBytes) && x.units.contains ((o + n - 1) / chunkBytes * chunkBytes)

/-- n bytes from an address of another package lie below their kind's limit there, as far as this package knows it; a reserved kind
and kind 7 have no share (R230, R231). -/
def foreignFits (a n : Nat) : Bool :=
  match aKind a with
  | 0 => decide (aOff a + n ≤ 0x6C000000)
  | 1 => decide (aOff a + n ≤ 96 * gib)
  | 2 => (Config.peerDies (aPkg a)).testBit (aOff a / 2 ^ 52)
  | 4 => true
  | _ => false

/-- n bytes from an address meet a lot that this package has borrowed: only items that Seltos places lie there (R236). -/
def State.inBorrowed (s : State) (a n : Nat) : Bool :=
  s.ctxs.any (fun x => x.kv.lots.any (fun l => l.lender == aPkg a
    && decide (a % 2 ^ 57 < l.base % 2 ^ 57 + lotBytes ∧ l.base % 2 ^ 57 < a % 2 ^ 57 + n)))

/-- n bytes from an address of another package may lie in a context's shares there: this package is told no more. -/
def State.farShare (s : State) (c a n : Nat) : Bool := foreignFits a n && !s.inBorrowed a n && Config.foreignShare c a

/-- n bytes from an address lie in the shares of a context, on whatever package. -/
def State.anyShare (s : State) (c a n : Nat) : Bool :=
  if aPkg a = s.board.pkgId then s.inShare c a n else s.farShare c a n

/-! ### Launches (R187, R191) -/

/-- Changes the launches, kernels and commands of a context. -/
def State.onLanes (s : State) (c : Nat) (f : Lanes → Lanes) : State := s.onCtx c (fun x => { x with lanes := f x.lanes })

/-- A launch in flight. -/
def Ctx.launch (x : Ctx) (id : Nat) : Option Launch := x.lanes.launches.find? (fun l => l.id == id)

/-- Takes the strings of a launch out of the queues of posts and Waystations in which they wait. -/
def State.unqueue (s : State) (c id : Nat) : State :=
  let mine (w : Nat × Nat × Nat) : Bool := w.1 == c && w.2.1 == id
  let s1 := (s.posts.filter (fun e => e.2.waiters.any mine)).foldl (fun t e =>
    t.onPost e.1 (fun p => { p with waiters := p.waiters.filter (fun w => !mine w) })) s
  (s1.ws.filter (fun e => e.2.pushers.any mine)).foldl (fun t e =>
    t.onWs e.1 (fun q => { q with pushers := q.pushers.filter (fun w => !mine w) })) s1

/-- A launch leaves RUNNING or HELD for a state: its arrival at `TALLY` carries it, and its handle stays known until 1,024
later launches have completed (R187, Table 17-9). -/
def State.retireLaunch (s : State) (c : Nat) (l : Launch) (st : Nat) : State :=
  let s1 := s.onLanes c (fun y => { y with
    launches := y.launches.filter (fun x => x.id != l.id), known := ((l.id, st) :: y.known).take 1024 })
  if l.tallyEn then (s1.arrive l.tally s1.board.pkgId st none).1 else s1

/-! ### Cores (R172, R173) -/

/-- Resident strings of a logical core, with their launches. -/
def State.residents (s : State) (n : Nat) : List (Launch × Str) :=
  s.ctxs.flatMap (fun x => x.lanes.launches.flatMap (fun l =>
    (l.strs.filter (fun g => g.st == 1 && g.core == n)).map (fun g => (l, g))))

/-- Start of a logical core's scratch (Table 11-2). -/
def scratchBase (n : Nat) : Nat := addr 0 (0x10000000 + n * 0x100000)

/-- Logical core n. -/
def State.core (s : State) (n : Nat) : Core := s.cores.cores.getD n ⟨0, 3, 0⟩

/-- Changes logical core n. -/
def State.onCore (s : State) (n : Nat) (f : Core → Core) : State :=
  { s with cores := { s.cores with cores := updAt s.cores.cores n f } }

/-- The retirement of a logical core ends: the lowest working spare takes the number over clear scratch, or the entry
becomes ABSENT; the physical number is burnt into fuses (R173, R386). -/
def State.finishCore (s : State) (n : Nat) : State :=
  let p := (s.core n).phys
  let s1 := ({ s with
    fuses := { s.fuses with badCores := s.fuses.badCores ++ [p], retired := s.fuses.retired + 1 }
    cores := { s.cores with retired := s.cores.retired + 1 } }).raise p 0x04 0 0 3 (packF [(0, 10, p), (10, 9, n)])
  match minBy id s1.cores.spares with
  | none => s1.onCore n (fun k => { k with st := 3 })
  | some q =>
    let a := scratchBase n
    let s2 := { s1 with
      cores := { s1.cores with spares := s1.cores.spares.filter (fun x => x != q) }
      mem := s1.mem.filter (fun c => !decide (a ≤ c.1 ∧ c.1 < a + 0x100000)) }
    ((s2.onCore n (fun _ => ⟨q, 0, s.now⟩)).raise p 0x03 0 0 3 (packF [(0, 10, p), (10, 10, q)])).bumpFlt .spareSwaps 1

/-- Ends every retirement whose core holds no string any more. -/
def State.settleCores (s : State) : State :=
  if s.cores.cores.any (fun k => k.st == 1) then
    ((List.range s.cores.cores.length).filter (fun n => (s.core n).st == 1 && (s.residents n).isEmpty)).foldl
      State.finishCore s
  else s

/-- Every store of a string to another package is acknowledged (R244). -/
def State.storesDone (s : State) (g : Str) : Bool := g.sent.all s.acked

/-- A string stands ready at an END that a lane executes. -/
def Str.atEnd (g : Str) (code : List Nat) : Bool :=
  match code[g.pc]? with
  | some w => g.st == 1 && g.wait == .none && iOp w == 0xCA && !(g.lanes w).isEmpty
  | none => false

/-- The last END of a launch may meet a kill at this instant: every string left is ready to execute one (R187). -/
def State.endsNow (s : State) (c : Nat) (l : Launch) : Bool :=
  let code := (((s.ctx c).lanes.kernels.find l.kernel).map (·.code)).getD []
  l.dying.isNone && l.strs.all (fun g => s.storesDone g && (g.st == 2 || g.atEnd code))

/-- Memory after a launch that did not end DONE: the ranges that its arguments name hold undefined bytes, where they lie in the
context's own shares of this package (R187). -/
def State.undefineArgs (s : State) (c : Nat) : List Host.Cell :=
  ((Config.argRanges s.freeCtr).foldl (fun (t : State) r => (List.range r.2).foldl (fun u i =>
    if aPkg (r.1 + i) = s.board.pkgId ∧ s.inShare c (r.1 + i) 1 then
      u.writeAt ((r.1 + i) % 2 ^ 57) [BitVec.ofNat 8 (s.free (r.1 + i))] else u) t) s).mem

/-- A launch whose strings are gone completes: at once, or when their stores to other packages are acknowledged (R187, R244). -/
def State.finishLaunch (s : State) (c : Nat) (l : Launch) (st : Nat) : State :=
  if l.strs.all s.storesDone then s.retireLaunch c l st
  else s.onLanes c (fun y => { y with launches := y.launches.map (fun x =>
    if x.id = l.id then { x with dying := some st, strs := x.strs.map (fun g => { g with st := 2, regs := [], preds := [], tiles := [] }) }
    else x) })

/-- Killed launches whose stores are acknowledged by now complete. -/
def State.settleDying (s : State) : State :=
  (List.range 16).foldl (fun t c => ((t.ctx c).lanes.launches.filter (fun l => l.dying.isSome && l.strs.all t.storesDone)).foldl
    (fun u l => u.retireLaunch c l (l.dying.getD 3)) t) s

/-- Kills a launch into CANCELLED 3 or FAULTED 4: its strings are gone, and the layout commands that they pushed are killed with it
(R191, R228).  Where the last END may meet a kill into CANCELLED at this instant, which of the two is stamped first is open, and an
END that wins makes it DONE (R187, log entry 109). -/
def State.killLaunch (s : State) (c id st : Nat) : State :=
  match (s.ctx c).launch id with
  | none => s
  | some l =>
    if l.dying.isSome then s
    else if st = 3 ∧ s.endsNow c l ∧ s.free (2 ^ 62) % 2 = 1 then (s.freed.retireLaunch c l 2).settleCores
    else
      let n := countP (fun (g : Str) => g.st != 2) l.strs
      let s1 := ((s.unqueue c id).bumpCtx c .stringsKilled n).killCmds c (fun k => k.launch == some id)
      (({ s1 with mem := s1.undefineArgs c }).freed.finishLaunch c l st).settleCores

/-- Physical core under a string. -/
def State.physOf (s : State) (c id i : Nat) : Nat :=
  let g := ((s.ctx c).launch id).bind (fun l => l.strs[i]?)
  ((s.cores.cores[(g.map (·.core)).getD 0]?).map (·.phys)).getD 0

/-- A string fault (R191): its launch is killed with cause fault, and a C1 `STRING_FAULT` tears the context down. -/
def State.stringFault (s : State) (c id i : Nat) : State :=
  match (s.ctx c).launch id with
  | none => s
  | some l =>
    let s1 := (s.onStr c id i (fun g => { g with st := 2 })).bumpCtx c .stringFaults 1
    (s1.killLaunch c id 4).raise (s.physOf c id i) 0x07 1 c 3 (packF [(0, 32, id), (32, 16, l.kernel)])

/-! ### Steps (R55, R122, R142) -/

/-- Messages held during a boundary may be taken again, in stamp order (R45). -/
def State.releaseHeld (s : State) (c : Nat) : State :=
  (s.host.msgs.filter (fun m => m.phase == .heldBoundary && m.num 0 1 == c)).foldl (fun t m => t.setPhase m .routed) s

/-- Destinations that hold a note of the step not yet answered in full. -/
def Ctx.unanswered (x : Ctx) : List Nat :=
  (x.layers.foldl (fun l e => e.2.subs.foldl (fun m u =>
    if u.injected && !u.waits.isEmpty && !m.contains u.dst then m ++ [u.dst] else m) l) [])

/-- The step's landing buffers enter quarantine; one without an EMPTY entry leaves it at once (R142). -/
def State.quarantine (s : State) (c : Nat) : State :=
  let mine := (s.ctx c).lands.filter (fun z => (s.ctx c).live z && !z.quarantined)
  let s1 := mine.foldl (fun t z => t.onLand c z (fun y => { y with quarantined := true, from_ := some s.now })) s
  mine.foldl (fun t z => t.checkQuarantine c z) (s1.bumpCtx c .quarantines mine.length)

/-- A feed's effect on a sequence outside the step in flight: a DECODE sequence's pending token heads the ring (R420). -/
def Seq.feedMoves (q : Seq) : Seq :=
  if q.st == .decode && !q.feed.isEmpty then
    { q with st := .prefill, feed := q.pendTok.toList ++ q.feed, pendTok := none }
  else q

/-- The input that a killed step had placed comes back to its sequence, which keeps its committed state (R55). -/
def State.restoreEntry (s : State) (e : Entry) : State :=
  if e.cancelled then s
  else s.onSeq e.seq (fun q =>
    if q.st == .decode then ({ q with pendTok := e.input.head? }).feedMoves
    else if q.st == .prefill then { q with feed := e.input ++ q.feed, stamps := e.taken ++ q.stamps }
    else q)

/-- What plans hold for the step in flight is dropped (R109, R113). -/
def State.endPlans (s : State) (c : Nat) : State :=
  let s1 := (s.ctx c).plans.requests.foldl State.khanDrop s
  s1.onCtx c (fun x => { x with plans := { x.plans with
    now := [], host := [], hostReserved := [], hist := [], pred := [], pairs := [], requests := [] } })

/-- The step in flight is killed: nothing commits, its epoch is retired, combine stops and bays return, its landing buffers
are quarantined, injection stops and retire notices go out (R55, R122, R142).  A boundary that waited to commit it is over: the
messages it held are taken (R45).  `RETIRE_PENDING` stands for the sequence's next commit (log entry 94). -/
def State.killStep (s : State) (c : Nat) : State :=
  match (s.ctx c).steps.man with
  | none => s
  | some m =>
    let ks := (s.ctx c).layers.keys
    let s1 := ks.foldl (fun t k => (t.freeBays c k).releaseSoft c k) s
    let s2 := (s.ctx c).unanswered.foldl (fun t d => t.sendOpen d 0x03 c [m.epoch] []) (s1.quarantine c)
    let s3 := m.entries.foldl State.restoreEntry (s2.endPlans c)
    let s4 := (s3.onCtx c (fun x => { x with
      layers := []
      steps := { x.steps with man := none, stalled := false, killedMask := x.steps.killedMask ||| 2 ^ m.epoch } })).bumpCtx c .stepsKilled 1
    let s5 := if (s.ctx c).layers.any (fun e => e.2.predRun) then s4.ownKilled c else s4
    if (s.ctx c).steps.stalled then s5.releaseHeld c else s5

/-! ### Collectives (R292, R296) -/

/-- Group of a context. -/
def Ctx.group (x : Ctx) (g : Nat) : Option CollGroup := x.groups.find? (fun y => y.id == g)

/-- A collective in flight. -/
def Ctx.coll (x : Ctx) (g id : Nat) : Option Coll := x.colls.find? (fun k => k.info.group == g && k.info.collId == id)

/-- Changes a collective. -/
def State.onColl (s : State) (c g id : Nat) (f : Coll → Coll) : State :=
  s.onCtx c (fun x => { x with colls := x.colls.map (fun k =>
    if k.info.group = g ∧ k.info.collId = id then f k else k) })

/-- Member count and this package's index in a group. -/
def CollGroup.count (g : CollGroup) : Nat := g.members.length
def CollGroup.indexOf (g : CollGroup) (pkg : Nat) : Nat := g.members.findIdx (fun p => p == pkg)

/-- Elements of this member's output (Table 13-9, R295). -/
def CollRec.outCount (r : CollRec) (g : CollGroup) (pkg : Nat) : Nat :=
  if r.op = 1 ∨ r.op = 4 then r.count
  else if r.op = 2 then r.count / Nat.max 1 g.count
  else if r.op = 3 then r.count * g.count
  else if r.op = 5 then (if r.root = pkg then r.count else 0)
  else g.count * r.count * r.nDim

/-- Planes of a tensor of a format, in order: bits of a unit, and the elements that a unit covers (R34, R36, Table 2-4). -/
def fmtPlanes (fmt : Nat) : List (Nat × Nat) :=
  if fmt = 0x09 then [(64, 32), (8, 32), (32, 32)]
  else if Num.codeMx fmt then [(Num.codeBits fmt, 1), (8, 32)]
  else if fmt = 0x0B then [(4, 1), (16, 16)]
  else [(Num.codeBits fmt, 1)]

/-- Bytes of a plane of n elements. -/
def unitBytes (p : Nat × Nat) (n : Nat) : Nat := ceilDiv (ceilDiv n p.2 * p.1) 8

/-- Bytes of n elements of a format. -/
def elemBytes (fmt n : Nat) : Nat := sumN ((fmtPlanes fmt).map (fun p => unitBytes p n))

/-- Releases what a collective holds: its bays to their sources, and its staging (R292, R296). -/
def State.releaseColl (s : State) (k : Coll) : State :=
  let bays := k.spareBays ++ k.open_.map (fun b => b.bay)
  let s1 := { s with
    floorUsed := s.floorUsed - countP (fun n => n == 0) bays, poolUsed := s.poolUsed - countP (fun n => n == 1) bays }
  (k.spareStaging ++ k.open_.map (fun b => b.staging)).foldl State.khanDrop s1

/-- Bytes of a buffer become undefined. -/
def State.undefine (s : State) (a n : Nat) : State :=
  (s.writeAt a ((List.range n).map (fun i => BitVec.ofNat 8 (s.free i)))).freed

/-- The launch message that waits for a collective's GO. -/
def State.joinMsg (s : State) (c g id : Nat) : Option Msg :=
  s.host.msgs.find? (fun m => m.phase == .joinWait && (let r := m.num 0 8
    bits r 12 4 == c && bits r 0 12 == g && bits r 32 32 == id))

/-- Answers the launch message of a collective. -/
def State.answerLaunch (s : State) (c g id : Nat) (st : Status) : State :=
  match s.joinMsg c g id with
  | some m =>
    (s.complete m (owner m.op) st []).bumpCtx c (if st = .ok then .collLaunched else .collBusy)
      (b2n (st = .ok || st = .busy))
  | none => s

/-- A launch is refused by an abort: everything admission held is released (R290). -/
def State.dropColl (s : State) (c g id : Nat) (st : Status) : State :=
  match (s.ctx c).coll g id with
  | none => s
  | some k =>
    let s1 := (s.releaseColl k).onCtx c (fun x => { x with
      colls := x.colls.filter (fun y => !(y.info.group == g && y.info.collId == id)) })
    s1.answerLaunch c g id st

/-- A collective completes on this member: DONE 2, CANCELLED 3 or FAULTED 4 (R296). -/
def State.endColl (s : State) (c g id st : Nat) : State :=
  match (s.ctx c).coll g id, (s.ctx c).group g with
  | some k, some grp =>
    let s0 := s.dropColl c g id (if st = 4 then .faulted else .cancelled)
    let n := elemBytes k.info.outFmt (k.info.outCount grp s.board.pkgId)
    let s1 := if st ≠ 2 ∧ n ≠ 0 ∧ (s.handleBad c k.info.outH).isNone then s0.undefine (s.slotOf k.info.outH).base n else s0
    let s2 := s1.onCtx c (fun x => { x with groups := x.groups.map (fun y =>
      if y.id = g then { y with finished := ((id, st) :: y.finished).take 256 } else y) })
    let s3 := s2.bumpCtx c (if st = 2 then .collDone else if st = 3 then .collKilled else .collFaulted) 1
    if k.info.tallyEn then (s3.arrive k.info.tally s3.board.pkgId st none).1 else s3
  | _, _ => s

/-- The 128-bit collective prefix. -/
def collPrefix (g id slab index ctl status : Nat) : Nat :=
  packF [(0, 12, g), (16, 32, id), (48, 16, slab), (64, 7, index), (72, 3, ctl), (75, 5, status)]

/-- Sends collective control to a member. -/
def State.sendCtl (s : State) (c dst g id slab index ctl status : Nat) : State :=
  s.sendMsg dst 0x12 c [g, id, slab, index, ctl, status] (toLE 16 (collPrefix g id slab index ctl status))

/-- A kill of a collective: an abort goes to every other member, and it completes CANCELLED here (R296). -/
def State.killColl (s : State) (c g id : Nat) : State :=
  match (s.ctx c).coll g id, (s.ctx c).group g with
  | some _, some grp =>
    let me := s.board.pkgId
    let s1 := (grp.members.filter (fun p => p != me)).foldl (fun t p =>
      t.sendCtl c p g id 0 (grp.indexOf me) 3 Status.cancelled.code) s
    s1.endColl c g id 3
  | _, _ => s

/-! ### All work of a context -/

/-- Kills a context's step, launches, layout commands and collectives (R327, R330). -/
def State.killWork (s : State) (c : Nat) : State :=
  let s1 := s.killStep c
  let s2 := (s1.ctx c).lanes.launches.foldl (fun t l => t.killLaunch c l.id 3) s1
  let s3 := s2.killCmds c (fun _ => true)
  (s3.ctx c).colls.foldl (fun t k => t.killColl c k.info.group k.info.collId) s3

end Sys2Proof.Machine
end

