-- ==== Sys2Proof/Machine/Kill.lean ====
section
/-! DEFINITION. Teardown of contexts and halts of partitions (15 R330 to R333), and what a restarting processor loses
(Table 16-9). -/

namespace Sys2Proof.Machine

/-- Working spares left (Table 8-2). -/
def State.coreSpares (s : State) : Nat := s.cores.spares.length

/-- Context that an open message names: a launch record of a collective holds it in its own place (Table 13-10). -/
def Msg.context (m : Msg) : Nat := if m.op = 0x0401 then bits (m.num 0 8) 12 4 else msgCtx m.payload

/-- A message that waits for something of its context. -/
def Phase.waits : Phase → Bool
  | .heldBoundary => true
  | .openWait _ => true
  | .reloadWait _ => true
  | .atFlip _ => true
  | .joinWait => true
  | .layoutWait => true
  | .residentWait _ _ => true
  | _ => false

/-- Completes every message that waits for a context. -/
def State.abortMsgs (s : State) (c : Nat) (st : Status) : State :=
  (s.host.msgs.filter (fun m => m.phase.waits && m.context == c)).foldl (fun t m => t.complete m (owner m.op) st []) s

/-! ### Teardown (R330) -/

/-- Sequence Table entries of a context's share are cleared, and its Tally Posts are IDLE. -/
def State.clearShares (s : State) (c : Nat) : State :=
  let h := (s.ctx c).share
  { s with
    seqs := s.seqs.drop (fun q _ => decide (h.seqFirst ≤ q ∧ q < h.seqFirst + h.seqCount))
    posts := (s.posts.mapV (fun t p =>
      if h.tpFirst ≤ t ∧ t < h.tpFirst + h.tpCount then { p with st := 0, waiters := [], late := [] } else p)).drop
        (fun _ p => decide (p = Post.fresh))
    ws := s.ws.drop (fun w _ => decide (h.wsFirst ≤ w ∧ w < h.wsFirst + h.wsCount)) }

/-- A frame passes to a new owner's pool on its die, or is evicted where the pool cannot hold it; the
entry of a secondary goes with its frame (R150, R330). -/
def State.passFrame (s : State) (j : Nat) (f : Frame) : State :=
  let g := (((s.ctx j).pool (2 + f.die)).freeBlocks 4).take (Nat.min f.granules.length ((s.ctx j).granOn 0x6 f.die))
  if g.length < f.granules.length ∨ f.st < 2 then
    if f.replica = 0 then s.bumpCtx j .evictFrames (b2n (decide (2 ≤ f.st)))
    else (s.guideAll j (.deactivate f.layer f.expert f.replica)).announce j f.layer f.expert f.replica
      ⟨s.board.pkgId, f.die, false, 8⟩
  else
    let s1 := { s with mem := granFill s.mem g (granCells s.mem f.granules) }
    s1.onCtx j (fun x =>
      let y := x.takeGranules 0x6 g
      { y with resid := { y.resid with frames := y.resid.frames ++ [{ f with granules := g }] } })

/-- Images that a context loaded pass to the lowest-numbered context that shares them (R330). -/
def State.passImages (s : State) (c : Nat) : State :=
  match (s.sharers c).filter (fun k => k != c) with
  | [] => s
  | j :: rest =>
    let r := (s.ctx c).resid
    let own (k : Nat) (t : State) : State := t.onCtx k (fun x => { x with
      model := x.model.map (fun m => { m with share := if k = j then none else some j }) })
    let s1 := (j :: rest).foldl (fun t k => own k t) s
    let s2 := s1.onResid j (fun q => { q with
      sources := r.sources, unread := r.unread, removals := r.removals, toAck := r.toAck, asked := r.asked, orders := r.orders
      fetches := q.fetches ++ r.fetches.map (fun f => { f with started := false, chunk := 0, copy := 2, tried := [] }) })
    r.frames.foldl (fun t f => t.passFrame j f) s2

/-- Tears a context down (R330, R332). -/
def State.tearDown (s : State) (c : Nat) : State :=
  if (s.ctx c).st ≠ .active then s
  else
    let s1 := (s.onCtx c (fun x => { x with st := .teardown })).abortMsgs c .unavailable
    let s2 := (s1.killWork c).clearShares c
    let s3 := (s2.ctx c).kv.lots.foldl (fun t l => t.sendOpen l.lender 0x31 c [0x12, l.base] []) s2
    let s4 := (s3.passImages c).sendGuide c [0xA] (s3.ctx c).resid.resident
    (s4.onCtx c (fun x => { Ctx.fresh with
      st := .teardown, share := x.share, tornAt := s.now, returnUs := x.returnUs
      rx := { Rx.fresh with areas := x.rx.areas }, resid := { Resid.fresh with resident := x.resid.resident } })).serveRx.bumpPart
        (s.ctx c).share.partition .teardowns 1

/-! ### Halts (R333) -/

/-- Contexts of a partition that are not FREE. -/
def State.ctxsOf (s : State) (p : Nat) : List Nat :=
  (List.range 16).filter (fun c => (s.ctx c).st != .free && (s.ctx c).share.partition == p)

/-- Halts a partition: its work is killed and nothing new starts in it (R333). -/
def State.haltPart (s : State) (p : Nat) : State :=
  if (s.part p).halted then s
  else
    let s1 := (s.onPart p (fun r => { r with halted := true })).bumpPart p .partHalts 1
    ((s.ctxsOf p).filter (fun c => (s.ctx c).st == .active)).foldl (fun t c => (t.killWork c).abortMsgs c .faulted) s1

/-- Kills every unit of every context (Table 18-7b). -/
def State.killAll (s : State) : State :=
  ((List.range 16).filter (fun c => (s.ctx c).st == .active)).foldl (fun t c => t.killWork c) s

/-- What a restarting processor loses: Caravan Master its moving averages (Table 16-9).  Steward's stage in progress is lost
where the restart is made; a merge of Guide is one act here, so none is incomplete. -/
def State.fwLost (n : Nat) (s : State) : State :=
  if n = fwCaravan then
    { s with ctxs := s.ctxs.map (fun x => { x with steps := { x.steps with lastSteps := [], lastSubs := [] } }) }
  else s

end Sys2Proof.Machine
end

