-- ==== Sys2Proof/Machine/Boot.lean ====
section
/-! DEFINITION. Power, resets, the boot choice, DICE and the training outcomes (19 R397 to R410, R415, R416; 01 R14). -/

namespace Sys2Proof.Machine

/-! ### Bundles (Table 16-10) -/

def bundleWord (b : List Byte) : Nat := numAt b 0 128
def bundleMagic (b : List Byte) : Nat := bits (bundleWord b) 0 32
def bundleRev (b : List Byte) : Nat := bits (bundleWord b) 32 32
def bundleIpc (b : List Byte) : Nat := bits (bundleWord b) 64 16
def bundleSec (b : List Byte) : Nat := bits (bundleWord b) 80 16
def bundleNum (b : List Byte) : Nat := bits (bundleWord b) 96 32
def bundleTotal (b : List Byte) : Nat := bits (bundleWord b) 128 32
def imgOffset (b : List Byte) (n : Nat) : Nat := bits (bundleWord b) (192 + 64 * n) 32
def imgBytes (b : List Byte) (n : Nat) : Nat := bits (bundleWord b) (224 + 64 * n) 32
def image (b : List Byte) (n : Nat) : List Byte := (b.drop (imgOffset b n)).take (imgBytes b n)

/-- Signature block and fused security minimum (R404, R405). -/
def State.bundleBootable (s : State) (b : List Byte) : Bool :=
  Config.signatureOk b && decide (s.fuses.secMin ≤ bundleSec b ∧ bundleSec b ≤ 64)

/-! ### Resets -/

/-- Candidate flashes: valid magic, by `PROVEN`, then `BOOT_EPOCH`, then A before B (R404). -/
def bootCands (fl : List Flash) : List Nat :=
  let key (i : Nat) : Nat := match fl[i]? with
    | some f => (if f.proven then 2 ^ 32 else 0) + f.epoch
    | none => 0
  sortBy (fun a b => decide (key b ≤ key a))
    ((List.range fl.length).filter (fun i => match fl[i]? with | some f => f.magic | none => false))

/-- Device reset (R402): the whole boot sequence runs again; fuses, the C4 latch, STOPPED_C4, `THERM_TRIP` and the
counters of Table 18-8 stay.  Flash is no state of the die.  The highest level since power-on stays (R393). -/
def State.deviceReset (s : State) (straps : Nat) : State :=
  let z := State.fresh s.fuses s.flashes (straps % 128)
  let cands := bootCands s.flashes
  { z with
    board := ⟨true, true, s.board.throttleN, straps % 128, straps % 128⟩
    boot := { z.boot with cands := cands, stage := if cands.isEmpty then .rom else .load }
    host := { z.host with linkUp := true }
    flt := { z.flt with
      latches := [none, none, none, none, s.flt.latches.getD 4 none]
      overLost := [false, false, false, false, s.flt.overLost.getD 4 false]
      thermTrip := s.flt.thermTrip
      endedC3 := if s.flt.dev = .stoppedC3 then some 0 else none
      ctr := s.flt.ctr }
    hlt := { z.hlt with levelMax := s.hlt.levelMax }
    freeCtr := s.freeCtr
    pending := s.pending
    out := s.out }

/-- In STOPPED_C4 a reset retrains only the PCIe link (R383, R402). -/
def State.relink (s : State) : State :=
  { s with board := { s.board with perstN := true }, host := { s.host with linkUp := true, d3hot := false } }

/-- `POWER_ON`: everything from reset values but fuses; the straps are sampled (R397, R399). -/
def powerOn (straps : Nat) (s : State) : State :=
  { State.fresh s.fuses s.flashes (straps % 128) with freeCtr := s.freeCtr, pending := s.pending, out := s.out }

def execPowerOn (straps : Nat) (s : State) : Host.Outcome State Fault Refusal := .next (powerOn straps s)

/-- `PWR_GOOD_FALL`: Seltos stops and keeps nothing but fuses (R399). -/
def powerFall (s : State) : State :=
  let z := powerOn s.board.straps s
  { z with board := { z.board with pwrGood := false } }

def execPwrGoodFall (s : State) : Host.Outcome State Fault Refusal := .next (powerFall s)

/-- A device reset, or a relink in STOPPED_C4. -/
def State.resetBy (s : State) (straps : Nat) : State :=
  if s.flt.dev = .stoppedC4 then s.relink else s.deviceReset straps

/-- `PERST_RELEASE` (R402). -/
def perstRelease (straps : Nat) (s : State) : State := if s.powered then s.resetBy straps else s

def execPerstRelease (straps : Nat) (s : State) : Host.Outcome State Fault Refusal := .next (perstRelease straps s)

/-- `HOT_RESET` (R402): received on a link that is out of `PERST#`. -/
def hotReset (straps : Nat) (s : State) : State :=
  if s.powered && s.board.perstN then s.resetBy straps else s

def execHotReset (straps : Nat) (s : State) : Host.Outcome State Fault Refusal := .next (hotReset straps s)

/-! ### Boot choice, DICE -/

/-- The input of M: the bundle header, the six image digests, the numerics digest, the security minimum (R410). -/
def measureInput (b : List Byte) (secMin : Nat) : List Byte :=
  b.take 128 ++ ((List.range 6).map (fun n => toLE 48 (Config.sha384 (image b n)))).flatten
  ++ toLE 48 (Config.sha384 (Config.numericsBlock b)) ++ [BitVec.ofNat 8 secMin]

/-- Boots a verified bundle: DICE runs, the UDS is locked, the DeviceID key erased, the six processors start and
training begins (R404, R407, R409, R410, Table 19-6). -/
def State.bootBundle (s : State) (f : Nat) (b : List Byte) : State :=
  let m := Config.sha384 (measureInput b s.fuses.secMin)
  { s with
    boot := { s.boot with
      stage := .train, flash := f, bundle := b, measM := m
      aliasKey := Config.aliasKey (Config.hkdf Config.uds m)
      udsLocked := true, deviceKeyErased := true, cands := [], fabricStart := s.now }
    fws := s.fws.map (fun w => { w with st := .running, imageRev := bundleRev b, bundle := b, lastService := s.now })
    upd := { s.upd with numerics := bundleNum b, traceMask := Config.traceDefaults b } }

/-- Records whether a flash's bundle passed R404. -/
def State.flashOk (s : State) (f : Nat) (ok : Bool) : State :=
  { s with boot := { s.boot with flashOk := updAt s.boot.flashOk f (fun _ => ok) } }

/-- `BUNDLE_LOAD_COMPLETE`: the first candidate's digest, signature and security version are checked; the ROM boots
it, tries the next flash, or enters recovery (R404, R405). -/
def bundleLoad (s : State) : State :=
  if !s.powered || !s.board.perstN || (s.boot.stage != .rom && s.boot.stage != .load) then s
  else
    match s.boot.cands with
    | [] => { s with boot := { s.boot with stage := .recovery } }
    | f :: r =>
      let d := s.flashes.getD f (Flash.empty 0)
      let ok := Config.sha384 d.bundle == d.digest && s.bundleBootable d.bundle
      let t := s.flashOk f ok
      if ok then t.bootBundle f d.bundle
      else { t with boot := { t.boot with cands := r, stage := if r.isEmpty then .recovery else .load } }

def execBundleLoadComplete (s : State) : Host.Outcome State Fault Refusal := .next (bundleLoad s)

/-- A flash that holds a bundle with a boot record (R403, R406). -/
def Flash.program (f : Flash) (b : List Byte) (epoch : Nat) (proven : Bool) : Flash :=
  { f with magic := true, epoch := epoch, proven := proven, bundleBytes := bundleTotal b,
           digest := Config.sha384 b, bundle := b }

/-- `RECOVERY_LEN_WRITE`: in RECOVERY the bundle in token staging is checked, written to both flashes and started, or
`RECOVERY_FAIL` is set; ignored in any other stage (R406, Table 19-7). -/
def recoveryLen (len : Nat) (s : State) : State :=
  if !s.barOn || s.boot.stage != .recovery then s
  else
    let b := s.bytesAt (addr 0 0x30000000) (len % 2 ^ 32)
    let t := { s with boot := { s.boot with recoveryLen := len % 2 ^ 32 } }
    if t.bundleBootable b then
      let u := { t with flashes := t.flashes.map (fun (f : Flash) => f.program b 1 true) }
      (((u.flashOk 0 true).flashOk 1 true).bootBundle 0 b)
    else { t with boot := { t.boot with recoveryFail := true } }

def execRecoveryLenWrite (len : Nat) (s : State) : Host.Outcome State Fault Refusal := .next (recoveryLen len s)

/-! ### Training -/

/-- Readiness (R408): both T1 stacks and a UCIe port trained, fabric training complete, Timebase ALIGNED. -/
def State.readyHolds (s : State) : Bool :=
  s.boot.hbmUp.all id && s.boot.diesUp.any id && s.boot.fabricDone && s.tb.st == .aligned

/-- `BOOT_STATUS.READY` and the `READY` pin rise when readiness holds. -/
def State.checkReady (s : State) : State :=
  if s.boot.stage == .train && s.flt.dev == .serving && s.readyHolds then
    { s with boot := { s.boot with ready := true, stage := .serving } }
  else s

/-- Enters `STAGE` FAILED (R408). -/
def State.bootFailed (s : State) : State := { s with boot := { s.boot with stage := .failed } }

/-- `UCIE_TRAIN_COMPLETE` (R14, R416): a port with fewer than 8 modules is absent; with no port trained C3 `NO_DIE`. -/
def ucieTrain (port modules dieBytes : Nat) (s : State) : State :=
  if !s.booted || decide (port ≥ 4) then s
  else
    let up := decide (8 ≤ modules)
    let s1 := { s with boot := { s.boot with
      diesUp := updAt s.boot.diesUp port (fun _ => up)
      dieDone := updAt s.boot.dieDone port (fun _ => true)
      modules := updAt s.boot.modules port (fun _ => Nat.min modules 16)
      dieBytes := updAt s.boot.dieBytes port (fun _ => if up then dieBytes else 0) } }
    let s2 := if up then s1 else s1.raise (0x720 + port) 0x25 0 0 3 port
    let s3 := if s2.boot.dieDone.all id && !s2.boot.diesUp.any id then
        (s2.raise (0x720 + port) 0x26 3 0 0 0).bootFailed
      else s2
    s3.checkReady

def execUcieTrainComplete (port modules dieBytes : Nat) (s : State) : Host.Outcome State Fault Refusal :=
  .next (ucieTrain port modules dieBytes s)

/-- `HBM_TRAIN_COMPLETE`: the stack trains with post-package repair, or C3 `HBM_STACK_FAIL` (R408, Table 18-6). -/
def hbmTrain (stack : Nat) (ok : Bool) (s : State) : State :=
  if !s.booted || decide (stack ≥ 2) then s
  else
    let s1 := { s with boot := { s.boot with
      hbmUp := updAt s.boot.hbmUp stack (fun _ => ok)
      hbmDone := updAt s.boot.hbmDone stack (fun _ => true)
      romPending := if ok then s.boot.romPending.filter (fun x => x != stack) else s.boot.romPending } }
    if ok then s1.checkReady else (s1.raise (0x730 + stack) 0x71 3 0 3 stack).bootFailed

def execHbmTrainComplete (stack : Nat) (ok : Bool) (s : State) : Host.Outcome State Fault Refusal :=
  .next (hbmTrain stack ok s)

/-- `CXL_TRAIN_COMPLETE`: the kind-4 limit follows from both ports (R415). -/
def cxlTrain (port : Nat) (ok : Bool) (bytes : Nat) (s : State) : State :=
  if !s.booted || decide (port ≥ 2) then s
  else
    ({ s with boot := { s.boot with
      cxlUp := updAt s.boot.cxlUp port (fun _ => ok)
      cxlDone := updAt s.boot.cxlDone port (fun _ => true)
      cxlBytes := updAt s.boot.cxlBytes port (fun _ => if ok then bytes else 0) } }).checkReady

def execCxlTrainComplete (port : Nat) (ok : Bool) (bytes : Nat) (s : State) : Host.Outcome State Fault Refusal :=
  .next (cxlTrain port ok bytes s)

/-- `T1_COPY_COMPLETE`: Steward keeps the verified bundle in T1 once HBM is trained (R407, R352). -/
def t1Copy (s : State) : State :=
  if s.booted && s.boot.hbmUp.all id then { s with boot := { s.boot with t1Copy := true } } else s

def execT1CopyComplete (s : State) : Host.Outcome State Fault Refusal := .next (t1Copy s)

end Sys2Proof.Machine
end

