-- ==== Sys2Proof/Machine/Mgmt.lean ====
section
/-! DEFINITION. Management links: MCTP on PCIe VDM and I3C, Prota over MCTP, SPDM and the test port
(19 R411, R414, R418; 16 R346). -/

namespace Sys2Proof.Machine

/-! ### MCTP -/

/-- Path 0 PCIe VDM, 1 I3C. -/
def State.path (s : State) (p : Nat) : MctpPath := s.host.paths.getD p ⟨0, none, []⟩

def State.onPath (s : State) (p : Nat) (f : MctpPath → MctpPath) : State :=
  { s with host := { s.host with paths := updAt s.host.paths p f } }

/-- A whole message: its type is the low 7 bits of its first byte; before an EID is assigned only control messages are
kept (R414). -/
def MctpPath.deliver (p : MctpPath) (src : Nat) (bytes : List Byte) : MctpPath :=
  let ty := (bytes.getD 0 0).toNat % 128
  if p.eid = 0 ∧ ty ≠ 0 then { p with asm := none }
  else if ty = 0x00 ∨ ty = 0x05 ∨ ty = 0x7E then { p with asm := none, ready := p.ready ++ [(src, ty, bytes.drop 1)] }
  else { p with asm := none }

/-- `MCTP_PACKET`: a packet of at most 64 bytes is assembled (R414; packet numbers as DSP0236). -/
def mctpPacket (path src tag seq : Nat) (som eom : Bool) (body : List Byte) (s : State) : State :=
  if !s.powered || !s.board.perstN || decide (path ≥ 2) || decide (body.length > 64) then s
  else
    let p := s.path path
    let have_ : Option (List Byte) :=
      if som then some body
      else
        match p.asm with
        | some (src', tag', seq', bytes, t) =>
          if src' = src ∧ tag' = tag ∧ seq' = seq % 4 ∧ s.now ≤ t + 100000000 then some (bytes ++ body) else none
        | none => none
    match have_ with
    | none => s
    | some bytes =>
      if eom then s.onPath path (fun q => q.deliver src bytes)
      else s.onPath path (fun q => { q with asm := some (src, tag, (seq + 1) % 4, bytes, s.now) })

def execMctpPacket (path src tag seq : Nat) (som eom : Bool) (body : List Byte) (s : State) :
    Host.Outcome State Fault Refusal := .next (mctpPacket path src tag seq som eom body s)

/-- `MCTP_REASSEMBLY_TIMEOUT`: a message whose next packet is more than 100 ms late is discarded (R414). -/
def mctpTimeout (path : Nat) (s : State) : State :=
  match (s.path path).asm with
  | some (_, _, _, _, t) => if t + 100000000 < s.now then s.onPath path (fun q => { q with asm := none }) else s
  | none => s

def execMctpReassemblyTimeout (path : Nat) (s : State) : Host.Outcome State Fault Refusal :=
  .next (mctpTimeout path s)

/-- `MCTP_SET_ENDPOINT_ID` (R414): 0x00 and 0xFF are no endpoint IDs (DSP0236). -/
def mctpSetEid (path eid : Nat) (s : State) : State :=
  if !s.booted || decide (path ≥ 2) then s
  else if eid = 0 ∨ eid ≥ 255 then s.emit (.mctpControl path 0x02)
  else (s.onPath path (fun q => { q with eid := eid })).emit (.mctpControl path 0x00)

def execMctpSetEndpointId (path eid : Nat) (s : State) : Host.Outcome State Fault Refusal :=
  .next (mctpSetEid path eid s)

/-- `I3C_ENTDAA`: the target takes the dynamic address the controller assigns (R414). -/
def i3cEntdaa (a : Nat) (s : State) : State :=
  if s.powered && s.board.perstN && decide (a < 128) then { s with host := { s.host with i3cAddr := a } } else s

def execI3cEntdaa (a : Nat) (s : State) : Host.Outcome State Fault Refusal := .next (i3cEntdaa a s)

/-- `MCTP_PROTA_MESSAGE`: the oldest assembled Prota message of a path is handled as a submit on the path's virtual
window, or completes `ST_BUSY` while the previous message is open (R346).  The PCI vendor ID takes the two bytes before
the header. -/
def mctpProta (path : Nat) (s : State) : State :=
  if !s.booted || decide (path ≥ 2) then s
  else
    match (s.path path).ready.find? (fun e => e.2.1 == 0x7E) with
    | none => s
    | some (src, ty, body) =>
      let s1 := s.onPath path (fun q => { q with ready := eraseFirst (fun e => decide (e = (src, ty, body))) q.ready })
      let raw := takeBytes (body.drop 2) 0 4096
      if (s1.win (256 + path)).owner then
        let h := Header.read raw
        let r : Header := ⟨h.op, Status.busy.code, 0, 0, h.sess, h.tag, h.major, h.minor, true, h.crcEn, 7, 0, s.now, 0, 0⟩
        (s1.emit (.mctp path src 0x7E r.write)).bump .mctpBusy 1
      else s1.takeRequest (256 + path) src raw

def execMctpProtaMessage (path : Nat) (s : State) : Host.Outcome State Fault Refusal := .next (mctpProta path s)

/-! ### SPDM -/

/-- Measurement blocks 1 to 11: (index, digest, second value) (Table 19-9). -/
def State.measurements (s : State) : List (Nat × Nat × Nat) :=
  let guide := (s.fw fwGuide).bundle
  [(1, Config.romDigest, 0)]
  ++ (List.range 6).map (fun n => (n + 2, Config.sha384 (image (s.fw n).bundle n), 0))
  ++ [(8, Config.sha384 (Config.numericsBlock guide), s.upd.numerics),
      (9, s.fuses.secMin, b2n s.fuses.production),
      (10, s.boot.measM, 0),
      (11, (s.upd.staged.map (fun b => Config.sha384 (b.take 128))).getD 0, 0)]

/-- Digest of what a response carries, which its signature covers. -/
def measureDigest (l : List (Nat × Nat × Nat)) : Nat :=
  Config.sha384 ((l.map (fun e => toLE 8 e.1 ++ toLE 48 e.2.1 ++ toLE 48 e.2.2)).flatten)

/-- The answer to a request, in the state of its transport (R411, Tables 19-8 and 19-9). -/
def State.spdmAnswer (s : State) (x : Spdm) : SpdmReq → Spdm × SpdmResp
  | .getVersion => (⟨0, false, false⟩, .version [0x12, 0x13])
  | .getCapabilities v =>
    if v = 0x12 ∨ v = 0x13 then (⟨v, true, false⟩, .capabilities true true true true 20) else (x, .error)
  | .negotiateAlgorithms base hash =>
    if x.capsDone ∧ bit base 7 ∧ bit hash 1 then ({ x with algDone := true }, .algorithms true true) else (x, .error)
  | .getDigests =>
    if x.algDone then (x, .digests (Config.sha384 (Config.certChain s.boot.aliasKey s.boot.measM))) else (x, .error)
  | .getCertificate slot off len =>
    let chain := Config.certChain s.boot.aliasKey s.boot.measM
    if x.algDone ∧ slot = 0 then
      (x, .certificate ((chain.drop off).take len) (chain.length - off - Nat.min len (chain.length - off)))
    else (x, .error)
  | .challenge slot nonce =>
    let d := Config.sha384 (Config.certChain s.boot.aliasKey s.boot.measM)
    if x.algDone ∧ slot = 0 then (x, .challengeAuth d (Config.spdmSign s.boot.aliasKey nonce d)) else (x, .error)
  | .getMeasurements index sign nonce =>
    let all := s.measurements
    let picked := if index = 0 then [] else if index = 0xFF then all else all.filter (fun e => e.1 == index)
    if !x.algDone || (picked.isEmpty && index != 0) then (x, .error)
    else (x, .measurements (if index = 0 then all.length else picked.length) picked
      (if sign then some (Config.spdmSign s.boot.aliasKey nonce (measureDigest picked)) else none))

/-- Steward answers on a transport. -/
def State.spdmReply (s : State) (t : Nat) (r : SpdmReq) : State :=
  let a := s.spdmAnswer (s.host.spdm.getD t ⟨0, false, false⟩) r
  ({ s with host := { s.host with spdm := updAt s.host.spdm t (fun _ => a.1) } }).emit (.spdm t a.2)

/-- An SPDM request arrives: answered by Steward, or kept while Steward restarts (R411). -/
def spdm (t : Nat) (r : SpdmReq) (s : State) : State :=
  if !s.booted || decide (t ≥ 3) then s
  else
    match (s.fw fwSteward).st with
    | .running => s.spdmReply t r
    | .restarting => { s with host := { s.host with spdmWait := s.host.spdmWait ++ [(t, r)] } }
    | _ => s

/-- Answers the SPDM requests that waited for Steward, in order. -/
def spdmDrain : List (Nat × SpdmReq) → State → State
  | [], s => s
  | (t, r) :: l, s => spdmDrain l (s.spdmReply t r)

def execSpdmGetVersion (t : Nat) (s : State) : Host.Outcome State Fault Refusal := .next (spdm t .getVersion s)

def execSpdmGetCapabilities (t version : Nat) (s : State) : Host.Outcome State Fault Refusal :=
  .next (spdm t (.getCapabilities version) s)

def execSpdmNegotiateAlgorithms (t base hash : Nat) (s : State) : Host.Outcome State Fault Refusal :=
  .next (spdm t (.negotiateAlgorithms base hash) s)

def execSpdmGetDigests (t : Nat) (s : State) : Host.Outcome State Fault Refusal := .next (spdm t .getDigests s)

def execSpdmGetCertificate (t slot off len : Nat) (s : State) : Host.Outcome State Fault Refusal :=
  .next (spdm t (.getCertificate slot off len) s)

def execSpdmChallenge (t slot nonce : Nat) (s : State) : Host.Outcome State Fault Refusal :=
  .next (spdm t (.challenge slot nonce) s)

def execSpdmGetMeasurements (t index : Nat) (sign : Bool) (nonce : Nat) (s : State) :
    Host.Outcome State Fault Refusal := .next (spdm t (.getMeasurements index sign nonce) s)

/-! ### Test port -/

/-- Signals of Table 19-1 as the boundary-scan register captures them. -/
def State.pins (s : State) : Nat :=
  flagWord [s.board.pwrGood, s.board.perstN, s.board.throttleN, s.thermTripN, s.alertN, s.readyPin]
  + s.board.straps * 64

/-- Puts a test instruction in force. -/
def State.tap (s : State) (i : TapInstr) (driving released : Bool) : State :=
  { s with host := { s.host with tap := { s.host.tap with instr := i, driving := driving, released := released } } }

/-- BYPASS: the one-bit register, which drives nothing (IEEE 1149.1). -/
def jtagBypass (s : State) : State := if s.powered then s.tap .bypass false false else s

def execJtagBypass (s : State) : Host.Outcome State Fault Refusal := .next (jtagBypass s)

/-- IDCODE: part 0x9600, version 0xB; the other fields are the BSDL file's (R418). -/
def idcode : Nat := packF [(0, 1, 1), (1, 11, Config.bsdlFields), (12, 16, 0x9600), (28, 4, 0xB)]

def jtagIdcode (s : State) : State := if s.powered then (s.tap .idcode false false).emit (.tdo idcode) else s

def execJtagIdcode (s : State) : Host.Outcome State Fault Refusal := .next (jtagIdcode s)

/-- SAMPLE/PRELOAD: the signals are captured and shifted out, the given pattern preloaded. -/
def jtagSample (pins : Nat) (s : State) : State :=
  if s.powered then
    let t := (s.tap .samplePreload false false).emit (.tdo s.pins)
    { t with host := { t.host with tap := { t.host.tap with boundary := pins } } }
  else s

def execJtagSamplePreload (pins : Nat) (s : State) : Host.Outcome State Fault Refusal := .next (jtagSample pins s)

/-- EXTEST, CLAMP and HIGHZ act only while `PERST#` is low; otherwise they act as BYPASS (R418). -/
def jtagOnlyInReset (i : TapInstr) (driving released : Bool) (s : State) : State :=
  if !s.powered then s
  else if s.board.perstN then s.tap .bypass false false
  else s.tap i driving released

def execJtagExtest (s : State) : Host.Outcome State Fault Refusal := .next (jtagOnlyInReset .extest true false s)

def execJtagClamp (s : State) : Host.Outcome State Fault Refusal := .next (jtagOnlyInReset .clamp true false s)

def execJtagHighz (s : State) : Host.Outcome State Fault Refusal := .next (jtagOnlyInReset .highz false true s)

end Sys2Proof.Machine
end

