-- ==== Sys2Proof/Machine/Firmware.lean ====
section
/-! DEFINITION. Firmware processors: watchdogs, restarts, failure, staged update and their messages
(16 R348 to R366). -/

namespace Sys2Proof.Machine

/-! ### Restarts -/

/-- A message whose effect stands although its response is still to come (R341 and the rules of its chapter). -/
def Phase.committed : Phase → Bool
  | .atFlip _ => true
  | .joinWait => true
  | .layoutWait => true
  | .freeWait => true
  | .residentWait _ _ => true
  | .openWait _ => true
  | _ => false

/-- Messages that a restart of processor n completes `ST_FW_RESTARTED` (R352). -/
def State.abortable (s : State) (n : Nat) (keep : Option Msg) : List Msg :=
  s.host.msgs.filter (fun m =>
    m.phase != .unrouted && !m.phase.committed && owner m.op == n && decide (keep ≠ some m))

/-- Completes messages with one status by one handler. -/
def completeAll (l : List Msg) (h : Nat) (st : Status) (s : State) : State :=
  l.foldl (fun t m => t.complete m h st []) s

/-- Begins a restart of processor n (R351, R352): its uncommitted messages complete, the restart is counted and
logged; the third counted one within 60 s makes it FAILED with C3 (R354). -/
def State.restart (s : State) (n cause : Nat) (keep : Option Msg) : State :=
  let s1 := completeAll (s.abortable n keep) n .fwRestarted s
  let s2 := State.fwLost n s1
  let counts := decide (1 ≤ cause ∧ cause ≤ 3)
  let s3 := s2.onFw n (fun f => { f with
    st := .restarting, cause := cause, restarts := (f.restarts + 1) % 2 ^ 32
    counted := if counts then s.now :: f.counted.filter (fun t => decide (s.now < t + 60000000000)) else f.counted })
  let s4 := if cause = 1 then s3.bumpFw n .watchdogExpiries 1 else s3
  let s5 := s4.raise (0x740 + n) 0x40 0 0 3 (n + 8 * cause)
  let s6 := { s5 with upd := { s5.upd with
    writing := if n = fwSteward then none else s5.upd.writing
    provingFrom := if s5.upd.activated.contains n then s.now else s5.upd.provingFrom } }
  if counts && decide (3 ≤ (s6.fw n).counted.length) then
    let s7 := (s6.onFw n (fun f => { f with st := .failed })).raise (0x740 + n) 0x41 3 0 3 n
    if n = fwSteward then completeAll (s7.host.msgs.filter (fun m => m.phase == .unrouted)) 7 .unavailable s7 else s7
  else s6

/-- `WATCHDOG_EXPIRY` (R351): the period has passed without service. -/
def watchdogExpiry (n : Nat) (s : State) : State :=
  let f := s.fw n
  if n < 6 ∧ f.st = .running ∧ f.lastService + f.watchdogMs * 1000000 ≤ s.now then s.restart n 1 none else s

def execWatchdogExpiry (n : Nat) (s : State) : Host.Outcome State Fault Refusal := .next (watchdogExpiry n s)

/-- `FWP_EXCEPTION` (R351): a processor exception, or an uncorrectable error in its own memory. -/
def fwpException (n : Nat) (memErr : Bool) (s : State) : State :=
  if n < 6 ∧ (s.fw n).st = .running then s.restart n (if memErr then 3 else 2) none else s

def execFwpException (n : Nat) (memErr : Bool) (s : State) : Host.Outcome State Fault Refusal :=
  .next (fwpException n memErr s)

/-! ### Activation -/

/-- Order of activation with equal `IPC_REV` (R358). -/
def actOrder : List Nat := [fwCaravan, fwGuide, fwQuarter, fwWayfinder, fwSteward, fwWarden]

def State.setAct (s : State) (a : ActSt) : State := { s with upd := { s.upd with st := a } }

/-- A deferral: `ACT_STATE` reads DEFERRED and the deferral counts (R361). -/
def State.defer (s : State) : State := (s.setAct .deferred).bump .actDeferrals 1

/-- The next step of an activation in progress: the condition of R360 is checked before each restart; Warden waits for
1 s at E0; after the last named processor the bundle is PROVING (R358 to R364). -/
def State.advance (s : State) (keep : Option Msg) : State :=
  match actOrder.find? (fun p => (s.fw p).actPending) with
  | none => { s with upd := { s.upd with st := .proving, provingFrom := s.now, current := none } }
  | some p =>
    if s.emergency then s.defer
    else if s.upd.unequal then s.setAct .waitE0
    else if p = fwWarden ∧ !s.calm then s.setAct .waitE0
    else
      let t := (s.setAct .activating).restart p 4 keep
      { t with upd := { t.upd with current := some p } }

/-- `ACTIVATION_RESUME` (R361): 100 ms with `EMERGENCY_ACTIVE` 0 and every quarter at E0 or E1. -/
def activationResume (s : State) : State :=
  if s.upd.st = .deferred ∧ (s.fw fwSteward).st = .running ∧ !s.emergency ∧ s.packageLevel ≤ 1 ∧
      s.upd.clearFrom + 100000000 ≤ s.now then s.advance none
  else s

def execActivationResume (s : State) : Host.Outcome State Fault Refusal := .next (activationResume s)

/-- All six processors restart together with cause activation (R358). -/
def State.restartAll (s : State) : State :=
  (s.setAct .activating).restart fwSteward 4 none |>.restart fwCaravan 4 none |>.restart fwGuide 4 none
    |>.restart fwWayfinder 4 none |>.restart fwQuarter 4 none |>.restart fwWarden 4 none

/-- `WAIT_E0_EXPIRY` (R358, R359): every quarter has been at E0 for 1 s. -/
def waitE0 (s : State) : State :=
  if s.upd.st = .waitE0 ∧ (s.fw fwSteward).st = .running ∧ s.calm ∧ !s.emergency then
    if s.upd.unequal then s.restartAll
    else
      let t := (s.setAct .activating).restart fwWarden 4 none
      { t with upd := { t.upd with current := some fwWarden } }
  else s

def execWaitE0Expiry (s : State) : Host.Outcome State Fault Refusal := .next (waitE0 s)

/-- The image that a restart of cause activation loads is the staged one (R358, R365). -/
def State.loadImage (s : State) (n : Nat) : State :=
  match s.upd.staged with
  | some b =>
    if (s.fw n).cause = 4 ∧ (s.fw n).actPending then
      let t := s.onFw n (fun f => { f with actPending := false, imageRev := bundleRev b, bundle := b })
      { t with upd := { t.upd with
        activated := if t.upd.activated.contains n then t.upd.activated else t.upd.activated ++ [n]
        numerics := if n = fwGuide then bundleNum b else t.upd.numerics } }
    else s
  | none => s

/-- Steward routes, in stamp order, what was stamped while it restarted, and answers the SPDM requests that waited
(R352, R411). -/
def State.stewardBack (s : State) : State :=
  let s1 := routeAll (s.host.msgs.filter (fun m => m.phase == .unrouted)) s
  spdmDrain s1.host.spdmWait { s1 with host := { s1.host with spdmWait := [] } }

/-- Port p. -/
def State.port (s : State) (p : Nat) : Port := s.fab.ports.getD p Port.fresh

/-- Changes port p. -/
def State.onPort (s : State) (p : Nat) (f : Port → Port) : State :=
  { s with fab := { s.fab with ports := updAt s.fab.ports p f } }

/-- Lowest-numbered up port to a package. -/
def State.portTo (s : State) (pkg : Nat) : Option Nat :=
  firstBelow 128 (fun i => (s.port i).up && (s.port i).peer == pkg)

/-- Aligning peer and port: the master over a direct port; else the lowest-numbered package whose last timestamp said
that it has one, or, where none has said so, the lowest-numbered peer (R305). -/
def State.alignChoice (s : State) : Option (Nat × Nat × Nat) :=
  match s.portTo s.tb.master with
  | some p => some (s.tb.master, p, 1)
  | none =>
    let cands := (List.range 128).filter (fun i => (s.port i).up)
    let told := cands.filter (fun i => match s.tb.echo.find i with | some e => e.2.2 == 1 | none => false)
    match minBy (fun i => (s.port i).peer) (if told.isEmpty then cands else told) with
    | some i => some ((s.port i).peer, i, 2)
    | none => none

/-- After link training: the master is ALIGNED at once, any other package is ACQUIRING (R304, R305).  A package whose
aligning port fails moves to the next candidate without leaving its state.  The choice waits until Wayfinder runs
(Table 16-9). -/
def State.realign (s : State) : State :=
  if (s.fw fwWayfinder).st ≠ .running then s
  else if s.tb.master = s.board.pkgId then
    { s with tb := { s.tb with st := .aligned, hops := 0, bound := 0, peer := s.board.pkgId } }
  else
    match s.alignChoice with
    | none => s
    | some (pk, p, h) =>
      { s with tb := { s.tb with peer := pk, port := p, hops := h
                                 st := if s.tb.st = .free then .acquiring else s.tb.st } }

/-- Wayfinder runs again: a choice of the aligning peer that waited for it is made (Table 16-9). -/
def State.wayfinderBack (s : State) : State :=
  let dark := decide (s.tb.master ≠ s.board.pkgId) && !(s.port s.tb.port).up
  if s.boot.fabricDone && (decide (s.tb.st = .free) || dark) then s.realign else s

/-- `FWP_RESTART_COMPLETE` (R352, R358): the processor is RUNNING; an activation proceeds once Steward runs. -/
def restartComplete (n : Nat) (s : State) : State :=
  if n < 6 ∧ (s.fw n).st = .restarting then
    let s1 := s.loadImage n
    let s2 := s1.onFw n (fun f => { f with st := .running, restartTick := s.now, lastService := s.now })
    let s3 := if n = fwSteward then s2.stewardBack else if n = fwWayfinder then s2.wayfinderBack else s2
    let s4 := if s3.upd.current = some n then { s3 with upd := { s3.upd with current := none } } else s3
    if s4.upd.st = .activating ∧ s4.upd.current = none ∧ (s4.fw fwSteward).st = .running ∧
        s4.fws.all (fun f => f.st != .restarting || f.cause != 4) then s4.advance none
    else s4
  else s

def execFwpRestartComplete (n : Nat) (s : State) : Host.Outcome State Fault Refusal := .next (restartComplete n s)

/-- `BUNDLE_PROVEN` (R364, R403): 60 s without a restart of an activated processor; the bundle becomes the boot choice
and raises the fused security minimum in the same act. -/
def bundleProven (s : State) : State :=
  match s.upd.staged with
  | some b =>
    if s.upd.st = .proving ∧ (s.fw fwSteward).st = .running ∧ s.upd.provingFrom + 60000000000 ≤ s.now ∧
        s.upd.activated.all (fun n => (s.fw n).st == .running) then
      { s with
        flashes := updAt s.flashes (1 - s.boot.flash) (fun f => { f with proven := true })
        fuses := { s.fuses with secMin := Nat.max s.fuses.secMin (bundleSec b) }
        upd := { s.upd with st := .none, staged := none, activated := [] } }
    else s
  | none => s

def execBundleProven (s : State) : Host.Outcome State Fault Refusal := .next (bundleProven s)

/-! ### Messages -/

/-- `PMP_FW_ACTIVATE` (R358, R361). -/
def fwActivate (a : List Nat) (m : Msg) (s : State) : Act :=
  match a, s.upd.staged with
  | [mask], some b =>
    let unequal := bundleIpc b != bundleIpc (s.fw fwSteward).bundle
    checked [(decide (mask ≥ 64), .format), (unequal && mask != 0x3F, .version)] s
      (let t := (onesOf 6 mask).foldl (fun u p => u.onFw p (fun f => { f with actPending := true })) s
       let u := { t with upd := { t.upd with unequal := unequal } }
       if mask = 0 then .ok s []
       else if u.emergency then .reply u.defer .deferred []
       else .ok (u.advance (some m)) [])
  | _, none => .no s .unavailable
  | _, _ => .no s .format

def execPmpFwActivate (w : Nat) (s : State) : Host.Outcome State Fault Refusal :=
  .next (commitMsg w 0x0701 (withReq [.u8] fwActivate) s)

/-- `PMP_FW_WITHDRAW` (R363): a restart under way finishes; with nothing pending nothing changes. -/
def fwWithdraw (_ : List Nat) (_ : Msg) (s : State) : Act :=
  if s.fws.any (·.actPending) then
    .ok (({ s with fws := s.fws.map (fun (f : Fwp) =>
      if f.st == FwSt.restarting && f.cause == 4 then f else { f with actPending := false }) }).setAct .staged) []
  else .ok s []

def execPmpFwWithdraw (w : Nat) (s : State) : Host.Outcome State Fault Refusal :=
  .next (commitMsg w 0x0702 (withReq [] fwWithdraw) s)

/-- Counter of Table 16-12 repeated for FWP0 to FWP5. -/
def State.perFw (s : State) (c : Ctr) : List (Fld × Nat) := s.fws.map (fun f => ctrFld f.ctr c)

/-- `PMP_FW_QUERY` (R358, Table 17-10). -/
def fwQuery (_ : List Nat) (_ : Msg) (s : State) : Act :=
  .ok s ([(.u64, s.fwSummary)] ++ s.fws.map (fun f => (.r 256, s.fwBlock f))
    ++ [(.r 1024, (s.upd.staged.map bundleWord).getD 0)]
    ++ s.perFw .msgsDone ++ s.perFw .msgsRestarted ++ s.perFw .watchdogExpiries
    ++ ctrFlds s.ctr [.winIgnored, .mctpBusy, .actDeferrals] ++ s.perFw .logOverwrites)

def execPmpFwQuery (w : Nat) (s : State) : Host.Outcome State Fault Refusal :=
  .next (commitMsg w 0x0703 (withReq [] fwQuery) s)

/-- `PMP_FWP_RESTART` (R356): for Warden deferred, doing nothing, unless every quarter was at E0 for 1 s. -/
def fwpRestart (a : List Nat) (m : Msg) (s : State) : Act :=
  match a with
  | [n] =>
    checked [(decide (n > 5), .bounds), ((s.fw n).st == .failed, .unavailable),
      (n == fwWarden && !s.calm, .deferred)] s
      (.ok (s.restart n 5 (some m)) [])
  | _ => .no s .format

def execPmpFwpRestart (w : Nat) (s : State) : Host.Outcome State Fault Refusal :=
  .next (commitMsg w 0x0704 (withReq [.u8] fwpRestart) s)

/-- `PMP_FWP_WATCHDOG` (R351). -/
def fwpWatchdog (a : List Nat) (_ : Msg) (s : State) : Act :=
  match a with
  | [n, ms] =>
    checked [(decide (n > 5), .bounds), (decide (ms < 10 ∨ 1000 < ms), .bounds)] s
      (.ok (s.onFw n (fun f => { f with watchdogMs := ms })) [])
  | _ => .no s .format

def execPmpFwpWatchdog (w : Nat) (s : State) : Host.Outcome State Fault Refusal :=
  .next (commitMsg w 0x0705 (withReq [.u8, .u16] fwpWatchdog) s)

/-- Reading a ring by sequence number (R349, R380): the next number to ask for, the number lost, the records that fit.
`kept` are the records kept, oldest first; `next` is the number the ring will write next. -/
def ringRead (kept : List (Nat × List Byte)) (next seq room : Nat) : Nat × Nat × List Byte :=
  if (seq + 2 ^ 32 - next) % 2 ^ 32 < 2 ^ 31 then (next, 0, [])
  else
    let oldest := (kept.head?.map (·.1)).getD next
    let age (x : Nat) : Nat := (next + 2 ^ 32 - x) % 2 ^ 32
    let lost := age seq - age oldest
    let from_ := kept.filter (fun e => decide (age e.1 ≤ age seq))
    let r := from_.foldl (fun (acc : Nat × List Byte × Bool) e =>
      if acc.2.2 && decide (acc.2.1.length + e.2.length ≤ room) then ((e.1 + 1) % 2 ^ 32, acc.2.1 ++ e.2, true)
      else (acc.1, acc.2.1, false)) (if lost = 0 then seq else oldest, [], true)
    (r.1, lost, r.2.1)

/-- Bytes of a log record (Table 16-8). -/
def LogRec.bytes (r : LogRec) : List Byte :=
  toLE 16 (packF [(0, 64, r.stamp), (64, 10, r.point), (74, 2, r.level), (80, 5, r.words.length), (96, 32, r.seq)])
  ++ (r.words.map (toLE 8)).flatten

/-- `PMP_LOG_READ` (R349). -/
def logRead (a : List Nat) (_ : Msg) (s : State) : Act :=
  match a with
  | [n, seq] =>
    checked [(decide (n > 5), .bounds)] s
      (let f := s.fw n
       let r := ringRead (f.log.map (fun e => (e.seq, e.bytes))) f.logSeq seq (4064 - 8)
       .reply s .ok (writeFields [(.u32, r.1), (.u32, r.2.1)] ++ r.2.2))
  | _ => .no s .format

def execPmpLogRead (w : Nat) (s : State) : Host.Outcome State Fault Refusal :=
  .next (commitMsg w 0x0710 (withReq [.u8, .u32] logRead) s)

/-- `PMP_TRACE_MASK` (R350). -/
def traceMask (a : List Nat) (_ : Msg) (s : State) : Act :=
  match a with
  | [lo, count, value] =>
    checked [(decide (lo + count > 1024), .bounds), (decide (value > 1), .format)] s
      (.ok { s with upd := { s.upd with
        traceMask := setBits s.upd.traceMask lo count (if value = 1 then 2 ^ count - 1 else 0) } } [])
  | _ => .no s .format

def execPmpTraceMask (w : Nat) (s : State) : Host.Outcome State Fault Refusal :=
  .next (commitMsg w 0x0711 (withReq [.u16, .u16, .u8] traceMask) s)

end Sys2Proof.Machine
end

