-- ==== Sys2Proof/Machine/Tiers.lean ====
section
/-! DEFINITION. Memory tiers: queries, hints, lending, eviction, far returns, memory messages between packages, transfers
of compute dies and expander timeouts (11 R230 to R244, 19 R415, R417), and the stage of a bundle (16 R357). -/

namespace Sys2Proof.Machine

/-- Detail of a `MEM_UE` (Table 18-2): type and field. -/
def State.ueDetail (s : State) (a : Nat) : Nat × Nat :=
  if aPkg a = s.board.pkgId then (1, addrDetail (a % 2 ^ 57))
  else (3, packF [(0, 41, a / 2 ^ 13), (41, 3, aKind a), (44, 7, aPkg a)])

/-- A poisoned read of a context (R234). -/
def State.memUe (s : State) (c a : Nat) : State :=
  let d := s.ueDetail a
  (s.bumpCtx c .memUe 1).raise 0x80A 0x08 0 c d.1 d.2

/-! ### Queries (R239) -/

/-- Bytes of lots in use by a context. -/
def State.lotsUsed (s : State) (c : Nat) : Nat := sumN ((s.ctx c).kv.lots.map (s.lotUsed c))

/-- Lots lent of a kind, and of a die of kind 2. -/
def State.lentOf (s : State) (kind die : Nat) : List Lent :=
  s.lend.lots.filter (fun l => aKind l.base == kind && (kind == 1 || bits l.base 52 2 == die))

/-- One record of `PMP_TIER_QUERY`. -/
def tierRec (limit share used evictable borrowed lent : Nat) : List (Fld × Nat) :=
  [(.u64, limit), (.u64, share), (.u64, used), (.u64, evictable), (.u32, borrowed), (.u32, lent)]

/-- `PMP_TIER_QUERY` (R231, R239).  No rule gives the T3 record a limit: it is a free value. -/
def tierQuery (c : Nat) (_ : List Nat) (_ : Msg) (s : State) : Act :=
  let x := s.ctx c
  let h := x.share
  let t1 := h.t1Mib * mib
  let d := s.draw
  let t2 (i : Nat) : List (Fld × Nat) :=
    tierRec (s.dieLimit i) (h.t2Mib.getD i 0 * mib) (x.pool (2 + i)).usedBytes
      (granule * sumN ((s.victims c i).map (fun v => match v.2.2 with
        | .frame l e k => ((x.resid.frame l e k).map (fun f => f.granules.length)).getD 0
        | .col n => countP (fun a => t2Pool a == 2 + i) (x.kv.col n).granules)))
      0 (s.lentOf 2 i).length
  .ok d.2 (tierRec 0x6C000000 (h.stagingMib * mib) (x.pool 0).usedBytes 0 0 0
    ++ tierRec (96 * gib) t1 (t1 - (x.pool 1).chunks.length * chunkBytes + (x.pool 1).usedBytes) 0 0 (s.lentOf 1 0).length
    ++ t2 0 ++ t2 1 ++ t2 2 ++ t2 3
    ++ tierRec d.1 (h.t3Lots * lotBytes) (s.lotsUsed c) 0 x.kv.lots.length 0
    ++ tierRec s.farLimit (h.t4Gib * gib) (s.t4Used c) 0 0 0)

def execPmpTierQuery (w : Nat) (s : State) : Host.Outcome State Fault Refusal :=
  .next (commitMsg w 0x0300 (withCtx [] tierQuery) s)

/-! ### Hints (R242) -/

/-- Columns of a context with granules on a die, and those of them that `KV_KEEP` covers. -/
def State.keepOn (s : State) (c d : Nat) (hints : List (Nat × Nat)) : Nat × Nat :=
  let on (k : Col) : Bool := k.granules.any (fun a => t2Pool a == 2 + d)
  let l := (s.ctx c).kv.cols.filter (fun e => e.2.far.isNone && on e.2)
  (l.length, countP (fun (e : Nat × Col) => (s.holders c e.1).any (fun q => hints.contains (q, 0x1))) l)

/-- The limit of `KV_KEEP` allows a set of hints: at most a quarter of the context's T2 columns on any die. -/
def State.keepFits (s : State) (c : Nat) (hints : List (Nat × Nat)) : Bool :=
  (List.range 4).all (fun d => let r := s.keepOn c d hints; decide (4 * r.2 ≤ r.1))

/-- Applies a sequence hint, or holds it; answers whether it is applied. -/
def State.seqHint (s : State) (c q kind : Nat) : Bool × State :=
  let k := (s.ctx c).kv
  let now := if k.hints.contains (q, kind) then k.hints else k.hints ++ [(q, kind)]
  if kind = 0x1 ∧ !s.keepFits c now then
    (false, s.onCtx c (fun x => { x with kv := { x.kv with
      heldHints := if k.heldHints.contains (q, kind) then k.heldHints else k.heldHints ++ [(q, kind)] } }))
  else
    (true, s.onCtx c (fun x => { x with kv := { x.kv with
      hints := now, heldHints := x.kv.heldHints.filter (fun h => h != (q, kind)) } }))

/-- Held hints are applied when their limit allows, lowest sequence first. -/
def State.applyHeld (s : State) (c : Nat) : State :=
  (sortBy (fun (a b : Nat × Nat) => decide (a.1 ≤ b.1)) (s.ctx c).kv.heldHints).foldl
    (fun t h => (t.seqHint c h.1 h.2).2) s

/-! ### Recall (R237) -/

/-- Items of a borrowed lot, oldest stamp first: sources, which bear none, then columns. -/
def State.lotCols (s : State) (c : Nat) (l : Borrowed) : List Nat :=
  (sortBy (fun (a b : Nat × Col) => decide (a.2.stamp ≤ b.2.stamp))
    ((s.ctx c).kv.cols.filter (fun e => e.2.far == some (.lot l.lender l.base)))).map (fun e => e.1)

/-- Where an item of n bytes of a recalled lot goes: a lot of another lender, or the own T4. -/
def State.movePlace (s : State) (c n lender : Nat) : Option FarPlace :=
  match (s.ctx c).kv.lots.find? (fun l => !l.recalled && l.lender != lender && decide (s.lotUsed c l + n ≤ lotBytes)) with
  | some l => if (s.ctx c).kv.noLend then (if s.t4Room c n then some .t4 else none) else some (.lot l.lender l.base)
  | none => if s.t4Room c n then some .t4 else none

/-- Moves columns out of a recalled lot as far as there is room. -/
def moveCols (c lender : Nat) : List Nat → State → State
  | [], s => s
  | n :: r, s =>
    match s.movePlace c (((s.ctx c).kv.col n).granules.length * granule) lender with
    | none => moveCols c lender r s
    | some p =>
      let t := s.onCtx c (fun x => x.onCol n (fun k => { k with far := some p }))
      moveCols c lender r (if p = .t4 then t.charge c (addr 4 0) (((s.ctx c).kv.col n).granules.length * granule) else t)

/-- Moves sources out of a recalled lot. -/
def moveSources (c : Nat) (l : Borrowed) : List Nat → State → State
  | [], s => s
  | k :: r, s =>
    match (s.ctx c).resid.sources.find k with
    | none => moveSources c l r s
    | some q =>
      match s.movePlace c (imageSpan (((s.ctx c).model.map (·.imageBytes)).getD 0)) l.lender with
      | none => moveSources c l r s
      | some p =>
        let place : Nat × Nat := match p with | .t4 => (s.board.pkgId, 4) | .lot a b => (a, b)
        moveSources c l r (s.onResid c (fun z => { z with
          sources := z.sources.adjust k (fun q => { q with pkg := place.1, kind := place.2 }) }))

/-- The borrower moves every item it can out of a lot. -/
def State.evacuate (s : State) (c : Nat) (l : Borrowed) : State :=
  let ks := ((s.ctx c).resid.sources.filter (fun e => e.2.pkg == l.lender && e.2.kind == l.base)).map (fun e => e.1)
  moveCols c l.lender (s.lotCols c l) (moveSources c l ks s)

/-- Marks a borrowed lot recalled and evacuates it. -/
def State.recallHere (s : State) (c lender base : Nat) : State :=
  match (s.ctx c).kv.lots.find? (fun l => l.lender == lender && l.base == base) with
  | none => s
  | some l =>
    (s.onCtx c (fun x => { x with kv := { x.kv with lots := x.kv.lots.map (fun m =>
      if m = l then { m with recalled := true } else m) } })).evacuate c l

/-- `PMP_MEM_HINT` (R8, R242): `CLEAR` removes the hints of the sequence it names and the context's `NO_LEND`. -/
def memHint (c : Nat) (a : List Nat) (_ : Msg) (s : State) : Act :=
  match a with
  | [q, kind] =>
    let h := (s.ctx c).share
    let seqKind := kind != 0x4
    checked [(decide (kind = 0 ∨ 0x5 < kind) || (seqKind && decide (2 ^ 17 ≤ q)), .format),
      (seqKind && decide (q < h.seqFirst ∨ h.seqFirst + h.seqCount ≤ q), .bounds)] s
      (if kind = 0x4 then
         let s1 := s.onCtx c (fun x => { x with kv := { x.kv with noLend := true } })
         .ok ((s1.ctx c).kv.lots.foldl (fun t l => t.recallHere c l.lender l.base) s1) [(.u8, 1)]
       else if kind = 0x5 then
         .ok ((s.onCtx c (fun x => { x with kv := { x.kv with
           hints := x.kv.hints.filter (fun e => e.1 != q), heldHints := x.kv.heldHints.filter (fun e => e.1 != q)
           noLend := false } })).applyHeld c) [(.u8, 1)]
       else
         let r := s.seqHint c q kind
         .ok r.2 [(.u8, b2n r.1)])
  | _ => .no s .format

def execPmpMemHint (w : Nat) (s : State) : Host.Outcome State Fault Refusal :=
  .next (commitMsg w 0x0301 (withCtx [.u32, .u8] memHint) s)

/-! ### Lending (R235 to R237) -/

/-- `PMP_LEND_CONFIG` (R235): what the new limits leave lent too much is recalled by `LOT_RECALL`. -/
def lendConfig (a : List Nat) (_ : Msg) (s : State) : Act :=
  match a with
  | [t1, t2, ms] =>
    checked [(decide (ms = 0 ∨ 1000 < ms), .bounds)] s
      (.ok { s with lend := { s.lend with lendT1 := t1, lendT2 := t2, recallMs := ms } } [])
  | _ => .no s .format

def execPmpLendConfig (w : Nat) (s : State) : Host.Outcome State Fault Refusal :=
  .next (commitMsg w 0x0302 (withReq [.u16, .u16, .u16] lendConfig) s)

/-- End of kind-1 memory that contexts and lots use: 8 GiB are the firmware's (R323). -/
def t1End : Nat := 88 * gib

/-- A 256 MiB lot of this package is free: aligned, within its memory, in no share, and not lent. -/
def State.lotFree (s : State) (base : Nat) : Bool :=
  let o := aOff base
  base % lotBytes == 0
  && (if aKind base = 1 then decide (o + lotBytes ≤ t1End)
      else aKind base == 2 && decide (o % 2 ^ 52 + lotBytes ≤ s.dieLimit (o / 2 ^ 52)))
  && !s.ctxs.any (fun x => x.units.any (fun u => decide (base ≤ u ∧ u < base + lotBytes)))
  && !s.lend.lots.any (fun l => l.base == base)

/-- Limit of the lots lent of a kind. -/
def Lending.limit (l : Lending) (kind : Nat) : Nat := if kind = 1 then l.lendT1 else l.lendT2

/-- `LOT_REQUEST` (R235, R236): at the lender the lot is granted within its limits; at the borrower the granted lot joins
the context within its T3 quota.  Lending waits while Quartermaster restarts (Table 16-9).  The asked package and the place of the lot are the sender's to name. -/
def lotRequest (lender borrower c base : Nat) (s : State) : State :=
  let own := s.board.pkgId
  if !s.booted ∨ 16 ≤ c ∨ lender = borrower ∨ (s.fw fwQuarter).st ≠ .running then s
  else if lender = own then
    if s.lotFree base ∧ (s.lentOf (aKind base) (bits base 52 2)).length < s.lend.limit (aKind base) then
      ({ s with lend := { s.lend with lots := s.lend.lots ++ [Lent.mk base borrower c none false] } }).sendOpen borrower
        0x31 c [0x10, base] []
    else s
  else if borrower = own then
    if (s.ctx c).st = .active ∧ (s.ctx c).mayBorrow ∧ s.bestLender = some lender
        ∧ !(s.ctx c).kv.lots.any (fun l => l.lender == lender && l.base == base) then s.borrow c lender base
    else s
  else s

def execLotRequest (lender borrower c base : Nat) (s : State) : Host.Outcome State Fault Refusal :=
  .next (lotRequest lender borrower c base s)

/-- The lot that a lender recalls next: the most recent one of a kind lent beyond its limit, else, when an allocation
waits, the most recent one of kind 1. -/
def State.nextRecall (s : State) : Option Lent :=
  let open_ := s.lend.lots.reverse.filter (fun l => l.recalled.isNone)
  match open_.find? (fun l =>
      let d := bits l.base 52 2
      decide (s.lend.limit (aKind l.base) < countP (fun x : Lent => x.recalled.isNone) (s.lentOf (aKind l.base) d))) with
  | some l => some l
  | none => if s.host.msgs.any (fun m => m.phase == .lotWait) then open_.find? (fun l => aKind l.base == 1) else none

/-- `LOT_RECALL` (R237): at the lender, its next lot is recalled; at the borrower, the lot's items move out, oldest
first, as far as other lots and T4 have room.  Recall waits while Quartermaster restarts (Table 16-9). -/
def lotRecall (lender c base : Nat) (s : State) : State :=
  if !s.booted ∨ 16 ≤ c ∨ (s.fw fwQuarter).st ≠ .running then s
  else if lender = s.board.pkgId then
    match s.nextRecall with
    | none => s
    | some l =>
      if l.base = base then
        ({ s with lend := { s.lend with lots := s.lend.lots.map (fun x =>
          if x = l then { x with recalled := some s.now } else x) } }).sendOpen l.borrower 0x31 l.ctx [0x11, base] []
      else s
  else s.recallHere c lender base

def execLotRecall (lender c base : Nat) (s : State) : Host.Outcome State Fault Refusal :=
  .next (lotRecall lender c base s)

/-- `RECALL_OVERDUE` (R237): the lender logs it once and keeps waiting. -/
def recallOverdue (base : Nat) (s : State) : State :=
  match s.lend.lots.find? (fun l => l.base == base && !l.logged
      && (match l.recalled with | some t => decide (t + s.lend.recallMs * 1000000 < s.now) | none => false)) with
  | none => s
  | some l =>
    let s1 := { s with lend := { s.lend with lots := s.lend.lots.map (fun x =>
      if x = l then { x with logged := true } else x) } }
    (s1.bumpCtx l.ctx .recallOverdue 1).raise 0x80A 0x24 0 l.ctx 3 l.borrower

def execRecallOverdue (base : Nat) (s : State) : Host.Outcome State Fault Refusal := .next (recallOverdue base s)

/-- Messages that waited for a lot are ready to be taken again (R237). -/
def State.wakeLotWait (s : State) : State :=
  { s with host := { s.host with
      msgs := s.host.msgs.map (fun m => if m.phase = .lotWait then { m with phase := .routed } else m) } }

/-- `LOT_RELEASE` (R237, R330): a borrower gives an empty lot up; at the lender the lot is free and what waited for it
goes on. -/
def lotRelease (lender c base : Nat) (s : State) : State :=
  if lender = s.board.pkgId then
    if s.lend.lots.any (fun l => l.base == base) then
      ({ s with lend := { s.lend with lots := s.lend.lots.filter (fun l => l.base != base) } }).wakeLotWait
    else s
  else
    match (s.ctx c).kv.lots.find? (fun l => l.lender == lender && l.base == base) with
    | none => s
    | some l =>
      if l.recalled ∧ s.lotUsed c l = 0 then
        ((s.onCtx c (fun x => { x with kv := { x.kv with lots := x.kv.lots.filter (fun m => m != l) } })).bumpCtx c
          .lotsRecalled 1).sendOpen lender 0x31 c [0x12, base] []
      else s

def execLotRelease (lender c base : Nat) (s : State) : Host.Outcome State Fault Refusal :=
  .next (lotRelease lender c base s)

/-! ### Eviction and return (R154, R240, R241) -/

/-- Every evictable item of a context, oldest first. -/
def State.allVictims (s : State) (c : Nat) : List (Nat × Nat × Victim) :=
  sortBy victimLe (((List.range 4).map (s.victims c)).flatten)

/-- `KV_EVICTION` (R240, R419): the pending request of a context is served from the items of its T2 shares; what the lender that
it asks granted for it is named.  A request that nothing has room for stays pending and counts once. -/
def kvEviction (c : Nat) (grant : Option (Nat × Nat)) (s : State) : State :=
  let x := s.ctx c
  let want := x.kv.wanted.1 * x.colGran false + x.kv.wanted.2 * x.colGran true
  if 16 ≤ c ∨ x.st ≠ .active ∨ want = 0 then s
  else
    let ask (t : State) : Option (Nat × Nat) × State :=
      match grant with
      | some g =>
        (if t.bestLender = some g.1 ∧ !(t.ctx c).kv.lots.any (fun l => l.lender == g.1 && l.base == g.2) then some g else none, t)
      | none => (none, match t.bestLender with | some p => t.sendOpen p 0x31 c [0x13, 1] [] | none => t)
    let r := evictItems c List.length ask (s.allVictims c) ⟨want - x.kv.covered, 0, false⟩ s
    let done := r.1.short == 0
    (r.2.onCtx c (fun y => { y with kv := { y.kv with
      wanted := if done then (0, 0) else y.kv.wanted
      covered := if done then 0 else y.kv.covered + r.1.freed
      blocked := !done && (y.kv.blocked || r.1.blocked) } })).bumpCtx c .evictBlocked
        (b2n (!done && r.1.blocked && !x.kv.blocked))

def execKvEviction (c : Nat) (grant : Option (Nat × Nat)) (s : State) : Host.Outcome State Fault Refusal :=
  .next (kvEviction c grant s)

/-- Returns far columns one by one; answers how many full and ring columns found no granules. -/
def returnCols (c d : Nat) : List Nat → State → (Nat × Nat) × State
  | [], s => ((0, 0), s)
  | n :: r, s =>
    let k := (s.ctx c).kv.col n
    if k.far.isNone then returnCols c d r s
    else
      match (s.ctx c).takeCol k.ring d with
      | (none, _) =>
        let t := returnCols c d r s
        (if k.ring then (t.1.1, t.1.2 + 1) else (t.1.1 + 1, t.1.2), t.2)
      | (some g, y) => returnCols c d r ((s.onCtx c (fun _ => y)).colBack c n g)

/-- Sequences whose far columns are to return, by (`DEADLINE`, sequence ID). -/
def State.waking (s : State) (c : Nat) : List Nat :=
  (sortBy (fun (a b : Nat × Seq) => decide (a.2.deadline < b.2.deadline ∨ (a.2.deadline = b.2.deadline ∧ a.1 ≤ b.1)))
    (s.seqs.filter (fun e => e.2.ctx == c && e.2.kvFar && (e.2.st == .prefill || e.2.st == .decode)))).map (fun e => e.1)

/-- `KV_FAR_RETURN` (R241): between boundaries, columns of sequences that left IDLE come back; a shortfall asks for
eviction. -/
def kvFarReturn (c : Nat) (s : State) : State :=
  if 16 ≤ c ∨ (s.ctx c).st ≠ .active ∨ (s.ctx c).steps.between then s
  else
    let l := ((s.waking c).map (fun q => s.farCols q)).flatten
    if l.isEmpty then s
    else
      let r := returnCols c 0 l s
      let stop := r.1 != (0, 0) && decide ((r.2.ctx c).granFree 0x5 < (r.2.ctx c).freeGranules)
      ((r.2.bumpCtx c .khanQuotaFails (b2n stop)).onCtx c (fun x => { x with kv := { x.kv with
        wanted := (Nat.max x.kv.wanted.1 r.1.1, Nat.max x.kv.wanted.2 r.1.2) } })).clearFar c

def execKvFarReturn (c : Nat) (s : State) : Host.Outcome State Fault Refusal := .next (kvFarReturn c s)

/-! ### Memory messages between packages (R183, R184, R243) -/

/-- `MEM_READ_RECEIVE`: a read of this package's memory is served; what an uncorrectable error hit comes back poisoned
(R234). -/
def memRead (src c a n : Nat) (poison : Bool) (s : State) : State :=
  if !s.booted ∨ aPkg a ≠ s.board.pkgId ∨ !s.exists_ a n then s
  else
    let p := s.takePoison (a % 2 ^ 57) n
    p.2.sendMsg src 0x21 c [a, n, b2n (poison || p.1)] (toLE 8 a ++ s.bytesAt (a % 2 ^ 57) n)

def execMemReadReceive (src c a n : Nat) (poison : Bool) (s : State) : Host.Outcome State Fault Refusal :=
  .next (memRead src c a n poison s)

/-- `MEM_WRITE_RECEIVE`: a write takes effect as it arrives, which is its path's order (R243). -/
def memWriteIn (a : Nat) (data : List Byte) (s : State) : State :=
  if !s.booted ∨ aPkg a ≠ s.board.pkgId ∨ !s.exists_ a data.length then s else s.writeAt (a % 2 ^ 57) data

def execMemWriteReceive (a : Nat) (data : List Byte) (s : State) : Host.Outcome State Fault Refusal :=
  .next (memWriteIn a data s)

/-- A 32-bit atomic addition, integer or FP32 (R184). -/
def atomicSum (float : Bool) (old v : Nat) : Nat :=
  if float then (Num.fadd (BitVec.ofNat 32 old) (BitVec.ofNat 32 v)).toNat else (old + v) % 2 ^ 32

/-- `MEM_ATOMIC_RECEIVE`: the addition is applied and the old value returns. -/
def memAtomic (src c a v : Nat) (float : Bool) (s : State) : State :=
  if !s.booted ∨ aPkg a ≠ s.board.pkgId ∨ !s.exists_ a 4 then s
  else
    let old := s.numAt (a % 2 ^ 57) 4
    (s.writeAt (a % 2 ^ 57) (toLE 4 (atomicSum float old v))).sendMsg src 0x24 c [a, old] (toLE 8 a ++ toLE 4 old)

def execMemAtomicReceive (src c a v : Nat) (float : Bool) (s : State) : Host.Outcome State Fault Refusal :=
  .next (memAtomic src c a v float s)

/-! ### Compute dies and expanders -/

/-- `UCIE_MEMORY_ACCESS` (R417): a present die reads or writes an address that exists; a foreign one goes over the
fabric.  A read that meets a poisoned line returns its data poisoned (R234).  An address that does not exist has no outcome in the
spec. -/
def execUcieMemoryAccess (die c a n : Nat) (data : Option (List Byte)) (s : State) :
    Host.Outcome State Fault Refusal :=
  if !s.booted ∨ !s.boot.diesUp.getD die false then .next s
  else if aPkg a ≠ s.board.pkgId then
    match data with
    | some bs => .next (s.sendMsg (aPkg a) 0x22 c [a] (toLE 8 a ++ bs))
    | none => .next (s.sendMsg (aPkg a) 0x20 c [a, n] (toLE 8 a ++ toLE 8 n))
  else
    match data with
    | some bs => if s.exists_ a bs.length then .next (s.writeAt (a % 2 ^ 57) bs) else .fault .noSuchAddress
    | none =>
      let p := s.takePoison (a % 2 ^ 57) n
      let data := s.bytesAt (a % 2 ^ 57) n
      if s.exists_ a n then .next (p.2.emit (if p.1 then .uciePoison die c data else .ucie die 0x9 c 0 0 false 0 false data))
      else .fault .noSuchAddress

/-- `CXL_COMPLETION_TIMEOUT` (R415): the read of a far-pool line goes unanswered, so it returns poisoned data. -/
def cxlTimeout (a : Nat) (s : State) : State :=
  if aKind a = 4 ∧ s.exists_ (a % 2 ^ 57) 1 ∧ !s.poison.contains (a % 2 ^ 57 / 64) then
    { s with poison := s.poison ++ [a % 2 ^ 57 / 64] }
  else s

def execCxlCompletionTimeout (a : Nat) (s : State) : Host.Outcome State Fault Refusal := .next (cxlTimeout a s)

/-! ### Staging a bundle (R357, R403) -/

/-- Images that overlap or lie beyond the bundle. -/
def imagesBad (b : List Byte) : Bool :=
  (List.range 6).any (fun i => decide (bundleTotal b < imgOffset b i + imgBytes b i)
    || (List.range i).any (fun j => decide (imgOffset b i < imgOffset b j + imgBytes b j ∧
        imgOffset b j < imgOffset b i + imgBytes b i)))

/-- `PMP_FW_STAGE` (R357, R403): after its checks the other flash's boot record is erased and the write begins. -/
def fwStage (a : List Nat) (m : Msg) (s : State) : Act :=
  match a with
  | [h] =>
    let named : Option Status := match s.handleBad (hCtx h) h with
      | some st => some st
      | none => if hTier h ≠ 1 then some .format else if (s.slotOf h).extent < 128 then some .bounds else none
    match named with
    | some st => .no s st
    | none =>
      let hd := s.bufBytes h 0 128
      let n := bundleTotal hd
      let b := s.bufBytes h 0 (Nat.min n (s.slotOf h).extent)
      let other := 1 - s.boot.flash
      let run := (s.fw fwSteward).bundle
      checked
        [(!s.owns m.sess (hCtx h), .denied),
         (bundleMagic hd != 0x42554E44 || bits (bundleWord hd) 160 32 != 0 || bits (bundleWord hd) 576 448 != 0
            || imagesBad hd, .format),
         (decide ((s.slotOf h).extent < n) || decide ((s.flashes.getD other (Flash.empty 0)).bytes < n)
            || decide (64 < bundleSec hd), .bounds),
         (!Config.signatureOk b, .denied),
         (decide (bundleSec hd < s.fuses.secMin)
            || !(bundleIpc hd == bundleIpc run || Config.ipcKnown (bundleRev run) (bundleIpc hd)), .version),
         (s.upd.writing.isSome || s.upd.st == .activating || s.upd.st == .waitE0 || s.upd.st == .proving, .busy)] s
        (.hold { s with
          flashes := updAt s.flashes other (fun f => { f with magic := false })
          upd := { s.upd with writing := some b } } .flashWait)
  | _ => .no s .format

def execPmpFwStage (w : Nat) (s : State) : Host.Outcome State Fault Refusal :=
  .next (commitMsg w 0x0700 (withReq [.u32] fwStage) s)

/-- `FLASH_WRITE_COMPLETE` (R357, R403): the bundle is read back and checked, its boot record is written last, and the
stage completes. -/
def flashWritten (s : State) : State :=
  match s.upd.writing, s.host.msgs.find? (fun m => m.phase == .flashWait) with
  | some b, some m =>
    if (s.fw fwSteward).st ≠ .running then s
    else
      let other := 1 - s.boot.flash
      let epoch := (s.flashes.getD s.boot.flash (Flash.empty 0)).epoch + 1
      let s1 := { s with
        flashes := updAt s.flashes other (fun f => f.program b (epoch % 2 ^ 32) false)
        upd := { s.upd with writing := none, staged := some b, st := .staged } }
      s1.complete m fwSteward .ok []
  | _, _ => s

def execFlashWriteComplete (s : State) : Host.Outcome State Fault Refusal := .next (flashWritten s)

end Sys2Proof.Machine
end

