-- ==== Sys2Proof/Machine/Faults.lean ====
section
/-! DEFINITION. The Fault Collector, the fault store, counting windows and their messages (18 R378 to R385). -/

namespace Sys2Proof.Machine

/-! ### Class actions (Table 18-5) -/

/-- Partition that a C2 message names (R382). -/
def State.c2Part (s : State) (m : FaultMsg) : Nat :=
  if m.kind = 0x61 then m.detail % 8 else (s.ctx m.ctx).share.partition

/-- Every partition is halted, and `READY` falls (Table 18-5, R398). -/
def State.haltAll (s : State) : State :=
  let t := (List.range 8).foldl (fun u p => u.haltPart p) s
  { t with boot := { t.boot with ready := false } }

/-- C4 stops every fabric port and the processors other than Steward and Warden, whose messages complete at once
(Table 18-5, R383). -/
def State.stopC4 (s : State) : State :=
  let t := { s with
    flt := { s.flt with dev := .stoppedC4 }
    fab := { s.fab with ports := s.fab.ports.map (fun p => { p with st := .off }) }
    fws := (List.range s.fws.length).map (fun n =>
      if n = fwSteward ∨ n = fwWarden then s.fw n else { s.fw n with st := .off }) }
  completeAll (t.host.msgs.filter (fun m => m.phase != .unrouted && t.stopped (owner m.op))) 7 .faulted t

/-- Class action of a message; a lower class under a higher one in force changes nothing (R384). -/
def State.classAction (s : State) (m : FaultMsg) : State :=
  if m.cls = 1 then
    if s.flt.dev = .serving ∧ (s.ctx m.ctx).st = .active ∧ !(s.part (s.ctx m.ctx).share.partition).halted
    then s.tearDown m.ctx else s
  else if m.cls = 2 then if s.flt.dev = .serving then s.haltPart (s.c2Part m) else s
  else if m.cls = 3 then
    if s.flt.dev = .serving then { s.haltAll with flt := { s.haltAll.flt with dev := .stoppedC3 } } else s
  else if m.cls = 4 then if s.flt.dev = .stoppedC4 then s else s.haltAll.stopC4
  else s

/-- `FAULTS_TAKEN` counter of a class. -/
def takenCtr (cls : Nat) : Ctr :=
  if cls = 0 then .faultsTakenC0 else if cls = 1 then .faultsTakenC1 else if cls = 2 then .faultsTakenC2
  else if cls = 3 then .faultsTakenC3 else .faultsTakenC4

/-- Latch of the message's class: filled when empty, which may raise vector 256; otherwise the overflow bit
(R378, Table 18-4). -/
def State.latch (s : State) (m : FaultMsg) : State :=
  if (s.flt.latches.getD m.cls none).isSome then
    { s with flt := { s.flt with overLost := updAt s.flt.overLost m.cls (fun _ => true) } }
  else
    let t := { s with flt := { s.flt with latches := updAt s.flt.latches m.cls (fun _ => some m) } }
    if t.flt.irqClass ≤ m.cls then { t with flt := { t.flt with irqPend := true } }.emit (.msix 256) else t

/-- The fault queue holds 4,096 messages; a full one drops and counts (R378). -/
def State.enqueue (s : State) (m : FaultMsg) : State :=
  if s.flt.queue.length < 4096 then
    { s with flt := { s.flt with queue := s.flt.queue ++ [(s.flt.dropped, m)], dropped := 0 } }
  else ({ s with flt := { s.flt with dropped := s.flt.dropped + 1 } }).bumpFlt .faultsDropped 1

/-- The collector's one indivisible act for one message (R378). -/
def State.collect (s : State) (m : FaultMsg) : State :=
  (((s.classAction m).latch m).enqueue m).bumpFlt (takenCtr m.cls) 1

/-- A C3 within 1 s after the reset that ended an earlier C3 also takes a C4 `RESET_LOOP` (R384). -/
def State.resetLoop (s : State) (m : FaultMsg) : Option FaultMsg :=
  match s.flt.endedC3 with
  | some t =>
    if m.cls = 3 ∧ s.now ≤ t + 1000000000 then
      some ⟨m.stamp, 0x810, 0x72, 4, 0, 3, m.kind + 256 * m.source⟩
    else none
  | none => none

/-- Order at the arbiter: by stamp, stamps less than 2 ns apart by arrival (R378). -/
def nextFault (l : List FaultMsg) : Option FaultMsg :=
  match minBy (·.stamp) l with
  | none => none
  | some m => l.find? (fun x => decide (x.stamp < m.stamp + 2))

/-- The message of a fault that hardware found (R382, Table 18-2). -/
def State.found (s : State) : FoundFault → State
  | .stateUe a => s.raise 0x810 0x70 3 0 1 (addrDetail a)
  | .partStateUe p g =>
    s.raise 0x80D 0x61 2 0 3 (p % 8 + (match g with | some i => 8 + 16 * (i % 8) | none => 0))
  | .hbmStackFail k => s.raise (0x730 + k % 2) 0x71 3 0 3 (k % 2)

/-- `FAULT_TAKE` (R378, R384). -/
def faultTake (f : Option FoundFault) (s : State) : State :=
  if !s.powered then s
  else
    let s0 := match f with | some x => s.found x | none => s
    match nextFault s0.flt.arriving with
    | none => s0
    | some m =>
      let s1 := { s0 with flt := { s0.flt with arriving := eraseFirst (fun x => decide (x = m)) s0.flt.arriving } }
      let s2 := s1.collect m
      match s1.resetLoop m with
      | some c4 => s2.collect c4
      | none => s2

def execFaultTake (f : Option FoundFault) (s : State) : Host.Outcome State Fault Refusal := .next (faultTake f s)

/-! ### The fault store -/

/-- Stores a message with the next sequence number; a full ring of 1,048,576 overwrites its oldest (R379). -/
def State.store (s : State) (m : FaultMsg) : State :=
  { s with flt := { s.flt with
    store := (if s.flt.store.length < 1048576 then s.flt.store else s.flt.store.drop 1) ++ [(s.flt.nextSeq, m)]
    nextSeq := (s.flt.nextSeq + 1) % 2 ^ 32 } }

/-- Re-arming: a stored message that sits in a C0 or C1 latch clears it and its overflow bit (R379). -/
def State.rearm (s : State) (m : FaultMsg) : State :=
  if m.cls ≤ 1 ∧ s.flt.latches.getD m.cls none = some m then
    { s with flt := { s.flt with
      latches := updAt s.flt.latches m.cls (fun _ => none), overLost := updAt s.flt.overLost m.cls (fun _ => false) } }
  else s

/-- Warden stores one queued message, a `FAULTS_DROPPED` before it where messages were lost (R379). -/
def State.drainOne (s : State) (e : Nat × FaultMsg) : State :=
  let t := if e.1 = 0 then s else s.store ⟨s.now % 2 ^ 48, 0x810, 0x42, 0, 0, 3, e.1 % 2 ^ 32⟩
  (t.store e.2).rearm e.2

/-- `FAULT_DRAIN` (R379): Warden, when it runs, stores what is queued, in order. -/
def faultDrain (s : State) : State :=
  if (s.fw fwWarden).st = .running then
    { s.flt.queue.foldl State.drainOne s with
      flt := { (s.flt.queue.foldl State.drainOne s).flt with queue := [] } }
  else s

def execFaultDrain (s : State) : Host.Outcome State Fault Refusal := .next (faultDrain s)

/-- `PMP_FAULT_READ` (R380): from byte 16 up to 253 messages. -/
def faultRead (a : List Nat) (_ : Msg) (s : State) : Act :=
  match a with
  | [seq] =>
    let r := ringRead (s.flt.store.map (fun e => (e.1, toLE 16 e.2.pack))) s.flt.nextSeq seq (253 * 16)
    .reply s .ok (writeFields [(.u32, r.1), (.u32, r.2.1), (.u32, s.latchWord), (.u32, 0)] ++ r.2.2)
  | _ => .no s .format

def execPmpFaultRead (w : Nat) (s : State) : Host.Outcome State Fault Refusal :=
  .next (commitMsg w 0x0800 (withReq [.u32] faultRead) s)

/-! ### Counting windows (R385) -/

/-- `PMP_FAULT_WINDOW`: new values apply to windows that open later (R385). -/
def faultWindow (a : List Nat) (_ : Msg) (s : State) : Act :=
  match a with
  | [ev, ms] =>
    checked [(decide (ev = 0 ∨ ms = 0 ∨ 3600000 < ms), .bounds)] s
      (.ok { s with flt := { s.flt with events := ev, windowMs := ms } } [])
  | _ => .no s .format

def execPmpFaultWindow (w : Nat) (s : State) : Host.Outcome State Fault Refusal :=
  .next (commitMsg w 0x0801 (withReq [.u16, .u32] faultWindow) s)

/-- A window is still open at an event: it closes `WINDOW_MS` after it opened. -/
def State.openWindow (s : State) (source : Nat) : Option CountWin :=
  s.flt.windows.find? (fun x => x.source == source && decide (s.now ≤ x.opened + x.windowMs * 1000000))

/-- Counts one event in a window; at `EVENTS` the source is lasting-pending and the window closes. -/
def State.countIn (s : State) (x : CountWin) : State :=
  let rest := s.flt.windows.filter (fun y => y.source != x.source)
  if x.events ≤ x.count then
    { s with flt := { s.flt with windows := rest, lasting := s.flt.lasting ++ [(x.source, x.count, x.windowMs)] } }
  else { s with flt := { s.flt with windows := rest ++ [x] } }

/-- `CORRECTED_ERROR_EVENT` (R385): the first event of a window is reported as C0 `ECC_CE`. -/
def correctedError (source : Nat) (a : Option Nat) (s : State) : State :=
  if !s.powered then s
  else
    match s.openWindow source with
    | some x => s.countIn { x with count := x.count + 1 }
    | none =>
      let t := match a with
        | some x => s.raise source 0x01 0 0 1 (addrDetail x)
        | none => s.raise source 0x01 0 0 0 0
      t.countIn ⟨source, s.now, 1, s.flt.events, s.flt.windowMs⟩

/-- `FAULT_WINDOW_CLOSE` (R385). -/
def windowClose (source : Nat) (s : State) : State :=
  { s with flt := { s.flt with windows := s.flt.windows.filter (fun x =>
      x.source != source || decide (s.now < x.opened + x.windowMs * 1000000)) } }

def execFaultWindowClose (source : Nat) (s : State) : Host.Outcome State Fault Refusal :=
  .next (windowClose source s)

end Sys2Proof.Machine
end

