-- ==== Sys2Proof/Machine/Health.lean ====
section
/-! DEFINITION. Pace and power samples, triggers, emergency levels, set-points and ageing (18 R387 to R395; 14 R298 to
R301; 01 R18). -/

namespace Sys2Proof.Machine

/-! ### Set-points -/

/-- Base set-point of quarter q in mV: 720 plus 5 per burnt ageing fuse plus Warden's move (R388, R392). -/
def State.baseSet (s : State) (q : Nat) : Int :=
  720 + 5 * (s.fuses.ageing.getD q 0 : Int) + (s.quarter q).move

/-- Ceiling of a quarter in mV (R388, Table 18-5). -/
def State.ceiling (s : State) (q : Nat) : Int :=
  if s.flt.dev = .stoppedC4 ∨ s.flt.thermTrip then 600
  else if (s.quarter q).level = 0 then 850
  else if (s.quarter q).level = 1 then max 600 (s.baseSet q - 70)
  else 600

/-- Quarters that share an edge with q (R300). -/
def neighbours (q : Nat) : List Nat :=
  neighbourPairs.filterMap (fun p => if p.1 = q then some p.2 else if p.2 = q then some p.1 else none)

/-- Effective set-point toward which `VSET` moves: the least of three values, within 600 to 850 mV (R388, R298). -/
def State.targetSet (s : State) (q : Nat) : Int :=
  let cap := ((neighbours q).map (fun n => ((s.quarter n).vset : Int) + 120)).foldl min 850
  max 600 (min (s.baseSet q) (min (s.ceiling q) cap))

/-- `VSET` one mV nearer to its target: 10 mV per µs is 1 mV per 100 ns. -/
def State.moveSets (s : State) : State :=
  { s with hlt := { s.hlt with quarters := (List.range s.hlt.quarters.length).map (fun q =>
      let x := s.quarter q
      let t := s.targetSet q
      if (x.vset : Int) < t then { x with vset := x.vset + 1 }
      else if t < x.vset then { x with vset := x.vset - 1 } else x) } }

/-! ### Triggers -/

/-- One evaluation of a trigger: it begins with its condition and ends when its end condition has held for `hold` ns
(Table 18-7a). -/
def evalTrigger (now code : Nat) (begins endOk : Bool) (hold : Nat) (l : List Trigger) : List Trigger :=
  match l.find? (fun t => t.code == code) with
  | none => if begins then l ++ [⟨code, none⟩] else l
  | some t =>
    if !endOk then l.map (fun x => if x.code = code then { x with okFrom := none } else x)
    else
      let from_ := t.okFrom.getD now
      if from_ + hold ≤ now then l.filter (fun x => x.code != code)
      else l.map (fun x => if x.code = code then { x with okFrom := some from_ } else x)

/-- Level that the triggers in force set, and the trigger that sets it. -/
def levelOf (l : List Trigger) : Nat × Nat :=
  let v := maxN (l.map (fun t => triggerLevel t.code))
  (v, if v = 0 then 0 else ((l.find? (fun t => triggerLevel t.code == v)).map (·.code)).getD 0)

/-- The level of a quarter follows its triggers; a change is logged and entries count (R389). -/
def State.relevel (s : State) (q : Nat) : State :=
  let x := s.quarter q
  let n := levelOf x.triggers
  if n.1 = x.level then s
  else
    let s1 := { s with hlt := { s.hlt with
      quarters := updAt s.hlt.quarters q (fun y => { y with level := n.1 })
      levelMax := Nat.max s.hlt.levelMax n.1 } }
    let s2 := if n.1 = 1 then s1.bumpFlt .e1Entries 1 else if n.1 = 2 then s1.bumpFlt .e2Entries 1 else s1
    s2.raise (0x700 + q) 0x51 0 0 3
      (packF [(0, 2, n.1), (2, 2, x.level), (4, 4, n.2), (8, 8, x.tj), (16, 10, x.vmeas)])

/-- E3: every unit of every context is killed, `THERM_TRIP_N` is asserted and C4 `THERM_TRIP` raised (Table 18-7b). -/
def State.shutdown (s : State) : State :=
  if s.flt.thermTrip then s
  else
    match (List.range 24).find? (fun q => decide (3 ≤ (s.quarter q).level)) with
    | none => s
    | some q =>
      let t := { s.killAll with flt := { s.killAll.flt with thermTrip := true } }
      t.raise (0x700 + q) 0x55 4 0 3 ((s.quarter q).tj % 256)

/-- Keeps the tick from which `EMERGENCY_ACTIVE` has been 0, and defers an activation that waits between two restarts
when it rises (R361). -/
def State.noteEmergency (s : State) (before : Bool) : State :=
  if before && !s.emergency then { s with upd := { s.upd with clearFrom := s.now } }
  else if !before && s.emergency && (s.upd.st == .waitE0) then s.defer
  else s

/-- Levels, shutdown and the emergency condition after triggers changed from state `b`. -/
def State.settle (s b : State) : State :=
  (((List.range 24).foldl State.relevel s).shutdown).noteEmergency b.emergency

/-- Changes one quarter. -/
def State.onQuarter (s : State) (q : Nat) (f : Quarter → Quarter) : State :=
  { s with hlt := { s.hlt with quarters := updAt s.hlt.quarters q f } }

/-- Trigger 0x9 from the board's signal (Table 18-7a). -/
def State.throttleTrigger (s : State) : State :=
  { s with hlt := { s.hlt with quarters := s.hlt.quarters.map (fun (x : Quarter) =>
      { x with triggers := evalTrigger s.now 0x9 (!s.board.throttleN) s.board.throttleN 1000000 x.triggers }) } }

/-- `THROTTLE_N_CHANGE` (Table 19-1, R387). -/
def throttleN (high : Bool) (s : State) : State :=
  if !s.powered then s
  else (({ s with board := { s.board with throttleN := high } }).throttleTrigger).settle s

def execThrottleNChange (high : Bool) (s : State) : Host.Outcome State Fault Refusal := .next (throttleN high s)

/-! ### Pace samples -/

/-- Table 14-1: supply in mV and speed in hundredths at 25, 55, 85 and 105 °C. -/
def paceTable : List (Nat × List Nat) :=
  [(600, [67, 71, 74, 76]), (650, [81, 84, 86, 87]), (720, [98, 99, 100, 100]), (800, [116, 115, 114, 112]),
   (850, [126, 124, 122, 119])]

/-- Neighbouring points around a value: index of the lower one. -/
def bracket (l : List Nat) (x : Nat) : Nat :=
  Nat.min (l.length - 2) (countP (fun p => decide (p ≤ x)) l - 1)

/-- s_ref of Table 14-1 as a fraction, linear in supply, then in temperature; the edge of the table bounds both
(R298). -/
def speedRef (mv tj : Nat) : Nat × Nat :=
  let vs := paceTable.map (·.1)
  let ts := [25, 55, 85, 105]
  let v := Nat.min 850 (Nat.max 600 mv)
  let t := Nat.min 105 (Nat.max 25 tj)
  let i := bracket vs v
  let j := bracket ts t
  let at_ (a b : Nat) : Nat := ((paceTable.getD a (0, [])).2).getD b 0
  let dv := vs.getD (i + 1) 0 - vs.getD i 0
  let x := v - vs.getD i 0
  let dt := ts.getD (j + 1) 0 - ts.getD j 0
  let y := t - ts.getD j 0
  let col (b : Nat) : Nat := at_ i b * (dv - x) + at_ (i + 1) b * x
  (col j * (dt - y) + col (j + 1) * y, 100 * dv * dt)

/-- Sum of two fractions in lowest terms. -/
def addFrac (a : Int) (b : Nat) (c : Int) (d : Nat) : Int × Nat :=
  let n := a * d + c * b
  let m := b * d
  let g := Nat.gcd n.natAbs m
  if g = 0 then (n, m) else (n / g, m / g)

/-- Ageing loss 1 − `PACE` / s_ref of a sample joins the hour's sum (R392). -/
def Quarter.addLoss (x : Quarter) : Quarter :=
  let r := speedRef x.vmeas x.tj
  if r.1 = 0 then x
  else
    let s := addFrac x.lossNum x.lossDen ((4096 * r.1 : Nat) - (x.pace * r.2 : Nat) : Int) (4096 * r.1)
    { x with lossNum := s.1, lossDen := s.2, lossCount := x.lossCount + 1 }

/-- The sensors of one quarter and its triggers 0x1 to 0x3 and 0x8 (R387).  `TJ` is the first sensor's reading, and
the higher of the two while trigger 0x8 is in force. -/
def State.senseQuarter (s : State) (q : Nat) (r : PaceReading) : State :=
  let x := s.quarter q
  let diff := decide (r.tjA > r.tjB + 5) || decide (r.tjB > r.tjA + 5)
  let was := x.triggers.any (fun t => t.code == 8)
  let t8 := evalTrigger s.now 0x8 diff false 0 x.triggers
  let tj := if was || diff then Nat.max r.tjA r.tjB else r.tjA
  let t1 := evalTrigger s.now 0x1 (decide (tj > 105)) (decide (tj ≤ 100)) 1000000 t8
  let t2 := evalTrigger s.now 0x2 (decide (tj > 110)) (decide (tj ≤ 105)) 1000000 t1
  let t3 := evalTrigger s.now 0x3 (decide (tj > 120)) false 0 t2
  let s1 := s.onQuarter q (fun y => { y with vmeas := r.vmeas, tj := tj, pace := r.pace, triggers := t3 })
  if diff && !was then s1.raise (0x700 + q) 0x52 0 0 3 (r.tjA % 256 + 256 * (r.tjB % 256)) else s1

/-- Absolute difference. -/
def absDiff (a b : Nat) : Nat := if a ≤ b then b - a else a - b

/-- One neighbour pair under R301, in state s: its new record, whether it newly set `SKEW`, whether a quarter of it newly
tripped.  Each sample at the trip difference puts the quarter that is hotter then into E2; the pair's trips clear together. -/
def State.evalPair (s : State) (p : SkewPair) : SkewPair × Bool × Bool :=
  let a := s.quarter p.a
  let b := s.quarter p.b
  let dv := absDiff a.vmeas b.vmeas
  let dt := absDiff a.tj b.tj
  let beyond := decide (dv > 120 ∨ dt > 20)
  let hot := if a.tj > b.tj then p.a else if b.tj > a.tj then p.b
    else if a.vmeas > b.vmeas then p.a else if b.vmeas > a.vmeas then p.b else Nat.min p.a p.b
  let p1 := { p with beyond := beyond, told := beyond && p.told }
  let newSkew := beyond && !p.beyond
  if dv ≥ 200 ∨ dt ≥ 35 then
    if p.trip.contains hot then ({ p1 with okFrom := none }, newSkew, false)
    else ({ p1 with trip := p.trip ++ [hot], okFrom := none }, newSkew, true)
  else if p.trip.isEmpty then (p1, newSkew, false)
  else if dv ≤ 160 ∧ dt ≤ 28 then
    let from_ := p.okFrom.getD s.now
    if from_ + 1000000 ≤ s.now then ({ p1 with trip := [], okFrom := none }, newSkew, false)
    else ({ p1 with okFrom := some from_ }, newSkew, false)
  else ({ p1 with okFrom := none }, newSkew, false)

/-- Difference of the effective set-points of a pair. -/
def State.setGap (s : State) (p : SkewPair) : Nat := (s.targetSet p.a - s.targetSet p.b).natAbs

/-- Warden moves the base set-points of a pair together: the moves are free values, but for one thing, that the effective
set-points end no farther apart than they were (R18, R301). -/
def State.moveTogether (s : State) (p : SkewPair) : State :=
  let t := (s.onQuarter p.a (fun y => { y with move := Config.setpointMove (2 * s.freeCtr) })).onQuarter p.b
    (fun y => { y with move := Config.setpointMove (2 * s.freeCtr + 1) })
  if t.setGap p ≤ s.setGap p then t else s

/-- Warden logs a skew it has not answered and moves the two set-points together (R18, R301). -/
def State.answerSkew (s : State) (i : Nat) : State :=
  match s.hlt.pairs[i]? with
  | some p =>
    if p.beyond && !p.told && ((s.fw fwWarden).st == .running) then
      let s1 := s.raise (0x700 + p.a) 0x50 0 0 3 (p.a + 256 * p.b)
      let s2 := s1.moveTogether p
      { s2 with freeCtr := s.freeCtr + 1
                hlt := { s2.hlt with pairs := updAt s2.hlt.pairs i (fun y => { y with told := true }) } }
    else s
  | none => s

/-- All neighbour pairs of a pace sample: `SKEW`, `SKEW_TRIP`, trigger 0x7 and the counters (R301). -/
def State.evalPairs (s : State) : State :=
  let r := s.hlt.pairs.map (fun p => s.evalPair p)
  let pairs := r.map (·.1)
  let s1 := { s with hlt := { s.hlt with pairs := pairs } }
  let s2 := (s1.bumpTb .skewEvents (countP (fun e => e.2.1) r)).bumpTb .skewTrips (countP (fun e => e.2.2) r)
  let s3 := (List.range 24).foldl (fun t q =>
    let trip := pairs.any (fun p => p.trip.contains q)
    t.onQuarter q (fun y => { y with
      skew := pairs.any (fun p => p.beyond && (p.a == q || p.b == q)), skewTrip := trip
      triggers := if trip then (if y.triggers.any (fun x => x.code == 7) then y.triggers else y.triggers ++ [⟨7, none⟩])
        else y.triggers.filter (fun x => x.code != 7) })) s2
  (List.range pairs.length).foldl State.answerSkew s3

/-- The run of pace samples with every quarter at E0 (R356). -/
def State.noteCalm (s : State) : State :=
  { s with hlt := { s.hlt with
    lastPace := s.now
    e0From := if s.packageLevel = 0 then some (s.hlt.e0From.getD s.now) else none } }

/-- `PACE_SAMPLE` (R301, R387, R389, R392). -/
def paceSample (rs : List PaceReading) (s : State) : State :=
  if !s.powered || !s.board.perstN then s
  else
    let s1 := (List.range 24).foldl (fun t q => match rs[q]? with | some r => t.senseQuarter q r | none => t) s
    let s2 := (s1.evalPairs.throttleTrigger).settle s
    let s3 := s2.noteCalm
    if s3.packageLevel = 0 then
      { s3 with hlt := { s3.hlt with quarters := s3.hlt.quarters.map Quarter.addLoss } }
    else s3

def execPaceSample (rs : List PaceReading) (s : State) : Host.Outcome State Fault Refusal := .next (paceSample rs s)

/-! ### Power samples -/

/-- Triggers 0x4 to 0x6 of a quarter (Table 18-7a); sums run over 1,000 and 10,000 samples of 1 µs. -/
def State.powerTriggers (s : State) (watts : Nat) (x : Quarter) : Quarter :=
  let own := sumN x.power
  let p1 := sumN (s.hlt.samples.take 1000)
  let p10 := sumN s.hlt.samples
  let a := evalTrigger s.now 0x4 (decide (own > 60 * 1000)) (decide (own ≤ 54 * 1000)) 10000000 x.triggers
  let b := evalTrigger s.now 0x5 (decide (p10 > 1150 * 10000)) (decide (p10 ≤ 1100 * 10000)) 10000000 a
  let c := evalTrigger s.now 0x6 (decide (watts > 1400) || decide (p1 > 1250 * 1000)) (decide (p1 ≤ 1150 * 1000))
    10000000 b
  { x with triggers := c }

/-- `POWER_SAMPLE` (R395, R387): package power and the 24 quarters' own power, in W. -/
def powerSample (watts : Nat) (qs : List Nat) (s : State) : State :=
  if !s.powered then s
  else
    let s1 := { s with hlt := { s.hlt with
      samples := (watts :: s.hlt.samples).take 10000
      peak := Nat.max s.hlt.peak watts
      quarters := (List.range s.hlt.quarters.length).map (fun q =>
        let x := s.quarter q
        { x with power := (qs.getD q 0 :: x.power).take 1000 }) } }
    let s2 := { s1 with hlt := { s1.hlt with quarters := s1.hlt.quarters.map (s1.powerTriggers watts) } }
    (s2.throttleTrigger).settle s

def execPowerSample (watts : Nat) (qs : List Nat) (s : State) : Host.Outcome State Fault Refusal :=
  .next (powerSample watts qs s)

/-! ### Ageing -/

/-- One quarter's hourly decision: a step of 5 mV and a fuse when the mean loss reaches 1.0%, at most eight
(R392, R393). -/
def State.ageQuarter (s : State) (q : Nat) : State :=
  let x := s.quarter q
  let used := s.fuses.ageing.getD q 0
  let s0 := s.onQuarter q (fun y => { y with lossNum := 0, lossDen := 1, lossCount := 0 })
  if x.lossCount > 0 ∧ (x.lossDen * x.lossCount : Nat) ≤ x.lossNum * 100 ∧ used < 8 then
    let s1 := { s0 with fuses := { s0.fuses with ageing := updAt s0.fuses.ageing q (· + 1) } }
    let s2 := (s1.raise (0x700 + q) 0x53 0 0 3 (used + 1)).bumpFlt .ageingRaises 1
    if used + 1 = 8 then s2.raise (0x700 + q) 0x54 0 0 0 0 else s2
  else s0

/-- `AGEING_HOURLY` (R392): an hour has passed; a raise waits while Warden is absent or the device is not at E0. -/
def ageingHourly (s : State) : State :=
  if s.powered ∧ s.hlt.ageFrom + 3600000000000 ≤ s.now ∧ (s.fw fwWarden).st = .running ∧ s.packageLevel = 0 then
    { (List.range 24).foldl State.ageQuarter s with
      hlt := { ((List.range 24).foldl State.ageQuarter s).hlt with ageFrom := s.now } }
  else s

def execAgeingHourly (s : State) : Host.Outcome State Fault Refusal := .next (ageingHourly s)

/-- `PMP_HEALTH_QUERY` (R393): working lane spares are those whose group's spare backs a port and stands in for none. -/
def healthQuery (_ : List Nat) (_ : Msg) (s : State) : Act :=
  let laneSpares := countP (fun g =>
    let ps := (List.range 4).map (fun i => s.fab.ports.getD (4 * g + i) Port.fresh)
    ps.any (·.backsSpare) && !ps.any (·.spareIn)) (List.range 32)
  .ok s (s.fuses.ageing.map (fun n => (.u16, 1250 * n))
    ++ [(.u8, laneSpares), (.u8, s.coreSpares), (.u8, s.packageLevel % 4 + 16 * (s.hlt.levelMax % 4))])

def execPmpHealthQuery (w : Nat) (s : State) : Host.Outcome State Fault Refusal :=
  .next (commitMsg w 0x0802 (withReq [] healthQuery) s)

/-- `PMP_QUARTER_QUERY` (R299). -/
def quarterQuery (_ : List Nat) (_ : Msg) (s : State) : Act :=
  .ok s (s.hlt.quarters.map (fun q => (.u64, q.word)))

def execPmpQuarterQuery (w : Nat) (s : State) : Host.Outcome State Fault Refusal :=
  .next (commitMsg w 0x0830 (withReq [] quarterQuery) s)

end Sys2Proof.Machine
end

