-- ==== Sys2Proof/Machine/Time.lean ====
section
/-! DEFINITION. The Timebase: its tick, slewing, exchanges, holdover, and the aligning peer (14 R303 to R307). -/

namespace Sys2Proof.Machine

/-! ### The tick -/

/-- One tick of a Toll Gate's refill: `RATE` bytes, up to `BURST` × 1,024 (R325). -/
def Gate.refill (g : Gate) : Gate := { g with bucket := min (g.bucket + g.rate) ((g.burst * 1024 : Nat) : Int) }

/-- What the passing of ticks does besides counting: gates refill, set-points move, E2 time counts. -/
def State.elapse (s : State) (n : Nat) : State :=
  match n with
  | 0 => s
  | k + 1 =>
    let s1 := { s with parts := s.parts.map (fun p => { p with gates := p.gates.map Gate.refill }) }
    let s2 := if s.tb.count % 100 = 0 then s1.moveSets else s1
    let s3 := if s.tb.count % 1000 = 0 ∧ s.packageLevel ≥ 2 then s2.bumpFlt .e2TimeUs 1 else s2
    State.elapse s3 k

/-- One nanosecond: the counter advances by `n` in it, 1 but for slewing (R303). -/
def State.tickBy (s : State) (n : Nat) : State :=
  let t := { s with tb := { s.tb with count := (s.tb.count + n) % 2 ^ 64 } }
  t.elapse 1

/-- The tick that an empty queue leaves time for (log entry 1): the Timebase runs while the device is out of reset. -/
def State.tick (s : State) : State := if s.powered && s.board.perstN then s.tickBy 1 else s

/-- `TIMEBASE_SLEW`: at most once per 2,000 ticks the counter advances by 0 or by 2 in one tick (R303). -/
def timebaseSlew (s : State) : State :=
  if s.tb.slew = 0 ∨ s.now < s.tb.lastSlew + 2000 ∨ !s.powered then s
  else
    let up := decide (0 < s.tb.slew)
    let t := s.tickBy (if up then 2 else 0)
    { t with tb := { t.tb with slew := if up then s.tb.slew - 1 else s.tb.slew + 1, lastSlew := t.now } }

def execTimebaseSlew (s : State) : Host.Outcome State Fault Refusal := .next (timebaseSlew s)

/-! ### Alignment -/

/-- Fabric training is complete: the master is chosen when the appliance first trains (R304, R408). -/
def State.fabricComplete (s : State) : State :=
  if s.boot.fabricDone then s
  else
    let pres := s.fab.present
    let m := (minBy id (s.board.pkgId :: pres)).getD s.board.pkgId
    let t := { s with boot := { s.boot with fabricDone := true }, tb := { s.tb with master := m } }
    t.realign.checkReady

/-- `FABRIC_TRAIN_TIMEOUT` (R408): two seconds after training began. -/
def fabricTimeout (s : State) : State :=
  if s.booted ∧ s.boot.fabricStart + 2000000000 ≤ s.now then s.fabricComplete else s

def execFabricTrainTimeout (s : State) : Host.Outcome State Fault Refusal := .next (fabricTimeout s)

/-! ### Timestamp exchange -/

/-- The payload this package sends on a port (Table 14-5). -/
def State.timestamp (s : State) (p : Nat) : Timestamp :=
  let e := Tbl.getD s.tb.echo p (0, 0, 0)
  ⟨s.now, e.1, e.2.1, s.tb.master, s.tb.hops, s.tb.st == .aligned, s.alignBound⟩

/-- The 64 payload bytes of a timestamp flit (Table 14-5). -/
def timestampBytes (t : Timestamp) : List Byte :=
  toLE 64 (packF [(0, 64, t.tSend), (64, 64, t.tEchoSend), (128, 64, t.tEchoRecv), (192, 7, t.master), (199, 2, t.hops),
    (201, 1, b2n t.aligned), (202, 16, t.bound)])

/-- The payload that 64 received bytes carry (Table 14-5). -/
def readTimestamp (b : List Byte) : Timestamp :=
  let w := ofLE (b.take 64)
  ⟨bits w 0 64, bits w 64 64, bits w 128 64, bits w 192 7, bits w 199 2, bit w 201, bits w 202 16⟩

/-- `TIMESTAMP_SEND`: every 10 µs a timestamp flit is due on each up port; it leaves in the reserved slot (R279, R305). -/
def timestampSend (p : Nat) (s : State) : State :=
  if !(s.port p).up || decide (p ≥ 128) || decide (s.now < (s.port p).lastStamp + 10000) then s
  else s.onPort p (fun x => { x with lastStamp := s.now, stampDue := true })

def execTimestampSend (p : Nat) (s : State) : Host.Outcome State Fault Refusal := .next (timestampSend p s)

/-- Mean of doubled offsets, in ns, to nearest with ties to even (R306). -/
def meanOffset (l : List Int) : Int :=
  let t := l.foldl (· + ·) 0
  let n := 2 * l.length
  if n = 0 then 0
  else if 0 ≤ t then (Num.rne t.toNat n : Int) else -(Num.rne (-t).toNat n : Int)

/-- A doubled ns value to nearest, ties to even. -/
def halfRound (x : Int) : Int := if 0 ≤ x then (Num.rne x.toNat 2 : Int) else -(Num.rne (-x).toNat 2 : Int)

/-- The exchange with the aligning peer that a timestamp completes (R305, R306, R307). -/
def State.exchange (s : State) (t : Timestamp) : State :=
  let t4 : Int := s.now
  let d2 : Int := (t4 - t.tEchoSend) - ((t.tSend : Int) - t.tEchoRecv)
  let o2 : Int := 2 * (t4 - t.tSend) - d2
  let offs := (o2 :: s.tb.offsets).take 16
  let est := meanOffset offs
  let bound := t.bound + 4
  let n := s.tb.exchanges + 1
  let load := !s.tb.loaded && decide (16 ≤ n)
  let count := if load then (t.tSend + (halfRound d2).toNat) % 2 ^ 64 else s.tb.count
  let ok := (s.tb.loaded || load) && decide (bound ≤ 8)
  let st := if ok then TbSt.aligned else if s.tb.st = .holdover then .holdover else if s.tb.st = .free then .acquiring
    else s.tb.st
  let s1 := { s with tb := { s.tb with
    count := count, offset := est, delay := halfRound d2, bound := bound, peerBound := t.bound
    offsets := if load then [] else offs
    exchanges := n, loaded := s.tb.loaded || load, lastExchange := count
    slew := if load then 0 else if s.tb.loaded then -est else 0
    st := st } }
  (s1.bumpTb .timeExchanges 1).checkReady

/-- `TIMESTAMP_RECEIVE` (R305 to R307): every flit is echoed; one from the aligning peer that echoes a flit of this
package completes an exchange.  The master never corrects itself. -/
def timestampReceive (p : Nat) (t : Timestamp) (s : State) : State :=
  if !(s.port p).up || decide (p ≥ 128) then s
  else
    let s1 := { s with tb := { s.tb with echo := s.tb.echo.put p (t.tSend, s.now, t.hops) } }
    if s.boot.fabricDone ∧ s.tb.master ≠ s.board.pkgId ∧ p = s.tb.port ∧ t.tEchoSend ≠ 0 then s1.exchange t else s1

def execTimestampReceive (p : Nat) (t : Timestamp) (s : State) : Host.Outcome State Fault Refusal :=
  .next (timestampReceive p t s)

/-- `TIMEBASE_HOLDOVER`: no exchange for 100 µs (R307). -/
def timebaseHoldover (s : State) : State :=
  if (s.tb.st = .aligned ∨ s.tb.st = .acquiring) ∧ s.tb.master ≠ s.board.pkgId ∧ s.tb.lastExchange + 100000 < s.now then
    ({ s with tb := { s.tb with st := .holdover, heldFrom := s.now, heldLogged := false } }).bumpTb .holdovers 1
  else s

def execTimebaseHoldover (s : State) : Host.Outcome State Fault Refusal := .next (timebaseHoldover s)

/-- `HOLDOVER_LOG`: after 10 ms in HOLDOVER (R307). -/
def holdoverLog (s : State) : State :=
  if s.tb.st = .holdover ∧ !s.tb.heldLogged ∧ s.tb.heldFrom + 10000000 ≤ s.now then
    ({ s with tb := { s.tb with heldLogged := true } }).raise 0x80F 0x35 0 0 3 s.alignBound
  else s

def execHoldoverLog (s : State) : Host.Outcome State Fault Refusal := .next (holdoverLog s)

/-- `PMP_TIME_QUERY`: the counter and status when the response is built, and Table 14-11 with the context's own two
counters (R316). -/
def timeQuery (c : Nat) (_ : List Nat) (_ : Msg) (s : State) : Act :=
  .ok s ([(.u64, s.now), (.u64, s.tbStatus)] ++ ctrFlds (s.ctx c).ctr [.lateStarts, .fixedSteps]
    ++ ctrFlds s.tb.ctr [.skewEvents, .skewTrips, .timeExchanges, .holdovers, .masterChanges])

def execPmpTimeQuery (w : Nat) (s : State) : Host.Outcome State Fault Refusal :=
  .next (commitMsg w 0x0600 (withCtx [] timeQuery) s)

end Sys2Proof.Machine
end

