-- ==== Sys2Proof/Machine/Parts.lean ====
section
/-! DEFINITION. Partitions, slices, contexts and their shares, teardown's end, and kills by message (15). -/

namespace Sys2Proof.Machine

/-! ### Partition records and Toll Gates (R317, R318, R325) -/

/-- Table 15-1. -/
def State.partRecord (s : State) (p : Nat) : Nat :=
  let r := s.part p
  packF [(0, 1, b2n r.enabled), (1, 1, b2n r.sched), (2, 1, b2n r.halted), (8, 9, r.coreFirst), (17, 10, r.coreCount),
    (32, 17, r.overrunUs), (64, 16, maskOf (s.ctxsOf p)), (80, 4, r.holder)]

/-- Table 15-4. -/
def Gate.record (g : Gate) : Nat := packF [(0, 16, g.rate), (16, 16, g.burst), (32, 8, g.weight)]

/-- Two core sets share a core. -/
def setsMeet (f n g m : Nat) : Bool := decide (n ≠ 0 ∧ m ≠ 0 ∧ f < g + m ∧ g < f + n)

/-- `PMP_PART_CONFIG` (R318). -/
def partConfig (a : List Nat) (_ : Msg) (s : State) : Act :=
  match a with
  | [p, flags, first, count, past] =>
    let r := s.part p
    let change := r.enabled != bit flags 0 || r.sched != bit flags 1 || r.coreFirst != first || r.coreCount != count
    checked [(flagsBad flags 2, .format), (decide (p > 7 ∨ first + count > 512 ∨ past > 100000), .bounds),
      ((List.range 8).any (fun q => q != p && (s.part q).enabled
        && setsMeet first count (s.part q).coreFirst (s.part q).coreCount), .bounds),
      (change && !(s.ctxsOf p).isEmpty, .busy)] s
      (.ok (s.onPart p (fun r => { r with
        enabled := bit flags 0, sched := bit flags 1, coreFirst := first, coreCount := count, overrunUs := past })) [])
  | _ => .no s .format

def execPmpPartConfig (w : Nat) (s : State) : Host.Outcome State Fault Refusal :=
  .next (commitMsg w 0x0500 (withReq [.u8, .u32, .u16, .u16, .u32] partConfig) s)

/-- `PMP_PART_QUERY`. -/
def partQuery (a : List Nat) (_ : Msg) (s : State) : Act :=
  match a with
  | [p] =>
    checked [(decide (p > 7), .bounds)] s
      (.ok s ((.r 128, s.partRecord p) :: (List.range 7).map (fun g => (.u64, (s.gate p g).record))))
  | _ => .no s .format

def execPmpPartQuery (w : Nat) (s : State) : Host.Outcome State Fault Refusal :=
  .next (commitMsg w 0x0501 (withReq [.u8] partQuery) s)

/-- `PMP_TOLL_CONFIG` (R325): the new record takes effect at once, with the bucket clipped to the new capacity. -/
def tollConfig (a : List Nat) (_ : Msg) (s : State) : Act :=
  match a with
  | [p, g, r] =>
    let rate := bits r 0 16
    let burst := bits r 16 16
    let weight := bits r 32 8
    checked [(decide (g > 6 ∨ bits r 40 24 ≠ 0), .format), (decide (p > 7 ∨ rate = 0 ∨ burst < 4 ∨ weight = 0), .bounds)] s
      (.ok (s.onGate p g (fun x => { x with
        rate := rate, burst := burst, weight := weight, bucket := min x.bucket ((burst * 1024 : Nat) : Int) })) [])
  | _ => .no s .format

def execPmpTollConfig (w : Nat) (s : State) : Host.Outcome State Fault Refusal :=
  .next (commitMsg w 0x0502 (withReq [.u8, .u8, .u64] tollConfig) s)

/-- `PMP_TOLL_STATS` (R335). -/
def tollStats (a : List Nat) (_ : Msg) (s : State) : Act :=
  match a with
  | [p] =>
    checked [(decide (p > 7), .bounds)] s
      (.ok s ((List.range 7).map (fun g => (.u64, (s.gate p g).bytes)) ++
        (List.range 7).map (fun g => (.u32, (s.gate p g).waits)) ++ ctrFlds (s.part p).ctr (partCtrs.drop 2)))
  | _ => .no s .format

def execPmpTollStats (w : Nat) (s : State) : Host.Outcome State Fault Refusal :=
  .next (commitMsg w 0x0503 (withReq [.u8] tollStats) s)

/-! ### Resets and teardown's end (R330, R331, R333) -/

/-- A message waits for FREE of a context or of a partition's contexts. -/
def freeWaits (op n : Nat) (m : Msg) : Bool := m.op == op && m.phase == .freeWait && m.num 0 1 == n

/-- The end of a partition's reset: full buckets, counters at zero, not halted. -/
def State.partClear (s : State) (p : Nat) : State :=
  s.onPart p (fun r => { r with
    halted := false, ctr := []
    gates := r.gates.map (fun g => { g with bucket := ((g.burst * 1024 : Nat) : Int), bytes := 0, waits := 0 }) })

/-- Ends the resets of a partition that wait, once every context of it is FREE. -/
def State.endResets (s : State) (p : Nat) : State :=
  let ms := s.host.msgs.filter (freeWaits 0x0504 p)
  if ms.isEmpty || !(s.ctxsOf p).isEmpty then s
  else ms.foldl (fun t m => t.complete m (owner m.op) .ok []) (s.partClear p)

/-- `PMP_PART_RESET` (R333): every context of the partition is torn down; the message completes when all are FREE. -/
def partReset (a : List Nat) (_ : Msg) (s : State) : Act :=
  match a with
  | [p] =>
    checked [(decide (p > 7), .bounds)] s
      (if (s.ctxsOf p).isEmpty then .ok (s.partClear p) []
       else .hold ((s.ctxsOf p).foldl (fun t c => t.tearDown c) s) .freeWait)
  | _ => .no s .format

def execPmpPartReset (w : Nat) (s : State) : Host.Outcome State Fault Refusal :=
  .next (commitMsg w 0x0504 (withReq [.u8] partReset) s)

/-- `PMP_CTX_DESTROY` (R330): completes when the context is FREE. -/
def ctxDestroy (c : Nat) (_ : List Nat) (_ : Msg) (s : State) : Act := .hold (s.tearDown c) .freeWait

def execPmpCtxDestroy (w : Nat) (s : State) : Host.Outcome State Fault Refusal :=
  .next (commitMsg w 0x0509 (withCtx [] ctxDestroy) s)

/-- `TEARDOWN_FREE` (R331): the return timeout plus 1 ms has passed; what other packages announced stays. -/
def teardownFree (c : Nat) (s : State) : State :=
  let x := s.ctx c
  if x.st = .teardown ∧ x.tornAt + x.returnUs * 1000 + 1000000 ≤ s.now then
    let s1 := s.onCtx c (fun x => { Ctx.fresh with
      rx := { Rx.fresh with areas := x.rx.areas }, resid := { Resid.fresh with resident := x.resid.resident } })
    let s2 := (s1.host.msgs.filter (freeWaits 0x0509 c)).foldl (fun t m => t.complete m (owner m.op) .ok []) s1
    s2.endResets x.share.partition
  else s

def execTeardownFree (c : Nat) (s : State) : Host.Outcome State Fault Refusal := .next (teardownFree c s)

/-- `TEARDOWN_STUCK` (R382): not FREE within the return timeout plus 10 ms raises C2 once. -/
def teardownStuck (c : Nat) (s : State) : State :=
  let x := s.ctx c
  if x.st = .teardown ∧ !x.stuck ∧ x.tornAt + x.returnUs * 1000 + 10000000 < s.now then
    (s.onCtx c (fun y => { y with stuck := true })).raise 0x80A 0x60 2 c 0 0
  else s

def execTeardownStuck (c : Nat) (s : State) : Host.Outcome State Fault Refusal := .next (teardownStuck c s)

/-! ### Creation (R322 to R324) -/

/-- The share record of Table 15-3. -/
def Share.read (x : Nat) : Share :=
  ⟨bits x 0 4, bits x 4 3, bits x 7 1, bits x 8 17, bits x 25 18, bits x 43 12, bits x 55 13, bits x 68 16, bits x 84 17,
   bits x 128 10, bits x 138 10, bits x 148 12, bits x 160 17, (List.range 4).map (fun n => bits x (192 + 20 * n) 20),
   bits x 272 24, bits x 296 16, bits x 312 32, bits x 344 16, bits x 360 19, bits x 380 17⟩

/-- The record of a share. -/
def Share.pack (h : Share) : Nat :=
  packF ([(0, 4, h.ctx), (4, 3, h.partition), (7, 1, h.mode), (8, 17, h.seqFirst), (25, 18, h.seqCount), (43, 12, h.wsFirst),
    (55, 13, h.wsCount), (68, 16, h.tpFirst), (84, 17, h.tpCount), (128, 10, h.stagingMib), (138, 10, h.rxMib),
    (148, 12, h.table64k), (160, 17, h.t1Mib)] ++ (List.range 4).map (fun n => (192 + 20 * n, 20, h.t2Mib.getD n 0)) ++
    [(272, 24, h.t4Gib), (296, 16, h.t3Lots), (312, 32, h.classSplit), (344, 16, h.dModel), (360, 19, h.stepLimit),
     (380, 17, h.sliceUs)])

/-- Reserved bits of the record are not all zero. -/
def shareReserved (x : Nat) : Bool := bits x 101 27 != 0 || bits x 177 15 != 0 || bit x 379 || bits x 397 115 != 0

/-- Two ranges meet. -/
def rangesMeet (f n g m : Nat) : Bool := setsMeet f n g m

/-- Check 5 of R323. -/
def State.shareBounds (s : State) (h : Share) : Bool :=
  let others := s.ctxs.filter (fun x => x.st == .active)
  decide (h.seqCount < 1 ∨ h.seqCount > 131072 ∨ h.wsCount < 1 ∨ h.wsCount > 4096 ∨ h.tpCount > 65536)
  || decide (h.stagingMib < 32 ∨ h.stagingMib > 384 ∨ h.rxMib > h.stagingMib - 32 ∨ h.table64k < 16 ∨ h.table64k > 1280)
  || decide (h.t1Mib > 90112 ∨ h.dModel = 0 ∨ h.dModel % 32 ≠ 0 ∨ h.stepLimit < 1 ∨ h.stepLimit > 262144)
  || decide (h.sliceUs < 50 ∨ h.sliceUs > 100000)
  || decide (h.seqFirst + h.seqCount > 131072 ∨ h.wsFirst + h.wsCount > 4096 ∨ h.tpFirst + h.tpCount > 65536)
  || others.any (fun x => rangesMeet h.seqFirst h.seqCount x.share.seqFirst x.share.seqCount
      || rangesMeet h.wsFirst h.wsCount x.share.wsFirst x.share.wsCount
      || rangesMeet h.tpFirst h.tpCount x.share.tpFirst x.share.tpCount)

/-- A quantity of every resident context and of a new share, summed. -/
def State.shareSum (s : State) (h : Share) (f : Share → Nat) : Nat :=
  f h + sumN ((s.ctxs.filter (fun x => x.st == .active)).map (fun x => f x.share))

/-- Bytes of T1 carved before the Khan pools: handle table, step-record ring, layout queue, spill reserve (R324). -/
def Share.t1Fixed (h : Share) : Nat :=
  8 * mib + 16 * mib + layoutMiddle + spillBytes h.stepLimit h.dModel (if h.mode = 0 then 1 else 16)

/-- Check 6 of R323. -/
def State.shareMemory (s : State) (h : Share) : Bool :=
  decide (s.shareSum h (·.stagingMib) > 384 ∨ s.shareSum h (·.table64k) > 1280 ∨ s.shareSum h (·.t1Mib) > 90112)
  || (List.range 4).any (fun d => decide (s.shareSum h (fun y => y.t2Mib.getD d 0) * mib
      + (s.lentOf 2 d).length * lotBytes > s.dieLimit d))
  || decide (s.shareSum h (·.t4Gib) * gib > s.farLimit)
  || decide (h.t1Fixed > h.t1Mib * mib ∨ tableUnits [] > h.table64k)

/-- 4 MiB units from a base that no context and no lot has. -/
def State.freeUnits (s : State) (base n : Nat) : List Nat :=
  ((List.range n).map (fun i => base + i * chunkBytes)).filter (fun u =>
    !s.ctxs.any (fun x => x.units.contains u) && !s.lend.lots.any (fun l => decide (l.base ≤ u ∧ u < l.base + lotBytes)))

/-- A list turned by a number of places: which units a share takes is not the spec's to say. -/
def rotate (l : List Nat) (n : Nat) : List Nat := l.drop (n % Nat.max 1 l.length) ++ l.take (n % Nat.max 1 l.length)

/-- Units of a new share: the ring, and the chunks of T0, T1 and T2, or none where T1 has too few (R237, R324). -/
def State.shareUnits (s : State) (h : Share) : Option (Nat × List Nat × List Nat × List (List Nat)) :=
  let f1 := s.freeUnits (addr 1 0) 22528
  let starts := f1.filter (fun u => (List.range 4).all (fun i => f1.contains (u + i * chunkBytes)))
  if h.t1Mib / 4 > f1.length ∨ starts.isEmpty then none
  else
    let ring := starts.getD (s.free 0 % starts.length) 0
    let rest := rotate (f1.filter (fun u => decide (u < ring ∨ ring + 4 * chunkBytes ≤ u))) (s.free 1)
    some (ring, (rotate (s.freeUnits (addr 0 0x30000000) 96) (s.free 2)).take (h.stagingMib / 4),
      rest.take (h.t1Mib / 4 - 4),
      (List.range 4).map (fun d => (rotate (s.freeUnits (addr 2 (d * 2 ^ 52)) (s.dieLimit d / chunkBytes))
        (s.free (3 + d))).take (h.t2Mib.getD d 0 / 4)))

/-- A created context (R48, R207, R322, R324).  What context 0 counted while FREE stays (R123, R146). -/
def State.newCtx (s : State) (h : Share) (ring : Nat) (u0 u1 : List Nat) (u2 : List (List Nat)) : Ctx :=
  let n0 := (h.stagingMib - h.rxMib) / 4
  let n1 := (h.t1Mib * mib - h.t1Fixed) / chunkBytes
  let pool (l : List Nat) : Pool := carve (classCounts h.classSplit l.length) 0 l Pool.fresh
  let t2 (l : List Nat) : Pool := { Pool.fresh with chunks := l.foldl (fun t u => t.put u 4) [] }
  let old := s.ctx h.ctx
  let mid : KSlot := ⟨(u1.drop n1).headD 0, layoutMiddle, classFor layoutMiddle, 0x9, 1, true⟩
  { Ctx.fresh with
    st := .active, share := h, ctr := old.ctr
    khan := { Khan.fresh with slots := [(1, mid)], nextNew := 2, pools := pool (u0.take n0) :: pool (u1.take n1) :: u2.map t2 }
    steps := Steps.fresh h.stepLimit (h.mode == 1) (s.board.pkgId * 2 ^ 57 + ring)
    sfnRev := s.upd.numerics
    resid := { Resid.fresh with resident := old.resid.resident }
    rx := { Rx.fresh with areas := old.rx.areas.put s.board.pkgId (h.rxMib * mib) }
    lanes := { Lanes.fresh with layoutWs := h.wsFirst + s.free 7 % Nat.max 1 h.wsCount }
    spill := h.t1Fixed - 24 * mib - layoutMiddle
    units := [ring, ring + chunkBytes, ring + 2 * chunkBytes, ring + 3 * chunkBytes] ++ u0 ++ u1 ++ u2.flatten }

/-- The layout queue (R214, R264): its middle is the context's first allocation, in slot 1 (R261; log entry 106). -/
def layoutQueue (c : Nat) : Ws :=
  { Ws.fresh with
    st := 2, ctx := c, width := 4, consumer := 2, lanePush := true, depthLog2 := 10, middle := handleOf 1 0 c 1 1 }

/-- `PMP_CTX_CREATE` (R322 to R324): the context becomes ACTIVE, takes the slice of an idle sliced partition, and its
`RX_AREA` is announced (R106).  T1 that only lots make short is recalled, and the message waits (R237). -/
def ctxCreate (a : List Nat) (m : Msg) (s : State) : Act :=
  match a with
  | [x] =>
    let h := Share.read x
    let p := s.part h.partition
    checked [(shareReserved x, .format), (!(s.admitted m.sess).testBit h.partition, .denied),
      (!p.enabled || p.halted || p.coreCount == 0, .unavailable), ((s.ctx h.ctx).st != .free, .busy),
      (s.shareBounds h, .bounds), (s.shareMemory h, .noMemory)] s
      (match s.shareUnits h with
       | none => if (s.lentOf 1 0).isEmpty then .no s .noMemory else .hold s .lotWait
       | some (ring, u0, u1, u2) =>
         let y := s.newCtx h ring u0 u1 u2
         let s1 := ((s.onCtx h.ctx (fun _ => y)).onWs y.lanes.layoutWs (fun _ => layoutQueue h.ctx)).freed
         let s2 := if p.sched && (s.ctxsOf h.partition).isEmpty then
             (s1.onPart h.partition (fun r => { r with holder := h.ctx, sliceStart := s.now })).bumpPart h.partition .slices 1
           else s1
         .ok (s2.sendGuide h.ctx [0xB, h.rxMib * mib] s.others) [])
  | _ => .no s .format

def execPmpCtxCreate (w : Nat) (s : State) : Host.Outcome State Fault Refusal :=
  .next (commitMsg w 0x0508 (withReq [.r 512] ctxCreate) s)

/-- `STATE` of `PMP_CTX_QUERY`. -/
def ctxCode : CtxSt → Nat
  | .free => 0
  | .active => 1
  | .teardown => 2

/-- `PMP_CTX_QUERY`: answered in every state and for a halted partition too. -/
def ctxQuery (a : List Nat) (m : Msg) (s : State) : Act :=
  match a with
  | [c] =>
    checked [(decide (c > 15), .bounds), ((s.ctx c).st != .free && !s.owns m.sess c, .denied)] s
      (.ok s [(.u8, ctxCode (s.ctx c).st), (.r 512, (s.ctx c).share.pack)])
  | _ => .no s .format

def execPmpCtxQuery (w : Nat) (s : State) : Host.Outcome State Fault Refusal :=
  .next (commitMsg w 0x050A (withReq [.u8] ctxQuery) s)

/-! ### Kills and holds (R328) -/

/-- `PMP_STEP_KILL`. -/
def stepKill (c : Nat) (a : List Nat) (_ : Msg) (s : State) : Act :=
  match a with
  | [epoch, flags] =>
    let st := (s.ctx c).steps
    checked [(flagsBad flags 1, .format)] s
      (if st.man.map (·.epoch) = some epoch then
         .ok ((s.killStep c).onCtx c (fun x => { x with held := x.held || bit flags 0 })) []
       else if st.doneMask.testBit epoch then .no s .cancelled
       else .no s .bounds)
  | _ => .no s .format

def execPmpStepKill (w : Nat) (s : State) : Host.Outcome State Fault Refusal :=
  .next (commitMsg w 0x0510 (withCtx [.u16, .u32] stepKill) s)

/-- `PMP_CTX_RESUME`. -/
def ctxResume (c : Nat) (_ : List Nat) (_ : Msg) (s : State) : Act := .ok (s.onCtx c (fun x => { x with held := false })) []

def execPmpCtxResume (w : Nat) (s : State) : Host.Outcome State Fault Refusal :=
  .next (commitMsg w 0x0511 (withCtx [] ctxResume) s)

/-! ### Slices (R320, R321) -/

/-- A sequence that a boundary may select or take in. -/
def Seq.ready (q : Seq) : Bool := q.st == .waiting || q.st == .prefill || q.st == .decode

/-- A launch has a string to place now. -/
def Launch.ready (l : Launch) : Bool := l.st == 1 && l.strs.any (fun g => g.st == 0)

/-- A context has something ready to start: a new step, a string to place, a layout command. -/
def State.readyToStart (s : State) (c : Nat) : Bool :=
  let x := s.ctx c
  x.st == .active &&
  (x.lanes.launches.any (fun l => l.ready) || x.lanes.cmds.any (fun k => !k.running)
   || (x.steps.man.isNone && !x.held && s.seqs.any (fun e => e.2.ctx == c && e.2.ready)))

/-- The next contexts of a partition after its holder, in ascending cyclic order, the holder last. -/
def State.sliceOrder (s : State) (p : Nat) : List Nat :=
  let l := (s.ctxsOf p).filter (fun c => (s.ctx c).st == .active)
  let h := (s.part p).holder
  l.filter (fun c => decide (h < c)) ++ l.filter (fun c => decide (c ≤ h))

/-- Work of a context that started in its slice and has not committed: steps, launches and commands. -/
def State.startedIn (s : State) (c t : Nat) : Nat :=
  let x := s.ctx c
  b2n (x.steps.man.isSome && x.steps.sliceAt == t) + countP (fun (l : Launch) => l.sliceAt == t) x.lanes.launches
  + countP (fun (k : Cmd) => k.running && k.sliceAt == t) x.lanes.cmds

/-- `SLICE_PASS` (R320): the holder's slice is over or it has nothing ready, and the next context that has takes it. -/
def slicePass (p : Nat) (s : State) : State :=
  let r := s.part p
  let x := s.ctx r.holder
  let here := x.st == .active && x.share.partition == p
  if 8 ≤ p ∨ !r.sched ∨ r.halted ∨ !s.booted then s
  else if here && decide (s.now < r.sliceStart + x.share.sliceUs * 1000) && s.readyToStart r.holder then s
  else
    match (s.sliceOrder p).find? s.readyToStart with
    | none => s
    | some c =>
      let skipped := ((s.sliceOrder p).takeWhile (fun d => d != c)).length
      let more := if here && s.startedIn r.holder r.sliceStart != 0 then
          [Overrun.mk r.holder r.sliceStart (s.now + r.overrunUs * 1000)] else []
      ((s.onPart p (fun r => { r with holder := c, sliceStart := s.now, overruns := r.overruns ++ more })).bumpPart p .slices
        1).bumpPart p .sliceSkips skipped

def execSlicePass (p : Nat) (s : State) : Host.Outcome State Fault Refusal := .next (slicePass p s)

/-- Kills what a context started in a slice (R321). -/
def State.killSlice (s : State) (c t : Nat) : State :=
  let s1 := if (s.ctx c).steps.man.isSome && (s.ctx c).steps.sliceAt == t then s.killStep c else s
  let s2 := ((s1.ctx c).lanes.launches.filter (fun l => l.sliceAt == t)).foldl (fun u l => u.killLaunch c l.id 3) s1
  s2.killCmds c (fun k => k.running && k.sliceAt == t)

/-- `OVERRUN_DEADLINE` (R321): the oldest overrun of a partition past its deadline; a commit at the deadline wins. -/
def overrunDeadline (p : Nat) (s : State) : State :=
  match (s.part p).overruns.find? (fun o => decide (o.deadline < s.now)) with
  | some o =>
    let s1 := s.onPart p (fun r => { r with overruns := eraseFirst (fun q => decide (q = o)) r.overruns })
    if (s.ctx o.ctx).st = .active then
      (s1.killSlice o.ctx o.slice).bumpPart p .overrunKills (s.startedIn o.ctx o.slice)
    else s1
  | none => s

def execOverrunDeadline (p : Nat) (s : State) : Host.Outcome State Fault Refusal := .next (overrunDeadline p s)

end Sys2Proof.Machine
end

