-- ==== Sys2Proof/Machine/Layout.lean ====
section
/-! DEFINITION. Commands of the layout queue: entry by message, start, completion (10 R214, R223, R226, R227). -/

namespace Sys2Proof.Machine

/-- A context may start work now: it is ACTIVE, nothing is stopped, its partition is not halted and, where sliced, the
context holds the slice (R320, R333, R383). -/
def State.mayStart (s : State) (c : Nat) : Bool :=
  let r := s.part (s.ctx c).share.partition
  (s.ctx c).st == .active && s.flt.dev == .serving && !r.halted && (!r.sched || r.holder == c)

/-- Start of the slice in which a context's work starts now, 0 in a partition that is not sliced. -/
def State.sliceNow (s : State) (c : Nat) : Nat :=
  let r := s.part (s.ctx c).share.partition
  if r.sched then r.sliceStart else 0

/-- An earlier command may write a map that a command reads (R217, R227). -/
def State.mapsMeet (s : State) (k b : LayCmd) : Bool :=
  [k.smap, k.dmap].any (fun z => [some b.dst, b.dscale].any (fun w => meet (z.bind s.descRange) (w.bind s.descRange)))

/-- `PMP_LAYOUT_RUN` (R214, R215, R223): the command's context is the one in the record; it binds to the generation that was active at
receipt.  The response goes out when the checks are made, which a map that an earlier command may write delays to the start. -/
def layoutRun (a : List Nat) (m : Msg) (s : State) : Act :=
  match a with
  | [raw] =>
    let c := bits raw 80 4
    let x := s.ctx c
    let own := s.owns m.sess c
    let halted := (s.part x.share.partition).halted
    let k := LayCmd.read (x.layAt m.layGen) raw
    checked [(x.st == .free, .unavailable), (!own && (x.st == .teardown || halted), .denied), (x.st == .teardown, .unavailable),
      (halted, .faulted)] s
      (match s.layFirst c own k with
       | .bad st => .no (s.bumpCtx c .layoutRejects 1) st
       | .zero => .ok (s.layDone c k) []
       | .go =>
         let q := s.wst x.lanes.layoutWs
         let wait := x.lanes.cmds.any (fun b => s.mapsMeet k (x.cmd b))
         if !wait && s.mapsBad k then .no (s.bumpCtx c .layoutRejects 1) .bounds
         else if q.room = 0 then .no (s.bumpCtx c .wsFullWaits 1) .busy
         else
           let t := (s.wsPush x.lanes.layoutWs [raw]).onLanes c (fun y => { y with
             cmds := y.cmds ++ [⟨raw, m.layGen, none, false, 0, false, none, wait, none⟩] })
           if wait then .hold t .layoutWait else .ok t [])
  | _ => .no s .format

def execPmpLayoutRun (w : Nat) (s : State) : Host.Outcome State Fault Refusal :=
  .next (commitMsg w 0x0340 (withReq [.r 320] layoutRun) s)

/-- Bounding byte ranges of the descriptors that a command names. -/
def State.cmdRanges (s : State) (k : LayCmd) : List (Option (Int × Int)) := k.named.map s.descRange

/-- Two commands' ranges overlap (R227). -/
def State.cmdsMeet (s : State) (k l : LayCmd) : Bool :=
  (s.cmdRanges k).any (fun a => (s.cmdRanges l).any (fun b => meet a b))

/-- Bytes that a command moves at each of its buffers (R326). -/
def State.cmdBytes (s : State) (k : LayCmd) : List (Nat × Nat) :=
  [(s.descBase k.src, ceilDiv (k.count * k.src.ebits) 8), (s.descBase k.dst, ceilDiv (k.count * k.dst.ebits) 8)]
  ++ [k.smap, k.dmap].filterMap (fun d => d.map (fun m => (s.descBase m, 4 * m.extent 0)))

/-- `LAYOUT_COMMAND_START`: the first command of the queue that has not started is read from it, checked and started, unless its
ranges overlap those of one that still runs (R223, R227).  Its map entries are read now, before any write (R217); a message whose
response waited for this is answered. -/
def layoutStart (c : Nat) (s : State) : State :=
  let x := s.ctx c
  let busy := x.lanes.cmds.takeWhile (fun k => k.running)
  match x.lanes.cmds.drop busy.length with
  | [] => s
  | k :: rest =>
    let y := x.cmd k
    let v := s.layCheck c (y.ctx == c) y
    let runs := v == .go && y.count != 0
    if !s.mayStart c || busy.any (fun b => b.bad.isNone && s.cmdsMeet y (x.cmd b)) then s
    else
      match if runs then (s.cmdBytes y).find? (fun a => s.heldAt c a.1) else none with
      | some a => s.heldWait c a.1
      | none =>
        let r := s.wsPop x.lanes.layoutWs
        let poison := (r.2.map (·.2)).getD false
        let s1 := if runs && !poison then (s.cmdBytes y).foldl (fun t a => t.charge c a.1 a.2) r.1 else r.1
        let bad := match v with | .bad st => if poison then none else some st | _ => none
        let s2 := s1.onLanes c (fun l => { l with cmds := busy ++ { k with
          running := true, sliceAt := s.sliceNow c, poisoned := poison, bad := bad.map Status.code, answer := false
          maps := if runs then some (s.readMaps y) else none } :: rest })
        match k.answer, bad with
        | false, _ => s2
        | true, none => s2.layoutAnswer c .ok
        | true, some st => ((s1.onLanes c (fun l => { l with cmds := busy ++ rest })).bumpCtx c .layoutRejects 1).layoutAnswer c st

def execLayoutCommandStart (c : Nat) (s : State) : Host.Outcome State Fault Refusal := .next (layoutStart c s)

/-- `LAYOUT_COMMAND_COMPLETE` (R226): command i of the running ones completes REJECTED, FAULTED where its word was poisoned
or a read of it met an uncorrectable error, else DONE with its whole effect. -/
def layoutComplete (c i : Nat) (ue : Option Nat) (s : State) : State :=
  let x := s.ctx c
  match x.lanes.cmds[i]? with
  | none => s
  | some k =>
    if !k.running then s
    else
      let y := x.cmd k
      let s1 := s.onLanes c (fun l => { l with cmds := l.cmds.take i ++ l.cmds.drop (i + 1) })
      if k.poisoned then (s1.layFault c y (s1.free 0)).freed
      else
        match k.bad with
        | some st => s1.layReject c y st
        | none =>
          let reads := s1.layReads y
          let err := (match ue with | some a => reads.find? (fun r => r / 64 == a / 64) | none => none).orElse
            (fun _ => reads.find? (fun r => s1.poison.contains (r / 64)))
          match err with
          | some a => (s1.takePoison a 1).2.layFault c y a
          | none => s1.layDone c y

def execLayoutCommandComplete (c i : Nat) (ue : Option Nat) (s : State) : Host.Outcome State Fault Refusal :=
  .next (layoutComplete c i ue s)

end Sys2Proof.Machine
end

