-- ==== Sys2Proof/Machine/Models.lean ====
section
/-! DEFINITION. Loading a model and its images, and the host's capacity plans (05 R113, 07 R147 to R149, 17 R372). -/

namespace Sys2Proof.Machine

/-! ### The model descriptor (Table 17-5) -/

/-- Offsets of the four arrays: attention bytes, `LAST_EXPERT`, stop sets, turn-end sets. -/
def attnOff : Nat := 64
def lastOff (attn : Nat) : Nat := roundUp (attnOff + attn) 8
def stopOff (attn moe : Nat) : Nat := roundUp (lastOff attn + 2 * moe) 8
def turnOff (attn moe : Nat) : Nat := stopOff attn moe + 1024
/-- Bytes of a whole descriptor. -/
def modelBytes (attn moe : Nat) : Nat := turnOff attn moe + 1024

/-- Sixteen sets of sixteen `u32` each at an offset of a buffer. -/
def State.tokenSets (s : State) (h off : Nat) : List (List Nat) :=
  (List.range 16).map (fun i => (List.range 16).map (fun j => ofLE (s.bufBytes h (off + 64 * i + 4 * j) 4)))

/-- A descriptor in a buffer: header `d` and its arrays. -/
def State.readModel (s : State) (h d : Nat) : Model :=
  let moe := bits d 48 10
  let attn := bits d 58 10
  { share := if bit d 36 then some (s.imgOwner (bits d 37 4)) else none
    stoch := bit d 41, moe := moe, page := 64 * 2 ^ bits d 68 2, vocab := bits d 96 32, heads := bits d 144 16
    headDim := bits d 160 16, window := bits d 176 24, imageBytes := bits d 224 32
    attn := (List.range attn).map (fun i => ofLE (s.bufBytes h (attnOff + i) 1))
    last := (List.range moe).map (fun i => ofLE (s.bufBytes h (lastOff attn + 2 * i) 2))
    stops := s.tokenSets h (stopOff attn moe), turns := s.tokenSets h (turnOff attn moe)
    complete := bit d 36 && ((s.ctx (s.imgOwner (bits d 37 4))).model.map (·.complete)).getD false }

/-- `ST_FORMAT` of R372. -/
def State.modelFormatBad (s : State) (c d : Nat) (m : Model) : Bool :=
  let o := bits d 37 4
  bits d 0 32 != 0x4D4F444C || bits d 32 4 != c || bits d 42 6 != 0 || bits d 70 26 != 0 || bits d 200 24 != 0
  || bits d 256 256 != 0 || bits d 68 2 == 3 || m.attn.any (fun a => a % 4 == 3 || decide (8 ≤ a))
  || bits d 128 16 != (s.ctx c).share.dModel || m.last.any (fun l => decide (0xFFFD < l))
  || (bit d 36 && ((s.ctx o).st != .active || (s.ctx o).model.map (·.imageBytes) != some m.imageBytes))

/-- `ST_BOUNDS` of R372 for the header's fields. -/
def modelBoundsBad (d : Nat) (m : Model) : Bool :=
  decide (m.moe < 1 ∨ 512 < m.moe ∨ 512 < bits d 58 10 ∨ m.vocab < 1 ∨ 1048576 < m.vocab ∨ m.heads < 1 ∨ 256 < m.heads
    ∨ m.headDim < 32 ∨ 1024 < m.headDim ∨ m.headDim % 32 ≠ 0 ∨ m.window < 1)

/-- The die of an expert's primary at model load. -/
def State.primary (s : State) (c k : Nat) : Nat × Nat :=
  let l := s.dieList c
  l.getD (Config.primaryPlace c k % Nat.max 1 l.length) (s.board.pkgId, 0)

/-- Every real expert of a descriptor. -/
def Model.experts (m : Model) : List Nat :=
  ((List.range m.moe).map (fun l => (List.range (m.last.getD l 0 + 1)).map (expKey l))).flatten

/-- Expert entries at model load: one primary each; those of the sharing context where images are shared (R149). -/
def State.firstExperts (s : State) (c : Nat) (m : Model) : Tbl Expert :=
  m.experts.map (fun k =>
    let own : Expert := ⟨true, false, false, 0, [⟨(s.primary c k).1, (s.primary c k).2, true, 8⟩]⟩
    (k, match m.share with
      | some o => ((s.ctx o).route.active.experts.find k).getD own
      | none => own))

/-- Places for the source copies of the primaries here: the far pool share first, then lots (R149); none where they do
not fit. -/
def State.placeSources (s : State) (c n : Nat) : List (Nat × Nat) → Tbl Source → Option (Tbl Source)
  | [], t => some t
  | (k, p) :: r, t =>
    let used (pkg kind : Nat) : Nat := n * countP (fun (e : Nat × Source) => e.2.pkg == pkg && e.2.kind == kind) t
    if p ≠ s.board.pkgId then s.placeSources c n r (t.put k ⟨p, 4, [], [], false, none⟩)
    else if s.t4Used c + used p 4 + n ≤ (s.ctx c).share.t4Gib * gib then
      s.placeSources c n r (t.put k ⟨p, 4, [], [], false, none⟩)
    else
      match (s.ctx c).kv.lots.find? (fun l => !l.recalled
        && decide (s.lotUsed c l + used l.lender l.base + n ≤ lotBytes)) with
      | some l => s.placeSources c n r (t.put k ⟨l.lender, l.base, [], [], false, none⟩)
      | none => none

/-- A context takes a model: its descriptor, its sources and its first route entries. -/
def State.takeModel (s : State) (c : Nat) (m : Model) (src : Tbl Source) : State :=
  s.onCtx c (fun x => { x with
    model := some m, resid := { x.resid with sources := src, lastPlan := s.now }
    route := { x.route with active := { x.route.active with experts := s.firstExperts c m } } })

/-- `PMP_MODEL_LOAD` (R372): the descriptor lies in a T1 buffer. -/
def modelLoad (c : Nat) (a : List Nat) (m : Msg) (s : State) : Act :=
  match a with
  | [h] =>
    let d := ofLE (s.bufBytes h 0 64)
    let y := s.readModel h d
    let granted := ((s.session m.sess).map (·.granted)).getD 0
    checked (s.handleUse c h true 64 ++ [(hTier h != 1, .format), (bit d 41 && !granted.testBit 11, .unsupported),
      (s.modelFormatBad c d { y with attn := [], last := [] }, .format), (modelBoundsBad d y, .bounds)]
      ++ s.handleUse c h true (modelBytes (bits d 58 10) y.moe)
      ++ [(s.modelFormatBad c d y, .format), ((s.ctx c).model.isSome, .busy)]) s
      (let t := (s.onCtx c (fun x => { x with model := some y })).placeSources c (imageSpan y.imageBytes)
         (if y.share.isSome then [] else y.experts.map (fun k => (k, (s.primary c k).1))) []
       match t with
       | some src =>
         let r : Route := { layers := [], experts := s.firstExperts c y }
         let w := s.fitCopies c (r.bytes y.moe (ceilDiv (y.experts.length * headroomBp s.appliance) 10000))
         if w.1 then .ok (w.2.takeModel c y src) [] else .no w.2 .noMemory
       | none => .no s .noMemory)
  | _ => .no s .format

def execPmpModelLoad (w : Nat) (s : State) : Host.Outcome State Fault Refusal :=
  .next (commitMsg w 0x0200 (withCtx [.u32] modelLoad) s)

/-- Every image of a context's model is here. -/
def Ctx.allImages (x : Ctx) : Bool := x.resid.sources.all (fun e => !e.2.image.isEmpty)

/-- `PMP_MODEL_IMAGES` (R147, R169, R372): each image with its chunk CRCs, in expert order; the last missing one completes
the model load, and the placement leader plans (R160, R161).  A complete load is not written again (R147). -/
def modelImages (c : Nat) (a : List Nat) (_ : Msg) (s : State) : Act :=
  match a with
  | [l, f, n, h] =>
    let x := s.ctx c
    let b := s.imageBytes c
    let span := imageSpan b
    checked ([(x.model.isNone || (x.model.map (·.share)).getD none != none, .unavailable),
        (decide ((x.model.map (·.moe)).getD 0 ≤ l), .bounds), (decide (x.lastExpert l + 1 < f + n), .bounds)]
      ++ s.handleUse c h (n != 0 || h != 0) (n * span)
      ++ [((List.range n).any (fun i => !s.imageOk h (i * span) b), .format)]) s
      (if (x.model.map (·.complete)).getD false then .ok s [(.u8, 1)]
       else
         let s1 := s.onResid c (fun r => { r with sources := (List.range n).foldl (fun t i =>
           t.adjust (expKey l (f + i)) (fun y => { y with
             image := s.bufBytes h (i * span) b, crcs := s.imageCrcs h (i * span) b })) r.sources })
         let now := (s1.ctx c).allImages
         let s2 := (s1.sharers c).foldl (fun t k => t.onCtx k (fun y => { y with
           model := y.model.map (fun z => { z with complete := now }) })) s1
         .ok (if now then (s2.planReplicas c true).startMirrors c else s2) [(.u8, b2n now)])
  | _ => .no s .format

def execPmpModelImages (w : Nat) (s : State) : Host.Outcome State Fault Refusal :=
  .next (commitMsg w 0x0201 (withCtx [.u16, .u16, .u16, .u32] modelImages) s)

/-! ### The host's plans (R113) -/

/-- (expert, replica index, package) of a layer in replica-array order (R88). -/
def Route.replicaOrder (r : Route) (l : Nat) : List (Nat × Nat × Nat) :=
  ((r.experts.filter (fun e => e.1 / 65536 == l)).map (fun e =>
    (List.range e.2.replicas.length).map (fun i =>
      (e.1 % 65536, i, ((e.2.replicas[i]?).map (·.pkg)).getD 0)))).flatten

/-- Key of a capacity: expert and replica. -/
def capKey (e i : Nat) : Nat := e * 16 + i

/-- Capacity arrays of the named layers: (layer key, capacities by (expert, replica)). -/
def State.planArrays (s : State) (r : Route) (h : Nat) : List Nat → Nat → List (Nat × List (Nat × Nat × Nat × Nat))
  | [], _ => []
  | l :: ls, off =>
    let o := r.replicaOrder l
    let read (at_ : Nat) : List (Nat × Nat × Nat × Nat) :=
      (List.range o.length).map (fun i =>
        let e := o.getD i (0, 0, 0)
        (e.1, e.2.1, e.2.2, ofLE (s.bufBytes h (at_ + 2 * i) 2)))
    (layKey l false, read off) :: (layKey l true, read (off + 2 * o.length)) ::
      s.planArrays r h ls (off + 4 * o.length)

/-- Bytes of the arrays. -/
def planBytes (r : Route) (ls : List Nat) : Nat := sumN (ls.map (fun l => 4 * (r.replicaOrder l).length))

/-- A destination sum of an array above the receive allowance. -/
def State.planOver (s : State) (c : Nat) (r : Route) (x : Nat × List (Nat × Nat × Nat × Nat)) : Bool :=
  let fmt := dispFmt (r.layer (x.1 / 2)).disp
  x.2.any (fun e => decide (s.allowance c e.2.2.1 fmt <
    sumN ((x.2.filter (fun f => f.2.2.1 == e.2.2.1)).map (fun f => f.2.2.2))))

/-- `PMP_PLAN_SET` (R113). -/
def planSet (c : Nat) (a : List Nat) (_ : Msg) (s : State) : Act :=
  match a with
  | [epoch, first, n, h, map] =>
    let x := s.ctx c
    let flight := x.steps.man.map (·.epoch) == some epoch
    let ended := x.steps.doneMask.testBit epoch || x.steps.killedMask.testBit epoch
    let ls := (List.range n).map (· + first)
    let marked := onesOf 512 map
    let r := x.boundRoute
    let arrays := s.planArrays r h ls 0
    checked ((ls ++ marked).flatMap (fun l => s.layerChecks c l) ++ [(!flight && ended, .cancelled)]
      ++ s.handleUse c h (n != 0 || h != 0) (planBytes r ls)
      ++ [(arrays.any (fun y => s.planOver c r y), .bounds),
          (flight && (x.steps.man.map (·.fixed)).getD false && !marked.isEmpty, .denied)]) s
      (let open_ (k : Nat) : Bool := flight && !(x.layer (k / 2 * 2)).sealing && !(x.layer (k / 2 * 2 + 1)).sealing
       let caps := (arrays.filter (fun y => open_ y.1)).map (fun y =>
         (y.1, y.2.foldl (fun (t : Tbl Nat) e => t.put (capKey e.1 e.2.1) e.2.2.2) ([] : Tbl Nat)))
       let keys := (marked.map (fun l => [layKey l false, layKey l true])).flatten.filter open_
       .ok (s.onCtx c (fun x => { x with plans := { x.plans with
         host := caps.foldl (fun t e => t.put e.1 e.2) x.plans.host
         hostReserved := x.plans.hostReserved ++ keys } })) [])
  | _ => .no s .format

def execPmpPlanSet (w : Nat) (s : State) : Host.Outcome State Fault Refusal :=
  .next (commitMsg w 0x0215 (withCtx [.u16, .u16, .u16, .u32, .r 512] planSet) s)

end Sys2Proof.Machine
end

