-- ==== Sys2Proof/Machine/Seqs.lean ====
section
/-! DEFINITION. The Sequence Table and its messages (03 R43 to R50, R54, R62, R66, R67, R420, R421). -/

namespace Sys2Proof.Machine

/-! ### Entries and storage -/

/-- Code of a state (Table 3-2). -/
def seqCode : SeqSt → Nat
  | .free => 0
  | .waiting => 1
  | .prefill => 2
  | .decode => 3
  | .idle => 4
  | .leaving => 5

/-- Table 3-1. -/
def Seq.pack (q : Seq) : Nat :=
  packF [(0, 3, seqCode q.st), (3, 4, q.ctx), (7, 3, q.part), (10, 1, b2n q.kvFar), (11, 1, b2n q.paused),
    (12, 1, b2n q.retire), (16, 12, q.emitWs), (28, 4, q.perFrame), (32, 32, q.tag), (64, 25, q.pos), (89, 25, q.maxLen),
    (128, 64, q.deadline), (192, 24, q.period), (216, 4, q.frameDone), (224, 16, q.pauses), (240, 16, q.misses),
    (256, 64, q.seed), (320, 25, q.feed.length), (352, 32, q.cb), (384, 19, q.cols.length), (416, 16, q.temp),
    (432, 16, q.topP), (448, 20, q.topK), (468, 4, q.stopSet), (472, 4, q.turnSet)]

/-- A sequence lies in a context's share (R44). -/
def Ctx.hasSeq (x : Ctx) (q : Nat) : Bool := decide (x.share.seqFirst ≤ q ∧ q < x.share.seqFirst + x.share.seqCount)

/-- Lowest FREE entry of a context's share (R44). -/
def State.freeSeq (s : State) (c : Nat) : Option Nat :=
  let h := (s.ctx c).share
  (firstBelow h.seqCount (fun i => (s.seq (h.seqFirst + i)).st == .free)).map (· + h.seqFirst)

/-- Checks of a sequence ID in a message: reserved bits, then the share (R44). -/
def State.seqChecks (s : State) (c q : Nat) : List (Bool × Status) :=
  [(decide (2 ^ 17 ≤ q), .format), (!(s.ctx c).hasSeq q, .bounds)]

/-- Bytes of a control block (R421). -/
def Ctx.blockBytes (x : Ctx) (maxLen : Nat) : Nat := 256 + 4 * x.cover maxLen + 4 * x.ringLen

/-- The column list and the ring list of a sequence are written into its control block (R62, R421). -/
def State.writeLists (s : State) (q : Nat) : State :=
  let e := s.seq q
  let b := (s.slotOf e.cb).base + 256
  let l (z : List Nat) : List Byte := z.flatMap (fun n => toLE 4 (Config.columnEntry n))
  (s.writeAt b (l e.cols)).writeAt (b + 4 * (s.ctx e.ctx).cover e.maxLen) (l e.ring)

/-- Tokens of a feed are written into the segment allocated for them (R421). -/
def State.writeFeed (s : State) (seg : Nat) (toks : List Nat) : State :=
  s.writeAt (s.slotOf seg).base (toks.flatMap (toLE 4))

/-- Removes n tokens from the head of lists of (name, tokens): what goes with the named ones removed whole, and the rest. -/
def takeCounts : Nat → List (Nat × Nat) → List (Nat × Nat) × List (Nat × Nat)
  | _, [] => ([], [])
  | n, (a, k) :: r =>
    if n = 0 then ([], (a, k) :: r)
    else if k ≤ n then
      let t := takeCounts (n - k) r
      ((a, k) :: t.1, t.2)
    else ([(a, n)], (a, k - n) :: r)

/-- Tokens at the head of the ring that no feed brought: a pending token, or input of a killed step (R55, R420). -/
def Seq.heads (q : Seq) (l : List (Nat × Nat)) : Nat := q.feed.length - sumN (l.map (·.2))

/-- Frees the feed segments whose tokens are all placed (R421). -/
def State.freeSegs (s : State) (l : List (Nat × Nat)) : State := l.foldl (fun t e => t.khanDrop e.1) s

/-- A sequence returns to FREE: its references, control block and segments go (R43, R56, R421). -/
def State.freeSequence (s : State) (q : Nat) : State :=
  let e := s.seq q
  let s1 := (s.freeSegs e.segs).khanDrop e.cb
  let s2 := s1.onCtx e.ctx (fun x => (e.cols ++ e.ring).foldl (fun y n => y.unref n) x)
  (s2.onSeq q (fun _ => Seq.fresh)).onCtx e.ctx (fun x => { x with kv := { x.kv with
    hints := x.kv.hints.filter (fun h => h.1 != q), heldHints := x.kv.heldHints.filter (fun h => h.1 != q) } })

/-- Flags of a sequence for the next step record (R69). -/
def State.note (s : State) (c q flags : Nat) : State :=
  s.onCtx c (fun x => { x with steps := { x.steps with
    notes := x.steps.notes.put q ((x.steps.notes.getD q 0) ||| flags) } })

/-- Bits of Table 3-10 less 48. -/
def fSampled : Nat := 1
def fPaused : Nat := 2
def fAdmitted : Nat := 4
def fLeft : Nat := 8
def fDegraded : Nat := 16
def fMiss : Nat := 32
def fCancelled : Nat := 64
def fShrunk : Nat := 128

/-- A sequence moves to LEAVING: pending input is discarded (R420). -/
def State.leave (s : State) (q : Nat) : State :=
  let e := s.seq q
  (s.freeSegs e.segs).onSeq q (fun x => { x with st := .leaving, feed := [], segs := [], stamps := [], pendTok := none })

/-- Entry of the step in flight that carries a sequence and is not cancelled. -/
def Ctx.inStep (x : Ctx) (q : Nat) : Option Entry :=
  x.steps.man.bind (fun m => m.entries.find? (fun e => e.seq == q && !e.cancelled))

/-! ### Message checks shared -/

/-- A message is held during a boundary (R45), its wait for room in an emit Waystation included (R269); a context held by
`PMP_STEP_KILL` is between boundaries (R328). -/
def Ctx.holdsMessages (x : Ctx) : Bool := x.steps.stalled || (x.steps.between && !x.held)

/-- Runs the meaning of a sequence or step message, or holds it. -/
def unlessHeld (c : Nat) (s : State) (k : Act) : Act := if (s.ctx c).holdsMessages then .hold s .heldBoundary else k

/-- The sampler fields against R66.  -0.0 is no negative temperature (log entry 96). -/
def samplerChecks (temp topP stop turn : Nat) : List (Bool × Status) :=
  let t := Num.v16 (BitVec.ofNat 16 temp)
  [(t.isNan || Num.Val.lt t (.fin false 0 0) || bit topP 15, .format), (decide (15 < stop ∨ 15 < turn), .bounds)]

/-- `TOP_K` as stored (R66). -/
def Ctx.topK (x : Ctx) (k : Nat) : Nat := if ((x.model.map (·.vocab)).getD 0) ≤ k then 0 else k

/-- Tokens of a feed. -/
def State.feedTokens (s : State) (h n : Nat) : List Nat := s.bufWords h n

/-- Checks of a feed (R47): handle, extent, length, vocabulary. -/
def State.feedChecks (s : State) (c h n pend maxLen : Nat) : List (Bool × Status) :=
  if n = 0 then s.handleUse c h (h != 0) 0
  else
    (match s.handleBad c h with | some st => [(true, st)] | none => [])
    ++ [(decide ((s.slotOf h).extent < 4 * n ∨ maxLen < pend + n), .bounds),
        ((s.feedTokens h n).any (fun t => decide (((((s.ctx c).model.map (·.vocab)).getD 0)) ≤ t)), .format)]

/-- An allocation that leaves everything but the counters as it was where it fails. -/
def State.allocOr (s t : State) (c n : Nat) : State ⊕ (State × Nat) :=
  if n = 0 then .inr (t, 0)
  else
    match t.khanAlloc c 1 0 0x1 n with
    | (some h, u) => .inr (u, h.1)
    | (none, u) => .inl (s.onCtx c (fun x => { x with ctr := (u.ctx c).ctr }))

/-- A seed: a zero one is drawn from entropy in free mode (R67). -/
def State.seedFor (s : State) (c seed : Nat) : Nat × State :=
  if seed = 0 ∧ !(s.ctx c).steps.mode then (s.draw.1 % 2 ^ 64, s.draw.2) else (seed, s)

/-! ### Messages -/

/-- `PMP_SEQ_OPEN` (R44, R46, R66, R67, R72, R269, R421): answered by the next boundary's phase 4. -/
def seqOpen (c : Nat) (a : List Nat) (m : Msg) (s : State) : Act :=
  unlessHeld c s (match a with
  | [flags, tag, ws, tpf, period, maxLen, seed, temp, topP, topK, stop, turn, h, n] =>
    let x := s.ctx c
    let layers := (x.model.map (·.moe)).getD 0
    checked ([(flagsBad flags 1, .format),
        (!((x.model.map (·.complete)).getD false) || (List.range layers).any (fun l => !x.route.active.has l), .unavailable),
        (bit flags 0 && decide (x.ringLen ≠ 0), .unsupported),
        (decide (maxLen < 1 ∨ 16777216 < maxLen ∨ 15 < tpf ∨ 16777215 < period ∨ (period = 0 ∧ tpf ≠ 0)), .bounds)]
      ++ samplerChecks temp topP stop turn ++ [(s.emitWsBad c ws, .format)] ++ s.feedChecks c h n 0 maxLen
      ++ [((s.freeSeq c).isNone, .noMemory)]) s
      (match s.allocOr s c (x.blockBytes maxLen) with
       | .inl t => .no t .noMemory
       | .inr (t, cb) =>
         match s.allocOr t c (4 * n) with
         | .inl u => .no u .noMemory
         | .inr (u, seg) =>
           let q := (s.freeSeq c).getD 0
           let d := (u.writeFeed seg (s.feedTokens h n)).seedFor c seed
           .hold (d.2.onSeq q (fun _ => { Seq.fresh with
             st := .waiting, ctx := c, part := x.share.partition, emitWs := ws, perFrame := tpf, tag := tag, maxLen := maxLen
             deadline := if tpf = 0 then noDeadline else 0
             period := period, seed := d.1, cb := cb, temp := temp, topP := topP, topK := x.topK topK, stopSet := stop
             turnSet := turn
             feed := s.feedTokens h n, segs := if n = 0 then [] else [(seg, n)]
             stamps := if n = 0 then [] else [(m.stamp, n)]
             openStamp := m.stamp, usePrefix := bit flags 0 })) (.openWait q))
  | _ => .no s .format)

def execPmpSeqOpen (w : Nat) (s : State) : Host.Outcome State Fault Refusal :=
  .next (commitMsg w 0x0100 (withCtx [.u32, .u32, .u16, .u8, .u32, .u32, .u64, .u16, .u16, .u32, .u8, .u8, .u32, .u32]
    seqOpen) s)

/-- `DEADLINE` armed from a receipt stamp, with `FRAME_DONE` at 0 (R50). -/
def Seq.arm (q : Seq) (stamp : Nat) : Seq :=
  if q.perFrame = 0 then q else { q with deadline := stamp + q.period * 1000, frameDone := 0 }

/-- A sequence out of the step in flight moves on a feed (Table 3-3, R50, R420). -/
def Seq.fed (q : Seq) : Seq :=
  if q.feed.isEmpty then q
  else if q.st == .idle then
    match q.stamps with
    | e :: _ => { q.arm e.1 with st := .prefill }
    | [] => { q with st := .prefill }
  else q.feedMoves

/-- `PMP_SEQ_FEED` (R47, R420, R421). -/
def seqFeed (c : Nat) (a : List Nat) (m : Msg) (s : State) : Act :=
  unlessHeld c s (match a with
  | [q, h, n] =>
    let e := s.seq q
    let pend := e.pos + e.feed.length + b2n e.pendTok.isSome
    checked (s.seqChecks c q ++ [(e.st == .free || e.st == .leaving, .unavailable)] ++ s.feedChecks c h n pend e.maxLen) s
      (if n = 0 then .ok s []
       else
         match s.allocOr s c (4 * n) with
         | .inl t => .no t .noMemory
         | .inr (t, seg) =>
           .ok ((t.writeFeed seg (s.feedTokens h n)).onSeq q (fun e =>
             let f := { e with
               feed := e.feed ++ s.feedTokens h n, segs := e.segs ++ [(seg, n)], stamps := e.stamps ++ [(m.stamp, n)] }
             if ((s.ctx c).inStep q).isSome then f else f.fed)) [])
  | _ => .no s .format)

def execPmpSeqFeed (w : Nat) (s : State) : Host.Outcome State Fault Refusal :=
  .next (commitMsg w 0x0101 (withCtx [.u32, .u32, .u32] seqFeed) s)

/-- A sequence with columns: PREFILL, DECODE or IDLE. -/
def Seq.holds (q : Seq) : Bool := q.st == .prefill || q.st == .decode || q.st == .idle

/-- `PMP_SEQ_RETIRE`: at the commit of the current step, or at once. -/
def seqRetire (c : Nat) (a : List Nat) (_ : Msg) (s : State) : Act :=
  unlessHeld c s (match a with
  | [q] =>
    checked (s.seqChecks c q ++ [(!(s.seq q).holds, .unavailable)]) s
      (.ok (if ((s.ctx c).inStep q).isSome then s.onSeq q (fun e => { e with retire := true })
            else (s.leave q).note c q fLeft) [])
  | _ => .no s .format)

def execPmpSeqRetire (w : Nat) (s : State) : Host.Outcome State Fault Refusal :=
  .next (commitMsg w 0x0102 (withCtx [.u32] seqRetire) s)

/-- Raises the generation of an entry's convoy and empties its slots in every convoy layer under way (R54, R141). -/
def State.raiseGen (s : State) (c : Nat) (e : Entry) : State :=
  match (s.ctx c).steps.man with
  | none => s
  | some m =>
    let b := e.convoyB
    let g := (m.gen b + 1) % 256
    let s1 := s.onMan c (fun m => if b then { m with genB := g, raisesB := m.raisesB + 1 }
      else { m with genA := g, raisesA := m.raisesA + 1 })
    let slots := (List.range e.tokens).map (· + e.slot)
    let s2 := slots.foldl (fun t n => t.setSlotGen c n g) s1
    let ls := ((s2.ctx c).layers.filter (fun y => y.1 % 2 == b2n b && !y.2.done)).map (fun y => y.1 / 2)
    let s3 := ls.foldl (fun t l => slots.foldl (fun u n => u.emptySlot c l b n) t) s2
    let s4 := s3.onMan c (fun m => { m with entries := m.entries.map (fun (x : Entry) =>
      if x.seq = e.seq then { x with skipped := true } else x) })
    ls.foldl (fun t l => if ((t.ctx c).layer (layKey l b)).gated then t.holdSet c (layKey l b) b else t) s4

/-- A sequence with columns is cancelled: it leaves at once, and its work in the step in flight is discarded (R54). -/
def State.cancelSeq (s : State) (c q flags : Nat) : State :=
  let s1 := match (s.ctx c).inStep q, (s.ctx c).steps.man with
    | some e, some m =>
      let t := s.onMan c (fun m => { m with entries := m.entries.map (fun (x : Entry) =>
        if x.seq = q then { x with cancelled := true } else x) })
      if (if e.convoyB then m.raisesB else m.raisesA) < 255 then t.raiseGen c e else t
    | _, _ => s
  let cancelled := if ((s.ctx c).inStep q).isSome then fCancelled else 0
  (s1.leave q).note c q (fLeft ||| cancelled ||| flags)

/-- `PMP_SEQ_CANCEL` (R54, Table 3-3).  A WAITING sequence was in no step and gets no entry in a step record (log entry 95). -/
def seqCancel (c : Nat) (a : List Nat) (_ : Msg) (s : State) : Act :=
  unlessHeld c s (match a with
  | [q] =>
    let e := s.seq q
    checked (s.seqChecks c q ++ [(e.st == .free || e.st == .leaving, .unavailable)]) s
      (if e.st = .waiting then
         let s1 := (s.host.msgs.filter (fun m => m.phase == .openWait q)).foldl (fun t m =>
           t.complete m (owner m.op) .cancelled []) s
         .ok (s1.freeSequence q) []
       else .ok (s.cancelSeq c q 0) [])
  | _ => .no s .format)

def execPmpSeqCancel (w : Nat) (s : State) : Host.Outcome State Fault Refusal :=
  .next (commitMsg w 0x0103 (withCtx [.u32] seqCancel) s)

/-! ### Fork (R62) -/

/-- A column for a fork's child: shared, or copied where its count would pass 65,535. -/
def State.forkCol (s : State) (c n : Nat) : Nat × State :=
  let x := s.ctx c
  let k := x.kv.col n
  if k.count < 65535 then (n, s.onCtx c (fun x => x.ref n))
  else
    match x.newCol k.ring (s.free n % 4) s.now with
    | (some d, y) =>
      let bytes := match x.model with | some m => sumN ((m.rowRanges k.ring k.tokens.length).map (fun z => z.2)) | none => 0
      (d, ((s.onCtx c (fun _ => y)).copyCol c n d).ownLayout c bytes)
    | (none, _) => (n, s)

/-- The columns of a list, one by one. -/
def forkCols (c : Nat) : List Nat → State → List Nat × State
  | [], s => ([], s)
  | n :: r, s =>
    let a := s.forkCol c n
    let b := forkCols c r a.2
    (a.1 :: b.1, b.2)

/-- Copies that a fork needs of a list. -/
def Ctx.fullCounts (x : Ctx) (l : List Nat) : Nat := countP (fun n => decide (65535 ≤ (x.kv.col n).count)) l

/-- `PMP_SEQ_FORK` (R62).  The child of a `USE_PREFIX` parent is not itself one: its columns join no tree (log entry 93). -/
def seqFork (c : Nat) (a : List Nat) (_ : Msg) (s : State) : Act :=
  unlessHeld c s (match a with
  | [p, tag, seed] =>
    let x := s.ctx c
    let e := s.seq p
    checked (s.seqChecks c p ++ [(!e.holds, .unavailable), ((s.freeSeq c).isNone, .noMemory)]) s
      (if !x.fits (x.fullCounts e.cols) (x.fullCounts e.ring) then
         .no (s.bumpCtx c .khanQuotaFails (b2n (x.quotaStops (x.fullCounts e.cols) (x.fullCounts e.ring)))) .noMemory
       else match s.allocOr s c (x.blockBytes e.maxLen) with
       | .inl t => .no t .noMemory
       | .inr (t, cb) =>
         let q := (s.freeSeq c).getD 0
         let f := forkCols c e.cols t
         let r := forkCols c e.ring f.2
         let d := r.2.freed.seedFor c seed
         .ok ((d.2.onSeq q (fun _ => { Seq.fresh with
           st := .idle, ctx := c, part := e.part, kvFar := e.kvFar, emitWs := e.emitWs, perFrame := e.perFrame, tag := tag
           pos := e.pos, maxLen := e.maxLen, deadline := noDeadline, period := e.period, seed := d.1, cb := cb
           temp := e.temp, topP := e.topP, topK := e.topK, stopSet := e.stopSet, turnSet := e.turnSet, cols := f.1
           ring := r.1 })).writeLists q) [(.u32, q), (.u64, d.1)])
  | _ => .no s .format)

def execPmpSeqFork (w : Nat) (s : State) : Host.Outcome State Fault Refusal :=
  .next (commitMsg w 0x0104 (withCtx [.u32, .u32, .u64] seqFork) s)

/-! ### Queries and settings -/

/-- `PMP_SEQ_QUERY` (R43, R71). -/
def seqQuery (c : Nat) (a : List Nat) (_ : Msg) (s : State) : Act :=
  unlessHeld c s (match a with
  | [q, sel] =>
    if sel = 1 then .ok s (ctrFlds (s.ctx c).ctr stepCtrs)
    else checked ([(decide (1 < sel), .format)] ++ s.seqChecks c q) s (.ok s [(.r 512, (s.seq q).pack)])
  | _ => .no s .format)

def execPmpSeqQuery (w : Nat) (s : State) : Host.Outcome State Fault Refusal :=
  .next (commitMsg w 0x0105 (withCtx [.u32, .u8] seqQuery) s)

/-- `PMP_SEQ_SET_SAMPLER` (R66). -/
def seqSetSampler (c : Nat) (a : List Nat) (_ : Msg) (s : State) : Act :=
  unlessHeld c s (match a with
  | [q, temp, topP, topK, stop, turn] =>
    let e := s.seq q
    checked (s.seqChecks c q ++ [(e.st == .free || e.st == .leaving, .unavailable)] ++ samplerChecks temp topP stop turn) s
      (.ok (s.onSeq q (fun e => { e with
        temp := temp, topP := topP, topK := (s.ctx c).topK topK, stopSet := stop, turnSet := turn })) [])
  | _ => .no s .format)

def execPmpSeqSetSampler (w : Nat) (s : State) : Host.Outcome State Fault Refusal :=
  .next (commitMsg w 0x0106 (withCtx [.u32, .u16, .u16, .u32, .u8, .u8] seqSetSampler) s)

/-- `PMP_STEP_CONFIG` (R48, R125, R138). -/
def stepConfig (c : Nat) (a : List Nat) (_ : Msg) (s : State) : Act :=
  unlessHeld c s (match a with
  | [limit, chunk] =>
    let x := s.ctx c
    checked [(decide (limit < 1 ∨ 262144 < limit ∨ chunk < 1 ∨ 8192 < chunk), .bounds)] s
      (match x.fitSpill (spillBytes limit x.share.dModel (planesOf x.steps.mode x.draft)) with
       | none => .no s .noMemory
       | some y =>
         if y.landingFits limit x.draft.kmax then
           .ok (s.onCtx c (fun _ => { y with steps := { y.steps with tokenLimit := limit, prefillChunk := chunk } })) []
         else .no s .noMemory)
  | _ => .no s .format)

def execPmpStepConfig (w : Nat) (s : State) : Host.Outcome State Fault Refusal :=
  .next (commitMsg w 0x0110 (withCtx [.u32, .u32] stepConfig) s)

/-- Bytes of the step-record ring (R70). -/
def ringBytes : Nat := 16777216

/-- `PMP_STEP_RECORDS` (R70). -/
def stepRecords (c : Nat) (_ : List Nat) (_ : Msg) (s : State) : Act :=
  let t := (s.ctx c).steps
  unlessHeld c s (.ok s [(.u64, t.ring), (.u32, ringBytes), (.u32, t.ringHead), (.u32, t.ringOldest)])

def execPmpStepRecords (w : Nat) (s : State) : Host.Outcome State Fault Refusal :=
  .next (commitMsg w 0x0111 (withCtx [] stepRecords) s)

end Sys2Proof.Machine
end

