-- ==== Sys2Proof/Machine/Sampler.lean ====
section
/-! DEFINITION. The Sampler (03 R66 to R68) and what the compute dies read and return at a step's ends. -/

namespace Sys2Proof.Machine

/-- A logit against −Inf: a NaN counts as −Inf. -/
def cleanLogit (v : Num.Val) : Num.Val := if v.isNan then .inf true else v

/-- Logits as FP32 patterns, format 0 FP32 or 1 BF16. -/
def logit32 (fmt x : Nat) : BitVec 32 := if fmt = 0 then BitVec.ofNat 32 x else Num.widen (BitVec.ofNat 16 x)

/-- (z, ID) before (y, ID'): greater z first, lower ID among equals. -/
def before (a b : BitVec 32 × Nat) : Bool :=
  let k := (Num.v32 a.1).cmp (Num.v32 b.1)
  decide (0 < k ∨ (k = 0 ∧ a.2 ≤ b.2))

/-- Running sum until a test on it holds: the candidates kept, and the sum. -/
def keepUntil (stop : BitVec 32 → Bool) : BitVec 32 → List (BitVec 32 × Nat) → List (BitVec 32 × Nat) × BitVec 32
  | c, [] => ([], c)
  | c, p :: r =>
    let d := Num.fadd c p.1
    if stop d then ([p], d)
    else
      let t := keepUntil stop d r
      (p :: t.1, t.2)

/-- `sample` of R66: the token, or none for `BAD_LOGITS`. -/
def sampleToken (rev : Nat) (e : Entry) (fmt : Nat) (logits : List Nat) : Option Nat :=
  let z0 := (logits.zipIdx).map (fun x => (Num.to32 (cleanLogit (Num.v32 (logit32 fmt x.1))), x.2))
  if z0.all (fun x => x.1 == 0xFF800000#32) then none
  else
    let temp := Num.widen (BitVec.ofNat 16 e.temp)
    if (Num.v32 temp).cmp (.fin false 0 0) = 0 then ((sortBy before z0).head?).map (·.2)
    else
      let order := sortBy before (z0.map (fun x => (Num.fdiv x.1 temp, x.2)))
      let kept := if e.topK = 0 then order else order.take e.topK
      let m := (kept.head?.map (·.1)).getD 0#32
      let p := kept.map (fun x => (Sfn.eval32 rev 0x01 (Num.fadd x.1 (Num.fneg m)), x.2))
      let total := p.foldl (fun a x => Num.fadd a x.1) 0#32
      let cut :=
        if e.topP = 0 then (p, total)
        else
          let lim := Num.fmul (Num.fp32Ratio e.topP 32768) total
          keepUntil (fun c => Num.Val.ge (Num.v32 c) (Num.v32 lim)) 0#32 p
      let w := Num.philox e.seed (e.start + e.tokens - 1) 0 0x00010000
      let u := Num.fmul (Num.fmul (Num.fadd (Num.ofNat32 (w / 256)) 0x3F000000#32) 0x33800000#32) cut.2
      let got := (keepUntil (fun c => Num.Val.lt (Num.v32 u) (Num.v32 c)) 0#32 cut.1).1
      got.getLast?.map (·.2)

/-- `LOGIT_ROW_RECEIVE` (R66, R417): the row of a `SAMPLE` entry's last slot becomes its token, once. -/
def logitRow (c slot fmt : Nat) (logits : List Nat) (s : State) : State :=
  match (s.ctx c).steps.man with
  | none => s
  | some m =>
    match m.entries.find? (fun e => e.sample && e.slot + e.tokens == slot + 1) with
    | none => s
    | some e =>
      if e.result.isSome || e.skipped || decide (1 < fmt) || logits.length != (((s.ctx c).model.map (·.vocab)).getD 0) then s
      else
        let t := sampleToken (s.ctx c).sfnRev e fmt logits
        let s1 := s.onMan c (fun m => m.onEntry slot (fun e => { e with result := some t }))
        (if t.isNone then s1.raise 0x804 0x11 0 c 2 (workDetail m.epoch e.seq slot) else s1).ownStrings c false true

def execLogitRowReceive (c slot fmt : Nat) (logits : List Nat) (s : State) : Host.Outcome State Fault Refusal :=
  .next (logitRow c slot fmt logits s)

/-! ### The Manifest as the dies read it (Tables 3-5, 3-6) -/

/-- Table 3-6. -/
def Entry.pack (e : Entry) : Nat :=
  packF [(0, 17, e.seq), (17, 18, e.slot), (35, 14, e.tokens), (49, 1, b2n e.convoyB), (50, 1, b2n e.sample),
    (64, 25, e.start), (96, 32, e.cb)]

/-- Table 3-5. -/
def Manifest.pack (m : Manifest) (c part : Nat) : Nat :=
  packF [(0, 16, m.epoch), (16, 4, c), (20, 3, part), (23, 1, b2n m.fixed), (24, 19, m.tokens), (43, 19, m.tokensA),
    (64, 18, m.entries.length), (82, 18, countP (fun (e : Entry) => !e.convoyB) m.entries), (100, 8, m.genA),
    (108, 8, m.genB), (128, 64, m.buildTick)]

/-- `MANIFEST_READ` (R60, R417): a present die reads the whole Manifest of the step in flight. -/
def manifestRead (die c : Nat) (s : State) : State :=
  match (s.ctx c).steps.man with
  | some m =>
    if s.boot.diesUp.getD die false then
      s.emit (.ucie die 0x8 c m.epoch 0 false 0 false
        (toLE 32 (m.pack c (s.ctx c).share.partition) ++ (m.entries.map (fun e => toLE 16 e.pack)).flatten))
    else s
  | none => s

def execManifestRead (die c : Nat) (s : State) : Host.Outcome State Fault Refusal := .next (manifestRead die c s)

end Sys2Proof.Machine
end

