-- ==== Sys2Proof/Machine/Plan.lean ====
section
/-! DEFINITION. Capacity of reserved and planned layers (05 R99, R101, R105, R109, R111), shared by the step boundary
and the route seal. -/

namespace Sys2Proof.Machine

/-- Replicas with `ACTIVE` = 1 of an expert in a copy, in index order. -/
def Route.actives (r : Route) (l e : Nat) : List (Nat × Replica) :=
  (((r.expert l e).replicas.zipIdx).filter (fun x => x.1.active)).map (fun x => (x.2, x.1))

/-- Shares of R99: every one 1 where all are 0. -/
def sharesOf (act : List (Nat × Replica)) : List Nat :=
  if act.all (fun a => a.2.share == 0) then act.map (fun _ => 1) else act.map (fun a => a.2.share)

/-- One row each to the lowest entries of nonzero share, n rows in all. -/
def giveRest : Nat → List (Nat × Nat) → List Nat
  | _, [] => []
  | 0, (b, _) :: r => b :: giveRest 0 r
  | n + 1, (b, h) :: r => if h = 0 then b :: giveRest (n + 1) r else (b + 1) :: giveRest n r

/-- n rows split by share: floors, and the remainder as R101 gives it. -/
def splitShares (shares : List Nat) (n : Nat) : List Nat :=
  let tot := sumN shares
  let base := shares.map (fun h => n * h / tot)
  giveRest (n - sumN base) (base.zip shares)

/-- n rows of an expert over its active replicas: (replica index, rows). -/
def Route.splitOver (r : Route) (l e n : Nat) : List (Nat × Nat) :=
  let act := r.actives l e
  (act.map (·.1)).zip (splitShares (sharesOf act) n)

/-- C(e) of a layer run in reserved mode by a convoy of t tokens (R101). -/
def Route.reservedCap (r : Route) (l t : Nat) : Nat :=
  ceilDiv (dispFactor (r.layer l).disp * t * cfgKmax (r.layer l).cfg) (256 * (cfgLast (r.layer l).cfg + 1))

/-- Capacities of a layer run in reserved mode, by expert × 16 + replica. -/
def Route.reservedCaps (r : Route) (l t : Nat) : Tbl Nat :=
  ((List.range (cfgLast (r.layer l).cfg + 1)).flatMap (fun e =>
    (r.splitOver l e (r.reservedCap l t)).map (fun p => (capKey e p.1, p.2)))).foldl (fun u e => u.put e.1 e.2) []

/-- Receive allowance A(d) for a layer's rows (R105, R106). -/
def State.allow (s : State) (c d : Nat) (r : Route) (l : Nat) : Nat := s.allowance c d (dispFmt (r.layer l).disp)

/-- Package of a replica. -/
def Route.pkgOf (r : Route) (l e i : Nat) : Nat := (((r.expert l e).replicas[i]?).map (·.pkg)).getD 0

/-- Plan of R109 for a convoy of t tokens from a histogram over `ht` tokens: (expert, replica, rows). -/
def State.planRows (s : State) (c : Nat) (r : Route) (l t : Nat) (hist : Tbl Nat) (ht : Nat) : Tbl Nat :=
  let g := (r.layer l).disp
  let want (e : Nat) : Nat :=
    if ht = 0 then dispFloor g
    else Nat.max (dispFloor g) (ceilDiv (hist.getD e 0 * t * dispHead g) (ht * 256))
  let rows := (List.range (cfgLast (r.layer l).cfg + 1)).flatMap (fun e =>
    (r.splitOver l e (want e)).map (fun p => (e, p.1, p.2)))
  let on (d : Nat) : Nat := sumN ((rows.filter (fun x => r.pkgOf l x.1 x.2.1 == d)).map (·.2.2))
  rows.foldl (fun u x =>
    let d := r.pkgOf l x.1 x.2.1
    let a := s.allow c d r l
    let n := on d
    u.put (capKey x.1 x.2.1) (if a < n then x.2.2 * a / n else x.2.2)) []

/-- Expected rows toward a package in a convoy of t tokens: the histogram of R109 scaled to the convoy and split over the
active replicas by share (DEDUCED: R111 names them and does not spell them out, log entry 45). -/
def Route.expectedRows (r : Route) (l d t : Nat) (hist : Tbl Nat) (ht : Nat) : Nat :=
  sumN ((List.range (cfgLast (r.layer l).cfg + 1)).map (fun e =>
    sumN (((r.splitOver l e (ceilDiv (hist.getD e 0 * t) (Nat.max 1 ht))).filter
      (fun p => r.pkgOf l e p.1 == d)).map (·.2))))

/-- j[L] of R111. -/
def State.subsExpected (s : State) (c : Nat) (r : Route) (l t : Nat) (hist : Tbl Nat) (ht : Nat) : Nat :=
  maxN (s.fab.present.map (fun d => ceilDiv (r.expectedRows l d t hist ht) (s.allow c d r l)))

/-- Mean of a list, truncated. -/
def meanN (l : List Nat) : Nat := sumN l / Nat.max 1 l.length

/-- The loop of R111: layers of (layer, j) still planned, the projection, and the layers switched. -/
def switchLoop (avg : Nat) (limit : Int) : Nat → List (Nat × Nat) → Int → List Nat
  | 0, _, _ => []
  | n + 1, js, proj =>
    if proj ≤ limit then []
    else
      match minBy (fun (x : Nat × Nat) => 2 ^ 40 - x.2) (js.filter (fun x => decide (1 < x.2))) with
      | none => []
      | some x => x.1 :: switchLoop avg limit n (js.filter (fun y => y.1 != x.1)) (proj - ((x.2 : Int) - 1) * avg)

end Sys2Proof.Machine
end

