-- ==== Sys2Proof/Machine/Steps.lean ====
section
/-! DEFINITION. The step boundary (03 R51 to R63, R69, R70, R419, R420; 05 R111, R113; 12 R269). -/

namespace Sys2Proof.Machine

/-! ### Phase 1: commit -/

/-- Entries whose token the commit emits. -/
def Manifest.emits (m : Manifest) : List Entry := m.entries.filter (fun e => e.sample && !e.cancelled)

/-- The step in flight has ended: every convoy layer that it runs is complete and every row is sampled. -/
def Ctx.stepEnded (x : Ctx) (m : Manifest) : Bool :=
  (List.range ((x.model.map (·.moe)).getD 0)).all (fun l =>
    (x.layer (layKey l false)).done && (m.tokensA == m.tokens || (x.layer (layKey l true)).done))
  && m.emits.all (fun e => e.result.isSome)

/-- Every emit Waystation has room for the records of the commit (R269). -/
def State.emitRoom (s : State) (m : Manifest) : Bool :=
  let ws := m.emits.map (fun e => (s.seq e.seq).emitWs)
  ws.all (fun w => decide (countP (fun v => v == w) ws ≤ (s.wst w).room))

/-- What the commit of an entry does to its sequence's token: where it leaves, ends its turn or goes on. -/
structure Outcome where
  token  : Option (Option Nat)
  leaves : Bool
  turn   : Bool
deriving DecidableEq, Repr

/-- The transition of Table 3-3 for an entry. -/
def State.outcome (s : State) (c : Nat) (e : Entry) : Outcome :=
  let q := s.seq e.seq
  let inSet (sets : List (List Nat)) (i : Nat) : Bool :=
    match e.result with
    | some (some t) => e.sample && (sets.getD i []).contains t
    | _ => false
  let md := (s.ctx c).model
  let bad := e.sample && e.result == some none
  let leaves := bad || q.retire || decide (q.maxLen ≤ q.pos + e.tokens) || inSet ((md.map (·.stops)).getD []) e.stopSet
  ⟨if e.sample then e.result else none, leaves, !leaves && inSet ((md.map (·.turns)).getD []) e.turnSet⟩

/-- R51 for an emitted token: the sequence, whether a frame ended, whether late. -/
def Seq.frame (q : Seq) (now : Nat) : Seq × Bool × Bool :=
  if q.perFrame = 0 then (q, false, false)
  else if q.frameDone + 1 = q.perFrame then
    let late := decide (q.deadline < now)
    ({ q with
      misses := if late then Nat.min 0xFFFF (q.misses + 1) else q.misses
      deadline := q.deadline + q.period * 1000, frameDone := 0 }, true, late)
  else ({ q with frameDone := q.frameDone + 1 }, false, false)

/-- Emit record (Table 3-8). -/
def emitRecord (tok : Option Nat) (pos seq epoch : Nat) (fin turn last late deg : Bool) : Nat :=
  packF [(0, 32, tok.getD 0xFFFFFFFF), (32, 24, pos), (56, 1, b2n fin), (57, 1, b2n turn), (58, 1, b2n last),
    (59, 1, b2n late), (60, 1, b2n deg), (61, 1, b2n tok.isNone), (64, 17, seq), (96, 16, epoch)]

/-- Page tokens kept beside the columns of a `USE_PREFIX` sequence: the chunk's tokens join them (R65). -/
def Ctx.keepTokens (x : Ctx) (q : Seq) (e : Entry) : Ctx :=
  let p := x.page
  (List.range q.cols.length).foldl (fun y i =>
    let lo := Nat.max (i * p) e.start
    let hi := Nat.min ((i + 1) * p) (e.start + e.tokens)
    if lo < hi then
      y.onCol (q.cols.getD i 0) (fun k => { k with
        tokens := k.tokens.take (lo - i * p) ++ (e.input.drop (lo - e.start)).take (hi - lo) })
    else y) x

/-- Full columns that a chunk completes, with their tokens, and the key of the page before them (R65). -/
def Ctx.pagesDone (x : Ctx) (c : Nat) (q : Seq) (e : Entry) : Nat × List (List Nat × Nat) :=
  let p := x.page
  let page (i : Nat) : List Nat × Nat := ((x.kv.col (q.cols.getD i 0)).tokens, q.cols.getD i 0)
  let first := e.start / p
  let past := (e.start + e.tokens) / p
  ((List.range first).foldl (fun k i => nodeKey c k (page i).1) 0, (List.range (past - first)).map (fun i => page (first + i)))

/-- `USE_PREFIX` at commit. -/
def State.commitPrefix (s : State) (c : Nat) (e : Entry) : State :=
  let q := s.seq e.seq
  if q.usePrefix then
    s.onCtx c (fun x =>
      let y := x.keepTokens q e
      let d := y.pagesDone c q e
      y.insertPages c s.now d.2 d.1)
  else s

/-- The sequence after its transition (Table 3-3, R420). -/
def State.moveSeq (s : State) (q : Nat) (o : Outcome) : State :=
  if o.leaves then s.leave q
  else
    s.onSeq q (fun e =>
      match o.token with
      | some t => if o.turn then { e with st := .idle, pendTok := none }.fed else { e with st := .decode, pendTok := t }.fed
      | none => e)

/-- One entry's commit (R51, R57, R68): the state and the flags of its step-record entry.  The K and V rows of its tokens are in
their page frames (Table 8-11; log entry 92). -/
def State.commitEntry (s0 : State) (c epoch : Nat) (e : Entry) : State × Nat :=
  let losses := (if e.degraded then fDegraded else 0) ||| (if e.shrunk then fShrunk else 0)
  if e.cancelled then (s0, fCancelled ||| fLeft ||| losses)
  else
    let s := s0.kvTokens c e.seq e.start e.tokens
    let o := s.outcome c e
    let q0 := s.seq e.seq
    let f := if o.token.isSome then q0.frame s.now else (q0, false, false)
    let deg := e.degraded || q0.degraded
    let s1 := (s.commitPrefix c e).onSeq e.seq (fun _ => { f.1 with
      pos := q0.pos + e.tokens, degraded := deg && o.token.isNone, retire := false })
    let s2 := match o.token with
      | some t => s1.wsPush q0.emitWs [emitRecord t (e.start + e.tokens - 1) e.seq epoch o.leaves o.turn f.2.1 f.2.2 deg]
      | none => s1
    let s3 := s2.bumpCtx c .framesLate (b2n f.2.2)
    (s3.moveSeq e.seq o,
      (if o.token.isSome then fSampled else 0) ||| (if o.leaves then fLeft else 0) ||| (if f.2.2 then fMiss else 0) ||| losses)

/-- Every entry's commit, in Manifest order: (sequence, flags) in order. -/
def commitAll (c epoch : Nat) : List Entry → State → List (Nat × Nat) × State
  | [], s => ([], s)
  | e :: r, s =>
    let a := s.commitEntry c epoch e
    let b := commitAll c epoch r a.1
    ((e.seq, a.2) :: b.1, b.2)

/-! ### The step record (R69, R70) -/

/-- Entry of a step record (Table 3-10). -/
def recEntry (seq tokens drops flags pos : Nat) : Nat :=
  packF [(0, 17, seq), (17, 14, tokens), (32, 16, drops), (48, 8, flags), (64, 25, pos)]

/-- Entries of the record: the Manifest's, then the paused, the admitted and those that left, each in ascending ID.  A sequence
released since the last commit keeps an entry of its own beside a later one of its ID (R69). -/
def State.recEntries (s : State) (c : Nat) (m : Manifest) (flags : List (Nat × Nat)) : List Nat :=
  let notes := (s.ctx c).steps.notes
  let own := (m.entries.zip flags).map (fun x =>
    recEntry x.1.seq (if x.1.cancelled then 0 else x.1.tokens) x.1.drops (x.2.2 ||| notes.getD x.1.seq 0)
      (s.seq x.1.seq).pos)
  let live := (notes.filter (fun n => !m.entries.any (fun e => e.seq == n.1))).map (fun n => (n.1, n.2, (s.seq n.1).pos))
  let rest := sortBy (fun (a b : Nat × Nat × Nat) => decide (a.1 ≤ b.1)) ((s.ctx c).steps.gone ++ live)
  let group (want no : Nat) : List (Nat × Nat × Nat) := rest.filter (fun n => n.2.1 &&& want != 0 && n.2.1 &&& no == 0)
  own ++ (group fPaused 0 ++ group fAdmitted fPaused ++ group fLeft (fPaused ||| fAdmitted)).map (fun n =>
    recEntry n.1 0 0 n.2.1 n.2.2)

/-- Header of a step record (Table 3-9). -/
def recHeader (m : Manifest) (c n now : Nat) : Nat :=
  packF [(0, 16, m.epoch), (16, 4, c), (20, 1, b2n m.fixed), (21, 1, b2n m.reservedAny), (32, 18, n), (64, 64, now),
    (128, 19, m.tokens), (160, 32, m.dropsTotal)]

/-- Oldest records up to the last one that meets a test go. -/
def dropThrough (p : Nat × Nat → Bool) (l : List (Nat × Nat)) : List (Nat × Nat) :=
  (l.reverse.takeWhile (fun r => !p r)).reverse

/-- The record is written whole into the ring (R70). -/
def State.writeRecord (s : State) (c : Nat) (body : List Byte) : State :=
  let t := (s.ctx c).steps
  let n := body.length
  let wrap := decide (ringBytes < t.ringHead + n)
  let off := if wrap then 0 else t.ringHead
  let base := t.ring % 2 ^ 57
  let hit (r : Nat × Nat) : Bool :=
    (wrap && decide (t.ringHead ≤ r.1)) || decide (r.1 < off + n ∧ off < r.1 + r.2)
  let kept := dropThrough hit t.records
  let s1 := if wrap then
      s.writeAt (base + t.ringHead) (List.replicate (Nat.min 32 (ringBytes - t.ringHead)) 0)
    else s
  let s2 := ((s1.writeAt (base + off) body).charge c base n).bumpCtx c .recordsOverwritten (t.records.length - kept.length)
  let all := kept ++ [(off, n)]
  s2.onCtx c (fun x => { x with steps := { x.steps with
    ringHead := off + n, ringOldest := ((all.head?).map (·.1)).getD off, records := all } })

/-- The histogram of a layer over both convoys. -/
def Plans.summed (p : Plans) (l : Nat) : Tbl Nat :=
  (p.hist.getD (layKey l true) []).foldl (fun t e => t.setD 0 e.1 (t.getD e.1 0 + e.2)) (p.hist.getD (layKey l false) [])

/-- Heat of every layer folded (R156), and the histograms kept for the next plan (R109). -/
def Ctx.foldStep (x : Ctx) (m : Manifest) : Ctx :=
  let ls := List.range ((x.model.map (·.moe)).getD 0)
  let heat := x.allExperts.foldl (fun (t : Tbl Nat) k =>
    t.setD 0 (expKey k.1 k.2) (foldHeat (t.getD (expKey k.1 k.2) 0) ((x.plans.summed k.1).getD k.2 0))) x.resid.heat
  { x with
    resid := { x.resid with heat := heat }
    plans := { x.plans with
      lastHist := ls.foldl (fun t l => t.put l (x.plans.summed l)) []
      lastTokens := m.tokens } }

/-- Phase 1 for a step in flight (R57, R69, R70). -/
def State.commitStep (s : State) (c : Nat) (m : Manifest) : State :=
  let r := commitAll c m.epoch m.entries s
  let late := countP (fun e : Entry => e.cancelled && !e.skipped) m.entries
  let ents := r.2.recEntries c m r.1
  let s1 := r.2.writeRecord c
    (toLE 32 (recHeader m c ents.length s.now) ++ (ents.map (toLE 16)).flatten)
  let s2 := ((s1.bumpCtx c .stepsCommitted 1).bumpCtx c .lateCancels late).bumpCtx c .fixedSteps (b2n m.fixed)
  (s2.onCtx c (fun x =>
    let y := x.foldStep m
    { y with
      layers := [], lands := x.keepLands
      steps := { y.steps with
        man := none, notes := [], gone := [], doneMask := y.steps.doneMask ||| 2 ^ m.epoch
        lastSteps := ((s.now - m.buildTick) :: y.steps.lastSteps).take 16 } })).endPlans c

/-! ### Phase 2: release -/

/-- The leavers become FREE, and evicted granules join the pool (R56).  What the next record says of them is kept apart from their
IDs, which new sequences may take (R69). -/
def State.releaseLeavers (s : State) (c : Nat) : State :=
  let ls := (s.seqs.filter (fun e => e.2.ctx == c && e.2.st == .leaving)).map (fun e => e.1)
  (ls.foldl (fun t q =>
    let p := (t.seq q).pos
    (t.onCtx c (fun x => { x with steps := (match x.steps.notes.find q with
      | some n => { x.steps with notes := x.steps.notes.del q, gone := x.steps.gone ++ [(q, n, p)] }
      | none => x.steps) })).freeSequence q) s).onCtx c Ctx.joinEvicted

/-! ### Phase 3: grow and select -/

/-- Columns of a list that are written at the named indices and held more than once (R63). -/
def Kv.shared (k : Kv) (l idx : List Nat) : List Nat :=
  idx.filter (fun i => match l[i]? with | some n => decide (1 < (k.col n).count) | none => false)

/-- Full columns that n tokens from a position touch among those held. -/
def Ctx.fullIdx (x : Ctx) (q : Seq) (n : Nat) : List Nat :=
  let p := x.page
  (List.range ((q.pos + n - 1) / p + 1 - q.pos / p)).map (· + q.pos / p)

/-- Ring columns that n tokens from a position write. -/
def Ctx.ringIdx (x : Ctx) (q : Seq) (n : Nat) : List Nat :=
  let r := q.ring.length
  if r = 0 then []
  else (List.range (Nat.min r ((q.pos + n - 1) / x.page + 1 - q.pos / x.page))).map (fun i => (q.pos / x.page + i) % r)

/-- `demand` of R58 for n ≥ 1 tokens. -/
def Ctx.demand (x : Ctx) (q : Seq) (n : Nat) : Nat × Nat :=
  (x.cover (q.pos + n) - q.cols.length + (x.kv.shared q.cols (x.fullIdx q n)).length,
   (x.kv.shared q.ring (x.ringIdx q n)).length)

/-- A demand fits. -/
def Ctx.fitsD (x : Ctx) (d : Nat × Nat) : Bool := x.fits d.1 d.2

/-- The first r rows of column `src` are copied into column `dst` (R63). -/
def State.copyRows (s : State) (c src dst r : Nat) : State :=
  match (s.ctx c).model with
  | none => s
  | some m =>
    let k := (s.ctx c).kv
    let rs := m.rowRanges (k.col src).ring r
    let inR (o : Nat) : Bool := rs.any (fun z => decide (z.1 ≤ o ∧ o < z.1 + z.2))
    let cells := (granCells s.mem (k.col dst).granules).filter (fun e => !inR e.1)
      ++ (granCells s.mem (k.col src).granules).filter (fun e => inR e.1)
    let t : State := { s with mem := granFill s.mem (k.col dst).granules cells }
    t.ownLayout c (sumN (rs.map Prod.snd))

/-- One copy of R63 in a sequence's list at an index: the old column's count drops, the new one takes its place. -/
def State.copyAt (s : State) (c q : Nat) (ring : Bool) (die i : Nat) : State :=
  let e := s.seq q
  let l := if ring then e.ring else e.cols
  let old := l.getD i 0
  let x := s.ctx c
  match x.newCol ring die s.now with
  | (none, _) => s
  | (some n, y) =>
    let here := if ring then (e.pos / x.page) % Nat.max 1 e.ring.length == i else e.pos / x.page == i
    let rows := if here then e.pos % x.page else 0
    let s1 := (s.onCtx c (fun _ => y.onCol n (fun k => { k with
      tokens := (y.kv.col old).tokens.take rows }))).copyRows c old n rows
    (s1.onCtx c (fun x => x.unref old)).onSeq q (fun e =>
      if ring then { e with ring := updAt e.ring i (fun _ => n) } else { e with cols := updAt e.cols i (fun _ => n) })

/-- The copies and new columns that n tokens require, which fit (R58, R63). -/
def State.grow (s : State) (c q n die : Nat) : State :=
  let e := s.seq q
  let x := s.ctx c
  let full := x.kv.shared e.cols (x.fullIdx e n)
  let ring := x.kv.shared e.ring (x.ringIdx e n)
  let s1 := full.foldl (fun t i => t.copyAt c q false die i) s
  let s2 := ring.foldl (fun t i => t.copyAt c q true die i) s1
  let more := Ctx.newCols false die s.now (x.cover (e.pos + n) - e.cols.length) (s2.ctx c)
  let s3 := (s2.onCtx c (fun _ => more.2)).onSeq q (fun e => { e with cols := e.cols ++ more.1 })
  if full.isEmpty && ring.isEmpty && more.1.isEmpty then s3 else s3.writeLists q

/-- The entry of a sequence selected with n tokens; its input leaves the feed (R420, R421). -/
def State.select (s : State) (c q n : Nat) (shrunk : Bool) : Entry × State :=
  let e := s.seq q
  let dec := e.st == .decode
  let input := if dec then e.pendTok.toList else e.feed.take n
  let segs := takeCounts (n - e.heads e.segs) e.segs
  let stamps := takeCounts (n - e.heads e.stamps) e.stamps
  let sample := dec || decide (e.feed.length ≤ n)
  let ent : Entry := ⟨q, 0, n, false, sample, e.pos, e.cb, e.temp, e.topP, e.topK, e.seed, e.stopSet, e.turnSet, input,
    if dec then [] else stamps.1, shrunk, false, false, 0, false, none⟩
  let s1 := s.onCtx c (fun x => (e.cols ++ e.ring).foldl (fun y k => y.onCol k (fun z => { z with stamp := s.now })) x)
  if dec then (ent, s1.onSeq q (fun e => { e with pendTok := none }))
  else
    let gone := segs.1.filter (fun a => !segs.2.any (fun b => b.1 == a.1))
    (ent, (s1.freeSegs gone).onSeq q (fun e => { e with feed := e.feed.drop n, segs := segs.2, stamps := stamps.2 }))

/-- An eviction request for a shortfall (R419).  One that a quota alone makes counts as a failed allocation (R259). -/
def State.askEviction (s : State) (c : Nat) (w : Nat × Nat) : State :=
  let x := s.ctx c
  (s.bumpCtx c .khanQuotaFails (b2n (w != (0, 0) && decide (x.granFree 0x5 < x.freeGranules)))).onCtx c (fun x => { x with kv := { x.kv with wanted := (x.kv.wanted.1 + w.1, x.kv.wanted.2 + w.2) } })

/-- R58 over the candidates in order: entries selected, budget left. -/
def growAll (c chunk : Nat) : List Nat → Nat → State → List Entry × Nat × State
  | [], b, s => ([], b, s)
  | q :: r, b, s =>
    let e := s.seq q
    let n0 := Nat.min (if e.st == .decode then 1 else Nat.min e.feed.length chunk) b
    if n0 = 0 then ([], b, s)
    else
      let d0 := (s.ctx c).demand e n0
      let s1 := if (s.ctx c).fitsD d0 then s
        else s.onCtx c (fun x => Ctx.reclaim d0.1 d0.2 x.kv.tree.length x)
      let n := (firstBelow n0 (fun i => (s1.ctx c).fitsD ((s1.ctx c).demand e (n0 - i)))).map (fun i => n0 - i)
      match n with
      | none =>
        let s2 := (s1.onSeq q (fun e => { e with paused := true, pauses := Nat.min 0xFFFF (e.pauses + 1) })).bumpCtx c .pauses 1
        growAll c chunk r b ((s2.askEviction c ((s1.ctx c).shortfall d0.1 d0.2)).note c q fPaused)
      | some n =>
        let d := s1.draw
        let g := (d.2.grow c q n (d.1 % 4)).select c q n (decide (n < n0))
        let t := growAll c chunk r (b - n) g.2
        (g.1 :: t.1, t.2.1, t.2.2)

/-- Candidates in order of (`DEADLINE`, sequence ID). -/
def State.candidates (s : State) (c : Nat) : List Nat :=
  (sortBy (fun (a b : Nat × Seq) => decide (a.2.deadline < b.2.deadline ∨ (a.2.deadline = b.2.deadline ∧ a.1 ≤ b.1)))
    (s.seqs.filter (fun e => e.2.ctx == c && !e.2.kvFar && (e.2.st == .prefill || e.2.st == .decode)))).map (fun e => e.1)

/-! ### Phase 4: admission -/

/-- WAITING sequences in order of (`PMP_SEQ_OPEN` stamp, sequence ID). -/
def State.joiners (s : State) (c : Nat) : List Nat :=
  (sortBy (fun (a b : Nat × Seq) => decide (a.2.openStamp < b.2.openStamp ∨ (a.2.openStamp = b.2.openStamp ∧ a.1 ≤ b.1)))
    (s.seqs.filter (fun e => e.2.ctx == c && e.2.st == .waiting))).map (fun e => e.1)

/-- Nodes that a joiner's input matches (R65). -/
def Ctx.matched (x : Ctx) (c : Nat) (q : Seq) : List Node :=
  if q.usePrefix then x.kv.walk c x.page ((q.feed.length - 1) / x.page) 0 q.feed else []

/-- Demand of a joiner (R59), beyond the columns that its prefix shares. -/
def Ctx.joinDemand (x : Ctx) (q : Seq) (m chunk : Nat) : Nat × Nat :=
  let pos := m * x.page
  (x.cover (pos + Nat.min (q.feed.length - pos) chunk) - m, x.ringLen)

/-- A joiner is admitted: its allocation, its deadline and its state (R50, R59, Table 3-3). -/
def State.admitOne (s : State) (c q chunk die : Nat) (ms : List Node) : State :=
  let e := s.seq q
  let x := s.ctx c
  let pos := ms.length * x.page
  let d := x.joinDemand e ms.length chunk
  let ring := Ctx.newCols true die s.now d.2 x
  let full := Ctx.newCols false die s.now d.1 ring.2
  let segs := takeCounts pos e.segs
  let gone := segs.1.filter (fun a => !segs.2.any (fun b => b.1 == a.1))
  let s1 := (s.onCtx c (fun _ => { full.2 with kv := { full.2.kv with
    tree := full.2.kv.tree.map (fun n => if ms.contains n then { n with matched := s.now } else n) } })).freeSegs gone
  ((s1.onSeq q (fun e => ({ e with
    st := if e.feed.length - pos = 0 then .idle else .prefill
    pos := pos, feed := e.feed.drop pos, segs := segs.2, stamps := (takeCounts pos e.stamps).2
    cols := ms.map (·.col) ++ full.1, ring := ring.1 } : Seq).arm e.openStamp)).writeLists q).note c q fAdmitted

/-- Phase 4 over the joiners in order: entries selected; what is left is the unadmitted demand. -/
def admitAll (c chunk : Nat) : List Nat → Nat → State → List Entry × State
  | [], _, s => ([], s)
  | q :: r, b, s =>
    let x := s.ctx c
    let e := s.seq q
    let ms := x.matched c e
    let d := x.joinDemand e ms.length chunk
    let held := ms.foldl (fun y n => y.ref n.col) x
    let y := if held.fitsD d then held else Ctx.reclaim d.1 d.2 held.kv.tree.length held
    if y.fitsD d then
      let p := s.draw
      let s1 := (p.2.onCtx c (fun _ => y)).admitOne c q chunk (p.1 % 4) ms
      let n := Nat.min (Nat.min (s1.seq q).feed.length chunk) b
      if n = 0 then admitAll c chunk r b s1
      else
        let g := s1.select c q n false
        let t := admitAll c chunk r (b - n) g.2
        (g.1 :: t.1, t.2)
    else
      let back := ms.foldl (fun z n => z.unref n.col) y
      let tot := (q :: r).foldl (fun (a : Nat × Nat) k =>
        let z := back.joinDemand (s.seq k) (back.matched c (s.seq k)).length chunk
        (a.1 + z.1, a.2 + z.2)) (0, 0)
      ([], (s.onCtx c (fun _ => back)).askEviction c (back.shortfall tot.1 tot.2))

/-! ### The Manifest (R60, R61) -/

/-- Entries given to convoy A until it holds `half` tokens, then to B; slots numbered from 0. -/
def cutConvoys (half : Nat) : List Entry → Nat → List Entry
  | [], _ => []
  | e :: r, n => { e with slot := n, convoyB := decide (half ≤ n) } :: cutConvoys half r (n + e.tokens)

/-- Layers that may run planned, by `PLAN_MODE` or in fixed-order mode by `FO_PLANNED` (R111, R112). -/
def Ctx.plannedLayers (x : Ctx) : List Nat :=
  (List.range ((x.model.map (·.moe)).getD 0)).filter (fun l => x.route.active.has l && dispMode (x.route.active.layer l).disp != 2)

/-- R111: the layers that the deadline projection switches. -/
def State.projection (s : State) (c : Nat) (m : Manifest) : List Nat :=
  let x := s.ctx c
  let r := x.route.active
  let dls := (m.entries.filter (fun e => (s.seq e.seq).perFrame != 0)).map (fun e => (s.seq e.seq).deadline)
  if m.fixed ∨ dls.isEmpty ∨ x.steps.lastSteps.length < 16 ∨ (s.fw fwCaravan).st ≠ .running then []
  else
    let ls := x.plannedLayers
    let t := Nat.max m.tokensA (m.tokens - m.tokensA)
    let js := ls.map (fun l => (l, s.subsExpected c r l t (x.plans.lastHist.getD l []) x.plans.lastTokens))
    let avg := if x.steps.lastSubs.length < 16 then m.returnUs * 1000 else meanN x.steps.lastSubs
    let margin := maxN (ls.map (fun l => dispMargin (r.layer l).disp))
    let proj : Int := m.buildTick + meanN x.steps.lastSteps + (js.map (fun j => ((j.2 : Int) - 1) * avg)).foldl (· + ·) 0
    switchLoop avg (((minBy id dls).getD 0 : Int) - margin * 1000) js.length js proj

/-- Plan requests of the consulted layers (R113): one per plan Waystation that has room, with the histograms used. -/
def State.planRequests (s : State) (c : Nat) (m : Manifest) : State :=
  let x := s.ctx c
  let r := x.route.active
  let ls := (List.range ((x.model.map (·.moe)).getD 0)).filter (fun l => r.has l && dispMode (r.layer l).disp == 1)
  let ws := ls.foldl (fun l n => let w := (r.layer n).planWs; if l.contains w then l else l ++ [w]) ([] : List Nat)
  if (s.fw fwCaravan).st ≠ .running then s
  else
    ws.foldl (fun t w =>
      let mine := ls.filter (fun n => (r.layer n).planWs == w)
      let data := mine.flatMap (fun n => (List.range (x.lastExpert n + 1)).flatMap (fun e =>
        toLE 4 ((x.plans.lastHist.getD n []).getD e 0)))
      match t.khanAlloc c 1 0 0x2 data.length with
      | (none, u) => u
      | (some h, u) =>
        let v := (u.writeAt h.2 data).onCtx c (fun x => { x with plans := { x.plans with requests := x.plans.requests ++ [h.1] } })
        if (v.wst w).room = 0 then v
        else v.wsPush w [Config.planRequest m.epoch m.tokensA (m.tokens - m.tokensA) h.1]) s

/-- The Manifest of the selected entries becomes the step in flight. -/
def State.build (s : State) (c : Nat) (es : List Entry) : State :=
  let x := s.ctx c
  let t := sumN (es.map (·.tokens))
  let cut := cutConvoys (Nat.max 1 (t / 2)) es 0
  let ta := sumN ((cut.filter (fun e => !e.convoyB)).map (·.tokens))
  let ep := x.steps.nextEpoch
  let m : Manifest := ⟨ep, x.steps.mode, t, ta, cut, 0, 0, 0, 0, s.now, x.route.gen, x.sfn.gen, x.lay.gen, x.returnUs, 0,
    false, [], []⟩
  let clear (k : Nat) : Nat := if k.testBit ep then k - 2 ^ ep else k
  let s1 := s.onCtx c (fun x => { x with
    layers := []
    steps := { x.steps with
      man := some m, nextEpoch := (ep + 1) % 65536, doneMask := clear x.steps.doneMask
      killedMask := clear x.steps.killedMask, sliceAt := s.sliceNow c } })
  (s1.onMan c (fun m => { m with switched := s1.projection c m })).planRequests c m

/-! ### The whole boundary -/

/-- Answers of the opens that this boundary's phase 4 has seen (R46). -/
def State.answerOpens (s : State) (c : Nat) : State :=
  (s.host.msgs.filter (fun m => match m.phase with | .openWait q => (s.seq q).ctx == c | _ => false)).foldl (fun t m =>
    match m.phase with
    | .openWait q =>
      let e := t.seq q
      let body := writeFields [(.u32, q), (.u64, e.seed)]
      if e.st = .waiting then (t.complete m (owner m.op) .deferred body).bumpCtx c .admitDeferrals 1
      else t.complete m (owner m.op) .ok body
    | _ => t) s

/-- Phases 3 and 4 and the Manifest (R56, R58 to R61). -/
def State.phases34 (s : State) (c : Nat) : State :=
  let x := s.ctx c
  let s1 := { (s.onCtx c (fun x => { x with kv := { x.kv with
      wanted := (0, 0), covered := 0, blocked := false } })) with
    seqs := s.seqs.mapV (fun _ e => if e.ctx = c then { e with paused := false } else e) }
  let budget := Nat.min x.steps.tokenLimit (2097152 / x.route.active.kmax)
  let g := growAll c x.steps.prefillChunk (s1.candidates c) budget s1
  let a := admitAll c x.steps.prefillChunk (g.2.2.joiners c) g.2.1 g.2.2
  let es := g.1 ++ a.1
  let s2 := a.2.onCtx c Ctx.dropLists
  let s3 := if es.isEmpty then s2 else s2.build c es
  let s4 := (s3.onCtx c (fun x => { x with steps := { x.steps with between := false } })).answerOpens c
  ((s4.releaseHeld c).applyHeld c).sendAcks c

/-- Phase 3 may begin: not held, in its slice, its epoch not in quarantine (R52, R320, R328). -/
def State.mayBuild (s : State) (c : Nat) : Bool :=
  let x := s.ctx c
  !x.held && s.mayStart c && !x.lands.any (fun z => z.quarantined && z.epoch == x.steps.nextEpoch)

/-- Phase 3 begins, or waits for the next try; a held context is between boundaries and takes its messages (R328). -/
def State.buildOrWait (s : State) (c : Nat) : State :=
  if s.mayBuild c then s.phases34 c
  else (if (s.ctx c).held then s.releaseHeld c else s).onCtx c (fun x => { x with steps := { x.steps with between := true } })

/-- `STEP_BOUNDARY` (R56): phases 1 and 2, the flips of R89, phases 3 and 4. -/
def stepBoundary (c : Nat) (s : State) : State :=
  let x := s.ctx c
  if 16 ≤ c ∨ x.st ≠ .active ∨ (s.part x.share.partition).halted then s
  else if x.steps.between then (if s.mayBuild c then (s.flipAll c).phases34 c else s)
  else
    match x.steps.man with
    | none => (((s.releaseLeavers c).flipAll c)).buildOrWait c
    | some m =>
      if !x.stepEnded m then s
      else if !s.emitRoom m then
        if x.steps.stalled then s
        else (s.onCtx c (fun x => { x with steps := { x.steps with stalled := true } })).bumpCtx c .emitStalls 1
      else
        let s1 := (s.commitStep c m).onCtx c (fun x => { x with steps := { x.steps with stalled := false } })
        ((s1.releaseLeavers c).flipAll c).buildOrWait c

def execStepBoundary (c : Nat) (s : State) : Host.Outcome State Fault Refusal := .next (stepBoundary c s)

end Sys2Proof.Machine
end

