-- ==== Sys2Proof/Machine/Gate.lean ====
section
/-! DEFINITION. Hidden and residual rows, the gate, the predictor and the Top-k Selector (04 R74 to R86, R91 to R94;
05 R118; 06 R145). -/

namespace Sys2Proof.Machine

/-! ### Tensors -/


/-- FP32 values as blocks of a format: scale and element codes; a plain format has no scale. -/
def rowBlocks (fmt : Nat) (row : Row) : List (Option Nat × List Nat) :=
  (cutBy 32 row.length row).map (fun b =>
    if Num.codeMx fmt then
      let r := Num.mxBlock fmt (b.map Num.v32)
      (some r.1, r.2)
    else (none, b.map (Num.cvtTo fmt)))

/-- Stored elements and metadata word of a 2:4 block (Table 2-4).  Which two of each four elements a conversion keeps is
open. -/
def sparseBlock (els : List Nat) : List Nat × Nat :=
  let pos (g : Nat) : Nat := Config.sparseKept (ofDigits 16 ((els.drop (4 * g)).take 4)) % 16
  ((List.range 16).map (fun i => els.getD (4 * (i / 2) + bits (pos (i / 2)) (2 * (i % 2)) 2) 0),
    packF ((List.range 8).map (fun g => (4 * g, 4, pos g))))

/-- A row in a format, plane after plane (R34, R36, R118): elements, scales, and the metadata of a 2:4 format.  `stoch` gives the
random bits of a KV4S block where the context's policy rounds its scales so (R37). -/
def rowPlanes (fmt : Nat) (stoch : Option (Nat → Nat)) (row : Row) : List Byte :=
  if fmt = 0x0B then
    let bs := kvBlocks stoch 0 (row.map Num.v32)
    packElems 4 (bs.flatMap (·.2)) ++ bs.flatMap (fun b => toLE 2 b.1)
  else
    let bs := rowBlocks fmt row
    let scales := (bs.filterMap (·.1)).map (BitVec.ofNat 8)
    if fmt = 0x09 then
      let sp := bs.map (fun b => sparseBlock b.2)
      packElems 4 (sp.flatMap (·.1)) ++ scales ++ sp.flatMap (fun z => toLE 4 z.2)
    else packElems (Num.codeBits fmt) (bs.flatMap (·.2)) ++ scales

/-- A row in a format, every scale rounded to nearest. -/
def rowTensor (fmt : Nat) (row : Row) : List Byte := rowPlanes fmt none row

/-- Runs of an activation row in a format: values and scale. -/
def actRuns (fmt : Nat) (row : Row) : List (List Num.Val × Option Nat) :=
  (rowBlocks fmt row).map (fun b => (b.2.map (Num.elemVal fmt), b.1))

/-- Element i of width w of a plane at an address. -/
def State.planeAt (s : State) (a w i : Nat) : Nat := bits (s.numAt (a + i * w / 8) 3) (i * w % 8) w

/-- Run b of column e of a weight tensor at an address: (position in the run, value) pairs, and the scale (R34, R35, R73). -/
def State.weightRun (s : State) (a fmt cols d e b : Nat) : List (Nat × Num.Val) × Option Nat :=
  if fmt = 0x09 then
    let blk := e * (d / 32) + b
    let els := cols * (d / 32) * 8
    let meta_ := s.numAt (a + els + cols * (d / 32) + 4 * blk) 4
    ((List.range 16).map (fun i =>
      (4 * (i / 2) + bits meta_ (4 * (i / 2) + 2 * (i % 2)) 2, Num.elemVal 0x08 (s.planeAt a 4 (16 * blk + i)))),
     some (s.numAt (a + els + blk) 1))
  else
    let w := Num.codeBits fmt
    ((List.range (Nat.min 32 (d - 32 * b))).map (fun i => (i, Num.elemVal fmt (s.planeAt a w (e * d + 32 * b + i)))),
     if Num.codeMx fmt then some (s.numAt (a + ceilDiv (cols * d * w) 8 + e * (d / 32) + b) 1) else none)

/-- One matrix-unit reduction of column e over a whole row (R40). -/
def State.reduce (s : State) (a fmt cols d e : Nat) (acts : List (List Num.Val × Option Nat)) : BitVec 32 :=
  (acts.zipIdx).foldl (fun acc x =>
    let w := s.weightRun a fmt cols d e x.2
    Num.mmaRun acc (w.1.map (fun p => (p.2, x.1.1.getD p.1 (.fin false 0 0)))) w.2 x.1.2) 0#32

/-! ### Rows from the compute dies (R60, R118, R145) -/

/-- A slot belongs to a convoy of the step in flight with an epoch, and the layer is one of the model's. -/
def Ctx.rowFits (x : Ctx) (epoch l : Nat) (b : Bool) (slot : Nat) : Bool :=
  match x.steps.man with
  | some m => m.epoch == epoch && decide (l < (x.model.map (·.moe)).getD 0 ∧ (m.slots b).1 ≤ slot ∧ slot < (m.slots b).2)
  | none => false

/-- `HIDDEN_ROW_RECEIVE` (R60, R118): once per slot and layer, from any present die; the row is scaled and converted. -/
def hiddenRow (die c epoch l : Nat) (b : Bool) (slot : Nat) (row : List Nat) (s : State) : State :=
  let x := s.ctx c
  let k := layKey l b
  if !s.boot.diesUp.getD die false || !x.rowFits epoch l b slot || ((x.layer k).hidden.find slot).isSome
    || row.length != x.share.dModel then s
  else
    let g := (x.boundRoute.layer l).disp
    let conv := rowTensor (dispFmt g) (row.map (fun v =>
      Num.fmul (Num.widen (BitVec.ofNat 16 v)) (BitVec.ofNat 32 (dispScale g))))
    (s.onLayer c k (fun y => { y with hidden := y.hidden.put slot (die, row), convRows := y.convRows.put slot conv })).ownLayout c
      conv.length

def execHiddenRowReceive (die c epoch layer : Nat) (convoyB : Bool) (slot : Nat) (row : List Nat) (s : State) :
    Host.Outcome State Fault Refusal := .next (hiddenRow die c epoch layer convoyB slot row s)

/-- `RESIDUAL_ROW_RECEIVE` (R145): a slot's residual row, written after its hidden row, where the fused pass runs. -/
def residualRow (die c epoch l : Nat) (b : Bool) (slot : Nat) (row : List Nat) (s : State) : State :=
  let x := s.ctx c
  let k := layKey l b
  if !s.boot.diesUp.getD die false || !x.rowFits epoch l b slot || !combFused (x.boundRoute.layer l).comb
    || ((x.layer k).hidden.find slot).isNone || ((x.layer k).resid.find slot).isSome || row.length != x.share.dModel then s
  else (s.onLayer c k (fun y => { y with resid := y.resid.put slot (die, row) })).residWrite c l slot
    (combResid (x.boundRoute.layer l).comb) row

def execResidualRowReceive (die c epoch layer : Nat) (convoyB : Bool) (slot : Nat) (row : List Nat) (s : State) :
    Host.Outcome State Fault Refusal := .next (residualRow die c epoch layer convoyB slot row s)

/-! ### The gate (R74, R75) -/

/-- A logit as the scores take it: NaN counts as −Inf, +Inf as the largest finite value (R75). -/
def gateLogit (z : BitVec 32) : BitVec 32 :=
  match Num.v32 z with
  | .nan => 0xFF800000#32
  | .inf false => 0x7F7FFFFF#32
  | _ => z

/-- Scores of a token's columns from their logits (R75, R38). -/
def scoresOf (rev : Nat) (sig : Bool) (zs : List (BitVec 32)) : List Nat :=
  if sig then zs.map (fun z => (Num.toQ115 (Sfn.eval32 rev 0x07 z)).toNat)
  else
    let m := zs.foldl (fun a z => if Num.Val.lt (Num.v32 a) (Num.v32 z) then z else a) 0xFF800000#32
    if m = 0xFF800000#32 then zs.map (fun _ => 0)
    else
      let p := zs.map (fun z => Sfn.eval32 rev 0x01 (Num.fadd z (Num.fneg m)))
      let sum := p.foldl Num.fadd 0#32
      p.map (fun v => (Num.toQ115 (Num.fdiv v sum)).toNat)

/-- Scores (q, qw, a logit was NaN) of one row under a layer's configuration (R74, R75). -/
def State.gateRow (s : State) (rev : Nat) (g : LayerCfg) (d : Nat) (row : List Nat) : List Nat × List Nat × Bool :=
  let cfg := g.cfg
  let acts := actRuns (cfgActFmt cfg) (row.map (fun v => Num.widen (BitVec.ofNat 16 v)))
  let a := (s.slotOf (cfgGateH cfg)).base
  let z := (List.range (cfgCols cfg)).map (fun e =>
    Num.fmul (BitVec.ofNat 32 (cfgScale cfg)) (s.reduce a (cfgGateFmt cfg) (cfgCols cfg) d e acts))
  let zs := if cfgBias cfg then (z.zip g.bias).map (fun x => Num.fadd x.1 (BitVec.ofNat 32 x.2)) else z
  let q := scoresOf rev (cfgSigmoid cfg) (zs.map gateLogit)
  (q, if cfgBias cfg then scoresOf rev (cfgSigmoid cfg) (z.map gateLogit) else q,
    (z ++ zs).any (fun v => (Num.v32 v).isNan))

/-- `GATE_LAUNCH` (R74, R75, R92): every hidden row of the convoy's layer has landed.  An unfinished predictor of the layer
before is abandoned. -/
def gateLaunch (c l : Nat) (b : Bool) (s : State) : State :=
  let x := s.ctx c
  let k := layKey l b
  let y := x.layer k
  let slots := x.slotList b
  if x.steps.man.isNone || slots.isEmpty || y.gated || decide ((x.model.map (·.moe)).getD 0 ≤ l)
    || !slots.all (fun n => (y.hidden.find n).isSome) then s
  else
    let g := x.boundRoute.layer l
    let sc := (slots.filter (fun n => !x.gone n)).foldl (fun (t : Tbl (List Nat × List Nat × Bool)) n =>
      t.put n (s.gateRow x.sfnRev g x.share.dModel (((y.hidden.find n).map (·.2)).getD []))) []
    let s1 := (s.onLayer c k (fun y => { y with gated := true, scores := sc })).ownStrings c true true
    let before := layKey (l - 1) b
    if l ≠ 0 ∧ (x.layer before).predRun then
      ((s1.onLayer c before (fun y => { y with predRun := false })).bumpCtx c .predAbandoned 1).ownKilled c
    else s1

def execGateLaunch (c layer : Nat) (convoyB : Bool) (s : State) : Host.Outcome State Fault Refusal :=
  .next (gateLaunch c layer convoyB s)

/-! ### The predictor (R91 to R94, R162) -/

/-- `PREDICTOR_LAUNCH` (R91): after the convoy's gate, where the layer predicts. -/
def predictorLaunch (c l : Nat) (b : Bool) (s : State) : State :=
  let x := s.ctx c
  let y := x.layer (layKey l b)
  if x.steps.man.isNone || !y.gated || y.predRun || y.predDone || (x.layer (layKey (l + 1) b)).gated
    || cfgDepth (x.boundRoute.layer l).cfg == 0 then s
  else (s.onLayer c (layKey l b) (fun y => { y with predRun := true })).ownStrings c true false

def execPredictorLaunch (c layer : Nat) (convoyB : Bool) (s : State) : Host.Outcome State Fault Refusal :=
  .next (predictorLaunch c layer convoyB s)

/-- Layers that a layer predicts: those of L+1 to L+d that exist. -/
def Ctx.predicted (x : Ctx) (l : Nat) : List Nat :=
  ((List.range (cfgDepth (x.boundRoute.layer l).cfg)).map (· + l + 1)).filter (fun n => decide (n < (x.model.map (·.moe)).getD 0))

/-- A plane of n MXFP4 elements and its scales, each at a multiple of 256 bytes. -/
def predPart (n : Nat) : Nat := roundUp (n / 2) 256 + roundUp (n / 32) 256

/-- Reduction of column e of an MXFP4 tensor of `cols` columns of k elements, its planes aligned to 256 bytes (R91). -/
def State.predReduce (s : State) (a cols k e : Nat) (acts : List (List Num.Val × Option Nat)) : BitVec 32 :=
  let sc := a + roundUp (cols * k / 2) 256
  (acts.zipIdx).foldl (fun acc x =>
    let ps := (List.range 32).map (fun i =>
      (Num.elemVal 0x08 (s.planeAt a 4 (e * k + 32 * x.2 + i)), x.1.1.getD i (.fin false 0 0)))
    Num.mmaRun acc ps (some (s.numAt (sc + e * (k / 32) + x.2) 1)) x.1.2) 0#32

/-- Experts predicted for one row: per predicted layer, the `PRED_M` highest logits, ties by lowest ID.  A NaN logit counts as
−Inf (log entry 98). -/
def State.predictRow (s : State) (x : Ctx) (l : Nat) (row : List Nat) : List (Nat × List Nat) :=
  let cfg := (x.boundRoute.layer l).cfg
  let d := x.share.dModel
  let a := (s.slotOf (cfgPredH cfg)).base
  let h := (List.range 256).map (fun e =>
    s.predReduce a 256 d e (actRuns 0x08 (row.map (fun v => Num.widen (BitVec.ofNat 16 v)))))
  let acts := actRuns 0x08 h
  ((x.predicted l).foldl (fun (t : Nat × List (Nat × List Nat)) n =>
    let cols := x.lastExpert n + 1
    let z := (List.range cols).map (fun e => (Num.to32 (cleanLogit (Num.v32 (s.predReduce t.1 cols 256 e acts))), e))
    let top := ((sortBy before z).take (cfgPredM cfg)).map (·.2)
    (t.1 + predPart (cols * 256), t.2 ++ [(n, top)])) (a + predPart (256 * d), [])).2

/-- R162: an offered expert whose primary is COLD is sent a prefetch request.  Whether a primary elsewhere is COLD is a
free value: the home is told of no frame state. -/
def State.offer (s : State) (c l e : Nat) : State :=
  match ((s.ctx c).boundRoute.expert l e).replicas.head? with
  | none => s
  | some r =>
    if r.pkg = s.board.pkgId then
      if (((s.frames c).frame l e 0).map (·.st)).getD 0 = 0 then s.fetchRequest c l e 0 4 r.die else s
    else
      let d := s.draw
      if d.1 % 2 = 0 then d.2.sendOpen r.pkg 0x31 c [0xC, l, e, 0] [] else d.2

/-- Soft reservations for the next layer (R93, R94): credits sized by the predicted counts, and bays of the shared pool,
how many of them being left open.  They take nothing out of the pool: a hard claim finds those bays free. -/
def State.reserveSoft (s : State) (c l : Nat) (b : Bool) : State :=
  let x := s.ctx c
  let r := x.boundRoute
  let rows := (List.range (x.lastExpert l + 1)).flatMap (fun e =>
    (r.splitOver l e (x.plans.pred.getD (expKey l e) 0)).map (fun p => (r.pkgOf l e p.1, p.2)))
  let credits := rows.foldl (fun (t : Tbl Nat) p => t.setD 0 p.1 (t.getD p.1 0 + p.2)) []
  let d := s.draw
  let n := d.1 % (s.poolFree - s.softTotal + 1)
  let y := x.layer (layKey l b)
  if y.sorted then s
  else
    d.2.onLayer c (layKey l b) (fun y => { y with softBays := y.softBays + n, softCredits := credits })

/-- `PREDICTOR_COMPLETE` (R91, R93): counts, offers and soft reservations. -/
def predictorComplete (c l : Nat) (b : Bool) (s : State) : State :=
  let x := s.ctx c
  let k := layKey l b
  let y := x.layer k
  if x.steps.man.isNone || !y.predRun then s
  else
    let rows := (x.slotList b).filter (fun n => !x.gone n)
    let pr := rows.map (fun n => (n, s.predictRow x l (((y.hidden.find n).map (·.2)).getD [])))
    let pred := pr.foldl (fun (t : Tbl Nat) p => p.2.foldl (fun u q => q.2.foldl (fun v e =>
      v.put (expKey q.1 e) (Nat.min 0xFFFF (v.getD (expKey q.1 e) 0 + 1))) u) t) x.plans.pred
    let next (p : Nat × List (Nat × List Nat)) : List Nat :=
      ((p.2.filter (fun q => q.1 == l + 1)).map (·.2)).flatten
    let pairs := pr.foldl (fun (t : Tbl (List Nat)) p => t.put ((l + 1) * 2 ^ 18 + p.1) (next p)) x.plans.pairs
    let n := sumN (pr.map (fun p => (next p).length))
    let s1 := (s.onCtx c (fun x => { x with plans := { x.plans with pred := pred, pairs := pairs } })).onLayer c k (fun y =>
      { y with predRun := false, predDone := true })
    let offers := (x.predicted l).flatMap (fun q => ((List.range (x.lastExpert q + 1)).filter (fun e =>
      decide (cfgPrefMin (x.boundRoute.layer q).cfg ≤ pred.getD (expKey q e) 0))).map (fun e => (q, e)))
    let s2 := offers.foldl (fun t o => t.offer c o.1 o.2) (s1.bumpCtx c .predPairs n)
    if (x.predicted l).contains (l + 1) then s2.reserveSoft c (l + 1) b else s2

def execPredictorComplete (c layer : Nat) (convoyB : Bool) (s : State) : Host.Outcome State Fault Refusal :=
  .next (predictorComplete c layer convoyB s)

/-! ### The Top-k Selector (R76 to R86) -/

/-- The picks of R76: columns in pick order, and whether selection stopped at the null expert or at `KMAX`. -/
def pickLoop (q : List Nat) (cfg t null : Nat) : List Nat → Nat → Nat → List Nat × Bool × Bool
  | [], _, _ => ([], false, false)
  | e :: r, n, c =>
    let v := q.getD e 0
    if v = 0 then ([], false, false)
    else
      let c1 := c + v
      if e = null then ([e], true, false)
      else if n + 1 = cfgKmax cfg then ([e], false, decide (c1 * 32768 < cfgTau cfg * t))
      else if cfgKmin cfg ≤ n + 1 ∧ cfgTau cfg * t ≤ c1 * 32768 then ([e], false, false)
      else
        let z := pickLoop q cfg t null r (n + 1) c1
        (e :: z.1, z.2)

/-- The routing histogram of a convoy's layer is written when its selection is complete (R86). -/
def State.writeHist (s : State) (c k : Nat) (b : Bool) : State :=
  if (s.ctx c).selectionDone k b then
    s.onCtx c (fun x => { x with plans := { x.plans with hist := x.plans.hist.put k (x.layer k).hist } })
  else s

/-- `TOKEN_SELECT` (R76 to R80, R82, R84 to R86): one token, as one act. -/
def tokenSelect (c l : Nat) (b : Bool) (slot : Nat) (s : State) : State :=
  let x := s.ctx c
  let k := layKey l b
  let y := x.layer k
  match x.steps.man, y.scores.find slot, x.man.entryOf slot with
  | some m, some (q, qw, nan), some ent =>
    let early := (x.slotList b).any (fun n => decide (n < slot) && !y.selected.contains n && !x.gone n)
    if y.selected.contains slot || ent.skipped || (m.fixed && early) then s
    else
      let cfg := (x.boundRoute.layer l).cfg
      let cols := cfgCols cfg
      let null := if cfgNull cfg then cols - 1 else cols
      let rank (e : Nat) : Nat := if m.fixed then e else s.free e
      let order := sortBy (fun a c => decide (q.getD c 0 < q.getD a 0 ∨ (q.getD a 0 = q.getD c 0 ∧ rank a ≤ rank c)))
        (List.range cols)
      let sel := pickLoop q cfg (sumN q) null order 0 0
      let picks := sel.1
      let real := picks.filter (fun e => e != null)
      let left := (order.drop picks.length).head?.map (fun e => q.getD e 0)
      let tie (e : Nat) : Bool := left == some (q.getD e 0)
      let total := if cfgNorm cfg then sumN (picks.map (fun e => qw.getD e 0)) else sumN (real.map (fun e => qw.getD e 0))
      let gen := m.gen b
      let bill (i e : Nat) : Bill :=
        { epoch := m.epoch, gen := gen, ctx := c, src := s.board.pkgId, slot := slot, seq := ent.seq, layer := l, expert := e
          rank := i, weight := (weightOf (cfgNorm cfg) (cfgWScale cfg) (qw.getD e 0) total total).toNat
          flags := (if i + 1 = real.length then flLast else 0) ||| (if sel.2.1 then flNull else 0)
            ||| (if sel.2.2 then flKmax else 0) ||| (if tie e then flTie else 0) ||| (if m.fixed then flFixed else 0)
          dst := 0, replica := 0, rowAddr := Config.rowAddr c l slot % 2 ^ 48, ret := 0, crc := 0 }
      let bills := (real.zipIdx).map (fun p => bill p.2 p.1)
      let rec1 : Slot := { Slot.fresh with
        emitted := real.length, gen := gen, sNorm := total
        qws := (List.range 16).map (fun i => match real[i]? with | some e => qw.getD e 0 | none => 0) }
      let s1 := (s.onLayer c k (fun y => { y with
        selected := y.selected ++ [slot], raw := y.raw ++ bills, slots := y.slots.put slot rec1
        hist := real.foldl (fun t e => t.setD 0 e (t.getD e 0 + 1)) y.hist })).setSlotGen c slot gen
      let empty := picks.isEmpty
      let hits := countP (fun e => (x.plans.pairs.getD (l * 2 ^ 18 + slot) []).contains e) real
      let s2 := ((((((((s1.bumpCtx c .tokensRouted 1).bumpCtx c .assignments real.length).bumpCtx c .nullSkips
        (b2n (picks.head? == some null))).bumpCtx c .nullCuts (b2n (sel.2.1 && picks.head? != some null))).bumpCtx c .kmaxCuts
        (b2n sel.2.2)).bumpCtx c .tieCuts (b2n (real.any tie))).bumpCtx c .emptyTokens (b2n empty)).bumpCtx c .nanTokens
        (b2n nan)).bumpCtx c .predHits hits
      let s3 := if empty && nan then s2.raiseOnce c 0 0x800 0x10 2 (workDetail m.epoch ent.seq slot) else s2
      ((s3.freed).writeHist c k b).holdSet c k b
  | _, _, _ => s

def execTokenSelect (c layer : Nat) (convoyB : Bool) (slot : Nat) (s : State) : Host.Outcome State Fault Refusal :=
  .next (tokenSelect c layer convoyB slot s)

end Sys2Proof.Machine
end

