-- ==== Sys2Proof/Machine/Yard.lean ====
section
/-! DEFINITION. Plans, the route seal, the sort, sub-convoys and their injection (05 R96 to R115, R118 to R121; 07
R168). -/

namespace Sys2Proof.Machine

/-! ### Plans (R109) -/

/-- The layer may run planned in the step in flight, by configuration, host and projection (R111 to R113). -/
def Ctx.plannedNow (x : Ctx) (l : Nat) (b : Bool) : Bool :=
  let g := (x.boundRoute.layer l).disp
  if x.man.fixed then dispFo g
  else dispMode g != 2 && !x.man.switched.contains l && !x.plans.hostReserved.contains (layKey l b)

/-- The route seal of a layer has begun in one of its convoys. -/
def Ctx.sealBegun (x : Ctx) (l : Nat) : Bool := (x.layer (layKey l false)).sealing || (x.layer (layKey l true)).sealing

/-- `PLAN_PUBLISH` (R109): Caravan Master's plan of a layer, before the layer's route seal begins. -/
def planPublish (c l : Nat) (s : State) : State :=
  let x := s.ctx c
  match x.steps.man with
  | none => s
  | some m =>
    if decide ((x.model.map (·.moe)).getD 0 ≤ l) || (s.fw fwCaravan).st != .running || x.sealBegun l
      || !(x.plannedNow l false || x.plannedNow l true) then s
    else
      let r := x.boundRoute
      let h := x.plans.lastHist.getD l []
      let plan (t : Nat) : Tbl Nat := s.planRows c r l t h x.plans.lastTokens
      let a := plan m.tokensA
      let b := plan (m.tokens - m.tokensA)
      s.onCtx c (fun x => { x with plans := { x.plans with
        now := (x.plans.now.put (layKey l false) a).put (layKey l true) b
        standing := (x.plans.standing.put (layKey l false) a).put (layKey l true) b } })

def execPlanPublish (c layer : Nat) (s : State) : Host.Outcome State Fault Refusal := .next (planPublish c layer s)

/-- Capacities of a standing plan, `CAP_FLOOR` for what it does not name (R109). -/
def Ctx.standingCaps (x : Ctx) (l : Nat) (k : Nat) : Tbl Nat :=
  let r := x.boundRoute
  let t := x.plans.standing.getD k []
  ((List.range (cfgLast (r.layer l).cfg + 1)).flatMap (fun e =>
    (r.splitOver l e (dispFloor (r.layer l).disp)).map (fun p =>
      (capKey e p.1, (t.find (capKey e p.1)).getD p.2)))).foldl (fun u e => u.put e.1 e.2) []

/-- The mode of a convoy's layer is fixed as its route seal begins (R101, R109, R111 to R113). -/
def State.beginSeal (s : State) (c l : Nat) (b : Bool) : State :=
  let x := s.ctx c
  let k := layKey l b
  if (x.layer k).sealing then s
  else
    let r := x.boundRoute
    let v := x.man.slots b
    let planned := x.plannedNow l b
    let host := x.plans.host.find k
    let now := x.plans.now.find k
    let first := !x.sealBegun l
    let standing := planned && host.isNone && now.isNone
    let has := (x.plans.standing.find k).isSome
    let miss := planned && dispMode (r.layer l).disp == 1 && host.isNone && first
    let reserved := !planned || (standing && !has && !x.man.fixed)
    let caps := if reserved then r.reservedCaps l (v.2 - v.1) else (host.orElse (fun _ => now)).getD (x.standingCaps l k)
    let s1 := s.onLayer c k (fun y => { y with sealing := true, reserved := reserved, caps := caps })
    let s2 := ((s1.bumpCtx c .consultMisses (b2n miss)).bumpCtx c .standingPlans (b2n (standing && has && first))).bumpCtx c
      .reservedLayers (b2n reserved)
    s2.onMan c (fun m => { m with reservedAny := m.reservedAny || reserved })

/-! ### Route seal (R99 to R102) -/

/-- One pick of the weighted round robin (R99): state after, and the index picked. -/
def pickOne (share : List Nat) (cur : List Int) : List Int × Nat :=
  let add := (cur.zip share).map (fun x => x.1 + (x.2 : Int))
  let top := add.foldl (fun a v => if a < v then v else a) (add.headD 0)
  let j := add.findIdx (fun v => v == top)
  (updAt add j (fun v => v - (sumN share : Int)), j)

/-- The starting state: zero, advanced by the offset of R99. -/
def startRobin (share : List Nat) : Nat → List Int
  | 0 => share.map (fun _ => 0)
  | n + 1 => (pickOne share (startRobin share n)).1

/-- A waybill leaves the route seal dropped with a cause. -/
def State.sealDrop (s : State) (c k : Nat) (b : Bill) (cause : Nat) : State := s.dropRank c k b.slot b.rank cause

/-- One waybill passes the route seal (R99 to R102, R168). -/
def State.sealBill (s : State) (c l : Nat) (conv : Bool) (b : Bill) : State :=
  let x := s.ctx c
  let k := layKey l conv
  let y := x.layer k
  let r := x.boundRoute
  let e := r.expert l b.expert
  let act := r.actives l b.expert
  if !e.avail then s.sealDrop c k b 2
  else if act.isEmpty then
    ((s.sealDrop c k b 3).bumpCtx c .noReplicaDrops 1).raiseOnce c 1 0x801 0x12 3 (layerExpert l b.expert)
  else
    let share := sharesOf act
    let cur := (y.robin.find b.expert).getD (startRobin share ((s.board.pkgId + l) % Nat.max 1 (sumN share)))
    let p := pickOne share cur
    let rep := act.getD p.2 (0, ⟨0, 0, false, 0⟩)
    let s1 := s.onLayer c k (fun y => { y with robin := y.robin.put b.expert p.1 })
    let key := capKey b.expert rep.1
    if y.reserved && decide (y.caps.getD key 0 ≤ y.keptBy.getD key 0) then
      (s1.sealDrop c k b 1).bumpCtx c .capacityDrops 1
    else
      let z : Bill := { b with
        dst := rep.2.pkg, replica := rep.1
        flags := b.flags ||| (if rep.2.pkg = s.board.pkgId then flLocal else 0) ||| (if y.reserved then flReserved else 0) }
      let stall := e.cause == 3 && (s.frames c).unread.contains (expKey l b.expert)
      s1.onLayer c k (fun y => { (y.onSlot b.slot (fun q => { q with kept := q.kept + 1 })) with
        kept := y.kept ++ [z], keptBy := y.keptBy.put key (y.keptBy.getD key 0 + 1)
        stalled := if stall then y.stalled ++ [z] else y.stalled })

/-- `ROUTE_SEAL` (R96, R99): the next waybill in emission order. -/
def routeSeal (c l : Nat) (b : Bool) (s : State) : State :=
  let k := layKey l b
  match (s.ctx c).steps.man, ((s.ctx c).layer k).raw with
  | some _, w :: _ =>
    let s1 := (s.beginSeal c l b).onLayer c k (fun y => { y with raw := y.raw.drop 1 })
    (s1.sealBill c l b w).holdSet c k b
  | _, _ => s

def execRouteSeal (c layer : Nat) (convoyB : Bool) (s : State) : Host.Outcome State Fault Refusal :=
  .next (routeSeal c layer convoyB s)

/-- `STALL_LIMIT_EXPIRY` (R168): past the limit the marked assignments are dropped with cause 0x2, and Guide makes their
experts unavailable. -/
def stallExpiry (c l : Nat) (b : Bool) (s : State) : State :=
  let k := layKey l b
  let y := (s.ctx c).layer k
  match y.stallFrom with
  | none => s
  | some t =>
    if y.stalled.isEmpty ∨ s.now ≤ t + (s.ctx c).resid.stallMs * 1000000 then s
    else
      let s1 := y.stalled.foldl (fun u w =>
        (u.onLayer c k (fun y => { (y.onSlot w.slot (fun q => { q with kept := q.kept - 1 })) with
          kept := eraseFirst (fun v => decide (v = w)) y.kept })).sealDrop c k w 2) s
      let es := y.stalled.foldl (fun (a : List Nat) w => if a.contains w.expert then a else a ++ [w.expert]) []
      let s2 := es.foldl (fun u e => u.guideChange c (.avail l e false 1)) s1
      (s2.onLayer c k (fun y => { y with stalled := [], due := some s.now })).bumpCtx c .stallExpiries 1

def execStallLimitExpiry (c layer : Nat) (convoyB : Bool) (s : State) : Host.Outcome State Fault Refusal :=
  .next (stallExpiry c layer convoyB s)

/-! ### The sort and the cut (R103, R107) -/

/-- The part of the sort key that both modes compare: destination, replica, expert (Table 5-3). -/
def Bill.group (b : Bill) : Nat := (b.dst * 16 + b.replica) * 65536 + b.expert

/-- The sort order: by group, then by slot and rank in fixed-order mode, in an unspecified order in free mode. -/
def State.sortBills (s : State) (fixed : Bool) (l : List Bill) : List Bill :=
  let tie (x : Bill × Nat) : Nat := if fixed then x.1.slot * 16 + x.1.rank else s.free x.2
  (sortBy (fun (a c : Bill × Nat) => decide (a.1.group < c.1.group ∨ (a.1.group = c.1.group ∧ tie a ≤ tie c))) l.zipIdx).map
    (·.1)

/-- Planned and excess waybills of a destination: the first `cap` of each group are planned. -/
def splitPlanned (caps : Tbl Nat) : List Bill → Tbl Nat → List Bill × List Bill
  | [], _ => ([], [])
  | b :: r, t =>
    let key := capKey b.expert b.replica
    let n := t.getD key 0
    let z := splitPlanned caps r (t.put key (n + 1))
    if n < caps.getD key 0 then (b :: z.1, z.2) else (z.1, b :: z.2)

/-- Sub-convoys of a destination (R107), each back in sort order. -/
def cutSubs (caps : Tbl Nat) (a d now : Nat) (rows : List Bill) : List Sub :=
  let p := splitPlanned caps rows []
  let ps := cutBy a rows.length (p.1 ++ p.2)
  (ps.zipIdx).map (fun x =>
    ⟨d, x.2, x.2 + 1 == ps.length, rows.filter (fun b => x.1.contains b), false, x.2 == 0, false, now, 0, [], false⟩)

/-- A set that waits for a stage became complete at its input before the tick given (R96). -/
def State.setBefore (s : State) (due : Option Nat) (waits : Layer → Bool) : Bool :=
  (List.range 16).any (fun c => (s.ctx c).layers.any (fun e =>
    waits e.2 && (match e.2.due with | some t => decide (t < due.getD s.now) | none => false)))

/-- `SORT` (R96, R103, R104, R107): the set, the first that waits for the Sorting Yard, is sorted and cut, and each waybill takes
its place among the kept ones. -/
def sortSet (c l : Nat) (b : Bool) (s : State) : State :=
  let x := s.ctx c
  let k := layKey l b
  match x.steps.man with
  | none => s
  | some m =>
    let y := x.layer k
    let v := m.slots b
    if v.1 == v.2 || decide ((x.model.map (·.moe)).getD 0 ≤ l) || !y.gated || !x.selectionDone k b || !y.raw.isEmpty
      || y.sorted then s
    else if !y.stalled.isEmpty then s.holdSet c k b
    else if s.setBefore y.due (fun z => !z.sorted) then s
    else
      let s1 := (s.writeHist c k b).beginSeal c l b
      let y1 := (s1.ctx c).layer k
      let sorted := ((s1.sortBills m.fixed y1.kept).zipIdx).map (fun p => { p.1 with ret := p.2 })
      let ds := sorted.foldl (fun (a : List Nat) w => if a.contains w.dst then a else a ++ [w.dst]) []
      let subs := ds.flatMap (fun d => cutSubs y1.caps (s.allow c d x.boundRoute l) d s.now (sorted.filter (fun w => w.dst == d)))
      ((s1.freed).onLayer c k (fun y => { y with
        sorted := true, due := some s.now, kept := sorted, subs := subs, robin := [], minLeft := x.minBays l (v.2 - v.1) })).bumpCtx c .subconvoys
        (countP (fun (u : Sub) => u.index != 0) subs)

def execSort (c layer : Nat) (convoyB : Bool) (s : State) : Host.Outcome State Fault Refusal :=
  .next (sortSet c layer convoyB s)

/-! ### Final seal (R114, R125) -/

/-- Changes a sub-convoy. -/
def State.onSub (s : State) (c k dst i : Nat) (f : Sub → Sub) : State :=
  s.onLayer c k (fun y => { y with subs := y.subs.map (fun u => if u.dst = dst ∧ u.index = i then f u else u) })

/-- A sub-convoy of a layer. -/
def Layer.sub (y : Layer) (dst i : Nat) : Option Sub := y.subs.find? (fun u => u.dst == dst && u.index == i)

/-- The landing buffer of a convoy's layer exists, or is made now; none where the T0 pool has no room (R125). -/
def State.landing (s : State) (c l : Nat) (b : Bool) (m : Manifest) : Option State :=
  let x := s.ctx c
  let y := x.layer (layKey l b)
  if x.lands.any (fun z => x.live z && z.layer == l && z.convoyB == b) then some s
  else
    match s.khanAlloc c 0 0 0x2 (8 * y.kept.length) with
    | (none, _) => none
    | (some h, t) =>
      let subOf (w : Bill) : Nat := ((y.subs.find? (fun u => u.bills.any (fun v => v.ret == w.ret))).map (·.index)).getD 0
      some (t.onCtx c (fun x => { x with lands := x.lands ++ [⟨m.epoch, l, b, (m.slots b).1, (m.slots b).2, h.1,
        y.kept.map (fun w => ⟨0, w.slot, w.rank, subOf w⟩), false, none, m.returnUs, [], [], false⟩] }))

/-- `FINAL_SEAL` (R96, R114, R125): a sub-convoy's waybills are completed and sealed; sets are taken in the order of their sorts,
but for those that wait for a landing table. -/
def finalSeal (c l : Nat) (b : Bool) (dst i : Nat) (s : State) : State :=
  let k := layKey l b
  match (s.ctx c).steps.man, ((s.ctx c).layer k).sub dst i with
  | some m, some u =>
    let y := (s.ctx c).layer k
    let taken := y.landWait || y.subs.any (fun u => u.sealed_)
    if u.sealed_ then s
    else if !taken && s.setBefore y.due (fun z => z.sorted && !z.landWait && !z.subs.isEmpty && !z.subs.any (fun u => u.sealed_)) then s
    else
      match s.landing c l b m with
      | none =>
        if ((s.ctx c).layer k).landWait then s
        else ((s.khanAlloc c 0 0 0x2 (8 * ((s.ctx c).layer k).kept.length)).2.onLayer c k (fun y => { y with
          landWait := true })).bumpCtx c .landingWaits 1
      | some t =>
        t.onSub c k dst i (fun u => { u with
          sealed_ := true
          bills := u.bills.map (fun w => Bill.seal { w with flags := w.flags ||| (if i = 0 then 0 else flSub) }) })
  | _, _ => s

def execFinalSeal (c layer : Nat) (convoyB : Bool) (dst index : Nat) (s : State) : Host.Outcome State Fault Refusal :=
  .next (finalSeal c layer convoyB dst index s)

/-! ### Injection (R108, R115, R119 to R121) -/

/-- Groups of a sub-convoy's waybills in sort order: (expert, replica, rows) (Table 5-5). -/
def billGroups (l : List Bill) : List (Nat × Nat × Nat) :=
  l.foldl (fun a w =>
    if a.any (fun g => g.1 == w.expert && g.2.1 == w.replica) then
      a.map (fun g => if g.1 = w.expert ∧ g.2.1 = w.replica then (g.1, g.2.1, g.2.2 + 1) else g)
    else a ++ [(w.expert, w.replica, 1)]) []

/-- A sub-convoy is ready to be injected. -/
def Sub.ready (u : Sub) : Bool := u.sealed_ && u.released && !u.injected

/-- An earlier set of the context has a sub-convoy ready (R119): a set of an earlier layer, or convoy A of this one. -/
def Ctx.earlierReady (x : Ctx) (k : Nat) : Bool := x.layers.any (fun e => decide (e.1 < k) && e.2.subs.any Sub.ready)

/-- Place of a destination in the turns of R119: ascending package IDs from the one after the home's own. -/
def turnOf (own dst : Nat) : Nat := (dst + 127 - own) % 128

/-- Another destination of the set has a sub-convoy ready and its turn is earlier (R119). -/
def Layer.turnBefore (y : Layer) (own dst : Nat) : Bool :=
  y.subs.any (fun u => u.ready && decide (turnOf own u.dst < turnOf own dst))

/-- Claims transport credits for n rows to a destination: the layer's soft-reserved ones go first (R120). -/
def Layer.claimCredits (y : Layer) (dst n : Nat) : Layer :=
  { y with softCredits := y.softCredits.setD 0 dst (y.softCredits.getD dst 0 - n)
           hardCredits := y.hardCredits.setD 0 dst (y.hardCredits.getD dst 0 + n) }

/-- The claims of a set as its first sub-convoy begins injection: toward each destination, for its sub-convoy 0 (R120). -/
def Layer.claimFirst (y : Layer) : Layer :=
  if y.subs.any (fun u => u.injected) then y
  else (y.subs.filter (fun u => u.index == 0)).foldl (fun z u => z.claimCredits u.dst u.bills.length) y

/-- `SUBCONVOY_INJECT` (R115, R120, R121, R140): the note, then every row that it counts, in sort order.  `ROWS_LOCAL` counts here
and `BYTES_INJECTED` leaves local sub-convoys out (log entry 103).  Destinations begin in the turns of R119; after that each has
a stream of its own, which takes all rows in this one act (log entry 102). -/
def subInject (c l : Nat) (b : Bool) (dst i : Nat) (s : State) : State :=
  let x := s.ctx c
  let k := layKey l b
  let y := x.layer k
  match x.steps.man, y.sub dst i with
  | some m, some u =>
    if !u.ready || x.earlierReady k || y.turnBefore s.board.pkgId dst then s
    else
      let fmt := dispFmt (x.boundRoute.layer l).disp
      let go := u.bills.filter (fun w => w.gen == (y.slot w.slot).gen)
      let gs := billGroups go
      let head := noteHeader m.epoch c s.board.pkgId l b y.reserved u.last m.fixed i go.length gs.length fmt m.routeGen
      let ents := gs.map (fun g => noteEntry g.1 g.2.1 g.2.2 (if y.reserved then y.caps.getD (capKey g.1 g.2.1) 0 else 0))
      let note := toLE 32 head ++ (ents.map (toLE 8)).flatten
      let s1 := (s.onLayer c k Layer.claimFirst).sendMsg dst 0x01 c ([head] ++ ents) note
      let s2 := go.foldl (fun t w =>
        t.sendMsg dst 0x02 c [w.pack] (toLE 32 w.pack ++ (y.convRows.getD w.slot []))) s1
      let away := dst != s.board.pkgId
      let n := note.length + sumN (go.map (fun w => 32 + (y.convRows.getD w.slot []).length))
      let s3 := s2.onSub c k dst i (fun u => { u with
        injected := true, deadline := if go.isEmpty then 0 else s.now + m.returnUs * 1000, waits := go.map (·.ret) })
      let s4 := s3.onLayer c k (fun y => { y with
        hardCredits := y.hardCredits.setD 0 dst (y.hardCredits.getD dst 0 - u.bills.length) })
      ((((s4.bumpCtx c .staleSkips (u.bills.length - go.length)).bumpCtx c .rowsDispatched (if away then go.length else 0)).bumpCtx
        c .rowsLocal (if away then 0 else go.length))).bumpCtx c .bytesInjected (if away then n else 0)
  | _, _ => s

def execSubconvoyInject (c layer : Nat) (convoyB : Bool) (dst index : Nat) (s : State) : Host.Outcome State Fault Refusal :=
  .next (subInject c layer convoyB dst index s)

/-- `SUBCONVOY_RELEASE` (R108, R120): a later sub-convoy is released once the one before it is answered or lost in full. -/
def subRelease (c l : Nat) (b : Bool) (dst i : Nat) (s : State) : State :=
  let k := layKey l b
  let y := (s.ctx c).layer k
  match (s.ctx c).steps.man, y.sub dst i, (if i = 0 then none else y.sub dst (i - 1)) with
  | some _, some u, some p =>
    if u.released || !p.injected || !p.waits.isEmpty then s
    else (s.onSub c k dst i (fun u => { u with released := true, releasedAt := s.now })).onLayer c k (fun y =>
      y.claimCredits dst u.bills.length)
  | _, _, _ => s

def execSubconvoyRelease (c layer : Nat) (convoyB : Bool) (dst index : Nat) (s : State) : Host.Outcome State Fault Refusal :=
  .next (subRelease c layer convoyB dst index s)

end Sys2Proof.Machine
end

