-- ==== Sys2Proof/Machine/Array.lean ====
section
/-! DEFINITION. Kernels, launches and placement, the core map and its errors (08 R172, R173, R180, R185 to R191; 14 R308 to
R311; 18 R385, R386). -/

namespace Sys2Proof.Machine

/-! ### Execution mode (R310, R311, R324) -/

/-- `PMP_DET_MODE`. -/
def detMode (c : Nat) (a : List Nat) (_ : Msg) (s : State) : Act :=
  match a with
  | [mode] =>
    let x := s.ctx c
    checked [(decide (1 < mode), .format)] s
      (match x.fitSpill (spillBytes x.steps.tokenLimit x.share.dModel (planesOf (mode == 1) x.draft)) with
       | none => .no s .noMemory
       | some y => .ok (s.onCtx c (fun _ => { y with steps := { y.steps with mode := mode == 1 } })) [])
  | _ => .no s .format

def execPmpDetMode (w : Nat) (s : State) : Host.Outcome State Fault Refusal :=
  .next (commitMsg w 0x0610 (withCtx [.u8] detMode) s)

/-- Packages that the appliance shape counts: this one and those present. -/
def State.shapePkgs (s : State) : List Nat :=
  (List.range 128).filter (fun p => p == s.board.pkgId || s.fab.present.contains p)

/-- Shape record (R311): bitmap, then a byte of present dies per package, padded to whole blocks of 64 bytes. -/
def State.shapeRecord (s : State) : List Byte :=
  let l := s.shapePkgs
  let r := toLE 16 (maskOf l) ++ l.map (fun p =>
    BitVec.ofNat 8 (if p = s.board.pkgId then flagWord s.boot.diesUp else Config.peerDies p % 16))
  r ++ List.replicate (roundUp r.length 64 - r.length) 0

/-- `PMP_DET_QUERY` (R311): the numerics revision is the one that the context was created under (R365). -/
def detQuery (c : Nat) (_ : List Nat) (_ : Msg) (s : State) : Act :=
  .ok s [(.u8, b2n (s.ctx c).steps.mode), (.u32, (s.ctx c).sfnRev), (.u32, Num.crc32c s.shapeRecord)]

def execPmpDetQuery (w : Nat) (s : State) : Host.Outcome State Fault Refusal :=
  .next (commitMsg w 0x0611 (withCtx [] detQuery) s)

/-! ### Core map (R172) -/

/-- Table 8-1: forty physical cores a quarter. -/
def Core.word (k : Core) : Nat := packF [(0, 10, k.phys), (10, 2, k.st), (16, 4, k.phys / 40)]

/-- Logical cores in state ENABLED. -/
def Cores.enabled (k : Cores) : Nat := countP (fun (x : Core) => x.st == 0) k.cores

/-- Table 8-2. -/
def Cores.summary (k : Cores) : Nat := packF [(0, 10, k.enabled), (10, 4, k.spares.length), (14, 10, k.retired)]

/-- `PMP_ARRAY_QUERY`. -/
def arrayQuery (_ : List Nat) (_ : Msg) (s : State) : Act :=
  .ok s ((.u32, s.cores.summary) :: s.cores.cores.map (fun k => (.u32, k.word)))

def execPmpArrayQuery (w : Nat) (s : State) : Host.Outcome State Fault Refusal :=
  .next (commitMsg w 0x0810 (withReq [] arrayQuery) s)

/-! ### Kernels (R185) -/

/-- A kernel image in a buffer: header word, and the code words that lie in the buffer's extent. -/
def State.kernelImage (s : State) (h : Nat) : Nat × List Nat :=
  let hd := ofLE (s.bufBytes h 0 64)
  let n := bits hd 64 32
  (hd, if 1 ≤ n ∧ n ≤ 32768 ∧ 64 + 8 * n ≤ (s.slotOf h).extent then
      (List.range n).map (fun i => ofLE (s.bufBytes h (64 + 8 * i) 8)) else [])

/-- `PMP_KERNEL_LOAD` (Table 8-7). -/
def kernelLoad (c : Nat) (a : List Nat) (m : Msg) (s : State) : Act :=
  match a with
  | [h] =>
    checked (s.handleUse c h true 64 ++ [(hTier h != 1, .format)]) s
      (let r := s.kernelImage h
       let hd := r.1
       let n := bits hd 64 32
       let bad := decide (n < 1 ∨ 32768 < n)
       checked
         [(bits hd 0 32 != 0x4B524E4C || bits hd 52 12 != 0 || bits hd 128 384 != 0, .format),
          (!bad && decide (n ≤ bits hd 96 32) || !r.2.all wordOk, .format),
          (bits hd 32 16 != 1, .version),
          (bad || decide ((s.slotOf h).extent < 64 + 8 * n), .bounds),
          (!s.owns m.sess (bits hd 48 4), .denied)] s
         (match firstBelow 0xFF00 (fun i => ((s.ctx c).lanes.kernels.find (0x100 + i)).isNone), s.khanAlloc c 1 0 0x8 (8 * n) with
          | some i, (some g, t) =>
            .ok (t.onLanes c (fun y => { y with
              kernels := y.kernels.put (0x100 + i) ⟨g.1, bits hd 96 32, r.2, r.2.any (fun w => iOp w == 0x63)⟩ }))
              [(.u16, 0x100 + i)]
          | _, (_, t) => .no { s with ctxs := t.ctxs } .noMemory))
  | _ => .no s .format

def execPmpKernelLoad (w : Nat) (s : State) : Host.Outcome State Fault Refusal :=
  .next (commitMsg w 0x0620 (withCtx [.u32] kernelLoad) s)

/-- `PMP_KERNEL_UNLOAD`. -/
def kernelUnload (c : Nat) (a : List Nat) (_ : Msg) (s : State) : Act :=
  match a with
  | [k] =>
    match (s.ctx c).lanes.kernels.find k with
    | none => .no s .unavailable
    | some x =>
      if (s.ctx c).lanes.launches.any (fun l => l.kernel == k) then .no s .busy
      else .ok ((s.khanDrop x.handle).onLanes c (fun y => { y with kernels := y.kernels.del k })) []
  | _ => .no s .format

def execPmpKernelUnload (w : Nat) (s : State) : Host.Outcome State Fault Refusal :=
  .next (commitMsg w 0x0622 (withCtx [.u16] kernelUnload) s)

/-! ### Launches (R186, R187, R308) -/

/-- Cores of a partition's set. -/
def State.coreSet (s : State) (p : Nat) : List Nat :=
  (List.range (s.part p).coreCount).map (· + (s.part p).coreFirst)

/-- A launch record read (Table 8-8), bound to the context's active generations (R190). -/
def Launch.read (id x route sfn lay now : Nat) : Launch :=
  { id := id, kernel := bits x 0 16, prio := bits x 20 2, fixed := bit x 22, strings := bits x 24 24
    scratch4k := bits x 48 8, tilesN := bits x 56 4, items := bits x 64 32, tallyEn := bit x 112, tally := bits x 96 16
    args := bits x 128 64, startTick := bits x 192 64, st := 1, nextItem := 0, routeGen := route, sfnGen := sfn
    layGen := lay, strs := [], accepted := now, sliceAt := 0, dying := none }

/-- A string before it is placed. -/
def Str.waiting (core : Nat) : Str :=
  { st := 0, core := core, waited := false, scratch := 0, pc := 0, regs := [], preds := [], tiles := [], claims := 0
    wait := .none, sent := [] }

/-- The strings of a launch: string i of a fixed-order launch waits for the (i mod N)-th ENABLED core of the set (R188). -/
def State.newStrs (s : State) (c : Nat) (l : Launch) : List Str :=
  let set := s.coreSet (s.ctx c).share.partition
  let homes := set.filter (fun n => (s.core n).st == 0)
  (List.range l.strings).map (fun i => Str.waiting (homes.getD (i % Nat.max 1 homes.length) (set.headD 0)))

/-- A launch is accepted. -/
def State.accept (s : State) (c : Nat) (l : Launch) : State :=
  let late := l.startTick != 0 && decide (l.startTick < s.now)
  let st := if s.now < l.startTick ∨ l.startTick = noDeadline then 0 else 1
  let s1 := ((s.onLanes c (fun y => { y with
    nextLaunch := (y.nextLaunch + 1) % 2 ^ 32
    launches := y.launches ++ [{ l with st := st, strs := s.newStrs c l }] })).bumpCtx c .launches 1).bumpCtx c .lateStarts
      (b2n late)
  if l.strings = 0 then s1.retireLaunch c l 2 else s1

/-- `PMP_KERNEL_LAUNCH` (R186): the context is the one in the record. -/
def kernelLaunch (a : List Nat) (m : Msg) (s : State) : Act :=
  match a with
  | [r] =>
    let c := bits r 16 4
    let x := s.ctx c
    let own := s.owns m.sess c
    let halted := (s.part x.share.partition).halted
    let l := Launch.read x.lanes.nextLaunch r x.route.gen x.sfn.gen x.lay.gen s.now
    let k := x.lanes.kernels.find l.kernel
    checked
      [(x.st == .free, .unavailable),
       (l.prio == 3 || l.items == 0xFFFFFFFF || bits r 60 4 != 0 || bits r 113 15 != 0, .format),
       (l.prio == 0 || bit r 23 || (l.fixed && (match k with | some y => y.fpAtomic | none => false)) || !own, .denied),
       (x.st == .teardown, .unavailable), (halted, .faulted),
       (decide (192 < l.scratch4k ∨ 4 < l.tilesN) || !s.anyShare c l.args 1 || (l.tallyEn && !x.hasPost l.tally), .bounds),
       (k.isNone, .unavailable),
       (decide (64 ≤ x.lanes.launches.length) || decide (1024 ≤ sumN (s.ctxs.map (fun y => y.lanes.launches.length))),
         .busy)] s
      (.ok (s.accept c l) [(.u32, l.id)])
  | _ => .no s .format

def execPmpKernelLaunch (w : Nat) (s : State) : Host.Outcome State Fault Refusal :=
  .next (commitMsg w 0x0621 (withReq [.r 256] kernelLaunch) s)

/-- State of a launch in flight or still known (Table 8-10). -/
def Ctx.launchState (x : Ctx) (id : Nat) : Option Nat :=
  match x.launch id with
  | some l => some l.st
  | none => (x.lanes.known.find? (fun k => k.1 == id)).map (·.2)

/-- `PMP_KERNEL_STATUS`. -/
def kernelStatus (c : Nat) (a : List Nat) (_ : Msg) (s : State) : Act :=
  match a with
  | [id] =>
    match (s.ctx c).launchState id with
    | some st => .ok s [(.u8, st)]
    | none => .no s .bounds
  | _ => .no s .format

def execPmpKernelStatus (w : Nat) (s : State) : Host.Outcome State Fault Refusal :=
  .next (commitMsg w 0x0623 (withCtx [.u32] kernelStatus) s)

/-- `PMP_KERNEL_KILL` (R191). -/
def kernelKill (c : Nat) (a : List Nat) (_ : Msg) (s : State) : Act :=
  match a with
  | [id] =>
    if ((s.ctx c).launch id).isSome then
      let t := s.killLaunch c id 3
      if (t.ctx c).launchState id = some 2 then .no t .cancelled else .ok t []
    else if ((s.ctx c).launchState id).isSome then .no s .cancelled else .no s .bounds
  | _ => .no s .format

def execPmpKernelKill (w : Nat) (s : State) : Host.Outcome State Fault Refusal :=
  .next (commitMsg w 0x0624 (withCtx [.u32] kernelKill) s)

/-- `LAUNCH_START_TICK` (R308): the counter has reached `START_TICK`; all ones is never reached. -/
def launchStart (c id : Nat) (s : State) : State :=
  match (s.ctx c).launch id with
  | some l =>
    if l.st = 0 ∧ l.startTick ≤ s.now ∧ l.startTick ≠ noDeadline then
      s.onLanes c (fun y => { y with launches := y.launches.map (fun x => if x.id = id then { x with st := 1 } else x) })
    else s
  | none => s

def execLaunchStartTick (c id : Nat) (s : State) : Host.Outcome State Fault Refusal := .next (launchStart c id s)

/-! ### Placement (R178, R188) -/

/-- Scratch units of 4 KiB at which k free ones begin on a core, within the 192 that R186 leaves software. -/
def State.scratchAt (s : State) (n k : Nat) : List Nat :=
  let taken := (s.residents n).map (fun r => (r.2.scratch / 4096, r.1.scratch4k))
  (List.range (193 - k)).filter (fun u => taken.all (fun t => decide (k = 0 ∨ t.1 + t.2 ≤ u ∨ u + k ≤ t.1)))

/-- Strings of Seltos's own kernels may hold shared slots, scratch and tiles of a logical core: a predictor runs, or a
`GATHER_PRODUCT` is in progress, in a context of a partition whose set holds the core (R192, R295). -/
def State.ownShare (s : State) (n : Nat) : Bool :=
  (List.range 16).any (fun c => (s.coreSet (s.ctx c).share.partition).contains n
    && ((s.ctx c).layers.any (fun e => e.2.predRun) || (s.ctx c).colls.any (fun k => k.info.op == 6 && k.running)))

/-- Logical core n has room for a string of a software launch: ENABLED, with a slot, scratch and tiles (R186, R188).  What Seltos's
own strings leave of a core that they may share is open (log entry 108). -/
def State.roomOn (s : State) (l : Launch) (n : Nat) : Bool :=
  let r := s.residents n
  (s.core n).st == 0 && decide (r.length < 96) && decide (sumN (r.map (fun x => x.1.tilesN)) + l.tilesN ≤ 4)
  && !(s.scratchAt n l.scratch4k).isEmpty && (!s.ownShare n || s.free (2 ^ 61 + n) % 2 == 0)

/-- Cores of a set in cyclic order of logical number from a pointer on. -/
def cyclicFrom (set : List Nat) (ptr : Nat) : List Nat :=
  set.filter (fun n => decide (ptr ≤ n)) ++ set.filter (fun n => decide (n < ptr))

/-- The core that takes the string next: its own in fixed-order mode, else the first with room from the scan pointer. -/
def State.placeOn (s : State) (c : Nat) (l : Launch) (g : Str) : Option Nat :=
  let p := (s.ctx c).share.partition
  if l.fixed then (if s.roomOn l g.core then some g.core else none)
  else (cyclicFrom (s.coreSet p) (s.part p).scan).find? (s.roomOn l)

/-- The string that waits first of a launch, in index order. -/
def Launch.firstWaiting (l : Launch) : Option Nat := firstBelow l.strs.length (fun i => ((l.strs[i]?).map (·.st)) == some 0)

/-- An older launch of the partition has a string that waits and can be placed. -/
def State.olderWaits (s : State) (c : Nat) (l : Launch) : Bool :=
  (List.range 16).any (fun d => s.mayStart d && (s.ctx d).share.partition == (s.ctx c).share.partition
    && (s.ctx d).lanes.launches.any (fun k => k.st == 1 && decide (k.accepted < l.accepted)
      && (match k.firstWaiting.bind (fun i => k.strs[i]?) with | some g => (s.placeOn d k g).isSome | none => false)))

/-- A string as it starts (R178); its tiles hold undefined values (R177). -/
def State.started (s : State) (l : Launch) (i n base entry : Nat) : Str :=
  { st := 1, core := n, waited := false, scratch := base, pc := entry
    regs := (List.range 1024).map (fun k =>
      if k < 64 then i else if k < 128 then k - 64 else if k < 192 then l.args % 2 ^ 32
      else if k < 256 then l.args / 2 ^ 32 else 0)
    preds := List.replicate 256 false
    tiles := (List.range l.tilesN).map (fun t => (List.range 6144).map (fun e => s.free (1 + t * 6144 + e) % 2 ^ 32))
    claims := 0, wait := .none, sent := [] }

/-- Strings that wait for a core enter WAITING: in free mode every one that is left, in fixed-order mode those of the first one's
core (R188, R193). -/
def State.allWait (s : State) (c : Nat) (l : Launch) : State :=
  let hit (g : Str) : Bool := g.st == 0 && !g.waited && (!l.fixed || !s.roomOn l g.core)
  (s.onLanes c (fun y => { y with launches := y.launches.map (fun x =>
    if x.id = l.id then { x with strs := x.strs.map (fun g => if hit g then { g with waited := true } else g) } else x) })).bumpCtx
    c .placeWaits (countP hit l.strs)

/-- `STRING_PLACE` (R188, R319, R320): the launch's first waiting string goes to a core with room, or waits with those after it
that find none either. -/
def stringPlace (c id i : Nat) (s : State) : State :=
  match (s.ctx c).launch id with
  | none => s
  | some l =>
    match l.strs[i]? with
    | none => s
    | some g =>
      if l.st ≠ 1 ∨ l.firstWaiting ≠ some i ∨ !s.mayStart c ∨ s.olderWaits c l then s
      else
        let entry := (((s.ctx c).lanes.kernels.find l.kernel).map (·.entry)).getD 0
        match s.placeOn c l g with
        | none => s.allWait c l
        | some n =>
          let at_ := s.scratchAt n l.scratch4k
          let base := 4096 * at_.getD (s.free 0 % Nat.max 1 at_.length) 0
          let s1 := (s.onStr c id i (fun _ => s.started l i n base entry)).onLanes c (fun y => { y with
            launches := y.launches.map (fun x =>
              if x.id = id ∧ i = 0 then { x with sliceAt := s.sliceNow c } else x) })
          let s2 := if l.fixed then s1 else s1.onPart (s.ctx c).share.partition (fun r => { r with scan := n + 1 })
          (s2.bumpCtx c .stringsRun 1).freed

def execStringPlace (c id i : Nat) (s : State) : Host.Outcome State Fault Refusal := .next (stringPlace c id i s)

/-! ### Errors of the array (R173, R180, R385, R386) -/

/-- An uncorrectable error of a launch's string: the launch is killed with cause fault, and `ARRAY_UE` is logged. -/
def State.launchUe (s : State) (c id i a : Nat) : State :=
  (s.killLaunch c id 4).raise (s.physOf c id i) 0x06 0 c 1 (addrDetail (a % 2 ^ 57))

/-- `ARRAY_UE_EVENT` (R180): of string `str` of a launch at a kind-0 offset, or of a string that serves a slot of the step. -/
def arrayUe (c core off : Nat) (str : Option (Nat × Nat)) (slot : Nat) (s : State) : State :=
  match str with
  | some (id, i) =>
    match ((s.ctx c).launch id).bind (fun l => l.strs[i]?) with
    | some g => if g.st = 1 then (s.launchUe c id i (addr 0 off)).bumpCtx c .arrayUe 1 else s
    | none => s
  | none =>
    match (s.ctx c).steps.man with
    | none => s
    | some m =>
      let seq := ((m.entries.find? (fun e => decide (e.slot ≤ slot ∧ slot < e.slot + e.tokens))).map (·.seq)).getD 0
      ((s.killStep c).raise (s.core core).phys 0x06 0 c 2 (workDetail m.epoch seq slot)).bumpCtx c .arrayUe 1

def execArrayUeEvent (c core off : Nat) (str : Option (Nat × Nat)) (slot : Nat) (s : State) :
    Host.Outcome State Fault Refusal := .next (arrayUe c core off str slot s)

/-- `CORRECTED_ERROR_EVENT` (R180, R385): of a core, it also counts in the context whose data it met. -/
def correctedEvent (source : Nat) (a c : Option Nat) (s : State) : State :=
  let t := correctedError source a s
  match c with
  | some k => if source < 520 ∧ s.powered then t.bumpCtx k .arrayCe 1 else t
  | none => t

def execCorrectedErrorEvent (source : Nat) (a c : Option Nat) (s : State) : Host.Outcome State Fault Refusal :=
  .next (correctedEvent source a c s)

/-- The next ENABLED core of a set after one, in cyclic order; the core itself where there is none (R188). -/
def State.nextCore (s : State) (set : List Nat) (n : Nat) : Nat :=
  ((cyclicFrom set (n + 1)).find? (fun k => (s.core k).st == 0 && k != n)).getD n

/-- Strings of fixed-order launches that wait for a core that leaves ENABLED pass to the next one (R188). -/
def State.passStrings (s : State) (n : Nat) : State :=
  (List.range 16).foldl (fun t c =>
    let succ := s.nextCore (s.coreSet (s.ctx c).share.partition) n
    t.onLanes c (fun y => { y with launches := y.launches.map (fun l =>
      if l.fixed then { l with strs := l.strs.map (fun (g : Str) =>
        if g.st = 0 ∧ g.core = n then { g with core := succ } else g) } else l) })) s

/-- A logical core starts to retire (R173). -/
def State.retireCore (s : State) (n : Nat) : State :=
  let s1 := s.onCore n (fun k => { k with st := 1, since := s.now })
  let e := s1.cores.enabled
  let s2 := if s.cores.enabled = 384 ∧ e < 384 then s1.raise (s.core n).phys 0x05 3 0 3 e else s1
  (s2.passStrings n).settleCores

/-- Port that a lane carries now: its own, or the one a spare stands in for (R276). -/
def State.portOfLane (s : State) (lane : Nat) : Option (Nat × Nat) :=
  if lane < 512 then some (lane / 4, lane % 4)
  else
    (firstBelow 4 (fun i => (s.port (4 * (lane - 512) + i)).spareIn)).map (fun i =>
      (4 * (lane - 512) + i, (s.port (4 * (lane - 512) + i)).spareFor))

/-- Link credits that a forwarded chunk held go back to the port it came in on, unless that port has been trained anew. -/
def State.giveBack (s : State) (b : Option (Nat × Nat × Nat × Nat)) : State :=
  match b with
  | some (p, tc, n, up) =>
    if (s.port p).up ∧ (s.port p).upFrom = up then
      s.onPort p (fun x => { x with giveBack := updAt x.giveBack tc (· + n) })
    else s
  | none => s

/-- A port goes down and trains again (R278): its link starts fresh, and the transport resends what it held. -/
def State.retrain (s : State) (p : Nat) (f : Port → Port) : State :=
  let held := (s.port p).tx.flatten
  let s1 := s.onPort p (fun x => f { Port.fresh with
    st := .training, peer := x.peer, spareIn := x.spareIn, spareFor := x.spareFor, lanesGood := x.lanesGood
    backsSpare := x.backsSpare, badLanes := x.badLanes, downAt := s.now, lastStamp := x.lastStamp
    ctr := ctrAdd x.ctr .retrains 1 })
  let s2 := held.foldl (fun t k => t.giveBack k.back) s1
  if s.tb.port = p ∧ s.tb.master ≠ s.board.pkgId ∧ s.boot.fabricDone then s2.realign else s2

/-- Repair of a lane (R278, R386): the group's spare stands in where it backs the port and is unused; else the port comes back
as UP2.  Wayfinder retrains it; a port that is training already takes the change into that training. -/
def State.repairLane (s : State) (lane : Nat) : State :=
  match s.portOfLane lane with
  | none => s
  | some (p, i) =>
    let x := s.port p
    let redo (f : Port → Port) : State := if x.up then s.retrain p f else s.onPort p f
    if !x.up ∧ x.st ≠ .training then s
    else
      let g := p / 4
      let free := !(List.range 4).any (fun k => (s.port (4 * g + k)).spareIn)
      if lane < 512 ∧ x.backsSpare ∧ free ∧ !bit x.badLanes 4 then
        let s1 := redo (fun y => { y with spareIn := true, spareFor := i, badLanes := y.badLanes ||| 2 ^ i })
        ((({ s1 with upd := { s1.upd with swapBusy := true } }).raise (0x300 + lane) 0x03 0 0 3
          (packF [(0, 10, lane), (10, 10, 512 + g), (20, 1, 1)])).bumpFlt .spareSwaps 1).noteEmergency s.emergency
      else
        let b := if lane < 512 then i else 4
        redo (fun y => { y with spareIn := false, badLanes := y.badLanes ||| 2 ^ b })

/-- Repair by source (Table 18-6). -/
def State.repair (s : State) (source : Nat) : State :=
  if source < 520 then
    match firstBelow s.cores.cores.length (fun n => (s.core n).phys == source && (s.core n).st == 0) with
    | some n => s.retireCore n
    | none => s
  else if 0x300 ≤ source ∧ source < 0x520 then s.repairLane (source - 0x300)
  else if source = 0x730 ∨ source = 0x731 then
    { s with boot := { s.boot with romPending := s.boot.romPending ++ [source - 0x730] } }
  else s

/-- `LASTING_FAULT_DECLARE` (R386): Warden, when it runs, and for a lane Wayfinder too. -/
def lastingDeclare (source : Nat) (s : State) : State :=
  let lane := decide (0x300 ≤ source ∧ source < 0x520)
  if (s.fw fwWarden).st ≠ .running ∨ (lane && (s.fw fwWayfinder).st != .running) then s
  else
    match s.flt.lasting.find? (fun e => e.1 == source) with
    | none => s
    | some e =>
      let s1 := { s with flt := { s.flt with lasting := eraseFirst (fun x => decide (x = e)) s.flt.lasting } }
      ((s1.raise source 0x02 0 0 3 (packF [(0, 16, e.2.1), (16, 32, e.2.2)])).bumpFlt .lastingFaults 1).repair source

def execLastingFaultDeclare (source : Nat) (s : State) : Host.Outcome State Fault Refusal :=
  .next (lastingDeclare source s)

/-- `CORE_RETIRE_TIMEOUT` (R173): 1 ms after RETIRING, the launches of the strings that remain are killed with cause fault. -/
def coreTimeout (phys : Nat) (s : State) : State :=
  match firstBelow s.cores.cores.length (fun n => (s.core n).phys == phys && (s.core n).st == 1) with
  | none => s
  | some n =>
    if s.now < (s.core n).since + 1000000 then s
    else
      ((List.range 16).foldl (fun t c =>
        ((t.ctx c).lanes.launches.filter (fun l => l.strs.any (fun g => g.st == 1 && g.core == n))).foldl
          (fun u l => u.killLaunch c l.id 4) t) s).settleCores

def execCoreRetireTimeout (phys : Nat) (s : State) : Host.Outcome State Fault Refusal := .next (coreTimeout phys s)

end Sys2Proof.Machine
end

