-- ==== Sys2Proof/Machine/Lanes.lean ====
section
/-! DEFINITION. String instructions on registers and predicates: integer, FP32, conversions, special functions, branches and
exchanges between lanes (08 R179, R182, R189; 09 R194, R195; 02 R28 to R38). -/

namespace Sys2Proof.Machine

/-! ### Running an instruction -/

/-- The string, and the word at its program counter, of a RESIDENT string whose next instruction has an opcode. -/
def State.atWord (s : State) (op c id i : Nat) : Option (Launch × Str × Nat) :=
  match (s.ctx c).launch id with
  | none => none
  | some l =>
    match l.strs[i]?, (s.ctx c).lanes.kernels.find l.kernel with
    | some g, some k =>
      match k.code[g.pc]? with
      | some w => if g.st = 1 ∧ iOp w = op then some (l, g, w) else none
      | none => none
    | _, _ => none

/-- Replaces a string. -/
def State.putStr (s : State) (c id i : Nat) (g : Str) : State := s.onStr c id i (fun _ => g)

/-- Runs an instruction of a string that is ready (R181): its next word has the opcode and it waits for nothing.  Which ready string
of a core issues first is timing, and the order of the commands gives it (log entry 107). -/
def runStr (op c id i : Nat) (k : Launch → Str → Nat → State) (s : State) : State :=
  match s.atWord op c id i with
  | some (l, g, w) => if g.wait = .none then k l g w else s
  | none => s

/-- An instruction that only changes the string's own registers, predicates and program counter. -/
def laneOp (op c id i : Nat) (f : Str → Nat → Str) (s : State) : State :=
  runStr op c id i (fun _ g w => s.putStr c id i (f g w)) s

/-- An instruction that writes `DST` in every guarded lane from the sources of the lane. -/
def aluOp (op c id i : Nat) (f : Nat → Nat → Nat) (s : State) : State :=
  laneOp op c id i (fun g w => (g.writeDst w (fun l => f (g.srcA w l) (g.srcB w l))).next) s

/-! ### Integer -/

/-- Two's complement of 32 bits. -/
def sint (x : Nat) : Int := (b32 x).toInt

/-- 32 bits of an integer. -/
def ofSint (x : Int) : Nat := (x % 2 ^ 32).toNat

/-- A shift: by 32 or more the result is open (log entry 62). -/
def shift (kind : Nat) (f : Nat → Nat → Nat) (a n : Nat) : Nat := if n < 32 then f a n else Config.wideShift kind a n

/-- The smaller of two, as Table 8-5 leaves it: signed or unsigned. -/
def iLess (a b : Nat) : Bool := if Config.minMaxSigned then decide (sint a < sint b) else decide (a < b)

def execIadd (c launch str : Nat) (s : State) : Host.Outcome State Fault Refusal :=
  .next (aluOp 0x00 c launch str (fun a b => a + b) s)
def execIsub (c launch str : Nat) (s : State) : Host.Outcome State Fault Refusal :=
  .next (aluOp 0x01 c launch str (fun a b => a % 2 ^ 32 + 2 ^ 32 - b % 2 ^ 32) s)
/-- Low 32 bits of the product. -/
def execImul (c launch str : Nat) (s : State) : Host.Outcome State Fault Refusal :=
  .next (aluOp 0x02 c launch str (fun a b => a * b) s)
/-- High 32 bits of the signed product. -/
def execImulh (c launch str : Nat) (s : State) : Host.Outcome State Fault Refusal :=
  .next (aluOp 0x03 c launch str (fun a b => ofSint (sint a * sint b / 2 ^ 32)) s)
def execAnd (c launch str : Nat) (s : State) : Host.Outcome State Fault Refusal :=
  .next (aluOp 0x04 c launch str (fun a b => a &&& b) s)
def execOr (c launch str : Nat) (s : State) : Host.Outcome State Fault Refusal :=
  .next (aluOp 0x05 c launch str (fun a b => a ||| b) s)
def execXor (c launch str : Nat) (s : State) : Host.Outcome State Fault Refusal :=
  .next (aluOp 0x06 c launch str (fun a b => a ^^^ b) s)
def execShl (c launch str : Nat) (s : State) : Host.Outcome State Fault Refusal :=
  .next (aluOp 0x07 c launch str (shift 0 (fun a n => a * 2 ^ n)) s)
def execShr (c launch str : Nat) (s : State) : Host.Outcome State Fault Refusal :=
  .next (aluOp 0x08 c launch str (shift 1 (fun a n => a / 2 ^ n)) s)
def execSar (c launch str : Nat) (s : State) : Host.Outcome State Fault Refusal :=
  .next (aluOp 0x09 c launch str (shift 2 (fun a n => ofSint (sint a / 2 ^ n))) s)
def execImin (c launch str : Nat) (s : State) : Host.Outcome State Fault Refusal :=
  .next (aluOp 0x0A c launch str (fun a b => if iLess a b then a else b) s)
def execImax (c launch str : Nat) (s : State) : Host.Outcome State Fault Refusal :=
  .next (aluOp 0x0B c launch str (fun a b => if iLess a b then b else a) s)

/-- The condition in `IMM` picks the relation; the result is a predicate. -/
def execIcmp (c launch str : Nat) (s : State) : Host.Outcome State Fault Refusal :=
  .next (laneOp 0x0C c launch str (fun g w => (g.writePred w (fun l =>
    let a := g.srcA w l
    let b := g.srcB w l
    Config.icmpTest (iImm w) (decide (sint a < sint b)) (decide (a < b)) (a == b))).next) s)

/-- The signed immediate. -/
def execMovi (c launch str : Nat) (s : State) : Host.Outcome State Fault Refusal :=
  .next (laneOp 0x0D c launch str (fun g w => (g.writeDst w (fun _ => ofSint (iSimm w))).next) s)

/-! ### FP32 (R28 to R30) -/

def execFadd (c launch str : Nat) (s : State) : Host.Outcome State Fault Refusal :=
  .next (aluOp 0x20 c launch str (fun a b => (Num.fadd (b32 a) (b32 b)).toNat) s)
def execFmul (c launch str : Nat) (s : State) : Host.Outcome State Fault Refusal :=
  .next (aluOp 0x21 c launch str (fun a b => (Num.fmul (b32 a) (b32 b)).toNat) s)
/-- One rounding; `SRC_C` is the addend. -/
def execFfma (c launch str : Nat) (s : State) : Host.Outcome State Fault Refusal :=
  .next (laneOp 0x22 c launch str (fun g w => (g.writeDst w (fun l =>
    (Num.ffma (b32 (g.srcA w l)) (b32 (g.srcB w l)) (b32 (g.srcC w l))).toNat)).next) s)
def execFmin (c launch str : Nat) (s : State) : Host.Outcome State Fault Refusal :=
  .next (aluOp 0x23 c launch str (fun a b => (Num.fmin Config.fminZeroNeg (b32 a) (b32 b)).toNat) s)
def execFmax (c launch str : Nat) (s : State) : Host.Outcome State Fault Refusal :=
  .next (aluOp 0x24 c launch str (fun a b => (Num.fmax (b32 a) (b32 b)).toNat) s)
def execFcmp (c launch str : Nat) (s : State) : Host.Outcome State Fault Refusal :=
  .next (laneOp 0x25 c launch str (fun g w => (g.writePred w (fun l =>
    let a := Num.v32 (b32 (g.srcA w l))
    let b := Num.v32 (b32 (g.srcB w l))
    let nan := a.isNan || b.isNan
    Config.fcmpTest (iImm w) (a.lt b) (!nan && decide (a.cmp b = 0)) nan)).next) s)
def execFneg (c launch str : Nat) (s : State) : Host.Outcome State Fault Refusal :=
  .next (aluOp 0x26 c launch str (fun a _ => (Num.fneg (b32 a)).toNat) s)

/-! ### Conversions (R32, R33, R36 to R38, R42) -/

def execCvtTo (c launch str : Nat) (s : State) : Host.Outcome State Fault Refusal :=
  .next (laneOp 0x40 c launch str (fun g w => (g.writeDst w (fun l => Num.cvtTo (iFmt w) (b32 (g.srcA w l)))).next) s)
def execCvtFrom (c launch str : Nat) (s : State) : Host.Outcome State Fault Refusal :=
  .next (laneOp 0x41 c launch str (fun g w => (g.writeDst w (fun l =>
    (Num.cvtFrom (iFmt w) (g.srcA w l % 2 ^ Num.codeBits (iFmt w))).toNat)).next) s)

/-- Lanes of a block: a half-string, or half of one for KV4S. -/
def blockLanes (fmt : Nat) : Nat := if fmt = 0x0B then 16 else 32

/-- Block b of a string converted: scale and elements.  An unguarded lane gives a free value. -/
def State.blockOf (s : State) (stoch : Bool) (g : Str) (w b : Nat) : Nat × List Nat :=
  let n := blockLanes (iFmt w)
  let vs := (List.range n).map (fun k =>
    let l := b * n + k
    Num.v32 (b32 (if g.guard w l then g.srcA w l else s.free l)))
  if iFmt w = 0x0B then
    let r := Num.kvBlock vs (if stoch then some (s.looseBits b) else none)
    (r.1.toNat, r.2)
  else Num.mxBlock (iFmt w) vs

/-- `BLOCK_TO`: elements to `DST`, each block's scale to `SRC_C` of the block's first lane. -/
def blockTo (c id i : Nat) (s : State) : State :=
  runStr 0x42 c id i (fun _ g w =>
    let n := blockLanes (iFmt w)
    let stoch := (((s.ctx c).model).map (·.stoch)).getD false
    let r (l : Nat) : Nat × List Nat := s.blockOf stoch g w (l / n)
    let g1 := g.writeDst w (fun l => (r l).2.getD (l % n) 0)
    let g2 := g1.setReg (iC w) (fun l => l % n == 0 && g.guard w l) (fun l => (r l).1)
    (s.putStr c id i g2.next).freed) s

def execBlockTo (c launch str : Nat) (s : State) : Host.Outcome State Fault Refusal := .next (blockTo c launch str s)

/-- `BLOCK_FROM`: the element in `SRC_A` under the scale in `SRC_C` of the block's first lane. -/
def execBlockFrom (c launch str : Nat) (s : State) : Host.Outcome State Fault Refusal :=
  .next (laneOp 0x43 c launch str (fun g w => (g.writeDst w (fun l =>
    let n := blockLanes (iFmt w)
    let e := g.srcA w l % 2 ^ Num.codeBits (iFmt w)
    let sc := g.srcC w (l / n * n)
    (Num.to32 (if iFmt w = 0x0B then Num.kvScaled (BitVec.ofNat 16 sc) e
      else Num.mxScaled (sc % 256) (Num.elemVal (iFmt w) e))).toNat)).next) s)

/-! ### Special functions (R190, R194, R195) -/

/-- The special-function table of a generation. -/
def Ctx.sfnAt (x : Ctx) (gen : Nat) : Tbl UserFn :=
  if x.sfn.gen = gen then x.sfn.active else match x.sfn.other with | .old t => t | _ => x.sfn.active

/-- Clamps that a kernel's own normalisation counts (R205, R210): no opcode names the clamp, so how many an RSQRT brings is open (log
entry 110). -/
def State.kernelClamps (s : State) (n : Nat) : Nat := if n = 0x05 then s.free 0 else 0

/-- `SFN`. -/
def sfnOp (c id i : Nat) (s : State) : State :=
  runStr 0xA0 c id i (fun l g w =>
    let x := s.ctx c
    let users := x.sfnAt l.sfnGen
    let n := iImm w % 256
    let empty := decide (0x20 ≤ n) && (users.find n).isNone
    let g1 := g.writeDst w (fun k => Sfn.eval x.sfnRev users n (iFmt w) (b32 (g.srcA w k)) (b32 (g.srcB w k)))
    ((((s.putStr c id i g1.next).bumpCtx c .sfnPasses (Sfn.passes n * (g.lanes w).length)).bumpCtx c .sfnEmptySlot
      (b2n empty)).bumpCtx c .normClamps (s.kernelClamps n)).freed) s

def execSfn (c launch str : Nat) (s : State) : Host.Outcome State Fault Refusal := .next (sfnOp c launch str s)

/-! ### Branches (R179, R183) -/

/-- A branch taken or not: a target outside the code faults the string. -/
def branch (op c id i : Nat) (taken : Str → Nat → Bool) (s : State) : State :=
  runStr op c id i (fun l g w =>
    if taken g w then
      let t : Int := (g.pc : Int) + (if Config.branchNext then 1 else 0) + iSimm w
      let n := (((s.ctx c).lanes.kernels.find l.kernel).map (·.code.length)).getD 0
      if 0 ≤ t ∧ t < n then s.putStr c id i { g with pc := t.toNat } else s.stringFault c id i
    else s.putStr c id i g.next) s

/-- The predicate that a branch names, in a lane. -/
def Str.branchPred (g : Str) (w l : Nat) : Bool := g.pred (iBranch w % 4) l

def execBrAny (c launch str : Nat) (s : State) : Host.Outcome State Fault Refusal :=
  .next (branch 0xC0 c launch str (fun g w => (g.lanes w).any (g.branchPred w)) s)
def execBrAll (c launch str : Nat) (s : State) : Host.Outcome State Fault Refusal :=
  .next (branch 0xC1 c launch str (fun g w => (g.lanes w).all (g.branchPred w)) s)

/-! ### Predicates and exchanges between lanes -/

/-- P0 to P3 of a lane as a word. -/
def Str.predWord (g : Str) (l : Nat) : Nat := maskOf ((List.range 4).filter (fun p => g.pred p l))

def execPset (c launch str : Nat) (s : State) : Host.Outcome State Fault Refusal :=
  .next (laneOp 0xC2 c launch str (fun g w => (g.writePred w (fun l => Config.psetTest w (g.predWord l))).next) s)

/-- `LSHUF`: a lane number above 63 names no lane, and its value is free. -/
def lshuf (c id i : Nat) (s : State) : State :=
  runStr 0xC3 c id i (fun _ g w =>
    (s.putStr c id i (g.writeDst w (fun l =>
      if g.srcB w l < 64 then g.srcA w (g.srcB w l) else s.free l)).next).freed) s

def execLshuf (c launch str : Nat) (s : State) : Host.Outcome State Fault Refusal := .next (lshuf c launch str s)

/-- A reduction over the guarded lanes in increasing order, rounded after each step. -/
def Str.reduce (g : Str) (f : BitVec 32 → BitVec 32 → BitVec 32) (w : Nat) : Nat :=
  match (g.lanes w).map (fun l => b32 (g.srcA w l)) with
  | [] => 0
  | v :: r => (r.foldl f (Num.to32 (Num.v32 v))).toNat

def execLsum (c launch str : Nat) (s : State) : Host.Outcome State Fault Refusal :=
  .next (laneOp 0xC4 c launch str (fun g w => (g.writeDst w (fun _ => g.reduce Num.fadd w)).next) s)
def execLmax (c launch str : Nat) (s : State) : Host.Outcome State Fault Refusal :=
  .next (laneOp 0xC5 c launch str (fun g w => (g.writeDst w (fun _ => g.reduce Num.fmax w)).next) s)

/-! ### Work items (R189) -/

/-- `CLAIM`: once per string, the same value to every guarded lane; without one nothing is taken. -/
def claimItem (c id i : Nat) (s : State) : State :=
  runStr 0x66 c id i (fun l g w =>
    if (g.lanes w).isEmpty then s.putStr c id i g.next
    else
      let v := if l.fixed then i + g.claims * l.strings else l.nextItem
      let got := decide (v < l.items)
      let g1 := { (g.writeDst w (fun _ => if got then v else 0xFFFFFFFF)).next with claims := g.claims + 1 }
      (s.putStr c id i g1).onLanes c (fun y => { y with launches := y.launches.map (fun x =>
        if x.id = id ∧ !l.fixed ∧ got then { x with nextItem := v + 1 } else x) })) s

def execClaim (c launch str : Nat) (s : State) : Host.Outcome State Fault Refusal := .next (claimItem c launch str s)

end Sys2Proof.Machine
end

