-- ==== Sys2Proof/Machine/LaneMem.lean ====
section
/-! DEFINITION. String instructions on memory: loads, stores, atomics, FENCE, table lookups, and the data that other packages
return (08 R180, R183, R184, R190; 11 R230 to R234, R243, R244). -/

namespace Sys2Proof.Machine

/-! ### Accesses of lanes (R183, R230 to R232) -/

/-- Bytes of an access: 4 bits lie in one byte. -/
def accessBytes (z : Nat) : Nat := if z ≤ 1 then 1 else if z = 2 then 2 else 4

/-- n bytes lie in the scratch of a resident string of a context. -/
def State.inScratch (s : State) (c o n : Nat) : Bool :=
  (s.ctx c).lanes.launches.any (fun l => l.strs.any (fun g => g.st == 1 &&
    decide (scratchBase g.core + g.scratch ≤ o ∧ o + n ≤ scratchBase g.core + g.scratch + 4096 * l.scratch4k)))

/-- Region of a kind-0 offset (Table 11-2): 1 core scratch, 2 token staging, 3 Caravanserai, 0 not for lanes. -/
def region (off : Nat) : Nat :=
  if 0x10000000 ≤ off ∧ off < 0x30000000 then 1
  else if 0x30000000 ≤ off ∧ off < 0x48000000 then 2
  else if 0x48000000 ≤ off ∧ off < 0x60000000 then 3
  else 0

/-- A lane may make an access of n bytes: aligned, a kind of R183, in the context's shares; the Caravanserai takes no
store. -/
def State.laneMay (s : State) (c a n : Nat) (store : Bool) : Bool :=
  let k := aKind a
  let r := region (aOff a)
  let o := a % 2 ^ 57
  a % n == 0
  && (k == 1 || k == 2 || k == 4 || (k == 0 && decide (r ≠ 0) && !(store && r == 3)))
  && (if aPkg a = s.board.pkgId then
        if k = 0 ∧ r = 1 then s.inScratch c o n else if k = 0 ∧ r = 3 then s.exists_ o n else s.inShare c a n
      else (s.ctx c).resid.resident.contains (aPkg a) && s.farShare c a n)

/-- A lane may make an atomic: kinds 0 and 1 of its own package (R183). -/
def State.laneAtomic (s : State) (c a : Nat) : Bool :=
  aPkg a == s.board.pkgId && decide (aKind a ≤ 1) && s.laneMay c a 4 true

/-- Own lanes and the lanes that reach another package. -/
def State.local_ (s : State) (a : Nat) : Bool := aPkg a == s.board.pkgId

/-- What a load of a size puts into a register from the bytes of its access. -/
def loadValue (z a raw : Nat) : Nat :=
  if z = 0 then Config.loadFill 0 (bits raw (if Config.upperNibble a then 4 else 0) 4)
  else if z = 3 then raw % 2 ^ 32
  else Config.loadFill z raw

/-- The bytes that a store of a size leaves where a byte was before. -/
def storeBytes (z a old v : Nat) : List Byte :=
  if z = 0 then toLE 1 (setBits old (if Config.upperNibble a then 4 else 0) 4 v) else toLE (accessBytes z) v

/-- The lanes of an instruction whose accesses a Toll Gate holds back (R326). -/
def State.heldLane (s : State) (c : Nat) (as : List Nat) : Option Nat :=
  as.find? (fun a => s.local_ a && s.heldAt c (a % 2 ^ 57))

/-- Charges the accesses made on this package. -/
def State.chargeAll (s : State) (c n : Nat) (as : List Nat) : State :=
  (as.filter s.local_).foldl (fun t a => t.charge c (a % 2 ^ 57) n) s

/-- Raw bytes of a local load: a bay's place is not the spec's to say, so the Caravanserai reads as a free value. -/
def State.rawLoad (s : State) (l a n : Nat) : Nat :=
  if aKind a = 0 ∧ region (aOff a) = 3 then s.free l % 2 ^ (8 * n) else s.numAt (a % 2 ^ 57) n

/-- A lane read poisoned data (R234): `MEM_UE`, and the launch is killed as for an uncorrectable error. -/
def State.loadUe (s : State) (c id i a : Nat) : State := (s.memUe c a).launchUe c id i a

/-- The first poisoned access of a load: by the read itself, by a line known to be poisoned, or on a departed package. -/
def State.poisoned (s : State) (ue : Option Nat) (n : Nat) (as : List Nat) : Option Nat :=
  as.find? (fun a => ue == some a || (if s.local_ a then (s.takePoison (a % 2 ^ 57) n).1 else s.fab.departed.contains (aPkg a)))

/-- `LD`: `ue` names an address whose read meets an uncorrectable error. -/
def load (c id i : Nat) (ue : Option Nat) (s : State) : State :=
  runStr 0x60 c id i (fun _ g w =>
    let z := iImm w % 4
    let n := accessBytes z
    let ls := g.lanes w
    let as := ls.map (g.address w)
    if as.any (fun a => !s.laneMay c a n false) then s.stringFault c id i
    else
      match s.heldLane c as, s.poisoned ue n as with
      | some a, _ => s.heldWait c (a % 2 ^ 57)
      | none, some a => ((s.takePoison (a % 2 ^ 57) n).2.chargeAll c n as).loadUe c id i a
      | none, none =>
        let far := (ls.filter (fun l => !s.local_ (g.address w l))).map (fun l => (l, aPkg (g.address w l)))
        let g1 := g.setReg (iDst w) (fun l => g.guard w l && s.local_ (g.address w l))
          (fun l => loadValue z (g.address w l) (s.rawLoad l (g.address w l) n))
        let g2 := { g1.next with wait := if far.isEmpty then .none else .mem (iDst w) far }
        let s1 := (s.putStr c id i g2).chargeAll c n as
        (far.foldl (fun t f => t.sendMsg f.2 0x20 c [g.address w f.1, n] (toLE 8 (g.address w f.1) ++ toLE 8 n)) s1).freed) s

def execLd (c launch str : Nat) (ue : Option Nat) (s : State) : Host.Outcome State Fault Refusal :=
  .next (load c launch str ue s)

/-- Lanes in the order in which their accesses take effect: no order holds between lanes (R183). -/
def State.laneOrder (s : State) (ls : List Nat) : List Nat := sortBy (fun a b => decide (s.free a ≤ s.free b)) ls

/-- One lane's store: here at once, to another package by message. -/
def State.storeLane (s : State) (c z a v l : Nat) : State :=
  if s.local_ a then s.writeAt (a % 2 ^ 57) (storeBytes z a (s.numAt (a % 2 ^ 57) 1) v)
  else s.sendMsg (aPkg a) 0x22 c [a] (toLE 8 a ++ storeBytes z a (s.free (64 + l)) v)

/-- Marks up to which a string's stores to other packages have been sent. -/
def State.sentMarks (s : State) (old : List (Nat × Nat)) (pkgs : List Nat) : List (Nat × Nat) :=
  old ++ pkgs.map (fun p => s.sentMark p tcMemory)

/-- `ST`: the data is in `SRC_C`. -/
def store (c id i : Nat) (s : State) : State :=
  runStr 0x61 c id i (fun _ g w =>
    let z := iImm w % 4
    let n := accessBytes z
    let ls := g.lanes w
    let as := ls.map (g.address w)
    if as.any (fun a => !s.laneMay c a n true) then s.stringFault c id i
    else
      match s.heldLane c as with
      | some a => s.heldWait c (a % 2 ^ 57)
      | none =>
        let s1 := (s.laneOrder ls).foldl (fun t l => t.storeLane c z (g.address w l) (g.srcC w l) l) s
        let far := (as.filter (fun a => !s.local_ a)).map aPkg
        ((s1.chargeAll c n as).putStr c id i { g.next with sent := s1.sentMarks g.sent far }).freed) s

def execSt (c launch str : Nat) (s : State) : Host.Outcome State Fault Refusal := .next (store c launch str s)

/-- One lane's atomic addition: the memory after, and the old value. -/
def atomicLane (float : Bool) (a v : Nat) (s : State) : State × Nat :=
  let old := s.numAt (a % 2 ^ 57) 4
  (s.writeAt (a % 2 ^ 57) (toLE 4 (atomicSum float old v)), old)

/-- The lanes' atomics one after the other: the memory after, and each lane's old value. -/
def atomicLanes (float : Bool) (g : Str) (w : Nat) : List Nat → State → State × List (Nat × Nat)
  | [], s => (s, [])
  | l :: r, s =>
    let x := atomicLane float (g.address w l) (g.srcC w l) s
    let y := atomicLanes float g w r x.1
    (y.1, (l, x.2) :: y.2)

/-- `AADD_I` and `AADD_F`: the addend is in `SRC_C`; the order between lanes is a free value (R184).  An old value read poisoned is
handled as a load's (R234). -/
def atomicOp (op : Nat) (float : Bool) (c id i : Nat) (s : State) : State :=
  runStr op c id i (fun _ g w =>
    let ls := g.lanes w
    let as := ls.map (g.address w)
    if as.any (fun a => !s.laneAtomic c a) then s.stringFault c id i
    else
      match s.heldLane c as with
      | some a => s.heldWait c (a % 2 ^ 57)
      | none =>
        match s.poisoned none 4 as with
        | some a => ((s.takePoison (a % 2 ^ 57) 4).2.chargeAll c 4 as).loadUe c id i a
        | none =>
        let r := atomicLanes float g w (s.laneOrder ls) s
        let g1 := (g.writeDst w (fun l => ((r.2.find? (fun e => e.1 == l)).map (·.2)).getD 0)).next
        ((r.1.chargeAll c 4 as).putStr c id i g1).freed) s

def execAaddI (c launch str : Nat) (s : State) : Host.Outcome State Fault Refusal :=
  .next (atomicOp 0x62 false c launch str s)
def execAaddF (c launch str : Nat) (s : State) : Host.Outcome State Fault Refusal :=
  .next (atomicOp 0x63 true c launch str s)

/-! ### Data from other packages -/

/-- The load that a string waits on: the word before its program counter. -/
def State.loadWord (s : State) (c id i : Nat) : Option Nat :=
  match (s.ctx c).launch id with
  | none => none
  | some l =>
    match l.strs[i]?, (s.ctx c).lanes.kernels.find l.kernel with
    | some g, some k => k.code[g.pc - 1]?
    | _, _ => none

/-- Data of a lane that waits for it; the last one makes the string ready. -/
def State.laneData (s : State) (c id i lane v : Nat) (poison : Bool) : State :=
  match ((s.ctx c).launch id).bind (fun l => l.strs[i]?) with
  | none => s
  | some g =>
    match g.wait with
    | .mem dst lanes =>
      match lanes.find? (fun e => e.1 == lane), s.loadWord c id i with
      | some _, some w =>
        let a := g.address w lane
        if poison then s.loadUe c id i a
        else
          let rest := lanes.filter (fun e => e.1 != lane)
          s.putStr c id i { g.setReg dst (fun l => l == lane) (fun _ => loadValue (iImm w % 4) a v) with
            wait := if rest.isEmpty then .none else .mem dst rest }
      | _, _ => s
    | _ => s

/-- `MEM_READ_DATA_RECEIVE` (R180, R234, R243): to the lane that waits, or to the compute die that asked. -/
def memReadData (to_ : Reader) (data : List Byte) (poison : Bool) (s : State) : State :=
  match to_ with
  | .lane c id i lane => s.laneData c id i lane (ofLE data) poison
  | .die port c =>
    if !s.boot.diesUp.getD port false then s
    else s.emit (if poison then .uciePoison port c data else .ucie port 0x9 c 0 0 false 0 false data)

def execMemReadDataReceive (to_ : Reader) (data : List Byte) (poison : Bool) (s : State) :
    Host.Outcome State Fault Refusal := .next (memReadData to_ data poison s)

/-- `MEM_ATOMIC_DATA_RECEIVE` (R184): the old value returns to the lane that waits; R183 lets no lane wait for one. -/
def execMemAtomicDataReceive (c launch str lane old : Nat) (s : State) : Host.Outcome State Fault Refusal :=
  .next (s.laneData c launch str lane old false)

/-! ### FENCE and TLOOK -/

/-- `FENCE`: completes once the string's earlier stores are visible. -/
def fence (c id i : Nat) (s : State) : State :=
  runStr 0x64 c id i (fun _ g w =>
    if (g.lanes w).isEmpty then s.putStr c id i g.next
    else if s.storesDone g then s.putStr c id i { g.next with sent := [] } else s) s

def execFence (c launch str : Nat) (s : State) : Host.Outcome State Fault Refusal := .next (fence c launch str s)

/-- The route table of a generation. -/
def Ctx.routeAt (x : Ctx) (gen : Nat) : Route :=
  if x.route.gen = gen then x.route.active else match x.route.other with | .old t => t | _ => x.route.active

/-- Records of a route copy. -/
def Route.records (r : Route) : List Nat :=
  r.layers.flatMap (fun e => [e.1, e.2.cfg, e.2.disp, e.2.planWs, e.2.comb] ++ e.2.bias)
  ++ r.experts.flatMap (fun e => [e.1, b2n e.2.avail, b2n e.2.mirrored, b2n e.2.hintHeld, e.2.cause]
    ++ e.2.replicas.flatMap (fun x => [x.pkg, x.die, b2n x.active, x.share]))

/-- Records of a table of the generation that a launch is bound to: 0 route, 1 special function, 2 layout. -/
def Ctx.records (x : Ctx) (l : Launch) (t : Nat) : List Nat :=
  if t = 0 then (x.routeAt l.routeGen).records
  else if t = 1 then (x.sfnAt l.sfnGen).flatMap (fun e => e.1 :: e.2.header :: e.2.segments)
  else if t = 2 then (x.layAt l.layGen).flatMap (fun e => [e.1, e.2])
  else []

/-- `TLOOK` (R190). -/
def tableLook (c id i : Nat) (s : State) : State :=
  runStr 0x65 c id i (fun l g w =>
    let t := iImm w % 4
    let r := (s.ctx c).records l t
    s.putStr c id i (g.writeDst w (fun k => Config.tlookWord t (g.srcA w k) (g.srcB w k) r)).next) s

def execTlook (c launch str : Nat) (s : State) : Host.Outcome State Fault Refusal := .next (tableLook c launch str s)

end Sys2Proof.Machine
end

