-- ==== Sys2Proof/Machine/Matrix.lean ====
section
/-! DEFINITION. The matrix unit: MMA, ACC_ZERO and ACC_STORE (08 R175 to R177; 02 R34, R35, R40, R42). -/

namespace Sys2Proof.Machine

/-- Operands of a matrix instruction: tile, runs and activation format from `IMM`, m and n from lane 0's `SRC_C`. -/
structure MatOps where
  tile : Nat
  runs : Nat
  act  : Nat
  wgt  : Nat
  m    : Nat
  n    : Nat
deriving DecidableEq, Repr

/-- The operands that a word of a string names. -/
def Str.matOps (g : Str) (w : Nat) : MatOps :=
  ⟨Config.mmaTile (iImm w), Config.mmaRuns (iImm w), Config.mmaAct (iImm w), iFmt w, Config.mmaRows (g.srcC w 0),
   Config.mmaCols (g.srcC w 0)⟩

/-- Bytes of an element plane of rows of runs (R176). -/
def planeBytes (fmt rows runs : Nat) : Nat := if fmt = 0x09 then rows * runs * 8 else rows * runs * 4 * Num.codeBits fmt

/-- Offset of the scale plane and of the metadata plane of a tile. -/
def scaleOff (fmt rows runs : Nat) : Nat := roundUp (planeBytes fmt rows runs) 64
def metaOff (fmt rows runs : Nat) : Nat := roundUp (scaleOff fmt rows runs + rows * runs) 64

/-- Bytes of a whole tile. -/
def tileBytes (fmt rows runs : Nat) : Nat :=
  if fmt = 0x09 then metaOff fmt rows runs + 4 * (rows * runs)
  else if Num.codeMx fmt then scaleOff fmt rows runs + rows * runs
  else planeBytes fmt rows runs

/-- Address of a byte offset of a string's own scratch. -/
def Str.scratchAddr (g : Str) (o : Nat) : Nat := scratchBase g.core + g.scratch + o

/-- n bytes at an offset lie in the string's own scratch. -/
def Launch.inOwn (l : Launch) (o n : Nat) : Bool := decide (o + n ≤ 4096 * l.scratch4k)

/-- Element i of width w of a plane. -/
def State.elemOf (s : State) (a w i : Nat) : Nat := bits (s.numAt (a + i * w / 8) 2) (i * w % 8) w

/-- Run b of row r of an operand tile: values by reduction index, and the block scale (R176). -/
def State.tileRun (s : State) (a fmt rows runs r b : Nat) : List Num.Val × Option Nat :=
  ((List.range 32).map (fun k => Num.elemVal fmt (s.elemOf a (Num.codeBits fmt) ((r * runs + b) * 32 + k))),
   if Num.codeMx fmt then some (s.numAt (a + scaleOff fmt rows runs + r * runs + b) 1) else none)

/-- Products of one run: a sparse weight takes the activations that its metadata names (R35). -/
def State.runPairs (s : State) (wa fmt n runs e b : Nat) (act : List Num.Val) : List (Num.Val × Num.Val) × Option Nat :=
  if fmt = 0x09 then
    let k := e * runs + b
    let meta_ := s.numAt (wa + metaOff fmt n runs + 4 * k) 4
    ((List.range 16).map (fun i =>
      (Num.elemVal 0x08 (s.elemOf wa 4 (16 * k + i)),
        act.getD (4 * (i / 2) + bits meta_ (4 * (i / 2) + 2 * (i % 2)) 2) (.fin false 0 0))),
     some (s.numAt (wa + scaleOff fmt n runs + k) 1))
  else
    let w := s.tileRun wa fmt n runs e b
    (w.1.zip act, w.2)

/-- One accumulator element after every run, in increasing order (R40). -/
def State.accumulate (s : State) (o : MatOps) (aa wa r e : Nat) (acc : BitVec 32) : BitVec 32 :=
  (List.range o.runs).foldl (fun v b =>
    let x := s.tileRun aa o.act o.m o.runs r b
    let p := s.runPairs wa o.wgt o.n o.runs e b x.1
    Num.mmaRun v p.1 p.2 x.2) acc

/-- The tile of a string. -/
def Str.tile (g : Str) (t : Nat) : List Nat := g.tiles.getD t []

/-- Replaces a tile's elements by row and column. -/
def Str.onTile (g : Str) (t : Nat) (f : Nat → Nat → Nat → Nat) : Str :=
  { g with tiles := updAt g.tiles t (fun l => (List.range 6144).map (fun k => f (k / 96) (k % 96) (l.getD k 0))) }

/-- Operands that no matrix instruction has, or a tile that the string does not own (log entry 63). -/
def MatOps.bad (o : MatOps) (l : Launch) : Bool :=
  decide (l.tilesN ≤ o.tile ∨ o.m = 0 ∨ 64 < o.m ∨ o.n = 0 ∨ 96 < o.n)

/-- `MMA` (R175, R176): both tiles must begin at multiples of 64 within the string's own scratch. -/
def mmaOp (c id i : Nat) (s : State) : State :=
  runStr 0x80 c id i (fun l g w =>
    if !g.guard w 0 then s.putStr c id i g.next
    else
      let o := g.matOps w
      let a := g.srcA w 0
      let b := g.srcB w 0
      if o.bad l || decide (o.runs = 0 ∨ 65535 < o.runs ∨ a % 64 ≠ 0 ∨ b % 64 ≠ 0)
          || !l.inOwn a (tileBytes o.act o.m o.runs) || !l.inOwn b (tileBytes o.wgt o.n o.runs) then s.stringFault c id i
      else
        let g1 := g.onTile o.tile (fun r e v =>
          if r < o.m ∧ e < o.n then (s.accumulate o (g.scratchAddr a) (g.scratchAddr b) r e (b32 v)).toNat else v)
        (s.putStr c id i g1.next).bumpCtx c .mmaSteps (o.runs * Num.runSteps o.wgt o.act)) s

def execMma (c launch str : Nat) (s : State) : Host.Outcome State Fault Refusal := .next (mmaOp c launch str s)

/-- `ACC_ZERO` (R177). -/
def accZero (c id i : Nat) (s : State) : State :=
  runStr 0x81 c id i (fun l g w =>
    let t := Config.mmaTile (iImm w)
    if !g.guard w 0 then s.putStr c id i g.next
    else if l.tilesN ≤ t then s.stringFault c id i
    else s.putStr c id i (g.onTile t (fun _ _ _ => 0)).next) s

def execAccZero (c launch str : Nat) (s : State) : Host.Outcome State Fault Refusal := .next (accZero c launch str s)

/-- m × n elements of a tile, converted to FP32 or BF16, row by row (R42). -/
def Str.tileOut (g : Str) (o : MatOps) : List Byte :=
  (List.range (o.m * o.n)).flatMap (fun k =>
    let v := b32 ((g.tile o.tile).getD (k / o.n * 96 + k % o.n) 0)
    toLE (Num.codeBits o.wgt / 8) (Num.cvtTo o.wgt v))

/-- `ACC_STORE` (R177): to the offset in lane 0's `SRC_A`, within the string's own scratch. -/
def accStore (c id i : Nat) (s : State) : State :=
  runStr 0x82 c id i (fun l g w =>
    let o := g.matOps w
    let a := g.srcA w 0
    let n := Num.codeBits o.wgt / 8
    if !g.guard w 0 then s.putStr c id i g.next
    else if o.bad l || decide (a % n ≠ 0) || !l.inOwn a (o.m * o.n * n) then s.stringFault c id i
    else (s.writeAt (g.scratchAddr a) (g.tileOut o)).putStr c id i g.next) s

def execAccStore (c launch str : Nat) (s : State) : Host.Outcome State Fault Refusal := .next (accStore c launch str s)

end Sys2Proof.Machine
end

