-- ==== Sys2Proof/Machine/LaneSync.lean ====
section
/-! DEFINITION. String instructions on Tally Posts and Waystations, and END (08 R173, R187; 11 R244, R247, R250; 12 R266 to
R273). -/

namespace Sys2Proof.Machine

/-! ### Tally Posts (R250) -/

/-- The lowest-numbered guarded lane, whose operands an instruction of the string as a whole takes. -/
def Str.lead (g : Str) (w : Nat) : Option Nat := (g.lanes w).head?

/-- `TP_ARRIVE`: a release, so it waits until the string's stores to other packages are acknowledged (R244). -/
def tpArrive (c id i : Nat) (s : State) : State :=
  runStr 0xC6 c id i (fun _ g w =>
    match g.lead w with
    | none => s.putStr c id i g.next
    | some l =>
      if !s.storesDone g then s
      else
        let a := g.srcA w l
        let post := bits a 0 16
        let phase := g.srcC w l % 2 ^ 15
        let v := g.srcB w l
        let s1 := s.putStr c id i { g.next with sent := [] }
        if bits a 16 7 = s.board.pkgId then (s1.arrive post s.board.pkgId v (if bit a 23 then some phase else none)).1
        else s1.sendOpen (bits a 16 7) 0x30 c [post, v, b2n (bit a 23), phase] []) s

def execTpArrive (c launch str : Nat) (s : State) : Host.Outcome State Fault Refusal := .next (tpArrive c launch str s)

/-- `TP_WAIT`: another package, or a post outside the context's share, faults the string; an ARMED post makes it wait. -/
def tpWait (c id i : Nat) (s : State) : State :=
  match s.atWord 0xC7 c id i with
  | none => s
  | some (_, g, w) =>
    let done (v : Nat) : State := s.putStr c id i { (g.writeDst w (fun _ => v)).next with wait := .none }
    match g.wait, g.lead w with
    | .woken v, _ => done v
    | .none, none => s.putStr c id i g.next
    | .none, some l =>
      let a := g.srcA w l
      let t := bits a 0 16
      let p := s.post t
      if bits a 16 7 ≠ s.board.pkgId ∨ !(s.ctx c).hasPost t then s.stringFault c id i
      else if p.st = 0 then done 0
      else if p.st = 1 then
        (s.onPost t (fun q => { q with waiters := q.waiters ++ [(c, id, i)] })).putStr c id i { g with wait := .tally t }
      else done p.waitValue
    | _, _ => s

def execTpWait (c launch str : Nat) (s : State) : Host.Outcome State Fault Refusal := .next (tpWait c launch str s)

/-! ### Waystations (R268, R270 to R273) -/

/-- The word that a string pushes: guarded lanes carry 32 bits each, the others zero. -/
def Str.wsWord (g : Str) (w words : Nat) : Nat :=
  packF ((List.range words).map (fun l => (32 * l, 32, if g.guard w l then g.srcB w l else 0)))

/-- `WS_PUSH`: a full queue makes the string wait in order of arrival; a word of the layout queue is a command. -/
def wsPushStr (c id i : Nat) (s : State) : State :=
  match s.atWord 0xC8 c id i with
  | none => s
  | some (l, g, w) =>
    match g.lead w with
    | none => if g.wait = .none then s.putStr c id i g.next else s
    | some k =>
      let q := bits (g.srcA w k) 0 12
      let x := s.wst q
      let me := (c, id, i)
      let turn := if g.wait = .none then x.pushers.isEmpty else g.wait == .ws q && x.pushers.head? == some me
      if g.wait = .none ∧ (!(s.ctx c).hasWs q ∨ !x.lanePush) then s.stringFault c id i
      else if turn && decide (0 < x.room) then
        let v := g.wsWord w (x.wordBytes / 4)
        let s1 := (s.onWs q (fun y => { y with pushers := y.pushers.filter (fun e => e != me) })).wsPush q [v]
        let s2 := s1.putStr c id i { g.next with wait := .none }
        if q = (s.ctx c).lanes.layoutWs then
          s2.onLanes c (fun y => { y with cmds := y.cmds ++ [⟨v, l.layGen, some id, false, 0, false, none, false, none⟩] })
        else s2
      else if g.wait = .none then
        ((s.onWs q (fun y => { y with pushers := y.pushers ++ [me] })).putStr c id i { g with wait := .ws q }).bumpCtx c
          .wsFullWaits 1
      else s

def execWsPush (c launch str : Nat) (s : State) : Host.Outcome State Fault Refusal := .next (wsPushStr c launch str s)

/-- Runs an operation of WS_POP, numbered in `IMM` [5:4], on the Waystation that the lead lane names. -/
def wsPopOp (kind c id i : Nat) (k : Nat → Str → Nat → State) (s : State) : State :=
  runStr 0xC9 c id i (fun _ g w =>
    if bits (iImm w) 4 2 ≠ kind then s
    else
      match g.lead w with
      | none => s.putStr c id i g.next
      | some l =>
        let q := bits (g.srcA w l) 0 12
        if !(s.ctx c).hasWs q ∨ (s.wst q).consumer ≠ 1 then s.stringFault c id i else k q g w) s

/-- A word delivered to the lanes, with the underrun indication and the poison tag. -/
def Str.takeWord (g : Str) (w words : Nat) (v : Nat × Bool) (under : Bool) : Str :=
  ((g.setReg (iDst w) (fun l => decide (l < words) && g.guard w l) (fun l => bits v.1 (32 * l) 32)).setPred
    (bits (iImm w) 0 2) (g.guard w) (fun _ => under)).setPred (bits (iImm w) 2 2) (g.guard w) (fun _ => v.2)

/-- A read of an empty queue delivers the last word again, and counts (R270). -/
def State.underrun (s : State) (q : Nat) : State :=
  (s.onWs q (fun y => { y with underrun := true })).bumpCtx (s.wst q).ctx .wsUnderruns 1

def execWsPop (c launch str : Nat) (s : State) : Host.Outcome State Fault Refusal :=
  .next (wsPopOp 0 c launch str (fun q g w =>
    let n := (s.wst q).wordBytes / 4
    match s.wsPop q with
    | (t, some v) => t.putStr c launch str (g.takeWord w n v false).next
    | (t, none) => (t.underrun q).putStr c launch str (g.takeWord w n (s.wst q).last true).next) s)

def execWsPopMark (c launch str : Nat) (s : State) : Host.Outcome State Fault Refusal :=
  .next (wsPopOp 1 c launch str (fun q g _ => (s.onWs q Ws.mark).putStr c launch str g.next) s)
def execWsPopRewind (c launch str : Nat) (s : State) : Host.Outcome State Fault Refusal :=
  .next (wsPopOp 2 c launch str (fun q g _ => (s.wsRewind q).putStr c launch str g.next) s)
def execWsPopRelease (c launch str : Nat) (s : State) : Host.Outcome State Fault Refusal :=
  .next (wsPopOp 3 c launch str (fun q g _ => (s.onWs q Ws.release).putStr c launch str g.next) s)

/-! ### END (R173, R187) -/

/-- `END`: the string is gone; the last one of its launch, whose stores have all taken effect (R244), makes it DONE. -/
def endStr (c id i : Nat) (s : State) : State :=
  runStr 0xCA c id i (fun l g w =>
    let last := decide (countP (fun (x : Str) => x.st != 2) l.strs = 1)
    if (g.lanes w).isEmpty then s.putStr c id i g.next
    else if last && !l.strs.all s.storesDone then s
    else
      let s1 := s.putStr c id i { g with st := 2, regs := [], preds := [], tiles := [] }
      (if last then s1.retireLaunch c l 2 else s1).settleCores) s

def execEndString (c launch str : Nat) (s : State) : Host.Outcome State Fault Refusal := .next (endStr c launch str s)

end Sys2Proof.Machine
end

