-- ==== Sys2Proof/Machine/Link.lean ====
section
/-! DEFINITION. Fabric ports and Wabor Link: training, flits, acknowledgement and replay, link credits and flit slots
(01 R15, R16; 13 R276 to R281, R287; 19 R408). -/

namespace Sys2Proof.Machine

/-! ### Training (R16, R276, R278, R408) -/

/-- `PORT_SIGNAL_DETECT`: an OFF port that sees a peer's signal trains, unless a peer presented this package's own ID. -/
def portSignal (p : Nat) (s : State) : State :=
  if s.booted ∧ !s.fab.twin ∧ p < 128 ∧ (s.port p).st = .off then s.onPort p (fun x => { x with st := .training }) else s

def execPortSignalDetect (port : Nat) (s : State) : Host.Outcome State Fault Refusal := .next (portSignal port s)

/-- Link credits granted at initialisation, by class (R281). -/
def linkCredits : List Nat := [64, 96, 48, 32, 16]

/-- The spare of a port's group stands in for another port. -/
def State.spareTaken (s : State) (p : Nat) : Bool :=
  (List.range 4).any (fun k => 4 * (p / 4) + k != p && (s.port (4 * (p / 4) + k)).spareIn)

/-- What training makes of a port (R276, R278): the lanes that trained and bear no lasting fault, and whether the group's
spare trained to the same peer and may stand in.  Of three lanes without a spare, the lowest two carry the port. -/
def Port.trained (x : Port) (lanes : Nat) (spare : Bool) (peer now : Nat) : Port :=
  let good := (List.range 4).filter (fun i => bit lanes i && !bit x.badLanes i)
  let miss := (firstBelow 4 (fun i => !good.contains i)).getD 0
  let sub := spare && !bit x.badLanes 4
  let y := { x with peer := peer, backsSpare := spare, upFrom := now, credits := linkCredits, spareIn := false, spareFor := 0 }
  if good.length = 4 then { y with st := .up4, lanesGood := 15 }
  else if good.length = 3 ∧ sub then { y with st := .up4, lanesGood := 15, spareIn := true, spareFor := miss }
  else if 2 ≤ good.length then { y with st := .up2, lanesGood := maskOf (good.take 2) }
  else { y with st := .failed, lanesGood := maskOf good, upFrom := x.upFrom }

/-- Every port that sees a signal is UP4, UP2 or FAILED (R408). -/
def State.portsDone (s : State) : Bool := s.fab.ports.all (fun x => x.st != .training)

/-- A package is present once a port to it is up; a new one changes the appliance's shape, and a frozen layout is computed
again by the leader (R161, R288, R304).  A departed package joins only after its own reset, which this one sees at training:
`Config.peerReset`. -/
def State.joinPackage (s : State) (pkg : Nat) : State :=
  let me := s.board.pkgId
  if s.fab.present.contains pkg ∨ (s.fab.departed.contains pkg ∧ !Config.peerReset pkg s.now) then s
  else
    let add (l : List Nat) (p : Nat) : List Nat := if l.contains p then l else l ++ [p]
    let s1 := { s with fab := { s.fab with
      present := add (add s.fab.present me) pkg, departed := s.fab.departed.filter (fun p => p != pkg) } }
    (List.range 16).foldl (fun t c =>
      if (t.ctx c).st ≠ .active then t else (if t.frozen c then t.planReplicas c true else t).retryHints c) s1

/-- `PORT_TRAIN_COMPLETE`: training of a port ends, and the peer's ID is known.  A peer with this package's own ID keeps
every port down and raises C3 (R16).  Training waits until Wayfinder runs (Table 16-9). -/
def portTrained (p lanes : Nat) (spare : Bool) (peer : Nat) (s : State) : State :=
  if !s.booted ∨ s.fab.twin ∨ 128 ≤ p ∨ (s.port p).st ≠ .training ∨ (s.fw fwWayfinder).st ≠ .running then s
  else if peer = s.board.pkgId then
    ({ s with fab := { s.fab with twin := true, ports := s.fab.ports.map (fun (x : Port) => { Port.fresh with ctr := x.ctr }) } }).raise
      (0x600 + p) 0x36 3 0 3 peer
  else
    let x := (s.port p).trained lanes (spare && !s.spareTaken p) (peer % 128) s.now
    let s1 := s.onPort p (fun _ => { x with backsSpare := spare })
    let s2 := if x.up then s1.joinPackage (peer % 128) else s1.raise (0x600 + p) 0x30 0 0 3 p
    let s3 := if s.upd.swapBusy ∧ x.spareIn then
        ({ s2 with upd := { s2.upd with swapBusy := false } }).noteEmergency s2.emergency else s2
    let s4 := if s3.portsDone then s3.fabricComplete else s3
    if s4.boot.fabricDone ∧ s4.tb.master ≠ s4.board.pkgId ∧ !(s4.port s4.tb.port).up then s4.realign else s4

def execPortTrainComplete (port lanes : Nat) (spare : Bool) (peer : Nat) (s : State) :
    Host.Outcome State Fault Refusal := .next (portTrained port lanes spare peer s)

/-! ### Flits (Table 13-4, R280, R281) -/

/-- Header fields of a flit but for acknowledgement and credit. -/
def flitBase (kind tc len start seq : Nat) : Nat :=
  packF [(0, 4, kind), (4, 3, tc), (8, 9, len), (17, 10, start), (27, 12, seq)]

/-- The acknowledgement and credit fields that a port's next flit carries, and the port after it. -/
def Port.carry (x : Port) : Nat × Port :=
  let tc := firstBelow 5 (fun i => x.giveBack.getD i 0 != 0)
  let k := tc.getD 0
  let n := Nat.min 4095 (x.giveBack.getD k 0)
  (packF [(39, 1, 1), (40, 1, b2n x.nakDue), (41, 12, (x.rxSeq + 4095) % 4096), (53, 3, k), (56, 1, b2n tc.isSome), (57, 12, n)],
   { x with ackDue := false, nakDue := false, giveBack := updAt x.giveBack k (· - n) })

/-- The 528 bytes of a flit from its header and payload: `LINK_CRC` covers bytes 0 to 523. -/
def flitBytes (header : Nat) (payload : List Byte) : List Byte :=
  let body := toLE 12 header ++ payload ++ List.replicate (512 - payload.length) 0
  body ++ toLE 4 (Num.crc32c body)

/-- A port sends a flit. -/
def State.sendFlit (s : State) (p base : Nat) (payload : List Byte) : State :=
  let c := (s.port p).carry
  (s.onPort p (fun _ => c.2)).emit (.flit p (flitBytes (base + c.1) payload))

/-- The peer's `ACK_SEQ` acknowledges every flit up to it; progress ends a run of replays (R280). -/
def Port.ackUpTo (x : Port) (seq now : Nat) : Port :=
  match x.replay.findIdx? (fun e => e.1 == seq) with
  | none => x
  | some i =>
    let l := x.replay.drop (i + 1)
    { x with replay := l, resend := x.resend.filter (fun q => l.any (fun e => e.1 == q)), lastProgress := now, replayRuns := 0 }

/-- A port goes down after eight replays without progress (R280): it trains again, and a fault event is counted for each of its
lanes (Table 18-6). -/
def State.linkDown (s : State) (p : Nat) : State :=
  let x := s.port p
  let lane (i : Nat) : Nat := if x.spareIn ∧ x.spareFor = i then 512 + p / 4 else 4 * p + i
  let s1 := (s.retrain p id).raise (0x600 + p) 0x31 0 0 3 p
  (List.range 4).foldl (fun t i => correctedError (0x300 + lane i) none t) s1

/-- A replay from the oldest unacknowledged flit (R280). -/
def State.replayPort (s : State) (p : Nat) : State :=
  let x := s.port p
  if x.replay.isEmpty then s
  else if 8 ≤ x.replayRuns then s.linkDown p
  else s.onPort p (fun y => { y with
    resend := y.replay.map (·.1), replayRuns := y.replayRuns + 1, lastProgress := s.now, ctr := ctrAdd y.ctr .replays 1 })

/-- `LINK_ACK_TIMEOUT`: 2 µs without acknowledgement progress (R280). -/
def linkAckTimeout (p : Nat) (s : State) : State :=
  if p < 128 ∧ (s.port p).up ∧ !(s.port p).replay.isEmpty ∧ (s.port p).lastProgress + 2000 < s.now then s.replayPort p else s

def execLinkAckTimeout (port : Nat) (s : State) : Host.Outcome State Fault Refusal := .next (linkAckTimeout port s)

/-- A bad or out-of-sequence flit: one `NAK`, then flits are discarded until the expected one (R280). -/
def Port.reject (x : Port) : Port := if x.nakSent then x else { x with nakSent := true, nakDue := true }

/-- A data flit in sequence joins its class's bytes. -/
def Port.accept (x : Port) (tc start : Nat) (payload : List Byte) : Port :=
  { x with
    rxSeq := (x.rxSeq + 1) % 4096, nakSent := false, ackDue := true
    rxMarks := if start < 512 then updAt x.rxMarks tc (· ++ [(x.rx.getD tc []).length + start]) else x.rxMarks
    rxFlits := updAt x.rxFlits tc (· ++ [payload.length])
    rx := updAt x.rx tc (· ++ payload), ctr := ctrAdd x.ctr .flitsRx 1 }

/-- What a good flit does (R279 to R281): credits and acknowledgement, a replay on a `NAK`, and its data, or the timestamp
it carries. -/
def State.takeFlit (s : State) (p : Nat) (bytes : List Byte) : State :=
  let h := ofLE (bytes.take 12)
  let s1 := s.onPort p (fun x =>
    let y := if bit h 56 then { x with credits := updAt x.credits (bits h 53 3) (· + bits h 57 12) } else x
    if bit h 39 then y.ackUpTo (bits h 41 12) s.now else y)
  let s2 := if bit h 40 then s1.replayPort p else s1
  if !(s2.port p).up then s2
  else if bits h 0 4 = 3 then s2.emit (.timestamp p (readTimestamp (bytes.drop 12)))
  else if bits h 0 4 ≠ 1 then s2
  else s2.onPort p (fun x =>
    if bits h 27 12 = x.rxSeq ∧ bits h 4 3 < 5 then x.accept (bits h 4 3) (bits h 17 10) ((bytes.drop 12).take (bits h 8 9 + 1))
    else x.reject)

/-- `FLIT_RECEIVE`: the symbols that the FEC corrected, the lane of the port charged with each codeword it could not, and the
528 bytes (R280, Table 13-12, Table 18-6). -/
def flitReceive (p corrected : Nat) (uncorrected : List Nat) (bytes : List Byte) (s : State) : State :=
  if 128 ≤ p ∨ !(s.port p).up then s
  else
    let x := s.port p
    let lane (i : Nat) : Nat := if x.spareIn ∧ x.spareFor = i then 512 + p / 4 else 4 * p + i % 4
    let s1 := s.onPort p (fun y => { y with
      ctr := ctrAdd (ctrAdd y.ctr .fecCorrected corrected) .fecUncorrected uncorrected.length })
    let s2 := uncorrected.foldl (fun t i => correctedError (0x300 + lane i) none t) s1
    if bytes.length = 528 ∧ ofLE (bytes.drop 524) = Num.crc32c (bytes.take 524) then s2.takeFlit p bytes
    else s2.onPort p (fun y => { y.reject with ctr := ctrAdd y.ctr .linkCrcErrors 1 })

def execFlitReceive (port corrected : Nat) (uncorrected : List Nat) (bytes : List Byte) (s : State) :
    Host.Outcome State Fault Refusal := .next (flitReceive port corrected uncorrected bytes s)

/-! ### Flit slots (R279, R287, R325, Table 18-7b) -/

/-- Destination of a chunk of which nothing has been sent. -/
def TxChunk.dst (k : TxChunk) : Nat := (k.bytes.headD 0).toNat % 128

/-- A whole local chunk is the first of its path in the queue, which keeps PSN order (R286). -/
def firstOfPath (q : List TxChunk) (i : Nat) (k : TxChunk) : Bool :=
  !k.fwd && (q.take i).all (fun j => j.fwd || j.dst != k.dst)

/-- Every Toll Gate 0 that a chunk is charged to lets it start (R325, R326). -/
def State.tollFree (s : State) (k : TxChunk) : Bool := k.charge.all (fun e => !(s.gate e.1 0).holds)

/-- Partition whose turn a chunk uses: that of its first byte; a chunk charged to no gate needs none. -/
def TxChunk.part (k : TxChunk) : Option Nat := k.charge.head?.map (·.1)

/-- Chunk of a class that goes next on a port, forwarded or local: the one begun; else, of the local ones that may start, the
first whose partition has a turn left (R287, R325). -/
def State.pickChunk (s : State) (p tc : Nat) (fwd : Bool) : Option Nat :=
  let x := s.port p
  let q := x.tx.getD tc []
  match q.findIdx? (fun k => !k.whole) with
  | some i => if ((q[i]?).map (·.fwd)).getD false == fwd then some i else none
  | none =>
    if fwd then q.findIdx? (fun k => k.fwd)
    else
      let ok := (q.zipIdx).filter (fun e => firstOfPath q e.2 e.1 && s.tollFree e.1)
      let turn (k : TxChunk) : Bool := match k.part with | some n => decide (0 < x.partTurns.getD n 0) | none => true
      match ok.find? (fun e => turn e.1) with
      | some e => some e.2
      | none => ok.head?.map (·.2)

/-- A chunk's first byte goes: its gates are charged and its partition's turn is used; where no turn was left, every partition
gets `WEIGHT` turns again (R325). -/
def State.startChunk (s : State) (p : Nat) (k : TxChunk) : State :=
  let s1 := k.charge.foldl (fun t e => t.toll e.1 0 e.2) s
  match k.part with
  | none => s1
  | some n => s1.onPort p (fun x =>
      let l := if 0 < x.partTurns.getD n 0 then x.partTurns else (List.range 8).map (fun i => (s.gate i 0).weight)
      { x with partTurns := updAt l n (· - 1) })

/-- Changes the queue of a class on a port. -/
def State.onTx (s : State) (p tc : Nat) (f : List TxChunk → List TxChunk) : State :=
  s.onPort p (fun x => { x with tx := updAt x.tx tc f })

/-- Fills a flit from the chunks of a class: payload, offset of the first chunk that begins in it, and the state. -/
def fillFlit (p tc : Nat) (fwd : Bool) : Nat → List Byte → Option Nat → State → List Byte × Option Nat × State
  | 0, acc, start, s => (acc, start, s)
  | n + 1, acc, start, s =>
    match s.pickChunk p tc fwd with
    | none => (acc, start, s)
    | some i =>
      match ((s.port p).tx.getD tc [])[i]? with
      | none => (acc, start, s)
      | some k =>
        let room := 512 - acc.length
        if room = 0 then (acc, start, s)
        else
          let s1 := if k.whole then s.startChunk p k else s
          let st := if k.whole ∧ start.isNone then some acc.length else start
          if k.bytes.length ≤ room then
            fillFlit p tc fwd n (acc ++ k.bytes) st ((s1.onTx p tc (fun q => q.eraseIdx i)).giveBack k.back)
          else
            (acc ++ k.bytes.take room, st,
             s1.onTx p tc (fun q => updAt q i (fun y => { y with whole := false, bytes := y.bytes.drop room })))

/-- A data flit of a class goes out: it takes a link credit and stays in the replay buffer until acknowledged (R280, R281). -/
def State.dataFlit (s : State) (p tc : Nat) (fwd : Bool) : State :=
  let r := fillFlit p tc fwd 16 [] none s
  let seq := (s.port p).txSeq
  let base := flitBase 1 tc (r.1.length - 1) (r.2.1.getD 0x3FF) seq
  let s1 := r.2.2.onPort p (fun x => { x with
    txSeq := (seq + 1) % 4096, credits := updAt x.credits tc (· - 1), ctr := ctrAdd x.ctr .flitsTx 1
    lastProgress := if x.replay.isEmpty then s.now else x.lastProgress
    replay := x.replay ++ [(seq, base, r.1)] })
  s1.sendFlit p base r.1

/-- The three classes limited while any of Q17 to Q20 is at E2 (Table 18-7b). -/
def limited (tc : Nat) : Bool := tc == tcDispatch || tc == tcCollective || tc == tcMemory

/-- They have used their half of the port's slots. -/
def State.overHalf (s : State) (p : Nat) : Bool :=
  (List.range 4).any (fun i => decide (2 ≤ (s.quarter (17 + i)).level))
    && decide ((s.port p).slotRun + 1 < 2 * ((s.port p).limitRun + 1))

/-- A class has data that may go: link credit and a chunk, and for the limited classes their share. -/
def State.canSend (s : State) (p tc : Nat) (fwd : Bool) : Bool :=
  decide (0 < (s.port p).credits.getD tc 0) && (s.pickChunk p tc fwd).isSome && (fwd || !limited tc || !s.overHalf p)

/-- Class of the forwarded chunk that goes next: control first, then in the order of R287. -/
def State.fwdClass (s : State) (p : Nat) : Option Nat := [4, 1, 0, 2, 3].find? (fun tc => s.canSend p tc true)

/-- Weights of the round robin of R287. -/
def slotWeights : List Nat := [4, 2, 2, 1, 2]

/-- The entries of the round robin: class and whether forwarded. -/
def State.slotEntries (s : State) (p : Nat) : List (Option (Nat × Bool)) :=
  [tcReturn, tcDispatch, tcCollective, tcMemory].map (fun tc => if s.canSend p tc false then some (tc, false) else none)
  ++ [(s.fwdClass p).map (fun tc => (tc, true))]

/-- Weighted round robin: the first entry in order with data and turns left; when none has both, the turns start again. -/
def robin (turns : List Nat) (ready : Nat → Bool) : Option (Nat × List Nat) :=
  match firstBelow 5 (fun i => ready i && decide (0 < turns.getD i 0)) with
  | some i => some (i, updAt turns i (· - 1))
  | none => (firstBelow 5 ready).map (fun i => (i, updAt slotWeights i (· - 1)))

/-- One slot passes: the runs of 60 and of 10,000 slots count it. -/
def Port.passSlot (x : Port) : Port :=
  if x.slotRun + 1 < 10000 then { x with slot60 := (x.slot60 + 1) % 60, slotRun := x.slotRun + 1 }
  else { x with slot60 := (x.slot60 + 1) % 60, slotRun := 0, fwdRun := 0, limitRun := 0 }

/-- Chunks that a Toll Gate holds back count once as held (R325). -/
def State.noteHeld (s : State) (p : Nat) : State :=
  (List.range 4).foldl (fun t tc =>
    let q := (t.port p).tx.getD tc []
    let hit (e : TxChunk × Nat) : Bool := e.1.whole && !e.1.held && firstOfPath q e.2 e.1 && !t.tollFree e.1
    let t1 := ((q.zipIdx).filter hit).foldl (fun u e =>
      (e.1.charge.filter (fun z => (u.gate z.1 0).holds)).foldl (fun v z => v.tollWait z.1 0) u) t
    t1.onTx p tc (fun l => (l.zipIdx).map (fun e => if hit e then { e.1 with held := true } else e.1))) s

/-- New data in a slot: `TC_CONTROL`, forwarded chunks within the detour reserve of R160, then the round robin (R287). -/
def State.slotData (s : State) (p : Nat) : Option State :=
  let x := s.port p
  if 512 ≤ x.replay.length then none
  else if s.canSend p tcControl false then some (s.dataFlit p tcControl false)
  else
    match (if x.fwdRun < detourBp s.appliance then s.fwdClass p else none) with
    | some tc => some ((s.onPort p (fun y => { y with fwdRun := y.fwdRun + 1 })).dataFlit p tc true)
    | none =>
      let es := s.slotEntries p
      match robin x.turns (fun i => (es.getD i none).isSome) with
      | none => none
      | some (i, turns) =>
        match es.getD i none with
        | none => none
        | some (tc, fwd) => some ((s.onPort p (fun y => { y with
            turns := turns, limitRun := y.limitRun + b2n (!fwd && limited tc) })).dataFlit p tc fwd)

/-- A timestamp flit leaves with the count of this moment (R305, Table 14-5). -/
def State.stampFlit (s : State) (p : Nat) : State :=
  (s.onPort p (fun x => { x with stampDue := false })).sendFlit p (flitBase 3 0 63 0x3FF 0) (timestampBytes (s.timestamp p))

/-- `FLIT_SLOT`: in the reserved slot a timestamp or control flit that is due (log entry 114); then a replay, then new data,
then an idle flit (R279, R280, R287). -/
def flitSlot (p : Nat) (s : State) : State :=
  if 128 ≤ p ∨ !(s.port p).up then s
  else
    let s1 := (s.onPort p Port.passSlot).noteHeld p
    let x := s1.port p
    if x.slot60 = 0 ∧ x.stampDue then s1.stampFlit p
    else if x.slot60 = 0 ∧ (x.nakDue || x.ackDue || x.giveBack.any (fun n => n != 0)) then s1.sendFlit p (flitBase 2 0 0 0x3FF 0) []
    else
      match x.resend with
      | q :: r =>
        let s2 := s1.onPort p (fun y => { y with resend := r })
        match x.replay.find? (fun e => e.1 == q) with
        | some e => s2.sendFlit p e.2.1 e.2.2
        | none => s2.sendFlit p (flitBase 0 0 0 0x3FF 0) []
      | [] =>
        match s1.slotData p with
        | some t => t
        | none => s1.sendFlit p (flitBase 0 0 0 0x3FF 0) []

def execFlitSlot (port : Nat) (s : State) : Host.Outcome State Fault Refusal := .next (flitSlot port s)

/-! ### Query -/

/-- `PMP_LINK_QUERY` (R278, R297). -/
def linkQuery (a : List Nat) (_ : Msg) (s : State) : Act :=
  match a with
  | [p, n] =>
    let ps := (List.range n).map (fun i => s.port (p + i))
    checked [(decide (n = 0 ∨ 64 < n ∨ 128 < p + n), .bounds)] s
      (.ok s (ps.map (fun x => (.u32, x.word)) ++ ps.flatMap (fun x => ctrFlds x.ctr portCtrs) ++ ctrFlds s.ctr transpCtrs))
  | _ => .no s .format

def execPmpLinkQuery (w : Nat) (s : State) : Host.Outcome State Fault Refusal :=
  .next (commitMsg w 0x0820 (withReq [.u8, .u8] linkQuery) s)

end Sys2Proof.Machine
end

