-- ==== Sys2Proof/Machine/Transport.lean ====
section
/-! DEFINITION. Wabor transport: chunks, acknowledgement and resend, and routes and detours (13 R282 to R286). -/

namespace Sys2Proof.Machine

/-! ### Chunks on the wire (Table 13-7) -/

/-- The 32 bytes of a chunk header. -/
def chunkHeader (dst src : Nat) (via : Option Nat) (tc : Nat) (resend ackOnly : Bool) (psn len tick : Nat) : List Byte :=
  let h := toLE 28 (packF [(0, 7, dst), (7, 7, src), (14, 7, via.getD 0), (21, 1, b2n via.isSome), (22, 3, tc),
    (25, 1, b2n resend), (26, 1, b2n ackOnly), (32, 24, psn), (64, 13, len), (128, 64, tick)])
  h ++ toLE 4 (Num.crc32c h)

/-- A chunk: header, payload and `CHUNK_CRC` (R282). -/
def wireChunk (header payload : List Byte) : List Byte := header ++ payload ++ toLE 4 (Num.crc32c payload)

/-- PSN a comes before b, modulo 2^24 (R283). -/
def psnBelow (a b : Nat) : Bool := decide (2 ^ 23 ≤ (a + 2 ^ 24 - b) % 2 ^ 24)

/-! ### Routes (R286) -/

/-- Ports in ascending cyclic order after one. -/
def portsAfter (n : Nat) : List Nat := (List.range 128).map (fun i => (n + 1 + i) % 128)

/-- The next up port to a package. -/
def State.nextPort (s : State) (pkg last : Nat) : Option Nat :=
  (portsAfter last).find? (fun i => (s.port i).up && (s.port i).peer == pkg)

/-- Intermediate of a detour to a package. -/
def State.viaFor (s : State) (dst : Nat) : Option Nat :=
  let me := s.board.pkgId
  ((List.range 128).map (fun i => (me + dst + i) % 128)).find? (fun v =>
    v != me && v != dst && s.fab.present.contains v && (s.portTo v).isSome && Config.peerUp v dst s.now)

/-- Moves a path to a detour, which counts. -/
def State.moveDetour (s : State) (k v : Nat) : State :=
  (s.onOut k (fun p => { p with detour := some v, movedAt := s.now, timeouts := 0 })).bump .detourPaths 1

/-- The route of a path's next chunk: port and intermediate; the path moves to a detour where the pair has no up port. -/
def State.routePath (s : State) (k : Nat) : Option (Nat × Option Nat) × State :=
  let dst := k / 8
  let p := s.pathOut k
  let direct := match p.detour with
    | some v => (s.nextPort v p.lastPort).map (fun q => (q, some v))
    | none => (s.nextPort dst p.lastPort).map (fun q => (q, none))
  match direct with
  | some r => (some r, s.onOut k (fun p => { p with lastPort := r.1 }))
  | none =>
    match s.viaFor dst with
    | none => (none, s)
    | some v =>
      match s.nextPort v p.lastPort with
      | none => (none, s)
      | some q => (some (q, some v), (s.moveDetour k v).onOut k (fun p => { p with lastPort := q }))

/-- Puts a chunk into the queue of its class on a port. -/
def State.queueChunk (s : State) (p tc : Nat) (c : TxChunk) : State := s.onTx p tc (fun q => q ++ [c])

/-- Sends a chunk of a path: a new one is charged to its partitions' gates, a resent one to none (R284, R326). -/
def State.sendChunk (s : State) (k : Nat) (c : SentChunk) (resend : Bool) (charge : List (Nat × Nat)) : State :=
  let r := s.routePath k
  match r.1 with
  | none => r.2
  | some (p, via) =>
    r.2.queueChunk p (k % 8) ⟨false,
      wireChunk (chunkHeader (k / 8) s.board.pkgId via (k % 8) resend false c.psn c.payload.length c.tick) c.payload,
      true, if resend ∨ k % 8 = tcControl then [] else charge, false, none⟩

/-! ### Closing a chunk (R282, R285) -/

/-- Transport window of a path in chunks (R285): N packages have floor(128 / (N − 1)) ports per pair (R15). -/
def State.window (s : State) (tc : Nat) : Nat :=
  if tc = tcControl then 16 else Nat.min 512 (64 * (128 / Nat.max 1 (s.appliance - 1)))

/-- The first n bytes of a stream: bytes by partition, the bytes, and the rest. -/
def cutStream : Nat → List (Nat × List Byte) → List (Nat × Nat) × List Byte × List (Nat × List Byte)
  | _, [] => ([], [], [])
  | n, (p, b) :: r =>
    if n = 0 then ([], [], (p, b) :: r)
    else if b.length ≤ n then
      let x := cutStream (n - b.length) r
      ((p, b.length) :: x.1, b ++ x.2.1, x.2.2)
    else ([(p, n)], b.take n, (p, b.drop n) :: r)

/-- Bytes of a stream. -/
def streamBytes (l : List (Nat × List Byte)) : Nat := sumN (l.map (fun e => e.2.length))

/-- Chunks to a package wait for an acknowledgement (R288). -/
def State.pendingTo (s : State) (pkg : Nat) : Bool :=
  (List.range 5).any (fun tc => !(s.pathOut (pathKey pkg tc)).unacked.isEmpty)

/-- `CHUNK_CLOSE`: at 4,096 bytes, or once no further byte has been ready for 50 ns; within transport credit, and while the
destination has a route. -/
def chunkClose (pkg tc : Nat) (s : State) : State :=
  let k := pathKey pkg tc
  let p := s.pathOut k
  let total := streamBytes p.stream
  let credits := if p.opened then p.credits else s.window tc
  if !s.booted ∨ 5 ≤ tc ∨ total = 0 ∨ s.fab.departed.contains pkg ∨ (total < 4096 ∧ s.now < p.lastByte + 50) ∨ credits = 0 then s
  else
    let r := s.routePath k
    match r.1 with
    | none => s
    | some _ =>
      let x := cutStream 4096 p.stream
      let c : SentChunk := ⟨p.nextPsn, x.2.1, s.now, p.queuedEnd - streamBytes x.2.2⟩
      let quiet := !(List.range 5).any (fun t => !(s.pathOut (pathKey pkg t)).unacked.isEmpty)
      let s1 := s.onOut k (fun p => { p with
        stream := x.2.2, nextPsn := (p.nextPsn + 1) % 2 ^ 24, unacked := p.unacked ++ [c], credits := credits - 1
        opened := true, lastProgress := if p.unacked.isEmpty then s.now else p.lastProgress })
      let s2 := if quiet then { s1 with fab := { s1.fab with silent := s1.fab.silent.put pkg s.now } } else s1
      s2.sendChunk k c false x.1

def execChunkClose (pkg tc : Nat) (s : State) : Host.Outcome State Fault Refusal := .next (chunkClose pkg tc s)

/-! ### Receiving chunks (R283) -/

/-- Bytes leave a port's buffer: a flit of which nothing is left returns its credit, and marks move (R281).  Answers the
flits that are free. -/
def dropFlits : Nat → List Nat → Nat × List Nat
  | _, [] => (0, [])
  | n, f :: r =>
    if f ≤ n then
      let x := dropFlits (n - f) r
      (x.1 + 1, x.2)
    else (0, (f - n) :: r)

/-- The first n bytes of a class's buffer go; the flits freed. -/
def Port.consume (x : Port) (tc n : Nat) : Nat × Port :=
  let d := dropFlits n (x.rxFlits.getD tc [])
  (d.1, { x with
    rx := updAt x.rx tc (fun b => b.drop n), rxFlits := updAt x.rxFlits tc (fun _ => d.2)
    rxMarks := updAt x.rxMarks tc (fun l => (l.filter (fun m => decide (n ≤ m))).map (· - n)) })

/-- Bytes go and their flits' credits are due back at once. -/
def State.eatBytes (s : State) (p tc n : Nat) : State :=
  s.onPort p (fun x =>
    let r := x.consume tc n
    { r.2 with giveBack := updAt r.2.giveBack tc (· + r.1) })

/-- Chunks in every reorder store (R283). -/
def State.reorderUsed (s : State) : Nat := sumN (s.fab.ins.map (fun e => e.2.reorder.length))

/-- Whole messages at the head of the bytes in effect (R282): header and body of each, and the rest. -/
def splitMsgs : Nat → List Byte → List (Nat × List Byte) × List Byte
  | 0, b => ([], b)
  | n + 1, b =>
    let h := ofLE (b.take 8)
    let len := bits h 32 32
    if b.length < 8 + len then ([], b)
    else
      let x := splitMsgs n (b.drop (8 + len))
      ((h, (b.drop 8).take len) :: x.1, x.2)

/-- Message types of Table 13-6. -/
def msgTypes : List Nat :=
  [0x01, 0x02, 0x03, 0x04, 0x05, 0x10, 0x11, 0x12, 0x20, 0x21, 0x22, 0x23, 0x24, 0x30, 0x31, 0x32]

/-- A message takes effect: the block that takes it gets it; one of a reserved type is discarded and counted. -/
def State.deliver (s : State) (p src : Nat) (m : Nat × List Byte) : State :=
  let type := bits m.1 0 8
  if msgTypes.contains type then s.emit (.deliver type (bits m.1 8 4) src m.2)
  else (s.bump .msgUnknown 1).raiseRated (0x600 + p) 0x33 0 3 type

/-- The chunks of a path that follow the expected one take effect in PSN order. -/
def PathIn.drain : Nat → PathIn → PathIn
  | 0, x => x
  | n + 1, x =>
    match x.reorder.find? (fun e => e.1 == x.expected) with
    | none => x
    | some e => PathIn.drain n { x with
        expected := (x.expected + 1) % 2 ^ 24, part := x.part ++ e.2, giveBack := x.giveBack + 1
        reorder := x.reorder.filter (fun (y : Nat × List Byte) => y.1 != e.1) }

/-- An accepted chunk waits in the reorder store or takes effect with those after it; whole messages are delivered.  A dispatch path
whose rows are held takes no chunk (R106). -/
def State.acceptChunk (s : State) (p src tc psn : Nat) (payload : List Byte) : State :=
  let k := pathKey src tc
  let x := s.pathIn k
  let y := { x with reorder := x.reorder.filter (fun (e : Nat × List Byte) => e.1 != psn) ++ [(psn, payload)] }
  let z := if tc = tcDispatch ∧ s.heldFrom src then y else y.drain y.reorder.length
  let ms := splitMsgs (z.part.length / 8) z.part
  let due := if z.expected = x.expected then z.ackFrom else some (z.ackFrom.getD s.now)
  let s1 := (s.bump .chunksRx 1).onIn k (fun _ => { z with part := ms.2, ackFrom := due })
  ms.1.foldl (fun t m => t.deliver p src m) s1

/-- Outcome of a chunk of this package (R283, checks 4 to 8); acknowledgement chunks stand outside every path's order and take
only check 6 (R282). -/
def State.chunkHere (s : State) (p h : Nat) (payload : List Byte) (crcOk : Bool) : State :=
  let src := bits h 7 7
  let tc := bits h 22 3
  let psn := bits h 32 24
  let k := pathKey src tc
  let x := s.pathIn k
  if s.fab.departed.contains src then s
  else if bit h 26 then
    if crcOk then
      { s with fab := { s.fab with entries := s.fab.entries
        ++ (List.range (payload.length / 8)).map (fun i => (src, ofLE ((payload.drop (8 * i)).take 8))) } }
    else s.bump .chunkCrcDrops 1
  else if psnBelow psn x.expected then
    (s.bump .dupChunks 1).onIn k (fun y => { y with ackFrom := some (y.ackFrom.getD s.now) })
  else if 1024 ≤ (psn + 2 ^ 24 - x.expected) % 2 ^ 24 then s.bump .windowDrops 1
  else if !crcOk then (s.bump .chunkCrcDrops 1).onIn k (fun y => { y with nackDue := true })
  else if psn ≠ x.expected ∧ 2048 ≤ s.reorderUsed then s.bump .reorderDrops 1
  else s.acceptChunk p src tc psn payload

/-- A detour chunk goes on unchanged, on any up port to its destination; its flits leave the buffer as it goes out (R281,
R283). -/
def State.forwardChunk (s : State) (p tc h n : Nat) (bytes : List Byte) : State :=
  let ups := (List.range 128).filter (fun i => (s.port i).up && (s.port i).peer == bits h 0 7)
  let s1 := s.bump .forwarded 1
  match ups with
  | [] => s1.eatBytes p tc n
  | _ =>
    let d := s1.draw
    let r := (s.port p).consume tc n
    (d.2.onPort p (fun _ => r.2)).queueChunk (ups.getD (d.1 % ups.length) 0) tc
      ⟨true, bytes, true, [], false, some (p, tc, r.1, (s.port p).upFrom)⟩

/-- `CHUNK_RECEIVE`: the oldest chunk of a class in a port's buffer, once whole, meets the checks of R283 in order.  After a
header that fails its CRC, chunks are found again at the next offset at which a flit said that one begins. -/
def chunkReceive (p tc : Nat) (s : State) : State :=
  let b := (s.port p).rx.getD tc []
  let h := ofLE (b.take 28)
  let len := bits h 64 13
  if 128 ≤ p ∨ 5 ≤ tc ∨ !(s.port p).up ∨ b.length < 32 then s
  else if ofLE ((b.drop 28).take 4) ≠ Num.crc32c (b.take 28) then
    let n := (((s.port p).rxMarks.getD tc []).find? (fun m => decide (0 < m))).getD b.length
    (s.bump .hdrCrcDrops 1).eatBytes p tc n
  else if b.length < 36 + len then s
  else
    let n := 36 + len
    if bits h 0 7 = s.board.pkgId then
      let payload := (b.drop 32).take len
      (s.eatBytes p tc n).chunkHere p h payload (ofLE ((b.drop (32 + len)).take 4) == Num.crc32c payload)
    else if bit h 21 ∧ bits h 14 7 = s.board.pkgId then s.forwardChunk p tc h n (b.take n)
    else ((s.eatBytes p tc n).bump .misrouted 1).raise (0x600 + p) 0x32 0 0 3 (bits h 7 7)

def execChunkReceive (port tc : Nat) (s : State) : Host.Outcome State Fault Refusal := .next (chunkReceive port tc s)

/-! ### Acknowledgement and resend (R284, R286) -/

/-- An acknowledgement entry of a path (Table 13-8). -/
def PathIn.entry (x : PathIn) (tc : Nat) : Nat :=
  packF [(0, 3, tc), (3, 1, b2n x.nackDue), (8, 24, x.expected), (32, 16, x.giveBack)]

/-- `TRANSPORT_ACK_SEND`: one chunk with an entry for each path of a package that has one due. -/
def ackSend (pkg : Nat) (s : State) : State :=
  let due := (List.range 5).filter (fun tc => let x := s.pathIn (pathKey pkg tc); x.ackFrom.isSome || x.nackDue)
  if !s.booted ∨ due.isEmpty ∨ s.fab.departed.contains pkg then s
  else
    let k := pathKey pkg tcControl
    let r := s.routePath k
    match r.1 with
    | none => s
    | some (p, via) =>
      let body := due.flatMap (fun tc => toLE 8 ((s.pathIn (pathKey pkg tc)).entry tc))
      let s1 := due.foldl (fun t tc => t.onIn (pathKey pkg tc) (fun x => { x with
        ackFrom := none, nackDue := false, giveBack := 0 })) r.2
      s1.queueChunk p tcControl ⟨false,
        wireChunk (chunkHeader pkg s.board.pkgId via tcControl false true 0 body.length s.now) body, true, [], false, none⟩

def execTransportAckSend (pkg : Nat) (s : State) : Host.Outcome State Fault Refusal := .next (ackSend pkg s)

/-- Resends chunks of a path in PSN order; a resend spends no credit, and one without a route is not sent (R284). -/
def State.resendAll (s : State) (k : Nat) (l : List SentChunk) : State :=
  l.foldl (fun t c => (t.sendChunk k c true []).bump .resends (b2n (t.routePath k).1.isSome)) s

/-- What an acknowledgement entry does at the origin: acknowledged chunks leave, credits return, and a `NACK` resends. -/
def State.takeEntry (s : State) (src e : Nat) : State :=
  let k := pathKey src (bits e 0 3)
  let p := s.pathOut k
  let next := bits e 8 24
  let gone := p.unacked.filter (fun c => psnBelow c.psn next)
  let left := p.unacked.filter (fun c => !psnBelow c.psn next)
  let s1 := s.onOut k (fun p => { p with
    unacked := left, credits := p.credits + bits e 32 16
    ackedEnd := (gone.getLast?.map (·.endOff)).getD p.ackedEnd
    timeouts := if gone.isEmpty then p.timeouts else 0
    lastProgress := if gone.isEmpty then p.lastProgress else s.now })
  let s2 := { s1 with fab := { s1.fab with silent := s1.fab.silent.put src s.now } }
  if bit e 3 then s2.resendAll k left else s2

/-- `TRANSPORT_RESEND_TIMEOUT`: 8 µs without progress on a path; two such in a row on direct ports move it to a detour. -/
def resendTimeout (pkg tc : Nat) (s : State) : State :=
  let k := pathKey pkg tc
  let p := s.pathOut k
  if !s.booted ∨ 5 ≤ tc ∨ p.unacked.isEmpty ∨ s.fab.departed.contains pkg ∨ s.now ≤ p.lastProgress + 8000 then s
  else
    let s1 := s.onOut k (fun p => { p with timeouts := p.timeouts + 1, lastProgress := s.now })
    let s2 := match p.detour, (if 2 ≤ p.timeouts + 1 then s1.viaFor pkg else none) with
      | none, some v => s1.moveDetour k v
      | _, _ => s1
    s2.resendAll k p.unacked

def execTransportResendTimeout (pkg tc : Nat) (s : State) : Host.Outcome State Fault Refusal :=
  .next (resendTimeout pkg tc s)

/-- `DETOUR_RETURN`: 1 ms after a direct port to the destination has come up. -/
def detourReturn (pkg tc : Nat) (s : State) : State :=
  let k := pathKey pkg tc
  let p := s.pathOut k
  if p.detour.isSome ∧ (List.range 128).any (fun i => let x := s.port i
      x.up && x.peer == pkg && decide (p.movedAt ≤ x.upFrom ∧ x.upFrom + 1000000 ≤ s.now)) then
    s.onOut k (fun p => { p with detour := none, timeouts := 0 })
  else s

def execDetourReturn (pkg tc : Nat) (s : State) : Host.Outcome State Fault Refusal := .next (detourReturn pkg tc s)

end Sys2Proof.Machine
end

