-- ==== Sys2Proof/Machine/Coll.lean ====
section
/-! DEFINITION. Collectives (13 R289 to R296) and the bays they share with combine (06 R137). -/

namespace Sys2Proof.Machine

/-! ### Shape of a collective (Table 13-9, R291) -/

/-- Elements of a slab. -/
def slabElems : Nat := 65536

/-- A reducing operation. -/
def CollRec.reduces (r : CollRec) : Bool := r.op == 1 || r.op == 2 || r.op == 5

/-- Elements reduced together: a shard of `REDUCE_SCATTER`, else the whole vector. -/
def CollRec.run (r : CollRec) (m : Nat) : Nat := if r.op = 2 then r.count / Nat.max 1 m else r.count

/-- Slabs of a run, and of the collective. -/
def CollRec.perRun (r : CollRec) (m : Nat) : Nat := ceilDiv (r.run m) slabElems
def CollRec.slabs (r : CollRec) (m : Nat) : Nat := if r.op = 2 then r.perRun m * m else r.perRun m

/-- Slab s: its first element in the vector, its first element in its run, and its length. -/
def CollRec.slabAt (r : CollRec) (m s : Nat) : Nat × Nat × Nat :=
  let k := Nat.max 1 (r.perRun m)
  let j := if r.op = 2 then s / k else 0
  let o := (if r.op = 2 then s % k else s) * slabElems
  (j * r.run m + o, o, Nat.min slabElems (r.run m - o))

/-- Member index of the owner of a slab (R291). -/
def CollRec.ownerOf (r : CollRec) (g : CollGroup) (s : Nat) : Nat :=
  if r.op = 1 then s % Nat.max 1 g.count
  else if r.op = 2 then s / Nat.max 1 (r.perRun g.count)
  else g.indexOf r.root

/-- Slabs that a member owns, ascending. -/
def CollRec.ownSlabs (r : CollRec) (g : CollGroup) (i : Nat) : List Nat :=
  if r.reduces then (List.range (r.slabs g.count)).filter (fun s => r.ownerOf g s == i) else []

/-- Elements of this member's input: `BROADCAST` reads only the root's. -/
def CollRec.inCount (r : CollRec) (pkg : Nat) : Nat :=
  if r.op = 4 then (if r.root = pkg then r.count else 0) else if r.op = 6 then r.count * r.kDim else r.count

/-- The record of Table 13-10. -/
def CollRec.read (x : Nat) : CollRec :=
  ⟨bits x 0 12, bits x 12 4, bits x 16 3, bits x 19 2, bits x 21 5, bits x 26 5, bit x 31, bits x 32 32, bits x 64 32,
   bits x 96 7, bit x 103, bits x 112 16, bits x 128 32, bits x 160 32, bits x 192 32, bits x 224 5, bits x 240 16,
   bits x 256 16⟩

/-- CRC-32C of the record with its handles, `TALLY` and `TALLY_EN` cleared (R290). -/
def recordCrc (x : Nat) : Nat :=
  Num.crc32c (toLE 40 (setBits (setBits (setBits x 103 1 0) 112 16 0) 128 96 0))

/-! ### Elements in buffers -/

/-- Writes n bits from a bit offset of a buffer. -/
def State.writeBits (s : State) (a o n v : Nat) : State :=
  let b := a + o / 8
  let k := ceilDiv (o % 8 + n) 8
  s.writeAt b (toLE k (setBits (s.numAt b k) (o % 8) n v))

/-- Writes n elements, given plane after plane, at element `off` of a tensor of `total` elements.  Where a plane's units do not
fall on the element offset, the spec gives them no place: what is written there is a free value. -/
def writePlanes (a : Nat) (total off n : Nat) : List (Nat × Nat) → List Byte → State → State
  | [], _, s => s
  | p :: r, data, s =>
    let len := unitBytes p n
    let w := ceilDiv n p.2 * p.1
    let v := if off % p.2 = 0 then ofLE (data.take len) else s.free off
    writePlanes (a + unitBytes p total) total off n r (data.drop len) (s.writeBits a (off / p.2 * p.1) w v)

/-- Writes elements of a format to the buffer of a handle, and charges its tier. -/
def State.putElems (s : State) (c h fmt total off n : Nat) (data : List Byte) : State :=
  let a := (s.slotOf h).base
  ((writePlanes a total off n (fmtPlanes fmt) data s).charge c a (elemBytes fmt n)).freed

/-- Elements of a scalar format from bytes, as FP32. -/
def elemsOf (fmt n : Nat) (data : List Byte) : Row :=
  let w := Num.codeBits fmt / 8
  (List.range n).map (fun i => Num.cvtFrom fmt (ofLE ((data.drop (i * w)).take w)))

/-- Bytes of FP32 values in a scalar format (R293). -/
def elemsTo (fmt : Nat) (row : Row) : List Byte := row.flatMap (fun x => toLE (Num.codeBits fmt / 8) (Num.cvtTo fmt x))

/-- Reads n bytes of an input: whether the read was poisoned, the bytes, and the state (R234, R296). -/
def State.readInput (s : State) (c h off n : Nat) : Bool × List Byte × State :=
  let a := (s.slotOf h).base + off
  let p := s.takePoison a n
  let t := p.2.charge c a n
  (p.1, s.bytesAt a n, if p.1 then t.memUe c a else t)

/-! ### Completion (R296) -/

/-- A member's part of a collective is done: its output is written, its pieces and results are sent and acknowledged. -/
def State.collDone (s : State) (k : Coll) (g : CollGroup) : Bool :=
  let me := s.board.pkgId
  let i := g.indexOf me
  let m := g.count
  let own := (k.info.ownSlabs g i).length
  let n := k.info.slabs m
  k.running && k.sends.all s.acked &&
  (if k.info.op = 1 then decide (k.written.length = n)
   else if k.info.op = 2 ∨ k.info.op = 5 then decide (k.slabsDone = own ∧ k.sentPieces.length = n - own)
   else if k.info.op = 4 then decide (1 ≤ k.written.length)
   else decide (k.written.length = m))

/-- Completes a collective that is done. -/
def State.checkColl (s : State) (c g id : Nat) : State :=
  match (s.ctx c).coll g id, (s.ctx c).group g with
  | some k, some grp => if s.collDone k grp then s.endColl c g id 2 else s
  | _, _ => s

/-- Completes every collective that an acknowledgement made done. -/
def State.checkColls (s : State) : State :=
  (List.range 16).foldl (fun t c => (t.ctx c).colls.foldl (fun u k => u.checkColl c k.info.group k.info.collId) t) s

/-- `TRANSPORT_ACK_RECEIVE` (R284): the oldest entry received is taken; a collective may be DONE with it (R296). -/
def ackReceive (s : State) : State :=
  match s.fab.entries with
  | [] => s
  | (src, e) :: r => (({ s with fab := { s.fab with entries := r } }).takeEntry src e).settleDying.checkColls

def execTransportAckReceive (s : State) : Host.Outcome State Fault Refusal := .next (ackReceive s)

/-- A message of a collective that has finished is discarded and counted (R296). -/
def State.staleColl (s : State) (c g id : Nat) : State :=
  match (s.ctx c).group g with
  | some grp => if grp.finished.any (fun e => e.1 == id) then s.bumpCtx c .collStale 1 else s
  | none => s

/-- Sends elements of a collective to a member: 0x10 a piece, 0x11 a result (Table 13-6). -/
def State.sendElems (s : State) (c dst type g id slab index : Nat) (data : List Byte) : State :=
  let t := s.sendMsg dst type c [g, id, slab, index] (toLE 16 (collPrefix g id slab index 0 0) ++ data)
  if dst = s.board.pkgId then t
  else t.onColl c g id (fun k => { k with sends := k.sends.filter (fun e => e.1 != (t.sentMark dst tcCollective).1)
    ++ [t.sentMark dst tcCollective] })

/-! ### Bays and staging (R136, R292) -/

/-- The oldest collective that waits for a bay: (tick, context, group, collective). -/
def State.waitingColl (s : State) : Option (Nat × Nat × Nat × Nat) :=
  minBy (fun e => e.1) ((List.range 16).flatMap (fun c => (s.ctx c).colls.filterMap (fun k =>
    k.bayWait.map (fun t => (t, c, k.info.group, k.info.collId)))))

/-- Takes a bay: the collectives' floor first, then the shared pool, there behind every waiting combine claim. -/
def State.takeBay (s : State) : Option (Nat × State) :=
  if s.floorUsed < 384 then some (0, { s with floorUsed := s.floorUsed + 1 })
  else if 0 < s.poolFree ∧ s.waitingClaims.isEmpty then some (1, { s with poolUsed := s.poolUsed + 1 })
  else none

/-- Bytes of the staging of one slab: a piece of each other member. -/
def CollRec.stageBytes (r : CollRec) (m : Nat) : Nat := (m - 1) * elemBytes r.inFmt (Nat.min slabElems (r.run m))

/-- Allocates n pieces of staging from requester (context, 0xA), or none. -/
def takeStaging (c bytes : Nat) : Nat → State → Option (List Nat) × State
  | 0, s => (some [], s)
  | n + 1, s =>
    match s.khanAlloc c 1 0 0xA bytes with
    | (none, t) => (none, t)
    | (some (h, _), t) =>
      match takeStaging c bytes n t with
      | (none, u) => (none, u.khanDrop h)
      | (some l, u) => (some (h :: l), u)

/-- What staging a launch needs: pieces and bytes of each (R292, R295). -/
def CollRec.staging (r : CollRec) (g : CollGroup) (i : Nat) : Nat × Nat :=
  let m := g.count
  if r.op = 6 then (m - 1, elemBytes r.inFmt (r.count * r.kDim))
  else if r.fixed ∧ 1 < m ∧ !(r.ownSlabs g i).isEmpty then (2, r.stageBytes m)
  else (0, 0)

/-! ### Reduction at the owner (R292, R293) -/

/-- Adds a piece into an accumulator. -/
def reducePiece (op : Nat) (acc piece : Row) : Row :=
  List.zipWith (fun a v => if op = 0 then Num.fadd a v else Num.fmax a v) acc piece

/-- Changes an open slab. -/
def State.onSlab (s : State) (c g id i : Nat) (f : Slab → Slab) : State :=
  s.onColl c g id (fun k => { k with open_ := k.open_.map (fun b => if b.index = i then f b else b) })

/-- An open slab of a collective. -/
def Coll.slab (k : Coll) (i : Nat) : Option Slab := k.open_.find? (fun b => b.index == i)

/-- Adds a member's piece to an open slab. -/
def State.addPiece (s : State) (c g id i idx op : Nat) (piece : Row) : State :=
  s.onSlab c g id i (fun b => { b with
    acc := reducePiece op b.acc piece, added := b.added ++ [idx], staged := b.staged.filter (fun e => e.1 != idx) })

/-- Adds the pieces whose turn has come: in fixed-order mode by ascending index, the own piece read at its turn; in free mode
the own piece is read when the slab opens.  A poisoned read ends the collective FAULTED. -/
def addReady (c g id i : Nat) : Nat → State → State
  | 0, s => s
  | n + 1, s =>
    match (s.ctx c).coll g id, (s.ctx c).group g with
    | some k, some grp =>
      match k.slab i with
      | none => s
      | some b =>
        let me := grp.indexOf s.board.pkgId
        let turn := if k.info.fixed then b.added.length else if b.added.contains me then grp.count else me
        if turn = me then
          let z := k.info.slabAt grp.count i
          let r := s.readInput c k.info.inH (elemBytes k.info.inFmt z.1) (elemBytes k.info.inFmt z.2.2)
          if r.1 then r.2.2.endColl c g id 4
          else addReady c g id i n (r.2.2.addPiece c g id i me k.info.redOp (elemsOf k.info.inFmt z.2.2 r.2.1))
        else
          match b.staged.find? (fun e => e.1 == turn) with
          | some e => addReady c g id i n (s.addPiece c g id i e.1 k.info.redOp e.2)
          | none => s
    | _, _ => s

/-- A bay goes back to its source. -/
def State.returnBay (s : State) (b : Nat) : State :=
  if b = 0 then { s with floorUsed := s.floorUsed - 1 } else { s with poolUsed := s.poolUsed - 1 }

/-- Takes a bay for the next slab of a collective: first come, first served among the collectives (R24). -/
def State.takeBayFor (s : State) (c : Nat) (k : Coll) : Option (Nat × State) :=
  match s.waitingColl with
  | some (t, w) =>
    if w ≠ (c, k.info.group, k.info.collId) ∧ (k.bayWait.map (fun m => decide (t < m))).getD true then none else s.takeBay
  | none => s.takeBay

/-- Releases what the owner holds for slabs that it will not open. -/
def State.releaseSpare (s : State) (c g id : Nat) : State :=
  match (s.ctx c).coll g id with
  | none => s
  | some k =>
    let s1 := k.spareBays.foldl State.returnBay s
    (k.spareStaging.foldl State.khanDrop s1).onColl c g id (fun k => { k with spareBays := [], spareStaging := [] })

/-- The owner opens its next slab, if a bay and its staging can be had: the bay is cleared to +0, its grant goes to every other
member, and pieces already here are added; else the opening waits (R292). -/
def State.openSlab (s : State) (c g id : Nat) : State :=
  match (s.ctx c).coll g id, (s.ctx c).group g with
  | some k, some grp =>
    let me := grp.indexOf s.board.pkgId
    match (k.info.ownSlabs grp me)[k.nextSlab]? with
    | none => s
    | some i =>
      let bay : Option (Nat × State) := match k.spareBays with
        | b :: r => some (b, s.onColl c g id (fun k => { k with spareBays := r }))
        | [] => s.takeBayFor c k
      let full : Option (Nat × Nat × State) := bay.bind (fun x =>
        if !k.info.fixed ∨ grp.count ≤ 1 then some (x.1, 0, x.2)
        else
          match k.spareStaging with
          | h :: r => some (x.1, h, x.2.onColl c g id (fun k => { k with spareStaging := r }))
          | [] =>
            match x.2.khanAlloc c 1 0 0xA (k.info.stageBytes grp.count) with
            | (some (h, _), t) => some (x.1, h, t)
            | (none, _) => none)
      match full with
      | none =>
        if bay.isSome then s.onColl c g id (fun k => { k with bayWait := none })
        else (s.onColl c g id (fun k => { k with bayWait := some (k.bayWait.getD s.now) })).bumpCtx c .collBayWaits
          (b2n k.bayWait.isNone)
      | some (b, h, t) =>
        let z := k.info.slabAt grp.count i
        let t1 := t.onColl c g id (fun k => { k with
          nextSlab := k.nextSlab + 1, bayWait := none
          open_ := k.open_ ++ [⟨i, b, h, List.replicate z.2.2 0#32, [], []⟩] })
        let t2 := (grp.members.filter (fun p => p != s.board.pkgId)).foldl (fun u p => u.sendCtl c p g id i me 4 0) t1
        addReady c g id i (grp.count + 1) t2
  | _, _ => s

/-- A slab to which every piece has been added is converted, written where its result goes, and sent by `ALL_REDUCE`; its staging
and, of the two bays that admission guarantees, its bay pass to the next slab; any other bay is released (R292, R294). -/
def State.finishSlab (s : State) (c g id i : Nat) : State :=
  match (s.ctx c).coll g id, (s.ctx c).group g with
  | some k, some grp =>
    match k.slab i with
    | none => s
    | some b =>
      if b.added.length < grp.count then s
      else
        let me := grp.indexOf s.board.pkgId
        let z := k.info.slabAt grp.count i
        let data := elemsTo k.info.outFmt b.acc
        let s1 := s.putElems c k.info.outH k.info.outFmt (k.info.outCount grp s.board.pkgId)
          (if k.info.op = 2 then z.2.1 else z.1) z.2.2 data
        let s2 := if k.info.op = 1 then (grp.members.filter (fun p => p != s.board.pkgId)).foldl (fun t p =>
          t.sendElems c p 0x11 g id i me data) s1 else s1
        let own := decide (k.spareBays.length + k.open_.length ≤ 2)
        let s3 := (if own then s2 else s2.returnBay b.bay).onColl c g id (fun k => { k with
          open_ := k.open_.filter (fun x => x.index != i), slabsDone := k.slabsDone + 1, written := k.written ++ [i]
          spareBays := if own then k.spareBays ++ [b.bay] else k.spareBays
          spareStaging := if b.staging = 0 then k.spareStaging else k.spareStaging ++ [b.staging] })
        let s4 := if k.nextSlab < (k.info.ownSlabs grp me).length then s3.openSlab c g id else s3.releaseSpare c g id
        s4.checkColl c g id
  | _, _ => s

/-- Finishes every open slab that is complete; one that opens in its place may be complete at once (a group of one). -/
def finishSlabs (c g id : Nat) : Nat → State → State
  | 0, s => s
  | n + 1, s =>
    match (s.ctx c).coll g id, (s.ctx c).group g with
    | some k, some grp =>
      match k.open_.find? (fun b => decide (grp.count ≤ b.added.length)) with
      | some b => finishSlabs c g id n (s.finishSlab c g id b.index)
      | none => s
    | _, _ => s

/-- `COLL_SLAB_OPEN` (R292): the owner opens its next slab and sends grants. -/
def collSlabOpen (c g id : Nat) (s : State) : State :=
  match (s.ctx c).coll g id with
  | some k => if k.running then finishSlabs c g id (65537 - k.slabsDone) (s.openSlab c g id) else s
  | none => s

def execCollSlabOpen (c group id : Nat) (s : State) : Host.Outcome State Fault Refusal :=
  .next (collSlabOpen c group id s)

/-! ### `GATHER_PRODUCT` (R295) -/

/-- Output row of an input row: one chain of MMAs over `K_DIM` for each column (R40). -/
def State.productRow (s : State) (r : CollRec) (x : List Nat) : Row :=
  let a := (s.slotOf r.wH).base
  let w := Num.codeBits r.wFmt
  (List.range r.nDim).map (fun n => (List.range (r.kDim / 32)).foldl (fun acc b =>
    Num.mmaRun acc ((List.range 32).map (fun i =>
      let k := 32 * b + i
      let p := Config.productPlace r.kDim r.nDim k n
      (Num.elemVal r.wFmt (s.numAt (a + p * w / 8) (w / 8)), Num.elemVal r.inFmt (x.getD k 0)))) none none) 0#32)

/-- Consumes member j's piece: its output rows are written (R295). -/
def State.consumePiece (s : State) (c : Nat) (r : CollRec) (m j : Nat) (data : List Byte) : State :=
  let w := Num.codeBits r.inFmt / 8
  let stoch := ((s.ctx c).model.map (·.stoch)).getD false
  (List.range r.count).foldl (fun t i =>
    let x := (List.range r.kDim).map (fun k => ofLE ((data.drop ((i * r.kDim + k) * w)).take w))
    t.putElems c r.outH r.outFmt (m * r.count * r.nDim) ((j * r.count + i) * r.nDim) r.nDim
      (rowPlanes r.outFmt (if stoch then some t.looseBits else none) (t.productRow r x))) s |>.ownStrings c true false

/-! ### GO (R290, R291, R295) -/

/-- Own piece of a gathering operation: it goes to the other members and into the own output. -/
def State.gatherOwn (s : State) (c g id : Nat) : State :=
  match (s.ctx c).coll g id, (s.ctx c).group g with
  | some k, some grp =>
    let me := s.board.pkgId
    let i := grp.indexOf me
    let r := k.info
    if k.info.reduces ∨ r.inCount me = 0 then s
    else
      let n := elemBytes r.inFmt (r.inCount me)
      let z := s.readInput c r.inH 0 n
      if z.1 then z.2.2.endColl c g id 4
      else
        let s1 := (grp.members.filter (fun p => p != me)).foldl (fun t p => t.sendElems c p 0x10 g id 0 i z.2.1) z.2.2
        let s2 := if r.op = 6 then s1.consumePiece c r grp.count i z.2.1
          else s1.putElems c r.outH r.outFmt (r.outCount grp me) (if r.op = 3 then i * r.count else 0) r.count z.2.1
        s2.onColl c g id (fun k => { k with written := k.written ++ [i] })
  | _, _ => s

/-- A member receives GO: it answers its launch and begins; owners open their first two slabs (R290, R292). -/
def State.startColl (s : State) (c g id : Nat) : State :=
  match (s.ctx c).coll g id with
  | none => s
  | some k =>
    if k.running then s
    else
      let s1 := (s.onColl c g id (fun k => { k with running := true, decided := true })).answerLaunch c g id .ok
      let s2 := ((s1.gatherOwn c g id).openSlab c g id).openSlab c g id
      (finishSlabs c g id 65537 s2).checkColl c g id

/-- `COLL_GO_RECEIVE` (R290): hardware takes GO where Wayfinder runs. -/
def collGo (c g id : Nat) (s : State) : State :=
  if (s.fw fwWayfinder).st ≠ .running then s
  else
    match (s.ctx c).coll g id with
    | some _ => s.startColl c g id
    | none => s.staleColl c g id

def execCollGoReceive (c group id : Nat) (s : State) : Host.Outcome State Fault Refusal := .next (collGo c group id s)

/-! ### Joins and aborts (R290, R296) -/

/-- An abort reaches a member: a launch that has not begun is answered and releases what it held; one begun, or killed, completes
CANCELLED. -/
def State.abortColl (s : State) (c g id : Nat) (status : Nat) : State :=
  match (s.ctx c).coll g id with
  | none => s.staleColl c g id
  | some k =>
    if k.running ∨ status = Status.cancelled.code then s.endColl c g id 3
    else s.dropColl c g id (if status = Status.busy.code then .busy else if status = Status.format.code then .format else .timeout)

/-- The leader decides once every member has joined: GO, or an abort with `ST_BUSY` or `ST_FORMAT`. -/
def State.decideColl (s : State) (c g id : Nat) : State :=
  match (s.ctx c).coll g id, (s.ctx c).group g with
  | some k, some grp =>
    let me := s.board.pkgId
    let others := grp.members.filter (fun p => p != me)
    if k.decided ∨ grp.indexOf me ≠ 0 ∨ k.joins.length < grp.count then s
    else
      let granted := k.joins.all (fun j => j.2.1)
      let s1 := s.onColl c g id (fun k => { k with decided := true })
      if granted ∧ k.joins.all (fun j => j.2.2 == k.crc) then
        (others.foldl (fun t p => t.sendCtl c p g id 0 0 2 0) s1).startColl c g id
      else
        let st : Status := if granted then .format else .busy
        (others.foldl (fun t p => t.sendCtl c p g id 0 0 3 st.code) s1).abortColl c g id st.code
  | _, _ => s

/-- The leader takes a join; one that comes before its own launch is kept for it. -/
def State.takeJoin (s : State) (c g id idx : Nat) (ok : Bool) (crc : Nat) : State :=
  match (s.ctx c).coll g id, (s.ctx c).group g with
  | some k, some _ =>
    if k.joins.any (fun j => j.1 == idx) then s
    else (s.onColl c g id (fun k => { k with joins := k.joins ++ [(idx, ok, crc)] })).decideColl c g id
  | none, some grp =>
    if grp.finished.any (fun e => e.1 == id) then s.bumpCtx c .collStale 1
    else s.onCtx c (fun x => { x with groups := x.groups.map (fun y =>
      if y.id = g then { y with early := y.early.filter (fun e => !(e.1 == id && e.2.1 == idx)) ++ [(id, idx, ok, crc)] }
      else y) })
  | _, none => s

/-- `COLL_JOIN_RECEIVE` (R290): joins wait while Wayfinder does not run (Table 16-9). -/
def collJoin (c g id idx : Nat) (ok : Bool) (crc : Nat) (s : State) : State :=
  if (s.fw fwWayfinder).st ≠ .running then s else s.takeJoin c g id idx ok crc

def execCollJoinReceive (c group id index : Nat) (granted : Bool) (crc : Nat) (s : State) :
    Host.Outcome State Fault Refusal := .next (collJoin c group id index granted crc s)

/-- `COLL_ABORT_RECEIVE` (R290, R296). -/
def execCollAbortReceive (c group id status : Nat) (s : State) : Host.Outcome State Fault Refusal :=
  .next (s.abortColl c group id status)

/-- `COLL_JOIN_TIMEOUT` (R290, R309): past `JOIN_TIMEOUT` of the own launch without GO or abort; the leader tells every member. -/
def collJoinTimeout (c g id : Nat) (s : State) : State :=
  match (s.ctx c).coll g id, (s.ctx c).group g with
  | some k, some grp =>
    let me := s.board.pkgId
    if (s.fw fwWayfinder).st ≠ .running ∨ k.running ∨ s.now ≤ k.started + grp.timeoutUs * 1000 then s
    else
      let s1 := if grp.indexOf me = 0 then (grp.members.filter (fun p => p != me)).foldl (fun t p =>
        t.sendCtl c p g id 0 0 3 Status.timeout.code) s else s
      s1.abortColl c g id Status.timeout.code
  | _, _ => s

def execCollJoinTimeout (c group id : Nat) (s : State) : Host.Outcome State Fault Refusal :=
  .next (collJoinTimeout c group id s)

/-! ### Grants, pieces and results (R291 to R295) -/

/-- `COLL_GRANT_RECEIVE`: the member reads its piece of the slab and sends it to the owner. -/
def collGrant (c g id i : Nat) (s : State) : State :=
  match (s.ctx c).coll g id, (s.ctx c).group g with
  | some k, some grp =>
    let me := s.board.pkgId
    let o := k.info.ownerOf grp i
    if !k.info.reduces ∨ k.info.slabs grp.count ≤ i ∨ o = grp.indexOf me ∨ k.sentPieces.contains i then s
    else
      let z := k.info.slabAt grp.count i
      let r := s.readInput c k.info.inH (elemBytes k.info.inFmt z.1) (elemBytes k.info.inFmt z.2.2)
      if r.1 then r.2.2.endColl c g id 4
      else
        let s1 := r.2.2.sendElems c (grp.members.getD o me) 0x10 g id i (grp.indexOf me) r.2.1
        (s1.onColl c g id (fun k => { k with sentPieces := k.sentPieces ++ [i] })).checkColl c g id
  | _, _ => s.staleColl c g id

def execCollGrantReceive (c group id slab : Nat) (s : State) : Host.Outcome State Fault Refusal :=
  .next (collGrant c group id slab s)

/-- A piece of a slab at its owner: added at once in free mode or in its turn, else staged (R293). -/
def State.ownerPiece (s : State) (c g id i idx : Nat) (k : Coll) (grp : CollGroup) (data : List Byte) : State :=
  match k.slab i with
  | none => s
  | some b =>
    if b.added.contains idx ∨ b.staged.any (fun e => e.1 == idx) ∨ grp.count ≤ idx ∨ idx = grp.indexOf s.board.pkgId then s
    else
      let piece := elemsOf k.info.inFmt (k.info.slabAt grp.count i).2.2 data
      let s1 := if !k.info.fixed ∨ idx = b.added.length then s.addPiece c g id i idx k.info.redOp piece
        else (s.onSlab c g id i (fun b => { b with staged := b.staged ++ [(idx, piece)] })).bumpCtx c .collStaged 1
      finishSlabs c g id (65537 - k.slabsDone) (addReady c g id i (grp.count + 1) s1)

/-- A piece that goes straight into the output, or through staging into its output rows (R291, R295). -/
def State.gatherPiece (s : State) (c g id idx : Nat) (k : Coll) (grp : CollGroup) (data : List Byte) : State :=
  let r := k.info
  if k.written.contains idx ∨ grp.count ≤ idx ∨ (r.op = 4 ∧ idx ≠ grp.indexOf r.root) then s
  else
    let me := s.board.pkgId
    let s1 := if r.op = 6 then
        match k.spareStaging with
        | h :: l => (((s.writeAt (s.slotOf h).base data).consumePiece c r grp.count idx data).khanDrop h).onColl c g id
            (fun k => { k with spareStaging := l })
        | [] => s.consumePiece c r grp.count idx data
      else s.putElems c r.outH r.outFmt (r.outCount grp me) (if r.op = 3 then idx * r.count else 0) r.count data
    (s1.onColl c g id (fun k => { k with written := k.written ++ [idx] })).checkColl c g id

/-- `COLL_PIECE_RECEIVE` (R291, R293, R295). -/
def collPiece (c g id i idx : Nat) (data : List Byte) (s : State) : State :=
  match (s.ctx c).coll g id, (s.ctx c).group g with
  | some k, some grp =>
    if k.info.reduces then s.ownerPiece c g id i idx k grp data else s.gatherPiece c g id idx k grp data
  | _, _ => s.staleColl c g id

def execCollPieceReceive (c group id slab index : Nat) (data : List Byte) (s : State) :
    Host.Outcome State Fault Refusal := .next (collPiece c group id slab index data s)

/-- `COLL_RESULT_RECEIVE` (R291, R294): a result of `ALL_REDUCE` goes into the output as the owner converted it. -/
def collResult (c g id i : Nat) (data : List Byte) (s : State) : State :=
  match (s.ctx c).coll g id, (s.ctx c).group g with
  | some k, some grp =>
    let z := k.info.slabAt grp.count i
    if k.info.op ≠ 1 ∨ k.info.slabs grp.count ≤ i ∨ k.written.contains i ∨ k.info.ownerOf grp i = grp.indexOf s.board.pkgId then s
    else
      ((s.putElems c k.info.outH k.info.outFmt k.info.count z.1 z.2.2 data).onColl c g id (fun k => { k with
        written := k.written ++ [i] })).checkColl c g id
  | _, _ => s.staleColl c g id

def execCollResultReceive (c group id slab : Nat) (data : List Byte) (s : State) : Host.Outcome State Fault Refusal :=
  .next (collResult c group id slab data s)

/-! ### Messages -/

/-- `PMP_COLL_GROUP` (R289). -/
def collGroup (c : Nat) (a : List Nat) (_ : Msg) (s : State) : Act :=
  match a with
  | [g, us, mask] =>
    let ms := onesOf 128 mask
    let grp : CollGroup := ⟨g, ms, us, [], []⟩
    checked [(decide (us < 10 ∨ 100000 < us ∨ 0xFFF < g), .bounds), (!ms.contains s.board.pkgId, .unavailable),
      (((s.ctx c).group g).isSome, .busy)] s
      (.ok (s.onCtx c (fun x => { x with groups := x.groups ++ [grp] })) [(.u8, grp.indexOf s.board.pkgId)])
  | _ => .no s .format

def execPmpCollGroup (w : Nat) (s : State) : Host.Outcome State Fault Refusal :=
  .next (commitMsg w 0x0400 (withCtx [.u16, .u32, .r 128] collGroup) s)

/-- Format checks of a record (R26, R290). -/
def CollRec.badFormat (r : CollRec) (x : Nat) (x' : Ctx) : Bool :=
  let m := ((x'.group r.group).map (·.count)).getD 1
  bits x 104 8 != 0 || bits x 229 11 != 0 || bits x 272 48 != 0
  || r.op == 0 || r.op == 7 || decide (2 ≤ r.redOp) || !Num.codeKnown r.inFmt || !Num.codeKnown r.outFmt
  || (r.reduces && decide (3 < r.inFmt ∨ 1 < r.outFmt))
  || ((r.op == 3 || r.op == 4) && r.outFmt != r.inFmt)
  || (if r.op = 6 then
        decide (r.inFmt = 0 ∨ 3 < r.inFmt ∨ r.wFmt = 0 ∨ 3 < r.wFmt) || !Num.pairOk r.wFmt r.inFmt
        || r.kDim == 0 || r.kDim % 32 != 0 || r.nDim == 0
      else r.wH != 0 || r.wFmt != 0)
  || (r.op == 2 && r.count % Nat.max 1 m != 0)
  || (x'.coll r.group r.collId).isSome

/-- Buffers of a record that are named or used, with the bytes that the operation implies (R258, R290). -/
def CollRec.buffers (r : CollRec) (g : CollGroup) (pkg : Nat) : List (Nat × Nat) :=
  [(r.inH, elemBytes r.inFmt (r.inCount pkg)), (r.outH, elemBytes r.outFmt (r.outCount g pkg)),
   (r.wH, if r.op = 6 then elemBytes r.wFmt (r.kDim * r.nDim) else 0)].filter (fun e => e.2 != 0 || e.1 != 0)

/-- Output bytes overlap input bytes, and the two are not one buffer of formats of equal width. -/
def State.collOverlap (s : State) (r : CollRec) (g : CollGroup) : Bool :=
  let me := s.board.pkgId
  let a := (s.slotOf r.inH).base
  let b := (s.slotOf r.outH).base
  let n := elemBytes r.inFmt (r.inCount me)
  let m := elemBytes r.outFmt (r.outCount g me)
  decide (a < b + m ∧ b < a + n) && !(r.inH == r.outH && Num.codeBits r.inFmt == Num.codeBits r.outFmt)

/-- Admission (R292): two bays for a member that owns slabs; the outcome, the bays held, and the state. -/
def State.admitColl (s : State) (r : CollRec) (g : CollGroup) : Bool × List Nat × State :=
  if (r.ownSlabs g (g.indexOf s.board.pkgId)).isEmpty then (true, [], s)
  else
    match s.takeBay with
    | none => (false, [], s)
    | some (a, t) =>
      match t.takeBay with
      | none => (false, [], s)
      | some (b, u) => (true, [a, b], u)

/-- Sends this member's join to the leader, or takes it where this package leads (R290). -/
def State.sendJoin (s : State) (c : Nat) (r : CollRec) (g : CollGroup) (ok : Bool) (crc : Nat) : State :=
  let me := s.board.pkgId
  let i := g.indexOf me
  if i = 0 then s.takeJoin c r.group r.collId 0 ok crc
  else s.sendMsg (g.members.getD 0 me) 0x12 c [r.group, r.collId, 0, i, 1, 0, b2n ok, crc]
    (toLE 16 (collPrefix r.group r.collId 0 i 1 0) ++ Config.bodyCode 0x12 [b2n ok, crc])

/-- Joins that came early are taken over by the leader's own launch. -/
def State.takeEarly (s : State) (c : Nat) (r : CollRec) (g : CollGroup) : State :=
  let s1 := s.onCtx c (fun x => { x with groups := x.groups.map (fun y =>
    if y.id = r.group then { y with early := y.early.filter (fun e => e.1 != r.collId) } else y) })
  (g.early.filter (fun e => e.1 == r.collId)).foldl (fun t e => t.takeJoin c r.group r.collId e.2.1 e.2.2.1 e.2.2.2) s1

/-- A launch that passed its checks: admission, then the join; its message waits for GO or an abort.  The message is put into
its waiting phase first, so that a leader of a group of one can answer it at once. -/
def State.launchColl (s : State) (c : Nat) (r : CollRec) (g : CollGroup) (stage : List Nat) (crc : Nat) : State :=
  let a := s.admitColl r g
  let k : Coll := ⟨r, false, s.now, crc, [], false, a.2.1, stage, [], 0, 0, [], none, [], []⟩
  let s1 := a.2.2.onCtx c (fun x => { x with colls := x.colls ++ [k] })
  (s1.sendJoin c r g a.1 crc).takeEarly c r g

/-- `PMP_COLL_LAUNCH` (R290). -/
def collLaunch (m : Msg) (s : State) : State :=
  match readRequest [.r 320] m.payload with
  | some [x] =>
    let r := CollRec.read x
    let c := r.ctx
    let me := s.board.pkgId
    let grp := ((s.ctx c).group r.group).getD ⟨r.group, [me], 0, [], []⟩
    let bufs := r.buffers grp me
    let i := grp.indexOf me
    let need := r.staging grp i
    let stage := takeStaging c need.2 need.1 s
    let full := decide (256 ≤ sumN (s.ctxs.map (fun x => x.colls.length)))
    let say (st : Status) (t : State) : State := t.complete m fwWayfinder st []
    match firstBad ([(r.badFormat x (s.ctx c), Status.format)]
      ++ [(bufs.any (fun e => s.handleBad c e.1 == some .format), .format)]
      ++ s.ctxChecks m c
      ++ [(bufs.any (fun e => s.handleBad c e.1 == some .denied), .denied),
          (s.collOverlap r grp && ((s.ctx c).group r.group).isSome, .format),
          (((s.ctx c).group r.group).isNone, .unavailable),
          ((r.op == 4 || r.op == 5) && !grp.members.contains r.root, .bounds),
          (bufs.any (fun e => (s.bufBad c e.1 e.2).isSome), .bounds)]) with
    | some st => say st s
    | none =>
      if r.count = 0 then
        let s1 := (((say .ok s).bumpCtx c .collLaunched 1).bumpCtx c .collDone 1).onCtx c (fun y => { y with
          groups := y.groups.map (fun z => if z.id = r.group then { z with finished := ((r.collId, 2) :: z.finished).take 256 }
            else z) })
        if r.tallyEn then (s1.arrive r.tally me 2 none).1 else s1
      else
        match stage.1 with
        | none => say .noMemory stage.2
        | some l =>
          if full then (say .busy s).bumpCtx c .collBusy 1
          else (stage.2.setPhase m .joinWait).launchColl c r grp l (recordCrc x)
  | _ => s.complete m fwWayfinder .format []

/-- The oldest message of Wayfinder is a launch: it is taken, or completes `ST_FAULTED` in STOPPED_C3 (R383). -/
def takeLaunch (w : Nat) (s : State) : State :=
  match s.oldest w 0x0401 with
  | none => s
  | some m =>
    if (s.fw fwWayfinder).st ≠ .running then s
    else if s.stopFault 0x0401 then s.complete m fwWayfinder .faulted []
    else collLaunch m s

def execPmpCollLaunch (w : Nat) (s : State) : Host.Outcome State Fault Refusal := .next (takeLaunch w s)

/-- `PMP_COLL_STATUS` (R296): 1 while it is in flight. -/
def collStatus (c : Nat) (a : List Nat) (_ : Msg) (s : State) : Act :=
  match a with
  | [g, id] =>
    if ((s.ctx c).coll g id).isSome then .ok s [(.u8, 1)]
    else
      match ((s.ctx c).group g).bind (fun y => y.finished.find? (fun e => e.1 == id)) with
      | some e => .ok s [(.u8, e.2)]
      | none => .no s .bounds
  | _ => .no s .format

def execPmpCollStatus (w : Nat) (s : State) : Host.Outcome State Fault Refusal :=
  .next (commitMsg w 0x0402 (withCtx [.u16, .u32] collStatus) s)

/-- `PMP_COLL_KILL` (R296). -/
def collKill (c : Nat) (a : List Nat) (_ : Msg) (s : State) : Act :=
  match a with
  | [g, id] =>
    if ((s.ctx c).coll g id).isSome then .ok (s.killColl c g id) []
    else if (((s.ctx c).group g).map (fun y => y.finished.any (fun e => e.1 == id))).getD false then .no s .cancelled
    else .no s .bounds
  | _ => .no s .format

def execPmpCollKill (w : Nat) (s : State) : Host.Outcome State Fault Refusal :=
  .next (commitMsg w 0x0403 (withCtx [.u16, .u32] collKill) s)

/-- `PMP_COLL_GROUP_DELETE` (Table 17-7). -/
def collGroupDelete (c : Nat) (a : List Nat) (_ : Msg) (s : State) : Act :=
  match a with
  | [g] =>
    checked [(((s.ctx c).group g).isNone, .unavailable), ((s.ctx c).colls.any (fun k => k.info.group == g), .busy)] s
      (.ok (s.onCtx c (fun x => { x with groups := x.groups.filter (fun y => y.id != g) })) [])
  | _ => .no s .format

def execPmpCollGroupDelete (w : Nat) (s : State) : Host.Outcome State Fault Refusal :=
  .next (commitMsg w 0x0405 (withCtx [.u16] collGroupDelete) s)

/-! ### Bays (R24, R137) -/

/-- `BAY_FREE`: waiting combine claims get their bays, oldest first, before the oldest waiting collective (R24, R137). -/
def bayFree (s : State) : State :=
  let t := serveClaims s.waitingClaims.length s
  match t.waitingColl with
  | some (_, c, g, id) => collSlabOpen c g id t
  | none => t

def execBayFree (s : State) : Host.Outcome State Fault Refusal := .next (bayFree s)

end Sys2Proof.Machine
end

