-- ==== Sys2Proof/Machine/Depart.lean ====
section
/-! DEFINITION. Departures (13 R288) and their effects (07 R157, R159, R161, R166, R167; 11 R234, R238; 13 R296; 14 R304). -/

namespace Sys2Proof.Machine

/-! ### What a departure does to the fabric -/

/-- A whole chunk in a port's queue that comes from a package or goes to it. -/
def TxChunk.about (k : TxChunk) (pkg : Nat) : Bool :=
  let h := ofLE (k.bytes.take 2)
  k.whole && (bits h 0 7 == pkg || bits h 7 7 == pkg)

/-- Pending chunks to and from a package are discarded and their credits freed. -/
def State.dropChunks (s : State) (pkg : Nat) : State :=
  let gone := s.fab.ports.flatMap (fun x => x.tx.flatten.filter (fun k => k.about pkg))
  let s1 := { s with fab := { s.fab with
    ports := s.fab.ports.map (fun (x : Port) => { x with tx := x.tx.map (fun l => l.filter (fun k => !k.about pkg)) })
    outs := s.fab.outs.drop (fun k _ => k / 8 == pkg), ins := s.fab.ins.drop (fun k _ => k / 8 == pkg)
    silent := s.fab.silent.del pkg, entries := s.fab.entries.filter (fun e => e.1 != pkg)
    present := s.fab.present.filter (fun p => p != pkg), departed := s.fab.departed ++ [pkg] } }
  gone.foldl (fun t k => t.giveBack k.back) s1

/-- Nothing waits any longer for an acknowledgement of a package. -/
def forgetMarks (pkg : Nat) (l : List (Nat × Nat)) : List (Nat × Nat) := l.filter (fun e => e.1 / 8 != pkg)

/-- The same for every string and collective. -/
def State.forgetSends (s : State) (pkg : Nat) : State :=
  { s with ctxs := s.ctxs.map (fun (x : Ctx) => { x with
    colls := x.colls.map (fun (k : Coll) => { k with sends := forgetMarks pkg k.sends })
    lanes := { x.lanes with launches := x.lanes.launches.map (fun (l : Launch) => { l with
      strs := l.strs.map (fun (g : Str) => { g with sent := forgetMarks pkg g.sent }) }) } }) }

/-! ### What it does to a context -/

/-- Columns that lay in a departed lender's lots are lost: their sequences are cancelled, marked degraded, and prefix nodes on
them go; `KV_LOST` is logged once (R238). -/
def State.loseCols (s : State) (pkg c : Nat) : State :=
  let x := s.ctx c
  let lost := (x.kv.cols.filter (fun e => match e.2.far with
    | some (.lot a _) => a == pkg
    | _ => false)).map (fun e => e.1)
  let s0 := s.onCtx c (fun y => { y with kv := { y.kv with lots := y.kv.lots.filter (fun l => l.lender != pkg) } })
  if lost.isEmpty then s0
  else
    let qs := (lost.flatMap (fun n => s.holders c n)).eraseDups
    let live := qs.filter (fun q => (s.seq q).st != .free && (s.seq q).st != .leaving)
    let s1 := live.foldl (fun t q => t.cancelSeq c q (fCancelled ||| fDegraded)) s0
    let nodes := x.kv.tree.filter (fun n => lost.contains n.col)
    let s2 := s1.onCtx c (fun y => nodes.foldl (fun z n => z.unref n.col)
      { y with kv := { y.kv with tree := y.kv.tree.filter (fun n => !lost.contains n.col) } })
    s2.raise 0x809 0x23 0 c 3 pkg

/-- One expert's source or mirror copy lay on the departed package: it counts as an uncorrectable read of that copy (R166, R167,
R238). -/
def State.loseSource (s : State) (pkg o : Nat) (e : Nat × Source) : State :=
  let l := e.1 / 65536
  let x := e.1 % 65536
  let on (p : Nat) : Bool := p == pkg
  let mirrorGone := (e.2.mirror.map (fun m => on m.1)).getD false
  let mirrored := e.2.mirror.isSome && !mirrorGone && ((s.ctx o).route.active.expert l x).mirrored
  let rebuild (t : State) : State := (t.guideAll o (.mirrored l x false)).rebuildMirror o l x
  if on e.2.pkg then
    let s1 := s.bumpCtx o .weightUe 1
    if mirrored then
      rebuild ((s1.onSource o l x Source.promote).raise 0x80A 0x21 0 o 3 (layerExpert l x))
    else
      let s2 := s1.onSource o l x (fun q => { q with bad := true, mirror := none })
      if (s.ctx o).resid.frames.any (fun f => f.layer == l && f.expert == x && f.st == 2) then s2 else s2.unreadable o l x 0
  else if mirrorGone then
    rebuild ((s.bumpCtx o .weightUe 1).onSource o l x (fun q => { q with mirror := none }))
  else s

/-- Strings of a context that wait for data of the package read poisoned data (R234, R288). -/
def State.poisonWaits (s : State) (pkg c : Nat) : State :=
  let hit := (s.ctx c).lanes.launches.flatMap (fun l => (l.strs.zipIdx).filterMap (fun g => match g.1.wait with
    | .mem _ lanes => (lanes.find? (fun e => e.2 == pkg)).map (fun e => (l.id, g.2, e.1))
    | _ => none))
  hit.foldl (fun t h =>
    match ((t.ctx c).launch h.1).bind (fun l => l.strs[h.2.1]?), t.loadWord c h.1 h.2.1 with
    | some g, some w => t.loadUe c h.1 h.2.1 (g.address w h.2.2)
    | _, _ => t) s

/-- Collectives of a context with the package as a member end FAULTED (R296). -/
def State.faultColls (s : State) (pkg c : Nat) : State :=
  (s.ctx c).colls.foldl (fun t k =>
    match (t.ctx c).group k.info.group with
    | some g => if g.members.contains pkg then t.endColl c k.info.group k.info.collId 4 else t
    | none => t) s

/-- One context without the package: its replicas and sources there, its lots, its removals, its strings and collectives; a frozen
layout is computed again (R157, R159, R161). -/
def State.ctxDepart (s : State) (pkg c : Nat) : State :=
  if (s.ctx c).st ≠ .active then
    s.onResid c (fun r => { r with resident := r.resident.filter (fun p => p != pkg) })
  else
    let s1 := (s.guideChange c (.dropPkg pkg)).onResid c (fun r => { r with
      reports := r.reports.drop (fun k _ => k / 2 ^ 25 == pkg) })
    let s3 := (s1.onRx c (fun r => { r with areas := r.areas.del pkg })).leaveHome c pkg
    let s4 := if s3.imgOwner c = c then (s3.ctx c).resid.sources.foldl (fun t e => t.loseSource pkg c e) s3 else s3
    let s5 := ((s4.loseCols pkg c).poisonWaits pkg c).faultColls pkg c
    (if s5.frozen c then s5.planReplicas c true else s5).retryHints c

/-! ### The package -/

/-- Time master and aligning peer after a departure: the present package with the lowest ID becomes master (R304). -/
def State.masterDepart (s : State) (pkg : Nat) : State :=
  if !s.boot.fabricDone then s
  else if s.tb.master = pkg then
    let m := (minBy id (s.board.pkgId :: s.fab.present)).getD s.board.pkgId
    (({ s with tb := { s.tb with master := m } }).bumpTb .masterChanges 1).realign
  else if s.tb.peer = pkg then s.realign
  else s

/-- A package departs (R288): every effect on this one. -/
def State.depart (s : State) (pkg : Nat) : State :=
  let s1 := ((s.dropChunks pkg).forgetSends pkg).bump .departures 1
  let freed := s1.lend.lots.any (fun l => l.borrower == pkg)
  let s2 := { s1 with lend := { s1.lend with lots := s1.lend.lots.filter (fun l => l.borrower != pkg) } }
  let t2 := if freed then s2.wakeLotWait else s2
  let s3 := { t2 with fab := { t2.fab with heldRx := t2.fab.heldRx.filter (fun h => h.src != pkg) } }
  ((List.range 16).foldl (fun t c => t.ctxDepart pkg c) s3).masterDepart pkg |>.settleDying.checkColls

/-- `DEPARTURE_RECEIVE`: a package that is present departs; this one's own departure is no news to it. -/
def departureReceive (pkg : Nat) (s : State) : State :=
  if (s.fw fwWayfinder).st = .running ∧ s.fab.present.contains pkg ∧ pkg ≠ s.board.pkgId then s.depart pkg else s

def execDepartureReceive (pkg : Nat) (s : State) : Host.Outcome State Fault Refusal := .next (departureReceive pkg s)

/-- Every port of this package to another has been down for 10 ms. -/
def State.portsDark (s : State) (pkg : Nat) : Bool :=
  s.fab.ports.all (fun x => x.peer != pkg || x.st == .off || (!x.up && decide (x.downAt + 10000000 < s.now)))

/-- Every port to a package, and every detour, has been down for 10 ms (R288). -/
def State.routeDark (s : State) (pkg : Nat) : Bool :=
  s.portsDark pkg && (s.others.filter (fun v => v != pkg)).all (fun v => s.portsDark v || Config.peerDark v pkg s.now)

/-- `DEPARTURE_TIMEOUT` (R288, R309): 10 ms with chunks pending and no acknowledgement, or without a route. -/
def departureTimeout (pkg : Nat) (s : State) : State :=
  let silent := s.pendingTo pkg && decide ((s.fab.silent.getD pkg s.now) + 10000000 < s.now)
  if (s.fw fwWayfinder).st ≠ .running ∨ !s.others.contains pkg ∨ !(silent || s.routeDark pkg) then s
  else
    let s1 := (s.others.filter (fun p => p != pkg)).foldl (fun t p => t.sendOpen p 0x32 0 [pkg] []) s
    (s1.raise 0x743 0x34 0 0 3 pkg).depart pkg

def execDepartureTimeout (pkg : Nat) (s : State) : Host.Outcome State Fault Refusal := .next (departureTimeout pkg s)

end Sys2Proof.Machine
end

