-- ==== Sys2Proof/Machine/Host.lean ====
section
/-! DEFINITION. What the host does on PCIe: BAR0 writes and the reads that change state, the BAR2 aperture, power
state (16 R337, R338; 19 R412, R413). -/

namespace Sys2Proof.Machine

/-- `MAILBOX_SUBMIT`: a write of `WIN_CTRL` with `SUBMIT` 1 (R338).  While `OWNER` is 1 it is ignored and counted. -/
def submit (w : Nat) (irqEn : Bool) (s : State) : State :=
  if !s.barOn || decide (w ≥ 256) then s
  else
    let s1 := s.onWin w (fun x => { x with irqEn := irqEn })
    if !s.booted then s1
    else if (s1.win w).owner then s1.bump .winIgnored 1
    else s1.takeRequest w 0 ((List.range 4096).map (fun i => Tbl.getD (s1.win w).req i 0))

def execMailboxSubmit (w : Nat) (irqEn : Bool) (s : State) : Host.Outcome State Fault Refusal :=
  .next (submit w irqEn s)

/-- `DONE_CLEAR`: a write of `WIN_CTRL` with the W1C bit `DONE` 1 and `SUBMIT` 0. -/
def doneClear (w : Nat) (irqEn : Bool) (s : State) : State :=
  if !s.barOn || decide (w ≥ 256) then s
  else s.onWin w (fun x => { x with done := false, irqEn := irqEn })

def execDoneClear (w : Nat) (irqEn : Bool) (s : State) : Host.Outcome State Fault Refusal :=
  .next (doneClear w irqEn s)

/-- `IRQ_PEND_CLEAR`: a write of `FAULT_STATUS` with the W1C bit `IRQ_PEND` 1; `IRQ_CLASS` is written too. -/
def irqPendClear (irqClass : Nat) (s : State) : State :=
  if !s.barOn then s
  else { s with flt := { s.flt with irqPend := false, irqClass := irqClass % 8 } }

def execIrqPendClear (irqClass : Nat) (s : State) : Host.Outcome State Fault Refusal :=
  .next (irqPendClear irqClass s)

/-- `PEAK_W_READ`: the read returns `POWER_STATUS` and clears `PEAK_W` in one act (R395). -/
def peakRead (s : State) : State :=
  if !s.powered || !s.board.perstN then s
  else if s.host.d3hot then s.emit .unsupported
  else { s.emit (.completion s.powerStatus) with hlt := { s.hlt with peak := 0 } }

def execPeakWRead (s : State) : Host.Outcome State Fault Refusal := .next (peakRead s)

/-- A write to one byte of a request buffer. -/
def reqWrite (req : List (Nat × Byte)) (o : Nat) : List Byte → List (Nat × Byte)
  | [] => req
  | b :: r => reqWrite (Tbl.setD req 0 o b) (o + 1) r

/-- A kind-7 write that has no row of its own: RW fields take their bits, everything else is ignored (R337). -/
def regWrite (off size value : Nat) (s : State) : State :=
  if off = 0x40 then
    { s with flt := { s.flt with irqClass := bits value 16 3 } }
  else if 0x100000 ≤ off ∧ off < 0x500000 then
    let w := (off - 0x100000) / 0x4000
    let o := off % 0x4000
    if o < 0x1000 then
      if (s.win w).owner then s.bump .winIgnored 1
      else s.onWin w (fun x => { x with req := reqWrite x.req o (toLE size value) })
    else if o = 0x2000 then s.onWin w (fun x => { x with irqEn := bit value 1 })
    else s
  else s

/-- `REGISTER_WRITE`: only naturally aligned accesses of 4 or 8 bytes are taken (R337). -/
def registerWrite (off size value : Nat) (s : State) : State :=
  if !s.powered || !s.board.perstN then s
  else if s.host.d3hot then s
  else if !regAccessOk off size then s.emit .unsupported
  else regWrite off size value s

def execRegisterWrite (off size value : Nat) (s : State) : Host.Outcome State Fault Refusal :=
  .next (registerWrite off size value s)

/-- Where an aperture access of n bytes lands, when one of the four regions of R412 holds it.  The 8 GiB of firmware
reserve are the last of kind 1 (DESIGN CHOICE). -/
def State.aperture (s : State) (off n : Nat) : Option Nat :=
  let sel := bits off 40 2
  let o := off % 2 ^ 40
  if sel = 0 then
    if s.boot.stage == .recovery then
      if 0x30000000 ≤ o ∧ o + n ≤ 0x48000000 then some (addr 0 o) else none
    else if 0x10000000 ≤ o ∧ o + n ≤ 0x48000000 then some (addr 0 o) else none
  else if s.boot.stage == .recovery then none
  else if sel = 1 then
    if o + n ≤ 96 * gib - 8 * gib ∧ !s.inLent (addr 1 o) n then some (addr 1 o) else none
  else if sel = 2 then
    let d := bits o 38 2
    let b := o % 2 ^ 38
    if b + n ≤ s.dieLimit d ∧ !s.inLent (addr 2 (d * 2 ^ 52 + b)) n then some (addr 2 (d * 2 ^ 52 + b)) else none
  else none

/-- `HOST_APERTURE_ACCESS` (R412): a write carries its data, a read completes with its bytes, poisoned when the tier
read met an uncorrectable error. -/
def apertureAccess (off len : Nat) (data : Option (List Byte)) (poisoned : Bool) (s : State) : State :=
  if !s.powered || !s.board.perstN then s
  else
    match data with
    | some bs =>
      if s.host.d3hot then s
      else
        match s.aperture off bs.length with
        | some a => s.writeAt a bs
        | none => s
    | none =>
      if s.host.d3hot then s.emit .unsupported
      else
        match s.aperture off len with
        | some a =>
          let p := s.takePoison a len
          p.2.emit (if poisoned || p.1 then .poisoned else .data (s.bytesAt a len))
        | none => s.emit .unsupported

def execHostApertureAccess (off len : Nat) (data : Option (List Byte)) (poisoned : Bool) (s : State) :
    Host.Outcome State Fault Refusal := .next (apertureAccess off len data poisoned s)

/-- `PCIE_POWER_STATE_WRITE`: D0 or D3hot; in D3hot both BARs decode nothing (R412). -/
def powerState (d3hot : Bool) (s : State) : State :=
  if s.powered && s.board.perstN then { s with host := { s.host with d3hot := d3hot } } else s

def execPciePowerStateWrite (d3hot : Bool) (s : State) : Host.Outcome State Fault Refusal :=
  .next (powerState d3hot s)

end Sys2Proof.Machine
end

