-- ==== Sys2Proof/Machine/Dispatch.lean ====
section
/-! DEFINITION. One arm per command: its meaning, or a refusal by name. -/

namespace Sys2Proof.Machine

def exec (i : Instr) (s : State) : Host.Outcome State Fault Refusal :=
  match i with
  | .powerOn straps => Sys2Proof.Machine.execPowerOn straps s
  | .pwrGoodFall => Sys2Proof.Machine.execPwrGoodFall s
  | .perstRelease straps => Sys2Proof.Machine.execPerstRelease straps s
  | .hotReset straps => Sys2Proof.Machine.execHotReset straps s
  | .bundleLoadComplete => Sys2Proof.Machine.execBundleLoadComplete s
  | .recoveryLenWrite len => Sys2Proof.Machine.execRecoveryLenWrite len s
  | .ucieTrainComplete port modules dieBytes => Sys2Proof.Machine.execUcieTrainComplete port modules dieBytes s
  | .hbmTrainComplete stack ok => Sys2Proof.Machine.execHbmTrainComplete stack ok s
  | .cxlTrainComplete port ok bytes => Sys2Proof.Machine.execCxlTrainComplete port ok bytes s
  | .t1CopyComplete => Sys2Proof.Machine.execT1CopyComplete s
  | .portTrainComplete port lanes spare peer => Sys2Proof.Machine.execPortTrainComplete port lanes spare peer s
  | .portSignalDetect port => Sys2Proof.Machine.execPortSignalDetect port s
  | .fabricTrainTimeout => Sys2Proof.Machine.execFabricTrainTimeout s
  | .throttleNChange high => Sys2Proof.Machine.execThrottleNChange high s
  | .mailboxSubmit w irqEn => Sys2Proof.Machine.execMailboxSubmit w irqEn s
  | .doneClear w irqEn => Sys2Proof.Machine.execDoneClear w irqEn s
  | .irqPendClear irqClass => Sys2Proof.Machine.execIrqPendClear irqClass s
  | .peakWRead => Sys2Proof.Machine.execPeakWRead s
  | .registerWrite off size value => Sys2Proof.Machine.execRegisterWrite off size value s
  | .hostApertureAccess off len data poisoned => Sys2Proof.Machine.execHostApertureAccess off len data poisoned s
  | .mctpPacket path src tag seq som eom body => Sys2Proof.Machine.execMctpPacket path src tag seq som eom body s
  | .mctpReassemblyTimeout path => Sys2Proof.Machine.execMctpReassemblyTimeout path s
  | .mctpSetEndpointId path eid => Sys2Proof.Machine.execMctpSetEndpointId path eid s
  | .i3cEntdaa addr => Sys2Proof.Machine.execI3cEntdaa addr s
  | .mctpProtaMessage path => Sys2Proof.Machine.execMctpProtaMessage path s
  | .spdmGetVersion t => Sys2Proof.Machine.execSpdmGetVersion t s
  | .spdmGetCapabilities t version => Sys2Proof.Machine.execSpdmGetCapabilities t version s
  | .spdmNegotiateAlgorithms t base hash => Sys2Proof.Machine.execSpdmNegotiateAlgorithms t base hash s
  | .spdmGetDigests t => Sys2Proof.Machine.execSpdmGetDigests t s
  | .spdmGetCertificate t slot off len => Sys2Proof.Machine.execSpdmGetCertificate t slot off len s
  | .spdmChallenge t slot nonce => Sys2Proof.Machine.execSpdmChallenge t slot nonce s
  | .spdmGetMeasurements t index sign nonce => Sys2Proof.Machine.execSpdmGetMeasurements t index sign nonce s
  | .jtagBypass => Sys2Proof.Machine.execJtagBypass s
  | .jtagIdcode => Sys2Proof.Machine.execJtagIdcode s
  | .jtagSamplePreload pins => Sys2Proof.Machine.execJtagSamplePreload pins s
  | .jtagExtest => Sys2Proof.Machine.execJtagExtest s
  | .jtagClamp => Sys2Proof.Machine.execJtagClamp s
  | .jtagHighz => Sys2Proof.Machine.execJtagHighz s
  | .pmpSessionOpen w => Sys2Proof.Machine.execPmpSessionOpen w s
  | .pmpSessionClose w => Sys2Proof.Machine.execPmpSessionClose w s
  | .pmpWindowConfig w => Sys2Proof.Machine.execPmpWindowConfig w s
  | .pmpFeatures w => Sys2Proof.Machine.execPmpFeatures w s
  | .pmpSeqOpen w => Sys2Proof.Machine.execPmpSeqOpen w s
  | .pmpSeqFeed w => Sys2Proof.Machine.execPmpSeqFeed w s
  | .pmpSeqRetire w => Sys2Proof.Machine.execPmpSeqRetire w s
  | .pmpSeqCancel w => Sys2Proof.Machine.execPmpSeqCancel w s
  | .pmpSeqFork w => Sys2Proof.Machine.execPmpSeqFork w s
  | .pmpSeqQuery w => Sys2Proof.Machine.execPmpSeqQuery w s
  | .pmpSeqSetSampler w => Sys2Proof.Machine.execPmpSeqSetSampler w s
  | .pmpStepConfig w => Sys2Proof.Machine.execPmpStepConfig w s
  | .pmpStepRecords w => Sys2Proof.Machine.execPmpStepRecords w s
  | .pmpModelLoad w => Sys2Proof.Machine.execPmpModelLoad w s
  | .pmpModelImages w => Sys2Proof.Machine.execPmpModelImages w s
  | .pmpRouteConfig w => Sys2Proof.Machine.execPmpRouteConfig w s
  | .pmpRouteBias w => Sys2Proof.Machine.execPmpRouteBias w s
  | .pmpRouteQuery w => Sys2Proof.Machine.execPmpRouteQuery w s
  | .pmpRouteStats w => Sys2Proof.Machine.execPmpRouteStats w s
  | .pmpDispatchConfig w => Sys2Proof.Machine.execPmpDispatchConfig w s
  | .pmpPlanSet w => Sys2Proof.Machine.execPmpPlanSet w s
  | .pmpDispatchStats w => Sys2Proof.Machine.execPmpDispatchStats w s
  | .pmpCombineConfig w => Sys2Proof.Machine.execPmpCombineConfig w s
  | .pmpCombineStats w => Sys2Proof.Machine.execPmpCombineStats w s
  | .pmpReturnTimeout w => Sys2Proof.Machine.execPmpReturnTimeout w s
  | .pmpExpertHint w => Sys2Proof.Machine.execPmpExpertHint w s
  | .pmpResidencyQuery w => Sys2Proof.Machine.execPmpResidencyQuery w s
  | .pmpResidencyPolicy w => Sys2Proof.Machine.execPmpResidencyPolicy w s
  | .pmpExpertReload w => Sys2Proof.Machine.execPmpExpertReload w s
  | .pmpResidencyStats w => Sys2Proof.Machine.execPmpResidencyStats w s
  | .pmpSfnLoad w => Sys2Proof.Machine.execPmpSfnLoad w s
  | .pmpSfnQuery w => Sys2Proof.Machine.execPmpSfnQuery w s
  | .pmpLayoutLoad w => Sys2Proof.Machine.execPmpLayoutLoad w s
  | .pmpLayoutQuery w => Sys2Proof.Machine.execPmpLayoutQuery w s
  | .pmpTierQuery w => Sys2Proof.Machine.execPmpTierQuery w s
  | .pmpMemHint w => Sys2Proof.Machine.execPmpMemHint w s
  | .pmpLendConfig w => Sys2Proof.Machine.execPmpLendConfig w s
  | .pmpTierStats w => Sys2Proof.Machine.execPmpTierStats w s
  | .pmpKhanAlloc w => Sys2Proof.Machine.execPmpKhanAlloc w s
  | .pmpKhanFree w => Sys2Proof.Machine.execPmpKhanFree w s
  | .pmpKhanQuota w => Sys2Proof.Machine.execPmpKhanQuota w s
  | .pmpKhanStats w => Sys2Proof.Machine.execPmpKhanStats w s
  | .pmpWsCreate w => Sys2Proof.Machine.execPmpWsCreate w s
  | .pmpWsDestroy w => Sys2Proof.Machine.execPmpWsDestroy w s
  | .pmpWsQuery w => Sys2Proof.Machine.execPmpWsQuery w s
  | .pmpWsPop w => Sys2Proof.Machine.execPmpWsPop w s
  | .pmpWsRelease w => Sys2Proof.Machine.execPmpWsRelease w s
  | .pmpWsRewind w => Sys2Proof.Machine.execPmpWsRewind w s
  | .pmpWsPush w => Sys2Proof.Machine.execPmpWsPush w s
  | .pmpLayoutRun w => Sys2Proof.Machine.execPmpLayoutRun w s
  | .pmpLayoutStats w => Sys2Proof.Machine.execPmpLayoutStats w s
  | .pmpCollGroup w => Sys2Proof.Machine.execPmpCollGroup w s
  | .pmpCollLaunch w => Sys2Proof.Machine.execPmpCollLaunch w s
  | .pmpCollStatus w => Sys2Proof.Machine.execPmpCollStatus w s
  | .pmpCollKill w => Sys2Proof.Machine.execPmpCollKill w s
  | .pmpCollStats w => Sys2Proof.Machine.execPmpCollStats w s
  | .pmpCollGroupDelete w => Sys2Proof.Machine.execPmpCollGroupDelete w s
  | .pmpPartConfig w => Sys2Proof.Machine.execPmpPartConfig w s
  | .pmpPartQuery w => Sys2Proof.Machine.execPmpPartQuery w s
  | .pmpTollConfig w => Sys2Proof.Machine.execPmpTollConfig w s
  | .pmpTollStats w => Sys2Proof.Machine.execPmpTollStats w s
  | .pmpPartReset w => Sys2Proof.Machine.execPmpPartReset w s
  | .pmpCtxCreate w => Sys2Proof.Machine.execPmpCtxCreate w s
  | .pmpCtxDestroy w => Sys2Proof.Machine.execPmpCtxDestroy w s
  | .pmpCtxQuery w => Sys2Proof.Machine.execPmpCtxQuery w s
  | .pmpStepKill w => Sys2Proof.Machine.execPmpStepKill w s
  | .pmpCtxResume w => Sys2Proof.Machine.execPmpCtxResume w s
  | .pmpTimeQuery w => Sys2Proof.Machine.execPmpTimeQuery w s
  | .pmpDetMode w => Sys2Proof.Machine.execPmpDetMode w s
  | .pmpDetQuery w => Sys2Proof.Machine.execPmpDetQuery w s
  | .pmpKernelLoad w => Sys2Proof.Machine.execPmpKernelLoad w s
  | .pmpKernelLaunch w => Sys2Proof.Machine.execPmpKernelLaunch w s
  | .pmpKernelUnload w => Sys2Proof.Machine.execPmpKernelUnload w s
  | .pmpKernelStatus w => Sys2Proof.Machine.execPmpKernelStatus w s
  | .pmpKernelKill w => Sys2Proof.Machine.execPmpKernelKill w s
  | .pmpArrayStats w => Sys2Proof.Machine.execPmpArrayStats w s
  | .pmpTallyConfig w => Sys2Proof.Machine.execPmpTallyConfig w s
  | .pmpTallyArrive w => Sys2Proof.Machine.execPmpTallyArrive w s
  | .pmpTallyQuery w => Sys2Proof.Machine.execPmpTallyQuery w s
  | .pmpFwStage w => Sys2Proof.Machine.execPmpFwStage w s
  | .pmpFwActivate w => Sys2Proof.Machine.execPmpFwActivate w s
  | .pmpFwWithdraw w => Sys2Proof.Machine.execPmpFwWithdraw w s
  | .pmpFwQuery w => Sys2Proof.Machine.execPmpFwQuery w s
  | .pmpFwpRestart w => Sys2Proof.Machine.execPmpFwpRestart w s
  | .pmpFwpWatchdog w => Sys2Proof.Machine.execPmpFwpWatchdog w s
  | .pmpLogRead w => Sys2Proof.Machine.execPmpLogRead w s
  | .pmpTraceMask w => Sys2Proof.Machine.execPmpTraceMask w s
  | .pmpFaultRead w => Sys2Proof.Machine.execPmpFaultRead w s
  | .pmpFaultWindow w => Sys2Proof.Machine.execPmpFaultWindow w s
  | .pmpHealthQuery w => Sys2Proof.Machine.execPmpHealthQuery w s
  | .pmpArrayQuery w => Sys2Proof.Machine.execPmpArrayQuery w s
  | .pmpLinkQuery w => Sys2Proof.Machine.execPmpLinkQuery w s
  | .pmpQuarterQuery w => Sys2Proof.Machine.execPmpQuarterQuery w s
  | .stepBoundary c => Sys2Proof.Machine.execStepBoundary c s
  | .planPublish c layer => Sys2Proof.Machine.execPlanPublish c layer s
  | .manifestRead die c => Sys2Proof.Machine.execManifestRead die c s
  | .hiddenRowReceive die c epoch layer convoyB slot row => Sys2Proof.Machine.execHiddenRowReceive die c epoch layer convoyB slot row s
  | .residualRowReceive die c epoch layer convoyB slot row => Sys2Proof.Machine.execResidualRowReceive die c epoch layer convoyB slot row s
  | .ucieMemoryAccess die c addr n data => Sys2Proof.Machine.execUcieMemoryAccess die c addr n data s
  | .gateLaunch c layer convoyB => Sys2Proof.Machine.execGateLaunch c layer convoyB s
  | .predictorLaunch c layer convoyB => Sys2Proof.Machine.execPredictorLaunch c layer convoyB s
  | .predictorComplete c layer convoyB => Sys2Proof.Machine.execPredictorComplete c layer convoyB s
  | .tokenSelect c layer convoyB slot => Sys2Proof.Machine.execTokenSelect c layer convoyB slot s
  | .routeSeal c layer convoyB => Sys2Proof.Machine.execRouteSeal c layer convoyB s
  | .stallLimitExpiry c layer convoyB => Sys2Proof.Machine.execStallLimitExpiry c layer convoyB s
  | .sort c layer convoyB => Sys2Proof.Machine.execSort c layer convoyB s
  | .finalSeal c layer convoyB dst index => Sys2Proof.Machine.execFinalSeal c layer convoyB dst index s
  | .subconvoyInject c layer convoyB dst index => Sys2Proof.Machine.execSubconvoyInject c layer convoyB dst index s
  | .subconvoyRelease c layer convoyB dst index => Sys2Proof.Machine.execSubconvoyRelease c layer convoyB dst index s
  | .noteReceive src header entries => Sys2Proof.Machine.execNoteReceive src header entries s
  | .rowReceive src bill data => Sys2Proof.Machine.execRowReceive src bill data s
  | .batchWindowExpiry c layer expert replica => Sys2Proof.Machine.execBatchWindowExpiry c layer expert replica s
  | .answerFromDie die pad bill refusal row => Sys2Proof.Machine.execAnswerFromDie die pad bill refusal row s
  | .retireNoticeReceive src c epoch => Sys2Proof.Machine.execRetireNoticeReceive src c epoch s
  | .incompleteNoteTimeout c note => Sys2Proof.Machine.execIncompleteNoteTimeout c note s
  | .answerReceive src bill row => Sys2Proof.Machine.execAnswerReceive src bill row s
  | .refusalReceive src bill => Sys2Proof.Machine.execRefusalReceive src bill s
  | .bayWaitSpill c layer convoyB group => Sys2Proof.Machine.execBayWaitSpill c layer convoyB group s
  | .bayFree => Sys2Proof.Machine.execBayFree s
  | .fusedPass c layer convoyB slot => Sys2Proof.Machine.execFusedPass c layer convoyB slot s
  | .returnTimeoutExpiry c layer convoyB dst index => Sys2Proof.Machine.execReturnTimeoutExpiry c layer convoyB dst index s
  | .landingBufferFree c epoch layer convoyB => Sys2Proof.Machine.execLandingBufferFree c epoch layer convoyB s
  | .quarantineExpiry c epoch layer convoyB => Sys2Proof.Machine.execQuarantineExpiry c epoch layer convoyB s
  | .logitRowReceive c slot fmt logits => Sys2Proof.Machine.execLogitRowReceive c slot fmt logits s
  | .generationRelease c table => Sys2Proof.Machine.execGenerationRelease c table s
  | .tableReloadTimeout w => Sys2Proof.Machine.execTableReloadTimeout w s
  | .fetchRequest c layer expert replica prio die => Sys2Proof.Machine.execFetchRequest c layer expert replica prio die s
  | .fetchStart c layer expert replica => Sys2Proof.Machine.execFetchStart c layer expert replica s
  | .fetchChunkRead c layer expert replica bad => Sys2Proof.Machine.execFetchChunkRead c layer expert replica bad s
  | .fetchComplete c layer expert replica => Sys2Proof.Machine.execFetchComplete c layer expert replica s
  | .kvEviction c grant => Sys2Proof.Machine.execKvEviction c grant s
  | .kvFarReturn c => Sys2Proof.Machine.execKvFarReturn c s
  | .planPeriodExpiry c => Sys2Proof.Machine.execPlanPeriodExpiry c s
  | .guideHeatReport src c level heats => Sys2Proof.Machine.execGuideHeatReport src c level heats s
  | .guideReplicaEntry c layer expert index pkg die share active => Sys2Proof.Machine.execGuideReplicaEntry c layer expert index pkg die share active s
  | .guideRemoval c layer expert replica => Sys2Proof.Machine.execGuideRemoval c layer expert replica s
  | .guideRemovalAck src c layer expert replica => Sys2Proof.Machine.execGuideRemovalAck src c layer expert replica s
  | .replicaDrainTimeout c layer expert replica => Sys2Proof.Machine.execReplicaDrainTimeout c layer expert replica s
  | .guideRxAreaAnnounce src c area => Sys2Proof.Machine.execGuideRxAreaAnnounce src c area s
  | .guideTeardownAnnounce src c => Sys2Proof.Machine.execGuideTeardownAnnounce src c s
  | .guideExpertUeReport c layer expert => Sys2Proof.Machine.execGuideExpertUeReport c layer expert s
  | .ucieLinkDown port => Sys2Proof.Machine.execUcieLinkDown port s
  | .lotRequest lender borrower c base => Sys2Proof.Machine.execLotRequest lender borrower c base s
  | .lotRecall lender c base => Sys2Proof.Machine.execLotRecall lender c base s
  | .recallOverdue base => Sys2Proof.Machine.execRecallOverdue base s
  | .memReadReceive src c addr n poison => Sys2Proof.Machine.execMemReadReceive src c addr n poison s
  | .memReadDataReceive reader data poison => Sys2Proof.Machine.execMemReadDataReceive reader data poison s
  | .memWriteReceive addr data => Sys2Proof.Machine.execMemWriteReceive addr data s
  | .memAtomicReceive src c addr value float => Sys2Proof.Machine.execMemAtomicReceive src c addr value float s
  | .memAtomicDataReceive c launch str lane old => Sys2Proof.Machine.execMemAtomicDataReceive c launch str lane old s
  | .tallyArrival post pkg value phase => Sys2Proof.Machine.execTallyArrival post pkg value phase s
  | .tallyDeadline post => Sys2Proof.Machine.execTallyDeadline post s
  | .tallyLateDelivery post => Sys2Proof.Machine.execTallyLateDelivery post s
  | .khanAlloc c engine tier die n => Sys2Proof.Machine.execKhanAlloc c engine tier die n s
  | .khanFree c pool a => Sys2Proof.Machine.execKhanFree c pool a s
  | .khanRefill c pool cls => Sys2Proof.Machine.execKhanRefill c pool cls s
  | .khanChunkMove c pool chunk cls => Sys2Proof.Machine.execKhanChunkMove c pool chunk cls s
  | .wsMiddleMove q toHead poison => Sys2Proof.Machine.execWsMiddleMove q toHead poison s
  | .launchStartTick c launch => Sys2Proof.Machine.execLaunchStartTick c launch s
  | .stringPlace c launch str => Sys2Proof.Machine.execStringPlace c launch str s
  | .arrayUeEvent c core off str slot => Sys2Proof.Machine.execArrayUeEvent c core off str slot s
  | .correctedErrorEvent source addr ctx => Sys2Proof.Machine.execCorrectedErrorEvent source addr ctx s
  | .faultWindowClose source => Sys2Proof.Machine.execFaultWindowClose source s
  | .lastingFaultDeclare source => Sys2Proof.Machine.execLastingFaultDeclare source s
  | .coreRetireTimeout phys => Sys2Proof.Machine.execCoreRetireTimeout phys s
  | .layoutCommandStart c => Sys2Proof.Machine.execLayoutCommandStart c s
  | .layoutCommandComplete c index ue => Sys2Proof.Machine.execLayoutCommandComplete c index ue s
  | .flitReceive port corrected uncorrected bytes => Sys2Proof.Machine.execFlitReceive port corrected uncorrected bytes s
  | .linkAckTimeout port => Sys2Proof.Machine.execLinkAckTimeout port s
  | .chunkClose pkg tc => Sys2Proof.Machine.execChunkClose pkg tc s
  | .chunkReceive port tc => Sys2Proof.Machine.execChunkReceive port tc s
  | .transportAckSend pkg => Sys2Proof.Machine.execTransportAckSend pkg s
  | .transportAckReceive => Sys2Proof.Machine.execTransportAckReceive s
  | .transportResendTimeout pkg tc => Sys2Proof.Machine.execTransportResendTimeout pkg tc s
  | .detourReturn pkg tc => Sys2Proof.Machine.execDetourReturn pkg tc s
  | .departureTimeout pkg => Sys2Proof.Machine.execDepartureTimeout pkg s
  | .departureReceive pkg => Sys2Proof.Machine.execDepartureReceive pkg s
  | .timestampSend port => Sys2Proof.Machine.execTimestampSend port s
  | .timestampReceive port stamp => Sys2Proof.Machine.execTimestampReceive port stamp s
  | .timebaseSlew => Sys2Proof.Machine.execTimebaseSlew s
  | .timebaseHoldover => Sys2Proof.Machine.execTimebaseHoldover s
  | .holdoverLog => Sys2Proof.Machine.execHoldoverLog s
  | .collJoinReceive c group id index granted crc => Sys2Proof.Machine.execCollJoinReceive c group id index granted crc s
  | .collGoReceive c group id => Sys2Proof.Machine.execCollGoReceive c group id s
  | .collAbortReceive c group id status => Sys2Proof.Machine.execCollAbortReceive c group id status s
  | .collGrantReceive c group id slab => Sys2Proof.Machine.execCollGrantReceive c group id slab s
  | .collJoinTimeout c group id => Sys2Proof.Machine.execCollJoinTimeout c group id s
  | .collSlabOpen c group id => Sys2Proof.Machine.execCollSlabOpen c group id s
  | .collPieceReceive c group id slab index data => Sys2Proof.Machine.execCollPieceReceive c group id slab index data s
  | .collResultReceive c group id slab data => Sys2Proof.Machine.execCollResultReceive c group id slab data s
  | .slicePass p => Sys2Proof.Machine.execSlicePass p s
  | .overrunDeadline p => Sys2Proof.Machine.execOverrunDeadline p s
  | .teardownFree c => Sys2Proof.Machine.execTeardownFree c s
  | .teardownStuck c => Sys2Proof.Machine.execTeardownStuck c s
  | .faultTake found => Sys2Proof.Machine.execFaultTake found s
  | .faultDrain => Sys2Proof.Machine.execFaultDrain s
  | .paceSample readings => Sys2Proof.Machine.execPaceSample readings s
  | .powerSample watts quarters => Sys2Proof.Machine.execPowerSample watts quarters s
  | .ageingHourly => Sys2Proof.Machine.execAgeingHourly s
  | .watchdogExpiry n => Sys2Proof.Machine.execWatchdogExpiry n s
  | .fwpException n memErr => Sys2Proof.Machine.execFwpException n memErr s
  | .fwpRestartComplete n => Sys2Proof.Machine.execFwpRestartComplete n s
  | .activationResume => Sys2Proof.Machine.execActivationResume s
  | .waitE0Expiry => Sys2Proof.Machine.execWaitE0Expiry s
  | .bundleProven => Sys2Proof.Machine.execBundleProven s
  | .iadd c launch str => Sys2Proof.Machine.execIadd c launch str s
  | .isub c launch str => Sys2Proof.Machine.execIsub c launch str s
  | .imul c launch str => Sys2Proof.Machine.execImul c launch str s
  | .imulh c launch str => Sys2Proof.Machine.execImulh c launch str s
  | .and c launch str => Sys2Proof.Machine.execAnd c launch str s
  | .or c launch str => Sys2Proof.Machine.execOr c launch str s
  | .xor c launch str => Sys2Proof.Machine.execXor c launch str s
  | .shl c launch str => Sys2Proof.Machine.execShl c launch str s
  | .shr c launch str => Sys2Proof.Machine.execShr c launch str s
  | .sar c launch str => Sys2Proof.Machine.execSar c launch str s
  | .imin c launch str => Sys2Proof.Machine.execImin c launch str s
  | .imax c launch str => Sys2Proof.Machine.execImax c launch str s
  | .icmp c launch str => Sys2Proof.Machine.execIcmp c launch str s
  | .movi c launch str => Sys2Proof.Machine.execMovi c launch str s
  | .fadd c launch str => Sys2Proof.Machine.execFadd c launch str s
  | .fmul c launch str => Sys2Proof.Machine.execFmul c launch str s
  | .ffma c launch str => Sys2Proof.Machine.execFfma c launch str s
  | .fmin c launch str => Sys2Proof.Machine.execFmin c launch str s
  | .fmax c launch str => Sys2Proof.Machine.execFmax c launch str s
  | .fcmp c launch str => Sys2Proof.Machine.execFcmp c launch str s
  | .fneg c launch str => Sys2Proof.Machine.execFneg c launch str s
  | .cvtTo c launch str => Sys2Proof.Machine.execCvtTo c launch str s
  | .cvtFrom c launch str => Sys2Proof.Machine.execCvtFrom c launch str s
  | .blockTo c launch str => Sys2Proof.Machine.execBlockTo c launch str s
  | .blockFrom c launch str => Sys2Proof.Machine.execBlockFrom c launch str s
  | .ld c launch str ue => Sys2Proof.Machine.execLd c launch str ue s
  | .st c launch str => Sys2Proof.Machine.execSt c launch str s
  | .aaddI c launch str => Sys2Proof.Machine.execAaddI c launch str s
  | .aaddF c launch str => Sys2Proof.Machine.execAaddF c launch str s
  | .fence c launch str => Sys2Proof.Machine.execFence c launch str s
  | .tlook c launch str => Sys2Proof.Machine.execTlook c launch str s
  | .claim c launch str => Sys2Proof.Machine.execClaim c launch str s
  | .mma c launch str => Sys2Proof.Machine.execMma c launch str s
  | .accZero c launch str => Sys2Proof.Machine.execAccZero c launch str s
  | .accStore c launch str => Sys2Proof.Machine.execAccStore c launch str s
  | .sfn c launch str => Sys2Proof.Machine.execSfn c launch str s
  | .brAny c launch str => Sys2Proof.Machine.execBrAny c launch str s
  | .brAll c launch str => Sys2Proof.Machine.execBrAll c launch str s
  | .pset c launch str => Sys2Proof.Machine.execPset c launch str s
  | .lshuf c launch str => Sys2Proof.Machine.execLshuf c launch str s
  | .lsum c launch str => Sys2Proof.Machine.execLsum c launch str s
  | .lmax c launch str => Sys2Proof.Machine.execLmax c launch str s
  | .tpArrive c launch str => Sys2Proof.Machine.execTpArrive c launch str s
  | .tpWait c launch str => Sys2Proof.Machine.execTpWait c launch str s
  | .wsPush c launch str => Sys2Proof.Machine.execWsPush c launch str s
  | .wsPop c launch str => Sys2Proof.Machine.execWsPop c launch str s
  | .wsPopMark c launch str => Sys2Proof.Machine.execWsPopMark c launch str s
  | .wsPopRewind c launch str => Sys2Proof.Machine.execWsPopRewind c launch str s
  | .wsPopRelease c launch str => Sys2Proof.Machine.execWsPopRelease c launch str s
  | .endString c launch str => Sys2Proof.Machine.execEndString c launch str s
  | .flitSlot port => Sys2Proof.Machine.execFlitSlot port s
  | .cxlCompletionTimeout addr => Sys2Proof.Machine.execCxlCompletionTimeout addr s
  | .pciePowerStateWrite d3hot => Sys2Proof.Machine.execPciePowerStateWrite d3hot s
  | .guideExpertReloaded c layer expert => Sys2Proof.Machine.execGuideExpertReloaded c layer expert s
  | .lotRelease lender c base => Sys2Proof.Machine.execLotRelease lender c base s
  | .flashWriteComplete => Sys2Proof.Machine.execFlashWriteComplete s

end Sys2Proof.Machine
end

