-- ==== Sys2Proof/Safety.lean ====
section
/-! DEFINITION. The conditions in whose terms the statements speak: when a message completes, when a context takes work,
and the invariant of the block. -/

namespace Sys2Proof.Machine

/-! ### Messages -/

/-- The running owner of an opcode takes message `m` of window `w` next: it is the oldest that the owner has not taken
(R340), and the device state lets it be served (R383). -/
structure Takes (s : State) (w op : Nat) (m : Msg) : Prop where
  oldest  : s.oldest w op = some m
  running : (s.fw (owner op)).st = .running
  serves  : s.stopFault op = false

/-- The request of a message spells field values (R367). -/
def Spells (fs : List Fld) (m : Msg) (a : List Nat) : Prop := readRequest fs m.payload = some a

/-- The common checks of a message that names context `c` pass (R367, R368). -/
structure Admits (s : State) (m : Msg) (c : Nat) : Prop where
  bound  : c ≤ 15
  given  : (s.ctx c).st ≠ .free
  owned  : s.owns m.sess c = true
  stays  : (s.ctx c).st ≠ .teardown
  served : (s.part (s.ctx c).share.partition).halted = false

/-- The state in which a message has completed `ST_OK` with response fields, its effects being those of `t`. -/
def answered (t : State) (m : Msg) (op : Nat) (fs : List (Fld × Nat)) : State :=
  t.complete m (owner op) .ok (writeFields fs)

/-! ### Health -/

/-- No quarter is at E3, nor has one the trigger that sets it (Table 18-7a). -/
def Cool (s : State) : Prop := ∀ x ∈ s.hlt.quarters, x.level < 3 ∧ ∀ t ∈ x.triggers, t.code ≠ 3

/-! ### Resets -/

/-- What a device reset leaves of state `s`: fuses, flash, the C4 latch, `THERM_TRIP` and the counters of Table 18-8;
everything else as the boot sequence starts (R402, R404). -/
structure Rebooted (s : State) (straps : Nat) (t : State) : Prop where
  fuses   : t.fuses = s.fuses
  flashes : t.flashes = s.flashes
  ctrs    : t.flt.ctr = s.flt.ctr
  trip    : t.flt.thermTrip = s.flt.thermTrip
  latchC4 : t.flt.latches.getD 4 none = s.flt.latches.getD 4 none
  latches : ∀ k < 4, t.flt.latches.getD k none = none
  serves  : t.flt.dev = .serving
  pkgId   : t.board.pkgId = straps % 128
  stage   : t.boot.stage = if bootCands s.flashes = [] then .rom else .load
  fws     : t.fws = List.replicate 6 Fwp.fresh
  ctxs    : t.ctxs = List.replicate 16 Ctx.fresh
  parts   : t.parts = (List.range 8).map Part.fresh
  wins    : t.host.wins = []
  sess    : t.host.sessions = []
  mem     : t.mem = []
  clock   : t.tb = Timebase.fresh

/-! ### Strings -/

/-- String `i` of launch `l` of context `c` is resident, its next word `w` has the opcode, and it waits for nothing
(R181). -/
structure Ready (s : State) (op c id i : Nat) (l : Launch) (g : Str) (w : Nat) : Prop where
  found : s.atWord op c id i = some (l, g, w)
  free  : g.wait = .none

/-- String i of a launch in flight. -/
def State.strAt (s : State) (c id i : Nat) : Option Str := ((s.ctx c).launch id).bind (fun l => l.strs[i]?)

/-- `g'` is `g` after an instruction that wrote `f` to `DST`: 32 bits in each guarded lane and nothing elsewhere; the
program counter is at the next word (R179). -/
structure Wrote (g : Str) (w : Nat) (f : Nat → Nat) (g' : Str) : Prop where
  regs  : ∀ r < 16, ∀ k < 64, g'.reg r k = if r = iDst w ∧ g.guard w k then f k % 2 ^ 32 else g.reg r k
  frame : g' = { g with regs := g'.regs, pc := g.pc + 1 }

/-- As `Wrote`, for an instruction whose result is a predicate. -/
structure Judged (g : Str) (w : Nat) (f : Nat → Bool) (g' : Str) : Prop where
  preds : ∀ p < 4, ∀ k < 64, g'.pred p k = if p = iPred w ∧ g.guard w k then f k else g.pred p k
  frame : g' = { g with preds := g'.preds, pc := g.pc + 1 }

/-! ### The invariant -/

/-- What every state of the block keeps: memory in its canonical form, 16 contexts (chapter 15), 8 partitions (R317), six
firmware processors (Table 1-3), a 7-bit package ID (R16) and a 64-bit Timebase count (R303). -/
structure Inv (s : State) : Prop where
  mem   : memWf s.mem = true
  ctxs  : s.ctxs.length = 16
  parts : s.parts.length = 8
  fws   : s.fws.length = 6
  pkg   : s.board.pkgId < 128
  count : s.now < 2 ^ 64

end Sys2Proof.Machine
end

