-- ==== Sys2Proof/Certificates/Slice0/Obligations.lean ====
section
/-! DEFINITION. The statements for the provers, by chapter of the spec. -/

open Sys2Proof Sys2Proof.Machine

/-! ### Power, boot and training -/

/-- R399, R402: a power-on starts everything from reset values but fuses; a fall of `PWR_GOOD` keeps nothing but fuses; a
device reset runs the boot sequence again, and in STOPPED_C4 it retrains the PCIe link only (R383). -/
def Obligations.PowerAndResets : Prop :=
  (∀ (x : Nat) (s : State), exec (.powerOn x) s = .next
    { State.fresh s.fuses s.flashes (x % 128) with freeCtr := s.freeCtr, pending := s.pending, out := s.out }) ∧
  (∀ s : State, ∃ t, exec .pwrGoodFall s = .next t ∧ t.powered = false ∧ t.fuses = s.fuses ∧ t.mem = [] ∧
    t.host = HostIf.fresh ∧ t.boot = Boot.fresh ∧ t.flt = Faults.fresh ∧ t.fws = List.replicate 6 Fwp.fresh ∧
    t.ctxs = List.replicate 16 Ctx.fresh ∧ t.seqs = [] ∧ t.ws = [] ∧ t.tb = Timebase.fresh) ∧
  (∀ (x : Nat) (s : State), s.powered = true → s.flt.dev ≠ .stoppedC4 →
    ∃ t, exec (.perstRelease x) s = .next t ∧ Rebooted s x t) ∧
  (∀ (x : Nat) (s : State), s.powered = true → s.board.perstN = true → s.flt.dev ≠ .stoppedC4 →
    ∃ t, exec (.hotReset x) s = .next t ∧ Rebooted s x t) ∧
  (∀ (x : Nat) (s : State), s.powered = true → s.board.perstN = true → s.flt.dev = .stoppedC4 →
    exec (.perstRelease x) s = .next { s with host := { s.host with linkUp := true, d3hot := false } } ∧
    exec (.hotReset x) s = .next { s with host := { s.host with linkUp := true, d3hot := false } })

/-- R404 to R407, R410: the first candidate that passes the checks is booted, a failing one gives way to the next or to
recovery; in RECOVERY the bundle in token staging is booted or `RECOVERY_FAIL` set; the copy to T1 waits for HBM. -/
def Obligations.BootChoice : Prop :=
  (∀ (s : State) (f : Nat) (r : List Nat), s.powered = true → s.board.perstN = true →
    (s.boot.stage = .rom ∨ s.boot.stage = .load) → s.boot.cands = f :: r →
    let d := s.flashes.getD f (Flash.empty 0)
    let good := Config.sha384 d.bundle = d.digest ∧ Config.signatureOk d.bundle = true ∧
      s.fuses.secMin ≤ bundleSec d.bundle ∧ bundleSec d.bundle ≤ 64
    ∃ t, exec .bundleLoadComplete s = .next t ∧ t.mem = s.mem ∧ t.fuses = s.fuses ∧ t.flashes = s.flashes ∧
      t.ctxs = s.ctxs ∧ t.host = s.host ∧ t.flt = s.flt ∧
      (good → t.boot.stage = .train ∧ t.boot.flash = f ∧ t.boot.bundle = d.bundle ∧ t.boot.udsLocked = true ∧
        t.boot.deviceKeyErased = true ∧ ∀ n < s.fws.length, (t.fw n).st = .running) ∧
      (¬ good → t.fws = s.fws ∧ t.boot.cands = r ∧ t.boot.stage = if r = [] then .recovery else .load)) ∧
  (∀ (n : Nat) (s : State), s.barOn = true → s.boot.stage = .recovery →
    let b := s.bytesAt (addr 0 0x30000000) (n % 2 ^ 32)
    let good := Config.signatureOk b = true ∧ s.fuses.secMin ≤ bundleSec b ∧ bundleSec b ≤ 64
    ∃ t, exec (.recoveryLenWrite n) s = .next t ∧ t.mem = s.mem ∧ t.ctxs = s.ctxs ∧ t.boot.recoveryLen = n % 2 ^ 32 ∧
      (good → t.boot.stage = .train ∧ t.boot.bundle = b ∧
        t.flashes = s.flashes.map (fun (f : Flash) => f.program b 1 true)) ∧
      (¬ good → t.boot.stage = .recovery ∧ t.boot.recoveryFail = true ∧ t.flashes = s.flashes)) ∧
  (∀ s : State, s.booted = true → s.boot.hbmUp.all id = true →
    exec .t1CopyComplete s = .next { s with boot := { s.boot with t1Copy := true } })

/-- R14, R408, R415, R416: what the end of each training records, and what it raises. -/
def Obligations.TrainingOutcomes : Prop :=
  (∀ (p n bytes : Nat) (s : State), s.booted = true → p < 4 → p < s.boot.diesUp.length → p < s.boot.dieDone.length →
    ∃ t, exec (.ucieTrainComplete p n bytes) s = .next t ∧ t.boot.diesUp.getD p false = decide (8 ≤ n) ∧
      t.boot.dieDone.getD p false = true ∧ t.mem = s.mem ∧ t.ctxs = s.ctxs ∧ t.fws = s.fws ∧ t.host = s.host ∧
      (n < 8 → (∃ m ∈ t.flt.arriving, m.kind = 0x25 ∧ m.source = 0x720 + p) ∧
        ((∀ q < 4, q ≠ p → s.boot.dieDone.getD q false = true ∧ s.boot.diesUp.getD q false = false) →
          s.boot.diesUp.length = 4 → s.boot.dieDone.length = 4 →
          t.boot.stage = .failed ∧ ∃ m ∈ t.flt.arriving, m.kind = 0x26 ∧ m.cls = 3))) ∧
  (∀ (k : Nat) (ok : Bool) (s : State), s.booted = true → k < 2 → k < s.boot.hbmUp.length →
    ∃ t, exec (.hbmTrainComplete k ok) s = .next t ∧ t.boot.hbmUp.getD k (!ok) = ok ∧ t.mem = s.mem ∧ t.ctxs = s.ctxs ∧
      t.fws = s.fws ∧ t.host = s.host ∧ (ok = true → t.flt = s.flt) ∧
      (ok = false → t.boot.stage = .failed ∧ ∃ m ∈ t.flt.arriving, m.kind = 0x71 ∧ m.cls = 3)) ∧
  (∀ (p bytes : Nat) (ok : Bool) (s : State), s.booted = true → p < 2 → p < s.boot.cxlUp.length →
    ∃ b, exec (.cxlTrainComplete p ok bytes) s = .next { s with boot := b } ∧ b.cxlUp.getD p (!ok) = ok ∧
      (ok = false → { s with boot := b }.farLimit = 0)) ∧
  (∀ (p : Nat) (s : State), s.booted = true → s.fab.twin = false → p < 128 → p < s.fab.ports.length →
    (s.port p).st = .off →
    exec (.portSignalDetect p) s = .next (s.onPort p (fun x => { x with st := .training }))) ∧
  (∀ (p lanes peer : Nat) (spare : Bool) (s : State), s.booted = true → s.fab.twin = false → p < 128 →
    p < s.fab.ports.length → (s.port p).st = .training → peer < 128 → peer ≠ s.board.pkgId →
    s.fab.present.contains peer = true → s.boot.fabricDone = true → s.tb.master = s.board.pkgId → s.upd.swapBusy = false →
    lanes % 16 = 15 → (s.port p).badLanes % 16 = 0 → (s.fw fwWayfinder).st = .running →
    ∃ f, exec (.portTrainComplete p lanes spare peer) s = .next { s with fab := f } ∧
      (f.ports.getD p Port.fresh).st = .up4 ∧ (f.ports.getD p Port.fresh).peer = peer ∧
      (f.ports.getD p Port.fresh).credits = [64, 96, 48, 32, 16]) ∧
  (∀ (p lanes peer : Nat) (spare : Bool) (s : State), s.booted = true → s.fab.twin = false → p < 128 →
    (s.port p).st = .training → peer = s.board.pkgId → (s.fw fwWayfinder).st = .running →
    ∃ t, exec (.portTrainComplete p lanes spare peer) s = .next t ∧ t.fab.twin = true ∧
      (∀ x ∈ t.fab.ports, x.st = .off) ∧ ∃ m ∈ t.flt.arriving, m.kind = 0x36 ∧ m.cls = 3) ∧
  (∀ (p lanes peer : Nat) (spare : Bool) (s : State), (s.fw fwWayfinder).st ≠ .running →
    exec (.portTrainComplete p lanes spare peer) s = .next s) ∧
  (∀ s : State, s.booted = true → s.boot.fabricDone = false → s.boot.fabricStart + 2000000000 ≤ s.now →
    ∃ t, exec .fabricTrainTimeout s = .next t ∧ t.boot.fabricDone = true ∧ t.mem = s.mem ∧ t.fab = s.fab ∧
      t.tb.master = (minBy id (s.board.pkgId :: s.fab.present)).getD 0)

/-! ### Host interface and management links -/

/-- R337, R338, R395, R412: what each host access does in D0, and that none of them touches more than it names; in D3hot a
host write changes nothing and a read completes as unsupported. -/
def Obligations.HostAccesses : Prop :=
  (∀ (w : Nat) (irqEn : Bool) (s : State), s.barOn = true → s.booted = true → w < 256 → (s.win w).owner = false →
    (s.fw fwSteward).st = .running →
    let h := Header.read ((List.range 4096).map (fun i => Tbl.getD (s.win w).req i 0))
    let payload := takeBytes ((List.range 4096).map (fun i => Tbl.getD (s.win w).req i 0)) 32 (Nat.min h.length 4064)
    let m : Msg := ⟨w, h.op, h.sess, h.tag, h.major, h.minor, s.now, payload, .unrouted, h.crcEn, formatBad h payload, 0,
      s.layGenFor h.op payload⟩
    s.headerCheck m = none → s.stopped (owner h.op) = false →
    ∃ x, exec (.mailboxSubmit w irqEn) s = .next { s with host := x } ∧ { m with phase := .routed } ∈ x.msgs ∧
      (x.wins.getD w Win.fresh).owner = true ∧ (x.wins.getD w Win.fresh).done = false ∧
      (x.wins.getD w Win.fresh).irqEn = irqEn) ∧
  (∀ (w : Nat) (irqEn : Bool) (s : State), s.barOn = true → s.booted = true → w < 256 → (s.win w).owner = true →
    exec (.mailboxSubmit w irqEn) s = .next ((s.onWin w (fun x => { x with irqEn := irqEn })).bump .winIgnored 1)) ∧
  (∀ (w : Nat) (irqEn : Bool) (s : State), s.barOn = true → w < 256 →
    exec (.doneClear w irqEn) s = .next (s.onWin w (fun x => { x with done := false, irqEn := irqEn }))) ∧
  (∀ (k : Nat) (s : State), s.barOn = true →
    exec (.irqPendClear k) s = .next { s with flt := { s.flt with irqPend := false, irqClass := k % 8 } }) ∧
  (∀ s : State, s.barOn = true →
    exec .peakWRead s = .next { s with out := s.out ++ [.completion s.powerStatus], hlt := { s.hlt with peak := 0 } }) ∧
  (∀ (off size value : Nat) (s : State), s.barOn = true → (size = 4 ∨ size = 8) → off % size = 0 →
    0x100000 ≤ off → off < 0x500000 → off % 0x4000 < 0x1000 → (s.win ((off - 0x100000) / 0x4000)).owner = false →
    ∃ x, exec (.registerWrite off size value) s = .next { s with host := x } ∧
      (∀ i < size, Tbl.getD (x.wins.getD ((off - 0x100000) / 0x4000) Win.fresh).req (off % 0x4000 + i) 0
        = BitVec.ofNat 8 (value / 256 ^ i)) ∧
      (∀ o < 0x1000, (o < off % 0x4000 ∨ off % 0x4000 + size ≤ o) →
        Tbl.getD (x.wins.getD ((off - 0x100000) / 0x4000) Win.fresh).req o 0
          = Tbl.getD (s.win ((off - 0x100000) / 0x4000)).req o 0) ∧
      ∀ v, v ≠ (off - 0x100000) / 0x4000 → x.wins.getD v Win.fresh = s.win v) ∧
  (∀ (size value : Nat) (s : State), s.barOn = true → (size = 4 ∨ size = 8) →
    exec (.registerWrite 0x40 size value) s = .next { s with flt := { s.flt with irqClass := bits value 16 3 } }) ∧
  (∀ (off a n : Nat) (bs : List Byte) (p : Bool) (s : State), s.barOn = true → s.aperture off bs.length = some a →
    exec (.hostApertureAccess off n (some bs) p) s = .next (s.writeAt a bs)) ∧
  (∀ (off a n : Nat) (s : State), s.barOn = true → s.aperture off n = some a →
    (∀ l ∈ s.poison, l < a / 64 ∨ (a + n - 1) / 64 < l) →
    exec (.hostApertureAccess off n none false) s = .next (s.emit (.data (s.bytesAt a n))) ∧
    exec (.hostApertureAccess off n none true) s = .next (s.emit .poisoned)) ∧
  (∀ (off a n l : Nat) (p : Bool) (s : State), s.barOn = true → s.aperture off n = some a → l ∈ s.poison →
    a / 64 ≤ l → l ≤ (a + n - 1) / 64 →
    ∃ q, exec (.hostApertureAccess off n none p) s = .next ({ s with poison := q }.emit .poisoned) ∧ l ∉ q ∧
      ∀ k ∈ s.poison, k < a / 64 ∨ (a + n - 1) / 64 < k → k ∈ q) ∧
  (∀ (d3hot : Bool) (s : State), s.powered = true → s.board.perstN = true →
    exec (.pciePowerStateWrite d3hot) s = .next { s with host := { s.host with d3hot := d3hot } }) ∧
  (∀ s : State, s.powered = true → s.board.perstN = true → s.host.d3hot = true →
    (∀ w irqEn, exec (.mailboxSubmit w irqEn) s = .next s) ∧ (∀ w irqEn, exec (.doneClear w irqEn) s = .next s) ∧
    (∀ k, exec (.irqPendClear k) s = .next s) ∧ (∀ off size v, exec (.registerWrite off size v) s = .next s) ∧
    (∀ off n bs p, exec (.hostApertureAccess off n (some bs) p) s = .next s) ∧
    (∀ off n p, exec (.hostApertureAccess off n none p) s = .next (s.emit .unsupported)) ∧
    exec .peakWRead s = .next (s.emit .unsupported))

/-- R346, R411, R414 (Tables 19-8, 19-9): MCTP assembly, endpoint IDs and Prota over MCTP; each SPDM request on a transport,
answered by a running Steward. -/
def Obligations.ManagementLinks : Prop :=
  (∀ (p src tag seq : Nat) (eom : Bool) (body : List Byte) (s : State), s.powered = true → s.board.perstN = true →
    p < 2 → p < s.host.paths.length → body.length ≤ 64 →
    ∃ x, exec (.mctpPacket p src tag seq true eom body) s = .next { s with host := x } ∧
      (eom = false → (x.paths.getD p ⟨0, none, []⟩).asm = some (src, tag, (seq + 1) % 4, body, s.now)) ∧
      (eom = true → (s.path p).eid ≠ 0 → (body.getD 0 0).toNat % 128 = 0x7E →
        (x.paths.getD p ⟨0, none, []⟩).ready = (s.path p).ready ++ [(src, 0x7E, body.drop 1)]) ∧
      (eom = true → (s.path p).eid = 0 → (body.getD 0 0).toNat % 128 ≠ 0 →
        (x.paths.getD p ⟨0, none, []⟩).ready = (s.path p).ready)) ∧
  (∀ (p src tag seq : Nat) (body more : List Byte) (t0 : Nat) (s : State), s.powered = true → s.board.perstN = true →
    p < 2 → p < s.host.paths.length → more.length ≤ 64 → (s.path p).asm = some (src, tag, seq % 4, body, t0) →
    s.now ≤ t0 + 100000000 →
    ∃ x, exec (.mctpPacket p src tag seq false false more) s = .next { s with host := x } ∧
      (x.paths.getD p ⟨0, none, []⟩).asm = some (src, tag, (seq + 1) % 4, body ++ more, s.now)) ∧
  (∀ (p src tag seq t0 : Nat) (body : List Byte) (s : State), p < s.host.paths.length →
    (s.path p).asm = some (src, tag, seq, body, t0) → t0 + 100000000 < s.now →
    ∃ x, exec (.mctpReassemblyTimeout p) s = .next { s with host := x } ∧
      x.paths.getD p ⟨0, none, []⟩ = { s.path p with asm := none }) ∧
  (∀ (p eid : Nat) (s : State), s.booted = true → p < 2 → p < s.host.paths.length → 0 < eid → eid < 255 →
    ∃ x, exec (.mctpSetEndpointId p eid) s = .next { s with host := x, out := s.out ++ [.mctpControl p 0] } ∧
      (x.paths.getD p ⟨0, none, []⟩).eid = eid) ∧
  (∀ (a : Nat) (s : State), s.powered = true → s.board.perstN = true → a < 128 →
    exec (.i3cEntdaa a) s = .next { s with host := { s.host with i3cAddr := a } }) ∧
  (∀ (p src : Nat) (body : List Byte) (s : State), s.booted = true → p < 2 → p < s.host.paths.length →
    (s.path p).ready = [(src, 0x7E, body)] → (s.win (256 + p)).owner = true →
    ∃ t, exec (.mctpProtaMessage p) s = .next t ∧ (t.path p).ready = [] ∧ t.host.msgs = s.host.msgs ∧ t.mem = s.mem ∧
      t.ctxs = s.ctxs ∧ ctrGet t.ctr .mctpBusy = (Ctr.plus .mctpBusy (ctrGet s.ctr .mctpBusy) 1) ∧
      ∃ bs, t.out = s.out ++ [.mctp p src 0x7E bs]) ∧
  (∀ (p src : Nat) (body : List Byte) (s : State), s.booted = true → p < 2 → p < s.host.paths.length →
    (s.path p).ready = [(src, 0x7E, body)] → (s.win (256 + p)).owner = false → (s.fw fwSteward).st = .restarting →
    ∃ x, exec (.mctpProtaMessage p) s = .next { s with host := x } ∧ (x.paths.getD p ⟨0, none, []⟩).ready = [] ∧
      (x.wins.getD (256 + p) Win.fresh).owner = true ∧ (x.wins.getD (256 + p) Win.fresh).done = false ∧
      ∃ m ∈ x.msgs, m.win = 256 + p ∧ m.eid = src ∧ m.stamp = s.now ∧ m.phase = .unrouted) ∧
  (∀ (k : Nat) (s : State), s.booted = true → k < 3 → k < s.host.spdm.length → (s.fw fwSteward).st = .running →
    (∃ x, exec (.spdmGetVersion k) s = .next { s with host := x, out := s.out ++ [.spdm k (.version [0x12, 0x13])] } ∧
      x.spdm.getD k ⟨0, false, false⟩ = ⟨0, false, false⟩) ∧
    (∀ v, (v = 0x12 ∨ v = 0x13) →
      ∃ x, exec (.spdmGetCapabilities k v) s
        = .next { s with host := x, out := s.out ++ [.spdm k (.capabilities true true true true 20)] } ∧
        x.spdm.getD k ⟨0, false, false⟩ = ⟨v, true, false⟩) ∧
    (∀ base hash, (s.host.spdm.getD k ⟨0, false, false⟩).capsDone = true → base.testBit 7 = true → hash.testBit 1 = true →
      ∃ x, exec (.spdmNegotiateAlgorithms k base hash) s
        = .next { s with host := x, out := s.out ++ [.spdm k (.algorithms true true)] } ∧
        (x.spdm.getD k ⟨0, false, false⟩).algDone = true) ∧
    ((s.host.spdm.getD k ⟨0, false, false⟩).algDone = true →
      let chain := Config.certChain s.boot.aliasKey s.boot.measM
      (∃ t, exec (.spdmGetDigests k) s = .next t ∧ t.out = s.out ++ [.spdm k (.digests (Config.sha384 chain))]) ∧
      (∀ off n, off ≤ chain.length → ∃ t, exec (.spdmGetCertificate k 0 off n) s = .next t ∧
        t.out = s.out ++ [.spdm k (.certificate ((chain.drop off).take n) (chain.length - off - Nat.min n (chain.length - off)))]) ∧
      (∀ nonce, ∃ t, exec (.spdmChallenge k 0 nonce) s = .next t ∧
        t.out = s.out ++ [.spdm k (.challengeAuth (Config.sha384 chain)
          (Config.spdmSign s.boot.aliasKey nonce (Config.sha384 chain)))]) ∧
      (∀ nonce, ∃ t, exec (.spdmGetMeasurements k 9 false nonce) s = .next t ∧
        t.out = s.out ++ [.spdm k (.measurements 1 [(9, s.fuses.secMin, b2n s.fuses.production)] none)])))

/-- R418: each JTAG instruction; the three that drive or release pins act only while `PERST#` is low. -/
def Obligations.TestPort : Prop :=
  ∀ s : State, s.powered = true →
    exec .jtagBypass s = .next (s.tap .bypass false false) ∧
    (∃ n, bits n 12 16 = 0x9600 ∧ bits n 28 4 = 0xB ∧
      exec .jtagIdcode s = .next ((s.tap .idcode false false).emit (.tdo n))) ∧
    (∀ pins, ∃ t, exec (.jtagSamplePreload pins) s = .next t ∧ t.host.tap.boundary = pins ∧ t.mem = s.mem ∧
      t.host.tap.instr = .samplePreload ∧ t.host.tap.driving = false ∧ ∃ n, t.out = s.out ++ [.tdo n]) ∧
    (s.board.perstN = false →
      exec .jtagExtest s = .next (s.tap .extest true false) ∧ exec .jtagClamp s = .next (s.tap .clamp true false) ∧
      exec .jtagHighz s = .next (s.tap .highz false true)) ∧
    (s.board.perstN = true →
      exec .jtagExtest s = .next (s.tap .bypass false false) ∧ exec .jtagClamp s = .next (s.tap .bypass false false) ∧
      exec .jtagHighz s = .next (s.tap .bypass false false))

/-! ### Faults, health and power -/

/-- R378, R379, R384 (Tables 18-4, 18-5): what the Fault Collector makes of one waiting message, and the drain of the queue. -/
def Obligations.FaultCollection : Prop :=
  (∀ (m : FaultMsg) (s : State), s.powered = true → s.flt.arriving = [m] → m.cls = 0 → s.flt.latches.length = 5 →
    s.flt.overLost.length = 5 → s.flt.queue.length < 4096 →
    ∃ f o, exec (.faultTake none) s = .next { s with flt := f, out := o } ∧ f.arriving = [] ∧
      f.queue = s.flt.queue ++ [(s.flt.dropped, m)] ∧ f.dropped = 0 ∧ f.dev = s.flt.dev ∧
      (s.flt.latches.getD 0 none = none → f.latches.getD 0 none = some m ∧
        (s.flt.irqClass = 0 → f.irqPend = true ∧ o = s.out ++ [.msix 256]) ∧ (s.flt.irqClass ≠ 0 → o = s.out)) ∧
      (s.flt.latches.getD 0 none ≠ none → f.latches = s.flt.latches ∧ f.overLost.getD 0 false = true ∧ o = s.out) ∧
      ctrGet f.ctr .faultsTakenC0 = Ctr.plus .faultsTakenC0 (ctrGet s.flt.ctr .faultsTakenC0) 1) ∧
  (∀ (m : FaultMsg) (s : State), s.powered = true → s.flt.arriving = [m] → m.cls = 0 → s.flt.latches.length = 5 →
    4096 ≤ s.flt.queue.length →
    ∃ f o, exec (.faultTake none) s = .next { s with flt := f, out := o } ∧ f.queue = s.flt.queue ∧
      f.dropped = s.flt.dropped + 1) ∧
  (∀ (m : FaultMsg) (s : State), s.powered = true → s.flt.arriving = [m] → m.cls = 3 → s.flt.dev = .serving →
    s.flt.endedC3 = none →
    ∃ t, exec (.faultTake none) s = .next t ∧ t.flt.dev = .stoppedC3 ∧ t.boot.ready = false) ∧
  (∀ (k : Nat) (s : State), s.powered = true → s.flt.arriving = [] → s.flt.dev = .serving → s.flt.endedC3 = none → k < 2 →
    ∃ t, exec (.faultTake (some (.hbmStackFail k))) s = .next t ∧ t.flt.dev = .stoppedC3 ∧ t.boot.ready = false) ∧
  (∀ s : State, (s.fw fwWarden).st = .running → s.flt.queue = [] → exec .faultDrain s = .next s) ∧
  (∀ (m : FaultMsg) (s : State), (s.fw fwWarden).st = .running → s.flt.queue = [(0, m)] →
    s.flt.store.length < 1048576 → s.flt.latches.length = 5 → s.flt.overLost.length = 5 →
    ∃ f, exec .faultDrain s = .next { s with flt := f } ∧ f.queue = [] ∧ f.store = s.flt.store ++ [(s.flt.nextSeq, m)] ∧
      f.nextSeq = (s.flt.nextSeq + 1) % 2 ^ 32 ∧
      (m.cls ≤ 1 → s.flt.latches.getD m.cls none = some m →
        f.latches.getD m.cls none = none ∧ f.overLost.getD m.cls false = false) ∧
      (∀ k, 2 ≤ k → f.latches.getD k none = s.flt.latches.getD k none)) ∧
  (∀ s : State, (s.fw fwWarden).st ≠ .running → exec .faultDrain s = .next s)

/-- R385, R386 (Table 18-6): counting windows, lasting faults, the retirement of a core and its end. -/
def Obligations.CorrectedAndLastingFaults : Prop :=
  (∀ (src a : Nat) (s : State), s.powered = true → s.openWindow src = none → 1 < s.flt.events →
    ∃ f, exec (.correctedErrorEvent src (some a) none) s = .next { s with flt := f } ∧
      (∃ m ∈ f.arriving, m.kind = 0x01 ∧ m.source = src ∧ m.cls = 0) ∧
      ⟨src, s.now, 1, s.flt.events, s.flt.windowMs⟩ ∈ f.windows ∧ f.lasting = s.flt.lasting) ∧
  (∀ (src : Nat) (x : CountWin) (a : Option Nat) (s : State), s.powered = true → s.openWindow src = some x →
    ∃ f, exec (.correctedErrorEvent src a none) s = .next { s with flt := f } ∧ f.arriving = s.flt.arriving ∧
      (x.events ≤ x.count + 1 → f.lasting = s.flt.lasting ++ [(x.source, x.count + 1, x.windowMs)]) ∧
      (x.count + 1 < x.events → { x with count := x.count + 1 } ∈ f.windows ∧ f.lasting = s.flt.lasting)) ∧
  (∀ (src : Nat) (s : State), ∃ f, exec (.faultWindowClose src) s = .next { s with flt := f } ∧
    (∀ x ∈ f.windows, x.source = src → s.now < x.opened + x.windowMs * 1000000) ∧
    (∀ x ∈ s.flt.windows, x.source ≠ src → x ∈ f.windows) ∧ f.lasting = s.flt.lasting ∧ f.arriving = s.flt.arriving) ∧
  (∀ (src e ms : Nat) (s : State), (s.fw fwWarden).st = .running → (src = 0x730 ∨ src = 0x731) →
    s.flt.lasting = [(src, e, ms)] →
    ∃ f b, exec (.lastingFaultDeclare src) s = .next { s with flt := f, boot := b } ∧ f.lasting = [] ∧
      (∃ m ∈ f.arriving, m.kind = 0x02 ∧ m.source = src) ∧ b.romPending = s.boot.romPending ++ [src - 0x730] ∧
      ctrGet f.ctr .lastingFaults = Ctr.plus .lastingFaults (ctrGet s.flt.ctr .lastingFaults) 1) ∧
  (∀ (p : Nat) (s : State), (∀ n < s.cores.cores.length, (s.core n).phys = p → (s.core n).st ≠ 1) →
    exec (.coreRetireTimeout p) s = .next s) ∧
  (∀ (p n : Nat) (s : State), n < s.cores.cores.length → (s.core n).phys = p → (s.core n).st = 1 →
    (∀ k < n, (s.core k).phys = p → (s.core k).st ≠ 1) → (s.core n).since + 1000000 ≤ s.now →
    (∀ x ∈ s.ctxs, x.lanes.launches = []) → (∀ k < s.cores.cores.length, k ≠ n → (s.core k).st ≠ 1) →
    s.cores.spares = [] →
    ∃ t, exec (.coreRetireTimeout p) s = .next t ∧ (t.core n).st = 3 ∧ t.fuses.badCores = s.fuses.badCores ++ [p] ∧
      t.fuses.retired = s.fuses.retired + 1 ∧ t.mem = s.mem ∧ ∃ m ∈ t.flt.arriving, m.kind = 0x04)

/-- R387, R389, R392, R395 (Table 18-7a): samples, the board's signal and the hourly decision, while no quarter is at E3. -/
def Obligations.HealthAndPower : Prop :=
  (∀ (rs : List PaceReading) (q : Nat) (r : PaceReading) (s : State), s.powered = true → s.board.perstN = true → Cool s →
    s.hlt.quarters.length = 24 → (∀ x ∈ rs, x.tjA ≤ 120 ∧ x.tjB ≤ 120) → q < 24 → rs[q]? = some r →
    ∃ t, exec (.paceSample rs) s = .next t ∧ (t.quarter q).vmeas = r.vmeas ∧ (t.quarter q).pace = r.pace ∧
      (r.tjA = r.tjB → (∀ x ∈ (s.quarter q).triggers, x.code ≠ 8) → (t.quarter q).tj = r.tjA) ∧
      t.mem = s.mem ∧ t.ctxs = s.ctxs ∧ t.host = s.host ∧ t.hlt.lastPace = s.now) ∧
  (∀ (watts : Nat) (qs : List Nat) (s : State), s.powered = true → Cool s →
    ∃ t, exec (.powerSample watts qs) s = .next t ∧ t.hlt.samples = (watts :: s.hlt.samples).take 10000 ∧
      t.hlt.peak = Nat.max s.hlt.peak watts ∧ t.mem = s.mem ∧ t.ctxs = s.ctxs ∧ t.host = s.host) ∧
  (∀ (high : Bool) (s : State), s.powered = true → Cool s →
    ∃ t, exec (.throttleNChange high) s = .next t ∧ t.board = { s.board with throttleN := high } ∧ t.mem = s.mem ∧
      t.ctxs = s.ctxs ∧ t.host = s.host ∧
      (high = false → ∀ q < s.hlt.quarters.length, ∃ x ∈ (t.quarter q).triggers, x.code = 9)) ∧
  (∀ s : State, s.powered = true → s.hlt.ageFrom + 3600000000000 ≤ s.now → (s.fw fwWarden).st = .running →
    s.packageLevel = 0 → s.hlt.quarters.length = 24 → s.fuses.ageing.length = 24 →
    ∃ t, exec .ageingHourly s = .next t ∧ t.hlt.ageFrom = s.now ∧ t.mem = s.mem ∧ t.ctxs = s.ctxs ∧
      ∀ q < 24, (t.quarter q).lossCount = 0 ∧
        t.fuses.ageing.getD q 0 = s.fuses.ageing.getD q 0 +
          (if 0 < (s.quarter q).lossCount ∧
              ((s.quarter q).lossDen * (s.quarter q).lossCount : Nat) ≤ (s.quarter q).lossNum * 100 ∧
              s.fuses.ageing.getD q 0 < 8 then 1 else 0))

/-! ### Firmware processors -/

/-- R351, R352, R354: what starts a restart, the messages it ends, the third counted restart within 60 s, and its completion. -/
def Obligations.FirmwareRestarts : Prop :=
  (∀ (n : Nat) (s : State), n < 6 → s.fws.length = 6 → (s.fw n).st = .running →
    (s.fw n).lastService + (s.fw n).watchdogMs * 1000000 ≤ s.now → s.abortable n none = [] →
    ((s.fw n).counted.filter (fun t => decide (s.now < t + 60000000000))).length < 2 →
    ∃ t : State, exec (.watchdogExpiry n) s = .next t ∧ (t.fw n).st = .restarting ∧ (t.fw n).cause = 1 ∧
      (t.fw n).restarts = ((s.fw n).restarts + 1) % 2 ^ 32 ∧ (∃ m ∈ t.flt.arriving, m.kind = 0x40 ∧ m.source = 0x740 + n) ∧
      (∀ k < 6, k ≠ n → t.fw k = s.fw k) ∧ t.mem = s.mem ∧ t.host = s.host ∧ t.seqs = s.seqs ∧ t.out = s.out) ∧
  (∀ (n : Nat) (e : Bool) (s : State), n < 6 → s.fws.length = 6 → (s.fw n).st = .running → s.abortable n none = [] →
    ((s.fw n).counted.filter (fun t => decide (s.now < t + 60000000000))).length < 2 →
    ∃ t : State, exec (.fwpException n e) s = .next t ∧ (t.fw n).st = .restarting ∧ (t.fw n).cause = (if e then 3 else 2) ∧
      (t.fw n).restarts = ((s.fw n).restarts + 1) % 2 ^ 32 ∧ (∃ m ∈ t.flt.arriving, m.kind = 0x40 ∧ m.source = 0x740 + n) ∧
      (∀ k < 6, k ≠ n → t.fw k = s.fw k) ∧ t.mem = s.mem ∧ t.host = s.host ∧ t.seqs = s.seqs ∧ t.out = s.out) ∧
  (∀ (n : Nat) (e : Bool) (s : State), n < 6 → n ≠ fwSteward → s.fws.length = 6 → (s.fw n).st = .running →
    s.abortable n none = [] →
    2 ≤ ((s.fw n).counted.filter (fun t => decide (s.now < t + 60000000000))).length →
    ∃ t : State, exec (.fwpException n e) s = .next t ∧ (t.fw n).st = .failed ∧
      ∃ m ∈ t.flt.arriving, m.kind = 0x41 ∧ m.cls = 3 ∧ m.source = 0x740 + n) ∧
  (∀ (n : Nat) (e : Bool) (m : Msg) (s : State), n < 6 → s.fws.length = 6 → (s.fw n).st = .running →
    s.abortable n none = [m] → n ≠ fwSteward → m.win < 256 →
    ∃ t : State, exec (.fwpException n e) s = .next t ∧ (t.win m.win).done = true ∧ (t.win m.win).owner = false ∧
      t.host.msgs = eraseFirst (fun x => decide (x = m)) s.host.msgs ∧ t.mem = s.mem) ∧
  (∀ (n : Nat) (s : State), n < 6 → s.fws.length = 6 → (s.fw n).st = .restarting → (s.fw n).cause ≠ 4 →
    s.upd.current ≠ some n → s.upd.st ≠ .activating → s.host.msgs = [] → s.host.spdmWait = [] →
    ∃ b : Timebase, exec (.fwpRestartComplete n) s = .next { s.onFw n (fun f =>
        { f with st := .running, restartTick := s.now, lastService := s.now }) with tb := b } ∧
      (n ≠ fwWayfinder ∨ s.boot.fabricDone = false → b = s.tb) ∧
      (n = fwWayfinder → s.boot.fabricDone = true → s.tb.master = s.board.pkgId → s.tb.st = .free → b.st = .aligned))

/-- R358 to R364: activation goes on, waits for E0, and ends with the proven bundle; a flash write ends a stage. -/
def Obligations.FirmwareUpdate : Prop :=
  (∀ s : State, s.upd.st = .deferred → (s.fw fwSteward).st = .running → s.emergency = false → s.packageLevel ≤ 1 →
    s.upd.clearFrom + 100000000 ≤ s.now → (∀ p < 6, (s.fw p).actPending = false) →
    exec .activationResume s =
      .next { s with upd := { s.upd with st := .proving, provingFrom := s.now, current := none } }) ∧
  (∀ s : State, s.upd.st = .deferred → (s.fw fwSteward).st = .running → s.emergency = false → s.packageLevel ≤ 1 →
    s.upd.clearFrom + 100000000 ≤ s.now → s.fws.length = 6 → (s.fw fwCaravan).actPending = true → s.upd.unequal = false →
    s.abortable fwCaravan none = [] →
    ∃ t : State, exec .activationResume s = .next t ∧ t.upd.st = .activating ∧ t.upd.current = some fwCaravan ∧
      (t.fw fwCaravan).st = .restarting ∧ (t.fw fwCaravan).cause = 4 ∧ (∀ k < 6, k ≠ fwCaravan → t.fw k = s.fw k)) ∧
  (∀ s : State, s.upd.st = .waitE0 → (s.fw fwSteward).st = .running → s.calm = true → s.emergency = false →
    s.upd.unequal = false → s.fws.length = 6 → s.abortable fwWarden none = [] →
    ∃ t : State, exec .waitE0Expiry s = .next t ∧ t.upd.st = .activating ∧ t.upd.current = some fwWarden ∧
      (t.fw fwWarden).st = .restarting ∧ (t.fw fwWarden).cause = 4 ∧ (∀ k < 6, k ≠ fwWarden → t.fw k = s.fw k)) ∧
  (∀ s : State, s.upd.st = .waitE0 → (s.fw fwSteward).st = .running → s.calm = true → s.emergency = false →
    s.upd.unequal = true → s.fws.length = 6 → s.host.msgs = [] →
    ∃ t : State, exec .waitE0Expiry s = .next t ∧ t.upd.st = .activating ∧
      ∀ n < 6, (t.fw n).st = .restarting ∧ (t.fw n).cause = 4) ∧
  (∀ (b : List Byte) (s : State), s.upd.staged = some b → s.upd.st = .proving → (s.fw fwSteward).st = .running →
    s.upd.provingFrom + 60000000000 ≤ s.now → (∀ n ∈ s.upd.activated, (s.fw n).st = .running) →
    exec .bundleProven s = .next { s with
      flashes := updAt s.flashes (1 - s.boot.flash) (fun f => { f with proven := true })
      fuses := { s.fuses with secMin := Nat.max s.fuses.secMin (bundleSec b) }
      upd := { s.upd with st := .none, staged := none, activated := [] } }) ∧
  (∀ (b : List Byte) (m : Msg) (s : State), s.upd.writing = some b → s.host.msgs = [m] → m.phase = .flashWait →
    (s.fw fwSteward).st = .running →
    ∃ t : State, exec .flashWriteComplete s = .next (t.complete m fwSteward .ok []) ∧ t.upd.st = .staged ∧ t.upd.staged = some b ∧
      t.upd.writing = none ∧
      t.flashes = updAt s.flashes (1 - s.boot.flash) (fun f =>
        f.program b (((s.flashes.getD s.boot.flash (Flash.empty 0)).epoch + 1) % 2 ^ 32) false) ∧
      t.fuses = s.fuses ∧ t.mem = s.mem ∧ t.ctxs = s.ctxs)

/-- R349 to R351, R356 to R363, R379, R380, R385, R393, R299 (Table 17-10): the messages of Steward and Warden. -/
def Obligations.FirmwareMessages : Prop :=
  (∀ (w h : Nat) (m : Msg) (s : State), Takes s w 0x0700 m → Spells [.u32] m [h] → s.handleBad (hCtx h) h = none →
    hTier h = 1 → 128 ≤ (s.slotOf h).extent → s.owns m.sess (hCtx h) = true →
    let hd := s.bufBytes h 0 128
    bundleMagic hd = 0x42554E44 → bits (bundleWord hd) 160 32 = 0 → bits (bundleWord hd) 576 448 = 0 →
    imagesBad hd = false → bundleTotal hd ≤ (s.slotOf h).extent →
    bundleTotal hd ≤ (s.flashes.getD (1 - s.boot.flash) (Flash.empty 0)).bytes → bundleSec hd ≤ 64 →
    Config.signatureOk (s.bufBytes h 0 (bundleTotal hd)) = true → s.fuses.secMin ≤ bundleSec hd →
    bundleIpc hd = bundleIpc (s.fw fwSteward).bundle → s.upd.writing = none →
    s.upd.st ≠ .activating → s.upd.st ≠ .waitE0 → s.upd.st ≠ .proving →
    ∃ t : State, exec (.pmpFwStage w) s = .next t ∧ t.upd = { s.upd with writing := some (s.bufBytes h 0 (bundleTotal hd)) } ∧
      t.flashes = updAt s.flashes (1 - s.boot.flash) (fun f => { f with magic := false }) ∧
      { m with phase := .flashWait } ∈ t.host.msgs ∧ t.mem = s.mem ∧ t.ctxs = s.ctxs ∧ t.fws = s.fws) ∧
  (∀ (w : Nat) (b : List Byte) (m : Msg) (s : State), Takes s w 0x0701 m → Spells [.u8] m [0] → s.upd.staged = some b →
    bundleIpc b = bundleIpc (s.fw fwSteward).bundle →
    exec (.pmpFwActivate w) s = .next (answered { s with upd := { s.upd with unequal := false } } m 0x0701 [])) ∧
  (∀ (w mask : Nat) (b : List Byte) (m : Msg) (s : State), Takes s w 0x0701 m → Spells [.u8] m [mask] →
    s.upd.staged = some b → bundleIpc b = bundleIpc (s.fw fwSteward).bundle → 0 < mask → mask < 64 → s.emergency = true →
    s.fws.length = 6 →
    ∃ t : State, exec (.pmpFwActivate w) s = .next (t.complete m fwSteward .deferred []) ∧ t.upd.st = .deferred ∧
      ∀ p < 6, (t.fw p).actPending = ((s.fw p).actPending || mask.testBit p)) ∧
  (∀ (w : Nat) (m : Msg) (s : State), Takes s w 0x0702 m → Spells [] m [] →
    ∃ t : State, exec (.pmpFwWithdraw w) s = .next (answered t m 0x0702 []) ∧ t.mem = s.mem ∧ t.ctxs = s.ctxs ∧
      ((∀ f ∈ s.fws, f.actPending = false) → t = s) ∧
      ((∃ f ∈ s.fws, f.actPending = true) → t.upd.st = .staged ∧
        (∀ f ∈ t.fws, f.actPending = true → f.st = .restarting ∧ f.cause = 4) ∧
        ∀ n < s.fws.length, t.fw n = s.fw n ∨ t.fw n = { s.fw n with actPending := false })) ∧
  (∀ (w : Nat) (m : Msg) (s : State), Takes s w 0x0703 m → Spells [] m [] → s.fws.length = 6 →
    ∃ fs, exec (.pmpFwQuery w) s = .next (answered s m 0x0703 fs) ∧
      fs.take 8 = [(.u64, s.fwSummary)] ++ s.fws.map (fun f => (.r 256, s.fwBlock f)) ++
        [(.r 1024, (s.upd.staged.map bundleWord).getD 0)]) ∧
  (∀ (w n : Nat) (m : Msg) (s : State), Takes s w 0x0704 m → Spells [.u8] m [n] → n < 6 → s.fws.length = 6 →
    (s.fw n).st = .running → (n = fwWarden → s.calm = true) → s.abortable n (some m) = [] →
    ∃ t : State, exec (.pmpFwpRestart w) s = .next (answered t m 0x0704 []) ∧ (t.fw n).st = .restarting ∧ (t.fw n).cause = 5 ∧
      (t.fw n).restarts = ((s.fw n).restarts + 1) % 2 ^ 32 ∧ t.mem = s.mem) ∧
  (∀ (w n ms : Nat) (m : Msg) (s : State), Takes s w 0x0705 m → Spells [.u8, .u16] m [n, ms] → n < 6 → 10 ≤ ms → ms ≤ 1000 →
    exec (.pmpFwpWatchdog w) s = .next (answered (s.onFw n (fun f => { f with watchdogMs := ms })) m 0x0705 [])) ∧
  (∀ (w n seq : Nat) (m : Msg) (s : State), Takes s w 0x0710 m → Spells [.u8, .u32] m [n, seq] → n < 6 →
    ∃ next lost bs, exec (.pmpLogRead w) s
        = .next (s.complete m fwSteward .ok (writeFields [(.u32, next), (.u32, lost)] ++ bs)) ∧ bs.length ≤ 4056) ∧
  (∀ (w lo n v : Nat) (m : Msg) (s : State), Takes s w 0x0711 m → Spells [.u16, .u16, .u8] m [lo, n, v] → lo + n ≤ 1024 →
    v ≤ 1 →
    ∃ x, exec (.pmpTraceMask w) s = .next (answered { s with upd := { s.upd with traceMask := x } } m 0x0711 []) ∧
      bits x lo n = if v = 1 then 2 ^ n - 1 else 0) ∧
  (∀ (w seq : Nat) (m : Msg) (s : State), Takes s w 0x0800 m → Spells [.u32] m [seq] →
    ∃ next lost bs, exec (.pmpFaultRead w) s = .next (s.complete m fwWarden .ok
        (writeFields [(.u32, next), (.u32, lost), (.u32, s.latchWord), (.u32, 0)] ++ bs)) ∧ bs.length ≤ 253 * 16) ∧
  (∀ (w ev ms : Nat) (m : Msg) (s : State), Takes s w 0x0801 m → Spells [.u16, .u32] m [ev, ms] → 0 < ev → 0 < ms →
    ms ≤ 3600000 →
    exec (.pmpFaultWindow w) s =
      .next (answered { s with flt := { s.flt with events := ev, windowMs := ms } } m 0x0801 [])) ∧
  (∀ (w : Nat) (m : Msg) (s : State), Takes s w 0x0802 m → Spells [] m [] →
    ∃ n, exec (.pmpHealthQuery w) s = .next (answered s m 0x0802 (s.fuses.ageing.map (fun k => (.u16, 1250 * k)) ++
      [(.u8, n), (.u8, s.coreSpares), (.u8, s.packageLevel % 4 + 16 * (s.hlt.levelMax % 4))])) ∧ n ≤ 32) ∧
  (∀ (w : Nat) (m : Msg) (s : State), Takes s w 0x0830 m → Spells [] m [] →
    exec (.pmpQuarterQuery w) s = .next (answered s m 0x0830 (s.hlt.quarters.map (fun q => (.u64, q.word))))) ∧
  (∀ (w : Nat) (m : Msg) (s : State), Takes s w 0x0810 m → Spells [] m [] →
    exec (.pmpArrayQuery w) s =
      .next (answered s m 0x0810 ((.u32, s.cores.summary) :: s.cores.cores.map (fun k => (.u32, k.word))))) ∧
  (∀ (w p n : Nat) (m : Msg) (s : State), Takes s w 0x0820 m → Spells [.u8, .u8] m [p, n] → 0 < n → n ≤ 64 → p + n ≤ 128 →
    ∃ fs, exec (.pmpLinkQuery w) s = .next (answered s m 0x0820 fs) ∧
      fs.take n = (List.range n).map (fun i => (.u32, (s.port (p + i)).word)))


/-! ### Sessions -/

/-- R342, R343, R344, R347 (Table 17-2): sessions, windows, partition masks and features. -/
def Obligations.SessionMessages : Prop :=
  (∀ (w wmap lo hi feats : Nat) (m : Msg) (s : State), Takes s w 0x0001 m → w < 256 →
    Spells [.r 256, .u16, .u16, .r 128, .u32] m [wmap, lo, hi, feats, 0] → wmap.testBit w = true →
    lo ≤ 0x0302 → 0x0302 ≤ hi → (∀ v < 256, wmap.testBit v = true → (s.win v).bound = false) →
    s.host.sessions.length < 64 → s.session ((s.host.nextSession - 1) % 65535 + 1) = none →
    let id := (s.host.nextSession - 1) % 65535 + 1
    let granted := (feats &&& 0x3FFF) ||| 1
    ∃ x adm, exec (.pmpSessionOpen w) s = .next (answered { s with host := x } m 0x0001
        [(.u16, id), (.u16, 0x0302), (.u8, adm), (.u32, 0), (.r 128, granted)]) ∧
      x.sessions = s.host.sessions ++ [⟨id, onesOf 256 wmap, 3, 2, granted, false⟩] ∧ x.msgs = s.host.msgs ∧
      ∀ v, x.wins.getD v Win.fresh =
        if v < 256 ∧ wmap.testBit v = true then { s.win v with bound := true, session := id } else s.win v) ∧
  (∀ (w : Nat) (m : Msg) (s : State), Takes s w 0x0002 m → Spells [] m [] →
    ∃ x, exec (.pmpSessionClose w) s = .next (answered { s with host := x } m 0x0002 []) ∧
      x.sessions = s.host.sessions.filter (fun y => y.id != m.sess) ∧ x.msgs = s.host.msgs ∧
      (∀ v, ¬ ((x.wins.getD v Win.fresh).bound = true ∧ (x.wins.getD v Win.fresh).session = m.sess)) ∧
      ∀ v, (s.win v).bound = true → (s.win v).session ≠ m.sess → x.wins.getD v Win.fresh = s.win v) ∧
  (∀ (w wmap mask flags : Nat) (m : Msg) (s : State), Takes s w 0x0003 m →
    Spells [.r 256, .u8, .u32] m [wmap, mask, flags] → flags < 4 →
    ∃ x, exec (.pmpWindowConfig w) s = .next (answered { s with host := { s.host with wins := x } } m 0x0003 []) ∧
      ∀ v, x.getD v Win.fresh =
        if (v < 256 ∧ wmap.testBit v = true) ∨ (v = 256 ∧ flags.testBit 0 = true) ∨ (v = 257 ∧ flags.testBit 1 = true)
        then { s.win v with partMask := mask } else s.win v) ∧
  (∀ (w : Nat) (x : Session) (m : Msg) (s : State), Takes s w 0x0004 m → Spells [] m [] → s.session m.sess = some x →
    exec (.pmpFeatures w) s = .next (answered s m 0x0004 [(.r 128, x.granted), (.r 128, 0x3FFF)]))

/-! ### Sequences -/

/-- R43 to R50, R54, R62, R66, R70, R420, R421 (Table 17-3): the sequence and step messages, the context's boundary not in
progress. -/
def Obligations.SequenceMessages : Prop :=
  (∀ (w c flags tag ws tpf period maxLen seed temp topP topK stop turn h n q cb seg : Nat) (y : Model) (t u : State) (m : Msg)
    (s : State), Takes s w 0x0100 m → Spells [.u8, .u32, .u32, .u16, .u8, .u32, .u32, .u64, .u16, .u16, .u32, .u8, .u8, .u32, .u32]
      m [c, flags, tag, ws, tpf, period, maxLen, seed, temp, topP, topK, stop, turn, h, n] → Admits s m c →
    (s.ctx c).holdsMessages = false → (s.ctx c).model = some y → y.complete = true →
    (∀ l < y.moe, (s.ctx c).route.active.has l = true) → flags < 2 → (flags = 1 → (s.ctx c).ringLen = 0) → 0 < maxLen →
    maxLen ≤ 16777216 → tpf ≤ 15 → period < 2 ^ 24 → (period = 0 → tpf = 0) →
    (∀ k ∈ samplerChecks temp topP stop turn, k.1 = false) → s.emitWsBad c ws = false →
    (∀ k ∈ s.feedChecks c h n 0 maxLen, k.1 = false) → s.freeSeq c = some q →
    s.allocOr s c (256 + 4 * (s.ctx c).cover maxLen + 4 * (s.ctx c).ringLen) = .inr (t, cb) →
    s.allocOr t c (4 * n) = .inr (u, seg) →
    ∃ e v, exec (.pmpSeqOpen w) s = .next ((v.onSeq q (fun _ => e)).setPhase m (.openWait q)) ∧ e.st = .waiting ∧ e.ctx = c ∧
      e.tag = tag ∧ e.emitWs = ws ∧ e.perFrame = tpf ∧ e.period = period ∧ e.maxLen = maxLen ∧ e.pos = 0 ∧ e.cb = cb ∧
      e.deadline = (if tpf = 0 then noDeadline else 0) ∧ e.temp = temp ∧ e.topP = topP ∧ e.stopSet = stop ∧ e.turnSet = turn ∧
      e.feed = s.feedTokens h n ∧ e.cols = [] ∧ e.pendTok = none ∧ v.seqs = s.seqs ∧
      (seed ≠ 0 → v = u.writeFeed seg (s.feedTokens h n) ∧ e.seed = seed) ∧
      v.mem = memWrite s.mem (u.slotOf seg).base ((s.feedTokens h n).flatMap (toLE 4))) ∧
  (∀ (w c q h n seg a : Nat) (u : State) (m : Msg) (s : State), Takes s w 0x0101 m → Spells [.u8, .u32, .u32, .u32] m [c, q, h, n] →
    Admits s m c → (s.ctx c).holdsMessages = false → q < 2 ^ 17 → (s.ctx c).hasSeq q = true →
    (s.seq q).st ≠ .free → (s.seq q).st ≠ .leaving → 0 < n → s.handleBad c h = none → 4 * n ≤ (s.slotOf h).extent →
    (s.seq q).pos + (s.seq q).feed.length + b2n (s.seq q).pendTok.isSome + n ≤ (s.seq q).maxLen →
    (∀ t ∈ s.feedTokens h n, t < ((s.ctx c).model.map (·.vocab)).getD 0) →
    s.khanAlloc c 1 0 0x1 (4 * n) = (some (seg, a), u) →
    ∃ e, exec (.pmpSeqFeed w) s =
        .next (answered ((u.writeFeed seg (s.feedTokens h n)).onSeq q (fun _ => e)) m 0x0101 []) ∧ u.mem = s.mem ∧
      e.segs = (s.seq q).segs ++ [(seg, n)] ∧ e.stamps = (s.seq q).stamps ++ [(m.stamp, n)] ∧ e.cols = (s.seq q).cols ∧
      (((s.ctx c).inStep q).isSome = true →
        e = { s.seq q with feed := (s.seq q).feed ++ s.feedTokens h n, segs := e.segs, stamps := e.stamps }) ∧
      (((s.ctx c).inStep q).isSome = false → ((s.seq q).st = .decode ∨ (s.seq q).st = .idle) → e.st = .prefill) ∧
      (((s.ctx c).inStep q).isSome = false → (s.seq q).st = .decode →
        e.pendTok = none ∧ e.feed = (s.seq q).pendTok.toList ++ ((s.seq q).feed ++ s.feedTokens h n)) ∧
      ((s.seq q).st ≠ .decode → e.feed = (s.seq q).feed ++ s.feedTokens h n ∧ e.pendTok = (s.seq q).pendTok)) ∧
  (∀ (w c q : Nat) (m : Msg) (s : State), Takes s w 0x0102 m → Spells [.u8, .u32] m [c, q] →
    Admits s m c → (s.ctx c).holdsMessages = false → q < 2 ^ 17 → (s.ctx c).hasSeq q = true →
    ((s.seq q).st = .prefill ∨ (s.seq q).st = .decode ∨ (s.seq q).st = .idle) →
    (((s.ctx c).inStep q).isSome = true →
      exec (.pmpSeqRetire w) s = .next (answered (s.onSeq q (fun e => { e with retire := true })) m 0x0102 [])) ∧
    (((s.ctx c).inStep q).isSome = false →
      ∃ t : State, exec (.pmpSeqRetire w) s = .next (answered t m 0x0102 []) ∧ (t.seq q).st = .leaving ∧ (t.seq q).feed = [] ∧
        (t.seq q).pendTok = none ∧ (t.seq q).cols = (s.seq q).cols ∧ (∀ r, r ≠ q → t.seq r = s.seq r) ∧ t.mem = s.mem)) ∧
  (∀ (w c q : Nat) (m : Msg) (s : State), Takes s w 0x0103 m → Spells [.u8, .u32] m [c, q] →
    Admits s m c → (s.ctx c).holdsMessages = false → q < 2 ^ 17 → (s.ctx c).hasSeq q = true →
    ((s.seq q).st = .prefill ∨ (s.seq q).st = .decode ∨ (s.seq q).st = .idle) →
    ∃ t : State, exec (.pmpSeqCancel w) s = .next (answered t m 0x0103 []) ∧ (t.seq q).st = .leaving ∧ (t.seq q).feed = [] ∧
      (t.seq q).pendTok = none ∧ (∀ r, r ≠ q → t.seq r = s.seq r) ∧ t.mem = s.mem) ∧
  (∀ (w c q : Nat) (m : Msg) (s : State), Takes s w 0x0103 m → Spells [.u8, .u32] m [c, q] →
    Admits s m c → (s.ctx c).holdsMessages = false → q < 2 ^ 17 → (s.ctx c).hasSeq q = true →
    (s.seq q).st = .waiting → (s.host.msgs.filter (fun y => y.phase == .openWait q)) = [] →
    ∃ t : State, exec (.pmpSeqCancel w) s = .next (answered t m 0x0103 []) ∧ t.seq q = Seq.fresh ∧
      (∀ r, r ≠ q → t.seq r = s.seq r) ∧ t.mem = s.mem) ∧
  (∀ (w c p q tag seed cb a : Nat) (u : State) (m : Msg) (s : State), Takes s w 0x0104 m →
    Spells [.u8, .u32, .u32, .u64] m [c, p, tag, seed] → Admits s m c → (s.ctx c).holdsMessages = false → p < 2 ^ 17 →
    (s.ctx c).hasSeq p = true → ((s.seq p).st = .prefill ∨ (s.seq p).st = .decode ∨ (s.seq p).st = .idle) →
    s.freeSeq c = some q →
    (s.ctx c).fits ((s.ctx c).fullCounts (s.seq p).cols) ((s.ctx c).fullCounts (s.seq p).ring) = true →
    s.khanAlloc c 1 0 0x1 (256 + 4 * (s.ctx c).cover (s.seq p).maxLen + 4 * (s.ctx c).ringLen) = (some (cb, a), u) →
    ∃ t : State, exec (.pmpSeqFork w) s = .next (answered t m 0x0104 [(.u32, q), (.u64, (t.seq q).seed)]) ∧
      (t.seq q).st = .idle ∧ (t.seq q).cols.length = (s.seq p).cols.length ∧ (t.seq q).pos = (s.seq p).pos ∧
      (t.seq q).tag = tag ∧ (t.seq q).cb = cb ∧ (t.seq q).feed = [] ∧ (t.seq q).deadline = noDeadline ∧
      (seed ≠ 0 → (t.seq q).seed = seed) ∧ (∀ r, r ≠ q → t.seq r = s.seq r) ∧
      (((s.seq p).cols ++ (s.seq p).ring).Nodup →
        (∀ n ∈ (s.seq p).cols ++ (s.seq p).ring, ((s.ctx c).kv.col n).count < 65535) →
        let list (l : List Nat) : List Byte := l.flatMap (fun n => toLE 4 (Config.columnEntry n))
        let at_ := (u.slotOf cb).base + 256
        (t.seq q).cols = (s.seq p).cols ∧ (t.seq q).ring = (s.seq p).ring ∧
        t.mem = memWrite (memWrite s.mem at_ (list (s.seq p).cols))
          (at_ + 4 * (s.ctx c).cover (s.seq p).maxLen) (list (s.seq p).ring))) ∧
  (∀ (w c q : Nat) (m : Msg) (s : State), Takes s w 0x0105 m → Admits s m c → (s.ctx c).holdsMessages = false →
    (Spells [.u8, .u32, .u8] m [c, q, 0] → q < 2 ^ 17 → (s.ctx c).hasSeq q = true →
      exec (.pmpSeqQuery w) s = .next (answered s m 0x0105 [(.r 512, (s.seq q).pack)])) ∧
    (Spells [.u8, .u32, .u8] m [c, q, 1] →
      exec (.pmpSeqQuery w) s = .next (answered s m 0x0105 (ctrFlds (s.ctx c).ctr stepCtrs)))) ∧
  (∀ (w c q temp topP topK stop turn : Nat) (m : Msg) (s : State), Takes s w 0x0106 m →
    Spells [.u8, .u32, .u16, .u16, .u32, .u8, .u8] m [c, q, temp, topP, topK, stop, turn] → Admits s m c →
    (s.ctx c).holdsMessages = false → q < 2 ^ 17 → (s.ctx c).hasSeq q = true → (s.seq q).st ≠ .free → (s.seq q).st ≠ .leaving →
    (∀ k ∈ samplerChecks temp topP stop turn, k.1 = false) →
    exec (.pmpSeqSetSampler w) s = .next (answered (s.onSeq q (fun e => { e with
      temp := temp, topP := topP, topK := if ((s.ctx c).model.map (·.vocab)).getD 0 ≤ topK then 0 else topK
      stopSet := stop, turnSet := turn })) m 0x0106 [])) ∧
  (∀ (w c limit chunk : Nat) (y : Ctx) (m : Msg) (s : State), Takes s w 0x0110 m → Spells [.u8, .u32, .u32] m [c, limit, chunk] →
    Admits s m c → (s.ctx c).holdsMessages = false → 0 < limit → limit ≤ 262144 → 0 < chunk → chunk ≤ 8192 →
    (s.ctx c).fitSpill (spillBytes limit (s.ctx c).share.dModel (planesOf (s.ctx c).steps.mode (s.ctx c).draft)) = some y →
    y.landingFits limit (s.ctx c).draft.kmax = true →
    exec (.pmpStepConfig w) s = .next (answered
      (s.onCtx c (fun _ => { y with steps := { y.steps with tokenLimit := limit, prefillChunk := chunk } })) m 0x0110 [])) ∧
  (∀ (w c : Nat) (m : Msg) (s : State), Takes s w 0x0111 m → Spells [.u8] m [c] → Admits s m c →
    (s.ctx c).holdsMessages = false →
    exec (.pmpStepRecords w) s = .next (answered s m 0x0111 [(.u64, (s.ctx c).steps.ring), (.u32, 16777216),
      (.u32, (s.ctx c).steps.ringHead), (.u32, (s.ctx c).steps.ringOldest)])) ∧
  (∀ (w c q : Nat) (m : Msg) (s : State), Takes s w 0x0102 m → Spells [.u8, .u32] m [c, q] → Admits s m c →
    (s.ctx c).holdsMessages = true → exec (.pmpSeqRetire w) s = .next (s.setPhase m .heldBoundary))

/-! ### Models, routes and tables -/

/-- R113, R147, R149, R372 (Tables 17-4, 17-5): loading a model and its images, and the host's capacity plans. -/
def Obligations.ModelMessages : Prop :=
  (∀ (w c h : Nat) (src : Tbl Source) (u : State) (m : Msg) (s : State), Takes s w 0x0200 m → Spells [.u8, .u32] m [c, h] →
    Admits s m c →
    let d := ofLE (s.bufBytes h 0 64)
    let y := s.readModel h d
    s.bufBad c h 64 = none → hTier h = 1 →
    (bit d 41 = true → (((s.session m.sess).map (fun (z : Session) => z.granted)).getD 0).testBit 11 = true) → s.modelFormatBad c d y = false → modelBoundsBad d y = false →
    s.bufBad c h (modelBytes (bits d 58 10) y.moe) = none → (s.ctx c).model = none →
    (s.onCtx c (fun x => { x with model := some y })).placeSources c (imageSpan y.imageBytes)
      (if y.share.isSome then [] else y.experts.map (fun k => (k, (s.primary c k).1))) [] = some src →
    s.fitCopies c (Route.bytes { layers := [], experts := s.firstExperts c y } y.moe
      (ceilDiv (y.experts.length * headroomBp s.appliance) 10000)) = (true, u) →
    ∃ t : State, exec (.pmpModelLoad w) s = .next (answered t m 0x0200 []) ∧ (t.ctx c).model = some y ∧
      (t.ctx c).resid.sources = src ∧ t.mem = s.mem ∧ t.seqs = s.seqs ∧
      (y.share = none → ∀ l < y.moe, ∀ e ≤ y.last.getD l 0, ((t.ctx c).route.active.expert l e).avail = true ∧
        ((t.ctx c).route.active.expert l e).replicas.length = 1)) ∧
  (∀ (w c l f n h : Nat) (y : Model) (m : Msg) (s : State), Takes s w 0x0201 m → Spells [.u8, .u16, .u16, .u16, .u32] m [c, l, f, n, h] →
    Admits s m c → (s.ctx c).model = some y → y.share = none → l < y.moe → f + n ≤ (s.ctx c).lastExpert l + 1 →
    (∀ k ∈ s.handleUse c h (n != 0 || h != 0) (n * imageSpan (s.imageBytes c)), k.1 = false) →
    (∀ i < n, s.imageOk h (i * imageSpan (s.imageBytes c)) (s.imageBytes c) = true) →
    ∃ (t : State) (full : Bool), exec (.pmpModelImages w) s = .next (answered t m 0x0201 [(.u8, b2n full)]) ∧
      (y.complete = true → full = true ∧ t = s) ∧
      (full = false → t.mem = s.mem ∧ t.seqs = s.seqs ∧ ∀ i < n, ∀ q, (s.ctx c).resid.sources.find (expKey l (f + i)) = some q →
        (t.ctx c).resid.sources.find (expKey l (f + i)) =
          some { q with image := s.bufBytes h (i * imageSpan (s.imageBytes c)) (s.imageBytes c)
                        crcs := s.imageCrcs h (i * imageSpan (s.imageBytes c)) (s.imageBytes c) })) ∧
  (∀ (w c epoch : Nat) (m : Msg) (s : State), Takes s w 0x0215 m → Admits s m c →
    (∀ x, (s.ctx c).steps.man = some x → x.epoch ≠ epoch) →
    ((s.ctx c).steps.doneMask.testBit epoch = true ∨ (s.ctx c).steps.killedMask.testBit epoch = true) →
    Spells [.u8, .u16, .u16, .u16, .u32, .r 512] m [c, epoch, 0, 0, 0, 0] →
    exec (.pmpPlanSet w) s = .next (s.complete m fwGuide .cancelled [])) ∧
  (∀ (w c l h : Nat) (x : Manifest) (y : Model) (m : Msg) (s : State), Takes s w 0x0215 m → Admits s m c →
    (s.ctx c).steps.man = some x → (s.ctx c).model = some y → l < y.moe → s.bufBad c h (planBytes (s.ctx c).boundRoute [l]) = none →
    ((s.planArrays (s.ctx c).boundRoute h [l] 0).any (fun z => s.planOver c (s.ctx c).boundRoute z)) = false →
    Spells [.u8, .u16, .u16, .u16, .u32, .r 512] m [c, x.epoch, l, 1, h, 0] →
    ((s.ctx c).layer (2 * l)).sealing = false → ((s.ctx c).layer (2 * l + 1)).sealing = false →
    ∃ caps, exec (.pmpPlanSet w) s = .next (answered
        (s.onCtx c (fun z => { z with plans := { z.plans with host := caps } })) m 0x0215 []) ∧
      ∀ z ∈ s.planArrays (s.ctx c).boundRoute h [l] 0, caps.getD z.1 [] =
        z.2.foldl (fun (t : Tbl Nat) e => t.put (capKey e.1 e.2.1) e.2.2.2) [])

/-- R72, R73, R88, R89, R98, R143 (Tables 4-1, 5-2, 6-5): a route message merges into the shadow copy; between steps the
copy flips at once, and during a step the message waits for the flip. -/
def Obligations.RouteMessages : Prop :=
  (∀ (w c l cfg : Nat) (y : Ctx) (v : State) (m : Msg) (s : State), Takes s w 0x0210 m →
    Spells [.u8, .u16, .r 256] m [c, l, cfg] → Admits s m c →
    (∀ k ∈ s.layerChecks c l ++ s.routeChecks c l cfg, k.1 = false) →
    let need := spillBytes (s.ctx c).steps.tokenLimit (s.ctx c).share.dModel
      (if (s.ctx c).steps.mode then Nat.max (s.ctx c).draft.kmax (cfgKmax cfg) else 1)
    (s.ctx c).fitSpill need = some y →
    (s.onCtx c (fun _ => y)).fitCopies c ((s.routeChange m (s.ctx c).draft).bytes (((s.ctx c).model.map (·.moe)).getD 0)
      (ceilDiv ((s.ctx c).expertCount * headroomBp s.appliance) 10000)) = (true, v) →
    (s.ctx c).landingFits (s.ctx c).steps.tokenLimit (Nat.max (s.ctx c).draft.kmax (cfgKmax cfg)) = true →
    (s.ctx c).holdsOld 0 = false →
    (((s.ctx c).idle = true) → ∃ t : State,
      exec (.pmpRouteConfig w) s = .next (answered t m 0x0210 [(.u32, ((s.ctx c).route.gen + 1) % 2 ^ 32)]) ∧
      (t.ctx c).route.gen = ((s.ctx c).route.gen + 1) % 2 ^ 32 ∧ ((t.ctx c).route.active.layer l).cfg = cfg ∧
      (∀ k, k ≠ l → (t.ctx c).route.active.layer k = (s.ctx c).draft.layer k) ∧
      (t.ctx c).route.active.experts = (s.ctx c).draft.experts ∧ t.mem = s.mem ∧ t.seqs = s.seqs) ∧
    (((s.ctx c).idle = false) → ∃ (u : State) (r : Route),
      exec (.pmpRouteConfig w) s = .next (u.setPhase m (.atFlip (((s.ctx c).route.gen + 1) % 2 ^ 32))) ∧
      (u.ctx c).route = ⟨(s.ctx c).route.gen, (s.ctx c).route.active, .shadow r⟩ ∧ (r.layer l).cfg = cfg ∧
      (∀ k, k ≠ l → r.layer k = (s.ctx c).draft.layer k) ∧ u.mem = s.mem ∧ u.host = s.host)) ∧
  (∀ (w c l cfg : Nat) (r : Route) (y : Ctx) (v : State) (m : Msg) (s : State), Takes s w 0x0210 m →
    Spells [.u8, .u16, .r 256] m [c, l, cfg] → Admits s m c → (∀ k ∈ s.layerChecks c l ++ s.routeChecks c l cfg, k.1 = false) →
    (s.ctx c).fitSpill (spillBytes (s.ctx c).steps.tokenLimit (s.ctx c).share.dModel
      (if (s.ctx c).steps.mode then Nat.max (s.ctx c).draft.kmax (cfgKmax cfg) else 1)) = some y →
    (s.onCtx c (fun _ => y)).fitCopies c ((s.routeChange m (s.ctx c).draft).bytes (((s.ctx c).model.map (·.moe)).getD 0)
      (ceilDiv ((s.ctx c).expertCount * headroomBp s.appliance) 10000)) = (true, v) →
    (s.ctx c).landingFits (s.ctx c).steps.tokenLimit (Nat.max (s.ctx c).draft.kmax (cfgKmax cfg)) = true →
    (s.ctx c).route.other = .old r → (s.ctx c).oldReferenced 0 = true →
    ∃ t : State, exec (.pmpRouteConfig w) s = .next (t.setPhase m (.reloadWait (m.stamp + 1000000))) ∧
      (t.ctx c).route = (s.ctx c).route ∧ t.mem = s.mem ∧ t.host = s.host) ∧
  (∀ (w c l h : Nat) (m : Msg) (s : State), Takes s w 0x0211 m → Spells [.u8, .u16, .u32] m [c, l, h] → Admits s m c →
    (∀ k ∈ s.layerChecks c l, k.1 = false) → ((s.ctx c).draft.layer l).cfg ≠ 0 →
    cfgBias ((s.ctx c).draft.layer l).cfg = true → s.bufBad c h (4 * cfgCols ((s.ctx c).draft.layer l).cfg) = none →
    (s.ctx c).holdsOld 0 = false → (s.ctx c).idle = true → ∃ t : State,
      exec (.pmpRouteBias w) s = .next (answered t m 0x0211 [(.u32, ((s.ctx c).route.gen + 1) % 2 ^ 32)]) ∧
      (t.ctx c).route.active.layer l = { (s.ctx c).draft.layer l with
        cfg := setBits ((s.ctx c).draft.layer l).cfg 160 32 h
        bias := s.bufWords h (cfgCols ((s.ctx c).draft.layer l).cfg) } ∧
      (∀ k, k ≠ l → (t.ctx c).route.active.layer k = (s.ctx c).draft.layer k) ∧ t.mem = s.mem ∧ t.seqs = s.seqs) ∧
  (∀ (w c l ws g : Nat) (m : Msg) (s : State), Takes s w 0x0214 m → Spells [.u8, .u16, .u16, .r 128] m [c, l, ws, g] → Admits s m c →
    (∀ k ∈ s.layerChecks c l, k.1 = false) → bits g 8 8 = 0 → dispMode g ≠ 3 → dispFmt g ∈ [1, 2, 3, 4, 8] →
    (Num.codeMx (dispFmt g) = true → (s.ctx c).share.dModel % 32 = 0) → badScale32 (dispScale g) = false →
    0x100 ≤ dispFactor g → 0x100 ≤ dispHead g → dispWindow g ≠ 0 → (dispMode g = 1 → s.emitWsBad c ws = false) →
    16 ≤ s.ownAllowance c (dispFmt g) → (s.ctx c).draft.has l = true →
    (s.ctx c).holdsOld 0 = false → (s.ctx c).idle = true → ∃ t : State,
      exec (.pmpDispatchConfig w) s = .next (answered t m 0x0214 [(.u32, ((s.ctx c).route.gen + 1) % 2 ^ 32)]) ∧
      (t.ctx c).route.active.layer l = { (s.ctx c).draft.layer l with disp := g, planWs := ws } ∧
      (∀ k, k ≠ l → (t.ctx c).route.active.layer k = (s.ctx c).draft.layer k) ∧ t.mem = s.mem ∧ t.seqs = s.seqs) ∧
  (∀ (w c l g : Nat) (m : Msg) (s : State), Takes s w 0x0217 m → Spells [.u8, .u16, .r 128] m [c, l, g] → Admits s m c →
    (∀ k ∈ s.layerChecks c l, k.1 = false) → bits g 12 4 = 0 → bits g 112 16 = 0 → combResid g ≤ 1 → combOut g ≤ 1 →
    (combEps g < 0x7F800000 ∨ combEps g = 0x80000000) → (combFused g = true → combGamma g ≠ 0 ∧ s.bufBad c (combGamma g) (2 * (s.ctx c).share.dModel) = none) →
    (combFused g = false → combGamma g = 0 ∧ combBeta g = 0) → (combVar g = false → combBeta g = 0) →
    (combBeta g ≠ 0 → s.bufBad c (combBeta g) (2 * (s.ctx c).share.dModel) = none) → (s.ctx c).draft.has l = true →
    (s.ctx c).holdsOld 0 = false → (s.ctx c).idle = true → ∃ t : State,
      exec (.pmpCombineConfig w) s = .next (answered t m 0x0217 [(.u32, ((s.ctx c).route.gen + 1) % 2 ^ 32)]) ∧
      (t.ctx c).route.active.layer l = { (s.ctx c).draft.layer l with comb := g } ∧
      (∀ k, k ≠ l → (t.ctx c).route.active.layer k = (s.ctx c).draft.layer k) ∧ t.mem = s.mem ∧ t.seqs = s.seqs) ∧
  (∀ (w c l a n : Nat) (m : Msg) (s : State), Takes s w 0x0212 m → Spells [.u8, .u16, .u16, .u16] m [c, l, a, n] → Admits s m c →
    (∀ k ∈ s.layerChecks c l, k.1 = false) → (s.ctx c).route.active.has l = true → a + n ≤ (s.ctx c).lastExpert l + 1 → n ≤ 499 →
    let r := (s.ctx c).route
    exec (.pmpRouteQuery w) s = .next (answered s m 0x0212 ([(.u32, r.gen), (.r 256, (r.active.layer l).cfg),
      (.r 128, (r.active.layer l).disp), (.r 128, (r.active.layer l).comb)] ++
      (List.range n).map (fun i => (Fld.u64, r.active.entryWord l (a + i)))))) ∧
  (∀ (w c l : Nat) (m : Msg) (s : State), Takes s w 0x0213 m → Spells [.u8, .u16, .u32] m [c, l, 0] → Admits s m c →
    (∀ k ∈ s.layerChecks c l, k.1 = false) →
    exec (.pmpRouteStats w) s = .next (answered s m 0x0213 (ctrFlds (s.ctx c).ctr routeCtrs))) ∧
  (∀ (w c l h : Nat) (m : Msg) (s : State), Takes s w 0x0213 m → Spells [.u8, .u16, .u32] m [c, l, h] → Admits s m c →
    (∀ k ∈ s.layerChecks c l, k.1 = false) → h ≠ 0 → s.bufBad c h (4 * ((s.ctx c).lastExpert l + 1)) = none →
    ∃ bs, exec (.pmpRouteStats w) s = .next (answered (s.writeAt (s.slotOf h).base bs) m 0x0213
        (ctrFlds (s.ctx c).ctr routeCtrs)) ∧ bs.length = 4 * ((s.ctx c).lastExpert l + 1) ∧
      ((s.ctx c).route.active.has l = true → ∀ e ≤ (s.ctx c).lastExpert l,
        ofLE ((bs.drop (4 * e)).take 4) = (s.ctx c).histOf l e % 2 ^ 32)) ∧
  (∀ (w c us : Nat) (m : Msg) (s : State), Takes s w 0x0219 m → Spells [.u8, .u32] m [c, us] → Admits s m c → 10 ≤ us → us ≤ 10000 →
    exec (.pmpReturnTimeout w) s = .next (answered (s.onCtx c (fun x => { x with returnUs := us })) m 0x0219 []))

/-- R208, R209, R210, R211, R207, R89, R90 (Tables 9-5, 10-1): special-function and layout tables, the release of an old
copy, and a change that waited longer than 1 ms. -/
def Obligations.TableMessages : Prop :=
  (∀ (w c h : Nat) (m : Msg) (s : State), Takes s w 0x0230 m → Spells [.u8, .u32] m [c, h] → Admits s m c →
    let hd := ofLE (s.bufBytes h 0 32)
    s.bufBad c h 32 = none → 0x20 ≤ bits hd 0 8 → bits hd 0 8 ≤ 0x27 → bit hd 12 = true →
    s.owns m.sess (bits hd 8 4) = true →
    (s.ctx c).holdsOld 1 = false → (s.ctx c).idle = true → ∃ t : State,
      exec (.pmpSfnLoad w) s = .next (answered t m 0x0230 [(.u32, ((s.ctx c).sfn.gen + 1) % 2 ^ 32)]) ∧
      (t.ctx c).sfn.active = (s.ctx c).sfnDraft.del (bits hd 0 8) ∧ (t.ctx c).sfn.active.find (bits hd 0 8) = none ∧
      t.mem = s.mem ∧ t.seqs = s.seqs) ∧
  (∀ (w c h : Nat) (m : Msg) (s : State), Takes s w 0x0230 m → Spells [.u8, .u32] m [c, h] → Admits s m c →
    let hd := ofLE (s.bufBytes h 0 32)
    let segs := (List.range (sfnSegments hd)).map (fun i => ofLE (s.bufBytes h (32 + 16 * i) 16))
    s.bufBad c h (32 + 16 * sfnSegments hd) = none → 0x20 ≤ bits hd 0 8 → bits hd 0 8 ≤ 0x27 → bit hd 12 = false →
    bits hd 13 3 = 0 → bit hd 31 = false → bits hd 36 4 = 0 → bits hd 168 88 = 0 → bits hd 34 2 ≠ 3 → 0 < bits hd 24 7 →
    bits hd 24 7 ≤ 64 → -126 ≤ signed 8 (bits hd 16 8) → signed 8 (bits hd 16 8) + (bits hd 24 7 : Int) ≤ 128 →
    bits hd 32 2 ≠ 0 → (∀ x ∈ segs, segBad x = false ∧ bits x 90 38 = 0) → s.owns m.sess (bits hd 8 4) = true →
    tableUnits ((s.ctx c).sfnDraft.put (bits hd 0 8) ⟨hd, [], h⟩) ≤ (s.ctx c).share.table64k →
    (s.ctx c).holdsOld 1 = false → (s.ctx c).idle = true → ∃ t : State,
      exec (.pmpSfnLoad w) s = .next (answered t m 0x0230 [(.u32, ((s.ctx c).sfn.gen + 1) % 2 ^ 32)]) ∧
      (t.ctx c).sfn.active = (s.ctx c).sfnDraft.put (bits hd 0 8) ⟨hd, segs, h⟩ ∧ t.mem = s.mem ∧ t.seqs = s.seqs) ∧
  (∀ (w c : Nat) (m : Msg) (s : State), Takes s w 0x0231 m → Spells [.u8] m [c] → Admits s m c →
    ∃ mask, exec (.pmpSfnQuery w) s = .next (answered s m 0x0231 ([(.u32, (s.ctx c).sfn.gen), (.u32, (s.ctx c).sfnRev), (.u8, mask)]
        ++ ctrFlds (s.ctx c).ctr sfnCtrs ++ (s.ctx c).sfn.active.map (fun e => (Fld.r 256, e.2.header)))) ∧
      ∀ k < 8, mask.testBit k = ((s.ctx c).sfn.active.keys.map (· - 0x20)).contains k) ∧
  (∀ (w c f n h : Nat) (m : Msg) (s : State), Takes s w 0x0232 m → Spells [.u8, .u16, .u16, .u32] m [c, f, n, h] → Admits s m c →
    f + n ≤ 4096 → s.bufBad c h (64 * n) = none → (s.ctx c).holdsOld 2 = false → (s.ctx c).idle = true → ∃ t : State,
      exec (.pmpLayoutLoad w) s = .next (answered t m 0x0232 [(.u32, ((s.ctx c).lay.gen + 1) % 2 ^ 32)]) ∧
      (∀ i < n, (t.ctx c).lay.active.getD (f + i) 0 = ofLE (s.bufBytes h (64 * i) 64)) ∧
      ((∀ r, (s.ctx c).lay.other ≠ .shadow r) → ∀ k, (k < f ∨ f + n ≤ k) →
        (t.ctx c).lay.active.getD k 0 = (s.ctx c).lay.active.getD k 0) ∧ t.mem = s.mem ∧ t.seqs = s.seqs) ∧
  (∀ (w c f n : Nat) (m : Msg) (s : State), Takes s w 0x0233 m → Spells [.u8, .u16, .u16] m [c, f, n] → Admits s m c →
    f + n ≤ 4096 → n ≤ 63 →
    exec (.pmpLayoutQuery w) s = .next (answered s m 0x0233 ([(.u32, (s.ctx c).lay.gen)] ++
      (List.range n).map (fun i => (Fld.r 512, (s.ctx c).lay.active.getD (f + i) 0))))) ∧
  (∀ (c : Nat) (r : Route) (s : State), c < 16 → c < s.ctxs.length → (s.ctx c).st = .active → (s.ctx c).route.other = .old r →
    ((s.ctx c).route.active.bytes (((s.ctx c).model.map (·.moe)).getD 0) 0 ≤ (s.ctx c).copyBytes ∨ (s.ctx c).copyBytes = 0) →
    (s.ctx c).oldReferenced 0 = false → (s.ctx c).khan.deferred = [] → (s.ctx c).guideWait = [] → s.host.msgs = [] →
    exec (.generationRelease c 0) s = .next (s.onCtx c (fun x => { x with route := { x.route with other := .free } }))) ∧
  (∀ (c k : Nat) (s : State), c < 16 → k < 3 → (s.ctx c).st = .active → (s.ctx c).holdsOld k = true →
    ((s.ctx c).oldReferenced k = true ∨ s.runBinds c k = true) → exec (.generationRelease c k) s = .next s) ∧
  (∀ (w d : Nat) (m : Msg) (s : State), s.host.msgs = [m] → m.win = w → m.phase = .reloadWait d → d < s.now →
    exec (.tableReloadTimeout w) s = .next (s.complete m (owner m.op) .busy []))

/-! ### Residency messages, tiers and lending -/

/-- R163, R164, R165, R169 (Tables 7-4, 7-6), and R229, R123, R146, R171, R193, R239, R253, R275, R297, R369: the residency
messages; a counter message answers with its whole table, in table order. -/
def Obligations.ResidencyAndCounters : Prop :=
  (∀ (w c p : Nat) (m : Msg) (s : State), Takes s w 0x0222 m → Spells [.u8, .r 128] m [c, p] → Admits s m c →
    bits p 4 4 = 0 → bits p 104 24 = 0 → bits p 0 2 ≠ 3 → bits p 8 16 ≠ 0 → bits p 24 16 ≠ 0 → bits p 40 16 ≠ 0 →
    bits p 72 16 ≠ 0 → bits p 88 16 ≠ 0 →
    ∃ t : State, exec (.pmpResidencyPolicy w) s = .next (answered t m 0x0222 []) ∧ (t.ctx c).resid.policy = p ∧
      (t.ctx c).resid.planPolicy = (s.ctx c).resid.planPolicy ∧ t.mem = s.mem ∧ t.seqs = s.seqs ∧
      ((∀ e ∈ (s.ctx (s.imgOwner c)).resid.sources, e.2.pkg = s.board.pkgId → e.2.mirror.isSome = true) →
        t = s.onCtx c (fun x => { x with resid := { x.resid with policy := p } }))) ∧
  (∀ (w c l f n kind v : Nat) (m : Msg) (s : State), Takes s w 0x0220 m →
    Spells [.u8, .u16, .u16, .u32, .u8, .u8] m [c, l, f, n, kind, v] → Admits s m c → (∀ k ∈ s.layerChecks c l, k.1 = false) →
    0 < kind → kind ≤ 7 → (kind = 3 ∨ kind = 4 → 0 < v ∧ v ≤ 16) → (kind = 5 → v ≤ 1) →
    (n ≠ 0 → f + n ≤ (s.ctx c).lastExpert l + 1) → (s.ctx c).resid.held = [] →
    ∃ (t : State) (a h : Nat), exec (.pmpExpertHint w) s = .next (answered t m 0x0220 [(.u32, a), (.u32, h)]) ∧ a + h = n ∧
      t.mem = s.mem ∧ t.seqs = s.seqs ∧ (n = 0 → t = s) ∧
      (n = 1 → kind ≠ 2 → kind ≠ 7 → s.hintFits c l f kind v = true →
        a = 1 ∧ (t.ctx c).resid.hint (expKey l f) kind = some v) ∧
      (n = 1 → kind ≠ 2 → kind ≠ 7 → s.hintFits c l f kind v = false →
        h = 1 ∧ (t.ctx c).resid.hints = (s.ctx c).resid.hints ∧ (kind, v) ∈ (t.ctx c).resid.held.getD (expKey l f) []) ∧
      (n = 1 → kind = 7 → a = 1 ∧ (t.ctx c).resid.hints.find (expKey l f) = none) ∧
      (n = 1 → kind = 2 → a = 1 ∧ (t.ctx c).resid.hint (expKey l f) 1 = none)) ∧
  (∀ (w c l e : Nat) (m : Msg) (s : State), Takes s w 0x0221 m → Spells [.u8, .u16, .u16] m [c, l, e] → Admits s m c →
    (∀ k ∈ s.layerChecks c l, k.1 = false) → e ≤ (s.ctx c).lastExpert l →
    let rs := ((s.ctx c).route.active.expert l e).replicas
    ∃ fs : List (Fld × Nat), exec (.pmpResidencyQuery w) s = .next (answered { s with freeCtr := s.freeCtr + 16 } m 0x0221 fs) ∧
      fs.length = 6 + rs.length ∧
      fs.take 2 = [(.u64, (s.ctx c).route.active.entryWord l e), (.u64, s.heatSum c (expKey l e))] ∧
      ∀ i r, rs[i]? = some r → ∃ st, fs[6 + i]? = some (.u64, r.word + st * 2 ^ 32) ∧
        (r.pkg = s.board.pkgId → st = (((s.frames c).frame l e i).map (fun (z : Frame) => z.st)).getD 0)) ∧
  (∀ (w c l e h : Nat) (m : Msg) (s : State), Takes s w 0x0223 m → Spells [.u8, .u16, .u16, .u32] m [c, l, e, h] → Admits s m c →
    (∀ k ∈ s.layerChecks c l, k.1 = false) → e ≤ (s.ctx c).lastExpert l →
    (((s.ctx c).route.active.expert l e).cause = 1 ∨ ((s.ctx c).route.active.expert l e).cause = 3 ∨
      (s.frames c).unread.contains (expKey l e) = true) →
    s.bufBad c h (imageSpan (s.imageBytes c)) = none → hTier h = 1 → s.imageOk h 0 (s.imageBytes c) = true →
    s.t4Room (s.imgOwner c) (imageSpan (s.imageBytes c)) = true → s.imgOwner c < s.ctxs.length →
    ∃ u : State, exec (.pmpExpertReload w) s = .next (u.setPhase m (.residentWait l e)) ∧
      (u.ctx (s.imgOwner c)).resid.sources.find (expKey l e) =
        some ⟨s.board.pkgId, 4, s.bufBytes h 0 (s.imageBytes c), s.imageCrcs h 0 (s.imageBytes c), false, none⟩ ∧
      (u.ctx (s.imgOwner c)).resid.unread = (s.frames c).unread ∧ u.mem = s.mem ∧ u.seqs = s.seqs) ∧
  (∀ (w c : Nat) (m : Msg) (s : State), Admits s m c → Spells [.u8] m [c] →
    (Takes s w 0x0216 m → exec (.pmpDispatchStats w) s = .next (answered s m 0x0216 (ctrFlds (s.ctx c).ctr dispatchCtrs))) ∧
    (Takes s w 0x0218 m → exec (.pmpCombineStats w) s = .next (answered s m 0x0218 (ctrFlds (s.ctx c).ctr retCtrs))) ∧
    (Takes s w 0x0224 m → exec (.pmpResidencyStats w) s = .next (answered s m 0x0224 (ctrFlds (s.ctx c).ctr residCtrs))) ∧
    (Takes s w 0x0341 m → exec (.pmpLayoutStats w) s = .next (answered s m 0x0341 (ctrFlds (s.ctx c).ctr layoutCtrs))) ∧
    (Takes s w 0x0404 m → exec (.pmpCollStats w) s = .next (answered s m 0x0404 (ctrFlds (s.ctx c).ctr collCtrs))) ∧
    (Takes s w 0x0625 m → exec (.pmpArrayStats w) s = .next (answered s m 0x0625 (ctrFlds (s.ctx c).ctr arrayCtrs))) ∧
    (Takes s w 0x0314 m → exec (.pmpKhanStats w) s = .next (answered s m 0x0314 (ctrFlds (s.ctx c).ctr khanCtrs))) ∧
    (Takes s w 0x0303 m → exec (.pmpTierStats w) s = .next (answered s m 0x0303 (ctrFlds (s.ctx c).ctr tierCtrs))))

/-- R230, R231, R234 to R244 (Tables 11-3, 11-4): tier queries, hints, lending, lots, eviction and far returns. -/
def Obligations.TiersAndLending : Prop :=
  (∀ (w c : Nat) (m : Msg) (s : State), Takes s w 0x0300 m → Spells [.u8] m [c] → Admits s m c →
    ∃ fs, exec (.pmpTierQuery w) s = .next (answered s.freed m 0x0300 fs) ∧ fs.length = 48 ∧
      fs.take 3 = [(.u64, 0x6C000000), (.u64, (s.ctx c).share.stagingMib * 1048576), (.u64, ((s.ctx c).pool 0).usedBytes)] ∧
      (fs.drop 42).take 3 = [(.u64, s.farLimit), (.u64, (s.ctx c).share.t4Gib * 2 ^ 30), (.u64, s.t4Used c)]) ∧
  (∀ (w c q kind : Nat) (m : Msg) (s : State), Takes s w 0x0301 m → Spells [.u8, .u32, .u8] m [c, q, kind] → Admits s m c →
    (kind = 1 ∨ kind = 2 ∨ kind = 3) → q < 2 ^ 17 → (s.ctx c).hasSeq q = true →
    ∃ (t : State) (done : Bool), exec (.pmpMemHint w) s = .next (answered t m 0x0301 [(.u8, b2n done)]) ∧ t.mem = s.mem ∧
      t.seqs = s.seqs ∧ (kind ≠ 1 → done = true) ∧ (done = true → (q, kind) ∈ (t.ctx c).kv.hints) ∧
      (done = false → (q, kind) ∈ (t.ctx c).kv.heldHints ∧ (t.ctx c).kv.hints = (s.ctx c).kv.hints)) ∧
  (∀ (w c q : Nat) (m : Msg) (s : State), Takes s w 0x0301 m → Spells [.u8, .u32, .u8] m [c, q, 4] → Admits s m c →
    ∃ t : State, exec (.pmpMemHint w) s = .next (answered t m 0x0301 [(.u8, 1)]) ∧ (t.ctx c).kv.noLend = true ∧ t.mem = s.mem ∧
      t.seqs = s.seqs) ∧
  (∀ (w c q : Nat) (m : Msg) (s : State), Takes s w 0x0301 m → Spells [.u8, .u32, .u8] m [c, q, 5] → Admits s m c →
    q < 2 ^ 17 → (s.ctx c).hasSeq q = true →
    ∃ t : State, exec (.pmpMemHint w) s = .next (answered t m 0x0301 [(.u8, 1)]) ∧ (t.ctx c).kv.noLend = false ∧
      (∀ k, (q, k) ∉ (t.ctx c).kv.hints) ∧ t.mem = s.mem ∧ t.seqs = s.seqs) ∧
  (∀ (w c q kind : Nat) (m : Msg) (s : State), Takes s w 0x0301 m → Spells [.u8, .u32, .u8] m [c, q, kind] → Admits s m c →
    (kind = 1 ∨ kind = 2 ∨ kind = 3 ∨ kind = 5) → 2 ^ 17 ≤ q →
    exec (.pmpMemHint w) s = .next (s.complete m fwQuarter .format [])) ∧
  (∀ (w a b ms : Nat) (m : Msg) (s : State), Takes s w 0x0302 m → Spells [.u16, .u16, .u16] m [a, b, ms] → 0 < ms → ms ≤ 1000 →
    exec (.pmpLendConfig w) s
      = .next (answered { s with lend := { s.lend with lendT1 := a, lendT2 := b, recallMs := ms } } m 0x0302 [])) ∧
  (∀ (borrower c base : Nat) (s : State), s.booted = true → c < 16 → s.board.pkgId ≠ borrower → s.lotFree base = true →
    (s.fw fwQuarter).st = .running → (s.lentOf (aKind base) (bits base 52 2)).length < s.lend.limit (aKind base) →
    ∃ t : State, exec (.lotRequest s.board.pkgId borrower c base) s = .next t ∧
      t.lend.lots = s.lend.lots ++ [⟨base, borrower, c, none, false⟩] ∧ t.mem = s.mem ∧ t.ctxs = s.ctxs ∧ t.seqs = s.seqs) ∧
  (∀ (lender c base : Nat) (s : State), s.booted = true → c < 16 → c < s.ctxs.length → lender ≠ s.board.pkgId →
    (s.ctx c).st = .active → (s.ctx c).kv.noLend = false → (s.ctx c).kv.lots.length < (s.ctx c).share.t3Lots →
    (s.fw fwQuarter).st = .running → s.bestLender = some lender →
    (∀ l ∈ (s.ctx c).kv.lots, ¬ (l.lender = lender ∧ l.base = base)) →
    ∃ t : State, exec (.lotRequest lender s.board.pkgId c base) s = .next t ∧
      (t.ctx c).kv.lots = (s.ctx c).kv.lots ++ [⟨lender, base, s.now, false⟩] ∧ t.mem = s.mem ∧ t.lend = s.lend ∧ t.out = s.out ∧
      ctrGet (t.ctx c).ctr .lotsBorrowed = Ctr.plus .lotsBorrowed (ctrGet (s.ctx c).ctr .lotsBorrowed) 1) ∧
  (∀ (lender borrower c base : Nat) (s : State), (s.fw fwQuarter).st ≠ .running →
    exec (.lotRequest lender borrower c base) s = .next s ∧ exec (.lotRecall lender c base) s = .next s) ∧
  (∀ (c base : Nat) (l : Lent) (s : State), s.booted = true → c < 16 → s.nextRecall = some l → l.base = base →
    (s.fw fwQuarter).st = .running →
    ∃ t : State, exec (.lotRecall s.board.pkgId c base) s = .next t ∧
      t.lend.lots = s.lend.lots.map (fun x => if x = l then { x with recalled := some s.now } else x) ∧ t.mem = s.mem ∧
      t.ctxs = s.ctxs) ∧
  (∀ (lender c base : Nat) (l : Borrowed) (s : State), s.booted = true → c < 16 → c < s.ctxs.length → lender ≠ s.board.pkgId →
    (s.ctx c).kv.lots = [l] → l.lender = lender → l.base = base → (s.ctx c).kv.cols = [] → (s.ctx c).resid.sources = [] →
    (s.fw fwQuarter).st = .running →
    exec (.lotRecall lender c base) s = .next (s.onCtx c (fun x => { x with kv := { x.kv with
      lots := [{ l with recalled := true }] } }))) ∧
  (∀ (base t0 : Nat) (l : Lent) (s : State), s.lend.lots = [l] → l.base = base → l.logged = false → l.recalled = some t0 →
    t0 + s.lend.recallMs * 1000000 < s.now →
    ∃ t : State, exec (.recallOverdue base) s = .next t ∧ t.lend.lots = [{ l with logged := true }] ∧ t.mem = s.mem ∧
      (∃ m ∈ t.flt.arriving, m.kind = 0x24 ∧ m.cls = 0 ∧ m.source = 0x80A ∧ m.ctx = l.ctx) ∧ t.seqs = s.seqs) ∧
  (∀ (c base : Nat) (s : State), (∃ l ∈ s.lend.lots, l.base = base) →
    ∃ x, exec (.lotRelease s.board.pkgId c base) s = .next { s with
        lend := { s.lend with lots := s.lend.lots.filter (fun l => l.base != base) }, host := { s.host with msgs := x } } ∧
      x.length = s.host.msgs.length ∧ (∀ m ∈ x, m.phase ≠ .lotWait)) ∧
  (∀ (lender c base : Nat) (l : Borrowed) (s : State), c < s.ctxs.length → lender ≠ s.board.pkgId → (s.ctx c).kv.lots = [l] →
    l.lender = lender → l.base = base → l.recalled = true → s.lotUsed c l = 0 →
    ∃ t : State, exec (.lotRelease lender c base) s = .next t ∧ (t.ctx c).kv.lots = [] ∧ t.mem = s.mem ∧ t.lend = s.lend) ∧
  (∀ (c : Nat) (g : Option (Nat × Nat)) (s : State), c < 16 → (s.ctx c).kv.wanted = (0, 0) →
    exec (.kvEviction c g) s = .next s) ∧
  (∀ (c age low n : Nat) (g : Option (Nat × Nat)) (s : State), c < 16 → c < s.ctxs.length → (s.ctx c).st = .active →
    s.allVictims c = [(age, low, .col n)] → ((s.ctx c).kv.col n).far = none → (s.ctx c).kv.lots = [] →
    (s.ctx c).mayBorrow = false →
    let k := (s.ctx c).kv.col n
    let want := (s.ctx c).kv.wanted.1 * (s.ctx c).colGran false + (s.ctx c).kv.wanted.2 * (s.ctx c).colGran true
    (s.ctx c).kv.covered < want →
    (s.t4Room c (k.granules.length * granule) = true → want ≤ (s.ctx c).kv.covered + k.granules.length →
      (s.ctx c).kv.cols.find n ≠ none →
      ∃ t : State, exec (.kvEviction c g) s = .next t ∧ (t.ctx c).kv.wanted = (0, 0) ∧ (t.ctx c).kv.covered = 0 ∧
        ((t.ctx c).kv.col n).far = some .t4 ∧ ((t.ctx c).kv.col n).saved = granCells s.mem k.granules ∧
        (t.ctx c).kv.evicted = (s.ctx c).kv.evicted ++ k.granules ∧ t.mem = s.mem ∧
        (∀ q ∈ s.holders c n, (t.seq q).kvFar = true)) ∧
    (s.t4Room c (k.granules.length * granule) = false →
      ∃ t : State, exec (.kvEviction c g) s = .next t ∧ (t.ctx c).kv.wanted = (s.ctx c).kv.wanted ∧
        (t.ctx c).kv.cols = (s.ctx c).kv.cols ∧ (t.ctx c).kv.blocked = true ∧ t.mem = s.mem ∧ t.seqs = s.seqs ∧
        ((s.ctx c).kv.blocked = false →
          ctrGet (t.ctx c).ctr .evictBlocked = Ctr.plus .evictBlocked (ctrGet (s.ctx c).ctr .evictBlocked) 1) ∧
        ((s.ctx c).kv.blocked = true → ctrGet (t.ctx c).ctr .evictBlocked = ctrGet (s.ctx c).ctr .evictBlocked))) ∧
  (∀ (c age low l e : Nat) (f : Frame) (g : Option (Nat × Nat)) (s : State), c < 16 → c < s.ctxs.length →
    (s.ctx c).st = .active → s.allVictims c = [(age, low, .frame l e 0)] → (s.ctx c).resid.frames = [f] →
    (s.ctx c).resid.frame l e 0 = some f → s.frameEvictable c f = true →
    let want := (s.ctx c).kv.wanted.1 * (s.ctx c).colGran false + (s.ctx c).kv.wanted.2 * (s.ctx c).colGran true
    (s.ctx c).kv.covered < want → want ≤ (s.ctx c).kv.covered + f.granules.length →
    ∃ t : State, exec (.kvEviction c g) s = .next t ∧ (t.ctx c).kv.wanted = (0, 0) ∧ (t.ctx c).resid.frames = [] ∧
      t.mem = s.mem ∧ t.seqs = s.seqs ∧
      ctrGet (t.ctx c).ctr .evictFrames = Ctr.plus .evictFrames (ctrGet (s.ctx c).ctr .evictFrames) 1) ∧
  (∀ (c q n : Nat) (g : List Nat) (rest : List (List Nat)) (s : State), c < 16 → c < s.ctxs.length → (s.ctx c).st = .active →
    (s.ctx c).steps.between = false → s.waking c = [q] → (s.seq q).ctx = c → s.farCols q = [n] → ((s.ctx c).kv.col n).ring = false →
    (s.ctx c).kv.freeFull = g :: rest → (s.ctx c).kv.cols.find n ≠ none →
    ∃ t : State, exec (.kvFarReturn c) s = .next t ∧ ((t.ctx c).kv.col n).far = none ∧ ((t.ctx c).kv.col n).granules = g ∧
      (t.ctx c).kv.freeFull = rest ∧ t.mem = granFill s.mem g ((s.ctx c).kv.col n).saved)

/-! ### Khan, Waystations and Tally Posts -/

/-- R254, R255, R257 to R263 (Table 12-1): Khan's messages and engines. -/
def Obligations.KhanAllocation : Prop :=
  (∀ (w c tier die n h a : Nat) (u : State) (m : Msg) (s : State), Takes s w 0x0310 m → Spells [.u8, .u8, .u8, .u64] m [c, tier, die, n] →
    Admits s m c → tier < 3 → die ≤ 3 → (die = 0 ∨ tier = 2) →
    n ≤ 1048576 * (if tier = 0 then (s.ctx c).share.stagingMib else if tier = 1 then (s.ctx c).share.t1Mib
      else (s.ctx c).share.t2Mib.getD die 0) →
    (n = 0 → exec (.pmpKhanAlloc w) s = .next (answered s m 0x0310 [(.u32, 0), (.u64, 0)])) ∧
    (n ≠ 0 → s.khanAlloc c tier die 0 n = (some (h, a), u) →
      exec (.pmpKhanAlloc w) s = .next (answered u m 0x0310 [(.u32, h), (.u64, s.board.pkgId * 2 ^ 57 + a)])) ∧
    (n ≠ 0 → s.khanAlloc c tier die 0 n = (none, u) → exec (.pmpKhanAlloc w) s = .next (u.complete m fwQuarter .noMemory []))) ∧
  (∀ (c engine tier die n h a : Nat) (u : State) (s : State), c < s.ctxs.length → 0 < n → n ≤ 4194304 → poolIdx tier die < (s.ctx c).khan.pools.length →
    s.khanAlloc c tier die engine n = (some (h, a), u) →
    hCtx h = c % 16 ∧ (((s.ctx c).pool (poolIdx tier die)).used.find a) = none ∧
      ((u.ctx c).pool (poolIdx tier die)).used.find a = some engine ∧
      (∃ k, n ≤ classBytes k ∧ k < 8 ∧ ∃ b, (b, k) ∈ ((s.ctx c).pool (poolIdx tier die)).chunks ∧ b ≤ a ∧
        a + classBytes k ≤ b + 4194304 ∧ (a - b) % classBytes k = 0) ∧ u.mem = s.mem ∧ u.seqs = s.seqs) ∧
  (∀ (w c h : Nat) (m : Msg) (s : State), Takes s w 0x0311 m → Spells [.u8, .u32] m [c, h] → Admits s m c → s.handleBad c h = none →
    (((s.ctx c).pool (hPool h)).badFree (s.slotOf h).base = true →
      exec (.pmpKhanFree w) s = .next (answered (s.badFree c (s.slotOf h).base) m 0x0311 [])) ∧
    (((s.ctx c).pool (hPool h)).badFree (s.slotOf h).base = false → (s.ctx c).genNames h = false → ∃ t : State, exec (.pmpKhanFree w) s = .next (answered t m 0x0311 []) ∧
      (∃ k, (t.ctx c).khan.slots.find (hSlot h) = some k ∧ k.live = false) ∧
      (t.ctx c).khan.freed = (s.ctx c).khan.freed ++ [hSlot h] ∧ t.mem = s.mem ∧ t.seqs = s.seqs) ∧
    (((s.ctx c).pool (hPool h)).badFree (s.slotOf h).base = false → (s.ctx c).genNames h = true →
      h ∉ (s.ctx c).khan.deferred → ∃ t : State, exec (.pmpKhanFree w) s = .next (answered t m 0x0311 []) ∧
      (t.ctx c).khan = { (s.ctx c).khan with deferred := (s.ctx c).khan.deferred ++ [h] } ∧ t.mem = s.mem ∧ t.seqs = s.seqs)) ∧
  (∀ (w c h : Nat) (st : Status) (m : Msg) (s : State), Takes s w 0x0311 m → Spells [.u8, .u32] m [c, h] → Admits s m c →
    s.handleBad c h = some st → exec (.pmpKhanFree w) s = .next (s.complete m fwQuarter st [])) ∧
  (∀ (w c engine tier die quota : Nat) (m : Msg) (s : State), Takes s w 0x0312 m →
    Spells [.u8, .u8, .u8, .u8, .u64] m [c, engine, tier, die, quota] → Admits s m c → engine ≤ 0xB → tier < 3 → die ≤ 3 →
    (die = 0 ∨ tier = 2) → quota ≤ noQuota →
    ∃ t : State, exec (.pmpKhanQuota w) s = .next (answered t m 0x0312 []) ∧ (t.ctx c).quota engine (poolIdx tier die) = quota ∧
      (∀ e p, p < 8 → ¬ (e = engine ∧ p = poolIdx tier die) → (t.ctx c).quota e p = (s.ctx c).quota e p) ∧ t.mem = s.mem ∧
      t.seqs = s.seqs) ∧
  (∀ (c engine tier die n : Nat) (s : State), (s.ctx c).st = .active → 0 < n → engine ≤ 0xB → tier ≤ 2 → die ≤ 3 →
    exec (.khanAlloc c engine tier die n) s = .next (s.khanAlloc c tier die engine n).2) ∧
  (∀ (c pool a : Nat) (s : State), (s.ctx c).st = .active → pool < 6 → ((s.ctx c).pool pool).badFree a = true →
    ∃ t : State, exec (.khanFree c pool a) s = .next t ∧ (t.ctx c).khan = (s.ctx c).khan ∧
      (∃ m ∈ t.flt.arriving, m.kind = 0x0B ∧ m.cls = 1 ∧ m.source = 0x80B ∧ m.ctx = c) ∧ t.mem = s.mem) ∧
  (∀ (c pool a k : Nat) (s : State), c < s.ctxs.length → (s.ctx c).st = .active → pool < 6 → pool < (s.ctx c).khan.pools.length →
    ((s.ctx c).pool pool).classOf a = some k → a % classBytes k = 0 → (((s.ctx c).pool pool).used.find a).isSome = true →
    (∀ e ∈ (s.ctx c).khan.slots, ¬ (e.2.live = true ∧ e.2.base = a)) →
    ∃ t : State, exec (.khanFree c pool a) s = .next t ∧ ((t.ctx c).pool pool).used = ((s.ctx c).pool pool).used.del a ∧
      (t.ctx c).khan.slots = (s.ctx c).khan.slots ∧ t.flt = s.flt ∧ t.mem = s.mem) ∧
  (∀ (c pool k : Nat) (s : State), c < s.ctxs.length → (s.ctx c).st = .active → pool < 6 → k < 8 → pool < (s.ctx c).khan.pools.length →
    k < ((s.ctx c).pool pool).cached.length →
    ∃ t : State, exec (.khanRefill c pool k) s = .next t ∧ t.mem = s.mem ∧
      ((t.ctx c).pool pool).used = ((s.ctx c).pool pool).used ∧
      let n := ((s.ctx c).pool pool).cached.getD k 0
      ((t.ctx c).pool pool).cached.getD k 0 = if n < 64 then n + Nat.min 128 (((s.ctx c).pool pool).freeCount k - n)
        else if 448 < n then n - 128 else n) ∧
  (∀ (c pool chunk old k : Nat) (s : State), c < s.ctxs.length → (s.ctx c).st = .active → pool < 6 → k < 8 →
    pool < (s.ctx c).khan.pools.length →
    ((s.ctx c).pool pool).chunks.find chunk = some old → old ≠ k → ((s.ctx c).pool pool).freeCount k = 0 →
    (∀ e ∈ ((s.ctx c).pool pool).used, e.1 / 4194304 * 4194304 ≠ chunk) → (s.fw fwQuarter).st = .running →
    ∃ t : State, exec (.khanChunkMove c pool chunk k) s = .next t ∧ ((t.ctx c).pool pool).chunks.find chunk = some k ∧
      ((t.ctx c).pool pool).used = ((s.ctx c).pool pool).used ∧ t.mem = s.mem)

/-- R264 to R272, R274 (Tables 12-5, 12-6): the Waystation messages, and the move between the parts of a queue. -/
def Obligations.WaystationMessages : Prop :=
  (∀ (w c width consumer depth flags h a : Nat) (u : State) (m : Msg) (s : State), Takes s w 0x0320 m →
    Spells [.u8, .u8, .u8, .u8, .u32] m [c, width, consumer, depth, flags] → Admits s m c → flags < 4 → width ≤ 4 → consumer ≤ 2 →
    7 ≤ depth → depth ≤ 24 → (∃ q, (s.ctx c).hasWs q = true ∧ (s.wst q).st = 0) →
    ((depth = 7 ∧ h = 0 ∧ u = s.draw.2) ∨
      (7 < depth ∧ s.draw.2.khanAlloc c 1 0 0x9 ((2 ^ depth - 128) * (4 * 2 ^ width)) = (some (h, a), u))) →
    ∃ q, (s.ctx c).hasWs q = true ∧ (s.wst q).st = 0 ∧
      exec (.pmpWsCreate w) s = .next (answered (u.onWs q (fun _ => { Ws.fresh with
        st := 1, ctx := c, width := width, consumer := consumer, depthLog2 := depth, middle := h
        hostPush := flags.testBit 0, lanePush := flags.testBit 1 })) m 0x0320 [(.u16, q)])) ∧
  (∀ (w c q : Nat) (m : Msg) (s : State), Takes s w 0x0321 m → Spells [.u8, .u16] m [c, q] → Admits s m c →
    (s.ctx c).hasWs q = true → (s.wst q).st = 1 → s.wsNamed c q = false →
    ∃ t : State, exec (.pmpWsDestroy w) s = .next (answered t m 0x0321 []) ∧ t.wst q = Ws.fresh ∧
      (∀ v, v ≠ q → t.wst v = s.wst v) ∧ t.mem = s.mem ∧ t.seqs = s.seqs) ∧
  (∀ (w c q : Nat) (m : Msg) (s : State), Takes s w 0x0322 m → Admits s m c → (s.ctx c).hasWs q = true →
    (Spells [.u8, .u16, .u32] m [c, q, 0] → exec (.pmpWsQuery w) s = .next (answered s m 0x0322 [(.r 256, (s.wst q).record)])) ∧
    (Spells [.u8, .u16, .u32] m [c, q, 1] →
      exec (.pmpWsQuery w) s = .next (answered (s.onWs q (fun r => { r with underrun := false, poisonSeen := false })) m 0x0322
        [(.r 256, (s.wst q).record)]))) ∧
  (∀ (w c q count flags : Nat) (m : Msg) (s : State), Takes s w 0x0323 m → Spells [.u8, .u16, .u16, .u32] m [c, q, count, flags] →
    Admits s m c → (s.ctx c).hasWs q = true → flags < 4 → (s.wst q).st ≠ 0 → (s.wst q).consumer = 0 →
    count ≤ wsMaxCount (s.wst q).width →
    ∃ (t : State) (body : List Byte), exec (.pmpWsPop w) s = .next (t.complete m fwQuarter .ok body) ∧
      (∀ v, v ≠ q → t.wst v = s.wst v) ∧ t.mem = s.mem ∧ t.seqs = s.seqs ∧
      (∀ v r, count = 1 → flags = 0 → (s.wst q).words = (v, false) :: r → (s.wst q).markHeld = false →
        (s.wst q).readPtr = (s.wst q).releasePtr → (s.wst q).readPtr < 2 ^ 32 →
        (t.wst q).words = r ∧ (t.wst q).readPtr = ((s.wst q).readPtr + 1) % 2 ^ 32 ∧
        (t.wst q).releasePtr = ((s.wst q).readPtr + 1) % 2 ^ 32 ∧
        body = writeFields [(.u16, 1), (.u8, b2n ((t.wst q).readPtr == (t.wst q).writePtr)), (.u32, (t.wst q).readPtr),
          (.u32, (t.wst q).writePtr), (.u32, 0)] ++ toLE 32 0 ++ toLE (4 * 2 ^ (s.wst q).width) v)) ∧
  (∀ (w c q : Nat) (m : Msg) (s : State), Takes s w 0x0324 m → Spells [.u8, .u16] m [c, q] → Admits s m c →
    (s.ctx c).hasWs q = true → (s.wst q).st ≠ 0 → (s.wst q).consumer = 0 →
    ∃ t : State, exec (.pmpWsRelease w) s = .next (answered t m 0x0324 [(.u32, (t.wst q).releasePtr)]) ∧
      ((s.wst q).markHeld = true → (t.wst q).markHeld = false ∧ (t.wst q).releasePtr = (s.wst q).readPtr ∧
        (t.wst q).words = (s.wst q).unread) ∧
      ((s.wst q).markHeld = false → t.wst q = s.wst q) ∧ (∀ v, v ≠ q → t.wst v = s.wst v) ∧ t.mem = s.mem ∧ t.seqs = s.seqs) ∧
  (∀ (w c q : Nat) (m : Msg) (s : State), Takes s w 0x0325 m → Spells [.u8, .u16] m [c, q] → Admits s m c →
    (s.ctx c).hasWs q = true → (s.wst q).st ≠ 0 → (s.wst q).consumer = 0 →
    ∃ t : State, exec (.pmpWsRewind w) s = .next (answered t m 0x0325 [(.u32, (t.wst q).readPtr)]) ∧
      ((s.wst q).markHeld = true → t.wst q = { s.wst q with readPtr := (s.wst q).markPtr }) ∧
      ((s.wst q).markHeld = false → t.wst q = s.wst q) ∧ (∀ v, v ≠ q → t.wst v = s.wst v) ∧ t.mem = s.mem ∧ t.seqs = s.seqs) ∧
  (∀ (w c q n : Nat) (m : Msg) (s : State), Takes s w 0x0326 m → Admits s m c → 48 ≤ m.payload.length →
    numAt m.payload 0 1 = c → numAt m.payload 1 1 = 0 → numAt m.payload 2 2 = q → numAt m.payload 4 2 = n →
    numAt m.payload 6 42 = 0 → (s.ctx c).hasWs q = true → (s.wst q).st ≠ 0 → (s.wst q).hostPush = true →
    n ≤ wsMaxCount (s.wst q).width → m.payload.length = 48 + n * (s.wst q).wordBytes →
    (n ≤ (s.wst q).room →
      ∃ t : State, exec (.pmpWsPush w) s = .next (answered t m 0x0326 [(.u32, (t.wst q).writePtr)]) ∧
        (t.wst q).words = (s.wst q).words ++ (List.range n).map (fun i =>
          (numAt m.payload (48 + i * (s.wst q).wordBytes) (s.wst q).wordBytes, false)) ∧
        (t.wst q).readPtr = (s.wst q).readPtr ∧ (∀ v, v ≠ q → t.wst v = s.wst v) ∧ t.mem = s.mem ∧ t.seqs = s.seqs) ∧
    ((s.wst q).room < n →
      exec (.pmpWsPush w) s = .next ((s.bumpCtx c .wsFullWaits 1).complete m fwQuarter .busy []))) ∧
  (∀ (q : Nat) (s : State), (s.wst q).headN ≤ 32 → 32 ≤ (s.wst q).midN →
    ∃ t : State, exec (.wsMiddleMove q true none) s = .next t ∧
      t.wst q = { s.wst q with headN := (s.wst q).headN + 32, midN := (s.wst q).midN - 32 } ∧
      (∀ v, v ≠ q → t.wst v = s.wst v) ∧ t.mem = s.mem) ∧
  (∀ (q : Nat) (s : State), (s.wst q).headN + (s.wst q).midN + 32 ≤ (s.wst q).words.length →
    ((s.wst q).midN ≠ 0 ∨ 64 ≤ (s.wst q).headN) →
    ∃ t : State, exec (.wsMiddleMove q false none) s = .next t ∧ t.wst q = { s.wst q with midN := (s.wst q).midN + 32 } ∧
      (∀ v, v ≠ q → t.wst v = s.wst v) ∧ t.mem = s.mem)

/-- R246 to R250 (Table 11-6): arming a post, the five outcomes of an arrival, its deadline and its late records. -/
def Obligations.TallyPosts : Prop :=
  (∀ (w c k lateWs flags target deadline : Nat) (m : Msg) (s : State), Takes s w 0x0640 m →
    Spells [.u8, .u16, .u16, .u32, .u32, .u64] m [c, k, lateWs, flags, target, deadline] → Admits s m c → flags < 4 →
    (s.ctx c).hasPost k = true → s.emitWsBad c lateWs = false → m.stamp < deadline →
    (s.post k).st ≠ 1 → (s.post k).waiters = [] →
    exec (.pmpTallyConfig w) s = .next (answered (s.onPost k (fun q => { q with
      st := if target = 0 then 2 else 1, ctx := c, lateMode := flags.testBit 0, remoteOk := flags.testBit 1
      lateWs := lateWs % 4096, target := target, arrived := 0, phase := ((s.post k).phase + 1) % 32768, deadline := deadline
      valueOr := 0, valueMax := 0 })) m 0x0640 [(.u16, ((s.post k).phase + 1) % 32768)])) ∧
  (∀ (w c k phase flags v : Nat) (m : Msg) (s : State), Takes s w 0x0641 m →
    Spells [.u8, .u16, .u16, .u32, .u32] m [c, k, phase, flags, v] → Admits s m c → flags < 2 → (s.ctx c).hasPost k = true →
    ∃ (t : State) (o : Nat), exec (.pmpTallyArrive w) s = .next (answered t m 0x0641 [(.u8, o)]) ∧
      exec (.tallyArrival k s.board.pkgId v (if flags = 1 then some phase else none)) s = .next t ∧ o ≤ 4 ∧
      (flags = 1 → phase ≠ (s.post k).phase → o = 3) ∧
      (flags = 0 → (s.post k).st = 0 → o = 4) ∧
      (flags = 0 → (s.post k).st = 1 → s.now ≤ (s.post k).deadline → o = 0) ∧
      (flags = 0 → (s.post k).st = 2 → o = 1) ∧
      (flags = 0 → (s.post k).st = 3 → o = 2)) ∧
  (∀ (w c k : Nat) (m : Msg) (s : State), Takes s w 0x0642 m → Spells [.u8, .u16] m [c, k] → Admits s m c →
    (s.ctx c).hasPost k = true → exec (.pmpTallyQuery w) s = .next (answered s m 0x0642 [(.r 256, (s.post k).record)])) ∧
  (∀ (k pkg v : Nat) (ph : Option Nat) (s : State), (ph = none ∨ ph = some (s.post k).phase) → (s.post k).st = 1 →
    s.now ≤ (s.post k).deadline → (pkg = s.board.pkgId ∨ (s.post k).remoteOk = true) → (s.post k).arrived + 1 < 2 ^ 32 →
    ∃ t : State, exec (.tallyArrival k pkg v ph) s = .next t ∧ (t.post k).arrived = (s.post k).arrived + 1 ∧
      (t.post k).valueOr = (s.post k).valueOr ||| v % 2 ^ 32 ∧ (t.post k).valueMax = Nat.max (s.post k).valueMax (v % 2 ^ 32) ∧
      ((s.post k).arrived + 1 = (s.post k).target → (t.post k).st = 2 ∧ (t.post k).waiters = []) ∧
      ((s.post k).arrived + 1 ≠ (s.post k).target → (t.post k).st = 1 ∧ (t.post k).waiters = (s.post k).waiters) ∧
      (∀ j, j ≠ k → t.post j = s.post j) ∧ t.mem = s.mem ∧ t.ws = s.ws) ∧
  (∀ (k pkg v : Nat) (ph : Option Nat) (s : State), ph ≠ none → ph ≠ some (s.post k).phase →
    exec (.tallyArrival k pkg v ph) s = .next (s.bumpCtx (s.post k).owner .tallyStale 1)) ∧
  (∀ (k pkg v : Nat) (s : State), ((s.post k).st = 0 ∨ (pkg ≠ s.board.pkgId ∧ (s.post k).remoteOk = false)) →
    exec (.tallyArrival k pkg v none) s = .next (s.bumpCtx (s.post k).owner .tallyRefused 1)) ∧
  (∀ (k v : Nat) (s : State), (s.post k).st = 3 → (s.post k).lateMode = false →
    exec (.tallyArrival k s.board.pkgId v none) s = .next (s.bumpCtx (s.post k).ctx .tallyLate 1)) ∧
  (∀ (k : Nat) (s : State), (s.post k).st = 1 → (s.post k).arrived < (s.post k).target → (s.post k).deadline < s.now →
    (s.post k).deadline ≠ noDeadline →
    ∃ t : State, exec (.tallyDeadline k) s = .next t ∧ t.post k = { s.post k with st := 3, waiters := [] } ∧
      (∀ j, j ≠ k → t.post j = s.post j) ∧ t.mem = s.mem ∧ t.ws = s.ws) ∧
  (∀ (k : Nat) (s : State), s.now ≤ (s.post k).deadline → exec (.tallyDeadline k) s = .next s) ∧
  (∀ (k r : Nat) (rest : List Nat) (s : State), (s.post k).late = r :: rest → (s.wst (s.post k).lateWs).st = 1 →
    0 < (s.wst (s.post k).lateWs).room →
    ∃ t : State, exec (.tallyLateDelivery k) s = .next t ∧ t.post k = { s.post k with late := rest } ∧
      (∀ j, j ≠ k → t.post j = s.post j) ∧
      (t.wst (s.post k).lateWs).words = (s.wst (s.post k).lateWs).words ++
        [(r % 2 ^ (8 * (s.wst (s.post k).lateWs).wordBytes), false)] ∧ t.mem = s.mem)

/-! ### Partitions, contexts and the Timebase -/

/-- R317, R318, R325, R333, R335 (Tables 15-1, 15-4, 17-8): partitions and Toll Gates. -/
def Obligations.PartitionMessages : Prop :=
  (∀ (w p flags first count past : Nat) (m : Msg) (s : State), Takes s w 0x0500 m →
    Spells [.u8, .u32, .u16, .u16, .u32] m [p, flags, first, count, past] → flags < 4 → p ≤ 7 → first + count ≤ 512 →
    past ≤ 100000 → (∀ q < 8, q ≠ p → (s.part q).enabled = true →
      setsMeet first count (s.part q).coreFirst (s.part q).coreCount = false) → s.ctxsOf p = [] →
    exec (.pmpPartConfig w) s = .next (answered (s.onPart p (fun r => { r with
      enabled := flags.testBit 0, sched := flags.testBit 1, coreFirst := first, coreCount := count, overrunUs := past }))
      m 0x0500 [])) ∧
  (∀ (w p past c : Nat) (m : Msg) (s : State), Takes s w 0x0500 m → p ≤ 7 → past ≤ 100000 → c ∈ s.ctxsOf p →
    Spells [.u8, .u32, .u16, .u16, .u32] m [p, 0, 0, 0, past] → (s.part p).enabled = true →
    exec (.pmpPartConfig w) s = .next (s.complete m fwQuarter .busy [])) ∧
  (∀ (w p : Nat) (m : Msg) (s : State), Takes s w 0x0501 m → Spells [.u8] m [p] → p ≤ 7 →
    exec (.pmpPartQuery w) s = .next (answered s m 0x0501 ((.r 128, s.partRecord p) ::
      (List.range 7).map (fun g => (.u64, (s.gate p g).record))))) ∧
  (∀ (w p g r : Nat) (m : Msg) (s : State), Takes s w 0x0502 m → Spells [.u8, .u8, .u64] m [p, g, r] → g ≤ 6 → bits r 40 24 = 0 →
    p ≤ 7 → 0 < bits r 0 16 → 4 ≤ bits r 16 16 → 0 < bits r 32 8 →
    exec (.pmpTollConfig w) s = .next (answered (s.onGate p g (fun x => { x with
      rate := bits r 0 16, burst := bits r 16 16, weight := bits r 32 8
      bucket := min x.bucket ((bits r 16 16 * 1024 : Nat) : Int) })) m 0x0502 [])) ∧
  (∀ (w p : Nat) (m : Msg) (s : State), Takes s w 0x0503 m → Spells [.u8] m [p] → p ≤ 7 →
    exec (.pmpTollStats w) s = .next (answered s m 0x0503 ((List.range 7).map (fun g => (.u64, (s.gate p g).bytes)) ++
      (List.range 7).map (fun g => (.u32, (s.gate p g).waits)) ++ ctrFlds (s.part p).ctr (partCtrs.drop 2)))) ∧
  (∀ (w p : Nat) (m : Msg) (s : State), Takes s w 0x0504 m → Spells [.u8] m [p] → p ≤ 7 → p < s.parts.length →
    (s.ctxsOf p = [] → ∃ t : State, exec (.pmpPartReset w) s = .next (answered t m 0x0504 []) ∧ (t.part p).halted = false ∧
      (t.part p).ctr = [] ∧ (∀ g < (s.part p).gates.length, (t.gate p g).bucket = ((s.gate p g).burst * 1024 : Nat) ∧
        (t.gate p g).bytes = 0 ∧ (t.gate p g).waits = 0) ∧ (t.part p).coreCount = (s.part p).coreCount ∧ t.mem = s.mem ∧
      t.ctxs = s.ctxs) ∧
    (∀ c, s.ctxsOf p = [c] → (s.ctx c).st = .active → c < s.ctxs.length →
      ∃ u : State, exec (.pmpPartReset w) s = .next (u.setPhase m .freeWait) ∧ (u.ctx c).st = .teardown ∧
        (u.ctx c).tornAt = s.now)) ∧
  (∀ (p : Nat) (s : State), p < 8 → s.booted = true → (s.part p).sched = false → exec (.slicePass p) s = .next s) ∧
  (∀ (p c : Nat) (s : State), p < 8 → p < s.parts.length → s.booted = true → (s.part p).sched = true → (s.part p).halted = false →
    (s.ctx (s.part p).holder).st = .free → (s.sliceOrder p).find? s.readyToStart = some c →
    ∃ t : State, exec (.slicePass p) s = .next t ∧ (t.part p).holder = c ∧ (t.part p).sliceStart = s.now ∧
      (t.part p).overruns = (s.part p).overruns ∧ t.mem = s.mem ∧ t.ctxs = s.ctxs ∧ t.seqs = s.seqs) ∧
  (∀ (p c : Nat) (s : State), p < 8 → p < s.parts.length → s.booted = true → (s.part p).sched = true → (s.part p).halted = false →
    (s.ctx (s.part p).holder).st = .active → (s.ctx (s.part p).holder).share.partition = p →
    (s.part p).sliceStart + (s.ctx (s.part p).holder).share.sliceUs * 1000 ≤ s.now →
    s.startedIn (s.part p).holder (s.part p).sliceStart ≠ 0 → (s.sliceOrder p).find? s.readyToStart = some c →
    ∃ t : State, exec (.slicePass p) s = .next t ∧ (t.part p).holder = c ∧
      (t.part p).overruns = (s.part p).overruns ++
        [⟨(s.part p).holder, (s.part p).sliceStart, s.now + (s.part p).overrunUs * 1000⟩] ∧ t.mem = s.mem ∧ t.ctxs = s.ctxs) ∧
  (∀ (p : Nat) (o : Overrun) (s : State), p < s.parts.length → (s.part p).overruns = [o] → o.deadline < s.now →
    (s.ctx o.ctx).st ≠ .active →
    exec (.overrunDeadline p) s = .next (s.onPart p (fun r => { r with overruns := [] }))) ∧
  (∀ (p : Nat) (o : Overrun) (x : Manifest) (s : State), p < s.parts.length → (s.part p).overruns = [o] → o.deadline < s.now →
    o.ctx < s.ctxs.length → (s.ctx o.ctx).st = .active → (s.ctx o.ctx).steps.man = some x →
    (s.ctx o.ctx).steps.sliceAt = o.slice → (s.ctx o.ctx).lanes.launches = [] → (s.ctx o.ctx).lanes.cmds = [] →
    ∃ t : State, exec (.overrunDeadline p) s = .next t ∧ (t.part p).overruns = [] ∧ (t.ctx o.ctx).steps.man = none ∧
      (t.ctx o.ctx).steps.killedMask.testBit x.epoch = true)

/-- R322 to R324, R328, R330, R331, R382 (Tables 15-3, 17-8): contexts are created, destroyed and held. -/
def Obligations.ContextMessages : Prop :=
  (∀ (w x ring : Nat) (u0 u1 : List Nat) (u2 : List (List Nat)) (m : Msg) (s : State), Takes s w 0x0508 m → Spells [.r 512] m [x] →
    let h := Share.read x
    shareReserved x = false → (s.admitted m.sess).testBit h.partition = true → (s.part h.partition).enabled = true →
    (s.part h.partition).halted = false → (s.part h.partition).coreCount ≠ 0 → h.ctx < s.ctxs.length → (s.ctx h.ctx).st = .free →
    s.shareBounds h = false → s.shareMemory h = false → s.shareUnits h = some (ring, u0, u1, u2) →
    ∃ t : State, exec (.pmpCtxCreate w) s = .next (answered t m 0x0508 []) ∧ (t.ctx h.ctx).st = .active ∧
      (t.ctx h.ctx).share = h ∧ (t.ctx h.ctx).steps.tokenLimit = h.stepLimit ∧ (t.ctx h.ctx).steps.mode = (h.mode == 1) ∧
      (t.ctx h.ctx).steps.man = none ∧ (t.ctx h.ctx).model = none ∧
      (t.ctx h.ctx).rx.areas.getD s.board.pkgId 0 = h.rxMib * 1048576 ∧
      (∀ k, k ≠ h.ctx → t.ctx k = s.ctx k) ∧ t.mem = s.mem ∧ t.seqs = s.seqs) ∧
  (∀ (w x : Nat) (m : Msg) (s : State), Takes s w 0x0508 m → Spells [.r 512] m [x] →
    let h := Share.read x
    shareReserved x = false → (s.admitted m.sess).testBit h.partition = true → (s.part h.partition).enabled = true →
    (s.part h.partition).halted = false → (s.part h.partition).coreCount ≠ 0 → (s.ctx h.ctx).st ≠ .free →
    exec (.pmpCtxCreate w) s = .next (s.complete m fwQuarter .busy [])) ∧
  (∀ (w c : Nat) (m : Msg) (s : State), Takes s w 0x0509 m → Spells [.u8] m [c] → Admits s m c → (s.ctx c).st = .active →
    ∃ u : State, exec (.pmpCtxDestroy w) s = .next (u.setPhase m .freeWait) ∧ (u.ctx c).st = .teardown ∧ (u.ctx c).tornAt = s.now ∧
      (u.ctx c).share = (s.ctx c).share ∧
      ∀ q, (s.ctx c).share.seqFirst ≤ q → q < (s.ctx c).share.seqFirst + (s.ctx c).share.seqCount → u.seq q = Seq.fresh) ∧
  (∀ (w c : Nat) (m : Msg) (s : State), Takes s w 0x050A m → Spells [.u8] m [c] → c ≤ 15 →
    ((s.ctx c).st = .free ∨ s.owns m.sess c = true) →
    exec (.pmpCtxQuery w) s = .next (answered s m 0x050A [(.u8, ctxCode (s.ctx c).st), (.r 512, (s.ctx c).share.pack)])) ∧
  (∀ (w c epoch flags : Nat) (x : Manifest) (m : Msg) (s : State), Takes s w 0x0510 m → Spells [.u8, .u16, .u32] m [c, epoch, flags] →
    Admits s m c → flags < 2 → (s.ctx c).steps.man = some x → x.epoch = epoch →
    ∃ t : State, exec (.pmpStepKill w) s = .next (answered t m 0x0510 []) ∧ (t.ctx c).steps.man = none ∧
      (t.ctx c).steps.killedMask.testBit epoch = true ∧ (t.ctx c).steps.doneMask = (s.ctx c).steps.doneMask ∧
      (flags = 1 → (t.ctx c).held = true)) ∧
  (∀ (w c epoch flags : Nat) (m : Msg) (s : State), Takes s w 0x0510 m → Spells [.u8, .u16, .u32] m [c, epoch, flags] → Admits s m c →
    flags < 2 → (∀ x, (s.ctx c).steps.man = some x → x.epoch ≠ epoch) → (s.ctx c).steps.doneMask.testBit epoch = true →
    exec (.pmpStepKill w) s = .next (s.complete m fwCaravan .cancelled [])) ∧
  (∀ (w c : Nat) (m : Msg) (s : State), Takes s w 0x0511 m → Spells [.u8] m [c] → Admits s m c →
    exec (.pmpCtxResume w) s = .next (answered (s.onCtx c (fun x => { x with held := false })) m 0x0511 [])) ∧
  (∀ (c : Nat) (s : State), c < 16 → c < s.ctxs.length → (s.ctx c).st = .teardown →
    (s.ctx c).tornAt + (s.ctx c).returnUs * 1000 + 1000000 ≤ s.now → s.host.msgs = [] →
    ∃ t : State, exec (.teardownFree c) s = .next t ∧ (t.ctx c).st = .free ∧ (t.ctx c).share = Share.fresh ∧
      (t.ctx c).rx.areas = (s.ctx c).rx.areas ∧ (∀ k, k ≠ c → t.ctx k = s.ctx k) ∧ t.mem = s.mem ∧ t.host = s.host) ∧
  (∀ (c : Nat) (m : Msg) (s : State), c < 16 → c < s.ctxs.length → (s.ctx c).st = .teardown →
    (s.ctx c).tornAt + (s.ctx c).returnUs * 1000 + 1000000 ≤ s.now → s.host.msgs = [m] → m.op = 0x0509 → m.phase = .freeWait →
    m.num 0 1 = c → m.win < 256 →
    ∃ t : State, exec (.teardownFree c) s = .next t ∧ (t.ctx c).st = .free ∧ (t.win m.win).done = true ∧
      (t.win m.win).owner = false ∧ t.host.msgs = []) ∧
  (∀ (c : Nat) (s : State), (s.ctx c).st = .teardown →
    s.now < (s.ctx c).tornAt + (s.ctx c).returnUs * 1000 + 1000000 → exec (.teardownFree c) s = .next s) ∧
  (∀ (c : Nat) (s : State), c < s.ctxs.length → (s.ctx c).st = .teardown → (s.ctx c).stuck = false →
    (s.ctx c).tornAt + (s.ctx c).returnUs * 1000 + 10000000 < s.now →
    ∃ f, exec (.teardownStuck c) s = .next ({ s with flt := f }.onCtx c (fun y => { y with stuck := true })) ∧
      ∃ m, f.arriving = s.flt.arriving ++ [m] ∧ m.kind = 0x60 ∧ m.cls = 2 ∧ m.source = 0x80A ∧ m.ctx = c)

/-- R303 to R307, R310, R311, R316 (Tables 14-4, 14-5): the Timebase, its exchanges and the execution mode. -/
def Obligations.TimebaseCommands : Prop :=
  (∀ (w c : Nat) (m : Msg) (s : State), Takes s w 0x0600 m → Spells [.u8] m [c] → Admits s m c →
    exec (.pmpTimeQuery w) s = .next (answered s m 0x0600 ([(.u64, s.now), (.u64, s.tbStatus)] ++
      ctrFlds (s.ctx c).ctr [.lateStarts, .fixedSteps] ++
      ctrFlds s.tb.ctr [.skewEvents, .skewTrips, .timeExchanges, .holdovers, .masterChanges]))) ∧
  (∀ (w c mode : Nat) (y : Ctx) (m : Msg) (s : State), Takes s w 0x0610 m → Spells [.u8, .u8] m [c, mode] → Admits s m c → mode ≤ 1 →
    (s.ctx c).fitSpill (spillBytes (s.ctx c).steps.tokenLimit (s.ctx c).share.dModel (planesOf (mode == 1) (s.ctx c).draft)) = some y →
    exec (.pmpDetMode w) s
      = .next (answered (s.onCtx c (fun _ => { y with steps := { y.steps with mode := mode == 1 } })) m 0x0610 [])) ∧
  (∀ (w c : Nat) (m : Msg) (s : State), Takes s w 0x0611 m → Spells [.u8] m [c] → Admits s m c →
    exec (.pmpDetQuery w) s = .next (answered s m 0x0611 [(.u8, b2n (s.ctx c).steps.mode), (.u32, (s.ctx c).sfnRev),
      (.u32, Num.crc32c s.shapeRecord)])) ∧
  (∀ s : State, s.powered = true → s.tb.slew ≠ 0 → s.tb.lastSlew + 2000 ≤ s.now →
    ∃ t : State, exec .timebaseSlew s = .next t ∧ t.tb.count = (s.now + if 0 < s.tb.slew then 2 else 0) % 2 ^ 64 ∧
      t.tb.slew = (if 0 < s.tb.slew then s.tb.slew - 1 else s.tb.slew + 1) ∧ t.tb.lastSlew = t.now ∧ t.mem = s.mem ∧
      t.ctxs = s.ctxs ∧ t.host = s.host) ∧
  (∀ s : State, s.now < s.tb.lastSlew + 2000 → exec .timebaseSlew s = .next s) ∧
  (∀ (p : Nat) (s : State), p < 128 → (s.port p).up = true → (s.port p).lastStamp + 10000 ≤ s.now →
    exec (.timestampSend p) s
      = .next (s.onPort p (fun x => { x with lastStamp := s.now, stampDue := true }))) ∧
  (∀ (p : Nat) (x : Timestamp) (s : State), p < 128 → (s.port p).up = true → s.tb.master = s.board.pkgId →
    exec (.timestampReceive p x) s
      = .next { s with tb := { s.tb with echo := s.tb.echo.put p (x.tSend, s.now, x.hops) } }) ∧
  (∀ (p : Nat) (x : Timestamp) (s : State), p < 128 → (s.port p).up = true → s.tb.master ≠ s.board.pkgId → s.boot.fabricDone = true →
    s.tb.port = p → x.tEchoSend ≠ 0 → s.tb.loaded = true →
    ∃ t : State, exec (.timestampReceive p x) s = .next t ∧ t.tb.count = s.tb.count ∧ t.tb.bound = x.bound + 4 ∧
      t.tb.exchanges = s.tb.exchanges + 1 ∧ t.tb.lastExchange = s.now ∧
      t.tb.offsets = ((2 * ((s.now : Int) - x.tSend) - (((s.now : Int) - x.tEchoSend) - ((x.tSend : Int) - x.tEchoRecv))) ::
        s.tb.offsets).take 16 ∧
      t.tb.slew = - meanOffset t.tb.offsets ∧ (x.bound + 4 ≤ 8 → t.tb.st = .aligned) ∧ t.mem = s.mem ∧ t.ctxs = s.ctxs) ∧
  (∀ s : State, (s.tb.st = .aligned ∨ s.tb.st = .acquiring) → s.tb.master ≠ s.board.pkgId → s.tb.lastExchange + 100000 < s.now →
    exec .timebaseHoldover s = .next { s with tb := { s.tb with
      st := .holdover, heldFrom := s.now, heldLogged := false, ctr := ctrAdd s.tb.ctr .holdovers 1 } }) ∧
  (∀ s : State, s.tb.master = s.board.pkgId → exec .timebaseHoldover s = .next s) ∧
  (∀ s : State, s.tb.st = .holdover → s.tb.heldLogged = false → s.tb.heldFrom + 10000000 ≤ s.now →
    ∃ f, exec .holdoverLog s = .next { s with tb := { s.tb with heldLogged := true }, flt := f } ∧
      ∃ m, f.arriving = s.flt.arriving ++ [m] ∧ m.kind = 0x35 ∧ m.cls = 0 ∧ m.source = 0x80F ∧ m.detail = s.alignBound)

/-! ### Kernels and strings -/

/-- R178, R180, R185 to R188, R191, R308 (Tables 8-7 to 8-10): kernels, launches, placement and errors of the array. -/
def Obligations.KernelMessages : Prop :=
  (∀ (w c h g a k : Nat) (u : State) (m : Msg) (s : State), Takes s w 0x0620 m → Spells [.u8, .u32] m [c, h] → Admits s m c →
    let hd := (s.kernelImage h).1
    let n := bits hd 64 32
    s.bufBad c h 64 = none → hTier h = 1 → bits hd 0 32 = 0x4B524E4C → bits hd 52 12 = 0 → bits hd 128 384 = 0 →
    bits hd 32 16 = 1 → 0 < n → n ≤ 32768 → 64 + 8 * n ≤ (s.slotOf h).extent → bits hd 96 32 < n → s.owns m.sess (bits hd 48 4) = true →
    (∀ x ∈ (s.kernelImage h).2, wordOk x = true) →
    (s.ctx c).lanes.kernels.find (0x100 + k) = none → k < 0xFF00 → (∀ j < k, ((s.ctx c).lanes.kernels.find (0x100 + j)).isSome = true) →
    s.khanAlloc c 1 0 0x8 (8 * n) = (some (g, a), u) →
    exec (.pmpKernelLoad w) s = .next (answered (u.onCtx c (fun x => { x with lanes := { x.lanes with
      kernels := x.lanes.kernels.put (0x100 + k) ⟨g, bits hd 96 32, (s.kernelImage h).2,
        (s.kernelImage h).2.any (fun w => iOp w == 0x63)⟩ } })) m 0x0620 [(.u16, 0x100 + k)])) ∧
  (∀ (w c k : Nat) (x : Kernel) (m : Msg) (s : State), Takes s w 0x0622 m → Spells [.u8, .u16] m [c, k] → Admits s m c →
    (s.ctx c).lanes.kernels.find k = some x →
    ((∀ l ∈ (s.ctx c).lanes.launches, l.kernel ≠ k) →
      ∃ t : State, exec (.pmpKernelUnload w) s = .next (answered t m 0x0622 []) ∧ (t.ctx c).lanes.kernels.find k = none ∧
        (t.ctx c).lanes.launches = (s.ctx c).lanes.launches ∧ t.mem = s.mem ∧ t.seqs = s.seqs) ∧
    ((∃ l ∈ (s.ctx c).lanes.launches, l.kernel = k) →
      exec (.pmpKernelUnload w) s = .next (s.complete m fwSteward .busy []))) ∧
  (∀ (w r : Nat) (k : Kernel) (m : Msg) (s : State), Takes s w 0x0621 m → Spells [.r 256] m [r] → Admits s m (bits r 16 4) →
    let c := bits r 16 4
    let l := Launch.read (s.ctx c).lanes.nextLaunch r (s.ctx c).route.gen (s.ctx c).sfn.gen (s.ctx c).lay.gen s.now
    l.prio ≠ 3 → l.prio ≠ 0 → l.items ≠ 0xFFFFFFFF → bits r 60 4 = 0 → bits r 113 15 = 0 → bit r 23 = false →
    (s.ctx c).lanes.kernels.find l.kernel = some k → (l.fixed = true → k.fpAtomic = false) → l.scratch4k ≤ 192 → l.tilesN ≤ 4 →
    s.anyShare c l.args 1 = true → (l.tallyEn = true → (s.ctx c).hasPost l.tally = true) →
    (s.ctx c).lanes.launches.length < 64 → sumN (s.ctxs.map (fun y => y.lanes.launches.length)) < 1024 → 0 < l.strings →
    ∃ t : State, exec (.pmpKernelLaunch w) s = .next (answered t m 0x0621 [(.u32, l.id)]) ∧
      (t.ctx c).lanes.nextLaunch = (l.id + 1) % 2 ^ 32 ∧ t.mem = s.mem ∧ t.seqs = s.seqs ∧ t.posts = s.posts ∧
      ∃ x, (t.ctx c).lanes.launches = (s.ctx c).lanes.launches ++ [x] ∧ x.id = l.id ∧ x.kernel = l.kernel ∧
        x.strs.length = l.strings ∧ (∀ g ∈ x.strs, g.st = 0) ∧
        x.st = (if s.now < l.startTick ∨ l.startTick = noDeadline then 0 else 1)) ∧
  (∀ (w c id st : Nat) (m : Msg) (s : State), Takes s w 0x0623 m → Spells [.u8, .u32] m [c, id] → Admits s m c →
    (s.ctx c).launchState id = some st → exec (.pmpKernelStatus w) s = .next (answered s m 0x0623 [(.u8, st)])) ∧
  (∀ (w c id : Nat) (l : Launch) (m : Msg) (s : State), Takes s w 0x0624 m → Spells [.u8, .u32] m [c, id] → Admits s m c →
    (s.ctx c).launch id = some l → l.dying = none →
    (s.endsNow c l = false → (∀ g ∈ l.strs, s.storesDone g = true) →
      ∃ t : State, exec (.pmpKernelKill w) s = .next (answered t m 0x0624 []) ∧ (t.ctx c).launch id = none ∧
        (t.ctx c).launchState id = some 3) ∧
    (s.endsNow c l = true → ∃ t : State, (t.ctx c).launch id = none ∧
      (exec (.pmpKernelKill w) s = .next (answered t m 0x0624 []) ∧ (t.ctx c).launchState id = some 3 ∨
        exec (.pmpKernelKill w) s = .next (t.complete m fwSteward .cancelled []) ∧ (t.ctx c).launchState id = some 2)) ∧
    ((∃ g ∈ l.strs, s.storesDone g = false) →
      ∃ (t : State) (x : Launch), exec (.pmpKernelKill w) s = .next (answered t m 0x0624 []) ∧ (t.ctx c).launch id = some x ∧
        x.dying = some 3 ∧ x.kernel = l.kernel ∧ (∀ g ∈ x.strs, g.st = 2))) ∧
  (∀ (w c id : Nat) (m : Msg) (s : State), Takes s w 0x0624 m → Spells [.u8, .u32] m [c, id] → Admits s m c →
    (s.ctx c).launch id = none → ((s.ctx c).launchState id).isSome = true →
    exec (.pmpKernelKill w) s = .next (s.complete m fwSteward .cancelled [])) ∧
  (∀ (c id : Nat) (l : Launch) (s : State), (s.ctx c).launch id = some l → l.st = 0 → l.startTick ≤ s.now →
    l.startTick ≠ noDeadline →
    exec (.launchStartTick c id) s = .next (s.onCtx c (fun x => { x with lanes := { x.lanes with
      launches := x.lanes.launches.map (fun y => if y.id = id then { y with st := 1 } else y) } }))) ∧
  (∀ (c id : Nat) (l : Launch) (s : State), (s.ctx c).launch id = some l → (l.st ≠ 0 ∨ s.now < l.startTick) →
    exec (.launchStartTick c id) s = .next s) ∧
  (∀ (c id i n : Nat) (l : Launch) (g : Str) (s : State), c < s.ctxs.length → (s.ctx c).lanes.launches = [l] → l.id = id →
    l.st = 1 → l.strs[i]? = some g → l.firstWaiting = some i → s.mayStart c = true → s.olderWaits c l = false →
    s.placeOn c l g = some n →
    ∃ (t : State) (x : Launch) (y : Str), exec (.stringPlace c id i) s = .next t ∧ (t.ctx c).lanes.launches = [x] ∧
      x.strs[i]? = some y ∧ y.st = 1 ∧ y.core = n ∧ y.pc = (((s.ctx c).lanes.kernels.find l.kernel).map (·.entry)).getD 0 ∧
      y.regs.length = 1024 ∧
      (∀ k < 64, y.regs.getD k 0 = i ∧ y.regs.getD (64 + k) 0 = k ∧ y.regs.getD (128 + k) 0 = l.args % 2 ^ 32 ∧
        y.regs.getD (192 + k) 0 = l.args / 2 ^ 32) ∧
      (∀ k, 256 ≤ k → y.regs.getD k 0 = 0) ∧ (∀ p ∈ y.preds, p = false) ∧ (∀ j, j ≠ i → x.strs[j]? = l.strs[j]?) ∧
      t.mem = s.mem ∧ t.seqs = s.seqs) ∧
  (∀ (c id i : Nat) (l : Launch) (g : Str) (s : State), (s.ctx c).launch id = some l → l.strs[i]? = some g → l.st = 1 →
    l.firstWaiting = some i → s.mayStart c = true → s.olderWaits c l = false → s.placeOn c l g = none →
    exec (.stringPlace c id i) s = .next ((s.onCtx c (fun x => { x with lanes := { x.lanes with
      launches := x.lanes.launches.map (fun y => if y.id = id then { y with strs := y.strs.map (fun z =>
        if z.st = 0 ∧ (l.fixed = true → s.roomOn l z.core = false) then { z with waited := true } else z) } else y) } })).bumpCtx c
      .placeWaits ((l.strs.filter (fun z => z.st == 0 && !z.waited && (!l.fixed || !s.roomOn l z.core))).length))) ∧
  (∀ (c core off id i slot : Nat) (l : Launch) (g : Str) (s : State), (s.ctx c).launch id = some l → l.strs[i]? = some g → g.st = 1 →
    l.dying = none →
    ∃ t : State, exec (.arrayUeEvent c core off (some (id, i)) slot) s = .next t ∧
      ((∀ y ∈ l.strs, s.storesDone y = true) → (t.ctx c).launch id = none ∧ (t.ctx c).launchState id = some 4) ∧
      ((∃ y ∈ l.strs, s.storesDone y = false) → ∃ x, (t.ctx c).launch id = some x ∧ x.dying = some 4 ∧ ∀ y ∈ x.strs, y.st = 2) ∧
      (∃ m ∈ t.flt.arriving, m.kind = 0x06 ∧ m.cls = 0 ∧ m.ctx = c ∧ m.source = s.physOf c id i)) ∧
  (∀ (c core off slot : Nat) (x : Manifest) (s : State), c < s.ctxs.length → (s.ctx c).steps.man = some x →
    ∃ t : State, exec (.arrayUeEvent c core off none slot) s = .next t ∧ (t.ctx c).steps.man = none ∧
      (t.ctx c).steps.killedMask.testBit x.epoch = true ∧
      (∃ m ∈ t.flt.arriving, m.kind = 0x06 ∧ m.cls = 0 ∧ m.ctx = c ∧ m.source = (s.core core).phys)) ∧
  (∀ (c core off slot : Nat) (s : State), (s.ctx c).steps.man = none →
    exec (.arrayUeEvent c core off none slot) s = .next s)

/-! ### Collectives -/

/-- R289, R290, R296 (Tables 13-10, 17-7): the collective messages. -/
def Obligations.CollectiveMessages : Prop :=
  (∀ (w c g us mask : Nat) (m : Msg) (s : State), Takes s w 0x0400 m → Spells [.u8, .u16, .u32, .r 128] m [c, g, us, mask] →
    Admits s m c → 10 ≤ us → us ≤ 100000 → g ≤ 0xFFF → s.board.pkgId < 128 → mask.testBit s.board.pkgId = true →
    (s.ctx c).group g = none →
    exec (.pmpCollGroup w) s = .next (answered (s.onCtx c (fun x => { x with
      groups := x.groups ++ [⟨g, onesOf 128 mask, us, [], []⟩] })) m 0x0400
      [(.u8, (CollGroup.mk g (onesOf 128 mask) us [] []).indexOf s.board.pkgId)])) ∧
  (∀ (w x : Nat) (l : List Nat) (grp : CollGroup) (t : State) (m : Msg) (s : State), Takes s w 0x0401 m → Spells [.r 320] m [x] →
    let r := CollRec.read x
    Admits s m r.ctx → m ∈ s.host.msgs → r.badFormat x (s.ctx r.ctx) = false → (s.ctx r.ctx).group r.group = some grp →
    (∀ e ∈ r.buffers grp s.board.pkgId, s.bufBad r.ctx e.1 e.2 = none) → s.collOverlap r grp = false →
    (r.op = 4 ∨ r.op = 5 → r.root ∈ grp.members) → 0 < r.count → 1 < grp.count → grp.early = [] →
    takeStaging r.ctx (r.staging grp (grp.indexOf s.board.pkgId)).2 (r.staging grp (grp.indexOf s.board.pkgId)).1 s = (some l, t) →
    sumN (s.ctxs.map (fun z => z.colls.length)) < 256 →
    ∃ (u : State) (k : Coll), exec (.pmpCollLaunch w) s = .next u ∧ (u.ctx r.ctx).coll r.group r.collId = some k ∧ k.info = r ∧
      k.running = false ∧ k.started = s.now ∧ k.crc = recordCrc x ∧ { m with phase := .joinWait } ∈ u.host.msgs ∧
      u.mem = s.mem ∧ u.seqs = s.seqs ∧
      (grp.indexOf s.board.pkgId ≠ 0 → ∃ ok bs, Out.msg (grp.members.getD 0 s.board.pkgId) 0x12 r.ctx
        [r.group, r.collId, 0, grp.indexOf s.board.pkgId, 1, 0, ok, recordCrc x] bs ∈ u.out)) ∧
  (∀ (w x : Nat) (grp : CollGroup) (m : Msg) (s : State), Takes s w 0x0401 m → Spells [.r 320] m [x] →
    let r := CollRec.read x
    Admits s m r.ctx → r.badFormat x (s.ctx r.ctx) = false → (s.ctx r.ctx).groups = [grp] → grp.id = r.group →
    (∀ e ∈ r.buffers grp s.board.pkgId, s.bufBad r.ctx e.1 e.2 = none) → s.collOverlap r grp = false →
    (r.op = 4 ∨ r.op = 5 → r.root ∈ grp.members) → r.count = 0 → r.tallyEn = false →
    ∃ t : State, exec (.pmpCollLaunch w) s = .next t ∧
      (t.ctx r.ctx).groups = [{ grp with finished := ((r.collId, 2) :: grp.finished).take 256 }] ∧ t.mem = s.mem ∧
      (t.win m.win).done = true ∧ (t.win m.win).owner = false) ∧
  (∀ (w c g id : Nat) (m : Msg) (s : State), Takes s w 0x0402 m → Spells [.u8, .u16, .u32] m [c, g, id] → Admits s m c →
    (((s.ctx c).coll g id).isSome = true → exec (.pmpCollStatus w) s = .next (answered s m 0x0402 [(.u8, 1)])) ∧
    (∀ grp st, (s.ctx c).coll g id = none → (s.ctx c).group g = some grp → grp.finished.find? (fun e => e.1 == id) = some (id, st) →
      exec (.pmpCollStatus w) s = .next (answered s m 0x0402 [(.u8, st)]))) ∧
  (∀ (w c g id : Nat) (k : Coll) (grp : CollGroup) (m : Msg) (s : State), Takes s w 0x0403 m → Spells [.u8, .u16, .u32] m [c, g, id] →
    Admits s m c → (s.ctx c).coll g id = some k → (s.ctx c).group g = some grp →
    ∃ t : State, exec (.pmpCollKill w) s = .next (answered t m 0x0403 []) ∧ (t.ctx c).coll g id = none ∧
      (∃ y, (t.ctx c).group g = some y ∧ y.finished = ((id, 3) :: grp.finished).take 256) ∧
      (∀ p ∈ grp.members, p ≠ s.board.pkgId → ∃ bs, Out.msg p 0x12 c [g, id, 0, grp.indexOf s.board.pkgId, 3, 9] bs ∈ t.out)) ∧
  (∀ (w c g : Nat) (grp : CollGroup) (m : Msg) (s : State), Takes s w 0x0405 m → Spells [.u8, .u16] m [c, g] → Admits s m c →
    (s.ctx c).group g = some grp → (∀ k ∈ (s.ctx c).colls, k.info.group ≠ g) →
    exec (.pmpCollGroupDelete w) s = .next (answered (s.onCtx c (fun x => { x with
      groups := x.groups.filter (fun y => y.id != g) })) m 0x0405 []))

/-- R290, R296, R309: joins, the leader's decision, GO, aborts and the join timeout. -/
def Obligations.CollectiveStart : Prop :=
  (∀ (c g id idx : Nat) (ok : Bool) (crc : Nat) (s : State), (s.fw fwWayfinder).st ≠ .running →
    exec (.collJoinReceive c g id idx ok crc) s = .next s ∧ exec (.collGoReceive c g id) s = .next s ∧
    exec (.collJoinTimeout c g id) s = .next s) ∧
  (∀ (c g id idx : Nat) (ok : Bool) (crc : Nat) (k : Coll) (grp : CollGroup) (s : State), (s.fw fwWayfinder).st = .running →
    (s.ctx c).coll g id = some k → (s.ctx c).group g = some grp → (∀ j ∈ k.joins, j.1 ≠ idx) → k.joins.length + 1 < grp.count →
    exec (.collJoinReceive c g id idx ok crc) s = .next (s.onCtx c (fun x => { x with colls := x.colls.map (fun y =>
      if y.info.group = g ∧ y.info.collId = id then { y with joins := y.joins ++ [(idx, ok, crc)] } else y) }))) ∧
  (∀ (c g id idx : Nat) (crc : Nat) (k : Coll) (grp : CollGroup) (s : State), (s.fw fwWayfinder).st = .running →
    (s.ctx c).coll g id = some k → (s.ctx c).group g = some grp → (∀ j ∈ k.joins, j.1 ≠ idx) → k.joins.length + 1 = grp.count →
    grp.indexOf s.board.pkgId = 0 → k.decided = false → k.running = false →
    ∃ t : State, exec (.collJoinReceive c g id idx false crc) s = .next t ∧ (t.ctx c).coll g id = none ∧ t.mem = s.mem ∧
      ∀ p ∈ grp.members, p ≠ s.board.pkgId → ∃ bs, Out.msg p 0x12 c [g, id, 0, 0, 3, 1] bs ∈ t.out) ∧
  (∀ (c g id idx : Nat) (ok : Bool) (crc : Nat) (grp : CollGroup) (s : State), c < s.ctxs.length →
    (s.fw fwWayfinder).st = .running → (s.ctx c).coll g id = none → (s.ctx c).groups = [grp] → grp.id = g →
    (∀ e ∈ grp.finished, e.1 ≠ id) →
    ∃ (t : State) (y : CollGroup), exec (.collJoinReceive c g id idx ok crc) s = .next t ∧ (t.ctx c).groups = [y] ∧
      (id, idx, ok, crc) ∈ y.early ∧ t.mem = s.mem ∧ t.out = s.out) ∧
  (∀ (c g id : Nat) (m : Msg) (k : Coll) (grp : CollGroup) (s : State), (s.fw fwWayfinder).st = .running →
    (s.ctx c).coll g id = some k → (s.ctx c).group g = some grp → k.running = false → (k.info.op = 4 ∨ k.info.op = 5) →
    k.info.root ≠ s.board.pkgId → grp.indexOf k.info.root ≠ grp.indexOf s.board.pkgId → 0 < k.info.count → k.written = [] →
    k.open_ = [] → k.sentPieces = [] → k.slabsDone = 0 → s.joinMsg c g id = some m → m.win < 256 →
    ∃ t : State, exec (.collGoReceive c g id) s = .next t ∧
      (t.ctx c).coll g id = some { k with running := true, decided := true } ∧ (t.win m.win).done = true ∧
      (t.win m.win).owner = false ∧ t.mem = s.mem) ∧
  (∀ (c g id : Nat) (grp : CollGroup) (s : State), (s.fw fwWayfinder).st = .running → (s.ctx c).coll g id = none →
    (s.ctx c).group g = some grp → (∃ e ∈ grp.finished, e.1 = id) →
    exec (.collGoReceive c g id) s = .next (s.bumpCtx c .collStale 1)) ∧
  (∀ (c g id : Nat) (k : Coll) (s : State), (s.ctx c).coll g id = some k → k.running = false →
    ∃ t : State, exec (.collAbortReceive c g id 1) s = .next t ∧ (t.ctx c).coll g id = none ∧ t.mem = s.mem ∧
      (∀ m, s.joinMsg c g id = some m → m.win < 256 → (t.win m.win).done = true)) ∧
  (∀ (c g id st : Nat) (k : Coll) (grp : CollGroup) (s : State), (s.ctx c).coll g id = some k → (s.ctx c).group g = some grp →
    k.running = true →
    ∃ t : State, exec (.collAbortReceive c g id st) s = .next t ∧ (t.ctx c).coll g id = none ∧
      ∃ y, (t.ctx c).group g = some y ∧ y.finished = ((id, 3) :: grp.finished).take 256) ∧
  (∀ (c g id : Nat) (k : Coll) (grp : CollGroup) (s : State), (s.fw fwWayfinder).st = .running → (s.ctx c).coll g id = some k →
    (s.ctx c).group g = some grp → k.running = false → k.started + grp.timeoutUs * 1000 < s.now →
    ∃ t : State, exec (.collJoinTimeout c g id) s = .next t ∧ (t.ctx c).coll g id = none ∧ t.mem = s.mem ∧
      (∀ m, s.joinMsg c g id = some m → m.win < 256 → (t.win m.win).done = true)) ∧
  (∀ (c g id : Nat) (k : Coll) (grp : CollGroup) (s : State), (s.ctx c).coll g id = some k →
    (s.ctx c).group g = some grp → s.now ≤ k.started + grp.timeoutUs * 1000 → exec (.collJoinTimeout c g id) s = .next s)

/-- R291 to R294, R137: slabs, grants, pieces, results, and a bay that becomes free. -/
def Obligations.CollectiveData : Prop :=
  (∀ (c g id i b : Nat) (r : List Nat) (k : Coll) (grp : CollGroup) (s : State), (s.ctx c).coll g id = some k →
    (s.ctx c).group g = some grp → k.running = true → k.info.fixed = false → k.spareBays = b :: r → k.open_ = [] →
    (k.info.ownSlabs grp (grp.indexOf s.board.pkgId))[k.nextSlab]? = some i → 1 < grp.count →
    s.board.pkgId ∈ grp.members → s.poison = [] →
    ∃ (t : State) (y : Coll) (z : Slab), exec (.collSlabOpen c g id) s = .next t ∧ (t.ctx c).coll g id = some y ∧
      y.nextSlab = k.nextSlab + 1 ∧ y.spareBays = r ∧ y.open_ = [z] ∧ z.index = i ∧ z.bay = b ∧
      z.added = [grp.indexOf s.board.pkgId] ∧ t.mem = s.mem ∧
      ∀ p ∈ grp.members, p ≠ s.board.pkgId → ∃ bs, Out.msg p 0x12 c [g, id, i, grp.indexOf s.board.pkgId, 4, 0] bs ∈ t.out) ∧
  (∀ (c g id : Nat) (k : Coll) (s : State), (s.ctx c).coll g id = some k → k.running = false →
    exec (.collSlabOpen c g id) s = .next s) ∧
  (∀ (c g id i : Nat) (k : Coll) (grp : CollGroup) (s : State), (s.ctx c).coll g id = some k → (s.ctx c).group g = some grp →
    k.info.reduces = true → i < k.info.slabs grp.count → k.info.ownerOf grp i ≠ grp.indexOf s.board.pkgId → i ∉ k.sentPieces →
    s.poison = [] →
    ∃ (t : State) (bs : List Byte), exec (.collGrantReceive c g id i) s = .next t ∧ t.mem = s.mem ∧
      Out.msg (grp.members.getD (k.info.ownerOf grp i) s.board.pkgId) 0x10 c [g, id, i, grp.indexOf s.board.pkgId] bs ∈ t.out) ∧
  (∀ (c g id i idx : Nat) (data : List Byte) (k : Coll) (grp : CollGroup) (b : Slab) (s : State), (s.ctx c).coll g id = some k →
    (s.ctx c).group g = some grp → k.info.reduces = true → k.info.fixed = false → k.open_ = [b] → b.index = i →
    b.added.contains (grp.indexOf s.board.pkgId) = true → idx ∉ b.added → b.staged = [] → idx < grp.count →
    idx ≠ grp.indexOf s.board.pkgId → s.board.pkgId ∈ grp.members → b.added.length + 1 < grp.count →
    exec (.collPieceReceive c g id i idx data) s = .next (s.onCtx c (fun x => { x with colls := x.colls.map (fun y =>
      if y.info.group = g ∧ y.info.collId = id then { y with open_ := y.open_.map (fun z => if z.index = i then { z with
        acc := reducePiece k.info.redOp z.acc (elemsOf k.info.inFmt (k.info.slabAt grp.count i).2.2 data)
        added := z.added ++ [idx], staged := z.staged.filter (fun e => e.1 != idx) } else z) } else y) }))) ∧
  (∀ (c g id i idx : Nat) (data : List Byte) (k : Coll) (grp : CollGroup) (s : State), (s.ctx c).coll g id = some k →
    (s.ctx c).group g = some grp → k.info.op = 4 → k.written = [] → idx = grp.indexOf k.info.root → idx < grp.count →
    (k.info.outFmt = 0 ∨ k.info.outFmt = 1 ∨ k.info.outFmt = 2) → data.length = elemBytes k.info.outFmt k.info.count →
    ∃ t : State, exec (.collPieceReceive c g id i idx data) s = .next t ∧
      t.bytesAt (s.slotOf k.info.outH).base data.length = data ∧
      (∀ a, (a < (s.slotOf k.info.outH).base ∨ (s.slotOf k.info.outH).base + data.length ≤ a) → t.byteAt a = s.byteAt a)) ∧
  (∀ (c g id i : Nat) (data : List Byte) (k : Coll) (grp : CollGroup) (s : State), (s.ctx c).coll g id = some k →
    (s.ctx c).group g = some grp → k.info.op = 1 → i < k.info.slabs grp.count → i ∉ k.written →
    k.info.ownerOf grp i ≠ grp.indexOf s.board.pkgId → k.info.outFmt ≤ 1 →
    data.length = elemBytes k.info.outFmt (k.info.slabAt grp.count i).2.2 →
    let a0 := (s.slotOf k.info.outH).base + (k.info.slabAt grp.count i).1 * (if k.info.outFmt = 0 then 4 else 2)
    ∃ t : State, exec (.collResultReceive c g id i data) s = .next t ∧ t.bytesAt a0 data.length = data ∧
      (∀ a, (a < a0 ∨ a0 + data.length ≤ a) → t.byteAt a = s.byteAt a)) ∧
  (∀ (c g id i idx : Nat) (data : List Byte) (grp : CollGroup) (s : State), (s.ctx c).coll g id = none →
    (s.ctx c).group g = some grp → (∃ e ∈ grp.finished, e.1 = id) →
    exec (.collPieceReceive c g id i idx data) s = .next (s.bumpCtx c .collStale 1) ∧
    exec (.collGrantReceive c g id i) s = .next (s.bumpCtx c .collStale 1) ∧
    exec (.collResultReceive c g id i data) s = .next (s.bumpCtx c .collStale 1)) ∧
  (∀ s : State, s.waitingClaims = [] → s.waitingColl = none → exec .bayFree s = .next s) ∧
  (∀ (since c g id : Nat) (s : State), s.waitingClaims = [] → s.waitingColl = some (since, c, g, id) →
    exec .bayFree s = exec (.collSlabOpen c g id) s) ∧
  (∀ (since c k g : Nat) (u s : State), s.waitingClaims = [(since, c, k, g)] →
    s.claimGroup c (k / 2) (k % 2 == 1) g = some u →
    let t := (u.drainGroup c (k / 2) (k % 2 == 1) g).drainHeld c (k / 2) (k % 2 == 1)
    (t.waitingColl = none → exec .bayFree s = .next t) ∧
    (∀ since' d h j, t.waitingColl = some (since', d, h, j) → exec .bayFree s = exec (.collSlabOpen d h j) t)) ∧
  (∀ (since c k g since' d h j : Nat) (e : Coll) (s : State), s.waitingClaims = [(since, c, k, g)] →
    s.claimGroup c (k / 2) (k % 2 == 1) g = none → s.waitingColl = some (since', d, h, j) → (s.ctx d).coll h j = some e →
    e.running = true → e.spareBays = [] → 384 ≤ s.floorUsed → e.bayWait.isSome = true → e.open_ = [] →
    ∃ t : State, exec .bayFree s = .next t ∧ t.poolUsed = s.poolUsed ∧ t.floorUsed = s.floorUsed ∧ t.mem = s.mem ∧ t.out = s.out)

/-! ### The Layout Engine -/

/-- R214 to R216, R218, R222, R223, R226, R227 (Tables 10-1, 10-2): a command enters the queue, starts in order, and
completes with its effect. -/
def Obligations.LayoutCommands : Prop :=
  (∀ (w raw : Nat) (m : Msg) (s : State), Takes s w 0x0340 m → Spells [.r 320] m [raw] →
    let c := bits raw 80 4
    let k := LayCmd.read ((s.ctx c).layAt m.layGen) raw
    Admits s m c → (∀ x ∈ s.layFields c true k, x.1 = false) → k.count ≠ 0 → k.count ≤ 2 ^ 48 → (∀ d ∈ k.named, s.descOut d = false) →
    k.smap = none → k.dmap = none → 0 < (s.wst (s.ctx c).lanes.layoutWs).room →
    exec (.pmpLayoutRun w) s = .next (answered ((s.wsPush (s.ctx c).lanes.layoutWs [raw]).onCtx c (fun x => { x with
      lanes := { x.lanes with cmds := x.lanes.cmds ++ [⟨raw, m.layGen, none, false, 0, false, none, false, none⟩] } })) m 0x0340 [])) ∧
  (∀ (w raw : Nat) (m : Msg) (s : State), Takes s w 0x0340 m → Spells [.r 320] m [raw] →
    let c := bits raw 80 4
    let k := LayCmd.read ((s.ctx c).layAt m.layGen) raw
    Admits s m c → s.layFirst c true k = .go → (∃ b ∈ (s.ctx c).lanes.cmds, s.mapsMeet k ((s.ctx c).cmd b) = true) →
    0 < (s.wst (s.ctx c).lanes.layoutWs).room →
    ∃ t : State, exec (.pmpLayoutRun w) s = .next (t.setPhase m .layoutWait) ∧
      (t.ctx c).lanes.cmds = (s.ctx c).lanes.cmds ++ [⟨raw, m.layGen, none, false, 0, false, none, true, none⟩] ∧ t.mem = s.mem) ∧
  (∀ (w raw : Nat) (m : Msg) (s : State), Takes s w 0x0340 m → Spells [.r 320] m [raw] →
    let c := bits raw 80 4
    let k := LayCmd.read ((s.ctx c).layAt m.layGen) raw
    Admits s m c → (∀ x ∈ s.layFields c true k, x.1 = false) → k.count ≠ 0 → k.count ≤ 2 ^ 48 → (∀ d ∈ k.named, s.descOut d = false) →
    k.smap = none → k.dmap = none → (s.wst (s.ctx c).lanes.layoutWs).room = 0 →
    exec (.pmpLayoutRun w) s = .next ((s.bumpCtx c .wsFullWaits 1).complete m fwQuarter .busy [])) ∧
  (∀ (c : Nat) (k : Cmd) (rest : List Cmd) (s : State), (s.ctx c).lanes.cmds = k :: rest → k.running = false → k.answer = false →
    c < s.ctxs.length → s.mayStart c = true → (∀ a ∈ s.cmdBytes ((s.ctx c).cmd k), s.heldAt c a.1 = false) →
    let z := (s.ctx c).cmd k
    ∃ (t : State) (y : Cmd), exec (.layoutCommandStart c) s = .next t ∧ (t.ctx c).lanes.cmds = y :: rest ∧ y.running = true ∧
      y.raw = k.raw ∧ y.layGen = k.layGen ∧ y.sliceAt = s.sliceNow c ∧ t.mem = s.mem ∧ t.seqs = s.seqs ∧
      (s.layCheck c (z.ctx == c) z = .go → y.bad = none ∧ (z.count ≠ 0 → y.maps = some (s.readMaps z))) ∧
      (∀ st, s.layCheck c (z.ctx == c) z = .bad st → y.poisoned = false → y.bad = some st.code)) ∧
  (∀ (c : Nat) (k : Cmd) (rest : List Cmd) (v : Nat) (u : State) (st : Status) (m : Msg) (s : State),
    (s.ctx c).lanes.cmds = k :: rest → k.running = false → k.answer = true → s.layoutMsg c = some m → m.win < 256 →
    c < s.ctxs.length → s.mayStart c = true → s.layCheck c (((s.ctx c).cmd k).ctx == c) ((s.ctx c).cmd k) = .bad st →
    s.wsPop (s.ctx c).lanes.layoutWs = (u, some (v, false)) →
    ∃ t : State, exec (.layoutCommandStart c) s = .next t ∧ (t.ctx c).lanes.cmds = rest ∧ (t.win m.win).done = true ∧
      t.mem = s.mem) ∧
  (∀ (c : Nat) (k : Cmd) (rest : List Cmd) (s : State), (s.ctx c).lanes.cmds = k :: rest → k.running = false →
    s.mayStart c = false → exec (.layoutCommandStart c) s = .next s) ∧
  (∀ (c i : Nat) (k : Cmd) (ue : Option Nat) (s : State), (s.ctx c).lanes.cmds[i]? = some k → k.running = false →
    exec (.layoutCommandComplete c i ue) s = .next s) ∧
  (∀ (c i n : Nat) (k : Cmd) (s : State), (s.ctx c).lanes.cmds[i]? = some k → k.running = true → k.bad = none → k.poisoned = false →
    s.poison = [] →
    let y := (s.ctx c).cmd k
    y.src.raw = true → y.dst.raw = true → y.op = 0 → y.smap = none → y.dmap = none → y.src.dims = 1 → y.dst.dims = 1 →
    y.lead = [0, 0, 0, 0, 0] → 0 < n → y.dst.extents = [n, 0, 0, 0, 0] → y.src.extents = [n, 0, 0, 0, 0] →
    y.src.strides = [1, 0, 0, 0, 0] → y.dst.strides = [1, 0, 0, 0, 0] → y.src.ebits = y.dst.ebits →
    (y.dst.ebits = 8 ∨ y.dst.ebits = 16 ∨ y.dst.ebits = 32) →
    ∃ t : State, exec (.layoutCommandComplete c i none) s = .next t ∧
      (t.ctx c).lanes.cmds = (s.ctx c).lanes.cmds.take i ++ (s.ctx c).lanes.cmds.drop (i + 1) ∧
      (∀ j < n, t.elemAt (s.descBase y.dst) y.dst.ebits (y.dst.offset + j) =
        s.elemAt (s.descBase y.src) y.src.ebits (y.src.offset + j)) ∧
      (∀ a, (a < s.descBase y.dst + y.dst.offset * (y.dst.ebits / 8) ∨
          s.descBase y.dst + (y.dst.offset + n) * (y.dst.ebits / 8) ≤ a) → t.byteAt a = s.byteAt a) ∧ t.seqs = s.seqs) ∧
  (∀ (c i st : Nat) (k : Cmd) (ue : Option Nat) (s : State), (s.ctx c).lanes.cmds[i]? = some k → k.running = true → k.bad = some st →
    ∃ t : State, exec (.layoutCommandComplete c i ue) s = .next t ∧
      (t.ctx c).lanes.cmds = (s.ctx c).lanes.cmds.take i ++ (s.ctx c).lanes.cmds.drop (i + 1) ∧ t.mem = s.mem ∧ t.seqs = s.seqs ∧
      (((s.ctx c).cmd k).tallyEn = false →
        ctrGet (t.ctx c).ctr .layoutRejects = Ctr.plus .layoutRejects (ctrGet (s.ctx c).ctr .layoutRejects) 1))

/-! ### Strings -/

/-- R179, R181, R182 (Table 8-5): the integer instructions write 32 bits in the guarded lanes and nothing else.  The signed
reading of IMIN and IMAX, the codes of ICMP and a shift by 32 or more are open values (log entries 3 and 62). -/
def Obligations.IntegerInstructions : Prop :=
  ∀ (c id i : Nat) (l : Launch) (g : Str) (w : Nat) (s : State),
    let x (k : Nat) : BitVec 32 := BitVec.ofNat 32 (g.srcA w k)
    let y (k : Nat) : BitVec 32 := BitVec.ofNat 32 (g.srcB w k)
    let done (e : Host.Outcome State Fault Refusal) (f : Nat → Nat) : Prop :=
      ∃ g', e = .next (s.putStr c id i g') ∧ Wrote g w f g'
    (Ready s 0x00 c id i l g w → done (exec (.iadd c id i) s) (fun k => (x k + y k).toNat)) ∧
    (Ready s 0x01 c id i l g w → done (exec (.isub c id i) s) (fun k => (x k - y k).toNat)) ∧
    (Ready s 0x02 c id i l g w → done (exec (.imul c id i) s) (fun k => (x k * y k).toNat)) ∧
    (Ready s 0x03 c id i l g w → done (exec (.imulh c id i) s)
      (fun k => ((x k).signExtend 64 * (y k).signExtend 64).toNat / 2 ^ 32)) ∧
    (Ready s 0x04 c id i l g w → done (exec (.and c id i) s) (fun k => (x k &&& y k).toNat)) ∧
    (Ready s 0x05 c id i l g w → done (exec (.or c id i) s) (fun k => (x k ||| y k).toNat)) ∧
    (Ready s 0x06 c id i l g w → done (exec (.xor c id i) s) (fun k => (x k ^^^ y k).toNat)) ∧
    (Ready s 0x07 c id i l g w → (∀ k < 64, g.srcB w k < 32) →
      done (exec (.shl c id i) s) (fun k => (x k <<< g.srcB w k).toNat)) ∧
    (Ready s 0x08 c id i l g w → (∀ k < 64, g.srcB w k < 32) →
      done (exec (.shr c id i) s) (fun k => g.srcA w k / 2 ^ g.srcB w k)) ∧
    (Ready s 0x09 c id i l g w → (∀ k < 64, g.srcB w k < 32) →
      done (exec (.sar c id i) s) (fun k => ((x k).sshiftRight (g.srcB w k)).toNat)) ∧
    (Ready s 0x07 c id i l g w → ∃ f, done (exec (.shl c id i) s) f) ∧
    (Ready s 0x08 c id i l g w → ∃ f, done (exec (.shr c id i) s) f) ∧
    (Ready s 0x09 c id i l g w → ∃ f, done (exec (.sar c id i) s) f) ∧
    (Ready s 0x0A c id i l g w → done (exec (.imin c id i) s) (fun k =>
      if (if Config.minMaxSigned then (x k).slt (y k) else decide (g.srcA w k < g.srcB w k)) then g.srcA w k else g.srcB w k)) ∧
    (Ready s 0x0B c id i l g w → done (exec (.imax c id i) s) (fun k =>
      if (if Config.minMaxSigned then (x k).slt (y k) else decide (g.srcA w k < g.srcB w k)) then g.srcB w k else g.srcA w k)) ∧
    (Ready s 0x0C c id i l g w → ∃ g', exec (.icmp c id i) s = .next (s.putStr c id i g') ∧
      Judged g w (fun k => Config.icmpTest (iImm w) ((x k).slt (y k)) (decide (g.srcA w k < g.srcB w k))
        (g.srcA w k == g.srcB w k)) g') ∧
    (Ready s 0x0D c id i l g w → done (exec (.movi c id i) s) (fun _ => ((BitVec.ofNat 31 (iImm w)).signExtend 32).toNat))

/-- R28 to R30, R32, R33, R36 to R38, R42, R182 (Tables 2-6, 8-5): FP32 arithmetic and conversions in the guarded lanes. -/
def Obligations.FloatInstructions : Prop :=
  ∀ (c id i : Nat) (l : Launch) (g : Str) (w : Nat) (s : State),
    let x (k : Nat) : BitVec 32 := BitVec.ofNat 32 (g.srcA w k)
    let y (k : Nat) : BitVec 32 := BitVec.ofNat 32 (g.srcB w k)
    let z (k : Nat) : BitVec 32 := BitVec.ofNat 32 (g.srcC w k)
    let done (e : Host.Outcome State Fault Refusal) (f : Nat → Nat) : Prop :=
      ∃ g', e = .next (s.putStr c id i g') ∧ Wrote g w f g'
    (Ready s 0x20 c id i l g w → done (exec (.fadd c id i) s) (fun k => Num.enc Num.fp32 ((Num.v32 (x k)).add (Num.v32 (y k))))) ∧
    (Ready s 0x21 c id i l g w → done (exec (.fmul c id i) s) (fun k => Num.enc Num.fp32 ((Num.v32 (x k)).mul (Num.v32 (y k))))) ∧
    (Ready s 0x22 c id i l g w → done (exec (.ffma c id i) s)
      (fun k => Num.enc Num.fp32 (((Num.v32 (x k)).mul (Num.v32 (y k))).add (Num.v32 (z k))))) ∧
    (Ready s 0x23 c id i l g w → ∃ f, done (exec (.fmin c id i) s) f ∧ ∀ k < 64,
      (((Num.v32 (x k)).isNan || (Num.v32 (y k)).isNan) = true → f k = 0x7FC00000) ∧
      ((Num.v32 (x k)).lt (Num.v32 (y k)) = true → f k = (x k).toNat) ∧
      ((Num.v32 (y k)).lt (Num.v32 (x k)) = true → f k = (y k).toNat)) ∧
    (Ready s 0x24 c id i l g w → ∃ f, done (exec (.fmax c id i) s) f ∧ ∀ k < 64,
      (((Num.v32 (x k)).isNan || (Num.v32 (y k)).isNan) = true → f k = 0x7FC00000) ∧
      ((Num.v32 (x k)).lt (Num.v32 (y k)) = true → f k = (y k).toNat) ∧
      ((Num.v32 (y k)).lt (Num.v32 (x k)) = true → f k = (x k).toNat) ∧
      (x k = 0#32 → y k = 0x80000000#32 → f k = 0)) ∧
    (Ready s 0x25 c id i l g w → ∃ g', exec (.fcmp c id i) s = .next (s.putStr c id i g') ∧
      Judged g w (fun k => Config.fcmpTest (iImm w) ((Num.v32 (x k)).lt (Num.v32 (y k)))
        (!((Num.v32 (x k)).isNan || (Num.v32 (y k)).isNan) && decide ((Num.v32 (x k)).cmp (Num.v32 (y k)) = 0))
        ((Num.v32 (x k)).isNan || (Num.v32 (y k)).isNan)) g') ∧
    (Ready s 0x26 c id i l g w → ∃ f, done (exec (.fneg c id i) s) f ∧ ∀ k < 64,
      f k = if (Num.v32 (x k)).isNan then 0x7FC00000 else (x k ^^^ 0x80000000#32).toNat) ∧
    (Ready s 0x40 c id i l g w → done (exec (.cvtTo c id i) s) (fun k => Num.cvtTo (iFmt w) (x k))) ∧
    (Ready s 0x41 c id i l g w → done (exec (.cvtFrom c id i) s)
      (fun k => Num.enc Num.fp32 (Num.elemVal (iFmt w) (g.srcA w k % 2 ^ Num.codeBits (iFmt w))))) ∧
    (Ready s 0x42 c id i l g w → iFmt w ≠ 0x0B → iDst w ≠ iC w → (∀ k < 64, g.guard w k = true) →
      ∃ (t : State) (g' : Str), exec (.blockTo c id i) s = .next t ∧ t.mem = s.mem ∧
        t.strAt c id i = some g' ∧
        g' = { g with regs := g'.regs, pc := g.pc + 1 } ∧ ∀ b < 2, ∀ j < 32,
          let m := Num.mxBlock (iFmt w) ((List.range 32).map (fun k => Num.v32 (x (32 * b + k))))
          g'.reg (iDst w) (32 * b + j) = m.2.getD j 0 % 2 ^ 32 ∧ g'.reg (iC w) (32 * b) = m.1 % 2 ^ 32 ∧
          (j ≠ 0 → g'.reg (iC w) (32 * b + j) = g.reg (iC w) (32 * b + j))) ∧
    (Ready s 0x42 c id i l g w → iFmt w = 0x0B → iDst w ≠ iC w → (∀ k < 64, g.guard w k = true) →
      (((s.ctx c).model).map (·.stoch)).getD false = false →
      ∃ (t : State) (g' : Str), exec (.blockTo c id i) s = .next t ∧ t.mem = s.mem ∧
        t.strAt c id i = some g' ∧
        g' = { g with regs := g'.regs, pc := g.pc + 1 } ∧ ∀ b < 4, ∀ j < 16,
          let m := Num.kvBlock ((List.range 16).map (fun k => Num.v32 (x (16 * b + k)))) none
          g'.reg (iDst w) (16 * b + j) = m.2.getD j 0 % 2 ^ 32 ∧ g'.reg (iC w) (16 * b) = m.1.toNat) ∧
    (Ready s 0x43 c id i l g w → done (exec (.blockFrom c id i) s) (fun k =>
      let n := if iFmt w = 0x0B then 16 else 32
      let e := g.srcA w k % 2 ^ Num.codeBits (iFmt w)
      let sc := g.srcC w (k / n * n)
      Num.enc Num.fp32 (if iFmt w = 0x0B then Num.kvScaled (BitVec.ofNat 16 sc) e
        else Num.mxScaled (sc % 256) (Num.elemVal (iFmt w) e))))

/-- R28 to R32, R38, R293: NaN, overflow, saturation, the sign of zero, and a NaN block scale. -/
def Obligations.NumberRules : Prop :=
  (∀ v : Num.Val, Num.mxScaled 0xFF v = .nan) ∧
  (∀ x y : BitVec 32, (Num.v32 x).isNan = true ∨ (Num.v32 y).isNan = true →
    Num.fadd x y = Num.nan32 ∧ Num.fmul x y = Num.nan32 ∧ Num.fmax x y = Num.nan32 ∧ Num.fdiv x y = Num.nan32) ∧
  (∀ x y : BitVec 32, Num.fadd x y = Num.fadd y x ∧ Num.fmul x y = Num.fmul y x ∧ Num.fmax x y = Num.fmax y x) ∧
  (∀ x : BitVec 32, -32768 ≤ Num.toQ115 x ∧ Num.toQ115 x ≤ 32767) ∧
  (∀ (f : Num.Fmt) (a b : Nat), f.hasInf = false → Num.roundMag f a b ≤ f.maxFin) ∧
  (∀ (neg : Bool) (a b : Nat), Num.roundMag Num.fp32 a b ≤ 0x7F800000 ∧
    Num.enc Num.fp32 (.inf neg) = (if neg then 0xFF800000 else 0x7F800000)) ∧
  (∀ x : BitVec 32, (Num.v32 x).isNan = false → Num.v32 x ≠ .inf true → Num.v32 x ≠ .inf false →
    Num.fadd x (x ^^^ 0x80000000#32) = 0#32)

/-- R183, R230, R234, R244, R326 (Table 8-5): loads and stores of lanes. -/
def Obligations.LoadsAndStores : Prop :=
  (∀ (c id i : Nat) (l : Launch) (g : Str) (w : Nat) (s : State), Ready s 0x60 c id i l g w → s.poison = [] →
    let n := accessBytes (iImm w % 4)
    (∀ k ∈ g.lanes w, let a := g.address w k
      s.laneMay c a n false = true ∧ s.local_ a = true ∧ s.heldAt c (a % 2 ^ 57) = false ∧ ¬ (aKind a = 0 ∧ region (aOff a) = 3)) →
    ∃ (t : State) (g' : Str), exec (.ld c id i none) s = .next t ∧ t.strAt c id i = some g' ∧ t.mem = s.mem ∧
      t.posts = s.posts ∧ t.ws = s.ws ∧ t.flt = s.flt ∧ t.out = s.out ∧
      Wrote g w (fun k => loadValue (iImm w % 4) (g.address w k) (s.numAt (g.address w k % 2 ^ 57) n)) g') ∧
  (∀ a v, loadValue 3 a v = v % 2 ^ 32) ∧
  (∀ (c id i k : Nat) (l : Launch) (g : Str) (w : Nat) (ue : Option Nat) (s : State), Ready s 0x60 c id i l g w →
    g.lanes w = [k] → s.laneMay c (g.address w k) (accessBytes (iImm w % 4)) false = true → s.local_ (g.address w k) = true →
    (s.heldAt c (g.address w k % 2 ^ 57) = true →
      exec (.ld c id i ue) s = .next (s.heldWait c (g.address w k % 2 ^ 57))) ∧
    (s.heldAt c (g.address w k % 2 ^ 57) = false → ue = some (g.address w k) → l.dying = none →
      ∃ t : State, exec (.ld c id i ue) s = .next t ∧
        ((∀ y ∈ l.strs, s.storesDone y = true) → (t.ctx c).launch id = none ∧ (t.ctx c).launchState id = some 4) ∧
        ((∃ y ∈ l.strs, s.storesDone y = false) → ∃ x, (t.ctx c).launch id = some x ∧ x.dying = some 4 ∧ ∀ y ∈ x.strs, y.st = 2))) ∧
  (∀ (c id i : Nat) (l : Launch) (g : Str) (w : Nat) (ue : Option Nat) (s : State), Ready s 0x60 c id i l g w →
    (∃ k ∈ g.lanes w, s.laneMay c (g.address w k) (accessBytes (iImm w % 4)) false = false) →
    exec (.ld c id i ue) s = .next (s.stringFault c id i)) ∧
  (∀ (c id i : Nat) (l : Launch) (g : Str) (w : Nat) (s : State), Ready s 0x60 c id i l g w → s.poison = [] →
    let n := accessBytes (iImm w % 4)
    (∀ k ∈ g.lanes w, let a := g.address w k
      s.laneMay c a n false = true ∧ s.local_ a = false ∧ s.fab.departed.contains (aPkg a) = false) → g.lanes w ≠ [] →
    ∃ (t : State) (g' : Str), exec (.ld c id i none) s = .next t ∧ t.strAt c id i = some g' ∧ t.mem = s.mem ∧
      g' = { g with pc := g.pc + 1, wait := g'.wait, regs := g'.regs } ∧
      (∀ r < 16, ∀ k < 64, g'.reg r k = g.reg r k) ∧
      g'.wait = .mem (iDst w) ((g.lanes w).map (fun k => (k, aPkg (g.address w k)))) ∧
      ∀ k ∈ g.lanes w, ∃ bs, Out.msg (aPkg (g.address w k)) 0x20 c [g.address w k, n] bs ∈ t.out) ∧
  (∀ (c id i lane v : Nat) (g : Str) (dst p w : Nat) (s : State), s.strAt c id i = some g → g.wait = .mem dst [(lane, p)] →
    s.loadWord c id i = some w → lane < 64 → dst < 16 →
    ∃ g' : Str, exec (.memReadDataReceive (.lane c id i lane) (toLE 4 v) false) s = .next (s.putStr c id i g') ∧
      g'.wait = .none ∧ g'.pc = g.pc ∧ g'.preds = g.preds ∧
      ∀ r < 16, ∀ k < 64, g'.reg r k = if r = dst ∧ k = lane
        then loadValue (iImm w % 4) (g.address w lane) (ofLE (toLE 4 v)) % 2 ^ 32 else g.reg r k) ∧
  (∀ (c id i : Nat) (l : Launch) (g : Str) (w : Nat) (s : State), Ready s 0x61 c id i l g w →
    let z := iImm w % 4
    let n := accessBytes z
    (∀ k ∈ g.lanes w, let a := g.address w k
      s.laneMay c a n true = true ∧ s.local_ a = true ∧ s.heldAt c (a % 2 ^ 57) = false) →
    ∃ t : State, exec (.st c id i) s = .next t ∧ t.strAt c id i = some { g with pc := g.pc + 1 } ∧ t.posts = s.posts ∧
      t.ws = s.ws ∧ t.flt = s.flt ∧ t.out = s.out ∧
      (∀ a, (∀ k ∈ g.lanes w, a < g.address w k % 2 ^ 57 ∨ g.address w k % 2 ^ 57 + n ≤ a) → t.byteAt a = s.byteAt a) ∧
      (∀ k ∈ g.lanes w, (∀ j ∈ g.lanes w, j = k ∨ g.address w j % 2 ^ 57 ≠ g.address w k % 2 ^ 57) →
        t.bytesAt (g.address w k % 2 ^ 57) n =
          storeBytes z (g.address w k) (s.numAt (g.address w k % 2 ^ 57) 1) (g.srcC w k))) ∧
  (∀ (c id i : Nat) (l : Launch) (g : Str) (w : Nat) (s : State), Ready s 0x61 c id i l g w →
    let n := accessBytes (iImm w % 4)
    (∀ k ∈ g.lanes w, let a := g.address w k
      s.laneMay c a n true = true ∧ s.local_ a = false) → g.lanes w ≠ [] →
    ∃ (t : State) (g' : Str), exec (.st c id i) s = .next t ∧ t.strAt c id i = some g' ∧ t.mem = s.mem ∧
      g' = { g with pc := g.pc + 1, sent := g'.sent } ∧ g'.sent.length = g.sent.length + (g.lanes w).length ∧
      ∀ k ∈ g.lanes w, ∃ bs, Out.msg (aPkg (g.address w k)) 0x22 c [g.address w k] bs ∈ t.out) ∧
  (∀ (c id i : Nat) (l : Launch) (g : Str) (w : Nat) (s : State), Ready s 0x61 c id i l g w →
    (∃ k ∈ g.lanes w, s.laneMay c (g.address w k) (accessBytes (iImm w % 4)) true = false) →
    exec (.st c id i) s = .next (s.stringFault c id i))

/-- R184, R244, R190 (Table 8-5): atomics, FENCE and TLOOK. -/
def Obligations.AtomicsAndFence : Prop :=
  (∀ (c id i : Nat) (l : Launch) (g : Str) (w : Nat) (s : State), Ready s 0x62 c id i l g w → s.poison = [] →
    (∀ k ∈ g.lanes w, let a := g.address w k
      s.laneAtomic c a = true ∧ s.heldAt c (a % 2 ^ 57) = false) →
    ∃ (t : State) (g' : Str), exec (.aaddI c id i) s = .next t ∧ t.strAt c id i = some g' ∧
      g' = { g with pc := g.pc + 1, regs := g'.regs } ∧
      (∀ a, (∀ k ∈ g.lanes w, a < g.address w k % 2 ^ 57 ∨ g.address w k % 2 ^ 57 + 4 ≤ a) → t.byteAt a = s.byteAt a) ∧
      (∀ k ∈ g.lanes w, t.numAt (g.address w k % 2 ^ 57) 4 = (s.numAt (g.address w k % 2 ^ 57) 4 +
        sumN (((g.lanes w).filter (fun j => g.address w j % 2 ^ 57 == g.address w k % 2 ^ 57)).map (fun j => g.srcC w j))) % 2 ^ 32) ∧
      (∀ k ∈ g.lanes w, (∀ j ∈ g.lanes w, j = k ∨ g.address w j % 2 ^ 57 ≠ g.address w k % 2 ^ 57) →
        g'.reg (iDst w) k = s.numAt (g.address w k % 2 ^ 57) 4)) ∧
  (∀ (c id i : Nat) (l : Launch) (g : Str) (w : Nat) (s : State), Ready s 0x63 c id i l g w → s.poison = [] →
    (∀ k ∈ g.lanes w, let a := g.address w k
      s.laneAtomic c a = true ∧ s.heldAt c (a % 2 ^ 57) = false) →
    ∃ (t : State) (g' : Str), exec (.aaddF c id i) s = .next t ∧ t.strAt c id i = some g' ∧
      g' = { g with pc := g.pc + 1, regs := g'.regs } ∧
      (∀ a, (∀ k ∈ g.lanes w, a < g.address w k % 2 ^ 57 ∨ g.address w k % 2 ^ 57 + 4 ≤ a) → t.byteAt a = s.byteAt a) ∧
      (∀ k ∈ g.lanes w, (∀ j ∈ g.lanes w, j = k ∨ g.address w j % 2 ^ 57 ≠ g.address w k % 2 ^ 57) →
        t.numAt (g.address w k % 2 ^ 57) 4 =
          (Num.fadd (BitVec.ofNat 32 (s.numAt (g.address w k % 2 ^ 57) 4)) (BitVec.ofNat 32 (g.srcC w k))).toNat ∧
        g'.reg (iDst w) k = s.numAt (g.address w k % 2 ^ 57) 4)) ∧
  (∀ (c id i : Nat) (l : Launch) (g : Str) (w : Nat) (s : State),
    (∃ k ∈ g.lanes w, s.laneAtomic c (g.address w k) = false) →
    (Ready s 0x62 c id i l g w → exec (.aaddI c id i) s = .next (s.stringFault c id i)) ∧
    (Ready s 0x63 c id i l g w → exec (.aaddF c id i) s = .next (s.stringFault c id i))) ∧
  (∀ (c id i lane v : Nat) (g : Str) (dst p w : Nat) (s : State), s.strAt c id i = some g → g.wait = .mem dst [(lane, p)] →
    s.loadWord c id i = some w → lane < 64 → dst < 16 →
    ∃ g' : Str, exec (.memAtomicDataReceive c id i lane v) s = .next (s.putStr c id i g') ∧ g'.wait = .none ∧ g'.pc = g.pc ∧
      g'.reg dst lane = loadValue (iImm w % 4) (g.address w lane) v % 2 ^ 32) ∧
  (∀ (c id i : Nat) (l : Launch) (g : Str) (w : Nat) (s : State), Ready s 0x64 c id i l g w →
    (g.lanes w = [] → exec (.fence c id i) s = .next (s.putStr c id i { g with pc := g.pc + 1 })) ∧
    (g.lanes w ≠ [] → exec (.fence c id i) s =
      .next (if ∀ m ∈ g.sent, s.acked m = true then s.putStr c id i { g with pc := g.pc + 1, sent := [] } else s))) ∧
  (∀ (c id i k : Nat) (op : Nat) (l : Launch) (g : Str) (w : Nat) (s : State), (op = 0x62 ∨ op = 0x63) → Ready s op c id i l g w →
    g.lanes w = [k] → s.laneAtomic c (g.address w k) = true → s.heldAt c (g.address w k % 2 ^ 57) = false →
    s.poison = [g.address w k % 2 ^ 57 / 64] → l.dying = none → (∀ y ∈ l.strs, s.storesDone y = true) →
    ∃ t : State, exec (if op = 0x62 then .aaddI c id i else .aaddF c id i) s = .next t ∧ (t.ctx c).launch id = none ∧
      (t.ctx c).launchState id = some 4) ∧
  (∀ (c id i : Nat) (l : Launch) (g : Str) (w : Nat) (s : State), Ready s 0x65 c id i l g w →
    ∃ g', exec (.tlook c id i) s = .next (s.putStr c id i g') ∧ Wrote g w (fun k =>
      Config.tlookWord (iImm w % 4) (g.srcA w k) (g.srcB w k) ((s.ctx c).records l (iImm w % 4))) g')

/-- R175 to R177, R40, R42 (Table 8-5): the matrix unit adds the runs of two tiles in the string's own scratch to the
accumulator tile, clears a tile, and stores one. -/
def Obligations.MatrixInstructions : Prop :=
  (∀ (c id i : Nat) (l : Launch) (g : Str) (w : Nat) (s : State), Ready s 0x80 c id i l g w → g.guard w 0 = true →
    let o := g.matOps w
    o.tile < l.tilesN → o.tile < g.tiles.length → 0 < o.m → o.m ≤ 64 → 0 < o.n → o.n ≤ 96 → 0 < o.runs → o.runs ≤ 65535 →
    g.srcA w 0 % 64 = 0 → g.srcB w 0 % 64 = 0 → g.srcA w 0 + tileBytes o.act o.m o.runs ≤ 4096 * l.scratch4k →
    g.srcB w 0 + tileBytes o.wgt o.n o.runs ≤ 4096 * l.scratch4k →
    ∃ g' : Str, exec (.mma c id i) s = .next ((s.putStr c id i g').bumpCtx c .mmaSteps (o.runs * Num.runSteps o.wgt o.act)) ∧
      g' = { g with pc := g.pc + 1, tiles := g'.tiles } ∧ g'.tiles.length = g.tiles.length ∧
      (∀ u, u ≠ o.tile → g'.tile u = g.tile u) ∧
      ∀ r < 64, ∀ e < 96, (g'.tile o.tile).getD (r * 96 + e) 0 =
        if r < o.m ∧ e < o.n then (s.accumulate o (g.scratchAddr (g.srcA w 0)) (g.scratchAddr (g.srcB w 0)) r e
          (BitVec.ofNat 32 ((g.tile o.tile).getD (r * 96 + e) 0))).toNat
        else (g.tile o.tile).getD (r * 96 + e) 0) ∧
  (∀ (c id i : Nat) (l : Launch) (g : Str) (w : Nat) (s : State), Ready s 0x80 c id i l g w → g.guard w 0 = true →
    (g.srcA w 0 % 64 ≠ 0 ∨ g.srcB w 0 % 64 ≠ 0 ∨ 4096 * l.scratch4k < g.srcA w 0 + tileBytes (g.matOps w).act (g.matOps w).m (g.matOps w).runs) →
    exec (.mma c id i) s = .next (s.stringFault c id i)) ∧
  (∀ (c id i : Nat) (l : Launch) (g : Str) (w : Nat) (s : State), Ready s 0x81 c id i l g w → g.guard w 0 = true →
    let u := Config.mmaTile (iImm w)
    u < l.tilesN → u < g.tiles.length →
    exec (.accZero c id i) s = .next (s.putStr c id i { g with
      pc := g.pc + 1, tiles := g.tiles.set u (List.replicate 6144 0) })) ∧
  (∀ (c id i : Nat) (l : Launch) (g : Str) (w : Nat) (s : State), Ready s 0x82 c id i l g w → g.guard w 0 = true →
    let o := g.matOps w
    let n := if iFmt w = 0 then 4 else 2
    let a := g.scratchAddr (g.srcA w 0)
    iFmt w ≤ 1 → o.tile < l.tilesN → 0 < o.m → o.m ≤ 64 → 0 < o.n → o.n ≤ 96 → g.srcA w 0 % n = 0 →
    g.srcA w 0 + o.m * o.n * n ≤ 4096 * l.scratch4k →
    ∃ t : State, exec (.accStore c id i) s = .next (t.putStr c id i { g with pc := g.pc + 1 }) ∧ t = { s with mem := t.mem } ∧
      (∀ b, b < a ∨ a + o.m * o.n * n ≤ b → t.byteAt b = s.byteAt b) ∧
      ∀ r < o.m, ∀ e < o.n, t.numAt (a + (r * o.n + e) * n) n =
        (if iFmt w = 0 then (Num.to32 (Num.v32 (BitVec.ofNat 32 ((g.tile o.tile).getD (r * 96 + e) 0)))).toNat
         else (Num.narrow (BitVec.ofNat 32 ((g.tile o.tile).getD (r * 96 + e) 0))).toNat)) ∧
  (∀ (c id i : Nat) (l : Launch) (g : Str) (w : Nat) (s : State), g.guard w 0 = false →
    (Ready s 0x80 c id i l g w → exec (.mma c id i) s = .next (s.putStr c id i { g with pc := g.pc + 1 })) ∧
    (Ready s 0x81 c id i l g w → exec (.accZero c id i) s = .next (s.putStr c id i { g with pc := g.pc + 1 })) ∧
    (Ready s 0x82 c id i l g w → exec (.accStore c id i) s = .next (s.putStr c id i { g with pc := g.pc + 1 })))

/-- R179, R182, R183, R189, R194 (Table 8-5): branches, predicates, exchanges between lanes, work items and special
functions.  Which predicate a branch or PSET names is an open value (log entry 3). -/
def Obligations.StringControl : Prop :=
  ∀ (c id i : Nat) (l : Launch) (g : Str) (w : Nat) (s : State),
    let taken : Int := (g.pc : Int) + (if Config.branchNext then 1 else 0) + iSimm w
    let n := (((s.ctx c).lanes.kernels.find l.kernel).map (·.code.length)).getD 0
    let named (k : Nat) : Bool := g.pred (bits w (8 + 4 * (Config.branchField % 4)) 4 % 4) k
    let goes (e : Host.Outcome State Fault Refusal) : Prop :=
      (0 ≤ taken ∧ taken < n → e = .next (s.putStr c id i { g with pc := (taken).toNat })) ∧
      (taken < 0 ∨ (n : Int) ≤ taken → e = .next (s.stringFault c id i))
    let falls (e : Host.Outcome State Fault Refusal) : Prop := e = .next (s.putStr c id i { g with pc := g.pc + 1 })
    (Ready s 0xC0 c id i l g w →
      ((∃ k < 64, g.guard w k = true ∧ named k = true) → goes (exec (.brAny c id i) s)) ∧
      ((∀ k < 64, g.guard w k = true → named k = false) → falls (exec (.brAny c id i) s))) ∧
    (Ready s 0xC1 c id i l g w →
      ((∀ k < 64, g.guard w k = true → named k = true) → goes (exec (.brAll c id i) s)) ∧
      ((∃ k < 64, g.guard w k = true ∧ named k = false) → falls (exec (.brAll c id i) s))) ∧
    (Ready s 0xC2 c id i l g w → ∃ g', exec (.pset c id i) s = .next (s.putStr c id i g') ∧
      Judged g w (fun k => Config.psetTest w (b2n (g.pred 0 k) + 2 * b2n (g.pred 1 k) + 4 * b2n (g.pred 2 k) +
        8 * b2n (g.pred 3 k))) g') ∧
    (Ready s 0xC3 c id i l g w → ∃ (g' : Str) (f : Nat → Nat), exec (.lshuf c id i) s = .next (s.putStr c id i g').freed ∧
      Wrote g w f g' ∧ ∀ k < 64, g.srcB w k < 64 → f k = g.reg (iA w) (g.srcB w k)) ∧
    (Ready s 0xC4 c id i l g w → ∃ (g' : Str) (f : Nat → Nat), exec (.lsum c id i) s = .next (s.putStr c id i g') ∧
      Wrote g w f g' ∧ ∀ k ∈ g.lanes w, ∃ (a : Nat) (r : List Nat), g.lanes w = a :: r ∧
        f k = (r.foldl (fun v j => Num.fadd v (BitVec.ofNat 32 (g.srcA w j)))
          (Num.to32 (Num.v32 (BitVec.ofNat 32 (g.srcA w a))))).toNat) ∧
    (Ready s 0xC5 c id i l g w → ∃ (g' : Str) (f : Nat → Nat), exec (.lmax c id i) s = .next (s.putStr c id i g') ∧
      Wrote g w f g' ∧ ∀ k ∈ g.lanes w, ∃ (a : Nat) (r : List Nat), g.lanes w = a :: r ∧
        f k = (r.foldl (fun v j => Num.fmax v (BitVec.ofNat 32 (g.srcA w j)))
          (Num.to32 (Num.v32 (BitVec.ofNat 32 (g.srcA w a))))).toNat) ∧
    (Ready s 0xA0 c id i l g w →
      let users := (s.ctx c).sfnAt l.sfnGen
      let m := iImm w % 256
      ∃ (g' : Str) (e : Nat), exec (.sfn c id i) s = .next ((((s.putStr c id i g').bumpCtx c .sfnPasses
        (Sfn.passes m * (g.lanes w).length)).bumpCtx c .sfnEmptySlot (b2n (decide (0x20 ≤ m) && (users.find m).isNone))).bumpCtx c
        .normClamps e).freed ∧ (m ≠ 0x05 → e = 0) ∧
        Wrote g w (fun k => Sfn.eval (s.ctx c).sfnRev users m (iFmt w) (BitVec.ofNat 32 (g.srcA w k))
          (BitVec.ofNat 32 (g.srcB w k))) g') ∧
    (Ready s 0x66 c id i l g w → g.lanes w ≠ [] → l.fixed = true →
      ∃ g' g'' : Str, exec (.claim c id i) s = .next (s.putStr c id i g'') ∧ g'' = { g' with claims := g.claims + 1 } ∧
        Wrote g w (fun _ => if i + g.claims * l.strings < l.items then i + g.claims * l.strings else 0xFFFFFFFF) g') ∧
    (Ready s 0x66 c id i l g w → g.lanes w ≠ [] → l.fixed = false →
      ∃ (t : State) (g' g'' : Str), exec (.claim c id i) s = .next t ∧ t.strAt c id i = some g'' ∧
        g'' = { g' with claims := g.claims + 1 } ∧ t.mem = s.mem ∧
        Wrote g w (fun _ => if l.nextItem < l.items then l.nextItem else 0xFFFFFFFF) g' ∧
        ∃ l', (t.ctx c).launch id = some l' ∧ l'.nextItem = if l.nextItem < l.items then l.nextItem + 1 else l.nextItem)

/-- R173, R187, R191: END, and what a string fault does to its launch. -/
def Obligations.StringEnds : Prop :=
  (∀ (c id i : Nat) (l : Launch) (g : Str) (w : Nat) (s : State), Ready s 0xCA c id i l g w → g.lanes w = [] →
    exec (.endString c id i) s = .next (s.putStr c id i { g with pc := g.pc + 1 })) ∧
  (∀ (c id i : Nat) (l : Launch) (g : Str) (w : Nat) (s : State), Ready s 0xCA c id i l g w → g.lanes w ≠ [] →
    (∃ j g', j ≠ i ∧ l.strs[j]? = some g' ∧ g'.st ≠ 2) → (∀ k ∈ s.cores.cores, k.st ≠ 1) →
    exec (.endString c id i) s = .next (s.putStr c id i { g with st := 2, regs := [], preds := [], tiles := [] })) ∧
  (∀ (c id i : Nat) (l : Launch) (g : Str) (w : Nat) (s : State), Ready s 0xCA c id i l g w → g.lanes w ≠ [] →
    (s.ctx c).lanes.launches = [l] →
    (∀ j g', j ≠ i → l.strs[j]? = some g' → g'.st = 2) → (∀ x ∈ l.strs, ∀ m ∈ x.sent, s.acked m = true) → l.tallyEn = false →
    (∀ k ∈ s.cores.cores, k.st ≠ 1) →
    exec (.endString c id i) s = .next (s.onCtx c (fun x => { x with lanes := { x.lanes with
      launches := [], known := ((l.id, 2) :: x.lanes.known).take 1024 } }))) ∧
  (∀ (c id i : Nat) (l : Launch) (g : Str) (w : Nat) (s : State), Ready s 0xCA c id i l g w → g.lanes w ≠ [] →
    (∀ j g', j ≠ i → l.strs[j]? = some g' → g'.st = 2) → (∃ x ∈ l.strs, ∃ m ∈ x.sent, s.acked m = false) →
    exec (.endString c id i) s = .next s) ∧
  (∀ (c id i : Nat) (l : Launch) (s : State), (s.ctx c).launch id = some l → l.dying = none →
    let t := s.stringFault c id i
    ((∀ x ∈ l.strs, s.storesDone x = true) → (t.ctx c).launch id = none ∧ (t.ctx c).launchState id = some 4) ∧
    ((∃ x ∈ l.strs, s.storesDone x = false) → ∃ y, (t.ctx c).launch id = some y ∧ y.dying = some 4 ∧ ∀ x ∈ y.strs, x.st = 2) ∧
    ∃ m ∈ t.flt.arriving, m.kind = 0x07 ∧ m.cls = 1 ∧ m.ctx = c ∧
      m.detail = packF [(0, 32, id), (32, 16, l.kernel)])

/-- R244, R250: TP_ARRIVE and TP_WAIT run once, with the operands of the lowest guarded lane. -/
def Obligations.StringsOnPosts : Prop :=
  (∀ (c id i k : Nat) (r : List Nat) (l : Launch) (g : Str) (w : Nat) (s : State), Ready s 0xC6 c id i l g w → g.lanes w = k :: r →
    (∀ m ∈ g.sent, s.acked m = true) → bits (g.srcA w k) 16 7 = s.board.pkgId →
    exec (.tpArrive c id i) s = .next ((s.putStr c id i { g with pc := g.pc + 1, sent := [] }).arrive (g.srcA w k % 2 ^ 16)
      s.board.pkgId (g.srcB w k) (if (g.srcA w k).testBit 23 then some (g.srcC w k % 2 ^ 15) else none)).1) ∧
  (∀ (c id i k : Nat) (r : List Nat) (l : Launch) (g : Str) (w : Nat) (s : State), Ready s 0xC6 c id i l g w → g.lanes w = k :: r →
    (∀ m ∈ g.sent, s.acked m = true) → bits (g.srcA w k) 16 7 ≠ s.board.pkgId →
    ∃ t : State, exec (.tpArrive c id i) s = .next t ∧ t.strAt c id i = some { g with pc := g.pc + 1, sent := [] } ∧
      t.mem = s.mem ∧ t.posts = s.posts ∧ ∃ bs, Out.msg (bits (g.srcA w k) 16 7) 0x30 c
        [g.srcA w k % 2 ^ 16, g.srcB w k, b2n ((g.srcA w k).testBit 23), g.srcC w k % 2 ^ 15] bs ∈ t.out) ∧
  (∀ (c id i : Nat) (l : Launch) (g : Str) (w : Nat) (s : State), Ready s 0xC6 c id i l g w → g.lanes w ≠ [] →
    (∃ m ∈ g.sent, s.acked m = false) → exec (.tpArrive c id i) s = .next s) ∧
  (∀ (c id i : Nat) (l : Launch) (g : Str) (w : Nat) (s : State), g.lanes w = [] →
    (Ready s 0xC6 c id i l g w → exec (.tpArrive c id i) s = .next (s.putStr c id i { g with pc := g.pc + 1 })) ∧
    (Ready s 0xC7 c id i l g w → exec (.tpWait c id i) s = .next (s.putStr c id i { g with pc := g.pc + 1 })) ∧
    (Ready s 0xC8 c id i l g w → exec (.wsPush c id i) s = .next (s.putStr c id i { g with pc := g.pc + 1 })) ∧
    (Ready s 0xC9 c id i l g w → bits (iImm w) 4 2 = 0 → exec (.wsPop c id i) s = .next (s.putStr c id i { g with pc := g.pc + 1 }))) ∧
  (∀ (c id i k : Nat) (r : List Nat) (l : Launch) (g : Str) (w : Nat) (s : State), Ready s 0xC7 c id i l g w → g.lanes w = k :: r →
    let t := g.srcA w k % 2 ^ 16
    let own := bits (g.srcA w k) 16 7 = s.board.pkgId ∧ (s.ctx c).hasPost t = true
    (¬ own → exec (.tpWait c id i) s = .next (s.stringFault c id i)) ∧
    (own → (s.post t).st = 1 → exec (.tpWait c id i) s = .next
      ((s.onPost t (fun q => { q with waiters := q.waiters ++ [(c, id, i)] })).putStr c id i { g with wait := .tally t })) ∧
    (own → (s.post t).st = 0 → ∃ g', exec (.tpWait c id i) s = .next (s.putStr c id i g') ∧ Wrote g w (fun _ => 0) g') ∧
    (own → (s.post t).st = 2 ∨ (s.post t).st = 3 → (s.post t).phase < 2 ^ 15 → ∃ g', exec (.tpWait c id i) s = .next (s.putStr c id i g') ∧
      Wrote g w (fun _ => (s.post t).st + (s.post t).phase * 2 ^ 16) g')) ∧
  (∀ (c id i v : Nat) (l : Launch) (g : Str) (w : Nat) (s : State), s.atWord 0xC7 c id i = some (l, g, w) → g.wait = .woken v →
    ∃ g', exec (.tpWait c id i) s = .next (s.putStr c id i g') ∧ Wrote { g with wait := .none } w (fun _ => v) g')

/-- R268, R270 to R273: WS_PUSH and the four operations of WS_POP. -/
def Obligations.StringsOnWaystations : Prop :=
  (∀ (c id i k : Nat) (r : List Nat) (l : Launch) (g : Str) (w : Nat) (s : State), Ready s 0xC8 c id i l g w → g.lanes w = k :: r →
    let q := g.srcA w k % 2 ^ 12
    let v := packF ((List.range ((s.wst q).wordBytes / 4)).map (fun j => (32 * j, 32, if g.guard w j then g.srcB w j else 0)))
    ((s.ctx c).hasWs q = false ∨ (s.wst q).lanePush = false → exec (.wsPush c id i) s = .next (s.stringFault c id i)) ∧
    ((s.ctx c).hasWs q = true → (s.wst q).lanePush = true → (s.wst q).pushers = [] → 0 < (s.wst q).room →
      (q ≠ (s.ctx c).lanes.layoutWs → ∃ t : State, exec (.wsPush c id i) s = .next t ∧
        t.strAt c id i = some { g with pc := g.pc + 1 } ∧ t.mem = s.mem ∧
        (t.wst q).words = (s.wst q).words ++ [(v % 2 ^ (8 * (s.wst q).wordBytes), false)] ∧
        (t.wst q).writePtr = ((s.wst q).writePtr + 1) % 2 ^ 32 ∧ (∀ p, p ≠ q → t.wst p = s.wst p)) ∧
      (c < s.ctxs.length → q = (s.ctx c).lanes.layoutWs → ∃ t : State, exec (.wsPush c id i) s = .next t ∧
        (t.ctx c).lanes.cmds = (s.ctx c).lanes.cmds ++ [⟨v, l.layGen, some id, false, 0, false, none, false, none⟩])) ∧
    ((s.ctx c).hasWs q = true → (s.wst q).lanePush = true → (s.wst q).room = 0 →
      exec (.wsPush c id i) s = .next (((s.onWs q (fun y => { y with pushers := y.pushers ++ [(c, id, i)] })).putStr c id i
        { g with wait := .ws q }).bumpCtx c .wsFullWaits 1))) ∧
  (∀ (c id i k : Nat) (r : List Nat) (l : Launch) (g : Str) (w : Nat) (s : State), Ready s 0xC9 c id i l g w → g.lanes w = k :: r →
    let q := g.srcA w k % 2 ^ 12
    let may := (s.ctx c).hasWs q = true ∧ (s.wst q).consumer = 1
    let n := (s.wst q).wordBytes / 4
    (¬ may →
      (bits (iImm w) 4 2 = 0 → exec (.wsPop c id i) s = .next (s.stringFault c id i)) ∧
      (bits (iImm w) 4 2 = 1 → exec (.wsPopMark c id i) s = .next (s.stringFault c id i)) ∧
      (bits (iImm w) 4 2 = 2 → exec (.wsPopRewind c id i) s = .next (s.stringFault c id i)) ∧
      (bits (iImm w) 4 2 = 3 → exec (.wsPopRelease c id i) s = .next (s.stringFault c id i))) ∧
    (may → bits (iImm w) 4 2 = 0 →
      (∀ v rest, (s.wst q).unread = v :: rest → ∃ (t : State) (g' : Str), exec (.wsPop c id i) s = .next t ∧
        t.strAt c id i = some g' ∧ t.mem = s.mem ∧ t.posts = s.posts ∧ (t.wst q).last = v ∧
        (t.wst q).readPtr = ((s.wst q).readPtr + 1) % 2 ^ 32 ∧ (∀ p, p ≠ q → t.wst p = s.wst p) ∧
        ((s.wst q).markHeld = false → (t.wst q).releasePtr = (t.wst q).readPtr) ∧
        ((s.wst q).markHeld = true → (t.wst q).releasePtr = (s.wst q).releasePtr ∧ (t.wst q).words = (s.wst q).words) ∧
        g' = { g with pc := g.pc + 1, regs := g'.regs, preds := g'.preds } ∧
        (∀ b < 16, ∀ j < 64, g'.reg b j = if b = iDst w ∧ j < n ∧ g.guard w j then bits v.1 (32 * j) 32 else g.reg b j) ∧
        (bits (iImm w) 0 2 ≠ bits (iImm w) 2 2 → ∀ p < 4, ∀ j < 64,
          g'.pred p j = if p = bits (iImm w) 0 2 ∧ g.guard w j then false
            else if p = bits (iImm w) 2 2 ∧ g.guard w j then v.2 else g.pred p j)) ∧
      ((s.wst q).unread = [] → ∃ (t : State) (g' : Str), exec (.wsPop c id i) s = .next t ∧ t.strAt c id i = some g' ∧
        t.mem = s.mem ∧ t.wst q = { s.wst q with underrun := true } ∧ (∀ p, p ≠ q → t.wst p = s.wst p) ∧
        ((s.wst q).ctx < s.ctxs.length → ctrGet (t.ctx (s.wst q).ctx).ctr .wsUnderruns =
          Ctr.plus .wsUnderruns (ctrGet (s.ctx (s.wst q).ctx).ctr .wsUnderruns) 1) ∧
        g' = { g with pc := g.pc + 1, regs := g'.regs, preds := g'.preds } ∧
        (∀ b < 16, ∀ j < 64, g'.reg b j = if b = iDst w ∧ j < n ∧ g.guard w j then bits (s.wst q).last.1 (32 * j) 32
          else g.reg b j) ∧
        (bits (iImm w) 0 2 ≠ bits (iImm w) 2 2 → ∀ p < 4, ∀ j < 64,
          g'.pred p j = if p = bits (iImm w) 0 2 ∧ g.guard w j then true
            else if p = bits (iImm w) 2 2 ∧ g.guard w j then (s.wst q).last.2 else g.pred p j))) ∧
    (may → bits (iImm w) 4 2 = 1 → exec (.wsPopMark c id i) s = .next ((s.onWs q (fun y => { y with
      markPtr := y.readPtr, markHeld := true })).putStr c id i { g with pc := g.pc + 1 })) ∧
    (may → bits (iImm w) 4 2 = 2 → (s.wst q).markHeld = true → ∃ t : State, exec (.wsPopRewind c id i) s = .next t ∧
      t.wst q = { s.wst q with readPtr := (s.wst q).markPtr } ∧ t.strAt c id i = some { g with pc := g.pc + 1 } ∧ t.mem = s.mem) ∧
    (may → bits (iImm w) 4 2 = 3 → (s.wst q).markHeld = true → ∃ t : State, exec (.wsPopRelease c id i) s = .next t ∧
      (t.wst q).releasePtr = (s.wst q).readPtr ∧ (t.wst q).markHeld = false ∧
      t.strAt c id i = some { g with pc := g.pc + 1 } ∧ t.mem = s.mem) ∧
    (may → (s.wst q).markHeld = false →
      (bits (iImm w) 4 2 = 2 → ∃ t : State, exec (.wsPopRewind c id i) s = .next t ∧ t.wst q = s.wst q ∧
        t.strAt c id i = some { g with pc := g.pc + 1 }) ∧
      (bits (iImm w) 4 2 = 3 → ∃ t : State, exec (.wsPopRelease c id i) s = .next t ∧ t.wst q = s.wst q ∧
        t.strAt c id i = some { g with pc := g.pc + 1 })))

/-! ### Steps -/

/-- R52, R55 to R57, R60, R68 to R70, R269, R328: a boundary waits for the step, commits it, and builds the next. -/
def Obligations.StepBoundaries : Prop :=
  (∀ (c : Nat) (s : State), (16 ≤ c ∨ (s.ctx c).st ≠ .active ∨ (s.part (s.ctx c).share.partition).halted = true) →
    exec (.stepBoundary c) s = .next s) ∧
  (∀ (c : Nat) (m : Manifest) (s : State), (s.ctx c).steps.between = false → (s.ctx c).steps.man = some m →
    (s.ctx c).stepEnded m = false → exec (.stepBoundary c) s = .next s) ∧
  (∀ (c : Nat) (m : Manifest) (s : State), c < 16 → (s.ctx c).st = .active →
    (s.part (s.ctx c).share.partition).halted = false → (s.ctx c).steps.between = false → (s.ctx c).steps.man = some m →
    (s.ctx c).stepEnded m = true → s.emitRoom m = false →
    exec (.stepBoundary c) s = .next (if (s.ctx c).steps.stalled then s else
      (s.onCtx c (fun x => { x with steps := { x.steps with stalled := true } })).bumpCtx c .emitStalls 1)) ∧
  (∀ (c : Nat) (s : State), (s.ctx c).steps.between = true → s.mayBuild c = false → exec (.stepBoundary c) s = .next s) ∧
  (∀ (c q v : Nat) (m : Manifest) (n : Entry) (e : Seq) (s : State), c < 16 → c < s.ctxs.length → (s.ctx c).st = .active →
    (s.part (s.ctx c).share.partition).halted = false → (s.ctx c).held = true → (s.ctx c).steps.between = false →
    (s.ctx c).steps.man = some m → (s.ctx c).stepEnded m = true → s.emitRoom m = true → (s.ctx c).plans.requests = [] →
    (s.ctx c).steps.notes = [] → (s.ctx c).steps.gone = [] →
    (s.ctx c).route.other = .free → (s.ctx c).sfn.other = .free → (s.ctx c).lay.other = .free → (s.ctx c).kv.evicted = [] →
    s.host.msgs = [] → s.seqs = [(q, e)] → e ≠ Seq.fresh → e.ctx = c → e.st = .decode → e.feed = [] → e.perFrame = 0 →
    e.usePrefix = false → m.entries = [n] → n.seq = q → n.sample = true → n.cancelled = false →
    s.outcome c n = ⟨some (some v), false, false⟩ → (s.wst e.emitWs).width = 2 →
    ∃ t : State, exec (.stepBoundary c) s = .next t ∧ (t.ctx c).steps.man = none ∧ (t.ctx c).steps.between = true ∧
      (t.ctx c).steps.doneMask.testBit m.epoch = true ∧ (t.ctx c).steps.nextEpoch = (s.ctx c).steps.nextEpoch ∧
      (t.seq q).pos = e.pos + n.tokens ∧ (t.seq q).pendTok = some v ∧ (t.seq q).st = .decode ∧
      (t.wst e.emitWs).words = (s.wst e.emitWs).words ++
        [(emitRecord (some v) (n.start + n.tokens - 1) q m.epoch false false false false (n.degraded || e.degraded) % 2 ^ 128, false)] ∧
      ((t.ctx c).steps.records.getLast?.map (·.2)) = some 48) ∧
  (∀ (c q v : Nat) (e : Seq) (s : State), c < 16 → c < s.ctxs.length → (s.ctx c).st = .active →
    (s.part (s.ctx c).share.partition).halted = false → (s.ctx c).steps.between = true → s.mayBuild c = true →
    (s.ctx c).route.other = .free → (s.ctx c).sfn.other = .free → (s.ctx c).lay.other = .free →
    (s.fw fwCaravan).st ≠ .running → s.host.msgs = [] → (s.ctx c).kv.heldHints = [] → (s.ctx c).resid.toAck = [] →
    s.seqs = [(q, e)] → e ≠ Seq.fresh → e.ctx = c → e.st = .decode → e.kvFar = false → e.pendTok = some v →
    (s.ctx c).demand e 1 = (0, 0) → 0 < (s.ctx c).steps.tokenLimit → 0 < 2097152 / (s.ctx c).route.active.kmax →
    ∃ (t : State) (m : Manifest) (n : Entry), exec (.stepBoundary c) s = .next t ∧ (t.ctx c).steps.man = some m ∧
      (t.ctx c).steps.nextEpoch = ((s.ctx c).steps.nextEpoch + 1) % 65536 ∧ (t.ctx c).steps.between = false ∧
      m.epoch = (s.ctx c).steps.nextEpoch ∧ m.fixed = (s.ctx c).steps.mode ∧ m.tokens = 1 ∧ m.tokensA = 1 ∧
      m.buildTick = s.now ∧ m.routeGen = (s.ctx c).route.gen ∧ m.entries = [n] ∧ n.seq = q ∧ n.slot = 0 ∧ n.tokens = 1 ∧
      n.convoyB = false ∧ n.sample = true ∧ n.start = e.pos ∧ n.input = [v] ∧ (t.seq q).pendTok = none ∧
      (t.seq q).st = .decode ∧ t.mem = s.mem)

/-- R60, R66, R109, R417: the dies read the Manifest, a logit row becomes the entry's token, and a plan is published. -/
def Obligations.StepInputs : Prop :=
  (∀ (die c : Nat) (m : Manifest) (s : State), (s.ctx c).steps.man = some m → s.boot.diesUp.getD die false = true →
    exec (.manifestRead die c) s = .next (s.emit (.ucie die 0x8 c m.epoch 0 false 0 false
      (toLE 32 (m.pack c (s.ctx c).share.partition) ++ (m.entries.map (fun e => toLE 16 e.pack)).flatten)))) ∧
  (∀ (die c : Nat) (s : State), ((s.ctx c).steps.man = none ∨ s.boot.diesUp.getD die false = false) →
    exec (.manifestRead die c) s = .next s) ∧
  (∀ (c slot fmt : Nat) (row : List Nat) (m : Manifest) (e : Entry) (md : Model) (s : State), c < s.ctxs.length →
    (s.ctx c).steps.man = some m → m.entries = [e] → e.sample = true → e.slot + e.tokens = slot + 1 → 0 < e.tokens →
    e.result = none → e.skipped = false → fmt ≤ 1 → (s.ctx c).model = some md → row.length = md.vocab →
    ∃ t : State, exec (.logitRowReceive c slot fmt row) s = .next t ∧ t.mem = s.mem ∧ t.seqs = s.seqs ∧
      (t.ctx c).steps.man = some { m with entries := [{ e with result := some (sampleToken (s.ctx c).sfnRev e fmt row) }] } ∧
      ((∀ x ∈ row, fmt = 0 ∧ (Num.v32 (BitVec.ofNat 32 x)).isNan = true) →
        sampleToken (s.ctx c).sfnRev e fmt row = none ∧
        ∃ f ∈ t.flt.arriving, f.kind = 0x11 ∧ f.source = 0x804 ∧ f.cls = 0 ∧ f.ctx = c)) ∧
  (∀ (rev i : Nat) (e : Entry) (row : List Nat), e.temp = 0 → (∀ x ∈ row, x < 2 ^ 32 ∧ (Num.v32 (BitVec.ofNat 32 x)).isNan = false) →
    sampleToken rev e 0 row = some i →
    i < row.length ∧
    (∀ j < row.length, (Num.v32 (BitVec.ofNat 32 (row.getD i 0))).lt (Num.v32 (BitVec.ofNat 32 (row.getD j 0))) = false) ∧
    (∀ j < i, (Num.v32 (BitVec.ofNat 32 (row.getD j 0))).lt (Num.v32 (BitVec.ofNat 32 (row.getD i 0))) = true)) ∧
  (∀ (c l : Nat) (m : Manifest) (md : Model) (s : State), (s.ctx c).steps.man = some m → (s.ctx c).model = some md → l < md.moe →
    (s.fw fwCaravan).st = .running → (s.ctx c).sealBegun l = false → (s.ctx c).plannedNow l false = true →
    let plan (t : Nat) : Tbl Nat :=
      s.planRows c (s.ctx c).boundRoute l t ((s.ctx c).plans.lastHist.getD l []) (s.ctx c).plans.lastTokens
    exec (.planPublish c l) s = .next (s.onCtx c (fun x => { x with plans := { x.plans with
      now := (x.plans.now.put (2 * l) (plan m.tokensA)).put (2 * l + 1) (plan (m.tokens - m.tokensA))
      standing := (x.plans.standing.put (2 * l) (plan m.tokensA)).put (2 * l + 1) (plan (m.tokens - m.tokensA)) } }))) ∧
  (∀ (c l : Nat) (s : State), ((s.ctx c).sealBegun l = true ∨ (s.fw fwCaravan).st ≠ .running) →
    exec (.planPublish c l) s = .next s)

/-- R60, R118, R145, R417: rows and memory accesses of the compute dies. -/
def Obligations.DieTraffic : Prop :=
  (∀ (die c epoch l : Nat) (b : Bool) (slot : Nat) (row : List Nat) (m : Manifest) (md : Model) (s : State),
    let k := 2 * l + b2n b
    let g := ((s.ctx c).boundRoute.layer l).disp
    s.boot.diesUp.getD die false = true → (s.ctx c).steps.man = some m → m.epoch = epoch → (s.ctx c).model = some md →
    l < md.moe → (m.slots b).1 ≤ slot → slot < (m.slots b).2 → row.length = (s.ctx c).share.dModel →
    (((s.ctx c).layer k).hidden.find slot = none →
      let conv := rowTensor (dispFmt g) (row.map (fun v =>
        Num.fmul (Num.widen (BitVec.ofNat 16 v)) (BitVec.ofNat 32 (dispScale g))))
      ∃ n, exec (.hiddenRowReceive die c epoch l b slot row) s = .next (((s.onLayer c k (fun y => { y with
        hidden := y.hidden.put slot (die, row)
        convRows := y.convRows.put slot conv })).bumpCtx c .layoutCmds n).bumpCtx c .layoutBytes conv.length).freed) ∧
    (((s.ctx c).layer k).hidden.find slot ≠ none → exec (.hiddenRowReceive die c epoch l b slot row) s = .next s) ∧
    (combFused ((s.ctx c).boundRoute.layer l).comb = true → ((s.ctx c).layer k).hidden.find slot ≠ none →
      ((s.ctx c).layer k).resid.find slot = none →
      let f := combResid ((s.ctx c).boundRoute.layer l).comb
      let bs := row.flatMap (fun v => toLE (if f = 0 then 4 else 2) v)
      let place (i : Nat) : Option Nat := (s.ctx c).residAt c l slot i
      ∃ t : State, exec (.residualRowReceive die c epoch l b slot row) s = .next t ∧
        t = { s.onLayer c k (fun y => { y with resid := y.resid.put slot (die, row) }) with mem := t.mem } ∧
        (∀ a, (∀ i < bs.length, place i ≠ some a) → t.byteAt a = s.byteAt a) ∧
        (∀ i < bs.length, ∀ a, place i = some a → (∀ j < bs.length, place j = some a → j = i) →
          t.byteAt a = bs.getD i 0#8))) ∧
  (∀ (die c epoch l : Nat) (b : Bool) (slot : Nat) (row : List Nat) (s : State),
    ((s.ctx c).steps.man = none ∨ s.boot.diesUp.getD die false = false) →
    exec (.hiddenRowReceive die c epoch l b slot row) s = .next s ∧ exec (.residualRowReceive die c epoch l b slot row) s = .next s) ∧
  (∀ (die c a n : Nat) (bs : List Byte) (s : State), s.booted = true → s.boot.diesUp.getD die false = true →
    (aPkg a = s.board.pkgId → s.exists_ a bs.length = true →
      exec (.ucieMemoryAccess die c a n (some bs)) s = .next (s.writeAt (a % 2 ^ 57) bs)) ∧
    (aPkg a = s.board.pkgId → s.exists_ a n = true →
      (∀ l ∈ s.poison, l < a % 2 ^ 57 / 64 ∨ (a % 2 ^ 57 + n - 1) / 64 < l) →
      exec (.ucieMemoryAccess die c a n none) s =
        .next (s.emit (.ucie die 0x9 c 0 0 false 0 false (s.bytesAt (a % 2 ^ 57) n)))) ∧
    (aPkg a = s.board.pkgId → s.exists_ a n = true →
      (∃ l ∈ s.poison, a % 2 ^ 57 / 64 ≤ l ∧ l ≤ (a % 2 ^ 57 + n - 1) / 64) →
      ∃ t : State, exec (.ucieMemoryAccess die c a n none) s = .next t ∧ t.mem = s.mem ∧
        Out.uciePoison die c (s.bytesAt (a % 2 ^ 57) n) ∈ t.out ∧
        (∀ l, l ∈ t.poison ↔ l ∈ s.poison ∧ (l < a % 2 ^ 57 / 64 ∨ (a % 2 ^ 57 + n - 1) / 64 < l))) ∧
    (aPkg a = s.board.pkgId → s.exists_ a n = false →
      exec (.ucieMemoryAccess die c a n none) s = .fault .noSuchAddress) ∧
    (aPkg a = s.board.pkgId → s.exists_ a bs.length = false →
      exec (.ucieMemoryAccess die c a n (some bs)) s = .fault .noSuchAddress) ∧
    (aPkg a ≠ s.board.pkgId → ∃ t u : State, exec (.ucieMemoryAccess die c a n (some bs)) s = .next t ∧ t.mem = s.mem ∧
      Out.msg (aPkg a) 0x22 c [a] (toLE 8 a ++ bs) ∈ t.out ∧ exec (.ucieMemoryAccess die c a n none) s = .next u ∧
      u.mem = s.mem ∧ Out.msg (aPkg a) 0x20 c [a, n] (toLE 8 a ++ toLE 8 n) ∈ u.out)) ∧
  (∀ (to_ : Nat) (c : Nat) (bs : List Byte) (s : State), s.boot.diesUp.getD to_ false = true →
    exec (.memReadDataReceive (.die to_ c) bs false) s = .next (s.emit (.ucie to_ 0x9 c 0 0 false 0 false bs)) ∧
    exec (.memReadDataReceive (.die to_ c) bs true) s = .next (s.emit (.uciePoison to_ c bs)))

/-- R74 to R79, R84 to R86, R91, R92: the gate scores a convoy's layer, the predictor counts, and the Selector picks. -/
def Obligations.GateAndSelection : Prop :=
  (∀ (c l : Nat) (b : Bool) (m : Manifest) (md : Model) (s : State),
    let k := 2 * l + b2n b
    let y := (s.ctx c).layer k
    c < s.ctxs.length → (s.ctx c).steps.man = some m → (s.ctx c).model = some md → l < md.moe → y.gated = false →
    (m.slots b).1 < (m.slots b).2 → (∀ n, (m.slots b).1 ≤ n → n < (m.slots b).2 → (y.hidden.find n).isSome = true ∧ (s.ctx c).gone n = false) →
    ∃ t : State, exec (.gateLaunch c l b) s = .next t ∧ ((t.ctx c).layer k).gated = true ∧ t.mem = s.mem ∧ t.seqs = s.seqs ∧
      ∀ n, (m.slots b).1 ≤ n → n < (m.slots b).2 → ((t.ctx c).layer k).scores.find n =
        some (s.gateRow (s.ctx c).sfnRev ((s.ctx c).boundRoute.layer l) (s.ctx c).share.dModel
          (((y.hidden.find n).map (·.2)).getD []))) ∧
  (∀ (c l : Nat) (b : Bool) (n : Nat) (m : Manifest) (s : State), (s.ctx c).steps.man = some m → (m.slots b).1 ≤ n → n < (m.slots b).2 →
    ((s.ctx c).layer (2 * l + b2n b)).hidden.find n = none → exec (.gateLaunch c l b) s = .next s) ∧
  (∀ (c l : Nat) (b : Bool) (m : Manifest) (s : State),
    let y := (s.ctx c).layer (2 * l + b2n b)
    (s.ctx c).steps.man = some m → y.gated = true → y.predRun = false → y.predDone = false →
    ((s.ctx c).layer (2 * (l + 1) + b2n b)).gated = false → cfgDepth ((s.ctx c).boundRoute.layer l).cfg ≠ 0 →
    ∃ n1 n2 n3, exec (.predictorLaunch c l b) s = .next (((((s.onLayer c (2 * l + b2n b) (fun y => { y with
      predRun := true })).bumpCtx c .stringsRun n1).bumpCtx c .placeWaits n2).bumpCtx c .mmaSteps n3).bumpCtx c .sfnPasses 0).freed) ∧
  (∀ (c l : Nat) (b : Bool) (m : Manifest) (s : State), c < s.ctxs.length → (s.ctx c).steps.man = some m →
    ((s.ctx c).layer (2 * l + b2n b)).predRun = true →
    ∃ t : State, exec (.predictorComplete c l b) s = .next t ∧ ((t.ctx c).layer (2 * l + b2n b)).predRun = false ∧
      ((t.ctx c).layer (2 * l + b2n b)).predDone = true ∧ t.mem = s.mem ∧ t.seqs = s.seqs) ∧
  (∀ (c l : Nat) (b : Bool) (s : State), ((s.ctx c).layer (2 * l + b2n b)).predRun = false →
    exec (.predictorComplete c l b) s = .next s) ∧
  (∀ (c l : Nat) (b : Bool) (slot : Nat) (m : Manifest) (q qw : List Nat) (nan : Bool) (ent : Entry) (s : State),
    let k := 2 * l + b2n b
    let cfg := ((s.ctx c).boundRoute.layer l).cfg
    c < s.ctxs.length → (s.ctx c).steps.man = some m → ((s.ctx c).layer k).scores.find slot = some (q, qw, nan) →
    m.entryOf slot = some ent → ent.skipped = false → slot ∉ ((s.ctx c).layer k).selected →
    (m.fixed = true → ∀ n, (m.slots b).1 ≤ n → n < slot → n ∈ ((s.ctx c).layer k).selected) → 1 ≤ cfgKmax cfg →
    ∃ (t : State) (bs : List Bill), exec (.tokenSelect c l b slot) s = .next t ∧ t.mem = s.mem ∧ t.seqs = s.seqs ∧
      ((t.ctx c).layer k).selected = ((s.ctx c).layer k).selected ++ [slot] ∧
      ((t.ctx c).layer k).raw = ((s.ctx c).layer k).raw ++ bs ∧ bs.length ≤ cfgKmax cfg ∧
      bs.map (·.rank) = List.range bs.length ∧
      (∀ w ∈ bs, w.slot = slot ∧ w.layer = l ∧ w.epoch = m.epoch ∧ w.ctx = c ∧ w.src = s.board.pkgId ∧ w.seq = ent.seq ∧
        w.gen = m.gen b ∧ w.expert < cfgCols cfg ∧ (cfgNull cfg = true → w.expert ≠ cfgCols cfg - 1) ∧ 0 < q.getD w.expert 0 ∧
        ∀ e < cfgCols cfg, (∀ v ∈ bs, v.expert ≠ e) → q.getD e 0 ≤ q.getD w.expert 0) ∧
      (∀ i j, i < j → j < bs.length → (bs.map (·.expert)).getD i 0 ≠ (bs.map (·.expert)).getD j 0 ∧
        q.getD ((bs.map (·.expert)).getD j 0) 0 ≤ q.getD ((bs.map (·.expert)).getD i 0) 0)) ∧
  (∀ (c l : Nat) (b : Bool) (slot : Nat) (s : State), slot ∈ ((s.ctx c).layer (2 * l + b2n b)).selected →
    exec (.tokenSelect c l b slot) s = .next s) ∧
  (∀ (c l : Nat) (b : Bool) (slot n : Nat) (m : Manifest) (s : State), (s.ctx c).steps.man = some m → m.fixed = true →
    (m.slots b).1 ≤ n → n < (m.slots b).2 → n < slot → n ∉ ((s.ctx c).layer (2 * l + b2n b)).selected → (s.ctx c).gone n = false →
    exec (.tokenSelect c l b slot) s = .next s) ∧
  (∀ (q : List Nat) (cfg t null : Nat) (order : List Nat), (∀ e ∈ order, e ≠ null ∧ 0 < q.getD e 0) →
    cfgKmin cfg = cfgKmax cfg → 1 ≤ cfgKmax cfg →
    (pickLoop q cfg t null order 0 0).1 = order.take (cfgKmax cfg))

/-- R99: over any run of s_tot consecutive picks, replica i receives exactly `SHARE`(i) of them. -/
def Obligations.RoundRobinExact : Prop :=
  ∀ (share : List Nat) (n i : Nat), 0 < sumN share → i < share.length →
    countP (fun k => (pickOne share (startRobin share k)).2 == i) ((List.range (sumN share)).map (· + n)) = share.getD i 0

/-- R96, R99 to R103, R107, R108, R114, R115, R120, R121, R168: from waybills to injected sub-convoys. -/
def Obligations.Dispatch : Prop :=
  (∀ (c l : Nat) (b : Bool) (w : Bill) (r : List Bill) (m : Manifest) (s : State),
    let k := 2 * l + b2n b
    let y := (s.ctx c).layer k
    let e := (s.ctx c).boundRoute.expert l w.expert
    c < s.ctxs.length → (s.ctx c).steps.man = some m → y.raw = w :: r → y.sealing = true →
    (e.avail = false → w.rank < 16 → (y.slot w.slot).causes.length = 16 →
      ∃ t : State, exec (.routeSeal c l b) s = .next t ∧ t.mem = s.mem ∧ ((t.ctx c).layer k).raw = r ∧
        ((t.ctx c).layer k).kept = y.kept ∧ (((t.ctx c).layer k).slot w.slot).dropMask = (y.slot w.slot).dropMask ||| 2 ^ w.rank ∧
        (((t.ctx c).layer k).slot w.slot).causes.getD w.rank 0 = 2 ∧ (((t.ctx c).layer k).slot w.slot).degraded = true) ∧
    (∀ rep i, e.avail = true → (s.ctx c).boundRoute.actives l w.expert = [(i, rep)] → y.reserved = false → e.cause ≠ 3 →
      ∃ t : State, exec (.routeSeal c l b) s = .next t ∧ t.mem = s.mem ∧ ((t.ctx c).layer k).raw = r ∧
        ((t.ctx c).layer k).kept = y.kept ++ [{ w with
          dst := rep.pkg, replica := i, flags := w.flags ||| (if rep.pkg = s.board.pkgId then 32 else 0) }] ∧
        (((t.ctx c).layer k).slot w.slot).kept = (y.slot w.slot).kept + 1) ∧
    (∀ rep i, e.avail = true → (s.ctx c).boundRoute.actives l w.expert = [(i, rep)] → y.reserved = true →
      y.caps.getD (capKey w.expert i) 0 ≤ y.keptBy.getD (capKey w.expert i) 0 → w.rank < 16 →
      (y.slot w.slot).causes.length = 16 →
      ∃ t : State, exec (.routeSeal c l b) s = .next t ∧ t.mem = s.mem ∧ ((t.ctx c).layer k).raw = r ∧
        ((t.ctx c).layer k).kept = y.kept ∧ (((t.ctx c).layer k).slot w.slot).causes.getD w.rank 0 = 1)) ∧
  (∀ (c l : Nat) (b : Bool) (s : State), ((s.ctx c).layer (2 * l + b2n b)).raw = [] → exec (.routeSeal c l b) s = .next s) ∧
  (∀ (c l n : Nat) (b : Bool) (s : State),
    let y := (s.ctx c).layer (2 * l + b2n b)
    c < s.ctxs.length → y.stallFrom = some n → y.stalled ≠ [] →
    (s.now ≤ n + (s.ctx c).resid.stallMs * 1000000 → exec (.stallLimitExpiry c l b) s = .next s) ∧
    (n + (s.ctx c).resid.stallMs * 1000000 < s.now → ∃ t : State, exec (.stallLimitExpiry c l b) s = .next t ∧ t.mem = s.mem ∧
      ((t.ctx c).layer (2 * l + b2n b)).stalled = [])) ∧
  (∀ (c l : Nat) (b : Bool) (m : Manifest) (md : Model) (s : State),
    let k := 2 * l + b2n b
    let y := (s.ctx c).layer k
    c < s.ctxs.length → (s.ctx c).steps.man = some m → (s.ctx c).model = some md → l < md.moe → (m.slots b).1 < (m.slots b).2 →
    y.gated = true → (s.ctx c).selectionDone k b = true → y.raw = [] → y.sorted = false → y.stalled = [] →
    s.setBefore y.due (fun z => !z.sorted) = false →
    ∃ t : State, exec (.sort c l b) s = .next t ∧ t.mem = s.mem ∧
      let z := (t.ctx c).layer k
      z.sorted = true ∧ z.kept.length = y.kept.length ∧ z.kept.map (·.ret) = List.range y.kept.length ∧
      (∀ i j, i ≤ j → j < z.kept.length → ((z.kept.map Bill.group).getD i 0) ≤ ((z.kept.map Bill.group).getD j 0)) ∧
      (∀ w ∈ y.kept, ∃ v ∈ z.kept, v = { w with ret := v.ret }) ∧
      (∀ u ∈ z.subs, u.bills.length ≤ Nat.max 1 (s.allow c u.dst (s.ctx c).boundRoute l) ∧ u.sealed_ = false ∧ u.injected = false ∧
        (u.released = true ↔ u.index = 0) ∧ ∀ w ∈ u.bills, w.dst = u.dst ∧ w ∈ z.kept) ∧
      (∀ w ∈ z.kept, ∃ u ∈ z.subs, w ∈ u.bills)) ∧
  (∀ (c l : Nat) (b : Bool) (s : State), ((s.ctx c).layer (2 * l + b2n b)).sorted = true → exec (.sort c l b) s = .next s) ∧
  (∀ (c l d k n : Nat) (b : Bool) (z : Layer) (s : State), let y := (s.ctx c).layer (2 * l + b2n b)
    y.stalled = [] → y.due = some n → d < 16 → (k, z) ∈ (s.ctx d).layers → z.sorted = false →
    (∃ j < n, z.due = some j) → exec (.sort c l b) s = .next s) ∧
  (∀ (c l dst i : Nat) (b : Bool) (m : Manifest) (u : Sub) (s : State),
    let k := 2 * l + b2n b
    let y := (s.ctx c).layer k
    c < s.ctxs.length → (s.ctx c).steps.man = some m → y.sub dst i = some u →
    (u.sealed_ = true → exec (.finalSeal c l b dst i) s = .next s) ∧
    (u.sealed_ = false → (∃ z ∈ (s.ctx c).lands, (s.ctx c).live z = true ∧ z.layer = l ∧ z.convoyB = b) →
      (y.landWait = true ∨ (∃ v ∈ y.subs, v.sealed_ = true) ∨ s.setBefore y.due (fun z =>
        z.sorted && !z.landWait && !z.subs.isEmpty && !z.subs.any (fun u => u.sealed_)) = false) →
      exec (.finalSeal c l b dst i) s = .next (s.onSub c k dst i (fun u => { u with
        sealed_ := true, bills := u.bills.map (fun w => Bill.seal { w with flags := w.flags ||| (if i = 0 then 0 else 128) }) }))) ∧
    (u.ready = true → (s.ctx c).earlierReady k = false → (∀ v ∈ y.subs, v.ready = true →
        (dst + 127 - s.board.pkgId) % 128 ≤ (v.dst + 127 - s.board.pkgId) % 128) →
      ∃ t : State, exec (.subconvoyInject c l b dst i) s = .next t ∧ t.mem = s.mem ∧ (∃ x h, ((t.ctx c).layer k).sub dst i = some x ∧
        x.injected = true ∧ x.deadline = (if x.waits = [] then 0 else s.now + m.returnUs * 1000) ∧
        x.waits = (u.bills.filter (fun w => w.gen == (y.slot w.slot).gen)).map (·.ret) ∧ noteCrcOk h = true ∧
        bits h 0 16 = m.epoch % 2 ^ 16 ∧ (∃ es bs, Out.msg dst 0x01 c (h :: es) bs ∈ t.out) ∧
        ∀ w ∈ u.bills, w.gen = (y.slot w.slot).gen →
          Out.msg dst 0x02 c [w.pack] (toLE 32 w.pack ++ y.convRows.getD w.slot []) ∈ t.out)) ∧
    (u.ready = false → exec (.subconvoyInject c l b dst i) s = .next s) ∧
    (∀ v ∈ y.subs, v.ready = true → (v.dst + 127 - s.board.pkgId) % 128 < (dst + 127 - s.board.pkgId) % 128 →
      exec (.subconvoyInject c l b dst i) s = .next s) ∧
    (∀ p, 0 < i → y.sub dst (i - 1) = some p → u.released = false → p.injected = true → p.waits = [] →
      exec (.subconvoyRelease c l b dst i) s = .next ((s.onSub c k dst i (fun u => { u with released := true, releasedAt := s.now })).onLayer
        c k (fun y => { y with
          softCredits := y.softCredits.setD 0 dst (y.softCredits.getD dst 0 - u.bills.length)
          hardCredits := y.hardCredits.setD 0 dst (y.hardCredits.getD dst 0 + u.bills.length) }))) ∧
    (∀ p, y.sub dst (i - 1) = some p → p.waits ≠ [] → exec (.subconvoyRelease c l b dst i) s = .next s))

/-- R83, R114: a sealed waybill carries its CRC, whatever its fields; so does a note (Table 5-4). -/
def Obligations.SealedWaybills : Prop :=
  (∀ b : Bill, billCrcOk (Bill.seal b).pack = true ∧
    Bill.read (Bill.seal b).pack = { b with
      crc := (Bill.seal b).crc, ret := b.ret % 2 ^ 32, rowAddr := b.rowAddr % 2 ^ 52, replica := b.replica % 2 ^ 4
      dst := b.dst % 2 ^ 7, flags := b.flags % 2 ^ 8, weight := b.weight % 2 ^ 16, rank := b.rank % 2 ^ 4
      expert := b.expert % 2 ^ 16, layer := b.layer % 2 ^ 9, seq := b.seq % 2 ^ 17, slot := b.slot % 2 ^ 18
      src := b.src % 2 ^ 7, ctx := b.ctx % 2 ^ 4, gen := b.gen % 2 ^ 8, epoch := b.epoch % 2 ^ 16 }) ∧
  (∀ (epoch ctx src layer : Nat) (b r l f : Bool) (sub rows n fmt gen : Nat),
    noteCrcOk (noteHeader epoch ctx src layer b r l f sub rows n fmt gen) = true)

/-- R106, R116, R117, R122, R126, R150, R151: notes and rows that arrive, batches, answers of the dies, and notes retired. -/
def Obligations.Reception : Prop :=
  (∀ (src w c epoch : Nat) (es : List Nat) (bs : List Byte) (x : HeldRx) (s : State), s.booted = true → x ∈ s.fab.heldRx →
    x.src = src →
    let held (y : HeldRx) : State := { s with fab := { s.fab with heldRx := s.fab.heldRx ++ [y] } }
    exec (.noteReceive src w es) s = .next (held ⟨src, 1, w, es, []⟩) ∧
    exec (.rowReceive src w bs) s = .next (held ⟨src, 0, w, [], bs⟩) ∧
    exec (.retireNoticeReceive src c epoch) s = .next (held ⟨src, 2, epoch, [c], []⟩)) ∧
  (∀ (die bill src w : Nat) (row : List Nat) (bs : List Byte) (u s : State), let b := Bill.read bill
    s.boot.diesUp.getD die false = true → s.fab.heldRx = [⟨src, 0, w, [], bs⟩] →
    (s.onCtx b.ctx (fun x => { x with rx := x.rx.answered bill })).rowNow src w bs = some u → u.fab.heldRx = s.fab.heldRx →
    ∃ t : State, exec (.answerFromDie die false bill none row) s = .next t ∧ t.fab.heldRx = [] ∧ t.ctxs = u.ctxs) ∧
  (∀ (src h : Nat) (es : List Nat) (s : State), s.booted = true → s.fab.heldRx = [] → noteCrcOk h = false →
    ∃ t : State, exec (.noteReceive src h es) s = .next t ∧ src ∈ t.fab.noNote ∧ t.mem = s.mem ∧
      ∀ c, (t.ctx c).rx = (s.ctx c).rx) ∧
  (∀ (src h : Nat) (es : List Nat) (s : State),
    let c := bits h 16 4
    c < s.ctxs.length → s.booted = true → s.fab.heldRx = [] → noteCrcOk h = true → (s.ctx c).st = .active → 0 < bits h 64 18 →
    ∃ (t : State) (n : RxNote), exec (.noteReceive src h es) s = .next t ∧ t.mem = s.mem ∧ src ∉ t.fab.noNote ∧
      n ∈ (t.ctx c).rx.notes ∧ n.id = (s.ctx c).rx.nextNote ∧ (t.ctx c).rx.nextNote = (s.ctx c).rx.nextNote + 1 ∧ n.src = src ∧
      n.epoch = bits h 0 16 ∧ n.layer = bits h 27 9 ∧ n.convoyB = h.testBit 36 ∧ n.rows = bits h 64 18 ∧ n.arrived = s.now ∧
      n.got = 0 ∧ n.expired = false ∧ (src, bits h 0 16) ∉ (t.ctx c).rx.retired ∧
      n.entries = es.map (fun w => (bits w 0 16, bits w 16 4, bits w 20 18, bits w 38 18, 0))) ∧
  (∀ (src h : Nat) (es : List Nat) (s : State), s.booted = true → s.fab.heldRx = [] → noteCrcOk h = true →
    (s.ctx (bits h 16 4)).st ≠ .active →
    exec (.noteReceive src h es) s = .next { s with fab := { s.fab with noNote := s.fab.noNote.filter (fun p => p != src) } }) ∧
  (∀ (src bill : Nat) (bs : List Byte) (s : State),
    let b := Bill.read bill
    s.booted = true → s.fab.heldRx = [] →
    (src ∈ s.fab.noNote → exec (.rowReceive src bill bs) s = .next s) ∧
    (src ∉ s.fab.noNote → billCrcOk bill = true → b.dst ≠ s.board.pkgId →
      exec (.rowReceive src bill bs) s = .next ((s.bumpCtx (s.rxCtx b.ctx) .rxMisrouted 1).raise (0xA00 + src) 0x14 0
        (s.rxCtx b.ctx) 3 src)) ∧
    (src ∉ s.fab.noNote → billCrcOk bill = true → b.dst = s.board.pkgId → (b.src, b.epoch) ∈ (s.ctx b.ctx).rx.retired →
      exec (.rowReceive src bill bs) s = .next (s.bumpCtx (s.rxCtx b.ctx) .rxRetired 1)) ∧
    (src ∉ s.fab.noNote → billCrcOk bill = true → b.dst = s.board.pkgId → (b.src, b.epoch) ∉ (s.ctx b.ctx).rx.retired →
      (∀ n, (s.ctx b.ctx).rx.noteFor src b = some n → n.expired = false) →
      (∀ code, s.refuse b.ctx b.layer b.expert b.replica = some code → (s.ctx b.ctx).rx.noteFor src b = none →
        exec (.rowReceive src bill bs) s = .next ((s.bumpCtx (s.rxCtx b.ctx) .rxRefused 1).sendRefusal bill code)) ∧
      (∀ code n, s.refuse b.ctx b.layer b.expert b.replica = some code → (s.ctx b.ctx).rx.noteFor src b = some n →
        ∃ t : State, exec (.rowReceive src bill bs) s = .next t ∧ t.mem = s.mem ∧
          (t.ctx b.ctx).rx.notes = ((s.ctx b.ctx).rx.notes.map (fun x => if x.id = n.id then x.take b.expert b.replica else x)).filter
            (fun x => decide (x.got < x.rows)) ∧
          ∃ x r, Out.msg b.src 0x05 b.ctx [bill, x] r ∈ t.out ∧ bits x 0 8 = code % 2 ^ 8) ∧
      (s.refuse b.ctx b.layer b.expert b.replica = none → (s.ctx b.ctx).share.rxMib * mib < (s.ctx b.ctx).rx.used + bs.length + 32 →
        exec (.rowReceive src bill bs) s = .next { s with fab := { s.fab with heldRx := [⟨src, 0, bill, [], bs⟩] } }) ∧
      (s.refuse b.ctx b.layer b.expert b.replica = none → b.ctx < s.ctxs.length →
        (s.ctx b.ctx).rx.used + bs.length + 32 ≤ (s.ctx b.ctx).share.rxMib * mib →
        ∃ (t : State) (z : Batch) (x : RxRow), exec (.rowReceive src bill bs) s = .next t ∧ t.mem = s.mem ∧
          z ∈ (t.ctx b.ctx).rx.batches ∧ z.layer = b.layer ∧ z.expert = b.expert ∧ z.replica = b.replica ∧ x ∈ z.rows ∧
          x.bill = bill ∧ x.src = src ∧ x.data = bs)) ∧
    (src ∉ s.fab.noNote → billCrcOk bill = false →
      ∃ t : State, exec (.rowReceive src bill bs) s = .next t ∧ t.mem = s.mem ∧
        (s.nextRow src = none → ∀ c, (t.ctx c).rx = (s.ctx c).rx) ∧
        (∀ c n e i, s.nextRow src = some (c, n, e, i) → (∀ d, d ≠ c → (t.ctx d).rx = (s.ctx d).rx) ∧
          (t.ctx c).rx.notes = ((s.ctx c).rx.notes.map (fun x => if x.id = n.id then x.take e i else x)).filter
            (fun x => decide (x.got < x.rows))))) ∧
  (∀ (c l e i : Nat) (s : State), c < s.ctxs.length →
    (∃ b ∈ (s.ctx c).rx.batches, b.key l e i = true ∧ b.closed = false ∧ b.opened + (s.ctx c).batchWindow l ≤ s.now) →
    ∃ t : State, exec (.batchWindowExpiry c l e i) s = .next t ∧ t.mem = s.mem ∧
      ∀ b ∈ (t.ctx c).rx.batches, b.key l e i = true → b.closed = true) ∧
  (∀ (c l e i : Nat) (s : State),
    (∀ b ∈ (s.ctx c).rx.batches, b.key l e i = true → b.closed = false → s.now < b.opened + (s.ctx c).batchWindow l) →
    exec (.batchWindowExpiry c l e i) s = .next s) ∧
  (∀ (die bill : Nat) (row : List Nat) (s : State), let b := Bill.read bill
    s.boot.diesUp.getD die false = true → b.ctx < s.ctxs.length →
    (∃ t : State, exec (.answerFromDie die false bill none row) s = .next t ∧
      (s.fab.heldRx = [] → t.mem = s.mem ∧ (t.ctx b.ctx).rx = (s.ctx b.ctx).rx.answered bill) ∧
      Out.msg b.src 0x04 b.ctx [bill] (toLE 32 bill ++ (row.map (toLE 2)).flatten) ∈ t.out) ∧
    (∀ code, ∃ t : State, exec (.answerFromDie die false bill (some code) row) s = .next t ∧
      (s.fab.heldRx = [] → t.mem = s.mem ∧ (t.ctx b.ctx).rx = (s.ctx b.ctx).rx.answered bill) ∧ ∃ x bs, Out.msg b.src 0x05 b.ctx [bill, x] bs ∈ t.out ∧ bits x 0 8 = code % 2 ^ 8)) ∧
  (∀ (die bill : Nat) (row : List Nat) (r : Option Nat) (s : State), exec (.answerFromDie die true bill r row) s = .next s) ∧
  (∀ (src c epoch : Nat) (s : State), c < s.ctxs.length → s.fab.heldRx = [] → (s.ctx c).st = .active →
    ∃ t : State, exec (.retireNoticeReceive src c epoch) s = .next t ∧ t.mem = s.mem ∧ (src, epoch) ∈ (t.ctx c).rx.retired ∧
      (∀ n ∈ (t.ctx c).rx.notes, ¬ (n.src = src ∧ n.epoch = epoch)) ∧
      (∀ b ∈ (t.ctx c).rx.batches, b.handed = false → ∀ x ∈ b.rows, x.of src epoch = false)) ∧
  (∀ (src c epoch : Nat) (s : State), s.fab.heldRx = [] → (s.ctx c).st ≠ .active → exec (.retireNoticeReceive src c epoch) s = .next s) ∧
  (∀ (c : Nat) (n : RxNote) (s : State), c < s.ctxs.length → (s.ctx c).rx.notes.find? (fun y => y.id == n.id) = some n → n.expired = false →
    (s.now ≤ n.arrived + (s.ctx c).returnUs * 1000 → exec (.incompleteNoteTimeout c n.id) s = .next s) ∧
    (n.arrived + (s.ctx c).returnUs * 1000 < s.now → ∃ t : State, exec (.incompleteNoteTimeout c n.id) s = .next t ∧
      (s.fab.heldRx = [] → t.mem = s.mem ∧ { n with expired := true } ∈ (t.ctx c).rx.notes ∧
      ∀ b ∈ (t.ctx c).rx.batches, b.handed = false → ∀ x ∈ b.rows, x.note ≠ n.id)))

/-- R125 to R134, R137, R140, R142, R144, R145: answers and refusals, late sub-convoys, bays, and rows handed back. -/
def Obligations.Returns : Prop :=
  (∀ (src bill : Nat) (row : List Nat) (s : State),
    let b := Bill.read bill
    let c := s.rxCtx b.ctx
    (billCrcOk bill = true → b.src ≠ s.board.pkgId →
      exec (.answerReceive src bill row) s = .next ((s.raise (0xA00 + src) 0x16 0 0 3 src).bumpCtx c .retMisdirected 1) ∧
      exec (.refusalReceive src bill) s = .next ((s.raise (0xA00 + src) 0x16 0 0 3 src).bumpCtx c .retMisdirected 1)) ∧
    (billCrcOk bill = true → b.src = s.board.pkgId → (∀ z ∈ (s.ctx b.ctx).lands, z.matches b = false) →
      exec (.answerReceive src bill row) s = .next (s.bumpCtx c .retUnmatched 1) ∧
      exec (.refusalReceive src bill) s = .next (s.bumpCtx c .retUnmatched 1)) ∧
    (∀ z e, billCrcOk bill = true → b.src = s.board.pkgId → (s.ctx b.ctx).lands = [z] → z.quarantined = false → z.matches b = true →
      (s.ctx b.ctx).live z = true → (s.ctx b.ctx).slotGen z b.slot = b.gen → z.entries[b.ret]? = some e →
      (∀ o ∈ (s.ctx b.ctx).outstanding z, s.now ≤ o.deadline) →
      ((e.slot ≠ b.slot ∨ e.rank ≠ b.rank) → exec (.answerReceive src bill row) s = .next
        ((s.raise 0x805 0x17 0 b.ctx 2 (workDetail b.epoch b.seq b.slot)).bumpCtx b.ctx .retMismatch 1)) ∧
      (e.slot = b.slot → e.rank = b.rank → e.st = 3 → exec (.answerReceive src bill row) s = .next (s.bumpCtx b.ctx .lateReturns 1)) ∧
      (e.slot = b.slot → e.rank = b.rank → e.st = 1 → exec (.answerReceive src bill row) s = .next (s.bumpCtx b.ctx .dupReturns 1)) ∧
      (e.slot = b.slot → e.rank = b.rank → e.st = 0 → b.ctx < s.ctxs.length →
        let k := 2 * z.layer + b2n z.convoyB
        let y := (s.ctx b.ctx).layer k
        (∃ t : State, exec (.refusalReceive src bill) s = .next t ∧ t.mem = s.mem ∧
          (∃ x, (t.ctx b.ctx).lands = [x] ∧ (x.entries[b.ret]?).map (·.st) = some 2) ∧
          (((t.ctx b.ctx).layer k).slot b.slot).dropMask = (y.slot b.slot).dropMask ||| 2 ^ b.rank ∧
          (((t.ctx b.ctx).layer k).slot b.slot).done = (y.slot b.slot).done + 1) ∧
        ((s.ctx b.ctx).man.fixed = false → (y.slot b.slot).dropMask = 0 →
          (y.group (groupOf (rowBytes (s.ctx b.ctx).share.dModel) ((s.ctx b.ctx).convoy z.convoyB).1 b.slot)).spilled = true →
          ∃ t : State, exec (.answerReceive src bill row) s = .next t ∧ t.mem = s.mem ∧
            (∃ x, (t.ctx b.ctx).lands = [x] ∧ (x.entries[b.ret]?).map (·.st) = some 1) ∧
            (((t.ctx b.ctx).layer k).slot b.slot).done = (y.slot b.slot).done + 1 ∧
            ∀ j < row.length, (((t.ctx b.ctx).layer k).slot b.slot).acc.getD j 0#32 =
              Num.fadd ((y.slot b.slot).acc.getD j 0#32) (Num.fmul (Num.widen (BitVec.ofNat 16 b.weight))
                (Num.widen (BitVec.ofNat 16 (row.getD j 0))))))) ∧
    (∀ z e, billCrcOk bill = true → b.src = s.board.pkgId → (s.ctx b.ctx).lands = [z] → z.quarantined = false → z.matches b = true →
      z.entries[b.ret]? = some e → e.st = 0 →
      ((∀ o ∈ (s.ctx b.ctx).outstanding z, s.now ≤ o.deadline) → (s.ctx b.ctx).slotGen z b.slot ≠ b.gen →
        ∃ t : State, exec (.answerReceive src bill row) s = .next t ∧ t.mem = s.mem ∧
          ∃ x, (t.ctx b.ctx).lands = [x] ∧ (x.entries[b.ret]?).map (·.st) = some 4) ∧
      (∀ o q, (s.ctx b.ctx).outstanding z = [o] → o.deadline < s.now → o.rows = [(b.ret, q)] →
        (s.ctx b.ctx).slotGen z b.slot = b.gen → e.slot = b.slot → e.rank = b.rank →
        ∃ t : State, exec (.answerReceive src bill row) s = .next t ∧ t.mem = s.mem ∧
          ∃ x, (t.ctx b.ctx).lands = [x] ∧ (x.entries[b.ret]?).map (·.st) = some 3))) ∧
  (∀ (c l g n : Nat) (b : Bool) (s : State), c < s.ctxs.length →
    let y := (s.ctx c).layer (2 * l + b2n b)
    (y.group g).waitFrom = some n →
    (s.holds c l b g = true → exec (.bayWaitSpill c l b g) s = .next (s.drainGroup c l b g)) ∧
    (s.holds c l b g = false → s.now < n + 1000 → exec (.bayWaitSpill c l b g) s = .next s) ∧
    (s.holds c l b g = false → n + 1000 ≤ s.now → s.waitingClaims = [(n, c, 2 * l + b2n b, g)] →
      ∃ t : State, exec (.bayWaitSpill c l b g) s = .next t ∧ t.mem = s.mem ∧
      (((t.ctx c).layer (2 * l + b2n b)).group g).spilled = true ∧ (((t.ctx c).layer (2 * l + b2n b)).group g).waitFrom = none ∧
      ((t.ctx c).layer (2 * l + b2n b)).queue = y.queue.filter (fun q =>
        groupOf (rowBytes (s.ctx c).share.dModel) ((s.ctx c).convoy b).1 q.1.slot != g))) ∧
  (∀ (c l slot die : Nat) (b : Bool) (x : List Nat) (m : Manifest) (s : State),
    let k := 2 * l + b2n b
    let y := (s.ctx c).layer k
    let g := ((s.ctx c).boundRoute.layer l).comb
    c < s.ctxs.length → (s.ctx c).steps.man = some m → y.hidden.find slot = some (die, x) → ((s.ctx c).convoy b).1 ≤ slot →
    slot < ((s.ctx c).convoy b).2 →
    ((s.ctx c).slotComplete k slot = false → exec (.fusedPass c l b slot) s = .next s) ∧
    ((s.ctx c).slotComplete k slot = true → (y.slot slot).handed = false → combFused g = false → (y.slot slot).empty = false →
      (s.ctx c).gone slot = false →
      ∃ t : State, exec (.fusedPass c l b slot) s = .next t ∧ t.mem = s.mem ∧ (((t.ctx c).layer k).slot slot).handed = true ∧
        Out.ucie die 0x3 c m.epoch l b slot false
          ((((y.slot slot).final m.fixed ((s.ctx c).cfgOf l) (s.ctx c).share.dModel).map (fun v =>
            toLE (outBytes (combOut g)) (outVal (combOut g) v))).flatten) ∈ t.out) ∧
    ((s.ctx c).slotComplete k slot = true → (y.slot slot).handed = false → combFused g = true → y.resid.find slot = none →
      exec (.fusedPass c l b slot) s = .next s) ∧
    ((s.ctx c).slotComplete k slot = true → (y.slot slot).handed = false → combFused g = true → (y.resid.find slot).isSome = true →
      ∃ (t : State) (bs : List Byte), exec (.fusedPass c l b slot) s = .next t ∧
        (∀ a, (∀ i < (s.ctx c).share.dModel * (if combResid g = 0 then 4 else 2), (s.ctx c).residAt c l slot i ≠ some a) →
          t.byteAt a = s.byteAt a) ∧
        (((t.ctx c).layer k).slot slot).handed = true ∧ bs.length = (s.ctx c).share.dModel * (if combOut g = 0 then 4 else 2) ∧
        Out.ucie die 0x3 c m.epoch l b slot false bs ∈ t.out)) ∧
  (∀ (c l dst i j : Nat) (b : Bool) (m : Manifest) (u : Sub) (z : LandBuf) (e : Landing) (s : State),
    let k := 2 * l + b2n b
    let y := (s.ctx c).layer k
    c < s.ctxs.length → (s.ctx c).steps.man = some m → y.sub dst i = some u → (s.ctx c).lands = [z] → (s.ctx c).live z = true →
    z.layer = l → z.convoyB = b → z.quarantined = false → u.injected = true →
    (∀ v ∈ y.subs, v.dst = dst → v.index = i → v = u) →
    (s.now ≤ u.deadline → exec (.returnTimeoutExpiry c l b dst i) s = .next s) ∧
    (u.deadline < s.now → u.deadline ≠ 0 → (∃ w ∈ u.bills, w.ret = j) → z.entries[j]? = some e → e.st = 0 →
      (∀ w ∈ u.bills, w.ret ≠ j → ∀ f, z.entries[w.ret]? = some f → f.st ≠ 0) →
      ∃ t : State, exec (.returnTimeoutExpiry c l b dst i) s = .next t ∧ t.mem = s.mem ∧
        (∃ x, (t.ctx c).lands = [x] ∧ (x.entries[j]?).map (·.st) = some 3) ∧
        (((t.ctx c).layer k).slot e.slot).dropMask =
          (if (y.slot e.slot).emptied then (y.slot e.slot).dropMask else (y.slot e.slot).dropMask ||| 2 ^ e.rank))) ∧
  (∀ (c : Nat) (z : LandBuf) (n : Nat) (s : State), (s.ctx c).lands = [z] → z.from_ = some n →
    (n + z.returnUs * 1000 < s.now →
      (z.quarantined = false → (∃ t : State, exec (.landingBufferFree c z.epoch z.layer z.convoyB) s = .next t ∧ (t.ctx c).lands = [] ∧
          t.mem = s.mem) ∧
        ((∀ o ∈ (s.ctx c).outstanding z, s.now ≤ o.deadline) →
          exec (.landingBufferFree c z.epoch z.layer z.convoyB) s = .next (s.dropLand c z))) ∧
      (z.quarantined = true → exec (.quarantineExpiry c z.epoch z.layer z.convoyB) s =
        .next ((s.dropLand c z).bumpCtx c .quarantineExpiries 1))) ∧
    (s.now ≤ n + z.returnUs * 1000 →
      exec (.landingBufferFree c z.epoch z.layer z.convoyB) s = .next s ∧
      exec (.quarantineExpiry c z.epoch z.layer z.convoyB) s = .next s)) ∧
  (∀ (c : Nat) (z : LandBuf) (s : State), c < s.ctxs.length → (s.ctx c).lands = [z] →
    ((s.dropLand c z).ctx c).lands = [] ∧ (s.dropLand c z).mem = s.mem)

/-! ### Expert residency and memory messages -/

/-- R148, R151 to R155, R166, R167, R169: requests at a die's arbiter, fetches that start, wait, read chunks and complete, and the
eviction of a frame by age. -/
def Obligations.Fetches : Prop :=
  (∀ (c l e i p die d : Nat) (s : State),
    let o := s.imgOwner c
    let r := (s.ctx o).resid
    let running := countP (fun (f : Fetch) => f.prio == 4 && f.die == d && f.started) r.fetches
    (s.ctx c).st = .active → 1 ≤ p → p ≤ 6 → p ≠ 2 → r.frame l e i = none → (p = 3 ∨ 5 ≤ p → d = die % 4) →
    (p ≠ 3 → p < 5 → s.replicaDie c l e i = some d) →
    (r.fetch l e i = none → (p ≠ 4 ∨ running < bits r.policy 88 16) →
      exec (.fetchRequest c l e i p die) s = .next (s.onCtx o (fun x => { x with resid := { x.resid with
        fetches := x.resid.fetches ++ [⟨l, e, i, d, p, s.now, false, false, 2, 0, 0, []⟩] } }))) ∧
    (r.fetch l e i = none → p = 4 → bits r.policy 88 16 ≤ running →
      exec (.fetchRequest c l e i p die) s = .next (s.bumpCtx o .prefetchShed 1))) ∧
  (∀ (c l e i die d : Nat) (s : State), c < s.ctxs.length → (s.ctx c).st = .active → s.imgOwner c = c →
    (∀ f ∈ (s.ctx c).resid.frames, f.layer = l → f.expert = e → f.replica = 0 → (s.ctx c).resid.frame l e 0 = some f) →
    (((s.ctx c).route.active.expert l e).replicas[0]?).map (fun r => (r.pkg, r.die)) = some (s.board.pkgId, d) →
    ∃ t : State, exec (.fetchRequest c l e i 2 die) s = .next t ∧ t.mem = s.mem ∧ (t.ctx c).resid.frame l e 0 = none ∧
      (t.ctx c).resid.fetch l e 0 = some ⟨l, e, 0, d, 2, s.now, false, false, 2, 0, 0, []⟩ ∧
      (t.ctx c).resid.sources.find (expKey l e) =
        ((s.ctx c).resid.sources.find (expKey l e)).map (fun q => { q with bad := false })) ∧
  (∀ (c l e i p die : Nat) (f : Frame) (s : State), (s.ctx c).st = .active → 1 ≤ p → p ≤ 6 → p ≠ 2 →
    (s.ctx (s.imgOwner c)).resid.frame l e i = some f →
    exec (.fetchRequest c l e i p die) s = .next (if f.st = 1 then s.bumpCtx (s.imgOwner c) .fetchMerged 1 else s)) ∧
  (∀ (c l e i p die : Nat) (s : State), ((s.ctx c).st ≠ .active ∨ p = 0 ∨ 6 < p) → exec (.fetchRequest c l e i p die) s = .next s) ∧
  (∀ (c l e i : Nat) (f : Fetch) (p : Nat × Nat) (ps : List (Nat × Nat)) (s : State),
    let o := s.imgOwner c
    let r := (s.ctx o).resid
    let n := s.frameGran o
    o < s.ctxs.length → r.fetches = [f] → f.layer = l → f.expert = e → f.replica = i → f.started = false → f.prio ≠ 6 →
    s.nextFetch o f.die = some (o, f) → (f.prio ≠ 4 ∨ 0 < bits r.policy 88 16) → s.copies o f = p :: ps →
    r.frame l e i = none → s.boot.diesUp.getD f.die false = true →
    (n ≤ (s.ctx o).granOn 0x6 f.die → n ≤ (((s.ctx o).pool (2 + f.die)).freeBlocks 4).length →
      ∃ (t : State) (g : Frame), exec (.fetchStart c l e i) s = .next t ∧ t.mem = s.mem ∧
        (t.ctx o).resid.fetches = [{ f with started := true, copy := p.1, source := p.2 }] ∧
        (t.ctx o).resid.frame l e i = some g ∧ g.st = 1 ∧ g.die = f.die ∧ g.granules.length = n ∧
        ∀ a ∈ g.granules, a ∈ ((s.ctx o).pool (2 + f.die)).freeBlocks 4) ∧
    ((s.ctx o).granOn 0x6 f.die < n → s.freed.victims o f.die = [] →
      ∃ t : State, exec (.fetchStart c l e i) s = .next t ∧ t.mem = s.mem ∧
        (t.ctx o).resid = { r with fetches := [{ f with waited := true }] })) ∧
  (∀ (c l e i : Nat) (f : Fetch) (s : State),
    let o := s.imgOwner c
    (s.ctx o).resid.fetch l e i = some f →
    (f.started = true ∨ s.nextFetch o f.die ≠ some (o, f) → exec (.fetchStart c l e i) s = .next s) ∧
    (f.started = false → s.nextFetch o f.die = some (o, f) → f.prio = 4 → bits (s.ctx o).resid.policy 88 16 ≤
        countP (fun (x : Fetch) => x.prio == 4 && x.die == f.die && x.started) (s.ctx o).resid.fetches →
      exec (.fetchStart c l e i) s = .next ((s.onCtx o (fun x => { x with resid := { x.resid with
        fetches := x.resid.fetches.filter (fun y => !(y.layer == l && y.expert == e && y.replica == i)) } })).bumpCtx o
          .prefetchShed 1))) ∧
  (∀ (c l e i : Nat) (f : Fetch) (q : Source) (g h : Frame) (s : State),
    let o := s.imgOwner c
    let a := g.granules.getD (f.chunk / 16) 0 + f.chunk % 16 * 4096
    let len := Nat.min 4096 (s.imageBytes o - 4096 * f.chunk)
    let part := if f.copy = 0 then s.bytesAt (h.granules.getD (f.chunk / 16) 0 + f.chunk % 16 * 4096) len
      else (q.image.drop (4096 * f.chunk)).take len
    o < s.ctxs.length → (s.ctx o).resid.fetches = [f] → f.layer = l → f.expert = e → f.replica = i → f.started = true →
    f.chunk < ceilDiv (s.imageBytes o) 4096 → (s.ctx o).resid.sources.find (expKey l e) = some q →
    (f.copy = 0 → (s.ctx o).resid.frame l e f.source = some h ∧ 2 ≤ h.st ∧ s.poison = []) →
    Num.crc32c part = q.crcs.getD f.chunk 0 → (s.ctx o).resid.frame l e i = some g →
    ∃ t : State, exec (.fetchChunkRead c l e i false) s = .next t ∧ t.bytesAt a part.length = part ∧
      (∀ b, b < a ∨ a + part.length ≤ b → t.byteAt b = s.byteAt b) ∧
      (t.ctx o).resid.fetches = [{ f with chunk := f.chunk + 1 }]) ∧
  (∀ (c l e i : Nat) (f : Fetch) (q : Source) (k : Nat × Nat) (bad : Bool) (s : State),
    let o := s.imgOwner c
    let len := Nat.min 4096 (s.imageBytes o - 4096 * f.chunk)
    o < s.ctxs.length → (s.ctx o).resid.fetches = [f] → f.layer = l → f.expert = e → f.replica = i → f.started = true →
    f.chunk < ceilDiv (s.imageBytes o) 4096 → f.copy = 2 → (s.ctx o).resid.sources.find (expKey l e) = some q →
    (bad = true ∨ Num.crc32c ((q.image.drop (4096 * f.chunk)).take len) ≠ q.crcs.getD f.chunk 0) →
    q.mirror = some k → ((s.ctx o).route.active.expert l e).mirrored = true →
    ∃ t : State, exec (.fetchChunkRead c l e i bad) s = .next t ∧ t.mem = s.mem ∧
      (t.ctx o).resid.fetches = [{ f with copy := 3, source := 0 }] ∧
      (t.ctx o).resid.sources.find (expKey l e) = some { q with bad := true } ∧
      ∃ m ∈ t.flt.arriving, m.kind = 0x21 ∧ m.source = 0x80A ∧ m.cls = 0) ∧
  (∀ (c l e i : Nat) (f : Fetch) (g : Frame) (s : State),
    let o := s.imgOwner c
    o < s.ctxs.length → (s.ctx o).resid.fetches = [f] → f.layer = l → f.expert = e → f.replica = i → f.started = true →
    ceilDiv (s.imageBytes o) 4096 ≤ f.chunk → (f.prio = 1 ∨ f.prio = 4) → f.copy ≠ 3 → (s.ctx o).resid.frames = [g] →
    g.layer = l → g.expert = e → g.replica = i → (∀ k ∈ s.users o, (s.ctx k).rx.batches = []) →
    exec (.fetchComplete c l e i) s = .next (s.onCtx o (fun x => { x with resid := { x.resid with
      fetches := [], frames := [{ g with st := 2, stamp := s.now, prefetched := f.prio == 4 }] } }))) ∧
  (∀ (c l e i : Nat) (f : Fetch) (s : State), (s.ctx (s.imgOwner c)).resid.fetch l e i = some f →
    (f.started = false ∨ f.chunk < ceilDiv (s.imageBytes (s.imgOwner c)) 4096) → exec (.fetchComplete c l e i) s = .next s) ∧
  (∀ (c age low l e : Nat) (f : Frame) (g : Option (Nat × Nat)) (s : State), c < 16 → c < s.ctxs.length →
    (s.ctx c).st = .active → s.allVictims c = [(age, low, .frame l e 0)] → (s.ctx c).resid.frames = [f] →
    (s.ctx c).resid.frame l e 0 = some f → s.frameEvictable c f = true →
    let want := (s.ctx c).kv.wanted.1 * (s.ctx c).colGran false + (s.ctx c).kv.wanted.2 * (s.ctx c).colGran true
    (s.ctx c).kv.covered < want → want ≤ (s.ctx c).kv.covered + f.granules.length →
    ∃ t : State, exec (.kvEviction c g) s = .next t ∧ (t.ctx c).kv.wanted = (0, 0) ∧ (t.ctx c).resid.frames = [] ∧
      t.mem = s.mem ∧ t.seqs = s.seqs ∧
      ctrGet (t.ctx c).ctr .evictFrames = Ctr.plus .evictFrames (ctrGet (s.ctx c).ctr .evictFrames) 1)

/-- R157 to R159, R161: heat, the leader's plan, replica entries, removals and their acknowledgements, and the drain. -/
def Obligations.Placement : Prop :=
  (∀ (c : Nat) (s : State),
    let r := (s.ctx c).resid
    ((s.ctx c).st ≠ .active ∨ s.now < r.lastPlan + r.planPeriod * 100000 ∨ (s.fw fwGuide).st ≠ .running →
      exec (.planPeriodExpiry c) s = .next s) ∧
    ((s.ctx c).st = .active → r.lastPlan + r.planPeriod * 100000 ≤ s.now → (s.fw fwGuide).st = .running → r.held = [] →
      (s.leader c = s.board.pkgId → bit r.policy 3 = true → exec (.planPeriodExpiry c) s =
        .next (s.onCtx c (fun x => { x with resid := { x.resid with lastPlan := s.now, planPolicy := x.resid.policy } }))) ∧
      (s.leader c ≠ s.board.pkgId → ∃ t : State, exec (.planPeriodExpiry c) s = .next t ∧ t.mem = s.mem ∧
        ∃ bs, Out.msg (s.leader c) 0x31 c ([0x1, s.packageLevel] ++ (r.heat.map (fun e => [e.1, e.2])).flatten) bs ∈ t.out))) ∧
  (∀ (src c level k v : Nat) (s : State), c < s.ctxs.length → (s.ctx c).st = .active → s.leader c = s.board.pkgId →
    (s.fw fwGuide).st = .running → k < 2 ^ 25 → v < 2 ^ 32 → bit (s.ctx (s.imgOwner c)).resid.planPolicy 3 = true →
    ∃ t : State, exec (.guideHeatReport src c level [(k, v)]) s = .next t ∧ t.mem = s.mem ∧
      (t.ctx c).resid.reports.getD (src * 2 ^ 25 + k) 0 = v ∧ t.fab.peerLevel.getD src 0 = level ∧
      (t.ctx c).route = (s.ctx c).route) ∧
  (∀ (src c level : Nat) (h : List (Nat × Nat)) (s : State),
    ((s.ctx c).st ≠ .active ∨ s.leader c ≠ s.board.pkgId ∨ (s.fw fwGuide).st ≠ .running) →
    exec (.guideHeatReport src c level h) s = .next s) ∧
  (∀ (c l e i pkg die share : Nat) (on : Bool) (s : State),
    let lead := s.leader c = s.board.pkgId
    let given := if lead ∧ bit (s.ctx c).resid.planPolicy 3 = false then s.shareOf (pkg % 128) else share % 256
    c < s.ctxs.length → (s.ctx c).st = .active → i ≠ 0 → i < 16 → s.imgOwner c = c → s.users c = [c] →
    (s.ctx c).route.other = .free → (s.ctx c).steps.man = none → (s.ctx c).steps.between = false → s.host.msgs = [] →
    ((s.ctx c).route.active.experts.find (expKey l e)).isSome = true →
    i = ((s.ctx c).route.active.expert l e).replicas.length →
    ∃ t : State, exec (.guideReplicaEntry c l e i pkg die share on) s = .next t ∧ t.mem = s.mem ∧
      ((t.ctx c).route.active.expert l e).replicas = ((s.ctx c).route.active.expert l e).replicas ++
        [⟨pkg % 128, die % 4, on, given⟩] ∧ (t.ctx c).route.gen = ((s.ctx c).route.gen + 1) % 2 ^ 32 ∧
      (lead → ∀ p ∈ (s.ctx c).resid.resident, p ≠ s.board.pkgId →
        ∃ bs, Out.msg p 0x31 c (entryFields l e i ⟨pkg % 128, die % 4, on, given⟩) bs ∈ t.out)) ∧
  (∀ (c l e i : Nat) (m : Manifest) (r : Replica) (s : State), c < s.ctxs.length → (s.ctx c).st = .active → i ≠ 0 →
    s.imgOwner c = c → s.users c = [c] →
    (s.ctx c).route.other = .free → (s.ctx c).steps.man = some m → ((s.ctx c).route.active.expert l e).replicas[i]? = some r →
    r.active = true → (s.ctx c).resid.toAck = [] → (s.ctx c).resid.removals = [] → (s.ctx c).resid.asked = [] →
    ∃ t : State, exec (.guideRemoval c l e i) s = .next t ∧ t.mem = s.mem ∧ (t.ctx c).resid.toAck = [(l, e, i)] ∧
      (t.ctx c).resid.removals = (if ((s.ctx c).resid.frame l e i).isSome then [⟨l, e, i, [], none⟩] else []) ∧
      (t.ctx c).route.other = .shadow ((s.ctx c).route.active.guide (.deactivate l e i)) ∧
      (t.ctx c).route.active = (s.ctx c).route.active ∧
      (s.leader c = s.board.pkgId → ∀ p ∈ (s.ctx c).resid.resident, p ≠ s.board.pkgId →
        ∃ bs, Out.msg p 0x31 c [0x4, l, e, i] bs ∈ t.out)) ∧
  (∀ (src c l e i : Nat) (x : Removal) (s : State),
    let o := s.imgOwner c
    (s.ctx o).resid.removals = [x] → x.layer = l → x.expert = e → x.replica = i → x.ackedAt = none → src ∉ x.acks →
    ∃ y : Removal, exec (.guideRemovalAck src c l e i) s = .next (s.onCtx o (fun z => { z with resid := { z.resid with
        removals := [y] } })) ∧ y.acks = x.acks ++ [src] ∧ y.layer = l ∧ y.expert = e ∧ y.replica = i ∧
      (y.ackedAt = some s.now ↔ ∀ p ∈ s.board.pkgId :: (s.ctx o).resid.resident, p ∈ x.acks ++ [src] ∨ p ∈ s.fab.departed)) ∧
  (∀ (c l e i n : Nat) (x : Removal) (s : State),
    let o := s.imgOwner c
    o < s.ctxs.length → (s.ctx o).resid.removals = [x] → x.layer = l → x.expert = e → x.replica = i → x.ackedAt = some n →
    (s.now ≤ n + (s.ctx o).returnUs * 1000 → exec (.replicaDrainTimeout c l e i) s = .next s) ∧
    (n + (s.ctx o).returnUs * 1000 < s.now → s.frameRows o l e i = true →
      exec (.replicaDrainTimeout c l e i) s = .next (s.onCtx o (fun z => { z with resid := { z.resid with
        frames := z.resid.frames.map (fun f => if f.layer = l ∧ f.expert = e ∧ f.replica = i then { f with st := 3 } else f) } }))) ∧
    (n + (s.ctx o).returnUs * 1000 < s.now → s.frameRows o l e i = false →
      ∃ t : State, exec (.replicaDrainTimeout c l e i) s = .next t ∧ t.mem = s.mem ∧ (t.ctx o).resid.removals = [] ∧
        ∀ f, (s.ctx o).resid.frames = [f] → (t.ctx o).resid.frame l e i = none))

/-- R106, R167 to R170, R183, R184, R234, R243, R332, R415: announcements of other packages, unreadable and reloaded experts,
a lost die, memory accesses of other packages, and a far-pool read that goes unanswered. -/
def Obligations.PeerEvents : Prop :=
  (∀ (src c a : Nat) (s : State), c < s.ctxs.length → ∃ t : State, exec (.guideRxAreaAnnounce src c a) s = .next t ∧ t.mem = s.mem ∧
    (t.ctx c).rx = { (s.ctx c).rx with areas := (s.ctx c).rx.areas.put src a } ∧ src ∈ (t.ctx c).resid.resident) ∧
  (∀ (src c : Nat) (s : State), c < s.ctxs.length → ∃ t : State, exec (.guideTeardownAnnounce src c) s = .next t ∧ t.mem = s.mem ∧
    src ∉ (t.ctx c).resid.resident ∧ (t.ctx c).rx = { (s.ctx c).rx with areas := (s.ctx c).rx.areas.del src }) ∧
  (∀ (c l e : Nat) (s : State), (s.ctx c).st ≠ .active →
    exec (.guideExpertUeReport c l e) s = .next s ∧ exec (.guideExpertReloaded c l e) s = .next s) ∧
  (∀ (c l e : Nat) (s : State), (s.ctx c).st = .active → s.imgOwner c < s.ctxs.length →
    (∃ t : State, exec (.guideExpertUeReport c l e) s = .next t ∧ t.mem = s.mem ∧
      expKey l e ∈ (t.ctx (s.imgOwner c)).resid.unread) ∧
    (∃ t : State, exec (.guideExpertReloaded c l e) s = .next t ∧ t.mem = s.mem ∧
      expKey l e ∉ (t.ctx (s.imgOwner c)).resid.unread)) ∧
  (∀ (port : Nat) (s : State), s.boot.diesUp.getD port false = false → exec (.ucieLinkDown port) s = .next s) ∧
  (∀ (port : Nat) (s : State), s.boot.diesUp.getD port false = true →
    ∃ t : State, exec (.ucieLinkDown port) s = .next t ∧ t.mem = s.mem ∧ t.boot.diesUp.getD port false = false ∧
      (∃ m ∈ t.flt.arriving, m.kind = 0x25 ∧ m.source = 0x720 + port ∧ m.cls = 0) ∧
      ∀ c < 16, (s.ctx c).st = .active → (∀ f ∈ (t.ctx c).resid.frames, f.die ≠ port)) ∧
  (∀ (src c a n v : Nat) (p f : Bool) (bs : List Byte) (s : State),
    let hit (k : Nat) : Bool := decide (a % 2 ^ 57 / 64 ≤ k ∧ k ≤ (a % 2 ^ 57 + n - 1) / 64)
    (s.booted = true → aPkg a = s.board.pkgId → s.exists_ a n = true →
      (s.poison.any hit = false →
        exec (.memReadReceive src c a n p) s = .next (s.sendMsg src 0x21 c [a, n, b2n p] (toLE 8 a ++ s.bytesAt (a % 2 ^ 57) n))) ∧
      (s.poison.any hit = true →
        exec (.memReadReceive src c a n p) s = .next ({ s with poison := s.poison.filter (fun k => !hit k) }.sendMsg src 0x21 c
          [a, n, 1] (toLE 8 a ++ s.bytesAt (a % 2 ^ 57) n)))) ∧
    (s.booted = true → aPkg a = s.board.pkgId → s.exists_ a bs.length = true →
      ∃ t : State, exec (.memWriteReceive a bs) s = .next t ∧ t = { s with mem := t.mem } ∧ t.bytesAt (a % 2 ^ 57) bs.length = bs ∧
        ∀ b, b < a % 2 ^ 57 ∨ a % 2 ^ 57 + bs.length ≤ b → t.byteAt b = s.byteAt b) ∧
    (s.booted = true → aPkg a = s.board.pkgId → s.exists_ a 4 = true →
      ∃ t : State, exec (.memAtomicReceive src c a v f) s = .next t ∧
        Out.msg src 0x24 c [a, s.numAt (a % 2 ^ 57) 4] (toLE 8 a ++ toLE 4 (s.numAt (a % 2 ^ 57) 4)) ∈ t.out ∧
        t.numAt (a % 2 ^ 57) 4 = (if f then (Num.fadd (BitVec.ofNat 32 (s.numAt (a % 2 ^ 57) 4)) (BitVec.ofNat 32 v)).toNat
          else (s.numAt (a % 2 ^ 57) 4 + v) % 2 ^ 32) ∧
        ∀ b, b < a % 2 ^ 57 ∨ a % 2 ^ 57 + 4 ≤ b → t.byteAt b = s.byteAt b) ∧
    ((s.booted = false ∨ aPkg a ≠ s.board.pkgId) → exec (.memReadReceive src c a n p) s = .next s ∧
      exec (.memWriteReceive a bs) s = .next s ∧ exec (.memAtomicReceive src c a v f) s = .next s)) ∧
  (∀ (a : Nat) (s : State), aKind a = 4 → s.exists_ (a % 2 ^ 57) 1 = true → a % 2 ^ 57 / 64 ∉ s.poison →
    exec (.cxlCompletionTimeout a) s = .next { s with poison := s.poison ++ [a % 2 ^ 57 / 64] }) ∧
  (∀ (a : Nat) (s : State), aKind a ≠ 4 → exec (.cxlCompletionTimeout a) s = .next s)

/-! ### The fabric -/

/-- R279 to R281, R287, R305 to R307 (Tables 13-4, 14-5, 18-6): flits received, replays, the flit of every slot, timestamps and
holdover. -/
def Obligations.WaborLink : Prop :=
  (∀ (p tc : Nat) (bs : List Byte) (s : State), p < 128 → p < s.fab.ports.length → (s.port p).up = true → tc < 5 →
    tc < (s.port p).rx.length → (s.port p).rxSeq < 4096 → 0 < bs.length → bs.length ≤ 512 →
    ∃ t : State, exec (.flitReceive p 0 [] (flitBytes (flitBase 1 tc (bs.length - 1) 0x3FF (s.port p).rxSeq) bs)) s = .next t ∧
      t.mem = s.mem ∧ t.out = s.out ∧ (t.port p).rx.getD tc [] = (s.port p).rx.getD tc [] ++ bs ∧
      (t.port p).rxSeq = ((s.port p).rxSeq + 1) % 4096 ∧ (t.port p).ackDue = true ∧ (t.port p).replay = (s.port p).replay ∧
      (t.port p).credits = (s.port p).credits ∧ ∀ q, q ≠ p → t.port q = s.port q) ∧
  (∀ (p tc seq : Nat) (bs : List Byte) (s : State), p < 128 → p < s.fab.ports.length → (s.port p).up = true → tc < 5 →
    seq < 4096 → seq ≠ (s.port p).rxSeq → (s.port p).nakSent = false → bs.length ≤ 512 →
    ∃ t : State, exec (.flitReceive p 0 [] (flitBytes (flitBase 1 tc (bs.length - 1) 0x3FF seq) bs)) s = .next t ∧
      (t.port p).nakDue = true ∧ (t.port p).rx = (s.port p).rx ∧ (t.port p).rxSeq = (s.port p).rxSeq) ∧
  (∀ (p : Nat) (bs : List Byte) (s : State), p < 128 → p < s.fab.ports.length → (s.port p).up = true →
    (bs.length ≠ 528 ∨ ofLE (bs.drop 524) ≠ Num.crc32c (bs.take 524)) →
    ∃ t : State, exec (.flitReceive p 0 [] bs) s = .next t ∧ (t.port p).rx = (s.port p).rx ∧ (t.port p).rxSeq = (s.port p).rxSeq ∧
      (t.port p).nakSent = true ∧ ((s.port p).nakSent = false → (t.port p).nakDue = true) ∧ t.mem = s.mem) ∧
  (∀ (p n : Nat) (l : List Nat) (bs : List Byte) (s : State), (s.port p).up = false →
    exec (.flitReceive p n l bs) s = .next s ∧ exec (.flitSlot p) s = .next s ∧ exec (.linkAckTimeout p) s = .next s) ∧
  (∀ (p : Nat) (s : State), p < 128 → p < s.fab.ports.length → (s.port p).up = true → (s.port p).replay ≠ [] →
    (s.now ≤ (s.port p).lastProgress + 2000 → exec (.linkAckTimeout p) s = .next s) ∧
    ((s.port p).lastProgress + 2000 < s.now → (s.port p).replayRuns < 8 →
      exec (.linkAckTimeout p) s = .next (s.onPort p (fun y => { y with
        resend := y.replay.map (·.1), replayRuns := y.replayRuns + 1, lastProgress := s.now, ctr := ctrAdd y.ctr .replays 1 }))) ∧
    ((s.port p).lastProgress + 2000 < s.now → 8 ≤ (s.port p).replayRuns →
      ∃ t : State, exec (.linkAckTimeout p) s = .next t ∧ (t.port p).up = false ∧
        ∃ m ∈ t.flt.arriving, m.kind = 0x31 ∧ m.source = 0x600 + p ∧ m.cls = 0)) ∧
  (∀ (p : Nat) (s : State), p < 128 → (s.port p).up = true → (∀ e ∈ (s.port p).replay, e.2.2.length ≤ 512) →
    ∃ (t : State) (bs : List Byte), exec (.flitSlot p) s = .next t ∧ t.out = s.out ++ [Out.flit p bs] ∧ bs.length = 528 ∧
      ofLE (bs.drop 524) = Num.crc32c (bs.take 524) ∧ t.mem = s.mem ∧ t.ctxs = s.ctxs) ∧
  (∀ (p : Nat) (s : State), p < 128 → p < s.fab.ports.length → (s.port p).up = true → ((s.port p).slot60 + 1) % 60 = 0 →
    (s.port p).stampDue = true →
    ∃ (t : State) (bs : List Byte), exec (.flitSlot p) s = .next t ∧ t.out = s.out ++ [Out.flit p bs] ∧
      bits (ofLE (bs.take 12)) 0 4 = 3 ∧ (bs.drop 12).take 64 = timestampBytes (s.timestamp p) ∧ (t.port p).stampDue = false) ∧
  (∀ (p seq : Nat) (x : Timestamp) (s : State), p < 128 → p < s.fab.ports.length → (s.port p).up = true → seq < 4096 →
    x.tSend < 2 ^ 64 → x.tEchoSend < 2 ^ 64 → x.tEchoRecv < 2 ^ 64 → x.master < 128 → x.hops < 4 → x.bound < 2 ^ 16 →
    ∃ t : State, exec (.flitReceive p 0 [] (flitBytes (flitBase 3 0 63 0x3FF seq) (timestampBytes x))) s = .next t ∧
      t.out = s.out ++ [Out.timestamp p x] ∧ t.mem = s.mem ∧ (t.port p).rx = (s.port p).rx ∧ (t.port p).rxSeq = (s.port p).rxSeq) ∧
  (∀ (p : Nat) (s : State), p < 128 → (s.port p).up = true → (s.port p).lastStamp + 10000 ≤ s.now →
    exec (.timestampSend p) s = .next (s.onPort p (fun x => { x with lastStamp := s.now, stampDue := true }))) ∧
  (∀ (p : Nat) (x : Timestamp) (s : State), p < 128 → (s.port p).up = true → s.tb.master = s.board.pkgId →
    exec (.timestampReceive p x) s
      = .next { s with tb := { s.tb with echo := s.tb.echo.put p (x.tSend, s.now, x.hops) } }) ∧
  (∀ s : State, (s.tb.st = .aligned ∨ s.tb.st = .acquiring) → s.tb.master ≠ s.board.pkgId → s.tb.lastExchange + 100000 < s.now →
    exec .timebaseHoldover s = .next { s with tb := { s.tb with
      st := .holdover, heldFrom := s.now, heldLogged := false, ctr := ctrAdd s.tb.ctr .holdovers 1 } }) ∧
  (∀ s : State, s.tb.st = .holdover → s.tb.heldLogged = false → s.tb.heldFrom + 10000000 ≤ s.now →
    ∃ f, exec .holdoverLog s = .next { s with tb := { s.tb with heldLogged := true }, flt := f } ∧
      ∃ m, f.arriving = s.flt.arriving ++ [m] ∧ m.kind = 0x35 ∧ m.cls = 0 ∧ m.source = 0x80F ∧ m.detail = s.alignBound)

/-- R282 to R286 (Tables 13-7, 13-8): chunks closed, received, acknowledged and resent, and paths back from detours. -/
def Obligations.WaborTransport : Prop :=
  (∀ (pkg tc : Nat) (s : State),
    let k := 8 * pkg + tc
    let p := s.pathOut k
    let total := sumN (p.stream.map (fun e => e.2.length))
    (total = 0 → exec (.chunkClose pkg tc) s = .next s) ∧
    (total < 4096 → s.now < p.lastByte + 50 → exec (.chunkClose pkg tc) s = .next s) ∧
    (p.opened = true → p.credits = 0 → exec (.chunkClose pkg tc) s = .next s) ∧
    (s.booted = true → tc < 5 → 0 < total → pkg ∉ s.fab.departed → (4096 ≤ total ∨ p.lastByte + 50 ≤ s.now) → p.opened = true →
      0 < p.credits → (s.routePath k).1 ≠ none →
      ∃ (t : State) (c : SentChunk), exec (.chunkClose pkg tc) s = .next t ∧ t.mem = s.mem ∧ t.ctxs = s.ctxs ∧
        (t.pathOut k).unacked = p.unacked ++ [c] ∧ c.psn = p.nextPsn ∧ c.tick = s.now ∧
        c.payload = (p.stream.map (·.2)).flatten.take 4096 ∧
        ((t.pathOut k).stream.map (·.2)).flatten = (p.stream.map (·.2)).flatten.drop 4096 ∧
        (t.pathOut k).nextPsn = (p.nextPsn + 1) % 2 ^ 24 ∧ (t.pathOut k).credits = p.credits - 1)) ∧
  (∀ (p src tc type ctx part : Nat) (body rest : List Byte) (s : State),
    let k := 8 * src + tc
    let payload := msgHeader type ctx part body.length ++ body
    p < 128 → p < s.fab.ports.length → tc < 5 → tc < (s.port p).rx.length → (s.port p).up = true → s.board.pkgId < 128 → src < 128 →
    src ∉ s.fab.departed → payload.length ≤ 4096 → type ∈ msgTypes → ctx < 16 → part < 8 → (s.pathIn k).expected < 2 ^ 24 →
    (s.pathIn k).reorder = [] → (s.pathIn k).part = [] →
    (s.port p).rx.getD tc [] = wireChunk (chunkHeader s.board.pkgId src none tc false false (s.pathIn k).expected payload.length 0)
      payload ++ rest →
    ((tc ≠ 0 ∨ ∀ h ∈ s.fab.heldRx, h.src ≠ src) →
      ∃ t : State, exec (.chunkReceive p tc) s = .next t ∧ t.mem = s.mem ∧ t.ctxs = s.ctxs ∧
        t.out = s.out ++ [Out.deliver type ctx src body] ∧ (t.port p).rx.getD tc [] = rest ∧
        (t.pathIn k).expected = ((s.pathIn k).expected + 1) % 2 ^ 24 ∧ (t.pathIn k).ackFrom.isSome = true) ∧
    (tc = 0 → (∃ h ∈ s.fab.heldRx, h.src = src) →
      ∃ t : State, exec (.chunkReceive p tc) s = .next t ∧ t.mem = s.mem ∧ t.ctxs = s.ctxs ∧ t.out = s.out ∧
        (t.port p).rx.getD tc [] = rest ∧ (t.pathIn k).expected = (s.pathIn k).expected ∧
        (t.pathIn k).reorder = [((s.pathIn k).expected, payload)] ∧ (t.pathIn k).ackFrom = (s.pathIn k).ackFrom)) ∧
  (∀ (p src tc psn : Nat) (payload rest : List Byte) (s : State),
    let k := 8 * src + tc
    p < 128 → p < s.fab.ports.length → tc < 5 → tc < (s.port p).rx.length → (s.port p).up = true → s.board.pkgId < 128 → src < 128 →
    src ∉ s.fab.departed → payload.length ≤ 4096 → psn < 2 ^ 24 → psnBelow psn (s.pathIn k).expected = true →
    (s.port p).rx.getD tc [] = wireChunk (chunkHeader s.board.pkgId src none tc false false psn payload.length 0) payload ++ rest →
    ∃ t : State, exec (.chunkReceive p tc) s = .next t ∧ t.out = s.out ∧ (t.port p).rx.getD tc [] = rest ∧
      (t.pathIn k).expected = (s.pathIn k).expected ∧ (t.pathIn k).ackFrom.isSome = true) ∧
  (∀ (p tc : Nat) (s : State), ((s.port p).rx.getD tc []).length < 32 → exec (.chunkReceive p tc) s = .next s) ∧
  (∀ (pkg : Nat) (s : State),
    let due (tc : Nat) : Bool := (s.pathIn (8 * pkg + tc)).ackFrom.isSome || (s.pathIn (8 * pkg + tc)).nackDue
    ((∀ tc < 5, due tc = false) → exec (.transportAckSend pkg) s = .next s) ∧
    (s.booted = true → pkg ∉ s.fab.departed → (∃ tc < 5, due tc = true) → (s.routePath (8 * pkg + 4)).1 ≠ none →
      ∃ t : State, exec (.transportAckSend pkg) s = .next t ∧ t.mem = s.mem ∧ t.ctxs = s.ctxs ∧
        ∀ tc < 5, (t.pathIn (8 * pkg + tc)).ackFrom = none ∧ (t.pathIn (8 * pkg + tc)).nackDue = false ∧
          (t.pathIn (8 * pkg + tc)).expected = (s.pathIn (8 * pkg + tc)).expected)) ∧
  (∀ s : State, s.fab.entries = [] → exec .transportAckReceive s = .next s) ∧
  (∀ (src e : Nat) (r : List (Nat × Nat)) (s : State),
    let k := 8 * src + bits e 0 3
    s.fab.entries = (src, e) :: r → e.testBit 3 = false → (∀ c, (s.ctx c).colls = []) →
    (∀ c, ∀ l ∈ (s.ctx c).lanes.launches, l.dying = none) →
    ∃ t : State, exec .transportAckReceive s = .next t ∧ t.mem = s.mem ∧ t.ctxs = s.ctxs ∧ t.fab.entries = r ∧
      (t.pathOut k).unacked = (s.pathOut k).unacked.filter (fun c => !psnBelow c.psn (bits e 8 24)) ∧
      (t.pathOut k).credits = (s.pathOut k).credits + bits e 32 16) ∧
  (∀ (pkg tc : Nat) (s : State),
    let k := 8 * pkg + tc
    let p := s.pathOut k
    ((p.unacked = [] ∨ s.now ≤ p.lastProgress + 8000) → exec (.transportResendTimeout pkg tc) s = .next s) ∧
    (s.booted = true → tc < 5 → p.unacked ≠ [] → pkg ∉ s.fab.departed → p.lastProgress + 8000 < s.now →
      ∃ t : State, exec (.transportResendTimeout pkg tc) s = .next t ∧ t.mem = s.mem ∧ t.ctxs = s.ctxs ∧
        (t.pathOut k).unacked = p.unacked ∧ (t.pathOut k).credits = p.credits ∧ (t.pathOut k).lastProgress = s.now) ∧
    (p.detour.isSome = true → (∃ i < 128, (s.port i).up = true ∧ (s.port i).peer = pkg ∧ p.movedAt ≤ (s.port i).upFrom ∧
        (s.port i).upFrom + 1000000 ≤ s.now) →
      exec (.detourReturn pkg tc) s = .next (s.onOut k (fun p => { p with detour := none, timeouts := 0 }))) ∧
    ((∀ i < 128, (s.port i).up = true → (s.port i).peer = pkg → s.now < (s.port i).upFrom + 1000000) →
      exec (.detourReturn pkg tc) s = .next s))

/-- R238, R288, R309: a package departs, by announcement or by silence. -/
def Obligations.Departures : Prop :=
  (∀ (pkg : Nat) (s : State), (s.fw fwWayfinder).st = .running → pkg ∈ s.fab.present → pkg ≠ s.board.pkgId →
    ∃ t : State, exec (.departureReceive pkg) s = .next t ∧ pkg ∉ t.fab.present ∧ pkg ∈ t.fab.departed ∧
      (∀ p, p ≠ pkg → p ∈ s.fab.present → p ∈ t.fab.present) ∧ (∀ l ∈ t.lend.lots, l.borrower ≠ pkg) ∧
      (∀ tc < 5, (t.pathIn (8 * pkg + tc)) = PathIn.fresh)) ∧
  (∀ (pkg : Nat) (s : State), (pkg ∉ s.fab.present ∨ pkg = s.board.pkgId ∨ (s.fw fwWayfinder).st ≠ .running) →
    exec (.departureReceive pkg) s = .next s ∧ exec (.departureTimeout pkg) s = .next s) ∧
  (∀ (pkg n : Nat) (s : State), (s.fw fwWayfinder).st = .running → pkg ∈ s.fab.present → pkg ≠ s.board.pkgId →
    s.pendingTo pkg = true → s.fab.silent.find pkg = some n → n + 10000000 < s.now →
    ∃ t : State, exec (.departureTimeout pkg) s = .next t ∧ pkg ∉ t.fab.present ∧ pkg ∈ t.fab.departed ∧
      (∃ m ∈ t.flt.arriving, m.kind = 0x34 ∧ m.source = 0x743 ∧ m.cls = 0 ∧ m.detail = pkg) ∧
      ∀ p ∈ s.fab.present, p ≠ pkg → p ≠ s.board.pkgId → ∃ bs, Out.msg p 0x32 0 [pkg] bs ∈ t.out)

/-! ### The whole block -/

/-- A step is its front command over the rest of the queue.  An empty queue is one tick, by the model's own choice (log
entry 1). -/
def Obligations.StepRunsFront : Prop :=
  (∀ (c : Instr) (r : List Instr) (s : State), step { s with pending := c :: r } = exec c { s with pending := r }) ∧
  (∀ s : State, s.pending = [] → step s = .next s.tick) ∧
  (∀ s : State, s.pending = [] → s.powered = true → s.board.perstN = true →
    ∃ t : State, step s = .next t ∧ t.now = (s.now + 1) % 2 ^ 64 ∧ t.mem = s.mem ∧ t.ctxs = s.ctxs ∧ t.host = s.host ∧
      t.boot = s.boot ∧ t.pending = [] ∧ t.out = s.out)

/-- R303, R307, R317, R322, R325, R348, R381, R399, Tables 14-4, 15-1, 16-4, 18-4: what reset leaves.  Fuses, flash and
straps are the model's choice (log entries 5 and 6), and so is that memory lists nothing (log entry 2). -/
def Obligations.ResetState : Prop :=
  Inv State.reset ∧ State.reset.pending = [] ∧ State.reset.out = [] ∧ State.reset.now = 0 ∧ State.reset.tb.st = .free ∧
  State.reset.flt.dev = .serving ∧ State.reset.flt.latches = List.replicate 5 none ∧
  State.reset.flt.overLost = List.replicate 5 false ∧ State.reset.flt.irqClass = 1 ∧ State.reset.flt.irqPend = false ∧
  State.reset.flt.thermTrip = false ∧ State.reset.flt.events = 16 ∧ State.reset.flt.windowMs = 1000 ∧
  State.reset.host.sessions = [] ∧ State.reset.host.msgs = [] ∧ State.reset.boot.ready = false ∧
  (∀ n < 6, (State.reset.fw n).st = .off ∧ (State.reset.fw n).cause = 0 ∧ (State.reset.fw n).restarts = 0 ∧
    (State.reset.fw n).watchdogMs = 20) ∧
  (∀ c < 16, (State.reset.ctx c).st = .free ∧ (State.reset.ctx c).returnUs = 100) ∧
  (∀ p < 8, (State.reset.part p).enabled = (p == 0) ∧ (State.reset.part p).coreCount = (if p = 0 then 512 else 0) ∧
    (State.reset.part p).overrunUs = 10000 ∧
    ∀ g < 7, (State.reset.gate p g).rate = 0xFFFF ∧ (State.reset.gate p g).burst = 0x400 ∧
      (State.reset.gate p g).weight = 0x10 ∧ (State.reset.gate p g).bucket = 0x400 * 1024) ∧
  (∀ w, (State.reset.win w).owner = false ∧ (State.reset.win w).done = false ∧ (State.reset.win w).irqEn = false ∧
    (State.reset.win w).bound = false ∧ (State.reset.win w).partMask = 1) ∧
  (∀ a, State.reset.byteAt a = 0)

/-- Every step keeps the invariant, in every state that has it. -/
def Obligations.StepKeepsInv : Prop := ∀ s t : State, Inv s → step s = .next t → Inv t

/-- R303: a device reset starts the counter at 0 in FREE; no other command but the one load makes it decrease, and a slew
moves it by 0 or 2, at most once per 2,000 ticks.  R397: only the resets sample the package ID (in STOPPED_C4 they only
retrain the link, R402). -/
def Obligations.TimebaseCounter : Prop :=
  (∀ (x : Nat) (s : State), s.powered = true → s.board.perstN = true → s.flt.dev ≠ .stoppedC4 →
    ∃ t u : State, exec (.perstRelease x) s = .next t ∧ t.now = 0 ∧ t.tb.st = .free ∧ t.board.pkgId = x % 128 ∧
      exec (.hotReset x) s = .next u ∧ u.now = 0 ∧ u.tb.st = .free ∧ u.board.pkgId = x % 128) ∧
  (∀ (c : Instr) (s t : State), (∀ x, c ≠ .powerOn x) → c ≠ .pwrGoodFall → (∀ x, c ≠ .perstRelease x) → (∀ x, c ≠ .hotReset x) →
    exec c s = .next t → t.board.pkgId = s.board.pkgId ∧
      (s.now + 2 < 2 ^ 64 → s.now ≤ t.now ∨ ((∃ p x, c = .timestampReceive p x) ∧ s.tb.loaded = false ∧ t.tb.loaded = true))) ∧
  (∀ s : State, s.powered = true → s.tb.slew ≠ 0 → s.tb.lastSlew + 2000 ≤ s.now → s.now + 2 < 2 ^ 64 →
    ∃ t : State, exec .timebaseSlew s = .next t ∧ (t.now = s.now ∨ t.now = s.now + 2) ∧ t.tb.lastSlew = t.now) ∧
  (∀ s : State, s.now < s.tb.lastSlew + 2000 → exec .timebaseSlew s = .next s) ∧
  (∀ (p : Nat) (x : Timestamp) (s t : State), s.tb.loaded = true → exec (.timestampReceive p x) s = .next t → t.now = s.now) ∧
  (∀ s : State, s.pending = [] → s.powered = true → s.board.perstN = true → s.now + 1 < 2 ^ 64 →
    ∃ t : State, step s = .next t ∧ t.now = s.now + 1)

/-- R338, R340, R341, R369 (Table 16-7): which processor owns an opcode, that it takes its messages one at a time in order
of receipt, and what completing one writes; the time and mode messages of R310, R311 and R316 among them. -/
def Obligations.MessageCompletion : Prop :=
  (∀ op < 0x900, owner op =
    if op < 0x100 then 0 else if op < 0x200 then 1 else if op < 0x300 then 2 else if op < 0x400 then 4
    else if op < 0x500 then 3 else if op < 0x510 then 4 else if op < 0x600 then 1 else if op < 0x610 then 3
    else if op < 0x620 then 1 else if op < 0x800 then 0 else if op < 0x820 then 5 else if op < 0x830 then 3 else 5) ∧
  (∀ (w : Nat) (m : Msg) (l r : List Msg) (k : Msg → State → Act) (s : State), s.host.msgs = l ++ m :: r → m.phase = .routed →
    (∀ x ∈ l, ¬ (x.phase = .routed ∧ owner x.op = owner m.op)) → m.win = w →
    s.oldest w m.op = some m ∧
    (∀ v op, owner op = owner m.op → ¬ (v = w ∧ op = m.op) → commitMsg v op k s = s)) ∧
  (∀ (m : Msg) (p : Nat) (st : Status) (body : List Byte) (s : State), p < 6 → m.win < 256 → st ≠ .fwRestarted →
    ∃ (t : State) (h : Header), s.complete m p st body = t ∧ (t.win m.win).resp = h.write ++ body ∧
      h.op = m.op ∧ h.status = st.code ∧ h.length = body.length ∧ h.sess = m.sess ∧ h.tag = m.tag ∧ h.resp = true ∧
      h.handler = p ∧ h.stamp = m.stamp ∧ (t.win m.win).done = true ∧ (t.win m.win).owner = false ∧
      t.host.msgs = eraseFirst (fun x => decide (x = m)) s.host.msgs ∧
      t.out = (if (s.win m.win).irqEn then s.out ++ [Out.msix m.win] else s.out) ∧
      (∀ v, v ≠ m.win → t.win v = s.win v) ∧ t.mem = s.mem ∧ t.ctxs = s.ctxs ∧ t.seqs = s.seqs ∧ t.ws = s.ws ∧
      t.parts = s.parts ∧ t.flt = s.flt ∧ t.tb = s.tb) ∧
  (∀ (w op : Nat) (m : Msg) (k : Msg → State → Act) (s : State), s.oldest w op = some m → (s.fw (owner op)).st ≠ .running →
    commitMsg w op k s = s) ∧
  (∀ (m : Msg) (c : Nat) (s : State),
    (15 < c → firstBad (s.ctxChecks m c) = some .bounds) ∧
    (c ≤ 15 → (s.ctx c).st = .free → firstBad (s.ctxChecks m c) = some .unavailable) ∧
    (c ≤ 15 → (s.ctx c).st ≠ .free → s.owns m.sess c = false → firstBad (s.ctxChecks m c) = some .denied) ∧
    (c ≤ 15 → (s.ctx c).st = .teardown → s.owns m.sess c = true → firstBad (s.ctxChecks m c) = some .unavailable) ∧
    (c ≤ 15 → (s.ctx c).st = .active → s.owns m.sess c = true → (s.part (s.ctx c).share.partition).halted = true →
      firstBad (s.ctxChecks m c) = some .faulted)) ∧
  (∀ (w c : Nat) (m : Msg) (s : State), Takes s w 0x0600 m → Spells [.u8] m [c] → Admits s m c →
    exec (.pmpTimeQuery w) s = .next (answered s m 0x0600 ([(.u64, s.now), (.u64, s.tbStatus)] ++
      ctrFlds (s.ctx c).ctr [.lateStarts, .fixedSteps] ++
      ctrFlds s.tb.ctr [.skewEvents, .skewTrips, .timeExchanges, .holdovers, .masterChanges]))) ∧
  (∀ (w c mode : Nat) (y : Ctx) (m : Msg) (s : State), Takes s w 0x0610 m → Spells [.u8, .u8] m [c, mode] → Admits s m c → mode ≤ 1 →
    (s.ctx c).fitSpill (spillBytes (s.ctx c).steps.tokenLimit (s.ctx c).share.dModel (planesOf (mode == 1) (s.ctx c).draft)) = some y →
    exec (.pmpDetMode w) s
      = .next (answered (s.onCtx c (fun _ => { y with steps := { y.steps with mode := mode == 1 } })) m 0x0610 [])) ∧
  (∀ (w c : Nat) (m : Msg) (s : State), Takes s w 0x0611 m → Spells [.u8] m [c] → Admits s m c →
    exec (.pmpDetQuery w) s = .next (answered s m 0x0611 [(.u8, b2n (s.ctx c).steps.mode), (.u32, (s.ctx c).sfnRev),
      (.u32, Num.crc32c s.shapeRecord)]))
end

