-- ==== Sys2Proof/Laws/Tbl.lean ====
section
/-! SUPPORT. Laws of the sparse tables and of the small list helpers: read after write, the canonical form. -/

namespace Sys2Proof

variable {α : Type}

/-! ### Lists changed at an index -/

@[simp] theorem updAt_length (l : List α) (i : Nat) (f : α → α) : (updAt l i f).length = l.length := by
  induction l generalizing i with
  | nil => rfl
  | cons x r ih => cases i <;> simp [updAt, ih]

theorem updAt_getElem? (l : List α) (i j : Nat) (f : α → α) :
    (updAt l i f)[j]? = if i = j then l[j]?.map f else l[j]? := by
  induction l generalizing i j with
  | nil => simp [updAt]
  | cons x r ih =>
    cases i with
    | zero => cases j <;> simp [updAt]
    | succ i => cases j <;> simp [updAt, ih]

/-- Reading the element changed. -/
theorem updAt_getD_same (l : List α) (i : Nat) (f : α → α) (d : α) (h : i < l.length) :
    (updAt l i f).getD i d = f (l.getD i d) := by
  rw [List.getD_eq_getElem?_getD, updAt_getElem?, List.getD_eq_getElem?_getD]
  simp [h]

/-- Reading another element. -/
theorem updAt_getD_other (l : List α) (i j : Nat) (f : α → α) (d : α) (h : i ≠ j) :
    (updAt l i f).getD j d = l.getD j d := by
  simp [List.getD_eq_getElem?_getD, updAt_getElem?, h]

/-- Reading any element after a change, in terms of the old list. -/
theorem updAt_getD (l : List α) (i j : Nat) (f : α → α) (d : α) :
    (updAt l i f).getD j d = if i = j ∧ i < l.length then f (l.getD i d) else l.getD j d := by
  by_cases h : i = j
  · subst h
    by_cases hi : i < l.length
    · rw [updAt_getD_same l i f d hi]; simp [hi]
    · simp [hi, List.getD_eq_getElem?_getD]
  · simp [h, updAt_getElem?, List.getD_eq_getElem?_getD]

/-! ### Tables -/

namespace Tbl

@[simp] theorem getD_nil (k : Nat) (d : α) : getD ([] : Tbl α) k d = d := rfl

@[simp] theorem find_nil (k : Nat) : find ([] : Tbl α) k = none := rfl

theorem getD_eq_find (t : Tbl α) (k : Nat) (d : α) : t.getD k d = (t.find k).getD d := by
  induction t with
  | nil => rfl
  | cons e r ih =>
    obtain ⟨a, v⟩ := e
    by_cases h : a = k <;> simp [getD, find, h, ih]

@[simp] theorem find_put_same (t : Tbl α) (k : Nat) (v : α) : (t.put k v).find k = some v := by
  induction t with
  | nil => simp [put, find]
  | cons e r ih =>
    obtain ⟨a, w⟩ := e
    unfold put
    split
    · simp [find]
    · split
      · simp [find]
      · next h => simp [find, ih, Ne.symm h]

theorem find_put_other (t : Tbl α) (k j : Nat) (v : α) (h : k ≠ j) : (t.put k v).find j = t.find j := by
  induction t with
  | nil => simp [put, find, h]
  | cons e r ih =>
    obtain ⟨a, w⟩ := e
    unfold put
    split
    · simp [find, h]
    · split
      · next h1 => subst h1; simp [find, h]
      · simp [find, ih]

theorem find_adjust (t : Tbl α) (k j : Nat) (f : α → α) :
    (t.adjust k f).find j = if k = j then (t.find j).map f else t.find j := by
  induction t with
  | nil => simp [adjust, find]
  | cons e r ih =>
    obtain ⟨a, w⟩ := e
    unfold adjust
    split
    · next h => subst h; by_cases hj : a = j <;> simp [find, hj]
    · next h =>
      by_cases hj : a = j
      · subst hj; simp [find, Ne.symm h]
      · simp [find, hj, ih]

@[simp] theorem getD_put_same (t : Tbl α) (k : Nat) (v d : α) : (t.put k v).getD k d = v := by
  simp [getD_eq_find]

theorem getD_put_other (t : Tbl α) (k j : Nat) (v d : α) (h : k ≠ j) : (t.put k v).getD j d = t.getD j d := by
  simp [getD_eq_find, find_put_other _ _ _ _ h]

/-- Every key of a table with rising keys lies above a key before it. -/
theorem rising_cons (a : Nat) (v : α) (r : Tbl α) :
    rising ((a, v) :: r) = true ↔ (∀ e ∈ r, a < e.1) ∧ rising r = true := by
  induction r generalizing a v with
  | nil => simp [rising]
  | cons e r ih =>
    obtain ⟨b, w⟩ := e
    have h1 := ih b w
    simp only [rising, Bool.and_eq_true, decide_eq_true_eq] at *
    constructor
    · rintro ⟨hab, hr⟩
      refine ⟨?_, hr⟩
      intro e he
      rcases List.mem_cons.1 he with rfl | he
      · exact hab
      · exact Nat.lt_trans hab ((h1.1 hr).1 e he)
    · rintro ⟨hall, hr⟩
      exact ⟨hall (b, w) (by simp), hr⟩

theorem mem_put (t : Tbl α) (k : Nat) (v : α) (e : Nat × α) (h : e ∈ t.put k v) : e = (k, v) ∨ e ∈ t := by
  induction t with
  | nil => simpa [put] using h
  | cons x r ih =>
    obtain ⟨a, w⟩ := x
    unfold put at h
    split at h
    · simpa using h
    · split at h
      · rcases List.mem_cons.1 h with h | h
        · exact .inl h
        · exact .inr (List.mem_cons_of_mem _ h)
      · rcases List.mem_cons.1 h with h | h
        · exact .inr (by simp [h])
        · rcases ih h with h | h
          · exact .inl h
          · exact .inr (List.mem_cons_of_mem _ h)

theorem mem_del (t : Tbl α) (k : Nat) (e : Nat × α) (h : e ∈ t.del k) : e ∈ t := by
  induction t with
  | nil => simp [del] at h
  | cons x r ih =>
    obtain ⟨a, w⟩ := x
    unfold del at h
    split at h
    · exact List.mem_cons_of_mem _ (ih h)
    · rcases List.mem_cons.1 h with h | h
      · simp [h]
      · exact List.mem_cons_of_mem _ (ih h)

theorem rising_put (t : Tbl α) (k : Nat) (v : α) (h : t.rising = true) : (t.put k v).rising = true := by
  induction t with
  | nil => rfl
  | cons x r ih =>
    obtain ⟨a, w⟩ := x
    have h' := (rising_cons a w r).1 h
    unfold put
    split
    · next hk =>
      refine (rising_cons k v _).2 ⟨?_, h⟩
      intro e he
      rcases List.mem_cons.1 he with rfl | he
      · exact hk
      · exact Nat.lt_trans hk (h'.1 e he)
    · next hk =>
      split
      · next hk2 => subst hk2; exact (rising_cons k v r).2 h'
      · next hk2 =>
        refine (rising_cons a w _).2 ⟨?_, ih h'.2⟩
        intro e he
        rcases mem_put r k v e he with rfl | he
        · simp only; omega
        · exact h'.1 e he

theorem rising_del (t : Tbl α) (k : Nat) (h : t.rising = true) : (t.del k).rising = true := by
  induction t with
  | nil => rfl
  | cons x r ih =>
    obtain ⟨a, w⟩ := x
    have h' := (rising_cons a w r).1 h
    unfold del
    split
    · exact ih h'.2
    · exact (rising_cons a w _).2 ⟨fun e he => h'.1 e (mem_del r k e he), ih h'.2⟩

@[simp] theorem find_del_same (t : Tbl α) (k : Nat) : (t.del k).find k = none := by
  induction t with
  | nil => rfl
  | cons x r ih =>
    obtain ⟨a, w⟩ := x
    unfold del
    split
    · exact ih
    · next hk => simp [find, Ne.symm hk, ih]

theorem find_del_other (t : Tbl α) (k j : Nat) (h : k ≠ j) : (t.del k).find j = t.find j := by
  induction t with
  | nil => rfl
  | cons x r ih =>
    obtain ⟨a, w⟩ := x
    unfold del
    split
    · next hk => subst hk; simp [find, h, ih]
    · simp [find, ih]

/-- Read after write where `d` is what an unlisted key reads as. -/
theorem getD_setD [DecidableEq α] (t : Tbl α) (d : α) (k j : Nat) (v : α) :
    (t.setD d k v).getD j d = if k = j then v else t.getD j d := by
  unfold setD
  by_cases hv : v = d
  · by_cases hk : k = j
    · subst hk; simp [hv, getD_eq_find, find_del_same]
    · simp [hv, hk, getD_eq_find, find_del_other _ _ _ hk]
  · by_cases hk : k = j
    · subst hk; simp [hv]
    · simp [hv, hk, getD_put_other _ _ _ _ _ hk]

@[simp] theorem getD_setD_same [DecidableEq α] (t : Tbl α) (d : α) (k : Nat) (v : α) :
    (t.setD d k v).getD k d = v := by simp [getD_setD]

/-- A write keeps the canonical form. -/
theorem wf_setD [DecidableEq α] (t : Tbl α) (d : α) (k : Nat) (v : α) (h : wf d t = true) : wf d (t.setD d k v) = true := by
  simp only [wf, Bool.and_eq_true, List.all_eq_true, decide_eq_true_eq] at *
  unfold setD
  split
  · exact ⟨rising_del t k h.1, fun e he => h.2 e (mem_del t k e he)⟩
  · next hv =>
    refine ⟨rising_put t k v h.1, fun e he => ?_⟩
    rcases mem_put t k v e he with rfl | he
    · exact hv
    · exact h.2 e he

theorem rising_filter (t : Tbl α) (p : Nat × α → Bool) (h : t.rising = true) : rising (t.filter p) = true := by
  induction t with
  | nil => rfl
  | cons x r ih =>
    obtain ⟨a, w⟩ := x
    have h' := (rising_cons a w r).1 h
    rw [List.filter_cons]
    split
    · exact (rising_cons a w _).2 ⟨fun e he => h'.1 e (List.mem_filter.1 he).1, ih h'.2⟩
    · exact ih h'.2

theorem wf_filter [DecidableEq α] (t : Tbl α) (d : α) (p : Nat × α → Bool) (h : wf d t = true) : wf d (t.filter p) = true := by
  simp only [wf, Bool.and_eq_true, List.all_eq_true, decide_eq_true_eq] at *
  exact ⟨rising_filter t p h.1, fun e he => h.2 e (List.mem_filter.1 he).1⟩

end Tbl

end Sys2Proof
end

