-- ==== Sys2Proof/Laws/State.lean ====
section
/-! SUPPORT. What each shared update of the state leaves alone, one rule per field, and what it writes. -/

namespace Sys2Proof.Machine

variable (s : State)

/-! ### `State.freed` -/

@[simp] theorem State.freed_board : (s.freed).board = s.board := rfl
@[simp] theorem State.freed_fuses : (s.freed).fuses = s.fuses := rfl
@[simp] theorem State.freed_flashes : (s.freed).flashes = s.flashes := rfl
@[simp] theorem State.freed_boot : (s.freed).boot = s.boot := rfl
@[simp] theorem State.freed_host : (s.freed).host = s.host := rfl
@[simp] theorem State.freed_fws : (s.freed).fws = s.fws := rfl
@[simp] theorem State.freed_upd : (s.freed).upd = s.upd := rfl
@[simp] theorem State.freed_flt : (s.freed).flt = s.flt := rfl
@[simp] theorem State.freed_hlt : (s.freed).hlt = s.hlt := rfl
@[simp] theorem State.freed_tb : (s.freed).tb = s.tb := rfl
@[simp] theorem State.freed_parts : (s.freed).parts = s.parts := rfl
@[simp] theorem State.freed_ctxs : (s.freed).ctxs = s.ctxs := rfl
@[simp] theorem State.freed_fab : (s.freed).fab = s.fab := rfl
@[simp] theorem State.freed_lend : (s.freed).lend = s.lend := rfl
@[simp] theorem State.freed_mem : (s.freed).mem = s.mem := rfl
@[simp] theorem State.freed_ws : (s.freed).ws = s.ws := rfl
@[simp] theorem State.freed_posts : (s.freed).posts = s.posts := rfl
@[simp] theorem State.freed_seqs : (s.freed).seqs = s.seqs := rfl
@[simp] theorem State.freed_cores : (s.freed).cores = s.cores := rfl
@[simp] theorem State.freed_floorUsed : (s.freed).floorUsed = s.floorUsed := rfl
@[simp] theorem State.freed_poolUsed : (s.freed).poolUsed = s.poolUsed := rfl
@[simp] theorem State.freed_ctr : (s.freed).ctr = s.ctr := rfl
@[simp] theorem State.freed_lastLog : (s.freed).lastLog = s.lastLog := rfl
@[simp] theorem State.freed_poison : (s.freed).poison = s.poison := rfl
@[simp] theorem State.freed_pending : (s.freed).pending = s.pending := rfl
@[simp] theorem State.freed_out : (s.freed).out = s.out := rfl

/-! ### `State.bump` -/

@[simp] theorem State.bump_board (c : Ctr) (n : Nat) : (s.bump c n).board = s.board := rfl
@[simp] theorem State.bump_fuses (c : Ctr) (n : Nat) : (s.bump c n).fuses = s.fuses := rfl
@[simp] theorem State.bump_flashes (c : Ctr) (n : Nat) : (s.bump c n).flashes = s.flashes := rfl
@[simp] theorem State.bump_boot (c : Ctr) (n : Nat) : (s.bump c n).boot = s.boot := rfl
@[simp] theorem State.bump_host (c : Ctr) (n : Nat) : (s.bump c n).host = s.host := rfl
@[simp] theorem State.bump_fws (c : Ctr) (n : Nat) : (s.bump c n).fws = s.fws := rfl
@[simp] theorem State.bump_upd (c : Ctr) (n : Nat) : (s.bump c n).upd = s.upd := rfl
@[simp] theorem State.bump_flt (c : Ctr) (n : Nat) : (s.bump c n).flt = s.flt := rfl
@[simp] theorem State.bump_hlt (c : Ctr) (n : Nat) : (s.bump c n).hlt = s.hlt := rfl
@[simp] theorem State.bump_tb (c : Ctr) (n : Nat) : (s.bump c n).tb = s.tb := rfl
@[simp] theorem State.bump_parts (c : Ctr) (n : Nat) : (s.bump c n).parts = s.parts := rfl
@[simp] theorem State.bump_ctxs (c : Ctr) (n : Nat) : (s.bump c n).ctxs = s.ctxs := rfl
@[simp] theorem State.bump_fab (c : Ctr) (n : Nat) : (s.bump c n).fab = s.fab := rfl
@[simp] theorem State.bump_lend (c : Ctr) (n : Nat) : (s.bump c n).lend = s.lend := rfl
@[simp] theorem State.bump_mem (c : Ctr) (n : Nat) : (s.bump c n).mem = s.mem := rfl
@[simp] theorem State.bump_ws (c : Ctr) (n : Nat) : (s.bump c n).ws = s.ws := rfl
@[simp] theorem State.bump_posts (c : Ctr) (n : Nat) : (s.bump c n).posts = s.posts := rfl
@[simp] theorem State.bump_seqs (c : Ctr) (n : Nat) : (s.bump c n).seqs = s.seqs := rfl
@[simp] theorem State.bump_cores (c : Ctr) (n : Nat) : (s.bump c n).cores = s.cores := rfl
@[simp] theorem State.bump_floorUsed (c : Ctr) (n : Nat) : (s.bump c n).floorUsed = s.floorUsed := rfl
@[simp] theorem State.bump_poolUsed (c : Ctr) (n : Nat) : (s.bump c n).poolUsed = s.poolUsed := rfl
@[simp] theorem State.bump_freeCtr (c : Ctr) (n : Nat) : (s.bump c n).freeCtr = s.freeCtr := rfl
@[simp] theorem State.bump_lastLog (c : Ctr) (n : Nat) : (s.bump c n).lastLog = s.lastLog := rfl
@[simp] theorem State.bump_poison (c : Ctr) (n : Nat) : (s.bump c n).poison = s.poison := rfl
@[simp] theorem State.bump_pending (c : Ctr) (n : Nat) : (s.bump c n).pending = s.pending := rfl
@[simp] theorem State.bump_out (c : Ctr) (n : Nat) : (s.bump c n).out = s.out := rfl

/-! ### `State.bumpFlt` -/

@[simp] theorem State.bumpFlt_board (c : Ctr) (n : Nat) : (s.bumpFlt c n).board = s.board := rfl
@[simp] theorem State.bumpFlt_fuses (c : Ctr) (n : Nat) : (s.bumpFlt c n).fuses = s.fuses := rfl
@[simp] theorem State.bumpFlt_flashes (c : Ctr) (n : Nat) : (s.bumpFlt c n).flashes = s.flashes := rfl
@[simp] theorem State.bumpFlt_boot (c : Ctr) (n : Nat) : (s.bumpFlt c n).boot = s.boot := rfl
@[simp] theorem State.bumpFlt_host (c : Ctr) (n : Nat) : (s.bumpFlt c n).host = s.host := rfl
@[simp] theorem State.bumpFlt_fws (c : Ctr) (n : Nat) : (s.bumpFlt c n).fws = s.fws := rfl
@[simp] theorem State.bumpFlt_upd (c : Ctr) (n : Nat) : (s.bumpFlt c n).upd = s.upd := rfl
@[simp] theorem State.bumpFlt_hlt (c : Ctr) (n : Nat) : (s.bumpFlt c n).hlt = s.hlt := rfl
@[simp] theorem State.bumpFlt_tb (c : Ctr) (n : Nat) : (s.bumpFlt c n).tb = s.tb := rfl
@[simp] theorem State.bumpFlt_parts (c : Ctr) (n : Nat) : (s.bumpFlt c n).parts = s.parts := rfl
@[simp] theorem State.bumpFlt_ctxs (c : Ctr) (n : Nat) : (s.bumpFlt c n).ctxs = s.ctxs := rfl
@[simp] theorem State.bumpFlt_fab (c : Ctr) (n : Nat) : (s.bumpFlt c n).fab = s.fab := rfl
@[simp] theorem State.bumpFlt_lend (c : Ctr) (n : Nat) : (s.bumpFlt c n).lend = s.lend := rfl
@[simp] theorem State.bumpFlt_mem (c : Ctr) (n : Nat) : (s.bumpFlt c n).mem = s.mem := rfl
@[simp] theorem State.bumpFlt_ws (c : Ctr) (n : Nat) : (s.bumpFlt c n).ws = s.ws := rfl
@[simp] theorem State.bumpFlt_posts (c : Ctr) (n : Nat) : (s.bumpFlt c n).posts = s.posts := rfl
@[simp] theorem State.bumpFlt_seqs (c : Ctr) (n : Nat) : (s.bumpFlt c n).seqs = s.seqs := rfl
@[simp] theorem State.bumpFlt_cores (c : Ctr) (n : Nat) : (s.bumpFlt c n).cores = s.cores := rfl
@[simp] theorem State.bumpFlt_floorUsed (c : Ctr) (n : Nat) : (s.bumpFlt c n).floorUsed = s.floorUsed := rfl
@[simp] theorem State.bumpFlt_poolUsed (c : Ctr) (n : Nat) : (s.bumpFlt c n).poolUsed = s.poolUsed := rfl
@[simp] theorem State.bumpFlt_ctr (c : Ctr) (n : Nat) : (s.bumpFlt c n).ctr = s.ctr := rfl
@[simp] theorem State.bumpFlt_freeCtr (c : Ctr) (n : Nat) : (s.bumpFlt c n).freeCtr = s.freeCtr := rfl
@[simp] theorem State.bumpFlt_lastLog (c : Ctr) (n : Nat) : (s.bumpFlt c n).lastLog = s.lastLog := rfl
@[simp] theorem State.bumpFlt_poison (c : Ctr) (n : Nat) : (s.bumpFlt c n).poison = s.poison := rfl
@[simp] theorem State.bumpFlt_pending (c : Ctr) (n : Nat) : (s.bumpFlt c n).pending = s.pending := rfl
@[simp] theorem State.bumpFlt_out (c : Ctr) (n : Nat) : (s.bumpFlt c n).out = s.out := rfl

/-! ### `State.bumpTb` -/

@[simp] theorem State.bumpTb_board (c : Ctr) (n : Nat) : (s.bumpTb c n).board = s.board := rfl
@[simp] theorem State.bumpTb_fuses (c : Ctr) (n : Nat) : (s.bumpTb c n).fuses = s.fuses := rfl
@[simp] theorem State.bumpTb_flashes (c : Ctr) (n : Nat) : (s.bumpTb c n).flashes = s.flashes := rfl
@[simp] theorem State.bumpTb_boot (c : Ctr) (n : Nat) : (s.bumpTb c n).boot = s.boot := rfl
@[simp] theorem State.bumpTb_host (c : Ctr) (n : Nat) : (s.bumpTb c n).host = s.host := rfl
@[simp] theorem State.bumpTb_fws (c : Ctr) (n : Nat) : (s.bumpTb c n).fws = s.fws := rfl
@[simp] theorem State.bumpTb_upd (c : Ctr) (n : Nat) : (s.bumpTb c n).upd = s.upd := rfl
@[simp] theorem State.bumpTb_flt (c : Ctr) (n : Nat) : (s.bumpTb c n).flt = s.flt := rfl
@[simp] theorem State.bumpTb_hlt (c : Ctr) (n : Nat) : (s.bumpTb c n).hlt = s.hlt := rfl
@[simp] theorem State.bumpTb_parts (c : Ctr) (n : Nat) : (s.bumpTb c n).parts = s.parts := rfl
@[simp] theorem State.bumpTb_ctxs (c : Ctr) (n : Nat) : (s.bumpTb c n).ctxs = s.ctxs := rfl
@[simp] theorem State.bumpTb_fab (c : Ctr) (n : Nat) : (s.bumpTb c n).fab = s.fab := rfl
@[simp] theorem State.bumpTb_lend (c : Ctr) (n : Nat) : (s.bumpTb c n).lend = s.lend := rfl
@[simp] theorem State.bumpTb_mem (c : Ctr) (n : Nat) : (s.bumpTb c n).mem = s.mem := rfl
@[simp] theorem State.bumpTb_ws (c : Ctr) (n : Nat) : (s.bumpTb c n).ws = s.ws := rfl
@[simp] theorem State.bumpTb_posts (c : Ctr) (n : Nat) : (s.bumpTb c n).posts = s.posts := rfl
@[simp] theorem State.bumpTb_seqs (c : Ctr) (n : Nat) : (s.bumpTb c n).seqs = s.seqs := rfl
@[simp] theorem State.bumpTb_cores (c : Ctr) (n : Nat) : (s.bumpTb c n).cores = s.cores := rfl
@[simp] theorem State.bumpTb_floorUsed (c : Ctr) (n : Nat) : (s.bumpTb c n).floorUsed = s.floorUsed := rfl
@[simp] theorem State.bumpTb_poolUsed (c : Ctr) (n : Nat) : (s.bumpTb c n).poolUsed = s.poolUsed := rfl
@[simp] theorem State.bumpTb_ctr (c : Ctr) (n : Nat) : (s.bumpTb c n).ctr = s.ctr := rfl
@[simp] theorem State.bumpTb_freeCtr (c : Ctr) (n : Nat) : (s.bumpTb c n).freeCtr = s.freeCtr := rfl
@[simp] theorem State.bumpTb_lastLog (c : Ctr) (n : Nat) : (s.bumpTb c n).lastLog = s.lastLog := rfl
@[simp] theorem State.bumpTb_poison (c : Ctr) (n : Nat) : (s.bumpTb c n).poison = s.poison := rfl
@[simp] theorem State.bumpTb_pending (c : Ctr) (n : Nat) : (s.bumpTb c n).pending = s.pending := rfl
@[simp] theorem State.bumpTb_out (c : Ctr) (n : Nat) : (s.bumpTb c n).out = s.out := rfl

/-! ### `State.bumpFw` -/

@[simp] theorem State.bumpFw_board (p : Nat) (c : Ctr) (n : Nat) : (s.bumpFw p c n).board = s.board := rfl
@[simp] theorem State.bumpFw_fuses (p : Nat) (c : Ctr) (n : Nat) : (s.bumpFw p c n).fuses = s.fuses := rfl
@[simp] theorem State.bumpFw_flashes (p : Nat) (c : Ctr) (n : Nat) : (s.bumpFw p c n).flashes = s.flashes := rfl
@[simp] theorem State.bumpFw_boot (p : Nat) (c : Ctr) (n : Nat) : (s.bumpFw p c n).boot = s.boot := rfl
@[simp] theorem State.bumpFw_host (p : Nat) (c : Ctr) (n : Nat) : (s.bumpFw p c n).host = s.host := rfl
@[simp] theorem State.bumpFw_upd (p : Nat) (c : Ctr) (n : Nat) : (s.bumpFw p c n).upd = s.upd := rfl
@[simp] theorem State.bumpFw_flt (p : Nat) (c : Ctr) (n : Nat) : (s.bumpFw p c n).flt = s.flt := rfl
@[simp] theorem State.bumpFw_hlt (p : Nat) (c : Ctr) (n : Nat) : (s.bumpFw p c n).hlt = s.hlt := rfl
@[simp] theorem State.bumpFw_tb (p : Nat) (c : Ctr) (n : Nat) : (s.bumpFw p c n).tb = s.tb := rfl
@[simp] theorem State.bumpFw_parts (p : Nat) (c : Ctr) (n : Nat) : (s.bumpFw p c n).parts = s.parts := rfl
@[simp] theorem State.bumpFw_ctxs (p : Nat) (c : Ctr) (n : Nat) : (s.bumpFw p c n).ctxs = s.ctxs := rfl
@[simp] theorem State.bumpFw_fab (p : Nat) (c : Ctr) (n : Nat) : (s.bumpFw p c n).fab = s.fab := rfl
@[simp] theorem State.bumpFw_lend (p : Nat) (c : Ctr) (n : Nat) : (s.bumpFw p c n).lend = s.lend := rfl
@[simp] theorem State.bumpFw_mem (p : Nat) (c : Ctr) (n : Nat) : (s.bumpFw p c n).mem = s.mem := rfl
@[simp] theorem State.bumpFw_ws (p : Nat) (c : Ctr) (n : Nat) : (s.bumpFw p c n).ws = s.ws := rfl
@[simp] theorem State.bumpFw_posts (p : Nat) (c : Ctr) (n : Nat) : (s.bumpFw p c n).posts = s.posts := rfl
@[simp] theorem State.bumpFw_seqs (p : Nat) (c : Ctr) (n : Nat) : (s.bumpFw p c n).seqs = s.seqs := rfl
@[simp] theorem State.bumpFw_cores (p : Nat) (c : Ctr) (n : Nat) : (s.bumpFw p c n).cores = s.cores := rfl
@[simp] theorem State.bumpFw_floorUsed (p : Nat) (c : Ctr) (n : Nat) : (s.bumpFw p c n).floorUsed = s.floorUsed := rfl
@[simp] theorem State.bumpFw_poolUsed (p : Nat) (c : Ctr) (n : Nat) : (s.bumpFw p c n).poolUsed = s.poolUsed := rfl
@[simp] theorem State.bumpFw_ctr (p : Nat) (c : Ctr) (n : Nat) : (s.bumpFw p c n).ctr = s.ctr := rfl
@[simp] theorem State.bumpFw_freeCtr (p : Nat) (c : Ctr) (n : Nat) : (s.bumpFw p c n).freeCtr = s.freeCtr := rfl
@[simp] theorem State.bumpFw_lastLog (p : Nat) (c : Ctr) (n : Nat) : (s.bumpFw p c n).lastLog = s.lastLog := rfl
@[simp] theorem State.bumpFw_poison (p : Nat) (c : Ctr) (n : Nat) : (s.bumpFw p c n).poison = s.poison := rfl
@[simp] theorem State.bumpFw_pending (p : Nat) (c : Ctr) (n : Nat) : (s.bumpFw p c n).pending = s.pending := rfl
@[simp] theorem State.bumpFw_out (p : Nat) (c : Ctr) (n : Nat) : (s.bumpFw p c n).out = s.out := rfl

/-! ### `State.bumpPart` -/

@[simp] theorem State.bumpPart_board (p : Nat) (c : Ctr) (n : Nat) : (s.bumpPart p c n).board = s.board := rfl
@[simp] theorem State.bumpPart_fuses (p : Nat) (c : Ctr) (n : Nat) : (s.bumpPart p c n).fuses = s.fuses := rfl
@[simp] theorem State.bumpPart_flashes (p : Nat) (c : Ctr) (n : Nat) : (s.bumpPart p c n).flashes = s.flashes := rfl
@[simp] theorem State.bumpPart_boot (p : Nat) (c : Ctr) (n : Nat) : (s.bumpPart p c n).boot = s.boot := rfl
@[simp] theorem State.bumpPart_host (p : Nat) (c : Ctr) (n : Nat) : (s.bumpPart p c n).host = s.host := rfl
@[simp] theorem State.bumpPart_fws (p : Nat) (c : Ctr) (n : Nat) : (s.bumpPart p c n).fws = s.fws := rfl
@[simp] theorem State.bumpPart_upd (p : Nat) (c : Ctr) (n : Nat) : (s.bumpPart p c n).upd = s.upd := rfl
@[simp] theorem State.bumpPart_flt (p : Nat) (c : Ctr) (n : Nat) : (s.bumpPart p c n).flt = s.flt := rfl
@[simp] theorem State.bumpPart_hlt (p : Nat) (c : Ctr) (n : Nat) : (s.bumpPart p c n).hlt = s.hlt := rfl
@[simp] theorem State.bumpPart_tb (p : Nat) (c : Ctr) (n : Nat) : (s.bumpPart p c n).tb = s.tb := rfl
@[simp] theorem State.bumpPart_ctxs (p : Nat) (c : Ctr) (n : Nat) : (s.bumpPart p c n).ctxs = s.ctxs := rfl
@[simp] theorem State.bumpPart_fab (p : Nat) (c : Ctr) (n : Nat) : (s.bumpPart p c n).fab = s.fab := rfl
@[simp] theorem State.bumpPart_lend (p : Nat) (c : Ctr) (n : Nat) : (s.bumpPart p c n).lend = s.lend := rfl
@[simp] theorem State.bumpPart_mem (p : Nat) (c : Ctr) (n : Nat) : (s.bumpPart p c n).mem = s.mem := rfl
@[simp] theorem State.bumpPart_ws (p : Nat) (c : Ctr) (n : Nat) : (s.bumpPart p c n).ws = s.ws := rfl
@[simp] theorem State.bumpPart_posts (p : Nat) (c : Ctr) (n : Nat) : (s.bumpPart p c n).posts = s.posts := rfl
@[simp] theorem State.bumpPart_seqs (p : Nat) (c : Ctr) (n : Nat) : (s.bumpPart p c n).seqs = s.seqs := rfl
@[simp] theorem State.bumpPart_cores (p : Nat) (c : Ctr) (n : Nat) : (s.bumpPart p c n).cores = s.cores := rfl
@[simp] theorem State.bumpPart_floorUsed (p : Nat) (c : Ctr) (n : Nat) : (s.bumpPart p c n).floorUsed = s.floorUsed := rfl
@[simp] theorem State.bumpPart_poolUsed (p : Nat) (c : Ctr) (n : Nat) : (s.bumpPart p c n).poolUsed = s.poolUsed := rfl
@[simp] theorem State.bumpPart_ctr (p : Nat) (c : Ctr) (n : Nat) : (s.bumpPart p c n).ctr = s.ctr := rfl
@[simp] theorem State.bumpPart_freeCtr (p : Nat) (c : Ctr) (n : Nat) : (s.bumpPart p c n).freeCtr = s.freeCtr := rfl
@[simp] theorem State.bumpPart_lastLog (p : Nat) (c : Ctr) (n : Nat) : (s.bumpPart p c n).lastLog = s.lastLog := rfl
@[simp] theorem State.bumpPart_poison (p : Nat) (c : Ctr) (n : Nat) : (s.bumpPart p c n).poison = s.poison := rfl
@[simp] theorem State.bumpPart_pending (p : Nat) (c : Ctr) (n : Nat) : (s.bumpPart p c n).pending = s.pending := rfl
@[simp] theorem State.bumpPart_out (p : Nat) (c : Ctr) (n : Nat) : (s.bumpPart p c n).out = s.out := rfl

/-! ### `State.bumpCtx` -/

@[simp] theorem State.bumpCtx_board (x : Nat) (c : Ctr) (n : Nat) : (s.bumpCtx x c n).board = s.board := rfl
@[simp] theorem State.bumpCtx_fuses (x : Nat) (c : Ctr) (n : Nat) : (s.bumpCtx x c n).fuses = s.fuses := rfl
@[simp] theorem State.bumpCtx_flashes (x : Nat) (c : Ctr) (n : Nat) : (s.bumpCtx x c n).flashes = s.flashes := rfl
@[simp] theorem State.bumpCtx_boot (x : Nat) (c : Ctr) (n : Nat) : (s.bumpCtx x c n).boot = s.boot := rfl
@[simp] theorem State.bumpCtx_host (x : Nat) (c : Ctr) (n : Nat) : (s.bumpCtx x c n).host = s.host := rfl
@[simp] theorem State.bumpCtx_fws (x : Nat) (c : Ctr) (n : Nat) : (s.bumpCtx x c n).fws = s.fws := rfl
@[simp] theorem State.bumpCtx_upd (x : Nat) (c : Ctr) (n : Nat) : (s.bumpCtx x c n).upd = s.upd := rfl
@[simp] theorem State.bumpCtx_flt (x : Nat) (c : Ctr) (n : Nat) : (s.bumpCtx x c n).flt = s.flt := rfl
@[simp] theorem State.bumpCtx_hlt (x : Nat) (c : Ctr) (n : Nat) : (s.bumpCtx x c n).hlt = s.hlt := rfl
@[simp] theorem State.bumpCtx_tb (x : Nat) (c : Ctr) (n : Nat) : (s.bumpCtx x c n).tb = s.tb := rfl
@[simp] theorem State.bumpCtx_parts (x : Nat) (c : Ctr) (n : Nat) : (s.bumpCtx x c n).parts = s.parts := rfl
@[simp] theorem State.bumpCtx_fab (x : Nat) (c : Ctr) (n : Nat) : (s.bumpCtx x c n).fab = s.fab := rfl
@[simp] theorem State.bumpCtx_lend (x : Nat) (c : Ctr) (n : Nat) : (s.bumpCtx x c n).lend = s.lend := rfl
@[simp] theorem State.bumpCtx_mem (x : Nat) (c : Ctr) (n : Nat) : (s.bumpCtx x c n).mem = s.mem := rfl
@[simp] theorem State.bumpCtx_ws (x : Nat) (c : Ctr) (n : Nat) : (s.bumpCtx x c n).ws = s.ws := rfl
@[simp] theorem State.bumpCtx_posts (x : Nat) (c : Ctr) (n : Nat) : (s.bumpCtx x c n).posts = s.posts := rfl
@[simp] theorem State.bumpCtx_seqs (x : Nat) (c : Ctr) (n : Nat) : (s.bumpCtx x c n).seqs = s.seqs := rfl
@[simp] theorem State.bumpCtx_cores (x : Nat) (c : Ctr) (n : Nat) : (s.bumpCtx x c n).cores = s.cores := rfl
@[simp] theorem State.bumpCtx_floorUsed (x : Nat) (c : Ctr) (n : Nat) : (s.bumpCtx x c n).floorUsed = s.floorUsed := rfl
@[simp] theorem State.bumpCtx_poolUsed (x : Nat) (c : Ctr) (n : Nat) : (s.bumpCtx x c n).poolUsed = s.poolUsed := rfl
@[simp] theorem State.bumpCtx_ctr (x : Nat) (c : Ctr) (n : Nat) : (s.bumpCtx x c n).ctr = s.ctr := rfl
@[simp] theorem State.bumpCtx_freeCtr (x : Nat) (c : Ctr) (n : Nat) : (s.bumpCtx x c n).freeCtr = s.freeCtr := rfl
@[simp] theorem State.bumpCtx_lastLog (x : Nat) (c : Ctr) (n : Nat) : (s.bumpCtx x c n).lastLog = s.lastLog := rfl
@[simp] theorem State.bumpCtx_poison (x : Nat) (c : Ctr) (n : Nat) : (s.bumpCtx x c n).poison = s.poison := rfl
@[simp] theorem State.bumpCtx_pending (x : Nat) (c : Ctr) (n : Nat) : (s.bumpCtx x c n).pending = s.pending := rfl
@[simp] theorem State.bumpCtx_out (x : Nat) (c : Ctr) (n : Nat) : (s.bumpCtx x c n).out = s.out := rfl

/-! ### `State.onCtx` -/

@[simp] theorem State.onCtx_board (c : Nat) (f : Ctx → Ctx) : (s.onCtx c f).board = s.board := rfl
@[simp] theorem State.onCtx_fuses (c : Nat) (f : Ctx → Ctx) : (s.onCtx c f).fuses = s.fuses := rfl
@[simp] theorem State.onCtx_flashes (c : Nat) (f : Ctx → Ctx) : (s.onCtx c f).flashes = s.flashes := rfl
@[simp] theorem State.onCtx_boot (c : Nat) (f : Ctx → Ctx) : (s.onCtx c f).boot = s.boot := rfl
@[simp] theorem State.onCtx_host (c : Nat) (f : Ctx → Ctx) : (s.onCtx c f).host = s.host := rfl
@[simp] theorem State.onCtx_fws (c : Nat) (f : Ctx → Ctx) : (s.onCtx c f).fws = s.fws := rfl
@[simp] theorem State.onCtx_upd (c : Nat) (f : Ctx → Ctx) : (s.onCtx c f).upd = s.upd := rfl
@[simp] theorem State.onCtx_flt (c : Nat) (f : Ctx → Ctx) : (s.onCtx c f).flt = s.flt := rfl
@[simp] theorem State.onCtx_hlt (c : Nat) (f : Ctx → Ctx) : (s.onCtx c f).hlt = s.hlt := rfl
@[simp] theorem State.onCtx_tb (c : Nat) (f : Ctx → Ctx) : (s.onCtx c f).tb = s.tb := rfl
@[simp] theorem State.onCtx_parts (c : Nat) (f : Ctx → Ctx) : (s.onCtx c f).parts = s.parts := rfl
@[simp] theorem State.onCtx_fab (c : Nat) (f : Ctx → Ctx) : (s.onCtx c f).fab = s.fab := rfl
@[simp] theorem State.onCtx_lend (c : Nat) (f : Ctx → Ctx) : (s.onCtx c f).lend = s.lend := rfl
@[simp] theorem State.onCtx_mem (c : Nat) (f : Ctx → Ctx) : (s.onCtx c f).mem = s.mem := rfl
@[simp] theorem State.onCtx_ws (c : Nat) (f : Ctx → Ctx) : (s.onCtx c f).ws = s.ws := rfl
@[simp] theorem State.onCtx_posts (c : Nat) (f : Ctx → Ctx) : (s.onCtx c f).posts = s.posts := rfl
@[simp] theorem State.onCtx_seqs (c : Nat) (f : Ctx → Ctx) : (s.onCtx c f).seqs = s.seqs := rfl
@[simp] theorem State.onCtx_cores (c : Nat) (f : Ctx → Ctx) : (s.onCtx c f).cores = s.cores := rfl
@[simp] theorem State.onCtx_floorUsed (c : Nat) (f : Ctx → Ctx) : (s.onCtx c f).floorUsed = s.floorUsed := rfl
@[simp] theorem State.onCtx_poolUsed (c : Nat) (f : Ctx → Ctx) : (s.onCtx c f).poolUsed = s.poolUsed := rfl
@[simp] theorem State.onCtx_ctr (c : Nat) (f : Ctx → Ctx) : (s.onCtx c f).ctr = s.ctr := rfl
@[simp] theorem State.onCtx_freeCtr (c : Nat) (f : Ctx → Ctx) : (s.onCtx c f).freeCtr = s.freeCtr := rfl
@[simp] theorem State.onCtx_lastLog (c : Nat) (f : Ctx → Ctx) : (s.onCtx c f).lastLog = s.lastLog := rfl
@[simp] theorem State.onCtx_poison (c : Nat) (f : Ctx → Ctx) : (s.onCtx c f).poison = s.poison := rfl
@[simp] theorem State.onCtx_pending (c : Nat) (f : Ctx → Ctx) : (s.onCtx c f).pending = s.pending := rfl
@[simp] theorem State.onCtx_out (c : Nat) (f : Ctx → Ctx) : (s.onCtx c f).out = s.out := rfl

/-! ### `State.onPart` -/

@[simp] theorem State.onPart_board (p : Nat) (f : Part → Part) : (s.onPart p f).board = s.board := rfl
@[simp] theorem State.onPart_fuses (p : Nat) (f : Part → Part) : (s.onPart p f).fuses = s.fuses := rfl
@[simp] theorem State.onPart_flashes (p : Nat) (f : Part → Part) : (s.onPart p f).flashes = s.flashes := rfl
@[simp] theorem State.onPart_boot (p : Nat) (f : Part → Part) : (s.onPart p f).boot = s.boot := rfl
@[simp] theorem State.onPart_host (p : Nat) (f : Part → Part) : (s.onPart p f).host = s.host := rfl
@[simp] theorem State.onPart_fws (p : Nat) (f : Part → Part) : (s.onPart p f).fws = s.fws := rfl
@[simp] theorem State.onPart_upd (p : Nat) (f : Part → Part) : (s.onPart p f).upd = s.upd := rfl
@[simp] theorem State.onPart_flt (p : Nat) (f : Part → Part) : (s.onPart p f).flt = s.flt := rfl
@[simp] theorem State.onPart_hlt (p : Nat) (f : Part → Part) : (s.onPart p f).hlt = s.hlt := rfl
@[simp] theorem State.onPart_tb (p : Nat) (f : Part → Part) : (s.onPart p f).tb = s.tb := rfl
@[simp] theorem State.onPart_ctxs (p : Nat) (f : Part → Part) : (s.onPart p f).ctxs = s.ctxs := rfl
@[simp] theorem State.onPart_fab (p : Nat) (f : Part → Part) : (s.onPart p f).fab = s.fab := rfl
@[simp] theorem State.onPart_lend (p : Nat) (f : Part → Part) : (s.onPart p f).lend = s.lend := rfl
@[simp] theorem State.onPart_mem (p : Nat) (f : Part → Part) : (s.onPart p f).mem = s.mem := rfl
@[simp] theorem State.onPart_ws (p : Nat) (f : Part → Part) : (s.onPart p f).ws = s.ws := rfl
@[simp] theorem State.onPart_posts (p : Nat) (f : Part → Part) : (s.onPart p f).posts = s.posts := rfl
@[simp] theorem State.onPart_seqs (p : Nat) (f : Part → Part) : (s.onPart p f).seqs = s.seqs := rfl
@[simp] theorem State.onPart_cores (p : Nat) (f : Part → Part) : (s.onPart p f).cores = s.cores := rfl
@[simp] theorem State.onPart_floorUsed (p : Nat) (f : Part → Part) : (s.onPart p f).floorUsed = s.floorUsed := rfl
@[simp] theorem State.onPart_poolUsed (p : Nat) (f : Part → Part) : (s.onPart p f).poolUsed = s.poolUsed := rfl
@[simp] theorem State.onPart_ctr (p : Nat) (f : Part → Part) : (s.onPart p f).ctr = s.ctr := rfl
@[simp] theorem State.onPart_freeCtr (p : Nat) (f : Part → Part) : (s.onPart p f).freeCtr = s.freeCtr := rfl
@[simp] theorem State.onPart_lastLog (p : Nat) (f : Part → Part) : (s.onPart p f).lastLog = s.lastLog := rfl
@[simp] theorem State.onPart_poison (p : Nat) (f : Part → Part) : (s.onPart p f).poison = s.poison := rfl
@[simp] theorem State.onPart_pending (p : Nat) (f : Part → Part) : (s.onPart p f).pending = s.pending := rfl
@[simp] theorem State.onPart_out (p : Nat) (f : Part → Part) : (s.onPart p f).out = s.out := rfl

/-! ### `State.onFw` -/

@[simp] theorem State.onFw_board (n : Nat) (f : Fwp → Fwp) : (s.onFw n f).board = s.board := rfl
@[simp] theorem State.onFw_fuses (n : Nat) (f : Fwp → Fwp) : (s.onFw n f).fuses = s.fuses := rfl
@[simp] theorem State.onFw_flashes (n : Nat) (f : Fwp → Fwp) : (s.onFw n f).flashes = s.flashes := rfl
@[simp] theorem State.onFw_boot (n : Nat) (f : Fwp → Fwp) : (s.onFw n f).boot = s.boot := rfl
@[simp] theorem State.onFw_host (n : Nat) (f : Fwp → Fwp) : (s.onFw n f).host = s.host := rfl
@[simp] theorem State.onFw_upd (n : Nat) (f : Fwp → Fwp) : (s.onFw n f).upd = s.upd := rfl
@[simp] theorem State.onFw_flt (n : Nat) (f : Fwp → Fwp) : (s.onFw n f).flt = s.flt := rfl
@[simp] theorem State.onFw_hlt (n : Nat) (f : Fwp → Fwp) : (s.onFw n f).hlt = s.hlt := rfl
@[simp] theorem State.onFw_tb (n : Nat) (f : Fwp → Fwp) : (s.onFw n f).tb = s.tb := rfl
@[simp] theorem State.onFw_parts (n : Nat) (f : Fwp → Fwp) : (s.onFw n f).parts = s.parts := rfl
@[simp] theorem State.onFw_ctxs (n : Nat) (f : Fwp → Fwp) : (s.onFw n f).ctxs = s.ctxs := rfl
@[simp] theorem State.onFw_fab (n : Nat) (f : Fwp → Fwp) : (s.onFw n f).fab = s.fab := rfl
@[simp] theorem State.onFw_lend (n : Nat) (f : Fwp → Fwp) : (s.onFw n f).lend = s.lend := rfl
@[simp] theorem State.onFw_mem (n : Nat) (f : Fwp → Fwp) : (s.onFw n f).mem = s.mem := rfl
@[simp] theorem State.onFw_ws (n : Nat) (f : Fwp → Fwp) : (s.onFw n f).ws = s.ws := rfl
@[simp] theorem State.onFw_posts (n : Nat) (f : Fwp → Fwp) : (s.onFw n f).posts = s.posts := rfl
@[simp] theorem State.onFw_seqs (n : Nat) (f : Fwp → Fwp) : (s.onFw n f).seqs = s.seqs := rfl
@[simp] theorem State.onFw_cores (n : Nat) (f : Fwp → Fwp) : (s.onFw n f).cores = s.cores := rfl
@[simp] theorem State.onFw_floorUsed (n : Nat) (f : Fwp → Fwp) : (s.onFw n f).floorUsed = s.floorUsed := rfl
@[simp] theorem State.onFw_poolUsed (n : Nat) (f : Fwp → Fwp) : (s.onFw n f).poolUsed = s.poolUsed := rfl
@[simp] theorem State.onFw_ctr (n : Nat) (f : Fwp → Fwp) : (s.onFw n f).ctr = s.ctr := rfl
@[simp] theorem State.onFw_freeCtr (n : Nat) (f : Fwp → Fwp) : (s.onFw n f).freeCtr = s.freeCtr := rfl
@[simp] theorem State.onFw_lastLog (n : Nat) (f : Fwp → Fwp) : (s.onFw n f).lastLog = s.lastLog := rfl
@[simp] theorem State.onFw_poison (n : Nat) (f : Fwp → Fwp) : (s.onFw n f).poison = s.poison := rfl
@[simp] theorem State.onFw_pending (n : Nat) (f : Fwp → Fwp) : (s.onFw n f).pending = s.pending := rfl
@[simp] theorem State.onFw_out (n : Nat) (f : Fwp → Fwp) : (s.onFw n f).out = s.out := rfl

/-! ### `State.onWin` -/

@[simp] theorem State.onWin_board (w : Nat) (f : Win → Win) : (s.onWin w f).board = s.board := rfl
@[simp] theorem State.onWin_fuses (w : Nat) (f : Win → Win) : (s.onWin w f).fuses = s.fuses := rfl
@[simp] theorem State.onWin_flashes (w : Nat) (f : Win → Win) : (s.onWin w f).flashes = s.flashes := rfl
@[simp] theorem State.onWin_boot (w : Nat) (f : Win → Win) : (s.onWin w f).boot = s.boot := rfl
@[simp] theorem State.onWin_fws (w : Nat) (f : Win → Win) : (s.onWin w f).fws = s.fws := rfl
@[simp] theorem State.onWin_upd (w : Nat) (f : Win → Win) : (s.onWin w f).upd = s.upd := rfl
@[simp] theorem State.onWin_flt (w : Nat) (f : Win → Win) : (s.onWin w f).flt = s.flt := rfl
@[simp] theorem State.onWin_hlt (w : Nat) (f : Win → Win) : (s.onWin w f).hlt = s.hlt := rfl
@[simp] theorem State.onWin_tb (w : Nat) (f : Win → Win) : (s.onWin w f).tb = s.tb := rfl
@[simp] theorem State.onWin_parts (w : Nat) (f : Win → Win) : (s.onWin w f).parts = s.parts := rfl
@[simp] theorem State.onWin_ctxs (w : Nat) (f : Win → Win) : (s.onWin w f).ctxs = s.ctxs := rfl
@[simp] theorem State.onWin_fab (w : Nat) (f : Win → Win) : (s.onWin w f).fab = s.fab := rfl
@[simp] theorem State.onWin_lend (w : Nat) (f : Win → Win) : (s.onWin w f).lend = s.lend := rfl
@[simp] theorem State.onWin_mem (w : Nat) (f : Win → Win) : (s.onWin w f).mem = s.mem := rfl
@[simp] theorem State.onWin_ws (w : Nat) (f : Win → Win) : (s.onWin w f).ws = s.ws := rfl
@[simp] theorem State.onWin_posts (w : Nat) (f : Win → Win) : (s.onWin w f).posts = s.posts := rfl
@[simp] theorem State.onWin_seqs (w : Nat) (f : Win → Win) : (s.onWin w f).seqs = s.seqs := rfl
@[simp] theorem State.onWin_cores (w : Nat) (f : Win → Win) : (s.onWin w f).cores = s.cores := rfl
@[simp] theorem State.onWin_floorUsed (w : Nat) (f : Win → Win) : (s.onWin w f).floorUsed = s.floorUsed := rfl
@[simp] theorem State.onWin_poolUsed (w : Nat) (f : Win → Win) : (s.onWin w f).poolUsed = s.poolUsed := rfl
@[simp] theorem State.onWin_ctr (w : Nat) (f : Win → Win) : (s.onWin w f).ctr = s.ctr := rfl
@[simp] theorem State.onWin_freeCtr (w : Nat) (f : Win → Win) : (s.onWin w f).freeCtr = s.freeCtr := rfl
@[simp] theorem State.onWin_lastLog (w : Nat) (f : Win → Win) : (s.onWin w f).lastLog = s.lastLog := rfl
@[simp] theorem State.onWin_poison (w : Nat) (f : Win → Win) : (s.onWin w f).poison = s.poison := rfl
@[simp] theorem State.onWin_pending (w : Nat) (f : Win → Win) : (s.onWin w f).pending = s.pending := rfl
@[simp] theorem State.onWin_out (w : Nat) (f : Win → Win) : (s.onWin w f).out = s.out := rfl

/-! ### `State.onGate` -/

@[simp] theorem State.onGate_board (p g : Nat) (f : Gate → Gate) : (s.onGate p g f).board = s.board := rfl
@[simp] theorem State.onGate_fuses (p g : Nat) (f : Gate → Gate) : (s.onGate p g f).fuses = s.fuses := rfl
@[simp] theorem State.onGate_flashes (p g : Nat) (f : Gate → Gate) : (s.onGate p g f).flashes = s.flashes := rfl
@[simp] theorem State.onGate_boot (p g : Nat) (f : Gate → Gate) : (s.onGate p g f).boot = s.boot := rfl
@[simp] theorem State.onGate_host (p g : Nat) (f : Gate → Gate) : (s.onGate p g f).host = s.host := rfl
@[simp] theorem State.onGate_fws (p g : Nat) (f : Gate → Gate) : (s.onGate p g f).fws = s.fws := rfl
@[simp] theorem State.onGate_upd (p g : Nat) (f : Gate → Gate) : (s.onGate p g f).upd = s.upd := rfl
@[simp] theorem State.onGate_flt (p g : Nat) (f : Gate → Gate) : (s.onGate p g f).flt = s.flt := rfl
@[simp] theorem State.onGate_hlt (p g : Nat) (f : Gate → Gate) : (s.onGate p g f).hlt = s.hlt := rfl
@[simp] theorem State.onGate_tb (p g : Nat) (f : Gate → Gate) : (s.onGate p g f).tb = s.tb := rfl
@[simp] theorem State.onGate_ctxs (p g : Nat) (f : Gate → Gate) : (s.onGate p g f).ctxs = s.ctxs := rfl
@[simp] theorem State.onGate_fab (p g : Nat) (f : Gate → Gate) : (s.onGate p g f).fab = s.fab := rfl
@[simp] theorem State.onGate_lend (p g : Nat) (f : Gate → Gate) : (s.onGate p g f).lend = s.lend := rfl
@[simp] theorem State.onGate_mem (p g : Nat) (f : Gate → Gate) : (s.onGate p g f).mem = s.mem := rfl
@[simp] theorem State.onGate_ws (p g : Nat) (f : Gate → Gate) : (s.onGate p g f).ws = s.ws := rfl
@[simp] theorem State.onGate_posts (p g : Nat) (f : Gate → Gate) : (s.onGate p g f).posts = s.posts := rfl
@[simp] theorem State.onGate_seqs (p g : Nat) (f : Gate → Gate) : (s.onGate p g f).seqs = s.seqs := rfl
@[simp] theorem State.onGate_cores (p g : Nat) (f : Gate → Gate) : (s.onGate p g f).cores = s.cores := rfl
@[simp] theorem State.onGate_floorUsed (p g : Nat) (f : Gate → Gate) : (s.onGate p g f).floorUsed = s.floorUsed := rfl
@[simp] theorem State.onGate_poolUsed (p g : Nat) (f : Gate → Gate) : (s.onGate p g f).poolUsed = s.poolUsed := rfl
@[simp] theorem State.onGate_ctr (p g : Nat) (f : Gate → Gate) : (s.onGate p g f).ctr = s.ctr := rfl
@[simp] theorem State.onGate_freeCtr (p g : Nat) (f : Gate → Gate) : (s.onGate p g f).freeCtr = s.freeCtr := rfl
@[simp] theorem State.onGate_lastLog (p g : Nat) (f : Gate → Gate) : (s.onGate p g f).lastLog = s.lastLog := rfl
@[simp] theorem State.onGate_poison (p g : Nat) (f : Gate → Gate) : (s.onGate p g f).poison = s.poison := rfl
@[simp] theorem State.onGate_pending (p g : Nat) (f : Gate → Gate) : (s.onGate p g f).pending = s.pending := rfl
@[simp] theorem State.onGate_out (p g : Nat) (f : Gate → Gate) : (s.onGate p g f).out = s.out := rfl

/-! ### `State.toll` -/

@[simp] theorem State.toll_board (p g n : Nat) : (s.toll p g n).board = s.board := rfl
@[simp] theorem State.toll_fuses (p g n : Nat) : (s.toll p g n).fuses = s.fuses := rfl
@[simp] theorem State.toll_flashes (p g n : Nat) : (s.toll p g n).flashes = s.flashes := rfl
@[simp] theorem State.toll_boot (p g n : Nat) : (s.toll p g n).boot = s.boot := rfl
@[simp] theorem State.toll_host (p g n : Nat) : (s.toll p g n).host = s.host := rfl
@[simp] theorem State.toll_fws (p g n : Nat) : (s.toll p g n).fws = s.fws := rfl
@[simp] theorem State.toll_upd (p g n : Nat) : (s.toll p g n).upd = s.upd := rfl
@[simp] theorem State.toll_flt (p g n : Nat) : (s.toll p g n).flt = s.flt := rfl
@[simp] theorem State.toll_hlt (p g n : Nat) : (s.toll p g n).hlt = s.hlt := rfl
@[simp] theorem State.toll_tb (p g n : Nat) : (s.toll p g n).tb = s.tb := rfl
@[simp] theorem State.toll_ctxs (p g n : Nat) : (s.toll p g n).ctxs = s.ctxs := rfl
@[simp] theorem State.toll_fab (p g n : Nat) : (s.toll p g n).fab = s.fab := rfl
@[simp] theorem State.toll_lend (p g n : Nat) : (s.toll p g n).lend = s.lend := rfl
@[simp] theorem State.toll_mem (p g n : Nat) : (s.toll p g n).mem = s.mem := rfl
@[simp] theorem State.toll_ws (p g n : Nat) : (s.toll p g n).ws = s.ws := rfl
@[simp] theorem State.toll_posts (p g n : Nat) : (s.toll p g n).posts = s.posts := rfl
@[simp] theorem State.toll_seqs (p g n : Nat) : (s.toll p g n).seqs = s.seqs := rfl
@[simp] theorem State.toll_cores (p g n : Nat) : (s.toll p g n).cores = s.cores := rfl
@[simp] theorem State.toll_floorUsed (p g n : Nat) : (s.toll p g n).floorUsed = s.floorUsed := rfl
@[simp] theorem State.toll_poolUsed (p g n : Nat) : (s.toll p g n).poolUsed = s.poolUsed := rfl
@[simp] theorem State.toll_ctr (p g n : Nat) : (s.toll p g n).ctr = s.ctr := rfl
@[simp] theorem State.toll_freeCtr (p g n : Nat) : (s.toll p g n).freeCtr = s.freeCtr := rfl
@[simp] theorem State.toll_lastLog (p g n : Nat) : (s.toll p g n).lastLog = s.lastLog := rfl
@[simp] theorem State.toll_poison (p g n : Nat) : (s.toll p g n).poison = s.poison := rfl
@[simp] theorem State.toll_pending (p g n : Nat) : (s.toll p g n).pending = s.pending := rfl
@[simp] theorem State.toll_out (p g n : Nat) : (s.toll p g n).out = s.out := rfl

/-! ### `State.tollWait` -/

@[simp] theorem State.tollWait_board (p g : Nat) : (s.tollWait p g).board = s.board := rfl
@[simp] theorem State.tollWait_fuses (p g : Nat) : (s.tollWait p g).fuses = s.fuses := rfl
@[simp] theorem State.tollWait_flashes (p g : Nat) : (s.tollWait p g).flashes = s.flashes := rfl
@[simp] theorem State.tollWait_boot (p g : Nat) : (s.tollWait p g).boot = s.boot := rfl
@[simp] theorem State.tollWait_host (p g : Nat) : (s.tollWait p g).host = s.host := rfl
@[simp] theorem State.tollWait_fws (p g : Nat) : (s.tollWait p g).fws = s.fws := rfl
@[simp] theorem State.tollWait_upd (p g : Nat) : (s.tollWait p g).upd = s.upd := rfl
@[simp] theorem State.tollWait_flt (p g : Nat) : (s.tollWait p g).flt = s.flt := rfl
@[simp] theorem State.tollWait_hlt (p g : Nat) : (s.tollWait p g).hlt = s.hlt := rfl
@[simp] theorem State.tollWait_tb (p g : Nat) : (s.tollWait p g).tb = s.tb := rfl
@[simp] theorem State.tollWait_ctxs (p g : Nat) : (s.tollWait p g).ctxs = s.ctxs := rfl
@[simp] theorem State.tollWait_fab (p g : Nat) : (s.tollWait p g).fab = s.fab := rfl
@[simp] theorem State.tollWait_lend (p g : Nat) : (s.tollWait p g).lend = s.lend := rfl
@[simp] theorem State.tollWait_mem (p g : Nat) : (s.tollWait p g).mem = s.mem := rfl
@[simp] theorem State.tollWait_ws (p g : Nat) : (s.tollWait p g).ws = s.ws := rfl
@[simp] theorem State.tollWait_posts (p g : Nat) : (s.tollWait p g).posts = s.posts := rfl
@[simp] theorem State.tollWait_seqs (p g : Nat) : (s.tollWait p g).seqs = s.seqs := rfl
@[simp] theorem State.tollWait_cores (p g : Nat) : (s.tollWait p g).cores = s.cores := rfl
@[simp] theorem State.tollWait_floorUsed (p g : Nat) : (s.tollWait p g).floorUsed = s.floorUsed := rfl
@[simp] theorem State.tollWait_poolUsed (p g : Nat) : (s.tollWait p g).poolUsed = s.poolUsed := rfl
@[simp] theorem State.tollWait_ctr (p g : Nat) : (s.tollWait p g).ctr = s.ctr := rfl
@[simp] theorem State.tollWait_freeCtr (p g : Nat) : (s.tollWait p g).freeCtr = s.freeCtr := rfl
@[simp] theorem State.tollWait_lastLog (p g : Nat) : (s.tollWait p g).lastLog = s.lastLog := rfl
@[simp] theorem State.tollWait_poison (p g : Nat) : (s.tollWait p g).poison = s.poison := rfl
@[simp] theorem State.tollWait_pending (p g : Nat) : (s.tollWait p g).pending = s.pending := rfl
@[simp] theorem State.tollWait_out (p g : Nat) : (s.tollWait p g).out = s.out := rfl

/-! ### `State.emit` -/

@[simp] theorem State.emit_board (o : Out) : (s.emit o).board = s.board := rfl
@[simp] theorem State.emit_fuses (o : Out) : (s.emit o).fuses = s.fuses := rfl
@[simp] theorem State.emit_flashes (o : Out) : (s.emit o).flashes = s.flashes := rfl
@[simp] theorem State.emit_boot (o : Out) : (s.emit o).boot = s.boot := rfl
@[simp] theorem State.emit_host (o : Out) : (s.emit o).host = s.host := rfl
@[simp] theorem State.emit_fws (o : Out) : (s.emit o).fws = s.fws := rfl
@[simp] theorem State.emit_upd (o : Out) : (s.emit o).upd = s.upd := rfl
@[simp] theorem State.emit_flt (o : Out) : (s.emit o).flt = s.flt := rfl
@[simp] theorem State.emit_hlt (o : Out) : (s.emit o).hlt = s.hlt := rfl
@[simp] theorem State.emit_tb (o : Out) : (s.emit o).tb = s.tb := rfl
@[simp] theorem State.emit_parts (o : Out) : (s.emit o).parts = s.parts := rfl
@[simp] theorem State.emit_ctxs (o : Out) : (s.emit o).ctxs = s.ctxs := rfl
@[simp] theorem State.emit_fab (o : Out) : (s.emit o).fab = s.fab := rfl
@[simp] theorem State.emit_lend (o : Out) : (s.emit o).lend = s.lend := rfl
@[simp] theorem State.emit_mem (o : Out) : (s.emit o).mem = s.mem := rfl
@[simp] theorem State.emit_ws (o : Out) : (s.emit o).ws = s.ws := rfl
@[simp] theorem State.emit_posts (o : Out) : (s.emit o).posts = s.posts := rfl
@[simp] theorem State.emit_seqs (o : Out) : (s.emit o).seqs = s.seqs := rfl
@[simp] theorem State.emit_cores (o : Out) : (s.emit o).cores = s.cores := rfl
@[simp] theorem State.emit_floorUsed (o : Out) : (s.emit o).floorUsed = s.floorUsed := rfl
@[simp] theorem State.emit_poolUsed (o : Out) : (s.emit o).poolUsed = s.poolUsed := rfl
@[simp] theorem State.emit_ctr (o : Out) : (s.emit o).ctr = s.ctr := rfl
@[simp] theorem State.emit_freeCtr (o : Out) : (s.emit o).freeCtr = s.freeCtr := rfl
@[simp] theorem State.emit_lastLog (o : Out) : (s.emit o).lastLog = s.lastLog := rfl
@[simp] theorem State.emit_poison (o : Out) : (s.emit o).poison = s.poison := rfl
@[simp] theorem State.emit_pending (o : Out) : (s.emit o).pending = s.pending := rfl

/-! ### `State.writeAt` -/

@[simp] theorem State.writeAt_board (a : Nat) (bs : List Byte) : (s.writeAt a bs).board = s.board := rfl
@[simp] theorem State.writeAt_fuses (a : Nat) (bs : List Byte) : (s.writeAt a bs).fuses = s.fuses := rfl
@[simp] theorem State.writeAt_flashes (a : Nat) (bs : List Byte) : (s.writeAt a bs).flashes = s.flashes := rfl
@[simp] theorem State.writeAt_boot (a : Nat) (bs : List Byte) : (s.writeAt a bs).boot = s.boot := rfl
@[simp] theorem State.writeAt_host (a : Nat) (bs : List Byte) : (s.writeAt a bs).host = s.host := rfl
@[simp] theorem State.writeAt_fws (a : Nat) (bs : List Byte) : (s.writeAt a bs).fws = s.fws := rfl
@[simp] theorem State.writeAt_upd (a : Nat) (bs : List Byte) : (s.writeAt a bs).upd = s.upd := rfl
@[simp] theorem State.writeAt_flt (a : Nat) (bs : List Byte) : (s.writeAt a bs).flt = s.flt := rfl
@[simp] theorem State.writeAt_hlt (a : Nat) (bs : List Byte) : (s.writeAt a bs).hlt = s.hlt := rfl
@[simp] theorem State.writeAt_tb (a : Nat) (bs : List Byte) : (s.writeAt a bs).tb = s.tb := rfl
@[simp] theorem State.writeAt_parts (a : Nat) (bs : List Byte) : (s.writeAt a bs).parts = s.parts := rfl
@[simp] theorem State.writeAt_ctxs (a : Nat) (bs : List Byte) : (s.writeAt a bs).ctxs = s.ctxs := rfl
@[simp] theorem State.writeAt_fab (a : Nat) (bs : List Byte) : (s.writeAt a bs).fab = s.fab := rfl
@[simp] theorem State.writeAt_lend (a : Nat) (bs : List Byte) : (s.writeAt a bs).lend = s.lend := rfl
@[simp] theorem State.writeAt_ws (a : Nat) (bs : List Byte) : (s.writeAt a bs).ws = s.ws := rfl
@[simp] theorem State.writeAt_posts (a : Nat) (bs : List Byte) : (s.writeAt a bs).posts = s.posts := rfl
@[simp] theorem State.writeAt_seqs (a : Nat) (bs : List Byte) : (s.writeAt a bs).seqs = s.seqs := rfl
@[simp] theorem State.writeAt_cores (a : Nat) (bs : List Byte) : (s.writeAt a bs).cores = s.cores := rfl
@[simp] theorem State.writeAt_floorUsed (a : Nat) (bs : List Byte) : (s.writeAt a bs).floorUsed = s.floorUsed := rfl
@[simp] theorem State.writeAt_poolUsed (a : Nat) (bs : List Byte) : (s.writeAt a bs).poolUsed = s.poolUsed := rfl
@[simp] theorem State.writeAt_ctr (a : Nat) (bs : List Byte) : (s.writeAt a bs).ctr = s.ctr := rfl
@[simp] theorem State.writeAt_freeCtr (a : Nat) (bs : List Byte) : (s.writeAt a bs).freeCtr = s.freeCtr := rfl
@[simp] theorem State.writeAt_lastLog (a : Nat) (bs : List Byte) : (s.writeAt a bs).lastLog = s.lastLog := rfl
@[simp] theorem State.writeAt_poison (a : Nat) (bs : List Byte) : (s.writeAt a bs).poison = s.poison := rfl
@[simp] theorem State.writeAt_pending (a : Nat) (bs : List Byte) : (s.writeAt a bs).pending = s.pending := rfl
@[simp] theorem State.writeAt_out (a : Nat) (bs : List Byte) : (s.writeAt a bs).out = s.out := rfl

/-! ### `State.raise` -/

@[simp] theorem State.raise_board (a b c d e f : Nat) : (s.raise a b c d e f).board = s.board := rfl
@[simp] theorem State.raise_fuses (a b c d e f : Nat) : (s.raise a b c d e f).fuses = s.fuses := rfl
@[simp] theorem State.raise_flashes (a b c d e f : Nat) : (s.raise a b c d e f).flashes = s.flashes := rfl
@[simp] theorem State.raise_boot (a b c d e f : Nat) : (s.raise a b c d e f).boot = s.boot := rfl
@[simp] theorem State.raise_host (a b c d e f : Nat) : (s.raise a b c d e f).host = s.host := rfl
@[simp] theorem State.raise_fws (a b c d e f : Nat) : (s.raise a b c d e f).fws = s.fws := rfl
@[simp] theorem State.raise_upd (a b c d e f : Nat) : (s.raise a b c d e f).upd = s.upd := rfl
@[simp] theorem State.raise_hlt (a b c d e f : Nat) : (s.raise a b c d e f).hlt = s.hlt := rfl
@[simp] theorem State.raise_tb (a b c d e f : Nat) : (s.raise a b c d e f).tb = s.tb := rfl
@[simp] theorem State.raise_parts (a b c d e f : Nat) : (s.raise a b c d e f).parts = s.parts := rfl
@[simp] theorem State.raise_ctxs (a b c d e f : Nat) : (s.raise a b c d e f).ctxs = s.ctxs := rfl
@[simp] theorem State.raise_fab (a b c d e f : Nat) : (s.raise a b c d e f).fab = s.fab := rfl
@[simp] theorem State.raise_lend (a b c d e f : Nat) : (s.raise a b c d e f).lend = s.lend := rfl
@[simp] theorem State.raise_mem (a b c d e f : Nat) : (s.raise a b c d e f).mem = s.mem := rfl
@[simp] theorem State.raise_ws (a b c d e f : Nat) : (s.raise a b c d e f).ws = s.ws := rfl
@[simp] theorem State.raise_posts (a b c d e f : Nat) : (s.raise a b c d e f).posts = s.posts := rfl
@[simp] theorem State.raise_seqs (a b c d e f : Nat) : (s.raise a b c d e f).seqs = s.seqs := rfl
@[simp] theorem State.raise_cores (a b c d e f : Nat) : (s.raise a b c d e f).cores = s.cores := rfl
@[simp] theorem State.raise_floorUsed (a b c d e f : Nat) : (s.raise a b c d e f).floorUsed = s.floorUsed := rfl
@[simp] theorem State.raise_poolUsed (a b c d e f : Nat) : (s.raise a b c d e f).poolUsed = s.poolUsed := rfl
@[simp] theorem State.raise_ctr (a b c d e f : Nat) : (s.raise a b c d e f).ctr = s.ctr := rfl
@[simp] theorem State.raise_freeCtr (a b c d e f : Nat) : (s.raise a b c d e f).freeCtr = s.freeCtr := rfl
@[simp] theorem State.raise_lastLog (a b c d e f : Nat) : (s.raise a b c d e f).lastLog = s.lastLog := rfl
@[simp] theorem State.raise_poison (a b c d e f : Nat) : (s.raise a b c d e f).poison = s.poison := rfl
@[simp] theorem State.raise_pending (a b c d e f : Nat) : (s.raise a b c d e f).pending = s.pending := rfl
@[simp] theorem State.raise_out (a b c d e f : Nat) : (s.raise a b c d e f).out = s.out := rfl

/-! ### `State.setPhase` -/

@[simp] theorem State.setPhase_board (m : Msg) (p : Phase) : (s.setPhase m p).board = s.board := rfl
@[simp] theorem State.setPhase_fuses (m : Msg) (p : Phase) : (s.setPhase m p).fuses = s.fuses := rfl
@[simp] theorem State.setPhase_flashes (m : Msg) (p : Phase) : (s.setPhase m p).flashes = s.flashes := rfl
@[simp] theorem State.setPhase_boot (m : Msg) (p : Phase) : (s.setPhase m p).boot = s.boot := rfl
@[simp] theorem State.setPhase_fws (m : Msg) (p : Phase) : (s.setPhase m p).fws = s.fws := rfl
@[simp] theorem State.setPhase_upd (m : Msg) (p : Phase) : (s.setPhase m p).upd = s.upd := rfl
@[simp] theorem State.setPhase_flt (m : Msg) (p : Phase) : (s.setPhase m p).flt = s.flt := rfl
@[simp] theorem State.setPhase_hlt (m : Msg) (p : Phase) : (s.setPhase m p).hlt = s.hlt := rfl
@[simp] theorem State.setPhase_tb (m : Msg) (p : Phase) : (s.setPhase m p).tb = s.tb := rfl
@[simp] theorem State.setPhase_parts (m : Msg) (p : Phase) : (s.setPhase m p).parts = s.parts := rfl
@[simp] theorem State.setPhase_ctxs (m : Msg) (p : Phase) : (s.setPhase m p).ctxs = s.ctxs := rfl
@[simp] theorem State.setPhase_fab (m : Msg) (p : Phase) : (s.setPhase m p).fab = s.fab := rfl
@[simp] theorem State.setPhase_lend (m : Msg) (p : Phase) : (s.setPhase m p).lend = s.lend := rfl
@[simp] theorem State.setPhase_mem (m : Msg) (p : Phase) : (s.setPhase m p).mem = s.mem := rfl
@[simp] theorem State.setPhase_ws (m : Msg) (p : Phase) : (s.setPhase m p).ws = s.ws := rfl
@[simp] theorem State.setPhase_posts (m : Msg) (p : Phase) : (s.setPhase m p).posts = s.posts := rfl
@[simp] theorem State.setPhase_seqs (m : Msg) (p : Phase) : (s.setPhase m p).seqs = s.seqs := rfl
@[simp] theorem State.setPhase_cores (m : Msg) (p : Phase) : (s.setPhase m p).cores = s.cores := rfl
@[simp] theorem State.setPhase_floorUsed (m : Msg) (p : Phase) : (s.setPhase m p).floorUsed = s.floorUsed := rfl
@[simp] theorem State.setPhase_poolUsed (m : Msg) (p : Phase) : (s.setPhase m p).poolUsed = s.poolUsed := rfl
@[simp] theorem State.setPhase_ctr (m : Msg) (p : Phase) : (s.setPhase m p).ctr = s.ctr := rfl
@[simp] theorem State.setPhase_freeCtr (m : Msg) (p : Phase) : (s.setPhase m p).freeCtr = s.freeCtr := rfl
@[simp] theorem State.setPhase_lastLog (m : Msg) (p : Phase) : (s.setPhase m p).lastLog = s.lastLog := rfl
@[simp] theorem State.setPhase_poison (m : Msg) (p : Phase) : (s.setPhase m p).poison = s.poison := rfl
@[simp] theorem State.setPhase_pending (m : Msg) (p : Phase) : (s.setPhase m p).pending = s.pending := rfl
@[simp] theorem State.setPhase_out (m : Msg) (p : Phase) : (s.setPhase m p).out = s.out := rfl

/-! ### `State.onPort` -/

@[simp] theorem State.onPort_board (p : Nat) (f : Port → Port) : (s.onPort p f).board = s.board := rfl
@[simp] theorem State.onPort_fuses (p : Nat) (f : Port → Port) : (s.onPort p f).fuses = s.fuses := rfl
@[simp] theorem State.onPort_flashes (p : Nat) (f : Port → Port) : (s.onPort p f).flashes = s.flashes := rfl
@[simp] theorem State.onPort_boot (p : Nat) (f : Port → Port) : (s.onPort p f).boot = s.boot := rfl
@[simp] theorem State.onPort_host (p : Nat) (f : Port → Port) : (s.onPort p f).host = s.host := rfl
@[simp] theorem State.onPort_fws (p : Nat) (f : Port → Port) : (s.onPort p f).fws = s.fws := rfl
@[simp] theorem State.onPort_upd (p : Nat) (f : Port → Port) : (s.onPort p f).upd = s.upd := rfl
@[simp] theorem State.onPort_flt (p : Nat) (f : Port → Port) : (s.onPort p f).flt = s.flt := rfl
@[simp] theorem State.onPort_hlt (p : Nat) (f : Port → Port) : (s.onPort p f).hlt = s.hlt := rfl
@[simp] theorem State.onPort_tb (p : Nat) (f : Port → Port) : (s.onPort p f).tb = s.tb := rfl
@[simp] theorem State.onPort_parts (p : Nat) (f : Port → Port) : (s.onPort p f).parts = s.parts := rfl
@[simp] theorem State.onPort_ctxs (p : Nat) (f : Port → Port) : (s.onPort p f).ctxs = s.ctxs := rfl
@[simp] theorem State.onPort_lend (p : Nat) (f : Port → Port) : (s.onPort p f).lend = s.lend := rfl
@[simp] theorem State.onPort_mem (p : Nat) (f : Port → Port) : (s.onPort p f).mem = s.mem := rfl
@[simp] theorem State.onPort_ws (p : Nat) (f : Port → Port) : (s.onPort p f).ws = s.ws := rfl
@[simp] theorem State.onPort_posts (p : Nat) (f : Port → Port) : (s.onPort p f).posts = s.posts := rfl
@[simp] theorem State.onPort_seqs (p : Nat) (f : Port → Port) : (s.onPort p f).seqs = s.seqs := rfl
@[simp] theorem State.onPort_cores (p : Nat) (f : Port → Port) : (s.onPort p f).cores = s.cores := rfl
@[simp] theorem State.onPort_floorUsed (p : Nat) (f : Port → Port) : (s.onPort p f).floorUsed = s.floorUsed := rfl
@[simp] theorem State.onPort_poolUsed (p : Nat) (f : Port → Port) : (s.onPort p f).poolUsed = s.poolUsed := rfl
@[simp] theorem State.onPort_ctr (p : Nat) (f : Port → Port) : (s.onPort p f).ctr = s.ctr := rfl
@[simp] theorem State.onPort_freeCtr (p : Nat) (f : Port → Port) : (s.onPort p f).freeCtr = s.freeCtr := rfl
@[simp] theorem State.onPort_lastLog (p : Nat) (f : Port → Port) : (s.onPort p f).lastLog = s.lastLog := rfl
@[simp] theorem State.onPort_poison (p : Nat) (f : Port → Port) : (s.onPort p f).poison = s.poison := rfl
@[simp] theorem State.onPort_pending (p : Nat) (f : Port → Port) : (s.onPort p f).pending = s.pending := rfl
@[simp] theorem State.onPort_out (p : Nat) (f : Port → Port) : (s.onPort p f).out = s.out := rfl

/-! ### `State.onSeq` -/

@[simp] theorem State.onSeq_board (q : Nat) (f : Seq → Seq) : (s.onSeq q f).board = s.board := rfl
@[simp] theorem State.onSeq_fuses (q : Nat) (f : Seq → Seq) : (s.onSeq q f).fuses = s.fuses := rfl
@[simp] theorem State.onSeq_flashes (q : Nat) (f : Seq → Seq) : (s.onSeq q f).flashes = s.flashes := rfl
@[simp] theorem State.onSeq_boot (q : Nat) (f : Seq → Seq) : (s.onSeq q f).boot = s.boot := rfl
@[simp] theorem State.onSeq_host (q : Nat) (f : Seq → Seq) : (s.onSeq q f).host = s.host := rfl
@[simp] theorem State.onSeq_fws (q : Nat) (f : Seq → Seq) : (s.onSeq q f).fws = s.fws := rfl
@[simp] theorem State.onSeq_upd (q : Nat) (f : Seq → Seq) : (s.onSeq q f).upd = s.upd := rfl
@[simp] theorem State.onSeq_flt (q : Nat) (f : Seq → Seq) : (s.onSeq q f).flt = s.flt := rfl
@[simp] theorem State.onSeq_hlt (q : Nat) (f : Seq → Seq) : (s.onSeq q f).hlt = s.hlt := rfl
@[simp] theorem State.onSeq_tb (q : Nat) (f : Seq → Seq) : (s.onSeq q f).tb = s.tb := rfl
@[simp] theorem State.onSeq_parts (q : Nat) (f : Seq → Seq) : (s.onSeq q f).parts = s.parts := rfl
@[simp] theorem State.onSeq_ctxs (q : Nat) (f : Seq → Seq) : (s.onSeq q f).ctxs = s.ctxs := rfl
@[simp] theorem State.onSeq_fab (q : Nat) (f : Seq → Seq) : (s.onSeq q f).fab = s.fab := rfl
@[simp] theorem State.onSeq_lend (q : Nat) (f : Seq → Seq) : (s.onSeq q f).lend = s.lend := rfl
@[simp] theorem State.onSeq_mem (q : Nat) (f : Seq → Seq) : (s.onSeq q f).mem = s.mem := rfl
@[simp] theorem State.onSeq_ws (q : Nat) (f : Seq → Seq) : (s.onSeq q f).ws = s.ws := rfl
@[simp] theorem State.onSeq_posts (q : Nat) (f : Seq → Seq) : (s.onSeq q f).posts = s.posts := rfl
@[simp] theorem State.onSeq_cores (q : Nat) (f : Seq → Seq) : (s.onSeq q f).cores = s.cores := rfl
@[simp] theorem State.onSeq_floorUsed (q : Nat) (f : Seq → Seq) : (s.onSeq q f).floorUsed = s.floorUsed := rfl
@[simp] theorem State.onSeq_poolUsed (q : Nat) (f : Seq → Seq) : (s.onSeq q f).poolUsed = s.poolUsed := rfl
@[simp] theorem State.onSeq_ctr (q : Nat) (f : Seq → Seq) : (s.onSeq q f).ctr = s.ctr := rfl
@[simp] theorem State.onSeq_freeCtr (q : Nat) (f : Seq → Seq) : (s.onSeq q f).freeCtr = s.freeCtr := rfl
@[simp] theorem State.onSeq_lastLog (q : Nat) (f : Seq → Seq) : (s.onSeq q f).lastLog = s.lastLog := rfl
@[simp] theorem State.onSeq_poison (q : Nat) (f : Seq → Seq) : (s.onSeq q f).poison = s.poison := rfl
@[simp] theorem State.onSeq_pending (q : Nat) (f : Seq → Seq) : (s.onSeq q f).pending = s.pending := rfl
@[simp] theorem State.onSeq_out (q : Nat) (f : Seq → Seq) : (s.onSeq q f).out = s.out := rfl

/-! ### `State.onWs` -/

@[simp] theorem State.onWs_board (w : Nat) (f : Ws → Ws) : (s.onWs w f).board = s.board := rfl
@[simp] theorem State.onWs_fuses (w : Nat) (f : Ws → Ws) : (s.onWs w f).fuses = s.fuses := rfl
@[simp] theorem State.onWs_flashes (w : Nat) (f : Ws → Ws) : (s.onWs w f).flashes = s.flashes := rfl
@[simp] theorem State.onWs_boot (w : Nat) (f : Ws → Ws) : (s.onWs w f).boot = s.boot := rfl
@[simp] theorem State.onWs_host (w : Nat) (f : Ws → Ws) : (s.onWs w f).host = s.host := rfl
@[simp] theorem State.onWs_fws (w : Nat) (f : Ws → Ws) : (s.onWs w f).fws = s.fws := rfl
@[simp] theorem State.onWs_upd (w : Nat) (f : Ws → Ws) : (s.onWs w f).upd = s.upd := rfl
@[simp] theorem State.onWs_flt (w : Nat) (f : Ws → Ws) : (s.onWs w f).flt = s.flt := rfl
@[simp] theorem State.onWs_hlt (w : Nat) (f : Ws → Ws) : (s.onWs w f).hlt = s.hlt := rfl
@[simp] theorem State.onWs_tb (w : Nat) (f : Ws → Ws) : (s.onWs w f).tb = s.tb := rfl
@[simp] theorem State.onWs_parts (w : Nat) (f : Ws → Ws) : (s.onWs w f).parts = s.parts := rfl
@[simp] theorem State.onWs_ctxs (w : Nat) (f : Ws → Ws) : (s.onWs w f).ctxs = s.ctxs := rfl
@[simp] theorem State.onWs_fab (w : Nat) (f : Ws → Ws) : (s.onWs w f).fab = s.fab := rfl
@[simp] theorem State.onWs_lend (w : Nat) (f : Ws → Ws) : (s.onWs w f).lend = s.lend := rfl
@[simp] theorem State.onWs_mem (w : Nat) (f : Ws → Ws) : (s.onWs w f).mem = s.mem := rfl
@[simp] theorem State.onWs_posts (w : Nat) (f : Ws → Ws) : (s.onWs w f).posts = s.posts := rfl
@[simp] theorem State.onWs_seqs (w : Nat) (f : Ws → Ws) : (s.onWs w f).seqs = s.seqs := rfl
@[simp] theorem State.onWs_cores (w : Nat) (f : Ws → Ws) : (s.onWs w f).cores = s.cores := rfl
@[simp] theorem State.onWs_floorUsed (w : Nat) (f : Ws → Ws) : (s.onWs w f).floorUsed = s.floorUsed := rfl
@[simp] theorem State.onWs_poolUsed (w : Nat) (f : Ws → Ws) : (s.onWs w f).poolUsed = s.poolUsed := rfl
@[simp] theorem State.onWs_ctr (w : Nat) (f : Ws → Ws) : (s.onWs w f).ctr = s.ctr := rfl
@[simp] theorem State.onWs_freeCtr (w : Nat) (f : Ws → Ws) : (s.onWs w f).freeCtr = s.freeCtr := rfl
@[simp] theorem State.onWs_lastLog (w : Nat) (f : Ws → Ws) : (s.onWs w f).lastLog = s.lastLog := rfl
@[simp] theorem State.onWs_poison (w : Nat) (f : Ws → Ws) : (s.onWs w f).poison = s.poison := rfl
@[simp] theorem State.onWs_pending (w : Nat) (f : Ws → Ws) : (s.onWs w f).pending = s.pending := rfl
@[simp] theorem State.onWs_out (w : Nat) (f : Ws → Ws) : (s.onWs w f).out = s.out := rfl

/-! ### `State.onPost` -/

@[simp] theorem State.onPost_board (t : Nat) (f : Post → Post) : (s.onPost t f).board = s.board := rfl
@[simp] theorem State.onPost_fuses (t : Nat) (f : Post → Post) : (s.onPost t f).fuses = s.fuses := rfl
@[simp] theorem State.onPost_flashes (t : Nat) (f : Post → Post) : (s.onPost t f).flashes = s.flashes := rfl
@[simp] theorem State.onPost_boot (t : Nat) (f : Post → Post) : (s.onPost t f).boot = s.boot := rfl
@[simp] theorem State.onPost_host (t : Nat) (f : Post → Post) : (s.onPost t f).host = s.host := rfl
@[simp] theorem State.onPost_fws (t : Nat) (f : Post → Post) : (s.onPost t f).fws = s.fws := rfl
@[simp] theorem State.onPost_upd (t : Nat) (f : Post → Post) : (s.onPost t f).upd = s.upd := rfl
@[simp] theorem State.onPost_flt (t : Nat) (f : Post → Post) : (s.onPost t f).flt = s.flt := rfl
@[simp] theorem State.onPost_hlt (t : Nat) (f : Post → Post) : (s.onPost t f).hlt = s.hlt := rfl
@[simp] theorem State.onPost_tb (t : Nat) (f : Post → Post) : (s.onPost t f).tb = s.tb := rfl
@[simp] theorem State.onPost_parts (t : Nat) (f : Post → Post) : (s.onPost t f).parts = s.parts := rfl
@[simp] theorem State.onPost_ctxs (t : Nat) (f : Post → Post) : (s.onPost t f).ctxs = s.ctxs := rfl
@[simp] theorem State.onPost_fab (t : Nat) (f : Post → Post) : (s.onPost t f).fab = s.fab := rfl
@[simp] theorem State.onPost_lend (t : Nat) (f : Post → Post) : (s.onPost t f).lend = s.lend := rfl
@[simp] theorem State.onPost_mem (t : Nat) (f : Post → Post) : (s.onPost t f).mem = s.mem := rfl
@[simp] theorem State.onPost_ws (t : Nat) (f : Post → Post) : (s.onPost t f).ws = s.ws := rfl
@[simp] theorem State.onPost_seqs (t : Nat) (f : Post → Post) : (s.onPost t f).seqs = s.seqs := rfl
@[simp] theorem State.onPost_cores (t : Nat) (f : Post → Post) : (s.onPost t f).cores = s.cores := rfl
@[simp] theorem State.onPost_floorUsed (t : Nat) (f : Post → Post) : (s.onPost t f).floorUsed = s.floorUsed := rfl
@[simp] theorem State.onPost_poolUsed (t : Nat) (f : Post → Post) : (s.onPost t f).poolUsed = s.poolUsed := rfl
@[simp] theorem State.onPost_ctr (t : Nat) (f : Post → Post) : (s.onPost t f).ctr = s.ctr := rfl
@[simp] theorem State.onPost_freeCtr (t : Nat) (f : Post → Post) : (s.onPost t f).freeCtr = s.freeCtr := rfl
@[simp] theorem State.onPost_lastLog (t : Nat) (f : Post → Post) : (s.onPost t f).lastLog = s.lastLog := rfl
@[simp] theorem State.onPost_poison (t : Nat) (f : Post → Post) : (s.onPost t f).poison = s.poison := rfl
@[simp] theorem State.onPost_pending (t : Nat) (f : Post → Post) : (s.onPost t f).pending = s.pending := rfl
@[simp] theorem State.onPost_out (t : Nat) (f : Post → Post) : (s.onPost t f).out = s.out := rfl

/-! ### What they write -/

@[simp] theorem State.freed_freeCtr : s.freed.freeCtr = s.freeCtr + 1 := rfl
@[simp] theorem State.emit_out (o : Out) : (s.emit o).out = s.out ++ [o] := rfl
@[simp] theorem State.draw_snd : s.draw.2 = s.freed := rfl
@[simp] theorem State.now_onCtx (c : Nat) (f : Ctx → Ctx) : (s.onCtx c f).now = s.now := rfl

/-- A context reads as its change after it, and every other as before. -/
theorem State.ctx_onCtx (c d : Nat) (f : Ctx → Ctx) (h : c < s.ctxs.length) :
    (s.onCtx c f).ctx d = if c = d then f (s.ctx c) else s.ctx d := by
  simp only [State.ctx, State.onCtx, updAt_getD]
  by_cases e : c = d
  · subst e; simp [h]
  · simp [e]

theorem State.part_onPart (p q : Nat) (f : Part → Part) (h : p < s.parts.length) :
    (s.onPart p f).part q = if p = q then f (s.part p) else s.part q := by
  simp only [State.part, State.onPart, updAt_getD]
  by_cases e : p = q
  · subst e; simp [h]
  · simp [e]

theorem State.fw_onFw (p q : Nat) (f : Fwp → Fwp) (h : p < s.fws.length) :
    (s.onFw p f).fw q = if p = q then f (s.fw p) else s.fw q := by
  simp only [State.fw, State.onFw, updAt_getD]
  by_cases e : p = q
  · subst e; simp [h]
  · simp [e]

theorem State.port_onPort (p q : Nat) (f : Port → Port) (h : p < s.fab.ports.length) :
    (s.onPort p f).port q = if p = q then f (s.port p) else s.port q := by
  simp only [State.port, State.onPort, updAt_getD]
  by_cases e : p = q
  · subst e; simp [h]
  · simp [e]

theorem State.win_onWin (w v : Nat) (f : Win → Win) :
    (s.onWin w f).win v = if w = v then f (s.win w) else s.win v := by
  simp only [State.win, State.onWin, Tbl.getD_setD]

theorem State.seq_onSeq (q r : Nat) (f : Seq → Seq) :
    (s.onSeq q f).seq r = if q = r then f (s.seq q) else s.seq r := by
  simp only [State.seq, State.onSeq, Tbl.getD_setD]

theorem State.wst_onWs (w v : Nat) (f : Ws → Ws) :
    (s.onWs w f).wst v = if w = v then f (s.wst w) else s.wst v := by
  simp only [State.wst, State.onWs, Tbl.getD_setD]

theorem State.post_onPost (t u : Nat) (f : Post → Post) :
    (s.onPost t f).post u = if t = u then f (s.post t) else s.post u := by
  simp only [State.post, State.onPost, Tbl.getD_setD]

end Sys2Proof.Machine
end

