-- ==== Sys2Proof/Laws/Mem.lean ====
section
/-! SUPPORT. Memory: read after write, and the canonical form that every memory operation keeps. -/

namespace Sys2Proof.Machine

/-- A byte read after a write: the byte written where the write lies, else what was there. -/
theorem memWrite_getD (m : List Host.Cell) (a x : Nat) (bs : List Byte) :
    Tbl.getD (memWrite m a bs) x memDefault =
      if a ≤ x ∧ x < a + bs.length then bs.getD (x - a) memDefault else Tbl.getD m x memDefault := by
  induction bs generalizing m a with
  | nil => simp [memWrite]
  | cons b r ih =>
    rw [memWrite, ih, Tbl.getD_setD]
    by_cases h1 : a = x
    · subst h1; simp
    · by_cases h2 : a + 1 ≤ x ∧ x < a + 1 + r.length
      · have e : x - a = x - (a + 1) + 1 := by omega
        have h3 : a ≤ x ∧ x < a + (b :: r).length := by simp; omega
        rw [if_pos h2, if_pos h3, e]; simp
      · have h3 : ¬ (a ≤ x ∧ x < a + (b :: r).length) := by simp; omega
        rw [if_neg h2, if_neg h3, if_neg h1]

theorem State.byteAt_writeAt (s : State) (a x : Nat) (bs : List Byte) :
    (s.writeAt a bs).byteAt x =
      if a ≤ x ∧ x < a + bs.length then bs.getD (x - a) memDefault else s.byteAt x :=
  memWrite_getD s.mem a x bs

/-- Writing bytes keeps the canonical form. -/
theorem memWf_memWrite (m : List Host.Cell) (a : Nat) (bs : List Byte) (h : memWf m = true) :
    memWf (memWrite m a bs) = true := by
  induction bs generalizing m a with
  | nil => exact h
  | cons b r ih => exact ih _ _ (Tbl.wf_setD m memDefault a b h)

theorem State.memWf_writeAt (s : State) (a : Nat) (bs : List Byte) (h : memWf s.mem = true) :
    memWf (s.writeAt a bs).mem = true := memWf_memWrite s.mem a bs h

theorem memWf_filter (m : List Host.Cell) (p : Host.Cell → Bool) (h : memWf m = true) :
    memWf (m.filter p) = true := Tbl.wf_filter m memDefault p h

theorem memWf_memFill (m : List Host.Cell) (a n : Nat) (cells : List (Nat × Byte)) (h : memWf m = true) :
    memWf (memFill m a n cells) = true := by
  unfold memFill
  have h0 := memWf_filter m (fun e => !decide (a ≤ e.1 ∧ e.1 < a + n)) h
  revert h0
  generalize m.filter _ = u
  intro h0
  induction cells generalizing u with
  | nil => exact h0
  | cons e r ih => exact ih _ (Tbl.wf_setD u memDefault (a + e.1) e.2 h0)

/-- Filling granules keeps the canonical form. -/
theorem memWf_granFill (m : List Host.Cell) (g : List Nat) (cells : List (Nat × Byte)) (h : memWf m = true) :
    memWf (granFill m g cells) = true := by
  unfold granFill
  generalize List.range g.length = l
  induction l generalizing m with
  | nil => exact h
  | cons i r ih => exact ih _ (memWf_memFill m _ _ _ h)

theorem memWf_reset : memWf State.reset.mem = true := rfl

/-- Bytes read back after they were written. -/
theorem State.bytesAt_writeAt_same (s : State) (a : Nat) (bs : List Byte) :
    (s.writeAt a bs).bytesAt a bs.length = bs := by
  apply List.ext_getElem
  · simp [State.bytesAt]
  · intro i h1 h2
    simp [State.bytesAt, State.byteAt_writeAt, h2]

end Sys2Proof.Machine
end

