-- ==== Sys2Proof/Laws/Messages.lean ====
section
/-! SUPPORT. What taking, checking and completing a Prota message can do, said once. -/

namespace Sys2Proof.Machine

variable (s : State)

theorem State.irq_eq (w : Nat) :
    s.irq w = { s with out := if (s.win w).irqEn then s.out ++ [.msix w] else s.out } := by
  unfold State.irq State.emit
  split <;> rfl

/-- Completing a message removes it, writes its window with a response that names it, and may let something leave the
block and count for its handler; nothing else. -/
theorem State.complete_eq (m : Msg) (p : Nat) (st : Status) (body : List Byte) :
    ∃ (h : Header) (o : List Out) (f : List Fwp),
      h.op = m.op ∧ h.status = st.code ∧ h.length = body.length ∧ h.sess = m.sess ∧ h.tag = m.tag ∧ h.resp = true ∧
      h.handler = p ∧ h.stamp = m.stamp ∧
      (m.win < 256 → o = if (s.win m.win).irqEn then s.out ++ [.msix m.win] else s.out) ∧
      s.complete m p st body = { s with
        host := { s.host with
          msgs := eraseFirst (fun x => decide (x = m)) s.host.msgs
          wins := s.host.wins.setD Win.fresh m.win
            { s.win m.win with resp := h.write ++ body, done := true, owner := false } }
        out := o, fws := f } := by
  let h : Header := ⟨m.op, st.code, body.length, 0, m.sess, m.tag, m.major, m.minor, true, m.crcEn, p, 0, m.stamp,
    if m.crcEn then Num.crc32c body else 0, 0⟩
  refine ⟨h, if m.win < 256 then (if (s.win m.win).irqEn then s.out ++ [.msix m.win] else s.out)
    else s.out ++ [.mctp (m.win - 256) m.eid 0x7E (h.write ++ body)],
    (let f := if p < 6 then updAt s.fws p (fun f => { f with ctr := ctrAdd f.ctr .msgsDone 1 }) else s.fws
     if st = .fwRestarted then updAt f p (fun f => { f with ctr := ctrAdd f.ctr .msgsRestarted 1 }) else f),
    rfl, rfl, rfl, rfl, rfl, rfl, rfl, rfl, fun hw => if_pos hw, ?_⟩
  unfold State.complete
  simp only [State.irq_eq]
  simp only [State.onWin, State.win, State.bumpFw, State.emit] 
  by_cases h1 : m.win < 256 <;> by_cases h2 : p < 6 <;> by_cases h3 : st = .fwRestarted <;>
    simp [h1, h2, h3, h] <;> (split <;> simp_all)

/-- The windows after a message completed. -/
theorem State.complete_win (m : Msg) (p : Nat) (st : Status) (body : List Byte) (v : Nat) (hv : v ≠ m.win) :
    (s.complete m p st body).win v = s.win v := by
  obtain ⟨h, o, f, -, -, -, -, -, -, -, -, -, e⟩ := s.complete_eq m p st body
  rw [e]
  simp only [State.win, Tbl.getD_setD]
  rw [if_neg (by omega)]

/-- A message that is not next, or whose owner does not run, changes nothing. -/
theorem commitMsg_waits (w op : Nat) (k : Msg → State → Act)
    (h : s.oldest w op = none ∨ (s.fw (owner op)).st ≠ .running) : commitMsg w op k s = s := by
  unfold commitMsg
  cases e : s.oldest w op with
  | none => rfl
  | some m => simp [h.resolve_left (by simp [e])]

/-- A message that is taken has its meaning's outcome. -/
theorem commitMsg_takes {w op : Nat} {m : Msg} (k : Msg → State → Act) (h : Takes s w op m) :
    commitMsg w op k s = match k m s with
      | .reply t st body => t.complete m (owner op) st body
      | .hold t p => t.setPhase m p := by
  unfold commitMsg
  rw [h.oldest]
  dsimp only
  rw [if_neg (by simp [h.running]), if_neg (by simp [h.serves])] <;> cases k m s <;> rfl

/-- A request that spells its fields reaches its meaning. -/
theorem withReq_spells {fs : List Fld} {m : Msg} {a : List Nat} (k : List Nat → Msg → State → Act) (h : Spells fs m a) :
    withReq fs k m s = k a m s := by
  unfold withReq
  rw [show readRequest fs m.payload = some a from h]

/-- A request that names a context it may name reaches its meaning. -/
theorem withCtx_admits {fs : List Fld} {m : Msg} {c : Nat} {a : List Nat} (k : Nat → List Nat → Msg → State → Act)
    (h : Spells (.u8 :: fs) m (c :: a)) (ha : Admits s m c) : withCtx fs k m s = k c a m s := by
  unfold withCtx
  rw [show readRequest (.u8 :: fs) m.payload = some (c :: a) from h]
  have hb : ¬ 15 < c := by have := ha.bound; omega
  simp [checked, State.ctxChecks, firstBad, hb, ha.given, ha.owned, ha.stays, ha.served]

end Sys2Proof.Machine
end

