-- ==== Sys2Proof/Laws/Strings.lean ====
section
/-! SUPPORT. What running a string's next instruction can do, said once. -/

namespace Sys2Proof.Machine

variable (s : State)

/-- A ready string runs its next word. -/
theorem runStr_ready {op c id i : Nat} {l : Launch} {g : Str} {w : Nat} (k : Launch → Str → Nat → State)
    (h : Ready s op c id i l g w) : runStr op c id i k s = k l g w := by
  unfold runStr
  simp [h.found, h.free]

/-- A string whose next word is another one, or which does not exist, does nothing. -/
theorem runStr_other {op c id i : Nat} (k : Launch → Str → Nat → State) (h : s.atWord op c id i = none) :
    runStr op c id i k s = s := by
  unfold runStr
  simp [h]

/-- Replacing a string changes its context only. -/
theorem State.putStr_frame (c id i : Nat) (g : Str) :
    s.putStr c id i g = { s with ctxs := (s.putStr c id i g).ctxs } := rfl

/-- A register after a register was written in some lanes. -/
theorem Str.setReg_reg (g : Str) (r q k : Nat) (on : Nat → Bool) (v : Nat → Nat) (hq : q < 16) (hk : k < 64) :
    (g.setReg r on v).reg q k = if q = r ∧ on k = true then v k % 2 ^ 32 else g.reg q k := by
  have h1 : (q * 64 + k) / 64 = q := by omega
  have h2 : (q * 64 + k) % 64 = k := by omega
  have h3 : q * 64 + k < 1024 := by omega
  simp [Str.setReg, Str.reg, h1, h2, h3]

/-- A predicate after a predicate was written in some lanes. -/
theorem Str.setPred_pred (g : Str) (r q k : Nat) (on : Nat → Bool) (v : Nat → Bool) (hq : q < 4) (hk : k < 64) :
    (g.setPred r on v).pred q k = if q = r ∧ on k = true then v k else g.pred q k := by
  have h1 : (q * 64 + k) / 64 = q := by omega
  have h2 : (q * 64 + k) % 64 = k := by omega
  have h3 : q * 64 + k < 256 := by omega
  simp [Str.setPred, Str.pred, h1, h2, h3]

/-- What an instruction that writes `DST` and goes on leaves. -/
theorem Str.wrote_writeDst (g : Str) (w : Nat) (f : Nat → Nat) : Wrote g w f (g.writeDst w f).next := by
  constructor
  · intro r hr k hk
    rw [← Str.setReg_reg g (iDst w) r k (g.guard w) f hr hk]
    simp only [Str.next, Str.writeDst, Str.reg]
  · simp only [Str.next, Str.writeDst, Str.setReg]

/-- What an instruction that writes a predicate and goes on leaves. -/
theorem Str.judged_writePred (g : Str) (w : Nat) (f : Nat → Bool) : Judged g w f (g.writePred w f).next := by
  constructor
  · intro p hp k hk
    rw [← Str.setPred_pred g (iPred w) p k (g.guard w) f hp hk]
    simp only [Str.next, Str.writePred, Str.pred]
  · simp only [Str.next, Str.writePred, Str.setPred]

end Sys2Proof.Machine
end

