-- ==== Sys2Proof/WellFormed.lean ====
section
/-! DEFINITION. The commands whose operands the spec's numbering admits.  A command outside them names nothing that the
block has; it is not a row of the opcode table with operands the hardware could be given. -/

namespace Sys2Proof

/-- A reader that exists: a lane of a string of a context, or a compute die for a context. -/
def readerOk : Reader → Bool
  | .lane c launch _ lane => decide (c < 16 ∧ launch < 2 ^ 32 ∧ lane < 64)
  | .die port c => decide (port < 4 ∧ c < 16)

/-- Every operand lies in the range that the spec gives what it numbers: contexts 0 to 15, packages 0 to 127, layers of 9
bits, experts of 16, slots of 18, windows 0 to 255 and the two virtual ones, and so on. -/
def Instr.wellFormed : Instr → Bool
  | .powerOn straps | .perstRelease straps | .hotReset straps => decide (straps < 128)
  | .pwrGoodFall | .bundleLoadComplete | .t1CopyComplete | .fabricTrainTimeout | .throttleNChange _ | .peakWRead
  | .registerWrite _ _ _ | .hostApertureAccess _ _ _ _ | .jtagBypass | .jtagIdcode | .jtagSamplePreload _
  | .jtagExtest | .jtagClamp | .jtagHighz | .bayFree | .recallOverdue _ | .memWriteReceive _ _
  | .correctedErrorEvent _ _ _ | .faultWindowClose _ | .lastingFaultDeclare _ | .transportAckReceive | .timebaseSlew
  | .timebaseHoldover | .holdoverLog | .faultTake _ | .faultDrain | .ageingHourly | .activationResume
  | .waitE0Expiry | .bundleProven | .cxlCompletionTimeout _ | .pciePowerStateWrite _ | .flashWriteComplete => true
  | .recoveryLenWrite len => decide (len < 2 ^ 32)
  | .ucieTrainComplete port modules _ => decide (port < 4 ∧ modules < 17)
  | .hbmTrainComplete stack _ => decide (stack < 2)
  | .cxlTrainComplete port _ _ => decide (port < 2)
  | .portTrainComplete port lanes _ peer => decide (port < 128 ∧ lanes < 16 ∧ peer < 128)
  | .portSignalDetect port | .flitReceive port _ _ _ | .linkAckTimeout port | .timestampSend port
  | .timestampReceive port _ | .flitSlot port => decide (port < 128)
  | .mailboxSubmit w _ | .doneClear w _ => decide (w < 256)
  | .irqPendClear irqClass => decide (irqClass < 8)
  | .mctpPacket path src _ seq _ _ body => decide (path < 2 ∧ src < 256 ∧ seq < 4 ∧ body.length ≤ 64)
  | .mctpReassemblyTimeout path | .mctpProtaMessage path => decide (path < 2)
  | .mctpSetEndpointId path eid => decide (path < 2 ∧ eid < 256)
  | .i3cEntdaa addr => decide (addr < 128)
  | .spdmGetVersion t | .spdmNegotiateAlgorithms t _ _ | .spdmGetDigests t | .spdmGetMeasurements t _ _ _ => decide (t < 3)
  | .spdmGetCapabilities t version => decide (t < 3 ∧ version < 256)
  | .spdmGetCertificate t slot _ _ | .spdmChallenge t slot _ => decide (t < 3 ∧ slot < 8)
  | .pmpSessionOpen w | .pmpSessionClose w | .pmpWindowConfig w | .pmpFeatures w | .pmpSeqOpen w | .pmpSeqFeed w
  | .pmpSeqRetire w | .pmpSeqCancel w | .pmpSeqFork w | .pmpSeqQuery w | .pmpSeqSetSampler w | .pmpStepConfig w
  | .pmpStepRecords w | .pmpModelLoad w | .pmpModelImages w | .pmpRouteConfig w | .pmpRouteBias w | .pmpRouteQuery w
  | .pmpRouteStats w | .pmpDispatchConfig w | .pmpPlanSet w | .pmpDispatchStats w | .pmpCombineConfig w
  | .pmpCombineStats w | .pmpReturnTimeout w | .pmpExpertHint w | .pmpResidencyQuery w | .pmpResidencyPolicy w
  | .pmpExpertReload w | .pmpResidencyStats w | .pmpSfnLoad w | .pmpSfnQuery w | .pmpLayoutLoad w
  | .pmpLayoutQuery w | .pmpTierQuery w | .pmpMemHint w | .pmpLendConfig w | .pmpTierStats w | .pmpKhanAlloc w
  | .pmpKhanFree w | .pmpKhanQuota w | .pmpKhanStats w | .pmpWsCreate w | .pmpWsDestroy w | .pmpWsQuery w
  | .pmpWsPop w | .pmpWsRelease w | .pmpWsRewind w | .pmpWsPush w | .pmpLayoutRun w | .pmpLayoutStats w
  | .pmpCollGroup w | .pmpCollLaunch w | .pmpCollStatus w | .pmpCollKill w | .pmpCollStats w | .pmpCollGroupDelete w
  | .pmpPartConfig w | .pmpPartQuery w | .pmpTollConfig w | .pmpTollStats w | .pmpPartReset w | .pmpCtxCreate w
  | .pmpCtxDestroy w | .pmpCtxQuery w | .pmpStepKill w | .pmpCtxResume w | .pmpTimeQuery w | .pmpDetMode w
  | .pmpDetQuery w | .pmpKernelLoad w | .pmpKernelLaunch w | .pmpKernelUnload w | .pmpKernelStatus w
  | .pmpKernelKill w | .pmpArrayStats w | .pmpTallyConfig w | .pmpTallyArrive w | .pmpTallyQuery w | .pmpFwStage w
  | .pmpFwActivate w | .pmpFwWithdraw w | .pmpFwQuery w | .pmpFwpRestart w | .pmpFwpWatchdog w | .pmpLogRead w
  | .pmpTraceMask w | .pmpFaultRead w | .pmpFaultWindow w | .pmpHealthQuery w | .pmpArrayQuery w | .pmpLinkQuery w
  | .pmpQuarterQuery w | .tableReloadTimeout w => decide (w < 258)
  | .stepBoundary c | .incompleteNoteTimeout c _ | .kvEviction c _ | .kvFarReturn c | .planPeriodExpiry c
  | .layoutCommandStart c | .layoutCommandComplete c _ _ | .collJoinReceive c _ _ _ _ _ | .collGoReceive c _ _
  | .collAbortReceive c _ _ _ | .collGrantReceive c _ _ _ | .collJoinTimeout c _ _ | .collSlabOpen c _ _
  | .collPieceReceive c _ _ _ _ _ | .collResultReceive c _ _ _ _ | .teardownFree c | .teardownStuck c => decide (c < 16)
  | .planPublish c layer | .gateLaunch c layer _ | .predictorLaunch c layer _ | .predictorComplete c layer _
  | .routeSeal c layer _ | .stallLimitExpiry c layer _ | .sort c layer _ | .bayWaitSpill c layer _ _
    => decide (c < 16 ∧ layer < 512)
  | .manifestRead die c | .ucieMemoryAccess die c _ _ _ => decide (die < 4 ∧ c < 16)
  | .hiddenRowReceive die c epoch layer _ slot _ | .residualRowReceive die c epoch layer _ slot _
    => decide (die < 4 ∧ c < 16 ∧ epoch < 65536 ∧ layer < 512 ∧ slot < 2 ^ 18)
  | .tokenSelect c layer _ slot | .fusedPass c layer _ slot => decide (c < 16 ∧ layer < 512 ∧ slot < 2 ^ 18)
  | .finalSeal c layer _ dst _ | .subconvoyInject c layer _ dst _ | .subconvoyRelease c layer _ dst _
  | .returnTimeoutExpiry c layer _ dst _ => decide (c < 16 ∧ layer < 512 ∧ dst < 128)
  | .noteReceive src _ _ | .rowReceive src _ _ | .answerReceive src _ _ | .refusalReceive src _ => decide (src < 128)
  | .batchWindowExpiry c layer expert replica | .fetchStart c layer expert replica
  | .fetchChunkRead c layer expert replica _ | .fetchComplete c layer expert replica
  | .guideRemoval c layer expert replica | .replicaDrainTimeout c layer expert replica
    => decide (c < 16 ∧ layer < 512 ∧ expert < 65536 ∧ replica < 16)
  | .answerFromDie die _ _ _ _ => decide (die < 4)
  | .retireNoticeReceive src c epoch => decide (src < 128 ∧ c < 16 ∧ epoch < 65536)
  | .landingBufferFree c epoch layer _ | .quarantineExpiry c epoch layer _ => decide (c < 16 ∧ epoch < 65536 ∧ layer < 512)
  | .logitRowReceive c slot _ _ => decide (c < 16 ∧ slot < 2 ^ 18)
  | .generationRelease c table => decide (c < 16 ∧ table < 3)
  | .fetchRequest c layer expert replica _ die => decide (c < 16 ∧ layer < 512 ∧ expert < 65536 ∧ replica < 16 ∧ die < 4)
  | .guideHeatReport src c _ _ | .guideRxAreaAnnounce src c _ | .guideTeardownAnnounce src c
  | .memReadReceive src c _ _ _ | .memAtomicReceive src c _ _ _ => decide (src < 128 ∧ c < 16)
  | .guideReplicaEntry c layer expert _ pkg die _ _ => decide (c < 16 ∧ layer < 512 ∧ expert < 65536 ∧ pkg < 128 ∧ die < 4)
  | .guideRemovalAck src c layer expert replica => decide (src < 128 ∧ c < 16 ∧ layer < 512 ∧ expert < 65536 ∧ replica < 16)
  | .guideExpertUeReport c layer expert | .guideExpertReloaded c layer expert => decide (c < 16 ∧ layer < 512 ∧ expert < 65536)
  | .ucieLinkDown port => decide (port < 4)
  | .lotRequest lender borrower c _ => decide (lender < 128 ∧ borrower < 128 ∧ c < 16)
  | .lotRecall lender c _ | .lotRelease lender c _ => decide (lender < 128 ∧ c < 16)
  | .memReadDataReceive reader _ _ => readerOk reader
  | .memAtomicDataReceive c launch _ lane _ => decide (c < 16 ∧ launch < 2 ^ 32 ∧ lane < 64)
  | .tallyArrival post pkg value _ => decide (post < 65536 ∧ pkg < 128 ∧ value < 2 ^ 32)
  | .tallyDeadline post | .tallyLateDelivery post => decide (post < 65536)
  | .khanAlloc c engine tier die _ => decide (c < 16 ∧ engine < 16 ∧ tier < 3 ∧ die < 4)
  | .khanFree c pool _ => decide (c < 16 ∧ pool < 6)
  | .khanRefill c pool cls | .khanChunkMove c pool _ cls => decide (c < 16 ∧ pool < 6 ∧ cls < 8)
  | .wsMiddleMove q _ _ => decide (q < 4096)
  | .launchStartTick c launch | .stringPlace c launch _ | .iadd c launch _ | .isub c launch _ | .imul c launch _
  | .imulh c launch _ | .and c launch _ | .or c launch _ | .xor c launch _ | .shl c launch _ | .shr c launch _
  | .sar c launch _ | .imin c launch _ | .imax c launch _ | .icmp c launch _ | .movi c launch _ | .fadd c launch _
  | .fmul c launch _ | .ffma c launch _ | .fmin c launch _ | .fmax c launch _ | .fcmp c launch _ | .fneg c launch _
  | .cvtTo c launch _ | .cvtFrom c launch _ | .blockTo c launch _ | .blockFrom c launch _ | .ld c launch _ _
  | .st c launch _ | .aaddI c launch _ | .aaddF c launch _ | .fence c launch _ | .tlook c launch _
  | .claim c launch _ | .mma c launch _ | .accZero c launch _ | .accStore c launch _ | .sfn c launch _
  | .brAny c launch _ | .brAll c launch _ | .pset c launch _ | .lshuf c launch _ | .lsum c launch _
  | .lmax c launch _ | .tpArrive c launch _ | .tpWait c launch _ | .wsPush c launch _ | .wsPop c launch _
  | .wsPopMark c launch _ | .wsPopRewind c launch _ | .wsPopRelease c launch _ | .endString c launch _
    => decide (c < 16 ∧ launch < 2 ^ 32)
  | .arrayUeEvent c core _ _ _ => decide (c < 16 ∧ core < 512)
  | .coreRetireTimeout phys => decide (phys < 520)
  | .chunkClose pkg tc | .transportResendTimeout pkg tc | .detourReturn pkg tc => decide (pkg < 128 ∧ tc < 5)
  | .chunkReceive port tc => decide (port < 128 ∧ tc < 5)
  | .transportAckSend pkg | .departureTimeout pkg | .departureReceive pkg => decide (pkg < 128)
  | .slicePass p | .overrunDeadline p => decide (p < 8)
  | .paceSample readings => decide (readings.length = 24)
  | .powerSample _ quarters => decide (quarters.length = 24)
  | .watchdogExpiry n | .fwpException n _ | .fwpRestartComplete n => decide (n < 6)

end Sys2Proof
end

