-- ==== Sys2Proof/Tests/Slice0.lean ====
section
/-! SUPPORT. Small tests: the hypotheses of every statement are met by concrete states (`wit_…`), the spec's worked
cases come out as printed (`test_…`), and each check of `Instr.wellFormed` refuses a command. -/

namespace Sys2Proof.Tests

open Sys2Proof Sys2Proof.Machine

set_option linter.all false
set_option Elab.async false

/-! ### Small states -/

/-- A message of session 1 in window 0, routed to its owner. -/
def msgOf (op : Nat) (bs : List Byte) : Msg := ⟨0, op, 1, 0, 3, 2, 0, bs, .routed, false, false, 0, 0⟩

/-- The block after boot with every link trained, six processors running, and the management session in window 0. -/
def up : State := { State.reset with
  board := { State.reset.board with perstN := true }
  boot := { State.reset.boot with
    stage := .serving, ready := true, hbmUp := [true, true], diesUp := [true, true, true, true]
    dieDone := [true, true, true, true], dieBytes := [2 ^ 36, 2 ^ 36, 2 ^ 36, 2 ^ 36], fabricDone := true }
  fws := List.replicate 6 { Fwp.fresh with st := .running }
  host := { State.reset.host with linkUp := true, sessions := [⟨1, [0], 3, 2, 0x3FFF, true⟩], nextSession := 2 }
  tb := { State.reset.tb with st := .aligned } }

/-- The share of context 0: everything that a test needs. -/
def share0 : Share := { Share.fresh with
  t4Gib := 1, t3Lots := 2, seqCount := 1024, wsCount := 64, tpCount := 64, stagingMib := 64, rxMib := 8, table64k := 40, t1Mib := 256
  t2Mib := [64, 64, 64, 64], dModel := 64, stepLimit := 64, sliceUs := 1000 }

/-- `up` with context 0 ACTIVE, changed by `f`. -/
def act (f : Ctx → Ctx) : State :=
  { up with ctxs := updAt up.ctxs 0 (fun x => f { x with st := .active, share := share0 }) }

/-- A message with given field values waits at its owner. -/
def ask (s : State) (op : Nat) (fs : List Fld) (a : List Nat) : State :=
  { s with host := { s.host with msgs := [msgOf op (writeFields (fs.zip a))] } }

/-- The message that `ask` puts there. -/
def asked (op : Nat) (fs : List Fld) (a : List Nat) : Msg := msgOf op (writeFields (fs.zip a))

theorem ite_lt {p : Prop} [Decidable p] {a b n : Nat} (ha : a < n) (hb : b < n) : (if p then a else b) < n := by
  split <;> assumption

theorem owner_lt (op : Nat) : owner op < 6 := by
  unfold owner
  iterate 12 refine ite_lt (by decide) ?_
  decide

/-- A message that `ask` puts there is the next one of its owner. -/
theorem takes_ask {s : State} {op : Nat} {fs : List Fld} {a : List Nat}
    (hr : ∀ n < 6, (s.fw n).st = .running) (hd : s.flt.dev = .serving) :
    Takes (ask s op fs a) 0 op (asked op fs a) where
  oldest := by simp [ask, asked, State.oldest, msgOf]
  running := hr _ (owner_lt op)
  serves := by simp [ask, State.stopFault, hd]

theorem up_runs : ∀ n < 6, (up.fw n).st = .running := by decide

theorem act_runs (f : Ctx → Ctx) : ∀ n < 6, ((act f).fw n).st = .running := up_runs

/-- The session of an asked message owns context 0. -/
theorem admits_st {s : State} {op : Nat} {fs : List Fld} {a : List Nat} (hc : (s.ctx 0).st = .active)
    (hs : (s.ctx 0).share = share0) (hh : s.host.sessions = up.host.sessions ∧ s.host.wins = up.host.wins)
    (hp : s.parts = up.parts) : Admits (ask s op fs a) (asked op fs a) 0 := by
  have hc' : ((ask s op fs a).ctx 0).st = .active := hc
  have hs' : ((ask s op fs a).ctx 0).share = share0 := hs
  refine ⟨by decide, by rw [hc']; decide, ?_, by rw [hc']; decide, ?_⟩
  · have : (ask s op fs a).admitted (asked op fs a).sess = 0xFF := by
      unfold State.admitted State.session State.admission State.win ask
      simp only [hh.1, hh.2]
      rfl
    unfold State.owns
    rw [hs', this]
    decide
  · rw [hs']; unfold State.part ask; simp only [hp]; rfl

theorem admits_act {f : Ctx → Ctx} {op : Nat} {fs : List Fld} {a : List Nat} (h1 : ∀ x, (f x).st = x.st)
    (h2 : ∀ x, (f x).share = x.share) : Admits (ask (act f) op fs a) (asked op fs a) 0 :=
  admits_st (h1 _) (h2 _) ⟨rfl, rfl⟩ rfl

/-- The handle of slot 1 of context 0 in T1. -/
def h1 : Nat := 2 ^ 30 + 64

theorem alloc_ok {s t : State} {c n h a : Nat} {u : State} (hn : n ≠ 0) (e : t.khanAlloc c 1 0 0x1 n = (some (h, a), u)) :
    s.allocOr t c n = .inr (u, h) := by simp [State.allocOr, e, hn]

theorem alloc_none {s t : State} {c : Nat} : s.allocOr t c 0 = .inr (t, 0) := rfl

theorem admits_msg {s : State} {m : Msg} (hc : (s.ctx 0).st = .active) (hs : (s.ctx 0).share = share0)
    (hh : s.host.sessions = up.host.sessions ∧ s.host.wins = up.host.wins) (hp : s.parts = up.parts) (hm : m.sess = 1) :
    Admits s m 0 := by
  have a := admits_st (op := 0) (fs := []) (a := []) hc hs hh hp
  exact ⟨a.bound, a.given, by rw [hm]; exact a.owned, a.stays, a.served⟩

/-! ### Every hypothesis can be met

Each theorem below applies the clauses of one statement to concrete states and operands; that the applications check shows
that the hypotheses of each clause can be met together. -/

/-- `up` in STOPPED_C4. -/
def c4 : State := { up with flt := { up.flt with dev := .stoppedC4 } }

/-- `up` while it trains, or in another stage. -/
def atStage (g : Stage) : State := { up with boot := { State.reset.boot with stage := g } }

theorem wit_PowerAndResets (h : Obligations.PowerAndResets) : True := by
  replace h := h.2.2
  have := h.1 44 up rfl (by decide)
  replace h := h.2
  have := h.1 44 up rfl rfl (by decide)
  replace h := h.2
  have := h 44 c4 rfl rfl rfl
  trivial

theorem wit_BootChoice (h : Obligations.BootChoice) : True := by
  have := h.1 { atStage .load with boot := { (atStage .load).boot with cands := [1] } } 1 [] rfl rfl (.inr rfl) rfl
  replace h := h.2
  have := h.1 65536 (atStage .recovery) rfl rfl
  replace h := h.2
  have := h up rfl rfl
  trivial

/-- `up` with port 3 in a given state of training. -/
def portAt (st : PortSt) : State := up.onPort 3 (fun x => { x with st := st })

theorem wit_TrainingOutcomes (h : Obligations.TrainingOutcomes) : True := by
  have a := (h.1 3 7 0 (atStage .train) rfl (by decide) (by decide) (by decide))
  replace h := h.2
  have := h.1 1 false (atStage .train) rfl (by decide) (by decide)
  replace h := h.2
  have := h.1 1 0 false (atStage .train) rfl (by decide) (by decide)
  replace h := h.2
  have := h.1 127 up rfl rfl (by decide) (by decide +kernel) (by decide +kernel)
  replace h := h.2
  have := h.1 3 15 5 true
    { portAt .training with fab := { (portAt .training).fab with present := [5] }, tb := { up.tb with master := 0 } }
    rfl rfl (by decide) (by decide +kernel) (by decide +kernel) (by decide) (by decide) (by decide) rfl rfl rfl (by decide)
    (by decide +kernel)
  replace h := h.2
  have := h.1 3 15 0 true (portAt .training) rfl rfl (by decide) (by decide) rfl
  replace h := h.2
  have := h.1 3 15 5 true { atStage .train with fws := List.replicate 6 Fwp.fresh } (by decide)
  replace h := h.2
  have := h { atStage .train with tb := { up.tb with count := 2000000000 } } rfl rfl (by decide +kernel)
  trivial


/-- A request header for opcode 0x0004 with an empty payload in window 255. -/
def featuresBytes : List (Nat × Byte) := [(0, 4), (6, 1), (12, 3), (13, 2)]

/-- `up` in D3hot. -/
def cold : State := { up with host := { up.host with d3hot := true } }

theorem wit_HostAccesses (h : Obligations.HostAccesses) : True := by
  have := h.1 0 true (up.onWin 0 (fun x => { x with bound := true, session := 1, req := featuresBytes })) rfl rfl (by decide)
    rfl rfl (by decide +kernel) (by decide +kernel)
  replace h := h.2
  have := h.1 255 true (up.onWin 255 (fun x => { x with owner := true })) rfl rfl (by decide) rfl
  replace h := h.2
  have := h.1 255 true up rfl (by decide)
  replace h := h.2
  have := h.1 5 up rfl
  replace h := h.2
  have := h.1 up rfl
  replace h := h.2
  have := h.1 0x4FCFF8 8 0 up rfl (.inr rfl) rfl (by decide) (by decide) (by decide) rfl
  replace h := h.2
  have := h.1 4 0x50000 up rfl (.inl rfl)
  replace h := h.2
  have := h.1 (2 ^ 40) (addr 1 0) 4 [1, 2, 3, 4] false up rfl (by decide +kernel)
  replace h := h.2
  have := h.1 (2 ^ 40) (addr 1 0) 4 up rfl (by decide +kernel) (fun l k => by cases k)
  replace h := h.2
  have := h.1 (2 ^ 40) (addr 1 0) 4 (addr 1 0 / 64) false { up with poison := [addr 1 0 / 64] } rfl (by decide +kernel)
    (by decide +kernel) (by decide +kernel) (by decide +kernel)
  replace h := h.2
  have := h.1 true up rfl rfl
  replace h := h.2
  have := h cold rfl rfl rfl
  trivial

/-- `up` with a path changed. -/
def onPath0 (f : MctpPath) : State := { up with host := { up.host with paths := [f, f] }, tb := { up.tb with count := 200000001 } }

theorem wit_ManagementLinks (h : Obligations.ManagementLinks) : True := by
  have := h.1 1 9 0 3 true [0x7E] up rfl rfl (by decide) (by decide) (by decide)
  have := (h.1 1 9 0 3 true [0x7E] (onPath0 ⟨9, none, []⟩) rfl rfl (by decide) (by decide) (by decide))
  replace h := h.2
  have := h.1 0 9 2 3 [1] [2] 100000001 (onPath0 ⟨9, some (9, 2, 3, [1], 100000001), []⟩) rfl rfl (by decide) (by decide)
    (by decide) rfl (by decide)
  replace h := h.2
  have := h.1 1 9 2 3 0 [1] (onPath0 ⟨9, some (9, 2, 3, [1], 0), []⟩) (by decide) rfl (by decide)
  replace h := h.2
  have := h.1 1 254 up rfl (by decide) (by decide) (by decide) (by decide)
  replace h := h.2
  have := h.1 127 up rfl rfl (by decide)
  replace h := h.2
  have := h.1 0 9 [] ((onPath0 ⟨9, none, [(9, 0x7E, [])]⟩).onWin 256 (fun x => { x with owner := true })) rfl
    (by decide) (by decide) rfl rfl
  replace h := h.2
  have := h.1 1 9 [] { onPath0 ⟨9, none, [(9, 0x7E, [])]⟩ with
    fws := updAt up.fws 0 (fun f => { f with st := .restarting }) } rfl (by decide) (by decide) rfl rfl rfl
  replace h := h.2
  have := h 2 up rfl (by decide) (by decide) rfl
  trivial

theorem wit_TestPort (h : Obligations.TestPort) : True := by
  have := (h State.reset rfl).2.2.2.1 rfl
  have := (h up rfl).2.2.2.2 rfl
  trivial


/-- `up` with other fault registers. -/
def flt (f : Faults → Faults) : State := { up with flt := f up.flt }

/-- A fault message of a class. -/
def fm (k : Nat) : FaultMsg := ⟨0, 0x80B, 1, k, 0, 0, 0⟩

theorem wit_FaultCollection (h : Obligations.FaultCollection) : True := by
  have := h.1 (fm 0) (flt (fun f => { f with arriving := [fm 0] })) rfl rfl rfl rfl rfl (by decide +kernel)
  replace h := h.2
  have := h.1 (fm 0) (flt (fun f => { f with arriving := [fm 0], queue := List.replicate 4096 (0, fm 0) })) rfl rfl rfl rfl
    (by rw [show (flt _).flt.queue = List.replicate 4096 (0, fm 0) from rfl, List.length_replicate] <;> exact Nat.le_refl _)
  replace h := h.2
  have := h.1 (fm 3) (flt (fun f => { f with arriving := [fm 3] })) rfl rfl rfl rfl rfl
  replace h := h.2
  have := h.1 1 up rfl rfl rfl rfl (by decide)
  replace h := h.2
  have := h.1 up rfl rfl
  replace h := h.2
  have := h.1 (fm 1) (flt (fun f => { f with queue := [(0, fm 1)], latches := f.latches.set 1 (some (fm 1)) })) rfl rfl
    (by decide +kernel) rfl rfl
  replace h := h.2
  have := h State.reset (by decide)
  trivial

/-- `up` with two cores, of which core 1 has been retiring since tick 0, one millisecond ago, and no spare. -/
def retiring : State := { up with
  cores := ⟨[⟨518, 0, 0⟩, ⟨519, 1, 0⟩], [], 0⟩
  tb := { up.tb with count := 1000000 } }

theorem wit_CorrectedAndLastingFaults (h : Obligations.CorrectedAndLastingFaults) : True := by
  have := h.1 0x730 (2 ^ 54) up rfl rfl (by decide +kernel)
  replace h := h.2
  have := h.1 0x730 ⟨0x730, 0, 15, 16, 1000⟩ none (flt (fun f => { f with windows := [⟨0x730, 0, 15, 16, 1000⟩] })) rfl
    (by decide +kernel)
  replace h := h.2.2
  have := h.1 0x731 16 1000 (flt (fun f => { f with lasting := [(0x731, 16, 1000)] })) rfl (.inr rfl) rfl
  replace h := h.2
  have := h.1 518 retiring (by decide)
  replace h := h.2
  have := h 519 1 retiring (by decide) rfl rfl (by decide) (by decide +kernel) (by decide) (by decide) rfl
  trivial

theorem up_cool : Cool up := by unfold Cool; decide +kernel

/-- Readings of 24 quarters at 700 mV and 120 °C. -/
def hot : List PaceReading := List.replicate 24 ⟨700, 120, 120, 4096⟩

theorem wit_HealthAndPower (h : Obligations.HealthAndPower) : True := by
  have := h.1 hot 23 ⟨700, 120, 120, 4096⟩ up rfl rfl up_cool rfl (by decide) (by decide) rfl
  replace h := h.2
  have := h.1 1150 [] up rfl up_cool
  replace h := h.2
  have := h.1 false up rfl up_cool
  replace h := h.2
  have := h { up with tb := { up.tb with count := 3600000000000 } } rfl (by decide +kernel) rfl (by decide +kernel) rfl rfl
  trivial


/-- `up` with other processors. -/
def fwAt (n : Nat) (f : Fwp → Fwp) : State := { up with fws := updAt up.fws n f, tb := { up.tb with count := 20000000 } }

/-- `up` with another update engine, one second after the last emergency. -/
def updTo (u : Update → Update) : State := { up with
  upd := u up.upd, tb := { up.tb with count := 60000000000 }, hlt := { up.hlt with e0From := some 0, lastPace := 1000000000 } }

theorem wit_FirmwareRestarts (h : Obligations.FirmwareRestarts) : True := by
  have := h.1 5 (fwAt 5 id) (by decide) rfl rfl (by decide +kernel) rfl (by decide)
  replace h := h.2
  have := h.1 5 true up (by decide) rfl rfl rfl (by decide)
  replace h := h.2
  have := h.1 5 true (fwAt 5 (fun f => { f with counted := [1, 0] })) (by decide) (by decide) rfl rfl rfl (by decide +kernel)
  replace h := h.2
  have := h.1 1 false (asked 0x0104 [] []) (ask up 0x0104 [] []) (by decide) rfl rfl (by decide) (by decide) (by decide)
  replace h := h.2
  have := h 5 (fwAt 5 (fun f => { f with st := .restarting, cause := 1 })) (by decide) rfl rfl (by decide) (by decide)
    (by decide) rfl rfl
  trivial

/-- A stage waits for its flash write. -/
def writing : State := { ask (updTo (fun u => { u with writing := some [0] })) 0x0700 [] [] with
  host := { up.host with msgs := [{ asked 0x0700 [] [] with phase := .flashWait }] } }

theorem wit_FirmwareUpdate (h : Obligations.FirmwareUpdate) : True := by
  have := h.1 (updTo (fun u => { u with st := .deferred })) rfl rfl (by decide +kernel) (by decide +kernel) (by decide +kernel)
    (by decide)
  replace h := h.2
  have := h.1 { updTo (fun u => { u with st := .deferred }) with
      fws := updAt up.fws 1 (fun f => { f with actPending := true }) }
    rfl rfl (by decide +kernel) (by decide +kernel) (by decide +kernel) rfl rfl rfl (by decide)
  replace h := h.2
  have := h.1 (updTo (fun u => { u with st := .waitE0 })) rfl rfl (by decide +kernel) (by decide +kernel) rfl rfl (by decide)
  replace h := h.2
  have := h.1 (updTo (fun u => { u with st := .waitE0, unequal := true })) rfl rfl (by decide +kernel) (by decide +kernel)
    rfl rfl rfl
  replace h := h.2
  have := h.1 [] (updTo (fun u => { u with st := .proving, staged := some [], activated := [0, 5] })) rfl rfl rfl
    (by decide +kernel) (by decide)
  replace h := h.2
  have := h [0] { asked 0x0700 [] [] with phase := .flashWait } writing rfl rfl rfl rfl
  trivial

/-- A bundle header that names no image, held by handle slot 1 of context 0 in T1. -/
def header : List Byte := toLE 128 (0x42554E44 + 128 * 2 ^ 128)

/-- `act` with the bundle header in a buffer of T1, and the current bundle of Steward of the same `IPC_REV`. -/
def staged : State := { (act (fun x => { x with khan := { x.khan with
    slots := [(1, ⟨addr 1 0, 128, 0, 0, 0, true⟩)] } })).writeAt (addr 1 0) header with
  flashes := [Flash.empty 67108864, Flash.empty 67108864] }

theorem wit_FirmwareMessages (h : Obligations.FirmwareMessages) : True := by
  replace h := h.2
  have := h.1 0 [] _ (ask (updTo (fun u => { u with staged := some [] })) 0x0701 [.u8] [0]) (takes_ask up_runs rfl) rfl rfl rfl
  replace h := h.2
  have := h.1 0 63 [] _ (ask { up with upd := { up.upd with staged := some [], swapBusy := true } } 0x0701 [.u8] [63])
    (takes_ask up_runs rfl) rfl rfl rfl (by decide) (by decide) (by decide +kernel) rfl
  replace h := h.2
  have := h.1 0 _ (ask up 0x0702 [] []) (takes_ask up_runs rfl) rfl
  replace h := h.2
  have := h.1 0 _ (ask up 0x0703 [] []) (takes_ask up_runs rfl) rfl rfl
  replace h := h.2
  have := h.1 0 5 _ (ask (updTo id) 0x0704 [.u8] [5]) (takes_ask up_runs rfl) rfl (by decide) rfl rfl
    (fun _ => by decide +kernel) (by decide)
  replace h := h.2
  have := h.1 0 5 1000 _ (ask up 0x0705 [.u8, .u16] [5, 1000]) (takes_ask up_runs rfl) rfl (by decide) (by decide)
    (by decide)
  replace h := h.2
  have := h.1 0 5 0 _ (ask up 0x0710 [.u8, .u32] [5, 0]) (takes_ask up_runs rfl) rfl (by decide)
  replace h := h.2
  have := h.1 0 1023 1 1 _ (ask up 0x0711 [.u16, .u16, .u8] [1023, 1, 1]) (takes_ask up_runs rfl) rfl (by decide)
    (by decide)
  replace h := h.2
  have := h.1 0 0 _ (ask up 0x0800 [.u32] [0]) (takes_ask up_runs rfl) rfl
  replace h := h.2
  have := h.1 0 65535 3600000 _ (ask up 0x0801 [.u16, .u32] [65535, 3600000]) (takes_ask up_runs rfl) rfl
    (by decide) (by decide) (by decide)
  replace h := h.2
  have := h.1 0 _ (ask up 0x0802 [] []) (takes_ask up_runs rfl) rfl
  replace h := h.2
  have := h.1 0 _ (ask up 0x0830 [] []) (takes_ask up_runs rfl) rfl
  replace h := h.2
  have := h.1 0 _ (ask up 0x0810 [] []) (takes_ask up_runs rfl) rfl
  replace h := h.2
  have := h 0 127 1 _ (ask up 0x0820 [.u8, .u8] [127, 1]) (takes_ask up_runs rfl) rfl (by decide)
    (by decide) (by decide)
  trivial

/-- The first clause of `FirmwareMessages`, whose signature check is an open function of Config. -/
theorem wit_FwStage (h : Obligations.FirmwareMessages) (sig : ∀ b, Config.signatureOk b = true) : True := by
  have step := h.1 0 h1 _ (ask staged 0x0700 [.u32] [h1]) (takes_ask up_runs rfl) rfl (by decide +kernel) (by decide) (by decide +kernel) (by decide +kernel)
  replace step := step (by decide +kernel) (by decide +kernel) (by decide +kernel) (by decide +kernel)
  have := step (by decide +kernel) (by decide +kernel) (by decide +kernel) (sig _) (by decide +kernel) (by decide +kernel) rfl (by decide)
    (by decide) (by decide)
  trivial


/-! ### Context 0 with a model, handles and chunks -/

/-- The model of context 0: one attention layer, two MoE layers of three experts, 64-token pages, 16 tokens. -/
def model0 : Model := ⟨none, false, 2, 64, 16, 1, 64, 0, 0, [0], [3, 3], [[1, 2], []], [], true⟩

/-- A pool of two 4 MiB chunks from an address on. -/
def pool2 (a : Nat) : Pool := ⟨[(a, 7), (a + 4194304, 7)], [], List.replicate 8 0⟩

/-- Khan with the live slot 1 (64 KiB of T1 from 2^26) and free chunks in T0 and T1. -/
def khan0 : Khan := { Khan.fresh with
  slots := [(1, ⟨2 ^ 26, 65536, 4, 0, 0, true⟩)], nextNew := 2
  pools := [pool2 (2 ^ 22), pool2 (2 ^ 27), pool2 (2 ^ 30), pool2 (2 ^ 31), pool2 (2 ^ 32), pool2 (2 ^ 33)] }

/-- A route configuration: LAST_EXPERT 3, KMIN and KMAX 1, BF16 gate and activations, scales of 1, PREF_MIN 1. -/
def cfg0 : Nat := packF [(0, 16, 3), (16, 5, 1), (21, 5, 1), (48, 5, 1), (53, 5, 1), (64, 32, 0x3F800000), (96, 16, 0x3F80),
  (112, 16, 1), (128, 32, h1)]

/-- Context 0 of the tests. -/
def ctx0 (x : Ctx) : Ctx := { x with
  model := some model0, khan := khan0, spill := spillBytes 64 64 1, steps := { x.steps with tokenLimit := 64 }, copyBytes := 1048576, units := [addr 1 0]
  route := ⟨1, ⟨[(0, ⟨cfg0, 0, 0, 0, []⟩), (1, ⟨cfg0, 0, 0, 0, []⟩)], []⟩, .free⟩ }

/-- A sequence of context 0 with four tokens placed. -/
def seq0 : Seq := { Seq.fresh with st := .idle, ctx := 0, maxLen := 100, pos := 4 }

/-- The state of the tests, with context 0 changed by `f`, sequence 5 given, and Waystation 3 of 16-byte words. -/
def base (f : Ctx → Ctx) (q : Seq) : State := { act (fun x => f (ctx0 x)) with seqs := [(5, q)], ws := [(3, { Ws.fresh with st := 1, width := 2 })] }

theorem base_runs (f : Ctx → Ctx) (q : Seq) : ∀ n < 6, ((base f q).fw n).st = .running := up_runs

theorem admits_base {f : Ctx → Ctx} {q : Seq} {op : Nat} {fs : List Fld} {a : List Nat} (h1 : ∀ x, (f x).st = x.st)
    (h2 : ∀ x, (f x).share = x.share) : Admits (ask (base f q) op fs a) (asked op fs a) 0 :=
  admits_st (h1 _) (h2 _) ⟨rfl, rfl⟩ rfl

abbrev base0 : State := base id seq0

theorem class_le (n : Nat) (hn : n ≤ 4194304) : classFor n ≤ 7 := by
  unfold classFor
  cases hf : firstBelow 8 (fun c => decide (n ≤ classBytes c)) with
  | none => decide
  | some k =>
    have := List.mem_range.mp (List.mem_of_find?_eq_some hf)
    show k ≤ 7
    omega

/-- A T1 pool with a free block of 4 MiB and of no other class serves any request of up to 4 MiB. -/
theorem plan_pool (x : Ctx) (e n pick : Nat) (hn : n ≤ 4194304) (h7 : ∀ c ∈ [0, 1, 2, 3, 4, 5, 6], (x.pool 1).freeBlocks c = [])
    (h8 : (x.pool 1).freeBlocks 7 ≠ []) (hq : x.charged e 1 + 4194304 ≤ x.quota e 1) :
    ∃ i k, i < ((x.pool 1).freeBlocks 7).length ∧ x.plan 1 e n pick = .inr ([((x.pool 1).freeBlocks 7).getD i 0], 7, k) := by
  have hk := class_le n hn
  have hf : (List.range 8).find? (fun c => decide (classFor n ≤ c) && !((x.pool 1).freeBlocks c).isEmpty) = some 7 := by
    rw [show List.range 8 = [0, 1, 2, 3, 4, 5, 6] ++ [7] from by decide, List.find?_append, List.find?_eq_none.mpr]
    · simp [h8, hk]
    · intro c hc; simp [h7 c hc]
  have hl : n ≤ chunkBytes := hn
  have hg : ¬ x.charged e 1 + classBytes 7 > x.quota e 1 := Nat.not_lt.mpr hq
  refine ⟨pick % ((x.pool 1).freeBlocks 7).length, b2n (7 != classFor n), Nat.mod_lt _ (List.length_pos_iff.mpr h8), ?_⟩
  unfold Ctx.plan
  simp only [hf, if_pos hl, if_neg hg]

/-- Khan has room for up to 4 MiB of T1 in context 0 of `base`, but for the spill reserve; the block is one of two. -/
theorem alloc_two {s : State} (hx : (s.ctx 0).khan = khan0) (e n : Nat) (he : e ≠ 3) (hn : n ≤ 4194304) :
    ∃ b u, b ∈ [2 ^ 27, 2 ^ 27 + 4194304] ∧ s.khanAlloc 0 1 0 e n = (some (handleOf 1 0 0 2 1, b), u) := by
  have hp : (s.ctx 0).pool 1 = pool2 (2 ^ 27) := by unfold Ctx.pool; rw [hx]; rfl
  have hq : (s.ctx 0).quota e 1 = noQuota := by
    unfold Ctx.quota; rw [hx]; rfl
  have h8 : (pool2 (2 ^ 27)).freeBlocks 7 = [2 ^ 27, 2 ^ 27 + 4194304] := by decide +kernel
  have hh : (s.ctx 0).charged e 1 ≤ layoutMiddle := by
    unfold Ctx.charged
    rw [hp, show (pool2 (2 ^ 27)).heldBy e = 0 from rfl, if_neg (by simp [he])]
    split <;> decide
  obtain ⟨i, k, hi, hb⟩ := plan_pool (s.ctx 0) e n s.draw.1 hn (by rw [hp]; decide +kernel) (by rw [hp, h8]; decide)
    (by rw [hq]; exact Nat.le_trans (Nat.add_le_add_right hh _) (by decide))
  rw [hp, h8] at hi hb
  have hm : [2 ^ 27, 2 ^ 27 + 4194304].getD i 0 ∈ [2 ^ 27, 2 ^ 27 + 4194304] := by
    rw [List.getD_eq_getElem?_getD, List.getElem?_eq_getElem hi]; exact List.getElem_mem hi
  refine ⟨[2 ^ 27, 2 ^ 27 + 4194304].getD i 0, (s.khanAlloc 0 1 0 e n).2, hm, Prod.ext ?_ rfl⟩
  unfold State.khanAlloc
  simp only [show poolIdx 1 0 = 1 from rfl, hb, hx, show khan0.nextSlot = some 2 from rfl]
  rfl

theorem alloc_base {s : State} (hx : (s.ctx 0).khan = khan0) (n : Nat) (hn : n ≤ 4194304) :
    ∃ h a u, s.khanAlloc 0 1 0 0x1 n = (some (h, a), u) := by
  obtain ⟨b, u, _, e⟩ := alloc_two hx 1 n (by decide) hn
  exact ⟨_, _, _, e⟩

/-- A reserve of the size that there is stays as it is. -/
theorem spill_fits {x : Ctx} {n : Nat} (h : n = x.spill) : x.fitSpill n = some x := if_pos h

/-- Copies that are large enough stay as they are. -/
theorem copies_fit {s : State} {c n : Nat} (h : n ≤ (s.ctx c).copyBytes) : s.fitCopies c n = (true, s) := if_pos h

theorem admits0 {op : Nat} {fs : List Fld} {a : List Nat} : Admits (ask base0 op fs a) (asked op fs a) 0 :=
  admits_base (fun _ => rfl) (fun _ => rfl)

/-- An allocation of more than 4 MiB whose plan fails gives none. -/
theorem alloc_not (s : State) (c tier die e n : Nat) (hn : ¬ n ≤ chunkBytes)
    (h : ((s.ctx c).plan (poolIdx tier die) e n 0).isLeft = true) : ∃ u, s.khanAlloc c tier die e n = (none, u) := by
  have hp : (s.ctx c).plan (poolIdx tier die) e n s.draw.1 = (s.ctx c).plan (poolIdx tier die) e n 0 := by
    unfold Ctx.plan
    rw [if_neg hn, if_neg hn]
  unfold State.khanAlloc
  cases hq : (s.ctx c).plan (poolIdx tier die) e n 0 with
  | inl f => simp only [hp, hq]; exact ⟨_, rfl⟩
  | inr b => rw [hq] at h; exact absurd h (by simp)

theorem wit_SessionMessages (h : Obligations.SessionMessages) : True := by
  have := h.1 0 1 0 0xFFFF 7 _ (ask up 0x0001 [.r 256, .u16, .u16, .r 128, .u32] [1, 0, 0xFFFF, 7, 0]) (takes_ask up_runs rfl)
    (by decide) rfl (by decide) (by decide) (by decide) (fun _ _ _ => rfl) (by decide) (by decide)
  replace h := h.2
  have := h.1 0 _ (ask up 0x0002 [] []) (takes_ask up_runs rfl) rfl
  replace h := h.2
  have := h.1 0 2 1 3 _ (ask up 0x0003 [.r 256, .u8, .u32] [2, 1, 3]) (takes_ask up_runs rfl) rfl (by decide)
  replace h := h.2
  have := h 0 ⟨1, [0], 3, 2, 0x3FFF, true⟩ _ (ask up 0x0004 [] []) (takes_ask up_runs rfl) rfl rfl
  trivial

theorem wit_SequenceMessages (h : Obligations.SequenceMessages) : True := by
  let s := ask base0 0x0100 [.u8, .u32, .u32, .u16, .u8, .u32, .u32, .u64, .u16, .u16, .u32, .u8, .u8, .u32, .u32]
    [0, 0, 7, 3, 0, 0, 100, 9, 0, 0x3F80, 0, 0, 0, 0, 0]
  obtain ⟨_, _, _, e⟩ := alloc_base (s := s) rfl 264 (by decide)
  have k : 256 + 4 * (s.ctx 0).cover 100 + 4 * (s.ctx 0).ringLen = 264 := by decide +kernel
  rw [← k] at e
  have := h.1 0 0 0 7 3 0 0 100 9 0 0x3F80 0 0 0 0 0 0 _ _ model0 _ _ _ s
    (takes_ask up_runs rfl) rfl (admits_base (fun _ => rfl) (fun _ => rfl)) rfl rfl rfl (by decide +kernel) (by decide) (by decide)
    (by decide) (by decide) (by decide) (by decide) (by decide) (by decide +kernel) rfl (by decide +kernel) (by decide +kernel)
    (alloc_ok (by rw [k]; decide) e) alloc_none
  obtain ⟨_, _, _, e⟩ := alloc_base (s := ask base0 0x0101 [.u8, .u32, .u32, .u32] [0, 5, h1, 2]) rfl 8 (by decide)
  replace h := h.2
  have := h.1 0 0 5 h1 2 _ _ _ _ (ask base0 0x0101 [.u8, .u32, .u32, .u32] [0, 5, h1, 2]) (takes_ask up_runs rfl) rfl (admits_base (fun _ => rfl) (fun _ => rfl)) rfl (by decide) rfl
    (by decide) (by decide) (by decide) rfl (by decide) (by decide) (by decide +kernel) e
  let inStep : Ctx → Ctx := fun x => { x with steps := { x.steps with
    man := some ⟨0, false, 1, 1, [⟨5, 0, 1, false, true, 4, 0, 0, 0, 0, 0, 0, 0, [], [], false, false, false, 0, false, none⟩], 0, 0,
      0, 0, 0, 1, 1, 1, 100, 0, false, [], []⟩ } }
  replace h := h.2
  have := (h.1 0 0 5 _ (ask (base inStep seq0) 0x0102 [.u8, .u32] [0, 5]) (takes_ask up_runs rfl) rfl
    (admits_base (fun _ => rfl) (fun _ => rfl)) rfl (by decide) rfl (by decide)).1 rfl
  have := (h.1 0 0 5 _ (ask base0 0x0102 [.u8, .u32] [0, 5]) (takes_ask up_runs rfl) rfl
    (admits_base (fun _ => rfl) (fun _ => rfl)) rfl (by decide) rfl (by decide)).2 rfl
  replace h := h.2
  have := h.1 0 0 5 _ (ask base0 0x0103 [.u8, .u32] [0, 5]) (takes_ask up_runs rfl) rfl
    (admits_base (fun _ => rfl) (fun _ => rfl)) rfl (by decide) rfl (by decide)
  replace h := h.2
  have := h.1 0 0 5 _ (ask (base id { seq0 with st := .waiting }) 0x0103 [.u8, .u32] [0, 5]) (takes_ask up_runs rfl) rfl
    (admits_base (fun _ => rfl) (fun _ => rfl)) rfl (by decide) rfl rfl rfl
  obtain ⟨_, _, _, e⟩ := alloc_base (s := ask base0 0x0104 [.u8, .u32, .u32, .u64] [0, 5, 8, 9]) rfl 264 (by decide)
  replace h := h.2
  obtain ⟨_, _, _, _, _, _, _, _, _, _, this⟩ := h.1 0 0 5 0 8 9 _ _ _ _ (ask base0 0x0104 [.u8, .u32, .u32, .u64] [0, 5, 8, 9]) (takes_ask up_runs rfl) rfl
    (admits_base (fun _ => rfl) (fun _ => rfl)) rfl (by decide) rfl (by decide) (by decide +kernel) (by decide +kernel) e
  have := this.2 (by decide) (by decide)
  replace h := h.2
  have := (h.1 0 0 5 _ (ask base0 0x0105 [.u8, .u32, .u8] [0, 5, 0]) (takes_ask up_runs rfl)
    (admits_base (fun _ => rfl) (fun _ => rfl)) rfl).1 rfl (by decide) rfl
  have := (h.1 0 0 5 _ (ask base0 0x0105 [.u8, .u32, .u8] [0, 5, 1]) (takes_ask up_runs rfl)
    (admits_base (fun _ => rfl) (fun _ => rfl)) rfl).2 rfl
  replace h := h.2
  have := h.1 0 0 5 0 0x3F80 40 0 0 _ (ask base0 0x0106 [.u8, .u32, .u16, .u16, .u32, .u8, .u8] [0, 5, 0, 0x3F80, 40, 0, 0])
    (takes_ask up_runs rfl) rfl (admits_base (fun _ => rfl) (fun _ => rfl)) rfl (by decide) rfl (by decide) (by decide)
    (by decide +kernel)
  replace h := h.2
  have := h.1 0 0 64 16 _ _ (ask base0 0x0110 [.u8, .u32, .u32] [0, 64, 16])
    (takes_ask up_runs rfl) rfl (admits_base (fun _ => rfl) (fun _ => rfl)) rfl (by decide) (by decide) (by decide) (by decide)
    (spill_fits (by decide +kernel)) (by decide +kernel)
  replace h := h.2
  have := h.1 0 0 _ (ask base0 0x0111 [.u8] [0]) (takes_ask up_runs rfl) rfl
    (admits_base (fun _ => rfl) (fun _ => rfl)) rfl
  replace h := h.2
  have := h 0 0 5 _ (ask (base (fun x => { x with steps := { x.steps with stalled := true } }) seq0)
    0x0102 [.u8, .u32] [0, 5]) (takes_ask up_runs rfl) rfl (admits_base (fun _ => rfl) (fun _ => rfl)) rfl
  trivial

/-- A model descriptor: one MoE layer of one expert, no attention layer, 16 tokens, one head of 64, images of 4 bytes. -/
def desc : Nat := packF [(0, 32, 0x4D4F444C), (48, 10, 1), (96, 32, 16), (128, 16, 64), (144, 16, 1), (160, 16, 64), (176, 24, 1),
  (224, 32, 4)]

/-- Memory with bytes at handle slot 1. -/
def holding (bs : List Byte) (f : Ctx → Ctx) : State := { base f seq0 with mem := (up.writeAt (2 ^ 26) bs).mem }

/-- Before a model load: the descriptor lies in T1. -/
def loading : State := ask (holding (toLE 64 desc) (fun x => { x with model := none })) 0x0200 [.u8, .u32] [0, h1]

/-- Context 0 with another model of images of 4 bytes, at its first load. -/
def imaged : State := ask (holding [0, 0, 0, 0, 0xC7, 0x4B, 0x67, 0x48] (fun x => { x with
  model := some { model0 with imageBytes := 4 }, resid := { x.resid with sources := [(0, ⟨0, 4, [], [], false, none⟩)] } }))
  0x0201 [.u8, .u16, .u16, .u16, .u32] [0, 0, 0, 1, h1]

/-- A step in flight of epoch 7 with no entry. -/
def man0 : Manifest := ⟨7, false, 0, 0, [], 0, 0, 0, 0, 0, 1, 0, 0, 100, 0, false, [], []⟩

theorem loading_primary : (loading.primary 0 0).1 = 0 := by
  have this : ∀ i < 4, ((loading.dieList 0).getD i (loading.board.pkgId, 0)).1 = 0 := by decide +kernel
  have hl : (loading.dieList 0).length = 4 := by decide +kernel
  unfold State.primary
  simp only [hl]
  exact this _ (Nat.mod_lt _ (by decide))

theorem wit_ModelMessages (h : Obligations.ModelMessages) : True := by
  have hd : ofLE (loading.bufBytes h1 0 64) = desc := by decide +kernel
  have := h.1 0 0 h1 [(0, ⟨0, 4, [], [], false, none⟩)] loading _ loading (takes_ask up_runs rfl) rfl
    (admits_st rfl rfl ⟨rfl, rfl⟩ rfl) (by decide +kernel) (by decide) (by rw [hd]; decide) (by rw [hd]; decide +kernel)
    (by rw [hd]; decide +kernel) (by rw [hd]; decide +kernel) rfl
    (by
      rw [hd]
      rw [show (loading.readModel h1 desc).experts = [0] from by decide +kernel, List.map_cons, loading_primary]
      decide +kernel) (by rw [hd]; exact copies_fit (by decide +kernel))
  replace h := h.2
  have := h.1 0 0 0 0 1 h1 _ _ imaged (takes_ask up_runs rfl) rfl (admits_st rfl rfl ⟨rfl, rfl⟩ rfl) rfl rfl (by decide)
    (by decide) (by decide +kernel) (by decide +kernel)
  replace h := h.2
  have := h.1 0 0 5 _ (ask (base (fun x => { x with steps := { x.steps with doneMask := 32 } }) seq0) 0x0215
    [.u8, .u16, .u16, .u16, .u32, .r 512] [0, 5, 0, 0, 0, 0]) (takes_ask up_runs rfl) (admits_st rfl rfl ⟨rfl, rfl⟩ rfl)
    (fun _ k => by cases k) (.inl (by decide)) (by unfold Spells; decide +kernel)
  replace h := h.2
  have := h 0 0 0 h1 man0 model0 _ (ask (base (fun x => { x with steps := { x.steps with man := some man0 } }) seq0) 0x0215
    [.u8, .u16, .u16, .u16, .u32, .r 512] [0, 7, 0, 1, h1, 0]) (takes_ask up_runs rfl) (admits_st rfl rfl ⟨rfl, rfl⟩ rfl)
    rfl rfl (by decide) (by decide +kernel) (by decide +kernel) (by unfold Spells; decide +kernel) rfl rfl
  trivial

/-- Context 0 with an old route copy that the step in flight is bound to. -/
def old0 (x : Ctx) : Ctx := { x with
  route := ⟨1, x.route.active, .old x.route.active⟩, steps := { x.steps with man := some { man0 with routeGen := 0 } } }

/-- Context 0 with the gate bias of layer 0 in use. -/
def biased (x : Ctx) : Ctx := { x with
  route := ⟨1, ⟨[(0, ⟨setBits cfg0 29 1 1, 0, 0, 0, []⟩)], []⟩, .free⟩ }

/-- Default dispatch and combine configurations (Tables 5-2, 6-5). -/
def disp0 : Nat := dispDefault

theorem wit_RouteMessages (h : Obligations.RouteMessages) : True := by
  let s := ask base0 0x0210 [.u8, .u16, .r 256] [0, 1, cfg0]
  have a := h.1 0 0 1 cfg0 _ _ _ s (takes_ask up_runs rfl) rfl (admits_st rfl rfl ⟨rfl, rfl⟩ rfl) (by decide +kernel)
    (spill_fits (by decide +kernel)) (copies_fit (by decide +kernel)) (by decide +kernel) rfl
  have := a.1 rfl
  let s := ask (base (fun x => { x with steps := { x.steps with man := some man0 } }) seq0) 0x0210 [.u8, .u16, .r 256] [0, 1, cfg0]
  have a := h.1 0 0 1 cfg0 _ _ _ s (takes_ask up_runs rfl) rfl (admits_st rfl rfl ⟨rfl, rfl⟩ rfl) (by decide +kernel)
    (spill_fits (by decide +kernel)) (copies_fit (by decide +kernel)) (by decide +kernel) rfl
  have := a.2 rfl
  let s := ask (base old0 seq0) 0x0210 [.u8, .u16, .r 256] [0, 1, cfg0]
  replace h := h.2
  have := h.1 0 0 1 cfg0 _ _ _ _ s (takes_ask up_runs rfl) rfl (admits_st rfl rfl ⟨rfl, rfl⟩ rfl) (by decide +kernel)
    (spill_fits (by decide +kernel)) (copies_fit (by decide +kernel)) (by decide +kernel) rfl (by decide +kernel)
  let s := ask (base biased seq0) 0x0211 [.u8, .u16, .u32] [0, 0, h1]
  replace h := h.2
  have := h.1 0 0 0 h1 _ s (takes_ask up_runs rfl) rfl (admits_st rfl rfl ⟨rfl, rfl⟩ rfl) (by decide +kernel)
    (by decide +kernel) (by decide +kernel) (by decide +kernel) rfl rfl
  let s := ask base0 0x0214 [.u8, .u16, .u16, .r 128] [0, 0, 3, dispDefault]
  replace h := h.2
  have step := h.1 0 0 0 3 dispDefault _ s (takes_ask up_runs rfl) rfl (admits_st rfl rfl ⟨rfl, rfl⟩ rfl) (by decide +kernel) (by decide +kernel) (by decide +kernel) (by decide +kernel)
  replace step := step (by decide +kernel) (by decide +kernel) (by decide +kernel) (by decide +kernel)
  have := step (by decide +kernel) (by decide +kernel) (by decide +kernel) (by decide +kernel) rfl rfl
  let s := ask base0 0x0217 [.u8, .u16, .r 128] [0, 0, combDefault]
  replace h := h.2
  have step := h.1 0 0 0 combDefault _ s (takes_ask up_runs rfl) rfl (admits_st rfl rfl ⟨rfl, rfl⟩ rfl) (by decide +kernel) (by decide +kernel) (by decide +kernel) (by decide +kernel)
  replace step := step (by decide +kernel) (by decide +kernel) (by decide +kernel) (by decide +kernel)
  have := step (by decide +kernel) (by decide +kernel) (by decide +kernel) rfl rfl
  let s := ask base0 0x0212 [.u8, .u16, .u16, .u16] [0, 0, 2, 2]
  replace h := h.2
  have := h.1 0 0 0 2 2 _ s (takes_ask up_runs rfl) rfl (admits_st rfl rfl ⟨rfl, rfl⟩ rfl) (by decide +kernel)
    (by decide +kernel) (by decide) (by decide)
  let s := ask base0 0x0213 [.u8, .u16, .u32] [0, 0, 0]
  replace h := h.2
  have := h.1 0 0 0 _ s (takes_ask up_runs rfl) rfl (admits_st rfl rfl ⟨rfl, rfl⟩ rfl) (by decide +kernel)
  let s := ask base0 0x0213 [.u8, .u16, .u32] [0, 0, h1]
  replace h := h.2
  obtain ⟨_, _, _, this⟩ := h.1 0 0 0 h1 _ s (takes_ask up_runs rfl) rfl (admits_st rfl rfl ⟨rfl, rfl⟩ rfl)
    (by decide +kernel) (by decide) (by decide +kernel)
  have := this (by decide +kernel) 3 (by decide)
  replace h := h.2
  have := h 0 0 10 _ (ask base0 0x0219 [.u8, .u32] [0, 10]) (takes_ask up_runs rfl) rfl
    (admits_st rfl rfl ⟨rfl, rfl⟩ rfl) (by decide) (by decide)
  trivial

/-- The header of user function 0x21 of context 0 with 32 segments for positive arguments, of the binade from 2^0 on. -/
def sfnHead : Nat := packF [(0, 8, 0x21), (24, 7, 1), (32, 2, 1)]

theorem wit_TableMessages (h : Obligations.TableMessages) : True := by
  let s := ask (holding (toLE 32 (packF [(0, 8, 0x21), (12, 1, 1)])) id) 0x0230 [.u8, .u32] [0, h1]
  have := h.1 0 0 h1 _ s (takes_ask up_runs rfl) rfl (admits_st rfl rfl ⟨rfl, rfl⟩ rfl) (by decide +kernel)
    (by decide +kernel) (by decide +kernel) (by decide +kernel) (by decide +kernel) rfl rfl
  let s := ask (holding (toLE 32 sfnHead) id) 0x0230 [.u8, .u32] [0, h1]
  replace h := h.2
  have load := h.1 0 0 h1 _ s (takes_ask up_runs rfl) rfl (admits_st rfl rfl ⟨rfl, rfl⟩ rfl)
  replace load := load (by decide +kernel) (by decide +kernel) (by decide +kernel) (by decide +kernel)
  replace load := load (by decide +kernel) (by decide +kernel) (by decide +kernel) (by decide +kernel)
  replace load := load (by decide +kernel) (by decide +kernel) (by decide +kernel) (by decide +kernel)
  have := load (by decide +kernel) (by decide +kernel) (by decide +kernel) (by decide +kernel) (by decide +kernel) rfl rfl
  replace h := h.2
  have := h.1 0 0 _ (ask base0 0x0231 [.u8] [0]) (takes_ask up_runs rfl) rfl (admits_st rfl rfl ⟨rfl, rfl⟩ rfl)
  let s := ask base0 0x0232 [.u8, .u16, .u16, .u32] [0, 4095, 1, h1]
  replace h := h.2
  obtain ⟨_, _, _, this, _⟩ := h.1 0 0 4095 1 h1 _ s (takes_ask up_runs rfl) rfl (admits_st rfl rfl ⟨rfl, rfl⟩ rfl) (by decide)
    (by decide +kernel) rfl rfl
  have := this (fun _ k => by cases k) 4096 (by decide)
  replace h := h.2
  have := h.1 0 0 4095 1 _ (ask base0 0x0233 [.u8, .u16, .u16] [0, 4095, 1]) (takes_ask up_runs rfl) rfl
    (admits_st rfl rfl ⟨rfl, rfl⟩ rfl) (by decide) (by decide)
  replace h := h.2
  have := h.1 0 _ (base (fun x => { x with route := ⟨1, x.route.active, .old ⟨[], []⟩⟩ }) seq0) (by decide) (by decide) rfl
    rfl (by decide +kernel) rfl rfl rfl
  replace h := h.2
  have := h.1 0 0 (base old0 seq0) (by decide) (by decide) rfl rfl (by decide +kernel)
  let m : Msg := { asked 0x0210 [.u8, .u16, .r 256] [0, 1, cfg0] with phase := .reloadWait 1000000 }
  replace h := h.2
  have := h 0 1000000 m { base (fun x => old0 x) seq0 with
    host := { up.host with msgs := [m] }, tb := { up.tb with count := 1000001 } } rfl rfl rfl (by decide)
  trivial

/-- A residency policy within Table 7-5's ranges. -/
def policy0 : Nat := packF [(8, 16, 10), (24, 16, 256), (40, 16, 64), (72, 16, 100), (88, 16, 8)]

/-- Context 0 with images of 4 bytes, a lost expert 3 of layer 1, and its replacement in memory. -/
def reloading : State := holding [0, 0, 0, 0, 0xC7, 0x4B, 0x67, 0x48] (fun x => { x with
  model := some { model0 with imageBytes := 4 }, resid := { x.resid with unread := [expKey 1 3] } })

theorem wit_ResidencyAndCounters (h : Obligations.ResidencyAndCounters) : True := by
  have step := h.1 0 0 policy0 _ (ask base0 0x0222 [.u8, .r 128] [0, policy0]) (takes_ask up_runs rfl) rfl
    (admits_st rfl rfl ⟨rfl, rfl⟩ rfl) (by decide +kernel) (by decide +kernel) (by decide) (by decide)
  have := step (by decide) (by decide) (by decide) (by decide)
  replace h := h.2
  have hint (kind v : Nat) (hs : Spells [.u8, .u16, .u16, .u32, .u8, .u8] (asked 0x0220 [.u8, .u16, .u16, .u32, .u8, .u8] [0, 1, 3, 1, kind, v]) [0, 1, 3, 1, kind, v])
      (h0 : 0 < kind) (h7 : kind ≤ 7) (h3 : kind = 3 ∨ kind = 4 → 0 < v ∧ v ≤ 16) (h5 : kind = 5 → v ≤ 1) :=
    h.1 0 0 1 3 1 kind v _ (ask base0 0x0220 [.u8, .u16, .u16, .u32, .u8, .u8] [0, 1, 3, 1, kind, v]) (takes_ask up_runs rfl) hs
      (admits_st rfl rfl ⟨rfl, rfl⟩ rfl) (show ∀ k ∈ base0.layerChecks 0 1, k.1 = false by decide +kernel) h0 h7 h3 h5
      (show 1 ≠ 0 → 3 + 1 ≤ (base0.ctx 0).lastExpert 1 + 1 by decide) rfl
  obtain ⟨_, _, _, _, _, _, _, _, this, _, _⟩ := hint 3 1 rfl (by decide) (by decide) (by decide) (by decide)
  have := this rfl (by decide) (by decide) (by decide +kernel)
  obtain ⟨_, _, _, _, _, _, _, _, _, this, _⟩ := hint 5 1 rfl (by decide) (by decide) (by decide) (by decide)
  have := this rfl (by decide) (by decide) (by decide +kernel)
  obtain ⟨_, _, _, _, _, _, _, _, _, _, this, _⟩ := hint 7 0 rfl (by decide) (by decide) (by decide) (by decide)
  have := this rfl rfl
  obtain ⟨_, _, _, _, _, _, _, _, _, _, _, this⟩ := hint 2 0 rfl (by decide) (by decide) (by decide) (by decide)
  have := this rfl rfl
  replace h := h.2
  have := h.1 0 0 1 3 _ (ask base0 0x0221 [.u8, .u16, .u16] [0, 1, 3]) (takes_ask up_runs rfl) rfl
    (admits_st rfl rfl ⟨rfl, rfl⟩ rfl) (by decide +kernel) (by decide)
  replace h := h.2
  have := h.1 0 0 1 3 h1 _ (ask reloading 0x0223 [.u8, .u16, .u16, .u32] [0, 1, 3, h1]) (takes_ask up_runs rfl) rfl
    (admits_st rfl rfl ⟨rfl, rfl⟩ rfl) (by decide +kernel) (by decide) (.inr (.inr (by decide +kernel))) (by decide +kernel)
    (by decide +kernel) (by decide +kernel) (by decide)
  have ad {op : Nat} : Admits (ask base0 op [.u8] [0]) (asked op [.u8] [0]) 0 := admits_st rfl rfl ⟨rfl, rfl⟩ rfl
  have tk {op : Nat} : Takes (ask base0 op [.u8] [0]) 0 op (asked op [.u8] [0]) := takes_ask up_runs rfl
  replace h := h.2
  have c (op : Nat) := h 0 0 _ (ask base0 op [.u8] [0]) ad rfl
  have := (c _).1 tk
  have := (c _).2.1 tk
  have := (c _).2.2.1 tk
  have := (c _).2.2.2.1 tk
  have := (c _).2.2.2.2.1 tk
  have := (c _).2.2.2.2.2.1 tk
  have := (c _).2.2.2.2.2.2.1 tk
  have := (c _).2.2.2.2.2.2.2 tk
  trivial

/-- `base0` with other lots and clock. -/
def lending (l : List Lent) (now : Nat) : State :=
  { base0 with lend := { base0.lend with lots := l, recallMs := 50, lendT2 := 1 }, tb := { up.tb with count := now } }

/-- `base0` with other KV fields. -/
def kvTo (f : Kv → Kv) : State := base (fun x => { x with kv := f x.kv }) seq0

/-- A far sequence of one column that has left IDLE, with a free column. -/
def farSeq : State := base (fun x => { x with kv := { x.kv with
  cols := [(3, ⟨false, [], 1, [], 0, some .t4, []⟩)], freeFull := [[0]] } })
  { seq0 with st := .decode, kvFar := true, cols := [3] }

/-- A column of one granule that may go, with g GiB of far memory for its context, which may not borrow. -/
def evictable (g : Nat) : State := base (fun x => { x with
  share := { x.share with t4Gib := g }
  kv := { x.kv with noLend := true, wanted := (1, 0), cols := [(3, ⟨false, [2 ^ 30], 1, [], 0, none, []⟩)] } }) seq0

/-- A frame of one granule that may go. -/
def oldFrame : Frame := ⟨0, 1, 0, 0, 2, [2 ^ 30], 0, false⟩

def framed : State := base (fun x => { x with
  kv := { x.kv with wanted := (1, 0) }, resid := { x.resid with frames := [oldFrame] } }) seq0

/-- Of one other package, it is the one to ask. -/
theorem best_one {s : State} (h : s.fab.present = [0, 1]) (hb : s.board.pkgId = 0) : s.bestLender = some 1 := by
  unfold State.bestLender State.others
  rw [h, hb]
  rfl

theorem wit_TiersAndLending (h : Obligations.TiersAndLending) : True := by
  have := h.1 0 0 _ (ask base0 0x0300 [.u8] [0]) (takes_ask up_runs rfl) rfl (admits_st rfl rfl ⟨rfl, rfl⟩ rfl)
  replace h := h.2
  have := h.1 0 0 1023 1 _ (ask base0 0x0301 [.u8, .u32, .u8] [0, 1023, 1]) (takes_ask up_runs rfl) rfl
    (admits_st rfl rfl ⟨rfl, rfl⟩ rfl) (.inl rfl) (by decide) (by decide)
  replace h := h.2
  have := h.1 0 0 0 _ (ask base0 0x0301 [.u8, .u32, .u8] [0, 0, 4]) (takes_ask up_runs rfl) rfl (admits_st rfl rfl ⟨rfl, rfl⟩ rfl)
  replace h := h.2
  have := h.1 0 0 1023 _ (ask base0 0x0301 [.u8, .u32, .u8] [0, 1023, 5]) (takes_ask up_runs rfl) rfl
    (admits_st rfl rfl ⟨rfl, rfl⟩ rfl) (by decide) (by decide)
  replace h := h.2
  have := h.1 0 0 131072 2 _ (ask base0 0x0301 [.u8, .u32, .u8] [0, 131072, 2]) (takes_ask up_runs rfl) rfl
    (admits_st rfl rfl ⟨rfl, rfl⟩ rfl) (.inr (.inl rfl)) (by decide)
  replace h := h.2
  have := h.1 0 64 0 1000 _ (ask up 0x0302 [.u16, .u16, .u16] [64, 0, 1000]) (takes_ask up_runs rfl) rfl (by decide) (by decide)
  let lot := addr 1 0x10000000
  replace h := h.2
  have := h.1 1 0 lot (lending [] 0) rfl (by decide) (by decide) (by decide +kernel) rfl (by decide +kernel)
  let asks : State := { base (fun x => { x with kv := { x.kv with lots := [] } }) seq0 with fab := { up.fab with present := [0, 1] } }
  replace h := h.2
  have := h.1 1 0 lot asks rfl (by decide) (by decide) (by decide) rfl rfl (by decide) rfl (best_one rfl rfl) (fun _ k => by cases k)
  replace h := h.2
  have := h.1 1 0 0 lot { asks with fws := List.replicate 6 Fwp.fresh } (by decide)
  replace h := h.2
  have := h.1 0 (addr 2 0) ⟨addr 2 0, 1, 0, none, false⟩
    { lending [⟨addr 2 0, 1, 0, none, false⟩] 0 with lend := { base0.lend with lots := [⟨addr 2 0, 1, 0, none, false⟩], lendT2 := 0 } }
    rfl (by decide) (by decide +kernel) rfl rfl
  replace h := h.2
  have := h.1 1 0 lot ⟨1, lot, 0, false⟩ (kvTo (fun k => { k with lots := [⟨1, lot, 0, false⟩] })) rfl (by decide)
    (by decide) (by decide) rfl rfl rfl rfl rfl rfl
  replace h := h.2
  have := h.1 lot 0 ⟨lot, 1, 0, some 0, false⟩ (lending [⟨lot, 1, 0, some 0, false⟩] 50000001) rfl rfl rfl rfl
    (by decide +kernel)
  replace h := h.2
  have := h.1 0 lot (lending [⟨lot, 1, 0, some 0, false⟩] 0) ⟨_, List.mem_cons_self .., rfl⟩
  replace h := h.2
  have := h.1 1 0 lot ⟨1, lot, 0, true⟩ (kvTo (fun k => { k with lots := [⟨1, lot, 0, true⟩] })) (by decide)
    (by decide) rfl rfl rfl rfl (by decide +kernel)
  replace h := h.2
  have := h.1 0 none base0 (by decide) rfl
  replace h := h.2
  have a := h.1 0 (2 ^ 64) (2 ^ 30) 3 none (evictable 1) (by decide) (by decide) rfl (by decide +kernel) (by decide +kernel) rfl (by decide +kernel)
    (by decide +kernel)
  have := a.1 (by decide +kernel) (by decide +kernel) (by decide +kernel)
  have a := h.1 0 (2 ^ 64) (2 ^ 30) 3 none (evictable 0) (by decide) (by decide) rfl (by decide +kernel) (by decide +kernel) rfl (by decide +kernel)
    (by decide +kernel)
  have := a.2 (by decide +kernel)
  replace h := h.2
  have := h.1 0 (2 ^ 64) (2 ^ 30) 0 1 oldFrame none framed (by decide) (by decide) rfl (by decide +kernel) rfl rfl (by decide +kernel)
    (by decide +kernel) (by decide +kernel)
  replace h := h.2
  have := h 0 5 3 [0] [] farSeq (by decide) (by decide) rfl rfl (by decide +kernel) rfl
    (by decide +kernel) rfl rfl (by decide)
  trivial

/-- `base0` with other chunks and blocks in the T1 pool. -/
def pooled (p : Pool) : State := base (fun x => { x with
  khan := { x.khan with pools := updAt x.khan.pools 1 (fun _ => p) }, route := ⟨1, ⟨[], []⟩, .free⟩ }) seq0

theorem wit_KhanAllocation (h : Obligations.KhanAllocation) : True := by
  let s := ask base0 0x0310 [.u8, .u8, .u8, .u64] [0, 1, 0, 4194304]
  obtain ⟨_, _, _, e⟩ := alloc_two (s := s) rfl 0 4194304 (by decide) (by decide)
  have := (h.1 0 0 1 0 4194304 _ _ _ _ s (takes_ask up_runs rfl) (by unfold Spells; decide +kernel) (admits_st rfl rfl ⟨rfl, rfl⟩ rfl) (by decide) (by decide)
    (.inl rfl) (by decide)).2.1 (by decide) e
  let s := ask base0 0x0310 [.u8, .u8, .u8, .u64] [0, 2, 3, 0]
  have := (h.1 0 0 2 3 0 0 0 s _ s (takes_ask up_runs rfl) (by unfold Spells; decide +kernel) (admits_st rfl rfl ⟨rfl, rfl⟩ rfl) (by decide) (by decide)
    (.inr rfl) (by decide)).1 rfl
  let s := ask base0 0x0310 [.u8, .u8, .u8, .u64] [0, 1, 0, 4194304 * 3]
  obtain ⟨_, e⟩ := alloc_not s 0 1 0 0 (4194304 * 3) (by decide) (by decide +kernel)
  have := (h.1 0 0 1 0 (4194304 * 3) 0 0 _ _ s (takes_ask up_runs rfl) (by unfold Spells; decide +kernel) (admits_st rfl rfl ⟨rfl, rfl⟩ rfl) (by decide) (by decide)
    (.inl rfl) (by decide)).2.2 (by decide) e
  obtain ⟨_, _, _, e⟩ := alloc_two (s := base0) rfl 0 4194304 (by decide) (by decide)
  replace h := h.2
  have := h.1 0 0 1 0 4194304 _ _ _ base0 (by decide) (by decide) (by decide) (by decide) e
  let s := ask (pooled (pool2 (2 ^ 27))) 0x0311 [.u8, .u32] [0, h1]
  replace h := h.2
  have := (h.1 0 0 h1 _ s (takes_ask up_runs rfl) (by unfold Spells; decide +kernel) (admits_st rfl rfl ⟨rfl, rfl⟩ rfl) (by decide +kernel)).1 (by decide +kernel)
  let p := { pool2 (2 ^ 26) with used := [(2 ^ 26, 0)] }
  let s := ask (pooled p) 0x0311 [.u8, .u32] [0, h1]
  have a := h.1 0 0 h1 _ s (takes_ask up_runs rfl) (by unfold Spells; decide +kernel) (admits_st rfl rfl ⟨rfl, rfl⟩ rfl) (by decide +kernel)
  have := a.2.1 (by decide +kernel) (by decide +kernel)
  let s := ask (base (fun x => { x with khan := { x.khan with pools := updAt x.khan.pools 1 (fun _ => p) } }) seq0) 0x0311
    [.u8, .u32] [0, h1]
  have a := h.1 0 0 h1 _ s (takes_ask up_runs rfl) (by unfold Spells; decide +kernel) (admits_st rfl rfl ⟨rfl, rfl⟩ rfl) (by decide +kernel)
  have := a.2.2 (by decide +kernel) (by decide +kernel) (by decide)
  let s := ask base0 0x0311 [.u8, .u32] [0, 0]
  replace h := h.2
  have := h.1 0 0 0 _ _ s (takes_ask up_runs rfl) (by unfold Spells; decide +kernel) (admits_st rfl rfl ⟨rfl, rfl⟩ rfl) rfl
  let s := ask base0 0x0312 [.u8, .u8, .u8, .u8, .u64] [0, 0xB, 2, 3, noQuota]
  replace h := h.2
  have := h.1 0 0 0xB 2 3 noQuota _ s (takes_ask up_runs rfl) (by unfold Spells; decide +kernel) (admits_st rfl rfl ⟨rfl, rfl⟩ rfl) (by decide) (by decide)
    (by decide) (.inr rfl) (by decide)
  replace h := h.2
  have := h.1 0 0xB 2 3 1 base0 rfl (by decide) (by decide) (by decide) (by decide)
  replace h := h.2
  have := h.1 0 5 0 base0 rfl (by decide) (by decide +kernel)
  let s := pooled { pool2 (2 ^ 27) with used := [(2 ^ 27, 1)] }
  replace h := h.2
  have := h.1 0 1 (2 ^ 27) 7 s (by decide) rfl (by decide) (by decide) (by decide +kernel) (by decide +kernel)
    (by decide +kernel) (by decide +kernel)
  replace h := h.2
  have := h.1 0 1 7 s (by decide) rfl (by decide) (by decide) (by decide) (by decide)
  replace h := h.2
  have := h 0 1 (2 ^ 27 + 4194304) 7 6 s (by decide) rfl (by decide) (by decide) (by decide) (by decide +kernel)
    (by decide) (by decide +kernel) (by decide +kernel)
  trivial

/-- `base0` with Waystation 3 changed. -/
def wsTo (f : Ws → Ws) : State := { base0 with ws := [(3, f { Ws.fresh with st := 1, width := 2 })] }

/-- A host push of one 16-byte word. -/
def pushed (f : Ws → Ws) : State := { wsTo f with
  host := { up.host with msgs := [msgOf 0x0326 (writeFields ([(.u8, 0), (.u8, 0), (.u16, 3), (.u16, 1)]) ++
    List.replicate 58 0)] } }

theorem pushed_takes {f : Ws → Ws} : Takes (pushed f) 0 0x0326 (msgOf 0x0326 (writeFields ([(.u8, 0), (.u8, 0), (.u16, 3), (.u16, 1)])
    ++ List.replicate 58 0)) where
  oldest := rfl
  running := up_runs _ (owner_lt _)
  serves := rfl

theorem wit_WaystationMessages (h : Obligations.WaystationMessages) : True := by
  let s := ask base0 0x0320 [.u8, .u8, .u8, .u8, .u32] [0, 4, 2, 7, 3]
  have := h.1 0 0 4 2 7 3 0 0 s.draw.2 _ s (takes_ask up_runs rfl) rfl (admits_st rfl rfl ⟨rfl, rfl⟩ rfl) (by decide) (by decide)
    (by decide) (by decide) (by decide) ⟨0, by decide⟩ (.inl ⟨rfl, rfl, rfl⟩)
  let s := ask base0 0x0320 [.u8, .u8, .u8, .u8, .u32] [0, 4, 2, 8, 3]
  obtain ⟨_, _, _, e⟩ := alloc_two (s := s.draw.2) rfl 0x9 ((2 ^ 8 - 128) * (4 * 2 ^ 4)) (by decide) (by decide)
  have := h.1 0 0 4 2 8 3 _ _ _ _ s (takes_ask up_runs rfl) rfl (admits_st rfl rfl ⟨rfl, rfl⟩ rfl) (by decide) (by decide)
    (by decide) (by decide) (by decide) ⟨0, by decide⟩ (.inr ⟨by decide, e⟩)
  replace h := h.2
  have := h.1 0 0 3 _ (ask base0 0x0321 [.u8, .u16] [0, 3]) (takes_ask up_runs rfl) rfl (admits_st rfl rfl ⟨rfl, rfl⟩ rfl)
    (by decide) (by decide) (by decide +kernel)
  replace h := h.2
  have := (h.1 0 0 3 _ (ask base0 0x0322 [.u8, .u16, .u32] [0, 3, 0]) (takes_ask up_runs rfl)
    (admits_st rfl rfl ⟨rfl, rfl⟩ rfl) (by decide)).1 rfl
  have := (h.1 0 0 3 _ (ask base0 0x0322 [.u8, .u16, .u32] [0, 3, 1]) (takes_ask up_runs rfl)
    (admits_st rfl rfl ⟨rfl, rfl⟩ rfl) (by decide)).2 rfl
  let s := ask (wsTo (fun q => { q with words := [(5, false)], headN := 1, writePtr := 1 })) 0x0323 [.u8, .u16, .u16, .u32] [0, 3, 1, 0]
  replace h := h.2
  obtain ⟨_, _, _, _, _, _, this⟩ := h.1 0 0 3 1 0 _ s (takes_ask up_runs rfl) rfl (admits_st rfl rfl ⟨rfl, rfl⟩ rfl)
    (by decide) (by decide) (by decide) (by decide) (by decide)
  have := this 5 [] rfl rfl rfl rfl rfl (by decide)
  let s := ask (wsTo (fun q => { q with words := [(5, false)], headN := 1, writePtr := 1, readPtr := 1, markHeld := true })) 0x0324
    [.u8, .u16] [0, 3]
  replace h := h.2
  obtain ⟨_, _, this, _⟩ := h.1 0 0 3 _ s (takes_ask up_runs rfl) rfl (admits_st rfl rfl ⟨rfl, rfl⟩ rfl) (by decide) (by decide) (by decide)
  have := this rfl
  let s := ask base0 0x0324 [.u8, .u16] [0, 3]
  obtain ⟨_, _, _, this, _⟩ := h.1 0 0 3 _ s (takes_ask up_runs rfl) rfl (admits_st rfl rfl ⟨rfl, rfl⟩ rfl) (by decide) (by decide) (by decide)
  have := this rfl
  let s := ask (wsTo (fun q => { q with words := [(5, false)], headN := 1, writePtr := 1, readPtr := 1, markHeld := true })) 0x0325
    [.u8, .u16] [0, 3]
  replace h := h.2
  obtain ⟨_, _, this, _⟩ := h.1 0 0 3 _ s (takes_ask up_runs rfl) rfl (admits_st rfl rfl ⟨rfl, rfl⟩ rfl) (by decide) (by decide) (by decide)
  have := this rfl
  let s := ask base0 0x0325 [.u8, .u16] [0, 3]
  obtain ⟨_, _, _, this, _⟩ := h.1 0 0 3 _ s (takes_ask up_runs rfl) rfl (admits_st rfl rfl ⟨rfl, rfl⟩ rfl) (by decide) (by decide) (by decide)
  have := this rfl
  replace h := h.2
  have step := h.1 0 0 3 1 _ (pushed (fun q => { q with hostPush := true, depthLog2 := 7 })) pushed_takes (admits_msg rfl rfl ⟨rfl, rfl⟩ rfl rfl) (by decide +kernel) (by decide +kernel) (by decide +kernel) (by decide +kernel)
  have := (step (by decide +kernel) (by decide +kernel) (by decide) (by decide) rfl (by decide) (by decide)).1 (by decide)
  have step := h.1 0 0 3 1 _ (pushed (fun q => { q with hostPush := true, depthLog2 := 0, words := [(5, false)] })) pushed_takes (admits_msg rfl rfl ⟨rfl, rfl⟩ rfl rfl) (by decide +kernel) (by decide +kernel) (by decide +kernel) (by decide +kernel)
  have := (step (by decide +kernel) (by decide +kernel) (by decide) (by decide) rfl (by decide) (by decide)).2 (by decide)
  replace h := h.2
  have := h.1 3 (wsTo (fun q => { q with words := List.replicate 64 (0, false), headN := 32, midN := 32 })) (by decide) (by decide)
  replace h := h.2
  have := h 3 (wsTo (fun q => { q with words := List.replicate 96 (0, false), headN := 64 })) (by decide +kernel) (by decide)
  trivial

/-- `base0` with post 2 in a given state, and a clock. -/
def postTo (p : Post) (now : Nat) : State := { base0 with posts := [(2, p)], tb := { up.tb with count := now } }

/-- An armed post of target 2. -/
def armed : Post := { Post.fresh with st := 1, target := 2, phase := 4 }

theorem wit_TallyPosts (h : Obligations.TallyPosts) : True := by
  let s := ask base0 0x0640 [.u8, .u16, .u16, .u32, .u32, .u64] [0, 2, 3, 3, 0, 1]
  have := h.1 0 0 2 3 3 0 1 _ s (takes_ask up_runs rfl) rfl (admits_st rfl rfl ⟨rfl, rfl⟩ rfl) (by decide) (by decide)
    (by decide) (by decide) (by decide) rfl
  replace h := h.2
  have ar (p : Post) (phase flags : Nat) (e : Spells [.u8, .u16, .u16, .u32, .u32] (asked 0x0641 [.u8, .u16, .u16, .u32, .u32] [0, 2, phase, flags, 9]) [0, 2, phase, flags, 9])
      (hf : flags < 2) := h.1 0 0 2 phase flags 9 _ (ask (postTo p 0) 0x0641 [.u8, .u16, .u16, .u32, .u32] [0, 2, phase, flags, 9])
    (takes_ask up_runs rfl) e (admits_st rfl rfl ⟨rfl, rfl⟩ rfl) hf (show (base0.ctx 0).hasPost 2 = true by decide)
  obtain ⟨_, _, _, _, _, this, _⟩ := ar armed 3 1 rfl (by decide)
  have := this rfl (by decide)
  obtain ⟨_, _, _, _, _, _, this, _⟩ := ar Post.fresh 0 0 rfl (by decide)
  have := this rfl (by decide)
  obtain ⟨_, _, _, _, _, _, _, this, _⟩ := ar armed 0 0 rfl (by decide)
  have := this rfl (by decide) (by decide)
  obtain ⟨_, _, _, _, _, _, _, _, this, _⟩ := ar { armed with st := 2 } 0 0 rfl (by decide)
  have := this rfl (by decide)
  obtain ⟨_, _, _, _, _, _, _, _, _, this⟩ := ar { armed with st := 3 } 0 0 rfl (by decide)
  have := this rfl (by decide)
  replace h := h.2
  have := h.1 0 0 2 _ (ask (postTo armed 0) 0x0642 [.u8, .u16] [0, 2]) (takes_ask up_runs rfl) rfl (admits_st rfl rfl ⟨rfl, rfl⟩ rfl)
    (by decide)
  replace h := h.2
  obtain ⟨_, _, _, _, _, _, this, _⟩ := h.1 2 0 1 none (postTo armed 0) (.inl rfl) (by decide) (by decide) (.inl rfl) (by decide)
  have := this (by decide)
  obtain ⟨_, _, _, _, _, this, _⟩ := h.1 2 9 1 (some 4) (postTo { armed with target := 1, remoteOk := true } 0) (.inr rfl) (by decide)
    (by decide) (.inr rfl) (by decide)
  have := this (by decide)
  replace h := h.2
  have := h.1 2 0 1 (some 3) (postTo armed 0) (by decide) (by decide)
  replace h := h.2
  have := h.1 2 9 1 (postTo armed 0) (.inr (by decide))
  have := h.1 2 0 1 (postTo Post.fresh 0) (.inl (by decide))
  replace h := h.2
  have := h.1 2 1 (postTo { armed with st := 3 } 0) (by decide) (by decide)
  replace h := h.2
  have := h.1 2 (postTo { armed with deadline := 9 } 10) (by decide) (by decide) (by decide) (by decide)
  replace h := h.2
  have := h.1 2 (postTo { armed with deadline := 9 } 9) (by decide)
  replace h := h.2
  have := h 2 7 [] { postTo { armed with late := [7], lateWs := 3 } 9 with
    ws := [(3, { Ws.fresh with st := 1, width := 2, depthLog2 := 7 })] } (by decide) (by decide) (by decide)
  trivial

/-- A state with partition 0 changed. -/
def partTo (s : State) (f : Part → Part) (now : Nat) : State :=
  { s with parts := updAt s.parts 0 f, tb := { s.tb with count := now } }

/-- A sequence that a step could take. -/
def ready0 : State := base id { seq0 with st := .prefill, feed := [1], segs := [(0, 1)], stamps := [(0, 1)] }

theorem wit_PartitionMessages (h : Obligations.PartitionMessages) : True := by
  have := h.1 0 1 1 0 0 10000 _ (ask up 0x0500 [.u8, .u32, .u16, .u16, .u32] [1, 1, 0, 0, 10000]) (takes_ask up_runs rfl) rfl (by decide)
    (by decide) (by decide) (by decide) (by decide) (by decide)
  replace h := h.2
  have := h.1 0 0 0 0 _ (ask base0 0x0500 [.u8, .u32, .u16, .u16, .u32] [0, 0, 0, 0, 0]) (takes_ask up_runs rfl) (by decide)
    (by decide) (by decide) rfl rfl
  replace h := h.2
  have := h.1 0 7 _ (ask up 0x0501 [.u8] [7]) (takes_ask up_runs rfl) rfl (by decide)
  let r := packF [(0, 16, 1), (16, 16, 4), (32, 8, 1)]
  replace h := h.2
  have := h.1 0 7 6 r _ (ask up 0x0502 [.u8, .u8, .u64] [7, 6, r]) (takes_ask up_runs rfl) (by unfold Spells; decide +kernel) (by decide)
    (by decide +kernel) (by decide) (by decide +kernel) (by decide +kernel) (by decide +kernel)
  replace h := h.2
  have := h.1 0 7 _ (ask up 0x0503 [.u8] [7]) (takes_ask up_runs rfl) rfl (by decide)
  replace h := h.2
  have := (h.1 0 7 _ (ask base0 0x0504 [.u8] [7]) (takes_ask up_runs rfl) rfl (by decide) (by decide)).1 (by decide)
  have := (h.1 0 0 _ (ask base0 0x0504 [.u8] [0]) (takes_ask up_runs rfl) rfl (by decide) (by decide)).2 0 (by decide) rfl (by decide)
  replace h := h.2
  have := h.1 0 up (by decide) rfl rfl
  replace h := h.2
  have := h.1 0 0 (partTo ready0 (fun p => { p with sched := true, holder := 3 }) 7) (by decide) (by decide) rfl rfl rfl rfl
    (by decide)
  let x := ready0
  replace h := h.2
  have := h.1 0 0 (partTo { x with ctxs := updAt x.ctxs 0 (fun y => { y with
      lanes := { y.lanes with launches := [⟨1, 0x100, 1, false, 0, 0, 0, 0, false, 0, 0, 0, 1, 0, 0, 0, 0, [], 0, 0, none⟩] } }) }
      (fun p => { p with sched := true }) 1000000) (by decide) (by decide) rfl rfl rfl rfl rfl (by decide) (by decide) (by decide)
  replace h := h.2
  have := h.1 0 ⟨3, 0, 5⟩ (partTo up (fun p => { p with overruns := [⟨3, 0, 5⟩] }) 6) (by decide) rfl (by decide) (by decide)
  replace h := h.2
  have := h 0 ⟨0, 0, 5⟩ man0 (partTo (base (fun x => { x with steps := { x.steps with man := some man0 } }) seq0)
    (fun p => { p with overruns := [⟨0, 0, 5⟩] }) 6) (by decide) rfl (by decide) (by decide) rfl rfl rfl rfl rfl
  trivial

/-- A share record of context 0: 1,024 sequences, 64 MiB of staging with 8 MiB to receive, 256 MiB of T1. -/
def rec0 : Nat := packF [(25, 18, 1024), (43, 12, 0), (55, 13, 64), (84, 17, 64), (128, 10, 64), (138, 10, 8), (148, 12, 16), (160, 17, 256),
  (344, 16, 64), (360, 19, 64), (380, 17, 1000)]

theorem units_up (s : State) (h : Share) (hc : s.ctxs = up.ctxs) (hl : s.lend = up.lend) (ht : h.t1Mib / 4 ≤ 22528) :
    ∃ r u0 u1 u2, s.shareUnits h = some (r, u0, u1, u2) := by
  have hf : ∀ b n, s.freeUnits b n = (List.range n).map (fun i => b + i * chunkBytes) := by
    intro b n
    unfold State.freeUnits
    rw [List.filter_eq_self]
    intro a _
    rw [hc, hl]
    rfl
  unfold State.shareUnits
  simp only [hf]
  rw [if_neg]
  · exact ⟨_, _, _, _, rfl⟩
  · rw [not_or]
    refine ⟨by simp only [List.length_map, List.length_range]; omega, ?_⟩
    have : addr 1 0 ∈ ((List.range 22528).map (fun i => addr 1 0 + i * chunkBytes)).filter (fun u => (List.range 4).all (fun i =>
        ((List.range 22528).map (fun i => addr 1 0 + i * chunkBytes)).contains (u + i * chunkBytes))) := by
      rw [List.mem_filter]
      refine ⟨List.mem_map.mpr ⟨0, List.mem_range.mpr (by decide), by simp⟩, ?_⟩
      rw [List.all_eq_true]
      intro i hi
      have := List.mem_range.mp hi
      exact List.contains_iff_mem.mpr (List.mem_map.mpr ⟨i, List.mem_range.mpr (by omega), rfl⟩)
    intro he
    rw [List.isEmpty_iff.mp he] at this
    exact List.not_mem_nil this

/-- `base0` with context 0 in teardown since tick 0, and a clock. -/
def torn (now : Nat) (l : List Msg) : State := { base (fun x => { x with st := .teardown }) seq0 with
  tb := { up.tb with count := now }, host := { up.host with msgs := l } }

theorem wit_ContextMessages (h : Obligations.ContextMessages) : True := by
  let s := ask up 0x0508 [.r 512] [rec0]
  obtain ⟨a0, a1, a2, a3, e⟩ := units_up s (Share.read rec0) rfl rfl (by decide +kernel)
  have step := h.1 0 rec0 a0 a1 a2 a3 _ s (takes_ask up_runs rfl) (by unfold Spells; decide +kernel) (by decide +kernel) (by decide +kernel) (by decide +kernel) (by decide +kernel)
  replace step := step (by decide +kernel) (by decide +kernel) (by decide +kernel) (by decide +kernel)
  have := step (by decide +kernel) e
  replace h := h.2
  have := h.1 0 rec0 _ (ask base0 0x0508 [.r 512] [rec0]) (takes_ask up_runs rfl) (by unfold Spells; decide +kernel)
    (by decide +kernel) (by decide +kernel) (by decide +kernel) (by decide +kernel) (by decide +kernel) (by decide +kernel)
  replace h := h.2
  have := h.1 0 0 _ (ask base0 0x0509 [.u8] [0]) (takes_ask up_runs rfl) rfl (admits_st rfl rfl ⟨rfl, rfl⟩ rfl) rfl
  replace h := h.2
  have := h.1 0 15 _ (ask base0 0x050A [.u8] [15]) (takes_ask up_runs rfl) rfl (by decide) (.inl rfl)
  let b := base (fun x => { x with steps := { x.steps with man := some man0, doneMask := 2 } }) seq0
  replace h := h.2
  have := h.1 0 0 7 1 man0 _ (ask b 0x0510 [.u8, .u16, .u32] [0, 7, 1]) (takes_ask up_runs rfl) rfl
    (admits_st rfl rfl ⟨rfl, rfl⟩ rfl) (by decide) rfl rfl
  replace h := h.2
  have := h.1 0 0 1 1 _ (ask b 0x0510 [.u8, .u16, .u32] [0, 1, 1]) (takes_ask up_runs rfl) rfl
    (admits_st rfl rfl ⟨rfl, rfl⟩ rfl) (by decide) (fun x e => by cases e; decide) (by decide)
  replace h := h.2
  have := h.1 0 0 _ (ask b 0x0511 [.u8] [0]) (takes_ask up_runs rfl) rfl (admits_st rfl rfl ⟨rfl, rfl⟩ rfl)
  replace h := h.2
  have := h.1 0 (torn 1100000 []) (by decide) (by decide) rfl (by decide) rfl
  let m : Msg := { asked 0x0509 [.u8] [0] with phase := .freeWait }
  replace h := h.2
  have := h.1 0 m (torn 1100000 [m]) (by decide) (by decide) rfl (by decide) rfl rfl rfl (by decide) (by decide)
  replace h := h.2
  have := h.1 0 (torn 1099999 []) rfl (by decide)
  replace h := h.2
  have := h 0 (torn 10100001 []) (by decide) rfl rfl (by decide)
  trivial

/-- `up` with port 5 up to package 9 and another Timebase. -/
def clock (f : Timebase → Timebase) : State := { up with
  fab := { up.fab with ports := [{ Port.fresh with st := .up4, peer := 9 }] }, tb := f up.tb }

theorem wit_TimebaseCommands (h : Obligations.TimebaseCommands) : True := by
  have := h.1 0 0 _ (ask base0 0x0600 [.u8] [0]) (takes_ask up_runs rfl) rfl (admits_st rfl rfl ⟨rfl, rfl⟩ rfl)
  replace h := h.2
  have := h.1 0 0 1 _ _ (ask base0 0x0610 [.u8, .u8] [0, 1]) (takes_ask up_runs rfl) rfl (admits_st rfl rfl ⟨rfl, rfl⟩ rfl)
    (by decide) (spill_fits (by decide +kernel))
  replace h := h.2
  have := h.1 0 0 _ (ask base0 0x0611 [.u8] [0]) (takes_ask up_runs rfl) rfl (admits_st rfl rfl ⟨rfl, rfl⟩ rfl)
  replace h := h.2
  have := h.1 (clock (fun t => { t with slew := -3, count := 2000 })) rfl (by decide) (by decide)
  replace h := h.2
  have := h.1 (clock (fun t => { t with slew := -3, count := 1999 })) (by decide)
  replace h := h.2
  have := h.1 0 (clock (fun t => { t with count := 10000 })) (by decide) rfl (by decide)
  let x : Timestamp := ⟨1000, 100, 900, 9, 1, true, 3⟩
  replace h := h.2
  have := h.1 0 x (clock (fun t => { t with master := 0 })) (by decide) rfl rfl
  replace h := h.2
  have := h.1 0 x (clock (fun t => { t with master := 9, port := 0, loaded := true })) (by decide) rfl (by decide) rfl rfl
    (by decide) rfl
  replace h := h.2
  have := h.1 (clock (fun t => { t with master := 9, count := 100001 })) (.inl rfl) (by decide) (by decide)
  replace h := h.2
  have := h.1 (clock (fun t => { t with master := 0 })) rfl
  replace h := h.2
  have := h (clock (fun t => { t with st := .holdover, count := 10000000 })) rfl rfl (by decide)
  trivial

/-- A kernel of one `END`. -/
def kernelBytes : List Byte := toLE 64 (packF [(0, 32, 0x4B524E4C), (32, 16, 1), (64, 32, 1)]) ++ toLE 8 0xCA

/-- A waiting string. -/
def str0 : Str := Str.waiting 0

/-- A launch of kernel 0x100. -/
def launch0 (st start : Nat) (l : List Str) : Launch := ⟨1, 0x100, 1, false, 1, 0, 0, 0, false, 0, addr 1 0, start, st, 0, 1, 0, 0, l, 0, 0, none⟩

/-- `base0` with a launch, one core and a partition of that core. -/
def launched (l : List Launch) : State := { base (fun x => { x with lanes := { x.lanes with
    kernels := [(0x100, ⟨h1, 0, [0xCA], false⟩)], launches := l, known := [(7, 2)] } }) seq0 with
  cores := ⟨[⟨0, 0, 0⟩], [], 0⟩, parts := updAt up.parts 0 (fun p => { p with coreCount := 1 }) }

theorem admits_launched {l : List Launch} {op : Nat} {fs : List Fld} {a : List Nat} : Admits (ask (launched l) op fs a) (asked op fs a) 0 := by
  have h : Admits (ask base0 op fs a) (asked op fs a) 0 := admits_st rfl rfl ⟨rfl, rfl⟩ rfl
  exact ⟨h.bound, h.given, h.owned, h.stays, rfl⟩

/-- A launch record of context 0: kernel 0x100, two strings. -/
def launchRec : Nat := packF [(0, 16, 0x100), (20, 2, 1), (24, 24, 2), (128, 64, addr 1 0)]

/-- A string whose store to package 9 is not acknowledged. -/
def sending : Str := { str0 with st := 1, sent := [(9 * 8 + 3, 1)] }

theorem wit_KernelMessages (h : Obligations.KernelMessages) : True := by
  let s := ask (holding kernelBytes id) 0x0620 [.u8, .u32] [0, h1]
  obtain ⟨b, u, _, e⟩ := alloc_two (s := s) rfl 0x8 8 (by decide) (by decide)
  have := h.1 0 0 h1 (handleOf 1 0 0 2 1) b 0 u _ s (takes_ask up_runs rfl) rfl (admits_st rfl rfl ⟨rfl, rfl⟩ rfl) (by decide +kernel) (by decide)
    (by decide +kernel) (by decide +kernel)
  replace this := this (by decide +kernel) (by decide +kernel) (by decide +kernel) (by decide +kernel)
  replace this := this (by decide +kernel) (by decide +kernel) (by decide +kernel) (by decide +kernel) rfl (by decide) (by decide)
    (by rw [show bits (s.kernelImage h1).1 64 32 = 1 from by decide +kernel]; exact e)
  let s := ask (launched []) 0x0622 [.u8, .u16] [0, 0x100]
  replace h := h.2
  have := (h.1 0 0 0x100 _ _ s (takes_ask up_runs rfl) rfl admits_launched rfl).1 (by decide)
  let s := ask (launched [launch0 1 0 []]) 0x0622 [.u8, .u16] [0, 0x100]
  have := (h.1 0 0 0x100 _ _ s (takes_ask up_runs rfl) rfl admits_launched rfl).2 ⟨_, List.mem_cons_self .., rfl⟩
  let s := ask (launched []) 0x0621 [.r 256] [launchRec]
  replace h := h.2
  have := h.1 0 launchRec ⟨h1, 0, [0xCA], false⟩ _ s (takes_ask up_runs rfl) (by unfold Spells; decide +kernel)
    (by rw [show bits launchRec 16 4 = 0 from by decide +kernel]; exact admits_launched)
    (by decide +kernel) (by decide +kernel) (by decide +kernel) (by decide +kernel) (by decide +kernel) (by decide +kernel)
  replace this := this (by decide +kernel) (by decide +kernel) (by decide +kernel) (by decide +kernel)
  replace this := this (by decide +kernel) (by decide +kernel) (by decide +kernel) (by decide +kernel) (by decide +kernel)
  replace h := h.2
  have := h.1 0 0 7 2 _ (ask (launched []) 0x0623 [.u8, .u32] [0, 7]) (takes_ask up_runs rfl) rfl admits_launched rfl
  replace h := h.2
  have a := h.1 0 0 1 _ _ (ask (launched [launch0 1 0 [str0]]) 0x0624 [.u8, .u32] [0, 1]) (takes_ask up_runs rfl) rfl admits_launched rfl rfl
  have := a.1 (by decide +kernel) (by decide +kernel)
  have a := h.1 0 0 1 _ _ (ask (launched [launch0 1 0 []]) 0x0624 [.u8, .u32] [0, 1]) (takes_ask up_runs rfl) rfl admits_launched rfl rfl
  have := a.2.1 (by decide +kernel)
  have a := h.1 0 0 1 _ _ (ask (launched [launch0 1 0 [sending]]) 0x0624 [.u8, .u32] [0, 1]) (takes_ask up_runs rfl) rfl admits_launched rfl rfl
  have := a.2.2 ⟨_, List.mem_cons_self .., by decide +kernel⟩
  replace h := h.2
  have := h.1 0 0 7 _ (ask (launched []) 0x0624 [.u8, .u32] [0, 7]) (takes_ask up_runs rfl) rfl admits_launched rfl rfl
  replace h := h.2
  have := h.1 0 1 _ (launched [launch0 0 0 []]) rfl rfl (by decide) (by decide)
  replace h := h.2
  have := h.1 0 1 _ (launched [launch0 0 1 []]) rfl (.inr (by decide))
  replace h := h.2
  have := h.1 0 1 0 0 (launch0 1 0 [str0]) str0 (launched [launch0 1 0 [str0]]) (by decide) rfl rfl rfl rfl rfl rfl
    (by decide +kernel) (by decide +kernel)
  let full := launch0 1 0 [{ str0 with waited := true }]
  replace h := h.2
  have := h.1 0 1 0 full _ { launched [full] with cores := ⟨[⟨0, 3, 0⟩], [], 0⟩ } rfl rfl rfl rfl rfl
    (by decide +kernel) (by decide +kernel)
  replace h := h.2
  obtain ⟨_, _, this, _⟩ := h.1 0 0 0 1 0 0 (launch0 1 0 [{ str0 with st := 1 }]) _ (launched [launch0 1 0 [{ str0 with st := 1 }]]) rfl rfl rfl
    rfl
  have := this (by decide +kernel)
  obtain ⟨_, _, _, this, _⟩ := h.1 0 0 0 1 0 0 (launch0 1 0 [sending]) _ (launched [launch0 1 0 [sending]]) rfl rfl rfl rfl
  have := this ⟨_, List.mem_cons_self .., by decide +kernel⟩
  replace h := h.2
  have := h.1 0 0 0 0 man0 (base (fun x => { x with steps := { x.steps with man := some man0 } }) seq0) (by decide) rfl
  replace h := h.2
  have := h 0 0 0 0 base0 rfl
  trivial

/-- Group 2 of packages 0 and 9. -/
def grp0 : CollGroup := ⟨2, [0, 9], 10, [(4, 2)], []⟩

/-- The record of `BROADCAST` 5 of group 2 from package 9: four BF16 elements into the buffer of slot 1. -/
def bcast : Nat := packF [(0, 12, 2), (16, 3, 4), (21, 5, 1), (26, 5, 1), (32, 32, 5), (64, 32, 4), (96, 7, 9), (128, 32, h1), (160, 32, h1)]

/-- The record of `ALL_REDUCE` 5 of group 2: four BF16 elements summed in the buffer of slot 1. -/
def allred : Nat := packF [(0, 12, 2), (16, 3, 1), (21, 5, 1), (26, 5, 1), (32, 32, 5), (64, 32, 4), (128, 32, h1), (160, 32, h1)]

/-- A collective before any data. -/
def coll0 (raw : Nat) (running : Bool) : Coll := ⟨CollRec.read raw, running, 0, 7, [], false, [], [], [], 0, 0, [], none, [], []⟩

/-- `base0` with group 2 and collectives, as package `p`. -/
def grouped (l : List Coll) (p : Nat) : State := { base (fun x => { x with groups := [grp0], colls := l }) seq0 with
  board := { up.board with pkgId := p } }

/-- `grouped` with the launch message of `raw` waiting. -/
def joined (raw : Nat) (l : List Coll) (p now : Nat) : State := { ask (grouped l p) 0x0401 [.r 320] [raw] with
  host := { up.host with msgs := [{ asked 0x0401 [.r 320] [raw] with phase := .joinWait }] }, tb := { up.tb with count := now } }

theorem wit_CollectiveMessages (h : Obligations.CollectiveMessages) : True := by
  let s := ask base0 0x0400 [.u8, .u16, .u32, .r 128] [0, 0xFFF, 10, 513]
  have := h.1 0 0 0xFFF 10 513 _ s (takes_ask up_runs rfl) (by unfold Spells; decide +kernel) (admits_st rfl rfl ⟨rfl, rfl⟩ rfl) (by decide)
    (by decide) (by decide) (by decide) (by decide +kernel) rfl
  let s := ask (grouped [] 9) 0x0401 [.r 320] [bcast]
  have hc : (CollRec.read bcast).ctx = 0 := by decide +kernel
  replace h := h.2
  obtain ⟨_, _, _, _, _, _, _, _, _, _, _, this⟩ := h.1 0 bcast [] grp0 s _ s (takes_ask up_runs rfl) (by unfold Spells; decide +kernel)
    (by rw [hc]; exact admits_st rfl rfl ⟨rfl, rfl⟩ rfl)
    (List.mem_cons_self ..) (by decide +kernel) (by decide +kernel) (by decide +kernel) (by decide +kernel) (by decide +kernel) (by decide +kernel)
    (by decide) rfl rfl (by decide +kernel)
  have := this (by decide)
  let r0 := setBits bcast 64 32 0
  let s := ask (grouped [] 9) 0x0401 [.r 320] [r0]
  replace h := h.2
  have step := h.1 0 r0 grp0 _ s (takes_ask up_runs rfl) (by unfold Spells; decide +kernel)
    (by rw [show (CollRec.read r0).ctx = 0 by decide +kernel]; exact admits_st rfl rfl ⟨rfl, rfl⟩ rfl) (by decide +kernel) (by decide +kernel) (by decide +kernel) (by decide +kernel)
  have := step (by decide +kernel) (by decide +kernel) (by decide +kernel) (by decide +kernel)
  let s := ask (grouped [coll0 bcast true] 0) 0x0402 [.u8, .u16, .u32] [0, 2, 5]
  replace h := h.2
  have := (h.1 0 0 2 5 _ s (takes_ask up_runs rfl) rfl (admits_st rfl rfl ⟨rfl, rfl⟩ rfl)).1 (by decide +kernel)
  let s := ask (grouped [] 0) 0x0402 [.u8, .u16, .u32] [0, 2, 4]
  have := (h.1 0 0 2 4 _ s (takes_ask up_runs rfl) rfl (admits_st rfl rfl ⟨rfl, rfl⟩ rfl)).2 grp0 2 rfl rfl rfl
  let s := ask (grouped [coll0 bcast true] 0) 0x0403 [.u8, .u16, .u32] [0, 2, 5]
  replace h := h.2
  have := h.1 0 0 2 5 (coll0 bcast true) grp0 _ s (takes_ask up_runs rfl) rfl (admits_st rfl rfl ⟨rfl, rfl⟩ rfl)
    (by decide +kernel) rfl
  replace h := h.2
  have := h 0 0 2 grp0 _ (ask (grouped [] 0) 0x0405 [.u8, .u16] [0, 2]) (takes_ask up_runs rfl) rfl (admits_st rfl rfl ⟨rfl, rfl⟩ rfl)
    rfl (by decide)
  trivial

theorem wit_CollectiveStart (h : Obligations.CollectiveStart) : True := by
  have := h.1 0 2 5 1 true 7 { grouped [] 0 with fws := [] } (by decide)
  replace h := h.2
  have := h.1 0 2 5 1 true 7 (coll0 bcast false) { grp0 with members := [0, 9, 10] }
    (base (fun x => { x with groups := [{ grp0 with members := [0, 9, 10] }], colls := [coll0 bcast false] }) seq0) rfl
    (by decide +kernel) rfl (by decide) (by decide)
  let k : Coll := { coll0 bcast false with joins := [(0, true, 7)] }
  replace h := h.2
  have := h.1 0 2 5 1 7 k grp0 (grouped [k] 0) rfl (by decide +kernel) rfl (by decide) (by decide) (by decide) rfl rfl
  replace h := h.2
  have := h.1 0 2 5 1 true 7 grp0 (grouped [] 0) (by decide) rfl rfl rfl rfl (by decide)
  replace h := h.2
  have := h.1 0 2 5 _ (coll0 bcast false) grp0 (joined bcast [coll0 bcast false] 0 0) rfl (by decide +kernel) rfl rfl
    (by decide +kernel) (by decide +kernel) (by decide +kernel) (by decide +kernel) rfl rfl rfl rfl
    (show _ = some { asked 0x0401 [.r 320] [bcast] with phase := .joinWait } by decide +kernel) (by decide)
  replace h := h.2
  have := h.1 0 2 4 grp0 (grouped [] 0) rfl rfl rfl ⟨(4, 2), List.mem_cons_self .., rfl⟩
  replace h := h.2
  obtain ⟨_, _, _, _, this⟩ := h.1 0 2 5 (coll0 bcast false) (joined bcast [coll0 bcast false] 0 0) (by decide +kernel) rfl
  have := this { asked 0x0401 [.r 320] [bcast] with phase := .joinWait } (by decide +kernel) (by decide)
  replace h := h.2
  have := h.1 0 2 5 4 (coll0 bcast true) grp0 (grouped [coll0 bcast true] 0) (by decide +kernel) rfl rfl
  replace h := h.2
  obtain ⟨_, _, _, _, this⟩ := h.1 0 2 5 (coll0 bcast false) grp0 (joined bcast [coll0 bcast false] 0 10001) rfl
    (by decide +kernel) rfl rfl (by decide)
  have := this { asked 0x0401 [.r 320] [bcast] with phase := .joinWait } (by decide +kernel) (by decide)
  replace h := h.2
  have := h 0 2 5 (coll0 bcast false) grp0 (joined bcast [coll0 bcast false] 0 10000) (by decide +kernel) rfl (by decide)
  trivial

/-- A combine region group that waits for a bay since tick 3, in a context changed by `f`. -/
def claimingOf (f : Ctx → Ctx) : State :=
  base (fun x => f { x with layers := [(0, { Layer.fresh with groups := [⟨0, false, 0, 0, 0, some 3⟩] })] }) seq0

/-- The same in context 0 as it is. -/
abbrev claiming : State := claimingOf id

/-- A collective that waits for a bay since tick 9 besides. -/
def alsoWaits (s : State) : State := s.onCtx 0 (fun x => { x with groups := [grp0], colls := [{ coll0 allred true with bayWait := some 9 }] })

theorem wit_CollectiveData (h : Obligations.CollectiveData) : True := by
  let k : Coll := { coll0 allred true with spareBays := [0, 0] }
  have := h.1 0 2 5 0 0 [0] k grp0 (grouped [k] 0) (by decide +kernel) rfl rfl (by decide +kernel) rfl rfl (by decide +kernel) (by decide) (by decide) rfl
  replace h := h.2
  have := h.1 0 2 5 (coll0 allred false) (grouped [coll0 allred false] 0) (by decide +kernel) rfl
  replace h := h.2
  have := h.1 0 2 5 0 (coll0 allred true) grp0 (grouped [coll0 allred true] 9) (by decide +kernel) rfl (by decide +kernel) (by decide +kernel)
    (by decide +kernel) (by decide) rfl
  let g3 : CollGroup := { grp0 with members := [0, 9, 10] }
  let k : Coll := { coll0 allred true with nextSlab := 1, open_ := [⟨0, 0, 0, [0, 0, 0, 0], [0], []⟩] }
  replace h := h.2
  have := h.1 0 2 5 0 1 [] k g3 _ (base (fun x => { x with groups := [g3], colls := [k] }) seq0) (by decide +kernel) rfl (by decide +kernel)
    (by decide +kernel) rfl rfl (by decide) (by decide) rfl (by decide) (by decide) (by decide) (by decide)
  replace h := h.2
  have := h.1 0 2 5 0 1 [1, 2, 3, 4, 5, 6, 7, 8] (coll0 bcast true) grp0 (grouped [coll0 bcast true] 0) (by decide +kernel) rfl
    (by decide +kernel) rfl (by decide +kernel) (by decide) (by decide +kernel) (by decide +kernel)
  replace h := h.2
  have := h.1 0 2 5 0 [1, 2, 3, 4, 5, 6, 7, 8] (coll0 allred true) grp0 (grouped [coll0 allred true] 9) (by decide +kernel) rfl
    (by decide +kernel) (by decide +kernel) (by decide) (by decide +kernel) (by decide +kernel) (by decide +kernel)
  replace h := h.2
  have := h.1 0 2 4 0 1 [] grp0 (grouped [] 0) rfl rfl ⟨(4, 2), List.mem_cons_self .., rfl⟩
  replace h := h.2
  have := h.1 base0 (by decide +kernel) (by decide +kernel)
  replace h := h.2
  have := h.1 9 0 2 5 (grouped [{ coll0 allred true with bayWait := some 9 }] 0) (by decide +kernel) (by decide +kernel)
  replace h := h.2
  have := (h.1 3 0 0 0 _ claiming (by decide +kernel) (show _ = some _ from rfl)).1 (by decide +kernel)
  have := (h.1 3 0 0 0 _ (alsoWaits claiming) (by decide +kernel) (show _ = some _ from rfl)).2 9 0 2 5 (by decide +kernel)
  replace h := h.2
  have := h 3 0 0 0 9 0 2 5 _ { alsoWaits (claimingOf (fun x => { x with setUsed := 64 })) with poolUsed := 2000, floorUsed := 384 }
    (by decide +kernel) (by decide +kernel) (by decide +kernel) (show _ = some { coll0 allred true with bayWait := some 9 } by decide +kernel)
    rfl rfl (by decide) rfl rfl
  trivial

/-- An instruction word whose guard is predicate 0. -/
def word (op dst a b c fmt imm : Nat) : Nat :=
  packF [(0, 8, op), (8, 4, dst), (12, 4, a), (16, 4, b), (20, 4, c), (26, 1, 1), (28, 5, fmt), (33, 31, imm)]

/-- The same word without a guard. -/
def bare (op dst a b c fmt imm : Nat) : Nat :=
  packF [(0, 8, op), (8, 4, dst), (12, 4, a), (16, 4, b), (20, 4, c), (28, 5, fmt), (33, 31, imm)]

/-- A resident string whose lane 0 alone is guarded: registers 1 and 2 of that lane hold `x` and `y`. -/
def strOf (x y : Nat) : Str := { str0 with
  st := 1, regs := List.replicate 64 0 ++ x :: List.replicate 63 0 ++ [y], preds := [true] }

/-- `base0` with one resident string at a word. -/
def at_ (w : Nat) (g : Str) : State := { base (fun x => { x with lanes := { x.lanes with
  kernels := [(0x100, ⟨h1, 0, [w], false⟩)], launches := [{ launch0 1 0 [g] with scratch4k := 1, tilesN := 1, nextItem := 1 }] } }) seq0 with
  cores := ⟨[⟨0, 0, 0⟩], [], 0⟩ }

/-- Launch 1 of `at_`. -/
def atLaunch (g : Str) : Launch := { launch0 1 0 [g] with scratch4k := 1, tilesN := 1, nextItem := 1 }

theorem ready_at {w op : Nat} {g : Str} (ho : iOp w = op) (hw : g.wait = .none) (hs : g.st = 1) (hp : g.pc = 0) :
    Ready (at_ w g) op 0 1 0 (atLaunch g) g w where
  found := by
    show (match [w][g.pc]? with
      | some w => if g.st = 1 ∧ iOp w = op then some (atLaunch g, g, w) else none
      | none => none) = some (atLaunch g, g, w)
    rw [hp]
    exact if_pos ⟨hs, ho⟩
  free := hw

/-- A string that stands at a word of opcode `op`. -/
theorem ready_op (op fmt imm : Nat) (x y : Nat) (h : iOp (word op 3 1 2 2 fmt imm) = op) :
    Ready (at_ (word op 3 1 2 2 fmt imm) (strOf x y)) op 0 1 0 (atLaunch (strOf x y)) (strOf x y) (word op 3 1 2 2 fmt imm) :=
  ready_at h rfl rfl rfl

theorem wit_IntegerInstructions (h : Obligations.IntegerInstructions) : True := by
  have f (op imm : Nat) := h 0 1 0 (atLaunch (strOf 7 31)) (strOf 7 31) (word op 3 1 2 2 0 imm) (at_ (word op 3 1 2 2 0 imm) (strOf 7 31))
  have := (f 0x00 0).1 (ready_op _ _ _ _ _ (by decide))
  have := (f 0x01 0).2.1 (ready_op _ _ _ _ _ (by decide))
  have := (f 0x02 0).2.2.1 (ready_op _ _ _ _ _ (by decide))
  have := (f 0x03 0).2.2.2.1 (ready_op _ _ _ _ _ (by decide))
  have := (f 0x04 0).2.2.2.2.1 (ready_op _ _ _ _ _ (by decide))
  have := (f 0x05 0).2.2.2.2.2.1 (ready_op _ _ _ _ _ (by decide))
  have := (f 0x06 0).2.2.2.2.2.2.1 (ready_op _ _ _ _ _ (by decide))
  have := (f 0x07 0).2.2.2.2.2.2.2.1 (ready_op _ _ _ _ _ (by decide)) (by decide +kernel)
  have := (f 0x08 0).2.2.2.2.2.2.2.2.1 (ready_op _ _ _ _ _ (by decide)) (by decide +kernel)
  have := (f 0x09 0).2.2.2.2.2.2.2.2.2.1 (ready_op _ _ _ _ _ (by decide)) (by decide +kernel)
  have := (f 0x07 0).2.2.2.2.2.2.2.2.2.2.1 (ready_op _ _ _ _ _ (by decide))
  have := (f 0x08 0).2.2.2.2.2.2.2.2.2.2.2.1 (ready_op _ _ _ _ _ (by decide))
  have := (f 0x09 0).2.2.2.2.2.2.2.2.2.2.2.2.1 (ready_op _ _ _ _ _ (by decide))
  have := (f 0x0A 0).2.2.2.2.2.2.2.2.2.2.2.2.2.1 (ready_op _ _ _ _ _ (by decide))
  have := (f 0x0B 0).2.2.2.2.2.2.2.2.2.2.2.2.2.2.1 (ready_op _ _ _ _ _ (by decide))
  have := (f 0x0C 1).2.2.2.2.2.2.2.2.2.2.2.2.2.2.2.1 (ready_op _ _ _ _ _ (by decide))
  have := (f 0x0D 9).2.2.2.2.2.2.2.2.2.2.2.2.2.2.2.2 (ready_op _ _ _ _ _ (by decide))
  trivial

/-- A string at a word without a guard. -/
theorem ready_bare (op fmt imm : Nat) (h : iOp (bare op 3 1 2 2 fmt imm) = op) :
    Ready (at_ (bare op 3 1 2 2 fmt imm) (strOf 0 0)) op 0 1 0 (atLaunch (strOf 0 0)) (strOf 0 0) (bare op 3 1 2 2 fmt imm) :=
  ready_at h rfl rfl rfl

theorem wit_FloatInstructions (h : Obligations.FloatInstructions) : True := by
  have f (op fmt x y : Nat) := h 0 1 0 (atLaunch (strOf x y)) (strOf x y) (word op 3 1 2 2 fmt 0) (at_ (word op 3 1 2 2 fmt 0) (strOf x y))
  have b (op fmt : Nat) := h 0 1 0 (atLaunch (strOf 0 0)) (strOf 0 0) (bare op 3 1 2 2 fmt 0) (at_ (bare op 3 1 2 2 fmt 0) (strOf 0 0))
  have := (f 0x20 0 1 2).1 (ready_op _ _ _ _ _ (by decide))
  have := (f 0x21 0 1 2).2.1 (ready_op _ _ _ _ _ (by decide))
  have := (f 0x22 0 1 2).2.2.1 (ready_op _ _ _ _ _ (by decide))
  obtain ⟨_, _, this⟩ := (f 0x23 0 0x7FC00000 2).2.2.2.1 (ready_op _ _ _ _ _ (by decide))
  have := (this 0 (by decide)).1 (by decide +kernel)
  obtain ⟨_, _, this⟩ := (f 0x23 0 0x3F800000 0x40000000).2.2.2.1 (ready_op _ _ _ _ _ (by decide))
  have := (this 0 (by decide)).2.1 (by decide +kernel)
  obtain ⟨_, _, this⟩ := (f 0x23 0 0x40000000 0x3F800000).2.2.2.1 (ready_op _ _ _ _ _ (by decide))
  have := (this 0 (by decide)).2.2 (by decide +kernel)
  obtain ⟨_, _, this⟩ := (f 0x24 0 0x7FC00000 2).2.2.2.2.1 (ready_op _ _ _ _ _ (by decide))
  have := (this 0 (by decide)).1 (by decide +kernel)
  obtain ⟨_, _, this⟩ := (f 0x24 0 0x3F800000 0x40000000).2.2.2.2.1 (ready_op _ _ _ _ _ (by decide))
  have := (this 0 (by decide)).2.1 (by decide +kernel)
  obtain ⟨_, _, this⟩ := (f 0x24 0 0x40000000 0x3F800000).2.2.2.2.1 (ready_op _ _ _ _ _ (by decide))
  have := (this 0 (by decide)).2.2.1 (by decide +kernel)
  obtain ⟨_, _, this⟩ := (f 0x24 0 0 0x80000000).2.2.2.2.1 (ready_op _ _ _ _ _ (by decide))
  have := (this 0 (by decide)).2.2.2 (by decide +kernel) (by decide +kernel)
  have := (f 0x25 0 1 2).2.2.2.2.2.1 (ready_op _ _ _ _ _ (by decide))
  have := (f 0x26 0 1 2).2.2.2.2.2.2.1 (ready_op _ _ _ _ _ (by decide))
  have := (f 0x40 3 1 2).2.2.2.2.2.2.2.1 (ready_op _ _ _ _ _ (by decide))
  have := (f 0x41 3 1 2).2.2.2.2.2.2.2.2.1 (ready_op _ _ _ _ _ (by decide))
  have := (b 0x42 4).2.2.2.2.2.2.2.2.2.1 (ready_bare _ _ _ (by decide)) (by decide +kernel) (by decide +kernel) (by decide +kernel)
  have := (b 0x42 0xB).2.2.2.2.2.2.2.2.2.2.1 (ready_bare _ _ _ (by decide)) (by decide +kernel) (by decide +kernel) (by decide +kernel) rfl
  have := (b 0x43 4).2.2.2.2.2.2.2.2.2.2.2 (ready_bare _ _ _ (by decide))
  trivial

theorem wit_NumberRules (h : Obligations.NumberRules) : True := by
  replace h := h.2
  have := h.1 0x7FC00000 0 (.inl (by decide +kernel))
  replace h := h.2.2.2
  have := h.1 Num.e4m3 1 1 rfl
  replace h := h.2.2
  have := h 0x3F800000 (by decide +kernel) (by decide +kernel) (by decide +kernel)
  trivial

/-- Upper halves of the address of T1, of T1 on package 9, and of an address of no share. -/
def hi1 : Nat := 4194304
def hi9 : Nat := 4194304 + 9 * 2 ^ 25
def hiNo : Nat := 3 * 4194304

/-- `at_` with package 9 resident. -/
def far (w : Nat) (g : Str) : State := { at_ w g with
  ctxs := updAt (at_ w g).ctxs 0 (fun x => { x with resid := { x.resid with resident := [9] } }) }

theorem ready_far {op fmt imm x y : Nat} (h : iOp (word op 3 1 2 2 fmt imm) = op) :
    Ready (far (word op 3 1 2 2 fmt imm) (strOf x y)) op 0 1 0 (atLaunch (strOf x y)) (strOf x y) (word op 3 1 2 2 fmt imm) :=
  ⟨(ready_op op fmt imm x y h).found, rfl⟩

/-- A string that waits for lane 0 from package 9. -/
def waiting0 : Str := { strOf hi9 0 with pc := 1, wait := .mem 3 [(0, 9)] }

theorem wit_LoadsAndStores (h : Obligations.LoadsAndStores) (hf : Config.foreignShare 0 (hi9 * 2 ^ 32) = true) : True := by
  have := h.1 0 1 0 _ _ _ _ (ready_op 0x60 0 3 hi1 8 (by decide)) rfl (by decide +kernel)
  have := (h.2.2.1 0 1 0 0 _ _ _ none _ (ready_op 0x60 0 3 hi1 8 (by decide)) (by decide +kernel) (by decide +kernel) (by decide +kernel)).1
  have := (h.2.2.1 0 1 0 0 _ _ _ (some (hi1 * 2 ^ 32 + 8)) _ (ready_op 0x60 0 3 hi1 8 (by decide)) (by decide +kernel) (by decide +kernel)
    (by decide +kernel)).2 (by decide +kernel) (by decide +kernel)
  let s := at_ (word 0x60 3 1 2 2 0 3) (strOf hi1 8)
  let s9 : State := { s with parts := updAt s.parts 0 (fun p => { p with gates := p.gates.map (fun g => { g with rate := 1, bucket := 0 }) }) }
  have := (h.2.2.1 0 1 0 0 (atLaunch (strOf hi1 8)) (strOf hi1 8) (word 0x60 3 1 2 2 0 3) none s9 ⟨(ready_op 0x60 0 3 hi1 8 (by decide)).found, rfl⟩
    (by decide +kernel) (by decide +kernel) (by decide +kernel)).1 (by decide +kernel)
  have := h.2.2.2.1 0 1 0 _ _ _ none _ (ready_op 0x60 0 3 hiNo 8 (by decide)) ⟨0, by decide +kernel, by decide +kernel⟩
  have hl : (strOf hi9 0).lanes (word 0x60 3 1 2 2 0 3) = [0] := by decide +kernel
  have ha : (strOf hi9 0).address (word 0x60 3 1 2 2 0 3) 0 = hi9 * 2 ^ 32 := by decide +kernel
  have := h.2.2.2.2.1 0 1 0 _ _ _ _ (ready_far (op := 0x60) (fmt := 0) (imm := 3) (x := hi9) (y := 0) (by decide)) rfl (by
    rw [hl]
    intro k hk
    rw [List.mem_singleton.mp hk, ha]
    refine ⟨?_, by decide +kernel, by decide +kernel⟩
    unfold State.laneMay State.farShare
    rw [hf]
    decide +kernel) (by rw [hl]; decide)
  have := h.2.2.2.2.2.1 0 1 0 0 5 waiting0 3 9 (word 0x60 3 1 2 2 0 3) (at_ (word 0x60 3 1 2 2 0 3) waiting0) rfl rfl rfl (by decide) (by decide)
  have := h.2.2.2.2.2.2.1 0 1 0 _ _ _ _ (ready_op 0x61 0 3 hi1 8 (by decide)) (by decide +kernel)
  have hl : (strOf hi9 0).lanes (word 0x61 3 1 2 2 0 3) = [0] := by decide +kernel
  have ha : (strOf hi9 0).address (word 0x61 3 1 2 2 0 3) 0 = hi9 * 2 ^ 32 := by decide +kernel
  have := h.2.2.2.2.2.2.2.1 0 1 0 _ _ _ _ (ready_far (op := 0x61) (fmt := 0) (imm := 3) (x := hi9) (y := 0) (by decide)) (by
    rw [hl]
    intro k hk
    rw [List.mem_singleton.mp hk, ha]
    refine ⟨?_, by decide +kernel⟩
    unfold State.laneMay State.farShare
    rw [hf]
    decide +kernel) (by rw [hl]; decide)
  have := h.2.2.2.2.2.2.2.2 0 1 0 _ _ _ _ (ready_op 0x61 0 3 hiNo 8 (by decide)) ⟨0, by decide +kernel, by decide +kernel⟩
  trivial

/-- A string whose guards are all false. -/
def idle : Str := { strOf 0 0 with preds := [] }

theorem wit_AtomicsAndFence (h : Obligations.AtomicsAndFence) : True := by
  have := h.1 0 1 0 _ _ _ _ (ready_op 0x62 0 0 hi1 8 (by decide)) (by decide +kernel)
  replace h := h.2
  have := h.1 0 1 0 _ _ _ _ (ready_op 0x63 0 0 hi1 8 (by decide)) (by decide +kernel)
  replace h := h.2
  have := (h.1 0 1 0 _ _ _ (at_ (word 0x62 3 1 2 2 0 0) (strOf hiNo 8)) ⟨0, by decide +kernel, by decide +kernel⟩).1 (ready_op 0x62 0 0 hiNo 8 (by decide))
  have := (h.1 0 1 0 _ _ _ (at_ (word 0x63 3 1 2 2 0 0) (strOf hiNo 8)) ⟨0, by decide +kernel, by decide +kernel⟩).2 (ready_op 0x63 0 0 hiNo 8 (by decide))
  replace h := h.2
  have := h.1 0 1 0 0 5 waiting0 3 9 (word 0x62 3 1 2 2 0 0) (at_ (word 0x62 3 1 2 2 0 0) waiting0) rfl rfl rfl (by decide) (by decide)
  replace h := h.2
  have := (h.1 0 1 0 _ _ _ _ (ready_op 0x64 0 0 0 0 (by decide))).2 (by decide +kernel)
  have := (h.1 0 1 0 (atLaunch idle) idle _ (at_ (word 0x64 3 1 2 2 0 0) idle) (ready_at (by decide) rfl rfl rfl)).1 (by decide +kernel)
  replace h := h.2
  have f (op : Nat) (ho : op = 0x62 ∨ op = 0x63) (e) (p) (a) (q) (v) (u) := h.1 0 1 0 0 op (atLaunch (strOf hi1 8)) (strOf hi1 8) (word op 3 1 2 2 0 0)
    { at_ (word op 3 1 2 2 0 0) (strOf hi1 8) with poison := [2 ^ 48] } ho ⟨(ready_op op 0 0 hi1 8 e).found, rfl⟩ p a q v rfl u
  have := f 0x62 (.inl rfl) (by decide) (by decide +kernel) (by decide +kernel) (by decide +kernel) (by decide +kernel) (by decide +kernel)
  have := f 0x63 (.inr rfl) (by decide) (by decide +kernel) (by decide +kernel) (by decide +kernel) (by decide +kernel) (by decide +kernel)
  replace h := h.2
  have := h 0 1 0 _ _ _ _ (ready_op 0x65 0 0 0 0 (by decide))
  trivial

/-- A string with one accumulator tile. -/
def tiled (x y : Nat) : Str := { strOf x y with tiles := [[]] }

theorem ready_tiled (op x y : Nat) (h : iOp (word op 3 1 2 2 1 0) = op) :
    Ready (at_ (word op 3 1 2 2 1 0) (tiled x y)) op 0 1 0 (atLaunch (tiled x y)) (tiled x y) (word op 3 1 2 2 1 0) :=
  ready_at h rfl rfl rfl

/-- The places of an MMA's fields are open: the witness takes any that give tile 0, BF16 activations, and one row, column and run. -/
theorem wit_MatrixInstructions (h : Obligations.MatrixInstructions) (h1 : Config.mmaTile 0 = 0) (h2 : Config.mmaRuns 0 = 1)
    (h3 : Config.mmaAct 0 = 1) (h4 : Config.mmaRows 64 = 1) (h5 : Config.mmaCols 64 = 1) : True := by
  have hw (op : Nat) (e : (tiled 0 64).matOps (word op 3 1 2 2 1 0) =
      ⟨Config.mmaTile 0, Config.mmaRuns 0, Config.mmaAct 0, 1, Config.mmaRows 64, Config.mmaCols 64⟩) :
      (tiled 0 64).matOps (word op 3 1 2 2 1 0) = ⟨0, 1, 1, 1, 1, 1⟩ := by rw [e, h1, h2, h3, h4, h5]
  have hm := hw 0x80 (by
    unfold Str.matOps
    rw [show iImm (word 0x80 3 1 2 2 1 0) = 0 by decide +kernel, show iFmt (word 0x80 3 1 2 2 1 0) = 1 by decide +kernel,
      show (tiled 0 64).srcC (word 0x80 3 1 2 2 1 0) 0 = 64 by decide +kernel])
  have := h.1 0 1 0 _ _ _ _ (ready_tiled 0x80 0 64 (by decide)) (by decide +kernel)
  rw [hm] at this
  have step := this (by decide) (by decide) (by decide) (by decide)
  replace step := step (by decide) (by decide) (by decide) (by decide)
  have := step (by decide +kernel) (by decide +kernel) (by decide +kernel) (by decide +kernel)
  have := h.2.1 0 1 0 _ _ _ _ (ready_tiled 0x80 1 64 (by decide)) (by decide +kernel) (.inl (by decide +kernel))
  have := h.2.2.1 0 1 0 _ _ _ _ (ready_tiled 0x81 0 64 (by decide)) (by decide +kernel)
  rw [show iImm (word 0x81 3 1 2 2 1 0) = 0 by decide +kernel, h1] at this
  have := this (by decide) (by decide)
  have hm := hw 0x82 (by
    unfold Str.matOps
    rw [show iImm (word 0x82 3 1 2 2 1 0) = 0 by decide +kernel, show iFmt (word 0x82 3 1 2 2 1 0) = 1 by decide +kernel,
      show (tiled 0 64).srcC (word 0x82 3 1 2 2 1 0) 0 = 64 by decide +kernel])
  have := h.2.2.2.1 0 1 0 _ _ _ _ (ready_tiled 0x82 0 64 (by decide)) (by decide +kernel)
  rw [hm] at this
  have step := this (by decide +kernel) (by decide) (by decide) (by decide)
  have := step (by decide) (by decide) (by decide +kernel) (by decide +kernel)
  let off : Str := { tiled 0 64 with preds := [] }
  have := (h.2.2.2.2 0 1 0 (atLaunch off) off (word 0x80 3 1 2 2 1 0) (at_ (word 0x80 3 1 2 2 1 0) off) (by decide +kernel)).1
    (ready_at (by decide) rfl rfl rfl)
  have := (h.2.2.2.2 0 1 0 (atLaunch off) off (word 0x81 3 1 2 2 1 0) (at_ (word 0x81 3 1 2 2 1 0) off) (by decide +kernel)).2.1
    (ready_at (by decide) rfl rfl rfl)
  have := (h.2.2.2.2 0 1 0 (atLaunch off) off (word 0x82 3 1 2 2 1 0) (at_ (word 0x82 3 1 2 2 1 0) off) (by decide +kernel)).2.2
    (ready_at (by decide) rfl rfl rfl)
  trivial

/-- No lane is guarded. -/
def offStr (g : Str) : Str := { g with preds := [] }

theorem ready_w {op : Nat} (w : Nat) (g : Str) (ho : iOp w = op) (hw : g.wait = .none) (hs : g.st = 1) (hp : g.pc = 0) :
    Ready (at_ w g) op 0 1 0 (atLaunch g) g w := ready_at ho hw hs hp

theorem any_field (w : Nat) (h : ∀ f < 4, bits w (8 + 4 * f) 4 % 4 = 0) : bits w (8 + 4 * (Config.branchField % 4)) 4 % 4 = 0 :=
  h _ (Nat.mod_lt _ (by decide))

/-- Which field of a branch names its predicate and what its offset counts from are open: the witness takes words whose fields are
all 0 and the branch itself. -/
theorem wit_StringControl (h : Obligations.StringControl) (hb : Config.branchNext = false) : True := by
  have h0 := any_field (word 0xC0 0 0 0 0 0 0) (by decide +kernel)
  have h1 := any_field (word 0xC1 0 0 0 0 0 0) (by decide +kernel)
  have h2 := any_field (bare 0xC1 0 0 0 0 0 0) (by decide +kernel)
  have h3 := any_field (word 0xC0 0 0 0 0 0 5) (by decide +kernel)
  have f (w : Nat) (g : Str) := h 0 1 0 (atLaunch g) g w (at_ w g)
  have a := ((f (word 0xC0 0 0 0 0 0 0) (strOf 0 0)).1 (ready_w _ _ (by decide) rfl rfl rfl)).1
  rw [h0, hb] at a
  have := (a ⟨0, by decide, by decide, rfl⟩).1 (by decide +kernel)
  have a := ((f (word 0xC0 0 0 0 0 0 5) (strOf 0 0)).1 (ready_w _ _ (by decide) rfl rfl rfl)).1
  rw [h3, hb] at a
  have := (a ⟨0, by decide, by decide, rfl⟩).2 (by decide +kernel)
  have := ((f (word 0xC0 0 0 0 0 0 0) (offStr (strOf 0 0))).1 (ready_w _ _ (by decide) rfl rfl rfl)).2
    (by rw [h0]; decide +kernel)
  have a := ((f (word 0xC1 0 0 0 0 0 0) (strOf 0 0)).2.1 (ready_w _ _ (by decide) rfl rfl rfl)).1
  rw [h1, hb] at a
  have := (a (by decide +kernel)).1 (by decide +kernel)
  have a := ((f (bare 0xC1 0 0 0 0 0 0) (strOf 0 0)).2.1 (ready_w _ _ (by decide) rfl rfl rfl)).2
  rw [h2] at a
  have := a ⟨1, by decide, by decide +kernel, by decide +kernel⟩
  have := (f (word 0xC2 0 0 0 0 0 0) (strOf 0 0)).2.2.1 (ready_w _ _ (by decide) rfl rfl rfl)
  obtain ⟨_, _, _, _, this⟩ := (f (word 0xC3 3 1 2 0 0 0) (strOf 0 63)).2.2.2.1 (ready_w _ _ (by decide) rfl rfl rfl)
  have := this 0 (by decide) (by decide +kernel)
  obtain ⟨_, _, _, _, this⟩ := (f (word 0xC4 3 1 0 0 0 0) (strOf 0 63)).2.2.2.2.1 (ready_w _ _ (by decide) rfl rfl rfl)
  have := this 0 (by decide +kernel)
  obtain ⟨_, _, _, _, this⟩ := (f (word 0xC5 3 1 0 0 0 0) (strOf 0 63)).2.2.2.2.2.1 (ready_w _ _ (by decide) rfl rfl rfl)
  have := this 0 (by decide +kernel)
  have := (f (word 0xA0 3 1 0 0 0 0x21) (strOf 0 63)).2.2.2.2.2.2.1 (ready_w _ _ (by decide) rfl rfl rfl)
  let l : Launch := { atLaunch (strOf 0 0) with fixed := true }
  let s : State := { at_ (word 0x66 3 0 0 0 0 0) (strOf 0 0) with
    ctxs := updAt (at_ (word 0x66 3 0 0 0 0 0) (strOf 0 0)).ctxs 0 (fun x => { x with lanes := { x.lanes with launches := [l] } }) }
  have := (h 0 1 0 l (strOf 0 0) (word 0x66 3 0 0 0 0 0) s).2.2.2.2.2.2.2.1 ⟨by decide +kernel, rfl⟩ (by decide +kernel) rfl
  have := (f (word 0x66 3 0 0 0 0 0) (strOf 0 63)).2.2.2.2.2.2.2.2 (ready_w _ _ (by decide) rfl rfl rfl) (by decide +kernel) rfl
  trivial

/-- Two strings at a word. -/
def two (w : Nat) (g g' : Str) : State := { at_ w g with
  ctxs := updAt (at_ w g).ctxs 0 (fun x => { x with lanes := { x.lanes with launches := [launch0 1 0 [g, g']] } }) }

theorem wit_StringEnds (h : Obligations.StringEnds) : True := by
  let w := word 0xCA 0 0 0 0 0 0
  let g := strOf 0 0
  let o := offStr g
  have := h.1 0 1 0 (atLaunch o) o w (at_ w o) (ready_w _ _ (by decide) rfl rfl rfl) (by decide +kernel)
  replace h := h.2
  have := h.1 0 1 0 (launch0 1 0 [g, g]) g w (two w g g) ⟨by decide +kernel, rfl⟩ (by decide +kernel) ⟨1, g, by decide, rfl, by decide⟩
    (by decide +kernel)
  replace h := h.2
  have := h.1 0 1 0 (atLaunch g) g w (at_ w g) (ready_w _ _ (by decide) rfl rfl rfl) (by decide +kernel) rfl
    (fun j x hj e => by rcases j with _ | j <;> simp_all [atLaunch, launch0]) (by decide +kernel) rfl (by decide +kernel)
  let g' : Str := { g with sent := [(72, 5)] }
  replace h := h.2
  have := h.1 0 1 0 (atLaunch g') g' w (at_ w g') (ready_w _ _ (by decide) rfl rfl rfl) (by decide +kernel)
    (fun j x hj e => by rcases j with _ | j <;> simp_all [atLaunch, launch0]) ⟨g', by decide +kernel, (72, 5), by decide, by decide +kernel⟩
  replace h := h.2
  have := (h 0 1 0 (atLaunch g) (at_ w g) rfl rfl).1 (by decide +kernel)
  have := (h 0 1 0 (atLaunch g') (at_ w g') rfl rfl).2.1 ⟨g', List.mem_cons_self .., by decide +kernel⟩
  trivial

/-- `at_` with post 2 in a given state. -/
def atPost (w : Nat) (g : Str) (p : Post) : State := { at_ w g with posts := [(2, p)] }

theorem ready_post {op : Nat} (w : Nat) (g : Str) (p : Post) (ho : iOp w = op) (hw : g.wait = .none) (hs : g.st = 1) (hp : g.pc = 0) :
    Ready (atPost w g p) op 0 1 0 (atLaunch g) g w := ⟨(ready_at ho hw hs hp).found, hw⟩

theorem wit_StringsOnPosts (h : Obligations.StringsOnPosts) : True := by
  let w := word 0xC6 0 1 2 2 0 0
  have := h.1 0 1 0 0 [] _ (strOf 2 7) w _ (ready_w w _ (by decide) rfl rfl rfl) (by decide +kernel) (by decide +kernel) (by decide +kernel)
  replace h := h.2
  have := h.1 0 1 0 0 [] _ (strOf 0x90002 7) w _ (ready_w w _ (by decide) rfl rfl rfl) (by decide +kernel) (by decide +kernel) (by decide +kernel)
  let g' : Str := { strOf 2 7 with sent := [(72, 5)] }
  replace h := h.2
  have := h.1 0 1 0 _ g' w _ (ready_w w _ (by decide) rfl rfl rfl) (by decide +kernel) ⟨(72, 5), by decide, by decide +kernel⟩
  let o := offStr (strOf 0 0)
  replace h := h.2
  have := (h.1 0 1 0 (atLaunch o) o w (at_ w o) (by decide +kernel)).1 (ready_w w _ (by decide) rfl rfl rfl)
  let w := word 0xC7 3 1 0 0 0 0
  have := (h.1 0 1 0 (atLaunch o) o w (at_ w o) (by decide +kernel)).2.1 (ready_w w _ (by decide) rfl rfl rfl)
  let w := word 0xC8 0 1 2 0 0 0
  have := (h.1 0 1 0 (atLaunch o) o w (at_ w o) (by decide +kernel)).2.2.1 (ready_w w _ (by decide) rfl rfl rfl)
  let w := word 0xC9 3 1 0 0 0 0
  have := (h.1 0 1 0 (atLaunch o) o w (at_ w o) (by decide +kernel)).2.2.2 (ready_w w _ (by decide) rfl rfl rfl) (by decide +kernel)
  let w := word 0xC7 3 1 0 0 0 0
  replace h := h.2
  have := (h.1 0 1 0 0 [] _ (strOf 0x90002 0) w _ (ready_w w _ (by decide) rfl rfl rfl) (by decide +kernel)).1 (by decide +kernel)
  have := (h.1 0 1 0 0 [] _ (strOf 2 0) w _ (ready_post w _ armed (by decide) rfl rfl rfl) (by decide +kernel)).2.1 (by decide +kernel) (by decide +kernel)
  have := (h.1 0 1 0 0 [] _ (strOf 2 0) w _ (ready_w w _ (by decide) rfl rfl rfl) (by decide +kernel)).2.2.1 (by decide +kernel) (by decide +kernel)
  have := (h.1 0 1 0 0 [] _ (strOf 2 0) w _ (ready_post w _ { armed with st := 2 } (by decide) rfl rfl rfl) (by decide +kernel)).2.2.2 (by decide +kernel)
    (.inl (by decide +kernel)) (by decide +kernel)
  let g' : Str := { strOf 2 0 with wait := .woken 9 }
  replace h := h.2
  have := h 0 1 0 9 (atLaunch g') g' w (at_ w g') (by decide +kernel) rfl
  trivial

/-- `at_` with Waystation 3 in a given state. -/
def atWs (w : Nat) (g : Str) (q : Ws) : State := { at_ w g with ws := [(3, q)] }

theorem ready_ws {op : Nat} (w : Nat) (g : Str) (q : Ws) (ho : iOp w = op) (hw : g.wait = .none) (hs : g.st = 1) (hp : g.pc = 0) :
    Ready (atWs w g q) op 0 1 0 (atLaunch g) g w := ⟨(ready_at ho hw hs hp).found, hw⟩

/-- A Waystation that lanes push to and pop from. -/
def wsl : Ws := { Ws.fresh with st := 1, width := 2, consumer := 1, lanePush := true, depthLog2 := 7 }

theorem wit_StringsOnWaystations (h : Obligations.StringsOnWaystations) : True := by
  let w := word 0xC8 0 1 2 0 0 0
  have p (q : Ws) := h.1 0 1 0 0 [] _ (strOf 3 7) w _ (ready_ws w _ q (by decide) rfl rfl rfl) (by decide +kernel)
  have := (p { wsl with lanePush := false }).1 (.inr (by decide +kernel))
  have := ((p wsl).2.1 (by decide +kernel) (by decide +kernel) (by decide +kernel) (by decide +kernel)).1 (by decide +kernel)
  let s : State := { atWs w (strOf 3 7) wsl with ctxs := updAt (atWs w (strOf 3 7) wsl).ctxs 0 (fun x => { x with
    lanes := { x.lanes with layoutWs := 3 } }) }
  have := ((h.1 0 1 0 0 [] (atLaunch (strOf 3 7)) (strOf 3 7) w s ⟨(ready_ws w (strOf 3 7) wsl (by decide) rfl rfl rfl).found, rfl⟩ (by decide +kernel)).2.1 (by decide +kernel)
    (by decide +kernel) (by decide +kernel) (by decide +kernel)).2 (by decide +kernel) (by decide +kernel)
  have := (p { wsl with depthLog2 := 0, words := [(1, false)] }).2.2 (by decide +kernel) (by decide +kernel) (by decide +kernel)
  replace h := h.2
  have q (op : Nat) (hop : iOp (word 0xC9 3 1 0 0 0 (16 * op + 4)) = 0xC9) (hl : (strOf 3 7).lanes (word 0xC9 3 1 0 0 0 (16 * op + 4)) = [0]) (y : Ws) :=
    h 0 1 0 0 [] _ (strOf 3 7) (word 0xC9 3 1 0 0 0 (16 * op + 4)) _ (ready_ws _ _ y hop rfl rfl rfl) hl
  have := (q 0 (by decide) (by decide +kernel) { wsl with consumer := 0 }).1 (by decide +kernel)
  have := this.1 (by decide +kernel)
  have := ((q 1 (by decide) (by decide +kernel) { wsl with consumer := 0 }).1 (by decide +kernel)).2.1 (by decide +kernel)
  have := ((q 2 (by decide) (by decide +kernel) { wsl with consumer := 0 }).1 (by decide +kernel)).2.2.1 (by decide +kernel)
  have := ((q 3 (by decide) (by decide +kernel) { wsl with consumer := 0 }).1 (by decide +kernel)).2.2.2 (by decide +kernel)
  have a := (q 0 (by decide) (by decide +kernel) { wsl with words := [(1, false)], writePtr := 1, headN := 1 }).2.1 (by decide +kernel) (by decide +kernel)
  obtain ⟨_, _, _, _, _, _, _, _, _, this, _⟩ := a.1 (1, false) [] (by decide +kernel)
  have := this (by decide +kernel)
  have a := (q 0 (by decide) (by decide +kernel) { wsl with words := [(1, false)], writePtr := 1, headN := 1, markHeld := true }).2.1 (by decide +kernel) (by decide +kernel)
  obtain ⟨_, _, _, _, _, _, _, _, _, _, this, _, _, t⟩ := a.1 (1, false) [] (by decide +kernel)
  have := this (by decide +kernel)
  have := t (by decide +kernel)
  have a := (q 0 (by decide) (by decide +kernel) wsl).2.1 (by decide +kernel) (by decide +kernel)
  obtain ⟨_, _, _, _, _, _, _, u, _, _, t⟩ := a.2 (by decide +kernel)
  have := u (by decide +kernel)
  have := t (by decide +kernel)
  have := (q 1 (by decide) (by decide +kernel) wsl).2.2.1 (by decide +kernel) (by decide +kernel)
  have := (q 2 (by decide) (by decide +kernel) { wsl with markHeld := true }).2.2.2.1 (by decide +kernel) (by decide +kernel) (by decide +kernel)
  have := (q 3 (by decide) (by decide +kernel) { wsl with markHeld := true }).2.2.2.2.1 (by decide +kernel) (by decide +kernel) (by decide +kernel)
  have := ((q 2 (by decide) (by decide +kernel) wsl).2.2.2.2.2 (by decide +kernel) (by decide +kernel)).1 (by decide +kernel)
  have := ((q 3 (by decide) (by decide +kernel) wsl).2.2.2.2.2 (by decide +kernel) (by decide +kernel)).2 (by decide +kernel)
  trivial

/-! ### Steps -/

/-- An entry of sequence 5 with one token in slot 0. -/
def ent0 : Entry := ⟨5, 0, 1, false, true, 4, 0, 0, 0, 0, 0, 0, 0, [9], [], false, false, false, 0, false, none⟩

/-- A step in flight of epoch 7 with the entries of a list, all in convoy A. -/
def manOf (l : List Entry) : Manifest := { man0 with entries := l, tokens := l.length, tokensA := l.length }

/-- A decoding sequence whose emit Waystation is 3. -/
def dec0 : Seq := { seq0 with st := .decode, emitWs := 3 }

/-- `base` with a step in flight and no MoE layer. -/
def stepping (m : Manifest) (f : Ctx → Ctx) (q : Seq) : State :=
  base (fun x => f { x with model := some { model0 with moe := 0 }, steps := { x.steps with man := some m, ring := 2 ^ 26, tokenLimit := 16 } }) q

theorem wit_StepBoundaries (h : Obligations.StepBoundaries) : True := by
  have := h.1 16 base0 (.inl (Nat.le_refl _))
  have := h.1 1 base0 (.inr (.inl (by decide)))
  replace h := h.2
  have := h.1 0 (manOf [ent0]) (stepping (manOf [ent0]) id dec0) rfl rfl (by decide +kernel)
  let m := manOf [{ ent0 with result := some (some 12) }]
  replace h := h.2
  have := h.1 0 m { stepping m id dec0 with ws := [(3, { Ws.fresh with st := 1, width := 2, words := List.replicate 128 (0, false) })] } (by decide) rfl rfl rfl rfl (by decide +kernel) (by decide +kernel)
  replace h := h.2
  have := h.1 0 (base (fun x => { x with held := true, steps := { x.steps with between := true } }) seq0) rfl (by decide +kernel)
  replace h := h.2
  obtain ⟨_, _⟩ := h.1 0 5 12 m { ent0 with result := some (some 12) } dec0 (stepping m (fun x => { x with held := true }) dec0)
    (by decide) (by decide) rfl rfl rfl rfl rfl (by decide +kernel) (by decide +kernel) rfl rfl rfl rfl rfl rfl rfl rfl rfl
    (by decide +kernel) rfl rfl rfl rfl rfl rfl rfl rfl rfl (by decide +kernel) rfl
  let q : Seq := { dec0 with pendTok := some 12 }
  let s := stepping man0 (fun x => { x with steps := { x.steps with man := none, between := true }, kv := { x.kv with
    cols := [(1, ⟨false, [], 1, [], 0, none, []⟩)] } }) { q with cols := [1] }
  replace h := h.2
  have := h 0 5 12 { q with cols := [1] } { s with fws := [] } (by decide) (by decide) rfl rfl rfl (by decide +kernel) rfl rfl rfl
    (by decide) rfl rfl rfl rfl (by decide +kernel) rfl rfl rfl rfl (by decide +kernel) (by decide) (by decide +kernel)
  trivial

/-- `stepping` with MoE layers. -/
def moving (m : Manifest) (f : Ctx → Ctx) : State := base (fun x => f { x with steps := { x.steps with man := some m } }) seq0

theorem wit_StepInputs (h : Obligations.StepInputs) : True := by
  have := h.1 0 0 man0 (moving man0 id) rfl rfl
  replace h := h.2
  have := h.1 0 0 base0 (.inl rfl)
  let s := moving (manOf [ent0]) (fun x => { x with model := some { model0 with vocab := 2 } })
  replace h := h.2
  obtain ⟨_, _, _, _, _, _⟩ := h.1 0 0 0 [0x3F800000, 0x40000000] (manOf [ent0]) ent0 { model0 with vocab := 2 } s (by decide) rfl rfl rfl rfl
    (by decide) rfl rfl (by decide) rfl rfl
  obtain ⟨_, _, _, _, _, e⟩ := h.1 0 0 0 [0x7FC00000, 0x7FC00000] (manOf [ent0]) ent0 { model0 with vocab := 2 } s (by decide) rfl rfl rfl rfl
    (by decide) rfl rfl (by decide) rfl rfl
  have := e (by decide +kernel)
  replace h := h.2
  have := h.1 0 1 ent0 [0x3F800000, 0x40000000, 0x40000000] rfl (by decide +kernel) (by decide +kernel)
  replace h := h.2
  have := h.1 0 0 man0 model0 (moving man0 id) rfl rfl (by decide) rfl (by decide +kernel) (by decide +kernel)
  replace h := h.2
  have := h 0 0 { moving man0 id with fws := [] } (.inr (by decide))
  trivial

theorem wit_DieTraffic (h : Obligations.DieTraffic) : True := by
  let m := manOf [ent0]
  let y : Layer := { Layer.fresh with hidden := [(0, (0, []))] }
  let row := List.replicate 64 0x3F80
  let fused (x : Ctx) : Ctx := { x with layers := [(0, y)], route := ⟨1, ⟨[(0, ⟨cfg0, 0, 0, 2 ^ 128 - 1, []⟩)], []⟩, .free⟩ }
  have := (h.1 0 0 7 0 false 0 row m model0 (moving m id) rfl rfl rfl rfl (by decide) (by decide) (by decide) rfl).1 rfl
  have := (h.1 0 0 7 0 false 0 row m model0 (moving m fused) rfl rfl rfl rfl (by decide) (by decide) (by decide) rfl).2.1 (by decide)
  have := (h.1 0 0 7 0 false 0 row m model0 (moving m fused) rfl rfl rfl rfl (by decide) (by decide) (by decide) rfl).2.2 (by decide +kernel)
    (by decide) rfl
  replace h := h.2
  have := h.1 0 0 7 0 false 0 row base0 (.inl rfl)
  replace h := h.2
  have a := h.1 0 0 (addr 1 0) 4 [1, 2, 3, 4] base0 rfl rfl
  have := a.1 (by decide +kernel) (by decide +kernel)
  have := a.2.1 (by decide +kernel) (by decide +kernel) (by decide +kernel)
  have := (h.1 0 0 (addr 1 0) 4 [1, 2, 3, 4] { base0 with poison := [2 ^ 48] } rfl rfl).2.2.1 (by decide +kernel) (by decide +kernel)
    ⟨2 ^ 48, List.mem_cons_self .., by decide +kernel⟩
  have b := h.1 0 0 (2 ^ 57 - 4) 8 [1, 2, 3, 4, 5, 6, 7, 8] base0 rfl rfl
  have := b.2.2.2.1 (by decide +kernel) (by decide +kernel)
  have := b.2.2.2.2.1 (by decide +kernel) (by decide +kernel)
  have := (h.1 0 0 (2 ^ 57) 4 [1, 2, 3, 4] base0 rfl rfl).2.2.2.2.2 (by decide +kernel)
  replace h := h.2
  have := h 2 0 [1] base0 rfl
  trivial

theorem wit_GateAndSelection (h : Obligations.GateAndSelection) : True := by
  let m := manOf [ent0]
  let row := List.replicate 64 0x3F80
  let lay (y : Layer) (x : Ctx) : Ctx := { x with layers := [(0, y)] }
  obtain ⟨_, _, _, _, _, this⟩ := h.1 0 0 false m model0 (moving m (lay { Layer.fresh with hidden := [(0, (0, row))] })) (by decide) rfl rfl (by decide)
    rfl (by decide) (fun n _ k => by
      rw [show n = 0 from Nat.lt_one_iff.mp k]; decide +kernel)
  have := this 0 (by decide) (by decide)
  replace h := h.2
  have := h.1 0 0 false 0 m (moving m id) rfl (by decide) (by decide) rfl
  replace h := h.2
  have := h.1 0 0 false m (moving m (fun x => { lay { Layer.fresh with gated := true } x with
    route := ⟨1, ⟨[(0, ⟨setBits cfg0 30 2 1, 0, 0, 0, []⟩)], []⟩, .free⟩ })) rfl rfl rfl rfl rfl (by decide +kernel)
  replace h := h.2
  have := h.1 0 0 false m (moving m (lay { Layer.fresh with predRun := true })) (by decide) rfl rfl
  replace h := h.2
  have := h.1 0 0 false base0 rfl
  replace h := h.2
  obtain ⟨_, _, _, _, _, _, _, _, _, this⟩ := h.1 0 0 false 0 m [100, 30000, 20, 0] [0, 0, 0, 0] false ent0
    (moving m (lay { Layer.fresh with gated := true, scores := [(0, ([100, 30000, 20, 0], [0, 0, 0, 0], false))] })) (by decide) rfl rfl (by decide +kernel)
    rfl (by decide) (fun k => by cases k) (by decide +kernel)
  replace h := h.2
  have := h.1 0 0 false 0 (moving m (lay { Layer.fresh with selected := [0] })) (by decide +kernel)
  let m2 := { manOf [ent0, { ent0 with slot := 1 }] with fixed := true }
  replace h := h.2
  have := h.1 0 0 false 1 0 m2 (moving m2 id) rfl rfl (by decide) (by decide) (by decide) (by decide) (by decide +kernel)
  replace h := h.2
  have := h [100, 30000, 20, 0] cfg0 0 3 [1, 0, 2] (by decide) (by decide +kernel) (by decide +kernel)
  trivial

theorem wit_RoundRobinExact (h : Obligations.RoundRobinExact) : True := by
  have := h [3, 1, 2] 5 0 (by decide) (by decide)
  have := h [3, 1, 2] 5 2 (by decide) (by decide)
  trivial

/-! ### Waybills, reception and returns -/

/-- A waybill of sequence 5's slot 0 in epoch 7: layer 0, expert 1, rank 0, from package 0 to package 9. -/
def bill0 : Bill := ⟨7, 0, 0, 0, 0, 5, 0, 1, 0, 0x3F80, 0, 9, 0, 0, 0, 0⟩

/-- The finally sealed word of a waybill. -/
def wordOf (b : Bill) : Nat := b.seal.pack

/-- A convoy layer 0 of one row that has been selected. -/
def lay0 (f : Layer → Layer) (x : Ctx) : Ctx :=
  { x with layers := [(0, f { Layer.fresh with gated := true, selected := [0], sealing := true, raw := [bill0] })] }

/-- A route whose expert 1 of layer 0 has one replica at package 9. -/
def routed (x : Ctx) : Ctx := { x with
  route := ⟨1, ⟨[(0, ⟨cfg0, 0, 0, 0, []⟩)], [(1, ⟨true, false, false, 0, [⟨9, 1, true, 10⟩]⟩)]⟩, .free⟩ }

/-- A sub-convoy to package 9. -/
def sub0 : Sub := ⟨9, 0, true, [bill0], false, true, false, 0, 0, [], false⟩

/-- The landing buffer of convoy A of layer 0 with one EMPTY entry. -/
def land0 : LandBuf := ⟨7, 0, false, 0, 1, 0, [⟨0, 0, 0, 0⟩], false, none, 100, [], [], false⟩

theorem wit_Dispatch (h : Obligations.Dispatch) : True := by
  let m := manOf [ent0]
  have := (h.1 0 0 false bill0 [] m (moving m (lay0 id)) (by decide) rfl rfl rfl).1 rfl (by decide) rfl
  have := (h.1 0 0 false bill0 [] m (moving m (fun x => routed (lay0 id x))) (by decide) rfl rfl rfl).2.1 ⟨9, 1, true, 10⟩ 0 rfl rfl rfl (by decide)
  have := (h.1 0 0 false bill0 [] m (moving m (fun x => routed (lay0 (fun y => { y with reserved := true }) x))) (by decide) rfl rfl rfl).2.2
    ⟨9, 1, true, 10⟩ 0 rfl rfl rfl (by decide) (by decide) rfl
  replace h := h.2
  have := h.1 0 0 false (moving m (lay0 (fun y => { y with raw := [] }))) rfl
  let y1 (y : Layer) : Layer := { y with stallFrom := some 10, stalled := [bill0] }
  replace h := h.2
  have := (h.1 0 0 10 false (moving m (lay0 y1)) (by decide) rfl (by decide)).1 (by decide +kernel)
  have := (h.1 0 0 10 false { moving m (lay0 y1) with tb := { up.tb with count := 10 ^ 12 } } (by decide) rfl (by decide)).2 (by decide +kernel)
  replace h := h.2
  obtain ⟨_, _, _, _, _, _, e, _⟩ := h.1 0 0 false m model0 (moving m (lay0 (fun y => { y with raw := [], kept := [{ bill0 with expert := 2 }, bill0] })))
    (by decide) rfl rfl (by decide) (by decide) rfl (by decide +kernel) rfl rfl rfl (by decide +kernel)
  have := e 0 1 (by decide)
  replace h := h.2
  have := h.1 0 0 false (moving m (lay0 (fun y => { y with sorted := true }))) rfl
  let early : Layer := { Layer.fresh with due := some 3 }
  replace h := h.2
  have := h.1 0 0 0 1 5 false early (moving m (fun x => let z := lay0 (fun y => { y with due := some 5 }) x
    { z with layers := z.layers ++ [(1, early)] })) rfl rfl (by decide) (by decide +kernel) rfl ⟨3, by decide, rfl⟩
  let sub (u : Sub) : State := moving m (fun x => { lay0 (fun y => { y with subs := [u], slots := [(0, Slot.fresh)] }) x with lands := [land0] })
  replace h := h.2
  have := (h 0 0 9 0 false m sub0 (sub sub0) (by decide) rfl (by decide +kernel)).2.1 rfl
    ⟨land0, List.mem_cons_self .., rfl, rfl, rfl⟩ (.inr (.inr (by decide +kernel)))
  let u : Sub := { sub0 with sealed_ := true, bills := [bill0.seal] }
  have a := h 0 0 9 0 false m u (sub u) (by decide) rfl (by decide +kernel)
  have := a.1 rfl
  obtain ⟨_, _, _, _, _, _, _, _, _, _, _, _, this⟩ := a.2.2.1 rfl (by decide +kernel) (fun v hv _ => by
    cases List.mem_singleton.1 hv; exact Nat.le_refl _)
  have := this bill0.seal (List.mem_cons_self ..) rfl
  have := (h 0 0 9 0 false m sub0 (sub sub0) (by decide) rfl (by decide +kernel)).2.2.2.1 rfl
  let turns : State := moving m (lay0 (fun y => { y with subs := [{ u with dst := 1 }, u] }))
  have := (h 0 0 9 0 false m u turns (by decide) rfl (by decide +kernel)).2.2.2.2.1 { u with dst := 1 } (List.mem_cons_self ..) rfl (by decide)
  let v : Sub := { u with index := 1, released := false }
  let two (p : Sub) : State := moving m (fun x => { lay0 (fun y => { y with subs := [p, v] }) x with lands := [land0] })
  have := (h 0 0 9 1 false m v (two { u with injected := true }) (by decide) rfl (by decide +kernel)).2.2.2.2.2.1
    { u with injected := true } (by decide) (by decide +kernel) rfl rfl rfl
  have := (h 0 0 9 1 false m v (two { u with injected := true, waits := [0] }) (by decide) rfl (by decide +kernel)).2.2.2.2.2.2
    { u with injected := true, waits := [0] } (by decide +kernel) (by decide)
  trivial

/-- `base0` as package 9, with reception of context 0 and its route changed. -/
def receiving (f : Rx → Rx) (die : Nat) : State := { base (fun x => { x with
    rx := f x.rx
    route := ⟨1, ⟨[(0, ⟨cfg0, 100 * 2 ^ 112, 0, 0, []⟩)], [(1, ⟨true, false, false, 0, [⟨9, die, true, 10⟩]⟩)]⟩, .free⟩ }) seq0 with
  board := { up.board with pkgId := 9 } }

theorem wit_Reception (h : Obligations.Reception) : True := by
  let hd := noteHeader 7 0 0 0 false false true false 0 1 1 0 0
  let en := packF [(0, 16, 1), (20, 18, 1)]
  let w := wordOf bill0
  have hw : Bill.read w = { bill0 with crc := bill0.seal.crc } := by decide +kernel
  have := h.1 0 w 0 7 [en] [] ⟨0, 0, 1, [], []⟩ { base0 with fab := { up.fab with heldRx := [⟨0, 0, 1, [], []⟩] } } rfl (List.mem_cons_self ..) rfl
  replace h := h.2
  have := h.1 1 w 0 w [0] [] _ { base0 with fab := { up.fab with heldRx := [⟨0, 0, w, [], []⟩], noNote := [0] } } rfl rfl
    (show _ = some _ from rfl) rfl
  replace h := h.2
  have := h.1 0 0 [] base0 rfl rfl (by decide +kernel)
  replace h := h.2
  obtain ⟨_, _, _, _, _, _, _⟩ := h.1 0 hd [en] base0 (by decide +kernel) rfl rfl (by decide +kernel) (by decide +kernel) (by decide +kernel)
  replace h := h.2
  have := h.1 0 (noteHeader 7 1 0 0 false false true false 0 1 1 0 0) [en] base0 rfl rfl (by decide +kernel) (by decide +kernel)
  replace h := h.2
  have := (h.1 0 w [1] { base0 with fab := { up.fab with noNote := [0] } } rfl rfl).1 (by decide)
  have := (h.1 0 w [1] base0 rfl rfl).2.1 (by decide) (by decide +kernel) (by decide +kernel)
  have := (h.1 0 w [1] (receiving (fun r => { r with retired := [(0, 7)] }) 0) rfl rfl).2.2.1 (by decide) (by decide +kernel) (by decide +kernel) (by
    simp only [hw]; decide +kernel)
  have no (r : Rx) (hr : r.notes = []) : ∀ n, r.noteFor 0 (Bill.read w) = some n → n.expired = false := by
    intro n e; unfold Rx.noteFor at e; rw [hr] at e; cases e
  let n : RxNote := ⟨1, 0, 7, 0, false, false, true, false, 0, 1, 0, [(1, 0, 1, 0, 0)], 10, 0, false⟩
  have row (s : State) (hb : s.booted = true) (hh : s.fab.heldRx = []) (hp : s.board.pkgId = 9) (hn : s.fab.noNote = [])
      (hr : (s.ctx 0).rx.retired = []) (he : ∀ n, (s.ctx 0).rx.noteFor 0 (Bill.read w) = some n → n.expired = false) :=
    (h.1 0 w [1] s hb hh).2.2.2.1 (by rw [hn]; decide) (by decide +kernel) (by rw [hp, hw]; rfl) (by simp only [hw, bill0]; rw [hr]; decide)
      (by rw [hw] at he ⊢; exact he)
  have := (row (receiving id 4) rfl rfl rfl rfl rfl (no _ rfl)).1 refDieAbsent (by simp only [hw]; decide +kernel) (by simp only [hw]; rfl)
  have := (row (receiving (fun r => { r with notes := [n] }) 4) rfl rfl rfl rfl rfl
    (by intro n e; rw [hw] at e; cases e; rfl)).2.1 refDieAbsent n (by simp only [hw]; decide +kernel) (by simp only [hw]; rfl)
  let s5 : State := { receiving id 1 with ctxs := (receiving id 1).ctxs.map (fun (x : Ctx) => { x with share := { x.share with rxMib := 0 } }) }
  have := (row s5 rfl rfl rfl rfl rfl (no _ rfl)).2.2.1 (by simp only [hw]; decide +kernel) (by simp only [hw]; decide +kernel)
  have := (row (receiving id 1) rfl rfl rfl rfl rfl (no _ rfl)).2.2.2 (by simp only [hw]; decide +kernel) (by simp only [hw]; decide +kernel)
    (by simp only [hw]; decide +kernel)
  have a := (h.1 0 0 [1] base0 rfl rfl).2.2.2.2 (by decide) (by decide +kernel)
  obtain ⟨_, _, _, this, _⟩ := a
  have := this (by decide +kernel)
  obtain ⟨_, _, _, _, this⟩ := (h.1 0 0 [1] (receiving (fun r => { r with notes := [n] }) 1) rfl rfl).2.2.2.2 (by decide) (by decide +kernel)
  have := this 0 n 1 0 (by decide +kernel)
  let row : RxRow := ⟨1, w, 0, false, []⟩
  let bat : Batch := ⟨0, 1, 0, 10, false, 0, false, false, [row], []⟩
  let sb (n : Nat) : State := { receiving (fun r => { r with batches := [bat] }) 1 with tb := { up.tb with count := n } }
  replace h := h.2
  have := h.1 0 0 1 0 (sb (10 ^ 7)) (by decide +kernel) ⟨bat, List.mem_cons_self .., rfl, rfl, by decide +kernel⟩
  replace h := h.2
  have := h.1 0 0 1 0 (sb 10) (by decide +kernel)
  replace h := h.2
  have := h.1 1 w [0] base0 rfl (by simp only [hw]; decide +kernel)
  obtain ⟨_, _, f, _⟩ := this.1
  have := f rfl
  obtain ⟨_, _, f, _⟩ := (h.1 1 w [0] base0 rfl (by simp only [hw]; decide +kernel)).2 3
  have := f rfl
  replace h := h.2
  have := h.1 1 w [0] none base0
  replace h := h.2
  have := h.1 0 0 7 (sb 10) (by decide +kernel) rfl (by decide +kernel)
  replace h := h.2
  have := h.1 0 1 7 (sb 10) rfl (by decide +kernel)
  let sn (k : Nat) : State := { receiving (fun r => { r with batches := [bat], notes := [n] }) 1 with tb := { up.tb with count := k } }
  replace h := h.2
  have := (h 0 n (sn 10) (by decide +kernel) (by decide +kernel) rfl).1 (by decide +kernel)
  obtain ⟨_, _, f⟩ := (h 0 n (sn (10 ^ 7)) (by decide +kernel) (by decide +kernel) rfl).2 (by decide +kernel)
  have := f rfl
  trivial

/-- The convoy layer of the returns: slot 0 has one kept assignment. -/
def kept0 (f : Layer → Layer) (lands : List LandBuf) : State :=
  moving (manOf [ent0]) (fun x => { lay0 (fun y => f { y with
    raw := [], sorted := true, kept := [bill0], hidden := [(0, (1, [0]))]
    slots := [(0, { Slot.fresh with emitted := 1, kept := 1 })] }) x with
    lands := lands })

theorem wit_Returns (h : Obligations.Returns) : True := by
  let w := wordOf bill0
  have hw : Bill.read w = { bill0 with crc := bill0.seal.crc } := by decide +kernel
  let s := kept0 id [land0]
  have := (h.1 9 (wordOf { bill0 with src := 4 }) [] s).1 (by decide +kernel) (by decide +kernel)
  have := (h.1 9 w [] (kept0 id [])).2.1 (by decide +kernel) (by decide +kernel) (by simp only [hw]; decide +kernel)
  have at_ (e : Landing) (f : Layer → Layer) (hm : ({ land0 with entries := [e] } : LandBuf).matches { bill0 with crc := bill0.seal.crc } = true)
      (ho : ∀ o ∈ ((kept0 f [{ land0 with entries := [e] }]).ctx 0).outstanding { land0 with entries := [e] },
        (kept0 f [{ land0 with entries := [e] }]).now ≤ o.deadline)
      (hg : ((kept0 f [{ land0 with entries := [e] }]).ctx 0).slotGen { land0 with entries := [e] } 0 = 0) :=
    (h.1 9 w [0] (kept0 f [{ land0 with entries := [e] }])).2.2.1 { land0 with entries := [e] } e (by decide +kernel) (by rw [hw]; rfl)
      (by rw [hw]; rfl) rfl (by rw [hw]; exact hm) (by rw [hw]; rfl) (by rw [hw]; exact hg) (by rw [hw]; rfl) (by rw [hw]; exact ho)
  have := (at_ ⟨0, 4, 0, 0⟩ id rfl (by decide +kernel) rfl).1 (by rw [hw]; decide)
  have := (at_ ⟨3, 0, 0, 0⟩ id rfl (by decide +kernel) rfl).2.1 (by rw [hw]; decide) (by rw [hw]; decide) rfl
  have := (at_ ⟨1, 0, 0, 0⟩ id rfl (by decide +kernel) rfl).2.2.1 (by rw [hw]; decide) (by rw [hw]; decide) rfl
  have a := (at_ ⟨0, 0, 0, 0⟩ (fun y => { y with groups := [⟨0, true, 0, 0, 0, none⟩] }) rfl (by decide +kernel) rfl).2.2.2 (by rw [hw]; decide) (by rw [hw]; decide) rfl
    (by rw [hw]; decide +kernel)
  have := a.1
  obtain ⟨_, _, _, _, _, this⟩ := a.2 (by rw [hw]; rfl) (by rw [hw]; rfl) (by rw [hw]; decide +kernel)
  have := this 0 (by decide)
  let g1 (y : Layer) : Layer := { y with slots := [(0, { Slot.fresh with emitted := 1, kept := 1, gen := 1 })] }
  have := (((h.1 9 w [0] (kept0 g1 [land0])).2.2.2 land0 ⟨0, 0, 0, 0⟩ (by decide +kernel) (by rw [hw]; rfl) (by rw [hw]; rfl) rfl
    (by rw [hw]; rfl) (by rw [hw]; rfl) rfl).1 (by simp only [hw]; decide +kernel) (by simp only [hw]; decide +kernel))
  let u : Sub := { sub0 with injected := true, deadline := 50, waits := [0], bills := [bill0.seal] }
  let su (n : Nat) : State := { kept0 (fun y => { y with subs := [u] }) [land0] with tb := { up.tb with count := n } }
  have := ((h.1 9 w [0] (su 51)).2.2.2 land0 ⟨0, 0, 0, 0⟩ (by decide +kernel) (by rw [hw]; rfl) (by rw [hw]; rfl) rfl
    (by rw [hw]; rfl) (by rw [hw]; rfl) rfl).2 ⟨9, 0, 50, [(0, 5)]⟩ 5 (by simp only [hw]; decide +kernel) (by decide)
    (by rw [hw]; rfl) (by simp only [hw]; decide +kernel) (by rw [hw]; rfl) (by rw [hw]; rfl)
  let sw (n : Nat) : State := { kept0 (fun y => { y with groups := [⟨0, false, 0, 0, 0, some 10⟩], queue := [(bill0, [0])] }) [land0] with
    tb := { up.tb with count := n } }
  replace h := h.2
  have := (h.1 0 0 0 10 false (sw 20) (by decide) rfl).2.1 (by decide +kernel) (by decide)
  have := (h.1 0 0 0 10 false (sw 1010) (by decide) rfl).2.2 (by decide +kernel) (by decide) (by decide +kernel)
  have := (h.1 0 0 0 10 false (kept0 (fun y => { y with groups := [⟨0, false, 1, 0, 0, some 10⟩] }) [land0]) (by decide) rfl).1
    (by decide +kernel)
  replace h := h.2
  have f0 := h.1 0 0 0 1 false [0] (manOf [ent0]) s (by decide) rfl rfl (by decide +kernel) (by decide +kernel)
  have := f0.1 (by decide +kernel)
  let one : Slot := { Slot.fresh with emitted := 1, kept := 1, done := 1, acc := [0#32] }
  let s1 := kept0 (fun y => { y with slots := [(0, one)] }) [land0]
  obtain ⟨_, _, _, _, _⟩ := (h.1 0 0 0 1 false [0] (manOf [ent0]) s1 (by decide) rfl rfl (by decide +kernel) (by decide +kernel)).2.1
    (by decide +kernel) rfl (by decide) (by decide) (by decide +kernel)
  let fused (f : Layer → Layer) : State := moving (manOf [ent0]) (fun x => { lay0 (fun y => f { y with
    raw := [], sorted := true, kept := [bill0], hidden := [(0, (1, [0]))], slots := [(0, one)] }) x with
    lands := [land0], route := ⟨1, ⟨[(0, ⟨cfg0, 0, 0, 1 ||| 2 ^ 2 ||| h1 * 2 ^ 48, []⟩)], []⟩, .free⟩ })
  have := (h.1 0 0 0 1 false [0] (manOf [ent0]) (fused id) (by decide) rfl rfl (by decide +kernel) (by decide +kernel)).2.2.1
    (by decide +kernel) rfl (by decide +kernel) rfl
  obtain ⟨_, _, _, _, _, _, _⟩ := (h.1 0 0 0 1 false [0] (manOf [ent0]) (fused (fun y => { y with resid := [(0, (1, [0]))] })) (by decide) rfl rfl
    (by decide +kernel) (by decide +kernel)).2.2.2 (by decide +kernel) rfl (by decide +kernel) rfl
  replace h := h.2
  have only : ∀ v ∈ (((su 50).ctx 0).layer (2 * 0 + b2n false)).subs, v.dst = 9 → v.index = 0 → v = u := by
    intro v hv _ _; exact List.mem_singleton.mp hv
  have := (h.1 0 0 9 0 0 false (manOf [ent0]) u land0 ⟨0, 0, 0, 0⟩ (su 50) (by decide) rfl (by decide +kernel) rfl rfl rfl rfl rfl rfl
    only).1 (by decide)
  have := (h.1 0 0 9 0 0 false (manOf [ent0]) u land0 ⟨0, 0, 0, 0⟩ (su 51) (by decide) rfl (by decide +kernel) rfl rfl rfl rfl rfl rfl
    only).2 (by decide) (by decide) ⟨_, List.mem_cons_self .., by decide +kernel⟩ rfl rfl
    (by intro w hw hr; rw [List.mem_singleton.mp hw] at hr; exact absurd (by decide +kernel) hr)
  let sl (q : Bool) (n : Nat) : State := { kept0 id [{ land0 with quarantined := q, from_ := some 10 }] with tb := { up.tb with count := n } }
  replace h := h.2
  have := (h.1 0 _ 10 (sl false 100011) rfl rfl).1 (by decide)
  have := this.1 rfl
  have := ((h.1 0 _ 10 (sl true 100011) rfl rfl).1 (by decide)).2 rfl
  have := (h.1 0 _ 10 (sl true 100010) rfl rfl).2 (by decide)
  replace h := h.2
  have := h 0 land0 s (by decide) rfl
  trivial

/-! ### Residency -/

/-- The source of expert 1: eight bytes in far memory, and a mirror. -/
def src0 : Source := ⟨0, 4, [1, 2, 3, 4, 5, 6, 7, 8], [Num.crc32c [1, 2, 3, 4, 5, 6, 7, 8]], false, some (2 ^ 40, 0)⟩

/-- Context 0 with images of 8 bytes, a chunk of 64 KiB blocks on die 1, and its residency changed. -/
def resid0 (f : Resid → Resid) (x : Ctx) : Ctx := { x with
  model := some { model0 with imageBytes := 8 }
  khan := { khan0 with pools := updAt khan0.pools 3 (fun _ => ⟨[(2 ^ 31, 4)], [], List.replicate 8 0⟩) }
  route := ⟨1, ⟨[(0, ⟨cfg0, 0, 0, 0, []⟩)], [(1, ⟨true, true, false, 0, [⟨0, 1, true, 10⟩, ⟨0, 1, true, 10⟩]⟩)]⟩, .free⟩
  resid := f { x.resid with sources := [(1, src0)] } }

/-- `base0` with the residency of context 0 changed, at tick n. -/
def resident (f : Resid → Resid) (n : Nat) : State := { base (resid0 f) seq0 with tb := { up.tb with count := n } }

/-- A fetch of replica 1 of expert 1 in layer 0, for die 1. -/
def fetch0 (prio copy chunk : Nat) (started : Bool) : Fetch := ⟨0, 1, 1, 1, prio, 0, started, false, copy, chunk, 0, []⟩

/-- The frame of that replica. -/
def frame0 (st : Nat) : Frame := ⟨0, 1, 1, 1, st, [2 ^ 31], 0, false⟩

theorem wit_Fetches (h : Obligations.Fetches) : True := by
  let lim (f : Resid → Resid) : State := resident (fun r => f { r with policy := 2 ^ 88 }) 10
  have := (h.1 0 0 1 1 1 0 1 (lim id) (by decide +kernel) (by decide) (by decide) (by decide) (by decide +kernel) (by decide)
    (by decide +kernel)).1 (by decide +kernel) (.inl (by decide))
  have := (h.1 0 0 1 1 5 1 1 (lim id) (by decide +kernel) (by decide) (by decide) (by decide) (by decide +kernel) (by decide)
    (by decide)).1 (by decide +kernel) (.inl (by decide))
  have := (h.1 0 0 1 1 4 0 1 (lim id) (by decide +kernel) (by decide) (by decide) (by decide) (by decide +kernel) (by decide)
    (by decide +kernel)).1 (by decide +kernel) (.inr (by decide +kernel))
  have := (h.1 0 0 1 1 4 0 1 (lim (fun r => { r with fetches := [{ fetch0 4 2 0 true with expert := 0 }] })) (by decide +kernel) (by decide)
    (by decide) (by decide) (by decide +kernel) (by decide) (by decide +kernel)).2 (by decide +kernel) rfl (by decide +kernel)
  replace h := h.2
  have := h.1 0 0 1 0 0 1 (lim id) (by decide +kernel) (by decide +kernel) (by decide +kernel) (by decide +kernel) (by decide +kernel)
  replace h := h.2
  have := h.1 0 0 1 1 1 0 (frame0 1) (lim (fun r => { r with frames := [frame0 1] })) (by decide +kernel) (by decide) (by decide) (by decide)
    (by decide +kernel)
  replace h := h.2
  have := h.1 0 0 1 1 7 0 (lim id) (.inr (.inr (by decide)))
  replace h := h.2
  have f := h.1 0 0 1 1 (fetch0 1 2 0 false) (2, 0) [] (lim (fun r => { r with fetches := [fetch0 1 2 0 false] })) (by decide +kernel)
    (by decide +kernel) rfl rfl rfl rfl (by decide) (by decide +kernel) (.inl (by decide)) (by decide +kernel) (by decide +kernel)
    (by decide +kernel)
  have := f.1 (by decide +kernel) (by decide +kernel)
  let none (x : State) : State := x.onCtx 0 (fun x => { x with khan := { x.khan with pools := updAt x.khan.pools 3 (fun _ =>
    ⟨[], [], List.replicate 8 0⟩) } })
  have f := h.1 0 0 1 1 (fetch0 1 2 0 false) (2, 0) [] (none (lim (fun r => { r with fetches := [fetch0 1 2 0 false] })))
    (by decide +kernel) (by decide +kernel) rfl rfl rfl rfl (by decide) (by decide +kernel) (.inl (by decide)) (by decide +kernel)
    (by decide +kernel) (by decide +kernel)
  have := f.2 (by decide +kernel) (by decide +kernel)
  replace h := h.2
  have := (h.1 0 0 1 1 (fetch0 1 2 0 true) (lim (fun r => { r with fetches := [fetch0 1 2 0 true] })) (by decide +kernel)).1 (.inl rfl)
  have := (h.1 0 0 1 1 (fetch0 4 2 0 false) (resident (fun r => { r with policy := 0, fetches := [fetch0 4 2 0 false] }) 10)
    (by decide +kernel)).2 rfl (by decide +kernel) rfl (by decide +kernel)
  let run (f : Fetch) (g : List Frame) : State := lim (fun r => { r with fetches := [f], frames := g })
  replace h := h.2
  have := h.1 0 0 1 1 (fetch0 1 2 0 true) src0 (frame0 1) (frame0 1)
    (run (fetch0 1 2 0 true) [frame0 1]) (by decide +kernel) (by decide +kernel) rfl rfl rfl rfl (by decide +kernel) (by decide +kernel)
    (fun e => absurd e (by decide)) (by decide +kernel) (by decide +kernel)
  let local_ : State := (run (fetch0 1 0 0 true) [frame0 1, { frame0 2 with replica := 0, granules := [2 ^ 31 + 2 ^ 18] }]).writeAt
    (2 ^ 31 + 2 ^ 18) [1, 2, 3, 4, 5, 6, 7, 8]
  have := h.1 0 0 1 1 (fetch0 1 0 0 true) src0 (frame0 1) { frame0 2 with replica := 0, granules := [2 ^ 31 + 2 ^ 18] } local_
    (by decide +kernel) (by decide +kernel) rfl rfl rfl rfl (by decide +kernel) (by decide +kernel)
    (fun _ => ⟨by decide +kernel, by decide, by decide +kernel⟩) (by decide +kernel) (by decide +kernel)
  replace h := h.2
  have := h.1 0 0 1 1 (fetch0 1 2 0 true) src0 (2 ^ 40, 0) true
    (run (fetch0 1 2 0 true) [frame0 1]) (by decide +kernel) (by decide +kernel) rfl rfl rfl rfl (by decide +kernel) rfl (by decide +kernel)
    (.inl rfl) rfl (by decide +kernel)
  replace h := h.2
  have := h.1 0 0 1 1 (fetch0 1 2 1 true) (frame0 1) (run (fetch0 1 2 1 true) [frame0 1]) (by decide +kernel) (by decide +kernel) rfl rfl rfl rfl
    (by decide +kernel) (.inl rfl) (by decide) (by decide +kernel) rfl rfl rfl (by decide +kernel)
  replace h := h.2
  have := h.1 0 0 1 1 (fetch0 1 2 0 true) (run (fetch0 1 2 0 true) [frame0 1]) (by decide +kernel) (.inr (by decide +kernel))
  replace h := h.2
  have := h 0 (2 ^ 64) (2 ^ 30) 0 1 oldFrame (some (1, 0)) { framed with tb := { up.tb with count := 10 ^ 7 } } (by decide) (by decide) rfl
    (by decide +kernel) rfl (by decide +kernel) (by decide +kernel) (by decide +kernel) (by decide +kernel)
  trivial

theorem wit_Placement (h : Obligations.Placement) : True := by
  let pl (f : Resid → Resid) (n : Nat) : State := resident (fun r => f { r with policy := 10 * 2 ^ 72 }) n
  have := (h.1 0 (pl id 10)).1 (.inr (.inl (by decide +kernel)))
  let frz (r : Resid) : Resid := { r with policy := 10 * 2 ^ 72 + 8, planPolicy := 10 * 2 ^ 72 + 8 }
  have := ((h.1 0 (resident frz (10 ^ 6))).2 (by decide +kernel) (by decide +kernel) (by decide +kernel) rfl).1 (by decide +kernel)
    (by decide +kernel)
  let far (s : State) : State := { s with board := { up.board with pkgId := 9 } }
  obtain ⟨_, _, _, _, _⟩ := ((h.1 0 (far (pl (fun r => { r with resident := [4], heat := [(1, 30)] }) (10 ^ 6)))).2 (by decide +kernel)
    (by decide +kernel) (by decide +kernel) rfl).2 (by decide +kernel)
  replace h := h.2
  have := h.1 4 0 0 1 30 (resident frz 10) (by decide) (by decide +kernel) (by decide +kernel) (by decide) (by decide) (by decide +kernel)
    (by decide +kernel)
  replace h := h.2
  have := h.1 4 0 0 [] (far (pl (fun r => { r with resident := [4] }) 10)) (.inr (.inl (by decide +kernel)))
  replace h := h.2
  obtain ⟨_, _, _, _, _, f⟩ := h.1 0 0 1 2 9 1 10 true (pl (fun r => { r with resident := [4] }) 10) (by decide) (by decide +kernel) (by decide) (by decide)
    (by decide +kernel) (by decide +kernel) rfl rfl rfl rfl (by decide +kernel) (by decide +kernel)
  have := f (by decide +kernel) 4 (by decide +kernel) (by decide)
  let st (r : Resid → Resid) : State := { base (fun x => { resid0 r x with steps := { x.steps with man := some man0 } }) seq0 with
    tb := { up.tb with count := 10 } }
  replace h := h.2
  obtain ⟨_, _, _, _, _, _, _, f⟩ := h.1 0 0 1 1 man0 ⟨0, 1, true, 10⟩ (st (fun r => { r with resident := [4] })) (by decide) (by decide +kernel)
    (by decide) (by decide +kernel) (by decide +kernel) rfl rfl rfl rfl rfl rfl rfl
  have := f (by decide +kernel) 4 (by decide +kernel) (by decide)
  let rm (x : Removal) (fs : List Frame) (b : List Batch) (n : Nat) : State := { base (fun y => { resid0 (fun r => { r with
    removals := [x], frames := fs, resident := [4] }) y with rx := { y.rx with batches := b } }) seq0 with tb := { up.tb with count := n } }
  replace h := h.2
  have := h.1 4 0 0 1 1 ⟨0, 1, 1, [0], none⟩ (rm ⟨0, 1, 1, [0], none⟩ [] [] 10) (by decide +kernel) rfl rfl rfl rfl (by decide)
  let x : Removal := ⟨0, 1, 1, [0, 4], some 5⟩
  replace h := h.2
  have := (h 0 0 1 1 5 x (rm x [frame0 2] [] 100005) (by decide +kernel) (by decide +kernel) rfl rfl rfl rfl).1 (by decide +kernel)
  have := (h 0 0 1 1 5 x (rm x [frame0 2] [⟨0, 1, 1, 0, false, 0, false, false, [], []⟩] 100006) (by decide +kernel) (by decide +kernel) rfl rfl rfl
    rfl).2.1 (by decide +kernel) (by decide +kernel)
  obtain ⟨_, _, _, _, f⟩ := (h 0 0 1 1 5 x (rm x [frame0 2] [] 100006) (by decide +kernel) (by decide +kernel) rfl rfl rfl rfl).2.2
    (by decide +kernel) (by decide +kernel)
  have := f (frame0 2) (by decide +kernel)
  trivial

theorem wit_PeerEvents (h : Obligations.PeerEvents) : True := by
  have := h.1 4 0 (2 ^ 57) base0 (by decide)
  replace h := h.2
  have := h.1 4 0 base0 (by decide)
  replace h := h.2
  have := h.1 1 0 1 base0 (by decide +kernel)
  replace h := h.2
  have := h.1 0 0 1 base0 (by decide +kernel) (by decide +kernel)
  replace h := h.2
  have := h.1 1 State.reset rfl
  replace h := h.2
  obtain ⟨_, _, _, _, _, this⟩ := h.1 1 (resident (fun r => { r with frames := [frame0 2] }) 10) rfl
  have := this 0 (by decide) (by decide +kernel)
  replace h := h.2
  have a := h.1 4 0 (addr 1 0) 4 1 true false [1, 2, 3, 4] base0
  have := (a.1 rfl (by decide +kernel) (by decide +kernel)).1 (by decide +kernel)
  have := ((h.1 4 0 (addr 1 0) 4 1 true false [1, 2, 3, 4] { base0 with poison := [2 ^ 48] }).1 rfl (by decide +kernel) (by decide +kernel)).2
    (by decide +kernel)
  have := a.2.1 rfl (by decide +kernel) (by decide +kernel)
  have := a.2.2.1 rfl (by decide +kernel) (by decide +kernel)
  have := (h.1 4 0 (2 ^ 57) 4 1 true false [1, 2, 3, 4] base0).2.2.2 (.inr (by decide +kernel))
  replace h := h.2
  have := h.1 (addr 4 128) { base0 with boot := { up.boot with cxlUp := [true, true], cxlBytes := [2 ^ 30, 2 ^ 30] } } (by decide +kernel) (by decide +kernel) (by decide +kernel)
  replace h := h.2
  have := h 0 base0 (by decide +kernel)
  trivial

/-! ### The fabric -/

/-- A port that is up to package 9. -/
def port0 : Port := { Port.fresh with st := .up4, peer := 9 }

/-- `up` with port 0 changed, up to package 9, and with path 8 × 9 + 1 out of the package. -/
def linked (f : Port → Port) (o : PathOut → PathOut) (n : Nat) : State := { base0 with
  tb := { up.tb with count := n }
  fab := { up.fab with ports := updAt up.fab.ports 0 (fun _ => f port0), present := [0, 9], outs := [(73, o PathOut.fresh)] } }

theorem wit_WaborLink (h : Obligations.WaborLink) : True := by
  obtain ⟨_, _, _, _, _, _, _, _, _, this⟩ := h.1 0 1 [7, 8] (linked id id 10) (by decide) (by decide +kernel) rfl (by decide) (by decide) (by decide) (by decide) (by decide)
  have := this 1 (by decide)
  replace h := h.2
  have := h.1 0 1 5 [7] (linked id id 10) (by decide) (by decide +kernel) rfl (by decide) (by decide) (by decide +kernel) rfl (by decide)
  replace h := h.2
  have := h.1 0 [1] (linked id id 10) (by decide) (by decide +kernel) rfl (.inl (by decide))
  replace h := h.2
  have := h.1 1 0 [] [] (linked id id 10) rfl
  let sent (r n : Nat) : State := linked (fun p => { p with replay := [(0, 0, [7])], replayRuns := r }) id n
  replace h := h.2
  have := (h.1 0 (sent 0 2000) (by decide) (by decide +kernel) rfl (by decide)).1 (by decide)
  have := (h.1 0 (sent 7 2001) (by decide) (by decide +kernel) rfl (by decide)).2.1 (by decide) (by decide)
  have := (h.1 0 (sent 8 2001) (by decide) (by decide +kernel) rfl (by decide)).2.2 (by decide) (by decide)
  replace h := h.2
  obtain ⟨_, _, _, _, _, _, _⟩ := h.1 0 (sent 0 10) (by decide) rfl (by decide)
  replace h := h.2
  have := h.1 0 (linked (fun p => { p with slot60 := 59, stampDue := true }) id 10) (by decide) (by decide +kernel) rfl rfl rfl
  let x : Timestamp := ⟨5, 0, 0, 0, 0, true, 0⟩
  replace h := h.2
  have := h.1 0 7 x (linked id id 10) (by decide) (by decide +kernel) rfl (by decide) (by decide) (by decide) (by decide) (by decide) (by decide)
    (by decide)
  replace h := h.2
  have := h.1 0 (linked id id 10000) (by decide) rfl (by decide)
  replace h := h.2
  have := h.1 0 x (linked id id 10) (by decide) rfl rfl
  replace h := h.2
  have := h.1 { up with tb := { up.tb with master := 9, count := 10 ^ 6 } } (.inl rfl) (by decide) (by decide)
  replace h := h.2
  have := h { up with tb := { up.tb with st := .holdover, count := 10 ^ 8 } } rfl rfl (by decide)
  trivial

theorem wit_WaborTransport (h : Obligations.WaborTransport) : True := by
  have := (h.1 9 1 (linked id id 10)).1 rfl
  let some_ (p : PathOut) : PathOut := { p with stream := [(0, [1, 2, 3])], lastByte := 10, opened := true, credits := 2 }
  have := (h.1 9 1 (linked id some_ 59)).2.1 (by decide) (by decide)
  have := (h.1 9 1 (linked id (fun p => { some_ p with credits := 0 }) 60)).2.2.1 rfl rfl
  obtain ⟨_, _, _, _⟩ := (h.1 9 1 (linked id some_ 60)).2.2.2 rfl (by decide) (by decide) (by decide) (.inr (by decide)) rfl (by decide) (by decide +kernel)
  let ch (psn : Nat) : List Byte := wireChunk (chunkHeader 0 9 none 1 false false psn (msgHeader 0x02 0 0 2 ++ [7, 8]).length 0) (msgHeader 0x02 0 0 2 ++ [7, 8])
  let rx (l : List Byte) : State := linked (fun p => { p with rx := updAt p.rx 1 (fun _ => l) }) id 10
  replace h := h.2
  have step := h.1 0 9 1 0x02 0 0 [7, 8] [5] (rx (ch 0 ++ [5])) (by decide) (by decide +kernel) (by decide) (by decide) rfl (by decide) (by decide) (by decide) (by decide)
  have := step (by decide) (by decide) (by decide) (by decide) rfl rfl rfl
  let old : State := { rx (ch 4 ++ [5]) with fab := { (rx (ch 4 ++ [5])).fab with ins := [(73, { PathIn.fresh with expected := 5 })] } }
  replace h := h.2
  have := h.1 0 9 1 4 (msgHeader 0x02 0 0 2 ++ [7, 8]) [5] old (by decide) (by decide +kernel) (by decide) (by decide) rfl (by decide) (by decide)
    (by decide) (by decide) (by decide) rfl rfl
  replace h := h.2
  have := h.1 0 1 (linked id id 10) (by decide)
  replace h := h.2
  have := (h.1 9 (linked id id 10)).1 (by decide)
  let due : State := { linked id id 10 with fab := { (linked id id 10).fab with ins := [(73, { PathIn.fresh with expected := 5, ackFrom := some 3 })] } }
  obtain ⟨_, _, _, _, this⟩ := (h.1 9 due).2 rfl (by decide) ⟨1, by decide, rfl⟩ (by decide +kernel)
  have := this 1 (by decide)
  replace h := h.2
  have := h.1 base0 rfl
  let e := packF [(0, 3, 1), (8, 24, 1), (32, 16, 1)]
  let c : SentChunk := ⟨0, [1], 0, 1⟩
  let ack : State := { linked id (fun p => { p with unacked := [c] }) 10 with
    fab := { (linked id (fun p => { p with unacked := [c] }) 10).fab with entries := [(9, e)] } }
  replace h := h.2
  have := h.1 9 e [] ack rfl (by decide) (by
    intro k
    unfold State.ctx
    have : ∀ x ∈ ack.ctxs, x.colls = [] := by decide +kernel
    rw [List.getD_eq_getElem?_getD]
    cases hk : ack.ctxs[k]? with
    | none => rfl
    | some x => exact this x (List.mem_of_getElem? hk))
  replace h := h.2
  have a := h 9 1 (linked id (fun p => { p with unacked := [c] }) 8000)
  have := a.1 (.inr (by decide))
  have := (h 9 1 (linked id (fun p => { p with unacked := [c] }) 8001)).2.1 rfl (by decide) (by decide) (by decide) (by decide)
  have := (h 9 1 (linked id (fun p => { p with detour := some 4 }) (10 ^ 6))).2.2.1 rfl ⟨0, by decide, rfl, rfl, by decide, by decide⟩
  have := (h 9 1 (linked id (fun p => { p with detour := some 4 }) 10)).2.2.2 (by decide +kernel)
  trivial

theorem wit_Departures (h : Obligations.Departures) : True := by
  obtain ⟨_, _, _, _, a, _, b⟩ := h.1 9 (linked id id 10) rfl (by decide) (by decide)
  have := a 0 (by decide) (by decide)
  have := b 1 (by decide)
  replace h := h.2
  have := h.1 8 (linked id id 10) (.inl (by decide))
  let s : State := linked id (fun p => { p with unacked := [⟨0, [1], 0, 1⟩] }) (10 ^ 7 + 1)
  replace h := h.2
  have := h 9 0 { s with fab := { s.fab with silent := [(9, 0)], present := [0, 4, 9] } } rfl (by decide) (by decide) rfl rfl (by decide)
  obtain ⟨_, _, _, _, _, this⟩ := this
  have := this 4 (by decide) (by decide) (by decide)
  trivial

/-! ### The whole block -/

theorem inv_reset (h : Obligations.ResetState) : Inv State.reset := h.1

theorem wit_StepRunsFront (h : Obligations.StepRunsFront) : True := by
  have := h.1 (.powerOn 3) [] State.reset
  replace h := h.2
  have := h.1 up rfl
  replace h := h.2
  have := h up rfl rfl rfl
  trivial

theorem wit_StepKeepsInv (h : Obligations.StepKeepsInv) (r : Obligations.ResetState) : Inv State.reset.tick :=
  h State.reset _ (inv_reset r) rfl

theorem wit_TimebaseCounter (h : Obligations.TimebaseCounter) : True := by
  have := h.1 3 up rfl rfl (by decide)
  replace h := h.2
  have := h.1 (.peakWRead) up _ (by intro x e; cases e) (by intro e; cases e) (by intro x e; cases e) (by intro x e; cases e) rfl
  replace h := h.2
  have := h.1 { up with tb := { up.tb with slew := 2, count := 2000 } } rfl (by decide) (by decide) (by decide)
  replace h := h.2
  have := h.1 up (by decide)
  replace h := h.2
  have := h.1 0 ⟨0, 0, 0, 0, 0, true, 0⟩ { up with tb := { up.tb with loaded := true } } _ rfl rfl
  replace h := h.2
  have := h up rfl rfl rfl (by decide)
  trivial

/-! ### Layout commands -/

/-- RAW descriptors of four 16-bit elements of the buffer of slot 1. -/
def rawDesc (off : Nat) : Nat := packF [(0, 32, h1), (32, 48, off), (85, 1, 1), (86, 2, 2), (89, 3, 1), (128, 40, 1), (168, 32, 4)]

/-- The same elements as one row of two dimensions. -/
def rowDesc (off : Nat) : Nat := packF [(0, 32, h1), (32, 48, off), (85, 1, 1), (86, 2, 2), (89, 3, 2), (128, 40, 1), (168, 32, 4),
  (200, 40, 4), (240, 32, 1)]

/-- An index map of one entry, at byte 32. -/
def mapDesc : Nat := packF [(0, 32, h1), (32, 48, 8), (85, 1, 1), (86, 2, 3), (89, 3, 1), (128, 40, 1), (168, 32, 1)]

/-- The command that copies the one to the other. -/
def copyCmd : Nat := packF [(12, 12, 1), (256, 32, 0x3F800000)]

/-- A command whose source map lies where `copyCmd` writes. -/
def mapCmd : Nat := packF [(0, 12, 2), (12, 12, 3), (24, 12, 4), (72, 1, 1), (256, 32, 0x3F800000)]

/-- `base0` with the descriptors, layout commands waiting, and Waystation 3 as the layout queue. -/
def laid (l : List Cmd) : State := base (fun x => { x with
  lay := ⟨0, [(0, rawDesc 0), (1, rawDesc 16), (2, rowDesc 0), (3, rowDesc 64), (4, mapDesc)], .free⟩, lanes := { x.lanes with cmds := l, layoutWs := 3 } }) seq0

/-- A command of the layout queue. -/
def cmd0 (raw : Nat) : Cmd := ⟨raw, 0, none, false, 0, false, none, false, none⟩

theorem pair_eq {α β : Type} {p : α × β} {v : β} (h : p.2 = v) : p = (p.1, v) := by cases p; cases h; rfl

theorem wit_LayoutCommands (h : Obligations.LayoutCommands) : True := by
  let s := ask (laid []) 0x0340 [.r 320] [copyCmd]
  have ha : bits copyCmd 80 4 = 0 := by decide +kernel
  have := h.1 0 copyCmd _ s (takes_ask up_runs rfl) (by unfold Spells; decide +kernel) (by rw [ha]; exact admits_st rfl rfl ⟨rfl, rfl⟩ rfl)
    (by decide +kernel) (by decide +kernel) (by decide +kernel) (by decide +kernel)
  have := this (by decide +kernel) (by decide +kernel) (by decide +kernel)
  trivial

theorem wit_LayoutMaps (h : Obligations.LayoutCommands) : True := by
  replace h := h.2
  have := h.1 0 mapCmd _ (ask (laid [cmd0 copyCmd]) 0x0340 [.r 320] [mapCmd]) (takes_ask up_runs rfl) (by unfold Spells; decide +kernel)
    (by rw [show bits mapCmd 80 4 = 0 by decide +kernel]; exact admits_st rfl rfl ⟨rfl, rfl⟩ rfl) (by decide +kernel)
    ⟨cmd0 copyCmd, by decide +kernel, by decide +kernel⟩ (by decide +kernel)
  trivial

theorem wit_LayoutFull (h : Obligations.LayoutCommands) : True := by
  have ha : bits copyCmd 80 4 = 0 := by decide +kernel
  replace h := h.2
  let f := ask { laid [] with ws := [(3, { Ws.fresh with st := 1, width := 2, words := List.replicate 128 (0, false) })] } 0x0340 [.r 320] [copyCmd]
  replace h := h.2
  have := h.1 0 copyCmd _ f (takes_ask up_runs rfl) (by unfold Spells; decide +kernel) (by rw [ha]; exact admits_st rfl rfl ⟨rfl, rfl⟩ rfl)
    (by decide +kernel) (by decide +kernel) (by decide +kernel) (by decide +kernel)
  have := this (by decide +kernel) (by decide +kernel) (by decide +kernel)
  trivial

theorem wit_LayoutStarts (h : Obligations.LayoutCommands) : True := by
  replace h := h.2.2
  let k : Cmd := cmd0 copyCmd
  replace h := h.2
  obtain ⟨_, _, _, _, _, _, _, _, _, _, f, _⟩ := h.1 0 k [] (laid [k]) rfl rfl rfl (by decide) (by decide +kernel) (by decide +kernel)
  have := (f (by decide +kernel)).2 (by decide +kernel)
  let e : Cmd := cmd0 (setBits copyCmd 12 12 9)
  obtain ⟨_, _, _, _, _, _, _, _, _, _, _, f⟩ := h.1 0 e [] (laid [e]) rfl rfl rfl (by decide) (by decide +kernel) (by decide +kernel)
  have := f .format (by decide +kernel)
  trivial

/-- A command of an undefined source, for a message that waits. -/
def asks0 : Cmd := { cmd0 (setBits copyCmd 12 12 9) with answer := true }

/-- That message. -/
def msg0 : Msg := { asked 0x0340 [.r 320] [asks0.raw] with phase := .layoutWait }

/-- `laid` with both. -/
def asking0 : State := { laid [asks0] with
  host := { up.host with msgs := [msg0] }
  ws := [(3, { Ws.fresh with st := 1, width := 2, words := [(7, false)], writePtr := 1, headN := 1 })] }

theorem wit_LayoutAnswers (h : Obligations.LayoutCommands) : True := by
  replace h := h.2.2.2.2
  have f := h.1 0 asks0 [] 7 (asking0.wsPop (asking0.ctx 0).lanes.layoutWs).1 .format msg0 asking0 rfl rfl rfl (by decide +kernel) (by decide)
    (by decide) (by decide +kernel)
  have := f (by decide +kernel) (pair_eq (by decide +kernel))
  let k : Cmd := cmd0 copyCmd
  replace h := h.2
  have := h.1 0 k [] { laid [k] with flt := { up.flt with dev := .stoppedC4 } } rfl rfl (by decide +kernel)
  replace h := h.2
  have := h.1 0 0 k none (laid [k]) rfl rfl
  let r : Cmd := { k with running := true }
  replace h := h.2
  have f := h.1 0 0 4 r (laid [r]) rfl rfl rfl rfl rfl (by decide +kernel) (by decide +kernel) (by decide +kernel)
  have f := f (by decide +kernel) (by decide +kernel) (by decide +kernel) (by decide +kernel) (by decide +kernel)
  obtain ⟨_, _, _, a, b, _⟩ := f (by decide) (by decide +kernel) (by decide +kernel) (by decide +kernel) (by decide +kernel) (by decide +kernel)
    (by decide +kernel)
  have := a 3 (by decide)
  have := b 0 (.inl (by decide +kernel))
  replace h := h.2
  obtain ⟨_, _, _, _, _, e⟩ := h 0 0 3 { r with bad := some 3 } none (laid [{ r with bad := some 3 }]) rfl rfl rfl
  have := e (by decide +kernel)
  trivial

theorem wit_MessageCompletion (h : Obligations.MessageCompletion) : True := by
  have := h.1 0x0510 (by decide)
  let m := asked 0x0101 [.u8] [0]
  let s := ask base0 0x0101 [.u8] [0]
  replace h := h.2
  have := h.1 0 m [] [] (fun _ u => .no u .ok) s rfl rfl (fun x e => by cases e) rfl
  have := this.2 0 0x0100 rfl (by decide)
  replace h := h.2
  obtain ⟨_, _, _, _, _, _, _, _, _, _, _, _, _, _, _, _, this, _⟩ := h.1 m 1 .bounds [] s (by decide) (by decide) (by decide)
  have := this 1 (by decide)
  replace h := h.2
  have := h.1 0 0x0101 m (fun _ u => .no u .ok) { s with fws := [] } rfl (by decide)
  replace h := h.2
  have := (h.1 m 16 s).1 (by decide)
  have := (h.1 m 1 s).2.1 (by decide) (by decide)
  have := (h.1 { m with sess := 2 } 0 s).2.2.1 (by decide) (by decide) (by decide +kernel)
  have a : s.owns 1 0 = true := (admits_st (s := base0) (op := 0x0101) (fs := [.u8]) (a := [0]) rfl rfl ⟨rfl, rfl⟩ rfl).owned
  let t : State := { s with ctxs := updAt s.ctxs 0 (fun x => { x with st := .teardown }) }
  have := (h.1 m 0 t).2.2.2.1 (by decide) rfl a
  let g : State := { s with parts := updAt s.parts 0 (fun p => { p with halted := true }) }
  have := (h.1 m 0 g).2.2.2.2 (by decide) rfl (by decide +kernel) rfl
  have ad {op : Nat} {fs : List Fld} {a : List Nat} : Admits (ask base0 op fs a) (asked op fs a) 0 := admits_st rfl rfl ⟨rfl, rfl⟩ rfl
  replace h := h.2
  have := h.1 0 0 _ (ask base0 0x0600 [.u8] [0]) (takes_ask up_runs rfl) rfl ad
  replace h := h.2
  have := h.1 0 0 0 _ _ (ask base0 0x0610 [.u8, .u8] [0, 0]) (takes_ask up_runs rfl) rfl ad (by decide) (spill_fits (by decide +kernel))
  replace h := h.2
  have := h 0 0 _ (ask base0 0x0611 [.u8] [0]) (takes_ask up_runs rfl) rfl ad
  trivial

/-! ### The spec's worked examples -/

/-- Table 2-3: six elements of a block to MXFP4. -/
theorem test_mxfp4_block :
    Num.mxBlock 0x08 ([0x4150, 0x40A0, 0xC02D, 0x3F40, 0x3E9A, 0x8000].map (fun v => Num.v16 (BitVec.ofNat 16 v))) =
      (0x80, [0x7, 0x4, 0xB, 0x1, 0x0, 0x8]) := by decide +kernel

/-- R31: values past the largest magnitude saturate, in E4M3 (0x7E, 448). -/
theorem test_saturates : Num.elemEnc 0x04 0 (Num.v16 0xC7C8#16) = 0xFE := by decide +kernel

/-- Table 4-3: three picks, then the null expert ends the selection. -/
theorem test_selection :
    pickLoop [9830, 6554, 4915, 3277] (packF [(0, 16, 3), (16, 5, 2), (21, 5, 8), (27, 1, 1), (28, 1, 1), (32, 16, 0x6000)]) 32761 3
      [0, 1, 2, 3] 0 0 = ([0, 1, 2, 3], true, false) := by decide +kernel

/-- Chapter 4's worked example: the three weights. -/
theorem test_weights :
    [9830, 6554, 4915].map (fun q => weightOf true 0x3F80 q 24576 24576) = [0x3ECD#16, 0x3E89#16, 0x3E4D#16] := by decide +kernel

/-- Table 10-5, row 2: each addition is a tie to even. -/
theorem test_tie_to_even : Num.fadd (Num.fadd (Num.fadd 0#32 0x3F800000#32) 0x33800000#32) 0x33800000#32 = 0x3F800000#32 := by
  decide +kernel

/-- Chapter 9's worked example: the exact variance is negative. -/
theorem test_negative_variance :
    Num.ffma 0xC4800080#32 0x44800080#32 0x49800100#32 = 0xB9800000#32 := by decide +kernel

/-- Table 17-12: the bytes of a feed. -/
def feedBytes : List Byte := toLE 8 0x0007001000000101 ++ toLE 8 0x0000020300002A17 ++ List.replicate 16 0 ++
  toLE 8 0x0000123400000002 ++ toLE 8 0x0000028042000041

theorem test_feed_header : Header.read feedBytes = ⟨0x0101, 0, 16, 0, 7, 0x2A17, 3, 2, false, false, 0, 0, 0, 0, 0⟩ := by decide +kernel

theorem test_feed_fields : readRequest [.u8, .u32, .u32, .u32] (feedBytes.drop 32) = some [2, 0x1234, 0x42000041, 640] := by
  decide +kernel

/-- R83: CRC-32C of "123456789", the published check value of the polynomial that the rule names. -/
theorem test_crc32c : Num.crc32c [0x31, 0x32, 0x33, 0x34, 0x35, 0x36, 0x37, 0x38, 0x39] = 0xE3069283 := by decide +kernel

/-- An empty queue is a tick. -/
theorem test_idle_step : step State.reset = .next State.reset.tick := rfl

/-! ### Ill-formed commands, one per check -/

/-- Commands each of which one check refuses. -/
def illFormed : List Instr :=
  [.powerOn 128, .recoveryLenWrite (2 ^ 32), .ucieTrainComplete 4 0 0, .ucieTrainComplete 0 17 0, .hbmTrainComplete 2 true,
   .cxlTrainComplete 2 true 0, .portTrainComplete 128 0 true 0, .portTrainComplete 0 16 true 0, .portTrainComplete 0 0 true 128,
   .portSignalDetect 128, .mailboxSubmit 256 true, .irqPendClear 8, .mctpPacket 2 0 0 0 true true [], .mctpPacket 0 256 0 0 true true [],
   .mctpPacket 0 0 0 4 true true [], .mctpPacket 0 0 0 0 true true (List.replicate 65 0), .mctpReassemblyTimeout 2,
   .mctpSetEndpointId 2 0, .mctpSetEndpointId 0 256, .i3cEntdaa 128, .spdmGetVersion 3, .spdmGetCapabilities 3 0,
   .spdmGetCapabilities 0 256, .pmpSessionOpen 258, .stepBoundary 16, .planPublish 16 0, .planPublish 0 512, .manifestRead 4 0,
   .manifestRead 0 16, .hiddenRowReceive 4 0 0 0 true 0 [], .hiddenRowReceive 0 16 0 0 true 0 [], .hiddenRowReceive 0 0 65536 0 true 0 [],
   .hiddenRowReceive 0 0 0 512 true 0 [], .hiddenRowReceive 0 0 0 0 true (2 ^ 18) [], .tokenSelect 16 0 true 0, .tokenSelect 0 512 true 0,
   .tokenSelect 0 0 true (2 ^ 18), .finalSeal 16 0 true 0 0, .finalSeal 0 512 true 0 0, .finalSeal 0 0 true 128 0, .noteReceive 128 0 []]

theorem test_ill_formed : illFormed.all (fun i => !i.wellFormed) = true := by decide +kernel

/-- More of them. -/
def illFormed2 : List Instr :=
  [.batchWindowExpiry 16 0 0 0, .batchWindowExpiry 0 512 0 0, .batchWindowExpiry 0 0 65536 0, .batchWindowExpiry 0 0 0 16,
   .answerFromDie 4 true 0 none [], .retireNoticeReceive 128 0 0, .retireNoticeReceive 0 16 0, .retireNoticeReceive 0 0 65536,
   .landingBufferFree 16 0 0 true, .landingBufferFree 0 65536 0 true, .landingBufferFree 0 0 512 true, .logitRowReceive 16 0 0 [],
   .logitRowReceive 0 (2 ^ 18) 0 [], .generationRelease 16 0, .generationRelease 0 3, .fetchRequest 0 0 0 0 1 4, .fetchRequest 0 0 0 16 1 0,
   .guideHeatReport 128 0 0 [], .guideHeatReport 0 16 0 [], .guideReplicaEntry 0 0 0 0 128 0 0 true, .guideReplicaEntry 0 0 0 0 0 4 0 true,
   .guideRemovalAck 128 0 0 0 0, .guideExpertUeReport 0 512 0, .ucieLinkDown 4, .lotRequest 128 0 0 0, .lotRequest 0 128 0 0, .lotRequest 0 0 16 0,
   .lotRecall 128 0 0, .memReadDataReceive (.lane 0 0 0 64) [] true, .memReadDataReceive (.die 4 0) [] true,
   .memAtomicDataReceive 0 0 0 64 0, .tallyArrival 65536 0 0 none, .tallyArrival 0 128 0 none, .tallyDeadline 65536, .khanAlloc 0 16 0 0 0,
   .khanAlloc 0 0 3 0 0, .khanAlloc 0 0 0 4 0, .khanFree 0 6 0, .khanRefill 0 0 8, .wsMiddleMove 4096 true none, .iadd 16 0 0, .iadd 0 (2 ^ 32) 0,
   .arrayUeEvent 16 0 0 none 0, .arrayUeEvent 0 512 0 none 0, .coreRetireTimeout 520, .chunkClose 128 0, .chunkClose 0 5, .chunkReceive 128 0,
   .transportAckSend 128, .slicePass 8, .paceSample [], .powerSample 0 [], .watchdogExpiry 6]

theorem test_ill_formed2 : illFormed2.all (fun i => !i.wellFormed) = true := by decide +kernel

/-- Commands at the upper bounds of their operands. -/
theorem test_well_formed : ([.powerOn 127, .mailboxSubmit 255 true, .pmpSeqFeed 257, .stepBoundary 15, .iadd 15 0 0, .flitSlot 127,
    .chunkReceive 127 4, .fetchStart 15 511 65535 15] : List Instr).all Instr.wellFormed = true := by decide +kernel

end Sys2Proof.Tests
end

section
/-! PROOFS. Number formats (chapter 2): NaN absorbs, the operations commute, where rounding stops, and the sum of a value
and its negation. -/

namespace Sys2Proof.Num

/-! ### Exact values -/

theorem Val.isNan_iff {v : Val} : v.isNan = true ↔ v = .nan := by
  cases v <;> simp [Val.isNan]

@[simp] theorem Val.nan_add (v : Val) : Val.nan.add v = .nan := by
  cases v <;> rfl

@[simp] theorem Val.add_nan (v : Val) : v.add .nan = .nan := by
  cases v <;> rfl

@[simp] theorem Val.nan_mul (v : Val) : Val.nan.mul v = .nan := by
  cases v <;> rfl

@[simp] theorem Val.mul_nan (v : Val) : v.mul .nan = .nan := by
  cases v <;> rfl

@[simp] theorem divV_nan_left (f : Fmt) (v : Val) : divV f .nan v = f.cnan := by
  cases v <;> rfl

@[simp] theorem divV_nan_right (f : Fmt) (v : Val) : divV f v .nan = f.cnan := by
  cases v <;> rfl

/-- The sum of two finite values, whose sign and zero test read the aligned integer sum alone. -/
theorem Val.fin_add_fin_comm (a b : Bool) (m n : Nat) (e g : Int) :
    (Val.fin a m e).add (.fin b n g) = (Val.fin b n g).add (.fin a m e) := by
  have hzero : (b && a && n == 0 && m == 0) = (a && b && m == 0 && n == 0) := by
    cases a <;> cases b <;> simp [Bool.and_comm]
  simp only [Val.add]
  rw [min_comm g e, Int.add_comm (sInt b n g (min e g)), hzero]

theorem Val.add_comm (u v : Val) : u.add v = v.add u := by
  cases u with
  | nan => simp
  | inf a =>
    cases v with
    | nan => simp
    | inf b => cases a <;> cases b <;> rfl
    | fin b n g => rfl
  | fin a m e =>
    cases v with
    | nan => simp
    | inf b => rfl
    | fin b n g => exact Val.fin_add_fin_comm a b m n e g

theorem Val.mul_comm (u v : Val) : u.mul v = v.mul u := by
  cases u with
  | nan => simp
  | inf a =>
    cases v with
    | nan => simp
    | inf b => simp [Val.mul, Bool.xor_comm]
    | fin b n g => simp [Val.mul, Bool.xor_comm]
  | fin a m e =>
    cases v with
    | nan => simp
    | inf b => simp [Val.mul, Bool.xor_comm]
    | fin b n g => simp [Val.mul, Bool.xor_comm, Nat.mul_comm, Int.add_comm]

/-- The order is antisymmetric. -/
theorem Val.cmp_swap (u v : Val) : v.cmp u = -u.cmp v := by
  cases u with
  | nan =>
    cases v with
    | inf b => cases b <;> rfl
    | _ => rfl
  | inf a =>
    cases v with
    | inf b => cases a <;> cases b <;> rfl
    | _ => cases a <;> rfl
  | fin a m e =>
    cases v with
    | nan => rfl
    | inf b => cases b <;> rfl
    | fin b n g =>
      simp only [Val.cmp, min_comm g e]
      split_ifs <;> omega

/-- R28: the exact sum of a finite value and its negation is +0. -/
theorem Val.fin_add_neg (s : Bool) (m : Nat) (e : Int) :
    (Val.fin s m e).add (Val.fin s m e).neg = .fin false 0 0 := by
  cases s <;> simp [Val.add, Val.neg, sInt]

/-! ### Patterns -/

/-- Toggling the sign bit of a pattern negates its value. -/
theorem dec_xor_sign (f : Fmt) (b : Nat) : dec f (b ^^^ 2 ^ f.mag) = (dec f b).neg := by
  have hmag : (b ^^^ 2 ^ f.mag) % 2 ^ f.mag = b % 2 ^ f.mag := by
    simp [Nat.xor_mod_two_pow]
  have hsign : decide ((b ^^^ 2 ^ f.mag) / 2 ^ f.mag % 2 = 1) = !decide (b / 2 ^ f.mag % 2 = 1) := by
    have hdiv : (b ^^^ 2 ^ f.mag) / 2 ^ f.mag % 2 = (b / 2 ^ f.mag + 1) % 2 := by
      rw [Nat.xor_div_two_pow, Nat.div_self (Nat.two_pow_pos _), Nat.xor_mod_two_eq]
    rw [hdiv, ← decide_not]
    exact decide_eq_decide.mpr (by omega)
  simp only [dec, hmag, hsign]
  split_ifs <;> rfl

theorem v32_xor_sign (x : BitVec 32) : v32 (x ^^^ 0x80000000#32) = (v32 x).neg := by
  have h : (x ^^^ 0x80000000#32).toNat = x.toNat ^^^ 2 ^ fp32.mag := BitVec.toNat_xor x _
  rw [v32, h, dec_xor_sign, v32]

/-- R31: a rounded magnitude stops at the largest finite one, or at infinity where the format has it. -/
theorem roundMag_le (f : Fmt) (a b : Nat) : roundMag f a b ≤ f.maxFin + f.hasInf.toNat := by
  unfold roundMag
  split
  · exact Nat.zero_le _
  · dsimp only
    split
    · cases f.hasInf <;> simp
    · omega

/-! ### FP32 operations -/

@[simp] theorem to32_nan : to32 .nan = nan32 := rfl

theorem fadd_comm (x y : BitVec 32) : fadd x y = fadd y x :=
  congrArg to32 (Val.add_comm _ _)

theorem fmul_comm (x y : BitVec 32) : fmul x y = fmul y x :=
  congrArg to32 (Val.mul_comm _ _)

/-- The maximum of two patterns, by the sign of their order. -/
theorem fmax_eq (x y : BitVec 32) :
    fmax x y =
      if (v32 x).isNan || (v32 y).isNan then nan32
      else if (v32 x).cmp (v32 y) = 0 then (if x = y then x else 0#32)
      else if 0 < (v32 x).cmp (v32 y) then x else y := by
  unfold fmax
  cases h : (v32 x).cmp (v32 y) with
  | ofNat n =>
    cases n with
    | zero => rfl
    | succ k =>
      have hpos : 0 < Int.ofNat (k + 1) := Int.natCast_succ_pos k
      rw [if_neg hpos.ne', if_pos hpos]
      rfl
  | negSucc k => rfl

theorem fmax_comm (x y : BitVec 32) : fmax x y = fmax y x := by
  by_cases hxy : x = y
  · rw [hxy]
  · rw [fmax_eq, fmax_eq, Val.cmp_swap (v32 x) (v32 y), Bool.or_comm, if_neg hxy, if_neg (Ne.symm hxy)]
    rcases lt_trichotomy ((v32 x).cmp (v32 y)) 0 with h | h | h
    · simp [h, h.ne, h.not_gt]
    · simp [h]
    · simp [h, h.ne', h.not_gt]

/-- R29: an operation on a NaN gives the canonical NaN. -/
theorem ops_nan {x y : BitVec 32} (h : (v32 x).isNan = true ∨ (v32 y).isNan = true) :
    fadd x y = nan32 ∧ fmul x y = nan32 ∧ fmax x y = nan32 ∧ fdiv x y = nan32 := by
  have hmax : fmax x y = nan32 := by
    rw [fmax_eq, if_pos (by simpa using h)]
  rw [Val.isNan_iff, Val.isNan_iff] at h
  refine ⟨?_, ?_, hmax, ?_⟩
  · rcases h with h | h <;> simp [fadd, h]
  · rcases h with h | h <;> simp [fmul, h]
  · rcases h with h | h <;> simp [fdiv, h, nan32, fp32]

/-- R28: a finite value plus its negation is +0. -/
theorem fadd_xor_sign {x : BitVec 32} (h : (v32 x).isFin = true) : fadd x (x ^^^ 0x80000000#32) = 0#32 := by
  rw [fadd, v32_xor_sign]
  cases hv : v32 x with
  | nan => simp [hv, Val.isFin] at h
  | inf s => simp [hv, Val.isFin] at h
  | fin s m e => rw [Val.fin_add_neg]; rfl

/-- R38: a value converted to Q1.15 saturates. -/
theorem toQ115_mem (x : BitVec 32) : -32768 ≤ toQ115 x ∧ toQ115 x ≤ 32767 := by
  unfold toQ115
  cases v32 x with
  | nan => decide
  | inf neg => cases neg <;> decide
  | fin neg m e =>
    dsimp only
    split <;> omega

/-- R32: a block scale of 0xFF makes NaN. -/
theorem mxScaled_nan (v : Val) : mxScaled 0xFF v = .nan := if_pos rfl

/-- Settles O33 from the rules above: the bounds on rounding are `roundMag_le` without and with an infinity, and a value
that is neither NaN nor infinite is finite. -/
theorem numberRules : Obligations.NumberRules := by
  refine ⟨mxScaled_nan, fun x y => ops_nan, fun x y => ⟨fadd_comm x y, fmul_comm x y, fmax_comm x y⟩, toQ115_mem,
    fun f a b h => ?_, fun neg a b => ⟨roundMag_le fp32 a b, ?_⟩, fun x hnan hneg hpos => fadd_xor_sign ?_⟩
  · simpa [h] using roundMag_le f a b
  · cases neg <;> rfl
  · cases hv : v32 x with
    | nan => simp [hv, Val.isNan] at hnan
    | inf s => cases s <;> contradiction
    | fin s m e => rfl

end Sys2Proof.Num
end

section
/-! PROOFS. The gate, the predictor and the Selector (04 R74 to R79, R84 to R86, R91 to R94): what each of the three commands
leaves in the layer it works for, and the order of a token's picks. -/

namespace Sys2Proof

/-! ### Sorting and tables -/

/-- The model's sort is the library's. -/
theorem sortBy_eq_insertionSort {α : Type} (le : α → α → Bool) (l : List α) :
    sortBy le l = l.insertionSort (fun a b => le a b = true) := by
  have hins (x : α) (r : List α) : insertBy le x r = r.orderedInsert (fun a b => le a b = true) x := by
    induction r with
    | nil => rfl
    | cons y r ih => rw [insertBy, ih, List.orderedInsert_cons]
  induction l with
  | nil => rfl
  | cons x r ih => rw [sortBy, ih, hins, List.insertionSort_cons]

theorem sortBy_perm {α : Type} (le : α → α → Bool) (l : List α) : (sortBy le l).Perm l := by
  rw [sortBy_eq_insertionSort]
  exact List.perm_insertionSort _ l

/-- What a list is sorted by stands in order, where the test compares all elements transitively. -/
theorem sortBy_pairwise {α : Type} (le : α → α → Bool) (htotal : ∀ a b, le a b = true ∨ le b a = true)
    (htrans : ∀ a b c, le a b = true → le b c = true → le a c = true) (l : List α) :
    (sortBy le l).Pairwise (fun a b => le a b = true) := by
  rw [sortBy_eq_insertionSort]
  have : Std.Total (fun a b => le a b = true) := ⟨htotal⟩
  have : IsTrans α (fun a b => le a b = true) := ⟨htrans⟩
  exact List.pairwise_insertionSort _ l

/-- Reading a table filled from a function of the key. -/
theorem Tbl.find_foldl_put {α : Type} (f : Nat → α) (l : List Nat) (t : Tbl α) (n : Nat) :
    (l.foldl (fun t i => t.put i (f i)) t).find n = if n ∈ l then some (f n) else t.find n := by
  induction l generalizing t with
  | nil => simp
  | cons i l ih =>
    rw [List.foldl_cons, ih]
    by_cases hi : i = n
    · simp [hi]
    · simp [Tbl.find_put_other _ _ _ _ hi, Ne.symm hi]

namespace Machine

/-! ### What later acts leave of a layer's gate and selection -/

/-- What the gate, the predictor and the Selector keep of a layer for themselves. -/
structure GateRecord where
  gated    : Bool
  scores   : Tbl (List Nat × List Nat × Bool)
  predRun  : Bool
  predDone : Bool
  selected : List Nat
  raw      : List Bill

/-- The gate record of a layer. -/
def Layer.gateRecord (y : Layer) : GateRecord :=
  ⟨y.gated, y.scores, y.predRun, y.predDone, y.selected, y.raw⟩

/-- From `s` to `t`, memory, the sequences and the gate record of one convoy layer stay. -/
structure State.KeepsGate (s : State) (c k : Nat) (t : State) : Prop where
  mem    : t.mem = s.mem
  seqs   : t.seqs = s.seqs
  record : ((t.ctx c).layer k).gateRecord = ((s.ctx c).layer k).gateRecord

namespace State.KeepsGate

variable {s t u : State} {c k : Nat}

theorem refl (s : State) (c k : Nat) : s.KeepsGate c k s := ⟨rfl, rfl, rfl⟩

theorem trans (h : s.KeepsGate c k t) (h' : t.KeepsGate c k u) : s.KeepsGate c k u :=
  ⟨h'.mem.trans h.mem, h'.seqs.trans h.seqs, h'.record.trans h.record⟩

theorem foldl {α : Type} {f : State → α → State} (hf : ∀ (t : State) a, t.KeepsGate c k (f t a)) (l : List α) (s : State) :
    s.KeepsGate c k (l.foldl f s) := by
  induction l generalizing s with
  | nil => exact refl s c k
  | cons a l ih => exact (hf s a).trans (ih (f s a))

/-- A change of a context that leaves the record of the layer. -/
theorem onCtx (h : s.KeepsGate c k t) (d : Nat) {f : Ctx → Ctx}
    (hf : ∀ x, ((f x).layer k).gateRecord = (x.layer k).gateRecord) : s.KeepsGate c k (t.onCtx d f) := by
  refine h.trans ⟨rfl, rfl, ?_⟩
  simp only [State.ctx, State.onCtx, updAt_getD]
  split
  · next hd => rw [hf, hd.1]
  · rfl

theorem onLayer (h : s.KeepsGate c k t) (d j : Nat) {f : Layer → Layer}
    (hf : j = k → ∀ y, (f y).gateRecord = y.gateRecord) : s.KeepsGate c k (t.onLayer d j f) := by
  refine h.onCtx d fun x => ?_
  by_cases hj : j = k
  · simp [Ctx.layer, hj, hf hj]
  · simp [Ctx.layer, Tbl.getD_put_other _ _ _ _ _ hj]

theorem bumpCtx (h : s.KeepsGate c k t) (d : Nat) (a : Ctr) (n : Nat) : s.KeepsGate c k (t.bumpCtx d a n) :=
  h.onCtx d fun _ => rfl

theorem freed (h : s.KeepsGate c k t) : s.KeepsGate c k t.freed := ⟨h.mem, h.seqs, h.record⟩

theorem onResid (h : s.KeepsGate c k t) (d : Nat) (f : Resid → Resid) : s.KeepsGate c k (t.onResid d f) :=
  h.onCtx d fun _ => rfl

theorem ownStrings (h : s.KeepsGate c k t) (d : Nat) (mma sfn : Bool) : s.KeepsGate c k (t.ownStrings d mma sfn) :=
  ((((h.bumpCtx d ..).bumpCtx d ..).bumpCtx d ..).bumpCtx d ..).freed

theorem ownKilled (h : s.KeepsGate c k t) (d : Nat) : s.KeepsGate c k (t.ownKilled d) :=
  (h.bumpCtx d ..).freed

theorem sendOpen (h : s.KeepsGate c k t) (dst type d : Nat) (fields : List Nat) (data : List Byte) :
    s.KeepsGate c k (t.sendOpen dst type d fields data) := by
  refine h.trans ?_
  unfold State.sendOpen State.sendMsg
  dsimp only
  split
  · exact ⟨rfl, rfl, rfl⟩
  · exact ⟨rfl, rfl, rfl⟩

theorem setSlotGen (h : s.KeepsGate c k t) (d slot g : Nat) : s.KeepsGate c k (t.setSlotGen d slot g) := by
  refine h.onCtx d fun x => ?_
  simp only [Ctx.layer]
  induction x.layers with
  | nil => rfl
  | cons e r ih =>
    obtain ⟨j, y⟩ := e
    by_cases hj : j = k
    · simp [Tbl.mapV, Tbl.getD, hj, Layer.gateRecord]
    · simpa [Tbl.mapV, Tbl.getD, hj] using ih

theorem raiseOnce (h : s.KeepsGate c k t) (d which source kind dtype detail : Nat) :
    s.KeepsGate c k (t.raiseOnce d which source kind dtype detail) := by
  unfold State.raiseOnce
  split
  · exact h
  · split
    · exact h
    · exact (h.trans (u := t.raise source kind 0 d dtype detail) ⟨rfl, rfl, rfl⟩).onCtx d fun _ => rfl

theorem writeHist (h : s.KeepsGate c k t) (d j : Nat) (b : Bool) : s.KeepsGate c k (t.writeHist d j b) := by
  unfold State.writeHist
  split
  · exact h.onCtx d fun _ => rfl
  · exact h

theorem holdSet (h : s.KeepsGate c k t) (d j : Nat) (b : Bool) : s.KeepsGate c k (t.holdSet d j b) := by
  unfold State.holdSet
  dsimp only
  split_ifs
  · exact h
  · exact h
  · exact h.onLayer d j fun _ _ => rfl
  · refine (h.onLayer d j ?_).bumpCtx d ..
    exact fun _ _ => rfl
  · exact h

theorem fetchRequest (h : s.KeepsGate c k t) (d l e i prio die : Nat) :
    s.KeepsGate c k (t.fetchRequest d l e i prio die) := by
  unfold State.fetchRequest
  dsimp only
  split
  · split
    · exact h.bumpCtx ..
    · exact h
  · split
    · exact h
    · split_ifs
      · exact h.onResid ..
      · exact h.bumpCtx ..
      · exact h.onResid ..

theorem offer (h : s.KeepsGate c k t) (d l e : Nat) : s.KeepsGate c k (t.offer d l e) := by
  unfold State.offer
  dsimp only
  split
  · exact h
  · split_ifs
    · exact h.fetchRequest ..
    · exact h
    · exact h.freed.sendOpen ..
    · exact h.freed

theorem reserveSoft (h : s.KeepsGate c k t) (d l : Nat) (b : Bool) : s.KeepsGate c k (t.reserveSoft d l b) := by
  unfold State.reserveSoft
  dsimp only
  split
  · exact h
  · exact h.freed.onLayer d _ fun _ _ => rfl

/-- What a layer holds where a change of it is followed by acts that keep its record. -/
theorem record_of_onLayer {f : Layer → Layer} (h : (s.onLayer c k f).KeepsGate c k t) (hc : c < s.ctxs.length) :
    ((t.ctx c).layer k).gateRecord = (f ((s.ctx c).layer k)).gateRecord := by
  rw [h.record, State.onLayer, State.ctx_onCtx _ _ _ _ hc]
  simp [Ctx.layer]

end State.KeepsGate

/-! ### The gate -/

theorem Ctx.man_of_some {x : Ctx} {m : Manifest} (h : x.steps.man = some m) : x.man = m := by
  simp [Ctx.man, h]

theorem Ctx.mem_slotList {x : Ctx} {m : Manifest} (h : x.steps.man = some m) (b : Bool) (n : Nat) :
    n ∈ x.slotList b ↔ (m.slots b).1 ≤ n ∧ n < (m.slots b).2 := by
  simp only [Ctx.slotList, Ctx.man_of_some h, List.mem_map, List.mem_range]
  constructor
  · rintro ⟨a, ha, rfl⟩
    omega
  · rintro ⟨hlo, hhi⟩
    exact ⟨n - (m.slots b).1, by omega, by omega⟩

/-- Scores that the gate gives the slots of a convoy that were not cancelled (R74, R75). -/
def State.gateScores (s : State) (c l : Nat) (b : Bool) : Tbl (List Nat × List Nat × Bool) :=
  (((s.ctx c).slotList b).filter (fun n => !(s.ctx c).gone n)).foldl (fun t n =>
    t.put n (s.gateRow (s.ctx c).sfnRev ((s.ctx c).boundRoute.layer l) (s.ctx c).share.dModel
      (((((s.ctx c).layer (layKey l b)).hidden.find n).map (·.2)).getD []))) []

/-- R74, R92: a gate that starts scores its layer; the predictor that it abandons is another layer's. -/
theorem gateLaunch_scores {c l : Nat} {b : Bool} {m : Manifest} {md : Model} {s : State}
    (hman : (s.ctx c).steps.man = some m) (hmd : (s.ctx c).model = some md) (hl : l < md.moe)
    (hgated : ((s.ctx c).layer (layKey l b)).gated = false) (hne : (m.slots b).1 < (m.slots b).2)
    (hrows : ∀ n ∈ (s.ctx c).slotList b, (((s.ctx c).layer (layKey l b)).hidden.find n).isSome = true) :
    (s.onLayer c (layKey l b) (fun y => { y with gated := true, scores := s.gateScores c l b })).KeepsGate c (layKey l b)
      (gateLaunch c l b s) := by
  have hslots : ((s.ctx c).slotList b).isEmpty = false :=
    List.isEmpty_eq_false_iff_exists_mem.mpr ⟨_, (Ctx.mem_slotList hman b _).mpr ⟨le_rfl, hne⟩⟩
  have hall : ((s.ctx c).slotList b).all (fun n => (((s.ctx c).layer (layKey l b)).hidden.find n).isSome) = true :=
    List.all_eq_true.mpr hrows
  unfold gateLaunch
  dsimp only
  rw [if_neg (by simp [hman, hslots, hgated, hmd, hl, hall])]
  split
  · next hbefore =>
    have hother : layKey (l - 1) b ≠ layKey l b := by
      have := hbefore.1
      unfold layKey
      omega
    exact ((((State.KeepsGate.refl ..).ownStrings ..).onLayer c _ fun h => absurd h hother).bumpCtx ..).ownKilled ..
  · exact (State.KeepsGate.refl ..).ownStrings ..

theorem gateLaunch_waits {c l n : Nat} {b : Bool} {s : State} (hn : n ∈ (s.ctx c).slotList b)
    (hrow : ((s.ctx c).layer (layKey l b)).hidden.find n = none) : gateLaunch c l b s = s := by
  have hall : ((s.ctx c).slotList b).all (fun n => (((s.ctx c).layer (layKey l b)).hidden.find n).isSome) = false :=
    List.all_eq_false.mpr ⟨n, hn, by simp [hrow]⟩
  unfold gateLaunch
  dsimp only
  rw [hall]
  simp

/-! ### The predictor -/

theorem predictorLaunch_runs {c l : Nat} {b : Bool} {s : State} (hman : (s.ctx c).steps.man.isNone = false)
    (hgated : ((s.ctx c).layer (layKey l b)).gated = true) (hrun : ((s.ctx c).layer (layKey l b)).predRun = false)
    (hdone : ((s.ctx c).layer (layKey l b)).predDone = false)
    (hnext : ((s.ctx c).layer (layKey (l + 1) b)).gated = false)
    (hdepth : cfgDepth ((s.ctx c).boundRoute.layer l).cfg ≠ 0) :
    predictorLaunch c l b s =
      (s.onLayer c (layKey l b) (fun y => { y with predRun := true })).ownStrings c true false := by
  unfold predictorLaunch
  dsimp only
  rw [if_neg (by simp [hman, hgated, hrun, hdone, hnext, hdepth])]

/-- Strings without a special-function pass count none. -/
theorem State.ownStrings_noSfn (s : State) (c : Nat) (mma : Bool) : ∃ n1 n2 n3, s.ownStrings c mma false =
    ((((s.bumpCtx c .stringsRun n1).bumpCtx c .placeWaits n2).bumpCtx c .mmaSteps n3).bumpCtx c .sfnPasses 0).freed := by
  unfold State.ownStrings
  simp only [b2n, Bool.false_eq_true, if_false, Nat.zero_mul]
  exact ⟨_, _, _, rfl⟩

/-- R91, R93: a predictor that ends marks its layer; its counts, offers and soft reservations leave the mark. -/
theorem predictorComplete_done {c l : Nat} {b : Bool} {s : State} (hc : c < s.ctxs.length)
    (hman : (s.ctx c).steps.man.isNone = false) (hrun : ((s.ctx c).layer (layKey l b)).predRun = true) :
    (((predictorComplete c l b s).ctx c).layer (layKey l b)).predRun = false ∧
    (((predictorComplete c l b s).ctx c).layer (layKey l b)).predDone = true ∧
    (predictorComplete c l b s).mem = s.mem ∧ (predictorComplete c l b s).seqs = s.seqs := by
  generalize ht : predictorComplete c l b s = t
  unfold predictorComplete at ht
  extract_lets +onlyGivenNames -lift x k y at ht
  rw [if_neg (by simp [x, y, k, hman, hrun])] at ht
  extract_lets +onlyGivenNames -lift rows pr pred next pairs n s1 offers s2 at ht
  have h2 : s1.KeepsGate c k s2 :=
    ((State.KeepsGate.refl ..).bumpCtx ..).trans (.foldl (fun t o => (State.KeepsGate.refl t ..).offer ..) ..)
  have h : s1.KeepsGate c k t := by
    rw [← ht]
    split
    · exact h2.reserveSoft ..
    · exact h2
  have hrecord := h.record_of_onLayer (by simpa [State.onCtx] using hc)
  exact ⟨congrArg (·.predRun) hrecord, congrArg (·.predDone) hrecord, h.mem, h.seqs⟩

theorem predictorComplete_idle {c l : Nat} {b : Bool} {s : State}
    (hrun : ((s.ctx c).layer (layKey l b)).predRun = false) : predictorComplete c l b s = s := by
  simp [predictorComplete, hrun]

/-! ### The picks of R76 -/

/-- R78: the real columns among the picks come first in the order, since selection stops at the null expert. -/
theorem pickLoop_real_prefix (q : List Nat) (cfg t null : Nat) (order : List Nat) (n a : Nat) :
    (pickLoop q cfg t null order n a).1.filter (fun e => e != null) <+: order := by
  induction order generalizing n a with
  | nil => exact List.prefix_rfl
  | cons e r ih =>
    unfold pickLoop
    dsimp only
    split_ifs with hzero hnull
    · exact List.nil_prefix
    · simp [hnull]
    · simp [hnull]
    · simp [hnull]
    · rw [List.filter_cons_of_pos (by simpa using hnull)]
      exact (List.prefix_cons_inj e).mpr (ih ..)

/-- R79: a zero score is never picked. -/
theorem pickLoop_pos (q : List Nat) (cfg t null : Nat) (order : List Nat) (n a : Nat) :
    ∀ e ∈ (pickLoop q cfg t null order n a).1, 0 < q.getD e 0 := by
  induction order generalizing n a with
  | nil => simp [pickLoop]
  | cons e r ih =>
    unfold pickLoop
    dsimp only
    split_ifs with hzero
    · simp
    · simpa using Nat.pos_of_ne_zero hzero
    · simpa using Nat.pos_of_ne_zero hzero
    · simpa using Nat.pos_of_ne_zero hzero
    · exact List.forall_mem_cons.mpr ⟨Nat.pos_of_ne_zero hzero, ih _ _⟩

theorem pickLoop_length_le (q : List Nat) (cfg t null : Nat) (order : List Nat) (n a : Nat) (hn : n < cfgKmax cfg) :
    (pickLoop q cfg t null order n a).1.length ≤ cfgKmax cfg - n := by
  induction order generalizing n a with
  | nil => simp [pickLoop]
  | cons e r ih =>
    unfold pickLoop
    dsimp only
    split_ifs
    · simp
    · simp; omega
    · simp; omega
    · simp; omega
    · have := ih (n + 1) (a + q.getD e 0) (by omega)
      simp only [List.length_cons]
      omega

/-- R76: `KMIN` = `KMAX` fixes the number of picks. -/
theorem pickLoop_eq_take (q : List Nat) (cfg t null : Nat) (order : List Nat) (n a : Nat)
    (horder : ∀ e ∈ order, e ≠ null ∧ 0 < q.getD e 0) (hk : cfgKmin cfg = cfgKmax cfg) (hn : n < cfgKmax cfg) :
    (pickLoop q cfg t null order n a).1 = order.take (cfgKmax cfg - n) := by
  induction order generalizing n a with
  | nil => simp [pickLoop]
  | cons e r ih =>
    obtain ⟨⟨hnull, hpos⟩, hr⟩ := List.forall_mem_cons.mp horder
    unfold pickLoop
    dsimp only
    rw [if_neg hpos.ne', if_neg hnull]
    split_ifs with hlast hmin
    · simp [show cfgKmax cfg - n = 1 by omega]
    · omega
    · rw [show cfgKmax cfg - n = cfgKmax cfg - (n + 1) + 1 by omega, List.take_succ_cons, ih _ _ hr (by omega)]

/-! ### The picks of a token (R76 to R78) -/

/-- The null column of a layer, one past the columns where it has none. -/
def nullCol (cfg : Nat) : Nat := if cfgNull cfg then cfgCols cfg - 1 else cfgCols cfg

/-- Columns by falling score, equal scores by a rank of the columns. -/
def pickOrder (q : List Nat) (rank : Nat → Nat) (cols : Nat) : List Nat :=
  sortBy (fun a c => decide (q.getD c 0 < q.getD a 0 ∨ (q.getD a 0 = q.getD c 0 ∧ rank a ≤ rank c))) (List.range cols)

/-- The columns that get waybills, in pick order. -/
def realPicks (q : List Nat) (cfg : Nat) (rank : Nat → Nat) : List Nat :=
  (pickLoop q cfg (sumN q) (nullCol cfg) (pickOrder q rank (cfgCols cfg)) 0 0).1.filter (fun e => e != nullCol cfg)

section
variable (q : List Nat) (cfg : Nat) (rank : Nat → Nat)

theorem mem_pickOrder {cols e : Nat} : e ∈ pickOrder q rank cols ↔ e < cols :=
  (sortBy_perm _ _).mem_iff.trans List.mem_range

theorem pickOrder_nodup (cols : Nat) : (pickOrder q rank cols).Nodup :=
  (sortBy_perm _ _).nodup_iff.mpr List.nodup_range

theorem pickOrder_falling (cols : Nat) : (pickOrder q rank cols).Pairwise (fun a b => q.getD b 0 ≤ q.getD a 0) := by
  refine (sortBy_pairwise _ ?_ ?_ _).imp ?_
  · intro a b
    simp only [decide_eq_true_eq]
    omega
  · intro a b d
    simp only [decide_eq_true_eq]
    omega
  · intro a b
    simp only [decide_eq_true_eq]
    omega

theorem realPicks_prefix : realPicks q cfg rank <+: pickOrder q rank (cfgCols cfg) :=
  pickLoop_real_prefix ..

theorem realPicks_pos {e : Nat} (he : e ∈ realPicks q cfg rank) : 0 < q.getD e 0 :=
  pickLoop_pos _ _ _ _ _ _ _ e (List.mem_of_mem_filter he)

theorem realPicks_ne_null {e : Nat} (he : e ∈ realPicks q cfg rank) : e ≠ nullCol cfg := by
  simpa using (List.mem_filter.mp he).2

theorem realPicks_length_le (hk : 1 ≤ cfgKmax cfg) : (realPicks q cfg rank).length ≤ cfgKmax cfg :=
  (List.length_filter_le ..).trans (pickLoop_length_le _ _ _ _ _ _ _ hk)

theorem realPicks_lt_cols {e : Nat} (he : e ∈ realPicks q cfg rank) : e < cfgCols cfg :=
  (mem_pickOrder q rank).mp ((realPicks_prefix q cfg rank).mem he)

/-- R76: no column left unpicked scores above a picked one. -/
theorem realPicks_best {v e : Nat} (hv : v ∈ realPicks q cfg rank) (he : e < cfgCols cfg) (hout : e ∉ realPicks q cfg rank) :
    q.getD e 0 ≤ q.getD v 0 := by
  obtain ⟨rest, hrest⟩ := realPicks_prefix q cfg rank
  have hfalling := pickOrder_falling q rank (cfgCols cfg)
  have hmem := (mem_pickOrder q rank).mpr he
  rw [← hrest] at hfalling hmem
  obtain ⟨-, -, hacross⟩ := List.pairwise_append.mp hfalling
  exact hacross v hv e ((List.mem_append.mp hmem).resolve_left hout)

/-- R76: the picks are distinct and their scores fall. -/
theorem realPicks_falling : (realPicks q cfg rank).Pairwise (fun a b => a ≠ b ∧ q.getD b 0 ≤ q.getD a 0) :=
  ((pickOrder_nodup q rank _).and (pickOrder_falling q rank _)).sublist (realPicks_prefix q cfg rank).sublist

theorem realPicks_getD_falling {i j : Nat} (hij : i < j) (hj : j < (realPicks q cfg rank).length) :
    (realPicks q cfg rank).getD i 0 ≠ (realPicks q cfg rank).getD j 0 ∧
      q.getD ((realPicks q cfg rank).getD j 0) 0 ≤ q.getD ((realPicks q cfg rank).getD i 0) 0 := by
  have h := List.pairwise_iff_getElem.mp (realPicks_falling q cfg rank) i j (hij.trans hj) hj hij
  rwa [List.getD_eq_getElem _ 0 hj, List.getD_eq_getElem _ 0 (hij.trans hj)]

end

/-! ### The Selector -/

/-- A waybill carries the identifiers of the token in a slot (R82, R85). -/
structure Bill.OfToken (w : Bill) (s : State) (m : Manifest) (ent : Entry) (c l : Nat) (b : Bool) (slot : Nat) : Prop where
  slot  : w.slot = slot
  layer : w.layer = l
  epoch : w.epoch = m.epoch
  ctx   : w.ctx = c
  src   : w.src = s.board.pkgId
  seq   : w.seq = ent.seq
  gen   : w.gen = m.gen b

/-- The waybills of a token's picks, by rank. -/
def billsOf (bill : Nat → Nat → Bill) (real : List Nat) : List Bill := real.zipIdx.map (fun p => bill p.2 p.1)

section
variable {bill : Nat → Nat → Bill} (real : List Nat)

@[simp] theorem length_billsOf : (billsOf bill real).length = real.length := by
  simp [billsOf]

theorem map_expert_billsOf (h : ∀ i e, (bill i e).expert = e) : (billsOf bill real).map (·.expert) = real := by
  simp [billsOf, Function.comp_def, h]

theorem map_rank_billsOf (h : ∀ i e, (bill i e).rank = i) :
    (billsOf bill real).map (·.rank) = List.range real.length := by
  simp [billsOf, Function.comp_def, h, List.range_eq_range']

theorem exists_of_mem_billsOf {w : Bill} (h : w ∈ billsOf bill real) : ∃ i, ∃ e ∈ real, bill i e = w := by
  obtain ⟨⟨e, i⟩, he, rfl⟩ := List.mem_map.mp h
  exact ⟨i, e, List.fst_mem_of_mem_zipIdx he, rfl⟩

end

/-- R76, R82, R84, R85: a token that the Selector takes joins the selected slots, and its picks' waybills the layer's. -/
theorem tokenSelect_takes {c l : Nat} {b : Bool} {slot : Nat} {m : Manifest} {q qw : List Nat} {nan : Bool} {ent : Entry}
    {s : State} (hc : c < s.ctxs.length) (hman : (s.ctx c).steps.man = some m)
    (hscores : ((s.ctx c).layer (layKey l b)).scores.find slot = some (q, qw, nan)) (hent : m.entryOf slot = some ent)
    (hskip : ent.skipped = false) (hnew : slot ∉ ((s.ctx c).layer (layKey l b)).selected)
    (hturn : m.fixed = true → ∀ n ∈ (s.ctx c).slotList b, n < slot →
      n ∈ ((s.ctx c).layer (layKey l b)).selected ∨ (s.ctx c).gone n = true) :
    ∃ (rank : Nat → Nat) (bill : Nat → Nat → Bill),
      (∀ i e, (bill i e).OfToken s m ent c l b slot) ∧ (∀ i e, (bill i e).expert = e) ∧ (∀ i e, (bill i e).rank = i) ∧
      (((tokenSelect c l b slot s).ctx c).layer (layKey l b)).selected =
        ((s.ctx c).layer (layKey l b)).selected ++ [slot] ∧
      (((tokenSelect c l b slot s).ctx c).layer (layKey l b)).raw = ((s.ctx c).layer (layKey l b)).raw ++
        billsOf bill (realPicks q ((s.ctx c).boundRoute.layer l).cfg rank) ∧
      (tokenSelect c l b slot s).mem = s.mem ∧ (tokenSelect c l b slot s).seqs = s.seqs := by
  generalize ht : tokenSelect c l b slot s = t
  unfold tokenSelect at ht
  extract_lets +onlyGivenNames -lift x k y at ht
  rw [show x.steps.man = some m from hman, show y.scores.find slot = some (q, qw, nan) from hscores,
    show x.man.entryOf slot = some ent by rw [Ctx.man_of_some hman, hent]] at ht
  dsimp -zeta only at ht
  extract_lets +onlyGivenNames -lift early at ht
  have hearly : m.fixed = true → early = false := by
    intro hfixed
    simp only [early, List.any_eq_false]
    intro n hn hwaits
    simp only [Bool.and_eq_true, decide_eq_true_eq, Bool.not_eq_true', List.contains_eq_mem, decide_eq_false_iff_not] at hwaits
    obtain ⟨⟨hlt, hout⟩, hgone⟩ := hwaits
    rcases hturn hfixed n hn hlt with hin | hgone'
    · exact hout hin
    · exact absurd (hgone'.symm.trans hgone) (by simp)
  rw [if_neg (by simpa [x, y, k, hnew, hskip] using hearly)] at ht
  extract_lets +onlyGivenNames -lift cfg cols null rank order sel picks real left tie total gen bill bills fresh rec1 s1
    empty hits s2 s3 at ht
  have h1 : (s.onLayer c k _).KeepsGate c k s1 := (State.KeepsGate.refl ..).setSlotGen c slot gen
  have h2 : s1.KeepsGate c k s2 := by
    iterate 9 apply State.KeepsGate.bumpCtx
    exact .refl ..
  have h3 : s2.KeepsGate c k s3 := by
    unfold s3
    split
    · exact (State.KeepsGate.refl ..).raiseOnce ..
    · exact .refl ..
  have h4 : s3.KeepsGate c k t := by
    rw [← ht]
    exact ((State.KeepsGate.refl ..).freed.writeHist ..).holdSet ..
  have h := h1.trans (h2.trans (h3.trans h4))
  have hrecord := h.record_of_onLayer hc
  exact ⟨rank, bill, fun i e => ⟨rfl, rfl, rfl, rfl, rfl, rfl, rfl⟩, fun _ _ => rfl, fun _ _ => rfl,
    congrArg (·.selected) hrecord, congrArg (·.raw) hrecord, h.mem, h.seqs⟩

theorem tokenSelect_selected {c l : Nat} {b : Bool} {slot : Nat} {s : State}
    (h : slot ∈ ((s.ctx c).layer (layKey l b)).selected) : tokenSelect c l b slot s = s := by
  unfold tokenSelect
  extract_lets +onlyGivenNames -lift x k y
  split
  · extract_lets +onlyGivenNames -lift early
    rw [if_pos (by simp [x, y, k, h])]
  · rfl

/-- R84: in fixed-order mode a token waits for every earlier one of its convoy. -/
theorem tokenSelect_waits {c l : Nat} {b : Bool} {slot n : Nat} {m : Manifest} {s : State}
    (hman : (s.ctx c).steps.man = some m) (hfixed : m.fixed = true) (hn : n ∈ (s.ctx c).slotList b) (hlt : n < slot)
    (hout : n ∉ ((s.ctx c).layer (layKey l b)).selected) (hgone : (s.ctx c).gone n = false) :
    tokenSelect c l b slot s = s := by
  have hearly : ((s.ctx c).slotList b).any (fun n => decide (n < slot) &&
      !((s.ctx c).layer (layKey l b)).selected.contains n && !(s.ctx c).gone n) = true :=
    List.any_eq_true.mpr ⟨n, hn, by simp [hlt, hout, hgone]⟩
  unfold tokenSelect
  extract_lets +onlyGivenNames -lift x k y
  split
  · next _ _ _ _ _ hman' _ _ =>
    obtain rfl := Option.some.inj (hman.symm.trans hman')
    extract_lets +onlyGivenNames -lift early
    rw [if_pos (by simp [early, x, y, k, hfixed, hearly])]
  · rfl

/-- Settles O44: the gate by `gateLaunch_scores`, the predictor by `predictorLaunch_runs` and `predictorComplete_done`; a
token's waybills are those of `realPicks`, which begin the columns in order of falling score. -/
theorem gateAndSelection : Obligations.GateAndSelection := by
  unfold Obligations.GateAndSelection
  refine ⟨?gate, ?gateWaits, ?predictor, ?predicted, ?idle, ?select, ?selected, ?waits, ?fixedCount⟩
  case gate =>
    intro c l b m md s k y hc hman hmd hl hgated hne hrows
    have hslot {n : Nat} (hn : n ∈ (s.ctx c).slotList b) := (Ctx.mem_slotList hman b n).mp hn
    have h := gateLaunch_scores hman hmd hl hgated hne fun n hn => (hrows n (hslot hn).1 (hslot hn).2).1
    have hrecord := h.record_of_onLayer hc
    refine ⟨_, rfl, congrArg (·.gated) hrecord, h.mem, h.seqs, fun n hlo hhi => ?_⟩
    have hn : n ∈ ((s.ctx c).slotList b).filter (fun n => !(s.ctx c).gone n) :=
      List.mem_filter.mpr ⟨(Ctx.mem_slotList hman b n).mpr ⟨hlo, hhi⟩, by simp [(hrows n hlo hhi).2]⟩
    calc (((gateLaunch c l b s).ctx c).layer k).scores.find n = (s.gateScores c l b).find n :=
          congrArg (·.scores.find n) hrecord
      _ = _ := (Tbl.find_foldl_put ..).trans (if_pos hn)
  case gateWaits =>
    intro c l b n m s hman hlo hhi hrow
    exact congrArg _ (gateLaunch_waits ((Ctx.mem_slotList hman b n).mpr ⟨hlo, hhi⟩) hrow)
  case predictor =>
    intro c l b m s y hman hgated hrun hdone hnext hdepth
    obtain ⟨n1, n2, n3, hstrings⟩ := (s.onLayer c (layKey l b) (fun y => { y with predRun := true })).ownStrings_noSfn c true
    exact ⟨n1, n2, n3, congrArg _ ((predictorLaunch_runs (by simp [hman]) hgated hrun hdone hnext hdepth).trans hstrings)⟩
  case predicted =>
    intro c l b m s hc hman hrun
    exact ⟨_, rfl, predictorComplete_done hc (by simp [hman]) hrun⟩
  case idle =>
    intro c l b s hrun
    exact congrArg _ (predictorComplete_idle hrun)
  case select =>
    intro c l b slot m q qw nan ent s k cfg hc hman hscores hent hskip hnew hturn hk
    obtain ⟨rank, bill, htoken, hexpert, hrank, hsel, hraw, hmem, hseqs⟩ := tokenSelect_takes hc hman hscores hent hskip hnew
      fun hfixed n hn hlt => .inl (hturn hfixed n ((Ctx.mem_slotList hman b n).mp hn).1 hlt)
    have hexperts := map_expert_billsOf (realPicks q cfg rank) hexpert
    refine ⟨_, _, rfl, hmem, hseqs, hsel, hraw, ?_, ?_, ?_, ?_⟩
    · simpa using realPicks_length_le q cfg rank hk
    · rw [map_rank_billsOf _ hrank, length_billsOf]
    · intro w hw
      obtain ⟨i, v, hv, rfl⟩ := exists_of_mem_billsOf _ hw
      obtain ⟨hslot, hlayer, hepoch, hctx, hsrc, hseq, hgen⟩ := htoken i v
      rw [hexpert]
      refine ⟨hslot, hlayer, hepoch, hctx, hsrc, hseq, hgen,
        realPicks_lt_cols q cfg rank hv, fun hnull => ?_, realPicks_pos q cfg rank hv, fun e he hout => ?_⟩
      · simpa [nullCol, hnull] using realPicks_ne_null q cfg rank hv
      · refine realPicks_best q cfg rank hv he fun hin => ?_
        obtain ⟨u, hu, hue⟩ := List.mem_map.mp (hexperts ▸ hin)
        exact hout u hu hue
    · intro i j hij hj
      rw [hexperts]
      exact realPicks_getD_falling q cfg rank hij (by simpa using hj)
  case selected =>
    intro c l b slot s h
    exact congrArg _ (tokenSelect_selected h)
  case waits =>
    intro c l b slot n m s hman hfixed hlo hhi hlt hout hgone
    exact congrArg _ (tokenSelect_waits hman hfixed ((Ctx.mem_slotList hman b n).mpr ⟨hlo, hhi⟩) hlt hout hgone)
  case fixedCount =>
    intro q cfg t null order horder hk hkmax
    exact pickLoop_eq_take q cfg t null order 0 0 horder hk hkmax

end Machine
end Sys2Proof
end

section
/-! PROOFS. Strings on Waystations (12 R266, R268, R270 to R273): what the operations of a queue leave in the state around it,
the word that a read delivers to the lanes, and the outcomes of WS_PUSH and WS_POP. -/

namespace Sys2Proof
namespace Machine

/-! ### One queue -/

section
variable (y : Ws) (v : Nat × Bool)

@[simp] theorem Ws.push_words (x now : Nat) :
    (y.push x now).words = y.words ++ [(x % 2 ^ (8 * y.wordBytes), false)] := rfl

@[simp] theorem Ws.push_writePtr (x now : Nat) : (y.push x now).writePtr = (y.writePtr + 1) % 2 ^ 32 := rfl

@[simp] theorem Ws.pop_last : (y.pop v).last = v := by
  unfold Ws.pop
  dsimp only
  split <;> rfl

@[simp] theorem Ws.pop_readPtr : (y.pop v).readPtr = (y.readPtr + 1) % 2 ^ 32 := by
  unfold Ws.pop
  dsimp only
  split <;> rfl

variable {y}

/-- R272: without a mark a pop frees what has been read. -/
theorem Ws.pop_releasePtr_of_unmarked (h : y.markHeld = false) : (y.pop v).releasePtr = (y.pop v).readPtr := by
  simp only [Ws.pop, h]
  rfl

/-- R272: under a mark a pop frees nothing. -/
theorem Ws.pop_of_marked (h : y.markHeld = true) :
    y.pop v = { y with readPtr := (y.readPtr + 1) % 2 ^ 32, last := v, poisonSeen := y.poisonSeen || v.2 } := by
  simp [Ws.pop, h]

theorem Ws.rewind_of_marked (h : y.markHeld = true) : y.rewind = { y with readPtr := y.markPtr } := if_pos h

theorem Ws.rewind_of_unmarked (h : y.markHeld = false) : y.rewind = y := by simp [Ws.rewind, h]

theorem Ws.release_of_marked (h : y.markHeld = true) : y.release = { y.freeTo with markHeld := false } := if_pos h

theorem Ws.release_of_unmarked (h : y.markHeld = false) : y.release = y := by simp [Ws.release, h]

end

/-- A string no longer waits to push. -/
def Ws.withdraw (me : Nat × Nat × Nat) (y : Ws) : Ws := { y with pushers := y.pushers.filter fun e => e != me }

theorem Ws.withdraw_of_none {y : Ws} (h : y.pushers = []) (me : Nat × Nat × Nat) : Ws.withdraw me y = y := by
  rw [Ws.withdraw, h, List.filter_nil, ← h]

/-! ### The state around a queue -/

section
variable (s : State)

@[simp] theorem State.wst_onWs_same (q : Nat) (f : Ws → Ws) : (s.onWs q f).wst q = f (s.wst q) := by
  simp [State.wst_onWs]

@[simp] theorem State.wst_bumpCtx (d : Nat) (k : Ctr) (n q : Nat) : (s.bumpCtx d k n).wst q = s.wst q := rfl

@[simp] theorem State.now_onWs (q : Nat) (f : Ws → Ws) : (s.onWs q f).now = s.now := rfl

@[simp] theorem State.wst_putStr (c id i : Nat) (g : Str) (q : Nat) : (s.putStr c id i g).wst q = s.wst q := rfl

/-- A rated fault message waits at the collector or is left out: nothing else moves but the time of the last one. -/
theorem State.raiseRated_frame (source kind ctx dtype detail : Nat) : s.raiseRated source kind ctx dtype detail =
    { s with flt := (s.raiseRated source kind ctx dtype detail).flt
             lastLog := (s.raiseRated source kind ctx dtype detail).lastLog } := by
  unfold State.raiseRated
  split
  · split <;> rfl
  · rfl

@[simp] theorem State.wst_raiseRated (source kind ctx dtype detail q : Nat) :
    (s.raiseRated source kind ctx dtype detail).wst q = s.wst q := by
  rw [State.raiseRated_frame]
  rfl

/-- A count changes no part of a context but its counters. -/
theorem State.ctx_bumpCtx (d c : Nat) (k : Ctr) (n : Nat) :
    (s.bumpCtx d k n).ctx c = { s.ctx c with ctr := ((s.bumpCtx d k n).ctx c).ctr } := by
  simp only [State.ctx, State.bumpCtx, updAt_getD]
  split
  · next h => rw [h.1]
  · rfl

theorem State.ctrGet_bumpCtx {d : Nat} (k : Ctr) (n : Nat) (h : d < s.ctxs.length) :
    ctrGet ((s.bumpCtx d k n).ctx d).ctr k = k.plus (ctrGet (s.ctx d).ctr k) n := by
  simp only [State.ctx, State.bumpCtx, updAt_getD_same _ _ _ _ h]
  simp [ctrGet, ctrAdd]

/-- Replacing a string leaves every part of a context but its launches. -/
theorem State.ctx_putStr (c id i : Nat) (g : Str) (d : Nat) : (s.putStr c id i g).ctx d =
    { s.ctx d with lanes := { (s.ctx d).lanes with launches := ((s.putStr c id i g).ctx d).lanes.launches } } := by
  simp only [State.putStr, State.onStr, State.onCtx, State.ctx, updAt_getD]
  split
  · next h => rw [h.1]
  · rfl

end

section
variable {s t : State} {c id i q : Nat} {l : Launch} {g : Str} {w op : Nat}

/-- A context beyond the last one has no launch. -/
theorem State.lt_of_launch (h : (s.ctx c).launch id = some l) : c < s.ctxs.length := by
  by_contra hc
  have hfresh : s.ctx c = Ctx.fresh := List.getD_eq_default _ _ (not_lt.mp hc)
  rw [hfresh] at h
  cases h

theorem State.lt_of_strAt (h : s.strAt c id i = some g) : c < s.ctxs.length := by
  obtain ⟨l, hl, -⟩ := Option.bind_eq_some_iff.mp h
  exact State.lt_of_launch hl

/-- A launch keeps its handle when a string of it changes. -/
theorem launchOf_comp_updStr (f : Str → Str) :
    ((fun l : Launch => l.id == id) ∘ fun l => if l.id = id then { l with strs := updAt l.strs i f } else l) =
      fun l => l.id == id := by
  funext l
  simp only [Function.comp_apply]
  split <;> rfl

/-- A string that replaces another stands in its place. -/
theorem State.strAt_putStr {g' : Str} (h : s.strAt c id i = some g) : (s.putStr c id i g').strAt c id i = some g' := by
  obtain ⟨l, hl, hg⟩ := Option.bind_eq_some_iff.mp h
  have hi : i < l.strs.length := (List.getElem?_eq_some_iff.mp hg).1
  have hid : l.id = id := by simpa using List.find?_some hl
  have hlaunch : ((s.putStr c id i g').ctx c).launch id = some { l with strs := updAt l.strs i fun _ => g' } := by
    rw [State.putStr, State.onStr, State.ctx_onCtx _ _ _ _ (State.lt_of_launch hl), if_pos rfl, Ctx.launch,
      List.find?_map, launchOf_comp_updStr, ← Ctx.launch, hl, Option.map_some, if_pos hid]
  simp [State.strAt, hlaunch, updAt_getElem?, hg]

/-- The string whose next word is read is a string in flight. -/
theorem Ready.strAt (h : Ready s op c id i l g w) : s.strAt c id i = some g := by
  have hfound := h.found
  unfold State.atWord at hfound
  split at hfound
  · cases hfound
  · next l' hl =>
    split at hfound
    · next g' k hg hk =>
      split at hfound
      · split at hfound
        · cases hfound
          simp [State.strAt, hl, hg]
        · cases hfound
      · cases hfound
    · cases hfound

/-- The next word is at the string's program counter, and a string that was ready waits for nothing. -/
theorem Ready.next_eq (h : Ready s op c id i l g w) : { g.next with wait := .none } = { g with pc := g.pc + 1 } := by
  have hfree := h.free
  cases g
  cases hfree
  rfl

/-- From `s` to `t`, no Waystation but `q` changes, nor memory, the posts, or what runs on the lanes. -/
structure State.OnlyWs (s : State) (q : Nat) (t : State) : Prop where
  mem   : t.mem = s.mem
  posts : t.posts = s.posts
  lanes : ∀ c, (t.ctx c).lanes = (s.ctx c).lanes
  other : ∀ p, p ≠ q → t.wst p = s.wst p

namespace State.OnlyWs

theorem refl (s : State) (q : Nat) : s.OnlyWs q s := ⟨rfl, rfl, fun _ => rfl, fun _ _ => rfl⟩

theorem onWs (h : s.OnlyWs q t) (f : Ws → Ws) : s.OnlyWs q (t.onWs q f) where
  mem := h.mem
  posts := h.posts
  lanes := h.lanes
  other p hp := by rw [State.wst_onWs, if_neg (Ne.symm hp), h.other p hp]

theorem bumpCtx (h : s.OnlyWs q t) (d : Nat) (k : Ctr) (n : Nat) : s.OnlyWs q (t.bumpCtx d k n) where
  mem := h.mem
  posts := h.posts
  lanes c := by rw [State.ctx_bumpCtx]; exact h.lanes c
  other := h.other

theorem raiseRated (h : s.OnlyWs q t) (source kind ctx dtype detail : Nat) :
    s.OnlyWs q (t.raiseRated source kind ctx dtype detail) := by
  rw [State.raiseRated_frame]
  exact ⟨h.mem, h.posts, h.lanes, h.other⟩

theorem wsPush (h : s.OnlyWs q t) (vs : List Nat) : s.OnlyWs q (t.wsPush q vs) := (h.onWs _).bumpCtx ..

theorem wsRewind (h : s.OnlyWs q t) : s.OnlyWs q (t.wsRewind q) := (h.onWs _).bumpCtx ..

theorem underrun (h : s.OnlyWs q t) : s.OnlyWs q (t.underrun q) := (h.onWs _).bumpCtx ..

/-- A string in flight is still there to be replaced after acts on a Waystation. -/
theorem strAt_putStr (h : s.OnlyWs q t) (hs : s.strAt c id i = some g) (g' : Str) :
    (t.putStr c id i g').strAt c id i = some g' :=
  State.strAt_putStr (g := g) (by rw [← hs, State.strAt, State.strAt, Ctx.launch, Ctx.launch, h.lanes])

end State.OnlyWs

/-! ### Pushes and reads of the state -/

theorem State.wst_wsPush_one (s : State) (q v : Nat) : (s.wsPush q [v]).wst q = (s.wst q).push v s.now := by
  simp [State.wsPush]

@[simp] theorem State.wst_wsRewind (s : State) (q : Nat) : (s.wsRewind q).wst q = (s.wst q).rewind := by
  simp [State.wsRewind]

@[simp] theorem State.wst_underrun (s : State) (q : Nat) :
    (s.underrun q).wst q = { s.wst q with underrun := true } := by
  simp [State.underrun]

/-- R270 to R272: a read of an empty queue takes nothing and moves nothing; another takes the oldest unread word, and its counts
and its log entry leave the rest.  `State.wsPop` is unfolded before it meets its arguments: to compare it applied with its body, the
kernel would evaluate the number of words read, `(READ_PTR + 2 ^ 32 - RELEASE_PTR) % 2 ^ 32`, step by step. -/
theorem State.wsPop_cases (s : State) (q : Nat) :
    ((s.wst q).unread = [] ∧ s.wsPop q = (s, none)) ∨
    ∃ v rest t, (s.wst q).unread = v :: rest ∧ s.wsPop q = (t, some v) ∧ s.OnlyWs q t ∧ t.wst q = (s.wst q).pop v := by
  generalize hdef : State.wsPop = f
  delta State.wsPop at hdef
  subst hdef
  beta_reduce
  extract_lets y
  split
  · next hu => exact .inl ⟨hu, rfl⟩
  · next v rest hu =>
    have hpopped := ((OnlyWs.refl s q).onWs fun r => r.pop v).bumpCtx (s.wst q).ctx .wsPops 1
    refine .inr ⟨v, rest, _, hu, rfl, ?_, ?_⟩
    · split
      · exact (hpopped.bumpCtx ..).raiseRated ..
      · exact hpopped
    · split <;> simp [y]

theorem State.wsPop_of_empty (h : (s.wst q).unread = []) : s.wsPop q = (s, none) := by
  rcases s.wsPop_cases q with ⟨-, hpop⟩ | ⟨v, rest, t, hu, -⟩
  · exact hpop
  · exact absurd (h.symm.trans hu) (by simp)

theorem State.wsPop_of_unread {v : Nat × Bool} {rest : List (Nat × Bool)} (h : (s.wst q).unread = v :: rest) :
    ∃ t, s.wsPop q = (t, some v) ∧ s.OnlyWs q t ∧ t.wst q = (s.wst q).pop v := by
  rcases s.wsPop_cases q with ⟨hu, -⟩ | ⟨v', rest', t, hu, hpop⟩
  · exact absurd (h.symm.trans hu) (by simp)
  · obtain ⟨rfl, -⟩ := List.cons.inj (hu.symm.trans h)
    exact ⟨t, hpop⟩

/-! ### The word in the lanes (R273) -/

section
variable (g : Str)

@[simp] theorem Str.next_reg : g.next.reg = g.reg := rfl

@[simp] theorem Str.next_pred : g.next.pred = g.pred := rfl

@[simp] theorem Str.setReg_pred (r : Nat) (on : Nat → Bool) (v : Nat → Nat) : (g.setReg r on v).pred = g.pred := by
  funext p j
  simp only [Str.pred, Str.setReg]

@[simp] theorem Str.setPred_reg (p : Nat) (on v : Nat → Bool) : (g.setPred p on v).reg = g.reg := by
  funext b j
  simp only [Str.reg, Str.setPred]

theorem Str.takeWord_next_frame (w n : Nat) (v : Nat × Bool) (under : Bool) :
    (g.takeWord w n v under).next = { g with
      pc := g.pc + 1
      regs := (g.takeWord w n v under).next.regs
      preds := (g.takeWord w n v under).next.preds } := by
  simp only [Str.next, Str.takeWord, Str.setPred, Str.setReg]

theorem Str.takeWord_next_reg (w n : Nat) (v : Nat × Bool) (under : Bool) {b j : Nat} (hb : b < 16) (hj : j < 64) :
    (g.takeWord w n v under).next.reg b j =
      if b = iDst w ∧ j < n ∧ g.guard w j then bits v.1 (32 * j) 32 else g.reg b j := by
  simp [Str.takeWord, Str.setReg_reg, hb, hj, bits]

/-- The underrun indication and the poison tag, where the two predicates differ. -/
theorem Str.takeWord_next_pred (w n : Nat) (v : Nat × Bool) (under : Bool) (hne : bits (iImm w) 0 2 ≠ bits (iImm w) 2 2)
    {p j : Nat} (hp : p < 4) (hj : j < 64) :
    (g.takeWord w n v under).next.pred p j =
      if p = bits (iImm w) 0 2 ∧ g.guard w j then under
      else if p = bits (iImm w) 2 2 ∧ g.guard w j then v.2 else g.pred p j := by
  rw [Str.next_pred, Str.takeWord, Str.setPred_pred _ _ _ _ _ _ hp hj, Str.setPred_pred _ _ _ _ _ _ hp hj, Str.setReg_pred]
  by_cases hunder : p = bits (iImm w) 0 2
  · simp [hunder, hne]
  · simp [hunder]

end

/-! ### WS_PUSH -/

theorem exec_wsPush : exec (.wsPush c id i) s = .next (wsPushStr c id i s) := rfl

section
variable {k : Nat} {r : List Nat} (h : Ready s 0xC8 c id i l g w) (hl : g.lanes w = k :: r) (hq : g.srcA w k % 2 ^ 12 = q)
include h hl hq

/-- R268, R273: what a push by a ready string does, on the Waystation that its lead lane names. -/
theorem wsPushStr_eq : wsPushStr c id i s =
    if (s.ctx c).hasWs q = false ∨ (s.wst q).lanePush = false then s.stringFault c id i
    else if (s.wst q).pushers = [] ∧ 0 < (s.wst q).room then
      let v := g.wsWord w ((s.wst q).wordBytes / 4)
      let t := ((s.onWs q (Ws.withdraw (c, id, i))).wsPush q [v]).putStr c id i
        { g with pc := g.pc + 1 }
      if q = (s.ctx c).lanes.layoutWs then
        t.onLanes c fun y => { y with cmds := y.cmds ++ [⟨v, l.layGen, some id, false, 0, false, none, false, none⟩] }
      else t
    else ((s.onWs q fun y => { y with pushers := y.pushers ++ [(c, id, i)] }).putStr c id i { g with wait := .ws q }).bumpCtx c
      .wsFullWaits 1 := by
  have hq' : bits (g.srcA w k) 0 12 = q := hq
  unfold wsPushStr
  simp only [h.found, Str.lead, hl, List.head?_cons, h.free, h.next_eq, hq', true_and, if_true, Bool.not_eq_true',
    Bool.and_eq_true, List.isEmpty_iff, decide_eq_true_eq]
  rfl

theorem exec_wsPush_faults (hbad : (s.ctx c).hasWs q = false ∨ (s.wst q).lanePush = false) :
    exec (.wsPush c id i) s = .next (s.stringFault c id i) := by
  rw [exec_wsPush, wsPushStr_eq h hl hq, if_pos hbad]

variable (hhas : (s.ctx c).hasWs q = true) (hlane : (s.wst q).lanePush = true)
include hhas hlane

/-- R268: a push to a full queue waits behind the others. -/
theorem exec_wsPush_waits (hfull : (s.wst q).room = 0) :
    exec (.wsPush c id i) s = .next (((s.onWs q fun y => { y with pushers := y.pushers ++ [(c, id, i)] }).putStr c id i
      { g with wait := .ws q }).bumpCtx c .wsFullWaits 1) := by
  rw [exec_wsPush, wsPushStr_eq h hl hq, if_neg (by simp [hhas, hlane]), if_neg (by simp [hfull])]

/-- R266, R268: a push to a queue with room, for which no other string waits, appends its word; on the layout queue the word is a
command besides. -/
theorem exec_wsPush_appends (hfirst : (s.wst q).pushers = []) (hroom : 0 < (s.wst q).room) :
    ∃ t, s.OnlyWs q t ∧ t.wst q = (s.wst q).push (g.wsWord w ((s.wst q).wordBytes / 4)) s.now ∧
      exec (.wsPush c id i) s = .next (if q = (s.ctx c).lanes.layoutWs then
        (t.putStr c id i { g with pc := g.pc + 1 }).onLanes c fun y => { y with cmds := y.cmds ++
          [⟨g.wsWord w ((s.wst q).wordBytes / 4), l.layGen, some id, false, 0, false, none, false, none⟩] }
        else t.putStr c id i { g with pc := g.pc + 1 }) := by
  refine ⟨(s.onWs q (Ws.withdraw (c, id, i))).wsPush q [g.wsWord w ((s.wst q).wordBytes / 4)],
    ((State.OnlyWs.refl s q).onWs _).wsPush _, ?_, ?_⟩
  · rw [State.wst_wsPush_one, State.wst_onWs_same, Ws.withdraw_of_none hfirst, State.now_onWs]
  · rw [exec_wsPush, wsPushStr_eq h hl hq, if_neg (by simp [hhas, hlane]), if_pos ⟨hfirst, hroom⟩]

end

/-! ### WS_POP -/

section
variable {k kind : Nat} {r : List Nat} (h : Ready s 0xC9 c id i l g w) (hl : g.lanes w = k :: r)
  (hq : g.srcA w k % 2 ^ 12 = q) (hkind : bits (iImm w) 4 2 = kind)
include h hl hq hkind

/-- R272: an operation is the consumer's. -/
theorem wsPopOp_eq (f : Nat → Str → Nat → State) : wsPopOp kind c id i f s =
    if (s.ctx c).hasWs q = true ∧ (s.wst q).consumer = 1 then f q g w else s.stringFault c id i := by
  have hq' : bits (g.srcA w k) 0 12 = q := hq
  rw [wsPopOp, runStr_ready _ _ h, if_neg (not_not.mpr hkind)]
  simp only [Str.lead, hl, List.head?_cons, hq']
  by_cases hmay : (s.ctx c).hasWs q = true ∧ (s.wst q).consumer = 1
  · rw [if_pos hmay, if_neg (by simp [hmay])]
  · rw [if_neg hmay, if_pos (by simpa [or_iff_not_imp_left] using hmay)]

theorem wsPopOp_faults (hnot : ¬ ((s.ctx c).hasWs q = true ∧ (s.wst q).consumer = 1)) (f : Nat → Str → Nat → State) :
    wsPopOp kind c id i f s = s.stringFault c id i := by
  rw [wsPopOp_eq h hl hq hkind, if_neg hnot]

theorem wsPopOp_runs (hmay : (s.ctx c).hasWs q = true ∧ (s.wst q).consumer = 1) (f : Nat → Str → Nat → State) :
    wsPopOp kind c id i f s = f q g w := by
  rw [wsPopOp_eq h hl hq hkind, if_pos hmay]

end

section
variable {k : Nat} {r : List Nat} (h : Ready s 0xC9 c id i l g w) (hl : g.lanes w = k :: r)
  (hq : g.srcA w k % 2 ^ 12 = q) (hkind : bits (iImm w) 4 2 = 0)
  (hmay : (s.ctx c).hasWs q = true ∧ (s.wst q).consumer = 1)
include h hl hq hmay hkind

theorem execWsPop_of_unread {v : Nat × Bool} {rest : List (Nat × Bool)} (hu : (s.wst q).unread = v :: rest) :
    ∃ t, execWsPop c id i s = .next (t.putStr c id i (g.takeWord w ((s.wst q).wordBytes / 4) v false).next) ∧
      s.OnlyWs q t ∧ t.wst q = (s.wst q).pop v := by
  obtain ⟨t, hpop, ht⟩ := State.wsPop_of_unread hu
  refine ⟨t, ?_, ht⟩
  rw [execWsPop, wsPopOp_runs h hl hq hkind hmay, hpop]

theorem execWsPop_of_empty (hu : (s.wst q).unread = []) :
    execWsPop c id i s = .next ((s.underrun q).putStr c id i
      (g.takeWord w ((s.wst q).wordBytes / 4) (s.wst q).last true).next) := by
  rw [execWsPop, wsPopOp_runs h hl hq hkind hmay, State.wsPop_of_empty hu]

end

end

/-! ### The obligation -/

/-- Settles O40: a push by `wsPushStr_eq`, branch by branch; the four operations of WS_POP by `wsPopOp_eq`, and a read of an
unread word and of an empty queue by `State.wsPop_cases`. -/
theorem stringsOnWaystations : Obligations.StringsOnWaystations := by
  unfold Obligations.StringsOnWaystations
  refine ⟨?push, ?pop⟩
  case push =>
    intro c id i k r l g w s h hl q v
    refine ⟨fun hbad => ?faults, fun hhas hlane hfirst hroom => ?appends, fun hhas hlane hfull => ?waits⟩
    case faults =>
      exact exec_wsPush_faults h hl rfl hbad
    case appends =>
      obtain ⟨t, ht, hq, hexec⟩ := exec_wsPush_appends h hl rfl hhas hlane hfirst hroom
      have hstr := ht.strAt_putStr h.strAt { g with pc := g.pc + 1 }
      refine ⟨fun hother => ⟨_, hexec.trans (by rw [if_neg hother]), hstr, ht.mem, ?_, ?_, ht.other⟩,
        fun hc hlayout => ⟨_, hexec.trans (by rw [if_pos hlayout]), ?_⟩⟩
      · exact (congrArg Ws.words hq).trans (Ws.push_words ..)
      · exact (congrArg Ws.writePtr hq).trans (Ws.push_writePtr ..)
      · rw [State.onLanes, State.ctx_onCtx _ _ _ _ (State.lt_of_strAt hstr), if_pos rfl, State.ctx_putStr]
        exact congrArg (·.cmds ++ _) (ht.lanes c)
    case waits =>
      exact exec_wsPush_waits h hl rfl hhas hlane hfull
  case pop =>
    intro c id i k r l g w s h hl q may n
    refine ⟨fun hnot => ?refused, fun hmay hkind => ?reads, fun hmay hkind => ?mark, fun hmay hkind hheld => ?rewind,
      fun hmay hkind hheld => ?release, fun hmay hfree => ?unmarked⟩
    case refused =>
      have hfault {kind : Nat} (hkind : bits (iImm w) 4 2 = kind) (f : Nat → Str → Nat → State) :=
        congrArg (Host.Outcome.next (φ := Fault) (ρ := Refusal)) (wsPopOp_faults h hl rfl hkind hnot f)
      exact ⟨(hfault · _), (hfault · _), (hfault · _), (hfault · _)⟩
    case reads =>
      refine ⟨fun v rest hu => ?_, fun hu => ?_⟩
      · obtain ⟨t, hexec, ht, hq⟩ := execWsPop_of_unread h hl (q := q) rfl hkind hmay hu
        refine ⟨_, _, hexec, ht.strAt_putStr h.strAt _, ht.mem, ht.posts, ?_, ?_, ht.other, fun hfree => ?_, fun hheld => ?_,
          Str.takeWord_next_frame g w n v false, fun b hb j hj => ?_, fun hne p hp j hj => ?_⟩
        · rw [State.wst_putStr, hq, Ws.pop_last]
        · rw [State.wst_putStr, hq, Ws.pop_readPtr]
        · rw [State.wst_putStr, hq, Ws.pop_releasePtr_of_unmarked v hfree]
        · rw [State.wst_putStr, hq, Ws.pop_of_marked v hheld]
          exact ⟨rfl, rfl⟩
        · exact Str.takeWord_next_reg g w n v false hb hj
        · exact Str.takeWord_next_pred g w n v false hne hp hj
      · have ht := (State.OnlyWs.refl s q).underrun
        refine ⟨_, _, execWsPop_of_empty h hl rfl hkind hmay hu, ht.strAt_putStr h.strAt _, ht.mem, State.wst_underrun s q,
          ht.other, fun hctx => ?_, Str.takeWord_next_frame g w n _ true, fun b hb j hj => ?_, fun hne p hp j hj => ?_⟩
        · rw [State.ctx_putStr]
          exact State.ctrGet_bumpCtx _ _ _ hctx
        · exact Str.takeWord_next_reg g w n _ true hb hj
        · exact Str.takeWord_next_pred g w n _ true hne hp hj
    case mark =>
      exact congrArg Host.Outcome.next (wsPopOp_runs h hl rfl hkind hmay _)
    case rewind =>
      have ht := (State.OnlyWs.refl s q).wsRewind
      exact ⟨_, congrArg Host.Outcome.next (wsPopOp_runs h hl rfl hkind hmay _),
        (State.wst_wsRewind s q).trans (Ws.rewind_of_marked hheld), ht.strAt_putStr h.strAt _, ht.mem⟩
    case release =>
      have ht := (State.OnlyWs.refl s q).onWs Ws.release
      have hq := (State.wst_onWs_same s q Ws.release).trans (Ws.release_of_marked hheld)
      exact ⟨_, congrArg Host.Outcome.next (wsPopOp_runs h hl rfl hkind hmay _), congrArg (·.releasePtr) hq,
        congrArg (·.markHeld) hq, ht.strAt_putStr h.strAt _, ht.mem⟩
    case unmarked =>
      refine ⟨fun hkind => ?_, fun hkind => ?_⟩
      · exact ⟨_, congrArg Host.Outcome.next (wsPopOp_runs h hl rfl hkind hmay _),
          (State.wst_wsRewind s q).trans (Ws.rewind_of_unmarked hfree),
          (State.OnlyWs.refl s q).wsRewind.strAt_putStr h.strAt _⟩
      · exact ⟨_, congrArg Host.Outcome.next (wsPopOp_runs h hl rfl hkind hmay _),
          (State.wst_onWs_same s q Ws.release).trans (Ws.release_of_unmarked hfree),
          ((State.OnlyWs.refl s q).onWs Ws.release).strAt_putStr h.strAt _⟩

end Machine
end Sys2Proof
end

section
/-! PROOFS. The clock: the Timebase counter and the package ID (14 R303, 19 R397), and that the functions over the state leave it.
Nearly all of the model writes other parts of the state alone.  Each rule says so of one function, from its branches: a branch is a
chain of functions whose rules stand above it.  Where a function has none, its rule is proved `by rfl`, not as `rfl`: `simp` then
proves the hypotheses of `clock_foldl` and its like by rewriting, and need not unfold the function to accept the proof. -/

namespace Sys2Proof
namespace Machine

/-- The count of the Timebase and the package ID. -/
def State.clock (s : State) : Nat × Nat := (s.tb.count, s.board.pkgId)

/-- The clock that the meaning of a message leaves. -/
def Act.clock : Act → Nat × Nat
  | .reply t _ _ => t.clock
  | .hold t _ => t.clock

section
variable (s : State)

/-! ### Records, branches and folds -/

@[simp] theorem State.clock_record (a b c d e f g h i j k l m n o p q r t u v w x y z a' b') :
    State.clock ⟨a, b, c, d, e, f, g, h, i, j, k, l, m, n, o, p, q, r, t, u, v, w, x, y, z, a', b'⟩ =
      (j.count, a.pkgId) := by rfl

@[simp] theorem State.clock_fields : (s.tb.count, s.board.pkgId) = s.clock := by rfl

@[simp] theorem Act.clock_reply (st : Status) (body : List Byte) : (Act.reply s st body).clock = s.clock := by rfl
@[simp] theorem Act.clock_hold (p : Phase) : (Act.hold s p).clock = s.clock := by rfl

@[simp] theorem State.clock_ite {p : Prop} [Decidable p] (t : State) :
    (if p then s else t).clock = if p then s.clock else t.clock := apply_ite State.clock p s t

@[simp] theorem Act.clock_ite {p : Prop} [Decidable p] (x y : Act) :
    (if p then x else y).clock = if p then x.clock else y.clock := apply_ite Act.clock p x y

/-- Acts one after another leave the clock where each of them does. -/
@[simp] theorem clock_foldl {α : Type} {f : State → α → State} (l : List α) (h : ∀ t a, (f t a).clock = t.clock) :
    (l.foldl f s).clock = s.clock := by
  induction l generalizing s with
  | nil => rfl
  | cons a l ih => exact (ih _).trans (h s a)

variable (c : Nat) (a : List Nat) (m : Msg)

/-! ### Counters, memory, faults and responses -/

@[simp] theorem State.freed_clock : s.freed.clock = s.clock := by rfl
@[simp] theorem State.bump_clock (c : Ctr) (n : Nat) : (s.bump c n).clock = s.clock := by rfl
@[simp] theorem State.bumpFlt_clock (c : Ctr) (n : Nat) : (s.bumpFlt c n).clock = s.clock := by rfl
@[simp] theorem State.bumpTb_clock (c : Ctr) (n : Nat) : (s.bumpTb c n).clock = s.clock := by rfl
@[simp] theorem State.bumpFw_clock (p : Nat) (c : Ctr) (n : Nat) : (s.bumpFw p c n).clock = s.clock := by rfl
@[simp] theorem State.bumpPart_clock (p : Nat) (c : Ctr) (n : Nat) : (s.bumpPart p c n).clock = s.clock := by rfl
@[simp] theorem State.bumpCtx_clock (c : Nat) (k : Ctr) (n : Nat) : (s.bumpCtx c k n).clock = s.clock := by rfl
@[simp] theorem State.onCtx_clock (c : Nat) (f : Ctx → Ctx) : (s.onCtx c f).clock = s.clock := by rfl
@[simp] theorem State.onPart_clock (p : Nat) (f : Part → Part) : (s.onPart p f).clock = s.clock := by rfl
@[simp] theorem State.onFw_clock (n : Nat) (f : Fwp → Fwp) : (s.onFw n f).clock = s.clock := by rfl
@[simp] theorem State.onWin_clock (w : Nat) (f : Win → Win) : (s.onWin w f).clock = s.clock := by rfl
@[simp] theorem State.emit_clock (o : Out) : (s.emit o).clock = s.clock := by rfl
@[simp] theorem State.writeAt_clock (a : Nat) (bs : List Byte) : (s.writeAt a bs).clock = s.clock := by rfl
@[simp] theorem State.onGate_clock (p g : Nat) (f : Gate → Gate) : (s.onGate p g f).clock = s.clock := by rfl
@[simp] theorem State.toll_clock (p g n : Nat) : (s.toll p g n).clock = s.clock := by rfl
@[simp] theorem State.tollWait_clock (p g : Nat) : (s.tollWait p g).clock = s.clock := by rfl
@[simp] theorem State.charge_clock (c a n : Nat) : (s.charge c a n).clock = s.clock := by unfold State.charge; split <;> simp
@[simp] theorem State.heldWait_clock (c a : Nat) : (s.heldWait c a).clock = s.clock := by unfold State.heldWait; split <;> simp
@[simp] theorem State.takePoison_clock (a n : Nat) : (s.takePoison a n).2.clock = s.clock := by rfl
@[simp] theorem State.raise_clock (source kind cls ctx dtype detail : Nat) :
    (s.raise source kind cls ctx dtype detail).clock = s.clock := by rfl
@[simp] theorem State.raiseRated_clock (source kind ctx dtype detail : Nat) :
    (s.raiseRated source kind ctx dtype detail).clock = s.clock := by unfold State.raiseRated; split <;> simp
@[simp] theorem State.irq_clock (w : Nat) : (s.irq w).clock = s.clock := by unfold State.irq; split <;> simp
@[simp] theorem State.complete_clock (m : Msg) (handler : Nat) (st : Status) (body : List Byte) :
    (s.complete m handler st body).clock = s.clock := by unfold State.complete; split <;> simp
@[simp] theorem State.setPhase_clock (m : Msg) (p : Phase) : (s.setPhase m p).clock = s.clock := by rfl

/-! ### Messages (16, 17) -/

@[simp] theorem Act.ok_clock (fs : List (Fld × Nat)) : (Act.ok s fs).clock = s.clock := by rfl
@[simp] theorem Act.no_clock (st : Status) : (Act.no s st).clock = s.clock := by rfl
@[simp] theorem State.route_clock (m : Msg) : (s.route m).clock = s.clock := by unfold State.route; split <;> simp
@[simp] theorem State.takeRequest_clock (w eid : Nat) (raw : List Byte) : (s.takeRequest w eid raw).clock = s.clock := by
  unfold State.takeRequest; split <;> simp

@[simp] theorem routeAll_clock (l : List Msg) : (routeAll l s).clock = s.clock := by
  induction l generalizing s with
  | nil => rfl
  | cons m r ih => simp [routeAll, ih]

/-- A message moves the clock only where its meaning does. -/
@[simp] theorem commitMsg_clock (w op : Nat) {k : Msg → State → Act} (h : ∀ m, (k m s).clock = s.clock) :
    (commitMsg w op k s).clock = s.clock := by
  unfold commitMsg
  split
  · rfl
  · next m _ =>
    have hm := h m
    split_ifs
    · rfl
    · simp
    · split <;> simp_all

@[simp] theorem withReq_clock (fs : List Fld) {k : List Nat → Msg → State → Act} (m : Msg)
    (h : ∀ a, (k a m s).clock = s.clock) : (withReq fs k m s).clock = s.clock := by
  unfold withReq
  split
  · rfl
  · exact h _

@[simp] theorem checked_clock (cs : List (Bool × Status)) {k : Act} (h : k.clock = s.clock) :
    (checked cs s k).clock = s.clock := by
  unfold checked
  split
  · rfl
  · exact h

@[simp] theorem withCtx_clock (fs : List Fld) {k : Nat → List Nat → Msg → State → Act} (m : Msg)
    (h : ∀ c a, (k c a m s).clock = s.clock) : (withCtx fs k m s).clock = s.clock := by
  unfold withCtx
  split
  · rfl
  · rfl
  · exact checked_clock _ _ (h ..)

@[simp] theorem State.closeSession_clock (id : Nat) : (s.closeSession id).clock = s.clock := by rfl
@[simp] theorem State.openSession_clock (wins : List Nat) (version : Nat) (features : Nat) (mgmt takeover : Bool) :
    (s.openSession wins version features mgmt takeover).2.clock = s.clock := by unfold State.openSession; split <;> simp
@[simp] theorem sessionOpen_clock : (sessionOpen a m s).clock = s.clock := by unfold sessionOpen; split <;> simp
@[simp] theorem sessionClose_clock : (sessionClose a m s).clock = s.clock := by rfl
@[simp] theorem windowConfig_clock : (windowConfig a m s).clock = s.clock := by unfold windowConfig; split <;> simp
@[simp] theorem featuresMsg_clock : (featuresMsg a m s).clock = s.clock := by rfl

/-! ### Khan (12) -/

@[simp] theorem State.khanFail_clock (c : Nat) (f : KhanFail) : (s.khanFail c f).clock = s.clock := by
  unfold State.khanFail; split <;> simp

@[simp] theorem State.khanAlloc_clock (c tier die engine n : Nat) : (s.khanAlloc c tier die engine n).2.clock = s.clock := by
  unfold State.khanAlloc
  dsimp only
  split
  · exact State.khanFail_clock ..
  · rfl
  · rfl

/-- The state that an allocation leaves, whatever it found. -/
theorem State.clock_of_khanAlloc {s t : State} {c tier die engine n : Nat} {o : Option (Nat × Nat)}
    (h : s.khanAlloc c tier die engine n = (o, t)) : t.clock = s.clock := by
  simpa [h] using s.khanAlloc_clock c tier die engine n

@[simp] theorem State.khanFree_clock (h : Nat) : (s.khanFree h).clock = s.clock := by rfl
@[simp] theorem State.khanDrop_clock (h : Nat) : (s.khanDrop h).clock = s.clock := by unfold State.khanDrop; split <;> simp

/-! ### Waystations and Tally Posts (11, 12) -/

@[simp] theorem State.onWs_clock (w : Nat) (f : Ws → Ws) : (s.onWs w f).clock = s.clock := by rfl
@[simp] theorem State.wsPush_clock (w : Nat) (vs : List Nat) : (s.wsPush w vs).clock = s.clock := by rfl

/-- A read of a queue finds nothing, or leaves the clock.  `State.wsPop` is unfolded as in `State.wsPop_cases`. -/
theorem State.wsPop_clock_cases (w : Nat) :
    s.wsPop w = (s, none) ∨ ∃ v t, s.wsPop w = (t, some v) ∧ t.clock = s.clock := by
  generalize hdef : State.wsPop = f
  delta State.wsPop at hdef
  subst hdef
  beta_reduce
  extract_lets y
  split
  · exact .inl rfl
  · refine .inr ⟨_, _, rfl, ?_⟩
    split
    · simp
    · rfl

@[simp] theorem State.wsPop_clock (w : Nat) : (s.wsPop w).1.clock = s.clock := by
  rcases s.wsPop_clock_cases w with h | ⟨v, t, h, ht⟩
  · rw [h]
  · rw [h]
    exact ht

/-- `State.wsPopN` over any way to read a queue: the kernel does not evaluate a read that it does not know. -/
def readsOf (read : State → Nat → State × Option (Nat × Bool)) : Nat → State → Nat → State × List (Nat × Bool)
  | 0, s, _ => (s, [])
  | n + 1, s, w =>
    match read s w with
    | (s1, none) => (s1, [])
    | (s1, some v) =>
      let r := readsOf read n s1 w
      (r.1, v :: r.2)

theorem State.wsPopN_eq_readsOf : State.wsPopN = readsOf State.wsPop := by
  delta State.wsPopN readsOf
  rfl

theorem readsOf_clock {read : State → Nat → State × Option (Nat × Bool)} (hread : ∀ s w, (read s w).1.clock = s.clock)
    (n w : Nat) : (readsOf read n s w).1.clock = s.clock := by
  induction n generalizing s with
  | zero => rfl
  | succ n ih =>
    have hs := hread s w
    unfold readsOf
    split <;> simp_all

@[simp] theorem State.wsPopN_clock (n w : Nat) : (State.wsPopN n s w).1.clock = s.clock := by
  rw [State.wsPopN_eq_readsOf]
  exact readsOf_clock s State.wsPop_clock n w

@[simp] theorem State.wsRewind_clock (w : Nat) : (s.wsRewind w).clock = s.clock := by rfl
@[simp] theorem wsCreate_clock : (wsCreate c a m s).clock = s.clock := by
  unfold wsCreate; dsimp only; (repeat' split) <;> simp
@[simp] theorem wsDestroy_clock : (wsDestroy c a m s).clock = s.clock := by unfold wsDestroy; split <;> simp
@[simp] theorem wsQuery_clock : (wsQuery c a m s).clock = s.clock := by unfold wsQuery; split <;> simp
@[simp] theorem wsPopMsg_clock : (wsPopMsg c a m s).clock = s.clock := by unfold wsPopMsg; split <;> simp
@[simp] theorem wsReleaseMsg_clock : (wsReleaseMsg c a m s).clock = s.clock := by unfold wsReleaseMsg; split <;> simp
@[simp] theorem wsRewindMsg_clock : (wsRewindMsg c a m s).clock = s.clock := by unfold wsRewindMsg; split <;> simp
@[simp] theorem wsPushMsg_clock (m : Msg) : (wsPushMsg m s).clock = s.clock := by unfold wsPushMsg; dsimp only; split <;> simp
@[simp] theorem wsMiddleMove_clock (w : Nat) (toHead : Bool) (poison : Option Nat) :
    (wsMiddleMove w toHead poison s).clock = s.clock := by unfold wsMiddleMove; dsimp only; split <;> simp
@[simp] theorem State.onPost_clock (t : Nat) (f : Post → Post) : (s.onPost t f).clock = s.clock := by rfl
@[simp] theorem State.onStr_clock (c h i : Nat) (f : Str → Str) : (s.onStr c h i f).clock = s.clock := by rfl
@[simp] theorem State.postWake_clock (t v : Nat) : (s.postWake t v).clock = s.clock := by simp [State.postWake]
@[simp] theorem State.arrive_clock (t pkg v : Nat) (phase : Option Nat) : (s.arrive t pkg v phase).1.clock = s.clock := by
  unfold State.arrive; dsimp only; split_ifs <;> simp
@[simp] theorem tallyArrival_clock (t pkg v : Nat) (phase : Option Nat) :
    (tallyArrival t pkg v phase s).clock = s.clock := by simp [tallyArrival]
@[simp] theorem tallyDeadline_clock (t : Nat) : (tallyDeadline t s).clock = s.clock := by
  unfold tallyDeadline; dsimp only; split <;> simp
@[simp] theorem tallyLateDelivery_clock (t : Nat) : (tallyLateDelivery t s).clock = s.clock := by
  unfold tallyLateDelivery; dsimp only; split <;> simp
@[simp] theorem tallyConfig_clock : (tallyConfig c a m s).clock = s.clock := by unfold tallyConfig; split <;> simp
@[simp] theorem tallyArriveMsg_clock : (tallyArriveMsg c a m s).clock = s.clock := by unfold tallyArriveMsg; split <;> simp
@[simp] theorem tallyQuery_clock : (tallyQuery c a m s).clock = s.clock := by unfold tallyQuery; split <;> simp

@[simp] theorem khanAllocMsg_clock : (khanAllocMsg c a m s).clock = s.clock := by
  unfold khanAllocMsg
  split
  · refine checked_clock _ _ ?_
    split_ifs
    · rfl
    all_goals split <;> next ht => exact State.clock_of_khanAlloc ht
  · rfl

@[simp] theorem State.badFree_clock (c a : Nat) : (s.badFree c a).clock = s.clock := by rfl
@[simp] theorem khanFreeMsg_clock : (khanFreeMsg c a m s).clock = s.clock := by
  unfold khanFreeMsg; (repeat' split) <;> simp
@[simp] theorem khanQuota_clock : (khanQuota c a m s).clock = s.clock := by unfold khanQuota; split <;> simp
@[simp] theorem ctrReply_clock (l : List Ctr) (c : Nat) (a : List Nat) (m : Msg) :
    (ctrReply l c a m s).clock = s.clock := by rfl
@[simp] theorem khanAllocEngine_clock (c engine tier die n : Nat) :
    (khanAllocEngine c engine tier die n s).clock = s.clock := by unfold khanAllocEngine; split <;> simp
@[simp] theorem khanFreeEngine_clock (c pool a : Nat) : (khanFreeEngine c pool a s).clock = s.clock := by
  unfold khanFreeEngine; (repeat' split) <;> simp
@[simp] theorem khanRefill_clock (c pool cls : Nat) : (khanRefill c pool cls s).clock = s.clock := by
  unfold khanRefill; split <;> simp
@[simp] theorem khanChunkMove_clock (c pool chunk cls : Nat) : (khanChunkMove c pool chunk cls s).clock = s.clock := by
  unfold khanChunkMove; dsimp only; split <;> simp

/-! ### Messages to other packages (13) -/

@[simp] theorem State.onOut_clock (k : Nat) (f : PathOut → PathOut) : (s.onOut k f).clock = s.clock := by rfl
@[simp] theorem State.onIn_clock (k : Nat) (f : PathIn → PathIn) : (s.onIn k f).clock = s.clock := by rfl
@[simp] theorem State.sendMsg_clock (dst type ctx : Nat) (fields : List Nat) (body : List Byte) :
    (s.sendMsg dst type ctx fields body).clock = s.clock := by unfold State.sendMsg; split <;> simp
@[simp] theorem State.sendOpen_clock (dst type ctx : Nat) (fields : List Nat) (data : List Byte) :
    (s.sendOpen dst type ctx fields data).clock = s.clock := by simp [State.sendOpen]
@[simp] theorem State.sendGuide_clock (ctx : Nat) (fields : List Nat) (l : List Nat) :
    (s.sendGuide ctx fields l).clock = s.clock := by simp [State.sendGuide]

/-! ### KV pages (03) -/

@[simp] theorem State.copyCol_clock (c src dst : Nat) : (s.copyCol c src dst).clock = s.clock := by rfl

@[simp] theorem State.granWrite_clock (g : List Nat) (off : Nat) (bs : List Byte) : (s.granWrite g off bs).clock = s.clock := by
  refine clock_foldl _ _ (fun t z => ?_)
  split <;> simp

@[simp] theorem State.ownStrings_clock (c : Nat) (mma sfn : Bool) :
    (s.ownStrings c mma sfn).clock = s.clock := by simp [State.ownStrings]
@[simp] theorem State.ownLayout_clock (c n : Nat) : (s.ownLayout c n).clock = s.clock := by rfl
@[simp] theorem State.ownKilled_clock (c : Nat) : (s.ownKilled c).clock = s.clock := by rfl
@[simp] theorem State.kvRow_clock (c q p n : Nat) (m : Model) (f : Nat × Nat × Nat) :
    (s.kvRow c q p n m f).clock = s.clock := by unfold State.kvRow; split <;> simp
@[simp] theorem State.kvToken_clock (c q p : Nat) : (s.kvToken c q p).clock = s.clock := by
  unfold State.kvToken; dsimp only; (repeat' split) <;> simp
@[simp] theorem State.kvTokens_clock (c q p n : Nat) : (s.kvTokens c q p n).clock = s.clock := by
  unfold State.kvTokens; split <;> simp
@[simp] theorem State.onSeq_clock (q : Nat) (f : Seq → Seq) : (s.onSeq q f).clock = s.clock := by rfl
@[simp] theorem State.borrow_clock (c lender base : Nat) : (s.borrow c lender base).clock = s.clock := by rfl

@[simp] theorem State.farPlace_clock (c n : Nat) (poolOnly : Bool) {ask : State → Option (Nat × Nat) × State}
    (hask : ∀ t, (ask t).2.clock = t.clock) : (s.farPlace c n poolOnly ask).2.clock = s.clock := by
  have hs := hask s
  unfold State.farPlace
  dsimp only
  split
  · rfl
  · split
    · rfl
    · split
      · split <;> simp_all
      · rfl

@[simp] theorem State.colOut_clock (c n : Nat) (p : FarPlace) : (s.colOut c n p).clock = s.clock := by
  unfold State.colOut; split <;> simp
@[simp] theorem State.colBack_clock (c n : Nat) (g : List Nat) : (s.colBack c n g).clock = s.clock := by
  unfold State.colBack; dsimp only; split <;> simp
@[simp] theorem State.clearFar_clock (c : Nat) : (s.clearFar c).clock = s.clock := by simp [State.clearFar]

/-! ### Double-buffered tables (04, 09, 10) -/

@[simp] theorem State.mergeChange_clock (c : Nat) (m : Msg) : (s.mergeChange c m).clock = s.clock := by rfl

@[simp] theorem State.fitCopies_clock (c n : Nat) : (s.fitCopies c n).2.clock = s.clock := by
  unfold State.fitCopies
  split
  · rfl
  · split
    · simp
    · next ht =>
      have ht := State.clock_of_khanAlloc ht
      split
      · simp
      · next hu => simpa using (State.clock_of_khanAlloc hu).trans ht

@[simp] theorem State.growCopies_clock (c : Nat) : (s.growCopies c).clock = s.clock := by
  unfold State.growCopies; dsimp only; split <;> simp
@[simp] theorem State.flip_clock (c t : Nat) : (s.flip c t).clock = s.clock := by simp [State.flip]
@[simp] theorem State.takeChange_clock (c : Nat) (m : Msg) : (s.takeChange c m).clock = s.clock := by rfl
@[simp] theorem State.freeDeferred_clock (c : Nat) : (s.freeDeferred c).clock = s.clock := by simp [State.freeDeferred]
@[simp] theorem State.releaseOld_clock (c t : Nat) : (s.releaseOld c t).clock = s.clock := by
  unfold State.releaseOld; dsimp only; split <;> simp
@[simp] theorem State.flipIdle_clock (c t : Nat) : (s.flipIdle c t).clock = s.clock := by unfold State.flipIdle; split <;> simp
@[simp] theorem softChange_clock (c : Nat) (m : Msg) : (softChange c m s).clock = s.clock := by
  unfold softChange; dsimp only; split <;> simp
@[simp] theorem State.guideChange_clock (c : Nat) (g : GuideChange) : (s.guideChange c g).clock = s.clock := by
  unfold State.guideChange; split <;> simp
@[simp] theorem State.flipAll_clock (c : Nat) : (s.flipAll c).clock = s.clock := by simp [State.flipAll]
@[simp] theorem generationRelease_clock (c t : Nat) : (generationRelease c t s).clock = s.clock := by
  unfold generationRelease; split <;> simp
@[simp] theorem tableReloadTimeout_clock (w : Nat) : (tableReloadTimeout w s).clock = s.clock := by
  unfold tableReloadTimeout; split <;> simp

/-! ### Configurations (04 to 06, 09, 10) -/

@[simp] theorem routeConfig_clock : (routeConfig c a m s).clock = s.clock := by
  unfold routeConfig; dsimp only; (repeat' split) <;> simp
@[simp] theorem routeBias_clock : (routeBias c a m s).clock = s.clock := by unfold routeBias; split <;> simp
@[simp] theorem dispatchConfig_clock : (dispatchConfig c a m s).clock = s.clock := by unfold dispatchConfig; split <;> simp
@[simp] theorem combineConfig_clock : (combineConfig c a m s).clock = s.clock := by unfold combineConfig; split <;> simp
@[simp] theorem routeQuery_clock : (routeQuery c a m s).clock = s.clock := by unfold routeQuery; split <;> simp
@[simp] theorem routeStats_clock : (routeStats c a m s).clock = s.clock := by unfold routeStats; split <;> simp
@[simp] theorem returnTimeoutMsg_clock : (returnTimeoutMsg c a m s).clock = s.clock := by
  unfold returnTimeoutMsg; split <;> simp
@[simp] theorem sfnLoad_clock : (sfnLoad c a m s).clock = s.clock := by unfold sfnLoad; split <;> simp
@[simp] theorem sfnQuery_clock : (sfnQuery c a m s).clock = s.clock := by rfl
@[simp] theorem layoutLoad_clock : (layoutLoad c a m s).clock = s.clock := by unfold layoutLoad; split <;> simp
@[simp] theorem layoutQuery_clock : (layoutQuery c a m s).clock = s.clock := by unfold layoutQuery; split <;> simp

/-! ### Layers in flight (04 to 06) -/

@[simp] theorem State.onLayer_clock (c k : Nat) (f : Layer → Layer) : (s.onLayer c k f).clock = s.clock := by rfl
@[simp] theorem State.onMan_clock (c : Nat) (f : Manifest → Manifest) : (s.onMan c f).clock = s.clock := by rfl
@[simp] theorem State.setSlotGen_clock (c slot g : Nat) : (s.setSlotGen c slot g).clock = s.clock := by rfl
@[simp] theorem State.raiseOnce_clock (c which source kind dtype detail : Nat) :
    (s.raiseOnce c which source kind dtype detail).clock = s.clock := by unfold State.raiseOnce; split <;> simp
@[simp] theorem State.dropRank_clock (c k slot rank cause : Nat) : (s.dropRank c k slot rank cause).clock = s.clock := by rfl

end

end Machine
end Sys2Proof
end

section
/-! PROOFS. The clock through reception, residency, returns and the Layout Engine: every function leaves it. -/

namespace Sys2Proof
namespace Machine

section
variable (s : State) (c : Nat) (a : List Nat) (m : Msg)

/-! ### Reception (05) -/

@[simp] theorem State.onResid_clock (c : Nat) (f : Resid → Resid) : (s.onResid c f).clock = s.clock := by rfl
@[simp] theorem State.fetchRequest_clock (c l e i prio die : Nat) : (s.fetchRequest c l e i prio die).clock = s.clock := by
  unfold State.fetchRequest; dsimp only; (repeat' split) <;> simp
@[simp] theorem State.onRx_clock (c : Nat) (f : Rx → Rx) : (s.onRx c f).clock = s.clock := by rfl
@[simp] theorem State.handBatch_clock (c : Nat) (b : Batch) (d : Nat) : (s.handBatch c b d).clock = s.clock := by
  unfold State.handBatch; dsimp only; split <;> simp

@[simp] theorem handAll_clock (c : Nat) (l : List Batch) : (handAll c l s).clock = s.clock := by
  induction l generalizing s with
  | nil => rfl
  | cons b r ih =>
    unfold handAll
    split
    · split <;> simp [ih]
    · exact ih s

@[simp] theorem State.settleRow_clock (c l e i : Nat) : (s.settleRow c l e i).clock = s.clock := by
  unfold State.settleRow; split <;> simp
@[simp] theorem State.holdRx_clock (h : HeldRx) : (s.holdRx h).clock = s.clock := by rfl

@[simp] theorem State.noteNow_clock (src header : Nat) (entries : List Nat) : (s.noteNow src header entries).clock = s.clock := by
  unfold State.noteNow
  dsimp only
  split
  · rfl
  · split
    · rfl
    · rw [State.onRx_clock, clock_foldl _ _ fun t e => ?_]
      · rfl
      · split
        · rfl
        · split <;> simp

@[simp] theorem noteReceive_clock (src header : Nat) (entries : List Nat) :
    (noteReceive src header entries s).clock = s.clock := by unfold noteReceive; split <;> simp
@[simp] theorem State.sendRefusal_clock (bill code : Nat) :
    (s.sendRefusal bill code).clock = s.clock := by simp [State.sendRefusal]
@[simp] theorem State.acceptRow_clock (src bill : Nat) (data : List Byte) : (s.acceptRow src bill data).clock = s.clock := by
  unfold State.acceptRow; dsimp only; split <;> simp
@[simp] theorem State.rowGone_clock (c : Nat) (n : RxNote) (e i : Nat) : (s.rowGone c n e i).clock = s.clock := by
  unfold State.rowGone; split <;> simp

/-- The state in which a row that finds room was taken. -/
theorem State.rowNow_clock {s t : State} {src bill : Nat} {data : List Byte} (h : s.rowNow src bill data = some t) :
    t.clock = s.clock := by
  unfold State.rowNow at h
  dsimp only at h
  split at h
  · cases h
    rfl
  · split at h
    · split at h <;> cases h <;> simp
    · split at h
      · cases h
        simp
      · split at h
        · cases h
          simp
        · split at h
          · cases h
            simp
          · split at h
            · split at h <;> cases h <;> simp
            · split at h <;> cases h
              simp

@[simp] theorem rowReceive_clock (src bill : Nat) (data : List Byte) : (rowReceive src bill data s).clock = s.clock := by
  unfold rowReceive
  split_ifs
  · rfl
  · simp
  · cases h : s.rowNow src bill data with
    | none => simp
    | some t => exact State.rowNow_clock h

@[simp] theorem State.discardRows_clock (c : Nat) (p : RxRow → Bool) (k : Option Ctr) :
    (s.discardRows c p k).clock = s.clock := by unfold State.discardRows; split <;> simp
@[simp] theorem State.settleNote_clock (c : Nat) (n : RxNote) : (s.settleNote c n).clock = s.clock := by simp [State.settleNote]
@[simp] theorem State.retireNow_clock (src c epoch : Nat) : (s.retireNow src c epoch).clock = s.clock := by
  unfold State.retireNow; split <;> simp

theorem State.heldNow_clock {s t : State} {r : HeldRx} (h : s.heldNow r = some t) : t.clock = s.clock := by
  unfold State.heldNow at h
  split_ifs at h
  · exact State.rowNow_clock h
  · cases h
    simp
  · cases h
    simp

theorem State.serveOne_clock {s t : State} {l : List HeldRx} {blocked : List Nat} (h : s.serveOne l blocked = some t) :
    t.clock = s.clock := by
  induction l generalizing blocked with
  | nil => cases h
  | cons x r ih =>
    unfold State.serveOne at h
    split at h
    · exact ih h
    · split at h
      · next hx =>
        cases h
        simpa using State.heldNow_clock hx
      · exact ih h

@[simp] theorem serveHeld_clock (n : Nat) : (serveHeld n s).clock = s.clock := by
  induction n generalizing s with
  | zero => rfl
  | succ n ih =>
    unfold serveHeld
    split
    · next ht => exact (ih _).trans (State.serveOne_clock ht)
    · rfl

@[simp] theorem State.serveRx_clock : s.serveRx.clock = s.clock := by simp [State.serveRx]
@[simp] theorem batchWindowExpiry_clock (c l e i : Nat) : (batchWindowExpiry c l e i s).clock = s.clock := by
  unfold batchWindowExpiry; split <;> simp

@[simp] theorem answerFromDie_clock (die : Nat) (pad : Bool) (bill : Nat) (refusal : Option Nat) (row : List Nat) :
    (answerFromDie die pad bill refusal row s).clock = s.clock := by
  unfold answerFromDie; (repeat' split) <;> simp

@[simp] theorem retireNotice_clock (src c epoch : Nat) : (retireNotice src c epoch s).clock = s.clock := by
  unfold retireNotice; split <;> simp
@[simp] theorem incompleteNote_clock (c id : Nat) : (incompleteNote c id s).clock = s.clock := by
  unfold incompleteNote; split <;> simp
@[simp] theorem rxAreaAnnounce_clock (src c area : Nat) : (rxAreaAnnounce src c area s).clock = s.clock := by rfl

/-! ### Expert residency (07) -/

@[simp] theorem State.guideAll_clock (c : Nat) (g : GuideChange) : (s.guideAll c g).clock = s.clock := by simp [State.guideAll]
@[simp] theorem State.sendRemoval_clock (o l e i : Nat) : (s.sendRemoval o l e i).clock = s.clock := by simp [State.sendRemoval]
@[simp] theorem State.removeHere_clock (c l e i : Nat) : (s.removeHere c l e i).clock = s.clock := by
  unfold State.removeHere; dsimp only; split <;> simp
@[simp] theorem State.retire_clock (o l e i : Nat) : (s.retire o l e i).clock = s.clock := by
  unfold State.retire; split <;> simp
@[simp] theorem State.announce_clock (o l e i : Nat) (r : Replica) : (s.announce o l e i r).clock = s.clock := by
  unfold State.announce; split <;> simp
@[simp] theorem State.freeFrame_clock (o l e i : Nat) : (s.freeFrame o l e i).clock = s.clock := by
  unfold State.freeFrame; split <;> simp
@[simp] theorem State.askLot_clock (c : Nat) : (s.askLot c).2.clock = s.clock := by unfold State.askLot; split <;> simp

@[simp] theorem evictItems_clock (o : Nat) (here : List Nat → Nat) {ask : State → Option (Nat × Nat) × State}
    (hask : ∀ t, (ask t).2.clock = t.clock) (l : List (Nat × Nat × Victim)) (v : Evicted) :
    (evictItems o here ask l v s).2.clock = s.clock := by
  induction l generalizing v s with
  | nil => rfl
  | cons x r ih =>
    obtain ⟨a, b, w⟩ := x
    cases w with
    | frame l e i =>
      unfold evictItems
      split
      · exact ih ..
      · split <;> simp [ih]
    | col n =>
      have hp := s.farPlace_clock o (((s.ctx o).kv.col n).granules.length * granule) (s.colHint o n 0x3) hask
      unfold evictItems
      dsimp only
      split
      · exact ih ..
      · split <;> simp_all

@[simp] theorem State.evictOn_clock (o d n : Nat) : (s.evictOn o d n).2.clock = s.clock := by simp [State.evictOn]
@[simp] theorem State.refuseRows_clock (c l e i code : Nat) (handed : Bool) :
    (s.refuseRows c l e i code handed).clock = s.clock := by simp [State.refuseRows]
@[simp] theorem State.weightError_clock (c l e : Nat) : (s.weightError c l e).clock = s.clock := by
  unfold State.weightError; dsimp only; split <;> simp
@[simp] theorem State.reportUe_clock (c l e : Nat) : (s.reportUe c l e).clock = s.clock := by simp [State.reportUe]
@[simp] theorem State.unreadable_clock (o l e i : Nat) : (s.unreadable o l e i).clock = s.clock := by simp [State.unreadable]

@[simp] theorem fetchStart_clock (c l e i : Nat) : (fetchStart c l e i s).clock = s.clock := by
  unfold fetchStart
  extract_lets +onlyGivenNames -lift o
  split
  · rfl
  · split
    · rfl
    · split
      · simp
      · split
        · split <;> simp
        · split
          · simp
          · split
            · rfl
            · extract_lets +onlyGivenNames -lift n free ev s1 g s2
              have hev : s1.clock = s.clock := by
                unfold s1 ev
                split <;> simp
              split
              · simpa using hev
              · have h2 : s2.clock = s.clock := by simpa [s2] using hev
                split_ifs <;> simpa using h2

@[simp] theorem State.onSource_clock (o l e : Nat) (f : Source → Source) : (s.onSource o l e f).clock = s.clock := by rfl
@[simp] theorem State.replicaUe_clock (o l e copy i : Nat) : (s.replicaUe o l e copy i).clock = s.clock := by
  unfold State.replicaUe; split <;> simp
@[simp] theorem State.nextCopy_clock (o l e i : Nat) : (s.nextCopy o l e i).clock = s.clock := by
  unfold State.nextCopy; (repeat' split) <;> simp
@[simp] theorem State.sourceLost_clock (o l e i : Nat) : (s.sourceLost o l e i).clock = s.clock := by
  unfold State.sourceLost; split <;> simp

@[simp] theorem fetchChunk_clock (c l e i : Nat) (bad : Bool) : (fetchChunk c l e i bad s).clock = s.clock := by
  unfold fetchChunk
  extract_lets +onlyGivenNames -lift o
  split
  · rfl
  · extract_lets +onlyGivenNames -lift n src len
    split
    · rfl
    · extract_lets +onlyGivenNames -lift held
      split
      · simp
      · extract_lets +onlyGivenNames -lift at_ poison part worse
        split
        · extract_lets s0 s1
          have h0 : s0.clock = s.clock := by unfold s0; split <;> simp
          have h1 : s1.clock = s0.clock := by unfold s1; split <;> simp
          simp [h1, h0]
        · split
          · have hpoison : poison.2.clock = s.clock := by unfold poison; split <;> simp
            simp [hpoison]
          · extract_lets s1
            split <;> simp [s1]

@[simp] theorem State.rebuildMirror_clock (o l e : Nat) : (s.rebuildMirror o l e).clock = s.clock := by
  unfold State.rebuildMirror; split <;> simp
@[simp] theorem State.reloaded_clock (c l e : Nat) : (s.reloaded c l e).clock = s.clock := by simp [State.reloaded]
@[simp] theorem State.reloadDone_clock (o l e : Nat) : (s.reloadDone o l e).clock = s.clock := by
  unfold State.reloadDone; split <;> simp
@[simp] theorem State.reloadHere_clock (o l e die : Nat) :
    (s.reloadHere o l e die).clock = s.clock := by simp [State.reloadHere]
@[simp] theorem fetchRequestCmd_clock (c l e i prio die : Nat) : (fetchRequestCmd c l e i prio die s).clock = s.clock := by
  unfold fetchRequestCmd; split <;> simp
@[simp] theorem State.fetched_clock (o : Nat) (f : Fetch) : (s.fetched o f).clock = s.clock := by
  unfold State.fetched; split <;> simp
@[simp] theorem State.handShared_clock (o : Nat) : (s.handShared o).clock = s.clock := by simp [State.handShared]
@[simp] theorem fetchComplete_clock (c l e i : Nat) : (fetchComplete c l e i s).clock = s.clock := by
  unfold fetchComplete; dsimp only; (repeat' split) <;> simp

/-! ### Placement of replicas (07) -/

@[simp] theorem State.orderOne_clock (c l e : Nat) (zero : Bool) : (s.orderOne c l e zero).clock = s.clock := by
  unfold State.orderOne; dsimp only; split <;> simp

@[simp] theorem orderUp_clock (c l e w : Nat) (zero : Bool) (n : Nat) : (orderUp c l e w zero n s).clock = s.clock := by
  induction n generalizing s with
  | zero => rfl
  | succ n ih => simp [orderUp, ih]

@[simp] theorem dropDown_clock (c l e w n : Nat) : (dropDown c l e w n s).clock = s.clock := by
  induction n generalizing s with
  | zero => rfl
  | succ n ih => unfold dropDown; split <;> simp [ih]

@[simp] theorem State.orderPlan_clock (c : Nat) (zero : Bool) (k w : Nat) :
    (s.orderPlan c zero k w).clock = s.clock := by simp [State.orderPlan]
@[simp] theorem State.planReplicas_clock (c : Nat) (zero : Bool) : (s.planReplicas c zero).clock = s.clock := by
  unfold State.planReplicas; split <;> simp
@[simp] theorem State.syncShares_clock (c : Nat) : (s.syncShares c).clock = s.clock := by simp [State.syncShares]
@[simp] theorem State.hintOne_clock (c l e kind v : Nat) : (s.hintOne c l e kind v).2.clock = s.clock := by
  unfold State.hintOne; dsimp only; split_ifs <;> simp

@[simp] theorem hintRange_clock (c l kind v : Nat) (es : List Nat) (a h : Nat) :
    (hintRange c l kind v es a h s).2.2.clock = s.clock := by
  induction es generalizing a h s with
  | nil => rfl
  | cons e r ih => simp [hintRange, ih]

@[simp] theorem State.retryHints_clock (c : Nat) : (s.retryHints c).clock = s.clock := by simp [State.retryHints]
@[simp] theorem State.startMirrors_clock (c : Nat) : (s.startMirrors c).clock = s.clock := by simp [State.startMirrors]
@[simp] theorem expertHint_clock : (expertHint c a m s).clock = s.clock := by unfold expertHint; split <;> simp
@[simp] theorem planPeriod_clock (c : Nat) : (planPeriod c s).clock = s.clock := by
  unfold planPeriod; dsimp only; split <;> simp
@[simp] theorem heatReport_clock (src c level : Nat) (heats : List (Nat × Nat)) :
    (heatReport src c level heats s).clock = s.clock := by unfold heatReport; split <;> simp
@[simp] theorem State.writeEntry_clock (o l e i : Nat) (r : Replica) : (s.writeEntry o l e i r).clock = s.clock := by
  unfold State.writeEntry; split <;> simp
@[simp] theorem State.takePrimary_clock (o l e : Nat) (r : Replica) : (s.takePrimary o l e r).clock = s.clock := by
  unfold State.takePrimary; split <;> simp
@[simp] theorem State.newPrimary_clock (o l e pkg : Nat) : (s.newPrimary o l e pkg).clock = s.clock := by
  unfold State.newPrimary; split <;> simp
@[simp] theorem replicaEntry_clock (c l e i pkg die share : Nat) (active : Bool) :
    (replicaEntry c l e i pkg die share active s).clock = s.clock := by unfold replicaEntry; split <;> simp
@[simp] theorem State.settleAcks_clock (o : Nat) : (s.settleAcks o).clock = s.clock := by rfl
@[simp] theorem State.takeAck_clock (src c l e i : Nat) : (s.takeAck src c l e i).clock = s.clock := by rfl

@[simp] theorem State.sendAcks_clock (c : Nat) : (s.sendAcks c).clock = s.clock := by
  refine (clock_foldl _ _ (fun t k => ?_)).trans (State.onResid_clock ..)
  split
  · split <;> simp
  · rfl

@[simp] theorem guideRemoval_clock (c l e i : Nat) : (guideRemoval c l e i s).clock = s.clock := by
  unfold guideRemoval; split <;> simp
@[simp] theorem replicaDrain_clock (c l e i : Nat) : (replicaDrain c l e i s).clock = s.clock := by
  unfold replicaDrain; dsimp only; (repeat' split) <;> simp
@[simp] theorem State.leaveHome_clock (c pkg : Nat) : (s.leaveHome c pkg).clock = s.clock := by
  unfold State.leaveHome; split <;> simp
@[simp] theorem teardownAnnounce_clock (src c : Nat) : (teardownAnnounce src c s).clock = s.clock := by
  unfold teardownAnnounce; split <;> simp
@[simp] theorem State.movePrimary_clock (o l e d : Nat) : (s.movePrimary o l e d).clock = s.clock := by
  unfold State.movePrimary; split <;> simp

@[simp] theorem State.dieLost_clock (d c : Nat) : (s.dieLost d c).clock = s.clock := by
  unfold State.dieLost
  split
  · rfl
  · extract_lets me fs gone s1 s2 s3 s4
    have h3 : s3.clock = s.clock := by simp [s3, s2, s1]
    split <;> simp [s4, h3]

@[simp] theorem ucieDown_clock (port : Nat) : (ucieDown port s).clock = s.clock := by unfold ucieDown; split <;> simp
@[simp] theorem residencyPolicy_clock : (residencyPolicy c a m s).clock = s.clock := by unfold residencyPolicy; split <;> simp
@[simp] theorem residencyQuery_clock : (residencyQuery c a m s).clock = s.clock := by unfold residencyQuery; split <;> simp
@[simp] theorem expertReload_clock : (expertReload c a m s).clock = s.clock := by
  unfold expertReload; dsimp only; (repeat' split) <;> simp

/-! ### Returns and combine (06) -/

@[simp] theorem State.trimSoft_clock : s.trimSoft.clock = s.clock := by unfold State.trimSoft; split <;> simp

theorem State.claimCol_clock {s t : State} {c l p col : Nat} {b : Bool} (h : s.claimCol c l b p col = some t) :
    t.clock = s.clock := by
  unfold State.claimCol at h
  dsimp only at h
  split_ifs at h <;> cases h
  · rfl
  · simp

theorem claimAll_clock {s t : State} {c l p : Nat} {b : Bool} {gs : List Nat} (h : claimAll c l b p gs s = some t) :
    t.clock = s.clock := by
  induction gs generalizing s with
  | nil =>
    cases h
    rfl
  | cons g r ih =>
    unfold claimAll at h
    split at h
    · cases h
    · next hg => exact (ih h).trans (State.claimCol_clock hg)

@[simp] theorem State.freeCol_clock (c k col : Nat) : (s.freeCol c k col).clock = s.clock := by rfl
@[simp] theorem State.freeRow_clock (c l : Nat) (b : Bool) (slot : Nat) :
    (s.freeRow c l b slot).clock = s.clock := by simp [State.freeRow]
@[simp] theorem State.freeBays_clock (c k : Nat) : (s.freeBays c k).clock = s.clock := by simp [State.freeBays]
@[simp] theorem State.releaseSoft_clock (c k : Nat) : (s.releaseSoft c k).clock = s.clock := by rfl
@[simp] theorem State.combineNow_clock (c : Nat) (b : Bill) (k : Nat) (row : List Nat) :
    (s.combineNow c b k row).clock = s.clock := by rfl
@[simp] theorem State.drainGroup_clock (c l : Nat) (b : Bool) (g : Nat) :
    (s.drainGroup c l b g).clock = s.clock := by simp [State.drainGroup]
@[simp] theorem State.spillGroup_clock (c l : Nat) (b : Bool) (g : Nat) :
    (s.spillGroup c l b g).clock = s.clock := by simp [State.spillGroup]

theorem State.claimGroup_clock {s t : State} {c l g : Nat} {b : Bool} (h : s.claimGroup c l b g = some t) :
    t.clock = s.clock := by
  unfold State.claimGroup at h
  dsimp only at h
  split at h
  · cases h
  · next ht =>
    split_ifs at h
    cases h
    exact claimAll_clock ht

@[simp] theorem State.drainHeld_clock (c l : Nat) (b : Bool) : (s.drainHeld c l b).clock = s.clock := by simp [State.drainHeld]

@[simp] theorem serveClaims_clock (n : Nat) : (serveClaims n s).clock = s.clock := by
  induction n generalizing s with
  | zero => rfl
  | succ n ih =>
    unfold serveClaims
    split
    · rfl
    · split
      · next ht => simpa [ih] using State.claimGroup_clock ht
      · rfl

@[simp] theorem State.combine_clock (c : Nat) (b : Bill) (conv : Bool) (row : List Nat) :
    (s.combine c b conv row).clock = s.clock := by
  unfold State.combine
  dsimp only
  split_ifs
  · simp
  · simp
  · simp
  all_goals
    split
    · next ht => simpa using State.claimGroup_clock ht
    · simp

@[simp] theorem State.onLand_clock (c : Nat) (z : LandBuf) (f : LandBuf → LandBuf) : (s.onLand c z f).clock = s.clock := by rfl
@[simp] theorem State.setLanding_clock (c : Nat) (z : LandBuf) (i v : Nat) : (s.setLanding c z i v).clock = s.clock := by
  unfold State.setLanding; split <;> simp
@[simp] theorem State.dropLand_clock (c : Nat) (z : LandBuf) : (s.dropLand c z).clock = s.clock := by simp [State.dropLand]
@[simp] theorem State.checkQuarantine_clock (c : Nat) (z : LandBuf) : (s.checkQuarantine c z).clock = s.clock := by
  unfold State.checkQuarantine; split <;> simp
@[simp] theorem State.logTimeout_clock (c : Nat) (z : LandBuf) (detail : Nat) : (s.logTimeout c z detail).clock = s.clock := by
  unfold State.logTimeout; split <;> simp

@[simp] theorem loseRows_clock (c : Nat) (z : LandBuf) (l : List (Nat × Nat)) : (loseRows c z l s).clock = s.clock := by
  induction l generalizing s with
  | nil => rfl
  | cons w r ih =>
    unfold loseRows
    split
    · exact ih s
    · split <;> simp [ih]

@[simp] theorem State.expire_clock (c : Nat) (z : LandBuf) (p : Outstanding → Bool) : (s.expire c z p).clock = s.clock := by
  unfold State.expire; split <;> simp
@[simp] theorem State.expireFor_clock (b : Bill) : (s.expireFor b).clock = s.clock := by simp [State.expireFor]
@[simp] theorem State.takeLive_clock (b : Bill) (row : Option (List Nat)) : (s.takeLive b row).clock = s.clock := by
  unfold State.takeLive; dsimp only; (repeat' split) <;> simp

@[simp] theorem State.takeReturn_clock (src bill : Nat) (row : Option (List Nat)) :
    (s.takeReturn src bill row).clock = s.clock := by
  unfold State.takeReturn; dsimp only; (repeat' split) <;> simp

@[simp] theorem bayWaitSpill_clock (c l : Nat) (b : Bool) (g : Nat) : (bayWaitSpill c l b g s).clock = s.clock := by
  unfold bayWaitSpill; split <;> simp
@[simp] theorem returnTimeout_clock (c l : Nat) (b : Bool) (dst index : Nat) :
    (returnTimeout c l b dst index s).clock = s.clock := by simp [returnTimeout]
@[simp] theorem landingFree_clock (c epoch l : Nat) (b : Bool) : (landingFree c epoch l b s).clock = s.clock := by
  unfold landingFree; (repeat' split) <;> simp
@[simp] theorem quarantineExpiry_clock (c epoch l : Nat) (b : Bool) : (quarantineExpiry c epoch l b s).clock = s.clock := by
  unfold quarantineExpiry; (repeat' split) <;> simp
@[simp] theorem State.emptySlot_clock (c l : Nat) (b : Bool) (slot : Nat) : (s.emptySlot c l b slot).clock = s.clock := by
  unfold State.emptySlot; dsimp only; split <;> simp
@[simp] theorem State.holdSet_clock (c k : Nat) (b : Bool) : (s.holdSet c k b).clock = s.clock := by
  unfold State.holdSet; dsimp only; split <;> simp

@[simp] theorem State.residWrite_clock (c l slot fmt : Nat) (row : List Nat) :
    (s.residWrite c l slot fmt row).clock = s.clock := by
  refine clock_foldl _ _ (fun t z => ?_)
  split <;> simp

@[simp] theorem State.completeLayer_clock (c l : Nat) (b : Bool) : (s.completeLayer c l b).clock = s.clock := by
  unfold State.completeLayer; dsimp only; split <;> simp
@[simp] theorem fusedPass_clock (c l : Nat) (b : Bool) (slot : Nat) : (fusedPass c l b slot s).clock = s.clock := by
  unfold fusedPass; dsimp only; split <;> simp

/-! ### The Layout Engine (10) -/

@[simp] theorem State.putElem_clock (base ebits e v : Nat) : (s.putElem base ebits e v).clock = s.clock := by
  unfold State.putElem; split <;> simp

@[simp] theorem State.putScalar_clock (t : State) (k : LayCmd) (w : Writers Nat) : (s.putScalar t k w).clock = t.clock := by
  unfold State.putScalar
  dsimp only
  split_ifs
  · split <;> simp
  all_goals simp

@[simp] theorem State.putBlock_clock (t : State) (k : LayCmd) (w : Writers (Nat × List Nat)) :
    (s.putBlock t k w).clock = t.clock := by
  unfold State.putBlock
  dsimp only
  split
  · rfl
  · split
    · split <;> simp
    · simp

@[simp] theorem State.layRun_clock (k : LayCmd) : (s.layRun k).state.clock = s.clock := by
  unfold State.layRun
  split <;> simp

@[simp] theorem State.layUndef_clock (k : LayCmd) : (s.layUndef k).clock = s.clock := by
  unfold State.layUndef
  dsimp only
  split
  · refine (clock_foldl _ _ (fun t e => ?_)).trans (by simp)
    split <;> simp
  · simp

@[simp] theorem State.layArrive_clock (k : LayCmd) (v : Nat) : (s.layArrive k v).clock = s.clock := by
  unfold State.layArrive; split <;> simp

@[simp] theorem State.layDone_clock (c : Nat) (k : LayCmd) : (s.layDone c k).clock = s.clock := by
  unfold State.layDone
  dsimp only
  split <;> simp

@[simp] theorem State.layReject_clock (c : Nat) (k : LayCmd) (status : Nat) :
    (s.layReject c k status).clock = s.clock := by simp [State.layReject]
@[simp] theorem State.layCancel_clock (c : Nat) (k : LayCmd) : (s.layCancel c k).clock = s.clock := by
  unfold State.layCancel; split <;> simp
@[simp] theorem State.layFault_clock (c : Nat) (k : LayCmd) (a : Nat) : (s.layFault c k a).clock = s.clock := by
  unfold State.layFault; split <;> simp
@[simp] theorem State.layoutAnswer_clock (c : Nat) (st : Status) : (s.layoutAnswer c st).clock = s.clock := by
  unfold State.layoutAnswer; split <;> simp
@[simp] theorem State.killCmds_clock (c : Nat) (p : Cmd → Bool) : (s.killCmds c p).clock = s.clock := by simp [State.killCmds]

end

end Machine
end Sys2Proof
end

section
/-! PROOFS. The clock through the ends of work, boot, firmware, memory tiers, faults and health: every function leaves it. -/

namespace Sys2Proof
namespace Machine

section
variable (s : State) (c : Nat) (a : List Nat) (m : Msg)

/-! ### Ends of units of work (06, 08, 10, 13, 15) -/

@[simp] theorem State.onLanes_clock (c : Nat) (f : Lanes → Lanes) : (s.onLanes c f).clock = s.clock := by rfl
@[simp] theorem State.unqueue_clock (c id : Nat) : (s.unqueue c id).clock = s.clock := by simp [State.unqueue]
@[simp] theorem State.retireLaunch_clock (c : Nat) (l : Launch) (st : Nat) : (s.retireLaunch c l st).clock = s.clock := by
  unfold State.retireLaunch; split <;> simp
@[simp] theorem State.onCore_clock (n : Nat) (f : Core → Core) : (s.onCore n f).clock = s.clock := by rfl
@[simp] theorem State.finishCore_clock (n : Nat) : (s.finishCore n).clock = s.clock := by
  unfold State.finishCore; dsimp only; split <;> simp
@[simp] theorem State.settleCores_clock : s.settleCores.clock = s.clock := by unfold State.settleCores; split <;> simp
@[simp] theorem State.finishLaunch_clock (c : Nat) (l : Launch) (st : Nat) : (s.finishLaunch c l st).clock = s.clock := by
  unfold State.finishLaunch; split <;> simp
@[simp] theorem State.settleDying_clock : s.settleDying.clock = s.clock := by simp [State.settleDying]
@[simp] theorem State.killLaunch_clock (c id st : Nat) : (s.killLaunch c id st).clock = s.clock := by
  unfold State.killLaunch; split <;> simp
@[simp] theorem State.stringFault_clock (c id i : Nat) : (s.stringFault c id i).clock = s.clock := by
  unfold State.stringFault; split <;> simp
@[simp] theorem State.releaseHeld_clock (c : Nat) : (s.releaseHeld c).clock = s.clock := by simp [State.releaseHeld]
@[simp] theorem State.quarantine_clock (c : Nat) : (s.quarantine c).clock = s.clock := by simp [State.quarantine]
@[simp] theorem State.restoreEntry_clock (e : Entry) : (s.restoreEntry e).clock = s.clock := by
  unfold State.restoreEntry; split <;> simp
@[simp] theorem State.endPlans_clock (c : Nat) : (s.endPlans c).clock = s.clock := by simp [State.endPlans]
@[simp] theorem State.killStep_clock (c : Nat) : (s.killStep c).clock = s.clock := by
  unfold State.killStep; dsimp only; split <;> simp
@[simp] theorem State.onColl_clock (c g id : Nat) (f : Coll → Coll) : (s.onColl c g id f).clock = s.clock := by rfl
@[simp] theorem State.releaseColl_clock (k : Coll) : (s.releaseColl k).clock = s.clock := by simp [State.releaseColl]
@[simp] theorem State.undefine_clock (a n : Nat) : (s.undefine a n).clock = s.clock := by rfl
@[simp] theorem State.answerLaunch_clock (c g id : Nat) (st : Status) : (s.answerLaunch c g id st).clock = s.clock := by
  unfold State.answerLaunch; split <;> simp
@[simp] theorem State.dropColl_clock (c g id : Nat) (st : Status) : (s.dropColl c g id st).clock = s.clock := by
  unfold State.dropColl; split <;> simp
@[simp] theorem State.endColl_clock (c g id st : Nat) : (s.endColl c g id st).clock = s.clock := by
  unfold State.endColl; split <;> simp
@[simp] theorem State.sendCtl_clock (c dst g id slab index ctl status : Nat) :
    (s.sendCtl c dst g id slab index ctl status).clock = s.clock := by simp [State.sendCtl]
@[simp] theorem State.killColl_clock (c g id : Nat) : (s.killColl c g id).clock = s.clock := by
  unfold State.killColl; split <;> simp
@[simp] theorem State.killWork_clock (c : Nat) : (s.killWork c).clock = s.clock := by simp [State.killWork]

/-! ### Teardown and halts (15) -/

@[simp] theorem State.abortMsgs_clock (c : Nat) (st : Status) : (s.abortMsgs c st).clock = s.clock := by simp [State.abortMsgs]
@[simp] theorem State.clearShares_clock (c : Nat) : (s.clearShares c).clock = s.clock := by rfl
@[simp] theorem State.passFrame_clock (j : Nat) (f : Frame) : (s.passFrame j f).clock = s.clock := by
  unfold State.passFrame; dsimp only; split <;> simp
@[simp] theorem State.passImages_clock (c : Nat) : (s.passImages c).clock = s.clock := by
  unfold State.passImages; split <;> simp
@[simp] theorem State.tearDown_clock (c : Nat) : (s.tearDown c).clock = s.clock := by unfold State.tearDown; split <;> simp
@[simp] theorem State.haltPart_clock (p : Nat) : (s.haltPart p).clock = s.clock := by unfold State.haltPart; split <;> simp
@[simp] theorem State.killAll_clock : s.killAll.clock = s.clock := by simp [State.killAll]
@[simp] theorem State.fwLost_clock (n : Nat) : (s.fwLost n).clock = s.clock := by unfold State.fwLost; split <;> simp

/-! ### Boot and training (19) -/

@[simp] theorem State.bootBundle_clock (f : Nat) (b : List Byte) : (s.bootBundle f b).clock = s.clock := by rfl
@[simp] theorem State.flashOk_clock (f : Nat) (ok : Bool) : (s.flashOk f ok).clock = s.clock := by rfl
@[simp] theorem bundleLoad_clock : (bundleLoad s).clock = s.clock := by
  unfold bundleLoad; (repeat' split) <;> simp
@[simp] theorem recoveryLen_clock (len : Nat) : (recoveryLen len s).clock = s.clock := by unfold recoveryLen; split <;> simp
@[simp] theorem State.checkReady_clock : s.checkReady.clock = s.clock := by unfold State.checkReady; split <;> simp
@[simp] theorem State.bootFailed_clock : s.bootFailed.clock = s.clock := by rfl
@[simp] theorem ucieTrain_clock (port modules dieBytes : Nat) : (ucieTrain port modules dieBytes s).clock = s.clock := by
  unfold ucieTrain; split <;> simp
@[simp] theorem hbmTrain_clock (stack : Nat) (ok : Bool) : (hbmTrain stack ok s).clock = s.clock := by
  unfold hbmTrain; split <;> simp
@[simp] theorem cxlTrain_clock (port : Nat) (ok : Bool) (bytes : Nat) : (cxlTrain port ok bytes s).clock = s.clock := by
  unfold cxlTrain; split <;> simp
@[simp] theorem t1Copy_clock : (t1Copy s).clock = s.clock := by unfold t1Copy; split <;> simp

/-! ### Management links (19) -/

@[simp] theorem State.onPath_clock (p : Nat) (f : MctpPath → MctpPath) : (s.onPath p f).clock = s.clock := by rfl

@[simp] theorem mctpPacket_clock (path src tag seq : Nat) (som eom : Bool) (body : List Byte) :
    (mctpPacket path src tag seq som eom body s).clock = s.clock := by
  unfold mctpPacket; dsimp only; (repeat' split) <;> simp

@[simp] theorem mctpTimeout_clock (path : Nat) : (mctpTimeout path s).clock = s.clock := by unfold mctpTimeout; split <;> simp
@[simp] theorem mctpSetEid_clock (path eid : Nat) : (mctpSetEid path eid s).clock = s.clock := by
  unfold mctpSetEid; split <;> simp
@[simp] theorem i3cEntdaa_clock (a : Nat) : (i3cEntdaa a s).clock = s.clock := by unfold i3cEntdaa; split <;> simp
@[simp] theorem mctpProta_clock (path : Nat) : (mctpProta path s).clock = s.clock := by
  unfold mctpProta; (repeat' split) <;> simp
@[simp] theorem State.spdmReply_clock (t : Nat) (r : SpdmReq) : (s.spdmReply t r).clock = s.clock := by rfl
@[simp] theorem spdm_clock (t : Nat) (r : SpdmReq) : (spdm t r s).clock = s.clock := by
  unfold spdm; (repeat' split) <;> simp

@[simp] theorem spdmDrain_clock (l : List (Nat × SpdmReq)) : (spdmDrain l s).clock = s.clock := by
  induction l generalizing s with
  | nil => rfl
  | cons x r ih => simp [spdmDrain, ih]

@[simp] theorem State.tap_clock (i : TapInstr) (driving released : Bool) : (s.tap i driving released).clock = s.clock := by rfl
@[simp] theorem jtagBypass_clock : (jtagBypass s).clock = s.clock := by unfold jtagBypass; split <;> simp
@[simp] theorem jtagIdcode_clock : (jtagIdcode s).clock = s.clock := by unfold jtagIdcode; split <;> simp
@[simp] theorem jtagSample_clock (pins : Nat) : (jtagSample pins s).clock = s.clock := by unfold jtagSample; split <;> simp
@[simp] theorem jtagOnlyInReset_clock (i : TapInstr) (driving released : Bool) :
    (jtagOnlyInReset i driving released s).clock = s.clock := by unfold jtagOnlyInReset; split <;> simp

/-! ### Firmware processors (16) -/

@[simp] theorem completeAll_clock (l : List Msg) (h : Nat) (st : Status) :
    (completeAll l h st s).clock = s.clock := by simp [completeAll]
@[simp] theorem State.restart_clock (n cause : Nat) (keep : Option Msg) : (s.restart n cause keep).clock = s.clock := by
  unfold State.restart; split_ifs <;> simp
@[simp] theorem watchdogExpiry_clock (n : Nat) : (watchdogExpiry n s).clock = s.clock := by
  unfold watchdogExpiry; dsimp only; split <;> simp
@[simp] theorem fwpException_clock (n : Nat) (memErr : Bool) : (fwpException n memErr s).clock = s.clock := by
  unfold fwpException; split <;> simp
@[simp] theorem State.setAct_clock (a : ActSt) : (s.setAct a).clock = s.clock := by rfl
@[simp] theorem State.defer_clock : s.defer.clock = s.clock := by rfl
@[simp] theorem State.advance_clock (keep : Option Msg) : (s.advance keep).clock = s.clock := by
  unfold State.advance; split <;> simp
@[simp] theorem activationResume_clock : (activationResume s).clock = s.clock := by unfold activationResume; split <;> simp
@[simp] theorem State.restartAll_clock : s.restartAll.clock = s.clock := by simp [State.restartAll]
@[simp] theorem waitE0_clock : (waitE0 s).clock = s.clock := by unfold waitE0; split <;> simp
@[simp] theorem State.loadImage_clock (n : Nat) : (s.loadImage n).clock = s.clock := by unfold State.loadImage; split <;> simp
@[simp] theorem State.stewardBack_clock : s.stewardBack.clock = s.clock := by simp [State.stewardBack]
@[simp] theorem State.onPort_clock (p : Nat) (f : Port → Port) : (s.onPort p f).clock = s.clock := by rfl
@[simp] theorem State.realign_clock : s.realign.clock = s.clock := by
  unfold State.realign; (repeat' split) <;> simp
@[simp] theorem State.wayfinderBack_clock : s.wayfinderBack.clock = s.clock := by
  unfold State.wayfinderBack; dsimp only; split <;> simp
@[simp] theorem restartComplete_clock (n : Nat) : (restartComplete n s).clock = s.clock := by
  unfold restartComplete; split <;> simp
@[simp] theorem bundleProven_clock : (bundleProven s).clock = s.clock := by unfold bundleProven; split <;> simp
@[simp] theorem fwActivate_clock : (fwActivate a m s).clock = s.clock := by unfold fwActivate; split <;> simp
@[simp] theorem fwWithdraw_clock : (fwWithdraw a m s).clock = s.clock := by unfold fwWithdraw; split <;> simp
@[simp] theorem fwQuery_clock : (fwQuery a m s).clock = s.clock := by rfl
@[simp] theorem fwpRestart_clock : (fwpRestart a m s).clock = s.clock := by unfold fwpRestart; split <;> simp
@[simp] theorem fwpWatchdog_clock : (fwpWatchdog a m s).clock = s.clock := by unfold fwpWatchdog; split <;> simp

@[simp] theorem logRead_clock : (logRead a m s).clock = s.clock := by
  unfold logRead
  split
  · exact checked_clock _ _ rfl
  · rfl

@[simp] theorem traceMask_clock : (traceMask a m s).clock = s.clock := by unfold traceMask; split <;> simp

/-! ### Memory tiers (11) -/

@[simp] theorem State.memUe_clock (c a : Nat) : (s.memUe c a).clock = s.clock := by rfl
@[simp] theorem tierQuery_clock : (tierQuery c a m s).clock = s.clock := by rfl
@[simp] theorem State.seqHint_clock (c q kind : Nat) : (s.seqHint c q kind).2.clock = s.clock := by
  unfold State.seqHint; dsimp only; split_ifs <;> simp
@[simp] theorem State.applyHeld_clock (c : Nat) : (s.applyHeld c).clock = s.clock := by simp [State.applyHeld]

@[simp] theorem moveCols_clock (c lender : Nat) (l : List Nat) : (moveCols c lender l s).clock = s.clock := by
  induction l generalizing s with
  | nil => rfl
  | cons n r ih => unfold moveCols; split <;> simp [ih]

@[simp] theorem moveSources_clock (c : Nat) (b : Borrowed) (l : List Nat) : (moveSources c b l s).clock = s.clock := by
  induction l generalizing s with
  | nil => rfl
  | cons k r ih =>
    unfold moveSources
    split
    · exact ih s
    · split <;> simp [ih]

@[simp] theorem State.evacuate_clock (c : Nat) (l : Borrowed) : (s.evacuate c l).clock = s.clock := by simp [State.evacuate]
@[simp] theorem State.recallHere_clock (c lender base : Nat) : (s.recallHere c lender base).clock = s.clock := by
  unfold State.recallHere; split <;> simp
@[simp] theorem memHint_clock : (memHint c a m s).clock = s.clock := by unfold memHint; split <;> simp
@[simp] theorem lendConfig_clock : (lendConfig a m s).clock = s.clock := by unfold lendConfig; split <;> simp
@[simp] theorem lotRequest_clock (lender borrower c base : Nat) : (lotRequest lender borrower c base s).clock = s.clock := by
  unfold lotRequest; split <;> simp
@[simp] theorem lotRecall_clock (lender c base : Nat) : (lotRecall lender c base s).clock = s.clock := by
  unfold lotRecall; (repeat' split) <;> simp
@[simp] theorem recallOverdue_clock (base : Nat) : (recallOverdue base s).clock = s.clock := by
  unfold recallOverdue; split <;> simp
@[simp] theorem State.wakeLotWait_clock : s.wakeLotWait.clock = s.clock := by rfl
@[simp] theorem lotRelease_clock (lender c base : Nat) : (lotRelease lender c base s).clock = s.clock := by
  unfold lotRelease; (repeat' split) <;> simp

@[simp] theorem kvEviction_clock (c : Nat) (grant : Option (Nat × Nat)) : (kvEviction c grant s).clock = s.clock := by
  unfold kvEviction
  extract_lets +onlyGivenNames -lift x want
  split
  · rfl
  · extract_lets +onlyGivenNames -lift ask r done
    have hask (t : State) : (ask t).2.clock = t.clock := by
      unfold ask
      split
      · rfl
      · dsimp only
        split <;> simp
    simp [r, hask]

@[simp] theorem returnCols_clock (c d : Nat) (l : List Nat) : (returnCols c d l s).2.clock = s.clock := by
  induction l generalizing s with
  | nil => rfl
  | cons n r ih =>
    unfold returnCols
    dsimp only
    split
    · exact ih s
    · split <;> simp [ih]

@[simp] theorem kvFarReturn_clock (c : Nat) : (kvFarReturn c s).clock = s.clock := by
  unfold kvFarReturn; dsimp only; split <;> simp
@[simp] theorem memRead_clock (src c a n : Nat) (poison : Bool) : (memRead src c a n poison s).clock = s.clock := by
  unfold memRead; split <;> simp
@[simp] theorem memWriteIn_clock (a : Nat) (data : List Byte) : (memWriteIn a data s).clock = s.clock := by
  unfold memWriteIn; split <;> simp
@[simp] theorem memAtomic_clock (src c a v : Nat) (float : Bool) : (memAtomic src c a v float s).clock = s.clock := by
  unfold memAtomic; split <;> simp
@[simp] theorem cxlTimeout_clock (a : Nat) : (cxlTimeout a s).clock = s.clock := by unfold cxlTimeout; split <;> simp

@[simp] theorem fwStage_clock : (fwStage a m s).clock = s.clock := by
  unfold fwStage
  split
  · dsimp only
    split
    · rfl
    · exact checked_clock _ _ rfl
  · rfl

@[simp] theorem flashWritten_clock : (flashWritten s).clock = s.clock := by unfold flashWritten; split <;> simp

/-! ### The Fault Collector (18) -/

@[simp] theorem State.haltAll_clock : s.haltAll.clock = s.clock := by simp [State.haltAll]
@[simp] theorem State.stopC4_clock : s.stopC4.clock = s.clock := by simp [State.stopC4]
@[simp] theorem State.classAction_clock (m : FaultMsg) : (s.classAction m).clock = s.clock := by
  unfold State.classAction; split <;> simp
@[simp] theorem State.latch_clock (m : FaultMsg) : (s.latch m).clock = s.clock := by unfold State.latch; split <;> simp
@[simp] theorem State.enqueue_clock (m : FaultMsg) : (s.enqueue m).clock = s.clock := by unfold State.enqueue; split <;> simp
@[simp] theorem State.collect_clock (m : FaultMsg) : (s.collect m).clock = s.clock := by simp [State.collect]
@[simp] theorem State.found_clock (f : FoundFault) : (s.found f).clock = s.clock := by unfold State.found; split <;> simp
@[simp] theorem faultTake_clock (f : Option FoundFault) : (faultTake f s).clock = s.clock := by
  unfold faultTake; dsimp only; (repeat' split) <;> simp
@[simp] theorem State.store_clock (m : FaultMsg) : (s.store m).clock = s.clock := by rfl
@[simp] theorem State.rearm_clock (m : FaultMsg) : (s.rearm m).clock = s.clock := by unfold State.rearm; split <;> simp
@[simp] theorem State.drainOne_clock (e : Nat × FaultMsg) : (s.drainOne e).clock = s.clock := by
  unfold State.drainOne; split <;> simp
@[simp] theorem faultDrain_clock : (faultDrain s).clock = s.clock := by unfold faultDrain; split <;> simp
@[simp] theorem faultRead_clock : (faultRead a m s).clock = s.clock := by unfold faultRead; split <;> simp
@[simp] theorem faultWindow_clock : (faultWindow a m s).clock = s.clock := by unfold faultWindow; split <;> simp
@[simp] theorem State.countIn_clock (x : CountWin) : (s.countIn x).clock = s.clock := by unfold State.countIn; split <;> simp
@[simp] theorem correctedError_clock (source : Nat) (a : Option Nat) : (correctedError source a s).clock = s.clock := by
  unfold correctedError; (repeat' split) <;> simp
@[simp] theorem windowClose_clock (source : Nat) : (windowClose source s).clock = s.clock := by rfl

/-! ### Health and power (18) -/

@[simp] theorem State.moveSets_clock : s.moveSets.clock = s.clock := by rfl
@[simp] theorem State.relevel_clock (q : Nat) : (s.relevel q).clock = s.clock := by
  unfold State.relevel; dsimp only; split <;> simp
@[simp] theorem State.shutdown_clock : s.shutdown.clock = s.clock := by
  unfold State.shutdown; (repeat' split) <;> simp
@[simp] theorem State.noteEmergency_clock (before : Bool) : (s.noteEmergency before).clock = s.clock := by
  unfold State.noteEmergency; split <;> simp
@[simp] theorem State.settle_clock (b : State) : (s.settle b).clock = s.clock := by simp [State.settle]
@[simp] theorem State.onQuarter_clock (q : Nat) (f : Quarter → Quarter) : (s.onQuarter q f).clock = s.clock := by rfl
@[simp] theorem State.throttleTrigger_clock : s.throttleTrigger.clock = s.clock := by rfl

@[simp] theorem throttleN_clock (high : Bool) : (throttleN high s).clock = s.clock := by
  unfold throttleN
  split
  · rfl
  · rw [State.settle_clock, State.throttleTrigger_clock]
    rfl

@[simp] theorem State.senseQuarter_clock (q : Nat) (r : PaceReading) :
    (s.senseQuarter q r).clock = s.clock := by simp [State.senseQuarter]
@[simp] theorem State.moveTogether_clock (p : SkewPair) : (s.moveTogether p).clock = s.clock := by
  unfold State.moveTogether; dsimp only; split <;> simp
@[simp] theorem State.answerSkew_clock (i : Nat) : (s.answerSkew i).clock = s.clock := by
  unfold State.answerSkew; split <;> simp
@[simp] theorem State.evalPairs_clock : s.evalPairs.clock = s.clock := by simp [State.evalPairs]
@[simp] theorem State.noteCalm_clock : s.noteCalm.clock = s.clock := by rfl

@[simp] theorem paceSample_clock (rs : List PaceReading) : (paceSample rs s).clock = s.clock := by
  unfold paceSample
  split
  · rfl
  · extract_lets +onlyGivenNames -lift s1 s2 s3
    have h1 : s1.clock = s.clock := clock_foldl _ _ fun t q => by split <;> simp
    have h3 : s3.clock = s.clock := by simpa [s3, s2] using h1
    split <;> exact h3

@[simp] theorem powerSample_clock (watts : Nat) (qs : List Nat) : (powerSample watts qs s).clock = s.clock := by
  unfold powerSample
  split
  · rfl
  · rw [State.settle_clock, State.throttleTrigger_clock]
    rfl

@[simp] theorem State.ageQuarter_clock (q : Nat) : (s.ageQuarter q).clock = s.clock := by
  unfold State.ageQuarter; dsimp only; split <;> simp
@[simp] theorem ageingHourly_clock : (ageingHourly s).clock = s.clock := by unfold ageingHourly; split <;> simp
@[simp] theorem healthQuery_clock : (healthQuery a m s).clock = s.clock := by rfl
@[simp] theorem quarterQuery_clock : (quarterQuery a m s).clock = s.clock := by rfl

/-! ### Timebase status (14) -/

@[simp] theorem State.elapse_clock (n : Nat) : (s.elapse n).clock = s.clock := by
  induction n generalizing s with
  | zero => rfl
  | succ n ih =>
    unfold State.elapse
    simp only [ih]
    split_ifs <;> simp

@[simp] theorem State.fabricComplete_clock : s.fabricComplete.clock = s.clock := by unfold State.fabricComplete; split <;> simp
@[simp] theorem fabricTimeout_clock : (fabricTimeout s).clock = s.clock := by unfold fabricTimeout; split <;> simp
@[simp] theorem timestampSend_clock (p : Nat) : (timestampSend p s).clock = s.clock := by unfold timestampSend; split <;> simp
@[simp] theorem timebaseHoldover_clock : (timebaseHoldover s).clock = s.clock := by unfold timebaseHoldover; split <;> simp
@[simp] theorem holdoverLog_clock : (holdoverLog s).clock = s.clock := by unfold holdoverLog; split <;> simp
@[simp] theorem timeQuery_clock : (timeQuery c a m s).clock = s.clock := by rfl

end

end Machine
end Sys2Proof
end

section
/-! PROOFS. The clock through partitions, models, sequences, steps and dispatch: every function leaves it. -/

namespace Sys2Proof
namespace Machine

section
variable (s : State) (c : Nat) (a : List Nat) (m : Msg)

/-! ### Partitions and contexts (15) -/

@[simp] theorem partConfig_clock : (partConfig a m s).clock = s.clock := by unfold partConfig; split <;> simp
@[simp] theorem partQuery_clock : (partQuery a m s).clock = s.clock := by unfold partQuery; split <;> simp
@[simp] theorem tollConfig_clock : (tollConfig a m s).clock = s.clock := by unfold tollConfig; split <;> simp
@[simp] theorem tollStats_clock : (tollStats a m s).clock = s.clock := by unfold tollStats; split <;> simp
@[simp] theorem State.partClear_clock (p : Nat) : (s.partClear p).clock = s.clock := by rfl
@[simp] theorem State.endResets_clock (p : Nat) : (s.endResets p).clock = s.clock := by
  unfold State.endResets; dsimp only; split <;> simp
@[simp] theorem partReset_clock : (partReset a m s).clock = s.clock := by unfold partReset; split <;> simp
@[simp] theorem ctxDestroy_clock : (ctxDestroy c a m s).clock = s.clock := by simp [ctxDestroy]
@[simp] theorem teardownFree_clock (c : Nat) : (teardownFree c s).clock = s.clock := by
  unfold teardownFree; dsimp only; split <;> simp
@[simp] theorem teardownStuck_clock (c : Nat) : (teardownStuck c s).clock = s.clock := by
  unfold teardownStuck; dsimp only; split <;> simp

@[simp] theorem ctxCreate_clock : (ctxCreate a m s).clock = s.clock := by
  unfold ctxCreate
  split
  · refine checked_clock _ _ ?_
    split
    · split <;> rfl
    · simp
  · rfl

@[simp] theorem ctxQuery_clock : (ctxQuery a m s).clock = s.clock := by unfold ctxQuery; split <;> simp
@[simp] theorem stepKill_clock : (stepKill c a m s).clock = s.clock := by unfold stepKill; split <;> simp
@[simp] theorem ctxResume_clock : (ctxResume c a m s).clock = s.clock := by rfl
@[simp] theorem slicePass_clock (p : Nat) : (slicePass p s).clock = s.clock := by unfold slicePass; split <;> simp
@[simp] theorem State.killSlice_clock (c t : Nat) : (s.killSlice c t).clock = s.clock := by
  unfold State.killSlice; split <;> simp
@[simp] theorem overrunDeadline_clock (p : Nat) : (overrunDeadline p s).clock = s.clock := by
  unfold overrunDeadline; split <;> simp

/-! ### The layout queue (10) -/

@[simp] theorem layoutRun_clock : (layoutRun a m s).clock = s.clock := by
  unfold layoutRun; dsimp only; (repeat' split) <;> simp
@[simp] theorem layoutStart_clock (c : Nat) : (layoutStart c s).clock = s.clock := by
  unfold layoutStart; dsimp only; (repeat' split) <;> simp
@[simp] theorem layoutComplete_clock (c i : Nat) (ue : Option Nat) : (layoutComplete c i ue s).clock = s.clock := by
  unfold layoutComplete; dsimp only; (repeat' split) <;> simp

/-! ### Models (07) -/

@[simp] theorem State.takeModel_clock (c : Nat) (m : Model) (src : Tbl Source) : (s.takeModel c m src).clock = s.clock := by rfl
@[simp] theorem modelLoad_clock : (modelLoad c a m s).clock = s.clock := by
  unfold modelLoad; dsimp only; (repeat' split) <;> simp
@[simp] theorem modelImages_clock : (modelImages c a m s).clock = s.clock := by unfold modelImages; split <;> simp
@[simp] theorem planSet_clock : (planSet c a m s).clock = s.clock := by unfold planSet; split <;> simp

/-! ### Sequences (03) -/

@[simp] theorem State.writeLists_clock (q : Nat) : (s.writeLists q).clock = s.clock := by rfl
@[simp] theorem State.writeFeed_clock (seg : Nat) (toks : List Nat) : (s.writeFeed seg toks).clock = s.clock := by rfl
@[simp] theorem State.freeSegs_clock (l : List (Nat × Nat)) : (s.freeSegs l).clock = s.clock := by simp [State.freeSegs]
@[simp] theorem State.freeSequence_clock (q : Nat) : (s.freeSequence q).clock = s.clock := by simp [State.freeSequence]
@[simp] theorem State.note_clock (c q flags : Nat) : (s.note c q flags).clock = s.clock := by rfl
@[simp] theorem State.leave_clock (q : Nat) : (s.leave q).clock = s.clock := by simp [State.leave]

@[simp] theorem unlessHeld_clock (c : Nat) {k : Act} (h : k.clock = s.clock) : (unlessHeld c s k).clock = s.clock := by
  unfold unlessHeld
  split
  · rfl
  · exact h

/-- The state in which an allocation for a sequence failed. -/
theorem State.clock_of_allocOr_inl {s t u : State} {c n : Nat} (h : s.allocOr t c n = .inl u) : u.clock = s.clock := by
  unfold State.allocOr at h
  split at h
  · cases h
  · split at h <;> cases h
    rfl

/-- The state that an allocation for a sequence leaves. -/
theorem State.clock_of_allocOr_inr {s t u : State} {c n a : Nat} (h : s.allocOr t c n = .inr (u, a)) : u.clock = t.clock := by
  unfold State.allocOr at h
  split at h
  · cases h
    rfl
  · split at h
    · next ha =>
      cases h
      exact State.clock_of_khanAlloc ha
    · cases h

@[simp] theorem State.seedFor_clock (c seed : Nat) : (s.seedFor c seed).2.clock = s.clock := by
  unfold State.seedFor; split <;> simp

@[simp] theorem seqOpen_clock : (seqOpen c a m s).clock = s.clock := by
  refine unlessHeld_clock _ _ ?_
  split
  · refine checked_clock _ _ ?_
    split
    · next ht => exact State.clock_of_allocOr_inl ht
    · next ht =>
      have ht := State.clock_of_allocOr_inr ht
      split
      · next hu => exact State.clock_of_allocOr_inl hu
      · next hu => simp [State.clock_of_allocOr_inr hu, ht]
  · rfl

@[simp] theorem seqFeed_clock : (seqFeed c a m s).clock = s.clock := by
  refine unlessHeld_clock _ _ ?_
  split
  · refine checked_clock _ _ ?_
    split
    · rfl
    · split
      · next ht => exact State.clock_of_allocOr_inl ht
      · next ht => simp [State.clock_of_allocOr_inr ht]
  · rfl

@[simp] theorem seqRetire_clock : (seqRetire c a m s).clock = s.clock := by unfold seqRetire; split <;> simp
@[simp] theorem State.raiseGen_clock (c : Nat) (e : Entry) : (s.raiseGen c e).clock = s.clock := by
  unfold State.raiseGen; split <;> simp
@[simp] theorem State.cancelSeq_clock (c q flags : Nat) : (s.cancelSeq c q flags).clock = s.clock := by
  unfold State.cancelSeq; split <;> simp

@[simp] theorem seqCancel_clock : (seqCancel c a m s).clock = s.clock := by
  refine unlessHeld_clock _ _ ?_
  split
  · refine checked_clock _ _ ?_
    split <;> simp
  · rfl

@[simp] theorem State.forkCol_clock (c n : Nat) : (s.forkCol c n).2.clock = s.clock := by
  unfold State.forkCol; dsimp only; (repeat' split) <;> simp

@[simp] theorem forkCols_clock (c : Nat) (l : List Nat) : (forkCols c l s).2.clock = s.clock := by
  induction l generalizing s with
  | nil => rfl
  | cons n r ih => simp [forkCols, ih]

@[simp] theorem seqFork_clock : (seqFork c a m s).clock = s.clock := by
  refine unlessHeld_clock _ _ ?_
  split
  · refine checked_clock _ _ ?_
    split_ifs
    · simp
    · split
      · next ht => exact State.clock_of_allocOr_inl ht
      · next ht => simp [State.clock_of_allocOr_inr ht]
  · rfl

@[simp] theorem seqQuery_clock : (seqQuery c a m s).clock = s.clock := by unfold seqQuery; split <;> simp
@[simp] theorem seqSetSampler_clock : (seqSetSampler c a m s).clock = s.clock := by unfold seqSetSampler; split <;> simp
@[simp] theorem stepConfig_clock : (stepConfig c a m s).clock = s.clock := by
  unfold stepConfig; dsimp only; (repeat' split) <;> simp
@[simp] theorem stepRecords_clock : (stepRecords c a m s).clock = s.clock := by simp [stepRecords]

/-! ### The Sampler (03) -/

@[simp] theorem logitRow_clock (c slot fmt : Nat) (logits : List Nat) : (logitRow c slot fmt logits s).clock = s.clock := by
  unfold logitRow; (repeat' split) <;> simp
@[simp] theorem manifestRead_clock (die c : Nat) : (manifestRead die c s).clock = s.clock := by
  unfold manifestRead; split <;> simp

/-! ### The step boundary (03) -/

@[simp] theorem State.commitPrefix_clock (c : Nat) (e : Entry) : (s.commitPrefix c e).clock = s.clock := by
  unfold State.commitPrefix; dsimp only; split <;> simp
@[simp] theorem State.moveSeq_clock (q : Nat) (o : Outcome) : (s.moveSeq q o).clock = s.clock := by
  unfold State.moveSeq; split <;> simp

@[simp] theorem State.commitEntry_clock (c epoch : Nat) (e : Entry) : (s.commitEntry c epoch e).1.clock = s.clock := by
  unfold State.commitEntry
  extract_lets losses s0 o q0 f deg old s1 s2 s3
  split
  · rfl
  · have h2 : s2.clock = s1.clock := by unfold s2; split <;> simp
    simp [s3, h2, s1, s0]

@[simp] theorem commitAll_clock (c epoch : Nat) (l : List Entry) : (commitAll c epoch l s).2.clock = s.clock := by
  induction l generalizing s with
  | nil => rfl
  | cons e r ih => simp [commitAll, ih]

@[simp] theorem State.writeRecord_clock (c : Nat) (body : List Byte) :
    (s.writeRecord c body).clock = s.clock := by simp [State.writeRecord]
@[simp] theorem State.commitStep_clock (c : Nat) (m : Manifest) :
    (s.commitStep c m).clock = s.clock := by simp [State.commitStep]
@[simp] theorem State.releaseLeavers_clock (c : Nat) : (s.releaseLeavers c).clock = s.clock := by simp [State.releaseLeavers]
@[simp] theorem State.copyRows_clock (c src dst r : Nat) : (s.copyRows c src dst r).clock = s.clock := by
  unfold State.copyRows; split <;> simp
@[simp] theorem State.copyAt_clock (c q : Nat) (ring : Bool) (die i : Nat) : (s.copyAt c q ring die i).clock = s.clock := by
  unfold State.copyAt; dsimp only; split <;> simp
@[simp] theorem State.grow_clock (c q n die : Nat) : (s.grow c q n die).clock = s.clock := by
  unfold State.grow; dsimp only; split <;> simp
@[simp] theorem State.select_clock (c q n : Nat) (shrunk : Bool) : (s.select c q n shrunk).2.clock = s.clock := by
  unfold State.select; dsimp only; split <;> simp
@[simp] theorem State.askEviction_clock (c : Nat) (w : Nat × Nat) : (s.askEviction c w).clock = s.clock := by rfl

@[simp] theorem growAll_clock (c chunk : Nat) (l : List Nat) (b : Nat) : (growAll c chunk l b s).2.2.clock = s.clock := by
  induction l generalizing b s with
  | nil => rfl
  | cons q r ih =>
    unfold growAll
    extract_lets +onlyGivenNames -lift e n0
    split
    · rfl
    · extract_lets +onlyGivenNames -lift d0 s1 n
      have h1 : s1.clock = s.clock := by
        unfold s1
        split <;> rfl
      clear_value n
      cases n <;> simp [ih, h1]

@[simp] theorem State.admitOne_clock (c q chunk die : Nat) (ms : List Node) :
    (s.admitOne c q chunk die ms).clock = s.clock := by simp [State.admitOne]

@[simp] theorem admitAll_clock (c chunk : Nat) (l : List Nat) (b : Nat) : (admitAll c chunk l b s).2.clock = s.clock := by
  induction l generalizing b s with
  | nil => rfl
  | cons q r ih =>
    unfold admitAll
    dsimp only
    split_ifs <;> simp [ih]

@[simp] theorem State.planRequests_clock (c : Nat) (m : Manifest) : (s.planRequests c m).clock = s.clock := by
  unfold State.planRequests
  dsimp only
  split
  · rfl
  · refine clock_foldl _ _ (fun t w => ?_)
    split
    · next hu => exact State.clock_of_khanAlloc hu
    · next hu => split <;> simp [State.clock_of_khanAlloc hu]

@[simp] theorem State.build_clock (c : Nat) (es : List Entry) : (s.build c es).clock = s.clock := by simp [State.build]

@[simp] theorem State.answerOpens_clock (c : Nat) : (s.answerOpens c).clock = s.clock := by
  refine clock_foldl _ _ fun t m => ?_
  split
  · dsimp only
    split <;> simp
  · rfl

@[simp] theorem State.phases34_clock (c : Nat) : (s.phases34 c).clock = s.clock := by simp [State.phases34]
@[simp] theorem State.buildOrWait_clock (c : Nat) : (s.buildOrWait c).clock = s.clock := by
  unfold State.buildOrWait; split <;> simp
@[simp] theorem stepBoundary_clock (c : Nat) : (stepBoundary c s).clock = s.clock := by
  unfold stepBoundary; dsimp only; (repeat' split) <;> simp

/-! ### The gate and the Selector (04) -/

@[simp] theorem hiddenRow_clock (die c epoch l : Nat) (b : Bool) (slot : Nat) (row : List Nat) :
    (hiddenRow die c epoch l b slot row s).clock = s.clock := by unfold hiddenRow; dsimp only; split <;> simp
@[simp] theorem residualRow_clock (die c epoch l : Nat) (b : Bool) (slot : Nat) (row : List Nat) :
    (residualRow die c epoch l b slot row s).clock = s.clock := by unfold residualRow; dsimp only; split <;> simp
@[simp] theorem gateLaunch_clock (c l : Nat) (b : Bool) : (gateLaunch c l b s).clock = s.clock := by
  unfold gateLaunch; dsimp only; split <;> simp
@[simp] theorem predictorLaunch_clock (c l : Nat) (b : Bool) : (predictorLaunch c l b s).clock = s.clock := by
  unfold predictorLaunch; dsimp only; split <;> simp
@[simp] theorem State.offer_clock (c l e : Nat) : (s.offer c l e).clock = s.clock := by unfold State.offer; split <;> simp
@[simp] theorem State.reserveSoft_clock (c l : Nat) (b : Bool) : (s.reserveSoft c l b).clock = s.clock := by
  unfold State.reserveSoft; dsimp only; split <;> simp
@[simp] theorem predictorComplete_clock (c l : Nat) (b : Bool) : (predictorComplete c l b s).clock = s.clock := by
  unfold predictorComplete; dsimp only; split <;> simp
@[simp] theorem State.writeHist_clock (c k : Nat) (b : Bool) : (s.writeHist c k b).clock = s.clock := by
  unfold State.writeHist; split <;> simp

@[simp] theorem tokenSelect_clock (c l : Nat) (b : Bool) (slot : Nat) : (tokenSelect c l b slot s).clock = s.clock := by
  unfold tokenSelect
  extract_lets +onlyGivenNames -lift x k y
  split
  · extract_lets +onlyGivenNames -lift early
    split
    · rfl
    · extract_lets +onlyGivenNames -lift cfg cols null rank order sel picks real left tie total gen bill bills fresh rec1 s1
        empty hits s2 s3
      have h3 : s3.clock = s2.clock := by
        unfold s3
        split <;> simp
      simp [h3, s2, s1]
  · rfl

/-! ### Seal, sort and injection (05) -/

@[simp] theorem planPublish_clock (c l : Nat) : (planPublish c l s).clock = s.clock := by
  unfold planPublish; dsimp only; split <;> simp
@[simp] theorem State.beginSeal_clock (c l : Nat) (b : Bool) : (s.beginSeal c l b).clock = s.clock := by
  unfold State.beginSeal; dsimp only; split <;> simp
@[simp] theorem State.sealDrop_clock (c k : Nat) (b : Bill) (cause : Nat) : (s.sealDrop c k b cause).clock = s.clock := by rfl
@[simp] theorem State.sealBill_clock (c l : Nat) (conv : Bool) (b : Bill) :
    (s.sealBill c l conv b).clock = s.clock := by simp [State.sealBill]
@[simp] theorem routeSeal_clock (c l : Nat) (b : Bool) : (routeSeal c l b s).clock = s.clock := by
  unfold routeSeal; dsimp only; split <;> simp
@[simp] theorem stallExpiry_clock (c l : Nat) (b : Bool) : (stallExpiry c l b s).clock = s.clock := by
  unfold stallExpiry; dsimp only; split <;> simp
@[simp] theorem sortSet_clock (c l : Nat) (b : Bool) : (sortSet c l b s).clock = s.clock := by
  unfold sortSet; dsimp only; split <;> simp
@[simp] theorem State.onSub_clock (c k dst i : Nat) (f : Sub → Sub) : (s.onSub c k dst i f).clock = s.clock := by rfl

theorem State.landing_clock {s t : State} {c l : Nat} {b : Bool} {m : Manifest} (h : s.landing c l b m = some t) :
    t.clock = s.clock := by
  unfold State.landing at h
  dsimp only at h
  split at h
  · cases h
    rfl
  · split at h
    · cases h
    · next hu =>
      cases h
      simpa using State.clock_of_khanAlloc hu

@[simp] theorem finalSeal_clock (c l : Nat) (b : Bool) (dst i : Nat) : (finalSeal c l b dst i s).clock = s.clock := by
  unfold finalSeal
  extract_lets +onlyGivenNames -lift k
  split
  · extract_lets +onlyGivenNames -lift y taken
    split
    · rfl
    · split
      · rfl
      · split
        · split <;> simp
        · next ht => simpa using State.landing_clock ht
  · rfl

@[simp] theorem subInject_clock (c l : Nat) (b : Bool) (dst i : Nat) : (subInject c l b dst i s).clock = s.clock := by
  unfold subInject; dsimp only; split <;> simp
@[simp] theorem subRelease_clock (c l : Nat) (b : Bool) (dst i : Nat) : (subRelease c l b dst i s).clock = s.clock := by
  unfold subRelease; dsimp only; split <;> simp

end

end Machine
end Sys2Proof
end

section
/-! PROOFS. The clock through the Scoring Array, the fabric and the host link: every function leaves it. -/

namespace Sys2Proof
namespace Machine

section
variable (s : State) (c : Nat) (a : List Nat) (m : Msg)

/-! ### Kernels, launches and cores (08) -/

@[simp] theorem detMode_clock : (detMode c a m s).clock = s.clock := by
  unfold detMode; dsimp only; (repeat' split) <;> simp
@[simp] theorem detQuery_clock : (detQuery c a m s).clock = s.clock := by rfl
@[simp] theorem arrayQuery_clock : (arrayQuery a m s).clock = s.clock := by rfl

@[simp] theorem kernelLoad_clock : (kernelLoad c a m s).clock = s.clock := by
  unfold kernelLoad
  split
  · refine checked_clock _ _ (checked_clock _ _ ?_)
    split
    · next ht => simpa using State.clock_of_khanAlloc ht
    · rfl
  · rfl

@[simp] theorem kernelUnload_clock : (kernelUnload c a m s).clock = s.clock := by
  unfold kernelUnload; (repeat' split) <;> simp
@[simp] theorem State.accept_clock (c : Nat) (l : Launch) : (s.accept c l).clock = s.clock := by
  unfold State.accept; split <;> simp
@[simp] theorem kernelLaunch_clock : (kernelLaunch a m s).clock = s.clock := by unfold kernelLaunch; split <;> simp
@[simp] theorem kernelStatus_clock : (kernelStatus c a m s).clock = s.clock := by
  unfold kernelStatus; (repeat' split) <;> simp
@[simp] theorem kernelKill_clock : (kernelKill c a m s).clock = s.clock := by unfold kernelKill; split <;> simp
@[simp] theorem launchStart_clock (c id : Nat) : (launchStart c id s).clock = s.clock := by unfold launchStart; split <;> simp
@[simp] theorem State.allWait_clock (c : Nat) (l : Launch) : (s.allWait c l).clock = s.clock := by rfl
@[simp] theorem stringPlace_clock (c id i : Nat) : (stringPlace c id i s).clock = s.clock := by
  unfold stringPlace; (repeat' split) <;> simp
@[simp] theorem State.launchUe_clock (c id i a : Nat) : (s.launchUe c id i a).clock = s.clock := by simp [State.launchUe]

@[simp] theorem arrayUe_clock (c core off : Nat) (str : Option (Nat × Nat)) (slot : Nat) :
    (arrayUe c core off str slot s).clock = s.clock := by
  unfold arrayUe; (repeat' split) <;> simp

@[simp] theorem correctedEvent_clock (source : Nat) (a c : Option Nat) : (correctedEvent source a c s).clock = s.clock := by
  unfold correctedEvent; split <;> simp
@[simp] theorem State.passStrings_clock (n : Nat) : (s.passStrings n).clock = s.clock := by simp [State.passStrings]
@[simp] theorem State.retireCore_clock (n : Nat) : (s.retireCore n).clock = s.clock := by
  unfold State.retireCore; dsimp only; split <;> simp
@[simp] theorem State.giveBack_clock (b : Option (Nat × Nat × Nat × Nat)) : (s.giveBack b).clock = s.clock := by
  unfold State.giveBack; split <;> simp
@[simp] theorem State.retrain_clock (p : Nat) (f : Port → Port) : (s.retrain p f).clock = s.clock := by
  unfold State.retrain; split <;> simp
@[simp] theorem State.repairLane_clock (lane : Nat) : (s.repairLane lane).clock = s.clock := by
  unfold State.repairLane; split <;> simp
@[simp] theorem State.repair_clock (source : Nat) : (s.repair source).clock = s.clock := by
  unfold State.repair; (repeat' split) <;> simp
@[simp] theorem lastingDeclare_clock (source : Nat) : (lastingDeclare source s).clock = s.clock := by
  unfold lastingDeclare; split <;> simp
@[simp] theorem coreTimeout_clock (phys : Nat) : (coreTimeout phys s).clock = s.clock := by unfold coreTimeout; split <;> simp

/-! ### String instructions on registers (08) -/

@[simp] theorem State.putStr_clock (c id i : Nat) (g : Str) : (s.putStr c id i g).clock = s.clock := by rfl

/-- A string's instruction moves the clock only where its meaning does. -/
@[simp] theorem runStr_clock (op c id i : Nat) {k : Launch → Str → Nat → State} (h : ∀ l g w, (k l g w).clock = s.clock) :
    (runStr op c id i k s).clock = s.clock := by
  unfold runStr
  split
  · split
    · exact h ..
    · rfl
  · rfl

@[simp] theorem laneOp_clock (op c id i : Nat) (f : Str → Nat → Str) :
    (laneOp op c id i f s).clock = s.clock := by simp [laneOp]
@[simp] theorem aluOp_clock (op c id i : Nat) (f : Nat → Nat → Nat) : (aluOp op c id i f s).clock = s.clock := by simp [aluOp]
@[simp] theorem blockTo_clock (c id i : Nat) : (blockTo c id i s).clock = s.clock := by simp [blockTo]
@[simp] theorem sfnOp_clock (c id i : Nat) : (sfnOp c id i s).clock = s.clock := by simp [sfnOp]
@[simp] theorem branch_clock (op c id i : Nat) (taken : Str → Nat → Bool) : (branch op c id i taken s).clock = s.clock := by
  unfold branch; split <;> simp
@[simp] theorem lshuf_clock (c id i : Nat) : (lshuf c id i s).clock = s.clock := by simp [lshuf]
@[simp] theorem claimItem_clock (c id i : Nat) : (claimItem c id i s).clock = s.clock := by simp [claimItem]

/-! ### String instructions on memory (08, 11) -/

@[simp] theorem State.chargeAll_clock (c n : Nat) (as : List Nat) :
    (s.chargeAll c n as).clock = s.clock := by simp [State.chargeAll]
@[simp] theorem State.loadUe_clock (c id i a : Nat) : (s.loadUe c id i a).clock = s.clock := by simp [State.loadUe]

@[simp] theorem load_clock (c id i : Nat) (ue : Option Nat) : (load c id i ue s).clock = s.clock := by
  refine runStr_clock _ _ _ _ _ fun _ g w => ?_
  dsimp only
  split
  · simp
  · split <;> simp

@[simp] theorem State.storeLane_clock (c z a v l : Nat) : (s.storeLane c z a v l).clock = s.clock := by
  unfold State.storeLane; split <;> simp

@[simp] theorem store_clock (c id i : Nat) : (store c id i s).clock = s.clock := by
  refine runStr_clock _ _ _ _ _ fun _ g w => ?_
  dsimp only
  split
  · simp
  · split <;> simp

@[simp] theorem atomicLane_clock (float : Bool) (a v : Nat) : (atomicLane float a v s).1.clock = s.clock := by rfl

@[simp] theorem atomicLanes_clock (float : Bool) (g : Str) (w : Nat) (l : List Nat) :
    (atomicLanes float g w l s).1.clock = s.clock := by
  induction l generalizing s with
  | nil => rfl
  | cons x r ih => simp [atomicLanes, ih]

@[simp] theorem atomicOp_clock (op : Nat) (float : Bool) (c id i : Nat) : (atomicOp op float c id i s).clock = s.clock := by
  refine runStr_clock _ _ _ _ _ fun _ g w => ?_
  dsimp only
  split
  · simp
  · split
    · simp
    · split <;> simp

@[simp] theorem State.laneData_clock (c id i lane v : Nat) (poison : Bool) :
    (s.laneData c id i lane v poison).clock = s.clock := by
  unfold State.laneData; (repeat' split) <;> simp

@[simp] theorem memReadData_clock (to_ : Reader) (data : List Byte) (poison : Bool) :
    (memReadData to_ data poison s).clock = s.clock := by unfold memReadData; split <;> simp
@[simp] theorem fence_clock (c id i : Nat) : (fence c id i s).clock = s.clock := by simp [fence]
@[simp] theorem tableLook_clock (c id i : Nat) : (tableLook c id i s).clock = s.clock := by simp [tableLook]

/-! ### The matrix unit (08) -/

@[simp] theorem mmaOp_clock (c id i : Nat) : (mmaOp c id i s).clock = s.clock := by simp [mmaOp]
@[simp] theorem accZero_clock (c id i : Nat) : (accZero c id i s).clock = s.clock := by simp [accZero]
@[simp] theorem accStore_clock (c id i : Nat) : (accStore c id i s).clock = s.clock := by simp [accStore]

/-! ### String instructions on Tally Posts and Waystations (11, 12) -/

@[simp] theorem tpArrive_clock (c id i : Nat) : (tpArrive c id i s).clock = s.clock := by
  refine runStr_clock _ _ _ _ _ fun _ g w => ?_
  split
  · simp
  · split
    · rfl
    · dsimp only
      split <;> simp

@[simp] theorem tpWait_clock (c id i : Nat) : (tpWait c id i s).clock = s.clock := by
  unfold tpWait; (repeat' split) <;> simp
@[simp] theorem wsPushStr_clock (c id i : Nat) : (wsPushStr c id i s).clock = s.clock := by
  unfold wsPushStr; (repeat' split) <;> simp

@[simp] theorem wsPopOp_clock (kind c id i : Nat) {k : Nat → Str → Nat → State} (h : ∀ q g w, (k q g w).clock = s.clock) :
    (wsPopOp kind c id i k s).clock = s.clock := by
  refine runStr_clock _ _ _ _ _ fun _ g w => ?_
  split
  · rfl
  · split
    · simp
    · dsimp only
      split
      · simp
      · exact h ..

@[simp] theorem State.underrun_clock (q : Nat) : (s.underrun q).clock = s.clock := by rfl
@[simp] theorem endStr_clock (c id i : Nat) : (endStr c id i s).clock = s.clock := by simp [endStr]

/-! ### Ports and flits (13) -/

@[simp] theorem portSignal_clock (p : Nat) : (portSignal p s).clock = s.clock := by unfold portSignal; split <;> simp
@[simp] theorem State.joinPackage_clock (pkg : Nat) : (s.joinPackage pkg).clock = s.clock := by
  unfold State.joinPackage; split <;> simp
@[simp] theorem portTrained_clock (p lanes : Nat) (spare : Bool) (peer : Nat) :
    (portTrained p lanes spare peer s).clock = s.clock := by unfold portTrained; split <;> simp
@[simp] theorem State.sendFlit_clock (p base : Nat) (payload : List Byte) :
    (s.sendFlit p base payload).clock = s.clock := by rfl
@[simp] theorem State.linkDown_clock (p : Nat) : (s.linkDown p).clock = s.clock := by simp [State.linkDown]
@[simp] theorem State.replayPort_clock (p : Nat) : (s.replayPort p).clock = s.clock := by
  unfold State.replayPort; dsimp only; split <;> simp
@[simp] theorem linkAckTimeout_clock (p : Nat) : (linkAckTimeout p s).clock = s.clock := by
  unfold linkAckTimeout; split <;> simp
@[simp] theorem State.takeFlit_clock (p : Nat) (bytes : List Byte) :
    (s.takeFlit p bytes).clock = s.clock := by simp [State.takeFlit]
@[simp] theorem flitReceive_clock (p corrected : Nat) (uncorrected : List Nat) (bytes : List Byte) :
    (flitReceive p corrected uncorrected bytes s).clock = s.clock := by unfold flitReceive; split <;> simp
@[simp] theorem State.startChunk_clock (p : Nat) (k : TxChunk) : (s.startChunk p k).clock = s.clock := by
  unfold State.startChunk; split <;> simp
@[simp] theorem State.onTx_clock (p tc : Nat) (f : List TxChunk → List TxChunk) : (s.onTx p tc f).clock = s.clock := by rfl

@[simp] theorem fillFlit_clock (p tc : Nat) (fwd : Bool) (n : Nat) (acc : List Byte) (start : Option Nat) :
    (fillFlit p tc fwd n acc start s).2.2.clock = s.clock := by
  induction n generalizing acc start s with
  | zero => rfl
  | succ n ih =>
    unfold fillFlit
    split
    · rfl
    · split
      · rfl
      · dsimp only
        split_ifs <;> simp [ih]

@[simp] theorem State.dataFlit_clock (p tc : Nat) (fwd : Bool) :
    (s.dataFlit p tc fwd).clock = s.clock := by simp [State.dataFlit]

@[simp] theorem State.noteHeld_clock (p : Nat) : (s.noteHeld p).clock = s.clock := by
  refine clock_foldl _ _ (fun t tc => ?_)
  refine (State.onTx_clock ..).trans (clock_foldl _ _ (fun u e => ?_))
  exact clock_foldl _ _ (fun v z => v.tollWait_clock ..)

theorem State.slotData_clock {s t : State} {p : Nat} (h : s.slotData p = some t) : t.clock = s.clock := by
  unfold State.slotData at h
  dsimp only at h
  split_ifs at h
  · cases h
    simp
  all_goals
    split at h
    · cases h
      simp
    · split at h
      · cases h
      · split at h
        · cases h
        · cases h
          simp

@[simp] theorem State.stampFlit_clock (p : Nat) : (s.stampFlit p).clock = s.clock := by rfl

@[simp] theorem flitSlot_clock (p : Nat) : (flitSlot p s).clock = s.clock := by
  unfold flitSlot
  dsimp only
  split_ifs
  · rfl
  · simp
  · simp
  · split
    · split <;> simp
    · split
      · next ht => simpa using State.slotData_clock ht
      · simp

@[simp] theorem linkQuery_clock : (linkQuery a m s).clock = s.clock := by unfold linkQuery; split <;> simp

/-! ### Transport (13) -/

@[simp] theorem State.moveDetour_clock (k v : Nat) : (s.moveDetour k v).clock = s.clock := by rfl
@[simp] theorem State.routePath_clock (k : Nat) : (s.routePath k).2.clock = s.clock := by
  unfold State.routePath; dsimp only; (repeat' split) <;> simp
@[simp] theorem State.queueChunk_clock (p tc : Nat) (c : TxChunk) : (s.queueChunk p tc c).clock = s.clock := by rfl
@[simp] theorem State.sendChunk_clock (k : Nat) (c : SentChunk) (resend : Bool) (charge : List (Nat × Nat)) :
    (s.sendChunk k c resend charge).clock = s.clock := by unfold State.sendChunk; dsimp only; split <;> simp
@[simp] theorem chunkClose_clock (pkg tc : Nat) : (chunkClose pkg tc s).clock = s.clock := by
  unfold chunkClose; dsimp only; (repeat' split) <;> simp
@[simp] theorem State.eatBytes_clock (p tc n : Nat) : (s.eatBytes p tc n).clock = s.clock := by rfl
@[simp] theorem State.deliver_clock (p src : Nat) (m : Nat × List Byte) : (s.deliver p src m).clock = s.clock := by
  unfold State.deliver; dsimp only; split <;> simp
@[simp] theorem State.acceptChunk_clock (p src tc psn : Nat) (payload : List Byte) :
    (s.acceptChunk p src tc psn payload).clock = s.clock := by unfold State.acceptChunk; split <;> simp
@[simp] theorem State.chunkHere_clock (p h : Nat) (payload : List Byte) (crcOk : Bool) :
    (s.chunkHere p h payload crcOk).clock = s.clock := by simp [State.chunkHere]
@[simp] theorem State.forwardChunk_clock (p tc h n : Nat) (bytes : List Byte) :
    (s.forwardChunk p tc h n bytes).clock = s.clock := by unfold State.forwardChunk; dsimp only; split <;> simp
@[simp] theorem chunkReceive_clock (p tc : Nat) : (chunkReceive p tc s).clock = s.clock := by
  unfold chunkReceive; dsimp only; split <;> simp
@[simp] theorem ackSend_clock (pkg : Nat) : (ackSend pkg s).clock = s.clock := by
  unfold ackSend; dsimp only; (repeat' split) <;> simp
@[simp] theorem State.resendAll_clock (k : Nat) (l : List SentChunk) :
    (s.resendAll k l).clock = s.clock := by simp [State.resendAll]
@[simp] theorem State.takeEntry_clock (src e : Nat) : (s.takeEntry src e).clock = s.clock := by
  unfold State.takeEntry; split <;> simp
@[simp] theorem resendTimeout_clock (pkg tc : Nat) : (resendTimeout pkg tc s).clock = s.clock := by
  unfold resendTimeout; dsimp only; (repeat' split) <;> simp
@[simp] theorem detourReturn_clock (pkg tc : Nat) : (detourReturn pkg tc s).clock = s.clock := by
  unfold detourReturn; dsimp only; split <;> simp

/-! ### Collectives (13) -/

@[simp] theorem State.writeBits_clock (a o n v : Nat) : (s.writeBits a o n v).clock = s.clock := by rfl

@[simp] theorem writePlanes_clock (a total off n : Nat) (ps : List (Nat × Nat)) (data : List Byte) :
    (writePlanes a total off n ps data s).clock = s.clock := by
  induction ps generalizing a data s with
  | nil => rfl
  | cons p r ih => simp [writePlanes, ih]

@[simp] theorem State.putElems_clock (c h fmt total off n : Nat) (data : List Byte) :
    (s.putElems c h fmt total off n data).clock = s.clock := by simp [State.putElems]
@[simp] theorem State.readInput_clock (c h off n : Nat) : (s.readInput c h off n).2.2.clock = s.clock := by
  unfold State.readInput; dsimp only; split <;> simp
@[simp] theorem State.checkColl_clock (c g id : Nat) : (s.checkColl c g id).clock = s.clock := by
  unfold State.checkColl; split <;> simp
@[simp] theorem State.checkColls_clock : s.checkColls.clock = s.clock := by simp [State.checkColls]
@[simp] theorem ackReceive_clock : (ackReceive s).clock = s.clock := by unfold ackReceive; split <;> simp
@[simp] theorem State.staleColl_clock (c g id : Nat) : (s.staleColl c g id).clock = s.clock := by
  unfold State.staleColl; split <;> simp
@[simp] theorem State.sendElems_clock (c dst type g id slab index : Nat) (data : List Byte) :
    (s.sendElems c dst type g id slab index data).clock = s.clock := by unfold State.sendElems; split <;> simp

theorem State.takeBay_clock {s t : State} {a : Nat} (h : s.takeBay = some (a, t)) : t.clock = s.clock := by
  unfold State.takeBay at h
  split_ifs at h <;> cases h <;> rfl

@[simp] theorem takeStaging_clock (c bytes n : Nat) : (takeStaging c bytes n s).2.clock = s.clock := by
  induction n generalizing s with
  | zero => rfl
  | succ n ih =>
    unfold takeStaging
    split
    · next ht => exact State.clock_of_khanAlloc ht
    · next t ht =>
      have ht := State.clock_of_khanAlloc ht
      have hu := ih t
      split <;> simp_all

@[simp] theorem State.onSlab_clock (c g id i : Nat) (f : Slab → Slab) : (s.onSlab c g id i f).clock = s.clock := by rfl
@[simp] theorem State.addPiece_clock (c g id i idx op : Nat) (piece : Row) :
    (s.addPiece c g id i idx op piece).clock = s.clock := by rfl

@[simp] theorem addReady_clock (c g id i n : Nat) : (addReady c g id i n s).clock = s.clock := by
  induction n generalizing s with
  | zero => rfl
  | succ n ih =>
    unfold addReady
    split
    · split
      · rfl
      · extract_lets +onlyGivenNames -lift me turn
        split
        · extract_lets +onlyGivenNames -lift z r
          split
          · simp [r]
          · simp [ih, r]
        · split
          · simp [ih]
          · rfl
    · rfl

@[simp] theorem State.returnBay_clock (b : Nat) : (s.returnBay b).clock = s.clock := by unfold State.returnBay; split <;> simp

theorem State.takeBayFor_clock {s t : State} {c a : Nat} {k : Coll} (h : s.takeBayFor c k = some (a, t)) :
    t.clock = s.clock := by
  unfold State.takeBayFor at h
  split at h
  · split_ifs at h
    exact State.takeBay_clock h
  · exact State.takeBay_clock h

@[simp] theorem State.releaseSpare_clock (c g id : Nat) : (s.releaseSpare c g id).clock = s.clock := by
  unfold State.releaseSpare; split <;> simp

@[simp] theorem State.openSlab_clock (c g id : Nat) : (s.openSlab c g id).clock = s.clock := by
  unfold State.openSlab
  dsimp only
  split
  · split
    · rfl
    · split
      · split <;> simp
      · next hfull =>
        obtain ⟨⟨a, u⟩, hbay, hstaged⟩ := Option.bind_eq_some_iff.mp hfull
        have hu : u.clock = s.clock := by
          split at hbay
          · cases hbay
            simp
          · exact State.takeBayFor_clock hbay
        split at hstaged
        · cases hstaged
          simpa using hu
        · split at hstaged
          · cases hstaged
            simpa using hu
          · split at hstaged
            · next ht =>
              cases hstaged
              simpa using (State.clock_of_khanAlloc ht).trans hu
            · cases hstaged
  · rfl

@[simp] theorem State.finishSlab_clock (c g id i : Nat) : (s.finishSlab c g id i).clock = s.clock := by
  unfold State.finishSlab; (repeat' split) <;> simp

@[simp] theorem finishSlabs_clock (c g id n : Nat) : (finishSlabs c g id n s).clock = s.clock := by
  induction n generalizing s with
  | zero => rfl
  | succ n ih =>
    unfold finishSlabs
    split
    · split
      · simp [ih]
      · rfl
    · rfl

@[simp] theorem collSlabOpen_clock (c g id : Nat) : (collSlabOpen c g id s).clock = s.clock := by
  unfold collSlabOpen; split <;> simp
@[simp] theorem State.consumePiece_clock (c : Nat) (r : CollRec) (m j : Nat) (data : List Byte) :
    (s.consumePiece c r m j data).clock = s.clock := by unfold State.consumePiece; dsimp only; split <;> simp
@[simp] theorem State.gatherOwn_clock (c g id : Nat) : (s.gatherOwn c g id).clock = s.clock := by
  unfold State.gatherOwn; split <;> simp
@[simp] theorem State.startColl_clock (c g id : Nat) : (s.startColl c g id).clock = s.clock := by
  unfold State.startColl; split <;> simp
@[simp] theorem collGo_clock (c g id : Nat) : (collGo c g id s).clock = s.clock := by
  unfold collGo; (repeat' split) <;> simp
@[simp] theorem State.abortColl_clock (c g id : Nat) (status : Nat) : (s.abortColl c g id status).clock = s.clock := by
  unfold State.abortColl; split <;> simp
@[simp] theorem State.decideColl_clock (c g id : Nat) : (s.decideColl c g id).clock = s.clock := by
  unfold State.decideColl; split <;> simp
@[simp] theorem State.takeJoin_clock (c g id idx : Nat) (ok : Bool) (crc : Nat) :
    (s.takeJoin c g id idx ok crc).clock = s.clock := by unfold State.takeJoin; split <;> simp
@[simp] theorem collJoin_clock (c g id idx : Nat) (ok : Bool) (crc : Nat) : (collJoin c g id idx ok crc s).clock = s.clock := by
  unfold collJoin; split <;> simp
@[simp] theorem collJoinTimeout_clock (c g id : Nat) : (collJoinTimeout c g id s).clock = s.clock := by
  unfold collJoinTimeout; split <;> simp
@[simp] theorem collGrant_clock (c g id i : Nat) : (collGrant c g id i s).clock = s.clock := by unfold collGrant; split <;> simp
@[simp] theorem State.ownerPiece_clock (c g id i idx : Nat) (k : Coll) (grp : CollGroup) (data : List Byte) :
    (s.ownerPiece c g id i idx k grp data).clock = s.clock := by unfold State.ownerPiece; split <;> simp
@[simp] theorem State.gatherPiece_clock (c g id idx : Nat) (k : Coll) (grp : CollGroup) (data : List Byte) :
    (s.gatherPiece c g id idx k grp data).clock = s.clock := by unfold State.gatherPiece; split <;> simp
@[simp] theorem collPiece_clock (c g id i idx : Nat) (data : List Byte) : (collPiece c g id i idx data s).clock = s.clock := by
  unfold collPiece; split <;> simp
@[simp] theorem collResult_clock (c g id i : Nat) (data : List Byte) : (collResult c g id i data s).clock = s.clock := by
  unfold collResult; split <;> simp
@[simp] theorem collGroup_clock : (collGroup c a m s).clock = s.clock := by unfold collGroup; split <;> simp

@[simp] theorem State.admitColl_clock (r : CollRec) (g : CollGroup) : (s.admitColl r g).2.2.clock = s.clock := by
  unfold State.admitColl
  split
  · rfl
  · split
    · rfl
    · next ht =>
      split
      · rfl
      · next hu => exact (State.takeBay_clock hu).trans (State.takeBay_clock ht)

@[simp] theorem State.sendJoin_clock (c : Nat) (r : CollRec) (g : CollGroup) (ok : Bool) (crc : Nat) :
    (s.sendJoin c r g ok crc).clock = s.clock := by unfold State.sendJoin; dsimp only; split <;> simp
@[simp] theorem State.takeEarly_clock (c : Nat) (r : CollRec) (g : CollGroup) :
    (s.takeEarly c r g).clock = s.clock := by simp [State.takeEarly]
@[simp] theorem State.launchColl_clock (c : Nat) (r : CollRec) (g : CollGroup) (stage : List Nat) (crc : Nat) :
    (s.launchColl c r g stage crc).clock = s.clock := by simp [State.launchColl]
@[simp] theorem collLaunch_clock (m : Msg) : (collLaunch m s).clock = s.clock := by
  unfold collLaunch; dsimp only; (repeat' split) <;> simp
@[simp] theorem takeLaunch_clock (w : Nat) : (takeLaunch w s).clock = s.clock := by unfold takeLaunch; split <;> simp
@[simp] theorem collStatus_clock : (collStatus c a m s).clock = s.clock := by
  unfold collStatus; (repeat' split) <;> simp
@[simp] theorem collKill_clock : (collKill c a m s).clock = s.clock := by unfold collKill; split <;> simp
@[simp] theorem collGroupDelete_clock : (collGroupDelete c a m s).clock = s.clock := by unfold collGroupDelete; split <;> simp
@[simp] theorem bayFree_clock : (bayFree s).clock = s.clock := by unfold bayFree; dsimp only; split <;> simp

/-! ### Departures (13) -/

@[simp] theorem State.dropChunks_clock (pkg : Nat) : (s.dropChunks pkg).clock = s.clock := by simp [State.dropChunks]
@[simp] theorem State.forgetSends_clock (pkg : Nat) : (s.forgetSends pkg).clock = s.clock := by rfl

@[simp] theorem State.loseCols_clock (pkg c : Nat) : (s.loseCols pkg c).clock = s.clock := by
  unfold State.loseCols
  extract_lets x lost s0 qs live s1 nodes s2
  split
  · rfl
  · simp [s2, s1, s0]

@[simp] theorem State.loseSource_clock (pkg o : Nat) (e : Nat × Source) : (s.loseSource pkg o e).clock = s.clock := by
  unfold State.loseSource; dsimp only; split <;> simp

@[simp] theorem State.poisonWaits_clock (pkg c : Nat) : (s.poisonWaits pkg c).clock = s.clock := by
  refine clock_foldl _ _ (fun t h => ?_)
  split <;> simp

@[simp] theorem State.faultColls_clock (pkg c : Nat) : (s.faultColls pkg c).clock = s.clock := by
  refine clock_foldl _ _ (fun t k => ?_)
  split
  · split <;> simp
  · rfl

@[simp] theorem State.ctxDepart_clock (pkg c : Nat) : (s.ctxDepart pkg c).clock = s.clock := by
  unfold State.ctxDepart; split <;> simp
@[simp] theorem State.masterDepart_clock (pkg : Nat) : (s.masterDepart pkg).clock = s.clock := by
  unfold State.masterDepart; split <;> simp
@[simp] theorem State.depart_clock (pkg : Nat) : (s.depart pkg).clock = s.clock := by
  unfold State.depart; dsimp only; split <;> simp
@[simp] theorem departureReceive_clock (pkg : Nat) : (departureReceive pkg s).clock = s.clock := by
  unfold departureReceive; split <;> simp
@[simp] theorem departureTimeout_clock (pkg : Nat) : (departureTimeout pkg s).clock = s.clock := by
  unfold departureTimeout; dsimp only; split <;> simp

/-! ### The host link (16, 19) -/

@[simp] theorem submit_clock (w : Nat) (irqEn : Bool) : (submit w irqEn s).clock = s.clock := by unfold submit; split <;> simp
@[simp] theorem doneClear_clock (w : Nat) (irqEn : Bool) : (doneClear w irqEn s).clock = s.clock := by
  unfold doneClear; split <;> simp
@[simp] theorem irqPendClear_clock (irqClass : Nat) : (irqPendClear irqClass s).clock = s.clock := by
  unfold irqPendClear; split <;> simp
@[simp] theorem peakRead_clock : (peakRead s).clock = s.clock := by unfold peakRead; split <;> simp
@[simp] theorem regWrite_clock (off size value : Nat) : (regWrite off size value s).clock = s.clock := by
  unfold regWrite; split <;> simp
@[simp] theorem registerWrite_clock (off size value : Nat) : (registerWrite off size value s).clock = s.clock := by
  unfold registerWrite; split <;> simp

@[simp] theorem apertureAccess_clock (off len : Nat) (data : Option (List Byte)) (poisoned : Bool) :
    (apertureAccess off len data poisoned s).clock = s.clock := by
  unfold apertureAccess; (repeat' split) <;> simp

@[simp] theorem powerState_clock (d3hot : Bool) : (powerState d3hot s).clock = s.clock := by unfold powerState; split <;> simp

end

end Machine
end Sys2Proof
end

section
/-! PROOFS. The Timebase counter and the package ID (14 R303, R305, 19 R397, R402): the commands that move them, and how. -/

namespace Sys2Proof

/-- The commands that may move the clock: power, the resets, slewing and the exchange of timestamps. -/
def Instr.movesClock : Instr → Bool
  | .powerOn _ | .pwrGoodFall | .perstRelease _ | .hotReset _ | .timebaseSlew | .timestampReceive _ _ => true
  | _ => false

namespace Machine

theorem State.now_of_clock {s t : State} (h : t.clock = s.clock) : t.now = s.now := congrArg Prod.fst h

theorem State.pkgId_of_clock {s t : State} (h : t.clock = s.clock) : t.board.pkgId = s.board.pkgId := congrArg Prod.snd h

section
variable (s : State)

/-! ### Resets (R303, R397, R402) -/

/-- Out of STOPPED_C4 a reset leaves the reset values of the Timebase and the straps just sampled. -/
theorem State.resetBy_starts (x : Nat) (h : s.flt.dev ≠ .stoppedC4) :
    (s.resetBy x).now = 0 ∧ (s.resetBy x).tb.st = .free ∧ (s.resetBy x).board.pkgId = x % 128 := by
  rw [State.resetBy, if_neg h]
  exact ⟨rfl, rfl, rfl⟩

/-! ### Ticks and slewing (R303) -/

/-- A nanosecond adds to the counter what it is given; what passes in it leaves the clock. -/
theorem State.tickBy_clock (n : Nat) : (s.tickBy n).clock = ((s.now + n) % 2 ^ 64, s.board.pkgId) := by
  simp [State.tickBy, State.now]

theorem State.tick_of_running (hp : s.powered = true) (hr : s.board.perstN = true) : s.tick = s.tickBy 1 := by
  simp [State.tick, hp, hr]

/-- No slew is made where none is wanted, within 2,000 ticks of the last, or without power. -/
def State.slewWaits : Prop := s.tb.slew = 0 ∨ s.now < s.tb.lastSlew + 2000 ∨ (!s.powered) = true

theorem timebaseSlew_of_waits {s : State} (h : s.slewWaits) : timebaseSlew s = s := if_pos h

/-- A slew is a tick of 2 or of 0, and its time is noted. -/
theorem timebaseSlew_of_due {s : State} (h : ¬ s.slewWaits) :
    ∃ n, (n = 0 ∨ n = 2) ∧ (timebaseSlew s).clock = ((s.now + n) % 2 ^ 64, s.board.pkgId) ∧
      (timebaseSlew s).tb.lastSlew = (timebaseSlew s).now := by
  refine ⟨if decide (0 < s.tb.slew) then 2 else 0, by split <;> simp, ?_⟩
  unfold State.slewWaits at h
  rw [timebaseSlew, if_neg h]
  exact ⟨State.tickBy_clock s _, rfl⟩

/-! ### The exchange of timestamps (R305) -/

theorem State.checkReady_tb : s.checkReady.tb = s.tb := by unfold State.checkReady; split <;> rfl

/-- R305: an exchange leaves the counter but in the one load. -/
theorem State.exchange_now_or_loads (x : Timestamp) : (s.exchange x).board.pkgId = s.board.pkgId ∧
    ((s.exchange x).now = s.now ∨ s.tb.loaded = false ∧ (s.exchange x).tb.loaded = true) := by
  unfold State.exchange
  extract_lets t4 d2 o2 offs est bound n load count ok st old s1
  refine ⟨State.pkgId_of_clock (s := s1.bumpTb .timeExchanges 1) (State.checkReady_clock _), ?_⟩
  rw [State.now, State.checkReady_tb]
  cases hload : load with
  | true =>
    have hfirst : s.tb.loaded = false ∧ 16 ≤ n := by simpa [load] using hload
    exact .inr ⟨hfirst.1, by simp [s1, State.bumpTb, hload]⟩
  | false => exact .inl (if_neg (by simp [hload]))

theorem timestampReceive_now_or_loads (p : Nat) (x : Timestamp) : (timestampReceive p x s).board.pkgId = s.board.pkgId ∧
    ((timestampReceive p x s).now = s.now ∨ s.tb.loaded = false ∧ (timestampReceive p x s).tb.loaded = true) := by
  unfold timestampReceive
  split
  · exact ⟨rfl, .inl rfl⟩
  · dsimp only
    split
    · exact State.exchange_now_or_loads _ x
    · exact ⟨rfl, .inl rfl⟩

end

/-! ### Every other command -/

theorem ucieAccess_clock {s t : State} {die c a n : Nat} {data : Option (List Byte)}
    (h : exec (.ucieMemoryAccess die c a n data) s = .next t) : t.clock = s.clock := by
  change execUcieMemoryAccess die c a n data s = .next t at h
  unfold execUcieMemoryAccess at h
  split at h
  · cases h
    rfl
  · split at h
    · split at h <;> cases h <;> simp
    · split at h
      · split at h <;> cases h
        simp
      · dsimp only at h
        split at h <;> cases h
        rfl

/-- A command that is none of those leaves the clock. -/
theorem exec_clock {i : Instr} {s t : State} (hi : i.movesClock = false) (h : exec i s = .next t) : t.clock = s.clock := by
  cases i with
  | powerOn | pwrGoodFall | perstRelease | hotReset | timebaseSlew | timestampReceive => cases hi
  | ucieMemoryAccess die c a n data => exact ucieAccess_clock h
  | wsPop c id i =>
    cases h
    refine wsPopOp_clock _ _ _ _ _ fun q g w => ?_
    rcases s.wsPop_clock_cases q with hq | ⟨v, t, hq, ht⟩
    · simp [hq]
    · simp [hq, ht]
  | _ =>
    cases h
    simp

/-! ### The obligation -/

/-- Settles O59: power and the resets aside, a command moves the clock only as a slew or as the one load. -/
theorem timebaseCounter : Obligations.TimebaseCounter := by
  unfold Obligations.TimebaseCounter
  refine ⟨fun x s hp hr hd => ?reset, fun i s t hon hfall hperst hhot h => ?keeps, fun s hp hslew hdue hlt => ?slew,
    fun s h => ?waits, fun p x s t hl h => ?loaded, fun s hq hp hr hlt => ?tick⟩
  case reset =>
    obtain ⟨hnow, hst, hid⟩ := s.resetBy_starts x hd
    have hperst : perstRelease x s = s.resetBy x := if_pos hp
    have hhot : hotReset x s = s.resetBy x := if_pos (by simp [hp, hr])
    exact ⟨_, _, congrArg Host.Outcome.next hperst, hnow, hst, hid, congrArg Host.Outcome.next hhot, hnow, hst, hid⟩
  case keeps =>
    cases hi : i.movesClock with
    | false =>
      have hclock := exec_clock hi h
      exact ⟨State.pkgId_of_clock hclock, fun _ => .inl (State.now_of_clock hclock).ge⟩
    | true =>
      cases i with
      | powerOn x => exact absurd rfl (hon x)
      | pwrGoodFall => exact absurd rfl hfall
      | perstRelease x => exact absurd rfl (hperst x)
      | hotReset x => exact absurd rfl (hhot x)
      | timebaseSlew =>
        cases h
        by_cases hw : s.slewWaits
        · rw [timebaseSlew_of_waits hw]
          exact ⟨rfl, fun _ => .inl le_rfl⟩
        · obtain ⟨n, hn, hclock, -⟩ := timebaseSlew_of_due hw
          refine ⟨congrArg Prod.snd hclock, fun hlt => .inl ?_⟩
          have hnow : (timebaseSlew s).now = (s.now + n) % 2 ^ 64 := congrArg Prod.fst hclock
          omega
      | timestampReceive p x =>
        cases h
        obtain ⟨hid, hnow | hloads⟩ := timestampReceive_now_or_loads s p x
        · exact ⟨hid, fun _ => .inl hnow.ge⟩
        · exact ⟨hid, fun _ => .inr ⟨⟨p, x, rfl⟩, hloads⟩⟩
      | _ => cases hi
  case slew =>
    have hgo : ¬ s.slewWaits := by simp [State.slewWaits, hp, hslew, hdue]
    obtain ⟨n, hn, hclock, hlast⟩ := timebaseSlew_of_due hgo
    have hnow : (timebaseSlew s).now = (s.now + n) % 2 ^ 64 := congrArg Prod.fst hclock
    exact ⟨_, rfl, by omega, hlast⟩
  case waits =>
    exact congrArg Host.Outcome.next (timebaseSlew_of_waits (.inr (.inl h)))
  case loaded =>
    cases h
    obtain ⟨-, hnow | ⟨hfree, -⟩⟩ := timestampReceive_now_or_loads s p x
    · exact hnow
    · exact absurd (hl.symm.trans hfree) (by decide)
  case tick =>
    refine ⟨s.tickBy 1, ?_, ?_⟩
    · rw [step, hq, s.tick_of_running hp hr]
    · have hnow : (s.tickBy 1).now = (s.now + 1) % 2 ^ 64 := congrArg Prod.fst (s.tickBy_clock 1)
      omega

end Machine
end Sys2Proof
end

section
/-! PROOFS. Firmware management (16 R358): an activation that names no processor leaves the update engine as it is, with the
`unequal` mark of an earlier activation in it. -/

namespace Sys2Proof
namespace Machine

/-! ### Completion -/

@[simp] theorem State.complete_upd (s : State) (m : Msg) (p : Nat) (st : Status) (body : List Byte) :
    (s.complete m p st body).upd = s.upd := by
  obtain ⟨h, o, f, -, -, -, -, -, -, -, -, -, hcomplete⟩ := s.complete_eq m p st body
  rw [hcomplete]

theorem answered_upd (t : State) (m : Msg) (op : Nat) (fs : List (Fld × Nat)) : (answered t m op fs).upd = t.upd :=
  State.complete_upd ..

/-! ### An activation of no processor -/

/-- A mask of 0 passes the checks of R358 on a staged bundle of the running `IPC_REV`, and its effect is none. -/
theorem fwActivate_zero {s : State} {b : List Byte} (m : Msg) (hstaged : s.upd.staged = some b)
    (hipc : bundleIpc b = bundleIpc (s.fw fwSteward).bundle) : fwActivate [0] m s = .ok s [] := by
  unfold fwActivate
  simp [hstaged, hipc, checked, firstBad]

theorem exec_pmpFwActivate_zero {w : Nat} {b : List Byte} {m : Msg} {s : State} (htakes : Takes s w 0x0701 m)
    (hspells : Spells [.u8] m [0]) (hstaged : s.upd.staged = some b)
    (hipc : bundleIpc b = bundleIpc (s.fw fwSteward).bundle) :
    exec (.pmpFwActivate w) s = .next (answered s m 0x0701 []) := by
  change Host.Outcome.next (commitMsg w 0x0701 (withReq [.u8] fwActivate) s) = _
  rw [commitMsg_takes s _ htakes, withReq_spells s _ hspells, fwActivate_zero m hstaged hipc]
  rfl

/-! ### The state that refutes O12 -/

/-- `PMP_FW_ACTIVATE` with mask 0 from window 0, routed to Steward. -/
def activateNone : Msg := ⟨0, 0x0701, 1, 0, 3, 2, 0, [0], .routed, false, false, 0, 0⟩

/-- Six running processors and a staged bundle of their `IPC_REV`; the mark of an earlier activation with unequal `IPC_REV`
still stands, and `activateNone` waits for Steward. -/
def stagedAfterUnequal : State := { State.reset with
  fws := List.replicate 6 { Fwp.fresh with st := .running }
  upd := { Update.fresh with st := .staged, staged := some [], unequal := true }
  host := { State.reset.host with msgs := [activateNone] } }

theorem stagedAfterUnequal_takes : Takes stagedAfterUnequal 0 0x0701 activateNone where
  oldest := by simp [State.oldest, stagedAfterUnequal, activateNone]
  running := rfl
  serves := rfl

/-- Refutes O12 in its second clause: after `PMP_FW_ACTIVATE` with mask 0 the clause has the `unequal` mark of the update
engine cleared, and in `stagedAfterUnequal` the message leaves it set. -/
theorem not_firmwareMessages : ¬ Obligations.FirmwareMessages := by
  unfold Obligations.FirmwareMessages
  rintro ⟨-, hzero, -⟩
  have hclears := hzero 0 [] activateNone stagedAfterUnequal stagedAfterUnequal_takes rfl rfl rfl
  have hkeeps := exec_pmpFwActivate_zero stagedAfterUnequal_takes rfl rfl rfl
  have hsame := Host.Outcome.next.inj (hkeeps.symm.trans hclears)
  have hmark : true = false := calc
    true = (answered stagedAfterUnequal activateNone 0x0701 []).upd.unequal := by rw [answered_upd]; rfl
    _ = false := by rw [hsame, answered_upd]
  exact Bool.noConfusion hmark

end Machine
end Sys2Proof
end

section
/-! PROOFS. Smooth weighted round robin (05 R99): the state after `k` picks is known from the counts of the picks, and after
`s_tot` of them it is the starting state again. -/

namespace Sys2Proof
namespace Machine

/-! ### One pick -/

/-- The current weights at a pick, each raised by its share. -/
def raised (share : List Nat) (cur : List Int) : List Int := (cur.zip share).map (fun x => x.1 + (x.2 : Int))

/-- The largest of the raised weights. -/
def topOf (l : List Int) : Int := l.foldl (fun a v => if a < v then v else a) (l.headD 0)

theorem pickOne_snd (share : List Nat) (cur : List Int) :
    (pickOne share cur).2 = (raised share cur).findIdx (fun v => v == topOf (raised share cur)) := rfl

theorem pickOne_fst (share : List Nat) (cur : List Int) :
    (pickOne share cur).1 = updAt (raised share cur) (pickOne share cur).2 (fun v => v - (sumN share : Int)) := rfl

theorem foldl_max_spec (l : List Int) (a : Int) :
    let t := l.foldl (fun a v => if a < v then v else a) a
    t ∈ a :: l ∧ ∀ v ∈ a :: l, v ≤ t := by
  induction l generalizing a with
  | nil => simp
  | cons x r ih =>
    obtain ⟨hmem, hle⟩ := ih (if a < x then x else a)
    simp only [List.foldl_cons, List.mem_cons, forall_eq_or_imp] at hmem hle ⊢
    obtain ⟨hbase, hrest⟩ := hle
    refine ⟨?_, le_trans ?_ hbase, le_trans ?_ hbase, hrest⟩
    rotate_left
    · split_ifs <;> omega
    · split_ifs <;> omega
    rcases hmem with h | h
    · split_ifs at h ⊢ <;> simp [h]
    · exact .inr (.inr h)

theorem topOf_mem {l : List Int} (h : l ≠ []) : topOf l ∈ l := by
  cases l with
  | nil => exact absurd rfl h
  | cons x r =>
    rcases List.mem_cons.1 (foldl_max_spec (x :: r) x).1 with h | h
    · exact List.mem_cons.2 (.inl h)
    · exact h

theorem le_topOf {l : List Int} {v : Int} (h : v ∈ l) : v ≤ topOf l := by
  cases l with
  | nil => cases h
  | cons x r => exact (foldl_max_spec (x :: r) x).2 v (List.mem_cons_of_mem _ h)

theorem sumN_eq_sum (l : List Nat) : sumN l = l.sum := List.sum_eq_foldl.symm

theorem updAt_sum_sub (l : List Int) (i : Nat) (n : Int) (h : i < l.length) :
    (updAt l i (fun v => v - n)).sum = l.sum - n := by
  induction l generalizing i with
  | nil => cases h
  | cons x r ih =>
    cases i with
    | zero => simp [updAt]; omega
    | succ i => simp [updAt, ih i (by simpa using h)]; omega

section
variable {share : List Nat} {cur : List Int}

theorem raised_length (h : cur.length = share.length) : (raised share cur).length = share.length := by
  simp [raised, h]

theorem raised_getElem (i : Nat) (h : i < (raised share cur).length) :
    (raised share cur)[i] = cur.getD i 0 + share.getD i 0 := by
  simp only [raised, List.length_map, List.length_zip] at h
  have hcur : i < cur.length := by omega
  have hshare : i < share.length := by omega
  simp [raised, hcur, hshare]

theorem raised_sum (h : cur.length = share.length) : (raised share cur).sum = cur.sum + sumN share := by
  rw [sumN_eq_sum]
  unfold raised
  induction cur generalizing share with
  | nil => cases share <;> simp_all
  | cons x r ih =>
    cases share with
    | nil => cases h
    | cons w ws =>
      simp only [List.zip_cons_cons, List.map_cons, List.sum_cons, ih (by simpa using h)]
      push_cast
      omega

/-- The pick is a replica, and its raised weight is the largest. -/
theorem pickOne_top (hne : raised share cur ≠ []) : ∃ hlt : (pickOne share cur).2 < (raised share cur).length,
    (raised share cur)[(pickOne share cur).2] = topOf (raised share cur) := by
  have hlt : (pickOne share cur).2 < (raised share cur).length := by
    rw [pickOne_snd]
    exact List.findIdx_lt_length_of_exists ⟨_, topOf_mem hne, by simp⟩
  refine ⟨hlt, ?_⟩
  exact eq_of_beq (List.findIdx_getElem (w := hlt))

end

/-! ### The state after `k` picks -/

/-- Before and after every pick the weights stand for the replicas, sum to 0 and exceed −s_tot. -/
structure Balanced (share : List Nat) (cur : List Int) : Prop where
  length : cur.length = share.length
  sum    : cur.sum = 0
  above  : ∀ v ∈ cur, -(sumN share : Int) < v

section
variable {share : List Nat} {cur : List Int}

theorem Balanced.raised_ne_nil (h : Balanced share cur) (hpos : 0 < sumN share) : raised share cur ≠ [] := by
  intro hnil
  have := raised_sum h.length
  rw [hnil, h.sum] at this
  simp at this
  omega

/-- The raised weights sum to s_tot, so the largest is positive. -/
theorem Balanced.topOf_pos (h : Balanced share cur) (hpos : 0 < sumN share) : 0 < topOf (raised share cur) := by
  by_contra hneg
  have hle : (raised share cur).sum ≤ (raised share cur).length • (0 : Int) :=
    List.sum_le_card_nsmul _ _ fun v hv => (le_topOf hv).trans (not_lt.1 hneg)
  rw [raised_sum h.length, h.sum] at hle
  simp at hle
  omega

theorem Balanced.pick_lt (h : Balanced share cur) (hpos : 0 < sumN share) : (pickOne share cur).2 < share.length := by
  obtain ⟨hlt, -⟩ := pickOne_top (h.raised_ne_nil hpos)
  rwa [raised_length h.length] at hlt

/-- A pick raises each weight by its share and lowers the picked one by s_tot. -/
theorem Balanced.pick_getD (h : Balanced share cur) (hpos : 0 < sumN share) {i : Nat} (hi : i < share.length) :
    (pickOne share cur).1.getD i 0 =
      cur.getD i 0 + share.getD i 0 - if (pickOne share cur).2 = i then (sumN share : Int) else 0 := by
  have hlen := raised_length h.length
  have hraised : (raised share cur).getD i 0 = cur.getD i 0 + share.getD i 0 := by
    rw [List.getD_eq_getElem _ _ (by omega), raised_getElem]
  rw [pickOne_fst, updAt_getD, hlen]
  by_cases hpick : (pickOne share cur).2 = i
  · rw [if_pos ⟨hpick, h.pick_lt hpos⟩, if_pos hpick, hpick, hraised]
  · rw [if_neg fun hc => hpick hc.1, if_neg hpick, hraised, sub_zero]

theorem Balanced.pick (h : Balanced share cur) (hpos : 0 < sumN share) : Balanced share (pickOne share cur).1 := by
  have hlen := raised_length h.length
  have hlt := h.pick_lt hpos
  constructor
  case length => simp [pickOne_fst, hlen]
  case sum =>
    rw [pickOne_fst, updAt_sum_sub _ _ _ (by omega), raised_sum h.length, h.sum]
    omega
  case above =>
    intro v hv
    obtain ⟨i, hi, rfl⟩ := List.getElem_of_mem hv
    have hi' : i < share.length := by simpa [pickOne_fst, hlen] using hi
    have hcur : i < cur.length := by rw [h.length]; exact hi'
    have hbefore := h.above _ (List.getElem_mem hcur)
    rw [← List.getD_eq_getElem _ 0 hi, h.pick_getD hpos hi', List.getD_eq_getElem _ _ hcur]
    by_cases hpick : (pickOne share cur).2 = i
    · obtain ⟨hlt', htop⟩ := pickOne_top (h.raised_ne_nil hpos)
      have hpositive := h.topOf_pos hpos
      rw [← htop, raised_getElem, hpick, List.getD_eq_getElem _ _ hcur] at hpositive
      rw [if_pos hpick]
      omega
    · rw [if_neg hpick]
      omega

end

section
variable {share : List Nat}

theorem startRobin_balanced (hpos : 0 < sumN share) (k : Nat) : Balanced share (startRobin share k) := by
  induction k with
  | zero => exact ⟨by simp [startRobin], by simp [startRobin], by simp [startRobin]; omega⟩
  | succ k ih => exact ih.pick hpos

/-- How often replica `i` is picked in the picks `n` to `n + k - 1`. -/
def timesPicked (share : List Nat) (i n k : Nat) : Nat :=
  countP (fun j => (pickOne share (startRobin share j)).2 == i) ((List.range k).map (· + n))

theorem timesPicked_succ (i n k : Nat) : timesPicked share i n (k + 1) =
    timesPicked share i n k + if (pickOne share (startRobin share (k + n))).2 = i then 1 else 0 := by
  unfold timesPicked countP
  rw [List.range_succ, List.map_append, List.filter_append, List.length_append]
  congr 1
  by_cases h : (pickOne share (startRobin share (k + n))).2 = i <;> simp [h]

/-- The weight of a replica tells how often it was picked. -/
theorem startRobin_getD (hpos : 0 < sumN share) {i : Nat} (hi : i < share.length) (k : Nat) :
    (startRobin share k).getD i 0 = k * share.getD i 0 - sumN share * timesPicked share i 0 k := by
  induction k with
  | zero => simp [startRobin, timesPicked, countP, hi]
  | succ k ih =>
    rw [startRobin, (startRobin_balanced hpos k).pick_getD hpos hi, ih, timesPicked_succ, Nat.add_zero k]
    split_ifs <;> push_cast <;> ring

/-- Weights above −s_tot that are multiples of it and sum to 0 are all 0: after s_tot picks the start is reached again. -/
theorem startRobin_sumN (hpos : 0 < sumN share) : startRobin share (sumN share) = startRobin share 0 := by
  have hbal := startRobin_balanced hpos (sumN share)
  have hnonneg : ∀ v ∈ startRobin share (sumN share), 0 ≤ v := by
    intro v hv
    obtain ⟨i, hi, rfl⟩ := List.getElem_of_mem hv
    have habove := hbal.above _ hv
    rw [← List.getD_eq_getElem _ 0 hi, startRobin_getD hpos (hbal.length ▸ hi), ← mul_sub] at habove ⊢
    have hfactor : -1 < (share.getD i 0 : Int) - timesPicked share i 0 (sumN share) := by
      by_contra hcon
      have := mul_le_mul_of_nonneg_left (not_lt.1 hcon) (Int.natCast_nonneg (sumN share))
      omega
    exact mul_nonneg (Int.natCast_nonneg _) (by omega)
  refine List.ext_getElem (by simp [hbal.length, startRobin]) fun i h1 h2 => ?_
  rw [List.all_zero_of_le_zero_le_of_sum_eq_zero hnonneg hbal.sum (List.getElem_mem h1)]
  simp [startRobin]

theorem startRobin_add (k n : Nat) (h : startRobin share k = startRobin share 0) :
    startRobin share (n + k) = startRobin share n := by
  induction n with
  | zero => simpa using h
  | succ n ih => rw [Nat.succ_add, startRobin, ih, startRobin]

/-- A run of s_tot picks that starts one later loses its first pick and gains the same pick at its end. -/
theorem timesPicked_shift (hpos : 0 < sumN share) (i n : Nat) :
    timesPicked share i (n + 1) (sumN share) = timesPicked share i n (sumN share) := by
  have hshift : ∀ k, timesPicked share i n (k + 1) =
      (if (pickOne share (startRobin share n)).2 = i then 1 else 0) + timesPicked share i (n + 1) k := by
    intro k
    induction k with
    | zero => simp [timesPicked_succ]; simp [timesPicked, countP]
    | succ k ih => rw [timesPicked_succ, ih, timesPicked_succ _ (n + 1), Nat.add_assoc, Nat.add_right_comm k 1 n]; rfl
  have hlast := timesPicked_succ (share := share) i n (sumN share)
  rw [hshift, Nat.add_comm (sumN share) n, startRobin_add _ n (startRobin_sumN hpos)] at hlast
  omega

end

/-- Settles O45: from zero weights, s_tot picks lead back to zero, and then each replica was picked `SHARE` times; a run that
starts later is the same picks in turn. -/
theorem roundRobinExact : Obligations.RoundRobinExact := by
  unfold Obligations.RoundRobinExact
  intro share n i hpos hi
  change timesPicked share i n (sumN share) = share.getD i 0
  induction n with
  | succ n ih => rw [timesPicked_shift hpos, ih]
  | zero =>
    have hweight := startRobin_getD hpos hi (sumN share)
    rw [startRobin_sumN hpos, ← mul_sub, startRobin] at hweight
    have hzero : (sumN share : Int) * (share.getD i 0 - timesPicked share i 0 (sumN share)) = 0 := by
      rw [← hweight]
      simp [hi]
    have := (mul_eq_zero.1 hzero).resolve_left (by omega)
    omega

end Machine
end Sys2Proof
end

section
/-! PROOFS. The form of the block: memory, and how many contexts, partitions and processors there are (15, Table 1-3).  Most of the
model writes neither memory nor the number of anything (`…_form`); what writes memory keeps it canonical (`…_sound`).  Each rule says
so of one function, from its branches, by the rules that stand above it. -/

namespace Sys2Proof
namespace Machine

/-- Memory, and the numbers of contexts, partitions and processors. -/
def State.form (s : State) : List Host.Cell × Nat × Nat × Nat := (s.mem, s.ctxs.length, s.parts.length, s.fws.length)

/-- Canonical memory, 16 contexts, 8 partitions, six processors. -/
def Sound (x : List Host.Cell × Nat × Nat × Nat) : Prop := memWf x.1 = true ∧ x.2 = (16, 8, 6)

/-- The form of the state that the meaning of a message leaves. -/
def Act.form : Act → List Host.Cell × Nat × Nat × Nat
  | .reply t _ _ => t.form
  | .hold t _ => t.form

theorem State.ctxs_length_of_form {s t : State} (h : t.form = s.form) : t.ctxs.length = s.ctxs.length := congrArg (·.2.1) h

theorem State.mem_of_form {s t : State} (h : t.form = s.form) : t.mem = s.mem := congrArg Prod.fst h

section
variable (s : State)

/-! ### Records, branches and folds -/

@[simp] theorem State.form_record (a b c d e f g h i j k l m n o p q r t u v w x y z a' b') :
    State.form ⟨a, b, c, d, e, f, g, h, i, j, k, l, m, n, o, p, q, r, t, u, v, w, x, y, z, a', b'⟩ =
      (o, l.length, k.length, f.length) := by rfl

@[simp] theorem State.form_fields : (s.mem, s.ctxs.length, s.parts.length, s.fws.length) = s.form := by rfl

@[simp] theorem Act.form_reply (st : Status) (body : List Byte) : (Act.reply s st body).form = s.form := by rfl
@[simp] theorem Act.form_hold (p : Phase) : (Act.hold s p).form = s.form := by rfl

@[simp] theorem State.form_ite {p : Prop} [Decidable p] (t : State) :
    (if p then s else t).form = if p then s.form else t.form := apply_ite State.form p s t

@[simp] theorem Act.form_ite {p : Prop} [Decidable p] (x y : Act) :
    (if p then x else y).form = if p then x.form else y.form := apply_ite Act.form p x y

/-- Acts one after another leave the form where each of them does. -/
@[simp] theorem form_foldl {α : Type} {f : State → α → State} (l : List α) (h : ∀ t a, (f t a).form = t.form) :
    (l.foldl f s).form = s.form := by
  induction l generalizing s with
  | nil => rfl
  | cons a l ih => exact (ih _).trans (h s a)

theorem sound_foldl {α : Type} {f : State → α → State} (l : List α) (h : ∀ t a, Sound t.form → Sound (f t a).form)
    (hs : Sound s.form) : Sound (l.foldl f s).form := by
  induction l generalizing s with
  | nil => exact hs
  | cons a l ih => exact ih _ (h s a hs)

variable {s}

@[simp] theorem sound_ite {p : Prop} [Decidable p] (x y : List Host.Cell × Nat × Nat × Nat) :
    Sound (if p then x else y) ↔ if p then Sound x else Sound y := iff_of_eq (apply_ite Sound p x y)

@[simp] theorem memWf_of_sound (hs : Sound s.form) : memWf s.mem = true := hs.1

/-- Only memory is to be looked at where nothing else was written. -/
@[simp] theorem sound_record_iff (hs : Sound s.form) (m : List Host.Cell) :
    Sound (m, s.ctxs.length, s.parts.length, s.fws.length) ↔ memWf m = true := and_iff_left hs.2

variable (s) (c : Nat) (a : List Nat) (m : Msg)


/-! ### Counters, memory, faults and responses -/

@[simp] theorem State.freed_form : s.freed.form = s.form := by simp [State.freed]
@[simp] theorem State.bump_form (c : Ctr) (n : Nat) : (s.bump c n).form = s.form := by simp [State.bump]
@[simp] theorem State.bumpFlt_form (c : Ctr) (n : Nat) : (s.bumpFlt c n).form = s.form := by simp [State.bumpFlt]
@[simp] theorem State.bumpTb_form (c : Ctr) (n : Nat) : (s.bumpTb c n).form = s.form := by simp [State.bumpTb]
@[simp] theorem State.bumpFw_form (p : Nat) (c : Ctr) (n : Nat) : (s.bumpFw p c n).form = s.form := by simp [State.bumpFw]
@[simp] theorem State.bumpPart_form (p : Nat) (c : Ctr) (n : Nat) : (s.bumpPart p c n).form = s.form := by simp [State.bumpPart]
@[simp] theorem State.bumpCtx_form (c : Nat) (k : Ctr) (n : Nat) : (s.bumpCtx c k n).form = s.form := by simp [State.bumpCtx]
@[simp] theorem State.onCtx_form (c : Nat) (f : Ctx → Ctx) : (s.onCtx c f).form = s.form := by simp [State.onCtx]
@[simp] theorem State.onPart_form (p : Nat) (f : Part → Part) : (s.onPart p f).form = s.form := by simp [State.onPart]
@[simp] theorem State.onFw_form (n : Nat) (f : Fwp → Fwp) : (s.onFw n f).form = s.form := by simp [State.onFw]
@[simp] theorem State.onCtx_ctxs_length (c : Nat) (f : Ctx → Ctx) : (s.onCtx c f).ctxs.length = s.ctxs.length := updAt_length ..
@[simp] theorem State.onFw_fws_length (n : Nat) (f : Fwp → Fwp) : (s.onFw n f).fws.length = s.fws.length := updAt_length ..
@[simp] theorem State.onWin_form (w : Nat) (f : Win → Win) : (s.onWin w f).form = s.form := by simp [State.onWin]
@[simp] theorem State.emit_form (o : Out) : (s.emit o).form = s.form := by simp [State.emit]
@[simp] theorem State.writeAt_sound (hs : Sound s.form) (a : Nat) (bs : List Byte) : Sound (s.writeAt a bs).form := by
  simp [State.writeAt, hs, memWf_memWrite]
@[simp] theorem State.onGate_form (p g : Nat) (f : Gate → Gate) : (s.onGate p g f).form = s.form := by simp [State.onGate]
@[simp] theorem State.toll_form (p g n : Nat) : (s.toll p g n).form = s.form := by simp [State.toll]
@[simp] theorem State.tollWait_form (p g : Nat) : (s.tollWait p g).form = s.form := by simp [State.tollWait]
@[simp] theorem State.charge_form (c a n : Nat) : (s.charge c a n).form = s.form := by unfold State.charge; split <;> simp
@[simp] theorem State.heldWait_form (c a : Nat) : (s.heldWait c a).form = s.form := by unfold State.heldWait; split <;> simp
@[simp] theorem State.takePoison_form (a n : Nat) : (s.takePoison a n).2.form = s.form := by simp [State.takePoison]
@[simp] theorem State.raise_form (source kind cls ctx dtype detail : Nat) :
    (s.raise source kind cls ctx dtype detail).form = s.form := by simp [State.raise]
@[simp] theorem State.raiseRated_form (source kind ctx dtype detail : Nat) :
    (s.raiseRated source kind ctx dtype detail).form = s.form := by unfold State.raiseRated; split <;> simp
@[simp] theorem State.irq_form (w : Nat) : (s.irq w).form = s.form := by unfold State.irq; split <;> simp
@[simp] theorem State.complete_form (m : Msg) (handler : Nat) (st : Status) (body : List Byte) :
    (s.complete m handler st body).form = s.form := by unfold State.complete; split <;> simp
@[simp] theorem State.setPhase_form (m : Msg) (p : Phase) : (s.setPhase m p).form = s.form := by simp [State.setPhase]

/-! ### Messages (16, 17) -/

@[simp] theorem Act.ok_form (fs : List (Fld × Nat)) : (Act.ok s fs).form = s.form := by simp [Act.ok]
@[simp] theorem Act.no_form (st : Status) : (Act.no s st).form = s.form := by simp [Act.no]
@[simp] theorem State.route_form (m : Msg) : (s.route m).form = s.form := by unfold State.route; split <;> simp
@[simp] theorem State.takeRequest_form (w eid : Nat) (raw : List Byte) : (s.takeRequest w eid raw).form = s.form := by
  unfold State.takeRequest; split <;> simp

@[simp] theorem routeAll_form (l : List Msg) : (routeAll l s).form = s.form := by
  induction l generalizing s with
  | nil => rfl
  | cons m r ih => simp [routeAll, ih]

/-- A message changes the form only where its meaning does. -/
@[simp] theorem commitMsg_form (w op : Nat) {k : Msg → State → Act} (h : ∀ m, (k m s).form = s.form) :
    (commitMsg w op k s).form = s.form := by
  unfold commitMsg
  split
  · rfl
  · next m _ =>
    have hm := h m
    split_ifs
    · rfl
    · simp
    · split <;> simp_all

@[simp] theorem withReq_form (fs : List Fld) {k : List Nat → Msg → State → Act} (m : Msg)
    (h : ∀ a, (k a m s).form = s.form) : (withReq fs k m s).form = s.form := by
  unfold withReq
  split
  · rfl
  · exact h _

@[simp] theorem checked_form (cs : List (Bool × Status)) {k : Act} (h : k.form = s.form) :
    (checked cs s k).form = s.form := by
  unfold checked
  split
  · rfl
  · exact h

theorem checked_sound (cs : List (Bool × Status)) {k : Act} (h : Sound k.form) (hs : Sound s.form) :
    Sound (checked cs s k).form := by
  unfold checked
  split
  · exact hs
  · exact h

@[simp] theorem withCtx_form (fs : List Fld) {k : Nat → List Nat → Msg → State → Act} (m : Msg)
    (h : ∀ c a, (k c a m s).form = s.form) : (withCtx fs k m s).form = s.form := by
  unfold withCtx
  split
  · rfl
  · rfl
  · exact checked_form _ _ (h ..)

@[simp] theorem State.closeSession_form (id : Nat) : (s.closeSession id).form = s.form := by simp [State.closeSession]
@[simp] theorem State.openSession_form (wins : List Nat) (version : Nat) (features : Nat) (mgmt takeover : Bool) :
    (s.openSession wins version features mgmt takeover).2.form = s.form := by unfold State.openSession; split <;> simp
@[simp] theorem sessionOpen_form : (sessionOpen a m s).form = s.form := by unfold sessionOpen; split <;> simp
@[simp] theorem sessionClose_form : (sessionClose a m s).form = s.form := by simp [sessionClose]
@[simp] theorem windowConfig_form : (windowConfig a m s).form = s.form := by unfold windowConfig; split <;> simp
@[simp] theorem featuresMsg_form : (featuresMsg a m s).form = s.form := by simp [featuresMsg]

/-! ### Khan (12) -/

@[simp] theorem State.khanFail_form (c : Nat) (f : KhanFail) : (s.khanFail c f).form = s.form := by
  unfold State.khanFail; split <;> simp

@[simp] theorem State.khanAlloc_form (c tier die engine n : Nat) : (s.khanAlloc c tier die engine n).2.form = s.form := by
  unfold State.khanAlloc
  dsimp only
  split <;> simp

/-- The state that an allocation leaves, whatever it found. -/
theorem State.form_of_khanAlloc {s t : State} {c tier die engine n : Nat} {o : Option (Nat × Nat)}
    (h : s.khanAlloc c tier die engine n = (o, t)) : t.form = s.form := by
  simpa [h] using s.khanAlloc_form c tier die engine n

@[simp] theorem State.khanFree_form (h : Nat) : (s.khanFree h).form = s.form := by simp [State.khanFree]
@[simp] theorem State.khanDrop_form (h : Nat) : (s.khanDrop h).form = s.form := by unfold State.khanDrop; split <;> simp

/-! ### Waystations and Tally Posts (11, 12) -/

@[simp] theorem State.onWs_form (w : Nat) (f : Ws → Ws) : (s.onWs w f).form = s.form := by simp [State.onWs]
@[simp] theorem State.wsPush_form (w : Nat) (vs : List Nat) : (s.wsPush w vs).form = s.form := by simp [State.wsPush]

/-- A read of a queue finds nothing, or leaves the clock.  `State.wsPop` is unfolded as in `State.wsPop_cases`. -/
theorem State.wsPop_form_cases (w : Nat) :
    s.wsPop w = (s, none) ∨ ∃ v t, s.wsPop w = (t, some v) ∧ t.form = s.form := by
  generalize hdef : State.wsPop = f
  delta State.wsPop at hdef
  subst hdef
  beta_reduce
  extract_lets y
  split
  · exact .inl rfl
  · refine .inr ⟨_, _, rfl, ?_⟩
    split <;> simp

@[simp] theorem State.wsPop_form (w : Nat) : (s.wsPop w).1.form = s.form := by
  rcases s.wsPop_form_cases w with h | ⟨v, t, h, ht⟩
  · rw [h]
  · rw [h]
    exact ht

theorem readsOf_form {read : State → Nat → State × Option (Nat × Bool)} (hread : ∀ s w, (read s w).1.form = s.form)
    (n w : Nat) : (readsOf read n s w).1.form = s.form := by
  induction n generalizing s with
  | zero => rfl
  | succ n ih =>
    have hs := hread s w
    unfold readsOf
    split <;> simp_all

@[simp] theorem State.wsPopN_form (n w : Nat) : (State.wsPopN n s w).1.form = s.form := by
  rw [State.wsPopN_eq_readsOf]
  exact readsOf_form s State.wsPop_form n w

@[simp] theorem State.wsRewind_form (w : Nat) : (s.wsRewind w).form = s.form := by simp [State.wsRewind]
@[simp] theorem wsCreate_form : (wsCreate c a m s).form = s.form := by
  unfold wsCreate
  split
  · next width consumer depth flags =>
    refine checked_form _ _ ?_
    extract_lets d w bytes r
    have hr : r.2.form = s.form := by
      unfold r
      split <;> simp [d]
    split
    · simp [State.ctxs_length_of_form hr]
    · simpa using hr
  · simp
@[simp] theorem wsDestroy_form : (wsDestroy c a m s).form = s.form := by unfold wsDestroy; split <;> simp
@[simp] theorem wsQuery_form : (wsQuery c a m s).form = s.form := by unfold wsQuery; split <;> simp
@[simp] theorem wsPopMsg_form : (wsPopMsg c a m s).form = s.form := by unfold wsPopMsg; split <;> simp
@[simp] theorem wsReleaseMsg_form : (wsReleaseMsg c a m s).form = s.form := by unfold wsReleaseMsg; split <;> simp
@[simp] theorem wsRewindMsg_form : (wsRewindMsg c a m s).form = s.form := by unfold wsRewindMsg; split <;> simp
@[simp] theorem wsPushMsg_form (m : Msg) : (wsPushMsg m s).form = s.form := by unfold wsPushMsg; dsimp only; split <;> simp
@[simp] theorem wsMiddleMove_form (w : Nat) (toHead : Bool) (poison : Option Nat) :
    (wsMiddleMove w toHead poison s).form = s.form := by unfold wsMiddleMove; dsimp only; split <;> simp
@[simp] theorem State.onPost_form (t : Nat) (f : Post → Post) : (s.onPost t f).form = s.form := by simp [State.onPost]
@[simp] theorem State.onStr_form (c h i : Nat) (f : Str → Str) : (s.onStr c h i f).form = s.form := by simp [State.onStr]
@[simp] theorem State.postWake_form (t v : Nat) : (s.postWake t v).form = s.form := by simp [State.postWake]
@[simp] theorem State.arrive_form (t pkg v : Nat) (phase : Option Nat) : (s.arrive t pkg v phase).1.form = s.form := by
  unfold State.arrive; dsimp only; split_ifs <;> simp
@[simp] theorem tallyArrival_form (t pkg v : Nat) (phase : Option Nat) :
    (tallyArrival t pkg v phase s).form = s.form := by simp [tallyArrival]
@[simp] theorem tallyDeadline_form (t : Nat) : (tallyDeadline t s).form = s.form := by
  unfold tallyDeadline; dsimp only; split <;> simp
@[simp] theorem tallyLateDelivery_form (t : Nat) : (tallyLateDelivery t s).form = s.form := by
  unfold tallyLateDelivery; dsimp only; split <;> simp
@[simp] theorem tallyConfig_form : (tallyConfig c a m s).form = s.form := by unfold tallyConfig; split <;> simp
@[simp] theorem tallyArriveMsg_form : (tallyArriveMsg c a m s).form = s.form := by unfold tallyArriveMsg; split <;> simp
@[simp] theorem tallyQuery_form : (tallyQuery c a m s).form = s.form := by unfold tallyQuery; split <;> simp

@[simp] theorem khanAllocMsg_form : (khanAllocMsg c a m s).form = s.form := by
  unfold khanAllocMsg
  split
  · refine checked_form _ _ ?_
    split_ifs
    · rfl
    all_goals split <;> next ht => exact State.form_of_khanAlloc ht
  · rfl

@[simp] theorem State.badFree_form (c a : Nat) : (s.badFree c a).form = s.form := by simp [State.badFree]
@[simp] theorem khanFreeMsg_form : (khanFreeMsg c a m s).form = s.form := by
  unfold khanFreeMsg; (repeat' split) <;> simp
@[simp] theorem khanQuota_form : (khanQuota c a m s).form = s.form := by unfold khanQuota; split <;> simp
@[simp] theorem ctrReply_form (l : List Ctr) (c : Nat) (a : List Nat) (m : Msg) :
    (ctrReply l c a m s).form = s.form := by simp [ctrReply]
@[simp] theorem khanAllocEngine_form (c engine tier die n : Nat) :
    (khanAllocEngine c engine tier die n s).form = s.form := by unfold khanAllocEngine; split <;> simp
@[simp] theorem khanFreeEngine_form (c pool a : Nat) : (khanFreeEngine c pool a s).form = s.form := by
  unfold khanFreeEngine; (repeat' split) <;> simp
@[simp] theorem khanRefill_form (c pool cls : Nat) : (khanRefill c pool cls s).form = s.form := by
  unfold khanRefill; split <;> simp
@[simp] theorem khanChunkMove_form (c pool chunk cls : Nat) : (khanChunkMove c pool chunk cls s).form = s.form := by
  unfold khanChunkMove; dsimp only; split <;> simp

/-! ### Messages to other packages (13) -/

@[simp] theorem State.onOut_form (k : Nat) (f : PathOut → PathOut) : (s.onOut k f).form = s.form := by simp [State.onOut]
@[simp] theorem State.onIn_form (k : Nat) (f : PathIn → PathIn) : (s.onIn k f).form = s.form := by simp [State.onIn]
@[simp] theorem State.sendMsg_form (dst type ctx : Nat) (fields : List Nat) (body : List Byte) :
    (s.sendMsg dst type ctx fields body).form = s.form := by unfold State.sendMsg; split <;> simp
@[simp] theorem State.sendOpen_form (dst type ctx : Nat) (fields : List Nat) (data : List Byte) :
    (s.sendOpen dst type ctx fields data).form = s.form := by simp [State.sendOpen]
@[simp] theorem State.sendGuide_form (ctx : Nat) (fields : List Nat) (l : List Nat) :
    (s.sendGuide ctx fields l).form = s.form := by simp [State.sendGuide]

/-! ### KV pages (03) -/

@[simp] theorem State.copyCol_sound (hs : Sound s.form) (c src dst : Nat) : Sound (s.copyCol c src dst).form := by
  simp [State.copyCol, hs, memWf_granFill]

@[simp] theorem State.granWrite_sound (hs : Sound s.form) (g : List Nat) (off : Nat) (bs : List Byte) :
    Sound (s.granWrite g off bs).form := by
  refine sound_foldl _ _ (fun t z ht => ?_) hs
  split <;> simp [ht]

@[simp] theorem State.ownStrings_form (c : Nat) (mma sfn : Bool) :
    (s.ownStrings c mma sfn).form = s.form := by simp [State.ownStrings]
@[simp] theorem State.ownLayout_form (c n : Nat) : (s.ownLayout c n).form = s.form := by simp [State.ownLayout]
@[simp] theorem State.ownKilled_form (c : Nat) : (s.ownKilled c).form = s.form := by simp [State.ownKilled]
@[simp] theorem State.kvRow_sound (hs : Sound s.form) (c q p n : Nat) (m : Model) (f : Nat × Nat × Nat) :
    Sound (s.kvRow c q p n m f).form := by
  rw [State.kvRow, State.charge_form]
  exact sound_foldl _ _ (fun t z ht => by simp [ht]) hs
@[simp] theorem State.kvToken_sound (hs : Sound s.form) (c q p : Nat) : Sound (s.kvToken c q p).form := by
  unfold State.kvToken
  split
  · exact hs
  · next m _ =>
    have hput (t : State) (ht : Sound t.form) (fs : List (Nat × Nat × Nat)) (n : Option Nat) :
        Sound (match n with
          | some n => fs.foldl (fun (u : State) f => u.kvRow c q p n m f) t
          | none => t).form := by
      split
      · exact sound_foldl _ _ (fun u f hu => by simp [hu]) ht
      · exact ht
    exact hput _ (hput s hs ..) ..
@[simp] theorem State.kvTokens_sound (hs : Sound s.form) (c q p n : Nat) : Sound (s.kvTokens c q p n).form := by
  unfold State.kvTokens
  split
  · exact hs
  · rw [State.ownStrings_form]
    exact sound_foldl _ _ (fun t i ht => by simp [ht]) hs
@[simp] theorem State.onSeq_form (q : Nat) (f : Seq → Seq) : (s.onSeq q f).form = s.form := by simp [State.onSeq]
@[simp] theorem State.borrow_form (c lender base : Nat) : (s.borrow c lender base).form = s.form := by simp [State.borrow]

@[simp] theorem State.farPlace_form (c n : Nat) (poolOnly : Bool) {ask : State → Option (Nat × Nat) × State}
    (hask : ∀ t, (ask t).2.form = t.form) : (s.farPlace c n poolOnly ask).2.form = s.form := by
  have hs := hask s
  unfold State.farPlace
  dsimp only
  split
  · rfl
  · split
    · rfl
    · split
      · split <;> simp_all
      · rfl

@[simp] theorem State.colOut_form (c n : Nat) (p : FarPlace) : (s.colOut c n p).form = s.form := by
  unfold State.colOut; split <;> simp
@[simp] theorem State.colBack_sound (hs : Sound s.form) (c n : Nat) (g : List Nat) : Sound (s.colBack c n g).form := by
  unfold State.colBack
  dsimp only
  split <;> simp [hs, memWf_granFill]
@[simp] theorem State.clearFar_form (c : Nat) : (s.clearFar c).form = s.form := by simp [State.clearFar]

/-! ### Double-buffered tables (04, 09, 10) -/

@[simp] theorem State.mergeChange_form (c : Nat) (m : Msg) : (s.mergeChange c m).form = s.form := by simp [State.mergeChange]

@[simp] theorem State.fitCopies_form (c n : Nat) : (s.fitCopies c n).2.form = s.form := by
  unfold State.fitCopies
  split
  · rfl
  · split
    · simp
    · next ht =>
      have ht := State.form_of_khanAlloc ht
      split
      · simp
      · next hu => simpa using (State.form_of_khanAlloc hu).trans ht

@[simp] theorem State.growCopies_form (c : Nat) : (s.growCopies c).form = s.form := by
  unfold State.growCopies; dsimp only; split <;> simp
@[simp] theorem State.flip_form (c t : Nat) : (s.flip c t).form = s.form := by simp [State.flip]
@[simp] theorem State.takeChange_form (c : Nat) (m : Msg) : (s.takeChange c m).form = s.form := by simp [State.takeChange]
@[simp] theorem State.freeDeferred_form (c : Nat) : (s.freeDeferred c).form = s.form := by simp [State.freeDeferred]
@[simp] theorem State.releaseOld_form (c t : Nat) : (s.releaseOld c t).form = s.form := by
  unfold State.releaseOld; dsimp only; split <;> simp
@[simp] theorem State.flipIdle_form (c t : Nat) : (s.flipIdle c t).form = s.form := by unfold State.flipIdle; split <;> simp
@[simp] theorem softChange_form (c : Nat) (m : Msg) : (softChange c m s).form = s.form := by
  unfold softChange; dsimp only; split <;> simp
@[simp] theorem State.guideChange_form (c : Nat) (g : GuideChange) : (s.guideChange c g).form = s.form := by
  unfold State.guideChange; split <;> simp
@[simp] theorem State.flipAll_form (c : Nat) : (s.flipAll c).form = s.form := by simp [State.flipAll]
@[simp] theorem generationRelease_form (c t : Nat) : (generationRelease c t s).form = s.form := by
  unfold generationRelease; split <;> simp
@[simp] theorem tableReloadTimeout_form (w : Nat) : (tableReloadTimeout w s).form = s.form := by
  unfold tableReloadTimeout; split <;> simp

/-! ### Configurations (04 to 06, 09, 10) -/

@[simp] theorem routeConfig_form : (routeConfig c a m s).form = s.form := by
  unfold routeConfig; dsimp only; (repeat' split) <;> simp
@[simp] theorem routeBias_form : (routeBias c a m s).form = s.form := by unfold routeBias; split <;> simp
@[simp] theorem dispatchConfig_form : (dispatchConfig c a m s).form = s.form := by unfold dispatchConfig; split <;> simp
@[simp] theorem combineConfig_form : (combineConfig c a m s).form = s.form := by unfold combineConfig; split <;> simp
@[simp] theorem routeQuery_form : (routeQuery c a m s).form = s.form := by unfold routeQuery; split <;> simp
@[simp] theorem routeStats_sound (hs : Sound s.form) : Sound (routeStats c a m s).form := by
  unfold routeStats
  split
  · refine checked_sound _ _ ?_ hs
    dsimp only
    split <;> simp [hs]
  · exact hs
@[simp] theorem returnTimeoutMsg_form : (returnTimeoutMsg c a m s).form = s.form := by
  unfold returnTimeoutMsg; split <;> simp
@[simp] theorem sfnLoad_form : (sfnLoad c a m s).form = s.form := by unfold sfnLoad; split <;> simp
@[simp] theorem sfnQuery_form : (sfnQuery c a m s).form = s.form := by simp [sfnQuery]
@[simp] theorem layoutLoad_form : (layoutLoad c a m s).form = s.form := by unfold layoutLoad; split <;> simp
@[simp] theorem layoutQuery_form : (layoutQuery c a m s).form = s.form := by unfold layoutQuery; split <;> simp

/-! ### Layers in flight (04 to 06) -/

@[simp] theorem State.onLayer_form (c k : Nat) (f : Layer → Layer) : (s.onLayer c k f).form = s.form := by simp [State.onLayer]
@[simp] theorem State.onMan_form (c : Nat) (f : Manifest → Manifest) : (s.onMan c f).form = s.form := by simp [State.onMan]
@[simp] theorem State.setSlotGen_form (c slot g : Nat) : (s.setSlotGen c slot g).form = s.form := by simp [State.setSlotGen]
@[simp] theorem State.raiseOnce_form (c which source kind dtype detail : Nat) :
    (s.raiseOnce c which source kind dtype detail).form = s.form := by unfold State.raiseOnce; split <;> simp
@[simp] theorem State.dropRank_form (c k slot rank cause : Nat) : (s.dropRank c k slot rank cause).form = s.form := by simp [State.dropRank]

end

end Machine
end Sys2Proof
end

section
/-! PROOFS. The form through reception, residency, returns and the Layout Engine: every function keeps it. -/

namespace Sys2Proof
namespace Machine

section
variable (s : State) (c : Nat) (a : List Nat) (m : Msg)

/-! ### Reception (05) -/

@[simp] theorem State.onResid_form (c : Nat) (f : Resid → Resid) : (s.onResid c f).form = s.form := by simp [State.onResid]
@[simp] theorem State.fetchRequest_form (c l e i prio die : Nat) : (s.fetchRequest c l e i prio die).form = s.form := by
  unfold State.fetchRequest; dsimp only; (repeat' split) <;> simp
@[simp] theorem State.onRx_form (c : Nat) (f : Rx → Rx) : (s.onRx c f).form = s.form := by simp [State.onRx]
@[simp] theorem State.handBatch_form (c : Nat) (b : Batch) (d : Nat) : (s.handBatch c b d).form = s.form := by
  unfold State.handBatch; dsimp only; split <;> simp

@[simp] theorem handAll_form (c : Nat) (l : List Batch) : (handAll c l s).form = s.form := by
  induction l generalizing s with
  | nil => rfl
  | cons b r ih =>
    unfold handAll
    split
    · split <;> simp [ih]
    · exact ih s

@[simp] theorem State.settleRow_form (c l e i : Nat) : (s.settleRow c l e i).form = s.form := by
  unfold State.settleRow; split <;> simp
@[simp] theorem State.holdRx_form (h : HeldRx) : (s.holdRx h).form = s.form := by simp [State.holdRx]

@[simp] theorem State.noteNow_form (src header : Nat) (entries : List Nat) : (s.noteNow src header entries).form = s.form := by
  unfold State.noteNow
  dsimp only
  split
  · simp
  · split
    · simp
    · rw [State.onRx_form, form_foldl _ _ fun t e => ?_]
      · simp
      · split
        · rfl
        · split <;> simp

@[simp] theorem noteReceive_form (src header : Nat) (entries : List Nat) :
    (noteReceive src header entries s).form = s.form := by unfold noteReceive; split <;> simp
@[simp] theorem State.sendRefusal_form (bill code : Nat) :
    (s.sendRefusal bill code).form = s.form := by simp [State.sendRefusal]
@[simp] theorem State.acceptRow_form (src bill : Nat) (data : List Byte) : (s.acceptRow src bill data).form = s.form := by
  unfold State.acceptRow; dsimp only; split <;> simp
@[simp] theorem State.rowGone_form (c : Nat) (n : RxNote) (e i : Nat) : (s.rowGone c n e i).form = s.form := by
  unfold State.rowGone; split <;> simp

/-- The state in which a row that finds room was taken. -/
theorem State.rowNow_form {s t : State} {src bill : Nat} {data : List Byte} (h : s.rowNow src bill data = some t) :
    t.form = s.form := by
  unfold State.rowNow at h
  dsimp only at h
  split at h
  · cases h
    rfl
  · split at h
    · split at h <;> cases h <;> simp
    · split at h
      · cases h
        simp
      · split at h
        · cases h
          simp
        · split at h
          · cases h
            simp
          · split at h
            · split at h <;> cases h <;> simp
            · split at h <;> cases h
              simp

@[simp] theorem rowReceive_form (src bill : Nat) (data : List Byte) : (rowReceive src bill data s).form = s.form := by
  unfold rowReceive
  split_ifs
  · rfl
  · simp
  · cases h : s.rowNow src bill data with
    | none => simp
    | some t => exact State.rowNow_form h

@[simp] theorem State.discardRows_form (c : Nat) (p : RxRow → Bool) (k : Option Ctr) :
    (s.discardRows c p k).form = s.form := by unfold State.discardRows; split <;> simp
@[simp] theorem State.settleNote_form (c : Nat) (n : RxNote) : (s.settleNote c n).form = s.form := by simp [State.settleNote]
@[simp] theorem State.retireNow_form (src c epoch : Nat) : (s.retireNow src c epoch).form = s.form := by
  unfold State.retireNow; split <;> simp

theorem State.heldNow_form {s t : State} {r : HeldRx} (h : s.heldNow r = some t) : t.form = s.form := by
  unfold State.heldNow at h
  split_ifs at h
  · exact State.rowNow_form h
  · cases h
    simp
  · cases h
    simp

theorem State.serveOne_form {s t : State} {l : List HeldRx} {blocked : List Nat} (h : s.serveOne l blocked = some t) :
    t.form = s.form := by
  induction l generalizing blocked with
  | nil => cases h
  | cons x r ih =>
    unfold State.serveOne at h
    split at h
    · exact ih h
    · split at h
      · next hx =>
        cases h
        simpa using State.heldNow_form hx
      · exact ih h

@[simp] theorem serveHeld_form (n : Nat) : (serveHeld n s).form = s.form := by
  induction n generalizing s with
  | zero => rfl
  | succ n ih =>
    unfold serveHeld
    split
    · next ht => exact (ih _).trans (State.serveOne_form ht)
    · rfl

@[simp] theorem State.serveRx_form : s.serveRx.form = s.form := by simp [State.serveRx]
@[simp] theorem batchWindowExpiry_form (c l e i : Nat) : (batchWindowExpiry c l e i s).form = s.form := by
  unfold batchWindowExpiry; split <;> simp

@[simp] theorem answerFromDie_form (die : Nat) (pad : Bool) (bill : Nat) (refusal : Option Nat) (row : List Nat) :
    (answerFromDie die pad bill refusal row s).form = s.form := by
  unfold answerFromDie; (repeat' split) <;> simp

@[simp] theorem retireNotice_form (src c epoch : Nat) : (retireNotice src c epoch s).form = s.form := by
  unfold retireNotice; split <;> simp
@[simp] theorem incompleteNote_form (c id : Nat) : (incompleteNote c id s).form = s.form := by
  unfold incompleteNote; split <;> simp
@[simp] theorem rxAreaAnnounce_form (src c area : Nat) : (rxAreaAnnounce src c area s).form = s.form := by simp [rxAreaAnnounce]

/-! ### Expert residency (07) -/

@[simp] theorem State.guideAll_form (c : Nat) (g : GuideChange) : (s.guideAll c g).form = s.form := by simp [State.guideAll]
@[simp] theorem State.sendRemoval_form (o l e i : Nat) : (s.sendRemoval o l e i).form = s.form := by simp [State.sendRemoval]
@[simp] theorem State.removeHere_form (c l e i : Nat) : (s.removeHere c l e i).form = s.form := by
  unfold State.removeHere; dsimp only; split <;> simp
@[simp] theorem State.retire_form (o l e i : Nat) : (s.retire o l e i).form = s.form := by
  unfold State.retire; split <;> simp
@[simp] theorem State.announce_form (o l e i : Nat) (r : Replica) : (s.announce o l e i r).form = s.form := by
  unfold State.announce; split <;> simp
@[simp] theorem State.freeFrame_form (o l e i : Nat) : (s.freeFrame o l e i).form = s.form := by
  unfold State.freeFrame; split <;> simp
@[simp] theorem State.askLot_form (c : Nat) : (s.askLot c).2.form = s.form := by unfold State.askLot; split <;> simp

@[simp] theorem evictItems_form (o : Nat) (here : List Nat → Nat) {ask : State → Option (Nat × Nat) × State}
    (hask : ∀ t, (ask t).2.form = t.form) (l : List (Nat × Nat × Victim)) (v : Evicted) :
    (evictItems o here ask l v s).2.form = s.form := by
  induction l generalizing v s with
  | nil => rfl
  | cons x r ih =>
    obtain ⟨a, b, w⟩ := x
    cases w with
    | frame l e i =>
      unfold evictItems
      split
      · exact ih ..
      · split <;> simp [ih]
    | col n =>
      have hp := s.farPlace_form o (((s.ctx o).kv.col n).granules.length * granule) (s.colHint o n 0x3) hask
      unfold evictItems
      dsimp only
      split
      · exact ih ..
      · split <;> simp_all

@[simp] theorem State.evictOn_form (o d n : Nat) : (s.evictOn o d n).2.form = s.form := by simp [State.evictOn]
@[simp] theorem State.refuseRows_form (c l e i code : Nat) (handed : Bool) :
    (s.refuseRows c l e i code handed).form = s.form := by simp [State.refuseRows]
@[simp] theorem State.weightError_form (c l e : Nat) : (s.weightError c l e).form = s.form := by
  unfold State.weightError; dsimp only; split <;> simp
@[simp] theorem State.reportUe_form (c l e : Nat) : (s.reportUe c l e).form = s.form := by simp [State.reportUe]
@[simp] theorem State.unreadable_form (o l e i : Nat) : (s.unreadable o l e i).form = s.form := by simp [State.unreadable]

@[simp] theorem fetchStart_form (c l e i : Nat) : (fetchStart c l e i s).form = s.form := by
  unfold fetchStart
  extract_lets +onlyGivenNames -lift o
  split
  · rfl
  · split
    · rfl
    · split
      · simp
      · split
        · split <;> simp
        · split
          · simp
          · split
            · rfl
            · extract_lets +onlyGivenNames -lift n free ev s1 g s2
              have hev : s1.form = s.form := by
                unfold s1 ev
                split <;> simp
              split
              · simpa using hev
              · have h2 : s2.form = s.form := by simpa [s2] using hev
                split_ifs <;> simpa using h2

@[simp] theorem State.onSource_form (o l e : Nat) (f : Source → Source) : (s.onSource o l e f).form = s.form := by simp [State.onSource]
@[simp] theorem State.replicaUe_form (o l e copy i : Nat) : (s.replicaUe o l e copy i).form = s.form := by
  unfold State.replicaUe; split <;> simp
@[simp] theorem State.nextCopy_form (o l e i : Nat) : (s.nextCopy o l e i).form = s.form := by
  unfold State.nextCopy; (repeat' split) <;> simp
@[simp] theorem State.sourceLost_form (o l e i : Nat) : (s.sourceLost o l e i).form = s.form := by
  unfold State.sourceLost; split <;> simp

@[simp] theorem fetchChunk_sound (hs : Sound s.form) (c l e i : Nat) (bad : Bool) : Sound (fetchChunk c l e i bad s).form := by
  unfold fetchChunk
  extract_lets +onlyGivenNames -lift o
  split
  · exact hs
  · extract_lets +onlyGivenNames -lift n src len
    split
    · exact hs
    · extract_lets +onlyGivenNames -lift held
      split
      · simp [hs]
      · extract_lets +onlyGivenNames -lift at_ poison part worse
        split
        · extract_lets s0 s1
          have h0 : Sound s0.form := by unfold s0; split <;> simp [hs]
          have h1 : Sound s1.form := by unfold s1; split <;> simp [h0]
          simp [h1]
        · split
          · have hpoison : Sound poison.2.form := by unfold poison; split <;> simp [hs]
            simp [hpoison]
          · extract_lets s1
            split <;> simp [s1, hs]

@[simp] theorem State.rebuildMirror_form (o l e : Nat) : (s.rebuildMirror o l e).form = s.form := by
  unfold State.rebuildMirror; split <;> simp
@[simp] theorem State.reloaded_form (c l e : Nat) : (s.reloaded c l e).form = s.form := by simp [State.reloaded]
@[simp] theorem State.reloadDone_form (o l e : Nat) : (s.reloadDone o l e).form = s.form := by
  unfold State.reloadDone; split <;> simp
@[simp] theorem State.reloadHere_form (o l e die : Nat) :
    (s.reloadHere o l e die).form = s.form := by simp [State.reloadHere]
@[simp] theorem fetchRequestCmd_form (c l e i prio die : Nat) : (fetchRequestCmd c l e i prio die s).form = s.form := by
  unfold fetchRequestCmd; split <;> simp
@[simp] theorem State.fetched_form (o : Nat) (f : Fetch) : (s.fetched o f).form = s.form := by
  unfold State.fetched; split <;> simp
@[simp] theorem State.handShared_form (o : Nat) : (s.handShared o).form = s.form := by simp [State.handShared]
@[simp] theorem fetchComplete_form (c l e i : Nat) : (fetchComplete c l e i s).form = s.form := by
  unfold fetchComplete; dsimp only; (repeat' split) <;> simp

/-! ### Placement of replicas (07) -/

@[simp] theorem State.orderOne_form (c l e : Nat) (zero : Bool) : (s.orderOne c l e zero).form = s.form := by
  unfold State.orderOne; dsimp only; split <;> simp

@[simp] theorem orderUp_form (c l e w : Nat) (zero : Bool) (n : Nat) : (orderUp c l e w zero n s).form = s.form := by
  induction n generalizing s with
  | zero => rfl
  | succ n ih => simp [orderUp, ih]

@[simp] theorem dropDown_form (c l e w n : Nat) : (dropDown c l e w n s).form = s.form := by
  induction n generalizing s with
  | zero => rfl
  | succ n ih => unfold dropDown; split <;> simp [ih]

@[simp] theorem State.orderPlan_form (c : Nat) (zero : Bool) (k w : Nat) :
    (s.orderPlan c zero k w).form = s.form := by simp [State.orderPlan]
@[simp] theorem State.planReplicas_form (c : Nat) (zero : Bool) : (s.planReplicas c zero).form = s.form := by
  unfold State.planReplicas; split <;> simp
@[simp] theorem State.syncShares_form (c : Nat) : (s.syncShares c).form = s.form := by simp [State.syncShares]
@[simp] theorem State.hintOne_form (c l e kind v : Nat) : (s.hintOne c l e kind v).2.form = s.form := by
  unfold State.hintOne; dsimp only; split_ifs <;> simp

@[simp] theorem hintRange_form (c l kind v : Nat) (es : List Nat) (a h : Nat) :
    (hintRange c l kind v es a h s).2.2.form = s.form := by
  induction es generalizing a h s with
  | nil => rfl
  | cons e r ih => simp [hintRange, ih]

@[simp] theorem State.retryHints_form (c : Nat) : (s.retryHints c).form = s.form := by simp [State.retryHints]
@[simp] theorem State.startMirrors_form (c : Nat) : (s.startMirrors c).form = s.form := by simp [State.startMirrors]
@[simp] theorem expertHint_form : (expertHint c a m s).form = s.form := by unfold expertHint; split <;> simp
@[simp] theorem planPeriod_form (c : Nat) : (planPeriod c s).form = s.form := by
  unfold planPeriod; dsimp only; split <;> simp
@[simp] theorem heatReport_form (src c level : Nat) (heats : List (Nat × Nat)) :
    (heatReport src c level heats s).form = s.form := by unfold heatReport; split <;> simp
@[simp] theorem State.writeEntry_form (o l e i : Nat) (r : Replica) : (s.writeEntry o l e i r).form = s.form := by
  unfold State.writeEntry; split <;> simp
@[simp] theorem State.takePrimary_form (o l e : Nat) (r : Replica) : (s.takePrimary o l e r).form = s.form := by
  unfold State.takePrimary; split <;> simp
@[simp] theorem State.newPrimary_form (o l e pkg : Nat) : (s.newPrimary o l e pkg).form = s.form := by
  unfold State.newPrimary; split <;> simp
@[simp] theorem replicaEntry_form (c l e i pkg die share : Nat) (active : Bool) :
    (replicaEntry c l e i pkg die share active s).form = s.form := by unfold replicaEntry; split <;> simp
@[simp] theorem State.settleAcks_form (o : Nat) : (s.settleAcks o).form = s.form := by simp [State.settleAcks]
@[simp] theorem State.takeAck_form (src c l e i : Nat) : (s.takeAck src c l e i).form = s.form := by simp [State.takeAck]

@[simp] theorem State.sendAcks_form (c : Nat) : (s.sendAcks c).form = s.form := by
  refine (form_foldl _ _ (fun t k => ?_)).trans (State.onResid_form ..)
  split
  · split <;> simp
  · rfl

@[simp] theorem guideRemoval_form (c l e i : Nat) : (guideRemoval c l e i s).form = s.form := by
  unfold guideRemoval; split <;> simp
@[simp] theorem replicaDrain_form (c l e i : Nat) : (replicaDrain c l e i s).form = s.form := by
  unfold replicaDrain; dsimp only; (repeat' split) <;> simp
@[simp] theorem State.leaveHome_form (c pkg : Nat) : (s.leaveHome c pkg).form = s.form := by
  unfold State.leaveHome; split <;> simp
@[simp] theorem teardownAnnounce_form (src c : Nat) : (teardownAnnounce src c s).form = s.form := by
  unfold teardownAnnounce; split <;> simp
@[simp] theorem State.movePrimary_form (o l e d : Nat) : (s.movePrimary o l e d).form = s.form := by
  unfold State.movePrimary; split <;> simp

@[simp] theorem State.dieLost_form (d c : Nat) : (s.dieLost d c).form = s.form := by
  unfold State.dieLost
  split
  · rfl
  · extract_lets me fs gone s1 s2 s3 s4
    have h3 : s3.form = s.form := by simp [s3, s2, s1]
    split <;> simp [s4, h3]

@[simp] theorem ucieDown_form (port : Nat) : (ucieDown port s).form = s.form := by unfold ucieDown; split <;> simp
@[simp] theorem residencyPolicy_form : (residencyPolicy c a m s).form = s.form := by unfold residencyPolicy; split <;> simp
@[simp] theorem residencyQuery_form : (residencyQuery c a m s).form = s.form := by unfold residencyQuery; split <;> simp
@[simp] theorem expertReload_form : (expertReload c a m s).form = s.form := by
  unfold expertReload; dsimp only; (repeat' split) <;> simp

/-! ### Returns and combine (06) -/

@[simp] theorem cutSoftAll_length (n : Nat) (l : List Ctx) : (cutSoftAll n l).length = l.length := by
  induction l generalizing n with
  | nil => rfl
  | cons x r ih => simp [cutSoftAll, ih]

@[simp] theorem State.trimSoft_form : s.trimSoft.form = s.form := by unfold State.trimSoft; split <;> simp

theorem State.claimCol_form {s t : State} {c l p col : Nat} {b : Bool} (h : s.claimCol c l b p col = some t) :
    t.form = s.form := by
  unfold State.claimCol at h
  dsimp only at h
  split_ifs at h <;> cases h
  · rfl
  · simp

theorem claimAll_form {s t : State} {c l p : Nat} {b : Bool} {gs : List Nat} (h : claimAll c l b p gs s = some t) :
    t.form = s.form := by
  induction gs generalizing s with
  | nil =>
    cases h
    rfl
  | cons g r ih =>
    unfold claimAll at h
    split at h
    · cases h
    · next hg => exact (ih h).trans (State.claimCol_form hg)

@[simp] theorem State.freeCol_form (c k col : Nat) : (s.freeCol c k col).form = s.form := by
  simp [State.freeCol, State.onLayer]
@[simp] theorem State.freeRow_form (c l : Nat) (b : Bool) (slot : Nat) :
    (s.freeRow c l b slot).form = s.form := by simp [State.freeRow]
@[simp] theorem State.freeBays_form (c k : Nat) : (s.freeBays c k).form = s.form := by simp [State.freeBays]
@[simp] theorem State.releaseSoft_form (c k : Nat) : (s.releaseSoft c k).form = s.form := by simp [State.releaseSoft]
@[simp] theorem State.combineNow_form (c : Nat) (b : Bill) (k : Nat) (row : List Nat) :
    (s.combineNow c b k row).form = s.form := by simp [State.combineNow]
@[simp] theorem State.drainGroup_form (c l : Nat) (b : Bool) (g : Nat) :
    (s.drainGroup c l b g).form = s.form := by simp [State.drainGroup]
@[simp] theorem State.spillGroup_form (c l : Nat) (b : Bool) (g : Nat) :
    (s.spillGroup c l b g).form = s.form := by simp [State.spillGroup]

theorem State.claimGroup_form {s t : State} {c l g : Nat} {b : Bool} (h : s.claimGroup c l b g = some t) :
    t.form = s.form := by
  unfold State.claimGroup at h
  dsimp only at h
  split at h
  · cases h
  · next ht =>
    split_ifs at h
    cases h
    exact claimAll_form ht

@[simp] theorem State.drainHeld_form (c l : Nat) (b : Bool) : (s.drainHeld c l b).form = s.form := by simp [State.drainHeld]

@[simp] theorem serveClaims_form (n : Nat) : (serveClaims n s).form = s.form := by
  induction n generalizing s with
  | zero => rfl
  | succ n ih =>
    unfold serveClaims
    split
    · rfl
    · split
      · next ht => simpa [ih] using State.claimGroup_form ht
      · rfl

@[simp] theorem State.combine_form (c : Nat) (b : Bill) (conv : Bool) (row : List Nat) :
    (s.combine c b conv row).form = s.form := by
  unfold State.combine
  dsimp only
  split_ifs
  · simp
  · simp
  · simp
  all_goals
    split
    · next ht => simpa using State.claimGroup_form ht
    · simp

@[simp] theorem State.onLand_form (c : Nat) (z : LandBuf) (f : LandBuf → LandBuf) : (s.onLand c z f).form = s.form := by simp [State.onLand]
@[simp] theorem State.setLanding_form (c : Nat) (z : LandBuf) (i v : Nat) : (s.setLanding c z i v).form = s.form := by
  unfold State.setLanding; split <;> simp
@[simp] theorem State.dropLand_form (c : Nat) (z : LandBuf) : (s.dropLand c z).form = s.form := by simp [State.dropLand]
@[simp] theorem State.checkQuarantine_form (c : Nat) (z : LandBuf) : (s.checkQuarantine c z).form = s.form := by
  unfold State.checkQuarantine; split <;> simp
@[simp] theorem State.logTimeout_form (c : Nat) (z : LandBuf) (detail : Nat) : (s.logTimeout c z detail).form = s.form := by
  unfold State.logTimeout; split <;> simp

@[simp] theorem loseRows_form (c : Nat) (z : LandBuf) (l : List (Nat × Nat)) : (loseRows c z l s).form = s.form := by
  induction l generalizing s with
  | nil => rfl
  | cons w r ih =>
    unfold loseRows
    split
    · exact ih s
    · split <;> simp [ih]

@[simp] theorem State.expire_form (c : Nat) (z : LandBuf) (p : Outstanding → Bool) : (s.expire c z p).form = s.form := by
  unfold State.expire; split <;> simp
@[simp] theorem State.expireFor_form (b : Bill) : (s.expireFor b).form = s.form := by simp [State.expireFor]
@[simp] theorem State.takeLive_form (b : Bill) (row : Option (List Nat)) : (s.takeLive b row).form = s.form := by
  unfold State.takeLive; dsimp only; (repeat' split) <;> simp

@[simp] theorem State.takeReturn_form (src bill : Nat) (row : Option (List Nat)) :
    (s.takeReturn src bill row).form = s.form := by
  unfold State.takeReturn; dsimp only; (repeat' split) <;> simp

@[simp] theorem bayWaitSpill_form (c l : Nat) (b : Bool) (g : Nat) : (bayWaitSpill c l b g s).form = s.form := by
  unfold bayWaitSpill; split <;> simp
@[simp] theorem returnTimeout_form (c l : Nat) (b : Bool) (dst index : Nat) :
    (returnTimeout c l b dst index s).form = s.form := by simp [returnTimeout]
@[simp] theorem landingFree_form (c epoch l : Nat) (b : Bool) : (landingFree c epoch l b s).form = s.form := by
  unfold landingFree; (repeat' split) <;> simp
@[simp] theorem quarantineExpiry_form (c epoch l : Nat) (b : Bool) : (quarantineExpiry c epoch l b s).form = s.form := by
  unfold quarantineExpiry; (repeat' split) <;> simp
@[simp] theorem State.emptySlot_form (c l : Nat) (b : Bool) (slot : Nat) : (s.emptySlot c l b slot).form = s.form := by
  unfold State.emptySlot; dsimp only; split <;> simp
@[simp] theorem State.holdSet_form (c k : Nat) (b : Bool) : (s.holdSet c k b).form = s.form := by
  unfold State.holdSet; dsimp only; split <;> simp

@[simp] theorem State.residWrite_sound (hs : Sound s.form) (c l slot fmt : Nat) (row : List Nat) :
    Sound (s.residWrite c l slot fmt row).form := by
  refine sound_foldl _ _ (fun t z ht => ?_) hs
  split <;> simp [ht]

@[simp] theorem State.completeLayer_form (c l : Nat) (b : Bool) : (s.completeLayer c l b).form = s.form := by
  unfold State.completeLayer; dsimp only; split <;> simp
@[simp] theorem fusedPass_sound (hs : Sound s.form) (c l : Nat) (b : Bool) (slot : Nat) : Sound (fusedPass c l b slot s).form := by
  unfold fusedPass; dsimp only; split <;> simp [hs]

/-! ### The Layout Engine (10) -/

@[simp] theorem State.putElem_sound (hs : Sound s.form) (base ebits e v : Nat) : Sound (s.putElem base ebits e v).form := by
  unfold State.putElem; split <;> simp [hs]

@[simp] theorem State.putScalar_sound {t : State} (ht : Sound t.form) (k : LayCmd) (w : Writers Nat) :
    Sound (s.putScalar t k w).form := by
  unfold State.putScalar
  dsimp only
  split_ifs
  · split <;> simp [ht]
  all_goals simp [ht]

@[simp] theorem State.putBlock_sound {t : State} (ht : Sound t.form) (k : LayCmd) (w : Writers (Nat × List Nat)) :
    Sound (s.putBlock t k w).form := by
  unfold State.putBlock
  dsimp only
  split
  · exact ht
  · next v _ =>
    have h1 := sound_foldl t (f := fun u i => u.putElem (s.descBase k.dst) k.dst.ebits (w.at_ + i) (v.2.getD i 0))
      (List.range v.2.length) (fun u i hu => State.putElem_sound u hu ..) ht
    split
    · split
      · exact State.putElem_sound _ h1 ..
      · exact h1
    · exact h1

@[simp] theorem State.layRun_sound (hs : Sound s.form) (k : LayCmd) : Sound (s.layRun k).state.form := by
  unfold State.layRun
  split
  · exact sound_foldl _ _ (fun t w ht => s.putBlock_sound ht k w) hs
  · exact sound_foldl _ _ (fun t w ht => s.putScalar_sound ht k w) hs

@[simp] theorem State.layUndef_sound (hs : Sound s.form) (k : LayCmd) : Sound (s.layUndef k).form := by
  have h1 := sound_foldl s (f := fun t e => t.putElem (s.descBase k.dst) k.dst.ebits e (s.free (2 * e) % 2 ^ k.dst.ebits))
    ((s.positions k).filterMap Pos.dst) (fun t e ht => State.putElem_sound t ht ..) hs
  unfold State.layUndef
  dsimp only
  split
  · refine sound_foldl _ _ (fun t e ht => ?_) h1
    split <;> simp [ht]
  · exact h1

@[simp] theorem State.layArrive_form (k : LayCmd) (v : Nat) : (s.layArrive k v).form = s.form := by
  unfold State.layArrive; split <;> simp

@[simp] theorem State.layDone_sound (hs : Sound s.form) (c : Nat) (k : LayCmd) : Sound (s.layDone c k).form := by
  unfold State.layDone
  simp only [State.layArrive_form, State.bumpCtx_form]
  split <;> simp [hs]

@[simp] theorem State.layReject_form (c : Nat) (k : LayCmd) (status : Nat) :
    (s.layReject c k status).form = s.form := by simp [State.layReject]
@[simp] theorem State.layCancel_sound (hs : Sound s.form) (c : Nat) (k : LayCmd) : Sound (s.layCancel c k).form := by
  unfold State.layCancel; split <;> simp [hs]
@[simp] theorem State.layFault_sound (hs : Sound s.form) (c : Nat) (k : LayCmd) (a : Nat) : Sound (s.layFault c k a).form := by
  unfold State.layFault; split <;> simp [hs]
@[simp] theorem State.layoutAnswer_form (c : Nat) (st : Status) : (s.layoutAnswer c st).form = s.form := by
  unfold State.layoutAnswer; split <;> simp
@[simp] theorem State.killCmds_sound (hs : Sound s.form) (c : Nat) (p : Cmd → Bool) : Sound (s.killCmds c p).form := by
  refine sound_foldl _ _ (fun t k ht => ?_) (by simp [hs])
  split <;> simp [ht]

end

end Machine
end Sys2Proof
end

section
/-! PROOFS. The form through the ends of work, boot, firmware, memory tiers, faults and health: every function keeps it. -/

namespace Sys2Proof
namespace Machine

section
variable (s : State) (c : Nat) (a : List Nat) (m : Msg)

/-! ### Ends of units of work (06, 08, 10, 13, 15) -/

@[simp] theorem State.onLanes_form (c : Nat) (f : Lanes → Lanes) : (s.onLanes c f).form = s.form := by simp [State.onLanes]
@[simp] theorem State.unqueue_form (c id : Nat) : (s.unqueue c id).form = s.form := by simp [State.unqueue]
@[simp] theorem State.retireLaunch_form (c : Nat) (l : Launch) (st : Nat) : (s.retireLaunch c l st).form = s.form := by
  unfold State.retireLaunch; split <;> simp
@[simp] theorem State.onCore_form (n : Nat) (f : Core → Core) : (s.onCore n f).form = s.form := by simp [State.onCore]
@[simp] theorem State.finishCore_sound (hs : Sound s.form) (n : Nat) : Sound (s.finishCore n).form := by
  unfold State.finishCore
  dsimp only
  split <;> simp [hs, memWf_filter]
@[simp] theorem State.settleCores_sound (hs : Sound s.form) : Sound s.settleCores.form := by
  unfold State.settleCores
  split
  · exact sound_foldl _ _ (fun t n ht => State.finishCore_sound t ht n) hs
  · exact hs
@[simp] theorem State.finishLaunch_form (c : Nat) (l : Launch) (st : Nat) : (s.finishLaunch c l st).form = s.form := by
  unfold State.finishLaunch; split <;> simp
@[simp] theorem State.settleDying_form : s.settleDying.form = s.form := by simp [State.settleDying]
theorem State.undefineArgs_wf (hs : Sound s.form) (c : Nat) : memWf (s.undefineArgs c) = true := by
  unfold State.undefineArgs
  refine memWf_of_sound (sound_foldl _ _ (fun t r ht => sound_foldl _ _ (fun u i hu => ?_) ht) hs)
  split <;> simp [hu]

@[simp] theorem State.killLaunch_sound (hs : Sound s.form) (c id st : Nat) : Sound (s.killLaunch c id st).form := by
  unfold State.killLaunch
  split
  · exact hs
  · next l _ =>
    split_ifs
    · exact hs
    · simp [hs]
    · dsimp only
      generalize hs1 : State.killCmds _ _ _ = s1
      have h1 : Sound s1.form := by simp [← hs1, hs]
      simp [h1, State.undefineArgs_wf]
@[simp] theorem State.stringFault_sound (hs : Sound s.form) (c id i : Nat) : Sound (s.stringFault c id i).form := by
  unfold State.stringFault; split <;> simp [hs]
@[simp] theorem State.releaseHeld_form (c : Nat) : (s.releaseHeld c).form = s.form := by simp [State.releaseHeld]
@[simp] theorem State.quarantine_form (c : Nat) : (s.quarantine c).form = s.form := by simp [State.quarantine]
@[simp] theorem State.restoreEntry_form (e : Entry) : (s.restoreEntry e).form = s.form := by
  unfold State.restoreEntry; split <;> simp
@[simp] theorem State.endPlans_form (c : Nat) : (s.endPlans c).form = s.form := by simp [State.endPlans]
@[simp] theorem State.killStep_form (c : Nat) : (s.killStep c).form = s.form := by
  unfold State.killStep; dsimp only; split <;> simp
@[simp] theorem State.onColl_form (c g id : Nat) (f : Coll → Coll) : (s.onColl c g id f).form = s.form := by simp [State.onColl]
@[simp] theorem State.releaseColl_form (k : Coll) : (s.releaseColl k).form = s.form := by simp [State.releaseColl]
@[simp] theorem State.undefine_sound (hs : Sound s.form) (a n : Nat) : Sound (s.undefine a n).form := by simp [State.undefine, hs]
@[simp] theorem State.answerLaunch_form (c g id : Nat) (st : Status) : (s.answerLaunch c g id st).form = s.form := by
  unfold State.answerLaunch; split <;> simp
@[simp] theorem State.dropColl_form (c g id : Nat) (st : Status) : (s.dropColl c g id st).form = s.form := by
  unfold State.dropColl; split <;> simp
@[simp] theorem State.endColl_sound (hs : Sound s.form) (c g id st : Nat) : Sound (s.endColl c g id st).form := by
  unfold State.endColl
  split
  · extract_lets s0 n s1 s2 s3
    have h1 : Sound s1.form := by unfold s1; split <;> simp [s0, hs]
    split <;> simp [s3, s2, h1]
  · exact hs
@[simp] theorem State.sendCtl_form (c dst g id slab index ctl status : Nat) :
    (s.sendCtl c dst g id slab index ctl status).form = s.form := by simp [State.sendCtl]
@[simp] theorem State.killColl_sound (hs : Sound s.form) (c g id : Nat) : Sound (s.killColl c g id).form := by
  unfold State.killColl; split <;> simp [hs]
@[simp] theorem State.killWork_sound (hs : Sound s.form) (c : Nat) : Sound (s.killWork c).form := by
  have h2 := sound_foldl (s.killStep c) (f := fun t (l : Launch) => t.killLaunch c l.id 3) ((s.killStep c).ctx c).lanes.launches
    (fun t l ht => State.killLaunch_sound t ht ..) (by simp [hs])
  exact sound_foldl _ _ (fun t k ht => State.killColl_sound t ht ..) (State.killCmds_sound _ h2 ..)

/-! ### Teardown and halts (15) -/

@[simp] theorem State.abortMsgs_form (c : Nat) (st : Status) : (s.abortMsgs c st).form = s.form := by simp [State.abortMsgs]
@[simp] theorem State.clearShares_form (c : Nat) : (s.clearShares c).form = s.form := by simp [State.clearShares]
@[simp] theorem State.passFrame_sound (hs : Sound s.form) (j : Nat) (f : Frame) : Sound (s.passFrame j f).form := by
  unfold State.passFrame
  dsimp only
  split <;> simp [hs, memWf_granFill]
@[simp] theorem State.passImages_sound (hs : Sound s.form) (c : Nat) : Sound (s.passImages c).form := by
  unfold State.passImages
  split
  · exact hs
  · exact sound_foldl _ _ (fun t f ht => State.passFrame_sound t ht ..) (by simp [hs])
@[simp] theorem State.tearDown_sound (hs : Sound s.form) (c : Nat) : Sound (s.tearDown c).form := by
  unfold State.tearDown
  split
  · exact hs
  · extract_lets s1 s2 s3 s4
    have h2 : Sound s2.form := by simp [s2, s1, hs]
    have h3 : Sound s3.form := by simpa [s3] using h2
    simp [s4, h3]
@[simp] theorem State.haltPart_sound (hs : Sound s.form) (p : Nat) : Sound (s.haltPart p).form := by
  unfold State.haltPart
  split
  · exact hs
  · exact sound_foldl _ _ (fun t c ht => by simp [ht]) (by simp [hs])
@[simp] theorem State.killAll_sound (hs : Sound s.form) : Sound s.killAll.form :=
  sound_foldl _ _ (fun t c ht => State.killWork_sound t ht c) hs
@[simp] theorem State.fwLost_form (n : Nat) : (s.fwLost n).form = s.form := by unfold State.fwLost; split <;> simp

/-! ### Boot and training (19) -/

@[simp] theorem State.bootBundle_form (f : Nat) (b : List Byte) : (s.bootBundle f b).form = s.form := by simp [State.bootBundle]
@[simp] theorem State.flashOk_form (f : Nat) (ok : Bool) : (s.flashOk f ok).form = s.form := by simp [State.flashOk]
@[simp] theorem bundleLoad_form : (bundleLoad s).form = s.form := by
  unfold bundleLoad; (repeat' split) <;> simp
@[simp] theorem recoveryLen_form (len : Nat) : (recoveryLen len s).form = s.form := by unfold recoveryLen; split <;> simp
@[simp] theorem State.checkReady_form : s.checkReady.form = s.form := by unfold State.checkReady; split <;> simp
@[simp] theorem State.bootFailed_form : s.bootFailed.form = s.form := by simp [State.bootFailed]
@[simp] theorem ucieTrain_form (port modules dieBytes : Nat) : (ucieTrain port modules dieBytes s).form = s.form := by
  unfold ucieTrain; split <;> simp
@[simp] theorem hbmTrain_form (stack : Nat) (ok : Bool) : (hbmTrain stack ok s).form = s.form := by
  unfold hbmTrain; split <;> simp
@[simp] theorem cxlTrain_form (port : Nat) (ok : Bool) (bytes : Nat) : (cxlTrain port ok bytes s).form = s.form := by
  unfold cxlTrain; split <;> simp
@[simp] theorem t1Copy_form : (t1Copy s).form = s.form := by unfold t1Copy; split <;> simp

/-! ### Management links (19) -/

@[simp] theorem State.onPath_form (p : Nat) (f : MctpPath → MctpPath) : (s.onPath p f).form = s.form := by simp [State.onPath]

@[simp] theorem mctpPacket_form (path src tag seq : Nat) (som eom : Bool) (body : List Byte) :
    (mctpPacket path src tag seq som eom body s).form = s.form := by
  unfold mctpPacket; dsimp only; (repeat' split) <;> simp

@[simp] theorem mctpTimeout_form (path : Nat) : (mctpTimeout path s).form = s.form := by unfold mctpTimeout; split <;> simp
@[simp] theorem mctpSetEid_form (path eid : Nat) : (mctpSetEid path eid s).form = s.form := by
  unfold mctpSetEid; split <;> simp
@[simp] theorem i3cEntdaa_form (a : Nat) : (i3cEntdaa a s).form = s.form := by unfold i3cEntdaa; split <;> simp
@[simp] theorem mctpProta_form (path : Nat) : (mctpProta path s).form = s.form := by
  unfold mctpProta; (repeat' split) <;> simp
@[simp] theorem State.spdmReply_form (t : Nat) (r : SpdmReq) : (s.spdmReply t r).form = s.form := by simp [State.spdmReply]
@[simp] theorem spdm_form (t : Nat) (r : SpdmReq) : (spdm t r s).form = s.form := by
  unfold spdm; (repeat' split) <;> simp

@[simp] theorem spdmDrain_form (l : List (Nat × SpdmReq)) : (spdmDrain l s).form = s.form := by
  induction l generalizing s with
  | nil => rfl
  | cons x r ih => simp [spdmDrain, ih]

@[simp] theorem State.tap_form (i : TapInstr) (driving released : Bool) : (s.tap i driving released).form = s.form := by simp [State.tap]
@[simp] theorem jtagBypass_form : (jtagBypass s).form = s.form := by unfold jtagBypass; split <;> simp
@[simp] theorem jtagIdcode_form : (jtagIdcode s).form = s.form := by unfold jtagIdcode; split <;> simp
@[simp] theorem jtagSample_form (pins : Nat) : (jtagSample pins s).form = s.form := by unfold jtagSample; split <;> simp
@[simp] theorem jtagOnlyInReset_form (i : TapInstr) (driving released : Bool) :
    (jtagOnlyInReset i driving released s).form = s.form := by unfold jtagOnlyInReset; split <;> simp

/-! ### Firmware processors (16) -/

@[simp] theorem completeAll_form (l : List Msg) (h : Nat) (st : Status) :
    (completeAll l h st s).form = s.form := by simp [completeAll]
@[simp] theorem State.restart_form (n cause : Nat) (keep : Option Msg) : (s.restart n cause keep).form = s.form := by
  unfold State.restart; split_ifs <;> simp
@[simp] theorem watchdogExpiry_form (n : Nat) : (watchdogExpiry n s).form = s.form := by
  unfold watchdogExpiry; dsimp only; split <;> simp
@[simp] theorem fwpException_form (n : Nat) (memErr : Bool) : (fwpException n memErr s).form = s.form := by
  unfold fwpException; split <;> simp
@[simp] theorem State.setAct_form (a : ActSt) : (s.setAct a).form = s.form := by simp [State.setAct]
@[simp] theorem State.defer_form : s.defer.form = s.form := by simp [State.defer]
@[simp] theorem State.advance_form (keep : Option Msg) : (s.advance keep).form = s.form := by
  unfold State.advance; split <;> simp
@[simp] theorem activationResume_form : (activationResume s).form = s.form := by unfold activationResume; split <;> simp
@[simp] theorem State.restartAll_form : s.restartAll.form = s.form := by simp [State.restartAll]
@[simp] theorem waitE0_form : (waitE0 s).form = s.form := by unfold waitE0; split <;> simp
@[simp] theorem State.loadImage_form (n : Nat) : (s.loadImage n).form = s.form := by unfold State.loadImage; split <;> simp
@[simp] theorem State.stewardBack_form : s.stewardBack.form = s.form := by simp [State.stewardBack]
@[simp] theorem State.onPort_form (p : Nat) (f : Port → Port) : (s.onPort p f).form = s.form := by simp [State.onPort]
@[simp] theorem State.realign_form : s.realign.form = s.form := by
  unfold State.realign; (repeat' split) <;> simp
@[simp] theorem State.wayfinderBack_form : s.wayfinderBack.form = s.form := by
  unfold State.wayfinderBack; dsimp only; split <;> simp
@[simp] theorem restartComplete_form (n : Nat) : (restartComplete n s).form = s.form := by
  unfold restartComplete; split <;> simp
@[simp] theorem bundleProven_form : (bundleProven s).form = s.form := by unfold bundleProven; split <;> simp
@[simp] theorem fwActivate_form : (fwActivate a m s).form = s.form := by unfold fwActivate; split <;> simp
@[simp] theorem fwWithdraw_form : (fwWithdraw a m s).form = s.form := by unfold fwWithdraw; split <;> simp
@[simp] theorem fwQuery_form : (fwQuery a m s).form = s.form := by simp [fwQuery]
@[simp] theorem fwpRestart_form : (fwpRestart a m s).form = s.form := by unfold fwpRestart; split <;> simp
@[simp] theorem fwpWatchdog_form : (fwpWatchdog a m s).form = s.form := by unfold fwpWatchdog; split <;> simp

@[simp] theorem logRead_form : (logRead a m s).form = s.form := by
  unfold logRead
  split
  · exact checked_form _ _ rfl
  · rfl

@[simp] theorem traceMask_form : (traceMask a m s).form = s.form := by unfold traceMask; split <;> simp

/-! ### Memory tiers (11) -/

@[simp] theorem State.memUe_form (c a : Nat) : (s.memUe c a).form = s.form := by simp [State.memUe]
@[simp] theorem tierQuery_form : (tierQuery c a m s).form = s.form := by simp [tierQuery]
@[simp] theorem State.seqHint_form (c q kind : Nat) : (s.seqHint c q kind).2.form = s.form := by
  unfold State.seqHint; dsimp only; split_ifs <;> simp
@[simp] theorem State.applyHeld_form (c : Nat) : (s.applyHeld c).form = s.form := by simp [State.applyHeld]

@[simp] theorem moveCols_form (c lender : Nat) (l : List Nat) : (moveCols c lender l s).form = s.form := by
  induction l generalizing s with
  | nil => rfl
  | cons n r ih => unfold moveCols; split <;> simp [ih]

@[simp] theorem moveSources_form (c : Nat) (b : Borrowed) (l : List Nat) : (moveSources c b l s).form = s.form := by
  induction l generalizing s with
  | nil => rfl
  | cons k r ih =>
    unfold moveSources
    split
    · exact ih s
    · split <;> simp [ih]

@[simp] theorem State.evacuate_form (c : Nat) (l : Borrowed) : (s.evacuate c l).form = s.form := by simp [State.evacuate]
@[simp] theorem State.recallHere_form (c lender base : Nat) : (s.recallHere c lender base).form = s.form := by
  unfold State.recallHere; split <;> simp
@[simp] theorem memHint_form : (memHint c a m s).form = s.form := by unfold memHint; split <;> simp
@[simp] theorem lendConfig_form : (lendConfig a m s).form = s.form := by unfold lendConfig; split <;> simp
@[simp] theorem lotRequest_form (lender borrower c base : Nat) : (lotRequest lender borrower c base s).form = s.form := by
  unfold lotRequest; split <;> simp
@[simp] theorem lotRecall_form (lender c base : Nat) : (lotRecall lender c base s).form = s.form := by
  unfold lotRecall; (repeat' split) <;> simp
@[simp] theorem recallOverdue_form (base : Nat) : (recallOverdue base s).form = s.form := by
  unfold recallOverdue; split <;> simp
@[simp] theorem State.wakeLotWait_form : s.wakeLotWait.form = s.form := by simp [State.wakeLotWait]
@[simp] theorem lotRelease_form (lender c base : Nat) : (lotRelease lender c base s).form = s.form := by
  unfold lotRelease; (repeat' split) <;> simp

@[simp] theorem kvEviction_form (c : Nat) (grant : Option (Nat × Nat)) : (kvEviction c grant s).form = s.form := by
  unfold kvEviction
  extract_lets +onlyGivenNames -lift x want
  split
  · rfl
  · extract_lets +onlyGivenNames -lift ask r done
    have hask (t : State) : (ask t).2.form = t.form := by
      unfold ask
      split
      · rfl
      · dsimp only
        split <;> simp
    simp [r, hask]

@[simp] theorem returnCols_sound (hs : Sound s.form) (c d : Nat) (l : List Nat) : Sound (returnCols c d l s).2.form := by
  induction l generalizing s with
  | nil => exact hs
  | cons n r ih =>
    unfold returnCols
    dsimp only
    split
    · exact ih s hs
    · split
      · exact ih s hs
      · exact ih _ (by simp [hs])

@[simp] theorem kvFarReturn_sound (hs : Sound s.form) (c : Nat) : Sound (kvFarReturn c s).form := by
  unfold kvFarReturn; dsimp only; split <;> simp [hs]
@[simp] theorem memRead_form (src c a n : Nat) (poison : Bool) : (memRead src c a n poison s).form = s.form := by
  unfold memRead; split <;> simp
@[simp] theorem memWriteIn_sound (hs : Sound s.form) (a : Nat) (data : List Byte) : Sound (memWriteIn a data s).form := by
  unfold memWriteIn; split <;> simp [hs]
@[simp] theorem memAtomic_sound (hs : Sound s.form) (src c a v : Nat) (float : Bool) :
    Sound (memAtomic src c a v float s).form := by
  unfold memAtomic; split <;> simp [hs]
@[simp] theorem cxlTimeout_form (a : Nat) : (cxlTimeout a s).form = s.form := by unfold cxlTimeout; split <;> simp

@[simp] theorem fwStage_form : (fwStage a m s).form = s.form := by
  unfold fwStage
  split
  · dsimp only
    split
    · rfl
    · exact checked_form _ _ rfl
  · rfl

@[simp] theorem flashWritten_form : (flashWritten s).form = s.form := by unfold flashWritten; split <;> simp

/-! ### The Fault Collector (18) -/

@[simp] theorem State.haltAll_sound (hs : Sound s.form) : Sound s.haltAll.form := by
  simpa [State.haltAll] using sound_foldl s (List.range 8) (fun t p ht => State.haltPart_sound t ht p) hs
@[simp] theorem State.stopC4_form : s.stopC4.form = s.form := by simp [State.stopC4]
@[simp] theorem State.classAction_sound (hs : Sound s.form) (m : FaultMsg) : Sound (s.classAction m).form := by
  unfold State.classAction; split <;> simp [hs]
@[simp] theorem State.latch_form (m : FaultMsg) : (s.latch m).form = s.form := by unfold State.latch; split <;> simp
@[simp] theorem State.enqueue_form (m : FaultMsg) : (s.enqueue m).form = s.form := by unfold State.enqueue; split <;> simp
@[simp] theorem State.collect_sound (hs : Sound s.form) (m : FaultMsg) : Sound (s.collect m).form := by simp [State.collect, hs]
@[simp] theorem State.found_form (f : FoundFault) : (s.found f).form = s.form := by unfold State.found; split <;> simp
@[simp] theorem faultTake_sound (hs : Sound s.form) (f : Option FoundFault) : Sound (faultTake f s).form := by
  unfold faultTake; dsimp only; (repeat' split) <;> simp [hs]
@[simp] theorem State.store_form (m : FaultMsg) : (s.store m).form = s.form := by simp [State.store]
@[simp] theorem State.rearm_form (m : FaultMsg) : (s.rearm m).form = s.form := by unfold State.rearm; split <;> simp
@[simp] theorem State.drainOne_form (e : Nat × FaultMsg) : (s.drainOne e).form = s.form := by
  unfold State.drainOne; split <;> simp
@[simp] theorem faultDrain_form : (faultDrain s).form = s.form := by unfold faultDrain; split <;> simp
@[simp] theorem faultRead_form : (faultRead a m s).form = s.form := by unfold faultRead; split <;> simp
@[simp] theorem faultWindow_form : (faultWindow a m s).form = s.form := by unfold faultWindow; split <;> simp
@[simp] theorem State.countIn_form (x : CountWin) : (s.countIn x).form = s.form := by unfold State.countIn; split <;> simp
@[simp] theorem correctedError_form (source : Nat) (a : Option Nat) : (correctedError source a s).form = s.form := by
  unfold correctedError; (repeat' split) <;> simp
@[simp] theorem windowClose_form (source : Nat) : (windowClose source s).form = s.form := by simp [windowClose]

/-! ### Health and power (18) -/

@[simp] theorem State.moveSets_form : s.moveSets.form = s.form := by simp [State.moveSets]
@[simp] theorem State.relevel_form (q : Nat) : (s.relevel q).form = s.form := by
  unfold State.relevel; dsimp only; split <;> simp
@[simp] theorem State.shutdown_sound (hs : Sound s.form) : Sound s.shutdown.form := by
  unfold State.shutdown; (repeat' split) <;> simp [hs]
@[simp] theorem State.noteEmergency_form (before : Bool) : (s.noteEmergency before).form = s.form := by
  unfold State.noteEmergency; split <;> simp
@[simp] theorem State.settle_sound (hs : Sound s.form) (b : State) : Sound (s.settle b).form := by simp [State.settle, hs]
@[simp] theorem State.onQuarter_form (q : Nat) (f : Quarter → Quarter) : (s.onQuarter q f).form = s.form := by simp [State.onQuarter]
@[simp] theorem State.throttleTrigger_form : s.throttleTrigger.form = s.form := by simp [State.throttleTrigger]

@[simp] theorem throttleN_sound (hs : Sound s.form) (high : Bool) : Sound (throttleN high s).form := by
  unfold throttleN; split <;> simp [hs]

@[simp] theorem State.senseQuarter_form (q : Nat) (r : PaceReading) :
    (s.senseQuarter q r).form = s.form := by simp [State.senseQuarter]
@[simp] theorem State.moveTogether_form (p : SkewPair) : (s.moveTogether p).form = s.form := by
  unfold State.moveTogether; dsimp only; split <;> simp
@[simp] theorem State.answerSkew_form (i : Nat) : (s.answerSkew i).form = s.form := by
  unfold State.answerSkew; split <;> simp
@[simp] theorem State.evalPairs_form : s.evalPairs.form = s.form := by simp [State.evalPairs]
@[simp] theorem State.noteCalm_form : s.noteCalm.form = s.form := by simp [State.noteCalm]

@[simp] theorem paceSample_sound (hs : Sound s.form) (rs : List PaceReading) : Sound (paceSample rs s).form := by
  unfold paceSample
  split
  · exact hs
  · extract_lets +onlyGivenNames -lift s1 s2 s3
    have h1 : s1.form = s.form := form_foldl _ _ fun t q => by split <;> simp
    have h3 : Sound s3.form := by simp [s3, s2, h1, hs]
    split <;> simp [h3]

@[simp] theorem powerSample_sound (hs : Sound s.form) (watts : Nat) (qs : List Nat) : Sound (powerSample watts qs s).form := by
  unfold powerSample; split <;> simp [hs]

@[simp] theorem State.ageQuarter_form (q : Nat) : (s.ageQuarter q).form = s.form := by
  unfold State.ageQuarter; dsimp only; split <;> simp
@[simp] theorem ageingHourly_form : (ageingHourly s).form = s.form := by unfold ageingHourly; split <;> simp
@[simp] theorem healthQuery_form : (healthQuery a m s).form = s.form := by simp [healthQuery]
@[simp] theorem quarterQuery_form : (quarterQuery a m s).form = s.form := by simp [quarterQuery]

/-! ### Timebase status (14) -/

@[simp] theorem State.elapse_form (n : Nat) : (s.elapse n).form = s.form := by
  induction n generalizing s with
  | zero => rfl
  | succ n ih =>
    unfold State.elapse
    simp only [ih]
    split_ifs <;> simp

@[simp] theorem State.fabricComplete_form : s.fabricComplete.form = s.form := by unfold State.fabricComplete; split <;> simp
@[simp] theorem fabricTimeout_form : (fabricTimeout s).form = s.form := by unfold fabricTimeout; split <;> simp
@[simp] theorem timestampSend_form (p : Nat) : (timestampSend p s).form = s.form := by unfold timestampSend; split <;> simp
@[simp] theorem timebaseHoldover_form : (timebaseHoldover s).form = s.form := by unfold timebaseHoldover; split <;> simp
@[simp] theorem holdoverLog_form : (holdoverLog s).form = s.form := by unfold holdoverLog; split <;> simp
@[simp] theorem timeQuery_form : (timeQuery c a m s).form = s.form := by simp [timeQuery]

end

end Machine
end Sys2Proof
end

section
/-! PROOFS. The form through partitions, models, sequences, steps and dispatch: every function keeps it. -/

namespace Sys2Proof
namespace Machine

section
variable (s : State) (c : Nat) (a : List Nat) (m : Msg)

/-! ### Partitions and contexts (15) -/

@[simp] theorem partConfig_form : (partConfig a m s).form = s.form := by unfold partConfig; split <;> simp
@[simp] theorem partQuery_form : (partQuery a m s).form = s.form := by unfold partQuery; split <;> simp
@[simp] theorem tollConfig_form : (tollConfig a m s).form = s.form := by unfold tollConfig; split <;> simp
@[simp] theorem tollStats_form : (tollStats a m s).form = s.form := by unfold tollStats; split <;> simp
@[simp] theorem State.partClear_form (p : Nat) : (s.partClear p).form = s.form := by simp [State.partClear]
@[simp] theorem State.endResets_form (p : Nat) : (s.endResets p).form = s.form := by
  unfold State.endResets; dsimp only; split <;> simp
@[simp] theorem partReset_sound (hs : Sound s.form) : Sound (partReset a m s).form := by
  unfold partReset
  split
  · refine checked_sound _ _ ?_ hs
    split
    · simp [hs]
    · exact sound_foldl _ _ (fun t c ht => State.tearDown_sound t ht c) hs
  · exact hs
@[simp] theorem ctxDestroy_sound (hs : Sound s.form) : Sound (ctxDestroy c a m s).form := by simp [ctxDestroy, hs]
@[simp] theorem teardownFree_form (c : Nat) : (teardownFree c s).form = s.form := by
  unfold teardownFree; dsimp only; split <;> simp
@[simp] theorem teardownStuck_form (c : Nat) : (teardownStuck c s).form = s.form := by
  unfold teardownStuck; dsimp only; split <;> simp

@[simp] theorem ctxCreate_form : (ctxCreate a m s).form = s.form := by
  unfold ctxCreate
  split
  · refine checked_form _ _ ?_
    split
    · split <;> rfl
    · simp
  · rfl

@[simp] theorem ctxQuery_form : (ctxQuery a m s).form = s.form := by unfold ctxQuery; split <;> simp
@[simp] theorem stepKill_form : (stepKill c a m s).form = s.form := by unfold stepKill; split <;> simp
@[simp] theorem ctxResume_form : (ctxResume c a m s).form = s.form := by simp [ctxResume]
@[simp] theorem slicePass_form (p : Nat) : (slicePass p s).form = s.form := by unfold slicePass; split <;> simp
@[simp] theorem State.killSlice_sound (hs : Sound s.form) (c t : Nat) : Sound (s.killSlice c t).form := by
  unfold State.killSlice
  extract_lets s1 s2
  have h1 : Sound s1.form := by unfold s1; split <;> simp [hs]
  exact State.killCmds_sound _ (sound_foldl _ _ (fun u l hu => State.killLaunch_sound u hu ..) h1) ..
@[simp] theorem overrunDeadline_sound (hs : Sound s.form) (p : Nat) : Sound (overrunDeadline p s).form := by
  unfold overrunDeadline; split <;> simp [hs]

/-! ### The layout queue (10) -/

@[simp] theorem layoutRun_sound (hs : Sound s.form) : Sound (layoutRun a m s).form := by
  unfold layoutRun
  dsimp only
  split
  · refine checked_sound _ _ ?_ hs
    split
    · simp [hs]
    · simp [hs]
    · split_ifs <;> simp [hs]
  · exact hs
@[simp] theorem layoutStart_form (c : Nat) : (layoutStart c s).form = s.form := by
  unfold layoutStart; dsimp only; (repeat' split) <;> simp
@[simp] theorem layoutComplete_sound (hs : Sound s.form) (c i : Nat) (ue : Option Nat) : Sound (layoutComplete c i ue s).form := by
  unfold layoutComplete; dsimp only; (repeat' split) <;> simp [hs]

/-! ### Models (07) -/

@[simp] theorem State.takeModel_form (c : Nat) (m : Model) (src : Tbl Source) : (s.takeModel c m src).form = s.form := by simp [State.takeModel]
@[simp] theorem modelLoad_form : (modelLoad c a m s).form = s.form := by
  unfold modelLoad; dsimp only; (repeat' split) <;> simp
@[simp] theorem modelImages_form : (modelImages c a m s).form = s.form := by unfold modelImages; split <;> simp
@[simp] theorem planSet_form : (planSet c a m s).form = s.form := by unfold planSet; split <;> simp

/-! ### Sequences (03) -/

@[simp] theorem State.writeLists_sound (hs : Sound s.form) (q : Nat) : Sound (s.writeLists q).form := by simp [State.writeLists, hs]
@[simp] theorem State.writeFeed_sound (hs : Sound s.form) (seg : Nat) (toks : List Nat) :
    Sound (s.writeFeed seg toks).form := by simp [State.writeFeed, hs]
@[simp] theorem State.freeSegs_form (l : List (Nat × Nat)) : (s.freeSegs l).form = s.form := by simp [State.freeSegs]
@[simp] theorem State.freeSequence_form (q : Nat) : (s.freeSequence q).form = s.form := by simp [State.freeSequence]
@[simp] theorem State.note_form (c q flags : Nat) : (s.note c q flags).form = s.form := by simp [State.note]
@[simp] theorem State.leave_form (q : Nat) : (s.leave q).form = s.form := by simp [State.leave]

@[simp] theorem unlessHeld_form (c : Nat) {k : Act} (h : k.form = s.form) : (unlessHeld c s k).form = s.form := by
  unfold unlessHeld
  split
  · rfl
  · exact h

theorem unlessHeld_sound (c : Nat) {k : Act} (h : Sound k.form) (hs : Sound s.form) : Sound (unlessHeld c s k).form := by
  unfold unlessHeld
  split
  · exact hs
  · exact h

/-- The state in which an allocation for a sequence failed. -/
theorem State.form_of_allocOr_inl {s t u : State} {c n : Nat} (h : s.allocOr t c n = .inl u) : u.form = s.form := by
  unfold State.allocOr at h
  split at h
  · cases h
  · split at h <;> cases h
    simp

/-- The state that an allocation for a sequence leaves. -/
theorem State.form_of_allocOr_inr {s t u : State} {c n a : Nat} (h : s.allocOr t c n = .inr (u, a)) : u.form = t.form := by
  unfold State.allocOr at h
  split at h
  · cases h
    rfl
  · split at h
    · next ha =>
      cases h
      exact State.form_of_khanAlloc ha
    · cases h

@[simp] theorem State.seedFor_form (c seed : Nat) : (s.seedFor c seed).2.form = s.form := by
  unfold State.seedFor; split <;> simp

@[simp] theorem seqOpen_sound (hs : Sound s.form) : Sound (seqOpen c a m s).form := by
  refine unlessHeld_sound _ _ ?_ hs
  split
  · refine checked_sound _ _ ?_ hs
    split
    · next ht => simp [State.form_of_allocOr_inl ht, hs]
    · next ht =>
      have ht := State.form_of_allocOr_inr ht
      split
      · next hu => simp [State.form_of_allocOr_inl hu, hs]
      · next hu => simp [State.form_of_allocOr_inr hu, ht, hs]
  · exact hs

@[simp] theorem seqFeed_sound (hs : Sound s.form) : Sound (seqFeed c a m s).form := by
  refine unlessHeld_sound _ _ ?_ hs
  split
  · refine checked_sound _ _ ?_ hs
    split
    · simp [hs]
    · split
      · next ht => simp [State.form_of_allocOr_inl ht, hs]
      · next ht => simp [State.form_of_allocOr_inr ht, hs]
  · exact hs

@[simp] theorem seqRetire_form : (seqRetire c a m s).form = s.form := by unfold seqRetire; split <;> simp
@[simp] theorem State.raiseGen_form (c : Nat) (e : Entry) : (s.raiseGen c e).form = s.form := by
  unfold State.raiseGen; split <;> simp
@[simp] theorem State.cancelSeq_form (c q flags : Nat) : (s.cancelSeq c q flags).form = s.form := by
  unfold State.cancelSeq; split <;> simp

@[simp] theorem seqCancel_form : (seqCancel c a m s).form = s.form := by
  refine unlessHeld_form _ _ ?_
  split
  · refine checked_form _ _ ?_
    split <;> simp
  · rfl

@[simp] theorem State.forkCol_sound (hs : Sound s.form) (c n : Nat) : Sound (s.forkCol c n).2.form := by
  unfold State.forkCol; dsimp only; (repeat' split) <;> simp [hs]

@[simp] theorem forkCols_sound (hs : Sound s.form) (c : Nat) (l : List Nat) : Sound (forkCols c l s).2.form := by
  induction l generalizing s with
  | nil => exact hs
  | cons n r ih => simp [forkCols, ih, hs]

@[simp] theorem seqFork_sound (hs : Sound s.form) : Sound (seqFork c a m s).form := by
  refine unlessHeld_sound _ _ ?_ hs
  split
  · refine checked_sound _ _ ?_ hs
    split_ifs
    · simp [hs]
    · split
      · next ht => simp [State.form_of_allocOr_inl ht, hs]
      · next u _ ht =>
        have hu : Sound u.form := by simp [State.form_of_allocOr_inr ht, hs]
        extract_lets q f r d
        have hf : Sound f.2.form := by simp [f, hu]
        have hr : Sound r.2.form := by simp [r, hf]
        simp [d, hr]
  · exact hs

@[simp] theorem seqQuery_form : (seqQuery c a m s).form = s.form := by unfold seqQuery; split <;> simp
@[simp] theorem seqSetSampler_form : (seqSetSampler c a m s).form = s.form := by unfold seqSetSampler; split <;> simp
@[simp] theorem stepConfig_form : (stepConfig c a m s).form = s.form := by
  unfold stepConfig; dsimp only; (repeat' split) <;> simp
@[simp] theorem stepRecords_form : (stepRecords c a m s).form = s.form := by simp [stepRecords]

/-! ### The Sampler (03) -/

@[simp] theorem logitRow_form (c slot fmt : Nat) (logits : List Nat) : (logitRow c slot fmt logits s).form = s.form := by
  unfold logitRow; (repeat' split) <;> simp
@[simp] theorem manifestRead_form (die c : Nat) : (manifestRead die c s).form = s.form := by
  unfold manifestRead; split <;> simp

/-! ### The step boundary (03) -/

@[simp] theorem State.commitPrefix_form (c : Nat) (e : Entry) : (s.commitPrefix c e).form = s.form := by
  unfold State.commitPrefix; dsimp only; split <;> simp
@[simp] theorem State.moveSeq_form (q : Nat) (o : Outcome) : (s.moveSeq q o).form = s.form := by
  unfold State.moveSeq; split <;> simp

@[simp] theorem State.commitEntry_sound (hs : Sound s.form) (c epoch : Nat) (e : Entry) :
    Sound (s.commitEntry c epoch e).1.form := by
  unfold State.commitEntry
  extract_lets losses s0 o q0 f deg old s1 s2 s3
  split
  · exact hs
  · have h0 : Sound s0.form := by simp [s0, hs]
    have h2 : Sound s2.form := by unfold s2; split <;> simp [s1, h0]
    simp [s3, h2]

@[simp] theorem commitAll_sound (hs : Sound s.form) (c epoch : Nat) (l : List Entry) : Sound (commitAll c epoch l s).2.form := by
  induction l generalizing s with
  | nil => exact hs
  | cons e r ih => simp [commitAll, ih, hs]

@[simp] theorem State.writeRecord_sound (hs : Sound s.form) (c : Nat) (body : List Byte) :
    Sound (s.writeRecord c body).form := by simp [State.writeRecord, hs]
@[simp] theorem State.commitStep_sound (hs : Sound s.form) (c : Nat) (m : Manifest) :
    Sound (s.commitStep c m).form := by simp [State.commitStep, hs]
@[simp] theorem State.releaseLeavers_form (c : Nat) : (s.releaseLeavers c).form = s.form := by simp [State.releaseLeavers]
@[simp] theorem State.copyRows_sound (hs : Sound s.form) (c src dst r : Nat) : Sound (s.copyRows c src dst r).form := by
  unfold State.copyRows; split <;> simp [hs, memWf_granFill]
@[simp] theorem State.copyAt_sound (hs : Sound s.form) (c q : Nat) (ring : Bool) (die i : Nat) :
    Sound (s.copyAt c q ring die i).form := by
  unfold State.copyAt; dsimp only; split <;> simp [hs]
@[simp] theorem State.grow_sound (hs : Sound s.form) (c q n die : Nat) : Sound (s.grow c q n die).form := by
  unfold State.grow
  extract_lets e x full ring s1 s2 more s3
  have h1 : Sound s1.form := sound_foldl _ _ (fun t i ht => State.copyAt_sound t ht ..) hs
  have h2 : Sound s2.form := sound_foldl _ _ (fun t i ht => State.copyAt_sound t ht ..) h1
  split <;> simp [s3, h2]
@[simp] theorem State.select_form (c q n : Nat) (shrunk : Bool) : (s.select c q n shrunk).2.form = s.form := by
  unfold State.select; dsimp only; split <;> simp
@[simp] theorem State.askEviction_form (c : Nat) (w : Nat × Nat) : (s.askEviction c w).form = s.form := by simp [State.askEviction]

@[simp] theorem growAll_sound (hs : Sound s.form) (c chunk : Nat) (l : List Nat) (b : Nat) :
    Sound (growAll c chunk l b s).2.2.form := by
  induction l generalizing b s with
  | nil => exact hs
  | cons q r ih =>
    unfold growAll
    extract_lets +onlyGivenNames -lift e n0
    split
    · exact hs
    · extract_lets +onlyGivenNames -lift d0 s1 n
      have h1 : Sound s1.form := by unfold s1; split <;> simp [hs]
      clear_value n
      cases n <;> simp [ih, h1]

@[simp] theorem State.admitOne_sound (hs : Sound s.form) (c q chunk die : Nat) (ms : List Node) :
    Sound (s.admitOne c q chunk die ms).form := by simp [State.admitOne, hs]

@[simp] theorem admitAll_sound (hs : Sound s.form) (c chunk : Nat) (l : List Nat) (b : Nat) :
    Sound (admitAll c chunk l b s).2.form := by
  induction l generalizing b s with
  | nil => exact hs
  | cons q r ih =>
    unfold admitAll
    dsimp only
    split_ifs <;> simp [ih, hs]

@[simp] theorem State.planRequests_sound (hs : Sound s.form) (c : Nat) (m : Manifest) : Sound (s.planRequests c m).form := by
  unfold State.planRequests
  dsimp only
  split
  · exact hs
  · refine sound_foldl _ _ (fun t w ht => ?_) hs
    split
    · next hu => simp [State.form_of_khanAlloc hu, ht]
    · next hu => split <;> simp [State.form_of_khanAlloc hu, ht]

@[simp] theorem State.build_sound (hs : Sound s.form) (c : Nat) (es : List Entry) :
    Sound (s.build c es).form := by simp [State.build, hs]

@[simp] theorem State.answerOpens_form (c : Nat) : (s.answerOpens c).form = s.form := by
  refine form_foldl _ _ fun t m => ?_
  split
  · dsimp only
    split <;> simp
  · rfl

@[simp] theorem State.phases34_sound (hs : Sound s.form) (c : Nat) : Sound (s.phases34 c).form := by simp [State.phases34, hs]
@[simp] theorem State.buildOrWait_sound (hs : Sound s.form) (c : Nat) : Sound (s.buildOrWait c).form := by
  unfold State.buildOrWait; split <;> simp [hs]
@[simp] theorem stepBoundary_sound (hs : Sound s.form) (c : Nat) : Sound (stepBoundary c s).form := by
  unfold stepBoundary; dsimp only; (repeat' split) <;> simp [hs]

/-! ### The gate and the Selector (04) -/

@[simp] theorem hiddenRow_form (die c epoch l : Nat) (b : Bool) (slot : Nat) (row : List Nat) :
    (hiddenRow die c epoch l b slot row s).form = s.form := by unfold hiddenRow; dsimp only; split <;> simp
@[simp] theorem residualRow_sound (hs : Sound s.form) (die c epoch l : Nat) (b : Bool) (slot : Nat) (row : List Nat) :
    Sound (residualRow die c epoch l b slot row s).form := by unfold residualRow; dsimp only; split <;> simp [hs]
@[simp] theorem gateLaunch_form (c l : Nat) (b : Bool) : (gateLaunch c l b s).form = s.form := by
  unfold gateLaunch; dsimp only; split <;> simp
@[simp] theorem predictorLaunch_form (c l : Nat) (b : Bool) : (predictorLaunch c l b s).form = s.form := by
  unfold predictorLaunch; dsimp only; split <;> simp
@[simp] theorem State.offer_form (c l e : Nat) : (s.offer c l e).form = s.form := by unfold State.offer; split <;> simp
@[simp] theorem State.reserveSoft_form (c l : Nat) (b : Bool) : (s.reserveSoft c l b).form = s.form := by
  unfold State.reserveSoft; dsimp only; split <;> simp
@[simp] theorem predictorComplete_form (c l : Nat) (b : Bool) : (predictorComplete c l b s).form = s.form := by
  unfold predictorComplete; dsimp only; split <;> simp
@[simp] theorem State.writeHist_form (c k : Nat) (b : Bool) : (s.writeHist c k b).form = s.form := by
  unfold State.writeHist; split <;> simp

@[simp] theorem tokenSelect_form (c l : Nat) (b : Bool) (slot : Nat) : (tokenSelect c l b slot s).form = s.form := by
  unfold tokenSelect
  extract_lets +onlyGivenNames -lift x k y
  split
  · extract_lets +onlyGivenNames -lift early
    split
    · rfl
    · extract_lets +onlyGivenNames -lift cfg cols null rank order sel picks real left tie total gen bill bills fresh rec1 s1
        empty hits s2 s3
      have h3 : s3.form = s2.form := by
        unfold s3
        split <;> simp
      simp [h3, s2, s1]
  · rfl

/-! ### Seal, sort and injection (05) -/

@[simp] theorem planPublish_form (c l : Nat) : (planPublish c l s).form = s.form := by
  unfold planPublish; dsimp only; split <;> simp
@[simp] theorem State.beginSeal_form (c l : Nat) (b : Bool) : (s.beginSeal c l b).form = s.form := by
  unfold State.beginSeal; dsimp only; split <;> simp
@[simp] theorem State.sealDrop_form (c k : Nat) (b : Bill) (cause : Nat) : (s.sealDrop c k b cause).form = s.form := by simp [State.sealDrop]
@[simp] theorem State.sealBill_form (c l : Nat) (conv : Bool) (b : Bill) :
    (s.sealBill c l conv b).form = s.form := by simp [State.sealBill]
@[simp] theorem routeSeal_form (c l : Nat) (b : Bool) : (routeSeal c l b s).form = s.form := by
  unfold routeSeal; dsimp only; split <;> simp
@[simp] theorem stallExpiry_form (c l : Nat) (b : Bool) : (stallExpiry c l b s).form = s.form := by
  unfold stallExpiry; dsimp only; split <;> simp
@[simp] theorem sortSet_form (c l : Nat) (b : Bool) : (sortSet c l b s).form = s.form := by
  unfold sortSet; dsimp only; split <;> simp
@[simp] theorem State.onSub_form (c k dst i : Nat) (f : Sub → Sub) : (s.onSub c k dst i f).form = s.form := by simp [State.onSub]

theorem State.landing_form {s t : State} {c l : Nat} {b : Bool} {m : Manifest} (h : s.landing c l b m = some t) :
    t.form = s.form := by
  unfold State.landing at h
  dsimp only at h
  split at h
  · cases h
    rfl
  · split at h
    · cases h
    · next hu =>
      cases h
      simpa using State.form_of_khanAlloc hu

@[simp] theorem finalSeal_form (c l : Nat) (b : Bool) (dst i : Nat) : (finalSeal c l b dst i s).form = s.form := by
  unfold finalSeal
  extract_lets +onlyGivenNames -lift k
  split
  · extract_lets +onlyGivenNames -lift y taken
    split
    · rfl
    · split
      · rfl
      · split
        · split <;> simp
        · next ht => simpa using State.landing_form ht
  · rfl

@[simp] theorem subInject_form (c l : Nat) (b : Bool) (dst i : Nat) : (subInject c l b dst i s).form = s.form := by
  unfold subInject; dsimp only; split <;> simp
@[simp] theorem subRelease_form (c l : Nat) (b : Bool) (dst i : Nat) : (subRelease c l b dst i s).form = s.form := by
  unfold subRelease; dsimp only; split <;> simp

end

end Machine
end Sys2Proof
end

section
/-! PROOFS. The form through the Scoring Array, the fabric and the host link: every function keeps it. -/

namespace Sys2Proof
namespace Machine

section
variable (s : State) (c : Nat) (a : List Nat) (m : Msg)

/-! ### Kernels, launches and cores (08) -/

@[simp] theorem detMode_form : (detMode c a m s).form = s.form := by
  unfold detMode; dsimp only; (repeat' split) <;> simp
@[simp] theorem detQuery_form : (detQuery c a m s).form = s.form := by simp [detQuery]
@[simp] theorem arrayQuery_form : (arrayQuery a m s).form = s.form := by simp [arrayQuery]

@[simp] theorem kernelLoad_form : (kernelLoad c a m s).form = s.form := by
  unfold kernelLoad
  split
  · refine checked_form _ _ (checked_form _ _ ?_)
    split
    · next ht => simpa using State.form_of_khanAlloc ht
    · next ht _ => simp [State.ctxs_length_of_form (State.form_of_khanAlloc ht)]
  · rfl

@[simp] theorem kernelUnload_form : (kernelUnload c a m s).form = s.form := by
  unfold kernelUnload; (repeat' split) <;> simp
@[simp] theorem State.accept_form (c : Nat) (l : Launch) : (s.accept c l).form = s.form := by
  unfold State.accept; split <;> simp
@[simp] theorem kernelLaunch_form : (kernelLaunch a m s).form = s.form := by unfold kernelLaunch; split <;> simp
@[simp] theorem kernelStatus_form : (kernelStatus c a m s).form = s.form := by
  unfold kernelStatus; (repeat' split) <;> simp
@[simp] theorem kernelKill_sound (hs : Sound s.form) : Sound (kernelKill c a m s).form := by unfold kernelKill; split <;> simp [hs]
@[simp] theorem launchStart_form (c id : Nat) : (launchStart c id s).form = s.form := by unfold launchStart; split <;> simp
@[simp] theorem State.allWait_form (c : Nat) (l : Launch) : (s.allWait c l).form = s.form := by simp [State.allWait]
@[simp] theorem stringPlace_form (c id i : Nat) : (stringPlace c id i s).form = s.form := by
  unfold stringPlace; (repeat' split) <;> simp
@[simp] theorem State.launchUe_sound (hs : Sound s.form) (c id i a : Nat) :
    Sound (s.launchUe c id i a).form := by simp [State.launchUe, hs]

@[simp] theorem arrayUe_sound (hs : Sound s.form) (c core off : Nat) (str : Option (Nat × Nat)) (slot : Nat) :
    Sound (arrayUe c core off str slot s).form := by
  unfold arrayUe; (repeat' split) <;> simp [hs]

@[simp] theorem correctedEvent_form (source : Nat) (a c : Option Nat) : (correctedEvent source a c s).form = s.form := by
  unfold correctedEvent; split <;> simp
@[simp] theorem State.passStrings_form (n : Nat) : (s.passStrings n).form = s.form := by simp [State.passStrings]
@[simp] theorem State.retireCore_sound (hs : Sound s.form) (n : Nat) : Sound (s.retireCore n).form := by
  unfold State.retireCore; dsimp only; split <;> simp [hs]
@[simp] theorem State.giveBack_form (b : Option (Nat × Nat × Nat × Nat)) : (s.giveBack b).form = s.form := by
  unfold State.giveBack; split <;> simp
@[simp] theorem State.retrain_form (p : Nat) (f : Port → Port) : (s.retrain p f).form = s.form := by
  unfold State.retrain; split <;> simp
@[simp] theorem State.repairLane_form (lane : Nat) : (s.repairLane lane).form = s.form := by
  unfold State.repairLane; split <;> simp
@[simp] theorem State.repair_sound (hs : Sound s.form) (source : Nat) : Sound (s.repair source).form := by
  unfold State.repair; (repeat' split) <;> simp [hs]
@[simp] theorem lastingDeclare_sound (hs : Sound s.form) (source : Nat) : Sound (lastingDeclare source s).form := by
  unfold lastingDeclare; split <;> simp [hs]
@[simp] theorem coreTimeout_sound (hs : Sound s.form) (phys : Nat) : Sound (coreTimeout phys s).form := by
  unfold coreTimeout
  split
  · exact hs
  · split
    · exact hs
    · exact State.settleCores_sound _ (sound_foldl _ _ (fun t c ht =>
        sound_foldl _ _ (fun u l hu => State.killLaunch_sound u hu ..) ht) hs)

/-! ### String instructions on registers (08) -/

@[simp] theorem State.putStr_form (c id i : Nat) (g : Str) : (s.putStr c id i g).form = s.form := by simp [State.putStr]

/-- A string's instruction changes the form only where its meaning does. -/
@[simp] theorem runStr_form (op c id i : Nat) {k : Launch → Str → Nat → State} (h : ∀ l g w, (k l g w).form = s.form) :
    (runStr op c id i k s).form = s.form := by
  unfold runStr
  split
  · split
    · exact h ..
    · rfl
  · rfl

theorem runStr_sound (hs : Sound s.form) (op c id i : Nat) {k : Launch → Str → Nat → State} (h : ∀ l g w, Sound (k l g w).form) :
    Sound (runStr op c id i k s).form := by
  unfold runStr
  split
  · split
    · exact h ..
    · exact hs
  · exact hs

@[simp] theorem laneOp_form (op c id i : Nat) (f : Str → Nat → Str) :
    (laneOp op c id i f s).form = s.form := by simp [laneOp]
@[simp] theorem aluOp_form (op c id i : Nat) (f : Nat → Nat → Nat) : (aluOp op c id i f s).form = s.form := by simp [aluOp]
@[simp] theorem blockTo_form (c id i : Nat) : (blockTo c id i s).form = s.form := by simp [blockTo]
@[simp] theorem sfnOp_form (c id i : Nat) : (sfnOp c id i s).form = s.form := by simp [sfnOp]
@[simp] theorem branch_sound (hs : Sound s.form) (op c id i : Nat) (taken : Str → Nat → Bool) :
    Sound (branch op c id i taken s).form := by
  refine runStr_sound _ hs _ _ _ _ fun l g w => ?_
  dsimp only
  split_ifs <;> simp [hs]
@[simp] theorem lshuf_form (c id i : Nat) : (lshuf c id i s).form = s.form := by simp [lshuf]
@[simp] theorem claimItem_form (c id i : Nat) : (claimItem c id i s).form = s.form := by simp [claimItem]

/-! ### String instructions on memory (08, 11) -/

@[simp] theorem State.chargeAll_form (c n : Nat) (as : List Nat) :
    (s.chargeAll c n as).form = s.form := by simp [State.chargeAll]
@[simp] theorem State.loadUe_sound (hs : Sound s.form) (c id i a : Nat) :
    Sound (s.loadUe c id i a).form := by simp [State.loadUe, hs]

@[simp] theorem load_sound (hs : Sound s.form) (c id i : Nat) (ue : Option Nat) : Sound (load c id i ue s).form := by
  refine runStr_sound _ hs _ _ _ _ fun _ g w => ?_
  dsimp only
  split
  · simp [hs]
  · split <;> simp [hs]

@[simp] theorem State.storeLane_sound (hs : Sound s.form) (c z a v l : Nat) : Sound (s.storeLane c z a v l).form := by
  unfold State.storeLane; split <;> simp [hs]

@[simp] theorem store_sound (hs : Sound s.form) (c id i : Nat) : Sound (store c id i s).form := by
  refine runStr_sound _ hs _ _ _ _ fun _ g w => ?_
  dsimp only
  split
  · simp [hs]
  · split
    · simp [hs]
    · have h1 := sound_foldl s (s.laneOrder (g.lanes w)) (fun t l ht =>
        State.storeLane_sound t ht c (iImm w % 4) (g.address w l) (g.srcC w l) l) hs
      simp [h1]

@[simp] theorem atomicLane_sound (hs : Sound s.form) (float : Bool) (a v : Nat) :
    Sound (atomicLane float a v s).1.form := by simp [atomicLane, hs]

@[simp] theorem atomicLanes_sound (hs : Sound s.form) (float : Bool) (g : Str) (w : Nat) (l : List Nat) :
    Sound (atomicLanes float g w l s).1.form := by
  induction l generalizing s with
  | nil => exact hs
  | cons x r ih => simp [atomicLanes, ih, hs]

@[simp] theorem atomicOp_sound (hs : Sound s.form) (op : Nat) (float : Bool) (c id i : Nat) :
    Sound (atomicOp op float c id i s).form := by
  refine runStr_sound _ hs _ _ _ _ fun _ g w => ?_
  dsimp only
  split
  · simp [hs]
  · split
    · simp [hs]
    · split <;> simp [hs]

@[simp] theorem State.laneData_sound (hs : Sound s.form) (c id i lane v : Nat) (poison : Bool) :
    Sound (s.laneData c id i lane v poison).form := by
  unfold State.laneData; (repeat' split) <;> simp [hs]

@[simp] theorem memReadData_sound (hs : Sound s.form) (to_ : Reader) (data : List Byte) (poison : Bool) :
    Sound (memReadData to_ data poison s).form := by unfold memReadData; split <;> simp [hs]
@[simp] theorem fence_form (c id i : Nat) : (fence c id i s).form = s.form := by simp [fence]
@[simp] theorem tableLook_form (c id i : Nat) : (tableLook c id i s).form = s.form := by simp [tableLook]

/-! ### The matrix unit (08) -/

@[simp] theorem mmaOp_sound (hs : Sound s.form) (c id i : Nat) : Sound (mmaOp c id i s).form := by
  refine runStr_sound _ hs _ _ _ _ fun l g w => ?_
  dsimp only
  split_ifs <;> simp [hs]
@[simp] theorem accZero_sound (hs : Sound s.form) (c id i : Nat) : Sound (accZero c id i s).form := by
  refine runStr_sound _ hs _ _ _ _ fun l g w => ?_
  dsimp only
  split_ifs <;> simp [hs]
@[simp] theorem accStore_sound (hs : Sound s.form) (c id i : Nat) : Sound (accStore c id i s).form := by
  refine runStr_sound _ hs _ _ _ _ fun l g w => ?_
  dsimp only
  split_ifs <;> simp [hs]

/-! ### String instructions on Tally Posts and Waystations (11, 12) -/

@[simp] theorem tpArrive_form (c id i : Nat) : (tpArrive c id i s).form = s.form := by
  refine runStr_form _ _ _ _ _ fun _ g w => ?_
  split
  · simp
  · split
    · rfl
    · dsimp only
      split <;> simp

@[simp] theorem tpWait_sound (hs : Sound s.form) (c id i : Nat) : Sound (tpWait c id i s).form := by
  unfold tpWait; (repeat' split) <;> simp [hs]
@[simp] theorem wsPushStr_sound (hs : Sound s.form) (c id i : Nat) : Sound (wsPushStr c id i s).form := by
  unfold wsPushStr; (repeat' split) <;> simp [hs]

@[simp] theorem wsPopOp_sound (hs : Sound s.form) (kind c id i : Nat) {k : Nat → Str → Nat → State} (h : ∀ q g w, Sound (k q g w).form) :
    Sound (wsPopOp kind c id i k s).form := by
  refine runStr_sound _ hs _ _ _ _ fun _ g w => ?_
  split
  · exact hs
  · split
    · simp [hs]
    · dsimp only
      split
      · simp [hs]
      · exact h ..

@[simp] theorem State.underrun_form (q : Nat) : (s.underrun q).form = s.form := by simp [State.underrun]
@[simp] theorem endStr_sound (hs : Sound s.form) (c id i : Nat) : Sound (endStr c id i s).form := by
  refine runStr_sound _ hs _ _ _ _ fun l g w => ?_
  dsimp only
  split_ifs <;> simp [hs]

/-! ### Ports and flits (13) -/

@[simp] theorem portSignal_form (p : Nat) : (portSignal p s).form = s.form := by unfold portSignal; split <;> simp
@[simp] theorem State.joinPackage_form (pkg : Nat) : (s.joinPackage pkg).form = s.form := by
  unfold State.joinPackage; split <;> simp
@[simp] theorem portTrained_form (p lanes : Nat) (spare : Bool) (peer : Nat) :
    (portTrained p lanes spare peer s).form = s.form := by unfold portTrained; split <;> simp
@[simp] theorem State.sendFlit_form (p base : Nat) (payload : List Byte) :
    (s.sendFlit p base payload).form = s.form := by simp [State.sendFlit]
@[simp] theorem State.linkDown_form (p : Nat) : (s.linkDown p).form = s.form := by simp [State.linkDown]
@[simp] theorem State.replayPort_form (p : Nat) : (s.replayPort p).form = s.form := by
  unfold State.replayPort; dsimp only; split <;> simp
@[simp] theorem linkAckTimeout_form (p : Nat) : (linkAckTimeout p s).form = s.form := by
  unfold linkAckTimeout; split <;> simp
@[simp] theorem State.takeFlit_form (p : Nat) (bytes : List Byte) :
    (s.takeFlit p bytes).form = s.form := by simp [State.takeFlit]
@[simp] theorem flitReceive_form (p corrected : Nat) (uncorrected : List Nat) (bytes : List Byte) :
    (flitReceive p corrected uncorrected bytes s).form = s.form := by unfold flitReceive; split <;> simp
@[simp] theorem State.startChunk_form (p : Nat) (k : TxChunk) : (s.startChunk p k).form = s.form := by
  unfold State.startChunk; split <;> simp
@[simp] theorem State.onTx_form (p tc : Nat) (f : List TxChunk → List TxChunk) : (s.onTx p tc f).form = s.form := by simp [State.onTx]

@[simp] theorem fillFlit_form (p tc : Nat) (fwd : Bool) (n : Nat) (acc : List Byte) (start : Option Nat) :
    (fillFlit p tc fwd n acc start s).2.2.form = s.form := by
  induction n generalizing acc start s with
  | zero => rfl
  | succ n ih =>
    unfold fillFlit
    split
    · rfl
    · split
      · rfl
      · dsimp only
        split_ifs <;> simp [ih]

@[simp] theorem State.dataFlit_form (p tc : Nat) (fwd : Bool) :
    (s.dataFlit p tc fwd).form = s.form := by simp [State.dataFlit]

@[simp] theorem State.noteHeld_form (p : Nat) : (s.noteHeld p).form = s.form := by
  refine form_foldl _ _ (fun t tc => ?_)
  refine (State.onTx_form ..).trans (form_foldl _ _ (fun u e => ?_))
  exact form_foldl _ _ (fun v z => v.tollWait_form ..)

theorem State.slotData_form {s t : State} {p : Nat} (h : s.slotData p = some t) : t.form = s.form := by
  unfold State.slotData at h
  dsimp only at h
  split_ifs at h
  · cases h
    simp
  all_goals
    split at h
    · cases h
      simp
    · split at h
      · cases h
      · split at h
        · cases h
        · cases h
          simp

@[simp] theorem State.stampFlit_form (p : Nat) : (s.stampFlit p).form = s.form := by simp [State.stampFlit]

@[simp] theorem flitSlot_form (p : Nat) : (flitSlot p s).form = s.form := by
  unfold flitSlot
  dsimp only
  split_ifs
  · rfl
  · simp
  · simp
  · split
    · split <;> simp
    · split
      · next ht => simpa using State.slotData_form ht
      · simp

@[simp] theorem linkQuery_form : (linkQuery a m s).form = s.form := by unfold linkQuery; split <;> simp

/-! ### Transport (13) -/

@[simp] theorem State.moveDetour_form (k v : Nat) : (s.moveDetour k v).form = s.form := by simp [State.moveDetour]
@[simp] theorem State.routePath_form (k : Nat) : (s.routePath k).2.form = s.form := by
  unfold State.routePath; dsimp only; (repeat' split) <;> simp
@[simp] theorem State.queueChunk_form (p tc : Nat) (c : TxChunk) : (s.queueChunk p tc c).form = s.form := by simp [State.queueChunk]
@[simp] theorem State.sendChunk_form (k : Nat) (c : SentChunk) (resend : Bool) (charge : List (Nat × Nat)) :
    (s.sendChunk k c resend charge).form = s.form := by unfold State.sendChunk; dsimp only; split <;> simp
@[simp] theorem chunkClose_form (pkg tc : Nat) : (chunkClose pkg tc s).form = s.form := by
  unfold chunkClose; dsimp only; (repeat' split) <;> simp
@[simp] theorem State.eatBytes_form (p tc n : Nat) : (s.eatBytes p tc n).form = s.form := by simp [State.eatBytes]
@[simp] theorem State.deliver_form (p src : Nat) (m : Nat × List Byte) : (s.deliver p src m).form = s.form := by
  unfold State.deliver; dsimp only; split <;> simp
@[simp] theorem State.acceptChunk_form (p src tc psn : Nat) (payload : List Byte) :
    (s.acceptChunk p src tc psn payload).form = s.form := by unfold State.acceptChunk; split <;> simp
@[simp] theorem State.chunkHere_form (p h : Nat) (payload : List Byte) (crcOk : Bool) :
    (s.chunkHere p h payload crcOk).form = s.form := by simp [State.chunkHere]
@[simp] theorem State.forwardChunk_form (p tc h n : Nat) (bytes : List Byte) :
    (s.forwardChunk p tc h n bytes).form = s.form := by unfold State.forwardChunk; dsimp only; split <;> simp
@[simp] theorem chunkReceive_form (p tc : Nat) : (chunkReceive p tc s).form = s.form := by
  unfold chunkReceive; dsimp only; split <;> simp
@[simp] theorem ackSend_form (pkg : Nat) : (ackSend pkg s).form = s.form := by
  unfold ackSend; dsimp only; (repeat' split) <;> simp
@[simp] theorem State.resendAll_form (k : Nat) (l : List SentChunk) :
    (s.resendAll k l).form = s.form := by simp [State.resendAll]
@[simp] theorem State.takeEntry_form (src e : Nat) : (s.takeEntry src e).form = s.form := by
  unfold State.takeEntry; split <;> simp
@[simp] theorem resendTimeout_form (pkg tc : Nat) : (resendTimeout pkg tc s).form = s.form := by
  unfold resendTimeout; dsimp only; (repeat' split) <;> simp
@[simp] theorem detourReturn_form (pkg tc : Nat) : (detourReturn pkg tc s).form = s.form := by
  unfold detourReturn; dsimp only; split <;> simp

/-! ### Collectives (13) -/

@[simp] theorem State.writeBits_sound (hs : Sound s.form) (a o n v : Nat) :
    Sound (s.writeBits a o n v).form := by simp [State.writeBits, hs]

@[simp] theorem writePlanes_sound (hs : Sound s.form) (a total off n : Nat) (ps : List (Nat × Nat)) (data : List Byte) :
    Sound (writePlanes a total off n ps data s).form := by
  induction ps generalizing a data s with
  | nil => exact hs
  | cons p r ih => simp [writePlanes, ih, hs]

@[simp] theorem State.putElems_sound (hs : Sound s.form) (c h fmt total off n : Nat) (data : List Byte) :
    Sound (s.putElems c h fmt total off n data).form := by simp [State.putElems, hs]
@[simp] theorem State.readInput_form (c h off n : Nat) : (s.readInput c h off n).2.2.form = s.form := by
  unfold State.readInput; dsimp only; split <;> simp
@[simp] theorem State.checkColl_sound (hs : Sound s.form) (c g id : Nat) : Sound (s.checkColl c g id).form := by
  unfold State.checkColl; split <;> simp [hs]
@[simp] theorem State.checkColls_sound (hs : Sound s.form) : Sound s.checkColls.form :=
  sound_foldl _ _ (fun t _ ht => sound_foldl t _ (fun u _ hu => State.checkColl_sound u hu ..) ht) hs
@[simp] theorem ackReceive_sound (hs : Sound s.form) : Sound (ackReceive s).form := by unfold ackReceive; split <;> simp [hs]
@[simp] theorem State.staleColl_form (c g id : Nat) : (s.staleColl c g id).form = s.form := by
  unfold State.staleColl; split <;> simp
@[simp] theorem State.sendElems_form (c dst type g id slab index : Nat) (data : List Byte) :
    (s.sendElems c dst type g id slab index data).form = s.form := by unfold State.sendElems; split <;> simp

theorem State.takeBay_form {s t : State} {a : Nat} (h : s.takeBay = some (a, t)) : t.form = s.form := by
  unfold State.takeBay at h
  split_ifs at h <;> cases h <;> rfl

@[simp] theorem takeStaging_form (c bytes n : Nat) : (takeStaging c bytes n s).2.form = s.form := by
  induction n generalizing s with
  | zero => rfl
  | succ n ih =>
    unfold takeStaging
    split
    · next ht => exact State.form_of_khanAlloc ht
    · next t ht =>
      have ht := State.form_of_khanAlloc ht
      have hu := ih t
      split <;> simp_all

@[simp] theorem State.onSlab_form (c g id i : Nat) (f : Slab → Slab) : (s.onSlab c g id i f).form = s.form := by simp [State.onSlab]
@[simp] theorem State.addPiece_form (c g id i idx op : Nat) (piece : Row) :
    (s.addPiece c g id i idx op piece).form = s.form := by simp [State.addPiece]

@[simp] theorem addReady_sound (hs : Sound s.form) (c g id i n : Nat) : Sound (addReady c g id i n s).form := by
  induction n generalizing s with
  | zero => exact hs
  | succ n ih =>
    unfold addReady
    split
    · split
      · exact hs
      · extract_lets +onlyGivenNames -lift me turn
        split
        · extract_lets +onlyGivenNames -lift z r
          split
          · simp [r, hs]
          · simp [ih, r, hs]
        · split
          · simp [ih, hs]
          · exact hs
    · exact hs

@[simp] theorem State.returnBay_form (b : Nat) : (s.returnBay b).form = s.form := by unfold State.returnBay; split <;> simp

theorem State.takeBayFor_form {s t : State} {c a : Nat} {k : Coll} (h : s.takeBayFor c k = some (a, t)) :
    t.form = s.form := by
  unfold State.takeBayFor at h
  split at h
  · split_ifs at h
    exact State.takeBay_form h
  · exact State.takeBay_form h

@[simp] theorem State.releaseSpare_form (c g id : Nat) : (s.releaseSpare c g id).form = s.form := by
  unfold State.releaseSpare; split <;> simp

@[simp] theorem State.openSlab_sound (hs : Sound s.form) (c g id : Nat) : Sound (s.openSlab c g id).form := by
  unfold State.openSlab
  split
  · dsimp only
    split
    · exact hs
    · split
      · split <;> simp [hs]
      · next t hfull =>
        obtain ⟨⟨a, u⟩, hbay, hstaged⟩ := Option.bind_eq_some_iff.mp hfull
        have hu : u.form = s.form := by
          split at hbay
          · cases hbay
            simp
          · exact State.takeBayFor_form hbay
        have ht : t.form = s.form := by
          split at hstaged
          · cases hstaged
            exact hu
          · split at hstaged
            · cases hstaged
              simpa using hu
            · split at hstaged
              · next h =>
                cases hstaged
                exact (State.form_of_khanAlloc h).trans hu
              · cases hstaged
        exact addReady_sound _ (by simp [ht, hs]) ..
  · exact hs

@[simp] theorem State.finishSlab_sound (hs : Sound s.form) (c g id i : Nat) : Sound (s.finishSlab c g id i).form := by
  unfold State.finishSlab
  split
  · split
    · exact hs
    · split
      · exact hs
      · extract_lets me z data s1 s2 own s3 s4
        have h1 : Sound s1.form := by simp [s1, hs]
        have h2 : Sound s2.form := by simp [s2, h1]
        have h3 : Sound s3.form := by simp [s3, h2]
        have h4 : Sound s4.form := by simp [s4, h3]
        exact State.checkColl_sound _ h4 ..
  · exact hs

@[simp] theorem finishSlabs_sound (hs : Sound s.form) (c g id n : Nat) : Sound (finishSlabs c g id n s).form := by
  induction n generalizing s with
  | zero => exact hs
  | succ n ih =>
    unfold finishSlabs
    split
    · split
      · simp [ih, hs]
      · exact hs
    · exact hs

@[simp] theorem collSlabOpen_sound (hs : Sound s.form) (c g id : Nat) : Sound (collSlabOpen c g id s).form := by
  unfold collSlabOpen; split <;> simp [hs]
@[simp] theorem State.consumePiece_sound (hs : Sound s.form) (c : Nat) (r : CollRec) (m j : Nat) (data : List Byte) :
    Sound (s.consumePiece c r m j data).form := by
  unfold State.consumePiece
  dsimp only
  rw [State.ownStrings_form]
  exact sound_foldl _ _ (fun t _ ht => State.putElems_sound t ht ..) hs
@[simp] theorem State.gatherOwn_sound (hs : Sound s.form) (c g id : Nat) : Sound (s.gatherOwn c g id).form := by
  unfold State.gatherOwn; split <;> simp [hs]
@[simp] theorem State.startColl_sound (hs : Sound s.form) (c g id : Nat) : Sound (s.startColl c g id).form := by
  unfold State.startColl
  split
  · exact hs
  · split
    · exact hs
    · extract_lets s1 s2
      have h1 : Sound s1.form := by simp [s1, hs]
      have h2 : Sound s2.form := State.openSlab_sound _ (State.openSlab_sound _ (State.gatherOwn_sound _ h1 ..) ..) ..
      exact State.checkColl_sound _ (finishSlabs_sound _ h2 ..) ..
@[simp] theorem collGo_sound (hs : Sound s.form) (c g id : Nat) : Sound (collGo c g id s).form := by
  unfold collGo; (repeat' split) <;> simp [hs]
@[simp] theorem State.abortColl_sound (hs : Sound s.form) (c g id : Nat) (status : Nat) :
    Sound (s.abortColl c g id status).form := by
  unfold State.abortColl; split <;> simp [hs]
@[simp] theorem State.decideColl_sound (hs : Sound s.form) (c g id : Nat) : Sound (s.decideColl c g id).form := by
  unfold State.decideColl; split <;> simp [hs]
@[simp] theorem State.takeJoin_sound (hs : Sound s.form) (c g id idx : Nat) (ok : Bool) (crc : Nat) :
    Sound (s.takeJoin c g id idx ok crc).form := by unfold State.takeJoin; split <;> simp [hs]
@[simp] theorem collJoin_sound (hs : Sound s.form) (c g id idx : Nat) (ok : Bool) (crc : Nat) :
    Sound (collJoin c g id idx ok crc s).form := by
  unfold collJoin; split <;> simp [hs]
@[simp] theorem collJoinTimeout_sound (hs : Sound s.form) (c g id : Nat) : Sound (collJoinTimeout c g id s).form := by
  unfold collJoinTimeout; split <;> simp [hs]
@[simp] theorem collGrant_sound (hs : Sound s.form) (c g id i : Nat) :
    Sound (collGrant c g id i s).form := by unfold collGrant; split <;> simp [hs]
@[simp] theorem State.ownerPiece_sound (hs : Sound s.form) (c g id i idx : Nat) (k : Coll) (grp : CollGroup) (data : List Byte) :
    Sound (s.ownerPiece c g id i idx k grp data).form := by unfold State.ownerPiece; split <;> simp [hs]
@[simp] theorem State.gatherPiece_sound (hs : Sound s.form) (c g id idx : Nat) (k : Coll) (grp : CollGroup) (data : List Byte) :
    Sound (s.gatherPiece c g id idx k grp data).form := by
  unfold State.gatherPiece
  extract_lets +onlyGivenNames -lift r
  split
  · exact hs
  · extract_lets me s1
    have h1 : Sound s1.form := by
      unfold s1
      split
      · split <;> simp [hs]
      · simp [hs]
    simp [h1]
@[simp] theorem collPiece_sound (hs : Sound s.form) (c g id i idx : Nat) (data : List Byte) :
    Sound (collPiece c g id i idx data s).form := by
  unfold collPiece; split <;> simp [hs]
@[simp] theorem collResult_sound (hs : Sound s.form) (c g id i : Nat) (data : List Byte) :
    Sound (collResult c g id i data s).form := by
  unfold collResult; split <;> simp [hs]
@[simp] theorem collGroup_form : (collGroup c a m s).form = s.form := by unfold collGroup; split <;> simp

@[simp] theorem State.admitColl_form (r : CollRec) (g : CollGroup) : (s.admitColl r g).2.2.form = s.form := by
  unfold State.admitColl
  split
  · rfl
  · split
    · rfl
    · next ht =>
      split
      · rfl
      · next hu => exact (State.takeBay_form hu).trans (State.takeBay_form ht)

@[simp] theorem State.sendJoin_sound (hs : Sound s.form) (c : Nat) (r : CollRec) (g : CollGroup) (ok : Bool) (crc : Nat) :
    Sound (s.sendJoin c r g ok crc).form := by unfold State.sendJoin; dsimp only; split <;> simp [hs]
@[simp] theorem State.takeEarly_sound (hs : Sound s.form) (c : Nat) (r : CollRec) (g : CollGroup) :
    Sound (s.takeEarly c r g).form := sound_foldl _ _ (fun t _ ht => State.takeJoin_sound t ht ..) (by simp [hs])
@[simp] theorem State.launchColl_sound (hs : Sound s.form) (c : Nat) (r : CollRec) (g : CollGroup) (stage : List Nat) (crc : Nat) :
    Sound (s.launchColl c r g stage crc).form := by simp [State.launchColl, hs]
@[simp] theorem collLaunch_sound (hs : Sound s.form) (m : Msg) : Sound (collLaunch m s).form := by
  unfold collLaunch; dsimp only; (repeat' split) <;> simp [hs]
@[simp] theorem takeLaunch_sound (hs : Sound s.form) (w : Nat) :
    Sound (takeLaunch w s).form := by unfold takeLaunch; split <;> simp [hs]
@[simp] theorem collStatus_form : (collStatus c a m s).form = s.form := by
  unfold collStatus; (repeat' split) <;> simp
@[simp] theorem collKill_sound (hs : Sound s.form) : Sound (collKill c a m s).form := by unfold collKill; split <;> simp [hs]
@[simp] theorem collGroupDelete_form : (collGroupDelete c a m s).form = s.form := by unfold collGroupDelete; split <;> simp
@[simp] theorem bayFree_sound (hs : Sound s.form) : Sound (bayFree s).form := by unfold bayFree; dsimp only; split <;> simp [hs]

/-! ### Departures (13) -/

@[simp] theorem State.dropChunks_form (pkg : Nat) : (s.dropChunks pkg).form = s.form := by simp [State.dropChunks]
@[simp] theorem State.forgetSends_form (pkg : Nat) : (s.forgetSends pkg).form = s.form := by simp [State.forgetSends]

@[simp] theorem State.loseCols_form (pkg c : Nat) : (s.loseCols pkg c).form = s.form := by
  unfold State.loseCols
  extract_lets x lost s0 qs live s1 nodes s2
  split
  · simp [s0]
  · simp [s2, s1, s0]

@[simp] theorem State.loseSource_form (pkg o : Nat) (e : Nat × Source) : (s.loseSource pkg o e).form = s.form := by
  unfold State.loseSource; dsimp only; split <;> simp

@[simp] theorem State.poisonWaits_sound (hs : Sound s.form) (pkg c : Nat) : Sound (s.poisonWaits pkg c).form := by
  refine sound_foldl _ _ (fun t h ht => ?_) hs
  split <;> simp [ht]

@[simp] theorem State.faultColls_sound (hs : Sound s.form) (pkg c : Nat) : Sound (s.faultColls pkg c).form := by
  refine sound_foldl _ _ (fun t k ht => ?_) hs
  split
  · split <;> simp [ht]
  · exact ht

@[simp] theorem State.ctxDepart_sound (hs : Sound s.form) (pkg c : Nat) : Sound (s.ctxDepart pkg c).form := by
  unfold State.ctxDepart
  split
  · simp [hs]
  · extract_lets s1 s3 s4 s5
    have h3 : Sound s3.form := by simp [s3, s1, hs]
    have h4 : Sound s4.form := by
      unfold s4
      split <;> simp [h3]
    have h5 : Sound s5.form := by simp [s5, h4]
    simp [h5]
@[simp] theorem State.masterDepart_form (pkg : Nat) : (s.masterDepart pkg).form = s.form := by
  unfold State.masterDepart; split <;> simp
@[simp] theorem State.depart_sound (hs : Sound s.form) (pkg : Nat) : Sound (s.depart pkg).form := by
  unfold State.depart
  extract_lets s1 freed _ s2 t2 _ s3
  have h2 : Sound s2.form := by simp [s2, s1, hs]
  have ht : Sound t2.form := by
    unfold t2
    split <;> simp [h2]
  have h3 : Sound s3.form := by simp [s3, ht]
  have h4 := sound_foldl s3 (List.range 16) (fun t k h => State.ctxDepart_sound t h pkg k) h3
  simp [h4]
@[simp] theorem departureReceive_sound (hs : Sound s.form) (pkg : Nat) : Sound (departureReceive pkg s).form := by
  unfold departureReceive; split <;> simp [hs]
@[simp] theorem departureTimeout_sound (hs : Sound s.form) (pkg : Nat) : Sound (departureTimeout pkg s).form := by
  unfold departureTimeout; dsimp only; split <;> simp [hs]

/-! ### The host link (16, 19) -/

@[simp] theorem submit_form (w : Nat) (irqEn : Bool) : (submit w irqEn s).form = s.form := by unfold submit; split <;> simp
@[simp] theorem doneClear_form (w : Nat) (irqEn : Bool) : (doneClear w irqEn s).form = s.form := by
  unfold doneClear; split <;> simp
@[simp] theorem irqPendClear_form (irqClass : Nat) : (irqPendClear irqClass s).form = s.form := by
  unfold irqPendClear; split <;> simp
@[simp] theorem peakRead_form : (peakRead s).form = s.form := by unfold peakRead; split <;> simp
@[simp] theorem regWrite_form (off size value : Nat) : (regWrite off size value s).form = s.form := by
  unfold regWrite; split <;> simp
@[simp] theorem registerWrite_form (off size value : Nat) : (registerWrite off size value s).form = s.form := by
  unfold registerWrite; split <;> simp

@[simp] theorem apertureAccess_sound (hs : Sound s.form) (off len : Nat) (data : Option (List Byte)) (poisoned : Bool) :
    Sound (apertureAccess off len data poisoned s).form := by
  unfold apertureAccess; (repeat' split) <;> simp [hs]

@[simp] theorem powerState_form (d3hot : Bool) : (powerState d3hot s).form = s.form := by unfold powerState; split <;> simp

end

/-! ### The messages of the mailbox -/

/-- A message whose meaning keeps the form sound. -/
theorem commitMsg_sound {s : State} (hs : Sound s.form) (w op : Nat) {k : Msg → State → Act} (h : ∀ m, Sound (k m s).form) :
    Sound (commitMsg w op k s).form := by
  unfold commitMsg
  split
  · exact hs
  · next m _ =>
    have hm := h m
    split_ifs
    · exact hs
    · simp [hs]
    · split <;> simp_all

@[simp] theorem commitReq_sound {s : State} (hs : Sound s.form) (w op : Nat) (fs : List Fld) {k : List Nat → Msg → State → Act}
    (h : ∀ a m, Sound (k a m s).form) : Sound (commitMsg w op (withReq fs k) s).form := by
  refine commitMsg_sound hs w op fun m => ?_
  unfold withReq
  split
  · exact hs
  · exact h ..

@[simp] theorem commitCtx_sound {s : State} (hs : Sound s.form) (w op : Nat) (fs : List Fld)
    {k : Nat → List Nat → Msg → State → Act} (h : ∀ c a m, Sound (k c a m s).form) :
    Sound (commitMsg w op (withCtx fs k) s).form := by
  refine commitMsg_sound hs w op fun m => ?_
  unfold withCtx
  split
  · exact hs
  · exact hs
  · exact checked_sound _ _ (h ..) hs

/-! ### Every command but the resets and the Timebase -/

theorem ucieAccess_sound {s t : State} {die c a n : Nat} {data : Option (List Byte)} (hs : Sound s.form)
    (h : exec (.ucieMemoryAccess die c a n data) s = .next t) : Sound t.form := by
  change execUcieMemoryAccess die c a n data s = .next t at h
  unfold execUcieMemoryAccess at h
  split at h
  · cases h
    exact hs
  · split at h
    · split at h <;> cases h <;> simp [hs]
    · split at h
      · split at h <;> cases h
        simp [hs]
      · dsimp only at h
        split at h <;> cases h
        simp [hs]

/-- A command that is none of those keeps the form sound. -/
theorem exec_sound {i : Instr} {s t : State} (hs : Sound s.form) (hi : i.movesClock = false) (h : exec i s = .next t) :
    Sound t.form := by
  cases i with
  | powerOn | pwrGoodFall | perstRelease | hotReset | timebaseSlew | timestampReceive => cases hi
  | ucieMemoryAccess die c a n data => exact ucieAccess_sound hs h
  | wsPop c id i =>
    cases h
    refine wsPopOp_sound _ hs _ _ _ _ fun q g w => ?_
    rcases s.wsPop_form_cases q with hq | ⟨v, t, hq, ht⟩
    · simp [hq, hs]
    · simp [hq, ht, hs]
  | _ =>
    cases h
    simp [hs]

/-! ### The resets and the Timebase -/

theorem inv_iff {s : State} : Inv s ↔ Sound s.form ∧ s.board.pkgId < 128 ∧ s.now < 2 ^ 64 := by
  constructor
  · rintro ⟨hmem, hctxs, hparts, hfws, hpkg, hcount⟩
    exact ⟨⟨hmem, by simp [State.form, hctxs, hparts, hfws]⟩, hpkg, hcount⟩
  · rintro ⟨⟨hmem, hnums⟩, hpkg, hcount⟩
    simp only [State.form, Prod.mk.injEq] at hnums
    exact ⟨hmem, hnums.1, hnums.2.1, hnums.2.2, hpkg, hcount⟩

theorem fresh_sound (fz : Fuses) (fl : List Flash) (x : Nat) :
    Sound (State.fresh fz fl x).form := ⟨rfl, by simp [State.form, State.fresh]⟩

theorem State.resetBy_inv (x : Nat) {s : State} (hs : Inv s) : Inv (s.resetBy x) := by
  unfold State.resetBy
  split
  · exact ⟨hs.mem, hs.ctxs, hs.parts, hs.fws, hs.pkg, hs.count⟩
  · exact inv_iff.mpr ⟨fresh_sound s.fuses s.flashes (x % 128), Nat.mod_lt x (by decide), Nat.two_pow_pos 64⟩

theorem State.tickBy_inv (n : Nat) {s : State} (hs : Inv s) : Inv (s.tickBy n) := by
  obtain ⟨hsound, hpkg, -⟩ := inv_iff.mp hs
  have hclock := s.tickBy_clock n
  refine inv_iff.mpr ⟨?_, ?_, ?_⟩
  · unfold State.tickBy
    rw [State.elapse_form]
    simpa using hsound
  · rw [show (s.tickBy n).board.pkgId = s.board.pkgId from congrArg Prod.snd hclock]
    exact hpkg
  · rw [show (s.tickBy n).now = (s.now + n) % 2 ^ 64 from congrArg Prod.fst hclock]
    exact Nat.mod_lt _ (Nat.two_pow_pos 64)

theorem timebaseSlew_inv {s : State} (hs : Inv s) : Inv (timebaseSlew s) := by
  unfold timebaseSlew
  split
  · exact hs
  · extract_lets up t
    have ht : Inv t := State.tickBy_inv _ hs
    exact ⟨ht.mem, ht.ctxs, ht.parts, ht.fws, ht.pkg, ht.count⟩

theorem State.exchange_inv (x : Timestamp) {s : State} (hs : Inv s) : Inv (s.exchange x) := by
  obtain ⟨hsound, hpkg, hcount⟩ := inv_iff.mp hs
  refine inv_iff.mpr ⟨?_, ?_, ?_⟩
  · unfold State.exchange
    simpa using hsound
  · rw [(State.exchange_now_or_loads s x).1]
    exact hpkg
  · unfold State.exchange
    extract_lets t4 d2 o2 offs est bound n load count ok st old s1
    rw [State.now, State.checkReady_tb]
    change count < 2 ^ 64
    unfold count
    split
    · exact Nat.mod_lt _ (Nat.two_pow_pos 64)
    · exact hcount

theorem timestampReceive_inv (p : Nat) (x : Timestamp) {s : State} (hs : Inv s) : Inv (timestampReceive p x s) := by
  unfold timestampReceive
  split
  · exact hs
  · extract_lets _ s1
    have h1 : Inv s1 := ⟨hs.mem, hs.ctxs, hs.parts, hs.fws, hs.pkg, hs.count⟩
    split
    · exact State.exchange_inv x h1
    · exact h1

theorem exec_inv {i : Instr} {s t : State} (hs : Inv s) (h : exec i s = .next t) : Inv t := by
  cases hi : i.movesClock with
  | false =>
    obtain ⟨hsound, hpkg, hcount⟩ := inv_iff.mp hs
    have hclock := exec_clock hi h
    refine inv_iff.mpr ⟨exec_sound hsound hi h, ?_, ?_⟩
    · rwa [State.pkgId_of_clock hclock]
    · rwa [State.now_of_clock hclock]
  | true =>
    cases i with
    | powerOn x =>
      cases h
      exact inv_iff.mpr ⟨fresh_sound s.fuses s.flashes (x % 128), Nat.mod_lt x (by decide), Nat.two_pow_pos 64⟩
    | pwrGoodFall =>
      cases h
      exact inv_iff.mpr ⟨fresh_sound s.fuses s.flashes (s.board.straps % 128), Nat.mod_lt _ (by decide), Nat.two_pow_pos 64⟩
    | perstRelease x =>
      cases h
      unfold perstRelease
      split
      · exact State.resetBy_inv x hs
      · exact hs
    | hotReset x =>
      cases h
      unfold hotReset
      split
      · exact State.resetBy_inv x hs
      · exact hs
    | timebaseSlew =>
      cases h
      exact timebaseSlew_inv hs
    | timestampReceive p x =>
      cases h
      exact timestampReceive_inv p x hs
    | _ => cases hi

/-! ### The obligation -/

/-- Settles O58: a step is a tick or the front command, and both keep the invariant. -/
theorem stepKeepsInv : Obligations.StepKeepsInv := by
  unfold Obligations.StepKeepsInv
  intro s t hs h
  unfold step at h
  split at h
  · cases h
    unfold State.tick
    split
    · exact State.tickBy_inv 1 hs
    · exact hs
  · next r _ => exact exec_inv (s := { s with pending := r }) ⟨hs.mem, hs.ctxs, hs.parts, hs.fws, hs.pkg, hs.count⟩ h

end Machine
end Sys2Proof
end

section
/-! PROOFS. A step runs the front command, or lets one nanosecond pass (14 R303); what reset leaves. -/

namespace Sys2Proof
namespace Machine

/-! ### One nanosecond -/

/-- What one nanosecond of the Timebase can write: the counters of health, faults and Toll Gates, and the count. -/
theorem State.tickBy_eq (s : State) (n : Nat) : ∃ parts hlt flt, s.tickBy n = { s with
    tb := { s.tb with count := (s.tb.count + n) % 2 ^ 64 }, parts := parts, hlt := hlt, flt := flt } := by
  unfold State.tickBy State.elapse State.elapse
  extract_lets _ t s1 s2 s3
  have h2 : ∃ hlt, s2 = { s1 with hlt := hlt } := by
    unfold s2
    split
    · exact ⟨_, rfl⟩
    · exact ⟨s1.hlt, rfl⟩
  have h3 : ∃ flt, s3 = { s2 with flt := flt } := by
    unfold s3
    split
    · exact ⟨_, rfl⟩
    · exact ⟨s2.flt, rfl⟩
  obtain ⟨hlt, h2⟩ := h2
  obtain ⟨flt, h3⟩ := h3
  rw [h3, h2]
  exact ⟨_, hlt, flt, rfl⟩

/-- Settles O56. -/
theorem stepRunsFront : Obligations.StepRunsFront := by
  unfold Obligations.StepRunsFront
  refine ⟨fun c r s => rfl, fun s hq => by rw [step, hq], fun s hq hp hr => ?_⟩
  obtain ⟨parts, hlt, flt, ht⟩ := s.tickBy_eq 1
  refine ⟨s.tickBy 1, ?_, ?_⟩
  · rw [step, hq, s.tick_of_running hp hr]
  · rw [ht]
    exact ⟨rfl, rfl, rfl, rfl, rfl, hq, rfl⟩

/-! ### Reset -/

theorem State.reset_inv : Inv State.reset :=
  inv_iff.mpr ⟨fresh_sound .., by decide, by decide⟩

/-- Settles O57: the invariant of `State.reset`, and one evaluation for each of the values. -/
theorem resetState : Obligations.ResetState := by
  unfold Obligations.ResetState
  refine ⟨State.reset_inv, rfl, rfl, rfl, rfl, rfl, rfl, rfl, rfl, rfl, rfl, rfl, rfl, rfl, rfl, rfl,
    by decide, by decide, by decide, fun w => ⟨rfl, rfl, rfl, rfl, rfl⟩, fun a => rfl⟩

end Machine
end Sys2Proof
end

section
/-! PROOFS. Power and resets (19 R399, R402), the boot choice (R404 to R407, R410) and the end of each training (R14, R408, R415, R416). -/

namespace Sys2Proof
namespace Machine

/-! ### Resets -/

theorem State.deviceReset_rebooted (s : State) (x : Nat) : Rebooted s x (s.deviceReset x) where
  fuses := rfl
  flashes := rfl
  ctrs := rfl
  trip := rfl
  latchC4 := rfl
  latches := fun k hk => by interval_cases k <;> rfl
  serves := rfl
  pkgId := rfl
  stage := by simp [State.deviceReset]
  fws := rfl
  ctxs := rfl
  parts := rfl
  wins := rfl
  sess := rfl
  mem := rfl
  clock := rfl

theorem State.resetBy_rebooted (s : State) (x : Nat) (h : s.flt.dev ≠ .stoppedC4) : Rebooted s x (s.resetBy x) := by
  rw [State.resetBy, if_neg h]
  exact s.deviceReset_rebooted x

/-- Out of reset, a relink is of the PCIe link only. -/
theorem State.resetBy_stopped {s : State} (x : Nat) (hr : s.board.perstN = true) (h : s.flt.dev = .stoppedC4) :
    s.resetBy x = { s with host := { s.host with linkUp := true, d3hot := false } } := by
  rw [State.resetBy, if_pos h, State.relink, ← hr]

theorem perstRelease_powered {s : State} (x : Nat) (hp : s.powered = true) : perstRelease x s = s.resetBy x := if_pos hp

theorem hotReset_running {s : State} (x : Nat) (hp : s.powered = true) (hr : s.board.perstN = true) :
    hotReset x s = s.resetBy x := if_pos (by simp [hp, hr])

/-- Settles O1. -/
theorem powerAndResets : Obligations.PowerAndResets := by
  unfold Obligations.PowerAndResets
  refine ⟨fun x s => rfl, fun s => ⟨_, rfl, rfl, rfl, rfl, rfl, rfl, rfl, rfl, rfl, rfl, rfl, rfl⟩, fun x s hp hd => ?_,
    fun x s hp hr hd => ?_, fun x s hp hr hd => ?_⟩
  · exact ⟨_, congrArg Host.Outcome.next (perstRelease_powered x hp), s.resetBy_rebooted x hd⟩
  · exact ⟨_, congrArg Host.Outcome.next (hotReset_running x hp hr), s.resetBy_rebooted x hd⟩
  · rw [← State.resetBy_stopped x hr hd]
    exact ⟨congrArg Host.Outcome.next (perstRelease_powered x hp), congrArg Host.Outcome.next (hotReset_running x hp hr)⟩

/-! ### The boot choice -/

theorem State.bootBundle_fw_running (s : State) (f : Nat) (b : List Byte) {n : Nat} (h : n < s.fws.length) :
    ((s.bootBundle f b).fw n).st = .running := by
  simp [State.bootBundle, State.fw, h]

theorem State.bundleBootable_iff (s : State) (b : List Byte) : s.bundleBootable b = true ↔
    Config.signatureOk b = true ∧ s.fuses.secMin ≤ bundleSec b ∧ bundleSec b ≤ 64 := by
  simp [State.bundleBootable]

/-- What the end of a bundle's load does with the first candidate. -/
theorem bundleLoad_cands {s : State} {f : Nat} {r : List Nat} (hp : s.powered = true) (hr : s.board.perstN = true)
    (hstage : s.boot.stage = .rom ∨ s.boot.stage = .load) (hcands : s.boot.cands = f :: r) :
    let d := s.flashes.getD f (Flash.empty 0)
    let ok := Config.sha384 d.bundle == d.digest && s.bundleBootable d.bundle
    let t := s.flashOk f ok
    bundleLoad s = if ok then t.bootBundle f d.bundle
      else { t with boot := { t.boot with cands := r, stage := if r.isEmpty then .recovery else .load } } := by
  rw [bundleLoad, if_neg, hcands]
  rcases hstage with h | h <;> simp [hp, hr, h]

/-- What a written length does in RECOVERY. -/
theorem recoveryLen_recovery {s : State} (n : Nat) (hbar : s.barOn = true) (hstage : s.boot.stage = .recovery) :
    let b := s.bytesAt (addr 0 0x30000000) (n % 2 ^ 32)
    let t := { s with boot := { s.boot with recoveryLen := n % 2 ^ 32 } }
    recoveryLen n s = if s.bundleBootable b then
        ((({ t with flashes := t.flashes.map (fun (f : Flash) => f.program b 1 true) }).flashOk 0 true).flashOk 1 true).bootBundle 0 b
      else { t with boot := { t.boot with recoveryFail := true } } := by
  rw [recoveryLen, if_neg (by simp [hbar, hstage])]
  rfl

theorem bootChoice_load {s : State} {f : Nat} {r : List Nat} (hp : s.powered = true) (hr : s.board.perstN = true)
    (hstage : s.boot.stage = .rom ∨ s.boot.stage = .load) (hcands : s.boot.cands = f :: r) :
    let d := s.flashes.getD f (Flash.empty 0)
    let good := Config.sha384 d.bundle = d.digest ∧ Config.signatureOk d.bundle = true ∧
      s.fuses.secMin ≤ bundleSec d.bundle ∧ bundleSec d.bundle ≤ 64
    ∃ t, exec .bundleLoadComplete s = .next t ∧ t.mem = s.mem ∧ t.fuses = s.fuses ∧ t.flashes = s.flashes ∧
      t.ctxs = s.ctxs ∧ t.host = s.host ∧ t.flt = s.flt ∧
      (good → t.boot.stage = .train ∧ t.boot.flash = f ∧ t.boot.bundle = d.bundle ∧ t.boot.udsLocked = true ∧
        t.boot.deviceKeyErased = true ∧ ∀ n < s.fws.length, (t.fw n).st = .running) ∧
      (¬ good → t.fws = s.fws ∧ t.boot.cands = r ∧ t.boot.stage = if r = [] then .recovery else .load) := by
  intro d good
  refine ⟨_, congrArg Host.Outcome.next (bundleLoad_cands hp hr hstage hcands), ?_⟩
  by_cases hgood : good
  · have hok : (Config.sha384 d.bundle == d.digest && s.bundleBootable d.bundle) = true := by
      rwa [Bool.and_eq_true, beq_iff_eq, State.bundleBootable_iff]
    rw [if_pos hok]
    exact ⟨rfl, rfl, rfl, rfl, rfl, rfl, fun _ => ⟨rfl, rfl, rfl, rfl, rfl, fun n hn => State.bootBundle_fw_running _ _ _ hn⟩,
      fun h => absurd hgood h⟩
  · have hbad : ¬ (Config.sha384 d.bundle == d.digest && s.bundleBootable d.bundle) = true := by
      rwa [Bool.and_eq_true, beq_iff_eq, State.bundleBootable_iff]
    rw [if_neg hbad]
    exact ⟨rfl, rfl, rfl, rfl, rfl, rfl, fun h => absurd h hgood, fun _ => ⟨rfl, rfl, by simp⟩⟩

theorem bootChoice_recovery {s : State} (n : Nat) (hbar : s.barOn = true) (hstage : s.boot.stage = .recovery) :
    let b := s.bytesAt (addr 0 0x30000000) (n % 2 ^ 32)
    let good := Config.signatureOk b = true ∧ s.fuses.secMin ≤ bundleSec b ∧ bundleSec b ≤ 64
    ∃ t, exec (.recoveryLenWrite n) s = .next t ∧ t.mem = s.mem ∧ t.ctxs = s.ctxs ∧ t.boot.recoveryLen = n % 2 ^ 32 ∧
      (good → t.boot.stage = .train ∧ t.boot.bundle = b ∧
        t.flashes = s.flashes.map (fun (f : Flash) => f.program b 1 true)) ∧
      (¬ good → t.boot.stage = .recovery ∧ t.boot.recoveryFail = true ∧ t.flashes = s.flashes) := by
  intro b good
  refine ⟨_, congrArg Host.Outcome.next (recoveryLen_recovery n hbar hstage), ?_⟩
  by_cases hgood : good
  · rw [if_pos ((State.bundleBootable_iff _ _).mpr hgood)]
    exact ⟨rfl, rfl, rfl, fun _ => ⟨rfl, rfl, rfl⟩, fun h => absurd hgood h⟩
  · rw [if_neg fun h => hgood ((State.bundleBootable_iff _ _).mp h)]
    exact ⟨rfl, rfl, rfl, fun h => absurd h hgood, fun _ => ⟨hstage, rfl, rfl⟩⟩

/-- Settles O2. -/
theorem bootChoice : Obligations.BootChoice := by
  unfold Obligations.BootChoice
  exact ⟨fun s f r hp hr hstage hcands => bootChoice_load hp hr hstage hcands,
    fun n s hbar hstage => bootChoice_recovery n hbar hstage,
    fun s hb hup => congrArg Host.Outcome.next (if_pos (by rw [hb, hup]; rfl))⟩

/-! ### Training -/

/-- `READY` is a matter of the boot state alone. -/
theorem State.checkReady_eq (s : State) : ∃ ready stage,
    s.checkReady = { s with boot := { s.boot with ready := ready, stage := stage } } ∧
      (s.boot.stage ≠ .train → stage = s.boot.stage) := by
  unfold State.checkReady
  split
  · next h => exact ⟨true, .serving, rfl, fun hs => absurd (by simp_all) hs⟩
  · exact ⟨s.boot.ready, s.boot.stage, rfl, fun _ => rfl⟩

/-- A fault raised is at the end of those that arrive. -/
theorem State.raise_arrives (s : State) (source kind cls ctx dtype detail : Nat) :
    ∃ m ∈ (s.raise source kind cls ctx dtype detail).flt.arriving, m.source = source ∧ m.kind = kind ∧ m.cls = cls :=
  ⟨_, List.mem_append_right _ (List.mem_singleton_self _), rfl, rfl, rfl⟩

theorem State.raise_keeps_arriving {s : State} {m : FaultMsg} (source kind cls ctx dtype detail : Nat) (h : m ∈ s.flt.arriving) :
    m ∈ (s.raise source kind cls ctx dtype detail).flt.arriving := List.mem_append_left _ h

/-- The state after one die's training, before faults and `READY`. -/
def dieTrained (p n bytes : Nat) (s : State) : State := { s with boot := { s.boot with
  diesUp := updAt s.boot.diesUp p (fun _ => decide (8 ≤ n))
  dieDone := updAt s.boot.dieDone p (fun _ => true)
  modules := updAt s.boot.modules p (fun _ => Nat.min n 16)
  dieBytes := updAt s.boot.dieBytes p (fun _ => if decide (8 ≤ n) then bytes else 0) } }

theorem ucieTrain_booted {p : Nat} (n bytes : Nat) {s : State} (hb : s.booted = true) (hp : p < 4) : ucieTrain p n bytes s =
    let s2 := if decide (8 ≤ n) then dieTrained p n bytes s else (dieTrained p n bytes s).raise (0x720 + p) 0x25 0 0 3 p
    State.checkReady (if s2.boot.dieDone.all id && !s2.boot.diesUp.any id then
      (s2.raise (0x720 + p) 0x26 3 0 0 0).bootFailed else s2) := by
  rw [ucieTrain, if_neg (by simp [hb, hp])]
  rfl

/-- A list with one value at every index but one has it at all after a write of it there. -/
theorem eq_of_mem_updAt {α : Type} {l : List α} {p : Nat} {b d : α} (h : ∀ q < l.length, q ≠ p → l.getD q d = b) {x : α}
    (hx : x ∈ updAt l p (fun _ => b)) : x = b := by
  obtain ⟨q, hq, rfl⟩ := List.mem_iff_getElem.mp hx
  rw [updAt_length] at hq
  have hget := updAt_getD l p q (fun _ => b) d
  rw [List.getD_eq_getElem _ _ (by simpa using hq)] at hget
  rw [hget]
  split
  · rfl
  · next hne => exact h q hq fun hqp => hne ⟨hqp.symm, hqp ▸ hq⟩

/-- The last die to end its training, when none is up, fails the boot. -/
theorem dieTrained_none {p n bytes : Nat} {s : State} (hn : n < 8) (hup : s.boot.diesUp.length = 4) (hdone : s.boot.dieDone.length = 4)
    (h : ∀ q < 4, q ≠ p → s.boot.dieDone.getD q false = true ∧ s.boot.diesUp.getD q false = false) :
    ((dieTrained p n bytes s).boot.dieDone.all id && !(dieTrained p n bytes s).boot.diesUp.any id) = true := by
  have hall : ∀ x ∈ (dieTrained p n bytes s).boot.dieDone, x = true := fun x hx =>
    eq_of_mem_updAt (d := false) (fun q hq hne => (h q (hdone ▸ hq) hne).1) hx
  have hnone : ∀ x ∈ (dieTrained p n bytes s).boot.diesUp, x = false := fun x hx => by
    have hx : x ∈ updAt s.boot.diesUp p (fun _ => false) := by
      simpa [dieTrained, show decide (8 ≤ n) = false from decide_eq_false (by omega)] using hx
    exact eq_of_mem_updAt (d := false) (fun q hq hne => (h q (hup ▸ hq) hne).2) hx
  simp only [Bool.and_eq_true, List.all_eq_true, Bool.not_eq_true', List.any_eq_false]
  exact ⟨hall, fun x hx => by simp [hnone x hx]⟩

theorem training_ucie {p n bytes : Nat} {s : State} (hb : s.booted = true) (hp : p < 4) (hlu : p < s.boot.diesUp.length)
    (hld : p < s.boot.dieDone.length) : ∃ t, exec (.ucieTrainComplete p n bytes) s = .next t ∧
      t.boot.diesUp.getD p false = decide (8 ≤ n) ∧
      t.boot.dieDone.getD p false = true ∧ t.mem = s.mem ∧ t.ctxs = s.ctxs ∧ t.fws = s.fws ∧ t.host = s.host ∧
      (n < 8 → (∃ m ∈ t.flt.arriving, m.kind = 0x25 ∧ m.source = 0x720 + p) ∧
        ((∀ q < 4, q ≠ p → s.boot.dieDone.getD q false = true ∧ s.boot.diesUp.getD q false = false) →
          s.boot.diesUp.length = 4 → s.boot.dieDone.length = 4 →
          t.boot.stage = .failed ∧ ∃ m ∈ t.flt.arriving, m.kind = 0x26 ∧ m.cls = 3)) := by
  refine ⟨_, congrArg Host.Outcome.next (ucieTrain_booted n bytes hb hp), ?_⟩
  extract_lets s2
  have hup : s2.boot = (dieTrained p n bytes s).boot := by unfold s2; split <;> rfl
  have hrest : s2.mem = s.mem ∧ s2.ctxs = s.ctxs ∧ s2.fws = s.fws ∧ s2.host = s.host := by
    unfold s2
    split <;> exact ⟨rfl, rfl, rfl, rfl⟩
  have hraised : n < 8 → ∃ m ∈ s2.flt.arriving, m.source = 0x720 + p ∧ m.kind = 0x25 ∧ m.cls = 0 := fun hn => by
    unfold s2
    rw [if_neg (by simp [hn])]
    exact State.raise_arrives ..
  have hu : s2.boot.diesUp.getD p false = decide (8 ≤ n) := by
    rw [hup]
    exact updAt_getD_same _ _ _ _ hlu
  have hd : s2.boot.dieDone.getD p false = true := by
    rw [hup]
    exact updAt_getD_same _ _ _ _ hld
  split
  · obtain ⟨ready, stage, hready, hstage⟩ := State.checkReady_eq (s2.raise (0x720 + p) 0x26 3 0 0 0).bootFailed
    rw [hready]
    refine ⟨hu, hd, hrest.1, hrest.2.1, hrest.2.2.1, hrest.2.2.2, fun hn => ⟨?_, fun _ _ _ => ⟨hstage nofun, ?_⟩⟩⟩
    · obtain ⟨m, hm, hsource, hkind, -⟩ := hraised hn
      exact ⟨m, State.raise_keeps_arriving _ _ _ _ _ _ hm, hkind, hsource⟩
    · obtain ⟨m, hm, -, hkind, hcls⟩ := State.raise_arrives s2 (0x720 + p) 0x26 3 0 0 0
      exact ⟨m, hm, hkind, hcls⟩
  · next hsome =>
    obtain ⟨ready, stage, hready, -⟩ := State.checkReady_eq s2
    rw [hready]
    refine ⟨hu, hd, hrest.1, hrest.2.1, hrest.2.2.1, hrest.2.2.2, fun hn => ⟨?_, fun h hl hl' => ?_⟩⟩
    · obtain ⟨m, hm, hsource, hkind, -⟩ := hraised hn
      exact ⟨m, hm, hkind, hsource⟩
    · rw [hup] at hsome
      exact absurd (dieTrained_none hn hl hl' h) hsome

theorem training_hbm {k : Nat} {ok : Bool} {s : State} (hb : s.booted = true) (hk : k < 2) (hl : k < s.boot.hbmUp.length) :
    ∃ t, exec (.hbmTrainComplete k ok) s = .next t ∧ t.boot.hbmUp.getD k (!ok) = ok ∧ t.mem = s.mem ∧ t.ctxs = s.ctxs ∧
      t.fws = s.fws ∧ t.host = s.host ∧ (ok = true → t.flt = s.flt) ∧
      (ok = false → t.boot.stage = .failed ∧ ∃ m ∈ t.flt.arriving, m.kind = 0x71 ∧ m.cls = 3) := by
  refine ⟨hbmTrain k ok s, rfl, ?_⟩
  rw [hbmTrain, if_neg (by simp [hb, hk])]
  extract_lets _ s1
  have hup : s1.boot.hbmUp.getD k (!ok) = ok := updAt_getD_same _ _ _ _ hl
  cases ok with
  | true =>
    obtain ⟨ready, stage, hready, -⟩ := State.checkReady_eq s1
    rw [if_pos rfl, hready]
    exact ⟨hup, rfl, rfl, rfl, rfl, fun _ => rfl, nofun⟩
  | false =>
    obtain ⟨m, hm, -, hkind, hcls⟩ := State.raise_arrives s1 (0x730 + k) 0x71 3 0 3 k
    exact ⟨hup, rfl, rfl, rfl, rfl, nofun, fun _ => ⟨rfl, m, hm, hkind, hcls⟩⟩

theorem training_cxl {p bytes : Nat} {ok : Bool} {s : State} (hb : s.booted = true) (hp : p < 2) (hl : p < s.boot.cxlUp.length) :
    ∃ b, exec (.cxlTrainComplete p ok bytes) s = .next { s with boot := b } ∧ b.cxlUp.getD p (!ok) = ok ∧
      (ok = false → { s with boot := b }.farLimit = 0) := by
  have hrun : cxlTrain p ok bytes s = _ := if_neg (by simp [hb, hp])
  obtain ⟨ready, stage, hready, -⟩ := State.checkReady_eq { s with boot := { s.boot with
    cxlUp := updAt s.boot.cxlUp p (fun _ => ok)
    cxlDone := updAt s.boot.cxlDone p (fun _ => true)
    cxlBytes := updAt s.boot.cxlBytes p (fun _ => if ok then bytes else 0) } }
  refine ⟨_, congrArg Host.Outcome.next (hrun.trans hready), updAt_getD_same _ _ _ _ hl, fun hok => ?_⟩
  subst hok
  have hdown : false ∈ updAt s.boot.cxlUp p (fun _ => false) := by
    refine List.mem_iff_getElem?.mpr ⟨p, ?_⟩
    rw [updAt_getElem?, if_pos rfl, List.getElem?_eq_getElem hl]
    rfl
  rw [State.farLimit, if_neg]
  simpa using hdown

/-! ### Ports -/

theorem portSignal_off {p : Nat} {s : State} (hb : s.booted = true) (htwin : s.fab.twin = false) (hp : p < 128)
    (hoff : (s.port p).st = .off) : portSignal p s = s.onPort p (fun x => { x with st := .training }) :=
  if_pos ⟨hb, by simp [htwin], hp, hoff⟩

/-- Four lanes that train and bear no lasting fault carry the port alone (R276). -/
theorem Port.trained_four {x : Port} {lanes : Nat} (spare : Bool) (peer now : Nat) (hlanes : lanes % 16 = 15)
    (hbad : x.badLanes % 16 = 0) : ∃ upFrom, x.trained lanes spare peer now = { x with
      peer := peer, backsSpare := spare, upFrom := upFrom, credits := linkCredits, spareIn := false, spareFor := 0, st := .up4, lanesGood := 15 } := by
  have hgood : (List.range 4).filter (fun i => bit lanes i && !bit x.badLanes i) = List.range 4 := by
    refine List.filter_eq_self.mpr fun i hi => ?_
    have hi : i < 4 := List.mem_range.mp hi
    have h1 : (lanes % 2 ^ 4).testBit i = lanes.testBit i := by rw [Nat.testBit_mod_two_pow]; simp [hi]
    have h0 : (x.badLanes % 2 ^ 4).testBit i = x.badLanes.testBit i := by rw [Nat.testBit_mod_two_pow]; simp [hi]
    rw [bit, bit, ← h1, ← h0, show lanes % 2 ^ 4 = 15 from hlanes, show x.badLanes % 2 ^ 4 = 0 from hbad]
    interval_cases i <;> rfl
  refine ⟨now, ?_⟩
  rw [Port.trained, hgood]
  rfl

/-- A package that is present joins nothing. -/
theorem State.joinPackage_present {s : State} {pkg : Nat} (h : s.fab.present.contains pkg = true) : s.joinPackage pkg = s :=
  if_pos (.inl h)

theorem State.fabricComplete_done {s : State} (h : s.boot.fabricDone = true) : s.fabricComplete = s := if_pos h

/-- A port that comes up to a package already present changes itself only. -/
theorem portTrained_up {p lanes peer : Nat} (spare : Bool) {s : State} (hb : s.booted = true) (htwin : s.fab.twin = false)
    (hp : p < 128) (htrain : (s.port p).st = .training) (hpeer : peer < 128) (hother : peer ≠ s.board.pkgId)
    (hpresent : s.fab.present.contains peer = true) (hdone : s.boot.fabricDone = true) (hmaster : s.tb.master = s.board.pkgId)
    (hswap : s.upd.swapBusy = false) (hlanes : lanes % 16 = 15) (hbad : (s.port p).badLanes % 16 = 0)
    (hrun : (s.fw fwWayfinder).st = .running) : ∃ x : Port, portTrained p lanes spare peer s = s.onPort p (fun _ => x) ∧
      x.st = .up4 ∧ x.peer = peer ∧ x.credits = linkCredits := by
  obtain ⟨upFrom, hx⟩ := Port.trained_four (x := s.port p) (spare && !s.spareTaken p) (peer % 128) s.now hlanes hbad
  refine ⟨{ (s.port p).trained lanes (spare && !s.spareTaken p) (peer % 128) s.now with backsSpare := spare }, ?_, ?_⟩
  · rw [portTrained, if_neg (by simp [hb, htwin, hp, htrain, hrun]), if_neg hother]
    extract_lets x s1 s2 _ s3 s4
    have h2 : s2 = s1 := by
      have hup : x.up = true := by simp [x, hx, Port.up]
      have hjoin : s1.fab.present.contains (peer % 128) = true := by rwa [Nat.mod_eq_of_lt hpeer]
      unfold s2
      rw [if_pos hup, State.joinPackage_present hjoin]
    have h3 : s3 = s1 := by
      unfold s3
      rw [if_neg (by simp [hswap]), h2]
    have h4 : s4 = s1 := by
      unfold s4
      rw [h3, State.fabricComplete_done (s := s1) hdone, ite_self]
    rw [h4, if_neg fun h => h.2.1 hmaster]
  · rw [hx]
    exact ⟨rfl, Nat.mod_eq_of_lt hpeer, rfl⟩

/-- A peer with this package's ID keeps every port down (R16). -/
theorem portTrained_twin {p lanes peer : Nat} (spare : Bool) {s : State} (hb : s.booted = true) (htwin : s.fab.twin = false)
    (hp : p < 128) (htrain : (s.port p).st = .training) (hown : peer = s.board.pkgId)
    (hrun : (s.fw fwWayfinder).st = .running) : portTrained p lanes spare peer s =
      ({ s with fab := { s.fab with
          twin := true, ports := s.fab.ports.map (fun (x : Port) => { Port.fresh with ctr := x.ctr }) } }).raise
        (0x600 + p) 0x36 3 0 3 peer := by
  rw [portTrained, if_neg (by simp [hb, htwin, hp, htrain, hrun]), if_pos hown]

theorem training_twin {p lanes peer : Nat} (spare : Bool) {s : State} (hb : s.booted = true) (htwin : s.fab.twin = false)
    (hp : p < 128) (htrain : (s.port p).st = .training) (hown : peer = s.board.pkgId)
    (hrun : (s.fw fwWayfinder).st = .running) : ∃ t, exec (.portTrainComplete p lanes spare peer) s = .next t ∧ t.fab.twin = true ∧
      (∀ x ∈ t.fab.ports, x.st = .off) ∧ ∃ m ∈ t.flt.arriving, m.kind = 0x36 ∧ m.cls = 3 := by
  refine ⟨_, congrArg Host.Outcome.next (portTrained_twin spare hb htwin hp htrain hown hrun), rfl, fun x hx => ?_, ?_⟩
  · obtain ⟨y, -, rfl⟩ := List.mem_map.mp hx
    rfl
  · obtain ⟨m, hm, -, hkind, hcls⟩ := State.raise_arrives { s with fab := { s.fab with
      twin := true, ports := s.fab.ports.map (fun (x : Port) => { Port.fresh with ctr := x.ctr }) } } (0x600 + p) 0x36 3 0 3 peer
    exact ⟨m, hm, hkind, hcls⟩

/-! ### The fabric -/

/-- Alignment writes the Timebase, but not who its master is. -/
theorem State.realign_eq (s : State) : ∃ tb, s.realign = { s with tb := tb } ∧ tb.master = s.tb.master := by
  unfold State.realign
  split
  · exact ⟨s.tb, rfl, rfl⟩
  · split
    · exact ⟨_, rfl, rfl⟩
    · split
      · exact ⟨s.tb, rfl, rfl⟩
      · exact ⟨_, rfl, rfl⟩

theorem minBy_cons_isSome {α : Type} (key : α → Nat) (x : α) (r : List α) : ∃ y, minBy key (x :: r) = some y := by
  unfold minBy
  split
  · exact ⟨x, rfl⟩
  · split <;> exact ⟨_, rfl⟩

theorem training_timeout {s : State} (hb : s.booted = true) (hdone : s.boot.fabricDone = false)
    (hdue : s.boot.fabricStart + 2000000000 ≤ s.now) :
    ∃ t, exec .fabricTrainTimeout s = .next t ∧ t.boot.fabricDone = true ∧ t.mem = s.mem ∧ t.fab = s.fab ∧
      t.tb.master = (minBy id (s.board.pkgId :: s.fab.present)).getD 0 := by
  refine ⟨fabricTimeout s, rfl, ?_⟩
  obtain ⟨m, hm⟩ := minBy_cons_isSome id s.board.pkgId s.fab.present
  rw [fabricTimeout, if_pos ⟨hb, hdue⟩, State.fabricComplete, if_neg (by simp [hdone])]
  extract_lets pres m' _ _ t
  obtain ⟨tb, halign, hmaster⟩ := t.realign_eq
  obtain ⟨ready, stage, hready, -⟩ := t.realign.checkReady_eq
  rw [hready, halign]
  refine ⟨rfl, rfl, rfl, hmaster.trans ?_⟩
  change (minBy id (s.board.pkgId :: s.fab.present)).getD s.board.pkgId = _
  rw [hm]
  rfl

/-- Settles O3. -/
theorem trainingOutcomes : Obligations.TrainingOutcomes := by
  unfold Obligations.TrainingOutcomes
  refine ⟨fun p n bytes s hb hp hlu hld => training_ucie hb hp hlu hld, fun k ok s hb hk hl => training_hbm hb hk hl,
    fun p bytes ok s hb hp hl => training_cxl hb hp hl,
    fun p s hb htwin hp _ hoff => congrArg Host.Outcome.next (portSignal_off hb htwin hp hoff),
    fun p lanes peer spare s hb htwin hp hl htrain hpeer hother hpresent hdone hmaster hswap hlanes hbad hrun => ?up,
    fun p lanes peer spare s hb htwin hp htrain hown hrun => training_twin spare hb htwin hp htrain hown hrun,
    fun p lanes peer spare s hrun => congrArg Host.Outcome.next (if_pos (by simp [hrun])),
    fun s hb hdone hdue => training_timeout hb hdone hdue⟩
  obtain ⟨x, ht, hst, hx, hcredits⟩ :=
    portTrained_up spare hb htwin hp htrain hpeer hother hpresent hdone hmaster hswap hlanes hbad hrun
  refine ⟨_, congrArg Host.Outcome.next ht, ?_⟩
  change ((s.onPort p fun _ => x).port p).st = _ ∧ ((s.onPort p fun _ => x).port p).peer = _ ∧
    ((s.onPort p fun _ => x).port p).credits = _
  rw [State.port_onPort _ _ _ _ hl, if_pos rfl]
  exact ⟨hst, hx, hcredits⟩

end Machine
end Sys2Proof
end

section
/-! PROOFS. The host's accesses (16 R337, R338; 18 R395; 19 R412), MCTP and SPDM (R346, R411, R414), and the test port (R418). -/

namespace Sys2Proof
namespace Machine

/-! ### Conditions of the host link -/

/-- Both BARs answer with power, out of reset and in D0. -/
theorem State.barOn_iff (s : State) : s.barOn = true ↔ s.powered = true ∧ s.board.perstN = true ∧ s.host.d3hot = false := by
  simp [State.barOn, and_assoc]

theorem submit_closed {w : Nat} (irqEn : Bool) {s : State} (hbar : s.barOn = true) (hb : s.booted = true) (hw : w < 256)
    (howner : (s.win w).owner = true) :
    submit w irqEn s = (s.onWin w (fun x => { x with irqEn := irqEn })).bump .winIgnored 1 := by
  have hbooted : (s.onWin w (fun x => { x with irqEn := irqEn })).booted = true := hb
  rw [submit, if_neg (by simp [hbar, hw])]
  dsimp only
  rw [if_neg (by simp [hb]), if_pos (by simp [State.win_onWin, howner])]

theorem submit_open {w : Nat} (irqEn : Bool) {s : State} (hbar : s.barOn = true) (hb : s.booted = true) (hw : w < 256)
    (howner : (s.win w).owner = false) :
    submit w irqEn s = (s.onWin w (fun x => { x with irqEn := irqEn })).takeRequest w 0
      ((List.range 4096).map (fun i => Tbl.getD (s.win w).req i 0)) := by
  rw [submit, if_neg (by simp [hbar, hw])]
  dsimp only
  rw [if_neg (by simp [hb]), if_neg (by simp [State.win_onWin, howner])]
  simp [State.win_onWin]

/-- The checks of a header look at nothing of its window but what binds it. -/
theorem State.headerCheck_onWin (s : State) (w : Nat) (f : Win → Win) (m : Msg)
    (h : (f (s.win w)).bound = (s.win w).bound ∧ (f (s.win w)).session = (s.win w).session) :
    (s.onWin w f).headerCheck m = s.headerCheck m := by
  have hwin : ((s.onWin w f).win m.win).bound = (s.win m.win).bound ∧ ((s.onWin w f).win m.win).session = (s.win m.win).session := by
    rw [State.win_onWin]
    split
    · next e => exact e ▸ h
    · exact ⟨rfl, rfl⟩
  simp only [State.headerCheck, hwin]
  rfl

/-! ### Registers -/

/-- Request bytes are written as memory is. -/
theorem reqWrite_eq_memWrite (req : List (Nat × Byte)) (o : Nat) (bs : List Byte) : reqWrite req o bs = memWrite req o bs := by
  induction bs generalizing req o with
  | nil => rfl
  | cons b r ih => exact ih _ _

theorem toLE_length (n x : Nat) : (toLE n x).length = n := by
  induction n generalizing x with
  | zero => rfl
  | succ n ih => simp [toLE, ih]

theorem toLE_getD (n x i : Nat) (h : i < n) (d : Byte) : (toLE n x).getD i d = BitVec.ofNat 8 (x / 256 ^ i) := by
  induction n generalizing x i with
  | zero => omega
  | succ n ih =>
    cases i with
    | zero => simp [toLE]
    | succ i =>
      rw [toLE, List.getD_cons_succ, ih _ _ (by omega), Nat.div_div_eq_div_mul, pow_succ']

/-- The message that a request makes (R338). -/
def State.requestMsg (s : State) (w eid : Nat) (raw : List Byte) : Msg :=
  let h := Header.read raw
  let payload := takeBytes raw 32 (Nat.min h.length 4064)
  ⟨w, h.op, h.sess, h.tag, h.major, h.minor, s.now, payload, .unrouted, h.crcEn, formatBad h payload, eid, s.layGenFor h.op payload⟩

theorem State.requestMsg_onWin (s : State) (w v eid : Nat) (f : Win → Win) (raw : List Byte) :
    (s.onWin w f).requestMsg v eid raw = s.requestMsg v eid raw := rfl

/-- The state in which a request has been taken and nothing done with it. -/
def State.took (s : State) (w eid : Nat) (raw : List Byte) : State :=
  let s1 := s.onWin w (fun x => { x with owner := true, done := false })
  { s1 with host := { s1.host with msgs := s1.host.msgs ++ [s.requestMsg w eid raw] } }

theorem State.took_headerCheck (s : State) (w eid : Nat) (raw : List Byte) (m : Msg) :
    (s.took w eid raw).headerCheck m = s.headerCheck m :=
  Eq.trans (b := (s.onWin w (fun x => { x with owner := true, done := false })).headerCheck m) rfl
    (s.headerCheck_onWin w _ m ⟨rfl, rfl⟩)

/-- A running Steward routes a request that passes its checks, to an owner that is not stopped. -/
theorem State.takeRequest_routes {s : State} {w eid : Nat} {raw : List Byte} (hrun : (s.fw fwSteward).st = .running)
    (hcheck : s.headerCheck (s.requestMsg w eid raw) = none) (hstop : s.stopped (owner (Header.read raw).op) = false) :
    s.takeRequest w eid raw = (s.took w eid raw).setPhase (s.requestMsg w eid raw) .routed := by
  have hcheck : (s.took w eid raw).headerCheck (s.requestMsg w eid raw) = none := by rw [State.took_headerCheck, hcheck]
  have hroute : (s.took w eid raw).route (s.requestMsg w eid raw) = (s.took w eid raw).setPhase (s.requestMsg w eid raw) .routed := by
    rw [State.route, hcheck]
    have hserved : (s.took w eid raw).stopped (owner (s.requestMsg w eid raw).op) = false := hstop
    exact if_neg (by simp [hserved])
  rw [State.takeRequest, hrun]
  exact hroute

/-- While Steward restarts, a request waits unrouted. -/
theorem State.takeRequest_waits {s : State} {w eid : Nat} {raw : List Byte} (h : (s.fw fwSteward).st = .restarting) :
    s.takeRequest w eid raw = s.took w eid raw := by
  rw [State.takeRequest, h]
  rfl

theorem hostAccesses_submit {w : Nat} {irqEn : Bool} {s : State} (hbar : s.barOn = true) (hb : s.booted = true) (hw : w < 256)
    (howner : (s.win w).owner = false) (hrun : (s.fw fwSteward).st = .running) :
    let raw := (List.range 4096).map (fun i => Tbl.getD (s.win w).req i 0)
    s.headerCheck (s.requestMsg w 0 raw) = none → s.stopped (owner (Header.read raw).op) = false →
    ∃ x, exec (.mailboxSubmit w irqEn) s = .next { s with host := x } ∧ { s.requestMsg w 0 raw with phase := .routed } ∈ x.msgs ∧
      (x.wins.getD w Win.fresh).owner = true ∧ (x.wins.getD w Win.fresh).done = false ∧
      (x.wins.getD w Win.fresh).irqEn = irqEn := by
  intro raw hcheck hstop
  have hcheck : (s.onWin w (fun x => { x with irqEn := irqEn })).headerCheck
      ((s.onWin w (fun x => { x with irqEn := irqEn })).requestMsg w 0 raw) = none := by
    rw [State.headerCheck_onWin, State.requestMsg_onWin, hcheck]
    exact ⟨rfl, rfl⟩
  have hsubmit := (submit_open irqEn hbar hb hw howner).trans (State.takeRequest_routes hrun hcheck hstop)
  have hwin : ((s.onWin w (fun x => { x with irqEn := irqEn })).took w 0 raw).win w =
      { s.win w with irqEn := irqEn, owner := true, done := false } := by
    change ((s.onWin w (fun x => { x with irqEn := irqEn })).onWin w (fun x => { x with owner := true, done := false })).win w = _
    simp [State.win_onWin]
  refine ⟨_, congrArg Host.Outcome.next hsubmit, ?_, congrArg Win.owner hwin, congrArg Win.done hwin, congrArg Win.irqEn hwin⟩
  exact List.mem_map.mpr ⟨s.requestMsg w 0 raw, List.mem_append_right _ (List.mem_singleton_self _), if_pos rfl⟩

/-- A window whose request bytes at `o` have been written. -/
def Win.written (o size value : Nat) (x : Win) : Win := { x with req := reqWrite x.req o (toLE size value) }

theorem Win.written_req (o size value k : Nat) (x : Win) : Tbl.getD (x.written o size value).req k 0 =
    if o ≤ k ∧ k < o + size then (toLE size value).getD (k - o) 0 else Tbl.getD x.req k 0 := by
  have h := memWrite_getD x.req o k (toLE size value)
  rwa [← reqWrite_eq_memWrite, toLE_length] at h

/-- A write of request bytes of an open window writes them and no others. -/
theorem hostAccesses_register {off size value : Nat} {s : State} (hbar : s.barOn = true) (hsize : size = 4 ∨ size = 8)
    (halign : off % size = 0) (hlo : 0x100000 ≤ off) (hhi : off < 0x500000) (hreq : off % 0x4000 < 0x1000)
    (howner : (s.win ((off - 0x100000) / 0x4000)).owner = false) :
    ∃ x, exec (.registerWrite off size value) s = .next { s with host := x } ∧
      (∀ i < size, Tbl.getD (x.wins.getD ((off - 0x100000) / 0x4000) Win.fresh).req (off % 0x4000 + i) 0
        = BitVec.ofNat 8 (value / 256 ^ i)) ∧
      (∀ o < 0x1000, (o < off % 0x4000 ∨ off % 0x4000 + size ≤ o) →
        Tbl.getD (x.wins.getD ((off - 0x100000) / 0x4000) Win.fresh).req o 0
          = Tbl.getD (s.win ((off - 0x100000) / 0x4000)).req o 0) ∧
      ∀ v, v ≠ (off - 0x100000) / 0x4000 → x.wins.getD v Win.fresh = s.win v := by
  obtain ⟨hp, hr, hd⟩ := s.barOn_iff.mp hbar
  have hok : regAccessOk off size = true := by rcases hsize with rfl | rfl <;> simp [regAccessOk, halign]
  have hwrite : registerWrite off size value s =
      s.onWin ((off - 0x100000) / 0x4000) (Win.written (off % 0x4000) size value) := by
    rw [registerWrite, if_neg (by simp [hp, hr]), if_neg (by simp [hd]), if_neg (by simp [hok]), regWrite,
      if_neg (by omega), if_pos ⟨hlo, hhi⟩]
    dsimp only
    rw [if_pos hreq, if_neg (by simp [howner])]
    rfl
  have hwin (v : Nat) : _ = _ := s.win_onWin ((off - 0x100000) / 0x4000) v (Win.written (off % 0x4000) size value)
  have hsame := (hwin ((off - 0x100000) / 0x4000)).trans (if_pos rfl)
  refine ⟨_, congrArg Host.Outcome.next hwrite, fun i hi => ?_, fun o _ hout => ?_, fun v hv => (hwin v).trans (if_neg (Ne.symm hv))⟩
  · refine (congrArg (fun x : Win => Tbl.getD x.req _ 0) hsame).trans ?_
    rw [Win.written_req, if_pos (by omega), Nat.add_sub_cancel_left, toLE_getD _ _ _ hi]
  · refine (congrArg (fun x : Win => Tbl.getD x.req _ 0) hsame).trans ?_
    rw [Win.written_req, if_neg (by omega)]

/-! ### The aperture -/

theorem apertureAccess_write {off a n : Nat} {bs : List Byte} {p : Bool} {s : State} (hbar : s.barOn = true)
    (ha : s.aperture off bs.length = some a) : apertureAccess off n (some bs) p s = s.writeAt a bs := by
  obtain ⟨hp, hr, hd⟩ := s.barOn_iff.mp hbar
  rw [apertureAccess, if_neg (by simp [hp, hr])]
  simp [hd, ha]

theorem apertureAccess_read {off a n : Nat} {p : Bool} {s : State} (hbar : s.barOn = true) (ha : s.aperture off n = some a) :
    apertureAccess off n none p s =
      (s.takePoison a n).2.emit (if p || (s.takePoison a n).1 then .poisoned else .data (s.bytesAt a n)) := by
  obtain ⟨hp, hr, hd⟩ := s.barOn_iff.mp hbar
  rw [apertureAccess, if_neg (by simp [hp, hr])]
  simp [hd, ha]

/-- A read that meets no poisoned line takes none. -/
theorem State.takePoison_clean {s : State} {a n : Nat} (h : ∀ l ∈ s.poison, l < a / 64 ∨ (a + n - 1) / 64 < l) :
    s.takePoison a n = (false, s) := by
  have hnone : ∀ l ∈ s.poison, decide (a / 64 ≤ l ∧ l ≤ (a + n - 1) / 64) = false := fun l hl => by
    have := h l hl
    simp only [decide_eq_false_iff_not]
    omega
  have hany : s.poison.any (fun l => decide (a / 64 ≤ l ∧ l ≤ (a + n - 1) / 64)) = false :=
    List.any_eq_false.mpr fun l hl => by simp [hnone l hl]
  have hall : s.poison.filter (fun l => !decide (a / 64 ≤ l ∧ l ≤ (a + n - 1) / 64)) = s.poison :=
    List.filter_eq_self.mpr fun l hl => by simp [hnone l hl]
  rw [State.takePoison, hany, hall]

/-- A read that meets a poisoned line takes it and leaves every line outside. -/
theorem State.takePoison_hit {s : State} {a n l : Nat} (hl : l ∈ s.poison) (hlo : a / 64 ≤ l) (hhi : l ≤ (a + n - 1) / 64) :
    ∃ q, s.takePoison a n = (true, { s with poison := q }) ∧ l ∉ q ∧
      ∀ k ∈ s.poison, k < a / 64 ∨ (a + n - 1) / 64 < k → k ∈ q := by
  refine ⟨s.poison.filter (fun l => !decide (a / 64 ≤ l ∧ l ≤ (a + n - 1) / 64)), ?_, ?_, fun k hk hout => ?_⟩
  · rw [State.takePoison, List.any_eq_true.mpr ⟨l, hl, by simp [hlo, hhi]⟩]
  · simp [hlo, hhi]
  · refine List.mem_filter.mpr ⟨hk, ?_⟩
    simp only [Bool.not_eq_true', decide_eq_false_iff_not]
    omega

/-- In D3hot no access of the host acts. -/
theorem hostAccesses_d3hot {s : State} (hp : s.powered = true) (hr : s.board.perstN = true) (hd : s.host.d3hot = true) :
    (∀ w irqEn, exec (.mailboxSubmit w irqEn) s = .next s) ∧ (∀ w irqEn, exec (.doneClear w irqEn) s = .next s) ∧
    (∀ k, exec (.irqPendClear k) s = .next s) ∧ (∀ off size v, exec (.registerWrite off size v) s = .next s) ∧
    (∀ off n bs p, exec (.hostApertureAccess off n (some bs) p) s = .next s) ∧
    (∀ off n p, exec (.hostApertureAccess off n none p) s = .next (s.emit .unsupported)) ∧
    exec .peakWRead s = .next (s.emit .unsupported) := by
  have hbar : s.barOn = false := by simp [State.barOn, hd]
  have hlive : ¬ (!s.powered || !s.board.perstN) = true := by simp [hp, hr]
  refine ⟨fun w irqEn => ?_, fun w irqEn => ?_, fun k => ?_, fun off size v => ?_, fun off n bs p => ?_, fun off n p => ?_, ?_⟩
  · exact congrArg Host.Outcome.next (if_pos (by simp [hbar]))
  · exact congrArg Host.Outcome.next (if_pos (by simp [hbar]))
  · exact congrArg Host.Outcome.next (if_pos (by simp [hbar]))
  · exact congrArg Host.Outcome.next ((if_neg hlive).trans (if_pos hd))
  · exact congrArg Host.Outcome.next ((if_neg hlive).trans (if_pos hd))
  · exact congrArg Host.Outcome.next ((if_neg hlive).trans (if_pos hd))
  · exact congrArg Host.Outcome.next ((if_neg hlive).trans (if_pos hd))

/-- Settles O4. -/
theorem hostAccesses : Obligations.HostAccesses := by
  unfold Obligations.HostAccesses
  refine ⟨fun w irqEn s hbar hb hw howner hrun => hostAccesses_submit hbar hb hw howner hrun,
    fun w irqEn s hbar hb hw howner => congrArg Host.Outcome.next (submit_closed irqEn hbar hb hw howner),
    fun w irqEn s hbar hw => congrArg Host.Outcome.next (if_neg (by simp [hbar, hw])),
    fun k s hbar => congrArg Host.Outcome.next (if_neg (by simp [hbar])), fun s hbar => ?peak,
    fun off size value s hbar hsize halign hlo hhi hreq howner => hostAccesses_register hbar hsize halign hlo hhi hreq howner,
    fun size value s hbar hsize => ?irqClass, fun off a n bs p s hbar ha => congrArg Host.Outcome.next (apertureAccess_write hbar ha),
    fun off a n s hbar ha hclean => ?read, fun off a n l p s hbar ha hl hlo hhi => ?poisoned,
    fun d3hot s hp hr => congrArg Host.Outcome.next (if_pos (by simp [hp, hr])),
    fun s hp hr hd => hostAccesses_d3hot hp hr hd⟩
  case peak =>
    obtain ⟨hp, hr, hd⟩ := s.barOn_iff.mp hbar
    exact congrArg Host.Outcome.next ((if_neg (by simp [hp, hr])).trans (if_neg (by simp [hd])))
  case irqClass =>
    obtain ⟨hp, hr, hd⟩ := s.barOn_iff.mp hbar
    have hok : regAccessOk 0x40 size = true := by rcases hsize with rfl | rfl <;> rfl
    exact congrArg Host.Outcome.next
      ((if_neg (by simp [hp, hr])).trans ((if_neg (by simp [hd])).trans ((if_neg (by simp [hok])).trans (if_pos rfl))))
  case read =>
    have hread (p : Bool) := apertureAccess_read (p := p) hbar ha
    simp only [State.takePoison_clean hclean] at hread
    exact ⟨congrArg Host.Outcome.next (hread false), congrArg Host.Outcome.next (hread true)⟩
  case poisoned =>
    obtain ⟨q, htake, hgone, hkept⟩ := State.takePoison_hit hl hlo hhi
    have hread := apertureAccess_read (p := p) hbar ha
    simp only [htake, Bool.or_true, if_true] at hread
    exact ⟨q, congrArg Host.Outcome.next hread, hgone, hkept⟩

/-! ### MCTP -/

theorem State.path_onPath (s : State) {p : Nat} (f : MctpPath → MctpPath) (h : p < s.host.paths.length) :
    (s.onPath p f).path p = f (s.path p) := updAt_getD_same _ _ _ _ h

/-- A first packet of a message starts its assembly, whatever was there. -/
theorem mctpPacket_first {p src tag seq : Nat} (eom : Bool) {body : List Byte} {s : State} (hp : s.powered = true)
    (hr : s.board.perstN = true) (hpath : p < 2) (hlen : body.length ≤ 64) : mctpPacket p src tag seq true eom body s =
      s.onPath p (fun q => if eom then q.deliver src body else { q with asm := some (src, tag, (seq + 1) % 4, body, s.now) }) := by
  rw [mctpPacket, if_neg (by simp [hp, hr, hpath, hlen])]
  cases eom <;> rfl

/-- The packet that follows in order and in time is added to its message. -/
theorem mctpPacket_next {p src tag seq t0 : Nat} {body more : List Byte} {s : State} (hp : s.powered = true)
    (hr : s.board.perstN = true) (hpath : p < 2) (hlen : more.length ≤ 64)
    (hasm : (s.path p).asm = some (src, tag, seq % 4, body, t0)) (hnow : s.now ≤ t0 + 100000000) :
    mctpPacket p src tag seq false false more s =
      s.onPath p (fun q => { q with asm := some (src, tag, (seq + 1) % 4, body ++ more, s.now) }) := by
  rw [mctpPacket, if_neg (by simp [hp, hr, hpath, hlen])]
  simp [hasm, hnow]

theorem MctpPath.deliver_prota {q : MctpPath} {src : Nat} {body : List Byte} (heid : q.eid ≠ 0)
    (hty : (body.getD 0 0).toNat % 128 = 0x7E) : (q.deliver src body).ready = q.ready ++ [(src, 0x7E, body.drop 1)] := by
  rw [MctpPath.deliver, hty]
  simp [heid]

theorem MctpPath.deliver_early {q : MctpPath} {src : Nat} {body : List Byte} (heid : q.eid = 0)
    (hty : (body.getD 0 0).toNat % 128 ≠ 0) : (q.deliver src body).ready = q.ready := by
  rw [MctpPath.deliver]
  simp only [heid, hty, ne_eq, not_false_eq_true, and_self, if_true]

/-- A path whose one message is a Prota message gives it up. -/
theorem mctpProta_one {p src : Nat} {body : List Byte} {s : State} (hb : s.booted = true) (hp : p < 2)
    (hready : (s.path p).ready = [(src, 0x7E, body)]) :
    let s1 := s.onPath p (fun q => { q with ready := eraseFirst (fun e => decide (e = (src, 0x7E, body))) q.ready })
    let raw := takeBytes (body.drop 2) 0 4096
    let h := Header.read raw
    let r : Header := ⟨h.op, Status.busy.code, 0, 0, h.sess, h.tag, h.major, h.minor, true, h.crcEn, 7, 0, s.now, 0, 0⟩
    mctpProta p s = if (s.win (256 + p)).owner then (s1.emit (.mctp p src 0x7E r.write)).bump .mctpBusy 1
      else s1.takeRequest (256 + p) src raw := by
  rw [mctpProta, if_neg (by simp [hb, hp]), hready]
  rfl

theorem State.path_onPath_erased {p src : Nat} {body : List Byte} {s : State} (hl : p < s.host.paths.length)
    (hready : (s.path p).ready = [(src, 0x7E, body)]) :
    ((s.onPath p (fun q => { q with ready := eraseFirst (fun e => decide (e = (src, 0x7E, body))) q.ready })).path p).ready = [] := by
  rw [State.path_onPath _ _ hl]
  simp [hready, eraseFirst]

theorem ctrGet_ctrAdd_same (t : Tbl Nat) (c : Ctr) (n : Nat) : ctrGet (ctrAdd t c n) c = c.plus (ctrGet t c) n :=
  Tbl.getD_setD_same ..

theorem links_protaBusy {p src : Nat} {body : List Byte} {s : State} (hb : s.booted = true) (hp : p < 2)
    (hl : p < s.host.paths.length) (hready : (s.path p).ready = [(src, 0x7E, body)]) (howner : (s.win (256 + p)).owner = true) :
    ∃ t, exec (.mctpProtaMessage p) s = .next t ∧ (t.path p).ready = [] ∧ t.host.msgs = s.host.msgs ∧ t.mem = s.mem ∧
      t.ctxs = s.ctxs ∧ ctrGet t.ctr .mctpBusy = (Ctr.plus .mctpBusy (ctrGet s.ctr .mctpBusy) 1) ∧
      ∃ bs, t.out = s.out ++ [.mctp p src 0x7E bs] :=
  ⟨_, congrArg Host.Outcome.next ((mctpProta_one hb hp hready).trans (if_pos howner)), State.path_onPath_erased hl hready,
    rfl, rfl, rfl, ctrGet_ctrAdd_same .., _, rfl⟩

theorem links_protaTaken {p src : Nat} {body : List Byte} {s : State} (hb : s.booted = true) (hp : p < 2)
    (hl : p < s.host.paths.length) (hready : (s.path p).ready = [(src, 0x7E, body)]) (howner : (s.win (256 + p)).owner = false)
    (hrest : (s.fw fwSteward).st = .restarting) :
    ∃ x, exec (.mctpProtaMessage p) s = .next { s with host := x } ∧ (x.paths.getD p ⟨0, none, []⟩).ready = [] ∧
      (x.wins.getD (256 + p) Win.fresh).owner = true ∧ (x.wins.getD (256 + p) Win.fresh).done = false ∧
      ∃ m ∈ x.msgs, m.win = 256 + p ∧ m.eid = src ∧ m.stamp = s.now ∧ m.phase = .unrouted := by
  have htaken := (mctpProta_one hb hp hready).trans (if_neg (by simp [howner]))
  rw [State.takeRequest_waits (by exact hrest)] at htaken
  have hwin : (s.onWin (256 + p) (fun x => { x with owner := true, done := false })).win (256 + p) =
      { s.win (256 + p) with owner := true, done := false } := by simp [State.win_onWin]
  exact ⟨_, congrArg Host.Outcome.next htaken, State.path_onPath_erased hl hready, congrArg Win.owner hwin, congrArg Win.done hwin,
    _, List.mem_append_right _ (List.mem_singleton_self _), rfl, rfl, rfl, rfl⟩

/-! ### SPDM -/

/-- A running Steward answers. -/
theorem spdm_running {k : Nat} (r : SpdmReq) {s : State} (hb : s.booted = true) (hk : k < 3)
    (hrun : (s.fw fwSteward).st = .running) : spdm k r s = s.spdmReply k r := by
  rw [spdm, if_neg (by simp [hb, hk]), hrun]

/-- An answer replaces the transport's state and is sent. -/
theorem State.spdmReply_of_answer {s : State} {k : Nat} {r : SpdmReq} {x : Spdm} {a : SpdmResp} (hl : k < s.host.spdm.length)
    (h : s.spdmAnswer (s.host.spdm.getD k ⟨0, false, false⟩) r = (x, a)) : ∃ y,
    s.spdmReply k r = { s with host := y, out := s.out ++ [.spdm k a] } ∧ y.spdm.getD k ⟨0, false, false⟩ = x := by
  rw [State.spdmReply, h]
  exact ⟨_, rfl, updAt_getD_same _ _ _ _ hl⟩

theorem links_spdm {k : Nat} {s : State} (hb : s.booted = true) (hk : k < 3) (hl : k < s.host.spdm.length)
    (hrun : (s.fw fwSteward).st = .running) {r : SpdmReq} {x : Spdm} {a : SpdmResp}
    (h : s.spdmAnswer (s.host.spdm.getD k ⟨0, false, false⟩) r = (x, a)) : ∃ y,
    spdm k r s = { s with host := y, out := s.out ++ [.spdm k a] } ∧ y.spdm.getD k ⟨0, false, false⟩ = x := by
  rw [spdm_running r hb hk hrun]
  exact State.spdmReply_of_answer hl h

/-- Block 9 holds the security minimum and the life-cycle fuse (Table 19-9). -/
theorem State.measurements_nine (s : State) :
    s.measurements.filter (fun e => e.1 == 9) = [(9, s.fuses.secMin, b2n s.fuses.production)] := rfl

/-- Settles O5. -/
theorem managementLinks : Obligations.ManagementLinks := by
  unfold Obligations.ManagementLinks
  refine ⟨fun p src tag seq eom body s hp hr hpath hl hlen => ?first, fun p src tag seq body more t0 s hp hr hpath hl hlen hasm hnow => ?next,
    fun p src tag seq t0 body s hl hasm hlate => ?late, fun p eid s hb hp hl hlo hhi => ?eid,
    fun a s hp hr ha => congrArg Host.Outcome.next (if_pos (by simp [hp, hr, ha])),
    fun p src body s hb hp hl hready howner => links_protaBusy hb hp hl hready howner,
    fun p src body s hb hp hl hready howner hrest => links_protaTaken hb hp hl hready howner hrest,
    fun k s hb hk hl hrun => ?spdm⟩
  case first =>
    have hget (f : MctpPath → MctpPath) := State.path_onPath s f hl
    refine ⟨_, congrArg Host.Outcome.next (mctpPacket_first eom hp hr hpath hlen), fun he => ?_, fun he heid hty => ?_, fun he heid hty => ?_⟩
    · subst he
      exact congrArg MctpPath.asm (hget _)
    · subst he
      exact (congrArg MctpPath.ready (hget _)).trans (MctpPath.deliver_prota heid hty)
    · subst he
      exact (congrArg MctpPath.ready (hget _)).trans (MctpPath.deliver_early heid hty)
  case next =>
    exact ⟨_, congrArg Host.Outcome.next (mctpPacket_next hp hr hpath hlen hasm hnow),
      congrArg MctpPath.asm (State.path_onPath s _ hl)⟩
  case late =>
    have hrun : mctpTimeout p s = s.onPath p (fun q => { q with asm := none }) := by
      rw [mctpTimeout, hasm]
      exact if_pos hlate
    exact ⟨_, congrArg Host.Outcome.next hrun, State.path_onPath s _ hl⟩
  case eid =>
    have hset : mctpSetEid p eid s = (s.onPath p (fun q => { q with eid := eid })).emit (.mctpControl p 0x00) := by
      rw [mctpSetEid, if_neg (by simp [hb, hp]), if_neg (by omega)]
    exact ⟨_, congrArg Host.Outcome.next hset, congrArg MctpPath.eid (State.path_onPath s _ hl)⟩
  case spdm =>
    refine ⟨?_, fun v hv => ?_, fun base hash hcaps hbase hhash => ?_, fun halg => ?_⟩
    · obtain ⟨y, hy, hx⟩ := links_spdm hb hk hl hrun (r := .getVersion) rfl
      exact ⟨y, congrArg Host.Outcome.next hy, hx⟩
    · obtain ⟨y, hy, hx⟩ := links_spdm hb hk hl hrun (r := .getCapabilities v) (if_pos hv)
      exact ⟨y, congrArg Host.Outcome.next hy, hx⟩
    · obtain ⟨y, hy, hx⟩ := links_spdm hb hk hl hrun (r := .negotiateAlgorithms base hash) (if_pos ⟨hcaps, hbase, hhash⟩)
      exact ⟨y, congrArg Host.Outcome.next hy, congrArg Spdm.algDone hx⟩
    · refine ⟨?_, fun off n _ => ?_, fun nonce => ?_, fun nonce => ?_⟩
      · obtain ⟨y, hy, -⟩ := links_spdm hb hk hl hrun (r := .getDigests) (if_pos halg)
        exact ⟨_, congrArg Host.Outcome.next hy, rfl⟩
      · obtain ⟨y, hy, -⟩ := links_spdm hb hk hl hrun (r := .getCertificate 0 off n) (if_pos ⟨halg, rfl⟩)
        exact ⟨_, congrArg Host.Outcome.next hy, rfl⟩
      · obtain ⟨y, hy, -⟩ := links_spdm hb hk hl hrun (r := .challenge 0 nonce) (if_pos ⟨halg, rfl⟩)
        exact ⟨_, congrArg Host.Outcome.next hy, rfl⟩
      · obtain ⟨y, hy, -⟩ := links_spdm hb hk hl hrun (r := .getMeasurements 9 false nonce)
          (a := .measurements 1 [(9, s.fuses.secMin, b2n s.fuses.production)] none)
          (x := s.host.spdm.getD k ⟨0, false, false⟩) (by simp only [State.spdmAnswer, halg]; rfl)
        exact ⟨_, congrArg Host.Outcome.next hy, rfl⟩

/-! ### The test port -/

/-- A field between what lies below it and what lies above. -/
theorem bits_of_sum {a v h lo n : Nat} (ha : a < 2 ^ lo) (hv : v < 2 ^ n) : bits (a + v * 2 ^ lo + h * 2 ^ (lo + n)) lo n = v := by
  have hsum : a + v * 2 ^ lo + h * 2 ^ (lo + n) = a + 2 ^ lo * (v + 2 ^ n * h) := by ring
  rw [bits, Nat.shiftRight_eq_div_pow, hsum, Nat.add_mul_div_left _ _ (Nat.two_pow_pos lo), Nat.div_eq_of_lt ha, Nat.zero_add,
    Nat.add_mul_mod_self_left, Nat.mod_eq_of_lt hv]

/-- What four packed fields are where the last two stand side by side: the third field, and the fourth. -/
theorem packF_fields {b x v h p n lo m k : Nat} (hlow : b % 2 ^ p * 2 ^ 0 + x % 2 ^ n * 2 ^ p < 2 ^ lo) :
    bits (packF [(0, p, b), (p, n, x), (lo, m, v), (lo + m, k, h)]) lo m = v % 2 ^ m ∧
      bits (packF [(0, p, b), (p, n, x), (lo, m, v), (lo + m, k, h)]) (lo + m) k = h % 2 ^ k := by
  have hpack : packF [(0, p, b), (p, n, x), (lo, m, v), (lo + m, k, h)] =
      (b % 2 ^ p * 2 ^ 0 + x % 2 ^ n * 2 ^ p) + v % 2 ^ m * 2 ^ lo + h % 2 ^ k * 2 ^ (lo + m) := by
    simp only [packF, sumN, List.map_cons, List.map_nil, List.foldl_cons, List.foldl_nil, Nat.zero_add]
  have hv : v % 2 ^ m < 2 ^ m := Nat.mod_lt _ (Nat.two_pow_pos m)
  have hmid : b % 2 ^ p * 2 ^ 0 + x % 2 ^ n * 2 ^ p + v % 2 ^ m * 2 ^ lo < 2 ^ (lo + m) := by
    calc b % 2 ^ p * 2 ^ 0 + x % 2 ^ n * 2 ^ p + v % 2 ^ m * 2 ^ lo < 2 ^ lo + v % 2 ^ m * 2 ^ lo := Nat.add_lt_add_right hlow _
      _ = (v % 2 ^ m + 1) * 2 ^ lo := by ring
      _ ≤ 2 ^ m * 2 ^ lo := Nat.mul_le_mul_right _ hv
      _ = 2 ^ (lo + m) := by ring
  have htop := bits_of_sum (h := 0) hmid (Nat.mod_lt h (Nat.two_pow_pos k))
  rw [Nat.zero_mul, Nat.add_zero] at htop
  rw [hpack]
  exact ⟨bits_of_sum hlow hv, htop⟩

theorem idcode_fields : bits idcode 12 16 = 0x9600 % 2 ^ 16 ∧ bits idcode 28 4 = 0xB % 2 ^ 4 :=
  packF_fields (by
    have h := Nat.mod_lt Config.bsdlFields (Nat.two_pow_pos 11)
    omega)
/-- Settles O6. -/
theorem testPort : Obligations.TestPort := by
  unfold Obligations.TestPort
  intro s hp
  have hreset (hr : s.board.perstN = false) (i : TapInstr) (driving released : Bool) :
      jtagOnlyInReset i driving released s = s.tap i driving released :=
    (if_neg (by simp [hp])).trans (if_neg (by simp [hr]))
  have hbypass (hr : s.board.perstN = true) (i : TapInstr) (driving released : Bool) :
      jtagOnlyInReset i driving released s = s.tap .bypass false false :=
    (if_neg (by simp [hp])).trans (if_pos hr)
  refine ⟨congrArg Host.Outcome.next (if_pos hp), ⟨idcode, idcode_fields.1, idcode_fields.2, congrArg Host.Outcome.next (if_pos hp)⟩,
    fun pins => ⟨_, congrArg Host.Outcome.next (if_pos hp), rfl, rfl, rfl, rfl, _, rfl⟩, fun hr => ?_, fun hr => ?_⟩
  · exact ⟨congrArg Host.Outcome.next (hreset hr ..), congrArg Host.Outcome.next (hreset hr ..), congrArg Host.Outcome.next (hreset hr ..)⟩
  · exact ⟨congrArg Host.Outcome.next (hbypass hr ..), congrArg Host.Outcome.next (hbypass hr ..), congrArg Host.Outcome.next (hbypass hr ..)⟩

end Machine
end Sys2Proof
end

section
/-! PROOFS. The Fault Collector and its queue (18 R378, R379, R384), counting windows, lasting faults and the end of a core's
retirement (R385, R386; 08 R173). -/

namespace Sys2Proof
namespace Machine

/-! ### One message at the arbiter -/

/-- The state in which the fault that hardware found, if any, has been raised. -/
def State.afterFound (s : State) : Option FoundFault → State
  | some x => s.found x
  | none => s

theorem faultTake_powered (f : Option FoundFault) {s : State} (hp : s.powered = true) : faultTake f s =
    match nextFault (s.afterFound f).flt.arriving with
    | none => s.afterFound f
    | some m =>
      let s1 := { s.afterFound f with
        flt := { (s.afterFound f).flt with arriving := eraseFirst (fun x => decide (x = m)) (s.afterFound f).flt.arriving } }
      match s1.resetLoop m with
      | some c4 => (s1.collect m).collect c4
      | none => s1.collect m := by
  unfold faultTake
  rw [if_neg (by simp [hp])]
  cases f <;> rfl

theorem State.resetLoop_none {s : State} {m : FaultMsg} (h : m.cls ≠ 3 ∨ s.flt.endedC3 = none) : s.resetLoop m = none := by
  unfold State.resetLoop
  rcases h with h | h
  · split
    · exact if_neg fun hc => h hc.1
    · rfl
  · rw [h]

/-- The collector takes the one message that waits. -/
theorem faultTake_one {f : Option FoundFault} {m : FaultMsg} {s : State} (hp : s.powered = true)
    (hone : (s.afterFound f).flt.arriving = [m]) (hended : m.cls ≠ 3 ∨ (s.afterFound f).flt.endedC3 = none) :
    faultTake f s = ({ s.afterFound f with flt := { (s.afterFound f).flt with arriving := [] } }).collect m := by
  have hnext : nextFault [m] = some m := by simp [nextFault, minBy]
  have herase : eraseFirst (fun x => decide (x = m)) [m] = [] := by simp [eraseFirst]
  have hloop : ({ s.afterFound f with flt := { (s.afterFound f).flt with arriving := [] } } : State).resetLoop m = none :=
    State.resetLoop_none hended
  rw [faultTake_powered f hp, hone, hnext]
  dsimp only
  rw [herase, hloop]

/-- Latch, queue and counter leave device state and boot state. -/
theorem State.latch_eq (s : State) (m : FaultMsg) : ∃ latches overLost irqPend o, s.latch m =
    { s with flt := { s.flt with latches := latches, overLost := overLost, irqPend := irqPend }, out := o } := by
  unfold State.latch
  split
  · exact ⟨s.flt.latches, _, s.flt.irqPend, s.out, rfl⟩
  · dsimp only
    split
    · exact ⟨_, s.flt.overLost, true, _, rfl⟩
    · exact ⟨_, s.flt.overLost, s.flt.irqPend, s.out, rfl⟩

theorem State.enqueue_eq (s : State) (m : FaultMsg) : ∃ queue dropped ctr, s.enqueue m =
    { s with flt := { s.flt with queue := queue, dropped := dropped, ctr := ctr } } := by
  unfold State.enqueue
  split
  · exact ⟨_, 0, s.flt.ctr, rfl⟩
  · exact ⟨s.flt.queue, _, _, rfl⟩

/-- The class action alone decides device state and `READY`. -/
theorem State.collect_dev (s : State) (m : FaultMsg) :
    (s.collect m).flt.dev = (s.classAction m).flt.dev ∧ (s.collect m).boot = (s.classAction m).boot := by
  obtain ⟨l, o, i, out, hlatch⟩ := (s.classAction m).latch_eq m
  obtain ⟨q, d, c, henqueue⟩ := ((s.classAction m).latch m).enqueue_eq m
  rw [State.collect, henqueue, hlatch]
  exact ⟨rfl, rfl⟩

/-- A C3 while the device serves stops it. -/
theorem State.classAction_c3 {s : State} {m : FaultMsg} (hcls : m.cls = 3) (hdev : s.flt.dev = .serving) :
    (s.classAction m).flt.dev = .stoppedC3 ∧ (s.classAction m).boot.ready = false := by
  have haction : s.classAction m = { s.haltAll with flt := { s.haltAll.flt with dev := .stoppedC3 } } := by
    simp [State.classAction, hcls, hdev]
  rw [haction]
  exact ⟨rfl, rfl⟩

theorem State.classAction_c0 {s : State} {m : FaultMsg} (hcls : m.cls = 0) : s.classAction m = s := by
  simp [State.classAction, hcls]

/-! ### Latch and queue -/

theorem State.latch_full {s : State} {m : FaultMsg} (h : s.flt.latches.getD m.cls none ≠ none) : s.latch m =
    { s with flt := { s.flt with overLost := updAt s.flt.overLost m.cls (fun _ => true) } } :=
  if_pos (Option.isSome_iff_ne_none.mpr h)

theorem State.latch_empty {s : State} {m : FaultMsg} (h : s.flt.latches.getD m.cls none = none) : s.latch m =
    let t := { s with flt := { s.flt with latches := updAt s.flt.latches m.cls (fun _ => some m) } }
    if t.flt.irqClass ≤ m.cls then { t with flt := { t.flt with irqPend := true } }.emit (.msix 256) else t :=
  if_neg (by rw [h]; simp)

theorem State.enqueue_room {s : State} {m : FaultMsg} (h : s.flt.queue.length < 4096) : s.enqueue m =
    { s with flt := { s.flt with queue := s.flt.queue ++ [(s.flt.dropped, m)], dropped := 0 } } := if_pos h

theorem faultTake_c0 {m : FaultMsg} {s : State} (hp : s.powered = true) (hone : s.flt.arriving = [m]) (hcls : m.cls = 0) :
    faultTake none s = ((({ s with flt := { s.flt with arriving := [] } }).latch m).enqueue m).bumpFlt .faultsTakenC0 1 := by
  rw [faultTake_one (f := none) hp hone (.inl (by simp [hcls])), State.collect, State.classAction_c0 hcls, hcls]
  rfl

theorem collection_room {m : FaultMsg} {s : State} (hp : s.powered = true) (hone : s.flt.arriving = [m]) (hcls : m.cls = 0)
    (hlatches : s.flt.latches.length = 5) (hover : s.flt.overLost.length = 5) (hroom : s.flt.queue.length < 4096) :
    ∃ f o, exec (.faultTake none) s = .next { s with flt := f, out := o } ∧ f.arriving = [] ∧
      f.queue = s.flt.queue ++ [(s.flt.dropped, m)] ∧ f.dropped = 0 ∧ f.dev = s.flt.dev ∧
      (s.flt.latches.getD 0 none = none → f.latches.getD 0 none = some m ∧
        (s.flt.irqClass = 0 → f.irqPend = true ∧ o = s.out ++ [.msix 256]) ∧ (s.flt.irqClass ≠ 0 → o = s.out)) ∧
      (s.flt.latches.getD 0 none ≠ none → f.latches = s.flt.latches ∧ f.overLost.getD 0 false = true ∧ o = s.out) ∧
      ctrGet f.ctr .faultsTakenC0 = Ctr.plus .faultsTakenC0 (ctrGet s.flt.ctr .faultsTakenC0) 1 := by
  have hrun := faultTake_c0 hp hone hcls
  by_cases hlatch : s.flt.latches.getD 0 none = none
  · rw [State.latch_empty (by rw [hcls]; exact hlatch)] at hrun
    have hfilled : (updAt s.flt.latches m.cls (fun _ => some m)).getD 0 none = some m := by
      rw [hcls]
      exact updAt_getD_same _ _ _ _ (by omega)
    by_cases hirq : s.flt.irqClass = 0
    · rw [if_pos (by rw [hcls]; exact hirq.le), State.enqueue_room (by exact hroom)] at hrun
      exact ⟨_, _, congrArg Host.Outcome.next hrun, rfl, rfl, rfl, rfl, fun _ => ⟨hfilled, fun _ => ⟨rfl, rfl⟩, fun h => absurd hirq h⟩,
        fun h => absurd hlatch h, ctrGet_ctrAdd_same ..⟩
    · rw [if_neg (by rw [hcls]; exact fun h => hirq (Nat.le_zero.mp h)), State.enqueue_room (by exact hroom)] at hrun
      exact ⟨_, _, congrArg Host.Outcome.next hrun, rfl, rfl, rfl, rfl, fun _ => ⟨hfilled, fun h => absurd h hirq, fun _ => rfl⟩,
        fun h => absurd hlatch h, ctrGet_ctrAdd_same ..⟩
  · rw [State.latch_full (by rw [hcls]; exact hlatch), State.enqueue_room (by exact hroom)] at hrun
    have hover : (updAt s.flt.overLost m.cls (fun _ => true)).getD 0 false = true := by
      rw [hcls]
      exact updAt_getD_same _ _ _ _ (by omega)
    exact ⟨_, _, congrArg Host.Outcome.next hrun, rfl, rfl, rfl, rfl, fun h => absurd h hlatch, fun _ => ⟨rfl, hover, rfl⟩,
      ctrGet_ctrAdd_same ..⟩

theorem collection_full {m : FaultMsg} {s : State} (hp : s.powered = true) (hone : s.flt.arriving = [m]) (hcls : m.cls = 0)
    (hfull : 4096 ≤ s.flt.queue.length) :
    ∃ f o, exec (.faultTake none) s = .next { s with flt := f, out := o } ∧ f.queue = s.flt.queue ∧
      f.dropped = s.flt.dropped + 1 := by
  have hrun := faultTake_c0 hp hone hcls
  obtain ⟨l, v, i, o, hlatch⟩ := ({ s with flt := { s.flt with arriving := [] } } : State).latch_eq m
  rw [hlatch, State.enqueue, if_neg (by exact hfull.not_gt)] at hrun
  exact ⟨_, _, congrArg Host.Outcome.next hrun, rfl, rfl⟩

theorem collection_c3 {f : Option FoundFault} {m : FaultMsg} {s : State} (hp : s.powered = true) (hcls : m.cls = 3)
    (hone : (s.afterFound f).flt.arriving = [m]) (hended : (s.afterFound f).flt.endedC3 = none)
    (hdev : (s.afterFound f).flt.dev = .serving) :
    ∃ t, exec (.faultTake f) s = .next t ∧ t.flt.dev = .stoppedC3 ∧ t.boot.ready = false := by
  refine ⟨_, congrArg Host.Outcome.next (faultTake_one hp hone (.inr hended)), ?_⟩
  rw [(State.collect_dev _ m).1, (State.collect_dev _ m).2]
  exact State.classAction_c3 hcls hdev

/-! ### The drain -/

/-- Re-arming clears the latch and the overflow bit of class 0 or 1 where the stored message sits. -/
theorem State.rearm_eq (s : State) (m : FaultMsg) (hl : s.flt.latches.length = 5) (ho : s.flt.overLost.length = 5) :
    ∃ latches overLost, s.rearm m = { s with flt := { s.flt with latches := latches, overLost := overLost } } ∧
      (m.cls ≤ 1 → s.flt.latches.getD m.cls none = some m →
        latches.getD m.cls none = none ∧ overLost.getD m.cls false = false) ∧
      ∀ k, 2 ≤ k → latches.getD k none = s.flt.latches.getD k none := by
  unfold State.rearm
  split
  · next h =>
    exact ⟨_, _, rfl, fun _ _ => ⟨updAt_getD_same _ _ _ _ (by omega), updAt_getD_same _ _ _ _ (by omega)⟩,
      fun k hk => updAt_getD_other _ _ _ _ _ (by omega)⟩
  · next h => exact ⟨_, _, rfl, fun hc hm => absurd ⟨hc, hm⟩ h, fun _ _ => rfl⟩

theorem drain_one {m : FaultMsg} {s : State} (hrun : (s.fw fwWarden).st = .running) (hqueue : s.flt.queue = [(0, m)])
    (hstore : s.flt.store.length < 1048576) (hl : s.flt.latches.length = 5) (ho : s.flt.overLost.length = 5) :
    ∃ f, exec .faultDrain s = .next { s with flt := f } ∧ f.queue = [] ∧ f.store = s.flt.store ++ [(s.flt.nextSeq, m)] ∧
      f.nextSeq = (s.flt.nextSeq + 1) % 2 ^ 32 ∧
      (m.cls ≤ 1 → s.flt.latches.getD m.cls none = some m →
        f.latches.getD m.cls none = none ∧ f.overLost.getD m.cls false = false) ∧
      (∀ k, 2 ≤ k → f.latches.getD k none = s.flt.latches.getD k none) := by
  have hstored : s.store m = { s with flt := { s.flt with
      store := s.flt.store ++ [(s.flt.nextSeq, m)], nextSeq := (s.flt.nextSeq + 1) % 2 ^ 32 } } := by
    rw [State.store, if_pos hstore]
  obtain ⟨latches, overLost, hrearm, hclear, hkeep⟩ := (s.store m).rearm_eq m (by rw [hstored]; exact hl) (by rw [hstored]; exact ho)
  have hdrain : s.flt.queue.foldl State.drainOne s = (s.store m).rearm m := by
    rw [hqueue]
    rfl
  have hall : faultDrain s = { (s.store m).rearm m with flt := { ((s.store m).rearm m).flt with queue := [] } } := by
    rw [faultDrain, if_pos hrun, hdrain]
  rw [hrearm, hstored] at hall
  rw [hstored] at hclear hkeep
  exact ⟨_, congrArg Host.Outcome.next hall, rfl, rfl, rfl, hclear, hkeep⟩

/-- Settles O7. -/
theorem faultCollection : Obligations.FaultCollection := by
  unfold Obligations.FaultCollection
  refine ⟨fun m s hp hone hcls hlatches hover hroom => collection_room hp hone hcls hlatches hover hroom,
    fun m s hp hone hcls _ hfull => collection_full hp hone hcls hfull,
    fun m s hp hone hcls hdev hended => collection_c3 (f := none) hp hcls hone hended hdev,
    fun k s hp hone hdev hended hk => ?found, fun s hrun hqueue => ?idle,
    fun m s hrun hqueue hstore hl ho => drain_one hrun hqueue hstore hl ho,
    fun s hrun => congrArg Host.Outcome.next (if_neg hrun)⟩
  case found =>
    refine collection_c3 (f := some (.hbmStackFail k)) hp (m := ⟨s.now % 2 ^ 48, 0x730 + k % 2, 0x71, 3, 0, 3, k % 2⟩) rfl ?_ hended hdev
    exact (congrArg (· ++ _) hone)
  case idle =>
    refine congrArg Host.Outcome.next ((if_pos hrun).trans ?_)
    rw [hqueue, List.foldl_nil, ← hqueue]

/-! ### Counting windows -/

theorem correctedError_opens {src : Nat} {s : State} (a : Nat) (hp : s.powered = true) (hnone : s.openWindow src = none) :
    correctedError src (some a) s = (s.raise src 0x01 0 0 1 (addrDetail a)).countIn ⟨src, s.now, 1, s.flt.events, s.flt.windowMs⟩ := by
  unfold correctedError
  rw [if_neg (by simp [hp]), hnone]

theorem correctedError_counts {src : Nat} {x : CountWin} {s : State} (a : Option Nat) (hp : s.powered = true)
    (hopen : s.openWindow src = some x) : correctedError src a s = s.countIn { x with count := x.count + 1 } := by
  unfold correctedError
  rw [if_neg (by simp [hp]), hopen]

theorem State.countIn_lasting {s : State} {x : CountWin} (h : x.events ≤ x.count) : s.countIn x =
    { s with flt := { s.flt with
        windows := s.flt.windows.filter (fun y => y.source != x.source)
        lasting := s.flt.lasting ++ [(x.source, x.count, x.windowMs)] } } := if_pos h

theorem State.countIn_open {s : State} {x : CountWin} (h : x.count < x.events) : s.countIn x =
    { s with flt := { s.flt with windows := s.flt.windows.filter (fun y => y.source != x.source) ++ [x] } } := if_neg h.not_ge

/-! ### Lasting faults and cores -/

/-- Only one index of a range has a property that only it has. -/
theorem filter_range_single {m n : Nat} {p : Nat → Bool} (hn : n < m) (hp : p n = true) (hother : ∀ k < m, k ≠ n → p k = false) :
    (List.range m).filter p = [n] := by
  have hcongr : (List.range m).filter p = (List.range m).filter (· = n) := by
    refine List.filter_congr fun k hk => ?_
    by_cases h : k = n
    · simp [h, hp]
    · simp [h, hother k (List.mem_range.mp hk) h]
  rw [hcongr, List.filter_eq, List.count_eq_one_of_mem List.nodup_range (List.mem_range.mpr hn)]
  rfl

theorem firstBelow_eq_some {m n : Nat} {p : Nat → Bool} (hn : n < m) (hp : p n = true) (hother : ∀ k < n, p k = false) :
    firstBelow m p = some n := by
  refine List.find?_eq_some_iff_getElem.mpr ⟨hp, n, by simpa using hn, by simp, fun k hk => ?_⟩
  simp [hother k hk]

theorem firstBelow_eq_none {m : Nat} {p : Nat → Bool} (h : ∀ k < m, p k = false) : firstBelow m p = none :=
  List.find?_eq_none.mpr fun k hk => by simp [h k (List.mem_range.mp hk)]

/-- No launch, no string on a core. -/
theorem State.residents_nil {s : State} (h : ∀ x ∈ s.ctxs, x.lanes.launches = []) (n : Nat) : s.residents n = [] := by
  refine List.flatMap_eq_nil_iff.mpr fun x hx => ?_
  rw [h x hx]
  rfl

theorem State.ctx_launches_nil {s : State} (h : ∀ x ∈ s.ctxs, x.lanes.launches = []) (c : Nat) : (s.ctx c).lanes.launches = [] := by
  rw [State.ctx, List.getD_eq_getElem?_getD]
  cases hc : s.ctxs[c]? with
  | none => rfl
  | some x => exact h x (List.mem_of_getElem? hc)

theorem coreTimeout_idle {p n : Nat} {s : State} (hn : n < s.cores.cores.length) (hphys : (s.core n).phys = p) (hst : (s.core n).st = 1)
    (hfirst : ∀ k < n, (s.core k).phys = p → (s.core k).st ≠ 1) (hdue : (s.core n).since + 1000000 ≤ s.now)
    (hidle : ∀ x ∈ s.ctxs, x.lanes.launches = []) (honly : ∀ k < s.cores.cores.length, k ≠ n → (s.core k).st ≠ 1) :
    coreTimeout p s = s.finishCore n := by
  have hfound : firstBelow s.cores.cores.length (fun n => (s.core n).phys == p && (s.core n).st == 1) = some n :=
    firstBelow_eq_some hn (by simp [hphys, hst]) fun k hk => by
      by_cases hkp : (s.core k).phys = p
      · simp [hfirst k hk hkp]
      · simp [hkp]
  have hkills : (List.range 16).foldl (fun t c =>
      ((t.ctx c).lanes.launches.filter (fun l => l.strs.any (fun g => g.st == 1 && g.core == n))).foldl
        (fun u l => u.killLaunch c l.id 4) t) s = s := by
    refine List.foldlRecOn (motive := fun t => t = s) _ _ rfl fun t ht c _ => ?_
    rw [ht, State.ctx_launches_nil hidle]
    rfl
  have hany : s.cores.cores.any (fun k => k.st == 1) = true := by
    refine List.any_eq_true.mpr ⟨s.cores.cores[n], List.getElem_mem hn, ?_⟩
    rw [State.core, List.getD_eq_getElem _ _ hn] at hst
    simp [hst]
  have hone : (List.range s.cores.cores.length).filter (fun n => (s.core n).st == 1 && (s.residents n).isEmpty) = [n] :=
    filter_range_single hn (by simp [hst, State.residents_nil hidle]) fun k hk hne => by simp [honly k hk hne]
  rw [coreTimeout, hfound]
  dsimp only
  rw [if_neg (by omega), hkills, State.settleCores, if_pos hany, hone]
  rfl

theorem State.finishCore_absent {s : State} {n : Nat} (hn : n < s.cores.cores.length) (hspares : s.cores.spares = []) :
    ((s.finishCore n).core n).st = 3 ∧ (s.finishCore n).fuses.badCores = s.fuses.badCores ++ [(s.core n).phys] ∧
      (s.finishCore n).fuses.retired = s.fuses.retired + 1 ∧ (s.finishCore n).mem = s.mem ∧
      ∃ m ∈ (s.finishCore n).flt.arriving, m.kind = 0x04 := by
  unfold State.finishCore
  extract_lets p _ _ s1
  have hnone : minBy id s1.cores.spares = none := by
    rw [show s1.cores.spares = [] from hspares]
    rfl
  obtain ⟨m, hm, -, hkind, -⟩ := State.raise_arrives { s with
    fuses := { s.fuses with badCores := s.fuses.badCores ++ [p], retired := s.fuses.retired + 1 }
    cores := { s.cores with retired := s.cores.retired + 1 } } p 0x04 0 0 3 (packF [(0, 10, p), (10, 9, n)])
  rw [hnone]
  exact ⟨congrArg Core.st (updAt_getD_same _ _ _ _ hn), rfl, rfl, rfl, m, hm, hkind⟩

theorem lastingDeclare_stack {src e ms : Nat} {s : State} (hrun : (s.fw fwWarden).st = .running) (hsrc : src = 0x730 ∨ src = 0x731)
    (hlasting : s.flt.lasting = [(src, e, ms)]) :
    ∃ f b, exec (.lastingFaultDeclare src) s = .next { s with flt := f, boot := b } ∧ f.lasting = [] ∧
      (∃ m ∈ f.arriving, m.kind = 0x02 ∧ m.source = src) ∧ b.romPending = s.boot.romPending ++ [src - 0x730] ∧
      ctrGet f.ctr .lastingFaults = Ctr.plus .lastingFaults (ctrGet s.flt.ctr .lastingFaults) 1 := by
  have hrepair (t : State) : t.repair src = { t with boot := { t.boot with romPending := t.boot.romPending ++ [src - 0x730] } } := by
    rw [State.repair, if_neg (by omega), if_neg (by omega), if_pos hsrc]
  have hdeclare : lastingDeclare src s =
      ((({ s with flt := { s.flt with lasting := [] } }).raise
        src 0x02 0 0 3 (packF [(0, 16, e), (16, 32, ms)])).bumpFlt .lastingFaults 1).repair src := by
    unfold lastingDeclare
    extract_lets lane
    rw [if_neg (by simp [hrun, lane]; omega), hlasting, List.find?_cons_of_pos (by simp)]
    simp [eraseFirst]
  rw [hrepair] at hdeclare
  refine ⟨_, _, congrArg Host.Outcome.next hdeclare, rfl, ?_, rfl, ctrGet_ctrAdd_same ..⟩
  exact ⟨_, List.mem_append_right _ (List.mem_singleton_self _), rfl, rfl⟩

/-- Settles O8. -/
theorem correctedAndLastingFaults : Obligations.CorrectedAndLastingFaults := by
  unfold Obligations.CorrectedAndLastingFaults
  refine ⟨fun src a s hp hnone hev => ?opens, fun src x a s hp hopen => ?counts, fun src s => ⟨_, rfl, ?closes⟩,
    fun src e ms s hrun hsrc hlasting => lastingDeclare_stack hrun hsrc hlasting, fun p s h => ?waits,
    fun p n s hn hphys hst hfirst hdue hidle honly hspares => ?ends⟩
  case opens =>
    have hrun := correctedError_opens a hp hnone
    rw [State.countIn_open hev] at hrun
    refine ⟨_, congrArg Host.Outcome.next hrun, ?_, List.mem_append_right _ (List.mem_singleton_self _), rfl⟩
    obtain ⟨m, hm, hsource, hkind, hcls⟩ := s.raise_arrives src 0x01 0 0 1 (addrDetail a)
    exact ⟨m, hm, hkind, hsource, hcls⟩
  case counts =>
    have hrun := correctedError_counts a hp hopen
    by_cases hlimit : x.events ≤ x.count + 1
    · rw [State.countIn_lasting (by exact hlimit)] at hrun
      exact ⟨_, congrArg Host.Outcome.next hrun, rfl, fun _ => rfl, fun h => absurd hlimit h.not_ge⟩
    · rw [State.countIn_open (by exact not_le.mp hlimit)] at hrun
      exact ⟨_, congrArg Host.Outcome.next hrun, rfl, fun h => absurd h hlimit,
        fun _ => ⟨List.mem_append_right _ (List.mem_singleton_self _), rfl⟩⟩
  case closes =>
    refine ⟨fun x hx hsrc => ?_, fun x hx hsrc => ?_, rfl, rfl⟩
    · have hkept := (List.mem_filter.mp hx).2
      simpa [hsrc] using hkept
    · exact List.mem_filter.mpr ⟨hx, by simp [hsrc]⟩
  case waits =>
    have hnone : firstBelow s.cores.cores.length (fun n => (s.core n).phys == p && (s.core n).st == 1) = none :=
      firstBelow_eq_none fun k hk => by
        by_cases hkp : (s.core k).phys = p
        · simp [h k hk hkp]
        · simp [hkp]
    have hrun : coreTimeout p s = s := by rw [coreTimeout, hnone]
    exact congrArg Host.Outcome.next hrun
  case ends =>
    obtain ⟨habsent, hfuses, hretired, hmem, hraised⟩ := State.finishCore_absent hn hspares
    exact ⟨_, congrArg Host.Outcome.next (coreTimeout_idle hn hphys hst hfirst hdue hidle honly), habsent, hphys ▸ hfuses, hretired,
      hmem, hraised⟩

end Machine
end Sys2Proof
end

section
/-! PROOFS. Pace and power samples, the board's signal and the hourly ageing decision while no quarter is at E3 (18 R387, R389,
R392, R395; Table 18-7a). -/

namespace Sys2Proof
namespace Machine

/-! ### Lists -/

theorem forall₂_getD {α : Type} {R : α → α → Prop} {l l' : List α} {d : α} (h : List.Forall₂ R l l') (hd : R d d) (q : Nat) :
    R (l.getD q d) (l'.getD q d) := by
  induction h generalizing q with
  | nil => simpa using hd
  | cons hab _ ih =>
    cases q with
    | zero => simpa using hab
    | succ q => simpa using ih q

theorem forall₂_updAt {α : Type} {R : α → α → Prop} (l : List α) (i : Nat) {f : α → α} (d : α) (hr : ∀ x, R x x)
    (hf : R (l.getD i d) (f (l.getD i d))) : List.Forall₂ R l (updAt l i f) := by
  induction l generalizing i with
  | nil => exact .nil
  | cons x r ih =>
    cases i with
    | zero => exact .cons (by simpa using hf) (List.forall₂_same.mpr fun y _ => hr y)
    | succ i => exact .cons (hr x) (ih i (by simpa using hf))

theorem range_map_getD {α β : Type} (l : List α) (d : α) (f : α → β) :
    (List.range l.length).map (fun q => f (l.getD q d)) = l.map f := by
  refine List.ext_getElem (by simp) fun i h _ => ?_
  have hi : i < l.length := by simpa using h
  simp [hi]

/-- In a fold over indices, what one step changes at its own index only is at index `k` what step `k` made it. -/
theorem foldl_range_at {α : Type} {f : State → Nat → State} {o : Nat → State → α} (h : ∀ t q k, k ≠ q → o k (f t q) = o k t)
    (s : State) {k n : Nat} (hk : k < n) : o k ((List.range k).foldl f s) = o k s ∧
      o k ((List.range n).foldl f s) = o k (f ((List.range k).foldl f s) k) := by
  have hbefore (m : Nat) (hm : m ≤ k) : o k ((List.range m).foldl f s) = o k s := by
    induction m with
    | zero => rfl
    | succ m ih =>
      rw [List.range_succ, List.foldl_append, List.foldl_cons, List.foldl_nil, h _ _ _ (by omega), ih (by omega)]
  refine ⟨hbefore k le_rfl, ?_⟩
  induction n with
  | zero => omega
  | succ n ih =>
    rw [List.range_succ, List.foldl_append, List.foldl_cons, List.foldl_nil]
    rcases Nat.lt_succ_iff_lt_or_eq.mp hk with hlt | rfl
    · rw [h _ _ _ (by omega), ih hlt]
    · rfl

/-! ### Quarters below E3 -/

/-- A quarter below E3 without the trigger that sets it. -/
def Quarter.Below (x : Quarter) : Prop := x.level < 3 ∧ ∀ t ∈ x.triggers, t.code ≠ 3

theorem cool_iff (s : State) : Cool s ↔ ∀ x ∈ s.hlt.quarters, x.Below := Iff.rfl

theorem evalTrigger_codes {now code hold : Nat} {begins endOk : Bool} {l : List Trigger} {t : Trigger}
    (h : t ∈ evalTrigger now code begins endOk hold l) : (begins = true ∧ t.code = code) ∨ ∃ x ∈ l, x.code = t.code := by
  have hmap (o : Option Nat) (h : t ∈ l.map (fun x => if x.code = code then { x with okFrom := o } else x)) :
      ∃ x ∈ l, x.code = t.code := by
    obtain ⟨x, hx, rfl⟩ := List.mem_map.mp h
    exact ⟨x, hx, by split <;> rfl⟩
  unfold evalTrigger at h
  split at h
  · split at h
    · next hb =>
      rcases List.mem_append.mp h with h | h
      · exact .inr ⟨t, h, rfl⟩
      · rw [List.mem_singleton.mp h]
        exact .inl ⟨hb, rfl⟩
    · exact .inr ⟨t, h, rfl⟩
  · split at h
    · exact .inr (hmap none h)
    · dsimp only at h
      split at h
      · exact .inr ⟨t, List.mem_of_mem_filter h, rfl⟩
      · exact .inr (hmap _ h)

/-- An evaluation brings no trigger of code 3 but where that one begins. -/
theorem evalTrigger_below {now code hold : Nat} {begins endOk : Bool} {l : List Trigger} (hl : ∀ t ∈ l, t.code ≠ 3)
    (hcode : begins = true → code ≠ 3) : ∀ t ∈ evalTrigger now code begins endOk hold l, t.code ≠ 3 := by
  intro t ht
  rcases evalTrigger_codes ht with ⟨hb, hc⟩ | ⟨x, hx, hc⟩
  · exact hc ▸ hcode hb
  · exact hc ▸ hl x hx

/-- A trigger that begins and cannot end is in force. -/
theorem evalTrigger_begins {now code hold : Nat} (l : List Trigger) : ∃ t ∈ evalTrigger now code true false hold l, t.code = code := by
  unfold evalTrigger
  split
  · exact ⟨⟨code, none⟩, by simp, rfl⟩
  · next t ht =>
    have hcode : t.code = code := by simpa using List.find?_some ht
    refine ⟨{ t with okFrom := none }, ?_, hcode⟩
    exact List.mem_map.mpr ⟨t, List.mem_of_find?_eq_some ht, by simp [hcode]⟩

theorem maxN_lt {l : List Nat} {n : Nat} (hn : 0 < n) (h : ∀ x ∈ l, x < n) : maxN l < n := by
  refine List.foldlRecOn (motive := fun a => a < n) l Nat.max hn fun a ha x hx => ?_
  exact max_lt ha (h x hx)

theorem levelOf_below {l : List Trigger} (h : ∀ t ∈ l, t.code ≠ 3) : (levelOf l).1 < 3 := by
  refine maxN_lt (by decide) fun x hx => ?_
  obtain ⟨t, ht, rfl⟩ := List.mem_map.mp hx
  unfold triggerLevel
  rw [if_neg (h t ht)]
  split
  · decide
  · split <;> decide

/-! ### What health keeps -/

/-- A state that health has gone on to: everything that the other blocks read is as before, and so are the quarters, up to `R`. -/
structure KeepsBut (R : Quarter → Quarter → Prop) (s t : State) : Prop where
  board    : t.board = s.board
  mem      : t.mem = s.mem
  ctxs     : t.ctxs = s.ctxs
  host     : t.host = s.host
  now      : t.now = s.now
  samples  : t.hlt.samples = s.hlt.samples
  peak     : t.hlt.peak = s.hlt.peak
  quarters : List.Forall₂ R s.hlt.quarters t.hlt.quarters

/-- Only the level changes, and not to E3. -/
def Leveled (x y : Quarter) : Prop := y = { x with level := y.level } ∧ (x.Below → y.Below)

/-- The readings stay, and E3 stays away. -/
def SameReadings (x y : Quarter) : Prop := y.vmeas = x.vmeas ∧ y.tj = x.tj ∧ y.pace = x.pace ∧ (x.Below → y.Below)

/-- E3 stays away. -/
def StaysBelow (x y : Quarter) : Prop := x.Below → y.Below

theorem StaysBelow.refl (x : Quarter) : StaysBelow x x := id
theorem StaysBelow.trans {x y z : Quarter} (h : StaysBelow x y) (h' : StaysBelow y z) : StaysBelow x z := h' ∘ h

theorem Leveled.sameReadings {x y : Quarter} (h : Leveled x y) : SameReadings x y := by
  obtain ⟨heq, hbelow⟩ := h
  exact ⟨by rw [heq], by rw [heq], by rw [heq], hbelow⟩

theorem Leveled.refl (x : Quarter) : Leveled x x := ⟨rfl, id⟩
theorem Leveled.trans {x y z : Quarter} (h : Leveled x y) (h' : Leveled y z) : Leveled x z :=
  ⟨by rw [h'.1, h.1], h'.2 ∘ h.2⟩

theorem SameReadings.refl (x : Quarter) : SameReadings x x := ⟨rfl, rfl, rfl, id⟩
theorem SameReadings.trans {x y z : Quarter} (h : SameReadings x y) (h' : SameReadings y z) : SameReadings x z := by
  obtain ⟨hv, ht, hp, hb⟩ := h
  obtain ⟨hv', ht', hp', hb'⟩ := h'
  exact ⟨hv'.trans hv, ht'.trans ht, hp'.trans hp, hb' ∘ hb⟩

theorem forall₂_trans {α : Type} {R : α → α → Prop} (hR : ∀ {x y z}, R x y → R y z → R x z) {l m n : List α}
    (h : List.Forall₂ R l m) (h' : List.Forall₂ R m n) : List.Forall₂ R l n := by
  induction h generalizing n with
  | nil => exact h'
  | cons hab _ ih =>
    cases h' with
    | cons hbc hr => exact .cons (hR hab hbc) (ih hr)

section
variable {R : Quarter → Quarter → Prop} {s t u : State}

theorem KeepsBut.trans (hR : ∀ {x y z}, R x y → R y z → R x z) (h : KeepsBut R s t) (h' : KeepsBut R t u) : KeepsBut R s u :=
  ⟨h'.board.trans h.board, h'.mem.trans h.mem, h'.ctxs.trans h.ctxs, h'.host.trans h.host, h'.now.trans h.now,
    h'.samples.trans h.samples, h'.peak.trans h.peak, forall₂_trans (R := R) hR h.quarters h'.quarters⟩

theorem KeepsBut.refl (hR : ∀ x, R x x) (s : State) : KeepsBut R s s :=
  ⟨rfl, rfl, rfl, rfl, rfl, rfl, rfl, List.forall₂_same.mpr fun x _ => hR x⟩

theorem KeepsBut.mono {R' : Quarter → Quarter → Prop} (hR : ∀ {x y}, R x y → R' x y) (h : KeepsBut R s t) : KeepsBut R' s t :=
  ⟨h.board, h.mem, h.ctxs, h.host, h.now, h.samples, h.peak, h.quarters.imp fun _ _ => hR⟩

theorem KeepsBut.foldl (hr : ∀ x, R x x) (hR : ∀ {x y z}, R x y → R y z → R x z) {α : Type} {f : State → α → State}
    (hf : ∀ t a, KeepsBut R t (f t a)) (l : List α) (s : State) : KeepsBut R s (l.foldl f s) :=
  List.foldlRecOn (motive := KeepsBut R s) l f (KeepsBut.refl hr s) fun t ht a _ => ht.trans hR (hf t a)

theorem KeepsBut.quarter (hr : ∀ x, R x x) (h : KeepsBut R s t) (q : Nat) : R (s.quarter q) (t.quarter q) :=
  forall₂_getD h.quarters (hr _) q

theorem KeepsBut.length (h : KeepsBut R s t) : t.hlt.quarters.length = s.hlt.quarters.length := h.quarters.length_eq.symm

theorem KeepsBut.cool (hb : ∀ {x y}, R x y → x.Below → y.Below) (h : KeepsBut R s t) (hs : Cool s) : Cool t := by
  intro y hy
  obtain ⟨i, hi, rfl⟩ := List.mem_iff_getElem.mp hy
  have hi' : i < s.hlt.quarters.length := h.quarters.length_eq ▸ hi
  exact hb (h.quarters.get hi' hi) (hs _ (List.getElem_mem hi'))

end

theorem Cool.level {s : State} (h : Cool s) (q : Nat) : (s.quarter q).level < 3 := by
  rw [State.quarter, List.getD_eq_getElem?_getD]
  cases hq : s.hlt.quarters[q]? with
  | none => exact Nat.zero_lt_succ 2
  | some x => exact (h x (List.mem_of_getElem? hq)).1

/-! ### Levels, shutdown and the emergency -/

theorem State.relevel_keeps (s : State) (q : Nat) : KeepsBut Leveled s (s.relevel q) := by
  have hlist : List.Forall₂ Leveled s.hlt.quarters
      (updAt s.hlt.quarters q (fun y => { y with level := (levelOf (s.quarter q).triggers).1 })) :=
    forall₂_updAt _ _ (Quarter.fresh 0) Leveled.refl ⟨rfl, fun h => ⟨levelOf_below h.2, h.2⟩⟩
  unfold State.relevel
  extract_lets +onlyGivenNames -lift x n
  split
  · exact KeepsBut.refl Leveled.refl s
  · extract_lets _ s1 s2
    have h1 : KeepsBut Leveled s s1 := ⟨rfl, rfl, rfl, rfl, rfl, rfl, rfl, hlist⟩
    have h2 : KeepsBut Leveled s s2 := by
      unfold s2
      split
      · exact ⟨h1.board, h1.mem, h1.ctxs, h1.host, h1.now, h1.samples, h1.peak, h1.quarters⟩
      · split
        · exact ⟨h1.board, h1.mem, h1.ctxs, h1.host, h1.now, h1.samples, h1.peak, h1.quarters⟩
        · exact h1
    exact ⟨h2.board, h2.mem, h2.ctxs, h2.host, h2.now, h2.samples, h2.peak, h2.quarters⟩

theorem State.shutdown_cool {s : State} (h : Cool s) : s.shutdown = s := by
  have hnone : (List.range 24).find? (fun q => decide (3 ≤ (s.quarter q).level)) = none :=
    List.find?_eq_none.mpr fun q _ => by simpa using h.level q
  unfold State.shutdown
  rw [hnone]
  exact ite_self s

theorem State.noteEmergency_keeps (s : State) (b : Bool) : KeepsBut Leveled s (s.noteEmergency b) := by
  have hsame (t : State) (h : t = s ∨ t = { s with upd := t.upd, ctr := t.ctr }) : KeepsBut Leveled s t := by
    rcases h with h | h
    · exact h ▸ KeepsBut.refl Leveled.refl s
    · rw [h]
      exact ⟨rfl, rfl, rfl, rfl, rfl, rfl, rfl, List.forall₂_same.mpr fun x _ => Leveled.refl x⟩
  unfold State.noteEmergency
  split
  · exact hsame _ (.inr rfl)
  · split
    · exact hsame _ (.inr rfl)
    · exact hsame _ (.inl rfl)

/-- Below E3, what follows the triggers changes levels only. -/
theorem State.settle_keeps {s : State} (b : State) (h : Cool s) : KeepsBut Leveled s (s.settle b) := by
  have hlevels : KeepsBut Leveled s ((List.range 24).foldl State.relevel s) :=
    KeepsBut.foldl Leveled.refl Leveled.trans State.relevel_keeps _ s
  rw [State.settle, State.shutdown_cool (hlevels.cool (fun h => h.2) h)]
  exact hlevels.trans Leveled.trans (State.noteEmergency_keeps _ _)

/-! ### The board's signal -/

theorem State.throttleTrigger_keeps (s : State) : KeepsBut SameReadings s s.throttleTrigger := by
  refine ⟨rfl, rfl, rfl, rfl, rfl, rfl, rfl, List.forall₂_map_right_iff.mpr (List.forall₂_same.mpr fun x _ => ?_)⟩
  exact ⟨rfl, rfl, rfl, fun h => ⟨h.1, evalTrigger_below h.2 fun _ => by decide⟩⟩

theorem SameReadings.below {x y : Quarter} (h : SameReadings x y) : x.Below → y.Below := h.2.2.2

theorem health_signal {high : Bool} {s : State} (hp : s.powered = true) (hcool : Cool s) :
    ∃ t, exec (.throttleNChange high) s = .next t ∧ t.board = { s.board with throttleN := high } ∧ t.mem = s.mem ∧
      t.ctxs = s.ctxs ∧ t.host = s.host ∧
      (high = false → ∀ q < s.hlt.quarters.length, ∃ x ∈ (t.quarter q).triggers, x.code = 9) := by
  refine ⟨_, congrArg Host.Outcome.next (if_neg (by simp [hp])), ?_⟩
  have hkept := State.throttleTrigger_keeps { s with board := { s.board with throttleN := high } }
  have hsettled := State.settle_keeps s (hkept.cool SameReadings.below hcool)
  refine ⟨hsettled.board.trans hkept.board, hsettled.mem.trans hkept.mem, hsettled.ctxs.trans hkept.ctxs, hsettled.host.trans hkept.host,
    fun hlow q hq => ?_⟩
  have hquarter := (hsettled.quarter Leveled.refl q).1
  rw [hquarter]
  dsimp only
  subst hlow
  rw [State.quarter, State.throttleTrigger]
  simp only [List.getD_eq_getElem?_getD, List.getElem?_map, List.getElem?_eq_getElem hq, Option.map_some, Option.getD_some]
  exact evalTrigger_begins _

/-! ### Power samples -/

theorem health_power {watts : Nat} {qs : List Nat} {s : State} (hp : s.powered = true) (hcool : Cool s) :
    ∃ t, exec (.powerSample watts qs) s = .next t ∧ t.hlt.samples = (watts :: s.hlt.samples).take 10000 ∧
      t.hlt.peak = Nat.max s.hlt.peak watts ∧ t.mem = s.mem ∧ t.ctxs = s.ctxs ∧ t.host = s.host := by
  refine ⟨powerSample watts qs s, rfl, ?_⟩
  unfold powerSample
  rw [if_neg (by simp [hp])]
  extract_lets _ s1 _ s2
  have hcool2 : Cool s2 := by
    intro y hy
    obtain ⟨x, hx, rfl⟩ := List.mem_map.mp hy
    obtain ⟨q, hq, rfl⟩ := List.mem_map.mp hx
    have hq : q < s.hlt.quarters.length := List.mem_range.mp hq
    have hbelow : (s.quarter q).Below := by
      rw [State.quarter, List.getD_eq_getElem _ _ hq]
      exact hcool _ (List.getElem_mem hq)
    refine ⟨hbelow.1, ?_⟩
    exact evalTrigger_below (evalTrigger_below (evalTrigger_below hbelow.2 fun _ => by decide) fun _ => by decide) fun _ => by decide
  have hkept := s2.throttleTrigger_keeps
  have hsettled := State.settle_keeps s (hkept.cool SameReadings.below hcool2)
  exact ⟨hsettled.samples.trans hkept.samples, hsettled.peak.trans hkept.peak, hsettled.mem.trans hkept.mem,
    hsettled.ctxs.trans hkept.ctxs, hsettled.host.trans hkept.host⟩

/-! ### Pace samples -/

/-- A change of quarters that keeps their readings. -/
theorem State.onQuarter_keeps (s : State) (q : Nat) {f : Quarter → Quarter} (h : ∀ x, SameReadings x (f x)) :
    KeepsBut SameReadings s (s.onQuarter q f) :=
  ⟨rfl, rfl, rfl, rfl, rfl, rfl, rfl, forall₂_updAt _ _ (Quarter.fresh 0) SameReadings.refl (h _)⟩

theorem State.moveTogether_keeps (s : State) (p : SkewPair) : KeepsBut SameReadings s (s.moveTogether p) := by
  have hmove (t : State) (q : Nat) (v : Int) : KeepsBut SameReadings t (t.onQuarter q (fun y => { y with move := v })) :=
    State.onQuarter_keeps t q fun x => ⟨rfl, rfl, rfl, id⟩
  unfold State.moveTogether
  dsimp only
  split
  · exact (hmove s _ _).trans SameReadings.trans (hmove _ _ _)
  · exact KeepsBut.refl SameReadings.refl s

theorem State.answerSkew_keeps (s : State) (i : Nat) : KeepsBut SameReadings s (s.answerSkew i) := by
  unfold State.answerSkew
  split
  · next p _ =>
    split
    · have h := State.moveTogether_keeps (s.raise (0x700 + p.a) 0x50 0 0 3 (p.a + 256 * p.b)) p
      exact ⟨h.board, h.mem, h.ctxs, h.host, h.now, h.samples, h.peak, h.quarters⟩
    · exact KeepsBut.refl SameReadings.refl s
  · exact KeepsBut.refl SameReadings.refl s

theorem State.evalPairs_keeps (s : State) : KeepsBut SameReadings s s.evalPairs := by
  unfold State.evalPairs
  extract_lets r pairs _ s1 s2 s3
  have h2 : KeepsBut SameReadings s s2 := ⟨rfl, rfl, rfl, rfl, rfl, rfl, rfl, List.forall₂_same.mpr fun x _ => SameReadings.refl x⟩
  have h3 : KeepsBut SameReadings s2 s3 := by
    unfold s3
    refine KeepsBut.foldl SameReadings.refl SameReadings.trans ?_ _ _
    intro t q
    refine State.onQuarter_keeps t q fun x => ⟨rfl, rfl, rfl, fun h => ⟨h.1, ?_⟩⟩
    intro y hy
    dsimp only at hy
    split at hy
    · split at hy
      · exact h.2 y hy
      · rcases List.mem_append.mp hy with hy | hy
        · exact h.2 y hy
        · rw [List.mem_singleton.mp hy]
          decide
    · exact h.2 y (List.mem_of_mem_filter hy)
  have h23 : KeepsBut SameReadings s s3 := h2.trans SameReadings.trans h3
  exact h23.trans SameReadings.trans (KeepsBut.foldl SameReadings.refl SameReadings.trans State.answerSkew_keeps _ _)

/-- Sensors that read 120 °C and below leave everything but their quarter, and no trigger of E3. -/
theorem State.senseQuarter_frame (s : State) (q : Nat) {r : PaceReading} (hr : r.tjA ≤ 120 ∧ r.tjB ≤ 120) :
    KeepsBut StaysBelow s (s.senseQuarter q r) := by
  have htj (b : Bool) : (if b then Nat.max r.tjA r.tjB else r.tjA) ≤ 120 := by
    split
    · exact max_le hr.1 hr.2
    · exact hr.1
  unfold State.senseQuarter
  extract_lets x diff was t8 tj t1 t2 t3 s1
  have hlist : List.Forall₂ StaysBelow s.hlt.quarters s1.hlt.quarters := by
    change List.Forall₂ _ s.hlt.quarters (updAt s.hlt.quarters q _)
    refine forall₂_updAt _ _ (Quarter.fresh 0) StaysBelow.refl fun h => ⟨h.1, ?_⟩
    refine evalTrigger_below (evalTrigger_below (evalTrigger_below (evalTrigger_below h.2 ?_) ?_) ?_) fun hb => ?_
    · exact fun _ => by decide
    · exact fun _ => by decide
    · exact fun _ => by decide
    · exact absurd (of_decide_eq_true hb) (htj _).not_gt
  have h1 : KeepsBut StaysBelow s s1 := ⟨rfl, rfl, rfl, rfl, rfl, rfl, rfl, hlist⟩
  split
  · exact ⟨h1.board, h1.mem, h1.ctxs, h1.host, h1.now, h1.samples, h1.peak, h1.quarters⟩
  · exact h1

theorem State.senseQuarter_other (s : State) {q k : Nat} (r : PaceReading) (h : k ≠ q) :
    (s.senseQuarter q r).quarter k = s.quarter k := by
  unfold State.senseQuarter
  dsimp only
  split <;> exact updAt_getD_other _ _ _ _ _ (Ne.symm h)

theorem State.senseQuarter_same (s : State) {q : Nat} (r : PaceReading) (hq : q < s.hlt.quarters.length) :
    ((s.senseQuarter q r).quarter q).vmeas = r.vmeas ∧ ((s.senseQuarter q r).quarter q).pace = r.pace ∧
      (r.tjA = r.tjB → (∀ x ∈ (s.quarter q).triggers, x.code ≠ 8) → ((s.senseQuarter q r).quarter q).tj = r.tjA) := by
  have hget (f : Quarter → Quarter) : (s.onQuarter q f).quarter q = f (s.quarter q) := updAt_getD_same _ _ _ _ hq
  unfold State.senseQuarter
  extract_lets x diff was t8 tj t1 t2 t3 s1
  have h1 : s1.quarter q = { s.quarter q with vmeas := r.vmeas, tj := tj, pace := r.pace, triggers := t3 } := hget _
  have h2 : (if diff && !was then s1.raise (0x700 + q) 0x52 0 0 3 (r.tjA % 256 + 256 * (r.tjB % 256)) else s1).quarter q = s1.quarter q := by
    split <;> rfl
  rw [h2, h1]
  refine ⟨rfl, rfl, fun heq hno => ?_⟩
  have hwas : was = false := List.any_eq_false.mpr fun y hy => by simpa using hno y hy
  have hdiff : diff = false := by simp [diff, heq]
  simp [tj, hwas, hdiff]

theorem health_pace {rs : List PaceReading} {q : Nat} {r : PaceReading} {s : State} (hp : s.powered = true)
    (hr : s.board.perstN = true) (hcool : Cool s) (hlen : s.hlt.quarters.length = 24)
    (hrs : ∀ x ∈ rs, x.tjA ≤ 120 ∧ x.tjB ≤ 120) (hq : q < 24) (hrq : rs[q]? = some r) :
    ∃ t, exec (.paceSample rs) s = .next t ∧ (t.quarter q).vmeas = r.vmeas ∧ (t.quarter q).pace = r.pace ∧
      (r.tjA = r.tjB → (∀ x ∈ (s.quarter q).triggers, x.code ≠ 8) → (t.quarter q).tj = r.tjA) ∧
      t.mem = s.mem ∧ t.ctxs = s.ctxs ∧ t.host = s.host ∧ t.hlt.lastPace = s.now := by
  refine ⟨paceSample rs s, rfl, ?_⟩
  unfold paceSample
  rw [if_neg (by simp [hp, hr])]
  extract_lets s1 s2 s3 
  have hframe (t : State) (k : Nat) :
      KeepsBut StaysBelow t (match rs[k]? with | some r => t.senseQuarter k r | none => t) := by
    split
    · next r hk => exact State.senseQuarter_frame t k (hrs r (List.mem_of_getElem? hk))
    · exact KeepsBut.refl StaysBelow.refl t
  have hfold (n : Nat) : KeepsBut StaysBelow s ((List.range n).foldl (fun t q =>
      match rs[q]? with | some r => t.senseQuarter q r | none => t) s) :=
    KeepsBut.foldl StaysBelow.refl StaysBelow.trans hframe _ s
  obtain ⟨hbefore, hafter⟩ := foldl_range_at (o := fun k t => t.quarter k) (f := fun t q =>
    match rs[q]? with | some r => t.senseQuarter q r | none => t) (fun t j k hne => by
      split
      · exact State.senseQuarter_other t _ hne
      · rfl) s hq
  simp only [hrq] at hafter
  have hsensed := State.senseQuarter_same _ r (show q < _ by rw [(hfold q).length, hlen]; exact hq)
  rw [← hafter, hbefore] at hsensed
  obtain ⟨hv, hpace, htj⟩ := hsensed
  have h1 : KeepsBut _ s s1 := hfold 24
  have hmid : KeepsBut SameReadings s1 (s1.evalPairs.throttleTrigger) :=
    s1.evalPairs_keeps.trans SameReadings.trans (State.throttleTrigger_keeps _)
  have hcool1 : Cool s1 := h1.cool (fun h => h) hcool
  have hsettled := State.settle_keeps s (hmid.cool SameReadings.below hcool1)
  have h2 : KeepsBut SameReadings s1 s2 := hmid.trans SameReadings.trans (hsettled.mono Leveled.sameReadings)
  have h3 : KeepsBut SameReadings s1 s3 := ⟨h2.board, h2.mem, h2.ctxs, h2.host, h2.now, h2.samples, h2.peak, h2.quarters⟩
  have hpaced : s3.hlt.lastPace = s.now := h2.now.trans h1.now
  have hloss : KeepsBut SameReadings s3 { s3 with hlt := { s3.hlt with quarters := s3.hlt.quarters.map Quarter.addLoss } } := by
    refine ⟨rfl, rfl, rfl, rfl, rfl, rfl, rfl, List.forall₂_map_right_iff.mpr (List.forall₂_same.mpr fun x _ => ?_)⟩
    unfold Quarter.addLoss
    dsimp only
    split
    · exact SameReadings.refl x
    · exact ⟨rfl, rfl, rfl, id⟩
  have hfinish (t : State) (h : KeepsBut SameReadings s1 t) (hlast : t.hlt.lastPace = s.now) :
      (t.quarter q).vmeas = r.vmeas ∧ (t.quarter q).pace = r.pace ∧
      (r.tjA = r.tjB → (∀ x ∈ (s.quarter q).triggers, x.code ≠ 8) → (t.quarter q).tj = r.tjA) ∧
      t.mem = s.mem ∧ t.ctxs = s.ctxs ∧ t.host = s.host ∧ t.hlt.lastPace = s.now := by
    obtain ⟨hv', htj', hpace', -⟩ := h.quarter SameReadings.refl q
    exact ⟨hv'.trans hv, hpace'.trans hpace, fun he hno => htj'.trans (htj he hno), h.mem.trans h1.mem, h.ctxs.trans h1.ctxs,
      h.host.trans h1.host, hlast⟩
  split
  · exact hfinish _ (h3.trans SameReadings.trans hloss) hpaced
  · exact hfinish _ h3 hpaced

/-! ### Ageing -/

theorem State.ageQuarter_frame (s : State) (q : Nat) : (s.ageQuarter q).mem = s.mem ∧ (s.ageQuarter q).ctxs = s.ctxs ∧
    (s.ageQuarter q).now = s.now ∧ (s.ageQuarter q).hlt.quarters.length = s.hlt.quarters.length ∧
      (s.ageQuarter q).fuses.ageing.length = s.fuses.ageing.length := by
  unfold State.ageQuarter
  extract_lets x used s0 _ s1 s2
  have h0 : s0.hlt.quarters.length = s.hlt.quarters.length := updAt_length ..
  split
  · have h1 : (updAt s.fuses.ageing q (· + 1)).length = s.fuses.ageing.length := updAt_length ..
    split <;> exact ⟨rfl, rfl, rfl, h0, h1⟩
  · exact ⟨rfl, rfl, rfl, h0, rfl⟩

theorem ageQuarters_frame (s : State) (n : Nat) : ((List.range n).foldl State.ageQuarter s).mem = s.mem ∧
    ((List.range n).foldl State.ageQuarter s).ctxs = s.ctxs ∧ ((List.range n).foldl State.ageQuarter s).now = s.now ∧
    ((List.range n).foldl State.ageQuarter s).hlt.quarters.length = s.hlt.quarters.length ∧
    ((List.range n).foldl State.ageQuarter s).fuses.ageing.length = s.fuses.ageing.length := by
  refine List.foldlRecOn (motive := fun t : State => t.mem = s.mem ∧ t.ctxs = s.ctxs ∧ t.now = s.now ∧
    t.hlt.quarters.length = s.hlt.quarters.length ∧ t.fuses.ageing.length = s.fuses.ageing.length) _ _ ⟨rfl, rfl, rfl, rfl, rfl⟩ ?_
  rintro t ⟨hmem, hctxs, hnow, hl, ha⟩ q -
  obtain ⟨hmem', hctxs', hnow', hl', ha'⟩ := t.ageQuarter_frame q
  exact ⟨hmem'.trans hmem, hctxs'.trans hctxs, hnow'.trans hnow, hl'.trans hl, ha'.trans ha⟩

theorem State.ageQuarter_other (s : State) {q k : Nat} (h : k ≠ q) :
    ((s.ageQuarter q).quarter k, (s.ageQuarter q).fuses.ageing.getD k 0) = (s.quarter k, s.fuses.ageing.getD k 0) := by
  have hquarter (f : Quarter → Quarter) : (updAt s.hlt.quarters q f).getD k (Quarter.fresh 0) = s.quarter k :=
    updAt_getD_other _ _ _ _ _ (Ne.symm h)
  have hage : (updAt s.fuses.ageing q (· + 1)).getD k 0 = s.fuses.ageing.getD k 0 := updAt_getD_other _ _ _ _ _ (Ne.symm h)
  unfold State.ageQuarter
  extract_lets x used s0 _ s1 s2
  split
  · split <;> exact Prod.ext (hquarter _) hage
  · exact Prod.ext (hquarter _) rfl

theorem State.ageQuarter_same (s : State) {q : Nat} (hq : q < s.hlt.quarters.length) (hage : q < s.fuses.ageing.length) :
    ((s.ageQuarter q).quarter q).lossCount = 0 ∧ (s.ageQuarter q).fuses.ageing.getD q 0 = s.fuses.ageing.getD q 0 +
      (if 0 < (s.quarter q).lossCount ∧ ((s.quarter q).lossDen * (s.quarter q).lossCount : Nat) ≤ (s.quarter q).lossNum * 100 ∧
        s.fuses.ageing.getD q 0 < 8 then 1 else 0) := by
  have hquarter (f : Quarter → Quarter) : (updAt s.hlt.quarters q f).getD q (Quarter.fresh 0) = f (s.quarter q) :=
    updAt_getD_same _ _ _ _ hq
  have hstep : (updAt s.fuses.ageing q (· + 1)).getD q 0 = s.fuses.ageing.getD q 0 + 1 := updAt_getD_same _ _ _ _ hage
  unfold State.ageQuarter
  extract_lets x used s0 _ s1 s2
  by_cases hraise : x.lossCount > 0 ∧ ((x.lossDen * x.lossCount : Nat) : Int) ≤ x.lossNum * 100 ∧ used < 8
  · rw [if_pos hraise, if_pos hraise]
    split <;> exact ⟨congrArg Quarter.lossCount (hquarter _), hstep⟩
  · rw [if_neg hraise, if_neg hraise]
    exact ⟨congrArg Quarter.lossCount (hquarter _), rfl⟩

theorem health_ageing {s : State} (hp : s.powered = true) (hdue : s.hlt.ageFrom + 3600000000000 ≤ s.now)
    (hrun : (s.fw fwWarden).st = .running) (hlevel : s.packageLevel = 0) (hlen : s.hlt.quarters.length = 24)
    (hage : s.fuses.ageing.length = 24) :
    ∃ t, exec .ageingHourly s = .next t ∧ t.hlt.ageFrom = s.now ∧ t.mem = s.mem ∧ t.ctxs = s.ctxs ∧
      ∀ q < 24, (t.quarter q).lossCount = 0 ∧
        t.fuses.ageing.getD q 0 = s.fuses.ageing.getD q 0 +
          (if 0 < (s.quarter q).lossCount ∧
              ((s.quarter q).lossDen * (s.quarter q).lossCount : Nat) ≤ (s.quarter q).lossNum * 100 ∧
              s.fuses.ageing.getD q 0 < 8 then 1 else 0) := by
  obtain ⟨t, ht⟩ : ∃ t, t = (List.range 24).foldl State.ageQuarter s := ⟨_, rfl⟩
  have haged : ageingHourly s = { t with hlt := { t.hlt with ageFrom := s.now } } := by
    rw [ageingHourly, if_pos ⟨hp, hdue, hrun, hlevel⟩, ← ht]
  obtain ⟨hmem, hctxs, -⟩ := ageQuarters_frame s 24
  rw [← ht] at hmem hctxs
  refine ⟨_, congrArg Host.Outcome.next haged, rfl, hmem, hctxs, fun q hq => ?_⟩
  obtain ⟨hbefore, hafter⟩ := foldl_range_at (f := State.ageQuarter) (o := fun k t => (t.quarter k, t.fuses.ageing.getD k 0))
    (fun t j k hne => t.ageQuarter_other hne) s hq
  obtain ⟨-, -, -, hl, ha⟩ := ageQuarters_frame s q
  obtain ⟨hcount, hsteps⟩ := State.ageQuarter_same ((List.range q).foldl State.ageQuarter s) (q := q) (by omega) (by omega)
  rw [← ht] at hafter
  obtain ⟨hbq, hba⟩ := Prod.mk.inj hbefore
  obtain ⟨haq, haa⟩ := Prod.mk.inj hafter
  rw [← haa, hbq, hba] at hsteps
  rw [← haq] at hcount
  exact ⟨hcount, hsteps⟩

/-- Settles O9. -/
theorem healthAndPower : Obligations.HealthAndPower := by
  unfold Obligations.HealthAndPower
  exact ⟨fun rs q r s hp hr hcool hlen hrs hq hrq => health_pace hp hr hcool hlen hrs hq hrq,
    fun watts qs s hp hcool => health_power hp hcool, fun high s hp hcool => health_signal hp hcool,
    fun s hp hdue hrun hlevel hlen hage => health_ageing hp hdue hrun hlevel hlen hage⟩

end Machine
end Sys2Proof
end

section
/-! PROOFS. Restarts of the firmware processors (16 R351, R352, R354) and the activation of a staged bundle (R358 to R364). -/

namespace Sys2Proof
namespace Machine

/-! ### Processors -/

theorem State.fw_onFw_same (s : State) {n : Nat} (f : Fwp → Fwp) (h : n < s.fws.length) : (s.onFw n f).fw n = f (s.fw n) := by
  rw [State.fw_onFw s n n f h, if_pos rfl]

theorem State.fw_onFw_other (s : State) {n k : Nat} (f : Fwp → Fwp) (h : k ≠ n) : (s.onFw n f).fw k = s.fw k :=
  updAt_getD_other _ _ _ _ _ (Ne.symm h)

theorem State.onFw_length (s : State) (n : Nat) (f : Fwp → Fwp) : (s.onFw n f).fws.length = s.fws.length := updAt_length ..

/-- A lost processor loses what only Caravan holds, in the contexts. -/
theorem State.fwLost_eq (s : State) (n : Nat) : ∃ ctxs, s.fwLost n = { s with ctxs := ctxs } := by
  unfold State.fwLost
  split
  · exact ⟨_, rfl⟩
  · exact ⟨s.ctxs, rfl⟩

/-! ### Restarts -/

/-- Restarts of a processor that count within the last 60 s (R354). -/
def State.recentRestarts (s : State) (n : Nat) : List Nat := (s.fw n).counted.filter (fun t => decide (s.now < t + 60000000000))

/-- Processor `n` has begun a restart with a cause; no message was waiting for it. -/
structure RestartOf (n cause : Nat) (s t : State) : Prop where
  state    : (t.fw n).st = .restarting
  cause    : (t.fw n).cause = cause
  restarts : (t.fw n).restarts = ((s.fw n).restarts + 1) % 2 ^ 32
  logged   : ∃ m ∈ t.flt.arriving, m.kind = 0x40 ∧ m.source = 0x740 + n
  others   : ∀ k, k ≠ n → t.fw k = s.fw k
  mem      : t.mem = s.mem
  host     : t.host = s.host
  seqs     : t.seqs = s.seqs
  out      : t.out = s.out
  number   : t.fws.length = s.fws.length
  act      : t.upd.st = s.upd.st

/-- A restart up to the check of R354, where no message waits. -/
def State.restarting (s : State) (n cause : Nat) : State :=
  let s2 := State.fwLost n s
  let s3 := s2.onFw n (fun f => { f with
    st := .restarting, cause := cause, restarts := (f.restarts + 1) % 2 ^ 32
    counted := if decide (1 ≤ cause ∧ cause ≤ 3) then s.now :: f.counted.filter (fun t => decide (s.now < t + 60000000000))
      else f.counted })
  let s4 := if cause = 1 then s3.bumpFw n .watchdogExpiries 1 else s3
  let s5 := s4.raise (0x740 + n) 0x40 0 0 3 (n + 8 * cause)
  { s5 with upd := { s5.upd with
    writing := if n = fwSteward then none else s5.upd.writing
    provingFrom := if s5.upd.activated.contains n then s.now else s5.upd.provingFrom } }

/-- The processor of `State.restarting`. -/
theorem State.restarting_fw (s : State) {n : Nat} (cause : Nat) (hn : n < s.fws.length) : ∃ ctr,
    (s.restarting n cause).fw n = { s.fw n with
      st := .restarting, cause := cause, restarts := ((s.fw n).restarts + 1) % 2 ^ 32, ctr := ctr
      counted := if decide (1 ≤ cause ∧ cause ≤ 3) then s.now :: s.recentRestarts n else (s.fw n).counted } := by
  obtain ⟨ctxs, hlost⟩ := s.fwLost_eq n
  unfold State.restarting
  rw [hlost]
  have hset (f : Fwp → Fwp) : (updAt s.fws n f).getD n Fwp.fresh = f (s.fw n) := updAt_getD_same _ _ _ _ hn
  have hset2 (f g : Fwp → Fwp) : (updAt (updAt s.fws n f) n g).getD n Fwp.fresh = g (f (s.fw n)) := by
    rw [updAt_getD_same _ _ _ _ (by rwa [updAt_length]), hset]
  dsimp only
  split
  · exact ⟨_, hset2 _ _⟩
  · exact ⟨_, hset _⟩

theorem State.restarting_of (s : State) {n : Nat} (cause : Nat) (hn : n < s.fws.length) :
    RestartOf n cause s (s.restarting n cause) := by
  obtain ⟨ctr, hfw⟩ := s.restarting_fw cause hn
  obtain ⟨ctxs, hlost⟩ := s.fwLost_eq n
  have hother (k : Nat) (hk : k ≠ n) (f g : Fwp → Fwp) : (updAt s.fws n f).getD k Fwp.fresh = s.fw k ∧
      (updAt (updAt s.fws n f) n g).getD k Fwp.fresh = s.fw k := by
    have h : (updAt s.fws n f).getD k Fwp.fresh = s.fw k := updAt_getD_other _ _ _ _ _ (Ne.symm hk)
    exact ⟨h, by rw [updAt_getD_other _ _ _ _ _ (Ne.symm hk), h]⟩
  refine ⟨by rw [hfw], by rw [hfw], by rw [hfw], ?_, ?_, ?_, ?_, ?_, ?_, ?_, ?_⟩
  all_goals
    unfold State.restarting
    rw [hlost]
    dsimp only
  · exact ⟨_, List.mem_append_right _ (List.mem_singleton_self _), rfl, rfl⟩
  · intro k hk
    split
    · exact (hother k hk _ _).2
    · exact (hother k hk _ id).1
  · split <;> rfl
  · split <;> rfl
  · split <;> rfl
  · split <;> rfl
  · split
    · exact (updAt_length ..).trans (updAt_length ..)
    · exact updAt_length ..
  · split <;> rfl

/-- The messages that a restart ends, and then the restart; the third counted one within 60 s fails the processor (R354). -/
theorem State.restart_eq {s s1 : State} {n cause : Nat} {keep : Option Msg}
    (h1 : completeAll (s.abortable n keep) n .fwRestarted s = s1) (hnow : s1.now = s.now) : s.restart n cause keep =
      let s6 := s1.restarting n cause
      if decide (1 ≤ cause ∧ cause ≤ 3) && decide (3 ≤ (s6.fw n).counted.length) then
        let s7 := (s6.onFw n (fun f => { f with st := .failed })).raise (0x740 + n) 0x41 3 0 3 n
        if n = fwSteward then completeAll (s7.host.msgs.filter (fun m => m.phase == .unrouted)) 7 .unavailable s7 else s7
      else s6 := by
  unfold State.restart State.restarting
  rw [h1, hnow]

theorem State.restart_stays {s : State} {n cause : Nat} {keep : Option Msg} (hn : n < s.fws.length)
    (hquiet : s.abortable n keep = []) (h : cause ≤ 3 → (s.recentRestarts n).length < 2) :
    s.restart n cause keep = s.restarting n cause := by
  obtain ⟨ctr, hfw⟩ := s.restarting_fw cause hn
  rw [State.restart_eq (s1 := s) (by rw [hquiet]; rfl) rfl]
  dsimp only
  rw [if_neg]
  simp only [Bool.and_eq_true, decide_eq_true_eq, not_and, not_le]
  intro hc
  have hlt := h hc.2
  rw [hfw]
  simp [hc]
  omega

/-- The processor that a third restart fails. -/
theorem State.restart_fails {s : State} {n cause : Nat} {keep : Option Msg} (hn : n < s.fws.length) (hne : n ≠ fwSteward)
    (hquiet : s.abortable n keep = []) (hc : 1 ≤ cause ∧ cause ≤ 3) (h : 2 ≤ (s.recentRestarts n).length) :
    s.restart n cause keep =
      ((s.restarting n cause).onFw n (fun f => { f with st := .failed })).raise (0x740 + n) 0x41 3 0 3 n := by
  obtain ⟨ctr, hfw⟩ := s.restarting_fw cause hn
  rw [State.restart_eq (s1 := s) (by rw [hquiet]; rfl) rfl]
  dsimp only
  rw [if_pos, if_neg hne]
  rw [hfw]
  simp [hc]
  omega

/-- What a restart of another processor than Steward leaves to the host: the messages it ended. -/
theorem State.restart_host {s s1 : State} {n cause : Nat} {keep : Option Msg} (hn : n < s1.fws.length) (hne : n ≠ fwSteward)
    (h1 : completeAll (s.abortable n keep) n .fwRestarted s = s1) (hnow : s1.now = s.now) :
    (s.restart n cause keep).host = s1.host ∧ (s.restart n cause keep).mem = s1.mem := by
  have hof := s1.restarting_of cause hn
  rw [State.restart_eq h1 hnow]
  simp only [if_neg hne]
  split <;> exact ⟨hof.host, hof.mem⟩

theorem restarts_watchdog {n : Nat} {s : State} (hn : n < 6) (hlen : s.fws.length = 6) (hrun : (s.fw n).st = .running)
    (hdue : (s.fw n).lastService + (s.fw n).watchdogMs * 1000000 ≤ s.now) (hquiet : s.abortable n none = [])
    (hrecent : (s.recentRestarts n).length < 2) : ∃ t, exec (.watchdogExpiry n) s = .next t ∧ RestartOf n 1 s t := by
  have hwatch : watchdogExpiry n s = s.restart n 1 none := if_pos ⟨hn, hrun, hdue⟩
  rw [State.restart_stays (by omega) hquiet fun _ => hrecent] at hwatch
  exact ⟨_, congrArg Host.Outcome.next hwatch, s.restarting_of 1 (by omega)⟩

theorem fwpException_running {n : Nat} (e : Bool) {s : State} (hn : n < 6) (hrun : (s.fw n).st = .running) :
    fwpException n e s = s.restart n (if e then 3 else 2) none := if_pos ⟨hn, hrun⟩

theorem restarts_exception {n : Nat} {e : Bool} {s : State} (hn : n < 6) (hlen : s.fws.length = 6) (hrun : (s.fw n).st = .running)
    (hquiet : s.abortable n none = []) (hrecent : (s.recentRestarts n).length < 2) :
    ∃ t, exec (.fwpException n e) s = .next t ∧ RestartOf n (if e then 3 else 2) s t := by
  have hexc := fwpException_running e hn hrun
  rw [State.restart_stays (by omega) hquiet fun _ => hrecent] at hexc
  exact ⟨_, congrArg Host.Outcome.next hexc, s.restarting_of _ (by omega)⟩

theorem restarts_third {n : Nat} {e : Bool} {s : State} (hn : n < 6) (hne : n ≠ fwSteward) (hlen : s.fws.length = 6)
    (hrun : (s.fw n).st = .running) (hquiet : s.abortable n none = []) (hrecent : 2 ≤ (s.recentRestarts n).length) :
    ∃ t : State, exec (.fwpException n e) s = .next t ∧ (t.fw n).st = .failed ∧
      ∃ m ∈ t.flt.arriving, m.kind = 0x41 ∧ m.cls = 3 ∧ m.source = 0x740 + n := by
  have hexc := fwpException_running e hn hrun
  rw [State.restart_fails (by omega) hne hquiet (by cases e <;> decide) hrecent] at hexc
  have hof := s.restarting_of (if e then 3 else 2) (n := n) (by omega)
  refine ⟨_, congrArg Host.Outcome.next hexc, ?_, ?_⟩
  · exact congrArg Fwp.st (State.fw_onFw_same (s.restarting n (if e then 3 else 2)) (n := n) _ (by rw [hof.number]; omega))
  · exact ⟨_, List.mem_append_right _ (List.mem_singleton_self _), rfl, rfl, rfl⟩

/-- Completing a message leaves the Timebase and the number of processors. -/
theorem State.complete_now (s : State) (m : Msg) (p : Nat) (st : Status) (body : List Byte) : (s.complete m p st body).now = s.now := by
  obtain ⟨h, o, f, -, -, -, -, -, -, -, -, -, hcomplete⟩ := s.complete_eq m p st body
  rw [hcomplete]
  rfl

theorem State.complete_fws_length (s : State) (m : Msg) (p : Nat) (st : Status) (body : List Byte) :
    (s.complete m p st body).fws.length = s.fws.length := 
  congrArg (·.2.2.2) (State.complete_form s m p st body)

theorem restarts_message {n : Nat} {e : Bool} {m : Msg} {s : State} (hn : n < 6) (hlen : s.fws.length = 6)
    (hrun : (s.fw n).st = .running) (hone : s.abortable n none = [m]) (hne : n ≠ fwSteward) :
    ∃ t : State, exec (.fwpException n e) s = .next t ∧ (t.win m.win).done = true ∧ (t.win m.win).owner = false ∧
      t.host.msgs = eraseFirst (fun x => decide (x = m)) s.host.msgs ∧ t.mem = s.mem := by
  have hended : completeAll (s.abortable n none) n .fwRestarted s = s.complete m n .fwRestarted [] := by
    rw [hone]
    rfl
  obtain ⟨hhost, hmem⟩ := State.restart_host (cause := if e then 3 else 2) (by rw [State.complete_fws_length, hlen]; exact hn) hne hended
    (State.complete_now ..)
  refine ⟨_, congrArg Host.Outcome.next (fwpException_running e hn hrun), ?_⟩
  obtain ⟨h, o, f, -, -, -, -, -, -, -, -, -, hcomplete⟩ := s.complete_eq m n .fwRestarted []
  rw [State.win, hhost, hmem, hcomplete]
  dsimp only
  rw [Tbl.getD_setD_same]
  exact ⟨rfl, rfl, rfl, rfl⟩

/-! ### The end of a restart -/

/-- A restart that was no activation loads no image. -/
theorem State.loadImage_kept {s : State} {n : Nat} (h : (s.fw n).cause ≠ 4) : s.loadImage n = s := by
  unfold State.loadImage
  split
  · exact if_neg fun hc => h hc.1
  · rfl

theorem State.stewardBack_idle {s : State} (hmsgs : s.host.msgs = []) (hspdm : s.host.spdmWait = []) : s.stewardBack = s := by
  unfold State.stewardBack
  rw [hmsgs]
  dsimp only [List.filter_nil, routeAll]
  rw [hspdm]
  dsimp only [spdmDrain]
  rw [← hspdm]

theorem State.wayfinderBack_eq (s : State) (hrun : (s.fw fwWayfinder).st = .running) : ∃ tb, s.wayfinderBack = { s with tb := tb } ∧
    (s.boot.fabricDone = false → tb = s.tb) ∧
    (s.boot.fabricDone = true → s.tb.master = s.board.pkgId → s.tb.st = .free → tb.st = .aligned) := by
  unfold State.wayfinderBack
  extract_lets dark
  split
  · next h =>
    obtain ⟨tb, halign, -⟩ := s.realign_eq
    refine ⟨tb, halign, fun hdone => by simp [hdone] at h, fun _ hmaster _ => ?_⟩
    have hself : s.realign.tb.st = .aligned := by
      unfold State.realign
      rw [if_neg (by simp [hrun]), if_pos hmaster]
    rwa [halign] at hself
  · next h => exact ⟨s.tb, rfl, fun _ => rfl, fun hdone _ hfree => absurd (by simp [hdone, hfree]) h⟩

theorem restartComplete_idle {n : Nat} {s : State} (hn : n < 6) (hlen : s.fws.length = 6) (hst : (s.fw n).st = .restarting)
    (hcause : (s.fw n).cause ≠ 4) (hcurrent : s.upd.current ≠ some n) (hact : s.upd.st ≠ .activating) (hmsgs : s.host.msgs = [])
    (hspdm : s.host.spdmWait = []) :
    ∃ b : Timebase, exec (.fwpRestartComplete n) s = .next { s.onFw n (fun f =>
        { f with st := .running, restartTick := s.now, lastService := s.now }) with tb := b } ∧
      (n ≠ fwWayfinder ∨ s.boot.fabricDone = false → b = s.tb) ∧
      (n = fwWayfinder → s.boot.fabricDone = true → s.tb.master = s.board.pkgId → s.tb.st = .free → b.st = .aligned) := by
  have hrun : restartComplete n s = _ := if_pos ⟨hn, hst⟩
  rw [State.loadImage_kept hcause] at hrun
  dsimp only at hrun
  obtain ⟨s2, hs2⟩ : ∃ t, t = s.onFw n (fun f => { f with st := .running, restartTick := s.now, lastService := s.now }) := ⟨_, rfl⟩
  rw [← hs2] at hrun
  have hback : ∃ tb, (if n = fwSteward then s2.stewardBack else if n = fwWayfinder then s2.wayfinderBack else s2) =
      { s2 with tb := tb } ∧ (n ≠ fwWayfinder ∨ s.boot.fabricDone = false → tb = s.tb) ∧
      (n = fwWayfinder → s.boot.fabricDone = true → s.tb.master = s.board.pkgId → s.tb.st = .free → tb.st = .aligned) := by
    subst hs2
    split
    · next h =>
      exact ⟨s.tb, State.stewardBack_idle (s := s.onFw n _) hmsgs hspdm, fun _ => rfl, fun hw => absurd (h.symm.trans hw) (by decide)⟩
    · split
      · next h =>
        have hrunning : ((s.onFw n (fun f => { f with st := .running, restartTick := s.now, lastService := s.now })).fw fwWayfinder).st =
            .running := by
          rw [← h]
          exact congrArg Fwp.st (State.fw_onFw_same s _ (by omega))
        obtain ⟨tb, hway, hkept, haligned⟩ := State.wayfinderBack_eq _ hrunning
        exact ⟨tb, hway, fun hor => hkept (hor.resolve_left fun hne => hne h), fun _ => haligned⟩
      · next h => exact ⟨s.tb, rfl, fun _ => rfl, fun hw => absurd hw h⟩
  obtain ⟨tb, hback, hkept, haligned⟩ := hback
  rw [hback] at hrun
  have hupd : ({ s2 with tb := tb } : State).upd = s.upd := by
    rw [hs2]
    rfl
  rw [if_neg (fun h => hcurrent (hupd ▸ h)), if_neg (fun h => hact (hupd ▸ h.1))] at hrun
  subst hs2
  exact ⟨tb, congrArg Host.Outcome.next hrun, hkept, haligned⟩

/-- Settles O10. -/
theorem firmwareRestarts : Obligations.FirmwareRestarts := by
  unfold Obligations.FirmwareRestarts
  refine ⟨fun n s hn hlen hrun hdue hquiet hrecent => ?watchdog, fun n e s hn hlen hrun hquiet hrecent => ?exception,
    fun n e s hn hne hlen hrun hquiet hrecent => restarts_third hn hne hlen hrun hquiet hrecent,
    fun n e m s hn hlen hrun hone hne _ => restarts_message hn hlen hrun hone hne,
    fun n s hn hlen hst hcause hcurrent hact hmsgs hspdm => restartComplete_idle hn hlen hst hcause hcurrent hact hmsgs hspdm⟩
  case watchdog =>
    obtain ⟨t, ht, hof⟩ := restarts_watchdog hn hlen hrun hdue hquiet hrecent
    exact ⟨t, ht, hof.state, hof.cause, hof.restarts, hof.logged, fun k _ hk => hof.others k hk, hof.mem, hof.host, hof.seqs, hof.out⟩
  case exception =>
    obtain ⟨t, ht, hof⟩ := restarts_exception (e := e) hn hlen hrun hquiet hrecent
    exact ⟨t, ht, hof.state, hof.cause, hof.restarts, hof.logged, fun k _ hk => hof.others k hk, hof.mem, hof.host, hof.seqs, hof.out⟩

/-! ### Activation -/

theorem activationResume_due {s : State} (hst : s.upd.st = .deferred) (hrun : (s.fw fwSteward).st = .running)
    (hcalm : s.emergency = false) (hlevel : s.packageLevel ≤ 1) (hdue : s.upd.clearFrom + 100000000 ≤ s.now) :
    activationResume s = s.advance none := if_pos ⟨hst, hrun, by simp [hcalm], hlevel, hdue⟩

/-- With no processor named any more, the bundle is PROVING. -/
theorem State.advance_done {s : State} (keep : Option Msg) (h : ∀ p < 6, (s.fw p).actPending = false) : s.advance keep =
    { s with upd := { s.upd with st := .proving, provingFrom := s.now, current := none } } := by
  have hnone : actOrder.find? (fun p => (s.fw p).actPending) = none := by
    refine List.find?_eq_none.mpr fun p hp => ?_
    have hp : p < 6 := by
      revert p
      decide
    simp [h p hp]
  rw [State.advance, hnone]

/-- One processor restarts for an activation, and is the one in progress. -/
def State.activate (s : State) (p : Nat) (keep : Option Msg) : State :=
  let t := (s.setAct .activating).restart p 4 keep
  { t with upd := { t.upd with current := some p } }

theorem State.activate_of {s : State} {p : Nat} (hp : p < s.fws.length) (hquiet : s.abortable p none = []) :
    (s.activate p none).upd.st = .activating ∧ (s.activate p none).upd.current = some p ∧
      ((s.activate p none).fw p).st = .restarting ∧ ((s.activate p none).fw p).cause = 4 ∧
      ∀ k < 6, k ≠ p → (s.activate p none).fw k = s.fw k := by
  have hstays : (s.setAct .activating).restart p 4 none = (s.setAct .activating).restarting p 4 :=
    State.restart_stays hp hquiet fun h => absurd h (by decide)
  have hof := (s.setAct .activating).restarting_of 4 hp
  rw [State.activate, hstays]
  exact ⟨hof.act, rfl, hof.state, hof.cause, fun k _ hk => hof.others k hk⟩

theorem State.advance_caravan {s : State} (hpending : (s.fw fwCaravan).actPending = true) (hcalm : s.emergency = false)
    (hequal : s.upd.unequal = false) : s.advance none = s.activate fwCaravan none := by
  have hfirst : actOrder.find? (fun p => (s.fw p).actPending) = some fwCaravan := List.find?_cons_of_pos hpending
  rw [State.advance, hfirst]
  dsimp only
  rw [if_neg (by simp [hcalm]), if_neg (by simp [hequal]), if_neg (fun h => absurd h.1 (by decide))]
  rfl

/-- Processors that restart for an activation, while no message waits. -/
structure Activating (done : List Nat) (t : State) : Prop where
  quiet  : t.host.msgs = []
  number : t.fws.length = 6
  act    : t.upd.st = .activating
  fws    : ∀ n ∈ done, (t.fw n).st = .restarting ∧ (t.fw n).cause = 4

theorem Activating.restart {done : List Nat} {t : State} (h : Activating done t) {n : Nat} (hn : n < 6) :
    Activating (n :: done) (t.restart n 4 none) := by
  have hl : n < t.fws.length := by rw [h.number]; exact hn
  have hquiet : t.abortable n none = [] := by rw [State.abortable, h.quiet]; rfl
  have hof := t.restarting_of 4 hl
  rw [State.restart_stays hl hquiet fun h => absurd h (by decide)]
  refine ⟨by rw [hof.host, h.quiet], hof.number.trans h.number, hof.act.trans h.act, fun k hk => ?_⟩
  by_cases hkn : k = n
  · subst hkn
    exact ⟨hof.state, hof.cause⟩
  · rw [hof.others k hkn]
    exact h.fws k ((List.mem_cons.mp hk).resolve_left hkn)

theorem State.restartAll_activating {s : State} (hlen : s.fws.length = 6) (hmsgs : s.host.msgs = []) :
    s.restartAll.upd.st = .activating ∧ ∀ n < 6, (s.restartAll.fw n).st = .restarting ∧ (s.restartAll.fw n).cause = 4 := by
  have h0 : Activating [] (s.setAct .activating) := ⟨hmsgs, hlen, rfl, by simp⟩
  have hall : Activating [fwWarden, fwQuarter, fwWayfinder, fwGuide, fwCaravan, fwSteward] s.restartAll :=
    (((((h0.restart (by decide)).restart (by decide)).restart (by decide)).restart (by decide)).restart (by decide)).restart (by decide)
  refine ⟨hall.act, fun n hn => hall.fws n ?_⟩
  revert n
  decide

theorem waitE0_due {s : State} (hst : s.upd.st = .waitE0) (hrun : (s.fw fwSteward).st = .running) (hcalm : s.calm = true)
    (hclear : s.emergency = false) : waitE0 s = if s.upd.unequal then s.restartAll else s.activate fwWarden none :=
  if_pos ⟨hst, hrun, hcalm, by simp [hclear]⟩

theorem bundleProven_due {b : List Byte} {s : State} (hstaged : s.upd.staged = some b) (hst : s.upd.st = .proving)
    (hrun : (s.fw fwSteward).st = .running) (hdue : s.upd.provingFrom + 60000000000 ≤ s.now)
    (hall : ∀ n ∈ s.upd.activated, (s.fw n).st = .running) : bundleProven s = { s with
      flashes := updAt s.flashes (1 - s.boot.flash) (fun f => { f with proven := true })
      fuses := { s.fuses with secMin := Nat.max s.fuses.secMin (bundleSec b) }
      upd := { s.upd with st := .none, staged := none, activated := [] } } := by
  rw [bundleProven, hstaged]
  exact if_pos ⟨hst, hrun, hdue, List.all_eq_true.mpr fun n hn => by simp [hall n hn]⟩

theorem flashWritten_one {b : List Byte} {m : Msg} {s : State} (hwriting : s.upd.writing = some b) (hmsgs : s.host.msgs = [m])
    (hphase : m.phase = .flashWait) (hrun : (s.fw fwSteward).st = .running) : flashWritten s =
      ({ s with
        flashes := updAt s.flashes (1 - s.boot.flash) (fun f =>
          f.program b (((s.flashes.getD s.boot.flash (Flash.empty 0)).epoch + 1) % 2 ^ 32) false)
        upd := { s.upd with writing := none, staged := some b, st := .staged } } : State).complete m fwSteward .ok [] := by
  rw [flashWritten, hwriting, hmsgs, List.find?_cons_of_pos (by simp [hphase])]
  exact if_neg (by simp [hrun])

/-- Settles O11. -/
theorem firmwareUpdate : Obligations.FirmwareUpdate := by
  unfold Obligations.FirmwareUpdate
  refine ⟨fun s hst hrun hcalm hlevel hdue hnone => ?done, fun s hst hrun hcalm hlevel hdue hlen hpending hequal hquiet => ?caravan,
    fun s hst hrun hcalm hclear hequal hlen hquiet => ?warden, fun s hst hrun hcalm hclear hunequal hlen hmsgs => ?all,
    fun b s hstaged hst hrun hdue hall => congrArg Host.Outcome.next (bundleProven_due hstaged hst hrun hdue hall),
    fun b m s hwriting hmsgs hphase hrun =>
      ⟨_, congrArg Host.Outcome.next (flashWritten_one hwriting hmsgs hphase hrun), rfl, rfl, rfl, rfl, rfl, rfl, rfl⟩⟩
  case done =>
    exact congrArg Host.Outcome.next ((activationResume_due hst hrun hcalm hlevel hdue).trans (State.advance_done none hnone))
  case caravan =>
    exact ⟨_, congrArg Host.Outcome.next ((activationResume_due hst hrun hcalm hlevel hdue).trans
      (State.advance_caravan hpending hcalm hequal)), State.activate_of (by rw [hlen]; decide) hquiet⟩
  case warden =>
    exact ⟨_, congrArg Host.Outcome.next ((waitE0_due hst hrun hcalm hclear).trans (if_neg (by simp [hequal]))),
      State.activate_of (by rw [hlen]; decide) hquiet⟩
  case all =>
    exact ⟨_, congrArg Host.Outcome.next ((waitE0_due hst hrun hcalm hclear).trans (if_pos hunequal)),
      State.restartAll_activating hlen hmsgs⟩

end Machine
end Sys2Proof
end

section
/-! PROOFS. What a taken message comes to, said once for every message; sessions, windows and features (16 R342 to R347). -/

namespace Sys2Proof
namespace Machine

/-! ### Taken messages -/

/-- The state that the meaning of a taken message leaves. -/
def Act.outcome (m : Msg) (op : Nat) : Act → State
  | .reply t st body => t.complete m (owner op) st body
  | .hold t p => t.setPhase m p

@[simp] theorem Act.outcome_ok (t : State) (m : Msg) (op : Nat) (fs : List (Fld × Nat)) :
    (Act.ok t fs).outcome m op = answered t m op fs := rfl

@[simp] theorem Act.outcome_no (t : State) (m : Msg) (op : Nat) (st : Status) :
    (Act.no t st).outcome m op = t.complete m (owner op) st [] := rfl

@[simp] theorem Act.outcome_hold (t : State) (m : Msg) (op : Nat) (p : Phase) : (Act.hold t p).outcome m op = t.setPhase m p := rfl

section
variable {s : State} {w op c : Nat} {m : Msg} {fs : List Fld} {a : List Nat}

theorem commitMsg_outcome (k : Msg → State → Act) (h : Takes s w op m) : commitMsg w op k s = (k m s).outcome m op := by
  rw [commitMsg_takes s k h]
  cases k m s <;> rfl

theorem commitReq_outcome (k : List Nat → Msg → State → Act) (h : Takes s w op m) (hspells : Spells fs m a) :
    commitMsg w op (withReq fs k) s = (k a m s).outcome m op := by
  rw [commitMsg_outcome _ h, withReq_spells s k hspells]

theorem commitCtx_outcome (k : Nat → List Nat → Msg → State → Act) (h : Takes s w op m) (hspells : Spells (.u8 :: fs) m (c :: a))
    (hadmits : Admits s m c) : commitMsg w op (withCtx fs k) s = (k c a m s).outcome m op := by
  rw [commitMsg_outcome _ h, withCtx_admits s k hspells hadmits]

/-- A taken message is of the window it was taken from. -/
theorem Takes.win_eq (h : Takes s w op m) : m.win = w := by
  have holdest := h.oldest
  unfold State.oldest at holdest
  split at holdest
  · split at holdest
    · next hw =>
      cases holdest
      exact hw.1
    · cases holdest
  · cases holdest

end

theorem firstBad_pass {cs : List (Bool × Status)} (h : ∀ x ∈ cs, x.1 = false) : firstBad cs = none := by
  induction cs with
  | nil => rfl
  | cons x r ih =>
    obtain ⟨bad, st⟩ := x
    have hpass : bad = false := h (bad, st) (by simp)
    rw [firstBad, if_neg (by simp [hpass])]
    exact ih fun y hy => h y (by simp [hy])

/-- Checks that all pass do nothing. -/
theorem checked_pass {cs : List (Bool × Status)} (s : State) (k : Act) (h : ∀ x ∈ cs, x.1 = false) : checked cs s k = k := by
  rw [checked, firstBad_pass h]

theorem mem_onesOf {n x i : Nat} : i ∈ onesOf n x ↔ i < n ∧ x.testBit i = true := by simp [onesOf]

/-! ### Windows one after another -/

theorem State.foldl_onWin_rest (s : State) (l : List Nat) (f : Win → Win) : ∃ wins,
    l.foldl (fun t w => t.onWin w f) s = { s with host := { s.host with wins := wins } } := by
  refine List.foldlRecOn (motive := fun t : State => ∃ wins, t = { s with host := { s.host with wins := wins } }) _ _ ⟨s.host.wins, rfl⟩ ?_
  rintro t ⟨wins, rfl⟩ w -
  exact ⟨_, rfl⟩

/-- A change that is the same made twice, at every window of a list. -/
theorem State.win_foldl_onWin (s : State) (l : List Nat) {f : Win → Win} (hf : ∀ x, f (f x) = f x) (v : Nat) :
    (l.foldl (fun t w => t.onWin w f) s).win v = if v ∈ l then f (s.win v) else s.win v := by
  induction l generalizing s with
  | nil => simp
  | cons w r ih =>
    rw [List.foldl_cons, ih, State.win_onWin]
    by_cases h : w = v
    · simp [h, hf]
    · simp [h, Ne.symm h]

/-! ### PMP_SESSION_OPEN -/

theorem maxN_eq {l : List Nat} {x : Nat} (hx : x ∈ l) (h : ∀ y ∈ l, y ≤ x) : maxN l = x := by
  have hbound (a : Nat) (r : List Nat) : a ≤ r.foldl Nat.max a ∧ ∀ y ∈ r, y ≤ r.foldl Nat.max a := by
    induction r generalizing a with
    | nil => simp
    | cons z r ih =>
      obtain ⟨hz, hr⟩ := ih (Nat.max a z)
      refine ⟨(Nat.le_max_left a z).trans hz, fun y hy => ?_⟩
      rcases List.mem_cons.mp hy with rfl | hy
      · exact (Nat.le_max_right a y).trans hz
      · exact hr y hy
  refine le_antisymm ?_ ((hbound 0 l).2 x hx)
  exact List.foldlRecOn (motive := fun a => a ≤ x) l Nat.max (Nat.zero_le x) fun a ha y hy => max_le ha (h y hy)

/-- The newest own version is chosen where the host's range holds it. -/
theorem negotiate_own {lo hi : Nat} (hlo : lo ≤ 0x0302) (hhi : 0x0302 ≤ hi) : negotiate lo hi = some 0x0302 := by
  have hmem : 0x0302 ∈ ownVersions.filter (fun v => decide (lo ≤ v ∧ v ≤ hi)) :=
    List.mem_filter.mpr ⟨by decide, by simp [hlo, hhi]⟩
  have hmax : maxN (ownVersions.filter (fun v => decide (lo ≤ v ∧ v ≤ hi))) = 0x0302 := by
    refine maxN_eq hmem fun y hy => ?_
    have hown : ∀ v ∈ ownVersions, v ≤ 0x0302 := by decide
    exact hown y (List.mem_filter.mp hy).1
  rw [negotiate, if_neg (by rw [List.isEmpty_iff]; exact List.ne_nil_of_mem hmem), hmax]

theorem State.freshSession_next {s : State} (h : s.session ((s.host.nextSession - 1) % 65535 + 1) = none) :
    s.freshSession = (s.host.nextSession - 1) % 65535 + 1 := by
  have hfirst : firstBelow 65 (fun i => (s.session ((s.host.nextSession - 1 + i) % 65535 + 1)).isNone) = some 0 :=
    firstBelow_eq_some (by decide) (by simp [h]) fun k hk => absurd hk (Nat.not_lt_zero k)
  rw [State.freshSession]
  dsimp only
  rw [hfirst]
  rfl

/-- Windows bound to a new session. -/
def Win.bind (id : Nat) (x : Win) : Win := { x with bound := true, session := id }

/-- What a new session that takes nothing over is. -/
theorem State.openSession_new {s : State} {wins : List Nat} {version features : Nat} {mgmt : Bool}
    (h : s.session ((s.host.nextSession - 1) % 65535 + 1) = none) :
    let id := (s.host.nextSession - 1) % 65535 + 1
    let x : Session := ⟨id, wins, version / 256, version % 256, (features &&& supportedFeatures (version / 256)) ||| 1, mgmt⟩
    ∃ h', s.openSession wins version features mgmt false = (id, { s with host := h' }) ∧ h'.sessions = s.host.sessions ++ [x] ∧
      h'.msgs = s.host.msgs ∧ (∀ v, h'.wins.getD v Win.fresh = if v ∈ wins then (s.win v).bind id else s.win v) ∧
      ({ s with host := h' } : State).session id = some x := by
  intro id x
  obtain ⟨ws, hfold⟩ := s.foldl_onWin_rest wins (Win.bind id)
  have hwin := s.win_foldl_onWin wins (f := Win.bind id) (fun _ => rfl)
  rw [hfold] at hwin
  have hopen : s.openSession wins version features mgmt false = (id, { s with host := { s.host with
      wins := ws, sessions := s.host.sessions ++ [x], nextSession := id % 65535 + 1 } }) := by
    rw [State.openSession]
    dsimp only
    rw [if_neg (by decide), State.freshSession_next h]
    change (id, { (wins.foldl (fun (t : State) w => t.onWin w (Win.bind id)) s) with
      host := { (wins.foldl (fun (t : State) w => t.onWin w (Win.bind id)) s).host with
        sessions := (wins.foldl (fun (t : State) w => t.onWin w (Win.bind id)) s).host.sessions ++ [x], nextSession := id % 65535 + 1 } }) = _
    rw [hfold]
  refine ⟨_, hopen, rfl, rfl, hwin, ?_⟩
  change (s.host.sessions ++ [x]).find? (fun y => y.id == id) = some x
  rw [List.find?_append, show s.host.sessions.find? (fun y => y.id == id) = none from h]
  simp [x]

theorem sessions_open {w wmap lo hi feats : Nat} {m : Msg} {s : State} (htakes : Takes s w 0x0001 m) (hw : w < 256)
    (hspells : Spells [.r 256, .u16, .u16, .r 128, .u32] m [wmap, lo, hi, feats, 0]) (hown : wmap.testBit w = true)
    (hlo : lo ≤ 0x0302) (hhi : 0x0302 ≤ hi) (hfree : ∀ v < 256, wmap.testBit v = true → (s.win v).bound = false)
    (hroom : s.host.sessions.length < 64) (hid : s.session ((s.host.nextSession - 1) % 65535 + 1) = none) :
    let id := (s.host.nextSession - 1) % 65535 + 1
    let granted := (feats &&& 0x3FFF) ||| 1
    ∃ x adm, exec (.pmpSessionOpen w) s = .next (answered { s with host := x } m 0x0001
        [(.u16, id), (.u16, 0x0302), (.u8, adm), (.u32, 0), (.r 128, granted)]) ∧
      x.sessions = s.host.sessions ++ [⟨id, onesOf 256 wmap, 3, 2, granted, false⟩] ∧ x.msgs = s.host.msgs ∧
      ∀ v, x.wins.getD v Win.fresh =
        if v < 256 ∧ wmap.testBit v = true then { s.win v with bound := true, session := id } else s.win v := by
  intro id granted
  obtain ⟨h', hopen, hsessions, hmsgs, hwins, hfound⟩ :=
    s.openSession_new (wins := onesOf 256 wmap) (version := 0x0302) (features := feats) (mgmt := false) hid
  have hmw := htakes.win_eq
  have hunbound : (onesOf 256 wmap).any (fun w => (s.win w).bound) = false :=
    List.any_eq_false.mpr fun v hv => by simp [hfree v (mem_onesOf.mp hv).1 (mem_onesOf.mp hv).2]
  have hmeaning : ∃ adm, sessionOpen [wmap, lo, hi, feats, 0] m s = Act.ok { s with host := h' }
      [(.u16, id), (.u16, 0x0302), (.u8, adm), (.u32, 0), (.r 128, granted)] := by
    unfold sessionOpen
    have hvirt : decide (m.win ≥ 256) = false := by simp [hmw, hw]
    simp only [hvirt, negotiate_own hlo hhi, Option.getD_some, Bool.false_eq_true, if_false, List.append_nil,
      show bit 0 0 = false from rfl, show bit 0 1 = false from rfl]
    rw [checked_pass _ _ (by simp [flagsBad, hmw, hown, hunbound, hroom]), hopen]
    dsimp only
    rw [hfound]
    exact ⟨_, rfl⟩
  obtain ⟨adm, hmeaning⟩ := hmeaning
  refine ⟨h', adm, ?_, hsessions, hmsgs, fun v => ?_⟩
  · change Host.Outcome.next (commitMsg w 0x0001 (withReq _ sessionOpen) s) = _
    rw [commitReq_outcome _ htakes hspells, hmeaning, Act.outcome_ok]
  · rw [hwins v]
    simp only [mem_onesOf]
    rfl

/-! ### PMP_SESSION_CLOSE -/

/-- Reading a table whose values went through a map and of which the default ones were dropped: where the first entry of the key
stays, and everything else is a mapped value or the default. -/
theorem Tbl.getD_mapV_filter {α : Type} [DecidableEq α] (t : Tbl α) (d : α) (f : α → α) (k : Nat) :
    let u : Tbl α := (t.mapV (fun _ x => f x)).filter (fun e => decide (e.2 ≠ d))
    (u.getD k d = d ∨ ∃ x, u.getD k d = f x) ∧ (f d = d → f (t.getD k d) ≠ d → u.getD k d = f (t.getD k d)) := by
  induction t with
  | nil => exact ⟨.inl rfl, fun hd hne => absurd hd hne⟩
  | cons e r ih =>
    obtain ⟨j, v⟩ := e
    obtain ⟨hval, hget⟩ := ih
    dsimp only [Tbl.mapV, List.map_cons] at hval hget ⊢
    by_cases hdrop : f v = d
    · simp only [List.map_cons, List.filter_cons, ne_eq, hdrop, not_true, decide_false, Bool.false_eq_true, if_false] at hval hget ⊢
      refine ⟨hval, fun hd hne => ?_⟩
      by_cases hj : j = k
      · exact absurd (by simp [Tbl.getD, hj, hdrop]) hne
      · rw [Tbl.getD, if_neg hj] at hne ⊢
        exact hget hd hne
    · simp only [List.map_cons, List.filter_cons, ne_eq, hdrop, not_false_eq_true, decide_true, if_true] at hval hget ⊢
      by_cases hj : j = k
      · simp only [Tbl.getD, hj, if_true]
        exact ⟨.inr ⟨v, rfl⟩, fun _ _ => trivial⟩
      · simp only [Tbl.getD, if_neg hj]
        exact ⟨hval, hget⟩

/-- A window of a closed session is unbound. -/
def Win.unbind (id : Nat) (x : Win) : Win := if x.bound && x.session == id then { x with bound := false, session := 0 } else x

theorem Win.unbind_not (id : Nat) (x : Win) : ¬ ((x.unbind id).bound = true ∧ (x.unbind id).session = id) := by
  unfold Win.unbind
  split
  · simp
  · next h => simpa using h

theorem sessions_close {w : Nat} {m : Msg} {s : State} (htakes : Takes s w 0x0002 m) (hspells : Spells [] m []) :
    ∃ x, exec (.pmpSessionClose w) s = .next (answered { s with host := x } m 0x0002 []) ∧
      x.sessions = s.host.sessions.filter (fun y => y.id != m.sess) ∧ x.msgs = s.host.msgs ∧
      (∀ v, ¬ ((x.wins.getD v Win.fresh).bound = true ∧ (x.wins.getD v Win.fresh).session = m.sess)) ∧
      ∀ v, (s.win v).bound = true → (s.win v).session ≠ m.sess → x.wins.getD v Win.fresh = s.win v := by
  refine ⟨(s.closeSession m.sess).host, ?_, rfl, rfl, fun v => ?_, fun v hbound hother => ?_⟩
  · change Host.Outcome.next (commitMsg w 0x0002 (withReq _ sessionClose) s) = _
    rw [commitReq_outcome _ htakes hspells]
    rfl
  · change ¬ ((Tbl.getD ((s.host.wins.mapV (fun _ x => x.unbind m.sess)).filter _) v Win.fresh).bound = true ∧
      (Tbl.getD ((s.host.wins.mapV (fun _ x => x.unbind m.sess)).filter _) v Win.fresh).session = m.sess)
    rcases (Tbl.getD_mapV_filter s.host.wins Win.fresh (Win.unbind m.sess) v).1 with h | ⟨x, h⟩
    · rw [h]
      exact fun hb => Bool.noConfusion hb.1
    · rw [h]
      exact x.unbind_not m.sess
  · have hkeep : (s.win v).unbind m.sess = s.win v := if_neg (by simp [hother])
    have hne : (s.win v).unbind m.sess ≠ Win.fresh := by
      rw [hkeep]
      intro h
      rw [h] at hbound
      exact Bool.noConfusion hbound
    exact ((Tbl.getD_mapV_filter s.host.wins Win.fresh (Win.unbind m.sess) v).2 rfl hne).trans hkeep

/-! ### The other messages -/

theorem sessions_windows {w wmap mask flags : Nat} {m : Msg} {s : State} (htakes : Takes s w 0x0003 m)
    (hspells : Spells [.r 256, .u8, .u32] m [wmap, mask, flags]) (hflags : flags < 4) :
    ∃ x, exec (.pmpWindowConfig w) s = .next (answered { s with host := { s.host with wins := x } } m 0x0003 []) ∧
      ∀ v, x.getD v Win.fresh =
        if (v < 256 ∧ wmap.testBit v = true) ∨ (v = 256 ∧ flags.testBit 0 = true) ∨ (v = 257 ∧ flags.testBit 1 = true)
        then { s.win v with partMask := mask } else s.win v := by
  obtain ⟨ws, hfold⟩ := s.foldl_onWin_rest
    (onesOf 256 wmap ++ (if bit flags 0 then [256] else []) ++ (if bit flags 1 then [257] else [])) (fun x => { x with partMask := mask })
  have hwin := s.win_foldl_onWin (onesOf 256 wmap ++ (if bit flags 0 then [256] else []) ++ (if bit flags 1 then [257] else []))
    (f := fun x => { x with partMask := mask }) (fun _ => rfl)
  rw [hfold] at hwin
  refine ⟨ws, ?_, fun v => (hwin v).trans ?_⟩
  · change Host.Outcome.next (commitMsg w 0x0003 (withReq _ windowConfig) s) = _
    rw [commitReq_outcome _ htakes hspells, windowConfig, checked_pass _ _ (by simp [flagsBad]; omega), hfold, Act.outcome_ok]
  · have hmem : (v ∈ onesOf 256 wmap ++ (if bit flags 0 then [256] else []) ++ (if bit flags 1 then [257] else [])) ↔
        ((v < 256 ∧ wmap.testBit v = true) ∨ (v = 256 ∧ flags.testBit 0 = true) ∨ (v = 257 ∧ flags.testBit 1 = true)) := by
      simp only [List.mem_append, mem_onesOf, or_assoc, List.mem_ite_nil_right, List.mem_singleton]
      simp only [bit, and_comm]
    simp only [hmem]

/-- Settles O13. -/
theorem sessionMessages : Obligations.SessionMessages := by
  unfold Obligations.SessionMessages
  refine ⟨fun w wmap lo hi feats m s htakes hw hspells hown hlo hhi hfree hroom hid =>
      sessions_open htakes hw hspells hown hlo hhi hfree hroom hid,
    fun w m s htakes hspells => sessions_close htakes hspells,
    fun w wmap mask flags m s htakes hspells hflags => sessions_windows htakes hspells hflags,
    fun w x m s htakes hspells hx => ?_⟩
  change Host.Outcome.next (commitMsg w 0x0004 (withReq _ featuresMsg) s) = _
  rw [commitReq_outcome _ htakes hspells, featuresMsg, hx]
  rfl

end Machine
end Sys2Proof
end

section
/-! PROOFS. The integer instructions of the lanes (08 R179, Table 8-5): one rule for an instruction that writes `DST`, and the
arithmetic of 32 bits. -/

namespace Sys2Proof
namespace Machine

section

variable {s : State} {op c id i w : Nat} {l : Launch} {g : Str}

/-! ### What a lane instruction leaves -/

theorem Wrote.congr {f f' : Nat → Nat} {g' : Str} (h : Wrote g w f g') (hf : ∀ k < 64, f k % 2 ^ 32 = f' k % 2 ^ 32) :
    Wrote g w f' g' := by
  refine ⟨fun r hr k hk => ?_, h.frame⟩
  rw [h.regs r hr k hk, hf k hk]

theorem laneOp_ready (f : Str → Nat → Str) (h : Ready s op c id i l g w) : laneOp op c id i f s = s.putStr c id i (f g w) :=
  runStr_ready s _ h

/-- An instruction that writes `DST` and goes on. -/
theorem laneOp_writes {v f : Nat → Nat} (h : Ready s op c id i l g w) (hf : ∀ k < 64, v k % 2 ^ 32 = f k % 2 ^ 32)
    (k : Str → Nat → Str) (hk : k g w = (g.writeDst w v).next) :
    ∃ g', Host.Outcome.next (laneOp op c id i k s) = (.next (s.putStr c id i g') : Host.Outcome State Fault Refusal) ∧
      Wrote g w f g' :=
  ⟨_, congrArg Host.Outcome.next ((laneOp_ready k h).trans (by rw [hk])), (Str.wrote_writeDst g w v).congr hf⟩

/-- An instruction of two sources. -/
theorem aluOp_writes {v : Nat → Nat → Nat} {f : Nat → Nat} (h : Ready s op c id i l g w)
    (hf : ∀ k < 64, v (g.srcA w k) (g.srcB w k) % 2 ^ 32 = f k % 2 ^ 32) :
    ∃ g', Host.Outcome.next (aluOp op c id i v s) = (.next (s.putStr c id i g') : Host.Outcome State Fault Refusal) ∧
      Wrote g w f g' :=
  laneOp_writes h hf _ rfl

end

/-! ### Arithmetic of 32 bits -/

theorem toInt_mod_two_pow {n : Nat} (x : BitVec n) : (x.toInt % (2 ^ n : Nat)).toNat = x.toNat := by
  rw [← BitVec.toNat_ofInt, BitVec.ofInt_toInt]

theorem isub_toNat (a b : Nat) :
    (a % 2 ^ 32 + 2 ^ 32 - b % 2 ^ 32) % 2 ^ 32 = (BitVec.ofNat 32 a - BitVec.ofNat 32 b).toNat % 2 ^ 32 := by
  rw [BitVec.toNat_sub, BitVec.toNat_ofNat, BitVec.toNat_ofNat]
  omega

theorem imulh_toNat (a b : Nat) : ofSint (sint a * sint b / 2 ^ 32) % 2 ^ 32 =
    (((BitVec.ofNat 32 a).signExtend 64 * (BitVec.ofNat 32 b).signExtend 64).toNat / 2 ^ 32) % 2 ^ 32 := by
  have hprod : ((BitVec.ofNat 32 a).signExtend 64 * (BitVec.ofNat 32 b).signExtend 64).toNat = ((sint a * sint b) % 2 ^ 64).toNat := by
    have hmul : (BitVec.ofNat 32 a).signExtend 64 * (BitVec.ofNat 32 b).signExtend 64 = BitVec.ofInt 64 (sint a * sint b) := by
      rw [BitVec.ofInt_mul]
      rfl
    rw [hmul, BitVec.toNat_ofInt]
    rfl
  rw [hprod, ofSint]
  generalize sint a * sint b = z
  omega

theorem shl_toNat (a n : Nat) : (a * 2 ^ n) % 2 ^ 32 = (BitVec.ofNat 32 a <<< n).toNat % 2 ^ 32 := by
  rw [BitVec.toNat_shiftLeft, BitVec.toNat_ofNat, Nat.shiftLeft_eq]
  simp [Nat.mod_mul_mod]

theorem sar_toNat (a n : Nat) : ofSint (sint a / 2 ^ n) % 2 ^ 32 = ((BitVec.ofNat 32 a).sshiftRight n).toNat % 2 ^ 32 := by
  have hint : ((BitVec.ofNat 32 a).sshiftRight n).toInt = sint a / 2 ^ n := by
    rw [BitVec.toInt_sshiftRight, Int.shiftRight_eq_div_pow]
    rfl
  rw [← hint, ofSint]
  exact congrArg (· % 2 ^ 32) (toInt_mod_two_pow _)

theorem movi_toNat (w : Nat) : ofSint (iSimm w) % 2 ^ 32 = ((BitVec.ofNat 31 (iImm w)).signExtend 32).toNat % 2 ^ 32 := by
  have hlt : iImm w < 2 ^ 31 := Nat.mod_lt _ (by decide)
  rw [← toInt_mod_two_pow, BitVec.toInt_signExtend_of_le (by decide), BitVec.toInt_eq_toNat_cond, BitVec.toNat_ofNat,
    Nat.mod_eq_of_lt hlt, ofSint, iSimm]
  by_cases h : iImm w < 2 ^ 30
  · rw [if_pos h, if_pos (by omega)]
    rfl
  · rw [if_neg h, if_neg (by omega)]
    rfl

/-- Settles O31: each instruction is its value on the sources of the lane, up to a multiple of 2^32. -/
theorem integerInstructions : Obligations.IntegerInstructions := by
  unfold Obligations.IntegerInstructions
  intro c id i l g w s x y done
  refine ⟨fun h => aluOp_writes h fun k _ => ?_, fun h => aluOp_writes h fun k _ => isub_toNat _ _, fun h => aluOp_writes h fun k _ => ?_,
    fun h => aluOp_writes h fun k _ => imulh_toNat _ _, fun h => aluOp_writes h fun k _ => ?_, fun h => aluOp_writes h fun k _ => ?_,
    fun h => aluOp_writes h fun k _ => ?_, fun h hn => aluOp_writes h fun k hk => ?_, fun h hn => aluOp_writes h fun k hk => ?_,
    fun h hn => aluOp_writes h fun k hk => ?_, fun h => ⟨_, aluOp_writes h fun _ _ => rfl⟩, fun h => ⟨_, aluOp_writes h fun _ _ => rfl⟩,
    fun h => ⟨_, aluOp_writes h fun _ _ => rfl⟩, fun h => aluOp_writes h fun _ _ => ?_, fun h => aluOp_writes h fun _ _ => ?_,
    fun h => ⟨_, congrArg Host.Outcome.next (laneOp_ready _ h), ?_⟩, fun h => laneOp_writes h (fun _ _ => movi_toNat w) _ rfl⟩
  case refine_1 => simp [x, y]
  case refine_2 => simp [x, y]
  case refine_3 => simp only [x, y, BitVec.toNat_and, BitVec.toNat_ofNat, Nat.and_mod_two_pow, Nat.mod_mod]
  case refine_4 => simp only [x, y, BitVec.toNat_or, BitVec.toNat_ofNat, Nat.or_mod_two_pow, Nat.mod_mod]
  case refine_5 => simp only [x, y, BitVec.toNat_xor, BitVec.toNat_ofNat, Nat.xor_mod_two_pow, Nat.mod_mod]
  case refine_6 =>
    rw [shift, if_pos (hn k hk)]
    exact shl_toNat _ _
  case refine_7 => rw [shift, if_pos (hn k hk)]
  case refine_8 =>
    rw [shift, if_pos (hn k hk)]
    exact sar_toNat _ _
  case refine_9 => rfl
  case refine_10 => rfl
  case refine_11 => exact Str.judged_writePred g w _

end Machine
end Sys2Proof
end

section
/-! PROOFS. Owners, order and completion of Prota messages (16 R338, R340, R341; 17 R368, R369). -/

namespace Sys2Proof
namespace Machine

/-- The ranges of Table 16-7. -/
theorem owner_ranges (op : Nat) : owner op =
    if op < 0x100 then 0 else if op < 0x200 then 1 else if op < 0x300 then 2 else if op < 0x400 then 4
    else if op < 0x500 then 3 else if op < 0x510 then 4 else if op < 0x600 then 1 else if op < 0x610 then 3
    else if op < 0x620 then 1 else if op < 0x800 then 0 else if op < 0x820 then 5 else if op < 0x830 then 3 else 5 := by
  unfold owner
  simp only [Nat.le_iff_lt_add_one]
  rfl

/-- The oldest message that the owner of an opcode has not taken. -/
theorem State.find_oldest {m : Msg} {l r : List Msg} {s : State} (hmsgs : s.host.msgs = l ++ m :: r) (hrouted : m.phase = .routed)
    (hfirst : ∀ x ∈ l, ¬ (x.phase = .routed ∧ owner x.op = owner m.op)) {op : Nat} (hop : owner op = owner m.op) :
    s.host.msgs.find? (fun x => x.phase == .routed && owner x.op == owner op) = some m := by
  rw [hmsgs, hop, List.find?_append]
  have hnone : l.find? (fun x => x.phase == .routed && owner x.op == owner m.op) = none :=
    List.find?_eq_none.mpr fun x hx => by simpa using hfirst x hx
  rw [hnone]
  simp [hrouted]

theorem messages_order (w : Nat) (m : Msg) (l r : List Msg) (k : Msg → State → Act) (s : State) (hmsgs : s.host.msgs = l ++ m :: r)
    (hrouted : m.phase = .routed) (hfirst : ∀ x ∈ l, ¬ (x.phase = .routed ∧ owner x.op = owner m.op)) (hw : m.win = w) :
    s.oldest w m.op = some m ∧
      ∀ v op, owner op = owner m.op → ¬ (v = w ∧ op = m.op) → commitMsg v op k s = s := by
  refine ⟨?_, fun v op hop hother => commitMsg_waits s v op k (.inl ?_)⟩
  · rw [State.oldest, State.find_oldest hmsgs hrouted hfirst rfl]
    exact if_pos ⟨hw, rfl⟩
  · rw [State.oldest, State.find_oldest hmsgs hrouted hfirst hop]
    exact if_neg fun h => hother ⟨h.1.symm.trans hw, h.2.symm⟩

theorem messages_complete (m : Msg) (p : Nat) (st : Status) (body : List Byte) (s : State) (hw : m.win < 256) :
    ∃ (t : State) (h : Header), s.complete m p st body = t ∧ (t.win m.win).resp = h.write ++ body ∧
      h.op = m.op ∧ h.status = st.code ∧ h.length = body.length ∧ h.sess = m.sess ∧ h.tag = m.tag ∧ h.resp = true ∧
      h.handler = p ∧ h.stamp = m.stamp ∧ (t.win m.win).done = true ∧ (t.win m.win).owner = false ∧
      t.host.msgs = eraseFirst (fun x => decide (x = m)) s.host.msgs ∧
      t.out = (if (s.win m.win).irqEn then s.out ++ [Out.msix m.win] else s.out) ∧
      (∀ v, v ≠ m.win → t.win v = s.win v) ∧ t.mem = s.mem ∧ t.ctxs = s.ctxs ∧ t.seqs = s.seqs ∧ t.ws = s.ws ∧
      t.parts = s.parts ∧ t.flt = s.flt ∧ t.tb = s.tb := by
  obtain ⟨h, o, f, hop, hst, hlen, hsess, htag, hresp, hhandler, hstamp, hout, heq⟩ := s.complete_eq m p st body
  refine ⟨_, h, rfl, ?_, hop, hst, hlen, hsess, htag, hresp, hhandler, hstamp, ?_, ?_, ?_, ?_,
    fun v hv => s.complete_win m p st body v hv, ?_, ?_, ?_, ?_, ?_, ?_, ?_⟩ <;> rw [heq]
  case refine_1 => simp [State.win]
  case refine_2 => simp [State.win]
  case refine_3 => simp [State.win]
  case refine_5 => exact hout hw

/-- The first of the common checks that fails gives its status (log entry 13). -/
theorem messages_checks (m : Msg) (c : Nat) (s : State) :
    (15 < c → firstBad (s.ctxChecks m c) = some .bounds) ∧
    (c ≤ 15 → (s.ctx c).st = .free → firstBad (s.ctxChecks m c) = some .unavailable) ∧
    (c ≤ 15 → (s.ctx c).st ≠ .free → s.owns m.sess c = false → firstBad (s.ctxChecks m c) = some .denied) ∧
    (c ≤ 15 → (s.ctx c).st = .teardown → s.owns m.sess c = true → firstBad (s.ctxChecks m c) = some .unavailable) ∧
    (c ≤ 15 → (s.ctx c).st = .active → s.owns m.sess c = true → (s.part (s.ctx c).share.partition).halted = true →
      firstBad (s.ctxChecks m c) = some .faulted) := by
  unfold State.ctxChecks
  refine ⟨fun hc => ?_, fun hc hst => ?_, fun hc hst how => ?_, fun hc hst how => ?_, fun hc hst how hhalt => ?_⟩
  · simp [firstBad, hc]
  · simp [firstBad, Nat.not_lt.mpr hc, hst]
  · simp [firstBad, Nat.not_lt.mpr hc, hst, how]
  · simp [firstBad, Nat.not_lt.mpr hc, hst, how]
  · simp [firstBad, Nat.not_lt.mpr hc, hst, how, hhalt]

section
variable {w c : Nat} {m : Msg} {s : State}

theorem time_query (htakes : Takes s w 0x0600 m) (hspells : Spells [.u8] m [c]) (hadmits : Admits s m c) :
    exec (.pmpTimeQuery w) s = .next (answered s m 0x0600 ([(.u64, s.now), (.u64, s.tbStatus)] ++
      ctrFlds (s.ctx c).ctr [.lateStarts, .fixedSteps] ++
      ctrFlds s.tb.ctr [.skewEvents, .skewTrips, .timeExchanges, .holdovers, .masterChanges])) := by
  change Host.Outcome.next (commitMsg w 0x0600 (withCtx _ timeQuery) s) = _
  rw [commitCtx_outcome _ htakes hspells hadmits]
  rfl

theorem det_mode {mode : Nat} {y : Ctx} (htakes : Takes s w 0x0610 m) (hspells : Spells [.u8, .u8] m [c, mode]) (hadmits : Admits s m c)
    (hmode : mode ≤ 1) (hfit : (s.ctx c).fitSpill (spillBytes (s.ctx c).steps.tokenLimit (s.ctx c).share.dModel
      (planesOf (mode == 1) (s.ctx c).draft)) = some y) :
    exec (.pmpDetMode w) s
      = .next (answered (s.onCtx c (fun _ => { y with steps := { y.steps with mode := mode == 1 } })) m 0x0610 []) := by
  change Host.Outcome.next (commitMsg w 0x0610 (withCtx _ detMode) s) = _
  rw [commitCtx_outcome _ htakes hspells hadmits, detMode]
  dsimp only
  rw [checked_pass _ _ (by simpa using hmode), hfit]
  rfl

theorem det_query (htakes : Takes s w 0x0611 m) (hspells : Spells [.u8] m [c]) (hadmits : Admits s m c) :
    exec (.pmpDetQuery w) s = .next (answered s m 0x0611 [(.u8, b2n (s.ctx c).steps.mode), (.u32, (s.ctx c).sfnRev),
      (.u32, Num.crc32c s.shapeRecord)]) := by
  change Host.Outcome.next (commitMsg w 0x0611 (withCtx _ detQuery) s) = _
  rw [commitCtx_outcome _ htakes hspells hadmits]
  rfl

end

/-- Settles O60. -/
theorem messageCompletion : Obligations.MessageCompletion := by
  unfold Obligations.MessageCompletion
  exact ⟨fun op _ => owner_ranges op, fun w m l r k s hmsgs hrouted hfirst hw => messages_order w m l r k s hmsgs hrouted hfirst hw,
    fun m p st body s _ hw _ => messages_complete m p st body s hw, fun w op m k s _ hrun => commitMsg_waits s w op k (.inr hrun),
    fun m c s => messages_checks m c s, fun _ _ _ _ htakes hspells hadmits => time_query htakes hspells hadmits,
    fun _ _ _ _ _ _ htakes hspells hadmits hmode hfit => det_mode htakes hspells hadmits hmode hfit,
    fun _ _ _ _ htakes hspells hadmits => det_query htakes hspells hadmits⟩

end Machine
end Sys2Proof
end

section
/-! PROOFS. Fields packed side by side, bytes and CRCs: sealed waybills and note headers (04 R101; 05 R122; 02 R83). -/

namespace Sys2Proof
namespace Machine

/-! ### Packed fields -/

/-- The fields stand between bit `lo` and bit `hi`, each above the one before it. -/
def Apart (lo hi : Nat) : List (Nat × Nat × Nat) → Prop
  | [] => lo ≤ hi
  | (p, n, _) :: r => lo ≤ p ∧ Apart (p + n) hi r

theorem sumN_cons (x : Nat) (l : List Nat) : sumN (x :: l) = x + sumN l := by
  have hacc (a b : Nat) (r : List Nat) : r.foldl (· + ·) (a + b) = a + r.foldl (· + ·) b := by
    induction r generalizing b with
    | nil => rfl
    | cons y r ih => rw [List.foldl_cons, List.foldl_cons, Nat.add_assoc, ih]
  rw [sumN, List.foldl_cons, Nat.add_comm, hacc]
  rfl

theorem packF_cons (p n v : Nat) (r : List (Nat × Nat × Nat)) : packF ((p, n, v) :: r) = v % 2 ^ n * 2 ^ p + packF r := by
  rw [packF, List.map_cons, sumN_cons]
  rfl

theorem Apart.le {lo hi : Nat} {fs : List (Nat × Nat × Nat)} (h : Apart lo hi fs) : lo ≤ hi := by
  induction fs generalizing lo with
  | nil => exact h
  | cons x r ih => exact h.1.trans ((Nat.le_add_right _ _).trans (ih h.2))

theorem Apart.above {lo hi p n v : Nat} {fs : List (Nat × Nat × Nat)} (h : Apart lo hi fs) (hmem : (p, n, v) ∈ fs) : lo ≤ p := by
  induction fs generalizing lo with
  | nil => cases hmem
  | cons x r ih =>
    obtain ⟨hlo, hr⟩ := h
    rcases List.mem_cons.mp hmem with rfl | hmem
    · exact hlo
    · exact hlo.trans ((Nat.le_add_right _ _).trans (ih hr hmem))

theorem Apart.dvd {lo hi : Nat} {fs : List (Nat × Nat × Nat)} (h : Apart lo hi fs) : 2 ^ lo ∣ packF fs := by
  induction fs generalizing lo with
  | nil => exact Nat.dvd_zero _
  | cons x r ih =>
    obtain ⟨p, n, v⟩ := x
    obtain ⟨hlo, hr⟩ := h
    rw [packF_cons]
    exact Nat.dvd_add (Nat.dvd_mul_left_of_dvd (Nat.pow_dvd_pow 2 hlo) _)
      ((Nat.pow_dvd_pow 2 (hlo.trans (Nat.le_add_right p n))).trans (ih hr))

theorem Apart.lt {lo hi : Nat} {fs : List (Nat × Nat × Nat)} (h : Apart lo hi fs) : packF fs + 2 ^ lo ≤ 2 ^ hi := by
  induction fs generalizing lo with
  | nil => simpa [packF, sumN] using Nat.pow_le_pow_right (by decide) h
  | cons x r ih =>
    obtain ⟨p, n, v⟩ := x
    obtain ⟨hlo, hr⟩ := h
    have hv : v % 2 ^ n + 1 ≤ 2 ^ n := Nat.mod_lt v (Nat.two_pow_pos n)
    calc packF ((p, n, v) :: r) + 2 ^ lo ≤ v % 2 ^ n * 2 ^ p + packF r + 2 ^ p := by
          rw [packF_cons]
          exact Nat.add_le_add_left (Nat.pow_le_pow_right (by decide) hlo) _
      _ = packF r + (v % 2 ^ n + 1) * 2 ^ p := by ring
      _ ≤ packF r + 2 ^ n * 2 ^ p := Nat.add_le_add_left (Nat.mul_le_mul_right _ hv) _
      _ = packF r + 2 ^ (p + n) := by ring
      _ ≤ 2 ^ hi := ih hr

/-- Bits below those of a field do not show in it. -/
theorem bits_add_low {a q lo n k : Nat} (ha : a < 2 ^ q) (hq : q ≤ lo) : bits (a + 2 ^ q * k) lo n = bits (2 ^ q * k) lo n := by
  obtain ⟨d, rfl⟩ := Nat.exists_eq_add_of_le hq
  rw [bits, bits, Nat.shiftRight_eq_div_pow, Nat.shiftRight_eq_div_pow, Nat.pow_add, ← Nat.div_div_eq_div_mul, ← Nat.div_div_eq_div_mul,
    Nat.add_mul_div_left _ _ (Nat.two_pow_pos q), Nat.div_eq_of_lt ha, Nat.zero_add, Nat.mul_div_cancel_left _ (Nat.two_pow_pos q)]

/-- A packed field reads back as it was, cut to its width. -/
theorem bits_packF {lo hi p n v : Nat} {fs : List (Nat × Nat × Nat)} (h : Apart lo hi fs) (hmem : (p, n, v) ∈ fs) :
    bits (packF fs) p n = v % 2 ^ n := by
  induction fs generalizing lo with
  | nil => cases hmem
  | cons x r ih =>
    obtain ⟨p', n', v'⟩ := x
    obtain ⟨-, hr⟩ := h
    obtain ⟨k, hk⟩ := hr.dvd
    rw [packF_cons]
    rcases List.mem_cons.mp hmem with heq | hmem
    · cases heq
      have hfield := bits_of_sum (a := 0) (h := k) (Nat.two_pow_pos p) (Nat.mod_lt v (Nat.two_pow_pos n))
      rwa [Nat.zero_add, Nat.mul_comm k, ← hk] at hfield
    · have hv : v' % 2 ^ n' * 2 ^ p' < 2 ^ (p' + n') := by
        rw [Nat.pow_add, Nat.mul_comm (2 ^ p')]
        exact Nat.mul_lt_mul_of_pos_right (Nat.mod_lt _ (Nat.two_pow_pos n')) (Nat.two_pow_pos p')
      rw [hk, bits_add_low hv (hr.above hmem), ← hk]
      exact ih hr hmem

/-! ### Bytes and CRCs -/

theorem toLE_drop (n k x : Nat) : (toLE (n + k) x).drop n = toLE k (x / 256 ^ n) := by
  induction n generalizing x with
  | zero => simp
  | succ n ih => rw [Nat.succ_add, toLE, List.drop_succ_cons, ih, Nat.div_div_eq_div_mul, Nat.pow_succ']

theorem toLE_take (n k x : Nat) : (toLE (n + k) x).take n = toLE n x := by
  induction n generalizing x with
  | zero => rfl
  | succ n ih => rw [Nat.succ_add, toLE, List.take_succ_cons, ih, toLE]

theorem toLE_add_high (n x c : Nat) : toLE n (x + c * 256 ^ n) = toLE n x := by
  induction n generalizing x with
  | zero => rfl
  | succ n ih =>
    have hbyte : BitVec.ofNat 8 (x + c * 256 ^ (n + 1)) = BitVec.ofNat 8 x := by
      apply BitVec.eq_of_toNat_eq
      rw [BitVec.toNat_ofNat, BitVec.toNat_ofNat, Nat.pow_succ, ← Nat.mul_assoc]
      exact Nat.add_mul_mod_self_right x _ 256
    have hrest : (x + c * 256 ^ (n + 1)) / 256 = x / 256 + c * 256 ^ n := by
      rw [Nat.pow_succ, ← Nat.mul_assoc, Nat.add_mul_div_right _ _ (by decide)]
    rw [toLE, toLE, hbyte, hrest, ih]

theorem crcBit_lt {c : Nat} (h : c < 2 ^ 32) : Num.crcBit c < 2 ^ 32 := by
  have hhalf : c / 2 < 2 ^ 32 := (Nat.div_le_self c 2).trans_lt h
  unfold Num.crcBit
  split
  · exact Nat.xor_lt_two_pow hhalf (by decide)
  · exact hhalf

theorem crc32c_lt (bs : List Byte) : Num.crc32c bs < 2 ^ 32 := by
  refine Nat.xor_lt_two_pow ?_ (by decide)
  refine List.foldlRecOn (motive := fun c => c < 2 ^ 32) bs Num.crcByte (by decide) fun c hc b _ => ?_
  have hin : c ^^^ b.toNat < 2 ^ 32 := Nat.xor_lt_two_pow hc (b.isLt.trans (by decide))
  exact crcBit_lt (crcBit_lt (crcBit_lt (crcBit_lt (crcBit_lt (crcBit_lt (crcBit_lt (crcBit_lt hin)))))))

/-! ### Waybills and notes -/

theorem billCrc_add_low {c x : Nat} (hc : c < 2 ^ 32) : billCrc (c + 2 ^ 32 * x) = billCrc (2 ^ 32 * x) := by
  have hdiv : (c + 2 ^ 32 * x) / 256 ^ 4 = 2 ^ 32 * x / 256 ^ 4 := by omega
  rw [billCrc, billCrc, toLE_drop 4 28, toLE_drop 4 28, hdiv]

/-- The fields of a waybill above its CRC. -/
def Bill.fields (b : Bill) : List (Nat × Nat × Nat) :=
  [(32, 32, b.ret), (70, 52, b.rowAddr), (122, 4, b.replica), (126, 7, b.dst), (133, 8, b.flags),
    (141, 16, b.weight), (157, 4, b.rank), (161, 16, b.expert), (177, 9, b.layer), (186, 17, b.seq), (203, 18, b.slot),
    (221, 7, b.src), (228, 4, b.ctx), (232, 8, b.gen), (240, 16, b.epoch)]

theorem Bill.pack_eq (b : Bill) : b.pack = packF ((0, 32, b.crc) :: b.fields) := rfl

theorem Bill.apart (b : Bill) : Apart 0 256 ((0, 32, b.crc) :: b.fields) := by simp [Bill.fields, Apart]

theorem Bill.pack_crc (b : Bill) : ∃ k, b.pack = b.crc % 2 ^ 32 + 2 ^ 32 * k ∧ ({ b with crc := 0 } : Bill).pack = 2 ^ 32 * k := by
  obtain ⟨k, hk⟩ := b.apart.2.dvd
  refine ⟨k, ?_, ?_⟩
  · rw [Bill.pack_eq, packF_cons, hk, Nat.pow_zero, Nat.mul_one]
  · rw [Bill.pack_eq, packF_cons, Nat.zero_mod, Nat.zero_mul, Nat.zero_add]
    exact hk

theorem Bill.bits_pack {p n v : Nat} (b : Bill) (hmem : (p, n, v) ∈ b.fields) : bits b.pack p n = v % 2 ^ n := by
  rw [Bill.pack_eq]
  exact bits_packF b.apart (List.mem_cons_of_mem _ hmem)

theorem Bill.bits_pack_crc (b : Bill) : bits b.pack 0 32 = b.crc % 2 ^ 32 := by
  rw [Bill.pack_eq]
  exact bits_packF b.apart List.mem_cons_self

theorem Bill.seal_crc (b : Bill) : (Bill.seal b).crc = billCrc ({ b with crc := 0 } : Bill).pack := rfl

theorem Bill.seal_crc_lt (b : Bill) : (Bill.seal b).crc < 2 ^ 32 := by
  rw [Bill.seal_crc, billCrc]
  exact crc32c_lt _

theorem Bill.crcOk_seal (b : Bill) : billCrcOk (Bill.seal b).pack = true := by
  obtain ⟨k, hpack, hzero⟩ := (Bill.seal b).pack_crc
  have hcrc : (Bill.seal b).crc = billCrc (2 ^ 32 * k) := by
    rw [← hzero, Bill.seal_crc, Bill.seal]
  rw [billCrcOk, Bill.bits_pack_crc, hpack, billCrc_add_low (Nat.mod_lt _ (by decide)), ← hcrc, Nat.mod_eq_of_lt b.seal_crc_lt]
  exact beq_self_eq_true _

theorem Bill.read_pack (b : Bill) : Bill.read b.pack = {
    crc := b.crc % 2 ^ 32, ret := b.ret % 2 ^ 32, rowAddr := b.rowAddr % 2 ^ 52, replica := b.replica % 2 ^ 4
    dst := b.dst % 2 ^ 7, flags := b.flags % 2 ^ 8, weight := b.weight % 2 ^ 16, rank := b.rank % 2 ^ 4
    expert := b.expert % 2 ^ 16, layer := b.layer % 2 ^ 9, seq := b.seq % 2 ^ 17, slot := b.slot % 2 ^ 18
    src := b.src % 2 ^ 7, ctx := b.ctx % 2 ^ 4, gen := b.gen % 2 ^ 8, epoch := b.epoch % 2 ^ 16 } := by
  rw [Bill.read]
  congr 1
  case e_crc => exact b.bits_pack_crc
  all_goals exact b.bits_pack (by simp [Bill.fields])

theorem Bill.read_seal (b : Bill) : Bill.read (Bill.seal b).pack = { b with
      crc := (Bill.seal b).crc, ret := b.ret % 2 ^ 32, rowAddr := b.rowAddr % 2 ^ 52, replica := b.replica % 2 ^ 4
      dst := b.dst % 2 ^ 7, flags := b.flags % 2 ^ 8, weight := b.weight % 2 ^ 16, rank := b.rank % 2 ^ 4
      expert := b.expert % 2 ^ 16, layer := b.layer % 2 ^ 9, seq := b.seq % 2 ^ 17, slot := b.slot % 2 ^ 18
      src := b.src % 2 ^ 7, ctx := b.ctx % 2 ^ 4, gen := b.gen % 2 ^ 8, epoch := b.epoch % 2 ^ 16 } := by
  obtain ⟨c, hseal⟩ : ∃ c, Bill.seal b = { b with crc := c } := ⟨_, rfl⟩
  have hlt := b.seal_crc_lt
  rw [hseal] at hlt ⊢
  rw [Bill.read_pack, Nat.mod_eq_of_lt hlt]

theorem noteCrcOk_noteHeader (epoch ctx src layer : Nat) (b r l f : Bool) (sub rows n fmt gen : Nat) :
    noteCrcOk (noteHeader epoch ctx src layer b r l f sub rows n fmt gen) = true := by
  unfold noteHeader
  extract_lets x
  have happart : Apart 0 224 [(0, 16, epoch), (16, 4, ctx), (20, 7, src), (27, 9, layer), (36, 1, b2n b), (37, 1, b2n r),
    (38, 1, b2n l), (39, 1, b2n f), (40, 17, sub), (64, 18, rows), (82, 18, n), (100, 5, fmt), (128, 32, gen)] := by simp [Apart]
  have hx : x < 2 ^ 224 := (Nat.lt_add_of_pos_right (by decide)).trans_le happart.lt
  have hcrc := crc32c_lt ((toLE 32 x).take 28)
  have hfield := bits_of_sum (h := 0) hx hcrc
  rw [Nat.zero_mul, Nat.add_zero] at hfield
  have hbytes : (toLE 32 (x + Num.crc32c ((toLE 32 x).take 28) * 2 ^ 224)).take 28 = (toLE 32 x).take 28 := by
    rw [toLE_take 28 4, toLE_take 28 4]
    exact toLE_add_high 28 x _
  rw [noteCrcOk, hbytes, hfield]
  exact beq_self_eq_true _

/-- Settles O47. -/
theorem sealedWaybills : Obligations.SealedWaybills := by
  unfold Obligations.SealedWaybills
  exact ⟨fun b => ⟨b.crcOk_seal, b.read_seal⟩, noteCrcOk_noteHeader⟩

end Machine
end Sys2Proof
end

section
/-! PROOFS. Slewing, timestamp exchanges and holdover of the Timebase (14 R303 to R307). -/

namespace Sys2Proof
namespace Machine

theorem timebaseSlew_moves {s : State} (hp : s.powered = true) (hslew : s.tb.slew ≠ 0) (hlast : s.tb.lastSlew + 2000 ≤ s.now) :
    ∃ t : State, exec .timebaseSlew s = .next t ∧ t.tb.count = (s.now + if 0 < s.tb.slew then 2 else 0) % 2 ^ 64 ∧
      t.tb.slew = (if 0 < s.tb.slew then s.tb.slew - 1 else s.tb.slew + 1) ∧ t.tb.lastSlew = t.now ∧ t.mem = s.mem ∧
      t.ctxs = s.ctxs ∧ t.host = s.host := by
  have hmoves : timebaseSlew s = (let up := decide (0 < s.tb.slew)
      let t := s.tickBy (if up then 2 else 0)
      { t with tb := { t.tb with slew := if up then s.tb.slew - 1 else s.tb.slew + 1, lastSlew := t.now } }) :=
    if_neg (by simp [hp, hslew, hlast])
  refine ⟨_, congrArg Host.Outcome.next hmoves, ?_⟩
  obtain ⟨parts, hlt, flt, ht⟩ := s.tickBy_eq (if 0 < s.tb.slew then 2 else 0)
  simp only [decide_eq_true_eq, ht]
  exact ⟨rfl, trivial, rfl, trivial, trivial, trivial⟩

theorem timestampReceive_completes {p : Nat} {x : Timestamp} {s : State} (hp : p < 128) (hup : (s.port p).up = true)
    (hmaster : s.tb.master ≠ s.board.pkgId) (htrained : s.boot.fabricDone = true) (hport : s.tb.port = p) (hecho : x.tEchoSend ≠ 0)
    (hloaded : s.tb.loaded = true) :
    ∃ t : State, exec (.timestampReceive p x) s = .next t ∧ t.tb.count = s.tb.count ∧ t.tb.bound = x.bound + 4 ∧
      t.tb.exchanges = s.tb.exchanges + 1 ∧ t.tb.lastExchange = s.now ∧
      t.tb.offsets = ((2 * ((s.now : Int) - x.tSend) - (((s.now : Int) - x.tEchoSend) - ((x.tSend : Int) - x.tEchoRecv))) ::
        s.tb.offsets).take 16 ∧
      t.tb.slew = - meanOffset t.tb.offsets ∧ (x.bound + 4 ≤ 8 → t.tb.st = .aligned) ∧ t.mem = s.mem ∧ t.ctxs = s.ctxs := by
  have hreceive : timestampReceive p x s =
      State.exchange { s with tb := { s.tb with echo := s.tb.echo.put p (x.tSend, s.now, x.hops) } } x :=
    (if_neg (by simp [hup, hp])).trans (if_pos ⟨htrained, hmaster, hport.symm, hecho⟩)
  refine ⟨_, congrArg Host.Outcome.next hreceive, ?_⟩
  unfold State.exchange
  simp only [hloaded, Bool.not_true, Bool.false_and, Bool.false_eq_true, if_false, Bool.true_or, Bool.true_and, if_true]
  obtain ⟨ready, stage, hready, -⟩ := State.checkReady_eq (State.bumpTb _ .timeExchanges 1)
  rw [hready]
  refine ⟨rfl, rfl, rfl, rfl, rfl, rfl, fun hb => ?_, rfl, rfl⟩
  exact if_pos (decide_eq_true hb)

/-- Settles O25. -/
theorem timebaseCommands : Obligations.TimebaseCommands := by
  unfold Obligations.TimebaseCommands
  refine ⟨fun _ _ _ _ htakes hspells hadmits => time_query htakes hspells hadmits,
    fun _ _ _ _ _ _ htakes hspells hadmits hmode hfit => det_mode htakes hspells hadmits hmode hfit,
    fun _ _ _ _ htakes hspells hadmits => det_query htakes hspells hadmits,
    fun s hp hslew hlast => timebaseSlew_moves hp hslew hlast, fun s hearly => ?_, fun p s hp hup hlast => ?_,
    fun p x s hp hup hmaster => ?_,
    fun p x s hp hup hmaster htrained hport hecho hloaded =>
      timestampReceive_completes hp hup hmaster htrained hport hecho hloaded,
    fun s hst hmaster hlast => ?_, fun s hmaster => ?_, fun s hst hlog hheld => ?_⟩
  · exact congrArg Host.Outcome.next (if_pos (.inr (.inl hearly)))
  · exact congrArg Host.Outcome.next (if_neg (by simp [hup, hp, hlast]))
  · exact congrArg Host.Outcome.next ((if_neg (by simp [hup, hp])).trans (if_neg fun h => h.2.1 hmaster))
  · exact congrArg Host.Outcome.next (if_pos ⟨hst, hmaster, hlast⟩)
  · exact congrArg Host.Outcome.next (if_neg fun h => h.2.1 hmaster)
  · exact ⟨_, congrArg Host.Outcome.next (if_pos ⟨hst, by simp [hlog], hheld⟩), _, rfl, rfl, rfl, rfl, rfl⟩

end Machine
end Sys2Proof
end

section
/-! PROOFS. Tally Posts (11 R246 to R249): what an arrival is counted as, and what leaves ARMED. -/

namespace Sys2Proof
namespace Machine

section
variable {s : State} {k pkg v : Nat} {ph : Option Nat}

/-- A post that left ARMED for a state: nothing waits on it. -/
def Post.leave (n : Nat) (p : Post) : Post := { p with st := n, waiters := [] }

/-- Waking the waiters of a post changes the post and the strings that waited. -/
theorem State.postWake_eq (s : State) (k n : Nat) : ∃ ctxs,
    s.postWake k n = { s.onPost k (Post.leave n) with ctxs := ctxs } := by
  unfold State.postWake
  refine List.foldlRecOn (motive := fun u : State => ∃ ctxs, u = { s.onPost k (Post.leave n) with ctxs := ctxs }) _ _ ⟨s.ctxs, rfl⟩ ?_
  rintro u ⟨ctxs, rfl⟩ w -
  exact ⟨_, rfl⟩

/-! ### What an arrival is counted as (R247, R249) -/

theorem State.arrive_stale (hsome : ph ≠ none) (hph : ph ≠ some (s.post k).phase) :
    s.arrive k pkg v ph = (s.bumpCtx (s.post k).owner .tallyStale 1, 3) :=
  if_pos ⟨Option.isSome_iff_ne_none.mpr hsome, hph⟩

/-- An arrival for any phase or for the post's own. -/
theorem phase_passes (hph : ph = none ∨ ph = some (s.post k).phase) : ¬ (ph.isSome = true ∧ ph ≠ some (s.post k).phase) := by
  rcases hph with rfl | rfl <;> simp

theorem State.arrive_refused (hph : ph = none ∨ ph = some (s.post k).phase)
    (h : (s.post k).st = 0 ∨ (pkg ≠ s.board.pkgId ∧ (s.post k).remoteOk = false)) :
    s.arrive k pkg v ph = (s.bumpCtx (s.post k).owner .tallyRefused 1, 4) :=
  (if_neg (phase_passes hph)).trans (if_pos (by simpa using h))

/-- The post takes arrivals of a package. -/
def State.open (s : State) (k pkg : Nat) : Prop := (s.post k).st ≠ 0 ∧ (pkg = s.board.pkgId ∨ (s.post k).remoteOk = true)

theorem State.open.not_refused (h : s.open k pkg) : ¬ ((s.post k).st = 0 ∨ (pkg ≠ s.board.pkgId ∧ (!(s.post k).remoteOk) = true)) := by
  obtain ⟨hst, hpkg⟩ := h
  rintro (h0 | ⟨hne, hremote⟩)
  · exact hst h0
  · rcases hpkg with rfl | hok
    · exact hne rfl
    · simp [hok] at hremote

/-- A post after the arrival of a value that it takes. -/
theorem State.arrive_taken (hph : ph = none ∨ ph = some (s.post k).phase) (hopen : s.open k pkg) (hst : (s.post k).st = 1)
    (hnow : s.now ≤ (s.post k).deadline) : s.arrive k pkg v ph =
      (if ((s.post k).fold v).arrived = (s.post k).target
        then ((s.onPost k (fun q => q.fold v)).bumpCtx (s.post k).ctx .tallyArrivals 1).postWake k 2
        else (s.onPost k (fun q => q.fold v)).bumpCtx (s.post k).ctx .tallyArrivals 1, 0) := by
  have hpost : (((s.onPost k (fun q => q.fold v)).bumpCtx (s.post k).ctx .tallyArrivals 1).post k) = (s.post k).fold v :=
    (State.post_onPost s k k (fun q => q.fold v)).trans (if_pos rfl)
  refine ((if_neg (phase_passes hph)).trans ((if_neg hopen.not_refused).trans (if_pos ⟨hst, hnow⟩))).trans ?_
  simp only [hpost]

theorem State.arrive_surplus (hph : ph = none ∨ ph = some (s.post k).phase) (hopen : s.open k pkg) (hst : (s.post k).st = 2) :
    (s.arrive k pkg v ph).2 = 1 := by
  rw [State.arrive]
  dsimp only
  rw [if_neg (phase_passes hph), if_neg hopen.not_refused, if_neg (by simp [hst]), if_pos hst]

theorem State.arrive_late (hph : ph = none ∨ ph = some (s.post k).phase) (hopen : s.open k pkg) (hst : (s.post k).st = 3) :
    (s.arrive k pkg v ph).2 = 2 ∧
      ((s.post k).lateMode = false → s.arrive k pkg v ph = (s.bumpCtx (s.post k).ctx .tallyLate 1, 2)) := by
  rw [State.arrive]
  dsimp only
  rw [if_neg (phase_passes hph), if_neg hopen.not_refused, if_neg (by simp [hst]), if_neg (by simp [hst])]
  refine ⟨?_, fun hmode => if_pos (by simp [hmode])⟩
  split
  · rfl
  · split <;> rfl

theorem State.arrive_code_le (s : State) (k pkg v : Nat) (ph : Option Nat) : (s.arrive k pkg v ph).2 ≤ 4 := by
  rw [State.arrive]
  dsimp only
  split_ifs <;> simp

/-! ### The state after it -/

theorem exec_tallyArrival {r : State × Nat} (h : s.arrive k pkg v ph = r) : exec (.tallyArrival k pkg v ph) s = .next r.1 :=
  congrArg (fun r : State × Nat => Host.Outcome.next r.1) h

theorem tally_taken (hph : ph = none ∨ ph = some (s.post k).phase) (hst : (s.post k).st = 1)
    (hnow : s.now ≤ (s.post k).deadline) (hpkg : pkg = s.board.pkgId ∨ (s.post k).remoteOk = true)
    (hroom : (s.post k).arrived + 1 < 2 ^ 32) :
    ∃ t : State, exec (.tallyArrival k pkg v ph) s = .next t ∧ (t.post k).arrived = (s.post k).arrived + 1 ∧
      (t.post k).valueOr = (s.post k).valueOr ||| v % 2 ^ 32 ∧ (t.post k).valueMax = Nat.max (s.post k).valueMax (v % 2 ^ 32) ∧
      ((s.post k).arrived + 1 = (s.post k).target → (t.post k).st = 2 ∧ (t.post k).waiters = []) ∧
      ((s.post k).arrived + 1 ≠ (s.post k).target → (t.post k).st = 1 ∧ (t.post k).waiters = (s.post k).waiters) ∧
      (∀ j, j ≠ k → t.post j = s.post j) ∧ t.mem = s.mem ∧ t.ws = s.ws := by
  have hopen : s.open k pkg := ⟨by simp [hst], hpkg⟩
  have harrived : ((s.post k).fold v).arrived = (s.post k).arrived + 1 := Nat.min_eq_right (by omega)
  refine ⟨_, exec_tallyArrival (State.arrive_taken hph hopen hst hnow), ?_⟩
  rw [harrived]
  by_cases hlast : (s.post k).arrived + 1 = (s.post k).target
  · obtain ⟨ctxs, hwake⟩ := ((s.onPost k (fun q => q.fold v)).bumpCtx (s.post k).ctx .tallyArrivals 1).postWake_eq k 2
    simp only [if_pos hlast, hwake]
    have hpost (j : Nat) := State.post_onPost ((s.onPost k (fun q => q.fold v)).bumpCtx (s.post k).ctx .tallyArrivals 1) k j (Post.leave 2)
    have hfold (j : Nat) := State.post_onPost s k j (fun q => q.fold v)
    have hk := (hpost k).trans (if_pos rfl)
    rw [show (((s.onPost k (fun q => q.fold v)).bumpCtx (s.post k).ctx .tallyArrivals 1).post k) = (s.post k).fold v from
      (hfold k).trans (if_pos rfl)] at hk
    refine ⟨(congrArg Post.arrived hk).trans harrived, congrArg Post.valueOr hk, congrArg Post.valueMax hk,
      fun _ => ⟨congrArg Post.st hk, congrArg Post.waiters hk⟩, fun h => absurd hlast h, fun j hj => ?_, rfl, rfl⟩
    exact ((hpost j).trans (if_neg (Ne.symm hj))).trans ((hfold j).trans (if_neg (Ne.symm hj)))
  · simp only [if_neg hlast]
    have hfold (j : Nat) := State.post_onPost s k j (fun q => q.fold v)
    have hk := (hfold k).trans (if_pos rfl)
    exact ⟨(congrArg Post.arrived hk).trans harrived, congrArg Post.valueOr hk, congrArg Post.valueMax hk, fun h => absurd h hlast,
      fun _ => ⟨(congrArg Post.st hk).trans hst, (congrArg Post.waiters hk :)⟩, fun j hj => (hfold j).trans (if_neg (Ne.symm hj)), rfl, rfl⟩

theorem tally_deadline (hst : (s.post k).st = 1) (hshort : (s.post k).arrived < (s.post k).target) (hpast : (s.post k).deadline < s.now)
    (hne : (s.post k).deadline ≠ noDeadline) :
    ∃ t : State, exec (.tallyDeadline k) s = .next t ∧ t.post k = { s.post k with st := 3, waiters := [] } ∧
      (∀ j, j ≠ k → t.post j = s.post j) ∧ t.mem = s.mem ∧ t.ws = s.ws := by
  obtain ⟨ctxs, hwake⟩ := s.postWake_eq k 3
  have hmissed : tallyDeadline k s = (s.postWake k 3).bumpCtx (s.post k).ctx .tallyTimeouts 1 := if_pos ⟨hst, hshort, hpast, hne⟩
  refine ⟨_, congrArg Host.Outcome.next hmissed, ?_⟩
  rw [hwake]
  exact ⟨(State.post_onPost s k k (Post.leave 3)).trans (if_pos rfl),
    fun j hj => (State.post_onPost s k j (Post.leave 3)).trans (if_neg (Ne.symm hj)), rfl, rfl⟩

theorem tally_lateDelivery {r : Nat} {rest : List Nat} (hlate : (s.post k).late = r :: rest) (hst : (s.wst (s.post k).lateWs).st = 1)
    (hroom : 0 < (s.wst (s.post k).lateWs).room) :
    ∃ t : State, exec (.tallyLateDelivery k) s = .next t ∧ t.post k = { s.post k with late := rest } ∧
      (∀ j, j ≠ k → t.post j = s.post j) ∧
      (t.wst (s.post k).lateWs).words = (s.wst (s.post k).lateWs).words ++
        [(r % 2 ^ (8 * (s.wst (s.post k).lateWs).wordBytes), false)] ∧ t.mem = s.mem := by
  have hdeliver : tallyLateDelivery k s = (s.wsPush (s.post k).lateWs [r]).onPost k (fun q => { q with late := rest }) := by
    rw [tallyLateDelivery, hlate]
    exact if_pos ⟨hst, hroom⟩
  refine ⟨_, congrArg Host.Outcome.next hdeliver, (State.post_onPost _ k k _).trans (if_pos rfl),
    fun j hj => (State.post_onPost _ k j _).trans (if_neg (Ne.symm hj)), ?_, rfl⟩
  exact congrArg Ws.words (s.wst_wsPush_one (s.post k).lateWs r)

end

/-! ### The messages -/

section
variable {s : State} {w c k : Nat} {m : Msg}

theorem tally_config {lateWs flags target deadline : Nat} (htakes : Takes s w 0x0640 m)
    (hspells : Spells [.u8, .u16, .u16, .u32, .u32, .u64] m [c, k, lateWs, flags, target, deadline]) (hadmits : Admits s m c)
    (hflags : flags < 4) (hhas : (s.ctx c).hasPost k = true) (hws : s.emitWsBad c lateWs = false) (hstamp : m.stamp < deadline)
    (hst : (s.post k).st ≠ 1) (hwaiters : (s.post k).waiters = []) :
    exec (.pmpTallyConfig w) s = .next (answered (s.onPost k (fun q => { q with
      st := if target = 0 then 2 else 1, ctx := c, lateMode := flags.testBit 0, remoteOk := flags.testBit 1
      lateWs := lateWs % 4096, target := target, arrived := 0, phase := ((s.post k).phase + 1) % 32768, deadline := deadline
      valueOr := 0, valueMax := 0 })) m 0x0640 [(.u16, ((s.post k).phase + 1) % 32768)]) := by
  change Host.Outcome.next (commitMsg w 0x0640 (withCtx _ tallyConfig) s) = _
  rw [commitCtx_outcome _ htakes hspells hadmits, tallyConfig]
  dsimp only
  rw [checked_pass _ _ (by simp [flagsBad, hflags, hhas, hws, hstamp, hst, hwaiters])]
  rfl

theorem tally_arrive {phase flags v : Nat} (htakes : Takes s w 0x0641 m)
    (hspells : Spells [.u8, .u16, .u16, .u32, .u32] m [c, k, phase, flags, v]) (hadmits : Admits s m c) (hflags : flags < 2)
    (hhas : (s.ctx c).hasPost k = true) :
    ∃ (t : State) (o : Nat), exec (.pmpTallyArrive w) s = .next (answered t m 0x0641 [(.u8, o)]) ∧
      exec (.tallyArrival k s.board.pkgId v (if flags = 1 then some phase else none)) s = .next t ∧ o ≤ 4 ∧
      (flags = 1 → phase ≠ (s.post k).phase → o = 3) ∧
      (flags = 0 → (s.post k).st = 0 → o = 4) ∧
      (flags = 0 → (s.post k).st = 1 → s.now ≤ (s.post k).deadline → o = 0) ∧
      (flags = 0 → (s.post k).st = 2 → o = 1) ∧
      (flags = 0 → (s.post k).st = 3 → o = 2) := by
  have hbit : (if bit flags 0 then some phase else none) = if flags = 1 then some phase else none := by
    rcases (by omega : flags = 0 ∨ flags = 1) with rfl | rfl <;> rfl
  refine ⟨_, _, ?_, rfl, s.arrive_code_le k s.board.pkgId v (if flags = 1 then some phase else none),
    fun hf hph => ?_, fun hf hst => ?_, fun hf hst hnow => ?_, fun hf hst => ?_, fun hf hst => ?_⟩
  · change Host.Outcome.next (commitMsg w 0x0641 (withCtx _ tallyArriveMsg) s) = _
    rw [commitCtx_outcome _ htakes hspells hadmits, tallyArriveMsg]
    dsimp only
    rw [checked_pass _ _ (by simp [flagsBad, hhas]; omega), hbit]
    rfl
  · rw [if_pos hf, State.arrive_stale (by simp) (by simpa using hph)]
  all_goals subst hf
  · exact congrArg Prod.snd (State.arrive_refused (.inl rfl) (.inl hst))
  · exact congrArg Prod.snd (State.arrive_taken (.inl rfl) ⟨by simp [hst], .inl rfl⟩ hst hnow)
  · exact State.arrive_surplus (.inl rfl) ⟨by simp [hst], .inl rfl⟩ hst
  · exact (State.arrive_late (.inl rfl) ⟨by simp [hst], .inl rfl⟩ hst).1

theorem tally_query (htakes : Takes s w 0x0642 m) (hspells : Spells [.u8, .u16] m [c, k]) (hadmits : Admits s m c)
    (hhas : (s.ctx c).hasPost k = true) :
    exec (.pmpTallyQuery w) s = .next (answered s m 0x0642 [(.r 256, (s.post k).record)]) := by
  change Host.Outcome.next (commitMsg w 0x0642 (withCtx _ tallyQuery) s) = _
  rw [commitCtx_outcome _ htakes hspells hadmits, tallyQuery, checked_pass _ _ (by simp [hhas])]
  rfl

end

/-- Settles O22. -/
theorem tallyPosts : Obligations.TallyPosts := by
  unfold Obligations.TallyPosts
  exact ⟨fun w c k lateWs flags target deadline m s htakes hspells hadmits hflags hhas hws hstamp hst hwaiters =>
      tally_config htakes hspells hadmits hflags hhas hws hstamp hst hwaiters,
    fun w c k phase flags v m s htakes hspells hadmits hflags hhas => tally_arrive htakes hspells hadmits hflags hhas,
    fun w c k m s htakes hspells hadmits hhas => tally_query htakes hspells hadmits hhas,
    fun k pkg v ph s hph hst hnow hpkg hroom => tally_taken hph hst hnow hpkg hroom,
    fun k pkg v ph s hsome hph => exec_tallyArrival (State.arrive_stale hsome hph),
    fun k pkg v s h => exec_tallyArrival (State.arrive_refused (.inl rfl) h),
    fun k v s hst hmode => exec_tallyArrival
      ((State.arrive_late (.inl rfl) ⟨by simp [hst], .inl rfl⟩ hst).2 hmode),
    fun k s hst hshort hpast hne => tally_deadline hst hshort hpast hne,
    fun k s hnow => congrArg Host.Outcome.next (if_neg fun h => Nat.not_lt.mpr hnow h.2.2.1),
    fun k r rest s hlate hst hroom => tally_lateDelivery hlate hst hroom⟩

end Machine
end Sys2Proof
end

section
/-! PROOFS. The Waystation messages and the move between the parts of a queue (12 R264 to R274). -/

namespace Sys2Proof
namespace Machine

/-- The common checks of an admitted message pass. -/
theorem Admits.ctxChecks_pass {s : State} {m : Msg} {c : Nat} (h : Admits s m c) : ∀ x ∈ s.ctxChecks m c, x.1 = false := by
  obtain ⟨hbound, hgiven, howned, hstays, hserved⟩ := h
  simp [State.ctxChecks, hbound, hgiven, howned, hstays, hserved]

/-! ### Numbers in a payload -/

theorem ofLE_lt (bs : List Byte) : ofLE bs < 256 ^ bs.length := by
  induction bs with
  | nil => exact Nat.one_pos
  | cons b r ih =>
    have hb := b.isLt
    rw [ofLE, List.length_cons, Nat.pow_succ]
    omega

theorem numAt_lt (bs : List Byte) (o n : Nat) : numAt bs o n < 2 ^ (8 * n) := by
  have h := ofLE_lt (takeBytes bs o n)
  have hlen : (takeBytes bs o n).length = n := by simp [takeBytes]
  rw [hlen] at h
  rwa [Nat.pow_mul]

/-! ### One queue -/

@[simp] theorem Ws.push_width (y : Ws) (v now : Nat) : (y.push v now).width = y.width := rfl

@[simp] theorem Ws.push_readPtr (y : Ws) (v now : Nat) : (y.push v now).readPtr = y.readPtr := rfl

/-- Words pushed one after another. -/
theorem Ws.foldl_push (y : Ws) (vs : List Nat) (now : Nat) :
    (vs.foldl (fun r v => r.push v now) y).words = y.words ++ vs.map (fun v => (v % 2 ^ (8 * y.wordBytes), false)) ∧
      (vs.foldl (fun r v => r.push v now) y).readPtr = y.readPtr := by
  induction vs generalizing y with
  | nil => simp
  | cons v r ih =>
    obtain ⟨hwords, hread⟩ := ih (y.push v now)
    refine ⟨?_, hread⟩
    rw [List.foldl_cons, hwords, Ws.push_words, List.map_cons, List.append_assoc]
    rfl

/-- R272: the first word of a queue without a mark and without words read but not freed. -/
theorem Ws.pop_first {y : Ws} {v : Nat × Bool} {r : List (Nat × Bool)} (hwords : y.words = v :: r) (hmark : y.markHeld = false)
    (hread : y.readPtr = y.releasePtr) (hlt : y.readPtr < 2 ^ 32) :
    y.unread = v :: r ∧ (y.pop v).words = r ∧ (y.pop v).readPtr = (y.readPtr + 1) % 2 ^ 32 ∧
      (y.pop v).releasePtr = (y.readPtr + 1) % 2 ^ 32 := by
  have hnone : (y.readPtr + 2 ^ 32 - y.releasePtr) % 2 ^ 32 = 0 := by omega
  have hone : ((y.readPtr + 1) % 2 ^ 32 + 2 ^ 32 - y.releasePtr) % 2 ^ 32 = 1 := by omega
  refine ⟨by rw [Ws.unread, hnone, hwords]; rfl, ?_, Ws.pop_readPtr y v, (Ws.pop_releasePtr_of_unmarked v hmark).trans (Ws.pop_readPtr y v)⟩
  unfold Ws.pop
  simp only [hmark, Bool.false_eq_true, if_false, Ws.freeTo, Ws.level, hone, hwords, List.drop_succ_cons, List.drop_zero]

/-! ### Pops -/

/-- As `State.OnlyWs`, and the sequences stay. -/
structure State.OnlyQueue (s : State) (q : Nat) (t : State) : Prop where
  only : s.OnlyWs q t
  seqs : t.seqs = s.seqs

namespace State.OnlyQueue

variable {s t u : State} {q : Nat}

theorem refl (s : State) (q : Nat) : s.OnlyQueue q s := ⟨.refl s q, rfl⟩

theorem trans (h : s.OnlyQueue q t) (h' : t.OnlyQueue q u) : s.OnlyQueue q u where
  only := ⟨h'.only.mem.trans h.only.mem, h'.only.posts.trans h.only.posts, fun c => (h'.only.lanes c).trans (h.only.lanes c),
    fun p hp => (h'.only.other p hp).trans (h.only.other p hp)⟩
  seqs := h'.seqs.trans h.seqs

theorem onWs (h : s.OnlyQueue q t) (f : Ws → Ws) : s.OnlyQueue q (t.onWs q f) := ⟨h.only.onWs f, h.seqs⟩

theorem bumpCtx (h : s.OnlyQueue q t) (d : Nat) (k : Ctr) (n : Nat) : s.OnlyQueue q (t.bumpCtx d k n) :=
  ⟨h.only.bumpCtx d k n, h.seqs⟩

theorem wsPush (h : s.OnlyQueue q t) (vs : List Nat) : s.OnlyQueue q (t.wsPush q vs) := ⟨h.only.wsPush vs, h.seqs⟩

theorem wsRewind (h : s.OnlyQueue q t) : s.OnlyQueue q (t.wsRewind q) := ⟨h.only.wsRewind, h.seqs⟩

end State.OnlyQueue

/-- A read of a queue finds nothing, or leaves the sequences.  `State.wsPop` is unfolded as in `State.wsPop_cases`. -/
theorem State.wsPop_seqs (s : State) (q : Nat) : s.wsPop q = (s, none) ∨ ∃ v t, s.wsPop q = (t, some v) ∧ t.seqs = s.seqs := by
  generalize hdef : State.wsPop = f
  delta State.wsPop at hdef
  subst hdef
  beta_reduce
  extract_lets y
  split
  · exact .inl rfl
  · refine .inr ⟨_, _, rfl, ?_⟩
    split
    · rw [State.raiseRated_frame]
      rfl
    · rfl

theorem State.wsPop_onlyQueue (s : State) (q : Nat) : s.OnlyQueue q (s.wsPop q).1 := by
  rcases s.wsPop_cases q with ⟨-, hpop⟩ | ⟨v, r, t, -, hpop, honly, -⟩
  · rw [hpop]
    exact .refl s q
  · have hseqs : t.seqs = s.seqs := by
      rcases s.wsPop_seqs q with h | ⟨v', t', h, hseqs⟩
      · rw [hpop] at h
        cases h
      · rw [hpop] at h
        cases h
        exact hseqs
    rw [hpop]
    exact ⟨honly, hseqs⟩

theorem readsOf_onlyQueue {read : State → Nat → State × Option (Nat × Bool)} {q : Nat}
    (hread : ∀ s, State.OnlyQueue s q (read s q).1) (n : Nat) (s : State) : s.OnlyQueue q (readsOf read n s q).1 := by
  induction n generalizing s with
  | zero => exact .refl s q
  | succ n ih =>
    have hs := hread s
    rw [readsOf]
    split
    · next h =>
      rw [h] at hs
      exact hs
    · next h =>
      rw [h] at hs
      exact hs.trans (ih _)

theorem State.wsPopN_onlyQueue (n : Nat) (s : State) (q : Nat) : s.OnlyQueue q (State.wsPopN n s q).1 := by
  rw [State.wsPopN_eq_readsOf]
  exact readsOf_onlyQueue (fun s => s.wsPop_onlyQueue q) n s

theorem readsOf_one {read : State → Nat → State × Option (Nat × Bool)} {s t : State} {q : Nat} {v : Nat × Bool}
    (h : read s q = (t, some v)) : readsOf read 1 s q = (t, [v]) := by
  rw [readsOf, h]
  rfl

theorem State.wsPopN_one {s t : State} {q : Nat} {v : Nat × Bool} (h : s.wsPop q = (t, some v)) :
    State.wsPopN 1 s q = (t, [v]) := by
  rw [State.wsPopN_eq_readsOf]
  exact readsOf_one h

/-! ### The messages -/

section
variable {s : State} {w c q : Nat} {m : Msg}

theorem ws_create {width consumer depth flags h a : Nat} {u : State} (htakes : Takes s w 0x0320 m)
    (hspells : Spells [.u8, .u8, .u8, .u8, .u32] m [c, width, consumer, depth, flags]) (hadmits : Admits s m c) (hflags : flags < 4)
    (hwidth : width ≤ 4) (hcons : consumer ≤ 2) (hlo : 7 ≤ depth) (hhi : depth ≤ 24)
    (hfree : ∃ q, (s.ctx c).hasWs q = true ∧ (s.wst q).st = 0)
    (hmiddle : (depth = 7 ∧ h = 0 ∧ u = s.draw.2) ∨
      (7 < depth ∧ s.draw.2.khanAlloc c 1 0 0x9 ((2 ^ depth - 128) * (4 * 2 ^ width)) = (some (h, a), u))) :
    ∃ q, (s.ctx c).hasWs q = true ∧ (s.wst q).st = 0 ∧
      exec (.pmpWsCreate w) s = .next (answered (u.onWs q (fun _ => { Ws.fresh with
        st := 1, ctx := c, width := width, consumer := consumer, depthLog2 := depth, middle := h
        hostPush := flags.testBit 0, lanePush := flags.testBit 1 })) m 0x0320 [(.u16, q)]) := by
  let free := ((List.range (s.ctx c).share.wsCount).map (· + (s.ctx c).share.wsFirst)).filter (fun w => (s.wst w).st == 0)
  have hmem (v : Nat) : v ∈ free ↔ (s.ctx c).hasWs v = true ∧ (s.wst v).st = 0 := by
    simp only [free, List.mem_filter, List.mem_map, List.mem_range, Ctx.hasWs, decide_eq_true_eq, beq_iff_eq]
    refine and_congr_left fun _ => ⟨?_, fun hv => ⟨v - (s.ctx c).share.wsFirst, by omega⟩⟩
    rintro ⟨i, hi, rfl⟩
    omega
  obtain ⟨q₀, hq₀⟩ := hfree
  have hpos : 0 < free.length := List.length_pos_of_mem ((hmem q₀).mpr hq₀)
  have hlt : s.draw.1 % free.length < free.length := Nat.mod_lt _ hpos
  obtain ⟨hhas, hst⟩ := (hmem (free.getD (s.draw.1 % free.length) 0)).mp (by
    rw [List.getD_eq_getElem _ _ hlt]
    exact List.getElem_mem hlt)
  refine ⟨_, hhas, hst, ?_⟩
  have hbytes : (if (2 ^ depth - 128) * (4 * 2 ^ width) = 0 then (some (0, 0), s.draw.2)
      else s.draw.2.khanAlloc c 1 0 0x9 ((2 ^ depth - 128) * (4 * 2 ^ width))) =
      (some (h, if depth = 7 then 0 else a), u) := by
    rcases hmiddle with ⟨rfl, rfl, rfl⟩ | ⟨hdeep, halloc⟩
    · simp
    · have hpow : 2 ^ 8 ≤ 2 ^ depth := Nat.pow_le_pow_right (by decide) hdeep
      have hne : (2 ^ depth - 128) * (4 * 2 ^ width) ≠ 0 :=
        Nat.mul_ne_zero (by omega) (Nat.mul_ne_zero (by decide) (Nat.two_pow_pos width).ne')
      rw [if_neg hne, halloc, if_neg (by omega)]
  change Host.Outcome.next (commitMsg w 0x0320 (withCtx _ wsCreate) s) = _
  rw [commitCtx_outcome _ htakes hspells hadmits, wsCreate]
  dsimp only
  rw [checked_pass _ _ (by
    have hne : free ≠ [] := List.ne_nil_of_length_pos hpos
    have hempty : free.isEmpty = false := by simpa using hne
    simp [flagsBad, hflags, hempty, free, hwidth, hcons, hlo, hhi] ), hbytes]
  rfl

theorem State.khanDrop_rest (s : State) (h : Nat) : ∃ ctxs, s.khanDrop h = { s with ctxs := ctxs } := by
  unfold State.khanDrop
  split
  · exact ⟨_, rfl⟩
  · exact ⟨s.ctxs, rfl⟩

theorem ws_destroy (htakes : Takes s w 0x0321 m) (hspells : Spells [.u8, .u16] m [c, q]) (hadmits : Admits s m c)
    (hhas : (s.ctx c).hasWs q = true) (hst : (s.wst q).st = 1) (hnamed : s.wsNamed c q = false) :
    ∃ t : State, exec (.pmpWsDestroy w) s = .next (answered t m 0x0321 []) ∧ t.wst q = Ws.fresh ∧
      (∀ v, v ≠ q → t.wst v = s.wst v) ∧ t.mem = s.mem ∧ t.seqs = s.seqs := by
  obtain ⟨ctxs, hdrop⟩ := s.khanDrop_rest (s.wst q).middle
  refine ⟨(s.khanDrop (s.wst q).middle).onWs q (fun _ => Ws.fresh), ?_, State.wst_onWs_same _ q _, fun v hv => ?_, ?_, ?_⟩
  · change Host.Outcome.next (commitMsg w 0x0321 (withCtx _ wsDestroy) s) = _
    rw [commitCtx_outcome _ htakes hspells hadmits, wsDestroy, checked_pass _ _ (by simp [hhas, hst, hnamed])]
    rfl
  · rw [State.wst_onWs, if_neg (Ne.symm hv), hdrop]
    rfl
  · rw [hdrop]
    rfl
  · rw [hdrop]
    rfl

theorem ws_query (htakes : Takes s w 0x0322 m) (hadmits : Admits s m c) (hhas : (s.ctx c).hasWs q = true) :
    (Spells [.u8, .u16, .u32] m [c, q, 0] → exec (.pmpWsQuery w) s = .next (answered s m 0x0322 [(.r 256, (s.wst q).record)])) ∧
    (Spells [.u8, .u16, .u32] m [c, q, 1] →
      exec (.pmpWsQuery w) s = .next (answered (s.onWs q (fun r => { r with underrun := false, poisonSeen := false })) m 0x0322
        [(.r 256, (s.wst q).record)])) := by
  constructor <;> intro hspells
  all_goals
    change Host.Outcome.next (commitMsg w 0x0322 (withCtx _ wsQuery) s) = _
    rw [commitCtx_outcome _ htakes hspells hadmits, wsQuery, checked_pass _ _ (by simp [flagsBad, hhas])]
    rfl

/-- The state and the response that `PMP_WS_POP` leaves, from the words that were read. -/
def State.popped (s : State) (q count flags : Nat) (r : State × List (Nat × Bool)) : State × List Byte :=
  let t := if bit flags 1 && count != 0 then r.1.onWs q Ws.release else r.1
  (t, writeFields [(.u16, r.2.length), (.u8, b2n ((t.wst q).readPtr == (t.wst q).writePtr)), (.u32, (t.wst q).readPtr),
      (.u32, (t.wst q).writePtr), (.u32, 0)]
    ++ toLE 32 (maskOf ((List.range r.2.length).filter (fun i => (r.2.getD i (0, false)).2)))
    ++ (r.2.map (fun v => toLE (s.wst q).wordBytes v.1)).flatten)

theorem State.popped_onlyQueue {r : State × List (Nat × Bool)} (h : s.OnlyQueue q r.1) (count flags : Nat) :
    s.OnlyQueue q (s.popped q count flags r).1 := by
  unfold State.popped
  dsimp only
  split
  · exact h.onWs _
  · exact h

theorem State.popped_one {t : State} {v : Nat} : s.popped q 1 0 (t, [(v, false)]) =
    (t, writeFields [(.u16, 1), (.u8, b2n ((t.wst q).readPtr == (t.wst q).writePtr)), (.u32, (t.wst q).readPtr),
      (.u32, (t.wst q).writePtr), (.u32, 0)] ++ toLE 32 0 ++ toLE (4 * 2 ^ (s.wst q).width) v) := by
  rw [State.popped, List.map_singleton, List.flatten_singleton]
  rfl

/-- The queue before the words are read: `MARK` marks it. -/
def State.marked (s : State) (q count flags : Nat) : State := if bit flags 0 && count != 0 then s.onWs q Ws.mark else s

theorem wsPopMsg_eq {count flags : Nat} (hhas : (s.ctx c).hasWs q = true) (hflags : flags < 4) (hst : (s.wst q).st ≠ 0)
    (hcons : (s.wst q).consumer = 0) (hcount : count ≤ wsMaxCount (s.wst q).width) {r : State × List (Nat × Bool)}
    (hr : State.wsPopN count (s.marked q count flags) q = r) :
    wsPopMsg c [q, count, flags] m s = .reply (s.popped q count flags r).1 .ok (s.popped q count flags r).2 := by
  rw [wsPopMsg, checked_pass _ _ (by simp [flagsBad, hhas, hflags, hst, hcons, hcount])]
  unfold State.marked at hr
  dsimp only
  rw [hr]
  rfl

theorem ws_pop {count flags : Nat} (htakes : Takes s w 0x0323 m) (hspells : Spells [.u8, .u16, .u16, .u32] m [c, q, count, flags])
    (hadmits : Admits s m c) (hhas : (s.ctx c).hasWs q = true) (hflags : flags < 4) (hst : (s.wst q).st ≠ 0)
    (hcons : (s.wst q).consumer = 0) (hcount : count ≤ wsMaxCount (s.wst q).width) :
    ∃ (t : State) (body : List Byte), exec (.pmpWsPop w) s = .next (t.complete m fwQuarter .ok body) ∧
      (∀ v, v ≠ q → t.wst v = s.wst v) ∧ t.mem = s.mem ∧ t.seqs = s.seqs ∧
      (∀ v r, count = 1 → flags = 0 → (s.wst q).words = (v, false) :: r → (s.wst q).markHeld = false →
        (s.wst q).readPtr = (s.wst q).releasePtr → (s.wst q).readPtr < 2 ^ 32 →
        (t.wst q).words = r ∧ (t.wst q).readPtr = ((s.wst q).readPtr + 1) % 2 ^ 32 ∧
        (t.wst q).releasePtr = ((s.wst q).readPtr + 1) % 2 ^ 32 ∧
        body = writeFields [(.u16, 1), (.u8, b2n ((t.wst q).readPtr == (t.wst q).writePtr)), (.u32, (t.wst q).readPtr),
          (.u32, (t.wst q).writePtr), (.u32, 0)] ++ toLE 32 0 ++ toLE (4 * 2 ^ (s.wst q).width) v) := by
  obtain ⟨r, hr⟩ : ∃ r, State.wsPopN count (s.marked q count flags) q = r := ⟨_, rfl⟩
  have hmarked : s.OnlyQueue q (s.marked q count flags) := by
    unfold State.marked
    split
    · exact (State.OnlyQueue.refl s q).onWs _
    · exact .refl s q
  have honly : s.OnlyQueue q r.1 := hr ▸ hmarked.trans (State.wsPopN_onlyQueue count _ q)
  have hpopped := State.popped_onlyQueue honly count flags
  refine ⟨(s.popped q count flags r).1, (s.popped q count flags r).2, ?_, hpopped.only.other, hpopped.only.mem, hpopped.seqs, ?_⟩
  · change Host.Outcome.next (commitMsg w 0x0323 (withCtx _ wsPopMsg) s) = _
    rw [commitCtx_outcome _ htakes hspells hadmits, wsPopMsg_eq hhas hflags hst hcons hcount hr]
    rfl
  · intro v rest hone hzero hwords hmark hread hlt
    subst hone hzero
    obtain ⟨hunread, hrest, hptr, hrel⟩ := Ws.pop_first hwords hmark hread hlt
    obtain ⟨t, hpop, -, ht⟩ := s.wsPop_of_unread hunread
    have hone : r = (t, [(v, false)]) := by
      rw [← hr]
      exact State.wsPopN_one hpop
    rw [hone, State.popped_one]
    dsimp only
    rw [ht]
    exact ⟨hrest, hptr, hrel, rfl⟩

theorem ws_release (htakes : Takes s w 0x0324 m) (hspells : Spells [.u8, .u16] m [c, q]) (hadmits : Admits s m c)
    (hhas : (s.ctx c).hasWs q = true) (hst : (s.wst q).st ≠ 0) (hcons : (s.wst q).consumer = 0) :
    ∃ t : State, exec (.pmpWsRelease w) s = .next (answered t m 0x0324 [(.u32, (t.wst q).releasePtr)]) ∧
      ((s.wst q).markHeld = true → (t.wst q).markHeld = false ∧ (t.wst q).releasePtr = (s.wst q).readPtr ∧
        (t.wst q).words = (s.wst q).unread) ∧
      ((s.wst q).markHeld = false → t.wst q = s.wst q) ∧ (∀ v, v ≠ q → t.wst v = s.wst v) ∧ t.mem = s.mem ∧ t.seqs = s.seqs := by
  have honly := (State.OnlyQueue.refl s q).onWs Ws.release
  refine ⟨s.onWs q Ws.release, ?_, fun hmark => ?_, fun hmark => ?_, honly.only.other, rfl, rfl⟩
  · change Host.Outcome.next (commitMsg w 0x0324 (withCtx _ wsReleaseMsg) s) = _
    rw [commitCtx_outcome _ htakes hspells hadmits, wsReleaseMsg, checked_pass _ _ (by simp [State.hostWsChecks, hhas, hst, hcons])]
    rfl
  · rw [State.wst_onWs_same, Ws.release_of_marked hmark]
    exact ⟨rfl, rfl, rfl⟩
  · rw [State.wst_onWs_same, Ws.release_of_unmarked hmark]

theorem ws_rewind (htakes : Takes s w 0x0325 m) (hspells : Spells [.u8, .u16] m [c, q]) (hadmits : Admits s m c)
    (hhas : (s.ctx c).hasWs q = true) (hst : (s.wst q).st ≠ 0) (hcons : (s.wst q).consumer = 0) :
    ∃ t : State, exec (.pmpWsRewind w) s = .next (answered t m 0x0325 [(.u32, (t.wst q).readPtr)]) ∧
      ((s.wst q).markHeld = true → t.wst q = { s.wst q with readPtr := (s.wst q).markPtr }) ∧
      ((s.wst q).markHeld = false → t.wst q = s.wst q) ∧ (∀ v, v ≠ q → t.wst v = s.wst v) ∧ t.mem = s.mem ∧ t.seqs = s.seqs := by
  have honly := (State.OnlyQueue.refl s q).wsRewind
  refine ⟨s.wsRewind q, ?_, fun hmark => ?_, fun hmark => ?_, honly.only.other, rfl, rfl⟩
  · change Host.Outcome.next (commitMsg w 0x0325 (withCtx _ wsRewindMsg) s) = _
    rw [commitCtx_outcome _ htakes hspells hadmits, wsRewindMsg, checked_pass _ _ (by simp [State.hostWsChecks, hhas, hst, hcons])]
    rfl
  · rw [State.wst_wsRewind, Ws.rewind_of_marked hmark]
  · rw [State.wst_wsRewind, Ws.rewind_of_unmarked hmark]

theorem ws_push {n : Nat} (htakes : Takes s w 0x0326 m) (hadmits : Admits s m c)
    (hc : numAt m.payload 0 1 = c) (hres : numAt m.payload 1 1 = 0) (hq : numAt m.payload 2 2 = q) (hn : numAt m.payload 4 2 = n)
    (hzero : numAt m.payload 6 42 = 0) (hhas : (s.ctx c).hasWs q = true) (hst : (s.wst q).st ≠ 0) (hpush : (s.wst q).hostPush = true)
    (hmax : n ≤ wsMaxCount (s.wst q).width) (hwhole : m.payload.length = 48 + n * (s.wst q).wordBytes) :
    (n ≤ (s.wst q).room →
      ∃ t : State, exec (.pmpWsPush w) s = .next (answered t m 0x0326 [(.u32, (t.wst q).writePtr)]) ∧
        (t.wst q).words = (s.wst q).words ++ (List.range n).map (fun i =>
          (numAt m.payload (48 + i * (s.wst q).wordBytes) (s.wst q).wordBytes, false)) ∧
        (t.wst q).readPtr = (s.wst q).readPtr ∧ (∀ v, v ≠ q → t.wst v = s.wst v) ∧ t.mem = s.mem ∧ t.seqs = s.seqs) ∧
    ((s.wst q).room < n →
      exec (.pmpWsPush w) s = .next ((s.bumpCtx c .wsFullWaits 1).complete m fwQuarter .busy [])) := by
  let words := (List.range n).map (fun i => numAt m.payload (48 + i * (s.wst q).wordBytes) (s.wst q).wordBytes)
  have hmeaning : wsPushMsg m s = if n ≤ (s.wst q).room then .ok (s.wsPush q words) [(.u32, ((s.wsPush q words).wst q).writePtr)]
      else .no (s.bumpCtx c .wsFullWaits 1) .busy := by
    unfold wsPushMsg
    simp only [hc, hq, hn]
    rw [if_neg (by simp [hres, hzero, hwhole]; omega), checked_pass]
    · intro x hx
      rcases List.mem_append.mp hx with hx | hx
      · exact hadmits.ctxChecks_pass x hx
      · revert hx x
        simp [hhas, hst, hpush, hmax, hwhole]
  have hexec : exec (.pmpWsPush w) s = .next ((wsPushMsg m s).outcome m 0x0326) :=
    congrArg Host.Outcome.next (commitMsg_outcome wsPushMsg htakes)
  refine ⟨fun hroom => ?_, fun hroom => ?_⟩
  · have honly := (State.OnlyQueue.refl s q).wsPush words
    obtain ⟨hwords, hread⟩ := (s.wst q).foldl_push words s.now
    have hwst : (s.wsPush q words).wst q = words.foldl (fun r v => r.push v s.now) (s.wst q) :=
      State.wst_onWs_same s q (fun y => words.foldl (fun r v => r.push v s.now) y)
    refine ⟨s.wsPush q words, ?_, ?_, ?_, honly.only.other, rfl, rfl⟩
    · rw [hexec, hmeaning, if_pos hroom]
      rfl
    · rw [hwst, hwords, List.map_map]
      refine congrArg _ (List.map_congr_left fun i _ => ?_)
      exact Prod.ext (Nat.mod_eq_of_lt (numAt_lt _ _ _)) rfl
    · rw [hwst, hread]
  · rw [hexec, hmeaning, if_neg (by omega)]
    rfl

end

/-! ### The move between the parts of a queue (R267) -/

/-- Settles O21. -/
theorem waystationMessages : Obligations.WaystationMessages := by
  unfold Obligations.WaystationMessages
  refine ⟨fun w c width consumer depth flags h a u m s htakes hspells hadmits hflags hwidth hcons hlo hhi hfree hmiddle =>
      ws_create htakes hspells hadmits hflags hwidth hcons hlo hhi hfree hmiddle,
    fun w c q m s htakes hspells hadmits hhas hst hnamed => ws_destroy htakes hspells hadmits hhas hst hnamed,
    fun w c q m s htakes hadmits hhas => ws_query htakes hadmits hhas,
    fun w c q count flags m s htakes hspells hadmits hhas hflags hst hcons hcount =>
      ws_pop htakes hspells hadmits hhas hflags hst hcons hcount,
    fun w c q m s htakes hspells hadmits hhas hst hcons => ws_release htakes hspells hadmits hhas hst hcons,
    fun w c q m s htakes hspells hadmits hhas hst hcons => ws_rewind htakes hspells hadmits hhas hst hcons,
    fun w c q n m s htakes hadmits _ hc hres hq hn hzero hhas hst hpush hmax hwhole =>
      ws_push htakes hadmits hc hres hq hn hzero hhas hst hpush hmax hwhole,
    fun q s hhead hmid => ?_, fun q s hwords hparts => ?_⟩
  · have hmin : Nat.min 32 (s.wst q).midN = 32 := Nat.min_eq_left hmid
    have hmove : wsMiddleMove q true none s = s.onWs q (fun r => { r with
        headN := r.headN + Nat.min 32 r.midN, midN := r.midN - Nat.min 32 r.midN }) := if_neg (by omega)
    refine ⟨_, congrArg Host.Outcome.next hmove, ?_, ((State.OnlyQueue.refl s q).onWs _).only.other, rfl⟩
    rw [State.wst_onWs_same, hmin]
  · have hmove : wsMiddleMove q false none s = s.onWs q (fun r => { r with midN := r.midN + 32 }) := if_neg (by omega)
    exact ⟨_, congrArg Host.Outcome.next hmove, State.wst_onWs_same s q _, ((State.OnlyQueue.refl s q).onWs _).only.other, rfl⟩

end Machine
end Sys2Proof
end

section
/-! PROOFS. What ending a launch leaves alone (08 R187, R191, R244), and END. -/

namespace Sys2Proof
namespace Machine

/-! ### The part of the state that kills of commands and arrivals leave alone -/

/-- A string but for what it waits for. -/
def Str.unwaited (g : Str) : Str := { g with wait := .none }

def Launch.unwaited (l : Launch) : Launch := { l with strs := l.strs.map Str.unwaited }

/-- A context but for its counters, its commands and what its strings wait for. -/
def Ctx.still (x : Ctx) : Ctx :=
  { x with ctr := [], lanes := { x.lanes with cmds := [], launches := x.lanes.launches.map Launch.unwaited } }

/-- The state but for memory, posts, queues, messages, what left the block, and what `Ctx.still` leaves out. -/
def State.still (s : State) : State :=
  { s with ctxs := s.ctxs.map Ctx.still, mem := [], ws := [], posts := [], out := [], fws := [], freeCtr := 0
           host := State.reset.host }

section
variable {s t : State} {c id : Nat}

theorem State.ctx_still (s : State) (c : Nat) : s.still.ctx c = (s.ctx c).still := by
  exact List.getD_map (f := Ctx.still) (l := s.ctxs) (d := Ctx.fresh)

theorem State.ctx_still_of (h : t.still = s.still) (c : Nat) : (t.ctx c).still = (s.ctx c).still := by
  rw [← State.ctx_still, h, State.ctx_still]

theorem State.acked_of_still (h : t.still = s.still) : t.acked = s.acked := by
  change t.still.acked = s.still.acked
  rw [h]

theorem State.storesDone_of_still (h : t.still = s.still) : t.storesDone = s.storesDone := by
  funext g
  rw [State.storesDone, State.storesDone, State.acked_of_still h]

theorem Ctx.launch_still (x : Ctx) (id : Nat) : x.still.launch id = (x.launch id).map Launch.unwaited := by
  rw [Ctx.launch, Ctx.launch]
  exact List.find?_map ..

theorem State.launch_of_still (h : t.still = s.still) (c id : Nat) :
    ((t.ctx c).launch id).map Launch.unwaited = ((s.ctx c).launch id).map Launch.unwaited := by
  rw [← Ctx.launch_still, ← Ctx.launch_still, State.ctx_still_of h]

theorem State.known_of_still (h : t.still = s.still) (c : Nat) : (t.ctx c).lanes.known = (s.ctx c).lanes.known := by
  have hknown := congrArg (fun x : Ctx => x.lanes.known) (State.ctx_still_of h c)
  exact hknown

theorem State.ctxs_length_of_still (h : t.still = s.still) : t.ctxs.length = s.ctxs.length := by
  have hmap : t.ctxs.map Ctx.still = s.ctxs.map Ctx.still := congrArg State.ctxs h
  simpa using congrArg List.length hmap

end

theorem updAt_map_of_eq {α β : Type} (l : List α) (n : Nat) {f : α → α} {g : α → β} (h : ∀ x, g (f x) = g x) :
    (updAt l n f).map g = l.map g := by
  refine List.ext_getElem? fun k => ?_
  rw [List.getElem?_map, List.getElem?_map, updAt_getElem?]
  split
  · next hk =>
    cases l[k]? with
    | none => rfl
    | some x => exact congrArg some (h x)
  · rfl

section
variable (s : State)

theorem State.onCtx_still (c : Nat) {f : Ctx → Ctx} (h : ∀ x, (f x).still = x.still) : (s.onCtx c f).still = s.still := by
  unfold State.still State.onCtx
  dsimp only
  rw [updAt_map_of_eq _ _ h]

@[simp] theorem State.bumpCtx_still (c : Nat) (k : Ctr) (n : Nat) : (s.bumpCtx c k n).still = s.still :=
  s.onCtx_still c fun _ => rfl

@[simp] theorem State.onWs_still (w : Nat) (f : Ws → Ws) : (s.onWs w f).still = s.still := rfl

@[simp] theorem State.onPost_still (k : Nat) (f : Post → Post) : (s.onPost k f).still = s.still := rfl

@[simp] theorem State.freed_still : s.freed.still = s.still := rfl

@[simp] theorem State.writeAt_still (a : Nat) (bs : List Byte) : (s.writeAt a bs).still = s.still := rfl

@[simp] theorem State.putElem_still (base ebits e v : Nat) : (s.putElem base ebits e v).still = s.still := by
  unfold State.putElem
  split <;> rfl

@[simp] theorem State.complete_still (m : Msg) (p : Nat) (st : Status) (body : List Byte) : (s.complete m p st body).still = s.still := by
  obtain ⟨h, o, f, -, -, -, -, -, -, -, -, -, hcomplete⟩ := s.complete_eq m p st body
  rw [hcomplete]
  rfl

theorem still_foldl {α : Type} {f : State → α → State} (l : List α) (h : ∀ t a, (f t a).still = t.still) :
    (l.foldl f s).still = s.still := by
  induction l generalizing s with
  | nil => rfl
  | cons a l ih => exact (ih _).trans (h s a)

/-- A string of a launch changes but for nothing, or for what it waits for. -/
theorem State.onStr_still (c h i : Nat) {f : Str → Str} (hf : ∀ g, (f g).unwaited = g.unwaited) : (s.onStr c h i f).still = s.still := by
  refine s.onCtx_still c fun x => ?_
  have hl (l : Launch) : (if l.id = h then { l with strs := updAt l.strs i f } else l).unwaited = l.unwaited := by
    split
    · unfold Launch.unwaited
      dsimp only
      rw [updAt_map_of_eq _ _ hf]
    · rfl
  unfold Ctx.still
  dsimp only
  simp only [List.map_map, Function.comp_def, hl]

@[simp] theorem State.postWake_still (k v : Nat) : (s.postWake k v).still = s.still := by
  unfold State.postWake
  refine (still_foldl _ _ fun t w => ?_).trans (s.onPost_still ..)
  exact t.onStr_still _ _ _ fun _ => rfl

@[simp] theorem State.wsPush_still (w : Nat) (vs : List Nat) : (s.wsPush w vs).still = s.still := by simp [State.wsPush]

@[simp] theorem State.arrive_still (k pkg v : Nat) (ph : Option Nat) : (s.arrive k pkg v ph).1.still = s.still := by
  unfold State.arrive
  dsimp only
  split_ifs <;> simp

@[simp] theorem State.layArrive_still (k : LayCmd) (v : Nat) : (s.layArrive k v).still = s.still := by
  unfold State.layArrive
  split <;> simp

@[simp] theorem State.layUndef_still (k : LayCmd) : (s.layUndef k).still = s.still := by
  unfold State.layUndef
  dsimp only
  rw [State.freed_still]
  split
  · rw [still_foldl, still_foldl]
    · exact fun t e => t.putElem_still ..
    · intro t e
      split <;> simp
  · exact still_foldl _ _ fun t e => t.putElem_still ..

@[simp] theorem State.layCancel_still (c : Nat) (k : LayCmd) : (s.layCancel c k).still = s.still := by
  unfold State.layCancel
  dsimp only
  split <;> simp

@[simp] theorem State.layoutAnswer_still (c : Nat) (st : Status) : (s.layoutAnswer c st).still = s.still := by
  unfold State.layoutAnswer
  split <;> simp

@[simp] theorem State.killCmds_still (c : Nat) (p : Cmd → Bool) : (s.killCmds c p).still = s.still := by
  unfold State.killCmds
  refine (still_foldl _ _ fun t k => ?_).trans ((State.onWs_still ..).trans (s.onCtx_still c fun _ => rfl))
  split <;> simp

@[simp] theorem State.unqueue_still (c id : Nat) : (s.unqueue c id).still = s.still := by
  unfold State.unqueue
  exact (still_foldl _ _ fun t e => t.onWs_still ..).trans (still_foldl _ _ fun t e => t.onPost_still ..)

/-! ### Cores -/

theorem State.finishCore_ctxs (n : Nat) : (s.finishCore n).ctxs = s.ctxs := by
  unfold State.finishCore
  dsimp only
  split <;> rfl

@[simp] theorem State.settleCores_ctxs : s.settleCores.ctxs = s.ctxs := by
  unfold State.settleCores
  split
  · exact List.foldlRecOn (motive := fun t : State => t.ctxs = s.ctxs) _ _ rfl fun t ht n _ => (t.finishCore_ctxs n).trans ht
  · rfl

theorem State.settleCores_of_none (h : ∀ k ∈ s.cores.cores, k.st ≠ 1) : s.settleCores = s :=
  if_neg (by simpa using h)

end

/-! ### Launches that end -/

section
variable {s : State} {c id : Nat} {l : Launch}

/-- A launch that is retired is known by its state. -/
theorem State.retireLaunch_gone (hc : c < s.ctxs.length) (l : Launch) (st : Nat) :
    ((s.retireLaunch c l st).ctx c).launch l.id = none ∧ ((s.retireLaunch c l st).ctx c).launchState l.id = some st := by
  let s₁ := s.onLanes c (fun y => { y with
    launches := y.launches.filter (fun x => x.id != l.id), known := ((l.id, st) :: y.known).take 1024 })
  have hstill : (s.retireLaunch c l st).still = s₁.still := by
    unfold State.retireLaunch
    dsimp only
    split
    · exact State.arrive_still ..
    · rfl
  have hctx : s₁.ctx c = { s.ctx c with lanes := { (s.ctx c).lanes with
      launches := (s.ctx c).lanes.launches.filter (fun x => x.id != l.id), known := ((l.id, st) :: (s.ctx c).lanes.known).take 1024 } } :=
    (State.ctx_onCtx _ _ _ _ hc).trans (if_pos rfl)
  have hnone : (s₁.ctx c).launch l.id = none := by
    rw [hctx, Ctx.launch, List.find?_eq_none]
    simp
  have hgone : ((s.retireLaunch c l st).ctx c).launch l.id = none := by
    have h := State.launch_of_still hstill c l.id
    rw [hnone] at h
    simpa using h
  refine ⟨hgone, ?_⟩
  rw [Ctx.launchState, hgone]
  dsimp only
  rw [State.known_of_still hstill, hctx]
  simp

theorem Ctx.launch_id {x : Ctx} (h : x.launch id = some l) : l.id = id := by simpa using List.find?_some h

/-- A launch whose strings wait for acknowledgements is still known, and every string of it is gone. -/
theorem State.finishLaunch_waits (hl : (s.ctx c).launch id = some l) (l' : Launch) (hid : l'.id = id) (st : Nat)
    (hstores : ∃ g ∈ l'.strs, s.storesDone g = false) : ∃ y, ((s.finishLaunch c l' st).ctx c).launch id = some y ∧
      y.dying = some st ∧ y.kernel = l.kernel ∧ ∀ g ∈ y.strs, g.st = 2 := by
  have hc := State.lt_of_launch hl
  have hcond : l'.strs.all s.storesDone = false := by simpa using hstores
  let f (x : Launch) : Launch := if x.id = l'.id then { x with
    dying := some st, strs := x.strs.map (fun g => { g with st := 2, regs := [], preds := [], tiles := [] }) } else x
  have hfind : ((s.finishLaunch c l' st).ctx c).launch id = ((s.ctx c).launch id).map f := by
    rw [State.finishLaunch, if_neg (by simp [hcond]), State.onLanes, State.ctx_onCtx _ _ _ _ hc, if_pos rfl, Ctx.launch, Ctx.launch,
      List.find?_map]
    have hcomp : ((fun x : Launch => x.id == id) ∘ f) = fun x => x.id == id := by
      funext x
      simp only [Function.comp_apply, f]
      split <;> rfl
    rw [hcomp]
  refine ⟨f l, by rw [hfind, hl]; rfl, ?_⟩
  have hf : f l = { l with
      dying := some st, strs := l.strs.map (fun g => { g with st := 2, regs := [], preds := [], tiles := [] }) } :=
    if_pos ((Ctx.launch_id hl).trans hid.symm)
  rw [hf]
  refine ⟨rfl, rfl, fun g hg => ?_⟩
  obtain ⟨g', -, rfl⟩ := List.mem_map.mp hg
  rfl

/-- A kill ends the launch in a state that what it leaves alone does not tell from this one. -/
theorem State.killLaunch_eq {st : Nat} (hl : (s.ctx c).launch id = some l) (hdying : l.dying = none)
    (hrace : ¬ (st = 3 ∧ s.endsNow c l = true ∧ s.free (2 ^ 62) % 2 = 1)) :
    ∃ u : State, u.still = s.still ∧ s.killLaunch c id st = (u.finishLaunch c l st).settleCores := by
  unfold State.killLaunch
  rw [hl]
  dsimp only
  rw [if_neg (by simp [hdying]), if_neg hrace]
  refine ⟨_, ?_, rfl⟩
  rw [State.freed_still]
  exact (State.killCmds_still ..).trans ((State.bumpCtx_still ..).trans (State.unqueue_still ..))

/-- R187, R191, R244: a killed launch is gone and known by its state, or waits for the acknowledgements of its stores. -/
theorem State.killLaunch_ends {st : Nat} (hl : (s.ctx c).launch id = some l) (hdying : l.dying = none)
    (hrace : ¬ (st = 3 ∧ s.endsNow c l = true ∧ s.free (2 ^ 62) % 2 = 1)) :
    ((∀ g ∈ l.strs, s.storesDone g = true) →
      ((s.killLaunch c id st).ctx c).launch id = none ∧ ((s.killLaunch c id st).ctx c).launchState id = some st) ∧
    ((∃ g ∈ l.strs, s.storesDone g = false) → ∃ y, ((s.killLaunch c id st).ctx c).launch id = some y ∧ y.dying = some st ∧
      y.kernel = l.kernel ∧ ∀ g ∈ y.strs, g.st = 2) := by
  obtain ⟨u, hstill, hkill⟩ := State.killLaunch_eq hl hdying hrace
  have hctx : (s.killLaunch c id st).ctx c = (u.finishLaunch c l st).ctx c := by
    rw [hkill, State.ctx, State.settleCores_ctxs]
    rfl
  have hdone : u.storesDone = s.storesDone := State.storesDone_of_still hstill
  obtain rfl := Ctx.launch_id hl
  rw [hctx]
  refine ⟨fun hall => ?_, fun hsome => ?_⟩
  · have hfinish : u.finishLaunch c l st = u.retireLaunch c l st := if_pos (by simpa [hdone] using hall)
    rw [hfinish]
    exact State.retireLaunch_gone (by rw [State.ctxs_length_of_still hstill]; exact State.lt_of_launch hl) l st
  · have hu := State.launch_of_still hstill c l.id
    rw [hl, Option.map_some, Option.map_eq_some_iff] at hu
    obtain ⟨l', hl', heq⟩ := hu
    have hkernel : l'.kernel = l.kernel := by
      have h' := congrArg Launch.kernel heq
      exact h'
    obtain ⟨y, hy, hdy, hk, hstrs⟩ := State.finishLaunch_waits hl' l rfl st (by rwa [hdone])
    exact ⟨y, hy, hdy, hk.trans hkernel, hstrs⟩

end

/-! ### END and string faults -/

section
variable {s : State} {c id i w : Nat} {l : Launch} {g : Str}

/-- A string of a launch changes: the launch, and its strings' stores. -/
theorem State.launch_onStr (hl : (s.ctx c).launch id = some l) (f : Str → Str) :
    ((s.onStr c id i f).ctx c).launch id = some { l with strs := updAt l.strs i f } := by
  rw [State.onStr, State.ctx_onCtx _ _ _ _ (State.lt_of_launch hl), if_pos rfl, Ctx.launch, List.find?_map, launchOf_comp_updStr,
    ← Ctx.launch, hl, Option.map_some, if_pos (Ctx.launch_id hl)]

theorem mem_updAt_of_eq {α β : Type} {xs : List α} {f : α → α} {p : α → β} (h : ∀ x, p (f x) = p x) (b : β) :
    (∃ x ∈ updAt xs i f, p x = b) ↔ ∃ x ∈ xs, p x = b := by
  have hmap := updAt_map_of_eq xs i h
  constructor <;> rintro ⟨x, hx, rfl⟩
  · have hmem : p x ∈ (updAt xs i f).map p := List.mem_map_of_mem hx
    rw [hmap] at hmem
    obtain ⟨y, hy, hyx⟩ := List.mem_map.mp hmem
    exact ⟨y, hy, hyx⟩
  · have hmem : p x ∈ xs.map p := List.mem_map_of_mem hx
    rw [← hmap] at hmem
    obtain ⟨y, hy, hyx⟩ := List.mem_map.mp hmem
    exact ⟨y, hy, hyx⟩

theorem stringFault_ends (hl : (s.ctx c).launch id = some l) (hdying : l.dying = none) :
    let t := s.stringFault c id i
    ((∀ x ∈ l.strs, s.storesDone x = true) → (t.ctx c).launch id = none ∧ (t.ctx c).launchState id = some 4) ∧
    ((∃ x ∈ l.strs, s.storesDone x = false) → ∃ y, (t.ctx c).launch id = some y ∧ y.dying = some 4 ∧ ∀ x ∈ y.strs, x.st = 2) ∧
    ∃ m ∈ t.flt.arriving, m.kind = 0x07 ∧ m.cls = 1 ∧ m.ctx = c ∧
      m.detail = packF [(0, 32, id), (32, 16, l.kernel)] := by
  let u := (s.onStr c id i (fun g => { g with st := 2 })).bumpCtx c .stringFaults 1
  have hfault : s.stringFault c id i =
      (u.killLaunch c id 4).raise (s.physOf c id i) 0x07 1 c 3 (packF [(0, 32, id), (32, 16, l.kernel)]) := by
    rw [State.stringFault, hl]
  have hlu : (u.ctx c).launch id = some { l with strs := updAt l.strs i (fun g => { g with st := 2 }) } := by
    rw [← State.launch_onStr hl (i := i), State.ctx_bumpCtx]
    rfl
  have hmem (b : Bool) := mem_updAt_of_eq (i := i) (xs := l.strs) (f := fun g : Str => { g with st := 2 }) (p := s.storesDone)
    (fun _ => rfl) b
  obtain ⟨hgone, hwaits⟩ := State.killLaunch_ends (st := 4) hlu hdying (by simp)
  rw [hfault]
  refine ⟨fun hall => hgone fun x hx => ?_, fun hsome => ?_, _, List.mem_append_right _ (List.mem_singleton_self _), rfl, rfl, rfl, rfl⟩
  · by_contra hx'
    obtain ⟨y, hy, hyf⟩ := (hmem false).mp ⟨x, hx, eq_false_of_ne_true hx'⟩
    rw [hall y hy] at hyf
    cases hyf
  · obtain ⟨y, hy, hdy, -, hstrs⟩ := hwaits ((hmem false).mpr hsome)
    exact ⟨y, hy, hdy, hstrs⟩

/-- What the string whose next word is read belongs to. -/
theorem State.atWord_eq {op : Nat} (h : s.atWord op c id i = some (l, g, w)) :
    (s.ctx c).launch id = some l ∧ l.strs[i]? = some g ∧ g.st = 1 := by
  unfold State.atWord at h
  split at h
  · cases h
  · next l' hl =>
    split at h
    · next g' k hg hk =>
      split at h
      · split at h
        · next hst =>
          cases h
          exact ⟨hl, hg, hst.1⟩
        · cases h
      · cases h
    · cases h

/-- One string of a launch is left, which has not ended. -/
theorem countP_eq_one_iff {xs : List Str} (hg : xs[i]? = some g) (hst : g.st ≠ 2) :
    countP (fun x => x.st != 2) xs = 1 ↔ ∀ j g', j ≠ i → xs[j]? = some g' → g'.st = 2 := by
  have hnone (xs : List Str) : xs.filter (fun x => x.st != 2) = [] ↔ ∀ (j : Nat) (g' : Str), xs[j]? = some g' → g'.st = 2 := by
    rw [List.filter_eq_nil_iff]
    refine ⟨fun h j g' hj => by simpa using h g' (List.mem_of_getElem? hj), fun h x hx => ?_⟩
    obtain ⟨j, hj⟩ := List.mem_iff_getElem?.mp hx
    simp [h j x hj]
  rw [countP]
  induction xs generalizing i with
  | nil => simp at hg
  | cons x r ih =>
    cases i with
    | zero =>
      obtain rfl : x = g := by simpa using hg
      rw [List.filter_cons_of_pos (by simpa using hst), List.length_cons, Nat.add_eq_right, List.length_eq_zero_iff, hnone]
      exact ⟨fun h j g' hj hg' => by
          obtain ⟨n, rfl⟩ := Nat.exists_eq_succ_of_ne_zero hj
          exact h n g' hg',
        fun h j g' hj => h (j + 1) g' (Nat.succ_ne_zero j) hj⟩
    | succ n =>
      have hgr : r[n]? = some g := hg
      by_cases hx : x.st = 2
      · rw [List.filter_cons_of_neg (by simpa using hx)]
        refine (ih hgr).trans ⟨fun h j g' hj hg' => ?_, fun h j g' hj hg' => h (j + 1) g' (by omega) hg'⟩
        cases j with
        | zero =>
          obtain rfl : x = g' := by simpa using hg'
          exact hx
        | succ k => exact h k g' (by omega) hg'
      · rw [List.filter_cons_of_pos (by simpa using hx), List.length_cons, Nat.add_eq_right, List.length_eq_zero_iff, hnone]
        exact ⟨fun h => absurd (h n g hgr) hst, fun h => absurd (h 0 x (by omega) rfl) hx⟩

/-- END reads its word, in a string that runs. -/
theorem endStr_ready (h : Ready s 0xCA c id i l g w) : endStr c id i s =
    if (g.lanes w).isEmpty then s.putStr c id i g.next
    else if decide (countP (fun (x : Str) => x.st != 2) l.strs = 1) && !l.strs.all s.storesDone then s
    else (if decide (countP (fun (x : Str) => x.st != 2) l.strs = 1) then
        (s.putStr c id i { g with st := 2, regs := [], preds := [], tiles := [] }).retireLaunch c l 2
      else s.putStr c id i { g with st := 2, regs := [], preds := [], tiles := [] }).settleCores :=
  runStr_ready s _ h

/-- R187: the launch that ends is the only one of its context. -/
theorem State.retireLaunch_only (hl : (s.ctx c).launch id = some l) (honly : (s.ctx c).lanes.launches = [l])
    (htally : l.tallyEn = false) (g' : Str) : (s.putStr c id i g').retireLaunch c l 2 =
      s.onCtx c (fun x => { x with lanes := { x.lanes with
        launches := [], known := ((l.id, 2) :: x.lanes.known).take 1024 } }) := by
  have hid := Ctx.launch_id hl
  have hlaunch : (s.putStr c id i g').retireLaunch c l 2 = (s.putStr c id i g').onLanes c (fun y => { y with
      launches := y.launches.filter (fun x => x.id != l.id), known := ((l.id, 2) :: y.known).take 1024 }) :=
    if_neg (by simp [htally])
  rw [hlaunch]
  refine congrArg (fun k => { s with ctxs := k }) (List.ext_getElem? fun j => ?_)
  change (updAt (updAt s.ctxs c _) c _)[j]? = (updAt s.ctxs c _)[j]?
  simp only [updAt_getElem?]
  by_cases hj : c = j
  · subst hj
    rcases hx : s.ctxs[c]? with _ | x
    · simp
    · have hxs : x.lanes.launches = [l] := by rw [← honly, State.ctx, List.getD_eq_getElem?_getD, hx, Option.getD_some]
      simp [hxs, hid]
  · simp [hj]

end

/-- Settles O38: the lemmas of END over whether a lane is guarded, the string is the last one and its launch's stores are
acknowledged. -/
theorem stringEnds : Obligations.StringEnds := by
  unfold Obligations.StringEnds
  refine ⟨fun c id i l g w s h hlanes => ?_, fun c id i l g w s h hlanes hother hcores => ?_,
    fun c id i l g w s h hlanes honly hlast hacked htally hcores => ?_, fun c id i l g w s h hlanes hlast hwaits => ?_,
    fun c id i l s hl hdying => stringFault_ends hl hdying⟩
  all_goals
    obtain ⟨hl, hg, hst⟩ := State.atWord_eq h.found
    have hone := countP_eq_one_iff hg (by omega)
    refine congrArg Host.Outcome.next ((endStr_ready h).trans ?_)
  · exact if_pos (by simp [hlanes])
  · obtain ⟨j, g', hj, hg', hst'⟩ := hother
    have hmore : ¬ countP (fun x : Str => x.st != 2) l.strs = 1 := fun hcount => hst' (hone.mp hcount j g' hj hg')
    rw [if_neg (by simp [hlanes]), if_neg (by simp [hmore]), if_neg (by simp [hmore])]
    exact State.settleCores_of_none _ hcores
  · have hdone : l.strs.all s.storesDone = true := by simpa [State.storesDone] using hacked
    rw [if_neg (by simp [hlanes]), if_neg (by simp [hdone]), if_pos (by simpa using hone.mpr hlast),
      State.retireLaunch_only hl honly htally]
    exact State.settleCores_of_none _ hcores
  · have hwaits' : l.strs.all s.storesDone = false := by simpa [State.storesDone] using hwaits
    rw [if_neg (by simp [hlanes]), if_pos (by simp [hwaits', hone.mpr hlast])]

end Machine
end Sys2Proof
end

section
/-! PROOFS. Branches, predicates, exchanges between lanes, special functions and work items (08 R179, R182, R183, R189, R194). -/

namespace Sys2Proof
namespace Machine

section
variable {s : State} {op c id i w : Nat} {l : Launch} {g : Str}

/-! ### Branches -/

/-- Where a branch goes. -/
def branchTarget (g : Str) (w : Nat) : Int := (g.pc : Int) + (if Config.branchNext then 1 else 0) + iSimm w

/-- Words of a launch's kernel. -/
def State.codeLength (s : State) (c : Nat) (l : Launch) : Nat :=
  (((s.ctx c).lanes.kernels.find l.kernel).map (·.code.length)).getD 0

theorem State.codeLength_cast : (s.codeLength c l : Int) =
    (((s.ctx c).lanes.kernels.find l.kernel).map (fun k => (k.code.length : Int))).getD 0 := by
  rw [State.codeLength]
  cases (s.ctx c).lanes.kernels.find l.kernel <;> rfl

theorem branch_goes {taken : Str → Nat → Bool} (h : Ready s op c id i l g w) (htaken : taken g w = true) :
    (0 ≤ branchTarget g w ∧ branchTarget g w < s.codeLength c l →
      Host.Outcome.next (branch op c id i taken s) = (.next (s.putStr c id i { g with pc := (branchTarget g w).toNat }) :
        Host.Outcome State Fault Refusal)) ∧
    (branchTarget g w < 0 ∨ (s.codeLength c l : Int) ≤ branchTarget g w →
      Host.Outcome.next (branch op c id i taken s) = (.next (s.stringFault c id i) : Host.Outcome State Fault Refusal)) := by
  have hbranch : branch op c id i taken s = if 0 ≤ branchTarget g w ∧ branchTarget g w < s.codeLength c l then
      s.putStr c id i { g with pc := (branchTarget g w).toNat } else s.stringFault c id i :=
    State.codeLength_cast ▸ (runStr_ready s _ h).trans (if_pos htaken)
  rw [hbranch]
  exact ⟨fun hin => congrArg _ (if_pos hin), fun hout => congrArg _ (if_neg (by omega))⟩

theorem branch_falls {taken : Str → Nat → Bool} (h : Ready s op c id i l g w) (htaken : taken g w = false) :
    Host.Outcome.next (branch op c id i taken s) =
      (.next (s.putStr c id i { g with pc := g.pc + 1 }) : Host.Outcome State Fault Refusal) :=
  congrArg _ ((runStr_ready s _ h).trans (if_neg (by simp [htaken])))

theorem Str.mem_lanes {k : Nat} : k ∈ g.lanes w ↔ k < 64 ∧ g.guard w k = true := by simp [Str.lanes]

/-- A guarded lane has a property. -/
theorem Str.any_lanes (p : Nat → Bool) : (g.lanes w).any p = true ↔ ∃ k < 64, g.guard w k = true ∧ p k = true := by
  simp [Str.mem_lanes, and_assoc]

/-- Every guarded lane has a property. -/
theorem Str.all_lanes (p : Nat → Bool) : (g.lanes w).all p = true ↔ ∀ k < 64, g.guard w k = true → p k = true := by
  simp [Str.mem_lanes]

/-! ### Predicates and reductions -/

theorem Str.predWord_eq (k : Nat) : g.predWord k =
    b2n (g.pred 0 k) + 2 * b2n (g.pred 1 k) + 4 * b2n (g.pred 2 k) + 8 * b2n (g.pred 3 k) := by
  rw [Str.predWord]
  generalize g.pred = p
  cases h0 : p 0 k <;> cases h1 : p 1 k <;> cases h2 : p 2 k <;> cases h3 : p 3 k <;>
    simp [List.range, List.range.loop, h0, h1, h2, h3, maskOf, b2n]

/-- R182: a reduction starts from the first guarded lane. -/
theorem Str.reduce_cons {a : Nat} {r : List Nat} (f : BitVec 32 → BitVec 32 → BitVec 32) (h : g.lanes w = a :: r) :
    g.reduce f w = (r.foldl (fun v j => f v (BitVec.ofNat 32 (g.srcA w j))) (Num.to32 (Num.v32 (BitVec.ofNat 32 (g.srcA w a))))).toNat := by
  rw [Str.reduce, h]
  exact congrArg BitVec.toNat List.foldl_map

theorem reduction_writes (f : BitVec 32 → BitVec 32 → BitVec 32) (h : Ready s op c id i l g w) :
    ∃ (g' : Str) (v : Nat → Nat), Host.Outcome.next (laneOp op c id i (fun g w => (g.writeDst w (fun _ => g.reduce f w)).next) s) =
        (.next (s.putStr c id i g') : Host.Outcome State Fault Refusal) ∧
      Wrote g w v g' ∧ ∀ k ∈ g.lanes w, ∃ (a : Nat) (r : List Nat), g.lanes w = a :: r ∧
        v k = (r.foldl (fun v j => f v (BitVec.ofNat 32 (g.srcA w j))) (Num.to32 (Num.v32 (BitVec.ofNat 32 (g.srcA w a))))).toNat := by
  obtain ⟨g', hrun, hwrote⟩ := laneOp_writes (f := fun _ => g.reduce f w) h (fun _ _ => rfl) (fun g w => (g.writeDst w (fun _ => g.reduce f w)).next) rfl
  refine ⟨g', _, hrun, hwrote, fun k hk => ?_⟩
  obtain ⟨a, r, hlanes⟩ := List.exists_cons_of_ne_nil (List.ne_nil_of_mem hk)
  exact ⟨a, r, hlanes, Str.reduce_cons f hlanes⟩

/-! ### Work items -/

/-- The launch takes its next work item. -/
def Launch.takeItem (id v : Nat) (on : Bool) (x : Launch) : Launch := if x.id = id ∧ on = true then { x with nextItem := v + 1 } else x

@[simp] theorem Launch.takeItem_strs (id v : Nat) (on : Bool) (x : Launch) : (Launch.takeItem id v on x).strs = x.strs := by
  unfold Launch.takeItem
  split <;> rfl

@[simp] theorem Launch.takeItem_id (id v : Nat) (on : Bool) (x : Launch) : (Launch.takeItem id v on x).id = x.id := by
  unfold Launch.takeItem
  split <;> rfl

theorem Launch.takeItem_off (id v : Nat) : Launch.takeItem id v false = fun x => x := by
  funext x
  exact if_neg (by simp)

theorem State.onLanes_self {f : Lanes → Lanes} (h : ∀ y, f y = y) (c : Nat) : s.onLanes c f = s := by
  have hsame : (fun x : Ctx => { x with lanes := f x.lanes }) = id := funext fun x => by rw [h]; rfl
  rw [State.onLanes, State.onCtx, hsame]
  have hctxs : updAt s.ctxs c id = s.ctxs := List.ext_getElem? fun j => by simp [updAt_getElem?]
  rw [hctxs]

/-- The launches of a context change, each under its own handle. -/
theorem State.launch_onLanes_map {F : Launch → Launch} (hid : ∀ x, (F x).id = x.id) (hl : (s.ctx c).launch id = some l) :
    ((s.onLanes c (fun y => { y with launches := y.launches.map F })).ctx c).launch id = some (F l) := by
  have hcomp : ((fun x : Launch => x.id == id) ∘ F) = fun x => x.id == id := funext fun x => by simp [hid]
  rw [State.onLanes, State.ctx_onCtx _ _ _ _ (State.lt_of_launch hl), if_pos rfl, Ctx.launch, List.find?_map, hcomp, ← Ctx.launch,
    hl, Option.map_some]

theorem claimItem_ready (h : Ready s 0x66 c id i l g w) (hlanes : g.lanes w ≠ []) : claimItem c id i s =
    let v := if l.fixed then i + g.claims * l.strings else l.nextItem
    (s.putStr c id i { (g.writeDst w (fun _ => if v < l.items then v else 0xFFFFFFFF)).next with claims := g.claims + 1 }).onLanes c
      (fun y => { y with launches := y.launches.map (Launch.takeItem id v (!l.fixed && decide (v < l.items))) }) := by
  refine (runStr_ready s _ h).trans ((if_neg (by simpa using hlanes)).trans ?_)
  simp only [decide_eq_true_eq]
  refine congrArg (State.onLanes _ c) (funext fun y => ?_)
  simp [Launch.takeItem]

/-- R189: an item of the pool. -/
theorem claimItem_pool (h : Ready s 0x66 c id i l g w) (hlanes : g.lanes w ≠ []) (hfixed : l.fixed = false) :
    ∃ t : State, claimItem c id i s = t ∧ t.mem = s.mem ∧
      t.strAt c id i = some { (g.writeDst w (fun _ => if l.nextItem < l.items then l.nextItem else 0xFFFFFFFF)).next with
        claims := g.claims + 1 } ∧
      ∃ l', (t.ctx c).launch id = some l' ∧ l'.nextItem = if l.nextItem < l.items then l.nextItem + 1 else l.nextItem := by
  obtain ⟨hl, hg, -⟩ := State.atWord_eq h.found
  have hlaunch (g' : Str) (on : Bool) := State.launch_onLanes_map (F := Launch.takeItem id l.nextItem on)
    (Launch.takeItem_id _ _ _) (State.launch_onStr hl (i := i) fun _ => g')
  refine ⟨_, claimItem_ready h hlanes, rfl, ?_, ?_⟩
  all_goals simp only [hfixed, Bool.false_eq_true, if_false, Bool.not_false, Bool.true_and]
  · rw [State.strAt, State.putStr, hlaunch, Option.bind_some, Launch.takeItem_strs, updAt_getElem?, if_pos rfl, hg]
    rfl
  · refine ⟨_, hlaunch _ _, ?_⟩
    simp only [Launch.takeItem, Ctx.launch_id hl, true_and, decide_eq_true_eq]
    split <;> rfl

end

/-- Settles O37: the lemmas of branches, reductions and work items; the other instructions write `DST` or a predicate. -/
theorem stringControl : Obligations.StringControl := by
  unfold Obligations.StringControl
  intro c id i l g w s taken n named goes falls
  refine ⟨fun h => ⟨fun hany => branch_goes (taken := fun g w => (g.lanes w).any (g.branchPred w)) h ((Str.any_lanes _).mpr hany), fun hnone => branch_falls h ?_⟩,
    fun h => ⟨fun hall => branch_goes (taken := fun g w => (g.lanes w).all (g.branchPred w)) h ((Str.all_lanes _).mpr hall), fun hsome => branch_falls h ?_⟩,
    fun h => ⟨_, congrArg Host.Outcome.next (laneOp_ready _ h), ?_⟩,
    fun h => ⟨_, _, congrArg Host.Outcome.next (runStr_ready s _ h), Str.wrote_writeDst g w _, fun k hk hlane => if_pos hlane⟩,
    fun h => reduction_writes _ h, fun h => reduction_writes _ h,
    fun h => ⟨_, _, congrArg Host.Outcome.next (runStr_ready s _ h), fun hm => if_neg hm, Str.wrote_writeDst g w _⟩,
    fun h hlanes hfixed => ?_, fun h hlanes hfixed => ?_⟩
  · rw [Bool.eq_false_iff, ne_eq, Str.any_lanes]
    rintro ⟨k, hk, hg, hp⟩
    exact Bool.false_ne_true ((hnone k hk hg).symm.trans hp)
  · rw [Bool.eq_false_iff, ne_eq, Str.all_lanes]
    obtain ⟨k, hk, hg, hp⟩ := hsome
    exact fun hall => Bool.false_ne_true (hp.symm.trans (hall k hk hg))
  · simp only [← Str.predWord_eq]
    exact Str.judged_writePred g w _
  · refine ⟨_, _, congrArg Host.Outcome.next ((claimItem_ready h hlanes).trans ?_), rfl, Str.wrote_writeDst g w _⟩
    simp only [hfixed, Bool.not_true, Bool.false_and, Launch.takeItem_off, List.map_id']
    exact State.onLanes_self (fun _ => rfl) c
  · obtain ⟨t, ht, hmem, hstr, hitem⟩ := claimItem_pool h hlanes hfixed
    exact ⟨t, _, _, congrArg Host.Outcome.next ht, hstr, rfl, hmem, Str.wrote_writeDst g w _, hitem⟩

end Machine
end Sys2Proof
end

section
/-! PROOFS. TP_ARRIVE and TP_WAIT: a string as a whole, with the operands of its lowest guarded lane (11 R244, R247, R250). -/

namespace Sys2Proof
namespace Machine

/-! ### Messages to other packages -/

section
variable (s : State)

/-- A message is handed to its path and leaves the rest of the state alone. -/
theorem State.sendMsg_eq (dst type ctx : Nat) (fields : List Nat) (body : List Byte) : s.sendMsg dst type ctx fields body =
    { s with out := s.out ++ [.msg dst type ctx fields body], fab := (s.sendMsg dst type ctx fields body).fab } := by
  unfold State.sendMsg
  dsimp only
  split <;> rfl

theorem State.sendOpen_eq (dst type ctx : Nat) (fields : List Nat) (data : List Byte) : s.sendOpen dst type ctx fields data =
    { s with out := s.out ++ [.msg dst type ctx fields (Config.bodyCode type fields ++ data)],
             fab := (s.sendOpen dst type ctx fields data).fab } := s.sendMsg_eq ..

end

section
variable {s : State} {c id i k w : Nat} {r : List Nat} {l : Launch} {g : Str}

/-! ### The lead lane -/

theorem Str.lead_of_cons (h : g.lanes w = k :: r) : g.lead w = some k := by rw [Str.lead, h, List.head?_cons]

theorem Str.lead_of_nil (h : g.lanes w = []) : g.lead w = none := by rw [Str.lead, h, List.head?_nil]

theorem Str.writeDst_wait (v : Nat → Nat) : (g.writeDst w v).wait = g.wait := by rw [Str.writeDst, Str.setReg]

/-- A string that wrote `DST` goes on. -/
theorem Str.writeDst_resumes (v : Nat → Nat) (hwait : g.wait = .none) :
    { (g.writeDst w v).next with wait := .none } = (g.writeDst w v).next := by
  have hnext (x : Str) (hx : x.wait = .none) : { x.next with wait := .none } = x.next := by
    cases x
    cases hx
    rfl
  exact hnext _ ((Str.writeDst_wait v).trans hwait)

/-! ### TP_ARRIVE -/

/-- R244: an arrival waits for the string's stores. -/
theorem tpArrive_ready (h : Ready s 0xC6 c id i l g w) (hlanes : g.lanes w = k :: r) : tpArrive c id i s =
    if !s.storesDone g then s
    else if bits (g.srcA w k) 16 7 = s.board.pkgId then
      ((s.putStr c id i { g.next with sent := [] }).arrive (bits (g.srcA w k) 0 16) s.board.pkgId (g.srcB w k)
        (if bit (g.srcA w k) 23 then some (g.srcC w k % 2 ^ 15) else none)).1
    else (s.putStr c id i { g.next with sent := [] }).sendOpen (bits (g.srcA w k) 16 7) 0x30 c
      [bits (g.srcA w k) 0 16, g.srcB w k, b2n (bit (g.srcA w k) 23), g.srcC w k % 2 ^ 15] [] := by
  refine (runStr_ready s _ h).trans ?_
  rw [Str.lead_of_cons hlanes]

/-! ### TP_WAIT -/

/-- R250: what a wait by a ready string does. -/
theorem tpWait_ready (h : Ready s 0xC7 c id i l g w) (hlanes : g.lanes w = k :: r) {t : Nat} (ht : bits (g.srcA w k) 0 16 = t) :
    tpWait c id i s =
    if ¬ (bits (g.srcA w k) 16 7 = s.board.pkgId ∧ (s.ctx c).hasPost t = true) then s.stringFault c id i
    else if (s.post t).st = 0 then s.putStr c id i (g.writeDst w (fun _ => 0)).next
    else if (s.post t).st = 1 then
      (s.onPost t (fun q => { q with waiters := q.waiters ++ [(c, id, i)] })).putStr c id i { g with wait := .tally t }
    else s.putStr c id i (g.writeDst w (fun _ => (s.post t).waitValue)).next := by
  unfold tpWait
  rw [h.found]
  dsimp only
  rw [h.free, Str.lead_of_cons hlanes]
  simp only [Str.writeDst_resumes _ h.free, ht]
  by_cases hown : bits (g.srcA w k) 16 7 = s.board.pkgId ∧ (s.ctx c).hasPost t = true
  · rw [if_neg (by simp [hown]), if_neg (not_not.mpr hown)]
  · rw [if_pos (by simpa [or_iff_not_imp_left] using hown), if_pos hown]

theorem tpWait_unguarded (h : Ready s 0xC7 c id i l g w) (hlanes : g.lanes w = []) : tpWait c id i s = s.putStr c id i g.next := by
  unfold tpWait
  rw [h.found]
  dsimp only
  rw [h.free, Str.lead_of_nil hlanes]

/-- A post's answer packs its state and its phase. -/
theorem Post.waitValue_eq {p : Post} (hst : p.st < 8) (hphase : p.phase < 2 ^ 15) : p.waitValue = p.st + p.phase * 2 ^ 16 := by
  have hst' : p.st % 2 ^ 3 = p.st := Nat.mod_eq_of_lt hst
  simp only [Post.waitValue, packF, sumN, List.map_cons, List.map_nil, List.foldl_cons, List.foldl_nil, hst',
    Nat.mod_eq_of_lt hphase, pow_zero, mul_one, zero_add]

end

/-- Settles O39. -/
theorem stringsOnPosts : Obligations.StringsOnPosts := by
  unfold Obligations.StringsOnPosts
  refine ⟨fun c id i k r l g w s h hlanes hacked hown => ?_, fun c id i k r l g w s h hlanes hacked hother => ?_,
    fun c id i l g w s h hlanes hwaits => ?_, fun c id i l g w s hlanes => ⟨fun h => ?_, fun h => ?_, fun h => ?_, fun h hop => ?_⟩,
    fun c id i k r l g w s h hlanes => ?_, fun c id i v l g w s hfound hwoken => ?_⟩
  · have hdone : s.storesDone g = true := by simpa [State.storesDone] using hacked
    refine congrArg Host.Outcome.next ((tpArrive_ready h hlanes).trans ?_)
    exact (if_neg (by simp [hdone])).trans (if_pos hown)
  · have hdone : s.storesDone g = true := by simpa [State.storesDone] using hacked
    refine ⟨_, congrArg Host.Outcome.next ((tpArrive_ready h hlanes).trans ((if_neg (by simp [hdone])).trans (if_neg hother))), ?_⟩
    rw [State.sendOpen_eq]
    exact ⟨State.strAt_putStr h.strAt, rfl, rfl, _, List.mem_append_right _ (List.mem_singleton_self _)⟩
  · obtain ⟨k, r, hcons⟩ := List.exists_cons_of_ne_nil hlanes
    have hdone : s.storesDone g = false := by simpa [State.storesDone] using hwaits
    exact congrArg Host.Outcome.next ((tpArrive_ready h hcons).trans (if_pos (by simp [hdone])))
  · refine congrArg Host.Outcome.next ((runStr_ready s _ h).trans ?_)
    rw [Str.lead_of_nil hlanes]
    rfl
  · exact congrArg Host.Outcome.next (tpWait_unguarded h hlanes)
  · refine congrArg Host.Outcome.next ?_
    unfold wsPushStr
    rw [h.found]
    dsimp only
    rw [Str.lead_of_nil hlanes]
    exact if_pos h.free
  · refine congrArg Host.Outcome.next ((runStr_ready s _ h).trans ((if_neg (by simp [hop])).trans ?_))
    rw [Str.lead_of_nil hlanes]
    rfl
  · intro t own
    have hrun := tpWait_ready h hlanes (t := t) rfl
    refine ⟨fun hnot => ?_, fun ho hst => ?_, fun ho hst => ⟨_, congrArg Host.Outcome.next (hrun.trans ?_),
      Str.wrote_writeDst g w _⟩, fun ho hst hphase => ⟨_, congrArg Host.Outcome.next (hrun.trans ?_), Str.wrote_writeDst g w _⟩⟩
    · exact congrArg Host.Outcome.next (hrun.trans (if_pos hnot))
    · rw [if_neg (not_not.mpr ho), if_neg (by omega), if_pos hst] at hrun
      exact congrArg Host.Outcome.next hrun
    · rw [if_neg (not_not.mpr ho), if_pos hst]
    · rw [if_neg (not_not.mpr ho), if_neg (by omega), if_neg (by omega), Post.waitValue_eq (by omega) hphase]
  · refine ⟨_, congrArg Host.Outcome.next ?_, Str.wrote_writeDst { g with wait := .none } w _⟩
    unfold tpWait
    rw [hfound]
    dsimp only
    rw [hwoken]
    dsimp only [Str.writeDst, Str.setReg, Str.next]
    rfl

end Machine
end Sys2Proof
end

section
/-! PROOFS. Loads and stores of lanes: what charging, poison and messages leave alone, and the accesses of the guarded lanes one
after the other (08 R180, R183; 11 R230, R234, R243, R244; 15 R326). -/

namespace Sys2Proof
namespace Machine

/-- Some access, of all of them, may not be made. -/
theorem any_map_not_iff {α β : Type} (xs : List α) (f : α → β) (may : β → Bool) :
    (xs.map f).any (fun a => !may a) = true ↔ ∃ k ∈ xs, may (f k) = false := by simp

/-! ### What an access leaves alone -/

section
variable (s : State)

theorem State.takePoison_eq (a n : Nat) : (s.takePoison a n).2 = { s with poison := (s.takePoison a n).2.poison } := rfl

/-- A charge moves Toll Gates only. -/
theorem State.charge_eq (c a n : Nat) : s.charge c a n = { s with parts := (s.charge c a n).parts } := by
  unfold State.charge
  split <;> rfl

theorem State.chargeAll_eq (c n : Nat) (as : List Nat) : s.chargeAll c n as = { s with parts := (s.chargeAll c n as).parts } := by
  unfold State.chargeAll
  refine List.foldlRecOn (motive := fun t : State => t = { s with parts := t.parts }) _ _ rfl fun t ht a _ => ?_
  rw [t.charge_eq, ht]

/-- Messages to other packages, one after the other. -/
theorem State.foldl_sendMsg_eq {α : Type} (xs : List α) (dst : α → Nat) (type ctx : Nat) (fields : α → List Nat) (body : α → List Byte) :
    ∃ fab, xs.foldl (fun t x => t.sendMsg (dst x) type ctx (fields x) (body x)) s =
      { s with out := s.out ++ xs.map (fun x => .msg (dst x) type ctx (fields x) (body x)), fab := fab } := by
  induction xs generalizing s with
  | nil => exact ⟨s.fab, by rw [List.map_nil, List.append_nil]; rfl⟩
  | cons x r ih =>
    obtain ⟨fab, h⟩ := ih (s.sendMsg (dst x) type ctx (fields x) (body x))
    refine ⟨fab, ?_⟩
    rw [List.foldl_cons, h, State.sendMsg_eq]
    simp

end

section
variable {s : State} {c id i w : Nat} {l : Launch} {g : Str}

/-- R234: an uncorrectable error of a lane's access ends its launch. -/
theorem State.loadUe_ends (hl : (s.ctx c).launch id = some l) (hdying : l.dying = none) (a : Nat) :
    ((∀ y ∈ l.strs, s.storesDone y = true) →
      ((s.loadUe c id i a).ctx c).launch id = none ∧ ((s.loadUe c id i a).ctx c).launchState id = some 4) ∧
    ((∃ y ∈ l.strs, s.storesDone y = false) → ∃ x, ((s.loadUe c id i a).ctx c).launch id = some x ∧ x.dying = some 4 ∧
      ∀ y ∈ x.strs, y.st = 2) := by
  have hlu : ((s.memUe c a).ctx c).launch id = some l := by
    have hlanes := congrArg Ctx.lanes (State.ctx_bumpCtx s c c .memUe 1)
    rw [← hl]
    exact congrArg (fun x : Lanes => x.launches.find? (fun l => l.id == id)) hlanes
  obtain ⟨hgone, hwaits⟩ := State.killLaunch_ends (st := 4) hlu hdying (by simp)
  refine ⟨hgone, fun hsome => ?_⟩
  obtain ⟨x, hx, hdy, -, hstrs⟩ := hwaits hsome
  exact ⟨x, hx, hdy, hstrs⟩

/-! ### Which access is held back or poisoned -/

theorem State.heldLane_none {as : List Nat} (h : ∀ a ∈ as, s.local_ a = true → s.heldAt c (a % 2 ^ 57) = false) :
    s.heldLane c as = none := by
  rw [State.heldLane, List.find?_eq_none]
  intro a ha
  cases hlocal : s.local_ a <;> simp [-Nat.reducePow, hlocal, h a ha]

theorem State.poisoned_none {as : List Nat} {n : Nat} (hpoison : s.poison = [])
    (hfar : ∀ a ∈ as, s.local_ a = false → s.fab.departed.contains (aPkg a) = false) : s.poisoned none n as = none := by
  rw [State.poisoned, List.find?_eq_none]
  intro a ha
  have hclean : (s.takePoison (a % 2 ^ 57) n).1 = false := by rw [State.takePoison, hpoison]; rfl
  cases hlocal : s.local_ a with
  | false => simpa [hlocal] using hfar a ha hlocal
  | true => simp [-Nat.reducePow, hclean]

theorem State.poisoned_read (a n : Nat) : s.poisoned (some a) n [a] = some a := by
  rw [State.poisoned, List.find?_cons, beq_self_eq_true, Bool.true_or]

theorem State.heldLane_single {a : Nat} (hlocal : s.local_ a = true) (hheld : s.heldAt c (a % 2 ^ 57) = true) :
    s.heldLane c [a] = some a := by simp [-Nat.reducePow, State.heldLane, hlocal, hheld]

/-- What an access within the shares comes to: held back, poisoned, or made. -/
def accessEnd (held poisoned : Option Nat) (wait hit : Nat → State) (made : State) : State :=
  match held, poisoned with
  | some a, _ => wait a
  | none, some a => hit a
  | none, none => made

theorem accessEnd_held (a : Nat) (poisoned : Option Nat) (wait hit : Nat → State) (made : State) :
    accessEnd (some a) poisoned wait hit made = wait a := rfl

theorem accessEnd_hit (a : Nat) (wait hit : Nat → State) (made : State) : accessEnd none (some a) wait hit made = hit a := rfl

theorem accessEnd_made (wait hit : Nat → State) (made : State) : accessEnd none none wait hit made = made := rfl

/-! ### LD -/

/-- A load that leaves the shares of the context. -/
theorem load_faults (ue : Option Nat) (h : Ready s 0x60 c id i l g w)
    (hbad : ∃ k ∈ g.lanes w, s.laneMay c (g.address w k) (accessBytes (iImm w % 4)) false = false) :
    load c id i ue s = s.stringFault c id i := by
  unfold load
  rw [runStr_ready s _ h]
  exact if_pos ((any_map_not_iff (g.lanes w) (g.address w) _).mpr hbad)

/-- A load within the shares: held back, poisoned, or made. -/
theorem load_ready (ue : Option Nat) (h : Ready s 0x60 c id i l g w)
    (hmay : ∀ k ∈ g.lanes w, s.laneMay c (g.address w k) (accessBytes (iImm w % 4)) false = true) :
    let z := iImm w % 4
    let n := accessBytes z
    let as := (g.lanes w).map (g.address w)
    load c id i ue s = accessEnd (s.heldLane c as) (s.poisoned ue n as) (fun a => s.heldWait c (a % 2 ^ 57))
      (fun a => ((s.takePoison (a % 2 ^ 57) n).2.chargeAll c n as).loadUe c id i a)
      (
        let far := ((g.lanes w).filter (fun l => !s.local_ (g.address w l))).map (fun l => (l, aPkg (g.address w l)))
        let g1 := g.setReg (iDst w) (fun l => g.guard w l && s.local_ (g.address w l))
          (fun l => loadValue z (g.address w l) (s.rawLoad l (g.address w l) n))
        let g2 := { g1.next with wait := if far.isEmpty then .none else .mem (iDst w) far }
        (far.foldl (fun t f => t.sendMsg f.2 0x20 c [g.address w f.1, n] (toLE 8 (g.address w f.1) ++ toLE 8 n))
          ((s.putStr c id i g2).chargeAll c n as)).freed) := by
  unfold load
  rw [runStr_ready s _ h]
  refine if_neg fun hany => ?_
  obtain ⟨k, hk, hbad⟩ := (any_map_not_iff (g.lanes w) (g.address w) _).mp hany
  exact Bool.false_ne_true (hbad.symm.trans (hmay k hk))

/-- What stands on the lanes is in the contexts. -/
theorem State.strAt_of_ctxs {t : State} (h : t.ctxs = s.ctxs) (c id i : Nat) : t.strAt c id i = s.strAt c id i := by
  rw [State.strAt, State.strAt, State.ctx, State.ctx, h]

/-- A register written in the guarded lanes, by a string that goes on. -/
theorem Str.wrote_setReg {on : Nat → Bool} {v f : Nat → Nat} (hwait : g.wait = .none) (hon : ∀ k < 64, on k = g.guard w k)
    (hv : ∀ k < 64, g.guard w k = true → v k % 2 ^ 32 = f k % 2 ^ 32) :
    Wrote g w f { (g.setReg (iDst w) on v).next with wait := .none } := by
  constructor
  · intro r hr k hk
    have hreg : ({ (g.setReg (iDst w) on v).next with wait := .none } : Str).reg r k = (g.setReg (iDst w) on v).reg r k := by
      simp only [Str.next, Str.reg]
    rw [hreg, Str.setReg_reg _ _ _ _ _ _ hr hk, hon k hk]
    by_cases hguard : r = iDst w ∧ g.guard w k = true
    · rw [if_pos hguard, if_pos hguard, hv k hk hguard.2]
    · rw [if_neg hguard, if_neg hguard]
  · simp only [Str.next, Str.setReg, ← hwait]

/-- R180: a load of this package writes the guarded lanes. -/
theorem load_local (h : Ready s 0x60 c id i l g w) (hpoison : s.poison = [])
    (hmay : ∀ k ∈ g.lanes w, s.laneMay c (g.address w k) (accessBytes (iImm w % 4)) false = true)
    (hlocal : ∀ k ∈ g.lanes w, s.local_ (g.address w k) = true)
    (hfree : ∀ k ∈ g.lanes w, s.heldAt c (g.address w k % 2 ^ 57) = false)
    (hplain : ∀ k ∈ g.lanes w, ¬ (aKind (g.address w k) = 0 ∧ region (aOff (g.address w k)) = 3)) :
    ∃ (parts : List Part) (g' : Str), load c id i none s = { s.putStr c id i g' with parts := parts, freeCtr := s.freeCtr + 1 } ∧
      Wrote g w (fun k => loadValue (iImm w % 4) (g.address w k)
        (s.numAt (g.address w k % 2 ^ 57) (accessBytes (iImm w % 4)))) g' := by
  have hheld : s.heldLane c ((g.lanes w).map (g.address w)) = none :=
    State.heldLane_none fun a ha _ => by
      obtain ⟨k, hk, rfl⟩ := List.mem_map.mp ha
      exact hfree k hk
  have hclean : s.poisoned none (accessBytes (iImm w % 4)) ((g.lanes w).map (g.address w)) = none :=
    State.poisoned_none hpoison fun a ha hfar => by
      obtain ⟨k, hk, rfl⟩ := List.mem_map.mp ha
      exact Bool.false_ne_true (hfar.symm.trans (hlocal k hk)) |>.elim
  have hfar : (g.lanes w).filter (fun k => !s.local_ (g.address w k)) = [] :=
    List.filter_eq_nil_iff.mpr fun k hk => by simp [hlocal k hk]
  have hload := load_ready none h hmay
  dsimp only at hload
  rw [hheld, hclean, accessEnd_made] at hload
  rw [hfar] at hload
  simp only [List.map_nil, List.foldl_nil, List.isEmpty_nil, if_true] at hload
  rw [hload, State.chargeAll_eq]
  refine ⟨_, _, rfl, Str.wrote_setReg h.free (fun k hk => ?_) fun k hk hguard => ?_⟩
  · cases hguard : g.guard w k with
    | false => rw [Bool.false_and]
    | true => rw [Bool.true_and, hlocal k (Str.mem_lanes.mpr ⟨hk, hguard⟩)]
  · rw [State.rawLoad, if_neg (hplain k (Str.mem_lanes.mpr ⟨hk, hguard⟩))]

/-- R326: one access that a Toll Gate holds back. -/
theorem load_held {k : Nat} (ue : Option Nat) (h : Ready s 0x60 c id i l g w) (hlanes : g.lanes w = [k])
    (hmay : s.laneMay c (g.address w k) (accessBytes (iImm w % 4)) false = true) (hlocal : s.local_ (g.address w k) = true)
    (hheld : s.heldAt c (g.address w k % 2 ^ 57) = true) : load c id i ue s = s.heldWait c (g.address w k % 2 ^ 57) := by
  have hload := load_ready ue h fun j hj => by
    rw [hlanes, List.mem_singleton] at hj
    rw [hj, hmay]
  dsimp only at hload
  rw [hload, hlanes, List.map_singleton, State.heldLane_single hlocal hheld, accessEnd_held]

/-- R234: one access whose read meets an uncorrectable error. -/
theorem load_poisoned {k : Nat} (h : Ready s 0x60 c id i l g w) (hlanes : g.lanes w = [k])
    (hmay : s.laneMay c (g.address w k) (accessBytes (iImm w % 4)) false = true)
    (hfree : s.heldAt c (g.address w k % 2 ^ 57) = false) :
    ∃ (parts : List Part) (poison : List Nat), load c id i (some (g.address w k)) s =
      ({ s with parts := parts, poison := poison }).loadUe c id i (g.address w k) := by
  have hload := load_ready (some (g.address w k)) h fun j hj => by
    rw [hlanes, List.mem_singleton] at hj
    rw [hj, hmay]
  have hheld : s.heldLane c [g.address w k] = none := State.heldLane_none fun a ha _ => by
    rw [List.mem_singleton] at ha
    rw [ha, hfree]
  dsimp only at hload
  rw [hlanes, List.map_singleton, hheld, State.poisoned_read, accessEnd_hit] at hload
  rw [State.chargeAll_eq, State.takePoison_eq] at hload
  exact ⟨_, _, hload⟩

/-- R180: a load of another package waits for its data. -/
theorem load_far (h : Ready s 0x60 c id i l g w) (hpoison : s.poison = [])
    (hmay : ∀ k ∈ g.lanes w, s.laneMay c (g.address w k) (accessBytes (iImm w % 4)) false = true)
    (hfar : ∀ k ∈ g.lanes w, s.local_ (g.address w k) = false)
    (hthere : ∀ k ∈ g.lanes w, s.fab.departed.contains (aPkg (g.address w k)) = false) (hsome : g.lanes w ≠ []) :
    ∃ (fab : Fabric) (parts : List Part) (g' : Str), load c id i none s = { s.putStr c id i g' with
        parts := parts, freeCtr := s.freeCtr + 1, fab := fab,
        out := s.out ++ (g.lanes w).map (fun k => .msg (aPkg (g.address w k)) 0x20 c
          [g.address w k, accessBytes (iImm w % 4)] (toLE 8 (g.address w k) ++ toLE 8 (accessBytes (iImm w % 4)))) } ∧
      g' = { g with pc := g.pc + 1, wait := g'.wait, regs := g'.regs } ∧ (∀ r < 16, ∀ k < 64, g'.reg r k = g.reg r k) ∧
      g'.wait = .mem (iDst w) ((g.lanes w).map (fun k => (k, aPkg (g.address w k)))) := by
  have hheld : s.heldLane c ((g.lanes w).map (g.address w)) = none := State.heldLane_none fun a ha hlocal => by
    obtain ⟨k, hk, rfl⟩ := List.mem_map.mp ha
    exact (Bool.false_ne_true ((hfar k hk).symm.trans hlocal)).elim
  have hclean : s.poisoned none (accessBytes (iImm w % 4)) ((g.lanes w).map (g.address w)) = none :=
    State.poisoned_none hpoison fun a ha _ => by
      obtain ⟨k, hk, rfl⟩ := List.mem_map.mp ha
      exact hthere k hk
  have hall : (g.lanes w).filter (fun k => !s.local_ (g.address w k)) = g.lanes w :=
    List.filter_eq_self.mpr fun k hk => by rw [hfar k hk]; rfl
  have hnone : ∀ k < 64, (g.guard w k && s.local_ (g.address w k)) = false := fun k hk => by
    cases hguard : g.guard w k with
    | false => rw [Bool.false_and]
    | true => rw [Bool.true_and, hfar k (Str.mem_lanes.mpr ⟨hk, hguard⟩)]
  have hload := load_ready none h hmay
  dsimp only at hload
  rw [hheld, hclean, accessEnd_made] at hload
  rw [hall, if_neg (by simpa using hsome)] at hload
  obtain ⟨fab, hsent⟩ := State.foldl_sendMsg_eq
    ((s.putStr c id i _).chargeAll c (accessBytes (iImm w % 4)) ((g.lanes w).map (g.address w)))
    ((g.lanes w).map (fun k => (k, aPkg (g.address w k)))) (fun f => f.2) 0x20 c
    (fun f => [g.address w f.1, accessBytes (iImm w % 4)])
    (fun f => toLE 8 (g.address w f.1) ++ toLE 8 (accessBytes (iImm w % 4)))
  rw [hsent, State.chargeAll_eq, List.map_map] at hload
  refine ⟨fab, _, _, hload, ?_, fun r hr k hk => ?_, rfl⟩
  · simp only [Str.next, Str.setReg]
  · have hsame (on : Nat → Bool) (v : Nat → Nat) (hon : on k = false) : (g.setReg (iDst w) on v).reg r k = g.reg r k := by
      rw [Str.setReg_reg _ _ _ _ _ _ hr hk, hon]
      exact if_neg fun h => Bool.false_ne_true h.2
    simpa only [Str.next, Str.reg] using hsame _ _ (hnone k hk)

/-! ### Data of other packages -/

/-- R180: the last lane that a string waits for. -/
theorem State.laneData_last {lane p dst : Nat} (v : Nat) (hstr : s.strAt c id i = some g) (hwait : g.wait = .mem dst [(lane, p)])
    (hword : s.loadWord c id i = some w) :
    ∃ g' : Str, s.laneData c id i lane v false = s.putStr c id i g' ∧ g'.wait = .none ∧ g'.pc = g.pc ∧ g'.preds = g.preds ∧
      ∀ r < 16, ∀ k < 64, g'.reg r k = if r = dst ∧ k = lane
        then loadValue (iImm w % 4) (g.address w lane) v % 2 ^ 32 else g.reg r k := by
  have hlaunch : ((s.ctx c).launch id).bind (fun l => l.strs[i]?) = some g := hstr
  have hfind : [(lane, p)].find? (fun e => e.1 == lane) = some (lane, p) := by simp
  have hrest : [(lane, p)].filter (fun e => e.1 != lane) = [] := by simp
  refine ⟨{ g.setReg dst (fun l => l == lane) (fun _ => loadValue (iImm w % 4) (g.address w lane) v) with wait := .none }, ?_, rfl, ?_, ?_,
    fun r hr k hk => ?_⟩
  · unfold State.laneData
    rw [hlaunch]
    dsimp only
    rw [hwait]
    dsimp only
    rw [hfind, hword, hrest]
    rfl
  · simp only [Str.setReg]
  · simp only [Str.setReg]
  · have hreg := Str.setReg_reg g dst r k (fun l => l == lane) (fun _ => loadValue (iImm w % 4) (g.address w lane) v) hr hk
    simpa only [Str.reg, beq_iff_eq] using hreg

/-! ### ST -/

theorem store_faults (h : Ready s 0x61 c id i l g w)
    (hbad : ∃ k ∈ g.lanes w, s.laneMay c (g.address w k) (accessBytes (iImm w % 4)) true = false) :
    store c id i s = s.stringFault c id i := by
  unfold store
  rw [runStr_ready s _ h]
  exact if_pos ((any_map_not_iff (g.lanes w) (g.address w) _).mpr hbad)

/-- The stores of lanes, one after the other. -/
def State.storeLanes (s : State) (c z : Nat) (g : Str) (w : Nat) (ls : List Nat) : State :=
  ls.foldl (fun t k => t.storeLane c z (g.address w k) (g.srcC w k) k) s

theorem store_made (h : Ready s 0x61 c id i l g w)
    (hmay : ∀ k ∈ g.lanes w, s.laneMay c (g.address w k) (accessBytes (iImm w % 4)) true = true)
    (hheld : s.heldLane c ((g.lanes w).map (g.address w)) = none) :
    let as := (g.lanes w).map (g.address w)
    let s1 := s.storeLanes c (iImm w % 4) g w (s.laneOrder (g.lanes w))
    store c id i s = ((s1.chargeAll c (accessBytes (iImm w % 4)) as).putStr c id i
      { g.next with sent := s1.sentMarks g.sent ((as.filter (fun a => !s.local_ a)).map aPkg) }).freed := by
  unfold store
  rw [runStr_ready s _ h]
  refine (if_neg fun hany => ?_).trans ?_
  · obtain ⟨k, hk, hbad⟩ := (any_map_not_iff (g.lanes w) (g.address w) _).mp hany
    exact Bool.false_ne_true (hbad.symm.trans (hmay k hk))
  · rw [hheld]
    rfl

/-- The order between lanes is one of the lanes. -/
theorem State.mem_laneOrder {k : Nat} : k ∈ s.laneOrder (g.lanes w) ↔ k ∈ g.lanes w := (sortBy_perm _ _).mem_iff

theorem State.nodup_laneOrder : (s.laneOrder (g.lanes w)).Nodup := (sortBy_perm _ _).nodup_iff.mpr (List.nodup_range.filter _)

theorem accessBytes_pos (z : Nat) : 0 < accessBytes z := by
  unfold accessBytes
  split
  · decide
  · split <;> decide

theorem storeBytes_length (z a old v : Nat) : (storeBytes z a old v).length = accessBytes z := by
  unfold storeBytes
  split
  · next hz => rw [toLE_length, hz]; rfl
  · rw [toLE_length]

/-- Stores of this package move memory only, and there only the bytes that they name. -/
theorem State.storeLanes_local {z : Nat} {ls : List Nat} (hlocal : ∀ k ∈ ls, s.local_ (g.address w k) = true) :
    s.storeLanes c z g w ls = { s with mem := (s.storeLanes c z g w ls).mem } ∧
    ∀ a, (∀ k ∈ ls, a < g.address w k % 2 ^ 57 ∨ g.address w k % 2 ^ 57 + accessBytes z ≤ a) →
      (s.storeLanes c z g w ls).byteAt a = s.byteAt a := by
  induction ls generalizing s with
  | nil => exact ⟨rfl, fun _ _ => rfl⟩
  | cons x r ih =>
    have hx : s.storeLane c z (g.address w x) (g.srcC w x) x = s.writeAt (g.address w x % 2 ^ 57)
        (storeBytes z (g.address w x) (s.numAt (g.address w x % 2 ^ 57) 1) (g.srcC w x)) := if_pos (hlocal x List.mem_cons_self)
    have hcons : s.storeLanes c z g w (x :: r) = (s.writeAt (g.address w x % 2 ^ 57)
        (storeBytes z (g.address w x) (s.numAt (g.address w x % 2 ^ 57) 1) (g.srcC w x))).storeLanes c z g w r := by
      rw [← hx]
      rfl
    obtain ⟨hrest, hbytes⟩ := ih (s := s.writeAt (g.address w x % 2 ^ 57) _) fun k hk => hlocal k (List.mem_cons_of_mem _ hk)
    rw [hcons]
    refine ⟨by rw [hrest]; rfl, fun a ha => ?_⟩
    rw [hbytes a fun k hk => ha k (List.mem_cons_of_mem _ hk), State.byteAt_writeAt, storeBytes_length]
    exact if_neg fun hin => absurd (ha x List.mem_cons_self) (by rw [not_or]; exact ⟨not_lt.mpr hin.1, not_le.mpr hin.2⟩)

theorem State.bytesAt_congr {t : State} {a n : Nat} (h : ∀ x, a ≤ x → x < a + n → t.byteAt x = s.byteAt x) :
    t.bytesAt a n = s.bytesAt a n :=
  List.map_congr_left fun _ hj => h _ (Nat.le_add_right ..) (Nat.add_lt_add_left (List.mem_range.mp hj) _)

/-- The store of a lane stands where no other lane stores. -/
theorem State.storeLanes_value {z k : Nat} {ls : List Nat} (hlocal : ∀ k ∈ ls, s.local_ (g.address w k) = true) (hnodup : ls.Nodup)
    (hk : k ∈ ls) (hapart : ∀ j ∈ ls, j ≠ k → g.address w j % 2 ^ 57 + accessBytes z ≤ g.address w k % 2 ^ 57 ∨
      g.address w k % 2 ^ 57 + accessBytes z ≤ g.address w j % 2 ^ 57) :
    (s.storeLanes c z g w ls).bytesAt (g.address w k % 2 ^ 57) (accessBytes z) =
      storeBytes z (g.address w k) (s.numAt (g.address w k % 2 ^ 57) 1) (g.srcC w k) := by
  induction ls generalizing s with
  | nil => cases hk
  | cons x r ih =>
    have hlocal' : ∀ k ∈ r, s.local_ (g.address w k) = true := fun k hk => hlocal k (List.mem_cons_of_mem _ hk)
    have hcons : s.storeLanes c z g w (x :: r) = (s.writeAt (g.address w x % 2 ^ 57)
        (storeBytes z (g.address w x) (s.numAt (g.address w x % 2 ^ 57) 1) (g.srcC w x))).storeLanes c z g w r :=
      congrArg (fun t : State => t.storeLanes c z g w r) (if_pos (hlocal x List.mem_cons_self))
    obtain ⟨hx, hr⟩ := List.nodup_cons.mp hnodup
    rw [hcons]
    by_cases hxk : x = k
    · subst hxk
      have hlen := storeBytes_length z (g.address w x) (s.numAt (g.address w x % 2 ^ 57) 1) (g.srcC w x)
      generalize storeBytes z (g.address w x) (s.numAt (g.address w x % 2 ^ 57) 1) (g.srcC w x) = bs at hlen
      have hlater := (State.storeLanes_local (c := c) (z := z) (s := s.writeAt (g.address w x % 2 ^ 57) bs) hlocal').2
      rw [State.bytesAt_congr (s := s.writeAt (g.address w x % 2 ^ 57) bs) fun y hlo hhi => hlater y fun j hj => ?_, ← hlen,
        State.bytesAt_writeAt_same]
      have hj' := hapart j (List.mem_cons_of_mem _ hj) fun h => hx (h ▸ hj)
      generalize g.address w j % 2 ^ 57 = aj at hj' ⊢
      generalize g.address w x % 2 ^ 57 = ax at hj' hlo hhi
      omega
    · have hkr : k ∈ r := (List.mem_cons.mp hk).resolve_left (Ne.symm hxk)
      have hold (bs : List Byte) (hlen : bs.length = accessBytes z) :
          (s.writeAt (g.address w x % 2 ^ 57) bs).numAt (g.address w k % 2 ^ 57) 1 = s.numAt (g.address w k % 2 ^ 57) 1 := by
        have hx' := hapart x List.mem_cons_self hxk
        have hpos := accessBytes_pos z
        refine congrArg ofLE (State.bytesAt_congr fun y hlo hhi => ?_)
        rw [State.byteAt_writeAt, hlen]
        generalize g.address w k % 2 ^ 57 = ak at *
        generalize g.address w x % 2 ^ 57 = ax at *
        exact if_neg (by omega)
      refine (ih (s := s.writeAt _ _) hlocal' hr hkr fun j hj => hapart j (List.mem_cons_of_mem _ hj)).trans ?_
      rw [hold _ (storeBytes_length ..)]

/-- A lane's access is aligned. -/
theorem State.aligned_of_laneMay {a n : Nat} {st : Bool} (h : s.laneMay c a n st = true) : a % n = 0 := by
  simp only [State.laneMay, Bool.and_eq_true] at h
  exact beq_iff_eq.mp h.1.1

/-- Aligned accesses of one size are the same or lie apart. -/
theorem aligned_apart {a b : Nat} (z : Nat) (ha : a % accessBytes z = 0) (hb : b % accessBytes z = 0) (hne : a % 2 ^ 57 ≠ b % 2 ^ 57) :
    a % 2 ^ 57 + accessBytes z ≤ b % 2 ^ 57 ∨ b % 2 ^ 57 + accessBytes z ≤ a % 2 ^ 57 := by
  unfold accessBytes at *
  split_ifs at * <;> omega

/-- The message of a store of another package. -/
def State.storeMsg (s : State) (c z : Nat) (g : Str) (w k : Nat) : Out :=
  .msg (aPkg (g.address w k)) 0x22 c [g.address w k]
    (toLE 8 (g.address w k) ++ storeBytes z (g.address w k) (s.free (64 + k)) (g.srcC w k))

theorem State.storeLane_far {z k : Nat} (hfar : s.local_ (g.address w k) = false) :
    ∃ fab, s.storeLane c z (g.address w k) (g.srcC w k) k = { s with out := s.out ++ [s.storeMsg c z g w k], fab := fab } :=
  ⟨_, (if_neg (by rw [hfar]; exact Bool.false_ne_true)).trans (State.sendMsg_eq ..)⟩

theorem State.storeMsg_of_freeCtr {t : State} (h : t.freeCtr = s.freeCtr) : t.storeMsg c = s.storeMsg c := by
  funext z g w k
  rw [State.storeMsg, State.storeMsg, State.free, State.free, h]

/-- Stores of other packages are messages. -/
theorem State.storeLanes_far {z : Nat} {ls : List Nat} (hfar : ∀ k ∈ ls, s.local_ (g.address w k) = false) :
    ∃ fab, s.storeLanes c z g w ls = { s with out := s.out ++ ls.map (s.storeMsg c z g w), fab := fab } := by
  induction ls generalizing s with
  | nil => exact ⟨s.fab, by rw [List.map_nil, List.append_nil]; rfl⟩
  | cons x r ih =>
    obtain ⟨fab, hx⟩ := State.storeLane_far (c := c) (z := z) (hfar x List.mem_cons_self)
    obtain ⟨fab', hr⟩ := ih (s := { s with out := s.out ++ [s.storeMsg c z g w x], fab := fab })
      fun k hk => hfar k (List.mem_cons_of_mem _ hk)
    rw [State.storeMsg_of_freeCtr (s := s) (by rfl)] at hr
    refine ⟨fab', ?_⟩
    rw [State.storeLanes, List.foldl_cons, hx, List.map_cons, List.append_cons _ _ (r.map _)]
    exact hr

/-- R183: stores of this package by the guarded lanes. -/
theorem store_local (h : Ready s 0x61 c id i l g w)
    (hmay : ∀ k ∈ g.lanes w, s.laneMay c (g.address w k) (accessBytes (iImm w % 4)) true = true)
    (hlocal : ∀ k ∈ g.lanes w, s.local_ (g.address w k) = true)
    (hfree : ∀ k ∈ g.lanes w, s.heldAt c (g.address w k % 2 ^ 57) = false) :
    ∃ parts : List Part, store c id i s = { s.putStr c id i { g with pc := g.pc + 1 } with
      parts := parts, freeCtr := s.freeCtr + 1, mem := (s.storeLanes c (iImm w % 4) g w (s.laneOrder (g.lanes w))).mem } := by
  have hheld : s.heldLane c ((g.lanes w).map (g.address w)) = none :=
    State.heldLane_none fun a ha _ => by
      obtain ⟨k, hk, rfl⟩ := List.mem_map.mp ha
      exact hfree k hk
  have hnone : ((g.lanes w).map (g.address w)).filter (fun a => !s.local_ a) = [] := List.filter_eq_nil_iff.mpr fun a ha => by
    obtain ⟨k, hk, rfl⟩ := List.mem_map.mp ha
    rw [hlocal k hk]
    decide
  have hstore := store_made h hmay hheld
  dsimp only at hstore
  obtain ⟨hrest, -⟩ := State.storeLanes_local (c := c) (z := iImm w % 4) (ls := s.laneOrder (g.lanes w))
    fun k hk => hlocal k (State.mem_laneOrder.mp hk)
  rw [hnone, List.map_nil, State.sentMarks, List.map_nil, List.append_nil, State.chargeAll_eq, hrest] at hstore
  exact ⟨_, hstore⟩

/-- R183: stores of other packages. -/
theorem store_far (h : Ready s 0x61 c id i l g w)
    (hmay : ∀ k ∈ g.lanes w, s.laneMay c (g.address w k) (accessBytes (iImm w % 4)) true = true)
    (hfar : ∀ k ∈ g.lanes w, s.local_ (g.address w k) = false) :
    ∃ (parts : List Part) (fab : Fabric) (out : List Out) (g' : Str), store c id i s = { s.putStr c id i g' with
        parts := parts, freeCtr := s.freeCtr + 1, fab := fab, out := out } ∧
      g' = { g with pc := g.pc + 1, sent := g'.sent } ∧ g'.sent.length = g.sent.length + (g.lanes w).length ∧
      ∀ k ∈ g.lanes w, ∃ bs, Out.msg (aPkg (g.address w k)) 0x22 c [g.address w k] bs ∈ out := by
  have hheld : s.heldLane c ((g.lanes w).map (g.address w)) = none := State.heldLane_none fun a ha hlocal => by
    obtain ⟨k, hk, rfl⟩ := List.mem_map.mp ha
    exact (Bool.false_ne_true ((hfar k hk).symm.trans hlocal)).elim
  have hall : ((g.lanes w).map (g.address w)).filter (fun a => !s.local_ a) = (g.lanes w).map (g.address w) :=
    List.filter_eq_self.mpr fun a ha => by
      obtain ⟨k, hk, rfl⟩ := List.mem_map.mp ha
      rw [hfar k hk]
      decide
  have hstore := store_made h hmay hheld
  dsimp only at hstore
  obtain ⟨fab, hsent⟩ := State.storeLanes_far (c := c) (z := iImm w % 4) (ls := s.laneOrder (g.lanes w))
    fun k hk => hfar k (State.mem_laneOrder.mp hk)
  rw [hall, State.chargeAll_eq, hsent] at hstore
  refine ⟨_, _, _, _, hstore, rfl, ?_, fun k hk => ⟨_, List.mem_append_right _ (List.mem_map.mpr ⟨k, State.mem_laneOrder.mpr hk, rfl⟩)⟩⟩
  simp only [State.sentMarks, List.length_append, List.length_map]

end

/-- Settles O34. -/
theorem loadsAndStores : Obligations.LoadsAndStores := by
  unfold Obligations.LoadsAndStores
  refine ⟨fun c id i l g w s h hpoison => ?_, fun a v => rfl, fun c id i k l g w ue s h hlanes hmay hlocal => ?_,
    fun c id i l g w ue s h hbad => congrArg Host.Outcome.next (load_faults ue h hbad), fun c id i l g w s h hpoison => ?_,
    fun c id i lane v g dst p w s hstr hwait hword _ _ => ?_, fun c id i l g w s h => ?_,
    fun c id i l g w s h => ?_, fun c id i l g w s h hbad => ?_⟩
  · intro n hall
    obtain ⟨parts, g', hrun, hwrote⟩ := load_local h hpoison (fun k hk => (hall k hk).1) (fun k hk => (hall k hk).2.1)
      (fun k hk => (hall k hk).2.2.1) (fun k hk => (hall k hk).2.2.2)
    exact ⟨_, g', congrArg Host.Outcome.next hrun, State.strAt_putStr h.strAt, rfl, rfl, rfl, rfl, rfl, hwrote⟩
  · refine ⟨fun hheld => congrArg Host.Outcome.next (load_held ue h hlanes hmay hlocal hheld), fun hfree hue hdying => ?_⟩
    obtain ⟨parts, poison, hrun⟩ := load_poisoned h hlanes hmay hfree
    have hl : (({ s with parts := parts, poison := poison } : State).ctx c).launch id = some l := (State.atWord_eq h.found).1
    exact ⟨_, congrArg Host.Outcome.next (hue ▸ hrun), State.loadUe_ends hl hdying _⟩
  · intro n hall hlanes
    obtain ⟨fab, parts, g', hrun, hframe, hregs, hwait⟩ := load_far h hpoison (fun k hk => (hall k hk).1) (fun k hk => (hall k hk).2.1)
      (fun k hk => (hall k hk).2.2) hlanes
    exact ⟨_, g', congrArg Host.Outcome.next hrun, State.strAt_putStr h.strAt, rfl, hframe, hregs, hwait,
      fun k hk => ⟨_, List.mem_append_right _ (List.mem_map.mpr ⟨k, hk, rfl⟩)⟩⟩
  · obtain ⟨g', hrun, hrest⟩ := State.laneData_last (ofLE (toLE 4 v)) hstr hwait hword
    exact ⟨g', congrArg Host.Outcome.next hrun, hrest⟩
  · intro z n hall
    obtain ⟨parts, hrun⟩ := store_local h (fun k hk => (hall k hk).1) (fun k hk => (hall k hk).2.1) (fun k hk => (hall k hk).2.2)
    have hlocal : ∀ k ∈ s.laneOrder (g.lanes w), s.local_ (g.address w k) = true := fun k hk =>
      (hall k (State.mem_laneOrder.mp hk)).2.1
    refine ⟨_, congrArg Host.Outcome.next hrun, State.strAt_putStr h.strAt, rfl, rfl, rfl, rfl, fun a ha => ?_, fun k hk hapart => ?_⟩
    · exact (State.storeLanes_local hlocal).2 a fun k hk => ha k (State.mem_laneOrder.mp hk)
    · refine State.storeLanes_value (z := z) hlocal State.nodup_laneOrder (State.mem_laneOrder.mpr hk) fun j hj hjk => ?_
      have hj' := State.mem_laneOrder.mp hj
      exact aligned_apart z (State.aligned_of_laneMay (hall j hj').1) (State.aligned_of_laneMay (hall k hk).1)
        ((hapart j hj').resolve_left hjk)
  · intro n hall _
    obtain ⟨parts, fab, out, g', hrun, hframe, hlength, hmsgs⟩ := store_far h (fun k hk => (hall k hk).1) (fun k hk => (hall k hk).2)
    exact ⟨_, g', congrArg Host.Outcome.next hrun, State.strAt_putStr h.strAt, rfl, hframe, hlength, hmsgs⟩
  · exact congrArg Host.Outcome.next (store_faults h hbad)

end Machine
end Sys2Proof
end

section
/-! PROOFS. Atomic additions of lanes, one after the other in an order that is open, FENCE and TLOOK (08 R184, R190; 11 R244). -/

namespace Sys2Proof
namespace Machine

/-! ### Words of memory -/

theorem ofLE_toLE (n x : Nat) : ofLE (toLE n x) = x % 256 ^ n := by
  induction n generalizing x with
  | zero => rw [pow_zero, Nat.mod_one]; rfl
  | succ n ih => rw [toLE, ofLE, ih, pow_succ', Nat.mod_mul, BitVec.toNat_ofNat]

section
variable {s : State} {c id i w : Nat} {l : Launch} {g : Str}

theorem State.numAt_lt (s : State) (a n : Nat) : s.numAt a n < 256 ^ n := by
  have h := ofLE_lt (s.bytesAt a n)
  rwa [State.bytesAt, List.length_map, List.length_range] at h

/-- A word read where a word was written, or elsewhere. -/
theorem State.numAt_writeAt {a b : Nat} (v : Nat) (ha : a % 4 = 0) (hb : b % 4 = 0) :
    (s.writeAt b (toLE 4 v)).numAt a 4 = if b = a then v % 2 ^ 32 else s.numAt a 4 := by
  by_cases hab : b = a
  · subst hab
    have hsame := State.bytesAt_writeAt_same s b (toLE 4 v)
    rw [toLE_length] at hsame
    rw [if_pos rfl, State.numAt, hsame, ofLE_toLE]
    norm_num
  · rw [if_neg hab]
    refine congrArg ofLE (State.bytesAt_congr fun x hlo hhi => ?_)
    rw [State.byteAt_writeAt, toLE_length]
    exact if_neg (by omega)

/-! ### One lane after the other -/

/-- The word that a lane adds to. -/
def Str.wordAddr (g : Str) (w k : Nat) : Nat := g.address w k % 2 ^ 57

/-- The state after the additions of lanes. -/
def State.addLanes (s : State) (float : Bool) (g : Str) (w : Nat) (ls : List Nat) : State := (atomicLanes float g w ls s).1

/-- The old value that a lane takes. -/
def State.oldValue (s : State) (float : Bool) (g : Str) (w : Nat) (ls : List Nat) (k : Nat) : Nat :=
  (((atomicLanes float g w ls s).2.find? (fun e => e.1 == k)).map (·.2)).getD 0

theorem State.addLanes_cons (float : Bool) (x : Nat) (r : List Nat) : s.addLanes float g w (x :: r) =
    (s.writeAt (g.wordAddr w x) (toLE 4 (atomicSum float (s.numAt (g.wordAddr w x) 4) (g.srcC w x)))).addLanes float g w r := rfl

theorem State.oldValue_head (float : Bool) (x : Nat) (r : List Nat) :
    s.oldValue float g w (x :: r) x = s.numAt (g.wordAddr w x) 4 := by
  rw [State.oldValue, atomicLanes]
  dsimp only
  rw [List.find?_cons_of_pos (by simp)]
  rfl

theorem State.oldValue_tail (float : Bool) {x k : Nat} (r : List Nat) (hne : x ≠ k) : s.oldValue float g w (x :: r) k =
    (s.writeAt (g.wordAddr w x) (toLE 4 (atomicSum float (s.numAt (g.wordAddr w x) 4) (g.srcC w x)))).oldValue float g w r k := by
  rw [State.oldValue, atomicLanes]
  dsimp only
  rw [List.find?_cons_of_neg (by simpa using hne)]
  rfl

/-- Additions move memory only, and there only the words that they name. -/
theorem State.addLanes_rest (float : Bool) (ls : List Nat) : s.addLanes float g w ls = { s with mem := (s.addLanes float g w ls).mem } ∧
    ∀ a, (∀ k ∈ ls, a < g.wordAddr w k ∨ g.wordAddr w k + 4 ≤ a) → (s.addLanes float g w ls).byteAt a = s.byteAt a := by
  induction ls generalizing s with
  | nil => exact ⟨rfl, fun _ _ => rfl⟩
  | cons x r ih =>
    rw [State.addLanes_cons]
    generalize hbs : toLE 4 (atomicSum float (s.numAt (g.wordAddr w x) 4) (g.srcC w x)) = bs
    have hlen : bs.length = 4 := by rw [← hbs, toLE_length]
    obtain ⟨hrest, hbytes⟩ := ih (s := s.writeAt (g.wordAddr w x) bs)
    refine ⟨by rw [hrest]; rfl, fun a ha => ?_⟩
    rw [hbytes a fun k hk => ha k (List.mem_cons_of_mem _ hk), State.byteAt_writeAt, hlen]
    exact if_neg fun hin => absurd (ha x List.mem_cons_self) (by omega)

/-- R184: the sum of the integer additions at a word, in any order. -/
theorem State.addLanes_sum {ls : List Nat} {a : Nat} (ha : a % 4 = 0) (haligned : ∀ k ∈ ls, g.wordAddr w k % 4 = 0) :
    (s.addLanes false g w ls).numAt a 4 =
      (s.numAt a 4 + sumN ((ls.filter (fun j => g.wordAddr w j == a)).map (g.srcC w))) % 2 ^ 32 := by
  induction ls generalizing s with
  | nil => exact (Nat.mod_eq_of_lt (s.numAt_lt a 4)).symm
  | cons x r ih =>
    rw [State.addLanes_cons, ih fun k hk => haligned k (List.mem_cons_of_mem _ hk),
      State.numAt_writeAt _ ha (haligned x List.mem_cons_self)]
    by_cases hx : g.wordAddr w x = a
    · rw [if_pos hx, List.filter_cons_of_pos (by simpa using hx), List.map_cons, sumN_cons, hx, atomicSum, if_neg Bool.false_ne_true]
      omega
    · rw [if_neg hx, List.filter_cons_of_neg (by simpa using hx)]

/-- A word that no lane adds to stays. -/
theorem State.addLanes_other (float : Bool) {ls : List Nat} {a : Nat} (ha : a % 4 = 0) (haligned : ∀ k ∈ ls, g.wordAddr w k % 4 = 0)
    (hother : ∀ k ∈ ls, g.wordAddr w k ≠ a) : (s.addLanes float g w ls).numAt a 4 = s.numAt a 4 :=
  congrArg ofLE (State.bytesAt_congr fun x hlo hhi => (State.addLanes_rest float ls).2 x fun k hk => by
    have := haligned k hk
    have := hother k hk
    omega)

/-- R184: the only lane at a word. -/
theorem State.addLanes_only (float : Bool) {ls : List Nat} {k : Nat} (hk : k ∈ ls) (hnodup : ls.Nodup)
    (haligned : ∀ k ∈ ls, g.wordAddr w k % 4 = 0) (honly : ∀ j ∈ ls, j ≠ k → g.wordAddr w j ≠ g.wordAddr w k) :
    (s.addLanes float g w ls).numAt (g.wordAddr w k) 4 = atomicSum float (s.numAt (g.wordAddr w k) 4) (g.srcC w k) % 2 ^ 32 ∧
    s.oldValue float g w ls k = s.numAt (g.wordAddr w k) 4 := by
  induction ls generalizing s with
  | nil => cases hk
  | cons x r ih =>
    obtain ⟨hx, hr⟩ := List.nodup_cons.mp hnodup
    have haligned' : ∀ k ∈ r, g.wordAddr w k % 4 = 0 := fun k hk => haligned k (List.mem_cons_of_mem _ hk)
    have halk := haligned k hk
    rw [State.addLanes_cons]
    by_cases hxk : x = k
    · subst hxk
      rw [State.addLanes_other float halk haligned' fun j hj => honly j (List.mem_cons_of_mem _ hj) fun h => hx (h ▸ hj),
        State.numAt_writeAt _ halk halk, if_pos rfl]
      exact ⟨rfl, State.oldValue_head ..⟩
    · obtain ⟨hnum, hold⟩ := ih (s := s.writeAt (g.wordAddr w x)
        (toLE 4 (atomicSum float (s.numAt (g.wordAddr w x) 4) (g.srcC w x)))) ((List.mem_cons.mp hk).resolve_left (Ne.symm hxk)) hr haligned'
        fun j hj => honly j (List.mem_cons_of_mem _ hj)
      rw [State.numAt_writeAt _ halk (haligned x List.mem_cons_self), if_neg (honly x List.mem_cons_self hxk)] at hnum hold
      exact ⟨hnum, (State.oldValue_tail float r hxk).trans hold⟩

/-! ### AADD -/

theorem State.local_of_laneAtomic {a : Nat} (h : s.laneAtomic c a = true) : s.local_ a = true := by
  simp only [State.laneAtomic, Bool.and_eq_true] at h
  exact h.1.1

theorem State.aligned_of_laneAtomic {a : Nat} (h : s.laneAtomic c a = true) : a % 4 = 0 := by
  simp only [State.laneAtomic, Bool.and_eq_true] at h
  exact State.aligned_of_laneMay h.2

variable {op : Nat} {float : Bool}

theorem atomicOp_faults (h : Ready s op c id i l g w) (hbad : ∃ k ∈ g.lanes w, s.laneAtomic c (g.address w k) = false) :
    atomicOp op float c id i s = s.stringFault c id i := by
  unfold atomicOp
  rw [runStr_ready s _ h]
  exact if_pos ((any_map_not_iff (g.lanes w) (g.address w) _).mpr hbad)

/-- An atomic within the shares: held back, poisoned, or made. -/
theorem atomicOp_ready (h : Ready s op c id i l g w) (hmay : ∀ k ∈ g.lanes w, s.laneAtomic c (g.address w k) = true) :
    let as := (g.lanes w).map (g.address w)
    let order := s.laneOrder (g.lanes w)
    atomicOp op float c id i s = accessEnd (s.heldLane c as) (s.poisoned none 4 as) (fun a => s.heldWait c (a % 2 ^ 57))
      (fun a => ((s.takePoison (a % 2 ^ 57) 4).2.chargeAll c 4 as).loadUe c id i a)
      ((((s.addLanes float g w order).chargeAll c 4 as).putStr c id i (g.writeDst w (s.oldValue float g w order)).next).freed) := by
  unfold atomicOp
  rw [runStr_ready s _ h]
  refine (if_neg fun hany => ?_).trans ?_
  · obtain ⟨k, hk, hbad⟩ := (any_map_not_iff (g.lanes w) (g.address w) _).mp hany
    exact Bool.false_ne_true (hbad.symm.trans (hmay k hk))
  · dsimp only
    cases s.heldLane c ((g.lanes w).map (g.address w)) with
    | some a => rfl
    | none =>
      cases s.poisoned none 4 ((g.lanes w).map (g.address w)) <;> rfl

/-- The accesses of an atomic that no Toll Gate holds back. -/
theorem State.heldLane_free (hfree : ∀ k ∈ g.lanes w, s.heldAt c (g.address w k % 2 ^ 57) = false) :
    s.heldLane c ((g.lanes w).map (g.address w)) = none := State.heldLane_none fun a ha _ => by
  obtain ⟨k, hk, rfl⟩ := List.mem_map.mp ha
  exact hfree k hk

/-- R184: an atomic that is made. -/
theorem atomicOp_made (h : Ready s op c id i l g w) (hpoison : s.poison = [])
    (hmay : ∀ k ∈ g.lanes w, s.laneAtomic c (g.address w k) = true)
    (hfree : ∀ k ∈ g.lanes w, s.heldAt c (g.address w k % 2 ^ 57) = false) :
    ∃ parts : List Part, atomicOp op float c id i s =
      { s.putStr c id i (g.writeDst w (s.oldValue float g w (s.laneOrder (g.lanes w)))).next with
        parts := parts, freeCtr := s.freeCtr + 1, mem := (s.addLanes float g w (s.laneOrder (g.lanes w))).mem } := by
  have hclean : s.poisoned none 4 ((g.lanes w).map (g.address w)) = none := State.poisoned_none hpoison fun a ha hfar => by
    obtain ⟨k, hk, rfl⟩ := List.mem_map.mp ha
    exact (Bool.false_ne_true (hfar.symm.trans (State.local_of_laneAtomic (hmay k hk)))).elim
  have hrun := atomicOp_ready (float := float) h hmay
  dsimp only at hrun
  rw [State.heldLane_free hfree, hclean, accessEnd_made, State.chargeAll_eq, (State.addLanes_rest float _).1] at hrun
  exact ⟨_, hrun⟩

/-- The addresses that lanes add to are words of their own. -/
theorem Str.wordAddr_aligned (hmay : ∀ k ∈ g.lanes w, s.laneAtomic c (g.address w k) = true) :
    ∀ k ∈ s.laneOrder (g.lanes w), g.wordAddr w k % 4 = 0 := fun k hk => by
  have := State.aligned_of_laneAtomic (hmay k (State.mem_laneOrder.mp hk))
  rw [Str.wordAddr]
  omega

/-- R184: the integer additions at a word do not depend on the order of the lanes. -/
theorem State.addLanes_laneOrder_sum {a : Nat} (ha : a % 4 = 0) (haligned : ∀ k ∈ s.laneOrder (g.lanes w), g.wordAddr w k % 4 = 0) :
    (s.addLanes false g w (s.laneOrder (g.lanes w))).numAt a 4 =
      (s.numAt a 4 + sumN (((g.lanes w).filter (fun j => g.wordAddr w j == a)).map (g.srcC w))) % 2 ^ 32 := by
  have hperm : (((s.laneOrder (g.lanes w)).filter (fun j => g.wordAddr w j == a)).map (g.srcC w)).Perm
      (((g.lanes w).filter (fun j => g.wordAddr w j == a)).map (g.srcC w)) := ((sortBy_perm _ _).filter _).map _
  rw [State.addLanes_sum ha haligned, sumN_eq_sum, sumN_eq_sum, hperm.sum_eq]

/-- R184: what an atomic that is made leaves alone, and what it returns to the only lane at a word. -/
theorem atomicOp_effect (h : Ready s op c id i l g w) (hpoison : s.poison = [])
    (hmay : ∀ k ∈ g.lanes w, s.laneAtomic c (g.address w k) = true)
    (hfree : ∀ k ∈ g.lanes w, s.heldAt c (g.address w k % 2 ^ 57) = false) :
    ∃ (t : State) (g' : Str), atomicOp op float c id i s = t ∧ t.strAt c id i = some g' ∧
      g' = { g with pc := g.pc + 1, regs := g'.regs } ∧
      (∀ a, t.byteAt a = (s.addLanes float g w (s.laneOrder (g.lanes w))).byteAt a) ∧
      (∀ k ∈ g.lanes w, (∀ j ∈ g.lanes w, j = k ∨ g.wordAddr w j ≠ g.wordAddr w k) →
        t.numAt (g.wordAddr w k) 4 = atomicSum float (s.numAt (g.wordAddr w k) 4) (g.srcC w k) % 2 ^ 32 ∧
        g'.reg (iDst w) k = s.numAt (g.wordAddr w k) 4) := by
  obtain ⟨parts, hrun⟩ := atomicOp_made (float := float) h hpoison hmay hfree
  have hwrote := Str.wrote_writeDst g w (s.oldValue float g w (s.laneOrder (g.lanes w)))
  refine ⟨_, _, hrun, State.strAt_putStr h.strAt, hwrote.frame, fun a => rfl, fun k hk honly => ?_⟩
  obtain ⟨hnum, hold⟩ := State.addLanes_only (s := s) float (State.mem_laneOrder.mpr hk) State.nodup_laneOrder (Str.wordAddr_aligned hmay)
    fun j hj hjk => (honly j (State.mem_laneOrder.mp hj)).resolve_left hjk
  refine ⟨hnum, ?_⟩
  obtain ⟨hk64, hguard⟩ := Str.mem_lanes.mp hk
  have hdst : iDst w < 16 := Nat.mod_lt _ (by decide)
  refine (hwrote.regs (iDst w) hdst k hk64).trans ((if_pos ⟨rfl, hguard⟩).trans ?_)
  rw [hold]
  exact Nat.mod_eq_of_lt (s.numAt_lt _ 4)

theorem State.poisoned_line {a n : Nat} (ue : Option Nat) (hlocal : s.local_ a = true) (hhit : (s.takePoison (a % 2 ^ 57) n).1 = true) :
    s.poisoned ue n [a] = some a := by
  rw [State.poisoned, List.find?_cons, hlocal, if_pos rfl, hhit, Bool.or_true]

/-- R234: an atomic whose word is poisoned ends its launch. -/
theorem atomicOp_poisoned {k : Nat} (h : Ready s op c id i l g w) (hlanes : g.lanes w = [k])
    (hmay : s.laneAtomic c (g.address w k) = true) (hfree : s.heldAt c (g.address w k % 2 ^ 57) = false)
    (hpoison : s.poison = [g.address w k % 2 ^ 57 / 64]) :
    ∃ (parts : List Part) (poison : List Nat), atomicOp op float c id i s =
      ({ s with parts := parts, poison := poison }).loadUe c id i (g.address w k) := by
  have hlane (P : Nat → Prop) (hP : P k) : ∀ j ∈ g.lanes w, P j := fun j hj => by
    rw [hlanes, List.mem_singleton] at hj
    rwa [hj]
  have hrun := atomicOp_ready (float := float) h (hlane _ hmay)
  have hhit : (s.takePoison (g.address w k % 2 ^ 57) 4).1 = true := by
    obtain ⟨q, hq, -⟩ := State.takePoison_hit (s := s) (a := g.address w k % 2 ^ 57) (n := 4) (l := g.address w k % 2 ^ 57 / 64)
      (hpoison ▸ List.mem_singleton_self _) le_rfl (by omega)
    rw [hq]
  have hfound : s.poisoned none 4 [g.address w k] = some (g.address w k) :=
    State.poisoned_line none (State.local_of_laneAtomic hmay) hhit
  dsimp only at hrun
  rw [State.heldLane_free (hlane _ hfree), hlanes, List.map_singleton, hfound, accessEnd_hit, State.chargeAll_eq, State.takePoison_eq] at hrun
  exact ⟨_, _, hrun⟩

/-! ### FENCE -/

theorem fence_ready (h : Ready s 0x64 c id i l g w) : fence c id i s =
    if (g.lanes w).isEmpty then s.putStr c id i g.next
    else if s.storesDone g then s.putStr c id i { g.next with sent := [] } else s := runStr_ready s _ h

end

/-- Settles O35. -/
theorem atomicsAndFence : Obligations.AtomicsAndFence := by
  unfold Obligations.AtomicsAndFence
  refine ⟨fun c id i l g w s h hpoison hall => ?_, fun c id i l g w s h hpoison hall => ?_,
    fun c id i l g w s hbad => ⟨fun h => congrArg Host.Outcome.next (atomicOp_faults h hbad),
      fun h => congrArg Host.Outcome.next (atomicOp_faults h hbad)⟩,
    fun c id i lane v g dst p w s hstr hwait hword hlane hdst => ?_, fun c id i l g w s h => ⟨fun hlanes => ?_, fun hlanes => ?_⟩,
    fun c id i k op l g w s hop h hlanes hmay hfree hpoison hdying hdone => ?_,
    fun c id i l g w s h => ⟨_, congrArg Host.Outcome.next (runStr_ready s _ h), Str.wrote_writeDst g w _⟩⟩
  · have hmay := fun k hk => (hall k hk).1
    obtain ⟨t, g', hrun, hstr, hframe, hbytes, hold⟩ := atomicOp_effect (float := false) h hpoison hmay fun k hk => (hall k hk).2
    have haligned := Str.wordAddr_aligned hmay
    refine ⟨t, g', congrArg Host.Outcome.next hrun, hstr, hframe,
      fun a ha => (hbytes a).trans ((State.addLanes_rest false _).2 a fun k hk => ha k (State.mem_laneOrder.mp hk)),
      fun k hk => ?_, fun k hk honly => (hold k hk honly).2⟩
    exact (congrArg ofLE (State.bytesAt_congr fun x _ _ => hbytes x)).trans
      (State.addLanes_laneOrder_sum (haligned k (State.mem_laneOrder.mpr hk)) haligned)
  · obtain ⟨t, g', hrun, hstr, hframe, hbytes, hold⟩ := atomicOp_effect (float := true) h hpoison (fun k hk => (hall k hk).1)
      fun k hk => (hall k hk).2
    refine ⟨t, g', congrArg Host.Outcome.next hrun, hstr, hframe,
      fun a ha => (hbytes a).trans ((State.addLanes_rest true _).2 a fun k hk => ha k (State.mem_laneOrder.mp hk)), fun k hk honly => ?_⟩
    obtain ⟨hnum, hreg⟩ := hold k hk honly
    refine ⟨hnum.trans (Nat.mod_eq_of_lt ?_), hreg⟩
    rw [atomicSum, if_pos rfl]
    exact BitVec.isLt _
  · obtain ⟨g', hrun, hwait', hpc, -, hregs⟩ := State.laneData_last v hstr hwait hword
    exact ⟨g', congrArg Host.Outcome.next hrun, hwait', hpc, (hregs dst hdst lane hlane).trans (if_pos ⟨rfl, rfl⟩)⟩
  · exact congrArg Host.Outcome.next ((fence_ready h).trans (if_pos (by simpa using hlanes)))
  · refine congrArg Host.Outcome.next ((fence_ready h).trans ((if_neg (by simpa using hlanes)).trans ?_))
    simp only [State.storesDone, List.all_eq_true]
    rfl
  · obtain ⟨parts, poison, hrun⟩ := atomicOp_poisoned (float := op == 0x63) h hlanes hmay hfree hpoison
    have hl : (({ s with parts := parts, poison := poison } : State).ctx c).launch id = some l := (State.atWord_eq h.found).1
    obtain ⟨hgone, hstate⟩ := (State.loadUe_ends (i := i) hl hdying (g.address w k)).1 hdone
    refine ⟨_, congrArg Host.Outcome.next hrun |> Eq.trans ?_, hgone, hstate⟩
    rcases hop with rfl | rfl <;> rfl

end Machine
end Sys2Proof
end

section
/-! PROOFS. The matrix unit: its operands, its tiles and the elements that it stores (08 R175 to R177; 02 R40, R42). -/

namespace Sys2Proof
namespace Machine

/-! ### Elements of one size in memory -/

theorem take_drop_flatMap {α β : Type} {f : α → List β} {n : Nat} (hlen : ∀ x, (f x).length = n) {xs : List α} {j : Nat} {x : α}
    (hj : xs[j]? = some x) : ((xs.flatMap f).drop (j * n)).take n = f x := by
  induction xs generalizing j with
  | nil => cases hj
  | cons y r ih =>
    rw [List.flatMap_cons]
    cases j with
    | zero =>
      obtain rfl : y = x := by simpa using hj
      rw [Nat.zero_mul, List.drop_zero, List.take_left' (hlen y)]
    | succ k =>
      have hk : r[k]? = some x := hj
      rw [← ih hk, ← hlen y, Nat.succ_mul, Nat.add_comm, List.drop_length_add_append]

/-- Part of what was written. -/
theorem State.bytesAt_writeAt_part (s : State) (a : Nat) (bs : List Byte) {o n : Nat} (h : o + n ≤ bs.length) :
    (s.writeAt a bs).bytesAt (a + o) n = (bs.drop o).take n := by
  apply List.ext_getElem
  · rw [State.bytesAt, List.length_map, List.length_range, List.length_take, List.length_drop]
    omega
  · intro i hi hi'
    have hin : i < n := by rw [State.bytesAt, List.length_map, List.length_range] at hi; exact hi
    have hoi : o + i < bs.length := by omega
    simp only [State.bytesAt, List.getElem_map, List.getElem_range, State.byteAt_writeAt, List.getElem_take, List.getElem_drop]
    rw [if_pos (by omega), Nat.add_assoc, Nat.add_sub_cancel_left, List.getD_eq_getElem _ _ hoi]

/-! ### Tiles -/

section
variable {s : State} {c id i w : Nat} {l : Launch} {g : Str} {o : MatOps}

theorem Str.onTile_tile (g : Str) (t u : Nat) (f : Nat → Nat → Nat → Nat) : (g.onTile t f).tile u =
    if t = u ∧ t < g.tiles.length then (List.range 6144).map (fun k => f (k / 96) (k % 96) ((g.tile t).getD k 0)) else g.tile u := by
  simp only [Str.tile, Str.onTile, updAt_getD]

/-- An element of a tile, by row and column. -/
theorem Str.onTile_elem {t r e : Nat} (f : Nat → Nat → Nat → Nat) (ht : t < g.tiles.length) (hr : r < 64) (he : e < 96) :
    ((g.onTile t f).tile t).getD (r * 96 + e) 0 = f r e ((g.tile t).getD (r * 96 + e) 0) := by
  have hk : r * 96 + e < 6144 := by omega
  have hrow : (r * 96 + e) / 96 = r := by omega
  have hcol : (r * 96 + e) % 96 = e := by omega
  rw [Str.onTile_tile, if_pos ⟨rfl, ht⟩, List.getD_eq_getElem?_getD, List.getElem?_map, List.getElem?_range hk, Option.map_some,
    Option.getD_some, hrow, hcol]

theorem Str.onTile_next (t : Nat) (f : Nat → Nat → Nat → Nat) :
    (g.onTile t f).next = { g with pc := g.pc + 1, tiles := (g.onTile t f).next.tiles } := by simp only [Str.next, Str.onTile]

theorem Str.onTile_length (t : Nat) (f : Nat → Nat → Nat → Nat) : (g.onTile t f).next.tiles.length = g.tiles.length := by
  simp only [Str.next, Str.onTile, updAt_length]

theorem Str.next_tile (g : Str) (t : Nat) : g.next.tile t = g.tile t := by simp only [Str.next, Str.tile]

/-- R177: a tile that is cleared. -/
theorem Str.onTile_zero {t : Nat} : g.onTile t (fun _ _ _ => 0) = { g with tiles := g.tiles.set t (List.replicate 6144 0) } := by
  rw [Str.onTile]
  refine congrArg (fun x => { g with tiles := x }) (List.ext_getElem? fun j => ?_)
  have hzero : (List.range 6144).map (fun _ => 0) = List.replicate 6144 0 := by
    rw [List.map_const', List.length_range]
  rw [updAt_getElem?, List.getElem?_set, hzero]
  by_cases hj : t = j
  · subst hj
    rw [if_pos rfl, if_pos rfl]
    by_cases hlt : t < g.tiles.length
    · rw [if_pos hlt, List.getElem?_eq_getElem hlt, Option.map_some]
    · rw [if_neg hlt, List.getElem?_eq_none (by omega), Option.map_none]
  · rw [if_neg hj, if_neg hj]

/-! ### Operands -/

theorem MatOps.bad_eq_false (htile : o.tile < l.tilesN) (hm : 0 < o.m) (hm' : o.m ≤ 64) (hn : 0 < o.n) (hn' : o.n ≤ 96) :
    o.bad l = false := by
  rw [MatOps.bad, decide_eq_false_iff_not]
  omega

/-- R175, R176: MMA adds its runs to the tile. -/
theorem mmaOp_runs (h : Ready s 0x80 c id i l g w) (hguard : g.guard w 0 = true) (hbad : (g.matOps w).bad l = false)
    (hruns : 0 < (g.matOps w).runs) (hruns' : (g.matOps w).runs ≤ 65535) (ha : g.srcA w 0 % 64 = 0) (hb : g.srcB w 0 % 64 = 0)
    (hina : g.srcA w 0 + tileBytes (g.matOps w).act (g.matOps w).m (g.matOps w).runs ≤ 4096 * l.scratch4k)
    (hinb : g.srcB w 0 + tileBytes (g.matOps w).wgt (g.matOps w).n (g.matOps w).runs ≤ 4096 * l.scratch4k) :
    mmaOp c id i s = (s.putStr c id i (g.onTile (g.matOps w).tile (fun r e v =>
        if r < (g.matOps w).m ∧ e < (g.matOps w).n then
          (s.accumulate (g.matOps w) (g.scratchAddr (g.srcA w 0)) (g.scratchAddr (g.srcB w 0)) r e (BitVec.ofNat 32 v)).toNat
        else v)).next).bumpCtx c .mmaSteps ((g.matOps w).runs * Num.runSteps (g.matOps w).wgt (g.matOps w).act) := by
  unfold mmaOp
  rw [runStr_ready s _ h]
  refine (if_neg (by rw [hguard]; decide)).trans (if_neg ?_)
  have hops : decide ((g.matOps w).runs = 0 ∨ 65535 < (g.matOps w).runs ∨ g.srcA w 0 % 64 ≠ 0 ∨ g.srcB w 0 % 64 ≠ 0) = false :=
    decide_eq_false (by omega)
  rw [hbad, hops, Launch.inOwn, Launch.inOwn, decide_eq_true hina, decide_eq_true hinb]
  decide

/-- R176: a tile that does not begin at a multiple of 64, or leaves the string's scratch. -/
theorem mmaOp_faults (h : Ready s 0x80 c id i l g w) (hguard : g.guard w 0 = true) (hbad : g.srcA w 0 % 64 ≠ 0 ∨ g.srcB w 0 % 64 ≠ 0 ∨
      4096 * l.scratch4k < g.srcA w 0 + tileBytes (g.matOps w).act (g.matOps w).m (g.matOps w).runs) :
    mmaOp c id i s = s.stringFault c id i := by
  unfold mmaOp
  rw [runStr_ready s _ h]
  refine (if_neg (by rw [hguard]; decide)).trans (if_pos ?_)
  simp only [Bool.or_eq_true, Bool.not_eq_true', Launch.inOwn, decide_eq_true_eq, decide_eq_false_iff_not]
  omega

theorem accZero_runs (h : Ready s 0x81 c id i l g w) (hguard : g.guard w 0 = true) (htile : Config.mmaTile (iImm w) < l.tilesN) :
    accZero c id i s = s.putStr c id i (g.onTile (Config.mmaTile (iImm w)) (fun _ _ _ => 0)).next := by
  unfold accZero
  rw [runStr_ready s _ h]
  exact (if_neg (by rw [hguard]; decide)).trans (if_neg (by omega))

theorem accStore_runs (h : Ready s 0x82 c id i l g w) (hguard : g.guard w 0 = true) (hbad : (g.matOps w).bad l = false)
    (ha : g.srcA w 0 % (Num.codeBits (g.matOps w).wgt / 8) = 0)
    (hin : g.srcA w 0 + (g.matOps w).m * (g.matOps w).n * (Num.codeBits (g.matOps w).wgt / 8) ≤ 4096 * l.scratch4k) :
    accStore c id i s = (s.writeAt (g.scratchAddr (g.srcA w 0)) (g.tileOut (g.matOps w))).putStr c id i g.next := by
  unfold accStore
  rw [runStr_ready s _ h]
  refine (if_neg (by rw [hguard]; decide)).trans (if_neg ?_)
  rw [hbad, Launch.inOwn, decide_eq_true (p := _ ≤ _) hin, decide_eq_false (not_not.mpr ha)]
  decide

theorem Str.tileOut_length (g : Str) (o : MatOps) : (g.tileOut o).length = o.m * o.n * (Num.codeBits o.wgt / 8) := by
  rw [Str.tileOut, List.length_flatMap]
  simp [toLE_length]

/-- R42: an element that ACC_STORE writes. -/
theorem Str.tileOut_elem {n a r e : Nat} (hn : Num.codeBits o.wgt / 8 = n) (hr : r < o.m) (he : e < o.n) :
    (s.writeAt a (g.tileOut o)).numAt (a + (r * o.n + e) * n) n =
      Num.cvtTo o.wgt (BitVec.ofNat 32 ((g.tile o.tile).getD (r * 96 + e) 0)) % 256 ^ n := by
  have hlen := g.tileOut_length o
  rw [hn] at hlen
  have hk : r * o.n + e < o.m * o.n := by nlinarith
  have hrow : (r * o.n + e) / o.n = r := by rw [Nat.mul_comm, Nat.mul_add_div (by omega), Nat.div_eq_of_lt he, Nat.add_zero]
  have hcol : (r * o.n + e) % o.n = e := by rw [Nat.mul_comm, Nat.mul_add_mod, Nat.mod_eq_of_lt he]
  rw [State.numAt, State.bytesAt_writeAt_part _ _ _ (by rw [hlen]; nlinarith), Str.tileOut, hn,
    take_drop_flatMap (fun _ => toLE_length n _) (List.getElem?_range hk), ofLE_toLE, hrow, hcol, b32]

end

/-- R42: the two formats of ACC_STORE. -/
theorem Num.cvtTo_wide {fmt : Nat} (h : fmt ≤ 1) (x : BitVec 32) : Num.cvtTo fmt x % 256 ^ (if fmt = 0 then 4 else 2) =
    if fmt = 0 then (Num.to32 (Num.v32 x)).toNat else (Num.narrow x).toNat := by
  obtain rfl | rfl : fmt = 0 ∨ fmt = 1 := by omega
  · rw [if_pos rfl, if_pos rfl, Num.to32, BitVec.toNat_ofNat]
    norm_num [Num.cvtTo, Num.codeFmt]
  · rw [if_neg one_ne_zero, if_neg one_ne_zero, Num.narrow, Num.toBf, BitVec.toNat_ofNat]
    norm_num [Num.cvtTo, Num.codeFmt]

/-- Settles O36. -/
theorem matrixInstructions : Obligations.MatrixInstructions := by
  unfold Obligations.MatrixInstructions
  refine ⟨fun c id i l g w s h hguard => ?_,
    fun c id i l g w s h hguard hbad => congrArg Host.Outcome.next (mmaOp_faults h hguard hbad),
    fun c id i l g w s h hguard => ?_, fun c id i l g w s h hguard => ?_, fun c id i l g w s hguard => ⟨fun h => ?_, fun h => ?_, fun h => ?_⟩⟩
  · intro o htile htile' hm hm' hn hn' hruns hruns' ha hb hina hinb
    refine ⟨_, congrArg Host.Outcome.next (mmaOp_runs h hguard (MatOps.bad_eq_false htile hm hm' hn hn') hruns hruns' ha hb hina hinb),
      Str.onTile_next _ _, Str.onTile_length _ _, fun u hu => ?_, fun r hr e he => ?_⟩
    · rw [Str.next_tile, Str.onTile_tile]
      exact if_neg fun hut => hu hut.1.symm
    · rw [Str.next_tile]
      exact Str.onTile_elem _ htile' hr he
  · intro u htile htile'
    refine congrArg Host.Outcome.next ((accZero_runs h hguard htile).trans ?_)
    rw [Str.onTile_zero]
    rfl
  · intro o n a hfmt htile hm hm' hn hn' ha hin
    have hbytes : Num.codeBits o.wgt / 8 = n := by
      change Num.codeBits (iFmt w) / 8 = if iFmt w = 0 then 4 else 2
      interval_cases iFmt w <;> decide
    refine ⟨_, congrArg Host.Outcome.next (accStore_runs h hguard (MatOps.bad_eq_false htile hm hm' hn hn') ?_ ?_), rfl, fun b hb => ?_,
      fun r hr e he => ?_⟩
    · rwa [hbytes]
    · rwa [hbytes]
    · rw [State.byteAt_writeAt, Str.tileOut_length, hbytes]
      exact if_neg fun hin => hb.elim (fun hlt => absurd hin.1 (not_le.mpr hlt)) fun hle => absurd hin.2 (not_lt.mpr hle)
    · refine (Str.tileOut_elem hbytes hr he).trans (Num.cvtTo_wide hfmt _)
  all_goals
    refine congrArg Host.Outcome.next ((runStr_ready s _ h).trans (if_pos ?_))
    rw [hguard]
    decide

end Machine
end Sys2Proof
end

section
/-! PROOFS. FP32 instructions and conversions: a value that FP32 holds rounds to itself, and the blocks of lanes (02 R28 to R38, R42;
08 R182). -/

namespace Sys2Proof
namespace Num

/-! ### A value of FP32 rounds to itself -/

theorem rne_exact (m : Nat) {d : Nat} (hd : 0 < d) : rne (m * d) d = m := by
  simp only [rne, Nat.mul_mod_left, Nat.mul_div_cancel _ hd, mul_zero]
  rw [if_neg (by omega), if_neg (by omega)]

theorem pow2_pos (e : Int) : 0 < (pow2 e).1 ∧ 0 < (pow2 e).2 := by
  unfold pow2
  split
  · exact ⟨Nat.two_pow_pos _, Nat.one_pos⟩
  · exact ⟨Nat.one_pos, Nat.two_pow_pos _⟩

theorem log2_mul_two_pow {m : Nat} (hm : m ≠ 0) (k : Nat) : (m * 2 ^ k).log2 = m.log2 + k := by
  induction k with
  | zero => rw [pow_zero, mul_one, Nat.add_zero]
  | succ k ih =>
    rw [pow_succ, ← mul_assoc, Nat.log2_eq_log_two, Nat.log_mul_base (by decide) (Nat.mul_ne_zero hm (Nat.two_pow_pos k).ne'),
      ← Nat.log2_eq_log_two, ih, Nat.add_assoc]

/-- The exponent of m times a power of two. -/
theorem ilog2_scaled {m : Nat} (hm : m ≠ 0) (e : Int) : ilog2 (m * (pow2 e).1) (pow2 e).2 = (m.log2 : Int) + e := by
  have hlow : 2 ^ m.log2 ≤ m := Nat.log2_self_le hm
  obtain ⟨n, rfl⟩ | ⟨n, rfl⟩ : (∃ n : Nat, e = n) ∨ ∃ n : Nat, e = -((n : Int) + 1) := by
    rcases le_or_gt 0 e with h | h
    · exact .inl ⟨e.toNat, by omega⟩
    · exact .inr ⟨(-e).toNat - 1, by omega⟩
  · have hp : pow2 (n : Int) = (2 ^ n, 1) := by rw [pow2, if_pos (by omega)]; rfl
    have hk : ((m.log2 + n : Nat) : Int) - ((1 : Nat).log2 : Int) = ((m.log2 + n : Nat) : Int) := by
      rw [Nat.log2_eq_log_two (n := 1), Nat.log_one_right, Nat.cast_zero, Int.sub_zero]
    have hp' : pow2 ((m.log2 + n : Nat) : Int) = (2 ^ (m.log2 + n), 1) := by rw [pow2, if_pos (by omega)]; rfl
    simp only [ilog2, hp, log2_mul_two_pow hm, hk, hp']
    rw [if_neg (by rw [pow_add]; nlinarith [Nat.two_pow_pos n])]
    omega
  · have hp : pow2 (-((n : Int) + 1)) = (1, 2 ^ (n + 1)) := by
      rw [pow2, if_neg (by omega), Int.neg_neg]
      rfl
    have hk : ((m * 1).log2 : Int) - ((2 ^ (n + 1) : Nat).log2 : Int) = (m.log2 : Int) + -((n : Int) + 1) := by
      rw [mul_one, Nat.log2_two_pow]
      omega
    simp only [ilog2, hp, hk]
    refine if_neg (not_lt.mpr ?_)
    obtain ⟨j, hj⟩ | ⟨j, hj⟩ : (∃ j, m.log2 = n + 1 + j) ∨ ∃ j, n + 1 = m.log2 + (j + 1) := by
      rcases le_or_gt (n + 1) m.log2 with h | h
      · exact .inl ⟨_, (Nat.add_sub_cancel' h).symm⟩
      · exact .inr ⟨n - m.log2, by omega⟩
    · have hp' : pow2 ((m.log2 : Int) + -((n : Int) + 1)) = (2 ^ j, 1) := by
        rw [pow2, if_pos (by omega), show ((m.log2 : Int) + -((n : Int) + 1)).toNat = j by omega]
      rw [hp', ← pow_add, ← hj, mul_one, mul_one]
      exact hlow
    · have hp' : pow2 ((m.log2 : Int) + -((n : Int) + 1)) = (1, 2 ^ (j + 1)) := by
        rw [pow2, if_neg (by omega), show (-((m.log2 : Int) + -((n : Int) + 1))).toNat = j + 1 by omega]
      rw [hp', hj, pow_add, mul_one, mul_one]
      exact Nat.mul_le_mul_right _ hlow

/-- A magnitude of at most 24 bits under an exponent of FP32 is exact. -/
theorem roundMag_exact {m : Nat} {e : Int} (hm : m ≠ 0) (he : max ((m.log2 : Int) + e) (-126) = e + 23)
    (hfin : (e + 149).toNat * 2 ^ 23 + m ≤ 0x7F7FFFFF) : roundMag fp32 (m * (pow2 e).1) (pow2 e).2 = (e + 149).toNat * 2 ^ 23 + m := by
  obtain ⟨h1, h2⟩ := pow2_pos e
  have hexp : max (ilog2 (m * (pow2 e).1) (pow2 e).2) (1 - (fp32.bias : Int)) = e + 23 := by rw [ilog2_scaled hm]; exact he
  have hnum : m * (pow2 e).1 ≠ 0 := Nat.mul_ne_zero hm h1.ne'
  have hq : pow2 (e + 23 - (fp32.mBits : Int)) = pow2 e := congrArg pow2 (by simp [fp32])
  have hbits : (e + 23 + (fp32.bias : Int) - 1).toNat * 2 ^ fp32.mBits + m = (e + 149).toNat * 2 ^ 23 + m := by
    have : e + 23 + (fp32.bias : Int) - 1 = e + 149 := by simp [fp32]; ring
    rw [this]
    rfl
  rw [roundMag, if_neg hnum]
  simp only [hexp, hq]
  rw [Nat.mul_comm (pow2 e).2, Nat.mul_assoc, rne_exact m (Nat.mul_pos h1 h2), hbits]
  exact if_neg (by simpa [fp32] using hfin)

/-- A finite value of FP32 rounds to its own pattern. -/
theorem enc_fin (neg : Bool) {m g : Nat} {e : Int} (hzero : m = 0 → g = 0)
    (he : m ≠ 0 → max ((m.log2 : Int) + e) (-126) = e + 23) (hg : (e + 149).toNat * 2 ^ 23 + m = g ∨ m = 0) (hfin : g ≤ 0x7F7FFFFF) :
    enc fp32 (.fin neg m e) = signBit fp32 neg + g := by
  have henc : enc fp32 (.fin neg m e) = signBit fp32 neg + roundMag fp32 (m * (pow2 e).1) (pow2 e).2 := rfl
  rw [henc]
  by_cases hm : m = 0
  · rw [hzero hm, hm, Nat.zero_mul, roundMag, if_pos rfl]
  · have hg' := hg.resolve_right hm
    rw [roundMag_exact hm (he hm) (by omega), hg']

/-- Patterns of FP32 that are not NaN. -/
theorem enc_dec_mag (neg : Bool) {g : Nat} (hg : g ≤ 0x7F7FFFFF) :
    enc fp32 (if g / 2 ^ 23 = 0 then .fin neg (g % 2 ^ 23) (1 - 127 - 23) else
      .fin neg (g % 2 ^ 23 + 2 ^ 23) ((g / 2 ^ 23 : Nat) - 127 - 23)) = signBit fp32 neg + g := by
  have hlt : g % 2 ^ 23 < 2 ^ 23 := Nat.mod_lt _ (by decide)
  by_cases hex : g / 2 ^ 23 = 0
  · rw [if_pos hex]
    refine enc_fin neg (fun h => by omega) (fun h => ?_) (by omega) hg
    have hlog : (g % 2 ^ 23).log2 < 23 := (Nat.log2_lt h).mpr hlt
    omega
  · rw [if_neg hex]
    have hlog : (g % 2 ^ 23 + 2 ^ 23).log2 = 23 := by
      have hlow : 23 ≤ (g % 2 ^ 23 + 2 ^ 23).log2 := (Nat.le_log2 (by omega)).mpr (by omega)
      have hhigh : (g % 2 ^ 23 + 2 ^ 23).log2 < 24 := (Nat.log2_lt (by omega)).mpr (by omega)
      omega
    refine enc_fin neg (fun h => by omega) (fun _ => ?_) (by omega) hg
    rw [hlog]
    omega

theorem enc_dec {b : Nat} (hb : b < 2 ^ 32) (hnan : (dec fp32 b).isNan = false) : enc fp32 (dec fp32 b) = b := by
  have hsign : signBit fp32 (decide (b / 2 ^ 31 % 2 = 1)) + b % 2 ^ 31 = b := by
    change (if decide (b / 2 ^ 31 % 2 = 1) = true then 2 ^ 31 else 0) + b % 2 ^ 31 = b
    split_ifs with h <;> simp only [decide_eq_true_eq] at h <;> omega
  have hdec : dec fp32 b = if b % 2 ^ 31 > 0x7F7FFFFF then
      (if true = true ∧ b % 2 ^ 31 = 0x7F7FFFFF + 1 then .inf (decide (b / 2 ^ 31 % 2 = 1)) else .nan)
    else if b % 2 ^ 31 / 2 ^ 23 = 0 then .fin (decide (b / 2 ^ 31 % 2 = 1)) (b % 2 ^ 31 % 2 ^ 23) (1 - 127 - 23)
    else .fin (decide (b / 2 ^ 31 % 2 = 1)) (b % 2 ^ 31 % 2 ^ 23 + 2 ^ 23) ((b % 2 ^ 31 / 2 ^ 23 : Nat) - 127 - 23) := rfl
  rw [hdec] at hnan ⊢
  by_cases hfin : b % 2 ^ 31 > 0x7F7FFFFF
  · rw [if_pos hfin] at hnan ⊢
    by_cases hinf : b % 2 ^ 31 = 0x7F7FFFFF + 1
    · rw [if_pos ⟨rfl, hinf⟩]
      exact (congrArg (signBit fp32 _ + ·) hinf.symm).trans hsign
    · rw [if_neg fun h => hinf h.2] at hnan
      cases hnan
  · rw [if_neg hfin, enc_dec_mag _ (by omega), hsign]

/-- R28: an FP32 pattern that is not NaN is the rounding of its value. -/
theorem to32_v32 {x : BitVec 32} (h : (v32 x).isNan = false) : to32 (v32 x) = x := by
  rw [to32, v32, enc_dec x.isLt h, BitVec.ofNat_toNat, BitVec.setWidth_eq]

theorem Val.isNan_neg (v : Val) : v.neg.isNan = v.isNan := by cases v <;> rfl

/-- R29: negation changes the sign bit. -/
theorem fneg_eq (x : BitVec 32) : fneg x = if (v32 x).isNan then nan32 else x ^^^ 0x80000000#32 := by
  rw [fneg]
  cases h : (v32 x).isNan with
  | true => rw [if_pos rfl, Val.isNan_iff.mp h]; rfl
  | false =>
    rw [if_neg Bool.false_ne_true, ← v32_xor_sign]
    exact to32_v32 (by rw [v32_xor_sign, Val.isNan_neg, h])

/-! ### Minimum and maximum -/

theorem fmin_eq (z : Bool) (x y : BitVec 32) :
    fmin z x y =
      if (v32 x).isNan || (v32 y).isNan then nan32
      else if (v32 x).cmp (v32 y) = 0 then (if x = y then x else if z then 0x80000000#32 else 0#32)
      else if 0 < (v32 x).cmp (v32 y) then y else x := by
  unfold fmin
  cases h : (v32 x).cmp (v32 y) with
  | ofNat n =>
    cases n with
    | zero => rfl
    | succ k =>
      have hpos : 0 < Int.ofNat (k + 1) := Int.natCast_succ_pos k
      rw [if_neg hpos.ne', if_pos hpos]
      rfl
  | negSucc k => rfl

theorem Val.lt_iff {u v : Val} : u.lt v = true ↔ u.isNan = false ∧ v.isNan = false ∧ u.cmp v < 0 := by
  simp [Val.lt, and_assoc]

end Num

namespace Machine

section
variable {s : State} {c id i w : Nat} {l : Launch} {g : Str}

theorem toNat_to32 (v : Num.Val) : (Num.to32 v).toNat % 2 ^ 32 = Num.enc Num.fp32 v % 2 ^ 32 := by
  rw [Num.to32, BitVec.toNat_ofNat, Nat.mod_mod]

/-! ### Blocks of lanes -/

/-- The state of a string after BLOCK_TO. -/
def State.blocked (s : State) (c : Nat) (g : Str) (w : Nat) : Str :=
  let n := blockLanes (iFmt w)
  let r (k : Nat) : Nat × List Nat := s.blockOf ((((s.ctx c).model).map (·.stoch)).getD false) g w (k / n)
  ((g.writeDst w (fun k => (r k).2.getD (k % n) 0)).setReg (iC w) (fun k => k % n == 0 && g.guard w k) (fun k => (r k).1)).next

theorem blockTo_ready (h : Ready s 0x42 c id i l g w) : blockTo c id i s = (s.putStr c id i (s.blocked c g w)).freed :=
  runStr_ready s _ h

theorem State.blocked_frame : s.blocked c g w = { g with regs := (s.blocked c g w).regs, pc := g.pc + 1 } := by
  simp only [State.blocked, Str.next, Str.setReg, Str.writeDst]

/-- A whole block of lanes: elements, scale, and what keeps its value. -/
theorem State.blocked_regs {n b j : Nat} {m : Nat × List Nat} (hn : blockLanes (iFmt w) = n) (hj : j < n) (hb : n * b + j < 64)
    (hdst : iDst w ≠ iC w) (hguard : ∀ k < 64, g.guard w k = true)
    (hm : s.blockOf ((((s.ctx c).model).map (·.stoch)).getD false) g w b = m) :
    (s.blocked c g w).reg (iDst w) (n * b + j) = m.2.getD j 0 % 2 ^ 32 ∧ (s.blocked c g w).reg (iC w) (n * b) = m.1 % 2 ^ 32 ∧
    (j ≠ 0 → (s.blocked c g w).reg (iC w) (n * b + j) = g.reg (iC w) (n * b + j)) := by
  have hdst16 : iDst w < 16 := Nat.mod_lt _ (by decide)
  have hc16 : iC w < 16 := Nat.mod_lt _ (by decide)
  have hdiv : (n * b + j) / n = b := by rw [Nat.mul_add_div (by omega), Nat.div_eq_of_lt hj, Nat.add_zero]
  have hmod : (n * b + j) % n = j := by rw [Nat.mul_add_mod, Nat.mod_eq_of_lt hj]
  have hdiv0 : n * b / n = b := Nat.mul_div_cancel_left b (by omega)
  have hnext (x : Str) (r k : Nat) : x.next.reg r k = x.reg r k := by simp only [Str.next, Str.reg]
  refine ⟨?_, ?_, fun hj0 => ?_⟩
  · rw [State.blocked, hnext, Str.setReg_reg _ _ _ _ _ _ hdst16 hb, if_neg fun h => hdst h.1, Str.writeDst,
      Str.setReg_reg _ _ _ _ _ _ hdst16 hb, if_pos ⟨rfl, hguard _ hb⟩, hn]
    dsimp only
    rw [hdiv, hmod, hm]
  · rw [State.blocked, hnext, Str.setReg_reg _ _ _ _ _ _ hc16 (by omega),
      if_pos ⟨rfl, by rw [hn, Nat.mul_mod_right, hguard _ (by omega)]; rfl⟩, hn]
    dsimp only
    rw [hdiv0, hm]
  · rw [State.blocked, hnext, Str.setReg_reg _ _ _ _ _ _ hc16 hb, if_neg, Str.writeDst, Str.setReg_reg _ _ _ _ _ _ hc16 hb,
      if_neg fun h => hdst h.1.symm]
    rw [hn, hmod]
    simp [hj0]

/-- The values of a whole block. -/
theorem State.blockOf_guarded {n b : Nat} (hn : blockLanes (iFmt w) = n) (hb : n * b + n ≤ 64) (hguard : ∀ k < 64, g.guard w k = true)
    (stoch : Bool) : s.blockOf stoch g w b =
      let vs := (List.range n).map (fun k => Num.v32 (BitVec.ofNat 32 (g.srcA w (n * b + k))))
      if iFmt w = 0x0B then
        ((Num.kvBlock vs (if stoch then some (s.looseBits b) else none)).1.toNat,
          (Num.kvBlock vs (if stoch then some (s.looseBits b) else none)).2)
      else Num.mxBlock (iFmt w) vs := by
  have hvs : (List.range n).map (fun k => Num.v32 (b32 (if g.guard w (b * n + k) then g.srcA w (b * n + k) else s.free (b * n + k)))) =
      (List.range n).map (fun k => Num.v32 (BitVec.ofNat 32 (g.srcA w (n * b + k)))) := List.map_congr_left fun k hk => by
    have hlane : n * b + k < 64 := by
      have := List.mem_range.mp hk
      omega
    rw [Nat.mul_comm b n, if_pos (hguard _ hlane), b32]
  rw [State.blockOf, hn, hvs]

end

/-- Settles O32. -/
theorem floatInstructions : Obligations.FloatInstructions := by
  unfold Obligations.FloatInstructions
  intro c id i l g w s x y z done
  refine ⟨fun h => aluOp_writes h fun k _ => toNat_to32 _, fun h => aluOp_writes h fun k _ => toNat_to32 _,
    fun h => laneOp_writes h (fun k _ => toNat_to32 _) _ rfl, fun h => ⟨_, aluOp_writes h fun _ _ => rfl, fun k hk => ?_⟩,
    fun h => ⟨_, aluOp_writes h fun _ _ => rfl, fun k hk => ?_⟩,
    fun h => ⟨_, congrArg Host.Outcome.next (laneOp_ready _ h), Str.judged_writePred g w _⟩,
    fun h => ⟨_, aluOp_writes h fun _ _ => rfl, fun k hk => ?_⟩, fun h => laneOp_writes h (fun _ _ => rfl) _ rfl,
    fun h => laneOp_writes h (fun k _ => toNat_to32 _) _ rfl, fun h hfmt hdst hguard => ?_, fun h hfmt hdst hguard hstoch => ?_,
    fun h => laneOp_writes h (fun k _ => toNat_to32 _) _ rfl⟩
  case refine_1 =>
    have hmin := Num.fmin_eq Config.fminZeroNeg (x k) (y k)
    refine ⟨fun hnan => ?_, fun hlt => ?_, fun hlt => ?_⟩
    · exact congrArg BitVec.toNat (hmin.trans (if_pos hnan))
    · obtain ⟨hx, hy, hcmp⟩ := Num.Val.lt_iff.mp hlt
      exact congrArg BitVec.toNat (hmin.trans ((if_neg (by simp [hx, hy])).trans ((if_neg hcmp.ne).trans (if_neg hcmp.not_gt))))
    · obtain ⟨hy, hx, hcmp⟩ := Num.Val.lt_iff.mp hlt
      rw [Num.Val.cmp_swap] at hcmp
      exact congrArg BitVec.toNat (hmin.trans ((if_neg (by simp [hx, hy])).trans ((if_neg (by omega)).trans (if_pos (by omega)))))
  case refine_2 =>
    have hmax := Num.fmax_eq (x k) (y k)
    refine ⟨fun hnan => ?_, fun hlt => ?_, fun hlt => ?_, fun hx hy => ?_⟩
    · exact congrArg BitVec.toNat (hmax.trans (if_pos hnan))
    · obtain ⟨hx, hy, hcmp⟩ := Num.Val.lt_iff.mp hlt
      exact congrArg BitVec.toNat (hmax.trans ((if_neg (by simp [hx, hy])).trans ((if_neg hcmp.ne).trans (if_neg hcmp.not_gt))))
    · obtain ⟨hy, hx, hcmp⟩ := Num.Val.lt_iff.mp hlt
      rw [Num.Val.cmp_swap] at hcmp
      exact congrArg BitVec.toNat (hmax.trans ((if_neg (by simp [hx, hy])).trans ((if_neg (by omega)).trans (if_pos (by omega)))))
    · have hzero : Num.fmax 0#32 0x80000000#32 = 0#32 := by decide
      exact congrArg BitVec.toNat ((congrArg₂ Num.fmax hx hy).trans hzero)
  case refine_3 =>
    refine (congrArg BitVec.toNat (Num.fneg_eq (x k))).trans ?_
    rw [apply_ite BitVec.toNat]
    rfl
  case refine_4 =>
    refine ⟨_, _, congrArg Host.Outcome.next (blockTo_ready h), rfl, State.strAt_putStr h.strAt, State.blocked_frame, fun b hb j hj => ?_⟩
    have hn : blockLanes (iFmt w) = 32 := if_neg hfmt
    obtain ⟨h1, h2, h3⟩ := State.blocked_regs (b := b) hn hj (by omega) hdst hguard
      ((State.blockOf_guarded (s := s) hn (by omega) hguard _).trans (if_neg hfmt))
    exact ⟨h1, h2, h3⟩
  case refine_5 =>
    refine ⟨_, _, congrArg Host.Outcome.next (blockTo_ready h), rfl, State.strAt_putStr h.strAt, State.blocked_frame, fun b hb j hj => ?_⟩
    have hn : blockLanes (iFmt w) = 16 := if_pos hfmt
    obtain ⟨h1, h2, -⟩ := State.blocked_regs (b := b) hn hj (by omega) hdst hguard
      ((State.blockOf_guarded (s := s) hn (by omega) hguard _).trans (if_pos hfmt))
    rw [hstoch] at h1 h2
    exact ⟨h1, h2.trans (Nat.mod_eq_of_lt (lt_trans (BitVec.isLt _) (by decide)))⟩

end Machine
end Sys2Proof
end

section
/-! PROOFS. Flits of the fabric ports: what a flit carries, what a port takes from it, and the flit of a slot (13 R279 to R281,
R287; 14 R305). -/

namespace Sys2Proof
namespace Machine

/-! ### The bytes of a flit -/

section
variable {h : Nat} {pl : List Byte}

/-- A flit before its CRC. -/
def flitBody (h : Nat) (pl : List Byte) : List Byte := toLE 12 h ++ pl ++ List.replicate (512 - pl.length) 0

theorem flitBytes_eq (h : Nat) (pl : List Byte) : flitBytes h pl = flitBody h pl ++ toLE 4 (Num.crc32c (flitBody h pl)) := rfl

theorem flitBody_length (hpl : pl.length ≤ 512) : (flitBody h pl).length = 524 := by
  rw [flitBody, List.length_append, List.length_append, toLE_length, List.length_replicate]
  omega

theorem flitBytes_length (hpl : pl.length ≤ 512) : (flitBytes h pl).length = 528 := by
  rw [flitBytes_eq, List.length_append, flitBody_length hpl, toLE_length]

/-- R280: a flit passes its CRC. -/
theorem flitBytes_crc (hpl : pl.length ≤ 512) :
    ofLE ((flitBytes h pl).drop 524) = Num.crc32c ((flitBytes h pl).take 524) := by
  rw [flitBytes_eq, List.drop_left' (flitBody_length hpl), List.take_left' (flitBody_length hpl), ofLE_toLE]
  exact Nat.mod_eq_of_lt (lt_of_lt_of_eq (crc32c_lt _) (by norm_num))

theorem flitBytes_assoc (h : Nat) (pl : List Byte) :
    flitBytes h pl = toLE 12 h ++ (pl ++ (List.replicate (512 - pl.length) 0 ++ toLE 4 (Num.crc32c (flitBody h pl)))) := by
  rw [flitBytes_eq, flitBody, List.append_assoc, List.append_assoc]

theorem flitBytes_header (hh : h < 2 ^ 96) : ofLE ((flitBytes h pl).take 12) = h := by
  rw [flitBytes_assoc, List.take_left' (toLE_length 12 h), ofLE_toLE]
  exact Nat.mod_eq_of_lt (lt_of_lt_of_eq hh (by norm_num))

theorem flitBytes_payload (h : Nat) (pl : List Byte) : ((flitBytes h pl).drop 12).take pl.length = pl := by
  rw [flitBytes_assoc, List.drop_left' (toLE_length 12 h), List.take_left' rfl]

end

/-! ### Its header -/

section
variable (kind tc len start seq : Nat)

/-- The fields of a header without acknowledgement and credit. -/
def flitFields : List (Nat × Nat × Nat) := [(0, 4, kind), (4, 3, tc), (8, 9, len), (17, 10, start), (27, 12, seq)]

theorem flitFields_apart : Apart 0 39 (flitFields kind tc len start seq) := by simp [Apart, flitFields]

theorem flitBase_eq : flitBase kind tc len start seq = packF (flitFields kind tc len start seq) := rfl

theorem flitBase_lt : flitBase kind tc len start seq < 2 ^ 39 := by
  have := (flitFields_apart kind tc len start seq).lt
  rw [flitBase_eq]
  omega

theorem flitBase_unset {i : Nat} (hi : 39 ≤ i) : bit (flitBase kind tc len start seq) i = false :=
  Nat.testBit_lt_two_pow ((flitBase_lt kind tc len start seq).trans_le (Nat.pow_le_pow_right (by decide) hi))

theorem flitBase_kind : bits (flitBase kind tc len start seq) 0 4 = kind % 2 ^ 4 :=
  bits_packF (flitFields_apart kind tc len start seq) (by simp)

theorem flitBase_class : bits (flitBase kind tc len start seq) 4 3 = tc % 2 ^ 3 :=
  bits_packF (flitFields_apart kind tc len start seq) (by simp)

theorem flitBase_len : bits (flitBase kind tc len start seq) 8 9 = len % 2 ^ 9 :=
  bits_packF (flitFields_apart kind tc len start seq) (by simp)

theorem flitBase_start : bits (flitBase kind tc len start seq) 17 10 = start % 2 ^ 10 :=
  bits_packF (flitFields_apart kind tc len start seq) (by simp)

theorem flitBase_seq : bits (flitBase kind tc len start seq) 27 12 = seq % 2 ^ 12 :=
  bits_packF (flitFields_apart kind tc len start seq) (by simp)

end

/-! ### What a port takes -/

section
variable {s : State} {p : Nat} {bs : List Byte}

/-- Two changes of one port. -/
theorem State.onPort_onPort (p : Nat) (f g : Port → Port) : (s.onPort p f).onPort p g = s.onPort p (fun x => g (f x)) := by
  have hupd : updAt (updAt s.fab.ports p f) p g = updAt s.fab.ports p (fun x => g (f x)) :=
    List.ext_getElem? fun j => by
      simp only [updAt_getElem?]
      split <;> simp [Function.comp_def]
  exact congrArg (fun l => { s with fab := { s.fab with ports := l } }) hupd

/-- A flit whose codewords were all good, on a port that is up. -/
theorem flitReceive_up (hp : p < 128) (hup : (s.port p).up = true) : flitReceive p 0 [] bs s =
    let s1 := s.onPort p (fun y => { y with ctr := ctrAdd (ctrAdd y.ctr .fecCorrected 0) .fecUncorrected 0 })
    if bs.length = 528 ∧ ofLE (bs.drop 524) = Num.crc32c (bs.take 524) then s1.takeFlit p bs
    else s1.onPort p (fun y => { y.reject with ctr := ctrAdd y.ctr .linkCrcErrors 1 }) :=
  if_neg (by simp [hup, hp])

theorem flitReceive_down (n : Nat) (l : List Nat) (hup : (s.port p).up = false) : flitReceive p n l bs s = s :=
  if_pos (.inr (by simp [hup]))

/-- R280, R281: a good flit without acknowledgement and credit. -/
theorem State.takeFlit_plain {kind tc len start seq : Nat} (hup : (s.port p).up = true) :
    s.takeFlit p (flitBytes (flitBase kind tc len start seq) bs) =
      if kind % 2 ^ 4 = 3 then s.emit (.timestamp p (readTimestamp ((flitBytes (flitBase kind tc len start seq) bs).drop 12)))
      else if kind % 2 ^ 4 ≠ 1 then s
      else s.onPort p (fun x => if seq % 2 ^ 12 = x.rxSeq ∧ tc % 2 ^ 3 < 5 then
          x.accept (tc % 2 ^ 3) (start % 2 ^ 10) (((flitBytes (flitBase kind tc len start seq) bs).drop 12).take (len % 2 ^ 9 + 1))
        else x.reject) := by
  have hsame : s.onPort p (fun x => x) = s := by
    have hupd : updAt s.fab.ports p (fun x => x) = s.fab.ports := List.ext_getElem? fun j => by simp [updAt_getElem?]
    rw [State.onPort, hupd]
  rw [State.takeFlit, flitBytes_header ((flitBase_lt ..).trans (by norm_num))]
  simp only [flitBase_unset _ _ _ _ _ (show 39 ≤ 39 by decide), flitBase_unset _ _ _ _ _ (show 39 ≤ 40 by decide),
    flitBase_unset _ _ _ _ _ (show 39 ≤ 56 by decide), Bool.false_eq_true, if_false, hsame, hup, Bool.not_true, flitBase_kind,
    flitBase_class, flitBase_len, flitBase_start, flitBase_seq]

/-! ### What a slot leaves alone -/

/-- A state without its ports and its Toll Gates. -/
def State.unlinked (s : State) : State := { s with fab := State.reset.fab, parts := [] }

theorem State.mem_of_unlinked {u : State} (h : u.unlinked = s.unlinked) : u.mem = s.mem := by
  have h' := congrArg State.mem h
  exact h'

theorem State.ctxs_of_unlinked {u : State} (h : u.unlinked = s.unlinked) : u.ctxs = s.ctxs := by
  have h' := congrArg State.ctxs h
  exact h'

theorem State.out_of_unlinked {u : State} (h : u.unlinked = s.unlinked) : u.out = s.out := by
  have h' := congrArg State.out h
  exact h'

theorem State.tb_of_unlinked {u : State} (h : u.unlinked = s.unlinked) : u.tb = s.tb := by
  have h' := congrArg State.tb h
  exact h'

theorem State.onPort_unlinked (f : Port → Port) : (s.onPort p f).unlinked = s.unlinked := rfl
theorem State.onTx_unlinked (tc : Nat) (f : List TxChunk → List TxChunk) : (s.onTx p tc f).unlinked = s.unlinked := rfl
theorem State.toll_unlinked (g n : Nat) : (s.toll p g n).unlinked = s.unlinked := rfl
theorem State.tollWait_unlinked (g : Nat) : (s.tollWait p g).unlinked = s.unlinked := rfl

theorem unlinked_foldl {α : Type} (xs : List α) (f : State → α → State) (h : ∀ t x, (f t x).unlinked = t.unlinked) :
    (xs.foldl f s).unlinked = s.unlinked :=
  List.foldlRecOn (motive := fun t : State => t.unlinked = s.unlinked) _ _ rfl fun t ht x _ => (h t x).trans ht

theorem State.giveBack_unlinked (b : Option (Nat × Nat × Nat × Nat)) : (s.giveBack b).unlinked = s.unlinked := by
  unfold State.giveBack
  split
  · split <;> rfl
  · rfl

theorem State.startChunk_unlinked (k : TxChunk) : (s.startChunk p k).unlinked = s.unlinked := by
  have htoll : (k.charge.foldl (fun t e => t.toll e.1 0 e.2) s).unlinked = s.unlinked := unlinked_foldl _ _ fun _ _ => rfl
  unfold State.startChunk
  dsimp only
  split
  · exact htoll
  · exact (State.onPort_unlinked _).trans htoll

theorem State.noteHeld_unlinked : (s.noteHeld p).unlinked = s.unlinked :=
  unlinked_foldl _ _ fun _ _ => (State.onTx_unlinked _ _).trans (unlinked_foldl _ _ fun _ _ => unlinked_foldl _ _ fun _ _ => rfl)

/-- A flit is filled with at most 512 bytes, from the queues of its class. -/
theorem fillFlit_fits {tc : Nat} {fwd : Bool} (n : Nat) {acc : List Byte} (start : Option Nat) (hacc : acc.length ≤ 512) :
    (fillFlit p tc fwd n acc start s).1.length ≤ 512 ∧ (fillFlit p tc fwd n acc start s).2.2.unlinked = s.unlinked := by
  induction n generalizing acc start s with
  | zero => exact ⟨hacc, rfl⟩
  | succ n ih =>
    rw [fillFlit]
    split
    · exact ⟨hacc, rfl⟩
    · split
      · exact ⟨hacc, rfl⟩
      · next k _ =>
        dsimp only
        have hstart : (if k.whole = true then s.startChunk p k else s).unlinked = s.unlinked := by
          split
          · exact State.startChunk_unlinked k
          · rfl
        generalize (if k.whole = true then s.startChunk p k else s) = s₁ at hstart
        split
        · exact ⟨hacc, rfl⟩
        · split
          · next hroom =>
            obtain ⟨hlen, hrest⟩ := ih (s := (s₁.onTx p tc _).giveBack k.back) _ (acc := acc ++ k.bytes)
              (by rw [List.length_append]; omega)
            exact ⟨hlen, hrest.trans ((State.giveBack_unlinked _).trans hstart)⟩
          · refine ⟨?_, (State.onTx_unlinked _ _).trans hstart⟩
            rw [List.length_append, List.length_take]
            omega

/-- A slot in which a flit of 528 bytes goes out under its CRC, and nothing else but the ports and the gates moves. -/
structure State.SentFlit (s : State) (p : Nat) (t : State) (bs : List Byte) : Prop where
  out    : t.out = s.out ++ [.flit p bs]
  length : bs.length = 528
  crc    : ofLE (bs.drop 524) = Num.crc32c (bs.take 524)
  mem    : t.mem = s.mem
  ctxs   : t.ctxs = s.ctxs

theorem State.sendFlit_sent {u : State} {base : Nat} {pl : List Byte} (hu : u.unlinked = s.unlinked) (hpl : pl.length ≤ 512) :
    s.SentFlit p (u.sendFlit p base pl) (flitBytes (base + (u.port p).carry.1) pl) where
  out := show u.out ++ _ = s.out ++ _ from congrArg (· ++ _) (State.out_of_unlinked hu)
  length := flitBytes_length hpl
  crc := flitBytes_crc hpl
  mem := show u.mem = s.mem from State.mem_of_unlinked hu
  ctxs := show u.ctxs = s.ctxs from State.ctxs_of_unlinked hu

theorem State.dataFlit_sent {u : State} {tc : Nat} {fwd : Bool} (hu : u.unlinked = s.unlinked) :
    ∃ bs, s.SentFlit p (u.dataFlit p tc fwd) bs := by
  obtain ⟨hlen, hrest⟩ := fillFlit_fits (p := p) (s := u) (tc := tc) (fwd := fwd) 16 (acc := []) none (by decide)
  exact ⟨_, State.sendFlit_sent (hrest.trans hu) hlen⟩

theorem State.slotData_sent {u t : State} (hu : u.unlinked = s.unlinked) (h : u.slotData p = some t) : ∃ bs, s.SentFlit p t bs := by
  unfold State.slotData at h
  dsimp only at h
  split at h
  · cases h
  · split at h
    · cases h
      exact State.dataFlit_sent hu
    · split at h
      · cases h
        exact State.dataFlit_sent hu
      · split at h
        · cases h
        · split at h
          · cases h
          · cases h
            exact State.dataFlit_sent hu

/-- A port without its queues. -/
def Port.untx (x : Port) : Port := { x with tx := [] }

theorem State.untx_onTx (tc : Nat) (f : List TxChunk → List TxChunk) (q : Nat) : ((s.onTx p tc f).port q).untx = (s.port q).untx := by
  simp only [State.port, State.onTx, State.onPort, updAt_getD]
  split
  · next h => rw [h.1]; rfl
  · rfl

/-- Chunks that a gate holds back are marked in the queues only. -/
theorem State.noteHeld_untx (q : Nat) : ((s.noteHeld p).port q).untx = (s.port q).untx := by
  refine List.foldlRecOn (motive := fun t : State => (t.port q).untx = (s.port q).untx) _ _ rfl fun t ht tc _ => ?_
  have hfab : ∀ (xs : List (TxChunk × Nat)), (xs.foldl (fun u e =>
      (e.1.charge.filter (fun z => (u.gate z.1 0).holds)).foldl (fun v z => v.tollWait z.1 0) u) t).fab = t.fab := fun xs =>
    List.foldlRecOn (motive := fun u : State => u.fab = t.fab) _ _ rfl fun u hu e _ =>
      List.foldlRecOn (motive := fun u : State => u.fab = t.fab) _ _ hu fun _ hv _ _ => hv
  refine (State.untx_onTx _ _ q).trans (Eq.trans ?_ ht)
  rw [State.port, hfab]
  rfl

/-- What a slot counts before its flit. -/
theorem State.slot_port (q : Nat) : (((s.onPort p Port.passSlot).noteHeld p).port q).untx = ((s.onPort p Port.passSlot).port q).untx :=
  State.noteHeld_untx q

theorem Port.passSlot_slot60 (x : Port) : x.passSlot.slot60 = (x.slot60 + 1) % 60 := by
  unfold Port.passSlot
  split <;> rfl

theorem Port.passSlot_stampDue (x : Port) : x.passSlot.stampDue = x.stampDue := by
  unfold Port.passSlot
  split <;> rfl

theorem Port.passSlot_replay (x : Port) : x.passSlot.replay = x.replay := by
  unfold Port.passSlot
  split <;> rfl

theorem Port.of_untx {x y : Port} (h : x.untx = y.untx) :
    x.replay = y.replay ∧ x.slot60 = y.slot60 ∧ x.stampDue = y.stampDue := by
  have hreplay := congrArg Port.replay h
  have h60 := congrArg Port.slot60 h
  have hstamp := congrArg Port.stampDue h
  exact ⟨hreplay, h60, hstamp⟩

/-- The replay buffer of the port whose slot it is. -/
theorem State.slot_replay : (((s.onPort p Port.passSlot).noteHeld p).port p).replay = (s.port p).replay := by
  obtain ⟨hreplay, -, -⟩ := Port.of_untx (State.slot_port (s := s) (p := p) p)
  rw [hreplay]
  simp only [State.port, State.onPort, updAt_getD]
  split
  · exact Port.passSlot_replay _
  · rfl

theorem State.slot_unlinked : ((s.onPort p Port.passSlot).noteHeld p).unlinked = s.unlinked :=
  State.noteHeld_unlinked.trans (State.onPort_unlinked _)

/-- R279: every slot of a port that is up sends one flit. -/
theorem flitSlot_sent (hp : p < 128) (hup : (s.port p).up = true) (hfit : ∀ e ∈ (s.port p).replay, e.2.2.length ≤ 512) :
    ∃ bs, s.SentFlit p (flitSlot p s) bs := by
  have hu : ((s.onPort p Port.passSlot).noteHeld p).unlinked = s.unlinked := State.slot_unlinked
  have hreplay := State.slot_replay (s := s) (p := p)
  rw [flitSlot, if_neg (by simp [hup, hp])]
  generalize (s.onPort p Port.passSlot).noteHeld p = u at hu hreplay
  have hidle (v : State) (hv : v.unlinked = s.unlinked) (base : Nat) : ∃ bs, s.SentFlit p (v.sendFlit p base []) bs :=
    ⟨_, State.sendFlit_sent hv (by decide)⟩
  dsimp only
  split
  · exact ⟨_, State.sendFlit_sent ((State.onPort_unlinked _).trans hu) (by rw [timestampBytes, toLE_length]; decide)⟩
  · split
    · exact hidle _ hu _
    · split
      · next q r _ =>
        split
        · next e he =>
          have hmem := List.mem_of_find?_eq_some he
          rw [hreplay] at hmem
          exact ⟨_, State.sendFlit_sent ((State.onPort_unlinked _).trans hu) (hfit e hmem)⟩
        · exact hidle _ ((State.onPort_unlinked _).trans hu) _
      · split
        · next t ht => exact State.slotData_sent hu ht
        · exact hidle _ hu _

/-- The fields of acknowledgement and credit stand above the others. -/
theorem Port.carry_above (x : Port) : ∃ k, x.carry.1 = 2 ^ 39 * k := by
  have hdvd : 2 ^ 39 ∣ x.carry.1 := by
    unfold Port.carry
    exact Apart.dvd (hi := 69) (by simp [Apart])
  exact hdvd

theorem bits_add_high {a q lo n k : Nat} (hq : lo + n ≤ q) : bits (a + 2 ^ q * k) lo n = bits a lo n := by
  obtain ⟨d, rfl⟩ := Nat.exists_eq_add_of_le hq
  rw [bits, bits, Nat.shiftRight_eq_div_pow, Nat.shiftRight_eq_div_pow]
  have hsplit : 2 ^ (lo + n + d) * k = 2 ^ lo * (2 ^ n * (2 ^ d * k)) := by rw [pow_add, pow_add]; ring
  rw [hsplit, Nat.add_mul_div_left _ _ (Nat.two_pow_pos lo), Nat.add_mul_mod_self_left]

/-- R305: the reserved slot takes the timestamp that is due. -/
theorem flitSlot_stamp (hp : p < 128) (hlen : p < s.fab.ports.length) (hup : (s.port p).up = true)
    (hslot : ((s.port p).slot60 + 1) % 60 = 0) (hdue : (s.port p).stampDue = true) :
    ∃ (t : State) (k : Nat), flitSlot p s = t ∧
      t.out = s.out ++ [.flit p (flitBytes (flitBase 3 0 63 0x3FF 0 + 2 ^ 39 * k) (timestampBytes (s.timestamp p)))] ∧
      (t.port p).stampDue = false := by
  have hu : ((s.onPort p Port.passSlot).noteHeld p).unlinked = s.unlinked := State.slot_unlinked
  obtain ⟨-, h60, hstamp⟩ := Port.of_untx (State.slot_port (s := s) (p := p) p)
  rw [State.port_onPort _ _ _ _ hlen, if_pos rfl] at h60 hstamp
  rw [Port.passSlot_slot60, hslot] at h60
  rw [Port.passSlot_stampDue, hdue] at hstamp
  have hlen' : p < ((s.onPort p Port.passSlot).noteHeld p).fab.ports.length := by
    by_contra hno
    have hfresh : ((s.onPort p Port.passSlot).noteHeld p).port p = Port.fresh := List.getD_eq_default _ _ (not_lt.mp hno)
    rw [hfresh] at hstamp
    cases hstamp
  have hstampOf : ((s.onPort p Port.passSlot).noteHeld p).timestamp p = s.timestamp p := by
    have htb := State.tb_of_unlinked hu
    simp only [State.timestamp, State.alignBound, State.now, htb]
  rw [flitSlot, if_neg (by simp [hup, hp])]
  generalize (s.onPort p Port.passSlot).noteHeld p = u at hu h60 hstamp hstampOf hlen'
  have hrun : u.stampFlit p = (u.onPort p (fun x => { x with stampDue := false })).sendFlit p (flitBase 3 0 63 0x3FF 0)
      (timestampBytes (u.timestamp p)) := rfl
  obtain ⟨k, hk⟩ := ((u.onPort p (fun x => { x with stampDue := false })).port p).carry_above
  refine ⟨_, k, if_pos ⟨h60, hstamp⟩, ?_, ?_⟩
  · rw [hrun, State.sendFlit, hk, hstampOf, ← State.out_of_unlinked hu]
    rfl
  · have hsent : (u.stampFlit p).port p = ((u.onPort p (fun x => { x with stampDue := false })).port p).carry.2 :=
      (State.port_onPort _ p p _ (by rw [State.onPort, updAt_length]; exact hlen')).trans (if_pos rfl)
    rw [hsent, State.port_onPort _ _ _ _ hlen', if_pos rfl]
    rfl

/-! ### Silence of the peer -/

theorem State.countIn_rest (x : CountWin) : (s.countIn x).fab = s.fab ∧ (s.countIn x).flt.arriving = s.flt.arriving := by
  unfold State.countIn
  dsimp only
  split <;> exact ⟨rfl, rfl⟩

/-- A corrected error is counted: the ports stay, and so do the messages that wait at the collector. -/
theorem correctedError_rest (source : Nat) (a : Option Nat) :
    (correctedError source a s).fab = s.fab ∧ ∀ m ∈ s.flt.arriving, m ∈ (correctedError source a s).flt.arriving := by
  unfold correctedError
  split
  · exact ⟨rfl, fun m hm => hm⟩
  · split
    · next x _ =>
      obtain ⟨hfab, harr⟩ := State.countIn_rest (s := s) { x with count := x.count + 1 }
      exact ⟨hfab, fun m hm => harr ▸ hm⟩
    · dsimp only
      split
      all_goals
        refine ⟨(State.countIn_rest _).1, fun m hm => ?_⟩
        rw [(State.countIn_rest _).2]
        exact List.mem_append_left _ hm

theorem State.giveBack_st (b : Option (Nat × Nat × Nat × Nat)) (q : Nat) : ((s.giveBack b).port q).st = (s.port q).st := by
  unfold State.giveBack
  split
  · split
    · simp only [State.port, State.onPort, updAt_getD]
      split
      · next h => rw [h.1]
      · rfl
    · rfl
  · rfl

/-- R280: a port that trains again is not up. -/
theorem State.retrain_down (hlen : p < s.fab.ports.length) : ((s.retrain p id).port p).up = false := by
  let f (x : Port) : Port := { Port.fresh with
    st := .training, peer := x.peer, spareIn := x.spareIn, spareFor := x.spareFor, lanesGood := x.lanesGood
    backsSpare := x.backsSpare, badLanes := x.badLanes, downAt := s.now, lastStamp := x.lastStamp
    ctr := ctrAdd x.ctr .retrains 1 }
  have hback : ∀ xs : List TxChunk, ((xs.foldl (fun t k => t.giveBack k.back) (s.onPort p f)).port p).st = .training := fun xs =>
    List.foldlRecOn (motive := fun t : State => (t.port p).st = .training) _ _
      (by rw [State.port_onPort _ _ _ _ hlen, if_pos rfl]) fun t ht k _ => (State.giveBack_st _ p).trans ht
  have hst : ((s.retrain p id).port p).st = .training := by
    unfold State.retrain
    dsimp only
    split
    · obtain ⟨tb, halign, -⟩ := State.realign_eq (((s.port p).tx.flatten).foldl (fun t k => t.giveBack k.back) (s.onPort p f))
      exact (congrArg (fun t : State => (t.port p).st) halign).trans (hback _)
    · exact hback _
  rw [Port.up, hst]
  rfl

/-- R280: a port goes down after eight replays. -/
theorem State.linkDown_down (hlen : p < s.fab.ports.length) : ((s.linkDown p).port p).up = false ∧
    ∃ m ∈ (s.linkDown p).flt.arriving, m.kind = 0x31 ∧ m.source = 0x600 + p ∧ m.cls = 0 := by
  unfold State.linkDown
  dsimp only
  refine List.foldlRecOn (motive := fun t : State => (t.port p).up = false ∧
    ∃ m ∈ t.flt.arriving, m.kind = 0x31 ∧ m.source = 0x600 + p ∧ m.cls = 0) _ _ ⟨State.retrain_down hlen, _,
      List.mem_append_right _ (List.mem_singleton_self _), rfl, rfl, rfl⟩ fun t ht i _ => ?_
  obtain ⟨hup, m, hm, hfields⟩ := ht
  obtain ⟨hfab, harr⟩ := correctedError_rest (s := t) (0x300 + if (s.port p).spareIn = true ∧ (s.port p).spareFor = i then 512 + p / 4 else 4 * p + i) none
  exact ⟨by rw [State.port, hfab]; exact hup, m, harr m hm, hfields⟩

end

/-! ### Timestamps on the wire -/

/-- The fields of a timestamp (Table 14-5). -/
def timestampFields (t : Timestamp) : List (Nat × Nat × Nat) :=
  [(0, 64, t.tSend), (64, 64, t.tEchoSend), (128, 64, t.tEchoRecv), (192, 7, t.master), (199, 2, t.hops), (201, 1, b2n t.aligned),
    (202, 16, t.bound)]

theorem timestampFields_apart (t : Timestamp) : Apart 0 218 (timestampFields t) := by simp [Apart, timestampFields]

theorem readTimestamp_bytes {x : Timestamp} (hsend : x.tSend < 2 ^ 64) (hecho : x.tEchoSend < 2 ^ 64) (hrecv : x.tEchoRecv < 2 ^ 64)
    (hmaster : x.master < 128) (hhops : x.hops < 4) (hbound : x.bound < 2 ^ 16) (r : List Byte) :
    readTimestamp (timestampBytes x ++ r) = x := by
  have hw : ofLE ((timestampBytes x ++ r).take 64) = packF (timestampFields x) := by
    rw [timestampBytes, List.take_left' (toLE_length 64 _), ofLE_toLE]
    exact Nat.mod_eq_of_lt ((Nat.lt_of_succ_le (timestampFields_apart x).lt).trans (by norm_num))
  have haligned : bit (packF (timestampFields x)) 201 = x.aligned := by
    have hbits := bits_packF (timestampFields_apart x) (p := 201) (n := 1) (v := b2n x.aligned) (by simp [timestampFields])
    rw [bits, Nat.shiftRight_eq_div_pow, pow_one] at hbits
    rw [bit, Nat.testBit_eq_decide_div_mod_eq, hbits]
    cases x.aligned <;> rfl
  have hbits {p n v : Nat} (hmem : (p, n, v) ∈ timestampFields x) (hv : v < 2 ^ n) : bits (packF (timestampFields x)) p n = v :=
    (bits_packF (timestampFields_apart x) hmem).trans (Nat.mod_eq_of_lt hv)
  rw [readTimestamp, hw, haligned, hbits (by simp [timestampFields]) hsend, hbits (by simp [timestampFields]) hecho,
    hbits (by simp [timestampFields]) hrecv, hbits (by simp [timestampFields]) hmaster, hbits (by simp [timestampFields]) hhops,
    hbits (by simp [timestampFields]) hbound]

section
variable {s : State} {p : Nat} {bs : List Byte}

/-- A flit without acknowledgement and credit, on a port that is up, whose codewords were all good. -/
theorem flitReceive_plain {kind tc len start seq : Nat} (hp : p < 128) (hlen : p < s.fab.ports.length) (hup : (s.port p).up = true)
    (hfit : bs.length ≤ 512) : ∃ ctr : Tbl Nat,
    flitReceive p 0 [] (flitBytes (flitBase kind tc len start seq) bs) s =
      if kind % 2 ^ 4 = 3 then (s.onPort p (fun y => { y with ctr := ctr })).emit
        (.timestamp p (readTimestamp ((flitBytes (flitBase kind tc len start seq) bs).drop 12)))
      else if kind % 2 ^ 4 ≠ 1 then s.onPort p (fun y => { y with ctr := ctr })
      else (s.onPort p (fun y => { y with ctr := ctr })).onPort p (fun x => if seq % 2 ^ 12 = x.rxSeq ∧ tc % 2 ^ 3 < 5 then
          x.accept (tc % 2 ^ 3) (start % 2 ^ 10) (((flitBytes (flitBase kind tc len start seq) bs).drop 12).take (len % 2 ^ 9 + 1))
        else x.reject) := by
  have hsame : s.onPort p (fun y => { y with ctr := ctrAdd (ctrAdd y.ctr .fecCorrected 0) .fecUncorrected 0 }) =
      s.onPort p (fun y => { y with ctr := ctrAdd (ctrAdd (s.port p).ctr .fecCorrected 0) .fecUncorrected 0 }) := by
    have hupd : updAt s.fab.ports p (fun y => { y with ctr := ctrAdd (ctrAdd y.ctr .fecCorrected 0) .fecUncorrected 0 }) =
        updAt s.fab.ports p (fun y => { y with ctr := ctrAdd (ctrAdd (s.port p).ctr .fecCorrected 0) .fecUncorrected 0 }) := by
      refine List.ext_getElem? fun j => ?_
      rw [updAt_getElem?, updAt_getElem?]
      split
      · next hj =>
        subst hj
        rw [State.port, List.getD_eq_getElem _ _ hlen, List.getElem?_eq_getElem hlen]
        rfl
      · rfl
    exact congrArg (fun l => { s with fab := { s.fab with ports := l } }) hupd
  refine ⟨ctrAdd (ctrAdd (s.port p).ctr .fecCorrected 0) .fecUncorrected 0, ?_⟩
  rw [flitReceive_up hp hup]
  dsimp only
  rw [if_pos ⟨flitBytes_length hfit, flitBytes_crc hfit⟩, hsame, State.takeFlit_plain]
  rw [State.port_onPort _ _ _ _ hlen, if_pos rfl]
  exact hup

/-- R280: a data flit on a port that is up: taken in its turn, rejected out of it. -/
theorem flitReceive_data {tc seq : Nat} (hp : p < 128) (hlen : p < s.fab.ports.length) (hup : (s.port p).up = true) (htc : tc < 5)
    (hseq : seq < 4096) (hfit : bs.length ≤ 512) : ∃ (t : State) (ctr : Tbl Nat),
    flitReceive p 0 [] (flitBytes (flitBase 1 tc (bs.length - 1) 0x3FF seq) bs) s = t ∧ t.mem = s.mem ∧ t.out = s.out ∧
    (∀ q, q ≠ p → t.port q = s.port q) ∧
    (seq = (s.port p).rxSeq → 0 < bs.length → t.port p = ({ s.port p with ctr := ctr } : Port).accept tc 0x3FF bs) ∧
    (seq ≠ (s.port p).rxSeq → t.port p = ({ s.port p with ctr := ctr } : Port).reject) := by
  obtain ⟨ctr, hrun⟩ := flitReceive_plain (kind := 1) (tc := tc) (len := bs.length - 1) (start := 0x3FF) (seq := seq) hp hlen hup hfit
  rw [if_neg (by decide), if_neg (by decide), State.onPort_onPort, Nat.mod_eq_of_lt (show seq < 2 ^ 12 from hseq),
    Nat.mod_eq_of_lt (show tc < 2 ^ 3 by omega)] at hrun
  refine ⟨_, ctr, hrun, rfl, rfl, fun q hq => (State.port_onPort s p q _ hlen).trans (if_neg (Ne.symm hq)), fun heq hpos => ?_,
    fun hne => ?_⟩
  · refine (State.port_onPort s p p _ hlen).trans ((if_pos rfl).trans ((if_pos ⟨heq, htc⟩).trans ?_))
    have hlast : (bs.length - 1) % 2 ^ 9 + 1 = bs.length := by omega
    rw [hlast, flitBytes_payload]
    rfl
  · exact (State.port_onPort s p p _ hlen).trans ((if_pos rfl).trans (if_neg fun h => hne h.1))

end

/-- Settles O53. -/
theorem waborLink : Obligations.WaborLink := by
  unfold Obligations.WaborLink
  refine ⟨fun p tc bs s hp hlen hup htc hrx hseq hpos hfit => ?_, fun p tc seq bs s hp hlen hup htc hseq hne hnak hfit => ?_,
    fun p bs s hp hlen hup hbad => ?_,
    fun p n l bs s hup => ⟨congrArg Host.Outcome.next (flitReceive_down n l hup),
      congrArg Host.Outcome.next (if_pos (.inr (by simp [hup]))), congrArg Host.Outcome.next (if_neg (by simp [hup]))⟩,
    fun p s hp hlen hup hreplay => ⟨fun hearly => ?_, fun hlate hruns => ?_, fun hlate hruns => ?_⟩,
    fun p s hp hup hfit => ?_, fun p s hp hlen hup hslot hdue => ?_,
    fun p seq x s hp hlen hup hseq hsend hecho hrecv hmaster hhops hbound => ?_, fun p s hp hup hlast => ?_,
    fun p x s hp hup hmaster => ?_, fun s hst hmaster hlast => ?_, fun s hst hlog hheld => ?_⟩
  · obtain ⟨t, ctr, hrun, hmem, hout, hother, hport, -⟩ := flitReceive_data hp hlen hup htc hseq hfit
    refine ⟨t, congrArg Host.Outcome.next hrun, hmem, hout, ?_⟩
    rw [hport rfl hpos]
    exact ⟨updAt_getD_same _ _ _ _ hrx, rfl, rfl, rfl, rfl, hother⟩
  · obtain ⟨t, ctr, hrun, -, -, -, -, hport⟩ := flitReceive_data hp hlen hup htc hseq hfit
    refine ⟨t, congrArg Host.Outcome.next hrun, ?_⟩
    have hreject : ({ s.port p with ctr := ctr } : Port).reject = { s.port p with ctr := ctr, nakSent := true, nakDue := true } :=
      if_neg (by simp [hnak])
    rw [hport hne, hreject]
    exact ⟨rfl, rfl, rfl⟩
  · have hcrc : ¬ (bs.length = 528 ∧ ofLE (bs.drop 524) = Num.crc32c (bs.take 524)) := by
      rw [not_and_or]
      exact hbad
    have hrun := flitReceive_up (bs := bs) hp hup
    dsimp only at hrun
    rw [if_neg hcrc, State.onPort_onPort] at hrun
    refine ⟨_, congrArg Host.Outcome.next hrun, ?_⟩
    rw [State.port_onPort _ _ _ _ hlen, if_pos rfl, Port.reject]
    cases hnak : (s.port p).nakSent <;> simp [State.onPort]
  · exact congrArg Host.Outcome.next (if_neg fun h => absurd h.2.2.2 (by omega))
  · refine congrArg Host.Outcome.next ((if_pos ⟨hp, hup, by simp [hreplay], hlate⟩).trans ?_)
    exact (if_neg (by simp [hreplay])).trans (if_neg (by omega))
  · have hdown : linkAckTimeout p s = s.linkDown p := (if_pos ⟨hp, hup, by simp [hreplay], hlate⟩).trans
      ((if_neg (by simp [hreplay])).trans (if_pos hruns))
    exact ⟨_, congrArg Host.Outcome.next hdown, State.linkDown_down hlen⟩
  · obtain ⟨bs, h⟩ := flitSlot_sent hp hup hfit
    exact ⟨_, bs, rfl, h.out, h.length, h.crc, h.mem, h.ctxs⟩
  · obtain ⟨t, k, hrun, hout, hstamp⟩ := flitSlot_stamp hp hlen hup hslot hdue
    refine ⟨t, _, congrArg Host.Outcome.next hrun, hout, ?_, ?_, hstamp⟩
    · rw [flitBytes_assoc, List.take_left' (toLE_length 12 _), ofLE_toLE]
      have hlow (y : Nat) : bits (y % 256 ^ 12) 0 4 = bits y 0 4 := by
        rw [bits, bits, Nat.shiftRight_zero, Nat.shiftRight_zero]
        omega
      rw [hlow, bits_add_high (by decide), flitBase_kind]
      rfl
    · exact flitBytes_payload _ (timestampBytes (s.timestamp p))
  · obtain ⟨ctr, hrun⟩ := flitReceive_plain (kind := 3) (tc := 0) (len := 63) (start := 0x3FF) (seq := seq) (bs := timestampBytes x)
      hp hlen hup (by rw [timestampBytes, toLE_length]; decide)
    have hread : readTimestamp ((flitBytes (flitBase 3 0 63 0x3FF seq) (timestampBytes x)).drop 12) = x := by
      rw [flitBytes_assoc, List.drop_left' (toLE_length 12 _)]
      exact readTimestamp_bytes hsend hecho hrecv hmaster hhops hbound _
    rw [if_pos (by decide), hread] at hrun
    have hport := State.port_onPort s p p (fun y => { y with ctr := ctr }) hlen
    rw [if_pos rfl] at hport
    have hrx := congrArg Port.rx hport
    have hrxSeq := congrArg Port.rxSeq hport
    exact ⟨_, congrArg Host.Outcome.next hrun, rfl, rfl, hrx, hrxSeq⟩
  · exact congrArg Host.Outcome.next (if_neg (by simp [hup, hp, hlast]))
  · exact congrArg Host.Outcome.next ((if_neg (by simp [hup, hp])).trans (if_neg fun h => h.2.1 hmaster))
  · exact congrArg Host.Outcome.next (if_pos ⟨hst, hmaster, hlast⟩)
  · exact ⟨_, congrArg Host.Outcome.next (if_pos ⟨hst, by simp [hlog], hheld⟩), _, rfl, rfl, rfl, rfl, rfl⟩

end Machine
end Sys2Proof
end

section
/-! PROOFS. Chunks of Wabor transport: closed, received, acknowledged and resent, and what their routes leave alone (13 R282 to R286). -/

namespace Sys2Proof
namespace Machine

/-! ### Paths -/

theorem pathKey_eq (pkg tc : Nat) : pathKey pkg tc = 8 * pkg + tc := by rw [pathKey, Nat.mul_comm]

section
variable {s : State}

theorem State.pathOut_onOut (k j : Nat) (f : PathOut → PathOut) :
    (s.onOut k f).pathOut j = if k = j then f (s.pathOut k) else s.pathOut j := Tbl.getD_setD ..

theorem State.pathOut_onOut_same (k : Nat) (f : PathOut → PathOut) : (s.onOut k f).pathOut k = f (s.pathOut k) := Tbl.getD_setD_same ..

theorem State.pathIn_onIn (k j : Nat) (f : PathIn → PathIn) :
    (s.onIn k f).pathIn j = if k = j then f (s.pathIn k) else s.pathIn j := Tbl.getD_setD ..

theorem State.pathIn_onIn_same (k : Nat) (f : PathIn → PathIn) : (s.onIn k f).pathIn k = f (s.pathIn k) := Tbl.getD_setD_same ..

/-! ### What a route leaves alone -/

/-- A path without its route. -/
def PathOut.cargo (p : PathOut) : PathOut := { p with detour := none, movedAt := 0, timeouts := 0, lastPort := 0 }

/-- What the fabric's transport leaves alone: everything but the fabric and the counters, and of the fabric what goes by its paths. -/
def State.unsent (s : State) : State := { s with ctr := [], fab := { s.fab with ports := [], outs := [] } }

/-- A step of transport moves routes, queues and counters only. -/
structure State.Routed (s t : State) : Prop where
  rest  : t.unsent = s.unsent
  cargo : ∀ j, (t.pathOut j).cargo = (s.pathOut j).cargo

theorem State.Routed.refl (s : State) : s.Routed s := ⟨rfl, fun _ => rfl⟩

theorem State.Routed.trans {t u : State} (h : s.Routed t) (h' : t.Routed u) : s.Routed u :=
  ⟨h'.rest.trans h.rest, fun j => (h'.cargo j).trans (h.cargo j)⟩

theorem State.Routed.foldl {α : Type} {f : State → α → State} (h : ∀ (t : State) (x : α), t.Routed (f t x)) (xs : List α) (s : State) :
    s.Routed (xs.foldl f s) :=
  List.foldlRecOn (motive := fun t : State => s.Routed t) _ _ (State.Routed.refl s) fun t ht x _ => ht.trans (h t x)

theorem State.routed_onOut (k : Nat) {f : PathOut → PathOut} (h : ∀ p, (f p).cargo = p.cargo) : s.Routed (s.onOut k f) := by
  refine ⟨rfl, fun j => ?_⟩
  rw [State.pathOut_onOut]
  split
  · next hj => rw [h, hj]
  · rfl

theorem State.routed_bump (c : Ctr) (n : Nat) : s.Routed (s.bump c n) := ⟨rfl, fun _ => rfl⟩

theorem State.routed_queueChunk (p tc : Nat) (c : TxChunk) : s.Routed (s.queueChunk p tc c) := ⟨rfl, fun _ => rfl⟩

theorem State.routed_moveDetour (k v : Nat) : s.Routed (s.moveDetour k v) :=
  (State.routed_onOut k (f := fun p => { p with detour := some v, movedAt := s.now, timeouts := 0 }) fun _ => rfl).trans
    (State.routed_bump ..)

theorem State.routed_lastPort (k q : Nat) : s.Routed (s.onOut k (fun p => { p with lastPort := q })) :=
  State.routed_onOut k fun _ => rfl

/-- R286: finding a route moves the path's route only. -/
theorem State.routed_routePath (k : Nat) : s.Routed (s.routePath k).2 := by
  unfold State.routePath
  dsimp only
  split
  · exact State.routed_lastPort ..
  · split
    · exact .refl s
    · split
      · exact .refl s
      · exact (State.routed_moveDetour ..).trans (State.routed_lastPort ..)

theorem State.routed_sendChunk (k : Nat) (c : SentChunk) (resend : Bool) (charge : List (Nat × Nat)) :
    s.Routed (s.sendChunk k c resend charge) := by
  unfold State.sendChunk
  dsimp only
  split
  · exact State.routed_routePath k
  · exact (State.routed_routePath k).trans (State.routed_queueChunk ..)

theorem State.routed_resendAll (k : Nat) (l : List SentChunk) : s.Routed (s.resendAll k l) :=
  State.Routed.foldl (fun _ _ => (State.routed_sendChunk ..).trans (State.routed_bump ..)) l s

section
variable {t : State} (h : s.Routed t)
include h

theorem State.Routed.mem : t.mem = s.mem := by
  have h' := congrArg State.mem h.rest
  exact h'

theorem State.Routed.ctxs : t.ctxs = s.ctxs := by
  have h' := congrArg State.ctxs h.rest
  exact h'

theorem State.Routed.fabric : ({ t.fab with ports := [], outs := [] } : Fabric) = { s.fab with ports := [], outs := [] } := by
  have h' := congrArg State.fab h.rest
  exact h'

theorem State.Routed.entries : t.fab.entries = s.fab.entries := by
  have h' := congrArg Fabric.entries h.fabric
  exact h'

theorem State.Routed.pathIn (j : Nat) : t.pathIn j = s.pathIn j := by
  have h' := congrArg (fun f : Fabric => f.ins.getD j PathIn.fresh) h.fabric
  exact h'

end

/-! ### Closing a chunk -/

/-- R282: the bytes of a chunk are the first of the stream, and the others stay. -/
theorem cutStream_bytes (n : Nat) (l : List (Nat × List Byte)) : (cutStream n l).2.1 = ((l.map (·.2)).flatten).take n ∧
    ((cutStream n l).2.2.map (·.2)).flatten = ((l.map (·.2)).flatten).drop n := by
  induction l generalizing n with
  | nil => simp [cutStream]
  | cons e r ih =>
    obtain ⟨p, b⟩ := e
    rw [cutStream, List.map_cons, List.flatten_cons]
    by_cases hn : n = 0
    · simp [hn]
    · rw [if_neg hn]
      by_cases hb : b.length ≤ n
      · rw [if_pos hb, List.take_append, List.drop_append, List.take_of_length_le hb, List.drop_eq_nil_of_le hb]
        exact ⟨congrArg (b ++ ·) (ih _).1, (ih _).2⟩
      · have hb' : n ≤ b.length := by omega
        rw [if_neg hb, List.take_append_of_le_length hb', List.drop_append_of_le_length hb']
        exact ⟨rfl, rfl⟩

variable {pkg tc : Nat}

/-- A chunk is not yet full, or has no credit. -/
theorem chunkClose_waits (h : streamBytes (s.pathOut (pathKey pkg tc)).stream = 0 ∨
      (streamBytes (s.pathOut (pathKey pkg tc)).stream < 4096 ∧ s.now < (s.pathOut (pathKey pkg tc)).lastByte + 50) ∨
      ((s.pathOut (pathKey pkg tc)).opened = true ∧ (s.pathOut (pathKey pkg tc)).credits = 0)) : chunkClose pkg tc s = s := by
  refine if_pos ?_
  rcases h with h | h | ⟨ho, hc⟩
  · exact .inr (.inr (.inl h))
  · exact .inr (.inr (.inr (.inr (.inl h))))
  · rw [ho, hc]
    exact .inr (.inr (.inr (.inr (.inr rfl))))

/-- The chunk that a path closes. -/
def State.closedChunk (s : State) (k : Nat) : SentChunk :=
  let p := s.pathOut k
  ⟨p.nextPsn, (cutStream 4096 p.stream).2.1, s.now, p.queuedEnd - streamBytes (cutStream 4096 p.stream).2.2⟩

/-- The path after its chunk is closed. -/
def State.afterClose (s : State) (k : Nat) (p : PathOut) : PathOut := { p with
  stream := (cutStream 4096 (s.pathOut k).stream).2.2, nextPsn := (p.nextPsn + 1) % 2 ^ 24
  unacked := p.unacked ++ [s.closedChunk k], credits := (s.pathOut k).credits - 1, opened := true
  lastProgress := if p.unacked.isEmpty then s.now else p.lastProgress }

/-- R282 to R285: a chunk is closed. -/
theorem chunkClose_closes (hb : s.booted = true) (htc : tc < 5) (hpos : 0 < streamBytes (s.pathOut (pathKey pkg tc)).stream)
    (hthere : pkg ∉ s.fab.departed) (hdue : 4096 ≤ streamBytes (s.pathOut (pathKey pkg tc)).stream ∨
      (s.pathOut (pathKey pkg tc)).lastByte + 50 ≤ s.now) (hopen : (s.pathOut (pathKey pkg tc)).opened = true)
    (hcredit : 0 < (s.pathOut (pathKey pkg tc)).credits) (hroute : (s.routePath (pathKey pkg tc)).1 ≠ none) :
    (chunkClose pkg tc s).mem = s.mem ∧ (chunkClose pkg tc s).ctxs = s.ctxs ∧
    ((chunkClose pkg tc s).pathOut (pathKey pkg tc)).cargo =
      (s.afterClose (pathKey pkg tc) (s.pathOut (pathKey pkg tc))).cargo := by
  have hsent (v : State) (hmem : v.mem = s.mem) (hctxs : v.ctxs = s.ctxs)
      (hpath : v.pathOut (pathKey pkg tc) = s.afterClose (pathKey pkg tc) (s.pathOut (pathKey pkg tc))) (ch : List (Nat × Nat)) :
      let t := v.sendChunk (pathKey pkg tc) (s.closedChunk (pathKey pkg tc)) false ch
      t.mem = s.mem ∧ t.ctxs = s.ctxs ∧ (t.pathOut (pathKey pkg tc)).cargo =
        (s.afterClose (pathKey pkg tc) (s.pathOut (pathKey pkg tc))).cargo := by
    have h := v.routed_sendChunk (pathKey pkg tc) (s.closedChunk (pathKey pkg tc)) false ch
    exact ⟨h.mem.trans hmem, h.ctxs.trans hctxs, (h.cargo _).trans (congrArg PathOut.cargo hpath)⟩
  have hpath := State.pathOut_onOut_same (s := s) (pathKey pkg tc) (s.afterClose (pathKey pkg tc))
  unfold chunkClose
  dsimp only
  rw [hopen, if_neg (by simp [hb, hthere]; omega)]
  split
  · next hnone => exact absurd hnone hroute
  · refine hsent _ ?_ ?_ ?_ _ <;> split
    exacts [rfl, rfl, rfl, rfl, hpath, hpath]

end

/-! ### A chunk on the wire -/

section
variable {dst src tc psn len : Nat} {payload rest : List Byte}

/-- The fields of the header of a chunk sent straight to its destination (Table 13-7). -/
def chunkFields (dst src tc psn len : Nat) : List (Nat × Nat × Nat) :=
  [(0, 7, dst), (7, 7, src), (14, 7, 0), (21, 1, 0), (22, 3, tc), (25, 1, 0), (26, 1, 0), (32, 24, psn), (64, 13, len), (128, 64, 0)]

theorem chunkFields_apart : Apart 0 192 (chunkFields dst src tc psn len) := by simp [Apart, chunkFields]

theorem chunkHeader_eq : chunkHeader dst src none tc false false psn len 0 =
    toLE 28 (packF (chunkFields dst src tc psn len)) ++ toLE 4 (Num.crc32c (toLE 28 (packF (chunkFields dst src tc psn len)))) := rfl

/-- What a port reads of the chunk at the head of its bytes. -/
structure ReadsChunk (b : List Byte) (dst src tc psn : Nat) (payload rest : List Byte) : Prop where
  long         : 36 + payload.length ≤ b.length
  headerOk     : ofLE ((b.drop 28).take 4) = Num.crc32c (b.take 28)
  readsDst     : bits (ofLE (b.take 28)) 0 7 = dst
  readsSrc     : bits (ofLE (b.take 28)) 7 7 = src
  readsTc      : bits (ofLE (b.take 28)) 22 3 = tc
  noAck        : bit (ofLE (b.take 28)) 26 = false
  readsPsn     : bits (ofLE (b.take 28)) 32 24 = psn
  readsLen     : bits (ofLE (b.take 28)) 64 13 = payload.length
  readsPayload : (b.drop 32).take payload.length = payload
  payloadOk    : ofLE ((b.drop (32 + payload.length)).take 4) = Num.crc32c payload
  leaves       : b.drop (36 + payload.length) = rest

theorem ofLE_crc (x : List Byte) : ofLE (toLE 4 (Num.crc32c x)) = Num.crc32c x := by
  rw [ofLE_toLE]
  exact Nat.mod_eq_of_lt (lt_of_lt_of_eq (crc32c_lt _) (by norm_num))

theorem readsChunk (hdst : dst < 128) (hsrc : src < 128) (htc : tc < 5) (hpsn : psn < 2 ^ 24) (hlen : payload.length ≤ 4096) :
    ReadsChunk (wireChunk (chunkHeader dst src none tc false false psn payload.length 0) payload ++ rest) dst src tc psn payload rest := by
  have hfields := chunkFields_apart (dst := dst) (src := src) (tc := tc) (psn := psn) (len := payload.length)
  have hlt : packF (chunkFields dst src tc psn payload.length) < 256 ^ 28 := (Nat.lt_of_succ_le hfields.lt).trans (by norm_num)
  have hfield {p n v : Nat} (hmem : (p, n, v) ∈ chunkFields dst src tc psn payload.length) (hv : v < 2 ^ n) :
      bits (packF (chunkFields dst src tc psn payload.length)) p n = v := (bits_packF hfields hmem).trans (Nat.mod_eq_of_lt hv)
  have hack : bit (packF (chunkFields dst src tc psn payload.length)) 26 = false := by
    have hbits := hfield (p := 26) (n := 1) (v := 0) (by simp [chunkFields]) (by decide)
    rw [bits, Nat.shiftRight_eq_div_pow, pow_one] at hbits
    rw [bit, Nat.testBit_eq_decide_div_mod_eq, hbits]
    rfl
  have hdst' := hfield (p := 0) (n := 7) (v := dst) (by simp [chunkFields]) hdst
  have hsrc' := hfield (p := 7) (n := 7) (v := src) (by simp [chunkFields]) hsrc
  have htc' := hfield (p := 22) (n := 3) (v := tc) (by simp [chunkFields]) (by omega)
  have hpsn' := hfield (p := 32) (n := 24) (v := psn) (by simp [chunkFields]) hpsn
  have hlen' := hfield (p := 64) (n := 13) (v := payload.length) (by simp [chunkFields]) (by omega)
  have hbytes : wireChunk (chunkHeader dst src none tc false false psn payload.length 0) payload ++ rest =
      toLE 28 (packF (chunkFields dst src tc psn payload.length)) ++
        (toLE 4 (Num.crc32c (toLE 28 (packF (chunkFields dst src tc psn payload.length)))) ++
          (payload ++ (toLE 4 (Num.crc32c payload) ++ rest))) := by
    simp only [wireChunk, chunkHeader_eq, List.append_assoc]
  rw [hbytes]
  generalize packF (chunkFields dst src tc psn payload.length) = h at *
  have htake : (toLE 28 h ++ (toLE 4 (Num.crc32c (toLE 28 h)) ++ (payload ++ (toLE 4 (Num.crc32c payload) ++ rest)))).take 28 =
      toLE 28 h := List.take_left' (toLE_length 28 h)
  have hread : ofLE (toLE 28 h) = h := by rw [ofLE_toLE, Nat.mod_eq_of_lt hlt]
  have hdrop28 : (toLE 28 h ++ (toLE 4 (Num.crc32c (toLE 28 h)) ++ (payload ++ (toLE 4 (Num.crc32c payload) ++ rest)))).drop 28 =
      toLE 4 (Num.crc32c (toLE 28 h)) ++ (payload ++ (toLE 4 (Num.crc32c payload) ++ rest)) := List.drop_left' (toLE_length 28 h)
  have hdrop32 : (toLE 28 h ++ (toLE 4 (Num.crc32c (toLE 28 h)) ++ (payload ++ (toLE 4 (Num.crc32c payload) ++ rest)))).drop 32 =
      payload ++ (toLE 4 (Num.crc32c payload) ++ rest) := by
    rw [show 32 = 28 + 4 from rfl, ← List.drop_drop, hdrop28, List.drop_left' (toLE_length 4 _)]
  have hdropPayload : (toLE 28 h ++ (toLE 4 (Num.crc32c (toLE 28 h)) ++ (payload ++ (toLE 4 (Num.crc32c payload) ++ rest)))).drop
      (32 + payload.length) = toLE 4 (Num.crc32c payload) ++ rest := by
    rw [← List.drop_drop, hdrop32, List.drop_left' rfl]
  constructor
  case long =>
    simp only [List.length_append, toLE_length]
    omega
  case headerOk => rw [hdrop28, htake, List.take_left' (toLE_length 4 _), ofLE_crc]
  case readsDst => rw [htake, hread, hdst']
  case readsSrc => rw [htake, hread, hsrc']
  case readsTc => rw [htake, hread, htc']
  case noAck => rw [htake, hread, hack]
  case readsPsn => rw [htake, hread, hpsn']
  case readsLen => rw [htake, hread, hlen']
  case readsPayload => rw [hdrop32, List.take_left' rfl]
  case payloadOk => rw [hdropPayload, List.take_left' (toLE_length 4 _), ofLE_crc]
  case leaves => rw [show 36 + payload.length = 32 + payload.length + 4 by omega, ← List.drop_drop, hdropPayload,
    List.drop_left' (toLE_length 4 _)]

end

/-! ### Receiving a chunk -/

section
variable {s : State} {p src tc psn : Nat} {payload rest : List Byte}

/-- The bytes of a chunk leave the buffer of its class. -/
theorem State.eatBytes_rx (hlen : p < s.fab.ports.length) (hrx : tc < (s.port p).rx.length) (n : Nat) :
    ((s.eatBytes p tc n).port p).rx.getD tc [] = ((s.port p).rx.getD tc []).drop n := by
  rw [State.eatBytes, State.port_onPort _ _ _ _ hlen, if_pos rfl]
  exact updAt_getD_same _ _ _ _ hrx

/-- R283: a chunk of this package, from a package that has not departed, outside acknowledgement. -/
theorem chunkReceive_own (hp : p < 128) (htc : tc < 5) (hup : (s.port p).up = true) (hsrc : src ∉ s.fab.departed)
    (h : ReadsChunk ((s.port p).rx.getD tc []) s.board.pkgId src tc psn payload rest) :
    let u := s.eatBytes p tc (36 + payload.length)
    let x := u.pathIn (pathKey src tc)
    chunkReceive p tc s =
      if psnBelow psn x.expected then
        (u.bump .dupChunks 1).onIn (pathKey src tc) (fun y => { y with ackFrom := some (y.ackFrom.getD u.now) })
      else if 1024 ≤ (psn + 2 ^ 24 - x.expected) % 2 ^ 24 then u.bump .windowDrops 1
      else if psn ≠ x.expected ∧ 2048 ≤ u.reorderUsed then u.bump .reorderDrops 1
      else u.acceptChunk p src tc psn payload := by
  have hlong := h.long
  have hready : ¬ (128 ≤ p ∨ 5 ≤ tc ∨ (!(s.port p).up) = true ∨ ((s.port p).rx.getD tc []).length < 32) := by
    rw [hup]
    simp only [Bool.not_true, Bool.false_eq_true, false_or]
    omega
  have hthere : ¬ ((s.eatBytes p tc (36 + payload.length)).fab.departed.contains src = true) := by simpa [State.eatBytes, State.onPort] using hsrc
  unfold chunkReceive
  dsimp only
  rw [if_neg hready, if_neg (not_not.mpr h.headerOk), h.readsLen, if_neg (not_lt.mpr hlong), if_pos h.readsDst, h.readsPayload,
    h.payloadOk, beq_self_eq_true]
  unfold State.chunkHere
  dsimp only
  rw [h.readsSrc, h.readsTc, h.readsPsn, h.noAck, if_neg hthere, if_neg Bool.false_ne_true, Bool.not_true]
  simp only [Bool.false_eq_true, if_false]

theorem psnBelow_self (n : Nat) : psnBelow n n = false := by
  rw [psnBelow, Nat.add_sub_cancel_left, Nat.mod_self]
  rfl

/-- An acknowledgement becomes due, with the time since when. -/
def PathIn.dueFrom (now : Nat) (x : PathIn) : PathIn := { x with ackFrom := some (x.ackFrom.getD now) }

theorem State.pathIn_eatBytes (n j : Nat) : (s.eatBytes p tc n).pathIn j = s.pathIn j := rfl

theorem chunkReceive_old (hp : p < 128) (htc : tc < 5) (hup : (s.port p).up = true) (hsrc : src ∉ s.fab.departed)
    (h : ReadsChunk ((s.port p).rx.getD tc []) s.board.pkgId src tc psn payload rest)
    (hold : psnBelow psn (s.pathIn (pathKey src tc)).expected = true) :
    chunkReceive p tc s =
      ((s.eatBytes p tc (36 + payload.length)).bump .dupChunks 1).onIn (pathKey src tc) (PathIn.dueFrom s.now) :=
  (chunkReceive_own hp htc hup hsrc h).trans (if_pos hold)

theorem chunkReceive_expected (hp : p < 128) (htc : tc < 5) (hup : (s.port p).up = true) (hsrc : src ∉ s.fab.departed)
    (h : ReadsChunk ((s.port p).rx.getD tc []) s.board.pkgId src tc (s.pathIn (pathKey src tc)).expected payload rest) :
    chunkReceive p tc s =
      (s.eatBytes p tc (36 + payload.length)).acceptChunk p src tc (s.pathIn (pathKey src tc)).expected payload := by
  refine (chunkReceive_own hp htc hup hsrc h).trans ?_
  rw [State.pathIn_eatBytes, psnBelow_self, if_neg Bool.false_ne_true, Nat.add_sub_cancel_left, Nat.mod_self]
  exact (if_neg (by decide)).trans (if_neg fun hne => hne.1 rfl)

/-- A message header reads back. -/
theorem msgHeader_reads {type ctx part len : Nat} (htype : type < 256) (hctx : ctx < 16) (hlen : len < 2 ^ 32) (body : List Byte) :
    bits (ofLE ((msgHeader type ctx part len ++ body).take 8)) 0 8 = type ∧
    bits (ofLE ((msgHeader type ctx part len ++ body).take 8)) 8 4 = ctx ∧
    bits (ofLE ((msgHeader type ctx part len ++ body).take 8)) 32 32 = len := by
  have hapart : Apart 0 64 [(0, 8, type), (8, 4, ctx), (12, 3, part), (32, 32, len)] := by simp [Apart]
  have hread : ofLE ((msgHeader type ctx part len ++ body).take 8) = packF [(0, 8, type), (8, 4, ctx), (12, 3, part), (32, 32, len)] := by
    rw [msgHeader, List.take_left' (toLE_length 8 _), ofLE_toLE]
    exact Nat.mod_eq_of_lt ((Nat.lt_of_succ_le hapart.lt).trans_eq (by norm_num))
  have hfield {p n v : Nat} (hmem : (p, n, v) ∈ [(0, 8, type), (8, 4, ctx), (12, 3, part), (32, 32, len)]) (hv : v < 2 ^ n) :
      bits (packF [(0, 8, type), (8, 4, ctx), (12, 3, part), (32, 32, len)]) p n = v :=
    (bits_packF hapart hmem).trans (Nat.mod_eq_of_lt hv)
  rw [hread]
  exact ⟨hfield (by simp) htype, hfield (by simp) hctx, hfield (by simp) hlen⟩

/-- A stream of one whole message. -/
theorem splitMsgs_one {type ctx part : Nat} {body : List Byte} (htype : type < 256) (hctx : ctx < 16) (hbody : body.length < 2 ^ 32) :
    splitMsgs ((msgHeader type ctx part body.length ++ body).length / 8) (msgHeader type ctx part body.length ++ body) =
      ([(ofLE ((msgHeader type ctx part body.length ++ body).take 8), body)], []) := by
  obtain ⟨-, -, hlen⟩ := msgHeader_reads htype hctx hbody (part := part) body
  have hlength : (msgHeader type ctx part body.length ++ body).length = 8 + body.length := by
    rw [List.length_append, msgHeader, toLE_length]
  have hdrop : (msgHeader type ctx part body.length ++ body).drop 8 = body := List.drop_left' (toLE_length 8 _)
  obtain ⟨n, hn⟩ : ∃ n, (8 + body.length) / 8 = n + 1 := ⟨body.length / 8, by omega⟩
  have hnil (k : Nat) : splitMsgs k [] = ([], []) := by
    cases k with
    | zero => rfl
    | succ k => rw [splitMsgs]; exact if_pos (by simp)
  rw [hlength, hn, splitMsgs]
  dsimp only
  rw [hlen, hlength, if_neg (by omega), ← List.drop_drop, hdrop, List.take_length, List.drop_length, hnil]

/-- The only chunk that a path keeps takes effect where it is the expected one. -/
theorem PathIn.drain_one (x : PathIn) : PathIn.drain 1 { x with reorder := [(x.expected, payload)] } = { x with
    expected := (x.expected + 1) % 2 ^ 24, part := x.part ++ payload, giveBack := x.giveBack + 1, reorder := [] } := by
  simp [PathIn.drain]

/-- A path after its expected chunk, of whole messages, with the time it came. -/
def PathIn.taken (now : Nat) (x : PathIn) : PathIn := { x with
  expected := (x.expected + 1) % 2 ^ 24, reorder := [], part := [], giveBack := x.giveBack + 1
  ackFrom := some (x.ackFrom.getD now) }

/-- R283: the expected chunk of a path takes effect, and delivers its message. -/
theorem State.acceptChunk_message {x : PathIn} {type ctx part : Nat} {body : List Byte} (hx : s.pathIn (pathKey src tc) = x)
    (htype : type ∈ msgTypes) (hctx : ctx < 16) (hbody : body.length < 2 ^ 32)
    (hreorder : x.reorder = []) (hpart : x.part = []) (hfree : ¬ (tc = tcDispatch ∧ s.heldFrom src = true)) :
    s.acceptChunk p src tc x.expected (msgHeader type ctx part body.length ++ body) =
      ((s.bump .chunksRx 1).onIn (pathKey src tc) (fun _ => x.taken s.now)).emit (.deliver type ctx src body) := by
  have htype' : type < 256 := by
    revert htype
    simp only [msgTypes, List.mem_cons, List.not_mem_nil, or_false]
    omega
  obtain ⟨hread, hreadCtx, -⟩ := msgHeader_reads htype' hctx hbody (part := part) body
  have hsplit := splitMsgs_one htype' hctx hbody (part := part)
  have hdrain := PathIn.drain_one x (payload := msgHeader type ctx part body.length ++ body)
  have hdeliver (t : State) : t.deliver p src (ofLE ((msgHeader type ctx part body.length ++ body).take 8), body) =
      t.emit (.deliver type ctx src body) := by
    rw [State.deliver, hread, hreadCtx]
    exact if_pos (by simpa using htype)
  generalize msgHeader type ctx part body.length ++ body = payload at *
  have hmoved : (x.expected + 1) % 2 ^ 24 ≠ x.expected := by omega
  unfold State.acceptChunk
  dsimp only
  rw [if_neg hfree, hx, hreorder, List.filter_nil, List.nil_append, List.length_singleton, hdrain, hpart, List.nil_append]
  dsimp only
  rw [hsplit, if_neg hmoved, List.foldl_cons, List.foldl_nil, hdeliver]
  rfl

/-- R106: a dispatch chunk of a package whose rows wait for room is kept. -/
theorem State.acceptChunk_held (hreorder : (s.pathIn (pathKey src tcDispatch)).reorder = [])
    (hpart : (s.pathIn (pathKey src tcDispatch)).part = []) (hheld : s.heldFrom src = true) :
    s.acceptChunk p src tcDispatch psn payload =
      (s.bump .chunksRx 1).onIn (pathKey src tcDispatch) (fun _ => { s.pathIn (pathKey src tcDispatch) with
        reorder := [(psn, payload)], part := [] }) := by
  unfold State.acceptChunk
  dsimp only
  rw [if_pos ⟨rfl, hheld⟩, hreorder, List.filter_nil, List.nil_append]
  dsimp only
  rw [if_pos rfl, hpart, List.length_nil, Nat.zero_div]
  rfl

end

/-! ### Acknowledgement -/

section
variable {s : State} {pkg : Nat}

/-- A path whose acknowledgement goes out. -/
def PathIn.told (x : PathIn) : PathIn := { x with ackFrom := none, nackDue := false, giveBack := 0 }

/-- The acknowledgements of classes of a package. -/
theorem State.foldl_told (l : List Nat) (tc : Nat) :
    (l.foldl (fun t tc => t.onIn (pathKey pkg tc) PathIn.told) s).pathIn (pathKey pkg tc) =
      if tc ∈ l then (s.pathIn (pathKey pkg tc)).told else s.pathIn (pathKey pkg tc) := by
  induction l generalizing s with
  | nil => rfl
  | cons a r ih =>
    have hkey : pathKey pkg a = pathKey pkg tc ↔ a = tc := by rw [pathKey, pathKey]; omega
    rw [List.foldl_cons, ih, State.pathIn_onIn]
    by_cases ha : a = tc
    · subst ha
      rw [if_pos rfl]
      split <;> simp [PathIn.told]
    · rw [if_neg fun h => ha (hkey.mp h)]
      have hmem : tc ∈ a :: r ↔ tc ∈ r := by rw [List.mem_cons]; exact or_iff_right (Ne.symm ha)
      simp only [hmem]

/-- An entry of the path is due. -/
def State.ackDue (s : State) (pkg tc : Nat) : Bool :=
  (s.pathIn (pathKey pkg tc)).ackFrom.isSome || (s.pathIn (pathKey pkg tc)).nackDue

theorem ackSend_idle (hnone : ∀ tc < 5, s.ackDue pkg tc = false) : ackSend pkg s = s := by
  have hdue : (List.range 5).filter (s.ackDue pkg) = [] :=
    List.filter_eq_nil_iff.mpr fun tc htc => by simp [hnone tc (List.mem_range.mp htc)]
  exact if_pos (.inr (.inl (by
    change ((List.range 5).filter (s.ackDue pkg)).isEmpty = true
    rw [hdue]
    rfl)))

/-- R284: an acknowledgement leaves nothing due. -/
theorem ackSend_sends (hb : s.booted = true) (hthere : pkg ∉ s.fab.departed) (hdue : ∃ tc < 5, s.ackDue pkg tc = true)
    (hroute : (s.routePath (pathKey pkg tcControl)).1 ≠ none) :
    (ackSend pkg s).mem = s.mem ∧ (ackSend pkg s).ctxs = s.ctxs ∧
    ∀ tc < 5, ((ackSend pkg s).pathIn (pathKey pkg tc)).ackFrom = none ∧ ((ackSend pkg s).pathIn (pathKey pkg tc)).nackDue = false ∧
      ((ackSend pkg s).pathIn (pathKey pkg tc)).expected = (s.pathIn (pathKey pkg tc)).expected := by
  obtain ⟨tc₀, htc₀, hdue₀⟩ := hdue
  have hsome : (List.range 5).filter (s.ackDue pkg) ≠ [] :=
    List.ne_nil_of_mem (List.mem_filter.mpr ⟨List.mem_range.mpr htc₀, hdue₀⟩)
  have hmem (tc : Nat) (htc : tc < 5) : tc ∈ (List.range 5).filter (s.ackDue pkg) ↔ s.ackDue pkg tc = true := by
    rw [List.mem_filter, List.mem_range, and_iff_right htc]
  have hgo : ¬ ((!s.booted) = true ∨ ((List.range 5).filter (s.ackDue pkg)).isEmpty = true ∨ s.fab.departed.contains pkg = true) := by
    simp [hb, hthere, hsome]
  obtain ⟨⟨q, via⟩, hr⟩ := Option.ne_none_iff_exists'.mp hroute
  let t := ((List.range 5).filter (s.ackDue pkg)).foldl (fun t tc => t.onIn (pathKey pkg tc) PathIn.told)
    (s.routePath (pathKey pkg tcControl)).2
  have hrun : ∃ c, ackSend pkg s = t.queueChunk q tcControl c := by
    unfold ackSend
    dsimp only
    rw [if_neg (by exact hgo), hr]
    exact ⟨_, rfl⟩
  obtain ⟨c, hrun⟩ := hrun
  have hroutes := s.routed_routePath (pathKey pkg tcControl)
  have hrest : t.mem = (s.routePath (pathKey pkg tcControl)).2.mem ∧ t.ctxs = (s.routePath (pathKey pkg tcControl)).2.ctxs :=
    List.foldlRecOn (motive := fun u : State => u.mem = (s.routePath (pathKey pkg tcControl)).2.mem ∧
      u.ctxs = (s.routePath (pathKey pkg tcControl)).2.ctxs) _ _ ⟨rfl, rfl⟩ fun _ hu _ _ => hu
  rw [hrun]
  refine ⟨hrest.1.trans hroutes.mem, hrest.2.trans hroutes.ctxs, fun tc htc => ?_⟩
  have hpath : (t.queueChunk q tcControl c).pathIn (pathKey pkg tc) =
      if tc ∈ (List.range 5).filter (s.ackDue pkg) then (s.pathIn (pathKey pkg tc)).told else s.pathIn (pathKey pkg tc) := by
    rw [← hroutes.pathIn]
    exact State.foldl_told _ tc
  rw [hpath]
  by_cases hd : s.ackDue pkg tc = true
  · rw [if_pos ((hmem tc htc).mpr hd)]
    exact ⟨rfl, rfl, rfl⟩
  · rw [if_neg fun h => hd ((hmem tc htc).mp h)]
    simp only [State.ackDue, Bool.or_eq_true, not_or, Bool.not_eq_true, Option.isSome_eq_false_iff, Option.isNone_iff_eq_none] at hd
    exact ⟨hd.1, hd.2, rfl⟩

/-! ### Acknowledgements received -/

theorem State.settleDying_of_none (h : ∀ c, ∀ l ∈ (s.ctx c).lanes.launches, l.dying = none) : s.settleDying = s := by
  refine List.foldlRecOn (motive := fun t : State => t = s) _ _ rfl fun t ht c _ => ?_
  have hnone : (t.ctx c).lanes.launches.filter (fun l => l.dying.isSome && l.strs.all t.storesDone) = [] :=
    List.filter_eq_nil_iff.mpr fun l hl => by simp [h c l (ht ▸ hl)]
  rw [hnone]
  exact ht

theorem State.checkColls_of_none (h : ∀ c, (s.ctx c).colls = []) : s.checkColls = s := by
  refine List.foldlRecOn (motive := fun t : State => t = s) _ _ rfl fun t ht c _ => ?_
  rw [ht, h c]
  rfl

/-- A path after an acknowledgement entry. -/
def State.afterEntry (s : State) (k e : Nat) (p : PathOut) : PathOut :=
  let gone := (s.pathOut k).unacked.filter (fun c => psnBelow c.psn (bits e 8 24))
  { p with
    unacked := (s.pathOut k).unacked.filter (fun c => !psnBelow c.psn (bits e 8 24)), credits := p.credits + bits e 32 16
    ackedEnd := (gone.getLast?.map (·.endOff)).getD p.ackedEnd
    timeouts := if gone.isEmpty then p.timeouts else 0
    lastProgress := if gone.isEmpty then p.lastProgress else s.now }

/-- R284: an entry without a NACK. -/
theorem State.takeEntry_acks {src e : Nat} (hnack : e.testBit 3 = false) :
    (s.takeEntry src e).mem = s.mem ∧ (s.takeEntry src e).ctxs = s.ctxs ∧ (s.takeEntry src e).fab.entries = s.fab.entries ∧
    ((s.takeEntry src e).pathOut (pathKey src (bits e 0 3))).unacked =
      (s.pathOut (pathKey src (bits e 0 3))).unacked.filter (fun c => !psnBelow c.psn (bits e 8 24)) ∧
    ((s.takeEntry src e).pathOut (pathKey src (bits e 0 3))).credits =
      (s.pathOut (pathKey src (bits e 0 3))).credits + bits e 32 16 := by
  unfold State.takeEntry
  dsimp only
  rw [bit, hnack, if_neg Bool.false_ne_true]
  have hpath := State.pathOut_onOut_same (s := s) (pathKey src (bits e 0 3)) (s.afterEntry (pathKey src (bits e 0 3)) e)
  have hunacked := congrArg PathOut.unacked hpath
  have hcredits := congrArg PathOut.credits hpath
  exact ⟨rfl, rfl, rfl, hunacked, hcredits⟩

theorem ackReceive_takes {src e : Nat} {r : List (Nat × Nat)} (hentries : s.fab.entries = (src, e) :: r) (hnack : e.testBit 3 = false)
    (hcolls : ∀ c, (s.ctx c).colls = []) (hdying : ∀ c, ∀ l ∈ (s.ctx c).lanes.launches, l.dying = none) :
    ackReceive s = State.takeEntry { s with fab := { s.fab with entries := r } } src e := by
  obtain ⟨-, hctxs, -⟩ := State.takeEntry_acks (s := { s with fab := { s.fab with entries := r } }) (src := src) hnack
  have hctx (c : Nat) : (State.takeEntry { s with fab := { s.fab with entries := r } } src e).ctx c = s.ctx c :=
    congrArg (·.getD c Ctx.fresh) hctxs
  rw [ackReceive, hentries]
  dsimp only
  rw [State.settleDying_of_none fun c => (hctx c).symm ▸ hdying c, State.checkColls_of_none fun c => (hctx c).symm ▸ hcolls c]

/-! ### Resends -/

/-- A path after a silence. -/
def PathOut.retried (now : Nat) (p : PathOut) : PathOut := { p with timeouts := p.timeouts + 1, lastProgress := now }

/-- R284, R286: 8 µs without progress. -/
theorem resendTimeout_resends {tc : Nat} (hb : s.booted = true) (htc : tc < 5) (hsome : (s.pathOut (pathKey pkg tc)).unacked ≠ [])
    (hthere : pkg ∉ s.fab.departed) (hlate : (s.pathOut (pathKey pkg tc)).lastProgress + 8000 < s.now) :
    (resendTimeout pkg tc s).mem = s.mem ∧ (resendTimeout pkg tc s).ctxs = s.ctxs ∧
    ((resendTimeout pkg tc s).pathOut (pathKey pkg tc)).cargo =
      PathOut.cargo { s.pathOut (pathKey pkg tc) with lastProgress := s.now } := by
  have hresent (u : State) (hu : (s.onOut (pathKey pkg tc) (fun p => { p with timeouts := p.timeouts + 1, lastProgress := s.now })).Routed u) :
      let t := u.resendAll (pathKey pkg tc) (s.pathOut (pathKey pkg tc)).unacked
      t.mem = s.mem ∧ t.ctxs = s.ctxs ∧ (t.pathOut (pathKey pkg tc)).cargo =
        PathOut.cargo { s.pathOut (pathKey pkg tc) with lastProgress := s.now } := by
    have h := hu.trans (u.routed_resendAll (pathKey pkg tc) (s.pathOut (pathKey pkg tc)).unacked)
    have hcargo := congrArg PathOut.cargo (State.pathOut_onOut_same (s := s) (pathKey pkg tc) (PathOut.retried s.now))
    exact ⟨h.mem, h.ctxs, (h.cargo _).trans hcargo⟩
  unfold resendTimeout
  dsimp only
  rw [if_neg (by simp [hb, hsome, hthere]; omega)]
  split
  · exact hresent _ (State.routed_moveDetour ..)
  · exact hresent _ (.refl _)

end

/-- Settles O54. -/
theorem waborTransport : Obligations.WaborTransport := by
  unfold Obligations.WaborTransport
  refine ⟨fun pkg tc s => ?_, fun p src tc type ctx part body rest s => ?_, fun p src tc psn payload rest s => ?_,
    fun p tc s hshort => congrArg Host.Outcome.next (if_pos (.inr (.inr (.inr hshort)))), fun pkg s => ?_,
    fun s hnone => ?_, fun src e r s => ?_, fun pkg tc s => ?_⟩
  · dsimp only
    rw [← pathKey_eq]
    refine ⟨fun h => ?_, fun hless hearly => ?_, fun hopen hcredit => ?_, fun hb htc hpos hthere hdue hopen hcredit hroute => ?_⟩
    · exact congrArg Host.Outcome.next (chunkClose_waits (.inl h))
    · exact congrArg Host.Outcome.next (chunkClose_waits (.inr (.inl ⟨hless, hearly⟩)))
    · exact congrArg Host.Outcome.next (chunkClose_waits (.inr (.inr ⟨hopen, hcredit⟩)))
    · obtain ⟨hmem, hctxs, hcargo⟩ := chunkClose_closes hb htc hpos hthere hdue hopen hcredit hroute
      have hunacked := congrArg PathOut.unacked hcargo
      have hstream := congrArg PathOut.stream hcargo
      have hpsn := congrArg PathOut.nextPsn hcargo
      have hcredits := congrArg PathOut.credits hcargo
      obtain ⟨htaken, hleft⟩ := cutStream_bytes 4096 (s.pathOut (pathKey pkg tc)).stream
      refine ⟨_, s.closedChunk (pathKey pkg tc), rfl, hmem, hctxs, hunacked, rfl, rfl, htaken, ?_, hpsn, hcredits⟩
      exact (congrArg (fun l : List (Nat × List Byte) => (l.map (·.2)).flatten) hstream).trans hleft
  · intro k payload hp hlen htc hrx hup hpkg hsrc hthere hpl htype hctx hpart hexp hreorder hpart' hbytes
    have hreads := readsChunk (rest := rest) hpkg hsrc htc hexp hpl
    rw [← hbytes] at hreads
    have hrest : ((s.eatBytes p tc (36 + payload.length)).port p).rx.getD tc [] = rest :=
      (State.eatBytes_rx hlen hrx _).trans hreads.leaves
    have hbody : body.length < 2 ^ 32 := by
      have hlength : body.length ≤ payload.length := (Nat.le_add_left ..).trans_eq List.length_append.symm
      omega
    have hk : pathKey src tc = k := pathKey_eq src tc
    rw [← hk] at hreads hreorder hpart' ⊢
    have hrun := chunkReceive_expected hp htc hup hthere hreads
    refine ⟨fun hfree => ?_, fun hdispatch hheld => ?_⟩
    · have hfree' : ¬ (tc = tcDispatch ∧ (s.eatBytes p tc (36 + payload.length)).heldFrom src = true) := by
        rintro ⟨hdispatch, hheld⟩
        obtain ⟨h, hh, hsame⟩ := List.any_eq_true.mp hheld
        exact hfree.elim (fun hne => hne hdispatch) fun hnone => hnone h hh (beq_iff_eq.mp hsame)
      have haccept := State.acceptChunk_message (s := s.eatBytes p tc (36 + payload.length)) (p := p) (src := src) (tc := tc)
        (part := part) rfl htype hctx hbody hreorder hpart' hfree'
      have hin := State.pathIn_onIn_same (s := (s.eatBytes p tc (36 + payload.length)).bump .chunksRx 1) (pathKey src tc)
        (fun _ => (s.pathIn (pathKey src tc)).taken s.now)
      have hexp' := congrArg PathIn.expected hin
      have hdue := congrArg (fun x : PathIn => x.ackFrom.isSome) hin
      exact ⟨_, congrArg Host.Outcome.next (hrun.trans haccept), rfl, rfl, rfl, hrest, hexp', hdue⟩
    · subst hdispatch
      have hheld' : (s.eatBytes p tcDispatch (36 + payload.length)).heldFrom src = true := by
        obtain ⟨h, hh, hsame⟩ := hheld
        exact List.any_eq_true.mpr ⟨h, hh, beq_iff_eq.mpr hsame⟩
      have haccept := State.acceptChunk_held (s := s.eatBytes p tcDispatch (36 + payload.length)) (p := p) (src := src)
        (psn := (s.pathIn (pathKey src tcDispatch)).expected) (payload := payload) hreorder hpart' hheld'
      have hin := State.pathIn_onIn_same (s := (s.eatBytes p tcDispatch (36 + payload.length)).bump .chunksRx 1)
        (pathKey src tcDispatch) (fun _ => { s.pathIn (pathKey src tcDispatch) with
          reorder := [((s.pathIn (pathKey src tcDispatch)).expected, payload)], part := [] })
      have hexp' := congrArg PathIn.expected hin
      have hkept := congrArg PathIn.reorder hin
      have hdue := congrArg PathIn.ackFrom hin
      exact ⟨_, congrArg Host.Outcome.next (hrun.trans haccept), rfl, rfl, rfl, hrest, hexp', hkept, hdue⟩
  · intro k hp hlen htc hrx hup hpkg hsrc hthere hpl hpsn hold hbytes
    have hreads := readsChunk (rest := rest) hpkg hsrc htc hpsn hpl
    rw [← hbytes] at hreads
    have hrest : ((s.eatBytes p tc (36 + payload.length)).port p).rx.getD tc [] = rest :=
      (State.eatBytes_rx hlen hrx _).trans hreads.leaves
    have hk : pathKey src tc = k := pathKey_eq src tc
    rw [← hk] at hold ⊢
    have hin := State.pathIn_onIn_same (s := (s.eatBytes p tc (36 + payload.length)).bump .dupChunks 1) (pathKey src tc)
      (PathIn.dueFrom s.now)
    have hexp := congrArg PathIn.expected hin
    have hdue := congrArg (fun x : PathIn => x.ackFrom.isSome) hin
    exact ⟨_, congrArg Host.Outcome.next (chunkReceive_old hp htc hup hthere hreads hold), rfl, hrest, hexp, hdue⟩
  · dsimp only
    simp only [← pathKey_eq]
    exact ⟨fun hnone => congrArg Host.Outcome.next (ackSend_idle hnone), fun hb hthere hdue hroute =>
      ⟨_, rfl, ackSend_sends hb hthere hdue hroute⟩⟩
  · refine congrArg Host.Outcome.next ?_
    rw [ackReceive, hnone]
  · intro k hentries hnack hcolls hdying
    obtain ⟨hmem, hctxs, hent, hunacked, hcredits⟩ :=
      State.takeEntry_acks (s := { s with fab := { s.fab with entries := r } }) (src := src) hnack
    rw [pathKey_eq] at hunacked hcredits
    exact ⟨_, congrArg Host.Outcome.next (ackReceive_takes hentries hnack hcolls hdying), hmem, hctxs, hent, hunacked, hcredits⟩
  · dsimp only
    rw [← pathKey_eq]
    refine ⟨fun h => ?_, fun hb htc hsome hthere hlate => ?_, fun hdetour hup => ?_, fun hnone => ?_⟩
    · refine congrArg Host.Outcome.next (if_pos (.inr (.inr ?_)))
      rcases h with h | h
      · exact .inl (by rw [h]; rfl)
      · exact .inr (.inr h)
    · obtain ⟨hmem, hctxs, hcargo⟩ := resendTimeout_resends hb htc hsome hthere hlate
      have hunacked := congrArg PathOut.unacked hcargo
      have hcredits := congrArg PathOut.credits hcargo
      have hprogress := congrArg PathOut.lastProgress hcargo
      exact ⟨_, rfl, hmem, hctxs, hunacked, hcredits, hprogress⟩
    · obtain ⟨i, hi, hiup, hpeer, hmoved, hlong⟩ := hup
      refine congrArg Host.Outcome.next (if_pos ⟨hdetour, List.any_eq_true.mpr ⟨i, List.mem_range.mpr hi, ?_⟩⟩)
      simp [hiup, hpeer, hmoved, hlong]
    · refine congrArg Host.Outcome.next (if_neg fun ⟨_, hany⟩ => ?_)
      obtain ⟨i, hi, hup⟩ := List.any_eq_true.mp hany
      simp only [Bool.and_eq_true, beq_iff_eq, decide_eq_true_eq] at hup
      obtain ⟨⟨hup, hpeer⟩, -, hlong⟩ := hup
      have hshort := hnone i (List.mem_range.mp hi) hup hpeer
      omega

end Machine
end Sys2Proof
end

section
/-! PROOFS. What the machine's work keeps: what it said and raised before, who owns which share, the partitions' settings,
  who is present,
the lots lent and the boot (13 R288, 15 R317, R322, R331).  Each rule says so of one function, from its branches. -/

namespace Sys2Proof
namespace Machine

/-- What work leaves of a context. -/
def Ctx.standing (x : Ctx) : CtxSt × Share × Nat × Nat := (x.st, x.share, x.tornAt, x.returnUs)

/-- What work leaves of a partition. -/
def Part.standing (r : Part) : Part := { r with gates := [], ctr := [] }

/-- What work leaves of the fabric. -/
def Fabric.standing (f : Fabric) : Fabric := { f with ports := [], outs := [], noNote := [], heldRx := [] }

/-- What work leaves of the whole. -/
def State.standing (s : State) : List (CtxSt × Share × Nat × Nat) × List Part × Fabric × Lending × Boot :=
  (s.ctxs.map Ctx.standing, s.parts.map Part.standing, s.fab.standing, s.lend, s.boot)

/-- One state comes from another by work. -/
structure State.Works (u s : State) : Prop where
  out      : u.out ⊆ s.out
  arriving : u.flt.arriving ⊆ s.flt.arriving
  standing : s.standing = u.standing

theorem State.Works.refl (s : State) : s.Works s := ⟨List.Subset.refl _, List.Subset.refl _, rfl⟩

section
variable {u s : State}

/-! ### Primitive changes -/

theorem works_foldl {α : Type} {f : State → α → State} (hs : u.Works s) (l : List α) (hf : ∀ t a, u.Works t → u.Works (f t a)) :
    u.Works (l.foldl f s) :=
  List.foldlRecOn (motive := fun t : State => u.Works t) _ _ hs fun t ht a _ => hf t a ht

theorem State.onCtx_works (hs : u.Works s) (c : Nat) {f : Ctx → Ctx} (hf : ∀ x, (f x).standing = x.standing) :
    u.Works (s.onCtx c f) :=
  ⟨hs.out, hs.arriving, Eq.trans (by rw [State.standing, State.onCtx, updAt_map_of_eq _ _ hf]; rfl) hs.standing⟩

theorem State.onPart_works (hs : u.Works s) (p : Nat) {f : Part → Part} (hf : ∀ r, (f r).standing = r.standing) :
    u.Works (s.onPart p f) :=
  ⟨hs.out, hs.arriving, Eq.trans (by rw [State.standing, State.onPart, updAt_map_of_eq _ _ hf]; rfl) hs.standing⟩

theorem State.raise_works (hs : u.Works s) (source kind cls ctx dtype detail : Nat) :
    u.Works (s.raise source kind cls ctx dtype detail) :=
  ⟨hs.out, List.Subset.trans hs.arriving (List.subset_append_left ..), hs.standing⟩

theorem State.emit_works (hs : u.Works s) (o : Out) : u.Works (s.emit o) :=
  ⟨List.Subset.trans hs.out (List.subset_append_left ..), hs.arriving, hs.standing⟩

theorem works_ite {p : Prop} [Decidable p] {t : State} (hs : u.Works s) (ht : u.Works t) : u.Works (if p then s else t) := by
  split
  exacts [hs, ht]

/-! ### Contexts -/

theorem Ctx.standing_foldl {α : Type} {f : Ctx → α → Ctx} (hf : ∀ x a, (f x a).standing = x.standing) (l : List α) (x : Ctx) :
    (l.foldl f x).standing = x.standing :=
  List.foldlRecOn (motive := fun y : Ctx => y.standing = x.standing) _ _ rfl fun y hy a _ => (hf y a).trans hy

theorem Ctx.dropGranules_standing (x : Ctx) (l : List Nat) : (x.dropGranules l).standing = x.standing := by
  refine Eq.trans ?_ (Ctx.standing_foldl (f := fun y a => y.giveBack (t2Pool a) [a]) (fun _ _ => rfl) l x)
  rfl

theorem Ctx.takeGranules_standing (engine : Nat) (x : Ctx) (l : List Nat) : (x.takeGranules engine l).standing = x.standing := by
  refine Eq.trans ?_ (Ctx.standing_foldl (f := fun y a => y.take (t2Pool a) engine [a] 4) (fun _ _ => rfl) l x)
  rfl

theorem Ctx.unref_standing (x : Ctx) (n : Nat) : (x.unref n).standing = x.standing := by
  unfold Ctx.unref
  dsimp only
  split
  · split
    · rfl
    · split <;> rfl
  · rfl

theorem State.Works.withMem (hs : u.Works s) (m : List Host.Cell) : u.Works { s with mem := m } :=
    ⟨hs.out, hs.arriving, hs.standing⟩
theorem State.freed_works (hs : u.Works s) : u.Works (s.freed) :=
  ⟨hs.out, hs.arriving, hs.standing⟩

theorem State.bump_works (hs : u.Works s) (c : Ctr) (n : Nat) : u.Works (s.bump c n) :=
  ⟨hs.out, hs.arriving, hs.standing⟩

theorem State.bumpFlt_works (hs : u.Works s) (c : Ctr) (n : Nat) : u.Works (s.bumpFlt c n) :=
  ⟨hs.out, hs.arriving, hs.standing⟩

theorem State.bumpTb_works (hs : u.Works s) (c : Ctr) (n : Nat) : u.Works (s.bumpTb c n) :=
  ⟨hs.out, hs.arriving, hs.standing⟩

theorem State.bumpFw_works (hs : u.Works s) (p : Nat) (c : Ctr) (n : Nat) : u.Works (s.bumpFw p c n) :=
  ⟨hs.out, hs.arriving, hs.standing⟩

theorem State.bumpPart_works (hs : u.Works s) (p : Nat) (c : Ctr) (n : Nat) : u.Works (s.bumpPart p c n) :=
  State.onPart_works hs p fun _ => by rfl

theorem State.bumpCtx_works (hs : u.Works s) (c : Nat) (k : Ctr) (n : Nat) : u.Works (s.bumpCtx c k n) :=
  State.onCtx_works hs c fun _ => by rfl

theorem State.onWin_works (hs : u.Works s) (w : Nat) (f : Win → Win) : u.Works (s.onWin w f) :=
  ⟨hs.out, hs.arriving, hs.standing⟩

theorem State.writeAt_works (hs : u.Works s) (a : Nat) (bs : List Byte) : u.Works (s.writeAt a bs) :=
  ⟨hs.out, hs.arriving, hs.standing⟩

theorem State.onGate_works (hs : u.Works s) (p g : Nat) (f : Gate → Gate) : u.Works (s.onGate p g f) := by
  unfold State.onGate
  apply_rules [hs, State.onPart_works]

theorem State.toll_works (hs : u.Works s) (p g n : Nat) : u.Works (s.toll p g n) := by
  unfold State.toll
  apply_rules [hs, State.onGate_works]

theorem State.charge_works (hs : u.Works s) (c a n : Nat) : u.Works (s.charge c a n) := by
  unfold State.charge
  split <;> apply_rules [hs, State.toll_works]

theorem State.takePoison_works (hs : u.Works s) (a n : Nat) : u.Works ((s.takePoison a n).2) :=
  ⟨hs.out, hs.arriving, hs.standing⟩

theorem State.raiseRated_works (hs : u.Works s) (source kind ctx dtype detail : Nat) :
    u.Works (s.raiseRated source kind ctx dtype detail) := by
  have hraised := State.raise_works hs source kind 0 ctx dtype detail
  unfold State.raiseRated
  split
  · exact works_ite hs ⟨hraised.out, hraised.arriving, hraised.standing⟩
  · exact ⟨hraised.out, hraised.arriving, hraised.standing⟩

theorem State.irq_works (hs : u.Works s) (w : Nat) : u.Works (s.irq w) := by
  unfold State.irq
  split <;> apply_rules [hs, State.emit_works]

theorem State.complete_works (hs : u.Works s) (m : Msg) (handler : Nat) (st : Status) (body : List Byte) :
    u.Works (s.complete m handler st body) := by
  have hgone : u.Works { s with host := { s.host with msgs := eraseFirst (fun x => decide (x = m)) s.host.msgs } } :=
    ⟨hs.out, hs.arriving, hs.standing⟩
  unfold State.complete
  dsimp only
  apply_rules [works_ite, State.bumpFw_works, State.irq_works, State.emit_works, State.onWin_works]

theorem State.setPhase_works (hs : u.Works s) (m : Msg) (p : Phase) : u.Works (s.setPhase m p) :=
  ⟨hs.out, hs.arriving, hs.standing⟩

theorem State.route_works (hs : u.Works s) (m : Msg) : u.Works (s.route m) := by
  unfold State.route
  (repeat' split) <;> apply_rules [hs, State.complete_works, State.setPhase_works]

theorem State.khanFail_works (hs : u.Works s) (c : Nat) (f : KhanFail) : u.Works (s.khanFail c f) := by
  unfold State.khanFail
  split <;> apply_rules [hs, State.bumpCtx_works]

theorem State.khanAlloc_works (hs : u.Works s) (c tier die engine n : Nat) : u.Works ((s.khanAlloc c tier die engine n).2) := by
  unfold State.khanAlloc
  dsimp only
  split <;> apply_rules [hs, State.freed_works, State.bumpCtx_works, State.onCtx_works, State.khanFail_works]

theorem State.khanFree_works (hs : u.Works s) (h : Nat) : u.Works (s.khanFree h) :=
  State.bumpCtx_works (State.onCtx_works hs _ fun _ => by rfl) ..

theorem State.khanDrop_works (hs : u.Works s) (h : Nat) : u.Works (s.khanDrop h) := by
  unfold State.khanDrop
  split <;> apply_rules [hs, State.khanFree_works]

theorem State.onWs_works (hs : u.Works s) (w : Nat) (f : Ws → Ws) : u.Works (s.onWs w f) :=
  ⟨hs.out, hs.arriving, hs.standing⟩

theorem State.wsPush_works (hs : u.Works s) (w : Nat) (vs : List Nat) : u.Works (s.wsPush w vs) := by
  unfold State.wsPush
  apply_rules [hs, State.bumpCtx_works, State.onWs_works, works_foldl]

theorem State.onPost_works (hs : u.Works s) (t : Nat) (f : Post → Post) : u.Works (s.onPost t f) :=
  ⟨hs.out, hs.arriving, hs.standing⟩

theorem State.onStr_works (hs : u.Works s) (c h i : Nat) (f : Str → Str) : u.Works (s.onStr c h i f) := by
  unfold State.onStr
  apply_rules [hs, State.onCtx_works]

theorem State.postWake_works (hs : u.Works s) (t v : Nat) : u.Works (s.postWake t v) :=
  works_foldl (State.onPost_works hs ..) _ fun _ _ ht => State.onStr_works ht ..

theorem State.arrive_works (hs : u.Works s) (t pkg v : Nat) (phase : Option Nat) : u.Works (s.arrive t pkg v phase).1 := by
  unfold State.arrive
  dsimp only
  split_ifs <;> apply_rules [State.bumpCtx_works, State.onPost_works, State.postWake_works, State.onWs_works]

theorem State.onOut_works (hs : u.Works s) (k : Nat) (f : PathOut → PathOut) : u.Works (s.onOut k f) :=
  ⟨hs.out, hs.arriving, hs.standing⟩

theorem State.sendMsg_works (hs : u.Works s) (dst type ctx : Nat) (fields : List Nat) (body : List Byte) :
    u.Works (s.sendMsg dst type ctx fields body) := by
  unfold State.sendMsg
  split <;> apply_rules [hs, State.emit_works, State.onOut_works]

theorem State.sendOpen_works (hs : u.Works s) (dst type ctx : Nat) (fields : List Nat) (data : List Byte) :
    u.Works (s.sendOpen dst type ctx fields data) := by
  unfold State.sendOpen
  apply_rules [hs, State.sendMsg_works]

theorem State.sendGuide_works (hs : u.Works s) (ctx : Nat) (fields l : List Nat) : u.Works (s.sendGuide ctx fields l) :=
  works_foldl hs _ fun _ _ ht => State.sendOpen_works ht ..

theorem State.ownStrings_works (hs : u.Works s) (c : Nat) (mma sfn : Bool) : u.Works (s.ownStrings c mma sfn) := by
  unfold State.ownStrings
  apply_rules [hs, State.freed_works, State.bumpCtx_works]

theorem State.ownKilled_works (hs : u.Works s) (c : Nat) : u.Works (s.ownKilled c) := by
  unfold State.ownKilled
  apply_rules [hs, State.freed_works, State.bumpCtx_works]

theorem State.onSeq_works (hs : u.Works s) (q : Nat) (f : Seq → Seq) : u.Works (s.onSeq q f) :=
  ⟨hs.out, hs.arriving, hs.standing⟩

theorem State.mergeChange_works (hs : u.Works s) (c : Nat) (m : Msg) : u.Works (s.mergeChange c m) := by
  unfold State.mergeChange
  dsimp only
  (repeat' split) <;> apply_rules [hs, State.onCtx_works, State.route_works]

theorem State.fitCopies_works (hs : u.Works s) (c n : Nat) : u.Works (s.fitCopies c n).2 := by
  have hdrop : u.Works ((s.ctx c).copyH.foldl State.khanDrop s) := works_foldl hs _ fun t h ht => State.khanDrop_works ht h
  have hfirst := State.khanAlloc_works hdrop c 1 0 0x7 n
  unfold State.fitCopies
  split
  · exact hs
  · split
    · exact State.onCtx_works hs c fun _ => by rfl
    · next h t ht =>
      rw [ht] at hfirst
      have hsecond := State.khanAlloc_works hfirst c 1 0 0x7 n
      split
      · exact State.onCtx_works hs c fun _ => by rfl
      · next g v hv =>
        rw [hv] at hsecond
        exact State.onCtx_works hsecond c fun _ => by rfl

theorem State.growCopies_works (hs : u.Works s) (c : Nat) : u.Works (s.growCopies c) := by
  unfold State.growCopies
  apply_rules [hs, State.fitCopies_works]

theorem State.flip_works (hs : u.Works s) (c t : Nat) : u.Works (s.flip c t) := by
  unfold State.flip
  dsimp only
  refine works_ite hs (works_foldl (works_ite (State.bumpCtx_works ?_ ..) ?_) _ fun v m hv => State.complete_works hv ..)
  · refine State.bumpCtx_works (State.onCtx_works hs c fun x => ?_) ..
    split_ifs <;> split <;> rfl
  · refine State.bumpCtx_works (State.onCtx_works hs c fun x => ?_) ..
    split_ifs <;> split <;> rfl

theorem State.takeChange_works (hs : u.Works s) (c : Nat) (m : Msg) : u.Works (s.takeChange c m) := by
  unfold State.takeChange
  apply_rules [hs, State.setPhase_works, State.mergeChange_works]

theorem State.freeDeferred_works (hs : u.Works s) (c : Nat) : u.Works (s.freeDeferred c) :=
  works_foldl (State.onCtx_works hs c fun _ => by rfl) _ fun _ _ ht => State.khanDrop_works ht _

theorem State.releaseOld_works (hs : u.Works s) (c t : Nat) : u.Works (s.releaseOld c t) := by
  have hmerge (y : Ctx) : (y.guideWait.foldl Ctx.mergeGuide y).standing = y.standing := Ctx.standing_foldl (fun _ _ => by rfl) _ y
  have hlate {v : State} (hv : u.Works v) (late : Msg → Bool) (l : List Msg) : u.Works (l.foldl (fun v m =>
      if late m then v.complete m (owner m.op) .busy [] else v.takeChange c m) v) :=
    works_foldl hv _ fun v m hv => works_ite (State.complete_works hv ..) (State.takeChange_works hv ..)
  unfold State.releaseOld
  dsimp only
  split
  · exact hs
  · split
    · refine State.growCopies_works (State.onCtx_works ?_ c fun y => by exact hmerge y) c
      exact hlate (State.freeDeferred_works (State.onCtx_works hs c fun _ => by rfl) c) _ _
    · exact hlate (State.freeDeferred_works (State.onCtx_works hs c fun _ => by split <;> rfl) c) _ _

theorem State.flipIdle_works (hs : u.Works s) (c t : Nat) : u.Works (s.flipIdle c t) := by
  unfold State.flipIdle
  split <;> apply_rules [hs, State.flip_works]

theorem State.guideChange_works (hs : u.Works s) (c : Nat) (g : GuideChange) : u.Works (s.guideChange c g) := by
  have hold := State.releaseOld_works hs c 0
  have hmerged := State.onCtx_works hold c (f := fun x => x.mergeGuide g) fun _ => by rfl
  exact works_ite (State.bumpCtx_works (State.onCtx_works hold c fun _ => by rfl) ..)
    (State.flipIdle_works (works_ite (State.growCopies_works hmerged c) hmerged) ..)

theorem State.onLayer_works (hs : u.Works s) (c k : Nat) (f : Layer → Layer) : u.Works (s.onLayer c k f) := by
  unfold State.onLayer
  apply_rules [hs, State.onCtx_works]

theorem State.onMan_works (hs : u.Works s) (c : Nat) (f : Manifest → Manifest) : u.Works (s.onMan c f) := by
  unfold State.onMan
  apply_rules [hs, State.onCtx_works]

theorem State.setSlotGen_works (hs : u.Works s) (c slot g : Nat) : u.Works (s.setSlotGen c slot g) := by
  unfold State.setSlotGen
  apply_rules [hs, State.onCtx_works]

theorem State.onResid_works (hs : u.Works s) (c : Nat) (f : Resid → Resid) : u.Works (s.onResid c f) := by
  unfold State.onResid
  apply_rules [hs, State.onCtx_works]

theorem State.fetchRequest_works (hs : u.Works s) (c l e i prio die : Nat) : u.Works (s.fetchRequest c l e i prio die) := by
  unfold State.fetchRequest
  dsimp only
  (repeat' split) <;> apply_rules [hs, State.bumpCtx_works, State.onResid_works]

theorem State.onRx_works (hs : u.Works s) (c : Nat) (f : Rx → Rx) : u.Works (s.onRx c f) := by
  unfold State.onRx
  apply_rules [hs, State.onCtx_works]

theorem State.handBatch_works (hs : u.Works s) (c : Nat) (b : Batch) (d : Nat) : u.Works (s.handBatch c b d) := by
  unfold State.handBatch
  refine State.onResid_works (State.bumpCtx_works (State.bumpCtx_works (works_foldl (works_foldl hs _ ?rows) _ ?pads) ..) ..) ..
  case rows => exact fun t x ht => State.emit_works ht _
  case pads => exact fun t p ht => works_foldl ht _ fun v _ hv => State.emit_works hv _

theorem handAll_works (c : Nat) (l : List Batch) {s : State} (hs : u.Works s) : u.Works (handAll c l s) := by
  induction l generalizing s with
  | nil => exact hs
  | cons b rest ih =>
    rw [handAll]
    split
    · exact works_ite (ih (State.onRx_works (State.handBatch_works hs ..) ..)) (ih hs)
    · exact ih hs

theorem State.settleRow_works (hs : u.Works s) (c l e i : Nat) : u.Works (s.settleRow c l e i) := by
  unfold State.settleRow
  split <;> apply_rules [hs, State.onRx_works, handAll_works]

theorem State.noteNow_works (hs : u.Works s) (src header : Nat) (entries : List Nat) : u.Works (s.noteNow src header entries) := by
  unfold State.noteNow
  dsimp only
  refine works_ite (State.bumpCtx_works (by exact ⟨hs.out, hs.arriving, hs.standing⟩) ..) ?_
  refine works_ite ⟨hs.out, hs.arriving,
    hs.standing⟩ (State.onRx_works (works_foldl (State.onRx_works ?_ ..) _ fun t e ht => ?_) ..)
  · exact ⟨hs.out, hs.arriving, hs.standing⟩
  · refine works_ite ht ?_
    split
    · exact State.fetchRequest_works ht ..
    · exact ht

theorem State.sendRefusal_works (hs : u.Works s) (bill code : Nat) : u.Works (s.sendRefusal bill code) := by
  unfold State.sendRefusal
  apply_rules [hs, State.sendMsg_works]

theorem State.acceptRow_works (hs : u.Works s) (src bill : Nat) (data : List Byte) : u.Works (s.acceptRow src bill data) := by
  unfold State.acceptRow
  dsimp only
  apply_rules [works_ite, State.settleRow_works, State.fetchRequest_works, State.bumpCtx_works, State.onRx_works]

theorem State.rowGone_works (hs : u.Works s) (c : Nat) (n : RxNote) (e i : Nat) : u.Works (s.rowGone c n e i) := by
  unfold State.rowGone
  apply_rules [hs, State.onRx_works, State.settleRow_works]

theorem State.rowNow_works {t : State} {src bill : Nat} {data : List Byte} (hs : u.Works s) (h : s.rowNow src bill data = some t) :
    u.Works t := by
  unfold State.rowNow at h
  dsimp only at h
  split at h
  · cases h
    exact hs
  split at h
  · split at h <;> cases h
    · exact State.rowGone_works (State.raiseRated_works (State.bumpCtx_works hs ..) ..) ..
    · exact State.raiseRated_works (State.bumpCtx_works hs ..) ..
  split at h
  · cases h
    exact State.raise_works (State.bumpCtx_works hs ..) ..
  split at h
  · cases h
    exact State.bumpCtx_works hs ..
  split at h
  · cases h
    exact State.onRx_works (State.bumpCtx_works hs ..) ..
  split at h
  · split at h <;> cases h
    · exact State.rowGone_works (State.sendRefusal_works (State.bumpCtx_works hs ..) ..) ..
    · exact State.sendRefusal_works (State.bumpCtx_works hs ..) ..
  · split at h <;> cases h
    exact State.acceptRow_works hs ..

theorem State.discardRows_works (hs : u.Works s) (c : Nat) (p : RxRow → Bool) (k : Option Ctr) : u.Works (s.discardRows c p k) := by
  unfold State.discardRows
  split <;> apply_rules [hs, State.bumpCtx_works, State.onRx_works]

theorem State.settleNote_works (hs : u.Works s) (c : Nat) (n : RxNote) : u.Works (s.settleNote c n) :=
  works_foldl hs _ fun _ _ ht => State.settleRow_works ht ..

theorem State.retireNow_works (hs : u.Works s) (src c epoch : Nat) : u.Works (s.retireNow src c epoch) :=
  works_ite hs (works_foldl (State.onRx_works (State.discardRows_works hs ..) ..) _ fun _ _ ht => State.settleNote_works ht ..)

theorem State.heldNow_works {t : State} {r : HeldRx} (hs : u.Works s) (h : s.heldNow r = some t) : u.Works t := by
  unfold State.heldNow at h
  split_ifs at h
  · exact State.rowNow_works hs h
  · cases h
    exact State.noteNow_works hs ..
  · cases h
    exact State.retireNow_works hs ..

theorem State.serveOne_works {t : State} {l : List HeldRx} {blocked : List Nat} (hs : u.Works s)
    (h : s.serveOne l blocked = some t) : u.Works t := by
  induction l generalizing blocked with
  | nil => cases h
  | cons r rest ih =>
    rw [State.serveOne] at h
    split at h
    · exact ih h
    · split at h
      · next v hv =>
        cases h
        have hv' := State.heldNow_works hs hv
        exact ⟨hv'.out, hv'.arriving, hv'.standing⟩
      · exact ih h

theorem serveHeld_works (n : Nat) {s : State} (hs : u.Works s) : u.Works (serveHeld n s) := by
  induction n generalizing s with
  | zero => exact hs
  | succ n ih =>
    rw [serveHeld]
    split
    · next h => exact ih (State.serveOne_works hs h)
    · exact hs

theorem State.serveRx_works (hs : u.Works s) : u.Works s.serveRx := serveHeld_works _ hs

theorem State.guideAll_works (hs : u.Works s) (c : Nat) (g : GuideChange) : u.Works (s.guideAll c g) :=
  works_foldl hs _ fun _ _ ht => State.guideChange_works ht ..

theorem State.sendRemoval_works (hs : u.Works s) (o l e i : Nat) : u.Works (s.sendRemoval o l e i) := by
  unfold State.sendRemoval
  apply_rules [hs, State.sendGuide_works]

theorem State.removeHere_works (hs : u.Works s) (c l e i : Nat) : u.Works (s.removeHere c l e i) := by
  unfold State.removeHere
  dsimp only
  split <;> apply_rules [hs, State.onResid_works, State.guideAll_works]

theorem State.retire_works (hs : u.Works s) (o l e i : Nat) : u.Works (s.retire o l e i) := by
  unfold State.retire
  (repeat' split) <;> apply_rules [hs, State.sendOpen_works, State.onResid_works, State.sendRemoval_works, State.removeHere_works]

theorem State.announce_works (hs : u.Works s) (o l e i : Nat) (r : Replica) : u.Works (s.announce o l e i r) := by
  unfold State.announce
  split <;> apply_rules [hs, State.sendOpen_works, State.sendGuide_works]

theorem State.freeFrame_works (hs : u.Works s) (o l e i : Nat) : u.Works (s.freeFrame o l e i) := by
  unfold State.freeFrame
  split
  · exact hs
  · exact State.onCtx_works hs o fun x => Ctx.dropGranules_standing x _

theorem State.refuseRows_works (hs : u.Works s) (c l e i code : Nat) (handed : Bool) : u.Works (s.refuseRows c l e i code handed) :=
  State.serveRx_works (State.bumpCtx_works (works_foldl (State.onRx_works hs ..) _ fun _ _ ht => State.sendRefusal_works ht ..) ..)

theorem State.weightError_works (hs : u.Works s) (c l e : Nat) : u.Works (s.weightError c l e) := by
  unfold State.weightError
  dsimp only
  split <;> apply_rules [hs, State.raise_works, State.guideChange_works]

theorem State.reportUe_works (hs : u.Works s) (c l e : Nat) : u.Works (s.reportUe c l e) :=
  works_foldl (State.onResid_works hs ..) _ fun _ _ ht => State.weightError_works ht ..

theorem State.unreadable_works (hs : u.Works s) (o l e i : Nat) : u.Works (s.unreadable o l e i) := by
  have hrefused := works_foldl hs (s.users o) (f := fun t c => t.refuseRows c l e i refNotHosted false)
    fun t c ht => State.refuseRows_works ht ..
  exact State.reportUe_works (State.sendGuide_works (State.onResid_works (State.freeFrame_works hrefused ..) ..) ..) ..

theorem State.onSource_works (hs : u.Works s) (o l e : Nat) (f : Source → Source) : u.Works (s.onSource o l e f) := by
  unfold State.onSource
  apply_rules [hs, State.onResid_works]

theorem State.rebuildMirror_works (hs : u.Works s) (o l e : Nat) : u.Works (s.rebuildMirror o l e) := by
  unfold State.rebuildMirror
  split <;> apply_rules [hs, State.fetchRequest_works]

theorem State.orderOne_works (hs : u.Works s) (c l e : Nat) (zero : Bool) : u.Works (s.orderOne c l e zero) := by
  unfold State.orderOne
  dsimp only
  (repeat' split) <;> apply_rules [hs, State.sendOpen_works, State.onResid_works, State.fetchRequest_works]

theorem orderUp_works (c l e w : Nat) (zero : Bool) (n : Nat) {s : State} (hs : u.Works s) :
    u.Works (orderUp c l e w zero n s) := by
  induction n generalizing s with
  | zero => exact hs
  | succ n ih => exact works_ite (ih (State.orderOne_works hs ..)) hs

theorem dropDown_works (c l e w : Nat) (n : Nat) {s : State} (hs : u.Works s) : u.Works (dropDown c l e w n s) := by
  induction n generalizing s with
  | zero => exact hs
  | succ n ih => exact works_ite (ih (State.retire_works hs ..)) (ih hs)

theorem State.orderPlan_works (hs : u.Works s) (c : Nat) (zero : Bool) (k w : Nat) : u.Works (s.orderPlan c zero k w) :=
  orderUp_works _ _ _ _ _ _ (dropDown_works _ _ _ _ _ hs)

theorem State.planReplicas_works (hs : u.Works s) (c : Nat) (zero : Bool) : u.Works (s.planReplicas c zero) :=
  works_ite hs (works_foldl hs _ fun _ _ ht => State.orderPlan_works ht ..)

theorem State.hintOne_works (hs : u.Works s) (c l e kind v : Nat) : u.Works (s.hintOne c l e kind v).2 := by
  unfold State.hintOne
  dsimp only
  split
  · exact State.guideChange_works (State.onResid_works hs ..) ..
  split
  · exact State.guideChange_works (State.onResid_works hs ..) ..
  split
  · exact works_ite (State.fetchRequest_works (State.guideChange_works (State.onResid_works hs ..) ..) ..)
      (State.guideChange_works (State.onResid_works hs ..) ..)
  · dsimp only
    exact State.onResid_works hs ..

theorem State.retryHints_works (hs : u.Works s) (c : Nat) : u.Works (s.retryHints c) :=
  works_foldl hs _ fun _ _ ht => works_foldl ht _ fun _ _ hv => works_ite (State.hintOne_works hv ..) hv

theorem State.settleAcks_works (hs : u.Works s) (o : Nat) : u.Works (s.settleAcks o) := by
  unfold State.settleAcks
  apply_rules [hs, State.onResid_works]

theorem State.takeAck_works (hs : u.Works s) (src c l e i : Nat) : u.Works (s.takeAck src c l e i) := by
  unfold State.takeAck
  apply_rules [hs, State.onResid_works, State.settleAcks_works]

theorem State.sendAcks_works (hs : u.Works s) (c : Nat) : u.Works (s.sendAcks c) := by
  refine works_foldl (State.onResid_works hs ..) _ fun t k ht => ?_
  split
  · exact works_ite (State.takeAck_works ht ..) (State.sendOpen_works ht ..)
  · exact ht

theorem guideRemoval_works (hs : u.Works s) (c l e i : Nat) : u.Works (guideRemoval c l e i s) := by
  unfold guideRemoval
  dsimp only
  (repeat' split) <;> apply_rules [hs, State.removeHere_works, State.retire_works, State.sendAcks_works]

theorem State.leaveHome_works (hs : u.Works s) (c pkg : Nat) : u.Works (s.leaveHome c pkg) :=
  works_foldl (State.settleAcks_works (State.onResid_works hs ..) ..) _ fun _ _ ht => State.retire_works ht ..

theorem State.freeCol_works (hs : u.Works s) (c k col : Nat) : u.Works (s.freeCol c k col) := by
  have h := State.onCtx_works (State.onLayer_works hs c k (fun y => { (y.onGroup col (fun g => { g with
      fromMin := 0, fromSet := 0, fromPool := 0 })) with minLeft := y.minLeft + (((s.ctx c).layer k).group col).fromMin })) c
    (f := fun x => { x with setUsed := x.setUsed - (((s.ctx c).layer k).group col).fromSet }) fun _ => by rfl
  exact ⟨h.out, h.arriving, h.standing⟩

theorem State.freeBays_works (hs : u.Works s) (c k : Nat) : u.Works (s.freeBays c k) :=
  works_foldl hs _ fun _ _ ht => State.freeCol_works ht ..

theorem State.releaseSoft_works (hs : u.Works s) (c k : Nat) : u.Works (s.releaseSoft c k) := by
  unfold State.releaseSoft
  apply_rules [hs, State.onLayer_works]

theorem State.onLand_works (hs : u.Works s) (c : Nat) (z : LandBuf) (f : LandBuf → LandBuf) : u.Works (s.onLand c z f) := by
  unfold State.onLand
  apply_rules [hs, State.onCtx_works]

theorem State.dropLand_works (hs : u.Works s) (c : Nat) (z : LandBuf) : u.Works (s.dropLand c z) := by
  unfold State.dropLand
  apply_rules [hs, State.onCtx_works, State.khanDrop_works]

theorem State.checkQuarantine_works (hs : u.Works s) (c : Nat) (z : LandBuf) : u.Works (s.checkQuarantine c z) := by
  unfold State.checkQuarantine
  (repeat' split) <;> apply_rules [hs, State.dropLand_works]

theorem State.emptySlot_works (hs : u.Works s) (c l : Nat) (b : Bool) (slot : Nat) : u.Works (s.emptySlot c l b slot) := by
  unfold State.emptySlot
  dsimp only
  split <;> apply_rules [hs, State.onLayer_works]

theorem State.holdSet_works (hs : u.Works s) (c k : Nat) (b : Bool) : u.Works (s.holdSet c k b) := by
  unfold State.holdSet
  dsimp only
  (repeat' split) <;> apply_rules [hs, State.bumpCtx_works, State.onLayer_works]

theorem State.putElem_works (hs : u.Works s) (base ebits e v : Nat) : u.Works (s.putElem base ebits e v) := by
  unfold State.putElem
  split <;> apply_rules [hs, State.writeAt_works]

theorem State.layUndef_works (hs : u.Works s) (k : LayCmd) : u.Works (s.layUndef k) := by
  have hdata := works_foldl hs ((s.positions k).filterMap Pos.dst) (f := fun t e =>
    t.putElem (s.descBase k.dst) k.dst.ebits e (s.free (2 * e) % 2 ^ k.dst.ebits)) fun t e ht => State.putElem_works ht ..
  unfold State.layUndef
  dsimp only
  split
  · refine State.freed_works (works_foldl hdata _ fun t e ht => ?_)
    split
    · exact State.putElem_works ht ..
    · exact ht
  · exact State.freed_works hdata

theorem State.layArrive_works (hs : u.Works s) (k : LayCmd) (v : Nat) : u.Works (s.layArrive k v) := by
  unfold State.layArrive
  split <;> apply_rules [hs, State.arrive_works]

theorem State.layCancel_works (hs : u.Works s) (c : Nat) (k : LayCmd) : u.Works (s.layCancel c k) := by
  unfold State.layCancel
  split <;> apply_rules [hs, State.bumpCtx_works, State.layUndef_works, State.layArrive_works]

theorem State.layoutAnswer_works (hs : u.Works s) (c : Nat) (st : Status) : u.Works (s.layoutAnswer c st) := by
  unfold State.layoutAnswer
  split <;> apply_rules [hs, State.complete_works]

theorem State.killCmds_works (hs : u.Works s) (c : Nat) (p : Cmd → Bool) : u.Works (s.killCmds c p) :=
  works_foldl (State.onWs_works (State.onCtx_works hs c fun _ => by rfl) ..) _ fun _ _ ht =>
    State.layCancel_works (works_ite (State.layoutAnswer_works ht ..) ht) ..

theorem State.onLanes_works (hs : u.Works s) (c : Nat) (f : Lanes → Lanes) : u.Works (s.onLanes c f) := by
  unfold State.onLanes
  apply_rules [hs, State.onCtx_works]

theorem State.unqueue_works (hs : u.Works s) (c id : Nat) : u.Works (s.unqueue c id) :=
  works_foldl (works_foldl hs _ fun _ _ ht => State.onPost_works ht ..) _ fun _ _ ht => State.onWs_works ht ..

theorem State.retireLaunch_works (hs : u.Works s) (c : Nat) (l : Launch) (st : Nat) : u.Works (s.retireLaunch c l st) := by
  unfold State.retireLaunch
  split <;> apply_rules [hs, State.arrive_works, State.onLanes_works]

theorem State.onCore_works (hs : u.Works s) (n : Nat) (f : Core → Core) : u.Works (s.onCore n f) :=
  ⟨hs.out, hs.arriving, hs.standing⟩

theorem State.finishCore_works (hs : u.Works s) (n : Nat) : u.Works (s.finishCore n) := by
  have hraised := State.raise_works (s := { s with
    fuses := { s.fuses with badCores := s.fuses.badCores ++ [(s.core n).phys], retired := s.fuses.retired + 1 }
    cores := { s.cores with retired := s.cores.retired + 1 } }) ⟨hs.out, hs.arriving, hs.standing⟩ (s.core n).phys 0x04 0 0 3
    (packF [(0, 10, (s.core n).phys), (10, 9, n)])
  unfold State.finishCore
  dsimp only
  split
  · exact State.onCore_works hraised ..
  · exact State.bumpFlt_works (State.raise_works (State.onCore_works (by exact ⟨hraised.out, hraised.arriving,
    hraised.standing⟩) ..) ..) ..

theorem State.settleCores_works (hs : u.Works s) : u.Works s.settleCores :=
  works_ite (works_foldl hs _ fun _ _ ht => State.finishCore_works ht _) hs

theorem State.finishLaunch_works (hs : u.Works s) (c : Nat) (l : Launch) (st : Nat) : u.Works (s.finishLaunch c l st) := by
  unfold State.finishLaunch
  split <;> apply_rules [hs, State.onLanes_works, State.retireLaunch_works]

theorem State.settleDying_works (hs : u.Works s) : u.Works s.settleDying :=
  works_foldl hs _ fun _ _ ht => works_foldl ht _ fun _ _ hv => State.retireLaunch_works hv ..

theorem State.killLaunch_works (hs : u.Works s) (c id st : Nat) : u.Works (s.killLaunch c id st) := by
  unfold State.killLaunch
  split
  · exact hs
  · refine works_ite hs (works_ite (State.settleCores_works (State.retireLaunch_works (State.freed_works hs) ..)) ?_)
    refine State.settleCores_works (State.finishLaunch_works (State.freed_works (State.Works.withMem ?_ _)) ..)
    exact State.killCmds_works (State.bumpCtx_works (State.unqueue_works hs c id) ..) ..

theorem State.releaseHeld_works (hs : u.Works s) (c : Nat) : u.Works (s.releaseHeld c) :=
  works_foldl hs _ fun _ _ ht => State.setPhase_works ht ..

theorem State.quarantine_works (hs : u.Works s) (c : Nat) : u.Works (s.quarantine c) :=
  works_foldl (State.bumpCtx_works (works_foldl hs _ fun _ _ ht => State.onLand_works ht ..) ..) _ fun _ _ ht =>
    State.checkQuarantine_works ht ..

theorem State.restoreEntry_works (hs : u.Works s) (e : Entry) : u.Works (s.restoreEntry e) := by
  unfold State.restoreEntry
  split <;> apply_rules [hs, State.onSeq_works]

theorem State.endPlans_works (hs : u.Works s) (c : Nat) : u.Works (s.endPlans c) :=
  State.onCtx_works (works_foldl hs _ fun _ _ ht => State.khanDrop_works ht _) c fun _ => by rfl

theorem State.killStep_works (hs : u.Works s) (c : Nat) : u.Works (s.killStep c) := by
  unfold State.killStep
  split
  · exact hs
  · next m _ =>
    have hbays := works_foldl hs (s.ctx c).layers.keys (f := fun t k => (t.freeBays c k).releaseSoft c k)
      fun t k ht => State.releaseSoft_works (State.freeBays_works ht ..) ..
    have hsent := works_foldl (State.quarantine_works hbays c) (s.ctx c).unanswered (f := fun t d => t.sendOpen d 0x03 c [m.epoch] [])
      fun t d ht => State.sendOpen_works ht ..
    have hback := works_foldl (State.endPlans_works hsent c) m.entries fun t e ht => State.restoreEntry_works ht e
    have hended := State.bumpCtx_works (State.onCtx_works hback c (f := fun x => { x with
      layers := []
      steps := { x.steps with man := none, stalled := false, killedMask := x.steps.killedMask ||| 2 ^ m.epoch } }) fun _ => by rfl)
      c .stepsKilled 1
    exact works_ite (State.releaseHeld_works (works_ite (State.ownKilled_works hended ..) hended) ..)
      (works_ite (State.ownKilled_works hended ..) hended)

theorem State.onColl_works (hs : u.Works s) (c g id : Nat) (f : Coll → Coll) : u.Works (s.onColl c g id f) := by
  unfold State.onColl
  apply_rules [hs, State.onCtx_works]

theorem State.releaseColl_works (hs : u.Works s) (k : Coll) : u.Works (s.releaseColl k) :=
  works_foldl (by exact ⟨hs.out, hs.arriving, hs.standing⟩) _ fun _ _ ht => State.khanDrop_works ht _

theorem State.undefine_works (hs : u.Works s) (a n : Nat) : u.Works (s.undefine a n) := by
  unfold State.undefine
  apply_rules [hs, State.freed_works, State.writeAt_works]

theorem State.answerLaunch_works (hs : u.Works s) (c g id : Nat) (st : Status) : u.Works (s.answerLaunch c g id st) := by
  unfold State.answerLaunch
  split <;> apply_rules [hs, State.bumpCtx_works, State.complete_works]

theorem State.dropColl_works (hs : u.Works s) (c g id : Nat) (st : Status) : u.Works (s.dropColl c g id st) := by
  unfold State.dropColl
  split <;> apply_rules [hs, State.onCtx_works, State.releaseColl_works, State.answerLaunch_works]

theorem State.endColl_works (hs : u.Works s) (c g id st : Nat) : u.Works (s.endColl c g id st) := by
  unfold State.endColl
  dsimp only
  (repeat' split) <;> apply_rules [hs, State.bumpCtx_works, State.onCtx_works, State.arrive_works, State.undefine_works,
    State.dropColl_works]

theorem State.sendCtl_works (hs : u.Works s) (c dst g id slab index ctl status : Nat) :
    u.Works (s.sendCtl c dst g id slab index ctl status) := by
  unfold State.sendCtl
  apply_rules [hs, State.sendMsg_works]

theorem State.killColl_works (hs : u.Works s) (c g id : Nat) : u.Works (s.killColl c g id) := by
  unfold State.killColl
  split
  · exact State.endColl_works (works_foldl hs _ fun _ _ ht => State.sendCtl_works ht ..) ..
  · exact hs

theorem State.killWork_works (hs : u.Works s) (c : Nat) : u.Works (s.killWork c) :=
  works_foldl (State.killCmds_works (works_foldl (State.killStep_works hs c) _ fun _ _ ht => State.killLaunch_works ht ..) ..) _
    fun _ _ ht => State.killColl_works ht ..

theorem State.abortMsgs_works (hs : u.Works s) (c : Nat) (st : Status) : u.Works (s.abortMsgs c st) :=
  works_foldl hs _ fun _ _ ht => State.complete_works ht ..

theorem State.clearShares_works (hs : u.Works s) (c : Nat) : u.Works (s.clearShares c) :=
  ⟨hs.out, hs.arriving, hs.standing⟩

theorem State.passFrame_works (hs : u.Works s) (j : Nat) (f : Frame) : u.Works (s.passFrame j f) := by
  unfold State.passFrame
  refine works_ite (works_ite (State.bumpCtx_works hs ..) (State.announce_works (State.guideAll_works hs ..) ..)) ?_
  exact State.onCtx_works (hs.withMem _) j fun x => Ctx.takeGranules_standing 0x6 x _

theorem State.passImages_works (hs : u.Works s) (c : Nat) : u.Works (s.passImages c) := by
  unfold State.passImages
  split
  · exact hs
  · refine works_foldl (State.onResid_works (works_foldl hs _ fun _ _ ht => ?_) ..) _ fun _ _ ht => State.passFrame_works ht ..
    exact State.onCtx_works ht _ fun _ => by rfl

theorem State.onPort_works (hs : u.Works s) (p : Nat) (f : Port → Port) : u.Works (s.onPort p f) :=
  ⟨hs.out, hs.arriving, hs.standing⟩

theorem State.realign_works (hs : u.Works s) : u.Works s.realign := by
  unfold State.realign
  refine works_ite hs (works_ite ⟨hs.out, hs.arriving, hs.standing⟩ ?_)
  split
  · exact hs
  · exact ⟨hs.out, hs.arriving, hs.standing⟩

theorem State.memUe_works (hs : u.Works s) (c a : Nat) : u.Works (s.memUe c a) := by
  unfold State.memUe
  apply_rules [hs, State.bumpCtx_works, State.raise_works]

theorem State.wakeLotWait_works (hs : u.Works s) : u.Works (s.wakeLotWait) :=
  ⟨hs.out, hs.arriving, hs.standing⟩

theorem State.freeSegs_works (hs : u.Works s) (l : List (Nat × Nat)) : u.Works (s.freeSegs l) :=
  works_foldl hs _ fun _ _ ht => State.khanDrop_works ht _

theorem State.note_works (hs : u.Works s) (c q flags : Nat) : u.Works (s.note c q flags) := by
  unfold State.note
  apply_rules [hs, State.onCtx_works]

theorem State.leave_works (hs : u.Works s) (q : Nat) : u.Works (s.leave q) := by
  unfold State.leave
  apply_rules [hs, State.onSeq_works, State.freeSegs_works]

theorem State.raiseGen_works (hs : u.Works s) (c : Nat) (e : Entry) : u.Works (s.raiseGen c e) := by
  unfold State.raiseGen
  split
  · exact hs
  · refine works_foldl (State.onMan_works (works_foldl (works_foldl (State.onMan_works hs ..) _ ?_) _ ?_) ..) _ ?_
    · exact fun t n ht => State.setSlotGen_works ht ..
    · exact fun t l ht => works_foldl ht _ fun v n hv => State.emptySlot_works hv ..
    · exact fun t l ht => works_ite (State.holdSet_works ht ..) ht

theorem State.cancelSeq_works (hs : u.Works s) (c q flags : Nat) : u.Works (s.cancelSeq c q flags) := by
  unfold State.cancelSeq
  (repeat' split) <;> apply_rules [hs, State.onMan_works, State.note_works, State.leave_works, State.raiseGen_works]

theorem State.launchUe_works (hs : u.Works s) (c id i a : Nat) : u.Works (s.launchUe c id i a) := by
  unfold State.launchUe
  apply_rules [hs, State.raise_works, State.killLaunch_works]

theorem State.giveBack_works (hs : u.Works s) (b : Option (Nat × Nat × Nat × Nat)) : u.Works (s.giveBack b) := by
  unfold State.giveBack
  (repeat' split) <;> apply_rules [hs, State.onPort_works]

theorem State.loadUe_works (hs : u.Works s) (c id i a : Nat) : u.Works (s.loadUe c id i a) := by
  unfold State.loadUe
  apply_rules [hs, State.memUe_works, State.launchUe_works]

theorem State.writeBits_works (hs : u.Works s) (a o n v : Nat) : u.Works (s.writeBits a o n v) := by
  unfold State.writeBits
  apply_rules [hs, State.writeAt_works]

theorem writePlanes_works (a total off n : Nat) (l : List (Nat × Nat)) (data : List Byte) {s : State} (hs : u.Works s) :
    u.Works (writePlanes a total off n l data s) := by
  induction l generalizing a data s with
  | nil => exact hs
  | cons p r ih => exact ih _ _ (State.writeBits_works hs ..)

theorem State.putElems_works (hs : u.Works s) (c h fmt total off n : Nat) (data : List Byte) :
    u.Works (s.putElems c h fmt total off n data) :=
  State.freed_works (State.charge_works (writePlanes_works _ _ _ _ _ _ hs) ..)

theorem State.readInput_works (hs : u.Works s) (c h off n : Nat) : u.Works ((s.readInput c h off n).2.2) := by
  unfold State.readInput
  dsimp only
  split <;> apply_rules [hs, State.charge_works, State.takePoison_works, State.memUe_works]

theorem State.checkColl_works (hs : u.Works s) (c g id : Nat) : u.Works (s.checkColl c g id) := by
  unfold State.checkColl
  (repeat' split) <;> apply_rules [hs, State.endColl_works]

theorem State.checkColls_works (hs : u.Works s) : u.Works s.checkColls :=
  works_foldl hs _ fun _ _ ht => works_foldl ht _ fun _ _ hv => State.checkColl_works hv ..

theorem State.staleColl_works (hs : u.Works s) (c g id : Nat) : u.Works (s.staleColl c g id) := by
  unfold State.staleColl
  (repeat' split) <;> apply_rules [hs, State.bumpCtx_works]

theorem State.sendElems_works (hs : u.Works s) (c dst type g id slab index : Nat) (data : List Byte) :
    u.Works (s.sendElems c dst type g id slab index data) := by
  unfold State.sendElems
  split <;> apply_rules [hs, State.sendMsg_works, State.onColl_works]

theorem State.takeBay_works {t : State} {a : Nat} (hs : u.Works s) (h : s.takeBay = some (a, t)) : u.Works t := by
  unfold State.takeBay at h
  split_ifs at h
  · cases h
    exact ⟨hs.out, hs.arriving, hs.standing⟩
  · cases h
    exact ⟨hs.out, hs.arriving, hs.standing⟩

theorem State.onSlab_works (hs : u.Works s) (c g id i : Nat) (f : Slab → Slab) : u.Works (s.onSlab c g id i f) := by
  unfold State.onSlab
  apply_rules [hs, State.onColl_works]

theorem State.addPiece_works (hs : u.Works s) (c g id i idx op : Nat) (piece : Row) :
    u.Works (s.addPiece c g id i idx op piece) := by
  unfold State.addPiece
  apply_rules [hs, State.onSlab_works]

theorem addReady_works (c g id i n : Nat) {s : State} (hs : u.Works s) : u.Works (addReady c g id i n s) := by
  induction n generalizing s with
  | zero => exact hs
  | succ n ih =>
    rw [addReady]
    split
    · split
      · exact hs
      · refine works_ite (works_ite (State.endColl_works (State.readInput_works hs ..) ..)
          (ih (State.addPiece_works (State.readInput_works hs ..) ..))) ?_
        split
        · exact ih (State.addPiece_works hs ..)
        · exact hs
    · exact hs

theorem State.returnBay_works (hs : u.Works s) (b : Nat) : u.Works (s.returnBay b) :=
  works_ite ⟨hs.out, hs.arriving, hs.standing⟩ ⟨hs.out, hs.arriving, hs.standing⟩

theorem State.takeBayFor_works {t : State} {c a : Nat} {k : Coll} (hs : u.Works s) (h : s.takeBayFor c k = some (a, t)) :
    u.Works t := by
  unfold State.takeBayFor at h
  split at h
  · split at h
    · cases h
    · exact State.takeBay_works hs h
  · exact State.takeBay_works hs h

theorem State.releaseSpare_works (hs : u.Works s) (c g id : Nat) : u.Works (s.releaseSpare c g id) := by
  unfold State.releaseSpare
  split
  · exact hs
  · exact State.onColl_works (works_foldl (works_foldl hs _ fun _ _ ht => State.returnBay_works ht _) _ fun _ _ ht =>
      State.khanDrop_works ht _) ..

theorem State.openSlab_works (hs : u.Works s) (c g id : Nat) : u.Works (s.openSlab c g id) := by
  unfold State.openSlab
  split
  · next k grp _ _ =>
    dsimp only
    split
    · exact hs
    · next i _ =>
      split
      · exact works_ite (State.onColl_works hs ..) (State.bumpCtx_works (State.onColl_works hs ..) ..)
      · next b h t ht =>
        have htaken : u.Works t := by
          obtain ⟨⟨a, v⟩, hbay, hfull⟩ := Option.bind_eq_some_iff.mp ht
          have hv : u.Works v := by
            split at hbay
            · cases hbay
              exact State.onColl_works hs ..
            · exact State.takeBayFor_works hs hbay
          split at hfull
          · cases hfull
            exact hv
          · split at hfull
            · cases hfull
              exact State.onColl_works hv ..
            · have halloc := State.khanAlloc_works hv c 1 0 0xA (k.info.stageBytes grp.count)
              split at hfull
              · next hsome =>
                cases hfull
                rwa [hsome] at halloc
              · cases hfull
        exact addReady_works _ _ _ _ _ (works_foldl (State.onColl_works htaken ..) _ fun v p hv => State.sendCtl_works hv ..)
  · exact hs

theorem State.finishSlab_works (hs : u.Works s) (c g id i : Nat) : u.Works (s.finishSlab c g id i) := by
  unfold State.finishSlab
  split
  · split
    · exact hs
    · refine works_ite hs (State.checkColl_works (works_ite (State.openSlab_works (State.onColl_works (works_ite ?sent
        (State.returnBay_works ?sent _)) ..) ..) (State.releaseSpare_works (State.onColl_works (works_ite ?sent
        (State.returnBay_works ?sent _)) ..) ..)) ..)
      exact works_ite (works_foldl (State.putElems_works hs ..) _ fun v p hv => State.sendElems_works hv ..) (State.putElems_works hs ..)
  · exact hs

theorem finishSlabs_works (c g id n : Nat) {s : State} (hs : u.Works s) : u.Works (finishSlabs c g id n s) := by
  induction n generalizing s with
  | zero => exact hs
  | succ n ih =>
    rw [finishSlabs]
    split
    · split
      · exact ih (State.finishSlab_works hs ..)
      · exact hs
    · exact hs

theorem collSlabOpen_works (hs : u.Works s) (c g id : Nat) : u.Works (collSlabOpen c g id s) := by
  unfold collSlabOpen
  (repeat' split) <;> apply_rules [hs, State.openSlab_works, finishSlabs_works]

theorem State.consumePiece_works (hs : u.Works s) (c : Nat) (r : CollRec) (m j : Nat) (data : List Byte) :
    u.Works (s.consumePiece c r m j data) :=
  State.ownStrings_works (works_foldl hs _ fun _ _ ht => State.putElems_works ht ..) ..

theorem State.gatherOwn_works (hs : u.Works s) (c g id : Nat) : u.Works (s.gatherOwn c g id) := by
  unfold State.gatherOwn
  split
  · refine works_ite hs (works_ite (State.endColl_works (State.readInput_works hs ..) ..) (State.onColl_works
      (works_ite (State.consumePiece_works ?sent ..) (State.putElems_works ?sent ..)) ..))
    exact works_foldl (State.readInput_works hs ..) _ fun v p hv => State.sendElems_works hv ..
  · exact hs

theorem State.startColl_works (hs : u.Works s) (c g id : Nat) : u.Works (s.startColl c g id) := by
  unfold State.startColl
  split
  · exact hs
  · refine works_ite hs (State.checkColl_works (finishSlabs_works _ _ _ _ (State.openSlab_works (State.openSlab_works
      (State.gatherOwn_works (State.answerLaunch_works (State.onColl_works hs ..) ..) ..) ..) ..)) ..)

theorem State.abortColl_works (hs : u.Works s) (c g id : Nat) (status : Nat) : u.Works (s.abortColl c g id status) := by
  unfold State.abortColl
  (repeat' split) <;> apply_rules [hs, State.dropColl_works, State.endColl_works, State.staleColl_works]

theorem State.decideColl_works (hs : u.Works s) (c g id : Nat) : u.Works (s.decideColl c g id) := by
  unfold State.decideColl
  split
  · have hmarked := State.onColl_works hs c g id (fun k => { k with decided := true })
    refine works_ite hs (works_ite (State.startColl_works (works_foldl hmarked _ ?_) ..) (State.abortColl_works (works_foldl hmarked _ ?_) ..))
    · exact fun t p ht => State.sendCtl_works ht ..
    · exact fun t p ht => State.sendCtl_works ht ..
  · exact hs

theorem State.takeJoin_works (hs : u.Works s) (c g id idx : Nat) (ok : Bool) (crc : Nat) :
    u.Works (s.takeJoin c g id idx ok crc) := by
  unfold State.takeJoin
  (repeat' split) <;> apply_rules [hs, State.bumpCtx_works, State.onCtx_works, State.onColl_works, State.decideColl_works]

theorem collJoin_works (hs : u.Works s) (c g id idx : Nat) (ok : Bool) (crc : Nat) : u.Works (collJoin c g id idx ok crc s) := by
  unfold collJoin
  split <;> apply_rules [hs, State.takeJoin_works]

theorem collJoinTimeout_works (hs : u.Works s) (c g id : Nat) : u.Works (collJoinTimeout c g id s) := by
  unfold collJoinTimeout
  split
  · exact works_ite hs (State.abortColl_works (works_ite (works_foldl hs _ fun _ _ ht => State.sendCtl_works ht ..) hs) ..)
  · exact hs

theorem collGrant_works (hs : u.Works s) (c g id i : Nat) : u.Works (collGrant c g id i s) := by
  unfold collGrant
  dsimp only
  (repeat' split) <;> apply_rules [hs, State.onColl_works, State.endColl_works, State.readInput_works, State.checkColl_works,
    State.staleColl_works, State.sendElems_works]

theorem State.forgetSends_works (hs : u.Works s) (pkg : Nat) : u.Works (s.forgetSends pkg) := by
  refine ⟨hs.out, hs.arriving, Eq.trans ?_ hs.standing⟩
  rw [State.standing, State.forgetSends, List.map_map]
  rfl

theorem State.loseCols_works (hs : u.Works s) (pkg c : Nat) : u.Works (s.loseCols pkg c) := by
  unfold State.loseCols
  extract_lets x lost s0 qs live s1 nodes s2
  have hlots : u.Works s0 := State.onCtx_works hs c fun _ => by rfl
  have hcancelled : u.Works s1 := works_foldl hlots _ fun t q ht => State.cancelSeq_works ht ..
  refine works_ite hlots (State.raise_works (State.onCtx_works hcancelled c fun y => ?_) ..)
  exact Ctx.standing_foldl (fun z n => Ctx.unref_standing z n.col) nodes _

theorem State.loseSource_works (hs : u.Works s) (pkg o : Nat) (e : Nat × Source) : u.Works (s.loseSource pkg o e) := by
  have hcounted := State.bumpCtx_works hs o .weightUe 1
  have hrebuild {t : State} (ht : u.Works t) (l x : Nat) : u.Works ((t.guideAll o (.mirrored l x false)).rebuildMirror o l x) :=
    State.rebuildMirror_works (State.guideAll_works ht ..) ..
  unfold State.loseSource
  dsimp only
  refine works_ite (works_ite (hrebuild (State.raise_works (State.onSource_works hcounted ..) ..) _ _) (works_ite ?_
    (State.unreadable_works ?_ ..))) (works_ite (hrebuild (State.onSource_works hcounted ..) _ _) hs)
  · exact State.onSource_works hcounted ..
  · exact State.onSource_works hcounted ..

theorem State.poisonWaits_works (hs : u.Works s) (pkg c : Nat) : u.Works (s.poisonWaits pkg c) := by
  refine works_foldl hs _ fun t h ht => ?_
  split
  · exact State.loadUe_works ht ..
  · exact ht

theorem State.faultColls_works (hs : u.Works s) (pkg c : Nat) : u.Works (s.faultColls pkg c) := by
  refine works_foldl hs _ fun t k ht => ?_
  split
  · exact works_ite (State.endColl_works ht ..) ht
  · exact ht

theorem State.ctxDepart_works (hs : u.Works s) (pkg c : Nat) : u.Works (s.ctxDepart pkg c) := by
  have hguided := State.onResid_works (State.guideChange_works hs c (.dropPkg pkg)) c
    (fun r => { r with reports := r.reports.drop (fun k _ => k / 2 ^ 25 == pkg) })
  have hleft := State.leaveHome_works (State.onRx_works hguided c (fun r => { r with areas := r.areas.del pkg })) c pkg
  have hfault {t : State} (ht : u.Works t) := State.faultColls_works (State.poisonWaits_works (State.loseCols_works ht pkg c) pkg c) pkg c
  have hplan {t : State} (ht : u.Works t) : u.Works ((if t.frozen c then t.planReplicas c true else t).retryHints c) :=
    State.retryHints_works (works_ite (State.planReplicas_works ht ..) ht) c
  refine works_ite (State.onResid_works hs ..) (hplan (hfault (works_ite (works_foldl hleft _ ?_) hleft)))
  exact fun t e ht => State.loseSource_works ht ..

theorem State.masterDepart_works (hs : u.Works s) (pkg : Nat) : u.Works (s.masterDepart pkg) := by
  unfold State.masterDepart
  refine works_ite hs (works_ite (State.realign_works (State.bumpTb_works ?_ ..)) (works_ite (State.realign_works hs) hs))
  exact ⟨hs.out, hs.arriving, hs.standing⟩

end
end Machine
end Sys2Proof
end

section
/-! PROOFS. A package departs: what stays of it here, and what is said of it (13 R288, 11 R238, 18 R309). -/

namespace Sys2Proof
namespace Machine

section
variable {u s : State} {pkg : Nat}

/-- What is present, departed, lent, and received by path, does not come back by work. -/
structure State.Without (s : State) (pkg : Nat) : Prop where
  gone     : pkg ∉ s.fab.present
  departed : pkg ∈ s.fab.departed
  paths    : ∀ tc < 5, s.pathIn (8 * pkg + tc) = PathIn.fresh
  lots     : ∀ l ∈ s.lend.lots, l.borrower ≠ pkg

theorem State.Works.present (h : u.Works s) : s.fab.present = u.fab.present :=
  congrArg (fun x : List (CtxSt × Share × Nat × Nat) × List Part × Fabric × Lending × Boot => x.2.2.1.present) h.standing

theorem State.Works.departed (h : u.Works s) : s.fab.departed = u.fab.departed :=
  congrArg (fun x : List (CtxSt × Share × Nat × Nat) × List Part × Fabric × Lending × Boot => x.2.2.1.departed) h.standing

theorem State.Works.ins (h : u.Works s) : s.fab.ins = u.fab.ins :=
  congrArg (fun x : List (CtxSt × Share × Nat × Nat) × List Part × Fabric × Lending × Boot => x.2.2.1.ins) h.standing

theorem State.Works.lend (h : u.Works s) : s.lend = u.lend :=
  congrArg (fun x : List (CtxSt × Share × Nat × Nat) × List Part × Fabric × Lending × Boot => x.2.2.2.1) h.standing

theorem State.Works.without (h : u.Works s) (hu : u.Without pkg) : s.Without pkg where
  gone := h.present ▸ hu.gone
  departed := h.departed ▸ hu.departed
  paths := fun tc htc => (congrArg (fun t : Tbl PathIn => t.getD (8 * pkg + tc) PathIn.fresh) h.ins).trans (hu.paths tc htc)
  lots := h.lend ▸ hu.lots

/-- The package's chunks, marks, lots and rows are gone, before the contexts take notice. -/
def State.forgotten (s : State) (pkg : Nat) : State :=
  let s1 := ((s.dropChunks pkg).forgetSends pkg).bump .departures 1
  let s2 := { s1 with lend := { s1.lend with lots := s1.lend.lots.filter (fun l => l.borrower != pkg) } }
  let t2 := if s1.lend.lots.any (fun l => l.borrower == pkg) then s2.wakeLotWait else s2
  { t2 with fab := { t2.fab with heldRx := t2.fab.heldRx.filter (fun h => h.src != pkg) } }

theorem State.depart_eq (s : State) (pkg : Nat) : s.depart pkg =
    (((List.range 16).foldl (fun t c => t.ctxDepart pkg c) (s.forgotten pkg)).masterDepart pkg).settleDying.checkColls := rfl

theorem Tbl.getD_drop_of_dropped {α : Type} (t : Tbl α) {p : Nat → α → Bool} {k : Nat} (d : α) (h : ∀ x, p k x = true) :
    (t.drop p).getD k d = d := by
  induction t with
  | nil => rfl
  | cons e r ih =>
    obtain ⟨j, x⟩ := e
    rw [Tbl.drop, List.filter_cons]
    split
    · next hkept =>
      have hne : j ≠ k := by
        rintro rfl
        simp [h] at hkept
      exact (if_neg hne).trans ih
    · exact ih

/-- The fabric without the package, its credits not yet freed. -/
def State.cutOff (s : State) (pkg : Nat) : State :=
  { s with fab := { s.fab with
    ports := s.fab.ports.map (fun (x : Port) => { x with tx := x.tx.map (fun l => l.filter (fun k => !k.about pkg)) })
    outs := s.fab.outs.drop (fun k _ => k / 8 == pkg), ins := s.fab.ins.drop (fun k _ => k / 8 == pkg)
    silent := s.fab.silent.del pkg, entries := s.fab.entries.filter (fun e => e.1 != pkg)
    present := s.fab.present.filter (fun p => p != pkg), departed := s.fab.departed ++ [pkg] } }

theorem State.dropChunks_works (s : State) (pkg : Nat) : (s.cutOff pkg).Works (s.dropChunks pkg) :=
  works_foldl (.refl _) _ fun _ _ ht => State.giveBack_works ht _

/-- What is left where a package's chunks, marks, lots and rows are gone. -/
structure State.Forgot (s : State) (pkg : Nat) (t : State) : Prop where
  present  : t.fab.present = s.fab.present.filter (fun p => p != pkg)
  departed : t.fab.departed = s.fab.departed ++ [pkg]
  ins      : t.fab.ins = s.fab.ins.drop (fun k _ => k / 8 == pkg)
  lots     : t.lend.lots = s.lend.lots.filter (fun l => l.borrower != pkg)
  out      : s.out ⊆ t.out
  arriving : s.flt.arriving ⊆ t.flt.arriving

theorem State.forgotten_forgot (s : State) (pkg : Nat) : s.Forgot pkg (s.forgotten pkg) := by
  have h := s.dropChunks_works pkg
  have hlots := congrArg (fun x : Lending => x.lots.filter (fun l : Lent => l.borrower != pkg)) h.lend
  unfold State.forgotten
  dsimp only
  split
  · exact ⟨h.present, h.departed, h.ins, hlots, h.out, h.arriving⟩
  · exact ⟨h.present, h.departed, h.ins, hlots, h.out, h.arriving⟩

theorem State.Forgot.without {t : State} (h : s.Forgot pkg t) : t.Without pkg where
  gone := by
    rw [h.present, List.mem_filter]
    simp
  departed := by
    rw [h.departed]
    exact List.mem_append_right _ (List.mem_singleton.mpr rfl)
  paths := fun tc htc => by
    rw [State.pathIn, h.ins]
    exact Tbl.getD_drop_of_dropped _ _ fun _ => by simp only [beq_iff_eq]; omega
  lots := fun l hl => by
    rw [h.lots, List.mem_filter] at hl
    simpa using hl.2

/-- R288: every effect of a departure. -/
theorem State.depart_works (s : State) (pkg : Nat) : (s.forgotten pkg).Works (s.depart pkg) := by
  rw [State.depart_eq]
  refine State.checkColls_works (State.settleDying_works (State.masterDepart_works (works_foldl (.refl _) _ fun t c ht => ?_) pkg))
  exact State.ctxDepart_works ht ..

theorem State.depart_without (s : State) (pkg : Nat) : (s.depart pkg).Without pkg :=
  (s.depart_works pkg).without (s.forgotten_forgot pkg).without

theorem State.present_depart {p : Nat} (hp : p ∈ s.fab.present) (hne : p ≠ pkg) : p ∈ (s.depart pkg).fab.present := by
  rw [(s.depart_works pkg).present, (s.forgotten_forgot pkg).present, List.mem_filter]
  exact ⟨hp, by simpa using hne⟩

theorem State.out_depart (s : State) (pkg : Nat) : s.out ⊆ (s.depart pkg).out :=
  List.Subset.trans (s.forgotten_forgot pkg).out (s.depart_works pkg).out

theorem State.arriving_depart (s : State) (pkg : Nat) : s.flt.arriving ⊆ (s.depart pkg).flt.arriving :=
  List.Subset.trans (s.forgotten_forgot pkg).arriving (s.depart_works pkg).arriving

end

/-! ### Messages to several packages -/

theorem State.mem_out_sendOpen (s : State) (p type ctx : Nat) (fields : List Nat) (data : List Byte) :
    Out.msg p type ctx fields (Config.bodyCode type fields ++ data) ∈ (s.sendOpen p type ctx fields data).out := by
  rw [State.sendOpen_eq]
  exact List.mem_append_right _ (List.mem_singleton.mpr rfl)

/-- Each package of a list is sent its message. -/
theorem State.mem_out_foldl_send {α : Type} {f : State → α → State} {o : α → Out} (hsaid : ∀ t a, o a ∈ (f t a).out)
    (hkept : ∀ t a, t.out ⊆ (f t a).out) {l : List α} {a : α} (ha : a ∈ l) (s : State) : o a ∈ (l.foldl f s).out := by
  induction l generalizing s with
  | nil => cases ha
  | cons b r ih =>
    rw [List.foldl_cons]
    rcases List.mem_cons.mp ha with rfl | ha
    · exact List.foldlRecOn (motive := fun t : State => o a ∈ t.out) _ _ (hsaid s a) fun t ht b _ => hkept t b ht
    · exact ih ha _

/-- Settles O55. -/
theorem departures : Obligations.Departures := by
  unfold Obligations.Departures
  refine ⟨fun pkg s hrun hpresent hother => ?_, fun pkg s hidle => ⟨?_, ?_⟩, fun pkg n s hrun hpresent hother hpending hsilent hlong => ?_⟩
  · have hdeparts : departureReceive pkg s = s.depart pkg := if_pos ⟨hrun, by simpa using hpresent, hother⟩
    have h := s.depart_without pkg
    exact ⟨_, congrArg Host.Outcome.next hdeparts, h.gone, h.departed, fun p hne hp => State.present_depart hp hne, h.lots, h.paths⟩
  · refine congrArg Host.Outcome.next (if_neg fun ⟨hrun, hpresent, hother⟩ => ?_)
    rw [List.contains_iff_mem] at hpresent
    rcases hidle with h | h | h
    exacts [h hpresent, hother h, h hrun]
  · refine congrArg Host.Outcome.next (if_pos ?_)
    rcases hidle with h | h | h
    · exact .inr (.inl (by simp [State.others, h]))
    · exact .inr (.inl (by simp [State.others, h]))
    · exact .inl h
  · have hgo : ¬ ((s.fw fwWayfinder).st ≠ .running ∨ (!s.others.contains pkg) = true ∨
        (!(s.pendingTo pkg && decide ((s.fab.silent.getD pkg s.now) + 10000000 < s.now) || s.routeDark pkg)) = true) := by
      have hdue : (s.fab.silent.getD pkg s.now) + 10000000 < s.now := by rw [Tbl.getD_eq_find, hsilent]; exact hlong
      simp [hrun, State.others, hpresent, hother, hpending, hdue]
    let told := (s.others.filter (fun p => p != pkg)).foldl (fun t p => t.sendOpen p 0x32 0 [pkg] []) s
    have hdeparts : departureTimeout pkg s = (told.raise 0x743 0x34 0 0 3 pkg).depart pkg := if_neg hgo
    have h := (told.raise 0x743 0x34 0 0 3 pkg).depart_without pkg
    refine ⟨_, congrArg Host.Outcome.next hdeparts, h.gone, h.departed, ?_, fun p hp hne hme => ?_⟩
    · obtain ⟨m, hm, hfault⟩ : ∃ m ∈ (told.raise 0x743 0x34 0 0 3 pkg).flt.arriving, m.kind = 0x34 ∧ m.source = 0x743 ∧ m.cls = 0 ∧
          m.detail = pkg := ⟨_, List.mem_append_right _ (List.mem_singleton.mpr rfl), rfl, rfl, rfl, rfl⟩
      exact ⟨m, State.arriving_depart _ pkg hm, hfault⟩
    · refine ⟨_, State.out_depart _ pkg (State.mem_out_foldl_send (o := fun p => Out.msg p 0x32 0 [pkg] (Config.bodyCode 0x32 [pkg] ++ []))
        (fun t a => State.mem_out_sendOpen t ..) (fun t a => (State.sendOpen_works (.refl t) ..).out) ?_ s)⟩
      simp [State.others, hp, hne, hme]

end Machine
end Sys2Proof
end

section
/-! PROOFS. The Sequence Table is written by steps, sequence messages and far columns alone (03 R43): each rule says of one other function
that it leaves the table, from its branches. -/

namespace Sys2Proof
namespace Machine

section
variable (s : State)

/-! ### Records, branches and folds -/

@[simp] theorem State.seqs_ite {p : Prop} [Decidable p] (t : State) :
    (if p then s else t).seqs = if p then s.seqs else t.seqs := apply_ite State.seqs p s t

/-- Acts one after another leave the table where each of them does. -/
@[simp] theorem seqs_foldl {α : Type} {f : State → α → State} (l : List α) (h : ∀ t a, (f t a).seqs = t.seqs) :
    (l.foldl f s).seqs = s.seqs :=
  List.foldlRecOn (motive := fun t : State => t.seqs = s.seqs) _ _ rfl fun t ht a _ => (h t a).trans ht

variable (c : Nat) (a : List Nat) (m : Msg)

/-! ### Functions over the state -/

@[simp] theorem State.charge_seqs (c a n : Nat) : (s.charge c a n).seqs = s.seqs := by unfold State.charge; split <;> simp
@[simp] theorem State.heldWait_seqs (c a : Nat) : (s.heldWait c a).seqs = s.seqs := by unfold State.heldWait; split <;> simp
@[simp] theorem State.raiseRated_seqs (source kind ctx dtype detail : Nat) :
    (s.raiseRated source kind ctx dtype detail).seqs = s.seqs := by unfold State.raiseRated; split <;> simp
@[simp] theorem State.irq_seqs (w : Nat) : (s.irq w).seqs = s.seqs := by unfold State.irq; split <;> simp
@[simp] theorem State.complete_seqs (m : Msg) (handler : Nat) (st : Status) (body : List Byte) :
    (s.complete m handler st body).seqs = s.seqs := by unfold State.complete; split <;> simp
@[simp] theorem State.route_seqs (m : Msg) : (s.route m).seqs = s.seqs := by unfold State.route; split <;> simp
@[simp] theorem State.khanFail_seqs (c : Nat) (f : KhanFail) : (s.khanFail c f).seqs = s.seqs := by
  unfold State.khanFail; split <;> simp
@[simp] theorem State.khanAlloc_seqs (c tier die engine n : Nat) : (s.khanAlloc c tier die engine n).2.seqs = s.seqs := by
  unfold State.khanAlloc
  dsimp only
  split
  · exact State.khanFail_seqs ..
  · rfl
  · rfl
theorem State.seqs_of_khanAlloc {s t : State} {c tier die engine n : Nat} {o : Option (Nat × Nat)}
    (h : s.khanAlloc c tier die engine n = (o, t)) : t.seqs = s.seqs := by
  simpa [h] using s.khanAlloc_seqs c tier die engine n
@[simp] theorem State.khanFree_seqs (h : Nat) : (s.khanFree h).seqs = s.seqs := by rfl
@[simp] theorem State.khanDrop_seqs (h : Nat) : (s.khanDrop h).seqs = s.seqs := by unfold State.khanDrop; split <;> simp
@[simp] theorem State.badFree_seqs (c a : Nat) : (s.badFree c a).seqs = s.seqs := by rfl
@[simp] theorem State.onOut_seqs (k : Nat) (f : PathOut → PathOut) : (s.onOut k f).seqs = s.seqs := by rfl
@[simp] theorem State.sendMsg_seqs (dst type ctx : Nat) (fields : List Nat) (body : List Byte) :
    (s.sendMsg dst type ctx fields body).seqs = s.seqs := by unfold State.sendMsg; split <;> simp
@[simp] theorem State.sendOpen_seqs (dst type ctx : Nat) (fields : List Nat) (data : List Byte) :
    (s.sendOpen dst type ctx fields data).seqs = s.seqs := by simp [State.sendOpen]
@[simp] theorem State.sendGuide_seqs (ctx : Nat) (fields : List Nat) (l : List Nat) :
    (s.sendGuide ctx fields l).seqs = s.seqs := by simp [State.sendGuide]
@[simp] theorem State.borrow_seqs (c lender base : Nat) : (s.borrow c lender base).seqs = s.seqs := by rfl
@[simp] theorem State.mergeChange_seqs (c : Nat) (m : Msg) : (s.mergeChange c m).seqs = s.seqs := by rfl
@[simp] theorem State.fitCopies_seqs (c n : Nat) : (s.fitCopies c n).2.seqs = s.seqs := by
  unfold State.fitCopies
  split
  · rfl
  · split
    · simp
    · next ht =>
      have ht := State.seqs_of_khanAlloc ht
      split
      · simp
      · next hu => simpa using (State.seqs_of_khanAlloc hu).trans ht
@[simp] theorem State.growCopies_seqs (c : Nat) : (s.growCopies c).seqs = s.seqs := by
  unfold State.growCopies; dsimp only; split <;> simp
@[simp] theorem State.flip_seqs (c t : Nat) : (s.flip c t).seqs = s.seqs := by simp [State.flip]
@[simp] theorem State.takeChange_seqs (c : Nat) (m : Msg) : (s.takeChange c m).seqs = s.seqs := by rfl
@[simp] theorem State.freeDeferred_seqs (c : Nat) : (s.freeDeferred c).seqs = s.seqs := by simp [State.freeDeferred]
@[simp] theorem State.releaseOld_seqs (c t : Nat) : (s.releaseOld c t).seqs = s.seqs := by
  unfold State.releaseOld; dsimp only; split <;> simp
@[simp] theorem State.flipIdle_seqs (c t : Nat) : (s.flipIdle c t).seqs = s.seqs := by unfold State.flipIdle; split <;> simp
@[simp] theorem State.guideChange_seqs (c : Nat) (g : GuideChange) : (s.guideChange c g).seqs = s.seqs := by
  unfold State.guideChange; split <;> simp
@[simp] theorem State.onResid_seqs (c : Nat) (f : Resid → Resid) : (s.onResid c f).seqs = s.seqs := by rfl
@[simp] theorem State.fetchRequest_seqs (c l e i prio die : Nat) : (s.fetchRequest c l e i prio die).seqs = s.seqs := by
  unfold State.fetchRequest; dsimp only; (repeat' split) <;> simp
@[simp] theorem State.onRx_seqs (c : Nat) (f : Rx → Rx) : (s.onRx c f).seqs = s.seqs := by rfl
@[simp] theorem State.handBatch_seqs (c : Nat) (b : Batch) (d : Nat) : (s.handBatch c b d).seqs = s.seqs := by
  unfold State.handBatch
  dsimp only
  rw [State.onResid_seqs, State.bumpCtx_seqs, State.bumpCtx_seqs]
  exact (seqs_foldl _ _ fun t p => seqs_foldl _ _ fun v _ => by rfl).trans (seqs_foldl _ _ fun t x => by rfl)
@[simp] theorem handAll_seqs (c : Nat) (l : List Batch) : (handAll c l s).seqs = s.seqs := by
  induction l generalizing s with
  | nil => rfl
  | cons b r ih =>
    unfold handAll
    split
    · split <;> simp [ih]
    · exact ih s
@[simp] theorem State.settleRow_seqs (c l e i : Nat) : (s.settleRow c l e i).seqs = s.seqs := by
  unfold State.settleRow; split <;> simp
@[simp] theorem State.noteNow_seqs (src header : Nat) (entries : List Nat) : (s.noteNow src header entries).seqs = s.seqs := by
  unfold State.noteNow
  dsimp only
  split
  · rfl
  · split
    · rfl
    · rw [State.onRx_seqs, seqs_foldl _ _ fun t e => ?_]
      · rfl
      · split
        · rfl
        · split <;> simp
@[simp] theorem State.sendRefusal_seqs (bill code : Nat) :
    (s.sendRefusal bill code).seqs = s.seqs := by simp [State.sendRefusal]
@[simp] theorem State.acceptRow_seqs (src bill : Nat) (data : List Byte) : (s.acceptRow src bill data).seqs = s.seqs := by
  unfold State.acceptRow; dsimp only; split <;> simp
@[simp] theorem State.rowGone_seqs (c : Nat) (n : RxNote) (e i : Nat) : (s.rowGone c n e i).seqs = s.seqs := by
  unfold State.rowGone; split <;> simp
theorem State.rowNow_seqs {s t : State} {src bill : Nat} {data : List Byte} (h : s.rowNow src bill data = some t) :
    t.seqs = s.seqs := by
  unfold State.rowNow at h
  dsimp only at h
  split at h
  · cases h
    rfl
  · split at h
    · split at h <;> cases h <;> simp
    · split at h
      · cases h
        simp
      · split at h
        · cases h
          simp
        · split at h
          · cases h
            simp
          · split at h
            · split at h <;> cases h <;> simp
            · split at h <;> cases h
              simp
@[simp] theorem State.discardRows_seqs (c : Nat) (p : RxRow → Bool) (k : Option Ctr) :
    (s.discardRows c p k).seqs = s.seqs := by unfold State.discardRows; split <;> simp
@[simp] theorem State.settleNote_seqs (c : Nat) (n : RxNote) : (s.settleNote c n).seqs = s.seqs := by simp [State.settleNote]
@[simp] theorem State.retireNow_seqs (src c epoch : Nat) : (s.retireNow src c epoch).seqs = s.seqs := by
  unfold State.retireNow; split <;> simp
theorem State.heldNow_seqs {s t : State} {r : HeldRx} (h : s.heldNow r = some t) : t.seqs = s.seqs := by
  unfold State.heldNow at h
  split_ifs at h
  · exact State.rowNow_seqs h
  · cases h
    simp
  · cases h
    simp
theorem State.serveOne_seqs {s t : State} {l : List HeldRx} {blocked : List Nat} (h : s.serveOne l blocked = some t) :
    t.seqs = s.seqs := by
  induction l generalizing blocked with
  | nil => cases h
  | cons x r ih =>
    unfold State.serveOne at h
    split at h
    · exact ih h
    · split at h
      · next hx =>
        cases h
        simpa using State.heldNow_seqs hx
      · exact ih h
@[simp] theorem serveHeld_seqs (n : Nat) : (serveHeld n s).seqs = s.seqs := by
  induction n generalizing s with
  | zero => rfl
  | succ n ih =>
    unfold serveHeld
    split
    · next ht => exact (ih _).trans (State.serveOne_seqs ht)
    · rfl
@[simp] theorem State.serveRx_seqs : s.serveRx.seqs = s.seqs := by simp [State.serveRx]
@[simp] theorem State.guideAll_seqs (c : Nat) (g : GuideChange) : (s.guideAll c g).seqs = s.seqs := by simp [State.guideAll]
@[simp] theorem State.sendRemoval_seqs (o l e i : Nat) : (s.sendRemoval o l e i).seqs = s.seqs := by simp [State.sendRemoval]
@[simp] theorem State.removeHere_seqs (c l e i : Nat) : (s.removeHere c l e i).seqs = s.seqs := by
  unfold State.removeHere; dsimp only; split <;> simp
@[simp] theorem State.retire_seqs (o l e i : Nat) : (s.retire o l e i).seqs = s.seqs := by
  unfold State.retire; split <;> simp
@[simp] theorem State.announce_seqs (o l e i : Nat) (r : Replica) : (s.announce o l e i r).seqs = s.seqs := by
  unfold State.announce; split <;> simp
@[simp] theorem State.freeFrame_seqs (o l e i : Nat) : (s.freeFrame o l e i).seqs = s.seqs := by
  unfold State.freeFrame; split <;> simp
@[simp] theorem State.rebuildMirror_seqs (o l e : Nat) : (s.rebuildMirror o l e).seqs = s.seqs := by
  unfold State.rebuildMirror; split <;> simp
@[simp] theorem State.reloadHere_seqs (o l e die : Nat) :
    (s.reloadHere o l e die).seqs = s.seqs := by simp [State.reloadHere]
@[simp] theorem State.orderOne_seqs (c l e : Nat) (zero : Bool) : (s.orderOne c l e zero).seqs = s.seqs := by
  unfold State.orderOne; dsimp only; split <;> simp
@[simp] theorem orderUp_seqs (c l e w : Nat) (zero : Bool) (n : Nat) : (orderUp c l e w zero n s).seqs = s.seqs := by
  induction n generalizing s with
  | zero => rfl
  | succ n ih => simp [orderUp, ih]
@[simp] theorem dropDown_seqs (c l e w n : Nat) : (dropDown c l e w n s).seqs = s.seqs := by
  induction n generalizing s with
  | zero => rfl
  | succ n ih => unfold dropDown; split <;> simp [ih]
@[simp] theorem State.orderPlan_seqs (c : Nat) (zero : Bool) (k w : Nat) :
    (s.orderPlan c zero k w).seqs = s.seqs := by simp [State.orderPlan]
@[simp] theorem State.planReplicas_seqs (c : Nat) (zero : Bool) : (s.planReplicas c zero).seqs = s.seqs := by
  unfold State.planReplicas; split <;> simp
@[simp] theorem State.hintOne_seqs (c l e kind v : Nat) : (s.hintOne c l e kind v).2.seqs = s.seqs := by
  unfold State.hintOne; dsimp only; split_ifs <;> simp
@[simp] theorem hintRange_seqs (c l kind v : Nat) (es : List Nat) (a h : Nat) :
    (hintRange c l kind v es a h s).2.2.seqs = s.seqs := by
  induction es generalizing a h s with
  | nil => rfl
  | cons e r ih => simp [hintRange, ih]
@[simp] theorem State.retryHints_seqs (c : Nat) : (s.retryHints c).seqs = s.seqs := by simp [State.retryHints]
@[simp] theorem State.startMirrors_seqs (c : Nat) : (s.startMirrors c).seqs = s.seqs := by simp [State.startMirrors]
@[simp] theorem State.layoutAnswer_seqs (c : Nat) (st : Status) : (s.layoutAnswer c st).seqs = s.seqs := by
  unfold State.layoutAnswer; split <;> simp
@[simp] theorem State.onLanes_seqs (c : Nat) (f : Lanes → Lanes) : (s.onLanes c f).seqs = s.seqs := by rfl
@[simp] theorem State.passFrame_seqs (j : Nat) (f : Frame) : (s.passFrame j f).seqs = s.seqs := by
  unfold State.passFrame; dsimp only; split <;> simp
@[simp] theorem State.passImages_seqs (c : Nat) : (s.passImages c).seqs = s.seqs := by
  unfold State.passImages
  split
  · rfl
  · exact (seqs_foldl _ _ fun t f => State.passFrame_seqs t _ f).trans (seqs_foldl _ _ fun t k => by rfl)
@[simp] theorem State.seqHint_seqs (c q kind : Nat) : (s.seqHint c q kind).2.seqs = s.seqs := by
  unfold State.seqHint; dsimp only; split_ifs <;> simp
@[simp] theorem State.applyHeld_seqs (c : Nat) : (s.applyHeld c).seqs = s.seqs := by simp [State.applyHeld]
@[simp] theorem moveCols_seqs (c lender : Nat) (l : List Nat) : (moveCols c lender l s).seqs = s.seqs := by
  induction l generalizing s with
  | nil => rfl
  | cons n r ih => unfold moveCols; split <;> simp [ih]
@[simp] theorem moveSources_seqs (c : Nat) (b : Borrowed) (l : List Nat) : (moveSources c b l s).seqs = s.seqs := by
  induction l generalizing s with
  | nil => rfl
  | cons k r ih =>
    unfold moveSources
    split
    · exact ih s
    · split <;> simp [ih]
@[simp] theorem State.evacuate_seqs (c : Nat) (l : Borrowed) : (s.evacuate c l).seqs = s.seqs := by simp [State.evacuate]
@[simp] theorem State.recallHere_seqs (c lender base : Nat) : (s.recallHere c lender base).seqs = s.seqs := by
  unfold State.recallHere; split <;> simp
@[simp] theorem lotRequest_seqs (lender borrower c base : Nat) : (lotRequest lender borrower c base s).seqs = s.seqs := by
  unfold lotRequest; split <;> simp
@[simp] theorem lotRecall_seqs (lender c base : Nat) : (lotRecall lender c base s).seqs = s.seqs := by
  unfold lotRecall; (repeat' split) <;> simp
@[simp] theorem recallOverdue_seqs (base : Nat) : (recallOverdue base s).seqs = s.seqs := by
  unfold recallOverdue; split <;> simp
@[simp] theorem State.takeModel_seqs (c : Nat) (m : Model) (src : Tbl Source) : (s.takeModel c m src).seqs = s.seqs := by rfl
@[simp] theorem State.giveBack_seqs (b : Option (Nat × Nat × Nat × Nat)) : (s.giveBack b).seqs = s.seqs := by
  unfold State.giveBack; split <;> simp


end

end Machine
end Sys2Proof
end

section
/-! PROOFS. The teardown of a context, and what the end of a step leaves of it (15 R328, R330, R331). -/

namespace Sys2Proof
namespace Machine

section
variable {u s : State} {c : Nat}

/-! ### What work leaves of one context and one partition -/

theorem State.Works.ctxs (h : u.Works s) : s.ctxs.map Ctx.standing = u.ctxs.map Ctx.standing :=
  congrArg (fun x : List (CtxSt × Share × Nat × Nat) × List Part × Fabric × Lending × Boot => x.1) h.standing

theorem State.Works.parts (h : u.Works s) : s.parts.map Part.standing = u.parts.map Part.standing :=
  congrArg (fun x : List (CtxSt × Share × Nat × Nat) × List Part × Fabric × Lending × Boot => x.2.1) h.standing

theorem State.ctx_standing (s : State) (c : Nat) : (s.ctx c).standing = (s.ctxs.map Ctx.standing).getD c Ctx.fresh.standing :=
  (List.getD_map ..).symm

theorem State.part_standing (s : State) (p : Nat) : (s.part p).standing = (s.parts.map Part.standing).getD p (Part.fresh 8).standing :=
  (List.getD_map ..).symm

theorem State.Works.ctx (h : u.Works s) (c : Nat) : (s.ctx c).standing = (u.ctx c).standing := by
  rw [State.ctx_standing, State.ctx_standing, h.ctxs]

theorem State.Works.part (h : u.Works s) (p : Nat) : (s.part p).standing = (u.part p).standing := by
  rw [State.part_standing, State.part_standing, h.parts]

theorem State.Works.st (h : u.Works s) (c : Nat) : (s.ctx c).st = (u.ctx c).st := congrArg (·.1) (h.ctx c)

theorem State.Works.share (h : u.Works s) (c : Nat) : (s.ctx c).share = (u.ctx c).share := congrArg (·.2.1) (h.ctx c)

theorem State.Works.tornAt (h : u.Works s) (c : Nat) : (s.ctx c).tornAt = (u.ctx c).tornAt := congrArg (·.2.2.1) (h.ctx c)

theorem State.Works.returnUs (h : u.Works s) (c : Nat) : (s.ctx c).returnUs = (u.ctx c).returnUs := congrArg (·.2.2.2) (h.ctx c)

theorem State.Works.length (h : u.Works s) : s.ctxs.length = u.ctxs.length := by
  have hlength := congrArg List.length h.ctxs
  rwa [List.length_map, List.length_map] at hlength

theorem State.lt_of_active (h : (s.ctx c).st ≠ .free) : c < s.ctxs.length := by
  by_contra hout
  exact h (by rw [State.ctx, List.getD_eq_default _ _ (by omega)]; rfl)

/-! ### Teardown -/

/-- The context is marked, its messages are answered and its work is killed. -/
def State.abandoned (s : State) (c : Nat) : State :=
  ((s.onCtx c (fun x => { x with st := .teardown })).abortMsgs c .unavailable).killWork c

/-- Its shares are cleared, and the others are told. -/
def State.released (s : State) (c : Nat) : State :=
  let s2 := (s.abandoned c).clearShares c
  let s3 := (s2.ctx c).kv.lots.foldl (fun t l => t.sendOpen l.lender 0x31 c [0x12, l.base] []) s2
  (s3.passImages c).sendGuide c [0xA] (s3.ctx c).resid.resident

/-- What stays of a context. -/
def Ctx.torn (now : Nat) (x : Ctx) : Ctx := { Ctx.fresh with
  st := .teardown, share := x.share, tornAt := now, returnUs := x.returnUs
  rx := { Rx.fresh with areas := x.rx.areas }, resid := { Resid.fresh with resident := x.resid.resident } }

theorem State.tearDown_eq (hactive : (s.ctx c).st = .active) : s.tearDown c =
    ((s.released c).onCtx c (Ctx.torn s.now)).serveRx.bumpPart (s.ctx c).share.partition .teardowns 1 := by
  unfold State.tearDown State.released State.abandoned Ctx.torn
  exact if_neg (not_not.mpr hactive)

theorem State.abandoned_works (s : State) (c : Nat) : (s.onCtx c (fun x => { x with st := .teardown })).Works (s.abandoned c) :=
  State.killWork_works (State.abortMsgs_works (.refl _) ..) c

theorem State.released_works (s : State) (c : Nat) : (s.onCtx c (fun x => { x with st := .teardown })).Works (s.released c) := by
  refine State.sendGuide_works (State.passImages_works (works_foldl ?_ _ fun t l ht => State.sendOpen_works ht ..) c) ..
  exact State.clearShares_works (s.abandoned_works c) c

/-- R331: the sequences of the shares are gone. -/
theorem State.released_seqs (s : State) (c : Nat) : (s.released c).seqs = (s.abandoned c).seqs.drop (fun q _ =>
    decide ((s.ctx c).share.seqFirst ≤ q ∧ q < (s.ctx c).share.seqFirst + (s.ctx c).share.seqCount)) := by
  have hshare : ((s.abandoned c).ctx c).share = (s.ctx c).share := by
    rw [(s.abandoned_works c).share, State.ctx, State.onCtx, updAt_getD]
    split <;> rfl
  unfold State.released
  dsimp only
  rw [State.sendGuide_seqs, State.passImages_seqs, seqs_foldl _ _ fun t l => State.sendOpen_seqs t ..]
  rw [← hshare]
  rfl

/-- R330, R331: a torn down context. -/
theorem State.tearDown_tears (hactive : (s.ctx c).st = .active) :
    ((s.tearDown c).ctx c).standing = (.teardown, (s.ctx c).share, s.now, (s.ctx c).returnUs) ∧
    ∀ q, (s.ctx c).share.seqFirst ≤ q → q < (s.ctx c).share.seqFirst + (s.ctx c).share.seqCount → (s.tearDown c).seq q = Seq.fresh := by
  have hlt : c < s.ctxs.length := State.lt_of_active (by rw [hactive]; decide)
  have hreleased := s.released_works c
  have hserved : ((s.released c).onCtx c (Ctx.torn s.now)).Works (s.tearDown c) := by
    rw [State.tearDown_eq hactive]
    exact State.bumpPart_works (State.serveRx_works (.refl _)) ..
  constructor
  · have hmarked : ((s.onCtx c (fun x => { x with st := .teardown })).ctx c).standing =
        (.teardown, (s.ctx c).share, (s.ctx c).tornAt, (s.ctx c).returnUs) := by
      rw [State.ctx_onCtx _ _ _ _ hlt, if_pos rfl]
      rfl
    have hlt' : c < (s.released c).ctxs.length := by rwa [hreleased.length, State.onCtx, updAt_length]
    rw [hserved.ctx, State.ctx_onCtx _ _ _ _ hlt', if_pos rfl]
    have hshare := congrArg (·.2.1) ((hreleased.ctx c).trans hmarked)
    have hreturn := congrArg (·.2.2.2) ((hreleased.ctx c).trans hmarked)
    exact congrArg₂ (fun a b => (CtxSt.teardown, a, s.now, b)) hshare hreturn
  · intro q hfirst hlast
    rw [State.tearDown_eq hactive, State.seq, State.bumpPart_seqs, State.serveRx_seqs, State.onCtx_seqs, State.released_seqs]
    exact Tbl.getD_drop_of_dropped _ _ fun _ => decide_eq_true ⟨hfirst, hlast⟩

/-! ### The end of a step -/

/-- What a context is at: its step, its strings and commands, and a hold of its next step. -/
def Ctx.engaged (x : Ctx) : Steps × Lanes × Bool := (x.steps, x.lanes, x.held)

/-- What every context is at. -/
def State.engaged (s : State) : List (Steps × Lanes × Bool) := s.ctxs.map Ctx.engaged

theorem State.ctx_engaged_of {t : State} (h : t.engaged = s.engaged) (c : Nat) : (t.ctx c).engaged = (s.ctx c).engaged := by
  have hget (v : State) : (v.ctx c).engaged = v.engaged.getD c Ctx.fresh.engaged := (List.getD_map ..).symm
  rw [hget, hget, h]

theorem State.onCtx_engaged (c : Nat) {f : Ctx → Ctx} (hf : ∀ x, (f x).engaged = x.engaged) : (s.onCtx c f).engaged = s.engaged :=
  updAt_map_of_eq _ _ hf

theorem engaged_foldl {α : Type} {f : State → α → State} (hf : ∀ t a, (f t a).engaged = t.engaged) (l : List α) (s : State) :
    (l.foldl f s).engaged = s.engaged :=
  List.foldlRecOn (motive := fun t : State => t.engaged = s.engaged) _ _ rfl fun t ht a _ => (hf t a).trans ht

theorem State.bumpCtx_engaged (s : State) (c : Nat) (k : Ctr) (n : Nat) : (s.bumpCtx c k n).engaged = s.engaged :=
  State.onCtx_engaged c fun _ => by rfl

theorem State.khanDrop_engaged (s : State) (h : Nat) : (s.khanDrop h).engaged = s.engaged := by
  unfold State.khanDrop
  split
  · exact (State.bumpCtx_engaged ..).trans (State.onCtx_engaged _ fun _ => by rfl)
  · rfl

theorem State.freeCol_engaged (s : State) (c k col : Nat) : (s.freeCol c k col).engaged = s.engaged := by
  unfold State.freeCol
  exact (State.onCtx_engaged c fun _ => by rfl).trans (State.onCtx_engaged c fun _ => by rfl)

theorem State.freeBays_engaged (s : State) (c k : Nat) : (s.freeBays c k).engaged = s.engaged := by
  unfold State.freeBays
  refine engaged_foldl (fun t g => ?_) _ s
  exact t.freeCol_engaged ..

theorem State.sendOpen_ctxs (s : State) (dst type ctx : Nat) (fields : List Nat) (data : List Byte) :
    (s.sendOpen dst type ctx fields data).ctxs = s.ctxs := by
  rw [State.sendOpen_eq]

theorem State.checkQuarantine_engaged (s : State) (c : Nat) (z : LandBuf) : (s.checkQuarantine c z).engaged = s.engaged := by
  unfold State.checkQuarantine
  split
  · split
    · exact (State.khanDrop_engaged ..).trans (State.onCtx_engaged c fun _ => by rfl)
    · rfl
  · rfl

theorem State.quarantine_engaged (s : State) (c : Nat) : (s.quarantine c).engaged = s.engaged :=
  (engaged_foldl (fun t z => t.checkQuarantine_engaged c z) _ _).trans ((State.bumpCtx_engaged ..).trans
    (engaged_foldl (fun _ _ => State.onCtx_engaged c fun _ => by rfl) _ s))

theorem State.endPlans_engaged (s : State) (c : Nat) : (s.endPlans c).engaged = s.engaged :=
  (State.onCtx_engaged c fun _ => by rfl).trans (engaged_foldl State.khanDrop_engaged _ s)

theorem State.restoreEntry_engaged (s : State) (e : Entry) : (s.restoreEntry e).engaged = s.engaged := by
  unfold State.restoreEntry
  split <;> rfl

theorem State.releaseHeld_engaged (s : State) (c : Nat) : (s.releaseHeld c).engaged = s.engaged :=
  engaged_foldl (fun _ _ => by rfl) _ s

/-- Everything of a step but its mark is undone. -/
def State.stepUndone (s : State) (c : Nat) (m : Manifest) : State :=
  let s1 := (s.ctx c).layers.keys.foldl (fun t k => (t.freeBays c k).releaseSoft c k) s
  let s2 := (s.ctx c).unanswered.foldl (fun t d => t.sendOpen d 0x03 c [m.epoch] []) (s1.quarantine c)
  m.entries.foldl State.restoreEntry (s2.endPlans c)

theorem State.stepUndone_engaged (s : State) (c : Nat) (m : Manifest) : (s.stepUndone c m).engaged = s.engaged := by
  refine (engaged_foldl State.restoreEntry_engaged _ _).trans ((State.endPlans_engaged ..).trans ?_)
  refine (engaged_foldl (fun t d => congrArg (List.map Ctx.engaged) (t.sendOpen_ctxs ..)) _ _).trans ?_
  refine (State.quarantine_engaged ..).trans (engaged_foldl (fun t k => ?_) _ s)
  exact (State.onCtx_engaged c fun _ => by rfl).trans (State.freeBays_engaged ..)

/-- A context whose step is killed. -/
def Ctx.stepKilled (epoch : Nat) (x : Ctx) : Ctx := { x with
  layers := [], steps := { x.steps with man := none, stalled := false, killedMask := x.steps.killedMask ||| 2 ^ epoch } }

/-- R328: a killed step is gone, and its epoch is marked. -/
theorem State.killStep_engaged {m : Manifest} (hman : (s.ctx c).steps.man = some m) :
    (s.killStep c).engaged = ((s.stepUndone c m).onCtx c (Ctx.stepKilled m.epoch)).engaged := by
  unfold State.killStep
  rw [hman]
  dsimp only
  split
  · refine (State.releaseHeld_engaged ..).trans ?_
    split
    · exact (State.bumpCtx_engaged ..).trans (State.bumpCtx_engaged ..)
    · exact State.bumpCtx_engaged ..
  · split
    · exact (State.bumpCtx_engaged ..).trans (State.bumpCtx_engaged ..)
    · exact State.bumpCtx_engaged ..

theorem State.lt_of_man {m : Manifest} (hman : (s.ctx c).steps.man = some m) : c < s.ctxs.length := by
  by_contra hout
  rw [State.ctx, List.getD_eq_default _ _ (by omega)] at hman
  cases hman

theorem State.killStep_kills {m : Manifest} (hman : (s.ctx c).steps.man = some m) :
    ((s.killStep c).ctx c).engaged = ((s.ctx c).stepKilled m.epoch).engaged := by
  have hlength := congrArg List.length (s.stepUndone_engaged c m)
  rw [State.engaged, State.engaged, List.length_map, List.length_map] at hlength
  have hctx := State.ctx_engaged_of (s.stepUndone_engaged c m) c
  rw [State.ctx_engaged_of (State.killStep_engaged hman), State.ctx_onCtx _ _ _ _ (hlength ▸ State.lt_of_man hman), if_pos rfl]
  exact congrArg (fun e : Steps × Lanes × Bool => ({ e.1 with
    man := none, stalled := false, killedMask := e.1.killedMask ||| 2 ^ m.epoch }, e.2)) hctx

end

end Machine
end Sys2Proof
end

section
/-! PROOFS. Partitions, Toll Gates and slices (15 R317, R318, R320, R321, R325, R333, R335). -/

namespace Sys2Proof
namespace Machine

section
variable {w p : Nat} {m : Msg} {s : State}

/-! ### Messages -/

theorem part_config {flags first count past : Nat} (htakes : Takes s w 0x0500 m)
    (hspells : Spells [.u8, .u32, .u16, .u16, .u32] m [p, flags, first, count, past]) (hflags : flags < 4) (hp : p ≤ 7)
    (hcores : first + count ≤ 512) (hpast : past ≤ 100000) (hapart : ∀ q < 8, q ≠ p → (s.part q).enabled = true →
      setsMeet first count (s.part q).coreFirst (s.part q).coreCount = false) (hempty : s.ctxsOf p = []) :
    exec (.pmpPartConfig w) s = .next (answered (s.onPart p (fun r => { r with
      enabled := flags.testBit 0, sched := flags.testBit 1, coreFirst := first, coreCount := count, overrunUs := past }))
      m 0x0500 []) := by
  have hmeet : ((List.range 8).any (fun q => q != p && (s.part q).enabled
      && setsMeet first count (s.part q).coreFirst (s.part q).coreCount)) = false := by
    refine List.any_eq_false.mpr fun q hq => ?_
    simp only [Bool.and_eq_true, bne_iff_ne, not_and, and_imp]
    intro hne hon
    simp [hapart q (List.mem_range.mp hq) hne hon]
  have hflags' : flagsBad flags 2 = false := by simp [flagsBad]; omega
  change Host.Outcome.next (commitMsg w 0x0500 (withReq _ partConfig) s) = _
  rw [commitReq_outcome _ htakes hspells, partConfig]
  rw [checked_pass _ _ (by simp [hmeet, hflags', hempty]; omega)]
  rfl

theorem part_config_busy {past c : Nat} (htakes : Takes s w 0x0500 m) (hp : p ≤ 7) (hpast : past ≤ 100000) (hc : c ∈ s.ctxsOf p)
    (hspells : Spells [.u8, .u32, .u16, .u16, .u32] m [p, 0, 0, 0, past]) (hon : (s.part p).enabled = true) :
    exec (.pmpPartConfig w) s = .next (s.complete m fwQuarter .busy []) := by
  have hsome : (s.ctxsOf p).isEmpty = false := by
    rw [List.isEmpty_eq_false_iff]
    exact List.ne_nil_of_mem hc
  have hmeet (q : Nat) : setsMeet 0 0 (s.part q).coreFirst (s.part q).coreCount = false := by simp [setsMeet]
  have hbad : firstBad [(flagsBad 0 2, Status.format), (decide (p > 7 ∨ 0 + 0 > 512 ∨ past > 100000), .bounds),
      ((List.range 8).any (fun q => q != p && (s.part q).enabled
        && setsMeet 0 0 (s.part q).coreFirst (s.part q).coreCount), .bounds),
      (((s.part p).enabled != bit 0 0 || (s.part p).sched != bit 0 1 || (s.part p).coreFirst != 0 || (s.part p).coreCount != 0)
        && !(s.ctxsOf p).isEmpty, .busy)] = some .busy := by
    simp [firstBad, flagsBad, hmeet, hsome, hon, bit, Nat.not_lt.mpr hp, Nat.not_lt.mpr hpast]
  change Host.Outcome.next (commitMsg w 0x0500 (withReq _ partConfig) s) = _
  rw [commitReq_outcome _ htakes hspells, partConfig]
  rw [checked, hbad]
  rfl

theorem part_query (htakes : Takes s w 0x0501 m) (hspells : Spells [.u8] m [p]) (hp : p ≤ 7) :
    exec (.pmpPartQuery w) s = .next (answered s m 0x0501 ((.r 128, s.partRecord p) ::
      (List.range 7).map (fun g => (.u64, (s.gate p g).record)))) := by
  change Host.Outcome.next (commitMsg w 0x0501 (withReq _ partQuery) s) = _
  rw [commitReq_outcome _ htakes hspells, partQuery]
  rw [checked_pass _ _ (by simpa using hp)]
  rfl

theorem toll_config {g r : Nat} (htakes : Takes s w 0x0502 m) (hspells : Spells [.u8, .u8, .u64] m [p, g, r]) (hg : g ≤ 6)
    (hreserved : bits r 40 24 = 0) (hp : p ≤ 7) (hrate : 0 < bits r 0 16) (hburst : 4 ≤ bits r 16 16) (hweight : 0 < bits r 32 8) :
    exec (.pmpTollConfig w) s = .next (answered (s.onGate p g (fun x => { x with
      rate := bits r 0 16, burst := bits r 16 16, weight := bits r 32 8
      bucket := min x.bucket ((bits r 16 16 * 1024 : Nat) : Int) })) m 0x0502 []) := by
  change Host.Outcome.next (commitMsg w 0x0502 (withReq _ tollConfig) s) = _
  rw [commitReq_outcome _ htakes hspells, tollConfig]
  rw [checked_pass _ _ (by simp [hreserved]; omega)]
  rfl

theorem toll_stats (htakes : Takes s w 0x0503 m) (hspells : Spells [.u8] m [p]) (hp : p ≤ 7) :
    exec (.pmpTollStats w) s = .next (answered s m 0x0503 ((List.range 7).map (fun g => (.u64, (s.gate p g).bytes)) ++
      (List.range 7).map (fun g => (.u32, (s.gate p g).waits)) ++ ctrFlds (s.part p).ctr (partCtrs.drop 2))) := by
  change Host.Outcome.next (commitMsg w 0x0503 (withReq _ tollStats) s) = _
  rw [commitReq_outcome _ htakes hspells, tollStats]
  rw [checked_pass _ _ (by simpa using hp)]
  rfl

/-! ### Resets -/

/-- A Toll Gate after the reset of its partition. -/
def Gate.cleared (g : Gate) : Gate := { g with bucket := ((g.burst * 1024 : Nat) : Int), bytes := 0, waits := 0 }

theorem State.partClear_clears (hp : p < s.parts.length) : ((s.partClear p).part p).halted = false ∧ ((s.partClear p).part p).ctr = [] ∧
    (∀ g < (s.part p).gates.length, (s.partClear p).gate p g = (s.gate p g).cleared) ∧
    ((s.partClear p).part p).coreCount = (s.part p).coreCount := by
  have hpart := State.part_onPart s p p (fun r => { r with halted := false, ctr := [], gates := r.gates.map Gate.cleared }) hp
  rw [if_pos rfl] at hpart
  refine ⟨congrArg Part.halted hpart, congrArg Part.ctr hpart, fun g hg => ?_, ?_⟩
  case refine_2 =>
    have hcores := congrArg Part.coreCount hpart
    exact hcores
  refine (congrArg (fun r : Part => r.gates.getD g Gate.fresh) hpart).trans ?_
  simp [State.gate, List.getD_eq_getElem?_getD, hg]

theorem part_reset (htakes : Takes s w 0x0504 m) (hspells : Spells [.u8] m [p]) (hp : p ≤ 7) (hempty : s.ctxsOf p = []) :
    exec (.pmpPartReset w) s = .next (answered (s.partClear p) m 0x0504 []) := by
  change Host.Outcome.next (commitMsg w 0x0504 (withReq _ partReset) s) = _
  rw [commitReq_outcome _ htakes hspells, partReset, checked_pass _ _ (by simpa using hp), hempty]
  rfl

theorem part_reset_one {c : Nat} (htakes : Takes s w 0x0504 m) (hspells : Spells [.u8] m [p]) (hp : p ≤ 7) (hone : s.ctxsOf p = [c]) :
    exec (.pmpPartReset w) s = .next ((s.tearDown c).setPhase m .freeWait) := by
  change Host.Outcome.next (commitMsg w 0x0504 (withReq _ partReset) s) = _
  rw [commitReq_outcome _ htakes hspells, partReset, checked_pass _ _ (by simpa using hp), hone]
  rfl

/-! ### Slices -/

/-- A partition whose slice passes. -/
def Part.passed (c now : Nat) (more : List Overrun) (r : Part) : Part := { r with
  holder := c, sliceStart := now, overruns := r.overruns ++ more }

/-- R320: the next context of the slice order that is ready takes the slice. -/
theorem slicePass_passes {c : Nat} {more : List Overrun} (hlen : p < s.parts.length)
    (hslice : slicePass p s = ((s.onPart p (Part.passed c s.now more)).bumpPart p .slices 1).bumpPart p .sliceSkips
      (((s.sliceOrder p).takeWhile (fun d => d != c)).length)) :
    ((slicePass p s).part p).holder = c ∧ ((slicePass p s).part p).sliceStart = s.now ∧
    ((slicePass p s).part p).overruns = (s.part p).overruns ++ more ∧ (slicePass p s).mem = s.mem ∧ (slicePass p s).ctxs = s.ctxs ∧
    (slicePass p s).seqs = s.seqs := by
  have hstanding : ((slicePass p s).part p).standing = ((s.onPart p (Part.passed c s.now more)).part p).standing := by
    rw [hslice]
    exact State.Works.part (State.bumpPart_works (State.bumpPart_works (.refl _) ..) ..) p
  rw [State.part_onPart _ _ _ _ hlen, if_pos rfl] at hstanding
  rw [hslice] at hstanding ⊢
  exact ⟨congrArg Part.holder hstanding, congrArg Part.sliceStart hstanding, congrArg Part.overruns hstanding, rfl, rfl, rfl⟩

end

/-! ### Overruns -/

theorem updAt_congr {α : Type} {l : List α} {i : Nat} {f g : α → α} (d : α) (h : f (l.getD i d) = g (l.getD i d)) :
    updAt l i f = updAt l i g := by
  refine List.ext_getElem? fun j => ?_
  rw [updAt_getElem?, updAt_getElem?]
  by_cases hj : j = i
  · subst hj
    rw [if_pos rfl, if_pos rfl]
    cases hget : l[j]? with
    | none => rfl
    | some a => simpa [List.getD_eq_getElem?_getD, hget] using h
  · rw [if_neg (Ne.symm hj), if_neg (Ne.symm hj)]

theorem State.onPart_congr {s : State} {p : Nat} {f g : Part → Part} (h : f (s.part p) = g (s.part p)) : s.onPart p f = s.onPart p g :=
  congrArg (fun l => { s with parts := l }) (updAt_congr (Part.fresh 8) h)

section
variable {p : Nat} {o : Overrun} {s : State}

theorem overrunDeadline_takes (hone : (s.part p).overruns = [o]) (hdue : o.deadline < s.now) : overrunDeadline p s =
    if (s.ctx o.ctx).st = .active then
      ((s.onPart p (fun r => { r with overruns := [] })).killSlice o.ctx o.slice).bumpPart p .overrunKills (s.startedIn o.ctx o.slice)
    else s.onPart p (fun r => { r with overruns := [] }) := by
  have hgone : s.onPart p (fun r => { r with overruns := eraseFirst (fun q => decide (q = o)) r.overruns }) =
      s.onPart p (fun r => { r with overruns := [] }) :=
    State.onPart_congr (by simp only [hone, eraseFirst, decide_true, if_true])
  unfold overrunDeadline
  rw [hone, List.find?_cons_of_pos (by simpa using hdue)]
  dsimp only
  rw [hgone]

/-- R321: a step that overran its slice is killed. -/
theorem State.killSlice_kills {c : Nat} {x : Manifest} (hman : (s.ctx c).steps.man = some x) (hlaunches : (s.ctx c).lanes.launches = []) :
    ((s.killSlice c (s.ctx c).steps.sliceAt).ctx c).steps = ((s.ctx c).stepKilled x.epoch).steps := by
  have hkilled := State.killStep_kills hman
  have hnone : ((s.killStep c).ctx c).lanes.launches = [] := (congrArg (·.2.1.launches) hkilled).trans hlaunches
  unfold State.killSlice
  rw [if_pos (by simp [hman])]
  dsimp only
  rw [hnone, List.filter_nil, List.foldl_nil]
  exact (congrArg Ctx.steps (State.ctx_still_of (State.killCmds_still ..) c)).trans (congrArg (·.1) hkilled)

theorem Part.overruns_of_standing {r r' : Part} (h : r.standing = r'.standing) : r.overruns = r'.overruns :=
  have h' := congrArg Part.overruns h
  h'

theorem State.ctx_bumpPart (s : State) (p c : Nat) (k : Ctr) (n : Nat) : (s.bumpPart p k n).ctx c = s.ctx c := rfl

theorem State.killSlice_works {u : State} (hs : u.Works s) (c t : Nat) : u.Works (s.killSlice c t) := by
  refine State.killCmds_works (works_foldl (works_ite (State.killStep_works hs c) hs) _ fun v l hv => ?_) ..
  exact State.killLaunch_works hv ..

end

/-- Settles O23. -/
theorem partitionMessages : Obligations.PartitionMessages := by
  unfold Obligations.PartitionMessages
  refine ⟨fun w p flags first count past m s htakes hspells hflags hp hcores hpast hapart hempty =>
      part_config htakes hspells hflags hp hcores hpast hapart hempty,
    fun w p past c m s htakes hp hpast hc hspells hon => part_config_busy htakes hp hpast hc hspells hon,
    fun w p m s htakes hspells hp => part_query htakes hspells hp,
    fun w p g r m s htakes hspells hg hreserved hp hrate hburst hweight => toll_config htakes hspells hg hreserved hp hrate hburst hweight,
    fun w p m s htakes hspells hp => toll_stats htakes hspells hp, fun w p m s htakes hspells hp hlen => ⟨fun hempty => ?_,
      fun c hone hactive hc => ?_⟩, fun p s hp hb hsched => ?_, fun p c s hp hlen hb hsched hrun hfree hnext => ?_,
    fun p c s hp hlen hb hsched hrun hactive hpart hlong hstarted hnext => ?_, fun p o s hlen hone hdue hidle => ?_,
    fun p o x s hlen hone hdue hc hactive hman hslice hlaunches hcmds => ?_⟩
  · obtain ⟨hhalted, hctr, hgates, hcores⟩ := State.partClear_clears hlen
    refine ⟨_, part_reset htakes hspells hp hempty, hhalted, hctr, fun g hg => ?_, hcores, rfl, rfl⟩
    rw [hgates g hg]
    exact ⟨rfl, rfl, rfl⟩
  · obtain ⟨hstanding, -⟩ := State.tearDown_tears hactive
    exact ⟨_, part_reset_one htakes hspells hp hone, congrArg (·.1) hstanding, congrArg (·.2.2.1) hstanding⟩
  · exact congrArg Host.Outcome.next (if_pos (.inr (.inl (by simp [hsched]))))
  · have hslice : slicePass p s = ((s.onPart p (Part.passed c s.now [])).bumpPart p .slices 1).bumpPart p .sliceSkips
        (((s.sliceOrder p).takeWhile (fun d => d != c)).length) := by
      unfold slicePass
      dsimp only
      rw [if_neg (by simp [hsched, hrun, hb]; omega), if_neg (by simp [hfree]), hnext]
      dsimp only
      rw [if_neg (by simp [hfree])]
      rfl
    obtain ⟨hholder, hstart, hover, hmem, hctxs, hseqs⟩ := slicePass_passes hlen hslice
    rw [List.append_nil] at hover
    exact ⟨_, rfl, hholder, hstart, hover, hmem, hctxs, hseqs⟩
  · have hslice : slicePass p s = ((s.onPart p (Part.passed c s.now [⟨(s.part p).holder, (s.part p).sliceStart,
        s.now + (s.part p).overrunUs * 1000⟩])).bumpPart p .slices 1).bumpPart p .sliceSkips
        (((s.sliceOrder p).takeWhile (fun d => d != c)).length) := by
      unfold slicePass
      dsimp only
      rw [if_neg (by simp [hsched, hrun, hb]; omega), if_neg (by simp; omega), hnext]
      dsimp only
      rw [if_pos (by simp [hactive, hpart, hstarted])]
      rfl
    obtain ⟨hholder, -, hover, hmem, hctxs, -⟩ := slicePass_passes hlen hslice
    exact ⟨_, rfl, hholder, hover, hmem, hctxs⟩
  · exact congrArg Host.Outcome.next ((overrunDeadline_takes hone hdue).trans (if_neg hidle))
  · have htakes := (overrunDeadline_takes hone hdue).trans (if_pos hactive)
    have hstanding := (State.bumpPart_works (State.killSlice_works (.refl (s.onPart p (fun r => { r with overruns := [] })))
      o.ctx o.slice) p .overrunKills (s.startedIn o.ctx o.slice)).part p
    have hkilled := State.killSlice_kills (s := s.onPart p (fun r => { r with overruns := [] })) hman hlaunches
    have hslice' : ((s.onPart p (fun r => { r with overruns := [] })).ctx o.ctx).steps.sliceAt = o.slice := hslice
    rw [hslice'] at hkilled
    rw [State.part_onPart _ _ _ _ hlen, if_pos rfl] at hstanding
    have hnone := Part.overruns_of_standing hstanding
    have hman' := congrArg Steps.man hkilled
    have hepoch := congrArg (fun z : Steps => z.killedMask.testBit x.epoch) hkilled
    refine ⟨_, congrArg Host.Outcome.next htakes, hnone, ?_, ?_⟩
    · rw [State.ctx_bumpPart]
      exact hman'
    · rw [State.ctx_bumpPart]
      exact hepoch.trans (by simp [Ctx.stepKilled, Nat.testBit_two_pow_self])

end Machine
end Sys2Proof
end

section
/-! PROOFS. Contexts: creation, destruction, kills, holds and the end of a teardown (15 R322 to R324, R328, R330, R331, R382). -/

namespace Sys2Proof
namespace Machine

section
variable {w c x : Nat} {m : Msg} {s : State}

/-! ### Creation -/

theorem State.sendGuide_ctxs (s : State) (c : Nat) (fields l : List Nat) : (s.sendGuide c fields l).ctxs = s.ctxs :=
  List.foldlRecOn (motive := fun t : State => t.ctxs = s.ctxs) _ _ rfl fun t ht _ _ => (t.sendOpen_ctxs ..).trans ht

/-- R322: a context is made, and an idle partition that is sliced is its. -/
def State.created (s : State) (h : Share) (ring : Nat) (u0 u1 : List Nat) (u2 : List (List Nat)) : State :=
  let y := s.newCtx h ring u0 u1 u2
  let s1 := ((s.onCtx h.ctx (fun _ => y)).onWs y.lanes.layoutWs (fun _ => layoutQueue h.ctx)).freed
  let s2 := if (s.part h.partition).sched && (s.ctxsOf h.partition).isEmpty then
      (s1.onPart h.partition (fun r => { r with holder := h.ctx, sliceStart := s.now })).bumpPart h.partition .slices 1
    else s1
  s2.sendGuide h.ctx [0xB, h.rxMib * mib] s.others

variable {ring : Nat} {u0 u1 : List Nat} {u2 : List (List Nat)} {h : Share}

theorem State.created_ctxs : (s.created h ring u0 u1 u2).ctxs = (s.onCtx h.ctx (fun _ => s.newCtx h ring u0 u1 u2)).ctxs := by
  unfold State.created
  refine (State.sendGuide_ctxs ..).trans ?_
  split <;> rfl

theorem State.created_mem : (s.created h ring u0 u1 u2).mem = s.mem := by
  unfold State.created
  refine (State.mem_of_form (State.sendGuide_form ..)).trans ?_
  split <;> rfl

theorem State.created_seqs : (s.created h ring u0 u1 u2).seqs = s.seqs := by
  unfold State.created
  refine (State.sendGuide_seqs ..).trans ?_
  split <;> rfl

theorem State.created_ctx (hlen : h.ctx < s.ctxs.length) (k : Nat) :
    (s.created h ring u0 u1 u2).ctx k = if k = h.ctx then s.newCtx h ring u0 u1 u2 else s.ctx k := by
  rw [State.ctx, State.created_ctxs]
  have hctx := State.ctx_onCtx s h.ctx k (fun _ => s.newCtx h ring u0 u1 u2) hlen
  by_cases hk : h.ctx = k
  · rw [if_pos hk] at hctx
    rw [if_pos hk.symm]
    exact hctx
  · rw [if_neg hk] at hctx
    rw [if_neg (Ne.symm hk)]
    exact hctx

theorem ctx_create (htakes : Takes s w 0x0508 m) (hspells : Spells [.r 512] m [x]) (hreserved : shareReserved x = false)
    (hadmitted : (s.admitted m.sess).testBit (Share.read x).partition = true)
    (hon : (s.part (Share.read x).partition).enabled = true) (hruns : (s.part (Share.read x).partition).halted = false)
    (hcores : (s.part (Share.read x).partition).coreCount ≠ 0) (hfree : (s.ctx (Share.read x).ctx).st = .free)
    (hbounds : s.shareBounds (Share.read x) = false) (hmemory : s.shareMemory (Share.read x) = false)
    (hunits : s.shareUnits (Share.read x) = some (ring, u0, u1, u2)) :
    exec (.pmpCtxCreate w) s = .next (answered (s.created (Share.read x) ring u0 u1 u2) m 0x0508 []) := by
  change Host.Outcome.next (commitMsg w 0x0508 (withReq _ ctxCreate) s) = _
  rw [commitReq_outcome _ htakes hspells, ctxCreate]
  rw [checked_pass _ _ (by simp [hreserved, hadmitted, hon, hruns, hcores, hfree, hbounds, hmemory]), hunits]
  rfl

theorem ctx_create_busy (htakes : Takes s w 0x0508 m) (hspells : Spells [.r 512] m [x]) (hreserved : shareReserved x = false)
    (hadmitted : (s.admitted m.sess).testBit (Share.read x).partition = true)
    (hon : (s.part (Share.read x).partition).enabled = true) (hruns : (s.part (Share.read x).partition).halted = false)
    (hcores : (s.part (Share.read x).partition).coreCount ≠ 0) (hused : (s.ctx (Share.read x).ctx).st ≠ .free) :
    exec (.pmpCtxCreate w) s = .next (s.complete m fwQuarter .busy []) := by
  have hbad (b1 b2 : Bool) : firstBad [(shareReserved x, Status.format),
      (!(s.admitted m.sess).testBit (Share.read x).partition, .denied),
      (!(s.part (Share.read x).partition).enabled || (s.part (Share.read x).partition).halted
        || (s.part (Share.read x).partition).coreCount == 0, .unavailable),
      ((s.ctx (Share.read x).ctx).st != .free, .busy), (b1, .bounds), (b2, .noMemory)] = some .busy := by
    simp [firstBad, hreserved, hadmitted, hon, hruns, hcores, hused]
  change Host.Outcome.next (commitMsg w 0x0508 (withReq _ ctxCreate) s) = _
  rw [commitReq_outcome _ htakes hspells, ctxCreate]
  rw [checked, hbad]
  rfl

/-! ### The other messages -/

theorem ctx_destroy (htakes : Takes s w 0x0509 m) (hspells : Spells [.u8] m [c]) (hadmits : Admits s m c) :
    exec (.pmpCtxDestroy w) s = .next ((s.tearDown c).setPhase m .freeWait) := by
  change Host.Outcome.next (commitMsg w 0x0509 (withCtx _ ctxDestroy) s) = _
  rw [commitCtx_outcome _ htakes hspells hadmits]
  rfl

theorem ctx_query (htakes : Takes s w 0x050A m) (hspells : Spells [.u8] m [c]) (hc : c ≤ 15)
    (howned : (s.ctx c).st = .free ∨ s.owns m.sess c = true) : exec (.pmpCtxQuery w) s =
      .next (answered s m 0x050A [(.u8, ctxCode (s.ctx c).st), (.r 512, (s.ctx c).share.pack)]) := by
  change Host.Outcome.next (commitMsg w 0x050A (withReq _ ctxQuery) s) = _
  rw [commitReq_outcome _ htakes hspells, ctxQuery]
  rw [checked_pass _ _ (by rcases howned with h | h <;> simp [h, hc])]
  rfl

theorem step_kill {epoch flags : Nat} {x : Manifest} (htakes : Takes s w 0x0510 m) (hspells : Spells [.u8, .u16, .u32] m [c, epoch, flags])
    (hadmits : Admits s m c) (hflags : flags < 2) (hman : (s.ctx c).steps.man = some x) (hepoch : x.epoch = epoch) :
    exec (.pmpStepKill w) s = .next (answered ((s.killStep c).onCtx c (fun x => { x with held := x.held || bit flags 0 })) m 0x0510 []) := by
  change Host.Outcome.next (commitMsg w 0x0510 (withCtx _ stepKill) s) = _
  rw [commitCtx_outcome _ htakes hspells hadmits, stepKill]
  rw [checked_pass _ _ (by simp [flagsBad, hflags]), if_pos (by simp [hman, hepoch])]
  rfl

theorem step_kill_done {epoch flags : Nat} (htakes : Takes s w 0x0510 m) (hspells : Spells [.u8, .u16, .u32] m [c, epoch, flags])
    (hadmits : Admits s m c) (hflags : flags < 2) (hother : ∀ x, (s.ctx c).steps.man = some x → x.epoch ≠ epoch)
    (hdone : (s.ctx c).steps.doneMask.testBit epoch = true) :
    exec (.pmpStepKill w) s = .next (s.complete m fwCaravan .cancelled []) := by
  change Host.Outcome.next (commitMsg w 0x0510 (withCtx _ stepKill) s) = _
  rw [commitCtx_outcome _ htakes hspells hadmits, stepKill]
  rw [checked_pass _ _ (by simp [flagsBad, hflags]), if_neg (by simpa using hother), if_pos hdone]
  rfl

theorem ctx_resume (htakes : Takes s w 0x0511 m) (hspells : Spells [.u8] m [c]) (hadmits : Admits s m c) :
    exec (.pmpCtxResume w) s = .next (answered (s.onCtx c (fun x => { x with held := false })) m 0x0511 []) := by
  change Host.Outcome.next (commitMsg w 0x0511 (withCtx _ ctxResume) s) = _
  rw [commitCtx_outcome _ htakes hspells hadmits]
  rfl

/-- R328: what a context is at after its step was killed, with a hold. -/
theorem State.killStep_held {x : Manifest} (hman : (s.ctx c).steps.man = some x) (b : Bool) :
    (((s.killStep c).onCtx c (fun x => { x with held := x.held || b })).ctx c).engaged =
      (((s.ctx c).stepKilled x.epoch).steps, (s.ctx c).lanes, (s.ctx c).held || b) := by
  have hkilled := State.killStep_kills hman
  have hlength := State.ctxs_length_of_form (State.killStep_form s c)
  rw [State.ctx_onCtx _ _ _ _ (hlength ▸ State.lt_of_man hman), if_pos rfl]
  exact congrArg (fun e : Steps × Lanes × Bool => (e.1, e.2.1, e.2.2 || b)) hkilled

/-! ### The end of a teardown -/

/-- A context that is free again. -/
def Ctx.vacated (x : Ctx) : Ctx := { Ctx.fresh with
  rx := { Rx.fresh with areas := x.rx.areas }, resid := { Resid.fresh with resident := x.resid.resident } }

theorem teardownFree_frees (hst : (s.ctx c).st = .teardown) (hdue : (s.ctx c).tornAt + (s.ctx c).returnUs * 1000 + 1000000 ≤ s.now) :
    teardownFree c s = ((s.host.msgs.filter (freeWaits 0x0509 c)).foldl (fun t m => t.complete m (owner m.op) .ok [])
      (s.onCtx c Ctx.vacated)).endResets (s.ctx c).share.partition := by
  unfold teardownFree
  exact if_pos ⟨hst, hdue⟩

theorem State.endResets_of_none {p : Nat} (hnone : s.host.msgs = []) : s.endResets p = s := by
  unfold State.endResets
  rw [hnone]
  rfl

theorem teardownFree_alone (hst : (s.ctx c).st = .teardown) (hdue : (s.ctx c).tornAt + (s.ctx c).returnUs * 1000 + 1000000 ≤ s.now)
    (hnone : s.host.msgs = []) : teardownFree c s = s.onCtx c Ctx.vacated := by
  rw [teardownFree_frees hst hdue, hnone]
  exact State.endResets_of_none hnone

theorem freeWaits_self (hop : m.op = 0x0509) (hwaits : m.phase = .freeWait) (hc : m.num 0 1 = c) : freeWaits 0x0509 c m = true := by
  simp [freeWaits, hop, hwaits, hc]

theorem State.complete_only (hone : s.host.msgs = [m]) (p : Nat) (st : Status) (body : List Byte) :
    (s.complete m p st body).host.msgs = [] ∧ ((s.complete m p st body).win m.win).done = true ∧
    ((s.complete m p st body).win m.win).owner = false ∧ (s.complete m p st body).ctxs = s.ctxs := by
  obtain ⟨h, o, f, -, -, -, -, -, -, -, -, -, hcomplete⟩ := s.complete_eq m p st body
  rw [hcomplete, hone]
  simp [State.win, eraseFirst]

theorem teardownFree_answers (hst : (s.ctx c).st = .teardown) (hdue : (s.ctx c).tornAt + (s.ctx c).returnUs * 1000 + 1000000 ≤ s.now)
    (hone : s.host.msgs = [m]) (hfree : freeWaits 0x0509 c m = true) :
    teardownFree c s = (s.onCtx c Ctx.vacated).complete m (owner m.op) .ok [] := by
  rw [teardownFree_frees hst hdue, hone, List.filter_cons_of_pos hfree, List.filter_nil, List.foldl_cons, List.foldl_nil]
  have hone' : (s.onCtx c Ctx.vacated).host.msgs = [m] := hone
  exact State.endResets_of_none (State.complete_only hone' ..).1

theorem State.ctx_vacated (hlen : c < s.ctxs.length) : (s.onCtx c Ctx.vacated).ctx c = (s.ctx c).vacated := by
  rw [State.ctx_onCtx _ _ _ _ hlen, if_pos rfl]

end

/-- Settles O24. -/
theorem contextMessages : Obligations.ContextMessages := by
  unfold Obligations.ContextMessages
  refine ⟨fun w x ring u0 u1 u2 m s htakes hspells => ?_, fun w x m s htakes hspells => ?_, fun w c m s htakes hspells hadmits hactive => ?_,
    fun w c m s htakes hspells hc howned => ctx_query htakes hspells hc howned,
    fun w c epoch flags x m s htakes hspells hadmits hflags hman hepoch => ?_,
    fun w c epoch flags m s htakes hspells hadmits hflags hother hdone => step_kill_done htakes hspells hadmits hflags hother hdone,
    fun w c m s htakes hspells hadmits => ctx_resume htakes hspells hadmits, fun c s _ hlen hst hdue hnone => ?_,
    fun c m s _ hlen hst hdue hone hop hwaits hc _ => ?_, fun c s hst hearly => ?_, fun c s hlen hst hstuck hlate => ?_⟩
  · intro h hreserved hadmitted hon hruns hcores hlen hfree hbounds hmemory hunits
    have hctx := State.created_ctx (ring := ring) (u0 := u0) (u1 := u1) (u2 := u2) hlen
    have hnew := (hctx h.ctx).trans (if_pos rfl)
    refine ⟨_, ctx_create htakes hspells hreserved hadmitted hon hruns hcores hfree hbounds hmemory hunits, ?_, ?_, ?_, ?_, ?_, ?_, ?_,
      fun k hk => (hctx k).trans (if_neg hk), State.created_mem, State.created_seqs⟩
    case refine_7 =>
      refine (congrArg (fun y : Ctx => y.rx.areas.getD s.board.pkgId 0) hnew).trans ?_
      exact Tbl.getD_put_same ..
    all_goals exact (by rw [hnew]; rfl)
  · intro h hreserved hadmitted hon hruns hcores hused
    exact ctx_create_busy htakes hspells hreserved hadmitted hon hruns hcores hused
  · obtain ⟨hstanding, hgone⟩ := State.tearDown_tears hactive
    exact ⟨_, ctx_destroy htakes hspells hadmits, congrArg (·.1) hstanding, congrArg (·.2.2.1) hstanding, congrArg (·.2.1) hstanding,
      hgone⟩
  · have hheld := State.killStep_held hman (bit flags 0)
    have hman' := congrArg (fun e => e.1.man) hheld
    have hmask := congrArg (fun e => e.1.killedMask.testBit epoch) hheld
    have hdone := congrArg (fun e => e.1.doneMask) hheld
    refine ⟨_, step_kill htakes hspells hadmits hflags hman hepoch, hman', hmask.trans ?_, hdone, fun hone => ?_⟩
    · simp [Ctx.stepKilled, hepoch, Nat.testBit_two_pow_self]
    · refine (congrArg (·.2.2) hheld).trans ?_
      simp [hone, bit]
  · have hctx := State.ctx_vacated hlen
    refine ⟨_, congrArg Host.Outcome.next (teardownFree_alone hst hdue hnone), by rw [hctx]; rfl, by rw [hctx]; rfl, by rw [hctx]; rfl,
      fun k hk => ?_, rfl, rfl⟩
    rw [State.ctx_onCtx _ _ _ _ hlen, if_neg (Ne.symm hk)]
  · have hone' : (s.onCtx c Ctx.vacated).host.msgs = [m] := hone
    obtain ⟨hmsgs, hdone, howner, hctxs⟩ := State.complete_only hone' (owner m.op) .ok []
    refine ⟨_, congrArg Host.Outcome.next (teardownFree_answers hst hdue hone (freeWaits_self hop hwaits hc)), ?_, hdone, howner, hmsgs⟩
    have hctx := State.ctx_vacated hlen
    rw [State.ctx, hctxs]
    exact congrArg Ctx.st hctx
  · exact congrArg Host.Outcome.next (if_neg fun h => by omega)
  · refine ⟨_, congrArg Host.Outcome.next (if_pos ⟨hst, by simp [hstuck], hlate⟩), _, rfl, rfl, rfl, rfl, rfl⟩

end Machine
end Sys2Proof
end

section
/-! PROOFS. `PMP_KERNEL_KILL` (8 R191): it answers from the state that the launch is known by after the kill, and a launch that waits
for the acknowledgements of its stores keeps the state it had. -/

namespace Sys2Proof
namespace Machine

/-! ### The status of an answer -/

/-- Header of the response to a message. -/
def Msg.answer (m : Msg) (p : Nat) (st : Status) (body : List Byte) : Header :=
  ⟨m.op, st.code, body.length, 0, m.sess, m.tag, m.major, m.minor, true, m.crcEn, p, 0, m.stamp,
    if m.crcEn then Num.crc32c body else 0, 0⟩

theorem State.complete_host_wins (s : State) (m : Msg) (p : Nat) (st : Status) (body : List Byte) :
    (s.complete m p st body).host.wins = s.host.wins.setD Win.fresh m.win
      { s.win m.win with resp := (m.answer p st body).write ++ body, done := true, owner := false } := by
  unfold State.complete
  simp only [State.irq_eq]
  split <;> split <;> split <;> rfl

theorem State.complete_resp (s : State) (m : Msg) (p : Nat) (st : Status) (body : List Byte) :
    ((s.complete m p st body).win m.win).resp = (m.answer p st body).write ++ body := by
  rw [State.win, State.complete_host_wins, Tbl.getD_setD_same]

/-! ### The kill of a known launch -/

theorem kernel_kill {w c id : Nat} {m : Msg} {l : Launch} {s : State} (htakes : Takes s w 0x0624 m)
    (hspells : Spells [.u8, .u32] m [c, id]) (hadmits : Admits s m c) (hl : (s.ctx c).launch id = some l) :
    exec (.pmpKernelKill w) s =
      if ((s.killLaunch c id 3).ctx c).launchState id = some 2 then .next ((s.killLaunch c id 3).complete m fwSteward .cancelled [])
      else .next (answered (s.killLaunch c id 3) m 0x0624 []) := by
  change Host.Outcome.next (commitMsg w 0x0624 (withCtx _ kernelKill) s) = _
  rw [commitCtx_outcome _ htakes hspells hadmits, kernelKill, if_pos (by simp [hl])]
  dsimp only
  split <;> rfl

/-! ### The state that refutes O26 -/

/-- `PMP_KERNEL_KILL` of launch 0 of context 0 from window 0, routed to Steward. -/
def killZero : Msg := ⟨0, 0x0624, 1, 0, 3, 2, 0, List.replicate 8 0, .routed, false, false, 0, 0⟩

/-- A string that waits for the acknowledgement of a store to package 1. -/
def storingStr : Str := ⟨1, 0, false, 0, 0, [], [], [], 0, .none, [(8, 1)]⟩

/-- A launch in flight in state 2, whose one string waits for the acknowledgement of a store. -/
def storingLaunch : Launch := ⟨0, 0x100, 1, false, 1, 0, 0, 1, false, 0, 0, 0, 2, 0, 0, 0, 0, [storingStr], 0, 0, none⟩

/-- Context 0 has that launch, and `killZero` of a session that may manage every partition waits for Steward. -/
def storingDone : State := { State.reset with
  fws := List.replicate 6 { Fwp.fresh with st := .running }
  ctxs := [{ Ctx.fresh with st := .active, lanes := { Lanes.fresh with launches := [storingLaunch] } }]
  host := { HostIf.fresh with msgs := [killZero], sessions := [⟨1, [0], 1, 0, 0, true⟩] } }

theorem storingDone_takes : Takes storingDone 0 0x0624 killZero := ⟨rfl, rfl, rfl⟩

theorem storingDone_admits : Admits storingDone killZero 0 where
  bound := by decide
  given := by decide
  owned := rfl
  stays := by decide
  served := rfl

/-- The launch has not ended, and keeps its state while it waits. -/
theorem storingDone_state : ((storingDone.killLaunch 0 0 3).ctx 0).launchState 0 = some 2 := by
  decide +kernel

/-- Refutes O26 in its clause on a kill that waits for acknowledgements: the clause has the message answered with `ST_OK` whatever
state the launch is in, and in `storingDone` it completes as cancelled. -/
theorem not_kernelMessages : ¬ Obligations.KernelMessages := by
  unfold Obligations.KernelMessages
  rintro ⟨-, -, -, -, hkill, -⟩
  obtain ⟨-, -, hwaits⟩ := hkill 0 0 0 storingLaunch killZero storingDone storingDone_takes rfl storingDone_admits rfl rfl
  obtain ⟨t, -, hanswered, -⟩ := hwaits ⟨storingStr, List.mem_singleton_self _, rfl⟩
  have hcancelled := (kernel_kill storingDone_takes rfl storingDone_admits rfl).trans (if_pos storingDone_state)
  have hsame := Host.Outcome.next.inj (hcancelled.symm.trans hanswered)
  have hresp := congrArg (fun u : State => (u.win 0).resp) hsame
  have hheader : (killZero.answer fwSteward .cancelled []).write = (killZero.answer fwSteward .ok []).write := by
    have h1 := (State.complete_resp (storingDone.killLaunch 0 0 3) killZero fwSteward .cancelled []).symm.trans
      (hresp.trans (State.complete_resp t killZero fwSteward .ok []))
    simpa using h1
  exact absurd hheader (by decide)

end Machine
end Sys2Proof
end

section
/-! PROOFS. What memory, queues, messages, allocations and answers leave alone: every rule is about one function, from its branches
or from the functions it is made of. -/

namespace Sys2Proof
namespace Machine

/-! ### The state but for memory, queues, messages and allocations -/

def Ctx.unallocated (x : Ctx) : Ctx := { x with khan := Khan.fresh }

/-- A context but for its counters, its allocations, its commands and what its strings wait for. -/
def Ctx.bare (x : Ctx) : Ctx := x.still.unallocated

/-- The state but for allocations, gates, faults, what is sent, poison and bays. -/
def State.stripped (s : State) : State := { s with
  ctxs := s.ctxs.map Ctx.unallocated, parts := s.parts.map Part.standing, fab := s.fab.standing, flt := Faults.fresh, lastLog := []
  poison := [], floorUsed := 0, poolUsed := 0 }

/-- The state but for memory, posts, queues, messages, faults, what is sent, bays and what `Ctx.bare` leaves out. -/
def State.bare (s : State) : State := s.still.stripped

section
variable {s t : State} {c : Nat}

theorem State.bare_of_still (h : t.still = s.still) : t.bare = s.bare := congrArg State.stripped h

theorem State.ctx_bare_of (h : t.bare = s.bare) (c : Nat) : (t.ctx c).bare = (s.ctx c).bare := by
  have hctx (u : State) : u.bare.ctx c = (u.ctx c).bare :=
    (List.getD_map (f := Ctx.unallocated) (l := u.still.ctxs) (d := Ctx.fresh)).trans (congrArg Ctx.unallocated (State.ctx_still u c))
  rw [← hctx, h, hctx]

theorem State.ctxs_length_of_bare (h : t.bare = s.bare) : t.ctxs.length = s.ctxs.length := by
  have hmap := congrArg (fun u : State => u.ctxs.length) h
  simpa [State.bare, State.stripped, State.still] using hmap

theorem State.pkgId_of_bare (h : t.bare = s.bare) : t.board.pkgId = s.board.pkgId := by
  have hid := congrArg (fun u : State => u.board.pkgId) h
  exact hid

theorem State.now_of_bare (h : t.bare = s.bare) : t.now = s.now := by
  have hnow := congrArg State.now h
  exact hnow

theorem State.seqs_of_bare (h : t.bare = s.bare) : t.seqs = s.seqs := by
  have hseqs := congrArg State.seqs h
  exact hseqs

theorem State.colls_of_bare (h : t.bare = s.bare) (c : Nat) : (t.ctx c).colls = (s.ctx c).colls := by
  have hcolls := congrArg Ctx.colls (State.ctx_bare_of h c)
  exact hcolls

theorem State.groups_of_bare (h : t.bare = s.bare) (c : Nat) : (t.ctx c).groups = (s.ctx c).groups := by
  have hgroups := congrArg Ctx.groups (State.ctx_bare_of h c)
  exact hgroups

theorem bare_foldl {α : Type} {f : State → α → State} (l : List α) (h : ∀ t a, (f t a).bare = t.bare) : (l.foldl f s).bare = s.bare :=
  List.foldlRecOn (motive := fun t : State => t.bare = s.bare) _ _ rfl fun t ht a _ => (h t a).trans ht

theorem bare_ite {p : Prop} [Decidable p] {u : State} (hs : s.bare = u.bare) (ht : t.bare = u.bare) : (if p then s else t).bare = u.bare := by
  split
  exacts [hs, ht]

theorem State.onCtx_bare (c : Nat) {f : Ctx → Ctx} (h : ∀ x, (f x).bare = x.bare) : (s.onCtx c f).bare = s.bare := by
  have hmap : (updAt s.ctxs c f).map Ctx.bare = s.ctxs.map Ctx.bare := updAt_map_of_eq _ _ h
  unfold State.bare State.still State.stripped State.onCtx
  dsimp only
  rw [List.map_map, List.map_map]
  have hmap' : (updAt s.ctxs c f).map (Ctx.unallocated ∘ Ctx.still) = s.ctxs.map (Ctx.unallocated ∘ Ctx.still) := hmap
  rw [hmap']

theorem State.onPart_bare (p : Nat) {f : Part → Part} (h : ∀ r, (f r).standing = r.standing) : (s.onPart p f).bare = s.bare := by
  unfold State.bare State.still State.stripped State.onPart
  dsimp only
  rw [updAt_map_of_eq _ _ h]

/-! ### Counters, memory and gates -/

theorem State.bumpCtx_bare (c : Nat) (k : Ctr) (n : Nat) : (s.bumpCtx c k n).bare = s.bare := State.bare_of_still (State.bumpCtx_still ..)

theorem State.writeAt_bare (a : Nat) (bs : List Byte) : (s.writeAt a bs).bare = s.bare := rfl

theorem State.freed_bare : s.freed.bare = s.bare := rfl

theorem State.undefine_bare (a n : Nat) : (s.undefine a n).bare = s.bare := rfl

theorem State.raise_bare (source kind cls ctx dtype detail : Nat) : (s.raise source kind cls ctx dtype detail).bare = s.bare := rfl

theorem State.takePoison_bare (a n : Nat) : (s.takePoison a n).2.bare = s.bare := rfl

theorem State.charge_bare (c a n : Nat) : (s.charge c a n).bare = s.bare := by
  unfold State.charge
  split
  · exact State.onPart_bare _ fun _ => by rfl
  · rfl

theorem State.memUe_bare (c a : Nat) : (s.memUe c a).bare = s.bare :=
  (State.raise_bare ..).trans (State.bumpCtx_bare ..)

theorem State.ownStrings_bare (c : Nat) (mma sfn : Bool) : (s.ownStrings c mma sfn).bare = s.bare :=
  (State.freed_bare ..).trans ((State.bumpCtx_bare ..).trans ((State.bumpCtx_bare ..).trans
    ((State.bumpCtx_bare ..).trans (State.bumpCtx_bare ..))))

theorem State.readInput_bare (c h off n : Nat) : (s.readInput c h off n).2.2.bare = s.bare := by
  unfold State.readInput
  exact bare_ite ((State.memUe_bare ..).trans ((State.charge_bare ..).trans (State.takePoison_bare ..)))
    ((State.charge_bare ..).trans (State.takePoison_bare ..))

theorem writePlanes_bare (a total off n : Nat) (l : List (Nat × Nat)) (data : List Byte) : (writePlanes a total off n l data s).bare = s.bare := by
  induction l generalizing a data s with
  | nil => rfl
  | cons p r ih => exact ih ..

theorem State.putElems_bare (c h fmt total off n : Nat) (data : List Byte) : (s.putElems c h fmt total off n data).bare = s.bare :=
  (State.charge_bare ..).trans (writePlanes_bare ..)

theorem State.consumePiece_bare (c : Nat) (r : CollRec) (m j : Nat) (data : List Byte) : (s.consumePiece c r m j data).bare = s.bare :=
  (State.ownStrings_bare ..).trans (bare_foldl _ fun t _ => t.putElems_bare ..)

/-! ### Messages -/

theorem State.emit_bare (o : Out) : (s.emit o).bare = s.bare := rfl

theorem State.onOut_bare (k : Nat) (f : PathOut → PathOut) : (s.onOut k f).bare = s.bare := rfl

theorem State.sendMsg_bare (dst type c : Nat) (fields : List Nat) (body : List Byte) : (s.sendMsg dst type c fields body).bare = s.bare := by
  unfold State.sendMsg
  exact bare_ite rfl rfl

theorem State.sendOpen_bare (dst type c : Nat) (fields : List Nat) (data : List Byte) : (s.sendOpen dst type c fields data).bare = s.bare :=
  State.sendMsg_bare ..

theorem State.sendCtl_bare (c dst g id slab index ctl status : Nat) : (s.sendCtl c dst g id slab index ctl status).bare = s.bare :=
  State.sendMsg_bare ..

theorem State.sendGuide_bare (c : Nat) (fields l : List Nat) : (s.sendGuide c fields l).bare = s.bare :=
  bare_foldl _ fun t _ => t.sendOpen_bare ..

theorem State.complete_bare (m : Msg) (p : Nat) (st : Status) (body : List Byte) : (s.complete m p st body).bare = s.bare :=
  State.bare_of_still (State.complete_still ..)

theorem State.setPhase_bare (m : Msg) (p : Phase) : (s.setPhase m p).bare = s.bare := rfl

theorem State.arrive_bare (k pkg v : Nat) (ph : Option Nat) : (s.arrive k pkg v ph).1.bare = s.bare := State.bare_of_still (State.arrive_still ..)

/-! ### Allocations -/

theorem State.khanFail_bare (c : Nat) (f : KhanFail) : (s.khanFail c f).bare = s.bare := by
  unfold State.khanFail
  split <;> exact State.bumpCtx_bare ..

theorem State.khanAlloc_bare (c tier die engine n : Nat) : (s.khanAlloc c tier die engine n).2.bare = s.bare := by
  unfold State.khanAlloc
  dsimp only
  split
  · exact State.khanFail_bare ..
  · exact State.bumpCtx_bare ..
  · refine (State.bumpCtx_bare ..).trans ((State.bumpCtx_bare ..).trans ((State.onCtx_bare c fun _ => by rfl).trans ?_))
    rfl

theorem State.khanFree_bare (h : Nat) : (s.khanFree h).bare = s.bare :=
  (State.bumpCtx_bare ..).trans (State.onCtx_bare _ fun _ => by rfl)

theorem State.khanDrop_bare (h : Nat) : (s.khanDrop h).bare = s.bare := by
  unfold State.khanDrop
  exact bare_ite (State.khanFree_bare h) rfl

theorem takeStaging_bare (c bytes n : Nat) : (takeStaging c bytes n s).2.bare = s.bare := by
  induction n generalizing s with
  | zero => rfl
  | succ n ih =>
    rw [takeStaging]
    split
    · next t h => exact (congrArg (fun x => x.2.bare) h).symm.trans (State.khanAlloc_bare ..)
    · next h a t halloc =>
      have ht : t.bare = s.bare := (congrArg (fun x => x.2.bare) halloc).symm.trans (State.khanAlloc_bare ..)
      have hrest : (takeStaging c bytes n t).2.bare = t.bare := ih
      split
      · next u hu => exact (State.khanDrop_bare h).trans ((congrArg (fun x => x.2.bare) hu).symm.trans (hrest.trans ht))
      · next l u hu => exact (congrArg (fun x => x.2.bare) hu).symm.trans (hrest.trans ht)

/-! ### Bays -/

theorem State.returnBay_bare (b : Nat) : (s.returnBay b).bare = s.bare := by
  unfold State.returnBay
  exact bare_ite rfl rfl

theorem State.bare_of_takeBay {b : Nat} (h : s.takeBay = some (b, t)) : t.bare = s.bare := by
  unfold State.takeBay at h
  split at h
  · cases h
    rfl
  · split at h <;> cases h
    rfl

theorem State.releaseColl_bare (k : Coll) : (s.releaseColl k).bare = s.bare := (bare_foldl _ fun t h => t.khanDrop_bare h).trans rfl

theorem State.answerLaunch_bare (c g id : Nat) (st : Status) : (s.answerLaunch c g id st).bare = s.bare := by
  unfold State.answerLaunch
  split
  · exact (State.bumpCtx_bare ..).trans (State.complete_bare ..)
  · rfl

end

end Machine
end Sys2Proof
end

section
/-! PROOFS. Collective groups, launches, status and kills (13 R289, R290, R296). -/

namespace Sys2Proof
namespace Machine

section
variable {s t : State} {c g id : Nat} {k : Coll} {grp : CollGroup}

/-! ### Collectives and groups of a context -/

theorem State.coll_of_bare (h : t.bare = s.bare) (c g id : Nat) : (t.ctx c).coll g id = (s.ctx c).coll g id := by
  rw [Ctx.coll, State.colls_of_bare h, ← Ctx.coll]

theorem State.group_of_bare (h : t.bare = s.bare) (c g : Nat) : (t.ctx c).group g = (s.ctx c).group g := by
  rw [Ctx.group, State.groups_of_bare h, ← Ctx.group]

theorem State.lt_of_coll (h : (s.ctx c).coll g id = some k) : c < s.ctxs.length := by
  by_contra hout
  rw [State.ctx, List.getD_eq_default _ _ (by omega)] at h
  cases h

theorem State.lt_of_group (h : (s.ctx c).group g = some grp) : c < s.ctxs.length := by
  by_contra hout
  rw [State.ctx, List.getD_eq_default _ _ (by omega)] at h
  cases h

theorem Ctx.group_id {x : Ctx} (h : x.group g = some grp) : grp.id = g := by simpa using List.find?_some h

/-- A change of a collective that keeps its record. -/
theorem State.coll_onColl (h : (s.ctx c).coll g id = some k) {f : Coll → Coll} (hf : ∀ y, (f y).info = y.info) :
    ((s.onColl c g id f).ctx c).coll g id = some (f k) := by
  have hk : k.info.group = g ∧ k.info.collId = id := by simpa using List.find?_some h
  rw [State.onColl, State.ctx_onCtx _ _ _ _ (State.lt_of_coll h), if_pos rfl, Ctx.coll, List.find?_map]
  have hcomp : ((fun y : Coll => y.info.group == g && y.info.collId == id) ∘
      fun y => if y.info.group = g ∧ y.info.collId = id then f y else y) = fun y => y.info.group == g && y.info.collId == id := by
    funext y
    simp only [Function.comp_apply]
    split
    · rw [hf]
    · rfl
  rw [hcomp, ← Ctx.coll, h, Option.map_some, if_pos hk]

theorem State.group_onColl (c g id d h : Nat) (f : Coll → Coll) : ((s.onColl c g id f).ctx d).group h = (s.ctx d).group h := by
  unfold State.onColl State.onCtx State.ctx
  rw [updAt_getD]
  split
  · next hin => rw [hin.1]; rfl
  · rfl

theorem State.onColl_length (f : Coll → Coll) : (s.onColl c g id f).ctxs.length = s.ctxs.length := updAt_length ..

/-! ### Answers -/

theorem State.complete_done (s : State) (m : Msg) (p : Nat) (st : Status) (body : List Byte) :
    ((s.complete m p st body).win m.win).done = true ∧ ((s.complete m p st body).win m.win).owner = false := by
  rw [State.win, State.complete_host_wins, Tbl.getD_setD_same]
  exact ⟨rfl, rfl⟩

theorem State.answerLaunch_answers {m : Msg} (h : s.joinMsg c g id = some m) (st : Status) :
    ((s.answerLaunch c g id st).win m.win).done = true ∧ ((s.answerLaunch c g id st).win m.win).owner = false := by
  unfold State.answerLaunch
  rw [h]
  exact s.complete_done m ..

theorem State.sendMsg_host (dst type c : Nat) (fields : List Nat) (body : List Byte) : (s.sendMsg dst type c fields body).host = s.host := by
  unfold State.sendMsg
  dsimp only
  split <;> rfl

theorem State.khanDrop_host (h : Nat) : (s.khanDrop h).host = s.host := by
  obtain ⟨ctxs, hdrop⟩ := s.khanDrop_rest h
  rw [hdrop]

theorem host_foldl {α : Type} {f : State → α → State} (l : List α) (h : ∀ t a, (f t a).host = t.host) : (l.foldl f s).host = s.host :=
  List.foldlRecOn (motive := fun t : State => t.host = s.host) _ _ rfl fun t ht a _ => (h t a).trans ht

theorem State.releaseColl_host (k : Coll) : (s.releaseColl k).host = s.host := host_foldl _ fun t h => t.khanDrop_host h

theorem State.joinMsg_of_host (h : t.host = s.host) (c g id : Nat) : t.joinMsg c g id = s.joinMsg c g id := by
  unfold State.joinMsg
  rw [h]

/-! ### The end of a collective -/

theorem State.dropColl_bare (h : (s.ctx c).coll g id = some k) (st : Status) : (s.dropColl c g id st).bare =
    ((s.releaseColl k).onCtx c (fun x => { x with colls := x.colls.filter (fun y => !(y.info.group == g && y.info.collId == id)) })).bare := by
  unfold State.dropColl
  rw [h]
  exact State.answerLaunch_bare ..

/-- R296: a dropped collective is gone, and its group stays. -/
theorem State.dropColl_drops (h : (s.ctx c).coll g id = some k) (st : Status) : ((s.dropColl c g id st).ctx c).coll g id = none ∧
    ((s.dropColl c g id st).ctx c).groups = (s.ctx c).groups := by
  have hbare := State.dropColl_bare h st
  have hreleased := s.releaseColl_bare k
  rw [State.coll_of_bare hbare, State.groups_of_bare hbare,
    State.ctx_onCtx _ _ _ _ (State.ctxs_length_of_bare hreleased ▸ State.lt_of_coll h), if_pos rfl]
  refine ⟨List.find?_eq_none.mpr fun y hy => ?_, State.groups_of_bare hreleased c⟩
  have hkept : (!(y.info.group == g && y.info.collId == id)) = true := (List.mem_filter.mp hy).2
  rw [Bool.not_eq_true'] at hkept
  exact Bool.not_eq_true _ ▸ hkept

theorem State.dropColl_answers {m : Msg} (h : (s.ctx c).coll g id = some k) (hm : s.joinMsg c g id = some m) (st : Status) :
    ((s.dropColl c g id st).win m.win).done = true := by
  unfold State.dropColl
  rw [h]
  refine (State.answerLaunch_answers (m := m) ?_ st).1
  have hreleased := (State.joinMsg_of_host (s.releaseColl_host k) c g id).trans hm
  exact hreleased

/-- A group with one more finished collective. -/
def CollGroup.ended (id st : Nat) (y : CollGroup) : CollGroup := { y with finished := ((id, st) :: y.finished).take 256 }

theorem State.endColl_bare (h : (s.ctx c).coll g id = some k) (hgrp : (s.ctx c).group g = some grp) (st : Nat) : (s.endColl c g id st).bare =
    ((s.dropColl c g id (if st = 4 then .faulted else .cancelled)).onCtx c (fun x => { x with groups := x.groups.map (fun y =>
      if y.id = g then y.ended id st else y) })).bare := by
  have hundefined (a n : Nat) (p : Prop) [Decidable p] (u : State) (f : Ctx → Ctx) :
      ((if p then u.undefine a n else u).onCtx c f).bare = (u.onCtx c f).bare := by
    split <;> rfl
  unfold State.endColl
  rw [h, hgrp]
  dsimp only
  split
  · exact (State.arrive_bare ..).trans ((State.bumpCtx_bare ..).trans (hundefined ..))
  · exact (State.bumpCtx_bare ..).trans (hundefined ..)

/-- R296: a collective that ended is gone, and its group knows how it ended. -/
theorem State.endColl_ends (h : (s.ctx c).coll g id = some k) (hgrp : (s.ctx c).group g = some grp) (st : Nat) :
    ((s.endColl c g id st).ctx c).coll g id = none ∧
    ∃ y, ((s.endColl c g id st).ctx c).group g = some y ∧ y.finished = ((id, st) :: grp.finished).take 256 := by
  have hbare := State.endColl_bare h hgrp st
  obtain ⟨hgone, hgroups⟩ := State.dropColl_drops h (if st = 4 then .faulted else .cancelled)
  have hlen : c < (s.dropColl c g id (if st = 4 then .faulted else .cancelled)).ctxs.length := by
    rw [State.ctxs_length_of_form (State.dropColl_form ..)]
    exact State.lt_of_coll h
  rw [State.coll_of_bare hbare, State.group_of_bare hbare, State.ctx_onCtx _ _ _ _ hlen, if_pos rfl]
  refine ⟨hgone, grp.ended id st, ?_, rfl⟩
  have hcomp : ((fun y : CollGroup => y.id == g) ∘ fun y => if y.id = g then y.ended id st else y) = fun y => y.id == g := by
    funext y
    simp only [Function.comp_apply]
    split <;> rfl
  rw [Ctx.group, List.find?_map, hcomp, hgroups, ← Ctx.group, hgrp, Option.map_some, if_pos (Ctx.group_id hgrp)]

/-! ### What a member tells the others -/

theorem State.sendMsg_out (s : State) (dst type c : Nat) (fields : List Nat) (body : List Byte) :
    Out.msg dst type c fields body ∈ (s.sendMsg dst type c fields body).out := by
  unfold State.sendMsg
  dsimp only
  split <;> exact List.mem_append_right _ (List.mem_singleton_self _)

/-- Control words to every other member are sent. -/
theorem State.sendCtl_out (l : List Nat) (me slab index ctl status : Nat) {p : Nat} (hp : p ∈ l) (hother : p ≠ me) :
    ∃ bs, Out.msg p 0x12 c [g, id, slab, index, ctl, status] bs ∈
      ((l.filter (fun p => p != me)).foldl (fun t p => t.sendCtl c p g id slab index ctl status) s).out :=
  ⟨_, State.mem_out_foldl_send (o := fun p => Out.msg p 0x12 c [g, id, slab, index, ctl, status]
      (toLE 16 (collPrefix g id slab index ctl status))) (fun t _ => t.sendMsg_out ..)
    (fun t _ => (State.sendMsg_works (.refl t) ..).out) (List.mem_filter.mpr ⟨hp, by simpa using hother⟩) s⟩

theorem foldl_sendCtl_bare (l : List Nat) (slab index ctl status : Nat) :
    (l.foldl (fun t p => t.sendCtl c p g id slab index ctl status) s).bare = s.bare := bare_foldl _ fun t _ => t.sendCtl_bare ..

end

/-! ### Messages -/

section
variable {w c g id : Nat} {m : Msg} {s : State}

theorem coll_group {us mask : Nat} (htakes : Takes s w 0x0400 m) (hspells : Spells [.u8, .u16, .u32, .r 128] m [c, g, us, mask])
    (hadmits : Admits s m c) (hshort : 10 ≤ us) (hlong : us ≤ 100000) (hg : g ≤ 0xFFF) (hid : s.board.pkgId < 128)
    (hmember : mask.testBit s.board.pkgId = true) (hnew : (s.ctx c).group g = none) :
    exec (.pmpCollGroup w) s = .next (answered (s.onCtx c (fun x => { x with
      groups := x.groups ++ [⟨g, onesOf 128 mask, us, [], []⟩] })) m 0x0400
      [(.u8, (CollGroup.mk g (onesOf 128 mask) us [] []).indexOf s.board.pkgId)]) := by
  change Host.Outcome.next (commitMsg w 0x0400 (withCtx _ collGroup) s) = _
  rw [commitCtx_outcome _ htakes hspells hadmits, collGroup]
  rw [checked_pass _ _ (by simp [hnew, mem_onesOf, hid, hmember]; omega)]
  rfl

theorem coll_status (htakes : Takes s w 0x0402 m) (hspells : Spells [.u8, .u16, .u32] m [c, g, id]) (hadmits : Admits s m c) :
    (((s.ctx c).coll g id).isSome = true → exec (.pmpCollStatus w) s = .next (answered s m 0x0402 [(.u8, 1)])) ∧
    (∀ grp st, (s.ctx c).coll g id = none → (s.ctx c).group g = some grp → grp.finished.find? (fun e => e.1 == id) = some (id, st) →
      exec (.pmpCollStatus w) s = .next (answered s m 0x0402 [(.u8, st)])) := by
  have houtcome : exec (.pmpCollStatus w) s = .next ((collStatus c [g, id] m s).outcome m 0x0402) :=
    congrArg Host.Outcome.next (commitCtx_outcome collStatus htakes hspells hadmits)
  refine ⟨fun hin => ?_, fun grp st hout hgrp hdone => ?_⟩
  · rw [houtcome, collStatus, if_pos hin]
    rfl
  · rw [houtcome, collStatus, if_neg (by simp [hout]), hgrp, Option.bind_some, hdone]
    rfl

theorem coll_kill (htakes : Takes s w 0x0403 m) (hspells : Spells [.u8, .u16, .u32] m [c, g, id]) (hadmits : Admits s m c)
    (hin : ((s.ctx c).coll g id).isSome = true) : exec (.pmpCollKill w) s = .next (answered (s.killColl c g id) m 0x0403 []) := by
  change Host.Outcome.next (commitMsg w 0x0403 (withCtx _ collKill) s) = _
  rw [commitCtx_outcome _ htakes hspells hadmits, collKill, if_pos hin]
  rfl

theorem State.killColl_kills {k : Coll} {grp : CollGroup} (hk : (s.ctx c).coll g id = some k) (hgrp : (s.ctx c).group g = some grp) :
    ((s.killColl c g id).ctx c).coll g id = none ∧
    (∃ y, ((s.killColl c g id).ctx c).group g = some y ∧ y.finished = ((id, 3) :: grp.finished).take 256) ∧
    (∀ p ∈ grp.members, p ≠ s.board.pkgId → ∃ bs, Out.msg p 0x12 c [g, id, 0, grp.indexOf s.board.pkgId, 3, 9] bs ∈
      (s.killColl c g id).out) := by
  unfold State.killColl
  rw [hk, hgrp]
  dsimp only
  have htold := foldl_sendCtl_bare (s := s) (c := c) (g := g) (id := id) (grp.members.filter (fun p => p != s.board.pkgId)) 0
    (grp.indexOf s.board.pkgId) 3 Status.cancelled.code
  obtain ⟨hgone, hended⟩ := State.endColl_ends ((State.coll_of_bare htold c g id).trans hk) ((State.group_of_bare htold c g).trans hgrp) 3
  refine ⟨hgone, hended, fun p hp hother => ?_⟩
  obtain ⟨bs, hsent⟩ := State.sendCtl_out (s := s) (c := c) (g := g) (id := id) grp.members s.board.pkgId 0 (grp.indexOf s.board.pkgId) 3
    Status.cancelled.code hp hother
  exact ⟨bs, (State.endColl_works (.refl _) ..).out hsent⟩

theorem coll_group_delete {grp : CollGroup} (htakes : Takes s w 0x0405 m) (hspells : Spells [.u8, .u16] m [c, g]) (hadmits : Admits s m c)
    (hgrp : (s.ctx c).group g = some grp) (hidle : ∀ k ∈ (s.ctx c).colls, k.info.group ≠ g) : exec (.pmpCollGroupDelete w) s =
      .next (answered (s.onCtx c (fun x => { x with groups := x.groups.filter (fun y => y.id != g) })) m 0x0405 []) := by
  change Host.Outcome.next (commitMsg w 0x0405 (withCtx _ collGroupDelete) s) = _
  rw [commitCtx_outcome _ htakes hspells hadmits, collGroupDelete]
  rw [checked_pass _ _ (by simpa [hgrp] using hidle)]
  rfl

end

/-! ### Launches -/

section
variable {w x : Nat} {m : Msg} {s t : State} {grp : CollGroup} {r : CollRec}

theorem State.handleBad_of_bufBad {c h n : Nat} (hgood : s.bufBad c h n = none) : s.handleBad c h = none := by
  unfold State.bufBad at hgood
  split at hgood
  · cases hgood
  · assumption

/-- The checks of a launch, all passed. -/
theorem collChecks_pass (hadmits : Admits s m r.ctx) (hformat : r.badFormat x (s.ctx r.ctx) = false)
    (hgrp : (s.ctx r.ctx).group r.group = some grp) (hbufs : ∀ e ∈ r.buffers grp s.board.pkgId, s.bufBad r.ctx e.1 e.2 = none)
    (hapart : s.collOverlap r grp = false) (hroot : r.op = 4 ∨ r.op = 5 → r.root ∈ grp.members) :
    firstBad ([(r.badFormat x (s.ctx r.ctx), Status.format)]
      ++ [((r.buffers grp s.board.pkgId).any (fun e => s.handleBad r.ctx e.1 == some .format), .format)]
      ++ s.ctxChecks m r.ctx
      ++ [((r.buffers grp s.board.pkgId).any (fun e => s.handleBad r.ctx e.1 == some .denied), .denied),
          (s.collOverlap r grp && ((s.ctx r.ctx).group r.group).isSome, .format),
          (((s.ctx r.ctx).group r.group).isNone, .unavailable),
          ((r.op == 4 || r.op == 5) && !grp.members.contains r.root, .bounds),
          ((r.buffers grp s.board.pkgId).any (fun e => (s.bufBad r.ctx e.1 e.2).isSome), .bounds)]) = none := by
  have hhandles (st : Status) : (r.buffers grp s.board.pkgId).any (fun e => s.handleBad r.ctx e.1 == some st) = false :=
    List.any_eq_false.mpr fun e he => by simp [State.handleBad_of_bufBad (hbufs e he)]
  have hgood : (r.buffers grp s.board.pkgId).any (fun e => (s.bufBad r.ctx e.1 e.2).isSome) = false :=
    List.any_eq_false.mpr fun e he => by simp [hbufs e he]
  have hmember : ((r.op == 4 || r.op == 5) && !grp.members.contains r.root) = false := by
    by_cases hop : r.op = 4 ∨ r.op = 5
    · simp [hroot hop]
    · simp only [not_or] at hop
      simp [hop]
  refine firstBad_pass fun e he => ?_
  rw [hformat, hhandles, hhandles, hapart, hgrp, hmember, hgood] at he
  simp only [List.mem_append, List.mem_cons, List.not_mem_nil, or_false] at he
  rcases he with ((rfl | rfl) | he) | rfl | rfl | rfl | rfl | rfl
  case inl.inr => exact hadmits.ctxChecks_pass e he
  all_goals rfl

theorem takeLaunch_takes (htakes : Takes s w 0x0401 m) : takeLaunch w s = collLaunch m s := by
  unfold takeLaunch
  rw [htakes.oldest]
  dsimp only
  exact (if_neg (not_not.mpr htakes.running)).trans (if_neg (by simp [htakes.serves]))

theorem collLaunch_admitted {l : List Nat} (hspells : Spells [.r 320] m [x]) (hr : CollRec.read x = r) (hadmits : Admits s m r.ctx)
    (hformat : r.badFormat x (s.ctx r.ctx) = false)
    (hgrp : (s.ctx r.ctx).group r.group = some grp) (hbufs : ∀ e ∈ r.buffers grp s.board.pkgId, s.bufBad r.ctx e.1 e.2 = none)
    (hapart : s.collOverlap r grp = false) (hroot : r.op = 4 ∨ r.op = 5 → r.root ∈ grp.members) (hcount : 0 < r.count)
    (hstaged : takeStaging r.ctx (r.staging grp (grp.indexOf s.board.pkgId)).2 (r.staging grp (grp.indexOf s.board.pkgId)).1 s = (some l, t))
    (hroom : sumN (s.ctxs.map (fun z => z.colls.length)) < 256) :
    collLaunch m s = (t.setPhase m .joinWait).launchColl r.ctx r grp l (recordCrc x) := by
  have hbad := collChecks_pass hadmits hformat hgrp hbufs hapart hroot
  unfold collLaunch
  rw [hspells]
  dsimp only
  rw [hr, hgrp, Option.getD_some, ← hgrp, hbad]
  dsimp only
  rw [if_neg (by omega), hstaged]
  exact if_neg (by simpa using hroom)

theorem collLaunch_empty (hspells : Spells [.r 320] m [x]) (hr : CollRec.read x = r) (hadmits : Admits s m r.ctx)
    (hformat : r.badFormat x (s.ctx r.ctx) = false)
    (hgrp : (s.ctx r.ctx).group r.group = some grp) (hbufs : ∀ e ∈ r.buffers grp s.board.pkgId, s.bufBad r.ctx e.1 e.2 = none)
    (hapart : s.collOverlap r grp = false) (hroot : r.op = 4 ∨ r.op = 5 → r.root ∈ grp.members) (hcount : r.count = 0)
    (htally : r.tallyEn = false) : collLaunch m s =
      (((s.complete m fwWayfinder .ok []).bumpCtx r.ctx .collLaunched 1).bumpCtx r.ctx .collDone 1).onCtx r.ctx (fun y => { y with
        groups := y.groups.map (fun z => if z.id = r.group then z.ended r.collId 2 else z) }) := by
  have hbad := collChecks_pass hadmits hformat hgrp hbufs hapart hroot
  unfold collLaunch
  rw [hspells]
  dsimp only
  rw [hr, hgrp, Option.getD_some, ← hgrp, hbad]
  dsimp only
  rw [if_pos hcount, if_neg (by simp [htally])]
  rfl

/-! ### Admission and the join -/

theorem State.admitColl_keeps (s : State) (r : CollRec) (g : CollGroup) : (s.admitColl r g).2.2.bare = s.bare ∧
    (s.admitColl r g).2.2.mem = s.mem ∧ (s.admitColl r g).2.2.host = s.host := by
  have hbay {u v : State} {a : Nat} (h : u.takeBay = some (a, v)) : v.bare = u.bare ∧ v.mem = u.mem ∧ v.host = u.host := by
    refine ⟨State.bare_of_takeBay h, ?_⟩
    unfold State.takeBay at h
    split at h
    · cases h
      exact ⟨rfl, rfl⟩
    · split at h <;> cases h
      exact ⟨rfl, rfl⟩
  unfold State.admitColl
  split
  · exact ⟨rfl, rfl, rfl⟩
  · split
    · exact ⟨rfl, rfl, rfl⟩
    · next a t ha =>
      split
      · exact ⟨rfl, rfl, rfl⟩
      · next b u hb =>
        obtain ⟨hbare, hmem, hhost⟩ := hbay ha
        obtain ⟨hbare', hmem', hhost'⟩ := hbay hb
        exact ⟨hbare'.trans hbare, hmem'.trans hmem, hhost'.trans hhost⟩

/-- A collective as its launch leaves it, which has joined nobody yet or itself. -/
structure State.Joining (s t : State) (r : CollRec) (k : Coll) : Prop where
  coll : ∃ y, (t.ctx r.ctx).coll r.group r.collId = some y ∧ y.info = k.info ∧ y.running = k.running ∧ y.started = k.started ∧ y.crc = k.crc
  mem  : t.mem = s.mem
  seqs : t.seqs = s.seqs
  host : t.host = s.host

/-- R290: a member's join goes to the leader; a leader that waits for others keeps its own. -/
theorem State.sendJoin_joins {k : Coll} (hk : (s.ctx r.ctx).coll r.group r.collId = some k) (hgrp : (s.ctx r.ctx).group r.group = some grp)
    (hjoins : k.joins = []) (hcount : 1 < grp.count) (ok : Bool) (crc : Nat) :
    s.Joining (s.sendJoin r.ctx r grp ok crc) r k ∧
    (grp.indexOf s.board.pkgId ≠ 0 → ∃ bs, Out.msg (grp.members.getD 0 s.board.pkgId) 0x12 r.ctx
      [r.group, r.collId, 0, grp.indexOf s.board.pkgId, 1, 0, b2n ok, crc] bs ∈ (s.sendJoin r.ctx r grp ok crc).out) := by
  unfold State.sendJoin
  dsimp only
  split
  · next hlead =>
    refine ⟨?_, fun h => absurd hlead h⟩
    have hk' := State.coll_onColl hk (f := fun k => { k with joins := k.joins ++ [(0, ok, crc)] }) fun _ => rfl
    have hgrp' := (State.group_onColl (s := s) r.ctx r.group r.collId r.ctx r.group
      (fun k => { k with joins := k.joins ++ [(0, ok, crc)] })).trans hgrp
    have htake : s.takeJoin r.ctx r.group r.collId 0 ok crc =
        s.onColl r.ctx r.group r.collId (fun k => { k with joins := k.joins ++ [(0, ok, crc)] }) := by
      unfold State.takeJoin
      rw [hk, hgrp]
      dsimp only
      rw [if_neg (by simp [hjoins]), State.decideColl, hk', hgrp']
      exact if_pos (.inr (.inr (by simpa [hjoins] using hcount)))
    rw [htake]
    exact ⟨⟨_, hk', rfl, rfl, rfl, rfl⟩, rfl, rfl, rfl⟩
  · have hsent := s.sendMsg_bare (grp.members.getD 0 s.board.pkgId) 0x12 r.ctx
      [r.group, r.collId, 0, grp.indexOf s.board.pkgId, 1, 0, b2n ok, crc]
      (toLE 16 (collPrefix r.group r.collId 0 (grp.indexOf s.board.pkgId) 1 0) ++ Config.bodyCode 0x12 [b2n ok, crc])
    exact ⟨⟨⟨_, (State.coll_of_bare hsent ..).trans hk, rfl, rfl, rfl, rfl⟩, State.mem_of_form (State.sendMsg_form ..),
      State.seqs_of_bare hsent, State.sendMsg_host ..⟩, fun _ => ⟨_, State.sendMsg_out ..⟩⟩

theorem State.coll_onGroups {c g id : Nat} (f : CollGroup → CollGroup) (d : Nat) :
    ((s.onCtx c (fun x => { x with groups := x.groups.map f })).ctx d).coll g id = (s.ctx d).coll g id := by
  unfold State.onCtx State.ctx
  rw [updAt_getD]
  split
  · next hin => rw [hin.1]; rfl
  · rfl

theorem State.takeEarly_of_none (hearly : grp.early = []) : s.takeEarly r.ctx r grp = s.onCtx r.ctx (fun x => { x with
    groups := x.groups.map (fun y => if y.id = r.group then { y with early := y.early.filter (fun e => e.1 != r.collId) } else y) }) := by
  unfold State.takeEarly
  rw [hearly]
  rfl

theorem State.Joining.takeEarly {k : Coll} (h : s.Joining t r k) (hearly : grp.early = []) : s.Joining (t.takeEarly r.ctx r grp) r k := by
  obtain ⟨⟨y, hy, hkeeps⟩, hmem, hseqs, hhost⟩ := h
  rw [State.takeEarly_of_none hearly]
  exact ⟨⟨y, (State.coll_onGroups ..).trans hy, hkeeps⟩, hmem, hseqs, hhost⟩

/-- A collective as its launch puts it into its context. -/
def Coll.launched (r : CollRec) (now crc : Nat) (bays stage : List Nat) : Coll :=
  ⟨r, false, now, crc, [], false, bays, stage, [], 0, 0, [], none, [], []⟩

theorem State.launchColl_launches (hlen : r.ctx < s.ctxs.length) (hnew : (s.ctx r.ctx).coll r.group r.collId = none)
    (hgrp : (s.ctx r.ctx).group r.group = some grp) (hcount : 1 < grp.count) (hearly : grp.early = []) (stage : List Nat) (crc : Nat) :
    ∃ (k : Coll), k.info = r ∧ k.running = false ∧ k.started = s.now ∧ k.crc = crc ∧
      s.Joining (s.launchColl r.ctx r grp stage crc) r k ∧
      (grp.indexOf s.board.pkgId ≠ 0 → ∃ ok bs, Out.msg (grp.members.getD 0 s.board.pkgId) 0x12 r.ctx
        [r.group, r.collId, 0, grp.indexOf s.board.pkgId, 1, 0, ok, crc] bs ∈ (s.launchColl r.ctx r grp stage crc).out) := by
  obtain ⟨hbare, hmem, hhost⟩ := s.admitColl_keeps r grp
  unfold State.launchColl
  dsimp only
  generalize s.admitColl r grp = a at hbare hmem hhost
  have hlen' : r.ctx < a.2.2.ctxs.length := State.ctxs_length_of_bare hbare ▸ hlen
  generalize hu : a.2.2.onCtx r.ctx (fun x => { x with colls := x.colls ++ [Coll.launched r s.now crc a.2.1 stage] }) = u
  have hctx : u.ctx r.ctx = { a.2.2.ctx r.ctx with colls := (a.2.2.ctx r.ctx).colls ++ [Coll.launched r s.now crc a.2.1 stage] } := by
    rw [← hu, State.ctx_onCtx _ _ _ _ hlen', if_pos rfl]
  have hk : (u.ctx r.ctx).coll r.group r.collId = some (Coll.launched r s.now crc a.2.1 stage) := by
    have hnone : (a.2.2.ctx r.ctx).colls.find? (fun k => k.info.group == r.group && k.info.collId == r.collId) = none :=
      (State.coll_of_bare hbare ..).trans hnew
    rw [hctx, Ctx.coll, List.find?_append, hnone]
    simp [Coll.launched]
  have hgrp' : (u.ctx r.ctx).group r.group = some grp := by
    rw [hctx]
    exact (State.group_of_bare hbare ..).trans hgrp
  have hid : u.board.pkgId = s.board.pkgId := by
    have hid := State.pkgId_of_bare hbare
    rw [← hu]
    exact hid
  have hseqs := State.seqs_of_bare hbare
  obtain ⟨hjoining, hsent⟩ := State.sendJoin_joins hk hgrp' rfl hcount a.1 crc
  rw [hid] at hsent
  obtain ⟨hcoll, hmem', hseqs', hhost'⟩ := hjoining.takeEarly hearly
  subst hu
  refine ⟨_, rfl, rfl, rfl, rfl, ⟨hcoll, hmem'.trans hmem, hseqs'.trans hseqs, hhost'.trans hhost⟩, fun hmember => ?_⟩
  obtain ⟨bs, hbs⟩ := hsent hmember
  refine ⟨b2n a.1, bs, ?_⟩
  rw [State.takeEarly_of_none hearly]
  exact hbs

theorem State.khanAlloc_host (c tier die engine n : Nat) : (s.khanAlloc c tier die engine n).2.host = s.host := by
  unfold State.khanAlloc State.khanFail
  dsimp only
  split
  · split <;> rfl
  · rfl
  · rfl

theorem takeStaging_host (c bytes n : Nat) : (takeStaging c bytes n s).2.host = s.host := by
  induction n generalizing s with
  | zero => rfl
  | succ n ih =>
    rw [takeStaging]
    split
    · next t h => exact (congrArg (fun x => x.2.host) h).symm.trans (State.khanAlloc_host ..)
    · next h a t halloc =>
      have ht : t.host = s.host := (congrArg (fun x => x.2.host) halloc).symm.trans (State.khanAlloc_host ..)
      have hrest : (takeStaging c bytes n t).2.host = t.host := ih
      split
      · next u hu => exact (State.khanDrop_host h).trans ((congrArg (fun x => x.2.host) hu).symm.trans (hrest.trans ht))
      · next l u hu => exact (congrArg (fun x => x.2.host) hu).symm.trans (hrest.trans ht)

end

/-- Settles O27. -/
theorem collectiveMessages : Obligations.CollectiveMessages := by
  unfold Obligations.CollectiveMessages
  refine ⟨fun w c g us mask m s htakes hspells hadmits hshort hlong hg hid hmember hnew =>
      coll_group htakes hspells hadmits hshort hlong hg hid hmember hnew,
    fun w x l grp t m s htakes hspells => ?_, fun w x grp m s htakes hspells => ?_,
    fun w c g id m s htakes hspells hadmits => coll_status htakes hspells hadmits,
    fun w c g id k grp m s htakes hspells hadmits hk hgrp => ⟨_, coll_kill htakes hspells hadmits (by simp [hk]),
      State.killColl_kills hk hgrp⟩,
    fun w c g grp m s htakes hspells hadmits hgrp hidle => coll_group_delete htakes hspells hadmits hgrp hidle⟩
  · intro r hadmits hin hformat hgrp hbufs hapart hroot hcount hmany hearly hstaged hroom
    have hlaunch := (takeLaunch_takes htakes).trans
      (collLaunch_admitted hspells rfl hadmits hformat hgrp hbufs hapart hroot hcount hstaged hroom)
    have hbare : (t.setPhase m .joinWait).bare = s.bare := by
      have h := takeStaging_bare (s := s) r.ctx (r.staging grp (grp.indexOf s.board.pkgId)).2 (r.staging grp (grp.indexOf s.board.pkgId)).1
      rw [hstaged] at h
      exact h
    have hkept : (t.setPhase m .joinWait).mem = s.mem ∧ t.host = s.host := by
      have hform := takeStaging_form (s := s) r.ctx (r.staging grp (grp.indexOf s.board.pkgId)).2 (r.staging grp (grp.indexOf s.board.pkgId)).1
      have hhost := takeStaging_host (s := s) r.ctx (r.staging grp (grp.indexOf s.board.pkgId)).2 (r.staging grp (grp.indexOf s.board.pkgId)).1
      rw [hstaged] at hform hhost
      exact ⟨State.mem_of_form hform, hhost⟩
    have hnew : (s.ctx r.ctx).coll r.group r.collId = none := by
      simp only [CollRec.badFormat, Bool.or_eq_false_iff] at hformat
      simpa using hformat.2
    obtain ⟨k, hinfo, hrunning, hstarted, hcrc, hjoining, hsent⟩ := State.launchColl_launches (s := t.setPhase m .joinWait) (r := r)
      (State.ctxs_length_of_bare hbare ▸ State.lt_of_group hgrp) ((State.coll_of_bare hbare ..).trans hnew)
      ((State.group_of_bare hbare ..).trans hgrp) hmany hearly l (recordCrc x)
    obtain ⟨⟨y, hy, hyinfo, hyrunning, hystarted, hycrc⟩, hmem, hseqs, hhost⟩ := hjoining
    rw [State.pkgId_of_bare hbare] at hsent
    refine ⟨_, y, congrArg Host.Outcome.next hlaunch, hy, hyinfo.trans hinfo, hyrunning.trans hrunning,
      (hystarted.trans hstarted).trans (State.now_of_bare hbare), hycrc.trans hcrc, ?_, hmem.trans hkept.1,
      hseqs.trans (State.seqs_of_bare hbare), hsent⟩
    rw [hhost]
    refine List.mem_map.mpr ⟨m, ?_, if_pos rfl⟩
    rw [hkept.2]
    exact hin
  · intro r hadmits hformat hgroups hgid hbufs hapart hroot hcount htally
    have hgrp : (s.ctx r.ctx).group r.group = some grp := by
      rw [Ctx.group, hgroups, List.find?_cons_of_pos (by simpa using hgid)]
    have hlaunch := (takeLaunch_takes htakes).trans (collLaunch_empty hspells rfl hadmits hformat hgrp hbufs hapart hroot hcount htally)
    have hcompleted := s.complete_bare m fwWayfinder .ok []
    have hcounted : (((s.complete m fwWayfinder .ok []).bumpCtx r.ctx .collLaunched 1).bumpCtx r.ctx .collDone 1).bare = s.bare :=
      (State.bumpCtx_bare ..).trans ((State.bumpCtx_bare ..).trans hcompleted)
    obtain ⟨hdone, howner⟩ := s.complete_done m fwWayfinder .ok []
    have hmem := State.mem_of_form (State.complete_form s m fwWayfinder .ok [])
    refine ⟨_, congrArg Host.Outcome.next hlaunch, ?_, hmem, hdone, howner⟩
    have hlen := State.ctxs_length_of_bare hcounted ▸ State.lt_of_group hgrp
    rw [State.ctx_onCtx _ _ _ _ hlen, if_pos rfl, State.groups_of_bare hcounted, hgroups, List.map_singleton, if_pos hgid]
    rfl

end Machine
end Sys2Proof
end

section
/-! PROOFS. Joins, GO, aborts and the join timeout of collectives (13 R290, R296, R309). -/

namespace Sys2Proof
namespace Machine

section
variable {c g id idx crc : Nat} {ok : Bool} {k : Coll} {grp : CollGroup} {s : State}

/-! ### Joins -/

/-- A collective that one more member has joined. -/
def Coll.joined (idx : Nat) (ok : Bool) (crc : Nat) (k : Coll) : Coll := { k with joins := k.joins ++ [(idx, ok, crc)] }

theorem collJoin_takes (hrun : (s.fw fwWayfinder).st = .running) (hk : (s.ctx c).coll g id = some k) (hgrp : (s.ctx c).group g = some grp)
    (hnew : ∀ j ∈ k.joins, j.1 ≠ idx) :
    collJoin c g id idx ok crc s = (s.onColl c g id (Coll.joined idx ok crc)).decideColl c g id := by
  have hnone : k.joins.any (fun j => j.1 == idx) = false := by simpa using hnew
  unfold collJoin State.takeJoin
  rw [if_neg (not_not.mpr hrun), hk, hgrp]
  exact if_neg (by simp [hnone])

theorem State.coll_joined (hk : (s.ctx c).coll g id = some k) :
    ((s.onColl c g id (Coll.joined idx ok crc)).ctx c).coll g id = some (k.joined idx ok crc) := State.coll_onColl hk fun _ => rfl

/-- R290: while members are missing nothing is decided. -/
theorem State.decideColl_waits (hk : (s.ctx c).coll g id = some k) (hgrp : (s.ctx c).group g = some grp) (hmissing : k.joins.length < grp.count) :
    s.decideColl c g id = s := by
  unfold State.decideColl
  rw [hk, hgrp]
  exact if_pos (.inr (.inr hmissing))

theorem Status.busy_code : Status.busy.code = 1 := by decide

/-- R290: a member that was not admitted makes the leader abort. -/
theorem State.decideColl_aborts (hk : (s.ctx c).coll g id = some k) (hgrp : (s.ctx c).group g = some grp) (hall : grp.count ≤ k.joins.length)
    (hlead : grp.indexOf s.board.pkgId = 0) (hopen : k.decided = false) (hrefused : k.joins.all (fun j => j.2.1) = false) :
    s.decideColl c g id = ((grp.members.filter (fun p => p != s.board.pkgId)).foldl (fun t p => t.sendCtl c p g id 0 0 3 1)
      (s.onColl c g id (fun k => { k with decided := true }))).abortColl c g id 1 := by
  unfold State.decideColl
  rw [hk, hgrp]
  dsimp only
  rw [if_neg (by simp [hopen, hlead, hall]), if_neg (by simp [hrefused]), hrefused]
  rfl

/-- An abort of a launch that has not begun drops it. -/
theorem State.abortColl_drops {status : Nat} (hk : (s.ctx c).coll g id = some k) (hidle : k.running = false) (hst : status ≠ Status.cancelled.code) :
    s.abortColl c g id status =
      s.dropColl c g id (if status = Status.busy.code then .busy else if status = Status.format.code then .format else .timeout) := by
  unfold State.abortColl
  rw [hk]
  exact if_neg (by simp [hidle, hst])

theorem State.dropColl_mem (s : State) (c g id : Nat) (st : Status) : (s.dropColl c g id st).mem = s.mem :=
  State.mem_of_form (State.dropColl_form ..)

theorem foldl_sendCtl_form (l : List Nat) (slab index ctl status : Nat) :
    (l.foldl (fun t p => t.sendCtl c p g id slab index ctl status) s).form = s.form :=
  form_foldl _ _ fun t _ => State.sendMsg_form t ..

theorem foldl_sendCtl_host (l : List Nat) (slab index ctl status : Nat) :
    (l.foldl (fun t p => t.sendCtl c p g id slab index ctl status) s).host = s.host :=
  host_foldl _ fun t _ => t.sendMsg_host ..

theorem State.decideColl_refuses (hk : (s.ctx c).coll g id = some k) (hgrp : (s.ctx c).group g = some grp) (hall : grp.count ≤ k.joins.length)
    (hlead : grp.indexOf s.board.pkgId = 0) (hopen : k.decided = false) (hidle : k.running = false)
    (hrefused : k.joins.all (fun j => j.2.1) = false) :
    ((s.decideColl c g id).ctx c).coll g id = none ∧ (s.decideColl c g id).mem = s.mem ∧
    ∀ p ∈ grp.members, p ≠ s.board.pkgId → ∃ bs, Out.msg p 0x12 c [g, id, 0, 0, 3, 1] bs ∈ (s.decideColl c g id).out := by
  have hdecided := State.coll_onColl hk (f := fun k => { k with decided := true }) fun _ => rfl
  rw [State.decideColl_aborts hk hgrp hall hlead hopen hrefused]
  have htold := foldl_sendCtl_bare (s := s.onColl c g id (fun k => { k with decided := true })) (c := c) (g := g) (id := id)
    (grp.members.filter (fun p => p != s.board.pkgId)) 0 0 3 1
  have hk' := (State.coll_of_bare htold c g id).trans hdecided
  rw [State.abortColl_drops hk' hidle (by decide)]
  have hmem := State.mem_of_form (foldl_sendCtl_form (s := s.onColl c g id (fun k => { k with decided := true })) (c := c) (g := g) (id := id)
    (grp.members.filter (fun p => p != s.board.pkgId)) 0 0 3 1)
  refine ⟨(State.dropColl_drops hk' _).1, (State.dropColl_mem ..).trans hmem, fun p hp hother => ?_⟩
  obtain ⟨bs, hsent⟩ := State.sendCtl_out (s := s.onColl c g id (fun k => { k with decided := true })) (c := c) (g := g) (id := id)
    grp.members s.board.pkgId 0 0 3 1 hp hother
  exact ⟨bs, (State.dropColl_works (.refl _) ..).out hsent⟩

/-! ### GO -/

theorem collGo_begins (hrun : (s.fw fwWayfinder).st = .running) (hk : (s.ctx c).coll g id = some k) (hidle : k.running = false) :
    collGo c g id s = (finishSlabs c g id 65537 (((((s.onColl c g id (fun k => { k with running := true, decided := true })).answerLaunch
      c g id .ok).gatherOwn c g id).openSlab c g id).openSlab c g id)).checkColl c g id := by
  unfold collGo State.startColl
  rw [if_neg (not_not.mpr hrun), hk]
  exact if_neg (by simp [hidle])

/-- A member that is not the root, of a broadcast or of a reduction to the root, has nothing to send first. -/
theorem State.gatherOwn_of_member (hk : (s.ctx c).coll g id = some k) (hgrp : (s.ctx c).group g = some grp) (hop : k.info.op = 4 ∨ k.info.op = 5)
    (hmember : k.info.root ≠ s.board.pkgId) : s.gatherOwn c g id = s := by
  unfold State.gatherOwn
  rw [hk, hgrp]
  refine if_pos ?_
  rcases hop with hop | hop
  · exact .inr (by simp [CollRec.inCount, hop, hmember])
  · exact .inl (by simp [CollRec.reduces, hop])

/-- It owns no slab. -/
theorem CollRec.ownSlabs_of_member {r : CollRec} {i : Nat} (hop : r.op = 4 ∨ r.op = 5) (hmember : grp.indexOf r.root ≠ i) : r.ownSlabs grp i = [] := by
  unfold CollRec.ownSlabs
  rcases hop with hop | hop
  · exact if_neg (by simp [CollRec.reduces, hop])
  · split
    · exact List.filter_eq_nil_iff.mpr fun j _ => by simpa [CollRec.ownerOf, hop] using hmember
    · rfl

theorem State.openSlab_of_none (hk : (s.ctx c).coll g id = some k) (hgrp : (s.ctx c).group g = some grp)
    (hnone : k.info.ownSlabs grp (grp.indexOf s.board.pkgId) = []) : s.openSlab c g id = s := by
  unfold State.openSlab
  rw [hk, hgrp]
  dsimp only
  rw [hnone]
  rfl

/-- No slab of a collective is open and complete. -/
theorem finishSlabs_of_none (hk : (s.ctx c).coll g id = some k) (hgrp : (s.ctx c).group g = some grp)
    (hnone : ∀ b ∈ k.open_, b.added.length < grp.count) (n : Nat) : finishSlabs c g id n s = s := by
  have hfind : k.open_.find? (fun b => decide (grp.count ≤ b.added.length)) = none :=
    List.find?_eq_none.mpr fun b hb => by simpa using hnone b hb
  cases n with
  | zero => rfl
  | succ n =>
    rw [finishSlabs, hk, hgrp]
    dsimp only
    rw [hfind]

theorem State.checkColl_of_not (hk : (s.ctx c).coll g id = some k) (hgrp : (s.ctx c).group g = some grp) (hnot : s.collDone k grp = false) :
    s.checkColl c g id = s := by
  unfold State.checkColl
  rw [hk, hgrp]
  exact if_neg (by simp [hnot])

theorem CollRec.slabs_pos {r : CollRec} {n : Nat} (hop : r.op = 5) (hcount : 0 < r.count) : 0 < r.slabs n := by
  have hslabs : r.slabs n = ceilDiv r.count slabElems := by simp [CollRec.slabs, CollRec.perRun, CollRec.run, hop]
  rw [hslabs, ceilDiv, slabElems]
  omega

theorem State.collDone_of_member (hop : k.info.op = 4 ∨ k.info.op = 5) (hmember : grp.indexOf k.info.root ≠ grp.indexOf s.board.pkgId)
    (hcount : 0 < k.info.count) (hwritten : k.written = []) (hsent : k.sentPieces = []) : s.collDone k grp = false := by
  have hown := CollRec.ownSlabs_of_member hop hmember
  unfold State.collDone
  rcases hop with hop | hop
  · simp [hop, hwritten]
  · have hpos := CollRec.slabs_pos (n := grp.count) hop hcount
    simp [hop, hown, hsent]
    omega

theorem collGo_member {m : Msg} (hrun : (s.fw fwWayfinder).st = .running) (hk : (s.ctx c).coll g id = some k) (hgrp : (s.ctx c).group g = some grp)
    (hidle : k.running = false) (hop : k.info.op = 4 ∨ k.info.op = 5) (hroot : k.info.root ≠ s.board.pkgId)
    (hmember : grp.indexOf k.info.root ≠ grp.indexOf s.board.pkgId) (hcount : 0 < k.info.count) (hwritten : k.written = [])
    (hopen : k.open_ = []) (hsent : k.sentPieces = []) (hm : s.joinMsg c g id = some m) :
    ((collGo c g id s).ctx c).coll g id = some { k with running := true, decided := true } ∧ ((collGo c g id s).win m.win).done = true ∧
    ((collGo c g id s).win m.win).owner = false ∧ (collGo c g id s).mem = s.mem := by
  have hk' := State.coll_onColl hk (f := fun k => { k with running := true, decided := true }) fun _ => rfl
  have hgrp' := (State.group_onColl (s := s) c g id c g (fun k => { k with running := true, decided := true })).trans hgrp
  have hm' : (s.onColl c g id (fun k => { k with running := true, decided := true })).joinMsg c g id = some m := hm
  rw [collGo_begins hrun hk hidle]
  generalize hu : s.onColl c g id (fun k => { k with running := true, decided := true }) = u at hk' hgrp' hm'
  have hanswered := u.answerLaunch_bare c g id .ok
  have hk1 := (State.coll_of_bare hanswered c g id).trans hk'
  have hgrp1 := (State.group_of_bare hanswered c g).trans hgrp'
  have hid : (u.answerLaunch c g id .ok).board.pkgId = s.board.pkgId := by
    rw [State.pkgId_of_bare hanswered, ← hu]
    rfl
  obtain ⟨hdone, howner⟩ := State.answerLaunch_answers hm' .ok
  have hmem : (u.answerLaunch c g id .ok).mem = s.mem := by
    rw [State.mem_of_form (State.answerLaunch_form ..), ← hu]
    rfl
  generalize u.answerLaunch c g id .ok = v at *
  have hown : k.info.ownSlabs grp (grp.indexOf v.board.pkgId) = [] := CollRec.ownSlabs_of_member hop (hid ▸ hmember)
  rw [State.gatherOwn_of_member hk1 hgrp1 hop (hid ▸ hroot), State.openSlab_of_none hk1 hgrp1 hown, State.openSlab_of_none hk1 hgrp1 hown,
    finishSlabs_of_none hk1 hgrp1 (by simp [hopen]),
    State.checkColl_of_not hk1 hgrp1 (State.collDone_of_member hop (hid ▸ hmember) hcount hwritten hsent)]
  exact ⟨hk1, hdone, howner, hmem⟩

theorem State.staleColl_counts (hgrp : (s.ctx c).group g = some grp) (hdone : ∃ e ∈ grp.finished, e.1 = id) :
    s.staleColl c g id = s.bumpCtx c .collStale 1 := by
  unfold State.staleColl
  rw [hgrp]
  exact if_pos (by simpa using hdone)

/-! ### The timeout -/

theorem collJoinTimeout_due (hrun : (s.fw fwWayfinder).st = .running) (hk : (s.ctx c).coll g id = some k) (hgrp : (s.ctx c).group g = some grp)
    (hidle : k.running = false) (hdue : k.started + grp.timeoutUs * 1000 < s.now) : collJoinTimeout c g id s =
      (if grp.indexOf s.board.pkgId = 0 then (grp.members.filter (fun p => p != s.board.pkgId)).foldl (fun t p =>
        t.sendCtl c p g id 0 0 3 Status.timeout.code) s else s).abortColl c g id Status.timeout.code := by
  unfold collJoinTimeout
  rw [hk, hgrp]
  exact if_neg (by simp [hrun, hidle]; omega)

end

/-- Settles O28. -/
theorem collectiveStart : Obligations.CollectiveStart := by
  unfold Obligations.CollectiveStart
  refine ⟨fun c g id idx ok crc s hstopped => ⟨congrArg Host.Outcome.next (if_pos hstopped), congrArg Host.Outcome.next (if_pos hstopped), ?_⟩,
    fun c g id idx ok crc k grp s hrun hk hgrp hnew hmissing => ?_,
    fun c g id idx crc k grp s hrun hk hgrp hnew hlast hlead hopen hidle => ?_,
    fun c g id idx ok crc grp s hlen hrun hk hgroups hgid hfresh => ?_,
    fun c g id m k grp s hrun hk hgrp hidle hop hroot hmember hcount hwritten hopen hsent _ hm _ =>
      ⟨_, rfl, collGo_member hrun hk hgrp hidle hop hroot hmember hcount hwritten hopen hsent hm⟩,
    fun c g id grp s hrun hk hgrp hdone => congrArg Host.Outcome.next ?_, fun c g id k s hk hidle => ?_,
    fun c g id st k grp s hk hgrp hbegun => ?_, fun c g id k grp s hrun hk hgrp hidle hdue => ?_,
    fun c g id k grp s hk hgrp hearly => congrArg Host.Outcome.next ?_⟩
  · refine congrArg Host.Outcome.next ?_
    unfold collJoinTimeout
    split
    · exact if_pos (.inl hstopped)
    · rfl
  · refine congrArg Host.Outcome.next ((collJoin_takes hrun hk hgrp hnew).trans ?_)
    exact State.decideColl_waits (State.coll_joined hk) ((State.group_onColl ..).trans hgrp) (by simpa [Coll.joined] using hmissing)
  · obtain ⟨hgone, hmem, htold⟩ := State.decideColl_refuses (State.coll_joined (idx := idx) (ok := false) (crc := crc) hk)
      ((State.group_onColl ..).trans hgrp) (by simp [Coll.joined, hlast]) hlead hopen hidle (by simp [Coll.joined])
    exact ⟨_, congrArg Host.Outcome.next (collJoin_takes hrun hk hgrp hnew), hgone, hmem, htold⟩
  · have hgrp : (s.ctx c).group g = some grp := by
      rw [Ctx.group, hgroups, List.find?_cons_of_pos (by simpa using hgid)]
    have hjoin : collJoin c g id idx ok crc s = s.onCtx c (fun x => { x with groups := x.groups.map (fun y =>
        if y.id = g then { y with early := y.early.filter (fun e => !(e.1 == id && e.2.1 == idx)) ++ [(id, idx, ok, crc)] } else y) }) := by
      unfold collJoin State.takeJoin
      rw [if_neg (not_not.mpr hrun), hk, hgrp]
      have hnone : grp.finished.any (fun e => e.1 == id) = false := List.any_eq_false.mpr fun e he => by simpa using hfresh e he
      exact if_neg (by simp [hnone])
    refine ⟨_, { grp with early := grp.early.filter (fun e => !(e.1 == id && e.2.1 == idx)) ++ [(id, idx, ok, crc)] },
      congrArg Host.Outcome.next hjoin, ?_, List.mem_append_right _ (List.mem_singleton_self _), rfl, rfl⟩
    rw [State.ctx_onCtx _ _ _ _ hlen, if_pos rfl, hgroups, List.map_singleton, if_pos hgid]
  · unfold collGo
    rw [if_neg (not_not.mpr hrun), hk]
    exact State.staleColl_counts hgrp hdone
  · have habort := State.abortColl_drops (status := 1) hk hidle (by decide)
    exact ⟨_, congrArg Host.Outcome.next habort, (State.dropColl_drops hk _).1, State.dropColl_mem ..,
      fun m hm _ => State.dropColl_answers hk hm _⟩
  · have habort : s.abortColl c g id st = s.endColl c g id 3 := by
      unfold State.abortColl
      rw [hk]
      exact if_pos (.inl hbegun)
    exact ⟨_, congrArg Host.Outcome.next habort, State.endColl_ends hk hgrp 3⟩
  · have htold : (if grp.indexOf s.board.pkgId = 0 then (grp.members.filter (fun p => p != s.board.pkgId)).foldl (fun t p =>
        t.sendCtl c p g id 0 0 3 Status.timeout.code) s else s).bare = s.bare := bare_ite (foldl_sendCtl_bare ..) rfl
    have hform : (if grp.indexOf s.board.pkgId = 0 then (grp.members.filter (fun p => p != s.board.pkgId)).foldl (fun t p =>
        t.sendCtl c p g id 0 0 3 Status.timeout.code) s else s).mem = s.mem := by
      split
      · exact State.mem_of_form (foldl_sendCtl_form ..)
      · rfl
    have hhost : (if grp.indexOf s.board.pkgId = 0 then (grp.members.filter (fun p => p != s.board.pkgId)).foldl (fun t p =>
        t.sendCtl c p g id 0 0 3 Status.timeout.code) s else s).host = s.host := by
      split
      · exact foldl_sendCtl_host ..
      · rfl
    have hk' := (State.coll_of_bare htold c g id).trans hk
    have htimeout := (collJoinTimeout_due hrun hk hgrp hidle hdue).trans (State.abortColl_drops hk' hidle (by decide))
    exact ⟨_, congrArg Host.Outcome.next htimeout, (State.dropColl_drops hk' _).1, (State.dropColl_mem ..).trans hform,
      fun m hm _ => State.dropColl_answers hk' ((State.joinMsg_of_host hhost c g id).trans hm) _⟩
  · unfold collJoinTimeout
    rw [hk, hgrp]
    exact if_pos (.inr (.inr hearly))

end Machine
end Sys2Proof
end

section
/-! PROOFS. Slabs, grants, pieces and results of collectives, and a bay that becomes free (13 R291 to R294; 06 R137). -/

namespace Sys2Proof
namespace Machine

/-! ### Elements in buffers -/

theorem toLE_ofLE (data : List Byte) : toLE data.length (ofLE data) = data := by
  induction data with
  | nil => rfl
  | cons b r ih =>
    have hb := b.isLt
    have hdiv : (b.toNat + 256 * ofLE r) / 256 = ofLE r := by omega
    have hbyte : BitVec.ofNat 8 (b.toNat + 256 * ofLE r) = b := by
      apply BitVec.eq_of_toNat_eq
      rw [BitVec.toNat_ofNat]
      omega
    rw [List.length_cons, ofLE, toLE, hdiv, ih, hbyte]

section
variable {s : State}

/-- Bits that fill whole bytes are those bytes. -/
theorem State.writeBits_bytes {a o : Nat} {data : List Byte} (ho : o % 8 = 0) :
    s.writeBits a o (8 * data.length) (ofLE data) = s.writeAt (a + o / 8) data := by
  have hlen : ceilDiv (o % 8 + 8 * data.length) 8 = data.length := by
    rw [ho, ceilDiv]
    omega
  have hlt := ofLE_lt (s.bytesAt (a + o / 8) data.length)
  rw [State.bytesAt, List.length_map, List.length_range, ← State.bytesAt] at hlt
  have hpow : (2 : Nat) ^ (8 * data.length) = 256 ^ data.length := pow_mul 2 8 data.length
  have hdata := ofLE_lt data
  have hset : setBits (s.numAt (a + o / 8) data.length) 0 (8 * data.length) (ofLE data) = ofLE data := by
    rw [setBits, bits, Nat.shiftRight_zero, hpow, pow_zero, Nat.mul_one, Nat.mul_one, State.numAt, Nat.mod_eq_of_lt hlt,
      Nat.mod_eq_of_lt hdata]
    omega
  unfold State.writeBits
  dsimp only
  rw [hlen, ho, hset, toLE_ofLE]

/-- Elements of whole bytes go where they lie. -/
theorem writePlanes_bytes {a total off n u : Nat} {data : List Byte} (hlen : data.length = n * u) :
    writePlanes a total off n [(8 * u, 1)] data s = s.writeAt (a + off * u) data := by
  have hone (x : Nat) : ceilDiv x 1 = x := by simp [ceilDiv]
  have hunit : unitBytes (8 * u, 1) n = data.length := by
    rw [unitBytes, hone, hlen, ceilDiv]
    have : n * (8 * u) = 8 * (n * u) := by ring
    rw [this]
    omega
  have hwidth : n * (8 * u) = 8 * data.length := by rw [hlen]; ring
  have hplace : off * (8 * u) = 8 * (off * u) := by ring
  rw [writePlanes, writePlanes]
  dsimp only
  rw [hunit, List.take_length, Nat.mod_one, if_pos rfl, hone, hwidth, Nat.div_one, hplace, State.writeBits_bytes (by omega)]
  congr 1
  omega

/-- R293: elements of a format of whole bytes are written to the buffer of their handle, and nowhere else. -/
theorem State.putElems_bytes {c h fmt total off n u : Nat} {data : List Byte} (hplanes : fmtPlanes fmt = [(8 * u, 1)])
    (hlen : data.length = elemBytes fmt n) :
    (s.putElems c h fmt total off n data).bytesAt ((s.slotOf h).base + off * u) data.length = data ∧
    ∀ a, (a < (s.slotOf h).base + off * u ∨ (s.slotOf h).base + off * u + data.length ≤ a) →
      (s.putElems c h fmt total off n data).byteAt a = s.byteAt a := by
  have hlen' : data.length = n * u := by
    rw [hlen, elemBytes, hplanes, List.map_singleton, sumN_cons]
    simp [sumN, unitBytes, ceilDiv]
    have : n * (8 * u) = 8 * (n * u) := by ring
    rw [this]
    omega
  have hmem : (s.putElems c h fmt total off n data).mem = (s.writeAt ((s.slotOf h).base + off * u) data).mem := by
    unfold State.putElems
    dsimp only
    rw [hplanes, writePlanes_bytes hlen']
    exact State.mem_of_form (State.charge_form ..)
  have hbyte (a : Nat) : (s.putElems c h fmt total off n data).byteAt a = (s.writeAt ((s.slotOf h).base + off * u) data).byteAt a := by
    rw [State.byteAt, hmem, ← State.byteAt]
  refine ⟨?_, fun a ha => ?_⟩
  · rw [State.bytesAt_congr fun i _ _ => hbyte i, State.bytesAt_writeAt_same]
  · rw [hbyte, State.byteAt_writeAt, if_neg (by omega)]

end

section
variable {c g id i idx : Nat} {k : Coll} {grp : CollGroup} {s t : State}

/-! ### What completes a collective -/

theorem State.endColl_mem (s : State) (c g id : Nat) : (s.endColl c g id 2).mem = s.mem := by
  have hdone {p q : Prop} : ¬((2 : Nat) ≠ 2 ∧ p ∧ q) := by simp
  have hdropped := s.dropColl_mem c g id (if 2 = 4 then .faulted else .cancelled)
  unfold State.endColl
  split
  · dsimp only
    rw [if_neg hdone]
    split
    · exact (State.mem_of_form (State.arrive_form ..)).trans hdropped
    · exact hdropped
  · rfl

theorem State.checkColl_mem (s : State) (c g id : Nat) : (s.checkColl c g id).mem = s.mem := by
  unfold State.checkColl
  split
  · split
    · exact State.endColl_mem ..
    · rfl
  · rfl

theorem CollGroup.indexOf_lt (h : s.board.pkgId ∈ grp.members) : grp.indexOf s.board.pkgId < grp.count :=
  List.findIdx_lt_length_of_exists ⟨_, h, by simp⟩

/-! ### A slab that opens -/

theorem State.readInput_clean (hclean : s.poison = []) (c h off n : Nat) :
    s.readInput c h off n = (false, s.bytesAt ((s.slotOf h).base + off) n, s.charge c ((s.slotOf h).base + off) n) := by
  have hpoison : s.takePoison ((s.slotOf h).base + off) n = (false, s) := State.takePoison_clean (by simp [hclean])
  unfold State.readInput
  dsimp only
  rw [hpoison]
  rfl

theorem Coll.slab_of_one {b : Slab} (hopen : k.open_ = [b]) (hi : b.index = i) : k.slab i = some b := by
  rw [Coll.slab, hopen, List.find?_cons_of_pos (by simpa using hi)]

/-- In free mode nothing is added to a slab once the own piece is. -/
theorem addReady_of_added {b : Slab} (hk : (s.ctx c).coll g id = some k) (hgrp : (s.ctx c).group g = some grp) (hslab : k.slab i = some b)
    (hfree : k.info.fixed = false) (hadded : b.added.contains (grp.indexOf s.board.pkgId) = true) (hstaged : b.staged = [])
    (hme : grp.indexOf s.board.pkgId ≠ grp.count) (n : Nat) : addReady c g id i n s = s := by
  cases n with
  | zero => rfl
  | succ n =>
    rw [addReady, hk, hgrp]
    dsimp only
    rw [hslab]
    dsimp only
    rw [hfree, hadded, hstaged]
    exact if_neg (Ne.symm hme)

/-- A collective with one open slab changed. -/
def Coll.withSlab (i : Nat) (f : Slab → Slab) (k : Coll) : Coll := { k with open_ := k.open_.map (fun b => if b.index = i then f b else b) }

/-- In free mode the own piece is added as the slab opens. -/
theorem addReady_opens {b : Slab} (hk : (s.ctx c).coll g id = some k) (hgrp : (s.ctx c).group g = some grp) (hopen : k.open_ = [b])
    (hi : b.index = i) (hfree : k.info.fixed = false) (hadded : b.added = []) (hstaged : b.staged = [])
    (hmember : s.board.pkgId ∈ grp.members) (hclean : s.poison = []) (n : Nat) :
    ∃ (v : State) (piece : Row), v.bare = s.bare ∧ v.mem = s.mem ∧ s.out ⊆ v.out ∧
      addReady c g id i (n + 1) s = v.addPiece c g id i (grp.indexOf s.board.pkgId) k.info.redOp piece := by
  have hme := CollGroup.indexOf_lt hmember
  have hturn : (if k.info.fixed = true then b.added.length else if b.added.contains (grp.indexOf s.board.pkgId) = true then grp.count
      else grp.indexOf s.board.pkgId) = grp.indexOf s.board.pkgId := by simp [hfree, hadded]
  rw [addReady, hk, hgrp]
  dsimp only
  rw [Coll.slab_of_one hopen hi]
  dsimp only
  rw [hturn, if_pos rfl, State.readInput_clean hclean, if_neg (by simp)]
  generalize elemsOf k.info.inFmt (k.info.slabAt grp.count i).2.2 _ = piece
  generalize hoff : (s.slotOf k.info.inH).base + elemBytes k.info.inFmt (k.info.slabAt grp.count i).1 = a
  generalize elemBytes k.info.inFmt (k.info.slabAt grp.count i).2.2 = l
  have hcharged := s.charge_bare c a l
  refine ⟨s.charge c a l, piece, hcharged, State.mem_of_form (State.charge_form ..), (State.charge_works (.refl s) ..).out, ?_⟩
  have hk' := (State.coll_of_bare hcharged c g id).trans hk
  have hgrp' := (State.group_of_bare hcharged c g).trans hgrp
  have hid := State.pkgId_of_bare hcharged
  generalize s.charge c a l = v at hk' hgrp' hid
  have hadd := State.coll_onColl hk' (f := Coll.withSlab i (fun b => { b with
    acc := reducePiece k.info.redOp b.acc piece, added := b.added ++ [grp.indexOf s.board.pkgId]
    staged := b.staged.filter (fun e => e.1 != grp.indexOf s.board.pkgId) })) fun _ => rfl
  refine addReady_of_added hadd ((State.group_onColl ..).trans hgrp') (Coll.slab_of_one (b := { b with
    acc := reducePiece k.info.redOp b.acc piece, added := b.added ++ [grp.indexOf s.board.pkgId]
    staged := b.staged.filter (fun e => e.1 != grp.indexOf s.board.pkgId) }) ?_ hi) hfree ?_ ?_ ?_ n
  · simp [Coll.withSlab, hopen, hi]
  · simp [State.onColl, State.onCtx, hid]
  · simp [hstaged]
  · exact hid ▸ hme.ne

/-! ### A slab that opens -/

/-- R292: the owner opens a slab in a bay it holds, grants go to the other members, and the own piece is added. -/
theorem State.openSlab_opens {bay : Nat} {r : List Nat} (hk : (s.ctx c).coll g id = some k) (hgrp : (s.ctx c).group g = some grp)
    (hfree : k.info.fixed = false) (hspare : k.spareBays = bay :: r) (hopen : k.open_ = [])
    (hnext : (k.info.ownSlabs grp (grp.indexOf s.board.pkgId))[k.nextSlab]? = some i)
    (hmember : s.board.pkgId ∈ grp.members) (hclean : s.poison = []) :
    ∃ (y : Coll) (z : Slab), ((s.openSlab c g id).ctx c).coll g id = some y ∧ ((s.openSlab c g id).ctx c).group g = some grp ∧
      y.nextSlab = k.nextSlab + 1 ∧ y.spareBays = r ∧ y.open_ = [z] ∧ z.index = i ∧ z.bay = bay ∧
      z.added = [grp.indexOf s.board.pkgId] ∧ (s.openSlab c g id).mem = s.mem ∧
      ∀ p ∈ grp.members, p ≠ s.board.pkgId → ∃ bs, Out.msg p 0x12 c [g, id, i, grp.indexOf s.board.pkgId, 4, 0] bs ∈
        (s.openSlab c g id).out := by
  unfold State.openSlab
  rw [hk, hgrp]
  dsimp only
  rw [hnext, hspare]
  dsimp only [Option.bind]
  rw [if_pos (.inl (by simp [hfree]))]
  dsimp only
  have htaken := State.coll_onColl hk (f := fun k => { k with spareBays := r }) fun _ => rfl
  generalize hz : (⟨i, bay, 0, List.replicate (k.info.slabAt grp.count i).2.2 0#32, [], []⟩ : Slab) = z
  have hopened := State.coll_onColl htaken (f := fun k => { k with nextSlab := k.nextSlab + 1, bayWait := none, open_ := k.open_ ++ [z] })
    fun _ => rfl
  generalize hu : (s.onColl c g id (fun k => { k with spareBays := r })).onColl c g id (fun k => { k with
    nextSlab := k.nextSlab + 1, bayWait := none, open_ := k.open_ ++ [z] }) = u at hopened
  have hgrp' : (u.ctx c).group g = some grp := by
    rw [← hu, State.group_onColl, State.group_onColl, hgrp]
  have htold := foldl_sendCtl_bare (s := u) (c := c) (g := g) (id := id) (grp.members.filter (fun p => p != s.board.pkgId)) i
    (grp.indexOf s.board.pkgId) 4 0
  have hmem := State.mem_of_form (foldl_sendCtl_form (s := u) (c := c) (g := g) (id := id)
    (grp.members.filter (fun p => p != s.board.pkgId)) i (grp.indexOf s.board.pkgId) 4 0)
  have hsent (p : Nat) (hp : p ∈ grp.members) (hother : p ≠ s.board.pkgId) := State.sendCtl_out (s := u) (c := c) (g := g) (id := id)
    grp.members s.board.pkgId i (grp.indexOf s.board.pkgId) 4 0 hp hother
  have hclean' : ((grp.members.filter (fun p => p != s.board.pkgId)).foldl (fun t p =>
      t.sendCtl c p g id i (grp.indexOf s.board.pkgId) 4 0) u).poison = [] := by
    refine List.foldlRecOn (motive := fun t : State => t.poison = []) _ _ ?_ fun t ht p _ => ?_
    · rw [← hu]
      exact hclean
    · rw [State.sendCtl, State.sendMsg_eq]
      exact ht
  have hid : u.board.pkgId = s.board.pkgId := by rw [← hu]; rfl
  have humem : u.mem = s.mem := by rw [← hu]; rfl
  generalize (grp.members.filter (fun p => p != s.board.pkgId)).foldl (fun t p =>
    t.sendCtl c p g id i (grp.indexOf s.board.pkgId) 4 0) u = v at htold hmem hsent hclean'
  have hvid : v.board.pkgId = s.board.pkgId := (State.pkgId_of_bare htold).trans hid
  subst hz
  obtain ⟨x, piece, hbare, hxmem, hxout, hadded⟩ := addReady_opens
    (b := ⟨i, bay, 0, List.replicate (k.info.slabAt grp.count i).2.2 0#32, [], []⟩) ((State.coll_of_bare htold c g id).trans hopened)
    ((State.group_of_bare htold c g).trans hgrp') (by simp [hopen]) rfl hfree rfl rfl (hvid ▸ hmember) hclean' grp.count
  have hcoll := State.coll_onColl ((State.coll_of_bare hbare c g id).trans ((State.coll_of_bare htold c g id).trans hopened))
    (f := Coll.withSlab i (fun b => { b with
      acc := reducePiece k.info.redOp b.acc piece, added := b.added ++ [grp.indexOf v.board.pkgId]
      staged := b.staged.filter (fun e => e.1 != grp.indexOf v.board.pkgId) })) fun _ => rfl
  have hgroup := (State.group_of_bare hbare c g).trans ((State.group_of_bare htold c g).trans hgrp')
  rw [hadded]
  refine ⟨_, ⟨i, bay, 0, reducePiece k.info.redOp (List.replicate (k.info.slabAt grp.count i).2.2 0#32) piece,
    [grp.indexOf v.board.pkgId], []⟩, hcoll, (State.group_onColl ..).trans hgroup, rfl, rfl, ?_, rfl, rfl, ?_, ?_, fun p hp hother => ?_⟩
  case refine_1 =>
    simp only [Coll.withSlab, hopen, List.nil_append, List.map_singleton, if_true]
    rfl
  · rw [hvid]
  · exact hxmem.trans (hmem.trans humem)
  · obtain ⟨bs, hbs⟩ := hsent p hp hother
    exact ⟨bs, hxout hbs⟩

theorem collSlabOpen_running (hk : (s.ctx c).coll g id = some k) (hrun : k.running = true) :
    collSlabOpen c g id s = finishSlabs c g id (65537 - k.slabsDone) (s.openSlab c g id) := by
  unfold collSlabOpen
  rw [hk]
  exact if_pos hrun

/-! ### Grants -/

/-- R291: a member reads its piece of a granted slab and sends it to the owner. -/
theorem collGrant_sends (hk : (s.ctx c).coll g id = some k) (hgrp : (s.ctx c).group g = some grp) (hreduces : k.info.reduces = true)
    (hi : i < k.info.slabs grp.count) (howner : k.info.ownerOf grp i ≠ grp.indexOf s.board.pkgId) (hnew : i ∉ k.sentPieces)
    (hclean : s.poison = []) : (collGrant c g id i s).mem = s.mem ∧
    ∃ bs, Out.msg (grp.members.getD (k.info.ownerOf grp i) s.board.pkgId) 0x10 c [g, id, i, grp.indexOf s.board.pkgId] bs ∈
      (collGrant c g id i s).out := by
  unfold collGrant
  rw [hk, hgrp]
  dsimp only
  rw [if_neg (by simp [hreduces, howner, hnew, Nat.not_le.mpr hi]), State.readInput_clean hclean, if_neg (by simp)]
  dsimp only
  generalize s.bytesAt _ _ = data
  generalize hv : s.charge c _ _ = v
  have hmem : v.mem = s.mem := hv ▸ State.mem_of_form (State.charge_form ..)
  generalize grp.members.getD (k.info.ownerOf grp i) s.board.pkgId = dst
  generalize grp.indexOf s.board.pkgId = me
  have hsent := v.sendMsg_out dst 0x10 c [g, id, i, me] (toLE 16 (collPrefix g id i me 0 0) ++ data)
  have hsentmem := State.mem_of_form (State.sendMsg_form v dst 0x10 c [g, id, i, me] (toLE 16 (collPrefix g id i me 0 0) ++ data))
  have helems : Out.msg dst 0x10 c [g, id, i, me] (toLE 16 (collPrefix g id i me 0 0) ++ data) ∈ (v.sendElems c dst 0x10 g id i me data).out ∧
      (v.sendElems c dst 0x10 g id i me data).mem = v.mem := by
    unfold State.sendElems
    dsimp only
    split <;> exact ⟨hsent, hsentmem⟩
  refine ⟨(State.checkColl_mem ..).trans (helems.2.trans hmem), _, (State.checkColl_works (.refl _) c g id).out helems.1⟩

/-! ### Pieces and results -/

/-- R293: the owner adds a piece to an open slab that still lacks others. -/
theorem collPiece_adds {b : Slab} {data : List Byte} (hk : (s.ctx c).coll g id = some k) (hgrp : (s.ctx c).group g = some grp)
    (hreduces : k.info.reduces = true) (hfree : k.info.fixed = false) (hopen : k.open_ = [b]) (hi : b.index = i)
    (hown : b.added.contains (grp.indexOf s.board.pkgId) = true) (hnew : idx ∉ b.added) (hstaged : b.staged = []) (hidx : idx < grp.count)
    (hother : idx ≠ grp.indexOf s.board.pkgId) (hmember : s.board.pkgId ∈ grp.members) (hlacks : b.added.length + 1 < grp.count) :
    collPiece c g id i idx data s = s.addPiece c g id i idx k.info.redOp (elemsOf k.info.inFmt (k.info.slabAt grp.count i).2.2 data) := by
  unfold collPiece
  rw [hk, hgrp]
  dsimp only
  rw [if_pos hreduces, State.ownerPiece, Coll.slab_of_one hopen hi]
  dsimp only
  rw [if_neg (by simp [hnew, hstaged, hother, Nat.not_le.mpr hidx]), if_pos (.inl (by simp [hfree]))]
  generalize elemsOf k.info.inFmt (k.info.slabAt grp.count i).2.2 data = piece
  have hadd := State.coll_onColl hk (f := Coll.withSlab i (fun b => { b with
    acc := reducePiece k.info.redOp b.acc piece, added := b.added ++ [idx], staged := b.staged.filter (fun e => e.1 != idx) })) fun _ => rfl
  have hgrp' : ((s.addPiece c g id i idx k.info.redOp piece).ctx c).group g = some grp := (State.group_onColl ..).trans hgrp
  have hone : (k.withSlab i (fun b => { b with
      acc := reducePiece k.info.redOp b.acc piece, added := b.added ++ [idx], staged := b.staged.filter (fun e => e.1 != idx) })).open_ =
      [{ b with acc := reducePiece k.info.redOp b.acc piece, added := b.added ++ [idx], staged := b.staged.filter (fun e => e.1 != idx) }] := by
    simp [Coll.withSlab, hopen, hi]
  have hready := addReady_of_added (s := s.addPiece c g id i idx k.info.redOp piece) hadd hgrp' (Coll.slab_of_one hone hi) hfree
    (by
      simp only [List.contains_eq_mem, List.mem_append, decide_eq_true_eq] at hown ⊢
      exact .inl hown) (by simp [hstaged])
    (CollGroup.indexOf_lt hmember).ne (grp.count + 1)
  rw [hready]
  refine finishSlabs_of_none hadd hgrp' (fun z hz => ?_) _
  rw [hone] at hz
  obtain rfl := List.mem_singleton.mp hz
  simpa using hlacks

/-- A piece of a broadcast goes into the output. -/
theorem collPiece_broadcast {data : List Byte} {u : Nat} (hk : (s.ctx c).coll g id = some k) (hgrp : (s.ctx c).group g = some grp)
    (hop : k.info.op = 4) (hwritten : k.written = []) (hroot : idx = grp.indexOf k.info.root) (hidx : idx < grp.count)
    (hplanes : fmtPlanes k.info.outFmt = [(8 * u, 1)]) (hlen : data.length = elemBytes k.info.outFmt k.info.count) :
    (collPiece c g id i idx data s).bytesAt (s.slotOf k.info.outH).base data.length = data ∧
    ∀ a, (a < (s.slotOf k.info.outH).base ∨ (s.slotOf k.info.outH).base + data.length ≤ a) →
      (collPiece c g id i idx data s).byteAt a = s.byteAt a := by
  have hfits : ¬(k.written.contains idx = true ∨ grp.count ≤ idx ∨ k.info.op = 4 ∧ idx ≠ grp.indexOf k.info.root) := by
    rintro (h | h | ⟨-, h⟩)
    · simp [hwritten] at h
    · omega
    · exact h hroot
  have hpiece : (collPiece c g id i idx data s).mem = (s.putElems c k.info.outH k.info.outFmt (k.info.outCount grp s.board.pkgId) 0
      k.info.count data).mem := by
    unfold collPiece
    rw [hk, hgrp]
    dsimp only
    rw [if_neg (by simp [CollRec.reduces, hop]), State.gatherPiece]
    dsimp only
    rw [if_neg hfits, if_neg (by simp [hop]), if_neg (by simp [hop])]
    exact State.checkColl_mem ..
  have hput := State.putElems_bytes (s := s) (c := c) (h := k.info.outH) (total := k.info.outCount grp s.board.pkgId) (off := 0) hplanes hlen
  rw [Nat.zero_mul, Nat.add_zero] at hput
  have hbyte (a : Nat) : (collPiece c g id i idx data s).byteAt a = (s.putElems c k.info.outH k.info.outFmt
      (k.info.outCount grp s.board.pkgId) 0 k.info.count data).byteAt a := by
    rw [State.byteAt, hpiece, ← State.byteAt]
  refine ⟨?_, fun a ha => (hbyte a).trans (hput.2 a ha)⟩
  rw [State.bytesAt_congr fun a _ _ => hbyte a, hput.1]

/-- R294: a result goes into the output where its slab lies. -/
theorem collResult_writes {data : List Byte} {u : Nat} (hk : (s.ctx c).coll g id = some k) (hgrp : (s.ctx c).group g = some grp)
    (hop : k.info.op = 1) (hi : i < k.info.slabs grp.count) (hnew : i ∉ k.written) (howner : k.info.ownerOf grp i ≠ grp.indexOf s.board.pkgId)
    (hplanes : fmtPlanes k.info.outFmt = [(8 * u, 1)]) (hlen : data.length = elemBytes k.info.outFmt (k.info.slabAt grp.count i).2.2) :
    (collResult c g id i data s).bytesAt ((s.slotOf k.info.outH).base + (k.info.slabAt grp.count i).1 * u) data.length = data ∧
    ∀ a, (a < (s.slotOf k.info.outH).base + (k.info.slabAt grp.count i).1 * u ∨
      (s.slotOf k.info.outH).base + (k.info.slabAt grp.count i).1 * u + data.length ≤ a) →
      (collResult c g id i data s).byteAt a = s.byteAt a := by
  have hresult : (collResult c g id i data s).mem = (s.putElems c k.info.outH k.info.outFmt k.info.count (k.info.slabAt grp.count i).1
      (k.info.slabAt grp.count i).2.2 data).mem := by
    unfold collResult
    rw [hk, hgrp]
    dsimp only
    rw [if_neg (by simp [hop, hnew, howner, Nat.not_le.mpr hi])]
    exact State.checkColl_mem ..
  have hput := State.putElems_bytes (s := s) (c := c) (h := k.info.outH) (total := k.info.count) (off := (k.info.slabAt grp.count i).1)
    hplanes hlen
  have hbyte (a : Nat) : (collResult c g id i data s).byteAt a = (s.putElems c k.info.outH k.info.outFmt k.info.count
      (k.info.slabAt grp.count i).1 (k.info.slabAt grp.count i).2.2 data).byteAt a := by
    rw [State.byteAt, hresult, ← State.byteAt]
  refine ⟨?_, fun a ha => (hbyte a).trans (hput.2 a ha)⟩
  rw [State.bytesAt_congr fun a _ _ => hbyte a, hput.1]

/-! ### A bay that becomes free -/

/-- A collective with no open slab finishes none. -/
theorem finishSlabs_of_closed (hk : (s.ctx c).coll g id = some k) (hopen : k.open_ = []) (n : Nat) : finishSlabs c g id n s = s := by
  cases n with
  | zero => rfl
  | succ n =>
    rw [finishSlabs, hk]
    cases (s.ctx c).group g with
    | none => rfl
    | some grp =>
      dsimp only
      rw [hopen]
      rfl

/-- A collective that finds no bay keeps waiting for one. -/
theorem State.openSlab_waits (hk : (s.ctx c).coll g id = some k) (hspare : k.spareBays = []) (hopen : k.open_ = [])
    (hnone : s.takeBayFor c k = none) : ∃ y, ((s.openSlab c g id).ctx c).coll g id = some y ∧ y.open_ = [] ∧
      (s.openSlab c g id).poolUsed = s.poolUsed ∧ (s.openSlab c g id).floorUsed = s.floorUsed ∧ (s.openSlab c g id).mem = s.mem ∧
      (s.openSlab c g id).out = s.out := by
  unfold State.openSlab
  rw [hk]
  cases (s.ctx c).group g with
  | none => exact ⟨k, hk, hopen, rfl, rfl, rfl, rfl⟩
  | some grp =>
    dsimp only
    split
    · exact ⟨k, hk, hopen, rfl, rfl, rfl, rfl⟩
    · rw [hspare]
      dsimp only
      rw [hnone]
      dsimp only [Option.bind]
      rw [if_neg (by simp)]
      have hwait := State.coll_onColl hk (f := fun y => { y with bayWait := some (y.bayWait.getD s.now) }) fun _ => rfl
      exact ⟨_, (State.coll_of_bare (State.bumpCtx_bare ..) c g id).trans hwait, hopen, rfl, rfl, rfl, rfl⟩

theorem State.takeBayFor_of_full (hfull : 384 ≤ s.floorUsed) (hclaims : s.waitingClaims ≠ []) : s.takeBayFor c k = none := by
  have hnone : s.takeBay = none := by
    unfold State.takeBay
    rw [if_neg (by omega), if_neg (by simp [hclaims])]
  unfold State.takeBayFor
  split
  · split
    · rfl
    · exact hnone
  · exact hnone

end

/-- Settles O29. -/
theorem collectiveData : Obligations.CollectiveData := by
  unfold Obligations.CollectiveData
  refine ⟨fun c g id i b r k grp s hk hgrp hrun hfree hspare hopen hnext hcount hmember hclean => ?_, fun c g id k s hk hidle => ?_,
    fun c g id i k grp s hk hgrp hreduces hi howner hnew hclean => ?_,
    fun c g id i idx data k grp b s hk hgrp hreduces hfree hopen hi hown hnew hstaged hidx hother hmember hlacks =>
      congrArg Host.Outcome.next (collPiece_adds hk hgrp hreduces hfree hopen hi hown hnew hstaged hidx hother hmember hlacks),
    fun c g id i idx data k grp s hk hgrp hop hwritten hroot hidx hfmt hlen => ?_,
    fun c g id i data k grp s hk hgrp hop hi hnew howner hfmt hlen => ?_, fun c g id i idx data grp s hk hgrp hdone => ?_,
    fun s hclaims hcoll => ?_, fun since c g id s hclaims hcoll => ?_, fun since c k g u s hclaims hclaim => ?_,
    fun since c k g since' d h j e s hclaims hclaim hcoll he hrun hspare hfull _ hopen => ?_⟩
  · obtain ⟨y, z, hy, hgrp', hnext', hspare', hopen', hz, hbay, hadded, hmem, hsent⟩ := State.openSlab_opens hk hgrp hfree hspare hopen
      hnext hmember hclean
    have hopened := (collSlabOpen_running hk hrun).trans (finishSlabs_of_none hy hgrp' (by simp [hopen', hadded, hcount]) _)
    exact ⟨_, y, z, congrArg Host.Outcome.next hopened, hy, hnext', hspare', hopen', hz, hbay, hadded, hmem, hsent⟩
  · refine congrArg Host.Outcome.next ?_
    unfold collSlabOpen
    rw [hk]
    exact if_neg (by simp [hidle])
  · obtain ⟨hmem, bs, hsent⟩ := collGrant_sends hk hgrp hreduces hi howner hnew hclean
    exact ⟨_, bs, rfl, hmem, hsent⟩
  · have hplanes : ∃ u, fmtPlanes k.info.outFmt = [(8 * u, 1)] := by
      rcases hfmt with hfmt | hfmt | hfmt <;> rw [hfmt]
      exacts [⟨4, rfl⟩, ⟨2, rfl⟩, ⟨1, rfl⟩]
    obtain ⟨u, hplanes⟩ := hplanes
    exact ⟨_, rfl, collPiece_broadcast hk hgrp hop hwritten hroot hidx hplanes hlen⟩
  · intro a0
    have hplanes : fmtPlanes k.info.outFmt = [(8 * (if k.info.outFmt = 0 then 4 else 2), 1)] := by
      obtain hfmt | hfmt : k.info.outFmt = 0 ∨ k.info.outFmt = 1 := by omega
      all_goals rw [hfmt]; rfl
    exact ⟨_, rfl, collResult_writes hk hgrp hop hi hnew howner hplanes hlen⟩
  · have hstale := State.staleColl_counts (s := s) (id := id) hgrp hdone
    refine ⟨congrArg Host.Outcome.next ?_, congrArg Host.Outcome.next ?_, congrArg Host.Outcome.next ?_⟩
    · rw [collPiece, hk]
      exact hstale
    · rw [collGrant, hk]
      exact hstale
    · rw [collResult, hk]
      exact hstale
  · refine congrArg Host.Outcome.next ?_
    rw [bayFree, hclaims, List.length_nil, serveClaims, hcoll]
  · refine congrArg Host.Outcome.next ?_
    rw [bayFree, hclaims, List.length_nil, serveClaims, hcoll]
  · intro t
    have hserved : serveClaims s.waitingClaims.length s = t := by
      rw [hclaims, List.length_singleton, serveClaims, hclaims, minBy, minBy]
      dsimp only
      rw [hclaim]
      rfl
    refine ⟨fun hnone => congrArg Host.Outcome.next ?_, fun since' d h j hsome => congrArg Host.Outcome.next ?_⟩
    · rw [bayFree, hserved, hnone]
    · rw [bayFree, hserved, hsome]
  · have hserved : serveClaims s.waitingClaims.length s = s := by
      rw [hclaims, List.length_singleton, serveClaims, hclaims, minBy, minBy]
      dsimp only
      rw [hclaim]
    obtain ⟨y, hy, hopen', hpool, hfloor, hmem, hout⟩ := State.openSlab_waits he hspare hopen
      (State.takeBayFor_of_full hfull (by simp [hclaims]))
    have hfree : bayFree s = s.openSlab d h j := by
      rw [bayFree, hserved, hcoll]
      exact (collSlabOpen_running he hrun).trans (finishSlabs_of_closed hy hopen' _)
    exact ⟨_, congrArg Host.Outcome.next hfree, hpool, hfloor, hmem, hout⟩

end Machine
end Sys2Proof
end

section
/-! PROOFS. Khan: allocation, freeing, quotas, refills and moves of chunks (12 R254, R255, R257 to R263). -/

namespace Sys2Proof
namespace Machine

section
variable {w c engine tier die n h a pool k : Nat} {m : Msg} {s u : State}

/-! ### Pools -/

theorem Ctx.pool_onPool (x : Ctx) (f : Pool → Pool) (hp : pool < x.khan.pools.length) : (x.onPool pool f).pool pool = f (x.pool pool) :=
  updAt_getD_same _ _ _ _ hp

theorem State.pool_onPool (hlen : c < s.ctxs.length) (hp : pool < (s.ctx c).khan.pools.length) (f : Pool → Pool) :
    ((s.onCtx c (fun x => x.onPool pool f)).ctx c).pool pool = f ((s.ctx c).pool pool) := by
  rw [State.ctx_onCtx _ _ _ _ hlen, if_pos rfl, Ctx.pool_onPool _ _ hp]

theorem State.khan_bumpCtx (s : State) (d c : Nat) (r : Ctr) (n : Nat) : ((s.bumpCtx d r n).ctx c).khan = (s.ctx c).khan := by
  rw [State.ctx_bumpCtx]

theorem Ctx.pool_of_khan {x y : Ctx} (h : x.khan = y.khan) (p : Nat) : x.pool p = y.pool p := by
  rw [Ctx.pool, h, ← Ctx.pool]

theorem classBytes_mono {i j : Nat} (h : i ≤ j) : classBytes i ≤ classBytes j := Nat.mul_le_mul_left 256 (Nat.pow_le_pow_right (by omega) h)

theorem chunkBytes_eq : chunkBytes = 4194304 := rfl

theorem le_classBytes_classFor (hn : n ≤ 4194304) : n ≤ classBytes (classFor n) := by
  have hfound : (firstBelow 8 (fun c => decide (n ≤ classBytes c))).isSome = true :=
    List.find?_isSome.mpr ⟨7, by decide, decide_eq_true hn⟩
  obtain ⟨i, hi⟩ := Option.isSome_iff_exists.mp hfound
  rw [classFor, hi]
  simpa using List.find?_some hi

/-- A free block of a class lies in a chunk of it, on a multiple of its size, and is not used. -/
theorem Pool.mem_freeBlocks {p : Pool} {cls : Nat} (h : a ∈ p.freeBlocks cls) :
    p.used.find a = none ∧ ∃ b i, (b, cls) ∈ p.chunks ∧ i < chunkBytes / classBytes cls ∧ a = b + i * classBytes cls := by
  rw [Pool.freeBlocks, List.mem_flatten] at h
  obtain ⟨l, hl, ha⟩ := h
  obtain ⟨e, he, rfl⟩ := List.mem_map.mp hl
  obtain ⟨hchunk, hcls⟩ := List.mem_filter.mp he
  obtain ⟨hblock, hfree⟩ := List.mem_filter.mp ha
  obtain ⟨i, hi, rfl⟩ := List.mem_map.mp hblock
  obtain rfl : e.2 = cls := by simpa using hcls
  exact ⟨by simpa using hfree, e.1, i, hchunk, List.mem_range.mp hi, rfl⟩

/-! ### Allocation -/

/-- R255: an allocation of at most a chunk takes one free block of a class that holds it. -/
theorem Ctx.plan_takes {x : Ctx} {p pick : Nat} {blocks : List Nat} {cls falls : Nat} (hn : n ≤ 4194304)
    (hplan : x.plan p engine n pick = .inr (blocks, cls, falls)) : ∃ b, blocks = [b] ∧ b ∈ (x.pool p).freeBlocks cls ∧
      n ≤ classBytes cls ∧ cls < 8 := by
  unfold Ctx.plan at hplan
  dsimp only at hplan
  rw [if_pos (chunkBytes_eq ▸ hn)] at hplan
  split at hplan
  · cases hplan
  · next cls' hcls =>
    split at hplan
    · cases hplan
    · cases hplan
      obtain ⟨hle, hsome⟩ : classFor n ≤ cls ∧ (x.pool p).freeBlocks cls ≠ [] := by simpa using List.find?_some hcls
      have hlt : pick % ((x.pool p).freeBlocks cls).length < ((x.pool p).freeBlocks cls).length :=
        Nat.mod_lt _ (List.length_pos_of_ne_nil hsome)
      refine ⟨_, rfl, ?_, (le_classBytes_classFor hn).trans (classBytes_mono hle), List.mem_range.mp (List.mem_of_find?_eq_some hcls)⟩
      rw [List.getD_eq_getElem _ _ hlt]
      exact List.getElem_mem hlt

/-- What an allocation leaves of the state. -/
theorem State.khanAlloc_some (halloc : s.khanAlloc c tier die engine n = (some (h, a), u)) :
    ∃ (blocks : List Nat) (cls falls slot tag : Nat) (f : Khan → Khan),
      (s.ctx c).plan (poolIdx tier die) engine n s.draw.1 = .inr (blocks, cls, falls) ∧ a = blocks.headD 0 ∧
      h = handleOf tier die c slot tag ∧ (∀ y, (f y).pools = y.pools) ∧
      u = ((s.draw.2.onCtx c (fun y => { y.take (poolIdx tier die) engine blocks cls with
        khan := f (y.take (poolIdx tier die) engine blocks cls).khan })).bumpCtx c .khanAllocs 1).bumpCtx c .khanFallbacks falls := by
  unfold State.khanAlloc at halloc
  dsimp only at halloc
  split at halloc
  · cases halloc
  · cases halloc
  · next blocks cls falls slot hplan hslot =>
    cases halloc
    exact ⟨blocks, cls, falls, slot, _, fun k => { k with
      slots := k.slots.put slot ⟨blocks.headD 0, n, cls, engine, ((((s.ctx c).khan.slots.find slot).map (·.tag)).getD 0 + 1) % 64, true⟩
      nextNew := if (s.ctx c).khan.nextNew ≤ 262143 then (s.ctx c).khan.nextNew + 1 else (s.ctx c).khan.nextNew
      freed := if (s.ctx c).khan.nextNew ≤ 262143 then (s.ctx c).khan.freed else (s.ctx c).khan.freed.drop 1 },
      hplan, rfl, rfl, fun _ => rfl, rfl⟩

theorem hCtx_handleOf (tier die c slot tag : Nat) : hCtx (handleOf tier die c slot tag) = c % 16 :=
  bits_packF (lo := 0) (hi := 32) (by simp [Apart]) (by simp)

theorem State.khanAlloc_allocates (hlen : c < s.ctxs.length) (hn : n ≤ 4194304)
    (hp : poolIdx tier die < (s.ctx c).khan.pools.length) (halloc : s.khanAlloc c tier die engine n = (some (h, a), u)) :
    hCtx h = c % 16 ∧ ((s.ctx c).pool (poolIdx tier die)).used.find a = none ∧
    ((u.ctx c).pool (poolIdx tier die)).used.find a = some engine ∧
    (∃ k, n ≤ classBytes k ∧ k < 8 ∧ ∃ b, (b, k) ∈ ((s.ctx c).pool (poolIdx tier die)).chunks ∧ b ≤ a ∧
      a + classBytes k ≤ b + 4194304 ∧ (a - b) % classBytes k = 0) := by
  obtain ⟨blocks, cls, falls, slot, tag, f, hplan, rfl, rfl, hpools, rfl⟩ := State.khanAlloc_some halloc
  obtain ⟨b, rfl, hfree, hfits, hcls⟩ := Ctx.plan_takes hn hplan
  obtain ⟨hunused, base, i, hchunk, hi, hb⟩ := Pool.mem_freeBlocks hfree
  have hdiv := Nat.div_mul_le_self chunkBytes (classBytes cls)
  have hblock : (i + 1) * classBytes cls ≤ chunkBytes := (Nat.mul_le_mul_right _ hi).trans hdiv
  rw [Nat.succ_mul, chunkBytes_eq] at hblock
  refine ⟨hCtx_handleOf .., hunused, ?_, cls, hfits, hcls, base, hchunk, ?_, ?_, ?_⟩
  · have hlen' : c < s.draw.2.ctxs.length := hlen
    rw [Ctx.pool_of_khan (State.khan_bumpCtx ..), Ctx.pool_of_khan (State.khan_bumpCtx ..), State.ctx_onCtx _ _ _ _ hlen', if_pos rfl]
    have hpool : (((s.ctx c).take (poolIdx tier die) engine [b] cls).pool (poolIdx tier die)).used =
        ((s.ctx c).pool (poolIdx tier die)).used.put b engine := congrArg Pool.used (Ctx.pool_onPool _ _ hp)
    rw [Ctx.pool] at hpool ⊢
    rw [hpools]
    exact (congrArg (fun t : Tbl Nat => t.find b) hpool).trans (Tbl.find_put_same ..)
  · change base ≤ b
    omega
  · change b + classBytes cls ≤ base + 4194304
    omega
  · change (b - base) % classBytes cls = 0
    rw [hb, Nat.add_sub_cancel_left, Nat.mul_mod_left]

theorem khan_alloc (htakes : Takes s w 0x0310 m) (hspells : Spells [.u8, .u8, .u8, .u64] m [c, tier, die, n]) (hadmits : Admits s m c)
    (htier : tier < 3) (hdie : die ≤ 3) (hwhere : die = 0 ∨ tier = 2) (hn : n ≤ 1048576 * (if tier = 0 then (s.ctx c).share.stagingMib
      else if tier = 1 then (s.ctx c).share.t1Mib else (s.ctx c).share.t2Mib.getD die 0)) : exec (.pmpKhanAlloc w) s = .next
      ((if n = 0 then Act.ok s [(.u32, 0), (.u64, 0)]
        else match s.khanAlloc c tier die 0 n with
          | (some h, t) => .ok t [(.u32, h.1), (.u64, s.board.pkgId * 2 ^ 57 + h.2)]
          | (none, t) => .no t .noMemory).outcome m 0x0310) := by
  have hlim : decide (n > mib * (if tier = 0 then (s.ctx c).share.stagingMib else if tier = 1 then (s.ctx c).share.t1Mib
      else (s.ctx c).share.t2Mib.getD die 0)) = false := decide_eq_false (Nat.not_lt.mpr hn)
  change Host.Outcome.next (commitMsg w 0x0310 (withCtx _ khanAllocMsg) s) = _
  rw [commitCtx_outcome _ htakes hspells hadmits, khanAllocMsg, hlim, checked_pass _ _ (by simp; omega)] <;> rfl

/-! ### Freeing -/

theorem khan_free (htakes : Takes s w 0x0311 m) (hspells : Spells [.u8, .u32] m [c, h]) (hadmits : Admits s m c)
    (hgood : s.handleBad c h = none) : exec (.pmpKhanFree w) s = .next (answered
      (if ((s.ctx c).pool (hPool h)).badFree (s.slotOf h).base then s.badFree c (s.slotOf h).base
       else if (s.ctx c).genNames h then
         (if (s.ctx c).khan.deferred.contains h then s
          else (s.onCtx c (fun x => { x with khan := { x.khan with deferred := x.khan.deferred ++ [h] } })).bumpCtx c .khanDeferredFrees 1)
       else s.khanFree h) m 0x0311 []) := by
  change Host.Outcome.next (commitMsg w 0x0311 (withCtx _ khanFreeMsg) s) = _
  rw [commitCtx_outcome _ htakes hspells hadmits, khanFreeMsg, hgood]
  dsimp only
  split
  · rfl
  · split <;> rfl

theorem khan_free_bad {st : Status} (htakes : Takes s w 0x0311 m) (hspells : Spells [.u8, .u32] m [c, h]) (hadmits : Admits s m c)
    (hbad : s.handleBad c h = some st) : exec (.pmpKhanFree w) s = .next (s.complete m fwQuarter st []) := by
  change Host.Outcome.next (commitMsg w 0x0311 (withCtx _ khanFreeMsg) s) = _
  rw [commitCtx_outcome _ htakes hspells hadmits, khanFreeMsg, hbad]
  rfl

theorem hCtx_of_good (hgood : s.handleBad c h = none) : hCtx h = c := by
  unfold State.handleBad at hgood
  by_contra hne
  rw [if_pos hne] at hgood
  cases hgood

/-- R261: the slot of a freed allocation is dead, and may be taken again after those freed before it. -/
theorem State.khanFree_frees (hlen : hCtx h < s.ctxs.length) :
    (∃ k, ((s.khanFree h).ctx (hCtx h)).khan.slots.find (hSlot h) = some k ∧ k.live = false) ∧
    ((s.khanFree h).ctx (hCtx h)).khan.freed = (s.ctx (hCtx h)).khan.freed ++ [hSlot h] := by
  unfold State.khanFree
  dsimp only
  rw [State.khan_bumpCtx, State.ctx_onCtx _ _ _ _ hlen, if_pos rfl]
  exact ⟨⟨_, Tbl.find_put_same .., rfl⟩, rfl⟩

theorem khan_quota {quota : Nat} (htakes : Takes s w 0x0312 m) (hspells : Spells [.u8, .u8, .u8, .u8, .u64] m [c, engine, tier, die, quota])
    (hadmits : Admits s m c) (hengine : engine ≤ 0xB) (htier : tier < 3) (hdie : die ≤ 3) (hwhere : die = 0 ∨ tier = 2)
    (hquota : quota ≤ noQuota) : exec (.pmpKhanQuota w) s = .next (answered (s.onCtx c (fun x => { x with khan := { x.khan with
      quotas := x.khan.quotas.setD noQuota (engine * 8 + poolIdx tier die) quota } })) m 0x0312 []) := by
  have hlim : decide (quota > noQuota) = false := decide_eq_false (Nat.not_lt.mpr hquota)
  change Host.Outcome.next (commitMsg w 0x0312 (withCtx _ khanQuota) s) = _
  rw [commitCtx_outcome _ htakes hspells hadmits, khanQuota, hlim]
  rw [checked_pass _ _ (by simp; omega)]
  rfl

theorem poolIdx_lt (tier die : Nat) : poolIdx tier die < 6 := by
  unfold poolIdx
  split <;> omega

theorem Ctx.quota_setD {x y : Ctx} {q : Nat} (hy : y.khan.quotas = x.khan.quotas.setD noQuota (engine * 8 + pool) q) (hpool : pool < 8) :
    y.quota engine pool = q ∧ ∀ e p, p < 8 → ¬(e = engine ∧ p = pool) → y.quota e p = x.quota e p := by
  unfold Ctx.quota
  rw [hy]
  refine ⟨Tbl.getD_setD_same .., fun e p hp hne => ?_⟩
  rw [Tbl.getD_setD, if_neg (by omega)]

/-! ### Engines -/

theorem khanFreeEngine_bad (hst : (s.ctx c).st = .active) (hpool : pool < 6) (hbad : ((s.ctx c).pool pool).badFree a = true) :
    khanFreeEngine c pool a s = s.badFree c a := by
  unfold khanFreeEngine
  rw [if_neg (by simp [hst, hpool]), if_pos hbad]

theorem khanFreeEngine_frees (hst : (s.ctx c).st = .active) (hpool : pool < 6) (hgood : ((s.ctx c).pool pool).badFree a = false)
    (hnone : ∀ e ∈ (s.ctx c).khan.slots, ¬(e.2.live = true ∧ e.2.base = a)) :
    khanFreeEngine c pool a s = (s.onCtx c (fun x => x.giveBack pool [a])).bumpCtx c .khanFrees 1 := by
  have hfind : (s.ctx c).khan.slots.find? (fun e => e.2.live && e.2.base == a) = none :=
    List.find?_eq_none.mpr fun e he => by simpa using hnone e he
  unfold khanFreeEngine
  rw [if_neg (by simp [hst, hpool]), if_neg (by simp [hgood]), hfind]

/-- R263: what a refill makes of the count of cached blocks of a class. -/
def Pool.refilled (p : Pool) (k : Nat) : Nat :=
  if p.cached.getD k 0 < 64 then p.cached.getD k 0 + Nat.min 128 (p.freeCount k - p.cached.getD k 0)
  else if 448 < p.cached.getD k 0 then p.cached.getD k 0 - 128 else p.cached.getD k 0

theorem khanRefill_refills (hlen : c < s.ctxs.length) (hst : (s.ctx c).st = .active) (hpool : pool < 6) (hk : k < 8)
    (hp : pool < (s.ctx c).khan.pools.length) (hcached : k < ((s.ctx c).pool pool).cached.length) : (khanRefill c pool k s).mem = s.mem ∧
    (((khanRefill c pool k s).ctx c).pool pool).used = ((s.ctx c).pool pool).used ∧
    (((khanRefill c pool k s).ctx c).pool pool).cached.getD k 0 = ((s.ctx c).pool pool).refilled k := by
  unfold khanRefill Pool.refilled
  dsimp only
  rw [if_neg (by simp [hst]; omega)]
  split
  · rw [State.pool_onPool hlen hp]
    exact ⟨rfl, rfl, updAt_getD_same _ _ _ _ hcached⟩
  · split
    · rw [State.pool_onPool hlen hp]
      exact ⟨rfl, rfl, updAt_getD_same _ _ _ _ hcached⟩
    · exact ⟨rfl, rfl, rfl⟩

theorem khanChunkMove_moves {chunk old : Nat} (hst : (s.ctx c).st = .active) (hpool : pool < 6) (hk : k < 8)
    (hchunk : ((s.ctx c).pool pool).chunks.find chunk = some old) (hne : old ≠ k) (hempty : ((s.ctx c).pool pool).freeCount k = 0)
    (hunused : ∀ e ∈ ((s.ctx c).pool pool).used, e.1 / 4194304 * 4194304 ≠ chunk) (hrun : (s.fw fwQuarter).st = .running) :
    khanChunkMove c pool chunk k s = s.onCtx c (fun x => x.onPool pool (fun q => { q with
      chunks := q.chunks.put chunk k
      cached := updAt q.cached old (fun k => Nat.min k (q.freeCount old - chunkBytes / classBytes old)) })) := by
  have hnone : ((s.ctx c).pool pool).used.any (fun e => e.1 / chunkBytes * chunkBytes == chunk) = false :=
    List.any_eq_false.mpr fun e he => by simpa [chunkBytes_eq] using hunused e he
  unfold khanChunkMove
  dsimp only
  rw [hchunk]
  dsimp only
  rw [if_neg (by simp only [hst, hne, hempty, hnone, hrun]; simp; omega)]

end

/-- Settles O20. -/
theorem khanAllocation : Obligations.KhanAllocation := by
  unfold Obligations.KhanAllocation
  refine ⟨fun w c tier die n h a u m s htakes hspells hadmits htier hdie hwhere hn => ⟨fun hzero => ?_, fun hne halloc => ?_,
      fun hne halloc => ?_⟩, fun c engine tier die n h a u s hlen _ hn hp halloc => ?_,
    fun w c h m s htakes hspells hadmits hgood => ⟨fun hbad => ?_, fun hfree hnamed => ?_, fun hfree hnamed hnew => ?_⟩,
    fun w c h st m s htakes hspells hadmits hbad => khan_free_bad htakes hspells hadmits hbad,
    fun w c engine tier die quota m s htakes hspells hadmits hengine htier hdie hwhere hquota => ?_,
    fun c engine tier die n s hst hn hengine htier hdie => congrArg Host.Outcome.next (if_neg (by simp [hst]; omega)),
    fun c pool a s hst hpool hbad => ?_, fun c pool a k s hlen hst hpool hp hcls halign hused hnone => ?_,
    fun c pool k s hlen hst hpool hk hp hcached => ⟨_, rfl, khanRefill_refills hlen hst hpool hk hp hcached⟩,
    fun c pool chunk old k s hlen hst hpool hk hp hchunk hne hempty hunused hrun => ?_⟩
  · rw [khan_alloc htakes hspells hadmits htier hdie hwhere hn, if_pos hzero]
    rfl
  · rw [khan_alloc htakes hspells hadmits htier hdie hwhere hn, if_neg hne, halloc]
    rfl
  · rw [khan_alloc htakes hspells hadmits htier hdie hwhere hn, if_neg hne, halloc]
    rfl
  · obtain ⟨hctx, hunused, hused, hblock⟩ := State.khanAlloc_allocates hlen hn hp halloc
    have hform := congrArg (fun x => x.2.form) halloc
    have hseqs := congrArg (fun x => x.2.seqs) halloc
    exact ⟨hctx, hunused, hused, hblock, State.mem_of_form (hform.symm.trans (State.khanAlloc_form ..)),
      hseqs.symm.trans (State.khanAlloc_seqs ..)⟩
  · rw [khan_free htakes hspells hadmits hgood, if_pos hbad]
  · have hc := hCtx_of_good hgood
    have hlen : hCtx h < s.ctxs.length := hc ▸ State.lt_of_active hadmits.given
    obtain ⟨hdead, hfreed⟩ := State.khanFree_frees hlen
    rw [hc] at hdead hfreed
    refine ⟨_, ?_, hdead, hfreed, State.mem_of_form (State.khanFree_form ..), State.khanFree_seqs ..⟩
    rw [khan_free htakes hspells hadmits hgood, if_neg (by simp [hfree]), if_neg (by simp [hnamed])]
  · refine ⟨(s.onCtx c (fun x => { x with khan := { x.khan with deferred := x.khan.deferred ++ [h] } })).bumpCtx c .khanDeferredFrees 1,
      ?_, ?_, rfl, rfl⟩
    · rw [khan_free htakes hspells hadmits hgood, if_neg (by simp [hfree]), if_pos hnamed, if_neg (by simpa using hnew)]
    · rw [State.khan_bumpCtx, State.ctx_onCtx _ _ _ _ (State.lt_of_active hadmits.given), if_pos rfl]
  · have hset : ((s.onCtx c (fun x => { x with khan := { x.khan with
        quotas := x.khan.quotas.setD noQuota (engine * 8 + poolIdx tier die) quota } })).ctx c).khan.quotas =
        (s.ctx c).khan.quotas.setD noQuota (engine * 8 + poolIdx tier die) quota := by
      rw [State.ctx_onCtx _ _ _ _ (State.lt_of_active hadmits.given), if_pos rfl]
    have hpool := poolIdx_lt tier die
    obtain ⟨hquotas, hothers⟩ := Ctx.quota_setD hset (by omega)
    exact ⟨_, khan_quota htakes hspells hadmits hengine htier hdie hwhere hquota, hquotas, hothers, rfl, rfl⟩
  · refine ⟨_, congrArg Host.Outcome.next (khanFreeEngine_bad hst hpool hbad), State.khan_bumpCtx .., ?_, rfl⟩
    exact ⟨_, List.mem_append_right _ (List.mem_singleton_self _), rfl, rfl, rfl, rfl⟩
  · have hgood : ((s.ctx c).pool pool).badFree a = false := by
      unfold Pool.badFree
      rw [hcls]
      simp [halign, hused]
    have hpool' := State.pool_onPool hlen hp (fun q => { q with
      used := [a].foldl (fun t a => t.del a) q.used
      cached := updAt q.cached ((q.classOf ([a].headD 0)).getD 0) (fun n => Nat.min 512 (n + [a].length)) })
    refine ⟨_, congrArg Host.Outcome.next (khanFreeEngine_frees hst hpool hgood hnone), ?_, ?_, rfl, rfl⟩
    · rw [Ctx.pool_of_khan (State.khan_bumpCtx ..)]
      exact congrArg Pool.used hpool'
    · rw [State.khan_bumpCtx, State.ctx_onCtx _ _ _ _ hlen, if_pos rfl]
      rfl
  · refine ⟨_, congrArg Host.Outcome.next (khanChunkMove_moves hst hpool hk hchunk hne hempty hunused hrun), ?_, ?_, rfl⟩
    · rw [State.pool_onPool hlen hp]
      exact Tbl.find_put_same ..
    · rw [State.pool_onPool hlen hp]

end Machine
end Sys2Proof
end

section
/-! PROOFS. An eviction that finds no room (11 R240): the model adds 0 to its counter of blocked requests where the request was
counted before, and the addition wraps what the counter holds to its width. -/

namespace Sys2Proof
namespace Machine

/-! ### The state that refutes O19 -/

/-- A column of one granule in T2. -/
def blockedCol : Col := ⟨false, [addr 2 0], 1, [], 0, none, []⟩

/-- A context without T4 and lots that waits for the granules of one full column and was counted as blocked before; its counter of
blocked requests lists a number that its 4 bytes do not hold. -/
def blockedCtx : Ctx := { Ctx.fresh with
  st := .active
  model := some ⟨none, false, 2, 64, 16, 1, 64, 0, 0, [0], [3, 3], [[1, 2], []], [], true⟩
  kv := { Kv.fresh with cols := [(0, blockedCol)], nextCol := 1, wanted := (1, 0), blocked := true }
  ctr := [(Ctr.evictBlocked.ctorIdx, 2 ^ 32)] }

def blockedAgain : State := { State.reset with ctxs := [blockedCtx] }

theorem blockedAgain_victims : blockedAgain.allVictims 0 = [(2 ^ 64, addr 2 0, .col 0)] := by decide +kernel

theorem blockedAgain_full : blockedAgain.t4Room 0 ((blockedCtx.kv.col 0).granules.length * granule) = false := by decide +kernel

/-- The counter of blocked requests before and after. -/
theorem blockedAgain_counts : ctrGet (blockedAgain.ctx 0).ctr .evictBlocked = 2 ^ 32 ∧
    ctrGet ((kvEviction 0 none blockedAgain).ctx 0).ctr .evictBlocked = 0 := by decide +kernel

/-- Refutes O19 in its clause on an eviction that nothing has room for: the clause has the counter of a context that was blocked
before left as it is, and in `blockedAgain` it goes from 2^32 to 0. -/
theorem not_tiersAndLending : ¬ Obligations.TiersAndLending := by
  unfold Obligations.TiersAndLending
  rintro ⟨-, -, -, -, -, -, -, -, -, -, -, -, -, -, -, hevict, -⟩
  obtain ⟨-, hfull⟩ := hevict 0 (2 ^ 64) (addr 2 0) 0 none blockedAgain (by decide) (by decide) rfl blockedAgain_victims rfl rfl rfl
    (by decide)
  obtain ⟨t, hnext, -, -, -, -, -, -, hkept⟩ := hfull blockedAgain_full
  have ht : kvEviction 0 none blockedAgain = t := Host.Outcome.next.inj hnext
  have hsame := hkept rfl
  rw [← ht, blockedAgain_counts.1, blockedAgain_counts.2] at hsame
  exact absurd hsame (by decide)

end Machine
end Sys2Proof
end

section
/-! PROOFS. Residency messages and counter messages (7 R163 to R169). -/

namespace Sys2Proof
namespace Machine

/-! ### The state but for the tables and what `State.bare` leaves out -/

def Ctx.untabled (x : Ctx) : Ctx := { x with
  route := Ctx.fresh.route, sfn := Ctx.fresh.sfn, lay := Ctx.fresh.lay, guideWait := [], copyBytes := 0, copyH := [] }

/-- A context but for its tables and what `Ctx.bare` leaves out. -/
def Ctx.plain (x : Ctx) : Ctx := x.bare.untabled

/-- The state but for the contexts' tables and what `State.bare` leaves out. -/
def State.plain (s : State) : State := { s.bare with ctxs := s.bare.ctxs.map Ctx.untabled }

section
variable {s t u : State} {c : Nat}

theorem State.plain_of_bare (h : t.bare = s.bare) : t.plain = s.plain :=
  congrArg (fun v : State => { v with ctxs := v.ctxs.map Ctx.untabled }) h

theorem State.plain_ctxs (s : State) : s.plain.ctxs = s.ctxs.map Ctx.plain := by
  simp [State.plain, State.bare, State.stripped, State.still, Function.comp_def, Ctx.plain, Ctx.bare]

theorem State.ctx_plain_of (h : t.plain = s.plain) (c : Nat) : (t.ctx c).plain = (s.ctx c).plain := by
  have hctx (u : State) : u.plain.ctx c = (u.ctx c).plain := by
    rw [State.ctx, State.plain_ctxs]
    exact List.getD_map (f := Ctx.plain) (l := u.ctxs) (d := Ctx.fresh)
  rw [← hctx, h, hctx]

theorem State.ctxs_length_of_plain (h : t.plain = s.plain) : t.ctxs.length = s.ctxs.length := by
  have hlen := congrArg (fun u : State => u.ctxs.length) h
  simpa [State.plain_ctxs] using hlen

theorem State.resid_of_plain (h : t.plain = s.plain) (c : Nat) : (t.ctx c).resid = (s.ctx c).resid := by
  have hresid := congrArg Ctx.resid (State.ctx_plain_of h c)
  exact hresid

theorem plain_foldl {α : Type} {f : State → α → State} (l : List α) (h : ∀ t a, (f t a).plain = t.plain) : (l.foldl f s).plain = s.plain :=
  List.foldlRecOn (motive := fun t : State => t.plain = s.plain) _ _ rfl fun t ht a _ => (h t a).trans ht

theorem plain_ite {p : Prop} [Decidable p] (hs : s.plain = u.plain) (ht : t.plain = u.plain) : (if p then s else t).plain = u.plain := by
  split
  exacts [hs, ht]

theorem State.onCtx_plain (c : Nat) {f : Ctx → Ctx} (h : ∀ x, (f x).plain = x.plain) : (s.onCtx c f).plain = s.plain := by
  have hmap : (s.onCtx c f).plain.ctxs = s.plain.ctxs := by
    rw [State.plain_ctxs, State.plain_ctxs]
    exact updAt_map_of_eq _ _ h
  exact congrArg (fun cs => { s.plain with ctxs := cs }) hmap

theorem State.freeDeferred_plain (c : Nat) : (s.freeDeferred c).plain = s.plain :=
  (plain_foldl _ fun _ h => State.plain_of_bare (State.khanDrop_bare h)).trans (State.onCtx_plain c fun _ => by rfl)

theorem State.fitCopies_plain (c n : Nat) : (s.fitCopies c n).2.plain = s.plain := by
  unfold State.fitCopies
  split
  · rfl
  · have hdrop : ((s.ctx c).copyH.foldl State.khanDrop s).bare = s.bare := bare_foldl _ fun _ h => State.khanDrop_bare h
    split
    · exact State.onCtx_plain c fun _ => by rfl
    · next g t ht =>
      have htb : t.bare = s.bare := (congrArg (fun x => x.2.bare) ht).symm.trans ((State.khanAlloc_bare ..).trans hdrop)
      split
      · exact State.onCtx_plain c fun _ => by rfl
      · next g u hu =>
        exact (State.onCtx_plain c fun _ => by rfl).trans (State.plain_of_bare
          ((congrArg (fun x => x.2.bare) hu).symm.trans ((State.khanAlloc_bare ..).trans htb)))

theorem State.takeChange_plain (c : Nat) (m : Msg) : (s.takeChange c m).plain = s.plain :=
  (State.plain_of_bare (State.setPhase_bare ..)).trans (State.onCtx_plain c fun x => by dsimp only; split_ifs <;> rfl)

theorem Ctx.plain_guideWait (x : Ctx) (l : List GuideChange) : { x with guideWait := l }.plain = x.plain := rfl

theorem foldl_mergeGuide_plain (l : List GuideChange) (x : Ctx) : (l.foldl Ctx.mergeGuide x).plain = x.plain :=
  List.foldlRecOn (motive := fun y : Ctx => y.plain = x.plain) _ _ rfl fun _ hy _ _ => hy

theorem State.releaseOld_plain (c t : Nat) : (s.releaseOld c t).plain = s.plain := by
  unfold State.releaseOld
  dsimp only
  split
  · rfl
  · have hold {l : List Msg} {late : Msg → Bool} {u : State} (hu : u.plain = s.plain) :
        (l.foldl (fun u m => if late m then u.complete m (owner m.op) .busy [] else u.takeChange c m) u).plain = s.plain :=
      (plain_foldl _ fun t m => by
        split
        · exact State.plain_of_bare (State.complete_bare ..)
        · exact State.takeChange_plain c m).trans hu
    have hfree {f : Ctx → Ctx} (hf : ∀ x, (f x).plain = x.plain) : ((s.onCtx c f).freeDeferred c).plain = s.plain :=
      (State.freeDeferred_plain c).trans (State.onCtx_plain c hf)
    split
    · refine (State.fitCopies_plain ..).trans ((State.onCtx_plain c fun x => ?_).trans (hold (hfree fun x => by rfl)))
      exact (Ctx.plain_guideWait ..).trans (foldl_mergeGuide_plain x.guideWait x)
    · exact hold (hfree fun x => by split <;> rfl)

theorem State.bumpCtx_plain (c : Nat) (k : Ctr) (n : Nat) : (s.bumpCtx c k n).plain = s.plain := State.plain_of_bare (State.bumpCtx_bare ..)

theorem State.flip_plain (c t : Nat) : (s.flip c t).plain = s.plain := by
  unfold State.flip
  dsimp only
  split
  · rfl
  · refine (plain_foldl _ fun u m => State.plain_of_bare (State.complete_bare ..)).trans ?_
    refine (plain_ite (State.bumpCtx_plain ..) rfl).trans ((State.bumpCtx_plain ..).trans (State.onCtx_plain c fun x => ?_))
    split_ifs <;> split <;> rfl

theorem State.flipIdle_plain (c t : Nat) : (s.flipIdle c t).plain = s.plain := plain_ite (State.flip_plain c t) rfl

/-- A change of the guide's table changes tables, allocations, counters and messages only. -/
theorem State.guideChange_plain (c : Nat) (g : GuideChange) : (s.guideChange c g).plain = s.plain := by
  have hold := State.releaseOld_plain (s := s) c 0
  unfold State.guideChange
  dsimp only
  refine plain_ite ?_ ?_
  · exact (State.bumpCtx_plain ..).trans ((State.onCtx_plain c fun _ => by rfl).trans hold)
  · have hmerge : ((s.releaseOld c 0).onCtx c fun x => x.mergeGuide g).plain = s.plain := (State.onCtx_plain c fun _ => by rfl).trans hold
    exact (State.flipIdle_plain ..).trans (plain_ite ((State.fitCopies_plain ..).trans hmerge) hmerge)

theorem State.guideAll_plain (c : Nat) (g : GuideChange) : (s.guideAll c g).plain = s.plain :=
  plain_foldl _ fun _ k => State.guideChange_plain k g

end

/-! ### Residency but for the frames and their fetches -/

def Resid.settled (r : Resid) : Resid := { r with frames := [], fetches := [] }

/-- What every context holds of residency but for the frames and their fetches. -/
def State.policies (s : State) : List Resid := s.ctxs.map (fun x => x.resid.settled)

section
variable {s t u : State} {c l e i kind v : Nat}

theorem State.settled_of_policies (h : t.policies = s.policies) (c : Nat) : (t.ctx c).resid.settled = (s.ctx c).resid.settled := by
  have hmap (u : State) : (u.ctx c).resid.settled = u.policies.getD c Ctx.fresh.resid.settled :=
    (List.getD_map (f := fun x : Ctx => x.resid.settled) (l := u.ctxs) (d := Ctx.fresh)).symm
  rw [hmap, h, ← hmap]

theorem policies_foldl {α : Type} {f : State → α → State} (l : List α) (h : ∀ t a, (f t a).policies = t.policies) :
    (l.foldl f s).policies = s.policies :=
  List.foldlRecOn (motive := fun t : State => t.policies = s.policies) _ _ rfl fun t ht a _ => (h t a).trans ht

theorem policies_ite {p : Prop} [Decidable p] (hs : s.policies = u.policies) (ht : t.policies = u.policies) :
    (if p then s else t).policies = u.policies := by
  split
  exacts [hs, ht]

/-- What every context holds of residency. -/
theorem State.resids_of_plain (h : t.plain = s.plain) : t.ctxs.map Ctx.resid = s.ctxs.map Ctx.resid := by
  have hctxs : (t.ctxs.map Ctx.plain).map Ctx.resid = (s.ctxs.map Ctx.plain).map Ctx.resid := by
    rw [← State.plain_ctxs, ← State.plain_ctxs, h]
  rw [List.map_map, List.map_map] at hctxs
  exact hctxs

theorem State.policies_of_plain (h : t.plain = s.plain) : t.policies = s.policies := by
  have hresids := congrArg (List.map Resid.settled) (State.resids_of_plain h)
  rw [List.map_map, List.map_map] at hresids
  exact hresids

theorem State.onCtx_policies (c : Nat) {f : Ctx → Ctx} (h : ∀ x, (f x).resid.settled = x.resid.settled) :
    (s.onCtx c f).policies = s.policies := updAt_map_of_eq _ _ h

theorem State.fetchRequest_policies (c l e i prio die : Nat) : (s.fetchRequest c l e i prio die).policies = s.policies := by
  have hbump (d : Nat) (k : Ctr) (n : Nat) : (s.bumpCtx d k n).policies = s.policies := State.onCtx_policies d fun _ => by rfl
  unfold State.fetchRequest
  dsimp only
  split
  · exact policies_ite (hbump ..) rfl
  · split
    · rfl
    · exact policies_ite (State.onCtx_policies _ fun _ => by rfl) (policies_ite (hbump ..) (State.onCtx_policies _ fun _ => by rfl))

theorem State.startMirrors_policies (c : Nat) : (s.startMirrors c).policies = s.policies :=
  policies_foldl _ fun _ _ => policies_ite (policies_ite (State.fetchRequest_policies ..) rfl) rfl

theorem Ctx.dropGranules_resid (l : List Nat) (x : Ctx) : (x.dropGranules l).resid = x.resid :=
  List.foldlRecOn (motive := fun y : Ctx => y.resid = x.resid) _ _ rfl fun _ hy _ _ => hy

theorem State.freeFrame_policies (o l e i : Nat) : (s.freeFrame o l e i).policies = s.policies := by
  unfold State.freeFrame
  split
  · rfl
  · exact State.onCtx_policies o fun x => by
      dsimp only
      rw [Ctx.dropGranules_resid]
      rfl

theorem State.reloadHere_policies (o l e die : Nat) : (s.reloadHere o l e die).policies = s.policies :=
  (State.fetchRequest_policies ..).trans ((State.onCtx_policies o fun _ => by rfl).trans (State.freeFrame_policies ..))

end

/-! ### The fields of a request -/

theorem readFields_lt {fs : List Fld} {o : Nat} {bs : List Byte} {vs : List Nat} (h : readFields fs o bs = some vs) :
    List.Forall₂ (fun f v => v < 2 ^ (8 * f.size)) fs vs := by
  induction fs generalizing o vs with
  | nil =>
    cases h
    exact .nil
  | cons f r ih =>
    rw [readFields] at h
    split at h
    · cases h
    · split at h
      · cases h
      · next rest hrest =>
        cases h
        exact .cons (numAt_lt ..) (ih hrest)

/-- Every spelled argument fits the field it was read from. -/
theorem Spells.fits {fs : List Fld} {m : Msg} {a : List Nat} (h : Spells fs m a) :
    List.Forall₂ (fun f v => v < 2 ^ (8 * f.size)) fs a := by
  unfold Spells readRequest at h
  split at h
  · exact readFields_lt h
  · cases h

/-! ### What does not read the held hints -/

def Resid.unheld (r : Resid) : Resid := { r with held := [] }

def Ctx.unheld (x : Ctx) : Ctx := { x with resid := x.resid.unheld }

def State.unheld (s : State) : State := { s with ctxs := s.ctxs.map Ctx.unheld }

section
variable {s t : State} {c l e i kind v : Nat}

@[simp] theorem State.ctx_unheld (s : State) (c : Nat) : s.unheld.ctx c = (s.ctx c).unheld :=
  List.getD_map (f := Ctx.unheld) (l := s.ctxs) (d := Ctx.fresh)

@[simp] theorem State.imgOwner_unheld (c : Nat) : s.unheld.imgOwner c = s.imgOwner c := by
  rw [State.imgOwner, State.ctx_unheld]
  rfl

@[simp] theorem State.users_unheld (c : Nat) : s.unheld.users c = s.users c := by
  simp only [State.users, State.sharers, State.imgOwner_unheld, State.ctx_unheld]
  rfl

@[simp] theorem State.replicaDie_unheld (c l e i : Nat) : s.unheld.replicaDie c l e i = s.replicaDie c l e i := by
  simp only [State.replicaDie, State.frames, State.imgOwner_unheld, State.ctx_unheld]
  rfl

@[simp] theorem State.frameGran_unheld (c : Nat) : s.unheld.frameGran c = s.frameGran c := by
  simp only [State.frameGran, State.imageBytes, State.imgOwner_unheld, State.ctx_unheld]
  rfl

@[simp] theorem State.pinFits_unheld (c l e : Nat) : s.unheld.pinFits c l e = s.pinFits c l e := by
  simp only [State.pinFits, State.users_unheld, State.replicaDie_unheld, State.imgOwner_unheld, State.frameGran_unheld, State.ctx_unheld]
  rfl

@[simp] theorem State.replicaMax_unheld (c : Nat) : s.unheld.replicaMax c = s.replicaMax c := by
  simp only [State.replicaMax, State.floorCount, State.dieList, State.frameGran_unheld, State.ctx_unheld]
  rfl

/-- Whether a hint fits its limits does not turn on the hints that are held. -/
theorem State.hintFits_unheld (c l e kind v : Nat) : s.unheld.hintFits c l e kind v = s.hintFits c l e kind v := by
  simp only [State.hintFits, State.pinFits_unheld, State.replicaMax_unheld, State.secondaries, State.imgOwner_unheld, State.ctx_unheld]
  rfl

theorem State.onResid_unheld {f : Resid → Resid} (hf : ∀ r, (f r).unheld = r.unheld) : (s.onResid c f).unheld = s.unheld := by
  have hmap : (s.onResid c f).ctxs.map Ctx.unheld = s.ctxs.map Ctx.unheld :=
    updAt_map_of_eq _ _ fun x => by
      unfold Ctx.unheld
      rw [hf]
  exact congrArg (fun cs => { s with ctxs := cs }) hmap

theorem State.hintFits_onResid {f : Resid → Resid} (hf : ∀ r, (f r).unheld = r.unheld) (l e kind v : Nat) :
    (s.onResid c f).hintFits c l e kind v = s.hintFits c l e kind v := by
  rw [← State.hintFits_unheld, State.onResid_unheld hf, State.hintFits_unheld]

/-! ### One hint (7 R163) -/

/-- What one hint makes of a context's hints: whether it is dropped with the expert's others, unpins, applies or is held. -/
def Resid.hinted (r : Resid) (fits : Bool) (k kind v : Nat) : Resid :=
  if kind = 7 then { r with hints := r.hints.del k, held := r.held.del k }
  else if kind = 2 then { r with
    hints := r.hints.setD [] k ((r.hints.getD k []).filter (fun h => h.1 != 1))
    held := r.held.setD [] k ((r.held.getD k []).filter (fun h => h.1 != 1)) }
  else if fits then { r with
    hints := r.hints.put k (setHint (r.hints.getD k []) kind v)
    held := r.held.setD [] k ((r.held.getD k []).filter (fun h => h.1 != kind)) }
  else { r with held := r.held.put k (setHint (r.held.getD k []) kind v) }

theorem State.onCtx_congr {f g : Ctx → Ctx} (h : f (s.ctx c) = g (s.ctx c)) : s.onCtx c f = s.onCtx c g :=
  congrArg (fun l => { s with ctxs := l }) (updAt_congr Ctx.fresh h)

theorem State.resid_onResid (hc : c < s.ctxs.length) (f : Resid → Resid) : ((s.onResid c f).ctx c).resid = f (s.ctx c).resid := by
  rw [State.onResid, State.ctx_onCtx _ _ _ _ hc, if_pos rfl]

theorem State.hintOne_resid (hc : c < s.ctxs.length) (l e kind v : Nat) : ((s.hintOne c l e kind v).2.ctx c).resid.settled =
    ((s.ctx c).resid.hinted (s.hintFits c l e kind v) (expKey l e) kind v).settled := by
  have hmark (f : Resid → Resid) (g : GuideChange) : (((s.onResid c f).guideChange c g).ctx c).resid.settled = (f (s.ctx c).resid).settled := by
    rw [State.settled_of_policies (State.policies_of_plain (State.guideChange_plain c g)), State.resid_onResid hc]
  unfold State.hintOne Resid.hinted
  dsimp only
  split_ifs
  · exact hmark ..
  · exact hmark ..
  · exact (State.settled_of_policies (State.fetchRequest_policies ..) c).trans (hmark ..)
  · exact hmark ..
  · rw [State.resid_onResid hc]

theorem State.hintOne_applies (l e kind v : Nat) :
    (s.hintOne c l e kind v).1 = (decide (kind = 7) || decide (kind = 2) || s.hintFits c l e kind v) := by
  unfold State.hintOne
  dsimp only
  split_ifs with h7 h2 hfit
  · simp [h7]
  · simp [h2]
  · rw [hfit, Bool.or_true]
  · rw [hfit, Bool.or_true]
  · simp [h7, h2, hfit]

theorem hintRange_counts (l kind v : Nat) (es : List Nat) (a h : Nat) : (hintRange c l kind v es a h s).1 +
    (hintRange c l kind v es a h s).2.1 = a + h + es.length := by
  induction es generalizing a h s with
  | nil => rfl
  | cons e r ih =>
    rw [hintRange, ih, List.length_cons]
    cases (s.hintOne c l e kind v).1 <;> simp [b2n] <;> omega

theorem State.retryHints_of_none (h : (s.ctx c).resid.held = []) : s.retryHints c = s := by
  rw [State.retryHints, h]
  rfl

theorem hintRange_one (l f kind v : Nat) : hintRange c l kind v ((List.range 1).map (· + f)) 0 0 s =
    (b2n (s.hintOne c l f kind v).1, b2n (!(s.hintOne c l f kind v).1), (s.hintOne c l f kind v).2) := by
  simp [hintRange]

theorem find_setHint (l : List (Nat × Nat)) (kind v : Nat) : (setHint l kind v).find? (fun h => h.1 == kind) = some (kind, v) := by
  have hnone : (l.filter fun h => h.1 != kind).find? (fun h => h.1 == kind) = none := by
    simp
  rw [setHint, List.find?_append, hnone]
  simp

/-- A hint of a context that holds none back leaves none held, unless its limits keep it from applying. -/
theorem State.hintOne_held (hc : c < s.ctxs.length) (hheld : (s.ctx c).resid.held = []) (l e kind v : Nat)
    (h : (s.hintOne c l e kind v).1 = true) : ((s.hintOne c l e kind v).2.ctx c).resid.held = [] := by
  refine (congrArg Resid.held (State.hintOne_resid hc l e kind v)).trans ?_
  rw [State.hintOne_applies] at h
  unfold Resid.hinted Resid.settled
  rw [hheld]
  split_ifs with h7 h2 hfit
  · rfl
  · rfl
  · rfl
  · simp [h7, h2, hfit] at h

/-- The hints after one that applies. -/
theorem State.hintOne_hints (hc : c < s.ctxs.length) (hheld : (s.ctx c).resid.held = []) (l e kind v : Nat)
    (h : (s.hintOne c l e kind v).1 = true) : ((((s.hintOne c l e kind v).2.retryHints c).ctx c).resid.hints =
      ((s.ctx c).resid.hinted (s.hintFits c l e kind v) (expKey l e) kind v).hints) := by
  rw [State.retryHints_of_none (State.hintOne_held hc hheld l e kind v h)]
  have hhints := congrArg Resid.hints (State.hintOne_resid hc l e kind v)
  exact hhints

/-- A hint that its limits keep from applying is held, and changes nothing else. -/
theorem State.hintOne_kept (hc : c < s.ctxs.length) (hheld : (s.ctx c).resid.held = []) (he : e < 2 ^ 16)
    (h2 : kind ≠ 2) (h7 : kind ≠ 7) (hfit : s.hintFits c l e kind v = false) : (s.hintOne c l e kind v).1 = false ∧
      (s.hintOne c l e kind v).2.retryHints c = s.onResid c (fun r => { r with held := r.held.put (expKey l e) (setHint [] kind v) }) := by
  have hone : s.hintOne c l e kind v = (false, s.onResid c (fun r => { r with
      held := r.held.put (expKey l e) (setHint (r.held.getD (expKey l e) []) kind v) })) := by
    unfold State.hintOne
    dsimp only
    rw [if_neg h7, if_neg h2, if_neg (by simp [hfit])]
  have hheld' : ((s.onResid c (fun r => { r with held := r.held.put (expKey l e) (setHint [] kind v) })).ctx c).resid.held =
      [(expKey l e, [(kind, v)])] := by
    rw [State.resid_onResid hc, hheld]
    rfl
  have hkeep : (fun r : Resid => { r with held := r.held.put (expKey l e) (setHint (r.held.getD (expKey l e) []) kind v) }) (s.ctx c).resid =
      (fun r : Resid => { r with held := r.held.put (expKey l e) (setHint [] kind v) }) (s.ctx c).resid := by
    dsimp only
    rw [hheld]
    rfl
  rw [hone]
  refine ⟨rfl, ?_⟩
  have hstate : s.onResid c (fun r => { r with held := r.held.put (expKey l e) (setHint (r.held.getD (expKey l e) []) kind v) }) =
      s.onResid c (fun r => { r with held := r.held.put (expKey l e) (setHint [] kind v) }) :=
    State.onCtx_congr (congrArg (fun r => { s.ctx c with resid := r }) hkeep)
  dsimp only
  rw [hstate]
  generalize hu : s.onResid c (fun r => { r with held := r.held.put (expKey l e) (setHint [] kind v) }) = u at hheld' ⊢
  have hkey : expKey l e / 65536 = l ∧ expKey l e % 65536 = e := by
    unfold expKey
    omega
  have hfit' : u.hintFits c l e kind v = false := by
    rw [← hu, State.hintFits_onResid (f := fun r => { r with held := r.held.put (expKey l e) (setHint [] kind v) }) (fun _ => rfl),
      hfit]
  rw [State.retryHints, hheld']
  simp [sortBy, insertBy, hkey, hfit']

/-! ### Copies of experts -/

theorem State.imgOwner_onResid (hc : c < s.ctxs.length) (f : Resid → Resid) (d : Nat) : (s.onResid c f).imgOwner d = s.imgOwner d := by
  rw [State.imgOwner, State.onResid, State.ctx_onCtx _ _ _ _ hc]
  by_cases h : c = d
  · rw [if_pos h, State.imgOwner, ← h]
  · rw [if_neg h, State.imgOwner]

theorem State.sources_onResid (hc : c < s.ctxs.length) {f : Resid → Resid} (hf : ∀ r, (f r).sources = r.sources) (d : Nat) :
    ((s.onResid c f).ctx d).resid.sources = (s.ctx d).resid.sources := by
  rw [State.onResid, State.ctx_onCtx _ _ _ _ hc]
  split
  · next h =>
    rw [h]
    exact hf _
  · rfl

theorem State.startMirrors_of_mirrored (h : ∀ e ∈ (s.ctx (s.imgOwner c)).resid.sources, e.2.pkg = s.board.pkgId → e.2.mirror.isSome = true) :
    s.startMirrors c = s := by
  unfold State.startMirrors
  refine List.foldlRecOn (motive := fun t : State => t = s) _ _ rfl fun t ht e he => ?_
  subst ht
  exact if_neg fun hwant => by
    have hmirror := h e he hwant.1
    rw [Option.isNone_iff_eq_none.mp hwant.2.1] at hmirror
    cases hmirror

/-- The state of each replica of this package is its frame's. -/
theorem State.replicaState_here {pkg : Nat} (h : pkg = s.board.pkgId) :
    s.replicaState c l e i pkg = (((s.frames c).frame l e i).map (fun z => z.st)).getD 0 := if_pos h

end

section
variable {s : State} {m : Msg} {w c l e : Nat}

theorem residency_policy {p : Nat} (htakes : Takes s w 0x0222 m) (hspells : Spells [.u8, .r 128] m [c, p]) (hadmits : Admits s m c)
    (hlow : bits p 4 4 = 0) (hhigh : bits p 104 24 = 0) (hkind : bits p 0 2 ≠ 3) (h1 : bits p 8 16 ≠ 0) (h2 : bits p 24 16 ≠ 0)
    (h3 : bits p 40 16 ≠ 0) (h4 : bits p 72 16 ≠ 0) (h5 : bits p 88 16 ≠ 0) :
    commitMsg w 0x0222 (withCtx [.r 128] residencyPolicy) s =
      answered ((s.onResid c (fun r => { r with policy := p })).startMirrors c) m 0x0222 [] := by
  rw [commitCtx_outcome _ htakes hspells hadmits, residencyPolicy, checked_pass _ _ (by simp [*])]
  rfl

/-- The answer of `PMP_RESIDENCY_QUERY` (7 R165). -/
def State.residencyFields (s : State) (c l e : Nat) : List (Fld × Nat) :=
  let src := (s.frames c).sources.find (expKey l e)
  let rs := ((s.ctx c).route.active.expert l e).replicas
  [(.u64, (s.ctx c).route.active.entryWord l e), (.u64, s.heatSum c (expKey l e)),
    (.u16, (src.map (fun q => copyWord q.pkg q.kind)).getD 0),
    (.u16, match src.bind (·.mirror) with | some m => copyWord m.1 m.2 | none => 0xFFFF),
    (.u32, maskOf (((s.ctx c).resid.hints.getD (expKey l e) []).map (fun h => h.1))), (.u8, rs.length)]
  ++ (List.range rs.length).map (fun i =>
    let r := rs.getD i ⟨0, 0, false, 0⟩
    (Fld.u64, r.word + s.replicaState c l e i r.pkg * 2 ^ 32))

theorem residency_query (htakes : Takes s w 0x0221 m) (hspells : Spells [.u8, .u16, .u16] m [c, l, e]) (hadmits : Admits s m c)
    (hlayer : ∀ k ∈ s.layerChecks c l, k.1 = false) (hexpert : e ≤ (s.ctx c).lastExpert l) :
    commitMsg w 0x0221 (withCtx [.u16, .u16] residencyQuery) s =
      answered { s with freeCtr := s.freeCtr + 16 } m 0x0221 (s.residencyFields c l e) := by
  rw [commitCtx_outcome _ htakes hspells hadmits, residencyQuery, checked_pass]
  · rfl
  · intro x hx
    rcases List.mem_append.mp hx with hx | hx
    · exact hlayer x hx
    · rw [List.mem_singleton.mp hx]
      exact decide_eq_false (by omega)

theorem State.residencyFields_length (s : State) (c l e : Nat) :
    (s.residencyFields c l e).length = 6 + ((s.ctx c).route.active.expert l e).replicas.length := by
  simp [State.residencyFields]
  omega

theorem State.residencyFields_replica {i : Nat} {r : Replica} (h : ((s.ctx c).route.active.expert l e).replicas[i]? = some r) :
    (s.residencyFields c l e)[6 + i]? = some (.u64, r.word + s.replicaState c l e i r.pkg * 2 ^ 32) := by
  obtain ⟨hlt, hget⟩ := List.getElem?_eq_some_iff.mp h
  rw [State.residencyFields, List.getElem?_append_right (by simp), List.getElem?_map]
  simp [hlt, hget]

theorem expert_hint {f n kind v : Nat} (htakes : Takes s w 0x0220 m)
    (hspells : Spells [.u8, .u16, .u16, .u32, .u8, .u8] m [c, l, f, n, kind, v]) (hadmits : Admits s m c)
    (hlayer : ∀ k ∈ s.layerChecks c l, k.1 = false) (hlow : 0 < kind) (hhigh : kind ≤ 7) (hval : kind = 3 ∨ kind = 4 → 0 < v ∧ v ≤ 16)
    (hmirror : kind = 5 → v ≤ 1) (hlast : n ≠ 0 → f + n ≤ (s.ctx c).lastExpert l + 1) :
    commitMsg w 0x0220 (withCtx [.u16, .u16, .u32, .u8, .u8] expertHint) s =
      answered ((hintRange c l kind v ((List.range n).map (· + f)) 0 0 s).2.2.retryHints c) m 0x0220
        [(.u32, (hintRange c l kind v ((List.range n).map (· + f)) 0 0 s).1),
          (.u32, (hintRange c l kind v ((List.range n).map (· + f)) 0 0 s).2.1)] := by
  rw [commitCtx_outcome _ htakes hspells hadmits, expertHint, checked_pass]
  · rfl
  · intro x hx
    rcases List.mem_append.mp hx with hx | hx
    · exact hlayer x hx
    · simp only [List.mem_cons, List.not_mem_nil, or_false] at hx
      rcases hx with rfl | rfl | rfl | rfl
      · exact decide_eq_false (by omega)
      · by_cases h : kind = 3 ∨ kind = 4
        · obtain ⟨hpos, hmax⟩ := hval h
          exact Bool.and_eq_false_imp.mpr fun _ => decide_eq_false (by omega)
        · simp [not_or.mp h]
      · by_cases h : kind = 5
        · simp [hmirror h]
        · simp [h]
      · exact decide_eq_false fun h => by
          have := hlast h.1
          omega

/-- The copy that a reload writes to T4 of this package (7 R169). -/
def State.reloadedCopy (s : State) (c h : Nat) : Source :=
  ⟨s.board.pkgId, 4, s.bufBytes h 0 (s.imageBytes c), s.imageCrcs h 0 (s.imageBytes c), false, none⟩

theorem expert_reload {h : Nat} (htakes : Takes s w 0x0223 m) (hspells : Spells [.u8, .u16, .u16, .u32] m [c, l, e, h]) (hadmits : Admits s m c)
    (hlayer : ∀ k ∈ s.layerChecks c l, k.1 = false) (hexpert : e ≤ (s.ctx c).lastExpert l)
    (hcause : ((s.ctx c).route.active.expert l e).cause = 1 ∨ ((s.ctx c).route.active.expert l e).cause = 3 ∨
      (s.frames c).unread.contains (expKey l e) = true)
    (hbuf : s.bufBad c h (imageSpan (s.imageBytes c)) = none) (htier : hTier h = 1) (himage : s.imageOk h 0 (s.imageBytes c) = true)
    (hroom : s.t4Room (s.imgOwner c) (imageSpan (s.imageBytes c)) = true) :
    ∃ u : State, commitMsg w 0x0223 (withCtx [.u16, .u16, .u32] expertReload) s = u.setPhase m (.residentWait l e) ∧
      u.policies = (s.onResid (s.imgOwner c) fun r => { r with sources := r.sources.put (expKey l e) (s.reloadedCopy c h) }).policies ∧
      u.mem = s.mem ∧ u.seqs = s.seqs := by
  have hmarks : ∀ x ∈ s.layerChecks c l ++ [(decide ((s.ctx c).lastExpert l < e), Status.bounds),
      (((s.ctx c).route.active.expert l e).cause != 1 && ((s.ctx c).route.active.expert l e).cause != 3 &&
        !(s.frames c).unread.contains (expKey l e), .denied)] ++ s.handleUse c h true (imageSpan (s.imageBytes c)) ++
      [(hTier h != 1, .format)], x.1 = false := by
    intro x hx
    rw [State.handleUse, if_pos rfl, hbuf, List.append_nil] at hx
    rcases List.mem_append.mp hx with hx | hx
    · rcases List.mem_append.mp hx with hx | hx
      · exact hlayer x hx
      · simp only [List.mem_cons, List.not_mem_nil, or_false] at hx
        rcases hx with rfl | rfl
        · exact decide_eq_false (by omega)
        · rcases hcause with h | h | h
          · simp [h]
          · simp [h]
          · rw [h]
            simp
    · rw [List.mem_singleton.mp hx, htier]
      rfl
  rw [commitCtx_outcome _ htakes hspells hadmits, expertReload]
  dsimp only
  rw [checked_pass _ _ hmarks, himage, if_neg (by simp), hroom, if_neg (by simp), if_pos rfl]
  dsimp only
  rw [← State.reloadedCopy]
  generalize hs1 : (s.onResid (s.imgOwner c) fun r => { r with sources := r.sources.put (expKey l e) (s.reloadedCopy c h) }) = s1
  have hkept : s1.form = s.form ∧ s1.seqs = s.seqs := by
    rw [← hs1]
    exact ⟨State.onResid_form .., rfl⟩
  generalize hs2 : (if ((s.ctx c).route.active.expert l e).mirrored = true then s1.guideAll (s.imgOwner c) (.mirrored l e false) else s1) = s2
  have hguide : s2.policies = s1.policies ∧ s2.form = s1.form ∧ s2.seqs = s1.seqs := by
    rw [← hs2]
    split
    · exact ⟨State.policies_of_plain (State.guideAll_plain ..), State.guideAll_form .., State.guideAll_seqs ..⟩
    · exact ⟨rfl, rfl, rfl⟩
  have hdone (u : State) (hp : u.policies = s2.policies) (hf : u.form = s2.form) (hq : u.seqs = s2.seqs) :
      u.policies = s1.policies ∧ u.mem = s.mem ∧ u.seqs = s.seqs :=
    ⟨hp.trans hguide.1, State.mem_of_form (hf.trans (hguide.2.1.trans hkept.1)), hq.trans (hguide.2.2.trans hkept.2)⟩
  split
  · split
    · exact ⟨_, rfl, hdone _ (State.reloadHere_policies ..) (State.reloadHere_form ..) (State.reloadHere_seqs ..)⟩
    · exact ⟨_, rfl, hdone _ (State.policies_of_plain (State.plain_of_bare (State.sendOpen_bare ..))) (State.sendOpen_form ..) (State.sendOpen_seqs ..)⟩
  · exact ⟨_, rfl, hdone _ rfl rfl rfl⟩

end

/-- Settles O18: the residency messages change the policies, hints and sources they name; a counter message answers its table. -/
theorem residencyAndCounters : Obligations.ResidencyAndCounters := by
  unfold Obligations.ResidencyAndCounters
  refine ⟨fun w c p m s htakes hspells hadmits hlow hhigh hkind h1 h2 h3 h4 h5 => ?_,
    fun w c l f n kind v m s htakes hspells hadmits hlayer hlow hhigh hval hmirror hlast hheld => ?_,
    fun w c l e m s htakes hspells hadmits hlayer hexpert => ?_,
    fun w c l e h m s htakes hspells hadmits hlayer hexpert hcause hbuf htier himage hroom hlen => ?_, fun w c m s hadmits hspells => ?_⟩
  · have hc := State.lt_of_active hadmits.given
    have hsettled (p : Nat) : (((s.onResid c (fun r => { r with policy := p })).startMirrors c).ctx c).resid.settled =
        { (s.ctx c).resid with policy := p }.settled :=
      (State.settled_of_policies (State.startMirrors_policies c) c).trans (congrArg Resid.settled (State.resid_onResid hc _))
    refine ⟨_, congrArg Host.Outcome.next (residency_policy htakes hspells hadmits hlow hhigh hkind h1 h2 h3 h4 h5), ?_, ?_, ?_, ?_, fun hall => ?_⟩
    · have hpolicy := congrArg Resid.policy (hsettled p)
      exact hpolicy
    · have hplan := congrArg Resid.planPolicy (hsettled p)
      exact hplan
    · exact State.mem_of_form (s := s) (by simp)
    · simp
    · refine State.startMirrors_of_mirrored fun e he => hall e ?_
      rw [State.imgOwner_onResid hc, State.sources_onResid hc (f := fun r => { r with policy := p }) (fun _ => rfl)] at he
      exact he
  · have hc := State.lt_of_active hadmits.given
    have hf : f < 2 ^ 16 := by
      have hfits := hspells.fits
      simp only [List.forall₂_cons] at hfits
      obtain ⟨-, -, hf, -⟩ := hfits
      exact hf
    refine ⟨_, _, _, congrArg Host.Outcome.next (expert_hint htakes hspells hadmits hlayer hlow hhigh hval hmirror hlast), ?_, State.mem_of_form (by simp), by simp, fun hn => ?_, fun hn h2 h7 hfit => ?_, fun hn h2 h7 hfit => ?_,
      fun hn h7 => ?_, fun hn h2 => ?_⟩
    · rw [hintRange_counts]
      simp
    · subst hn
      exact State.retryHints_of_none hheld
    all_goals subst hn
    all_goals rw [hintRange_one]
    · have happlied : (s.hintOne c l f kind v).1 = true := by rw [State.hintOne_applies, hfit, Bool.or_true]
      refine ⟨congrArg b2n happlied, ?_⟩
      rw [Resid.hint, State.hintOne_hints hc hheld l f kind v happlied, Resid.hinted, if_neg h7, if_neg h2, if_pos hfit, Tbl.getD_put_same,
        find_setHint]
      rfl
    · obtain ⟨happlied, hkept⟩ := State.hintOne_kept hc hheld hf h2 h7 hfit
      refine ⟨by rw [happlied]; rfl, ?_⟩
      dsimp only
      rw [hkept, State.resid_onResid hc]
      refine ⟨rfl, ?_⟩
      rw [Tbl.getD_put_same]
      simp [setHint]
    · have happlied : (s.hintOne c l f kind v).1 = true := by rw [State.hintOne_applies, h7]; rfl
      refine ⟨congrArg b2n happlied, ?_⟩
      rw [State.hintOne_hints hc hheld l f kind v happlied, Resid.hinted, if_pos h7]
      exact Tbl.find_del_same ..
    · have happlied : (s.hintOne c l f kind v).1 = true := by rw [State.hintOne_applies, h2]; rfl
      refine ⟨congrArg b2n happlied, ?_⟩
      rw [Resid.hint, State.hintOne_hints hc hheld l f kind v happlied, Resid.hinted, if_neg (by omega), if_pos h2, Tbl.getD_setD_same]
      simp
  · refine ⟨_, congrArg Host.Outcome.next (residency_query htakes hspells hadmits hlayer hexpert), State.residencyFields_length .., rfl, fun i r hr => ⟨_, State.residencyFields_replica hr, fun hhere => ?_⟩⟩
    exact State.replicaState_here hhere
  · obtain ⟨u, hu, hpolicies, hmem, hseqs⟩ := expert_reload htakes hspells hadmits hlayer hexpert hcause hbuf htier himage hroom
    have hsettled := (State.settled_of_policies hpolicies (s.imgOwner c)).trans (congrArg Resid.settled (State.resid_onResid hlen _))
    refine ⟨u, congrArg Host.Outcome.next hu, ?_, ?_, hmem, hseqs⟩
    · have hsources := congrArg Resid.sources hsettled
      exact (congrArg (fun x => Tbl.find x (expKey l e)) hsources).trans (Tbl.find_put_same ..)
    · have hunread := congrArg Resid.unread hsettled
      exact hunread
  · have hreply (op : Nat) (l : List Ctr) (htakes : Takes s w op m) :
        Host.Outcome.next (commitMsg w op (withCtx [] (ctrReply l)) s) = (.next (answered s m op (ctrFlds (s.ctx c).ctr l)) : Host.Outcome State Fault Refusal) := by
      rw [commitCtx_outcome _ htakes hspells hadmits]
      rfl
    exact ⟨hreply _ _, hreply _ _, hreply _ _, hreply _ _, hreply _ _, hreply _ _, hreply _ _, hreply _ _⟩

end Machine
end Sys2Proof
end

section
/-! PROOFS. Special-function and layout tables: a change, its flip and the release of the old copy (4 R89, 9 R210, 10 R211). -/

namespace Sys2Proof
namespace Machine

/-! ### The numbers of a request -/

/-- The numbers that fields name in a payload. -/
def fieldNums : List Fld → Nat → List Byte → List Nat
  | [], _, _ => []
  | f :: r, o, bs => numAt bs (f.place o) f.size :: fieldNums r (f.place o + f.size) bs

theorem readFields_nums {fs : List Fld} {o : Nat} {bs : List Byte} {vs : List Nat} (h : readFields fs o bs = some vs) :
    vs = fieldNums fs o bs := by
  induction fs generalizing o vs with
  | nil =>
    cases h
    rfl
  | cons f r ih =>
    rw [readFields] at h
    split at h
    · cases h
    · split at h
      · cases h
      · next rest hrest =>
        cases h
        rw [fieldNums, ih hrest]

theorem Spells.nums {fs : List Fld} {m : Msg} {a : List Nat} (h : Spells fs m a) : a = fieldNums fs 0 m.payload := by
  unfold Spells readRequest at h
  split at h
  · exact readFields_nums h
  · cases h

theorem Takes.op_eq {s : State} {w op : Nat} {m : Msg} (h : Takes s w op m) : m.op = op := by
  have holdest := h.oldest
  unfold State.oldest at holdest
  split at holdest
  · split at holdest
    · next hw =>
      cases holdest
      exact hw.2
    · cases holdest
  · cases holdest

/-! ### Masks -/

theorem testBit_maskOf (l : List Nat) (k : Nat) : (maskOf l).testBit k = l.contains k := by
  have hfold (a : Nat) : (l.foldl (fun a i => a ||| 2 ^ i) a).testBit k = (a.testBit k || l.contains k) := by
    induction l generalizing a with
    | nil => simp
    | cons i r ih =>
      rw [List.foldl_cons, ih, Nat.testBit_or, Nat.testBit_two_pow, List.contains_cons, Bool.or_assoc]
      congr 2
      exact decide_eq_decide.mpr eq_comm
  rw [maskOf, hfold, Nat.zero_testBit, Bool.false_or]

section
variable {s : State} {c t w : Nat} {m : Msg}

/-! ### A change and its flip (4 R89) -/

theorem State.releaseOld_of_none (h : (s.ctx c).holdsOld t = false) : s.releaseOld c t = s := by
  rw [State.releaseOld]
  exact if_pos (by rw [h]; rfl)

/-- A change that meets no old copy and no step in flight flips at once. -/
theorem softChange_idle (hold : (s.ctx c).holdsOld (tableOf m.op) = false)  (hidle : ((s.mergeChange c m).ctx c).idle = true) : softChange c m s = .ok (((s.mergeChange c m).flip c (tableOf m.op)).bumpCtx c .sfnLoads
      (b2n (tableOf m.op == 1))) [(.u32, ((((s.mergeChange c m).flip c (tableOf m.op)).bumpCtx c .sfnLoads
        (b2n (tableOf m.op == 1))).ctx c).genOf (tableOf m.op))] := by
  unfold softChange
  dsimp only
  rw [State.releaseOld_of_none hold, hold, if_neg Bool.false_ne_true, hidle, if_pos rfl]

theorem State.mergeChange_sfn (hc : c < s.ctxs.length) (ht : tableOf m.op = 1) : (s.mergeChange c m).ctx c =
    { s.ctx c with sfn := { (s.ctx c).sfn with other := .shadow (s.sfnChange m (s.ctx c).sfnDraft) } } := by
  rw [State.mergeChange, State.ctx_onCtx _ _ _ _ hc, if_pos rfl, ht, if_neg (by decide), if_pos rfl]
  rfl

/-- The copy of the layout table that the next change builds on. -/
def Ctx.layDraft (x : Ctx) : Tbl Nat := match x.lay.other with | .shadow t => t | _ => x.lay.active

theorem Ctx.layDraft_of_unshadowed {x : Ctx} (h : ∀ r, x.lay.other ≠ .shadow r) : x.layDraft = x.lay.active := by
  unfold Ctx.layDraft
  split
  · next r hr => exact absurd hr (h r)
  · rfl

theorem State.mergeChange_lay (hc : c < s.ctxs.length) (ht : tableOf m.op = 2) : (s.mergeChange c m).ctx c =
    { s.ctx c with lay := { (s.ctx c).lay with other := .shadow (s.layChange m (s.ctx c).layDraft) } } := by
  rw [State.mergeChange, State.ctx_onCtx _ _ _ _ hc, if_pos rfl, ht, if_neg (by decide), if_neg (by decide)]
  rfl

/-- After a flip the messages merged into it are answered, and nothing else is done to the tables. -/
theorem State.flip_bare (h : (s.ctx c).holdsShadow t = true) : (s.flip c t).bare = (s.onCtx c (fun x =>
      if t = 0 then match x.route.other with
        | .shadow r => { x with route := ⟨(x.route.gen + 1) % 2 ^ 32, r, .old x.route.active⟩ }
        | _ => x
      else if t = 1 then match x.sfn.other with
        | .shadow r => { x with sfn := ⟨(x.sfn.gen + 1) % 2 ^ 32, r, .old x.sfn.active⟩ }
        | _ => x
      else match x.lay.other with
        | .shadow r => { x with lay := ⟨(x.lay.gen + 1) % 2 ^ 32, r, .old x.lay.active⟩ }
        | _ => x)).bare := by
  unfold State.flip
  rw [h]
  refine (bare_foldl _ fun u m => State.complete_bare ..).trans ?_
  exact (bare_ite (State.bumpCtx_bare ..) rfl).trans ((State.bumpCtx_bare ..).trans rfl)

theorem State.flip_sfn (hc : c < s.ctxs.length) {r : Tbl UserFn} (h : (s.ctx c).sfn.other = .shadow r) :
    ((s.flip c 1).ctx c).sfn = ⟨((s.ctx c).sfn.gen + 1) % 2 ^ 32, r, .old (s.ctx c).sfn.active⟩ := by
  have hflip := congrArg Ctx.sfn (State.ctx_bare_of (State.flip_bare (s := s) (c := c) (t := 1) (by simp [Ctx.holdsShadow, h])) c)
  refine Eq.trans hflip ?_
  rw [State.ctx_onCtx _ _ _ _ hc, if_pos rfl, if_neg (by decide), if_pos rfl, h]
  rfl

theorem State.flip_lay (hc : c < s.ctxs.length) {r : Tbl Nat} (h : (s.ctx c).lay.other = .shadow r) :
    ((s.flip c 2).ctx c).lay = ⟨((s.ctx c).lay.gen + 1) % 2 ^ 32, r, .old (s.ctx c).lay.active⟩ := by
  have hflip := congrArg Ctx.lay (State.ctx_bare_of (State.flip_bare (s := s) (c := c) (t := 2) (by simp [Ctx.holdsShadow, h])) c)
  refine Eq.trans hflip ?_
  rw [State.ctx_onCtx _ _ _ _ hc, if_pos rfl, if_neg (by decide), if_neg (by decide), h]
  rfl

/-- A change of the special-function table with no old copy and no step in flight. -/
theorem sfnChange_flips (hc : c < s.ctxs.length) (hop : m.op = 0x0230) (hold : (s.ctx c).holdsOld 1 = false) (hidle : (s.ctx c).idle = true) :
    ∃ u : State, softChange c m s = .ok u [(.u32, ((s.ctx c).sfn.gen + 1) % 2 ^ 32)] ∧
      (u.ctx c).sfn.active = s.sfnChange m (s.ctx c).sfnDraft ∧ u.mem = s.mem ∧ u.seqs = s.seqs := by
  have ht : tableOf m.op = 1 := by rw [hop]; rfl
  have hmerged := State.mergeChange_sfn hc ht
  have hflip := State.flip_sfn (s := s.mergeChange c m) (c := c) (r := s.sfnChange m (s.ctx c).sfnDraft)
    (by rw [State.ctxs_length_of_form (State.mergeChange_form ..)]; exact hc) (by rw [hmerged])
  have hsfn : ((((s.mergeChange c m).flip c 1).bumpCtx c .sfnLoads 1).ctx c).sfn =
      ⟨((s.ctx c).sfn.gen + 1) % 2 ^ 32, s.sfnChange m (s.ctx c).sfnDraft, .old (s.ctx c).sfn.active⟩ := by
    have hbump := congrArg Ctx.sfn (State.ctx_bare_of (State.bumpCtx_bare (s := (s.mergeChange c m).flip c 1) c .sfnLoads 1) c)
    refine Eq.trans hbump (hflip.trans ?_)
    rw [hmerged]
  refine ⟨((s.mergeChange c m).flip c 1).bumpCtx c .sfnLoads 1, ?_, ?_, State.mem_of_form (by simp), by simp⟩
  · rw [softChange_idle (by rw [ht, hold]) (by rw [hmerged]; exact hidle), ht]
    change Act.ok _ [(Fld.u32, ((((s.mergeChange c m).flip c 1).bumpCtx c .sfnLoads 1).ctx c).sfn.gen)] = _
    rw [hsfn]
    rfl
  · rw [hsfn]

theorem layChange_flips (hc : c < s.ctxs.length) (hop : m.op = 0x0232) (hold : (s.ctx c).holdsOld 2 = false) (hidle : (s.ctx c).idle = true) :
    ∃ u : State, softChange c m s = .ok u [(.u32, ((s.ctx c).lay.gen + 1) % 2 ^ 32)] ∧
      (u.ctx c).lay.active = s.layChange m (s.ctx c).layDraft ∧ u.mem = s.mem ∧ u.seqs = s.seqs := by
  have ht : tableOf m.op = 2 := by rw [hop]; rfl
  have hmerged := State.mergeChange_lay hc ht
  have hflip := State.flip_lay (s := s.mergeChange c m) (c := c) (r := s.layChange m (s.ctx c).layDraft)
    (by rw [State.ctxs_length_of_form (State.mergeChange_form ..)]; exact hc) (by rw [hmerged])
  have hlay : ((((s.mergeChange c m).flip c 2).bumpCtx c .sfnLoads 0).ctx c).lay =
      ⟨((s.ctx c).lay.gen + 1) % 2 ^ 32, s.layChange m (s.ctx c).layDraft, .old (s.ctx c).lay.active⟩ := by
    have hbump := congrArg Ctx.lay (State.ctx_bare_of (State.bumpCtx_bare (s := (s.mergeChange c m).flip c 2) c .sfnLoads 0) c)
    refine Eq.trans hbump (hflip.trans ?_)
    rw [hmerged]
  refine ⟨((s.mergeChange c m).flip c 2).bumpCtx c .sfnLoads 0, ?_, ?_, State.mem_of_form (by simp), by simp⟩
  · rw [softChange_idle (by rw [ht, hold]) (by rw [hmerged]; exact hidle), ht]
    change Act.ok _ [(Fld.u32, ((((s.mergeChange c m).flip c 2).bumpCtx c .sfnLoads 0).ctx c).lay.gen)] = _
    rw [hlay]
    rfl
  · rw [hlay]

/-! ### What a layout load writes (10 R211) -/

theorem getD_foldl_setD (f : Nat) (g : Nat → Nat) (n k : Nat) (u : Tbl Nat) :
    ((List.range n).foldl (fun u i => u.setD 0 (f + i) (g i)) u).getD k 0 = if f ≤ k ∧ k < f + n then g (k - f) else u.getD k 0 := by
  induction n with
  | zero => rw [if_neg (by omega)]; rfl
  | succ n ih =>
    rw [List.range_succ, List.foldl_append, List.foldl_cons, List.foldl_nil, Tbl.getD_setD, ih]
    by_cases hk : f + n = k
    · rw [if_pos hk, if_pos (by omega), ← hk, Nat.add_sub_cancel_left]
    · rw [if_neg hk]
      by_cases hin : f ≤ k ∧ k < f + n
      · rw [if_pos hin, if_pos (by omega)]
      · rw [if_neg hin, if_neg (by omega)]

/-! ### The release of an old copy (4 R89) -/

theorem State.flip_of_none (h : (s.ctx c).holdsShadow t = false) : s.flip c t = s := by
  rw [State.flip]
  exact if_pos (by rw [h]; rfl)

theorem State.flipIdle_of_none (h : (s.ctx c).holdsShadow t = false) : s.flipIdle c t = s := by
  rw [State.flipIdle, State.flip_of_none h, ite_self]

theorem Ctx.holdsShadow_of_old {x : Ctx} (h : x.holdsOld t = true) : x.holdsShadow t = false := by
  unfold Ctx.holdsOld at h
  unfold Ctx.holdsShadow
  split_ifs at h ⊢ <;> split at h <;> simp_all

/-- An old copy that something still refers to stays. -/
theorem generationRelease_bound (hc : c < 16) (ht : t < 3) (hst : (s.ctx c).st = .active) (hold : (s.ctx c).holdsOld t = true)
    (hbound : (s.ctx c).oldReferenced t = true ∨ s.runBinds c t = true) : generationRelease c t s = s := by
  have hrelease : s.releaseOld c t = s := by
    rw [State.releaseOld]
    exact if_pos (by rcases hbound with h | h <;> simp [h])
  rw [generationRelease, if_neg (by simp [hst]; omega), hrelease, State.flipIdle_of_none (Ctx.holdsShadow_of_old hold)]

theorem State.onCtx_of_eq {f : Ctx → Ctx} (h : f (s.ctx c) = s.ctx c) : s.onCtx c f = s := by
  have hctxs : updAt s.ctxs c f = s.ctxs := by
    refine List.ext_getElem? fun j => ?_
    rw [updAt_getElem?]
    by_cases hj : c = j
    · rw [if_pos hj, ← hj]
      cases hget : s.ctxs[c]? with
      | none => rfl
      | some x =>
        have hx : s.ctx c = x := by rw [State.ctx, List.getD_eq_getElem?_getD, hget]; rfl
        rw [hx] at h
        exact congrArg some h
    · rw [if_neg hj]
  exact congrArg (fun l => { s with ctxs := l }) hctxs

theorem State.freeDeferred_of_none (h : (s.ctx c).khan.deferred = []) : s.freeDeferred c = s := by
  have hkept : (s.onCtx c fun y => { y with khan := { y.khan with deferred := y.khan.deferred.filter (fun h => y.genNames h) } }) = s :=
    State.onCtx_of_eq (by rw [h]; exact congrArg (fun d => { s.ctx c with khan := { (s.ctx c).khan with deferred := d } }) h.symm)
  rw [State.freeDeferred, h]
  exact hkept

/-- An old route copy that nothing refers to is freed, where the copies have their size. -/
theorem generationRelease_frees {r : Route} (hc : c < 16) (hlen : c < s.ctxs.length) (hst : (s.ctx c).st = .active)
    (hother : (s.ctx c).route.other = .old r)
    (hroom : (s.ctx c).route.active.bytes (((s.ctx c).model.map (·.moe)).getD 0) 0 ≤ (s.ctx c).copyBytes ∨ (s.ctx c).copyBytes = 0)
    (hfree : (s.ctx c).oldReferenced 0 = false) (hdeferred : (s.ctx c).khan.deferred = []) (hwait : (s.ctx c).guideWait = [])
    (hmsgs : s.host.msgs = []) :
    generationRelease c 0 s = s.onCtx c (fun x => { x with route := { x.route with other := .free } }) := by
  generalize hu : s.onCtx c (fun x => { x with route := { x.route with other := .free } }) = u
  have hctx : u.ctx c = { s.ctx c with route := { (s.ctx c).route with other := .free } } := by
    rw [← hu, State.ctx_onCtx _ _ _ _ hlen, if_pos rfl]
  have hgrow : u.growCopies c = u := by
    have hbytes : (if (u.ctx c).copyBytes = 0 then 0 else (u.ctx c).draft.bytes (((u.ctx c).model.map (·.moe)).getD 0) 0) ≤ (u.ctx c).copyBytes := by
      rw [hctx]
      split
      · exact Nat.zero_le _
      · next hsome => exact hroom.resolve_right hsome
    rw [State.growCopies, State.fitCopies, if_pos hbytes]
  have hold : (s.ctx c).holdsOld 0 = true := by
    rw [Ctx.holdsOld, if_pos rfl, hother]
  have hbinds : s.runBinds c 0 = false := by
    rw [State.runBinds]
    rfl
  have hrelease : s.releaseOld c 0 = u := by
    have hwait' : (u.ctx c).guideWait = [] := by rw [hctx, hwait]
    have hmsgs' : u.host.msgs = [] := by
      rw [← hu]
      exact hmsgs
    unfold State.releaseOld
    dsimp only
    rw [if_neg (by simp [hold, hfree, hbinds])]
    simp only [↓reduceIte]
    rw [hu, State.freeDeferred_of_none (by rw [hctx]; exact hdeferred), hmsgs', List.filter_nil, sortBy, List.foldl_nil,
      State.onCtx_of_eq (by rw [hwait']; exact congrArg (fun g => { u.ctx c with guideWait := g }) hwait'.symm), hgrow]
  rw [generationRelease, if_neg (by simp [hst]; omega), hrelease, State.flipIdle_of_none]
  simp [Ctx.holdsShadow, hctx]

/-! ### The messages -/

theorem sfn_clear {h : Nat} (htakes : Takes s w 0x0230 m) (hspells : Spells [.u8, .u32] m [c, h]) (hadmits : Admits s m c)
    (hbuf : s.bufBad c h 32 = none) (hlow : 0x20 ≤ bits (ofLE (s.bufBytes h 0 32)) 0 8) (hhigh : bits (ofLE (s.bufBytes h 0 32)) 0 8 ≤ 0x27)
    (hclear : bit (ofLE (s.bufBytes h 0 32)) 12 = true) (howns : s.owns m.sess (bits (ofLE (s.bufBytes h 0 32)) 8 4) = true) :
    commitMsg w 0x0230 (withCtx [.u32] sfnLoad) s = (softChange c m s).outcome m 0x0230 := by
  rw [commitCtx_outcome _ htakes hspells hadmits, sfnLoad]
  rw [State.handleUse, if_pos rfl, hbuf, hclear, checked_pass _ _ (by simp), checked_pass]
  simp [howns]
  omega

theorem State.bufBad_of_le {h n k : Nat} (hbuf : s.bufBad c h n = none) (hk : k ≤ n) : s.bufBad c h k = none := by
  have hgood := State.handleBad_of_bufBad hbuf
  rw [State.bufBad, hgood] at hbuf ⊢
  dsimp only at hbuf ⊢
  split_ifs at hbuf with hfit
  rw [if_neg (by omega)]

theorem State.extent_of_bufBad {h n : Nat} (hbuf : s.bufBad c h n = none) : n ≤ (s.slotOf h).extent := by
  have hgood := State.handleBad_of_bufBad hbuf
  rw [State.bufBad, hgood] at hbuf
  by_contra hsmall
  rw [if_pos (by omega)] at hbuf
  cases hbuf

theorem sfn_load {h : Nat} (htakes : Takes s w 0x0230 m) (hspells : Spells [.u8, .u32] m [c, h]) (hadmits : Admits s m c)
    {hd : Nat} (hhd : ofLE (s.bufBytes h 0 32) = hd) {segs : List Nat}
    (hsegs : (List.range (sfnSegments hd)).map (fun i => ofLE (s.bufBytes h (32 + 16 * i) 16)) = segs)
    (hbuf : s.bufBad c h (32 + 16 * sfnSegments hd) = none) (hlow : 0x20 ≤ bits hd 0 8) (hhigh : bits hd 0 8 ≤ 0x27)
    (hset : bit hd 12 = false) (hzero : bits hd 13 3 = 0) (hbit : bit hd 31 = false) (hpad : bits hd 36 4 = 0) (hend : bits hd 168 88 = 0)
    (hform : bits hd 34 2 ≠ 3) (hsome : 0 < bits hd 24 7) (hmost : bits hd 24 7 ≤ 64) (hbelow : -126 ≤ signed 8 (bits hd 16 8))
    (habove : signed 8 (bits hd 16 8) + (bits hd 24 7 : Int) ≤ 128) (hsides : bits hd 32 2 ≠ 0)
    (hgood : ∀ x ∈ segs, segBad x = false ∧ bits x 90 38 = 0) (howns : s.owns m.sess (bits hd 8 4) = true)
    (hunits : tableUnits ((s.ctx c).sfnDraft.put (bits hd 0 8) ⟨hd, [], h⟩) ≤ (s.ctx c).share.table64k) :
    commitMsg w 0x0230 (withCtx [.u32] sfnLoad) s = (softChange c m s).outcome m 0x0230 := by
  have hany : segs.any (fun w => segBad w || bits w 90 38 != 0) = false := by
    refine List.any_eq_false.mpr fun x hx => ?_
    obtain ⟨hbad, hbits⟩ := hgood x hx
    simp [hbad, hbits]
  have hfit := State.extent_of_bufBad hbuf
  rw [commitCtx_outcome _ htakes hspells hadmits, sfnLoad]
  rw [State.handleUse, if_pos rfl, State.bufBad_of_le hbuf (by omega), checked_pass _ _ (by simp)]
  rw [hhd, hsegs, hany, hset, hzero, hbit, hpad, hend, howns, checked_pass]
  intro x hx
  simp only [List.mem_cons, List.not_mem_nil, or_false] at hx
  rcases hx with rfl | rfl | rfl | rfl | rfl | rfl | rfl
  · exact decide_eq_false (by omega)
  · rfl
  · have hrange : decide (bits hd 24 7 = 0 ∨ 64 < bits hd 24 7) = false := decide_eq_false (by omega)
    have hexp : decide (signed 8 (bits hd 16 8) < -126 ∨ 128 < signed 8 (bits hd 16 8) + (bits hd 24 7 : Int)) = false :=
      decide_eq_false (by omega)
    simp only [hrange, hexp]
    simp [hform, hsides]
  · simp [hfit]
  · rfl
  · rfl
  · simp [hunits]

theorem layout_load {f n h : Nat} (htakes : Takes s w 0x0232 m) (hspells : Spells [.u8, .u16, .u16, .u32] m [c, f, n, h])
    (hadmits : Admits s m c) (hfit : f + n ≤ 4096) (hbuf : s.bufBad c h (64 * n) = none) :
    commitMsg w 0x0232 (withCtx [.u16, .u16, .u32] layoutLoad) s = (softChange c m s).outcome m 0x0232 := by
  rw [commitCtx_outcome _ htakes hspells hadmits, layoutLoad, State.handleUse, if_pos rfl, hbuf, checked_pass _ _ (by simp; omega)]

end

/-- Settles O17: a load builds on the draft and flips at once when nothing is in flight; a release waits for its references. -/
theorem tableMessages : Obligations.TableMessages := by
  unfold Obligations.TableMessages
  refine ⟨?_, ?_, ?_, ?_, ?_, ?_, ?_, ?_⟩
  · intro w c h m s htakes hspells hadmits hd hbuf hlow hhigh hclear howns hold hidle
    have hc := State.lt_of_active hadmits.given
    obtain ⟨u, hu, hactive, hmem, hseqs⟩ := sfnChange_flips hc htakes.op_eq hold hidle
    have hnums : m.num 4 4 = h := by
      have hall := hspells.nums
      injection hall with _ hall
      injection hall with hh
      exact hh.symm
    have hdel : s.sfnChange m (s.ctx c).sfnDraft = (s.ctx c).sfnDraft.del (bits hd 0 8) := by
      rw [State.sfnChange, hnums]
      exact if_pos hclear
    refine ⟨u, congrArg Host.Outcome.next ((sfn_clear htakes hspells hadmits hbuf hlow hhigh hclear howns).trans ?_), hactive.trans hdel, ?_, hmem, hseqs⟩
    · rw [hu]
      rfl
    · rw [hactive, hdel, Tbl.find_del_same]
  · intro w c h m s htakes hspells hadmits hd segs hbuf hlow hhigh hset hzero hbit hpad hend hform hsome hmost hbelow habove hsides hgood howns
      hunits hold hidle
    have hc := State.lt_of_active hadmits.given
    obtain ⟨u, hu, hactive, hmem, hseqs⟩ := sfnChange_flips hc htakes.op_eq hold hidle
    have hnums : m.num 4 4 = h := by
      have hall := hspells.nums
      injection hall with _ hall
      injection hall with hh
      exact hh.symm
    have hput : s.sfnChange m (s.ctx c).sfnDraft = (s.ctx c).sfnDraft.put (bits hd 0 8) ⟨hd, segs, h⟩ := by
      rw [State.sfnChange, hnums]
      exact if_neg (by rw [hset]; decide)
    refine ⟨u, congrArg Host.Outcome.next ((sfn_load htakes hspells hadmits rfl rfl hbuf hlow hhigh hset hzero hbit hpad hend hform hsome hmost
      hbelow habove hsides hgood howns hunits).trans ?_), hactive.trans hput, hmem, hseqs⟩
    rw [hu]
    rfl
  · intro w c m s htakes hspells hadmits
    refine ⟨_, congrArg Host.Outcome.next ((commitCtx_outcome sfnQuery htakes hspells hadmits).trans rfl), fun k _ => testBit_maskOf _ k⟩
  · intro w c f n h m s htakes hspells hadmits hfit hbuf hold hidle
    have hc := State.lt_of_active hadmits.given
    obtain ⟨u, hu, hactive, hmem, hseqs⟩ := layChange_flips hc htakes.op_eq hold hidle
    obtain ⟨hf, hn, hh⟩ : m.num 2 2 = f ∧ m.num 4 2 = n ∧ m.num 8 4 = h := by
      have hall := hspells.nums
      injection hall with _ hall
      injection hall with hf hall
      injection hall with hn hall
      injection hall with hh
      exact ⟨hf.symm, hn.symm, hh.symm⟩
    have hread (k : Nat) : (u.ctx c).lay.active.getD k 0 =
        if f ≤ k ∧ k < f + n then ofLE (s.bufBytes h (64 * (k - f)) 64) else (s.ctx c).layDraft.getD k 0 := by
      rw [hactive, State.layChange, hf, hn, hh]
      exact getD_foldl_setD f (fun i => ofLE (s.bufBytes h (64 * i) 64)) n k _
    refine ⟨u, congrArg Host.Outcome.next ((layout_load htakes hspells hadmits hfit hbuf).trans ?_), fun i hi => ?_, fun hplain k hk => ?_, hmem, hseqs⟩
    · rw [hu]
      rfl
    · rw [hread, if_pos (by omega), Nat.add_sub_cancel_left]
    · rw [hread, if_neg (by omega), Ctx.layDraft_of_unshadowed hplain]
  · intro w c f n m s htakes hspells hadmits hfit hn
    refine congrArg Host.Outcome.next ((commitCtx_outcome layoutQuery htakes hspells hadmits).trans ?_)
    rw [layoutQuery, checked_pass _ _ (by simp; omega)]
    rfl
  · exact fun c r s hc hlen hst hother hroom hfree hdeferred hwait hmsgs =>
      congrArg Host.Outcome.next (generationRelease_frees hc hlen hst hother hroom hfree hdeferred hwait hmsgs)
  · exact fun c k s hc hk hst hold hbound => congrArg Host.Outcome.next (generationRelease_bound hc hk hst hold hbound)
  · intro w d m s hone hwin hphase hdue
    change Host.Outcome.next (tableReloadTimeout w s) = _
    rw [tableReloadTimeout, hone]
    simp [hwin, hphase, hdue]

end Machine
end Sys2Proof
end

section
/-! PROOFS. Route messages: a change merges into the shadow copy and flips between steps (4 R72, R73, R88, R89, 5 R98, 6 R143). -/

namespace Sys2Proof
namespace Machine

section
variable {s v : State} {c l w : Nat} {m : Msg} {x y : Ctx}

/-! ### A change of the route table -/

theorem State.mergeChange_route (hc : c < s.ctxs.length) (ht : tableOf m.op = 0) : (s.mergeChange c m).ctx c =
    { s.ctx c with route := { (s.ctx c).route with other := .shadow (s.routeChange m (s.ctx c).draft) } } := by
  rw [State.mergeChange, State.ctx_onCtx _ _ _ _ hc, if_pos rfl, ht, if_pos rfl]
  rfl

theorem State.flip_route (hc : c < s.ctxs.length) {r : Route} (h : (s.ctx c).route.other = .shadow r) :
    ((s.flip c 0).ctx c).route = ⟨((s.ctx c).route.gen + 1) % 2 ^ 32, r, .old (s.ctx c).route.active⟩ := by
  have hflip := congrArg Ctx.route (State.ctx_bare_of (State.flip_bare (s := s) (c := c) (t := 0) (by simp [Ctx.holdsShadow, h])) c)
  refine Eq.trans hflip ?_
  rw [State.ctx_onCtx _ _ _ _ hc, if_pos rfl, if_pos rfl, h]
  rfl

/-- A change of the route table with no old copy and no step in flight. -/
theorem routeChange_flips (hc : c < s.ctxs.length) (ht : tableOf m.op = 0) (hold : (s.ctx c).holdsOld 0 = false) (hidle : (s.ctx c).idle = true) :
    ∃ u : State, softChange c m s = .ok u [(.u32, ((s.ctx c).route.gen + 1) % 2 ^ 32)] ∧
      (u.ctx c).route = ⟨((s.ctx c).route.gen + 1) % 2 ^ 32, s.routeChange m (s.ctx c).draft, .old (s.ctx c).route.active⟩ ∧
      u.mem = s.mem ∧ u.seqs = s.seqs := by
  have hmerged := State.mergeChange_route hc ht
  have hflip := State.flip_route (s := s.mergeChange c m) (c := c) (r := s.routeChange m (s.ctx c).draft)
    (by rw [State.ctxs_length_of_form (State.mergeChange_form ..)]; exact hc) (by rw [hmerged])
  have hroute : ((((s.mergeChange c m).flip c 0).bumpCtx c .sfnLoads 0).ctx c).route =
      ⟨((s.ctx c).route.gen + 1) % 2 ^ 32, s.routeChange m (s.ctx c).draft, .old (s.ctx c).route.active⟩ := by
    have hbump := congrArg Ctx.route (State.ctx_bare_of (State.bumpCtx_bare (s := (s.mergeChange c m).flip c 0) c .sfnLoads 0) c)
    refine Eq.trans hbump (hflip.trans ?_)
    rw [hmerged]
  refine ⟨((s.mergeChange c m).flip c 0).bumpCtx c .sfnLoads 0, ?_, hroute, State.mem_of_form (by simp), by simp⟩
  rw [softChange_idle (by rw [ht, hold]) (by rw [hmerged]; exact hidle), ht]
  change Act.ok _ [(Fld.u32, ((((s.mergeChange c m).flip c 0).bumpCtx c .sfnLoads 0).ctx c).route.gen)] = _
  rw [hroute]
  rfl

/-- During a step the change waits for the flip. -/
theorem routeChange_waits (hc : c < s.ctxs.length) (ht : tableOf m.op = 0) (hold : (s.ctx c).holdsOld 0 = false) (hidle : (s.ctx c).idle = false) :
    softChange c m s = .hold (s.mergeChange c m) (.atFlip (((s.ctx c).route.gen + 1) % 2 ^ 32)) := by
  have hmerged := State.mergeChange_route hc ht
  have hbusy : ((s.mergeChange c m).ctx c).idle = false := by
    rw [hmerged]
    exact hidle
  unfold softChange
  dsimp only
  rw [ht, State.releaseOld_of_none hold, hold, if_neg Bool.false_ne_true, hbusy, if_neg Bool.false_ne_true, Ctx.genOf, if_pos rfl, hmerged]

/-- While the old copy is still referred to, the change waits for its release. -/
theorem routeChange_holds (ht : tableOf m.op = 0) (hold : (s.ctx c).holdsOld 0 = true) (href : (s.ctx c).oldReferenced 0 = true) :
    softChange c m s = .hold (s.bumpCtx c .routeWaits 1) (.reloadWait (m.stamp + 1000000)) := by
  have hkept : s.releaseOld c 0 = s := by
    rw [State.releaseOld]
    exact if_pos (by rw [href]; simp)
  unfold softChange
  dsimp only
  rw [ht, hkept, hold, if_pos rfl, if_pos rfl]

/-! ### The layers of a changed copy -/

theorem Route.layer_put (r : Route) (k : Nat) (g : LayerCfg) :
    Route.layer { r with layers := r.layers.put l g } k = if k = l then g else r.layer k := by
  by_cases hk : k = l
  · rw [if_pos hk, hk]
    exact Tbl.getD_put_same ..
  · rw [if_neg hk]
    exact Tbl.getD_put_other _ _ _ _ _ (Ne.symm hk)

theorem State.routeChange_config (hop : m.op = 0x0210) (hl : m.num 2 2 = l) (r : Route) :
    ((s.routeChange m r).layer l).cfg = m.num 8 32 ∧ (∀ k, k ≠ l → (s.routeChange m r).layer k = r.layer k) ∧
      (s.routeChange m r).experts = r.experts := by
  have hchange : s.routeChange m r = _ := if_pos hop
  rw [hchange, hl, Route.layer_put, if_pos rfl]
  exact ⟨rfl, fun k hk => by rw [Route.layer_put, if_neg hk], rfl⟩

theorem State.routeChange_bias (hop : m.op = 0x0211) (hl : m.num 2 2 = l) (r : Route) :
    (s.routeChange m r).layer l = { r.layer l with
      cfg := setBits (r.layer l).cfg 160 32 (m.num 4 4), bias := s.bufWords (m.num 4 4) (cfgCols (r.layer l).cfg) } ∧
      (∀ k, k ≠ l → (s.routeChange m r).layer k = r.layer k) := by
  have hchange : s.routeChange m r = _ := (if_neg (by rw [hop]; decide)).trans (if_pos hop)
  rw [hchange, hl, Route.layer_put, if_pos rfl]
  exact ⟨rfl, fun k hk => by rw [Route.layer_put, if_neg hk]⟩

theorem State.routeChange_dispatch (hop : m.op = 0x0214) (hl : m.num 2 2 = l) (r : Route) :
    (s.routeChange m r).layer l = { r.layer l with disp := m.num 8 16, planWs := m.num 4 2 } ∧
      (∀ k, k ≠ l → (s.routeChange m r).layer k = r.layer k) := by
  have hchange : s.routeChange m r = _ := (if_neg (by rw [hop]; decide)).trans ((if_neg (by rw [hop]; decide)).trans (if_pos hop))
  rw [hchange, hl, Route.layer_put, if_pos rfl]
  exact ⟨rfl, fun k hk => by rw [Route.layer_put, if_neg hk]⟩

theorem State.routeChange_combine (hop : m.op = 0x0217) (hl : m.num 2 2 = l) (r : Route) :
    (s.routeChange m r).layer l = { r.layer l with comb := m.num 8 16 } ∧ (∀ k, k ≠ l → (s.routeChange m r).layer k = r.layer k) := by
  have hchange : s.routeChange m r = _ :=
    (if_neg (by rw [hop]; decide)).trans ((if_neg (by rw [hop]; decide)).trans (if_neg (by rw [hop]; decide)))
  rw [hchange, hl, Route.layer_put, if_pos rfl]
  exact ⟨rfl, fun k hk => by rw [Route.layer_put, if_neg hk]⟩

/-! ### Room for the copies and the spill reserve (4 R88, 6 R138) -/

theorem Ctx.fitSpill_bare {n : Nat} (h : x.fitSpill n = some y) : ∃ b : Nat, y.bare = { x.bare with spill := b } := by
  unfold Ctx.fitSpill at h
  dsimp only at h
  split_ifs at h
  · cases h
    exact ⟨x.spill, rfl⟩
  · cases h
    exact ⟨n, rfl⟩
  · cases h
    exact ⟨n, rfl⟩

theorem State.fitCopies_fits {n : Nat} (hc : c < s.ctxs.length) (h : s.fitCopies c n = (true, v)) : (∃ (b : Nat) (hs : List Nat),
    (v.ctx c).bare = { (s.ctx c).bare with copyBytes := b, copyH := hs }) ∧ v.host = s.host := by
  unfold State.fitCopies at h
  split_ifs at h
  · cases h
    exact ⟨⟨(s.ctx c).copyBytes, (s.ctx c).copyH, rfl⟩, rfl⟩
  · have hdrop : ((s.ctx c).copyH.foldl State.khanDrop s).bare = s.bare := bare_foldl _ fun _ h => State.khanDrop_bare h
    have hdropped : ((s.ctx c).copyH.foldl State.khanDrop s).host = s.host := host_foldl _ fun _ h => State.khanDrop_host h
    split at h
    · cases h
    · next g t ht =>
      split at h
      · cases h
      · next k u hu =>
        cases h
        have htb : t.bare = s.bare := (congrArg (fun x => x.2.bare) ht).symm.trans ((State.khanAlloc_bare ..).trans hdrop)
        have hub : u.bare = s.bare := (congrArg (fun x => x.2.bare) hu).symm.trans ((State.khanAlloc_bare ..).trans htb)
        have hhost : t.host = s.host := (congrArg (fun x => x.2.host) ht).symm.trans ((State.khanAlloc_host ..).trans hdropped)
        refine ⟨⟨n, [g.1, k.1], ?_⟩, (congrArg (fun x => x.2.host) hu).symm.trans ((State.khanAlloc_host ..).trans hhost)⟩
        rw [State.ctx_onCtx _ _ _ _ (by rw [State.ctxs_length_of_bare hub]; exact hc), if_pos rfl, ← State.ctx_bare_of hub c]
        rfl

/-- What a context holds of its steps, launches and tables does not turn on its counters and allocations. -/
theorem Ctx.oldReferenced_bare (x : Ctx) : x.bare.oldReferenced 0 = x.oldReferenced 0 := by
  simp only [Ctx.oldReferenced, Ctx.bare, Ctx.unallocated, Ctx.still, Launch.unwaited, List.any_map, Function.comp_def]
  rfl

/-- A context that differs in its counters, its allocations and its reserves only. -/
structure Ctx.Reserved (x y : Ctx) : Prop where
  route : y.route = x.route
  idle  : y.idle = x.idle
  refs  : y.oldReferenced 0 = x.oldReferenced 0

theorem Ctx.reserved_of_bare {a b : Nat} {hs : List Nat} (h : y.bare = { x.bare with spill := a, copyBytes := b, copyH := hs }) : x.Reserved y where
  route := by
    have hroute := congrArg Ctx.route h
    exact hroute
  idle := by
    have hidle := congrArg Ctx.idle h
    exact hidle
  refs := by
    have hrefs := congrArg (fun z : Ctx => z.oldReferenced 0) h
    rw [← Ctx.oldReferenced_bare, ← Ctx.oldReferenced_bare x]
    exact hrefs

theorem Ctx.Reserved.draft (h : x.Reserved y) : y.draft = x.draft := by rw [Ctx.draft, h.route, ← Ctx.draft]

theorem Ctx.Reserved.holdsOld (h : x.Reserved y) : y.holdsOld 0 = x.holdsOld 0 := by
  rw [Ctx.holdsOld, if_pos rfl, h.route, Ctx.holdsOld, if_pos rfl]

/-- The reserve and the copies that a route configuration makes room for. -/
theorem State.roomMade {n need : Nat} (hc : c < s.ctxs.length) (hy : (s.ctx c).fitSpill need = some y)
    (hv : (s.onCtx c (fun _ => y)).fitCopies c n = (true, v)) : (s.ctx c).Reserved (v.ctx c) ∧ v.host = s.host ∧ v.form = s.form ∧
      v.seqs = s.seqs := by
  obtain ⟨a, ha⟩ := Ctx.fitSpill_bare hy
  obtain ⟨⟨b, hs, hb⟩, hhost⟩ := State.fitCopies_fits (by rw [State.onCtx, updAt_length]; exact hc) hv
  refine ⟨Ctx.reserved_of_bare (a := a) (b := b) (hs := hs) ?_, hhost, ?_, ?_⟩
  · rw [hb, State.ctx_onCtx _ _ _ _ hc, if_pos rfl, ha]
  · have hform := (s.onCtx c fun _ => y).fitCopies_form c n
    rw [hv] at hform
    exact hform.trans (State.onCtx_form ..)
  · have hseqs := State.fitCopies_seqs (s := s.onCtx c fun _ => y) c n
    rw [hv] at hseqs
    exact hseqs

/-! ### The messages -/

/-- A route message whose checks pass, between steps. -/
theorem route_flips {fs : List Fld} {a : List Nat} {k : Nat → List Nat → Msg → State → Act} {op : Nat} (htakes : Takes s w op m)
    (hspells : Spells (.u8 :: fs) m (c :: a)) (hadmits : Admits s m c) (ht : tableOf op = 0) (hk : k c a m s = softChange c m s)
    (hold : (s.ctx c).holdsOld 0 = false) (hidle : (s.ctx c).idle = true) : ∃ t : State,
      commitMsg w op (withCtx fs k) s = answered t m op [(.u32, ((s.ctx c).route.gen + 1) % 2 ^ 32)] ∧
      (t.ctx c).route.active = s.routeChange m (s.ctx c).draft ∧ t.mem = s.mem ∧ t.seqs = s.seqs := by
  have hc := State.lt_of_active hadmits.given
  obtain ⟨u, hu, hroute, hmem, hseqs⟩ := routeChange_flips hc (by rw [htakes.op_eq, ht]) hold hidle
  refine ⟨u, ?_, by rw [hroute], hmem, hseqs⟩
  rw [commitCtx_outcome _ htakes hspells hadmits, hk, hu]
  rfl

theorem routeConfig_changes {cfg need : Nat} (hchecks : ∀ k ∈ s.layerChecks c l ++ s.routeChecks c l cfg, k.1 = false)
    (hneed : spillBytes (s.ctx c).steps.tokenLimit (s.ctx c).share.dModel
      (if (s.ctx c).steps.mode then Nat.max (s.ctx c).draft.kmax (cfgKmax cfg) else 1) = need)
    (hy : (s.ctx c).fitSpill need = some y)
    (hv : (s.onCtx c (fun _ => y)).fitCopies c ((s.routeChange m (s.ctx c).draft).bytes (((s.ctx c).model.map (·.moe)).getD 0)
      (ceilDiv ((s.ctx c).expertCount * headroomBp s.appliance) 10000)) = (true, v))
    (hland : (s.ctx c).landingFits (s.ctx c).steps.tokenLimit (Nat.max (s.ctx c).draft.kmax (cfgKmax cfg)) = true) :
    routeConfig c [l, cfg] m s = softChange c m v := by
  rw [routeConfig]
  dsimp only
  rw [checked_pass _ _ hchecks, hneed, hy]
  dsimp only
  rw [hv, hland, if_neg (by decide), if_pos rfl]

theorem routeBias_changes {h : Nat} (hlayer : ∀ k ∈ s.layerChecks c l, k.1 = false) (hcfg : ((s.ctx c).draft.layer l).cfg ≠ 0)
    (hbias : cfgBias ((s.ctx c).draft.layer l).cfg = true) (hbuf : s.bufBad c h (4 * cfgCols ((s.ctx c).draft.layer l).cfg) = none) :
    routeBias c [l, h] m s = softChange c m s := by
  rw [routeBias, State.handleUse, if_pos rfl, hbuf, List.append_nil, checked_pass]
  intro x hx
  rcases List.mem_append.mp hx with hx | hx
  · exact hlayer x hx
  · simp only [List.mem_cons, List.not_mem_nil, or_false] at hx
    rcases hx with rfl | rfl
    · simpa using hcfg
    · simp [hbias]

theorem dispatchConfig_changes {ws g : Nat} (hlayer : ∀ k ∈ s.layerChecks c l, k.1 = false) (hzero : bits g 8 8 = 0) (hmode : dispMode g ≠ 3)
    (hfmt : dispFmt g ∈ [1, 2, 3, 4, 8]) (hmx : Num.codeMx (dispFmt g) = true → (s.ctx c).share.dModel % 32 = 0)
    (hscale : badScale32 (dispScale g) = false) (hfactor : 0x100 ≤ dispFactor g) (hhead : 0x100 ≤ dispHead g) (hwindow : dispWindow g ≠ 0)
    (hws : dispMode g = 1 → s.emitWsBad c ws = false) (hroom : 16 ≤ s.ownAllowance c (dispFmt g)) (hhas : (s.ctx c).draft.has l = true) :
    dispatchConfig c [l, ws, g] m s = softChange c m s := by
  rw [dispatchConfig, checked_pass]
  intro x hx
  rcases List.mem_append.mp hx with hx | hx
  · exact hlayer x hx
  · simp only [List.mem_cons, List.not_mem_nil, or_false] at hx
    rcases hx with rfl | rfl | rfl | rfl | rfl | rfl | rfl | rfl
    · simp [hzero]
    · have hknown : [1, 2, 3, 4, 8].contains (dispFmt g) = true := List.contains_iff_mem.mpr hfmt
      simp only [hknown]
      simp [hmode]
    · cases hcode : Num.codeMx (dispFmt g) with
      | false => rfl
      | true => simp [hmx hcode]
    · exact hscale
    · exact decide_eq_false (by omega)
    · by_cases h1 : dispMode g = 1
      · simp [hws h1]
      · simp [h1]
    · exact decide_eq_false (by omega)
    · simp [hhas]

theorem combineConfig_changes {g : Nat} (hlayer : ∀ k ∈ s.layerChecks c l, k.1 = false) (hlow : bits g 12 4 = 0) (hhigh : bits g 112 16 = 0)
    (hresid : combResid g ≤ 1) (hout : combOut g ≤ 1) (heps : combEps g < 0x7F800000 ∨ combEps g = 0x80000000)
    (hfused : combFused g = true → combGamma g ≠ 0 ∧ s.bufBad c (combGamma g) (2 * (s.ctx c).share.dModel) = none)
    (hplain : combFused g = false → combGamma g = 0 ∧ combBeta g = 0) (hvar : combVar g = false → combBeta g = 0)
    (hbeta : combBeta g ≠ 0 → s.bufBad c (combBeta g) (2 * (s.ctx c).share.dModel) = none) (hhas : (s.ctx c).draft.has l = true) :
    combineConfig c [l, g] m s = softChange c m s := by
  have hgammas : (if combFused g then s.handleUse c (combGamma g) true ((s.ctx c).share.dModel * 2) else []) = [] := by
    split
    · next h => rw [State.handleUse, if_pos rfl, Nat.mul_comm, (hfused h).2]
    · rfl
  have hbetas : (if combBeta g ≠ 0 then s.handleUse c (combBeta g) true ((s.ctx c).share.dModel * 2) else []) = [] := by
    split
    · next h => rw [State.handleUse, if_pos rfl, Nat.mul_comm, hbeta h]
    · rfl
  rw [combineConfig]
  rw [hgammas, hbetas, List.append_nil, List.append_nil, checked_pass]
  intro x hx
  simp only [List.mem_append, List.mem_cons, List.not_mem_nil, or_false] at hx
  rcases hx with (hx | rfl | rfl | rfl | rfl | rfl) | rfl
  · exact hlayer x hx
  · simp [hlow, hhigh]
  · exact decide_eq_false (by omega)
  · rcases heps with heps | heps
    · have hsmall : combEps g < 2 ^ 31 := by omega
      have hsign : bit (combEps g) 31 = false := Nat.testBit_lt_two_pow hsmall
      have hmod : decide (0x7F800000 ≤ combEps g % 2 ^ 31) = false := decide_eq_false (by omega)
      dsimp only
      rw [hsign, hmod]
      rfl
    · rw [heps]
      rfl
  · cases h : combFused g with
    | false => rfl
    | true => simp [(hfused h).1]
  · cases h : combFused g with
    | false => simp [hplain h]
    | true =>
      cases h' : combVar g with
      | false => simp [hvar h']
      | true => rfl
  · simp [hhas]

theorem route_query {a n : Nat} (htakes : Takes s w 0x0212 m) (hspells : Spells [.u8, .u16, .u16, .u16] m [c, l, a, n]) (hadmits : Admits s m c)
    (hlayer : ∀ k ∈ s.layerChecks c l, k.1 = false) (hhas : (s.ctx c).route.active.has l = true) (hlast : a + n ≤ (s.ctx c).lastExpert l + 1)
    (hn : n ≤ 499) : commitMsg w 0x0212 (withCtx [.u16, .u16, .u16] routeQuery) s = answered s m 0x0212
      ([(.u32, (s.ctx c).route.gen), (.r 256, ((s.ctx c).route.active.layer l).cfg), (.r 128, ((s.ctx c).route.active.layer l).disp),
        (.r 128, ((s.ctx c).route.active.layer l).comb)] ++
      (List.range n).map (fun i => (Fld.u64, (s.ctx c).route.active.entryWord l (a + i)))) := by
  have hcfg : ((s.ctx c).route.active.layer l).cfg ≠ 0 := by simpa [Route.has] using hhas
  rw [commitCtx_outcome _ htakes hspells hadmits, routeQuery, checked_pass]
  · rfl
  · intro x hx
    rcases List.mem_append.mp hx with hx | hx
    · exact hlayer x hx
    · simp only [List.mem_cons, List.not_mem_nil, or_false] at hx
      rcases hx with rfl | rfl
      · simpa using hcfg
      · exact decide_eq_false (by omega)

/-- The bytes of a layer's histogram (4 R72). -/
def Ctx.histBytes (x : Ctx) (l : Nat) : List Byte :=
  ((List.range (x.lastExpert l + 1)).map (fun e => toLE 4 (if x.route.active.has l then x.histOf l e else 0))).flatten

theorem Ctx.histBytes_length (x : Ctx) (l : Nat) : (x.histBytes l).length = 4 * (x.lastExpert l + 1) := by
  simp [Ctx.histBytes, Function.comp_def, toLE_length, Nat.mul_comm]

theorem Ctx.histBytes_count {e : Nat} (hhas : x.route.active.has l = true) (he : e ≤ x.lastExpert l) :
    ofLE (((x.histBytes l).drop (4 * e)).take 4) = x.histOf l e % 2 ^ 32 := by
  have hget : (List.range (x.lastExpert l + 1))[e]? = some e := List.getElem?_range (by omega)
  rw [Ctx.histBytes, ← List.flatMap_def, Nat.mul_comm, take_drop_flatMap (fun _ => toLE_length 4 _) hget, ofLE_toLE, if_pos hhas]
  rfl

theorem route_stats {h : Nat} (htakes : Takes s w 0x0213 m) (hspells : Spells [.u8, .u16, .u32] m [c, l, h]) (hadmits : Admits s m c)
    (hlayer : ∀ k ∈ s.layerChecks c l, k.1 = false) (hbuf : h ≠ 0 → s.bufBad c h (4 * ((s.ctx c).lastExpert l + 1)) = none) :
    commitMsg w 0x0213 (withCtx [.u16, .u32] routeStats) s =
      answered (if h ≠ 0 then s.writeAt (s.slotOf h).base ((s.ctx c).histBytes l) else s) m 0x0213 (ctrFlds (s.ctx c).ctr routeCtrs) := by
  have hnone : (if h ≠ 0 then s.handleUse c h true (4 * ((s.ctx c).lastExpert l + 1)) else []) = [] := by
    split
    · next hh => rw [State.handleUse, if_pos rfl, hbuf hh]
    · rfl
  rw [commitCtx_outcome _ htakes hspells hadmits, routeStats]
  dsimp only
  rw [hnone, List.append_nil, checked_pass _ _ hlayer]
  rfl

end

/-- Settles O16: a route message that passes its checks merges into the shadow copy, which flips between steps; queries answer. -/
theorem routeMessages : Obligations.RouteMessages := by
  unfold Obligations.RouteMessages
  refine ⟨?_, ?_, ?_, ?_, ?_, ?_, ?_, ?_, ?_⟩
  · intro w c l cfg y v m s htakes hspells hadmits hchecks need hy hv hland hold
    have hc := State.lt_of_active hadmits.given
    obtain ⟨hkept, hhost, hform, hseqs⟩ := State.roomMade hc hy hv
    have hchange := routeConfig_changes (m := m) hchecks rfl hy hv hland
    have hcv : c < v.ctxs.length := by
      rw [State.ctxs_length_of_form hform]
      exact hc
    have ht : tableOf m.op = 0 := by rw [htakes.op_eq]; rfl
    obtain ⟨hl, hcfg⟩ : m.num 2 2 = l ∧ m.num 8 32 = cfg := by
      have hall := hspells.nums
      injection hall with _ hall
      injection hall with hl hall
      injection hall with hcfg
      exact ⟨hl.symm, hcfg.symm⟩
    obtain ⟨hlayer, hothers, hexperts⟩ := v.routeChange_config htakes.op_eq hl (v.ctx c).draft
    rw [hkept.draft] at hlayer hothers hexperts
    refine ⟨fun hidle => ?_, fun hidle => ?_⟩
    · obtain ⟨u, hu, hroute, humem, huseqs⟩ := routeChange_flips hcv ht (by rw [hkept.holdsOld, hold]) (by rw [hkept.idle, hidle])
      rw [hkept.route, hkept.draft] at hroute
      rw [hkept.route] at hu
      refine ⟨u, congrArg Host.Outcome.next ((commitCtx_outcome routeConfig htakes hspells hadmits).trans ?_), ?_, ?_, ?_, ?_,
        humem.trans (State.mem_of_form hform), huseqs.trans hseqs⟩
      · rw [hchange, hu]
        rfl
      · rw [hroute]
      · rw [hroute, hlayer, hcfg]
      · rw [hroute]
        exact hothers
      · rw [hroute]
        exact hexperts
    · have hwait := routeChange_waits hcv ht (by rw [hkept.holdsOld, hold]) (by rw [hkept.idle, hidle])
      rw [hkept.route] at hwait
      refine ⟨v.mergeChange c m, v.routeChange m (s.ctx c).draft,
        congrArg Host.Outcome.next ((commitCtx_outcome routeConfig htakes hspells hadmits).trans ?_), ?_, ?_, hothers, ?_, hhost⟩
      · rw [hchange, hwait]
        rfl
      · rw [State.mergeChange_route hcv ht, hkept.route, hkept.draft]
      · rw [hlayer, hcfg]
      · exact (State.mem_of_form (State.mergeChange_form ..)).trans (State.mem_of_form hform)
  · intro w c l cfg r y v m s htakes hspells hadmits hchecks hy hv hland hother href
    have hc := State.lt_of_active hadmits.given
    obtain ⟨hkept, hhost, hform, -⟩ := State.roomMade hc hy hv
    have hold : (s.ctx c).holdsOld 0 = true := by
      rw [Ctx.holdsOld, if_pos rfl, hother]
    have hholds := routeChange_holds (c := c) (s := v) (m := m) (by rw [htakes.op_eq]; rfl) (by rw [hkept.holdsOld, hold]) (by rw [hkept.refs, href])
    refine ⟨v.bumpCtx c .routeWaits 1, congrArg Host.Outcome.next ((commitCtx_outcome routeConfig htakes hspells hadmits).trans ?_), ?_,
      State.mem_of_form ((State.bumpCtx_form ..).trans hform), hhost⟩
    · rw [routeConfig_changes (m := m) hchecks rfl hy hv hland, hholds]
      rfl
    · exact (congrArg Ctx.route (State.ctx_bare_of (State.bumpCtx_bare ..) c)).trans hkept.route
  · intro w c l h m s htakes hspells hadmits hlayer hcfg hbias hbuf hold hidle
    obtain ⟨t, ht, hroute, hmem, hseqs⟩ := route_flips htakes hspells hadmits rfl (routeBias_changes hlayer hcfg hbias hbuf) hold hidle
    obtain ⟨hl, hh⟩ : m.num 2 2 = l ∧ m.num 4 4 = h := by
      have hall := hspells.nums
      injection hall with _ hall
      injection hall with hl hall
      injection hall with hh
      exact ⟨hl.symm, hh.symm⟩
    obtain ⟨hchanged, hothers⟩ := s.routeChange_bias htakes.op_eq hl (s.ctx c).draft
    rw [hh] at hchanged
    exact ⟨t, congrArg Host.Outcome.next ht, by rw [hroute, hchanged], by rw [hroute]; exact hothers, hmem, hseqs⟩
  · intro w c l ws g m s htakes hspells hadmits hlayer hzero hmode hfmt hmx hscale hfactor hhead hwindow hws hroom hhas hold hidle
    obtain ⟨t, ht, hroute, hmem, hseqs⟩ := route_flips htakes hspells hadmits rfl
      (dispatchConfig_changes hlayer hzero hmode hfmt hmx hscale hfactor hhead hwindow hws hroom hhas) hold hidle
    obtain ⟨hl, hw, hg⟩ : m.num 2 2 = l ∧ m.num 4 2 = ws ∧ m.num 8 16 = g := by
      have hall := hspells.nums
      injection hall with _ hall
      injection hall with hl hall
      injection hall with hw hall
      injection hall with hg
      exact ⟨hl.symm, hw.symm, hg.symm⟩
    obtain ⟨hchanged, hothers⟩ := s.routeChange_dispatch htakes.op_eq hl (s.ctx c).draft
    rw [hw, hg] at hchanged
    exact ⟨t, congrArg Host.Outcome.next ht, by rw [hroute, hchanged], by rw [hroute]; exact hothers, hmem, hseqs⟩
  · intro w c l g m s htakes hspells hadmits hlayer hlow hhigh hresid hout heps hfused hplain hvar hbeta hhas hold hidle
    obtain ⟨t, ht, hroute, hmem, hseqs⟩ := route_flips htakes hspells hadmits rfl
      (combineConfig_changes hlayer hlow hhigh hresid hout heps hfused hplain hvar hbeta hhas) hold hidle
    obtain ⟨hl, hg⟩ : m.num 2 2 = l ∧ m.num 8 16 = g := by
      have hall := hspells.nums
      injection hall with _ hall
      injection hall with hl hall
      injection hall with hg
      exact ⟨hl.symm, hg.symm⟩
    obtain ⟨hchanged, hothers⟩ := s.routeChange_combine htakes.op_eq hl (s.ctx c).draft
    rw [hg] at hchanged
    exact ⟨t, congrArg Host.Outcome.next ht, by rw [hroute, hchanged], by rw [hroute]; exact hothers, hmem, hseqs⟩
  · exact fun w c l a n m s htakes hspells hadmits hlayer hhas hlast hn =>
      congrArg Host.Outcome.next (route_query htakes hspells hadmits hlayer hhas hlast hn)
  · intro w c l m s htakes hspells hadmits hlayer
    have hstats := route_stats htakes hspells hadmits hlayer fun h => absurd rfl h
    rw [if_neg (not_not.mpr rfl)] at hstats
    exact congrArg Host.Outcome.next hstats
  · intro w c l h m s htakes hspells hadmits hlayer hh hbuf
    refine ⟨(s.ctx c).histBytes l, ?_, Ctx.histBytes_length .., fun hhas e he => Ctx.histBytes_count hhas he⟩
    have hstats := route_stats htakes hspells hadmits hlayer fun _ => hbuf
    rw [if_pos hh] at hstats
    exact congrArg Host.Outcome.next hstats
  · intro w c us m s htakes hspells hadmits hlow hhigh
    refine congrArg Host.Outcome.next ((commitCtx_outcome returnTimeoutMsg htakes hspells hadmits).trans ?_)
    rw [returnTimeoutMsg, checked_pass _ _ (by simp; omega)]
    rfl

end Machine
end Sys2Proof
end

section
/-! PROOFS. What other packages announce and access (5 R106, 7 R167 to R170, 11 R183, R184, R234, 15 R332, 19 R415). -/

namespace Sys2Proof
namespace Machine

/-! ### The frames but for their use -/

def Frame.unstamped (f : Frame) : Frame := { f with stamp := 0, prefetched := false }

/-- The frames of every context, but for when each was used. -/
def State.placed (s : State) : List (List Frame) := s.ctxs.map (fun x => x.resid.frames.map Frame.unstamped)

section
variable {s t u : State} {c d l e i : Nat}

theorem placed_foldl {α : Type} {f : State → α → State} (l : List α) (h : ∀ t a, (f t a).placed = t.placed) : (l.foldl f s).placed = s.placed :=
  List.foldlRecOn (motive := fun t : State => t.placed = s.placed) _ _ rfl fun t ht a _ => (h t a).trans ht

theorem placed_ite {p : Prop} [Decidable p] (hs : s.placed = u.placed) (ht : t.placed = u.placed) : (if p then s else t).placed = u.placed := by
  split
  exacts [hs, ht]

theorem State.placed_of_plain (h : t.plain = s.plain) : t.placed = s.placed := by
  have hresids := congrArg (List.map fun r : Resid => r.frames.map Frame.unstamped) (State.resids_of_plain h)
  rw [List.map_map, List.map_map] at hresids
  exact hresids

theorem State.placed_of_bare (h : t.bare = s.bare) : t.placed = s.placed := State.placed_of_plain (State.plain_of_bare h)

theorem State.onCtx_placed (c : Nat) {f : Ctx → Ctx} (h : ∀ x, (f x).resid.frames.map Frame.unstamped = x.resid.frames.map Frame.unstamped) :
    (s.onCtx c f).placed = s.placed := updAt_map_of_eq _ _ h

theorem State.onRx_placed (c : Nat) (f : Rx → Rx) : (s.onRx c f).placed = s.placed := State.onCtx_placed c fun _ => by rfl

theorem State.bumpCtx_placed (c : Nat) (k : Ctr) (n : Nat) : (s.bumpCtx c k n).placed = s.placed := State.onCtx_placed c fun _ => by rfl

theorem State.fetchRequest_placed (c l e i prio die : Nat) : (s.fetchRequest c l e i prio die).placed = s.placed := by
  unfold State.fetchRequest
  dsimp only
  split
  · exact placed_ite (State.bumpCtx_placed ..) rfl
  · split
    · rfl
    · exact placed_ite (State.onCtx_placed _ fun _ => by rfl) (placed_ite (State.bumpCtx_placed ..) (State.onCtx_placed _ fun _ => by rfl))

theorem State.raiseRated_placed (source kind ctx dtype detail : Nat) : (s.raiseRated source kind ctx dtype detail).placed = s.placed := by
  unfold State.raiseRated
  dsimp only
  split
  · exact placed_ite rfl rfl
  · rfl

/-! ### Reception keeps the frames -/

theorem Resid.onFrame_frames {f : Frame → Frame} (h : ∀ g, (f g).unstamped = g.unstamped) (r : Resid) (l e i : Nat) :
    (r.onFrame l e i f).frames.map Frame.unstamped = r.frames.map Frame.unstamped := by
  rw [Resid.onFrame, List.map_map]
  refine List.map_congr_left fun g _ => ?_
  dsimp only [Function.comp_apply]
  split
  · exact h g
  · rfl

theorem State.handBatch_placed (c : Nat) (b : Batch) (d : Nat) : (s.handBatch c b d).placed = s.placed := by
  unfold State.handBatch
  refine (State.onCtx_placed _ fun x => Resid.onFrame_frames (fun _ => by rfl) ..).trans ((State.bumpCtx_placed ..).trans
    ((State.bumpCtx_placed ..).trans ((placed_foldl _ fun t p => placed_foldl _ fun v _ => by rfl).trans (placed_foldl _ fun t x => by rfl))))

theorem handAll_placed (c : Nat) (l : List Batch) : (handAll c l s).placed = s.placed := by
  induction l generalizing s with
  | nil => rfl
  | cons b rest ih =>
    rw [handAll]
    split
    · exact placed_ite (ih.trans ((State.onRx_placed ..).trans (State.handBatch_placed ..))) ih
    · exact ih

theorem State.settleRow_placed (c l e i : Nat) : (s.settleRow c l e i).placed = s.placed := by
  unfold State.settleRow
  exact (handAll_placed ..).trans (placed_ite rfl (State.onRx_placed ..))

theorem State.noteNow_placed (src header : Nat) (entries : List Nat) : (s.noteNow src header entries).placed = s.placed := by
  unfold State.noteNow
  dsimp only
  refine placed_ite ((State.bumpCtx_placed ..).trans rfl) (placed_ite rfl ((State.onRx_placed ..).trans ((placed_foldl _ fun t e => ?_).trans
    ((State.onRx_placed ..).trans rfl))))
  refine placed_ite rfl ?_
  split
  · exact State.fetchRequest_placed ..
  · rfl

theorem State.sendRefusal_placed (bill code : Nat) : (s.sendRefusal bill code).placed = s.placed :=
  State.placed_of_bare (State.sendMsg_bare ..)

theorem State.acceptRow_placed (src bill : Nat) (data : List Byte) : (s.acceptRow src bill data).placed = s.placed := by
  unfold State.acceptRow
  dsimp only
  refine placed_ite (placed_ite ((State.fetchRequest_placed ..).trans ?taken) ?taken) ((State.settleRow_placed ..).trans
    (placed_ite ((State.fetchRequest_placed ..).trans ?taken) ?taken))
  exact (State.bumpCtx_placed ..).trans ((State.bumpCtx_placed ..).trans (State.onRx_placed ..))

theorem State.rowGone_placed (c : Nat) (n : RxNote) (e i : Nat) : (s.rowGone c n e i).placed = s.placed :=
  (State.settleRow_placed ..).trans (State.onRx_placed ..)

theorem State.rowNow_placed {src bill : Nat} {data : List Byte} (h : s.rowNow src bill data = some t) : t.placed = s.placed := by
  unfold State.rowNow at h
  dsimp only at h
  split at h
  · cases h
    rfl
  split at h
  · split at h <;> cases h
    · exact (State.rowGone_placed ..).trans ((State.raiseRated_placed ..).trans (State.bumpCtx_placed ..))
    · exact (State.raiseRated_placed ..).trans (State.bumpCtx_placed ..)
  split at h
  · cases h
    exact State.bumpCtx_placed ..
  split at h
  · cases h
    exact State.bumpCtx_placed ..
  split at h
  · cases h
    exact (State.onRx_placed ..).trans (State.bumpCtx_placed ..)
  split at h
  · split at h <;> cases h
    · exact (State.rowGone_placed ..).trans ((State.sendRefusal_placed ..).trans (State.bumpCtx_placed ..))
    · exact (State.sendRefusal_placed ..).trans (State.bumpCtx_placed ..)
  · split at h <;> cases h
    exact State.acceptRow_placed ..

theorem State.retireNow_placed (src c epoch : Nat) : (s.retireNow src c epoch).placed = s.placed := by
  unfold State.retireNow
  refine placed_ite rfl ((placed_foldl _ fun t n => placed_foldl _ fun v e => State.settleRow_placed ..).trans ((State.onRx_placed ..).trans ?_))
  exact (State.bumpCtx_placed ..).trans (State.onRx_placed ..)

theorem State.heldNow_placed {r : HeldRx} (h : s.heldNow r = some t) : t.placed = s.placed := by
  unfold State.heldNow at h
  split_ifs at h
  · exact State.rowNow_placed h
  · cases h
    exact State.noteNow_placed ..
  · cases h
    exact State.retireNow_placed ..

theorem State.serveOne_placed {l : List HeldRx} {blocked : List Nat} (h : s.serveOne l blocked = some t) : t.placed = s.placed := by
  induction l generalizing blocked with
  | nil => cases h
  | cons r rest ih =>
    rw [State.serveOne] at h
    split at h
    · exact ih h
    · split at h
      · next v hv =>
        cases h
        have hkept := State.heldNow_placed hv
        exact hkept
      · exact ih h

theorem serveHeld_placed (n : Nat) : (serveHeld n s).placed = s.placed := by
  induction n generalizing s with
  | zero => rfl
  | succ n ih =>
    rw [serveHeld]
    split
    · next h => exact ih.trans (State.serveOne_placed h)
    · rfl

theorem State.refuseRows_placed (c l e i code : Nat) (handed : Bool) : (s.refuseRows c l e i code handed).placed = s.placed :=
  (serveHeld_placed _).trans ((State.bumpCtx_placed ..).trans ((placed_foldl _ fun _ _ => State.sendRefusal_placed ..).trans (State.onRx_placed ..)))

/-! ### Announcements and the loss of a die -/

/-- The dies that the frames of every context lie on. -/
def State.dies (s : State) : List (List Nat) := s.ctxs.map (fun x => x.resid.frames.map Frame.die)

theorem State.dies_of_placed (h : t.placed = s.placed) : t.dies = s.dies := by
  have hdies := congrArg (List.map (List.map Frame.die)) h
  simpa [State.placed, State.dies, Frame.unstamped, Function.comp_def] using hdies

theorem dies_foldl {α : Type} {f : State → α → State} (l : List α) (h : ∀ t a, (f t a).dies = t.dies) : (l.foldl f s).dies = s.dies :=
  List.foldlRecOn (motive := fun t : State => t.dies = s.dies) _ _ rfl fun t ht a _ => (h t a).trans ht

theorem dies_ite {p : Prop} [Decidable p] (hs : s.dies = u.dies) (ht : t.dies = u.dies) : (if p then s else t).dies = u.dies := by
  split
  exacts [hs, ht]

theorem State.onCtx_dies (c : Nat) {f : Ctx → Ctx} (h : ∀ x, (f x).resid.frames.map Frame.die = x.resid.frames.map Frame.die) :
    (s.onCtx c f).dies = s.dies := updAt_map_of_eq _ _ h

theorem State.guideAll_dies (c : Nat) (g : GuideChange) : (s.guideAll c g).dies = s.dies :=
  State.dies_of_placed (State.placed_of_plain (State.guideAll_plain ..))

theorem State.announce_dies (o l e i : Nat) (r : Replica) : (s.announce o l e i r).dies = s.dies := by
  unfold State.announce
  exact dies_ite (State.dies_of_placed (State.placed_of_bare (State.sendGuide_bare ..))) (State.dies_of_placed (State.placed_of_bare (State.sendOpen_bare ..)))

theorem State.newPrimary_dies (o l e pkg : Nat) : (s.newPrimary o l e pkg).dies = s.dies := by
  unfold State.newPrimary
  split
  · exact dies_ite (State.dies_of_placed (State.fetchRequest_placed ..)) (State.dies_of_placed (State.placed_of_bare (State.sendOpen_bare ..)))
  · rfl

theorem State.movePrimary_dies (o l e d : Nat) : (s.movePrimary o l e d).dies = s.dies := by
  unfold State.movePrimary
  split
  · refine (State.announce_dies ..).trans ((State.announce_dies ..).trans ((State.onCtx_dies _ fun x => ?_).trans
      ((State.guideAll_dies ..).trans (State.guideAll_dies ..))))
    dsimp only [Resid.onFrame]
    rw [List.map_map]
    refine List.map_congr_left fun g _ => ?_
    dsimp only [Function.comp_apply]
    split <;> rfl
  · exact dies_ite ((State.newPrimary_dies ..).trans ((State.announce_dies ..).trans (State.guideAll_dies ..)))
      ((State.announce_dies ..).trans (State.guideAll_dies ..))

/-- A lost die leaves no frame of the context on it, and the other contexts' frames where they are. -/
theorem State.dieLost_dies (d c : Nat) : (s.dieLost d c).dies =
    if (s.ctx c).st = .active then updAt s.dies c (fun l => l.filter (fun k => k != d)) else s.dies := by
  by_cases hst : (s.ctx c).st = .active
  · rw [if_pos hst]
    unfold State.dieLost
    dsimp only
    rw [if_neg (not_not.mpr hst)]
    generalize hs1 : List.foldl _ s (List.filter _ (s.ctx c).resid.frames) = s1
    have hrefused : s1.dies = s.dies := by
      rw [← hs1]
      exact dies_foldl _ fun t f => dies_foldl _ fun u k => State.dies_of_placed (State.refuseRows_placed ..)
    generalize hs3 : State.guideChange _ c (.dropDie s.board.pkgId d) = s3
    have hdropped : s3.dies = updAt s.dies c (fun l => l.filter (fun k => k != d)) := by
      rw [← hs3, State.dies_of_placed (State.placed_of_plain (State.guideChange_plain ..)), ← hrefused]
      refine List.ext_getElem? fun j => ?_
      unfold State.dies State.onCtx
      dsimp only
      rw [updAt_getElem?, List.getElem?_map, List.getElem?_map, updAt_getElem?]
      split
      · cases s1.ctxs[j]? with
        | none => rfl
        | some x => simp [List.filter_map, Function.comp_def, Ctx.onPool]
      · rfl
    rw [← hdropped]
    exact dies_ite rfl ((dies_foldl _ fun t k => State.movePrimary_dies ..).trans (dies_foldl _ fun t k => State.announce_dies ..))
  · rw [if_neg hst, State.dieLost, if_pos hst]

theorem State.getD_dies (s : State) (c : Nat) : s.dies.getD c [] = (s.ctx c).resid.frames.map Frame.die :=
  List.getD_map (f := fun x : Ctx => x.resid.frames.map Frame.die) (l := s.ctxs) (d := Ctx.fresh)

theorem State.newPrimary_works (hs : u.Works s) (o l e pkg : Nat) : u.Works (s.newPrimary o l e pkg) := by
  unfold State.newPrimary
  split
  · exact works_ite (State.fetchRequest_works hs ..) (State.sendOpen_works hs ..)
  · exact hs

theorem State.movePrimary_works (hs : u.Works s) (o l e d : Nat) : u.Works (s.movePrimary o l e d) := by
  unfold State.movePrimary
  split
  · exact State.announce_works (State.announce_works (State.onResid_works (State.guideAll_works (State.guideAll_works hs ..) ..) ..) ..) ..
  · have hannounced {p : Prop} [Decidable p] {t : State} (ht : u.Works t) : u.Works (if p then t.newPrimary o l e t.board.pkgId else t) :=
      works_ite (State.newPrimary_works ht ..) ht
    exact hannounced (State.announce_works (State.guideAll_works hs ..) ..)

theorem State.dieLost_works (hs : u.Works s) (d c : Nat) : u.Works (s.dieLost d c) := by
  unfold State.dieLost
  dsimp only
  have hrefused := works_foldl hs ((s.ctx c).resid.frames.filter (fun f => f.die == d))
    (f := fun t f => (t.users c).foldl (fun u k => u.refuseRows k f.layer f.expert f.replica refDieAbsent true) t)
    fun t f ht => works_foldl ht _ fun v k hv => State.refuseRows_works hv ..
  refine works_ite hs (works_ite ?dropped (works_foldl (works_foldl ?dropped _ fun t k ht => State.announce_works ht ..) _ fun t k ht =>
    State.movePrimary_works ht ..))
  exact State.guideChange_works (State.onCtx_works hrefused c fun _ => by rfl) ..

/-- After every context has lost the die, no running context has a frame on it. -/
theorem foldl_dieLost_clear (l : List Nat) (hst : (s.ctx c).st = .active) (h : c ∈ l ∨ d ∉ s.dies.getD c []) :
    d ∉ (l.foldl (fun t c => t.dieLost d c) s).dies.getD c [] := by
  induction l generalizing s with
  | nil => exact h.resolve_left List.not_mem_nil
  | cons k r ih =>
    rw [List.foldl_cons]
    refine ih ?_ ?_
    · rw [(State.dieLost_works (.refl s) d k).st]
      exact hst
    · rw [State.dieLost_dies]
      rcases h with h | h
      · rcases List.mem_cons.mp h with rfl | h
        · right
          rw [if_pos hst, updAt_getD]
          split
          · simp
          · next hout =>
            rw [List.getD_eq_default]
            · exact List.not_mem_nil
            · simpa using hout
        · exact .inl h
      · right
        split
        · rw [updAt_getD]
          split
          · next hin =>
            rw [hin.1]
            exact fun hmem => h (List.mem_of_mem_filter hmem)
          · exact h
        · exact h

theorem ucieDown_clears {port : Nat} (hup : s.boot.diesUp.getD port false = true) :
    (ucieDown port s).boot.diesUp.getD port false = false ∧
      (∃ m ∈ (ucieDown port s).flt.arriving, m.kind = 0x25 ∧ m.source = 0x720 + port ∧ m.cls = 0) ∧
      ∀ c < 16, (s.ctx c).st = .active → ∀ f ∈ ((ucieDown port s).ctx c).resid.frames, f.die ≠ port := by
  rw [ucieDown, hup, if_neg (by decide)]
  dsimp only
  generalize hs1 : { s with boot := { s.boot with diesUp := updAt s.boot.diesUp port (fun _ => false) } } = s1
  have hworks := works_foldl (.refl (s1.raise (0x720 + port) 0x25 0 0 3 port)) (List.range 16) (f := fun t c => t.dieLost port c)
    fun t c ht => State.dieLost_works ht ..
  generalize ht : (List.range 16).foldl (fun t c => t.dieLost port c) (s1.raise (0x720 + port) 0x25 0 0 3 port) = t at hworks ⊢
  refine ⟨?_, ?_, fun c hc hst f hf => ?_⟩
  · have hboot : t.boot = s1.boot := congrArg (fun x => x.2.2.2.2) hworks.standing
    rw [hboot, ← hs1]
    dsimp only
    rw [updAt_getD]
    split
    · rfl
    · next hout =>
      rw [List.getD_eq_default _ _ (by simpa using hout)]
  · obtain ⟨m, hm, hsource, hkind, hcls⟩ := State.raise_arrives s1 (0x720 + port) 0x25 0 0 3 port
    exact ⟨m, hworks.arriving hm, hkind, hsource, hcls⟩
  · have hclear := foldl_dieLost_clear (s := s1.raise (0x720 + port) 0x25 0 0 3 port) (c := c) (d := port) (List.range 16)
      (by rw [← hs1]; exact hst) (.inl (List.mem_range.mpr hc))
    rw [ht, State.getD_dies] at hclear
    rintro rfl
    exact hclear (List.mem_map_of_mem hf)

/-! ### Announcements -/

/-- Where each context is resident, as announced, and its reception. -/
def State.homing (s : State) : List (List Nat × Rx) := s.ctxs.map (fun x => (x.resid.resident, x.rx))

theorem State.getD_homing (s : State) (c : Nat) : s.homing.getD c (Ctx.fresh.resid.resident, Ctx.fresh.rx) =
    ((s.ctx c).resid.resident, (s.ctx c).rx) :=
  List.getD_map (f := fun x : Ctx => (x.resid.resident, x.rx)) (l := s.ctxs) (d := Ctx.fresh)

theorem State.homing_of_plain (h : t.plain = s.plain) : t.homing = s.homing := by
  have hctxs : (t.ctxs.map Ctx.plain).map (fun x => (x.resid.resident, x.rx)) = (s.ctxs.map Ctx.plain).map (fun x => (x.resid.resident, x.rx)) := by
    rw [← State.plain_ctxs, ← State.plain_ctxs, h]
  rw [List.map_map, List.map_map] at hctxs
  exact hctxs

theorem State.onResid_homing (c : Nat) {f : Resid → Resid} (h : ∀ r, (f r).resident = r.resident) : (s.onResid c f).homing = s.homing :=
  updAt_map_of_eq _ _ fun x => by
    dsimp only
    rw [h]

theorem homing_ite {p : Prop} [Decidable p] (hs : s.homing = u.homing) (ht : t.homing = u.homing) : (if p then s else t).homing = u.homing := by
  split
  exacts [hs, ht]

theorem State.removeHere_homing (c l e i : Nat) : (s.removeHere c l e i).homing = s.homing := by
  unfold State.removeHere
  refine homing_ite (State.onResid_homing _ fun _ => by rfl) ?_
  exact (State.onResid_homing _ fun _ => by rfl).trans ((State.homing_of_plain (State.guideAll_plain ..)).trans
    (State.onResid_homing _ fun _ => by rfl))

theorem State.retire_homing (o l e i : Nat) : (s.retire o l e i).homing = s.homing := by
  unfold State.retire
  refine homing_ite rfl (homing_ite ?_ ?_)
  · exact (State.removeHere_homing ..).trans (State.homing_of_plain (State.plain_of_bare (State.sendGuide_bare ..)))
  · exact (State.onResid_homing _ fun _ => by rfl).trans (State.homing_of_plain (State.plain_of_bare (State.sendOpen_bare ..)))

/-- A package that leaves a context's home is no longer one of its homes; reception stays. -/
theorem State.leaveHome_leaves (hc : c < s.ctxs.length) (pkg : Nat) :
    pkg ∉ ((s.leaveHome c pkg).ctx c).resid.resident ∧ ((s.leaveHome c pkg).ctx c).rx = (s.ctx c).rx := by
  have hkept : (s.leaveHome c pkg).homing = (s.onResid c (fun r => { r with resident := r.resident.filter (fun p => p != pkg) })).homing := by
    unfold State.leaveHome
    dsimp only
    generalize hasked : (if s.leader c = pkg then (s.ctx c).resid.asked else []) = asked
    refine (List.foldlRecOn (motive := fun t : State => t.homing = _) _ _ ?_ fun t ht a _ => (State.retire_homing ..).trans ht)
    refine (State.onResid_homing _ fun _ => by rfl).trans ?_
    have hfilter (f g : Resid → Resid) (hfg : ∀ r, (f r).resident = (g r).resident) : (s.onResid c f).homing = (s.onResid c g).homing := by
      unfold State.homing State.onResid State.onCtx
      dsimp only
      refine List.ext_getElem? fun j => ?_
      rw [List.getElem?_map, List.getElem?_map, updAt_getElem?, updAt_getElem?]
      split
      · cases s.ctxs[j]? with
        | none => rfl
        | some x => exact congrArg (fun l => some (l, x.rx)) (hfg x.resid)
      · rfl
    exact hfilter _ _ fun _ => rfl
  have hpair := congrArg (fun l : List (List Nat × Rx) => l.getD c (Ctx.fresh.resid.resident, Ctx.fresh.rx)) hkept
  rw [State.getD_homing, State.getD_homing, State.onResid, State.ctx_onCtx _ _ _ _ hc, if_pos rfl] at hpair
  obtain ⟨hresident, hrx⟩ := Prod.mk.inj hpair
  exact ⟨by rw [hresident]; simp, hrx⟩

theorem rxAreaAnnounce_adds (src a : Nat) (hc : c < s.ctxs.length) : ((rxAreaAnnounce src c a s).ctx c).rx =
    { (s.ctx c).rx with areas := (s.ctx c).rx.areas.put src a } ∧ src ∈ ((rxAreaAnnounce src c a s).ctx c).resid.resident := by
  have hlen : c < (s.onRx c (fun r => { r with areas := r.areas.put src a })).ctxs.length := by
    rw [State.onRx, State.onCtx, updAt_length]
    exact hc
  rw [rxAreaAnnounce, State.onResid, State.ctx_onCtx _ _ _ _ hlen, if_pos rfl, State.onRx, State.ctx_onCtx _ _ _ _ hc, if_pos rfl]
  refine ⟨rfl, ?_⟩
  dsimp only
  split
  · next h => exact List.contains_iff_mem.mp h
  · simp

theorem teardownAnnounce_leaves (src : Nat) (hc : c < s.ctxs.length) : src ∉ ((teardownAnnounce src c s).ctx c).resid.resident ∧
    ((teardownAnnounce src c s).ctx c).rx = { (s.ctx c).rx with areas := (s.ctx c).rx.areas.del src } := by
  unfold teardownAnnounce
  dsimp only
  generalize hs1 : (if (s.ctx c).st = .active then s.guideChange c (.dropPkg src) else s) = s1
  have hplain : s1.plain = s.plain := by
    rw [← hs1]
    exact plain_ite (State.guideChange_plain ..) rfl
  have hc1 : c < s1.ctxs.length := by
    rw [State.ctxs_length_of_plain hplain]
    exact hc
  have hrx : (s1.ctx c).rx = (s.ctx c).rx := by
    have hrx := congrArg Ctx.rx (State.ctx_plain_of hplain c)
    exact hrx
  obtain ⟨hgone, hkept⟩ := State.leaveHome_leaves (s := s1.onRx c (fun r => { r with areas := r.areas.del src })) (c := c)
    (by rw [State.onRx, State.onCtx, updAt_length]; exact hc1) src
  refine ⟨hgone, hkept.trans ?_⟩
  rw [State.onRx, State.ctx_onCtx _ _ _ _ hc1, if_pos rfl, hrx]

/-! ### Unreadable and reloaded experts -/

theorem State.resid_of_resids (h : t.ctxs.map Ctx.resid = s.ctxs.map Ctx.resid) (c : Nat) : (t.ctx c).resid = (s.ctx c).resid := by
  have hmap (u : State) : (u.ctx c).resid = (u.ctxs.map Ctx.resid).getD c Ctx.fresh.resid :=
    (List.getD_map (f := Ctx.resid) (l := u.ctxs) (d := Ctx.fresh)).symm
  rw [hmap, h, ← hmap]

theorem State.weightError_plain (c l e : Nat) : (s.weightError c l e).plain = s.plain := by
  unfold State.weightError
  exact plain_ite rfl ((State.plain_of_bare (State.raise_bare ..)).trans (State.guideChange_plain ..))

/-- A reported expert stands in the list of unreadable ones. -/
theorem State.reportUe_marks (ho : s.imgOwner c < s.ctxs.length) : expKey l e ∈ ((s.reportUe c l e).ctx (s.imgOwner c)).resid.unread := by
  unfold State.reportUe
  dsimp only
  rw [State.resid_of_plain (plain_foldl _ fun t k => State.weightError_plain ..), State.resid_onResid ho]
  dsimp only
  split
  · next h => exact List.contains_iff_mem.mp h
  · simp

/-- A reloaded expert no longer does. -/
theorem State.reloaded_clears (ho : s.imgOwner c < s.ctxs.length) :
    expKey l e ∉ (((s.reloaded c l e).reloadDone (s.imgOwner c) l e).ctx (s.imgOwner c)).resid.unread := by
  have hdone (t : State) (o : Nat) : (t.reloadDone o l e).ctxs.map Ctx.resid = t.ctxs.map Ctx.resid := by
    unfold State.reloadDone
    split
    · exact State.resids_of_plain (State.plain_of_bare (State.complete_bare ..))
    · rfl
  have hreload : (s.reloaded c l e).ctxs.map Ctx.resid =
      (s.onResid (s.imgOwner c) (fun r => { r with unread := r.unread.filter (fun k => k != expKey l e) })).ctxs.map Ctx.resid := by
    unfold State.reloaded
    refine List.foldlRecOn (motive := fun t : State => t.ctxs.map Ctx.resid = _) _ _ rfl fun t ht k _ => ?_
    exact (updAt_map_of_eq _ _ fun x => by rfl).trans ((State.resids_of_plain (State.guideChange_plain ..)).trans ht)
  rw [State.resid_of_resids ((hdone _ _).trans hreload), State.resid_onResid ho]
  simp

/-! ### Memory accesses of other packages -/

theorem memRead_clean {src a n : Nat} {p : Bool} (hbooted : s.booted = true) (hhere : aPkg a = s.board.pkgId) (hexists : s.exists_ a n = true)
    (hclean : s.poison.any (fun k => decide (a % 2 ^ 57 / 64 ≤ k ∧ k ≤ (a % 2 ^ 57 + n - 1) / 64)) = false) :
    memRead src c a n p s = s.sendMsg src 0x21 c [a, n, b2n p] (toLE 8 a ++ s.bytesAt (a % 2 ^ 57) n) := by
  have htake : s.takePoison (a % 2 ^ 57) n = (false, s) := by
    refine State.takePoison_clean fun k hk => ?_
    have hmiss := List.any_eq_false.mp hclean k hk
    simp only [decide_eq_true_eq] at hmiss
    omega
  rw [memRead, if_neg (by simp [hbooted, hhere, hexists]), htake]
  dsimp only
  rw [Bool.or_false]

theorem memRead_poisoned {src a n : Nat} {p : Bool} (hbooted : s.booted = true) (hhere : aPkg a = s.board.pkgId) (hexists : s.exists_ a n = true)
    (hhit : s.poison.any (fun k => decide (a % 2 ^ 57 / 64 ≤ k ∧ k ≤ (a % 2 ^ 57 + n - 1) / 64)) = true) :
    memRead src c a n p s = { s with poison := s.poison.filter (fun k =>
      !decide (a % 2 ^ 57 / 64 ≤ k ∧ k ≤ (a % 2 ^ 57 + n - 1) / 64)) }.sendMsg src 0x21 c [a, n, 1] (toLE 8 a ++ s.bytesAt (a % 2 ^ 57) n) := by
  rw [memRead, if_neg (by simp [hbooted, hhere, hexists]), State.takePoison, hhit]
  dsimp only
  rw [Bool.or_true]
  rfl

theorem memAtomic_adds {src a v : Nat} {f : Bool} (hbooted : s.booted = true) (hhere : aPkg a = s.board.pkgId) (hexists : s.exists_ a 4 = true) :
    memAtomic src c a v f s = (s.writeAt (a % 2 ^ 57) (toLE 4 (atomicSum f (s.numAt (a % 2 ^ 57) 4) v))).sendMsg src 0x24 c
      [a, s.numAt (a % 2 ^ 57) 4] (toLE 8 a ++ toLE 4 (s.numAt (a % 2 ^ 57) 4)) := by
  rw [memAtomic, if_neg (by simp [hbooted, hhere, hexists])]

theorem atomicSum_lt (f : Bool) (old v : Nat) : atomicSum f old v < 2 ^ 32 := by
  unfold atomicSum
  split
  · exact BitVec.isLt _
  · exact Nat.mod_lt _ (by decide)

theorem State.sendMsg_mem (dst type k : Nat) (fields : List Nat) (body : List Byte) : (s.sendMsg dst type k fields body).mem = s.mem :=
  State.mem_of_form (State.sendMsg_form ..)

theorem State.byteAt_of_mem (h : t.mem = s.mem) (b : Nat) : t.byteAt b = s.byteAt b := by
  rw [State.byteAt, h, ← State.byteAt]

end

/-- Settles O52: announcements change the homes and areas they name, a lost die takes its frames, and accesses are served here. -/
theorem peerEvents : Obligations.PeerEvents := by
  unfold Obligations.PeerEvents
  refine ⟨fun src c a s hc => ?_, fun src c s hc => ?_, fun c l e s hst => ?_, fun c l e s hst ho => ?_, fun port s hdown => ?_,
    fun port s hup => ?_, ?_, fun a s hkind hexists hclean => ?_, fun a s hkind => ?_⟩
  · exact ⟨_, rfl, rfl, rxAreaAnnounce_adds src a hc⟩
  · obtain ⟨hgone, hrx⟩ := teardownAnnounce_leaves src hc
    exact ⟨_, rfl, State.mem_of_form (teardownAnnounce_form ..), hgone, hrx⟩
  · exact ⟨congrArg Host.Outcome.next (if_neg hst), congrArg Host.Outcome.next (if_neg hst)⟩
  · exact ⟨⟨_, congrArg Host.Outcome.next (if_pos hst), State.mem_of_form (by simp), State.reportUe_marks ho⟩,
      ⟨_, congrArg Host.Outcome.next (if_pos hst), State.mem_of_form (by simp), State.reloaded_clears ho⟩⟩
  · exact congrArg Host.Outcome.next (if_pos (by rw [hdown]; rfl))
  · exact ⟨_, rfl, State.mem_of_form (ucieDown_form ..), ucieDown_clears hup⟩
  · intro src c a n v p f bs s hit
    refine ⟨fun hbooted hhere hexists => ⟨fun hclean => ?_, fun hhit => ?_⟩, fun hbooted hhere hexists => ?_, fun hbooted hhere hexists => ?_,
      fun hno => ?_⟩
    · exact congrArg Host.Outcome.next (memRead_clean hbooted hhere hexists hclean)
    · exact congrArg Host.Outcome.next (memRead_poisoned hbooted hhere hexists hhit)
    · refine ⟨s.writeAt (a % 2 ^ 57) bs, congrArg Host.Outcome.next (if_neg (by simp [hbooted, hhere, hexists])), rfl,
        State.bytesAt_writeAt_same .., fun b hb => ?_⟩
      rw [State.byteAt_writeAt, if_neg (by omega)]
    · refine ⟨_, congrArg Host.Outcome.next (memAtomic_adds hbooted hhere hexists), State.sendMsg_out .., ?_, fun b hb => ?_⟩
      · have hwritten := State.bytesAt_writeAt_same s (a % 2 ^ 57) (toLE 4 (atomicSum f (s.numAt (a % 2 ^ 57) 4) v))
        rw [toLE_length] at hwritten
        rw [State.numAt, State.bytesAt_congr fun k _ _ => State.byteAt_of_mem (State.sendMsg_mem ..) k, hwritten, ofLE_toLE]
        exact Nat.mod_eq_of_lt (atomicSum_lt ..)
      · rw [State.byteAt_of_mem (State.sendMsg_mem ..), State.byteAt_writeAt, toLE_length, if_neg (by omega)]
    · have hskip (n : Nat) : !s.booted ∨ aPkg a ≠ s.board.pkgId ∨ !s.exists_ a n := by
        rcases hno with h | h
        · exact .inl (by rw [h]; rfl)
        · exact .inr (.inl h)
      exact ⟨congrArg Host.Outcome.next (if_pos (hskip _)), congrArg Host.Outcome.next (if_pos (hskip _)), congrArg Host.Outcome.next (if_pos (hskip _))⟩
  · exact congrArg Host.Outcome.next (if_pos ⟨hkind, hexists, by simpa using hclean⟩)
  · exact congrArg Host.Outcome.next (if_neg fun h => hkind h.1)

end Machine
end Sys2Proof
end

section
/-! PROOFS. Manifest reads, logit rows and plans (3 R60, R66, 5 R109, 19 R417). -/

namespace Sys2Proof
namespace Machine

/-! ### The order of exact values -/

/-- A value that is not NaN, as an extended real. -/
noncomputable def valueOf : Num.Val → EReal
  | .nan => 0
  | .inf neg => if neg then ⊥ else ⊤
  | .fin neg m e => (((if neg then -1 else 1) * m * (2 : ℝ) ^ e : ℝ) : EReal)

theorem sInt_scaled {e e0 : Int} (neg : Bool) (m : Nat) (h : e0 ≤ e) :
    (Num.sInt neg m e e0 : ℝ) * (2 : ℝ) ^ e0 = (if neg then -1 else 1) * m * (2 : ℝ) ^ e := by
  have hpow : ((2 : ℝ) ^ (e - e0).toNat) * (2 : ℝ) ^ e0 = (2 : ℝ) ^ e := by
    rw [← zpow_natCast, Int.toNat_of_nonneg (by omega), ← zpow_add₀ (by norm_num)]
    congr 1
    omega
  rw [← hpow]
  cases neg
  · simp [Num.sInt]
    ring
  · simp [Num.sInt]
    ring

/-- A smaller finite value compares below. -/
theorem cmp_fin (a b : Bool) (m n : Nat) (e g : Int) :
    ((Num.Val.fin a m e).cmp (.fin b n g) < 0 ↔ valueOf (.fin a m e) < valueOf (.fin b n g)) ∧
      ((Num.Val.fin a m e).cmp (.fin b n g) = 0 ↔ valueOf (.fin a m e) = valueOf (.fin b n g)) := by
  have hpos : (0 : ℝ) < (2 : ℝ) ^ (min e g) := by positivity
  unfold valueOf
  rw [EReal.coe_lt_coe_iff, EReal.coe_eq_coe_iff, ← sInt_scaled a m (min_le_left e g), ← sInt_scaled b n (min_le_right e g),
    mul_lt_mul_iff_left₀ hpos, mul_left_inj' hpos.ne', Int.cast_lt, Int.cast_inj]
  have hcmp : (Num.Val.fin a m e).cmp (.fin b n g) = if Num.sInt a m e (min e g) - Num.sInt b n g (min e g) < 0 then -1
      else if Num.sInt a m e (min e g) - Num.sInt b n g (min e g) = 0 then 0 else 1 := rfl
  rw [hcmp]
  split
  · omega
  · split <;> omega

theorem cmp_value {u v : Num.Val} (hu : u.isNan = false) (hv : v.isNan = false) :
    (u.cmp v < 0 ↔ valueOf u < valueOf v) ∧ (u.cmp v = 0 ↔ valueOf u = valueOf v) := by
  cases u with
  | nan => cases hu
  | inf a =>
    cases v with
    | nan => cases hv
    | inf b => cases a <;> cases b <;> simp [Num.Val.cmp, valueOf]
    | fin b n g => cases a <;> simp [Num.Val.cmp, valueOf]
  | fin a m e =>
    cases v with
    | nan => cases hv
    | inf b => cases b <;> simp [Num.Val.cmp, valueOf]
    | fin b n g => exact cmp_fin ..

/-! ### The first of a sorted list -/

theorem head_insertBy_nil {α : Type} (le : α → α → Bool) (x : α) : (insertBy le x []).head? = some x := rfl

theorem head_insertBy_cons {α : Type} (le : α → α → Bool) (x y : α) (r : List α) :
    (insertBy le x (y :: r)).head? = some (if le x y then x else y) := by
  rw [insertBy]
  split <;> rfl

/-- The first element of a list sorted by a total and transitive order comes before every other. -/
theorem head_sortBy {α : Type} {le : α → α → Bool} {p : α → Prop} (htotal : ∀ a b, p a → p b → le a b = true ∨ le b a = true)
    (htrans : ∀ a b c, p a → p b → p c → le a b = true → le b c = true → le a c = true) {l : List α} (hl : ∀ a ∈ l, p a) {x : α}
    (h : (sortBy le l).head? = some x) : x ∈ l ∧ ∀ y ∈ l, le x y = true := by
  have hself (a : α) (ha : p a) : le a a = true := by simpa using htotal a a ha ha
  induction l generalizing x with
  | nil => cases h
  | cons a r ih =>
    have ha := hl a List.mem_cons_self
    have hr : ∀ b ∈ r, p b := fun b hb => hl b (List.mem_cons_of_mem _ hb)
    rw [sortBy] at h
    cases hsorted : sortBy le r with
    | nil =>
      have hnil : r = [] := by
        have hperm := sortBy_perm le r
        rw [hsorted] at hperm
        exact hperm.symm.eq_nil
      rw [hsorted, head_insertBy_nil] at h
      cases h
      rw [hnil]
      simp [hself a ha]
    | cons b s =>
      obtain ⟨hmem, hfirst⟩ := ih hr (x := b) (by rw [hsorted]; rfl)
      have hb := hr b hmem
      rw [hsorted, head_insertBy_cons] at h
      split_ifs at h with hle
      · cases h
        refine ⟨List.mem_cons_self, fun y hy => ?_⟩
        rcases List.mem_cons.mp hy with rfl | hy
        · exact hself y ha
        · exact htrans _ _ _ ha hb (hr y hy) hle (hfirst y hy)
      · cases h
        refine ⟨List.mem_cons_of_mem _ hmem, fun y hy => ?_⟩
        rcases List.mem_cons.mp hy with rfl | hy
        · exact (htotal _ _ ha hb).resolve_left hle
        · exact hfirst y hy

/-! ### Greedy sampling (3 R66) -/

theorem before_iff {a b : BitVec 32 × Nat} (ha : (Num.v32 a.1).isNan = false) (hb : (Num.v32 b.1).isNan = false) :
    before a b = true ↔ valueOf (Num.v32 b.1) < valueOf (Num.v32 a.1) ∨ valueOf (Num.v32 a.1) = valueOf (Num.v32 b.1) ∧ a.2 ≤ b.2 := by
  have hswap := Num.Val.cmp_swap (Num.v32 a.1) (Num.v32 b.1)
  have hlt : 0 < (Num.v32 a.1).cmp (Num.v32 b.1) ↔ valueOf (Num.v32 b.1) < valueOf (Num.v32 a.1) := by
    rw [← (cmp_value hb ha).1, hswap]
    omega
  rw [before, decide_eq_true_eq, hlt, (cmp_value ha hb).2]

theorem before_total (a b : BitVec 32 × Nat) (ha : (Num.v32 a.1).isNan = false) (hb : (Num.v32 b.1).isNan = false) :
    before a b = true ∨ before b a = true := by
  rw [before_iff ha hb, before_iff hb ha]
  rcases lt_trichotomy (valueOf (Num.v32 a.1)) (valueOf (Num.v32 b.1)) with h | h | h
  · exact .inr (.inl h)
  · rcases Nat.le_total a.2 b.2 with hle | hle
    · exact .inl (.inr ⟨h, hle⟩)
    · exact .inr (.inr ⟨h.symm, hle⟩)
  · exact .inl (.inl h)

theorem before_trans (a b d : BitVec 32 × Nat) (ha : (Num.v32 a.1).isNan = false) (hb : (Num.v32 b.1).isNan = false)
    (hd : (Num.v32 d.1).isNan = false) (hab : before a b = true) (hbd : before b d = true) : before a d = true := by
  rw [before_iff ha hb] at hab
  rw [before_iff hb hd] at hbd
  rw [before_iff ha hd]
  rcases hab with hab | ⟨hab, hle⟩
  · rcases hbd with hbd | ⟨hbd, -⟩
    · exact .inl (hbd.trans hab)
    · exact .inl (hbd ▸ hab)
  · rcases hbd with hbd | ⟨hbd, hle'⟩
    · exact .inl (hab ▸ hbd)
    · exact .inr ⟨hab.trans hbd, hle.trans hle'⟩

/-- Logits without a NaN keep their FP32 patterns. -/
theorem clean_logits {row : List Nat} (hrow : ∀ x ∈ row, (Num.v32 (BitVec.ofNat 32 x)).isNan = false) :
    row.zipIdx.map (fun x => (Num.to32 (cleanLogit (Num.v32 (logit32 0 x.1))), x.2)) = row.zipIdx.map (fun x => (BitVec.ofNat 32 x.1, x.2)) := by
  refine List.map_congr_left fun x hx => ?_
  have hclean := hrow x.1 (List.fst_mem_of_mem_zipIdx hx)
  rw [logit32, if_pos rfl, cleanLogit, hclean, if_neg (by decide), Num.to32_v32 hclean]

theorem sampleToken_greedy {rev i : Nat} {e : Entry} {row : List Nat} (htemp : e.temp = 0)
    (hrow : ∀ x ∈ row, (Num.v32 (BitVec.ofNat 32 x)).isNan = false) (h : sampleToken rev e 0 row = some i) :
    ((sortBy before (row.zipIdx.map (fun x => (BitVec.ofNat 32 x.1, x.2)))).head?).map (·.2) = some i := by
  have hzero : (Num.v32 (Num.widen (BitVec.ofNat 16 0))).cmp (.fin false 0 0) = 0 := by decide +kernel
  unfold sampleToken at h
  dsimp only at h
  rw [clean_logits hrow, htemp, hzero, if_pos rfl] at h
  split_ifs at h
  exact h

/-- Greedy sampling takes the first of the largest logits. -/
theorem sampleToken_first {rev i : Nat} {e : Entry} {row : List Nat} (htemp : e.temp = 0)
    (hrow : ∀ x ∈ row, (Num.v32 (BitVec.ofNat 32 x)).isNan = false) (h : sampleToken rev e 0 row = some i) : i < row.length ∧
      ∀ j < row.length, before (BitVec.ofNat 32 (row.getD i 0), i) (BitVec.ofNat 32 (row.getD j 0), j) = true := by
  obtain ⟨⟨z, k⟩, hhead, rfl⟩ := Option.map_eq_some_iff.mp (sampleToken_greedy htemp hrow h)
  obtain ⟨hmem, hfirst⟩ := head_sortBy (p := fun a => (Num.v32 a.1).isNan = false) before_total before_trans (fun a ha => by
    obtain ⟨x, hx, rfl⟩ := List.mem_map.mp ha
    exact hrow x.1 (List.fst_mem_of_mem_zipIdx hx)) hhead
  have hplace {j : Nat} (hj : j < row.length) :
      (BitVec.ofNat 32 (row.getD j 0), j) ∈ row.zipIdx.map (fun x : Nat × Nat => (BitVec.ofNat 32 x.1, x.2)) :=
    List.mem_map.mpr ⟨(row.getD j 0, j), by simp [List.mem_zipIdx_iff_getElem?, hj], rfl⟩
  obtain ⟨⟨y, j⟩, hy, hpair⟩ := List.mem_map.mp hmem
  obtain ⟨rfl, rfl⟩ := Prod.mk.inj hpair
  have hget : row[j]? = some y := List.mem_zipIdx_iff_getElem?.mp hy
  obtain ⟨hj, -⟩ := List.getElem?_eq_some_iff.mp hget
  have hval : row.getD j 0 = y := by rw [List.getD_eq_getElem?_getD, hget]; rfl
  refine ⟨hj, fun n hn => ?_⟩
  dsimp only
  rw [hval]
  exact hfirst _ (hplace hn)

section
variable {s : State} {c slot fmt : Nat}

/-- A row without a number gives no token. -/
theorem sampleToken_nan (rev : Nat) (e : Entry) {row : List Nat} (hrow : ∀ x ∈ row, fmt = 0 ∧ (Num.v32 (BitVec.ofNat 32 x)).isNan = true) :
    sampleToken rev e fmt row = none := by
  unfold sampleToken
  dsimp only
  rw [if_pos]
  refine List.all_eq_true.mpr fun x hx => ?_
  obtain ⟨y, hy, rfl⟩ := List.mem_map.mp hx
  obtain ⟨hfmt, hnan⟩ := hrow y.1 (List.fst_mem_of_mem_zipIdx hy)
  rw [logit32, if_pos hfmt, cleanLogit, if_pos hnan]
  have hpattern : Num.to32 (.inf true) = 0xFF800000#32 := by decide
  rw [hpattern]
  exact beq_self_eq_true _

/-! ### A logit row (3 R66) -/

theorem logitRow_takes {row : List Nat} {m : Manifest} {e : Entry} {md : Model} (hman : (s.ctx c).steps.man = some m) (hone : m.entries = [e])
    (hsample : e.sample = true) (hslot : e.slot + e.tokens = slot + 1) (hresult : e.result = none) (hskipped : e.skipped = false)
    (hfmt : fmt ≤ 1) (hmodel : (s.ctx c).model = some md) (hlen : row.length = md.vocab) :
    logitRow c slot fmt row s = (if (sampleToken (s.ctx c).sfnRev e fmt row).isNone then
      (s.onMan c (fun m => m.onEntry slot (fun y => { y with result := some (sampleToken (s.ctx c).sfnRev e fmt row) }))).raise 0x804 0x11 0 c 2
        (workDetail m.epoch e.seq slot)
      else s.onMan c (fun m => m.onEntry slot (fun y => { y with result := some (sampleToken (s.ctx c).sfnRev e fmt row) }))).ownStrings
        c false true := by
  have hfind : m.entries.find? (fun e => e.sample && e.slot + e.tokens == slot + 1) = some e := by
    rw [hone, List.find?_cons_of_pos]
    simp [hsample, hslot]
  unfold logitRow
  rw [hman]
  dsimp only
  rw [hfind]
  dsimp only
  exact if_neg (by simp [hresult, hskipped, hfmt, hmodel, hlen])

theorem State.steps_onMan (hc : c < s.ctxs.length) {m : Manifest} (hman : (s.ctx c).steps.man = some m) (f : Manifest → Manifest) :
    ((s.onMan c f).ctx c).steps.man = some (f m) := by
  rw [State.onMan, State.ctx_onCtx _ _ _ _ hc, if_pos rfl]
  dsimp only
  rw [hman]
  rfl

theorem State.steps_of_bare {t : State} (h : t.bare = s.bare) (c : Nat) : (t.ctx c).steps = (s.ctx c).steps := by
  have hsteps := congrArg Ctx.steps (State.ctx_bare_of h c)
  exact hsteps

end

/-- Settles O42: the dies read the Manifest, a row becomes its entry's token, greedy sampling takes the first largest logit, plans publish. -/
theorem stepInputs : Obligations.StepInputs := by
  unfold Obligations.StepInputs
  refine ⟨fun die c m s hman hup => ?_, fun die c s hno => ?_, ?_, fun rev i e row htemp hrow hi => ?_, fun c l m md s hman hmodel hl hrun hseal hplan => ?_,
    fun c l s hno => ?_⟩
  · refine congrArg Host.Outcome.next ?_
    rw [manifestRead, hman]
    exact if_pos hup
  · refine congrArg Host.Outcome.next ?_
    unfold manifestRead
    split
    · next m hman => exact if_neg (by rw [hno.resolve_left (by rw [hman]; simp)]; decide)
    · rfl
  · intro c slot fmt row m e md s hc hman hone hsample hslot htokens hresult hskipped hfmt hmodel hlen
    refine ⟨_, congrArg Host.Outcome.next (logitRow_takes hman hone hsample hslot hresult hskipped hfmt hmodel hlen), ?_, ?_, ?_, fun hnan => ?_⟩
    · exact State.mem_of_form ((State.ownStrings_form ..).trans (by split <;> simp))
    · rw [State.seqs_of_bare (State.ownStrings_bare ..)]
      split <;> rfl
    · have hmarked (f : Entry → Entry) : m.onEntry slot f = { m with entries := [f e] } := by
        rw [Manifest.onEntry, hone, List.map_singleton, if_pos (by omega)]
      have hsteps {t : State} {p : Prop} [Decidable p] (f : Manifest → Manifest) (ht : t = s.onMan c f) :
          ((if p then t.raise 0x804 0x11 0 c 2 (workDetail m.epoch e.seq slot) else t).ctx c).steps.man = some (f m) := by
        rw [ht]
        split
        · exact State.steps_onMan hc hman f
        · exact State.steps_onMan hc hman f
      rw [State.steps_of_bare (State.ownStrings_bare ..), hsteps _ rfl, hmarked]
    · have hnone := sampleToken_nan (s.ctx c).sfnRev e hnan
      refine ⟨hnone, ?_⟩
      rw [if_pos (by rw [hnone]; rfl)]
      exact ⟨_, List.mem_append_right _ (List.mem_singleton_self _), rfl, rfl, rfl, rfl⟩
  · have hclean : ∀ x ∈ row, (Num.v32 (BitVec.ofNat 32 x)).isNan = false := fun x hx => (hrow x hx).2
    obtain ⟨hi, hfirst⟩ := sampleToken_first htemp hclean hi
    have hnum (j : Nat) (hj : j < row.length) : (Num.v32 (BitVec.ofNat 32 (row.getD j 0))).isNan = false := by
      rw [List.getD_eq_getElem _ _ hj]
      exact hclean _ (List.getElem_mem hj)
    refine ⟨hi, fun j hj => ?_, fun j hj => ?_⟩
    · have hbefore := (before_iff (hnum i hi) (hnum j hj)).mp (hfirst j hj)
      rw [← Bool.not_eq_true, Num.Val.lt_iff, (cmp_value (hnum i hi) (hnum j hj)).1]
      rintro ⟨-, -, hlt⟩
      rcases hbefore with h | ⟨h, -⟩
      · exact lt_asymm h hlt
      · exact absurd h hlt.ne
    · have hj' : j < row.length := hj.trans hi
      have hbefore := (before_iff (hnum i hi) (hnum j hj')).mp (hfirst j hj')
      refine Num.Val.lt_iff.mpr ⟨hnum j hj', hnum i hi, (cmp_value (hnum j hj') (hnum i hi)).1.mpr ?_⟩
      rcases hbefore with h | ⟨-, h⟩
      · exact h
      · exact absurd h (by simpa using hj)
  · intro plan
    refine congrArg Host.Outcome.next ?_
    unfold planPublish
    dsimp only
    rw [hman]
    dsimp only
    rw [if_neg (by simp [hmodel, hl, hrun, hseal, hplan])]
    rfl
  · refine congrArg Host.Outcome.next ?_
    unfold planPublish
    dsimp only
    split
    · rfl
    · refine if_pos ?_
      rcases hno with h | h
      · simp [h]
      · simp [h]

end Machine
end Sys2Proof
end

section
/-! PROOFS. Rows and memory accesses of the compute dies (3 R60, 5 R118, 6 R145, 19 R417). -/

namespace Sys2Proof
namespace Machine

section
variable {s : State} {die c epoch l slot : Nat} {b : Bool} {row : List Nat} {m : Manifest} {md : Model}

/-! ### Rows -/

theorem Ctx.rowFits_man {x : Ctx} (hman : x.steps.man = some m) (hepoch : m.epoch = epoch) (hmodel : x.model = some md) (hl : l < md.moe)
    (hlow : (m.slots b).1 ≤ slot) (hhigh : slot < (m.slots b).2) : x.rowFits epoch l b slot = true := by
  unfold Ctx.rowFits
  rw [hman]
  simp [hepoch, hmodel, hl, hlow, hhigh]

theorem hiddenRow_new (hup : s.boot.diesUp.getD die false = true) (hfits : (s.ctx c).rowFits epoch l b slot = true)
    (hlen : row.length = (s.ctx c).share.dModel) (hnew : ((s.ctx c).layer (2 * l + b2n b)).hidden.find slot = none) :
    hiddenRow die c epoch l b slot row s = (s.onLayer c (2 * l + b2n b) (fun y => { y with
      hidden := y.hidden.put slot (die, row)
      convRows := y.convRows.put slot (rowTensor (dispFmt ((s.ctx c).boundRoute.layer l).disp) (row.map (fun v =>
        Num.fmul (Num.widen (BitVec.ofNat 16 v)) (BitVec.ofNat 32 (dispScale ((s.ctx c).boundRoute.layer l).disp))))) })).ownLayout c
      (rowTensor (dispFmt ((s.ctx c).boundRoute.layer l).disp) (row.map (fun v =>
        Num.fmul (Num.widen (BitVec.ofNat 16 v)) (BitVec.ofNat 32 (dispScale ((s.ctx c).boundRoute.layer l).disp))))).length := by
  unfold hiddenRow layKey
  exact if_neg (by rw [hup, hfits, hnew]; simp [hlen])

theorem hiddenRow_known (hold : ((s.ctx c).layer (2 * l + b2n b)).hidden.find slot ≠ none) : hiddenRow die c epoch l b slot row s = s := by
  unfold hiddenRow layKey
  exact if_pos (by simp [Option.isSome_iff_ne_none, hold])

/-! ### Bytes of a residual row -/

/-- The writes of a residual row, one byte at its place. -/
def putBytes (place : Nat → Option Nat) (l : List (Byte × Nat)) (s : State) : State :=
  l.foldl (fun t z => match place z.2 with | some a => t.writeAt a [z.1] | none => t) s

theorem putBytes_rest (place : Nat → Option Nat) (l : List (Byte × Nat)) (s : State) :
    putBytes place l s = { s with mem := (putBytes place l s).mem } := by
  refine List.foldlRecOn (motive := fun t : State => t = { s with mem := t.mem }) _ _ rfl fun t ht z _ => ?_
  split
  · rw [ht]
    rfl
  · exact ht

theorem putBytes_other {place : Nat → Option Nat} {l : List (Byte × Nat)} {a : Nat} (h : ∀ z ∈ l, place z.2 ≠ some a) :
    (putBytes place l s).byteAt a = s.byteAt a := by
  refine List.foldlRecOn (motive := fun t : State => t.byteAt a = s.byteAt a) _ _ rfl fun t ht z hz => ?_
  split
  · next b hb =>
    rw [State.byteAt_writeAt, if_neg ?_, ht]
    rintro ⟨hlow, hhigh⟩
    have hab : b = a := by
      rw [List.length_singleton] at hhigh
      omega
    exact h z hz (hb.trans (congrArg some hab))
  · exact ht

theorem putBytes_only {place : Nat → Option Nat} {bs : List Byte} {a i k : Nat} (hi : i < bs.length) (hplace : place (k + i) = some a)
    (honly : ∀ j < bs.length, place (k + j) = some a → j = i) : (putBytes place (bs.zipIdx k) s).byteAt a = bs.getD i 0#8 := by
  induction bs generalizing i k s with
  | nil => exact absurd hi (Nat.not_lt_zero _)
  | cons d r ih =>
    rw [List.zipIdx_cons]
    cases i with
    | zero =>
      have hrest : (putBytes place (r.zipIdx (k + 1)) (s.writeAt a [d])).byteAt a = (s.writeAt a [d]).byteAt a := by
        refine putBytes_other fun z hz hza => ?_
        obtain ⟨hle, hlt, -⟩ := List.mem_zipIdx hz
        have := honly (z.2 - k) (by rw [List.length_cons]; omega) (by rw [Nat.add_sub_cancel' (by omega)]; exact hza)
        omega
      rw [Nat.add_zero] at hplace
      change (putBytes place (r.zipIdx (k + 1)) (match place k with | some a => s.writeAt a [d] | none => s)).byteAt a = d
      rw [hplace]
      dsimp only
      rw [hrest, State.byteAt_writeAt, if_pos ⟨Nat.le_refl _, by simp⟩, Nat.sub_self]
      rfl
    | succ i =>
      have hshift (j : Nat) : k + 1 + j = k + (j + 1) := by omega
      exact ih (by simpa using hi) (by rw [hshift]; exact hplace) fun j hj hja => by
        have := honly (j + 1) (by simpa using hj) (by rw [← hshift]; exact hja)
        omega

theorem residualRow_new (hup : s.boot.diesUp.getD die false = true) (hfits : (s.ctx c).rowFits epoch l b slot = true)
    (hlen : row.length = (s.ctx c).share.dModel) (hfused : combFused ((s.ctx c).boundRoute.layer l).comb = true)
    (hold : ((s.ctx c).layer (2 * l + b2n b)).hidden.find slot ≠ none) (hnew : ((s.ctx c).layer (2 * l + b2n b)).resid.find slot = none) :
    residualRow die c epoch l b slot row s = putBytes (fun i => (s.ctx c).residAt c l slot i)
      (row.flatMap (fun v => toLE (if combResid ((s.ctx c).boundRoute.layer l).comb = 0 then 4 else 2) v)).zipIdx
      (s.onLayer c (2 * l + b2n b) (fun y => { y with resid := y.resid.put slot (die, row) })) := by
  have hunits (i : Nat) : ((s.onLayer c (2 * l + b2n b) (fun y => { y with resid := y.resid.put slot (die, row) })).ctx c).residAt c l slot i =
      (s.ctx c).residAt c l slot i := by
    unfold State.onLayer State.onCtx State.ctx
    rw [updAt_getD]
    split <;> rfl
  have hwrite : residualRow die c epoch l b slot row s = (s.onLayer c (2 * l + b2n b) (fun y => { y with
      resid := y.resid.put slot (die, row) })).residWrite c l slot (combResid ((s.ctx c).boundRoute.layer l).comb) row := by
    unfold residualRow layKey
    exact if_neg (by rw [hup, hfits, hfused, hnew]; simp [hlen, Option.isNone_iff_eq_none, hold])
  rw [hwrite, State.residWrite, ← funext hunits]
  rfl

theorem rows_ignored (hno : (s.ctx c).steps.man = none ∨ s.boot.diesUp.getD die false = false) :
    hiddenRow die c epoch l b slot row s = s ∧ residualRow die c epoch l b slot row s = s := by
  have hskip : (!s.boot.diesUp.getD die false || !(s.ctx c).rowFits epoch l b slot) = true := by
    rcases hno with h | h
    · rw [Ctx.rowFits, h]
      simp
    · rw [h]
      rfl
  unfold hiddenRow residualRow
  dsimp only
  rw [hskip]
  exact ⟨rfl, rfl⟩

/-! ### Memory accesses -/

theorem ucieWrite_here {a n : Nat} {bs : List Byte} (hbooted : s.booted = true) (hup : s.boot.diesUp.getD die false = true)
    (hhere : aPkg a = s.board.pkgId) : execUcieMemoryAccess die c a n (some bs) s =
      if s.exists_ a bs.length then .next (s.writeAt (a % 2 ^ 57) bs) else .fault .noSuchAddress :=
  (if_neg (by rw [hup, hbooted]; simp)).trans (if_neg (not_not.mpr hhere))

theorem ucieRead_here {a n : Nat} (hbooted : s.booted = true) (hup : s.boot.diesUp.getD die false = true)
    (hhere : aPkg a = s.board.pkgId) : execUcieMemoryAccess die c a n none s =
      if s.exists_ a n then .next ((s.takePoison (a % 2 ^ 57) n).2.emit (if (s.takePoison (a % 2 ^ 57) n).1
          then .uciePoison die c (s.bytesAt (a % 2 ^ 57) n) else .ucie die 0x9 c 0 0 false 0 false (s.bytesAt (a % 2 ^ 57) n)))
        else .fault .noSuchAddress :=
  (if_neg (by rw [hup, hbooted]; simp)).trans (if_neg (not_not.mpr hhere))

theorem ucieWrite_away {a n : Nat} {bs : List Byte} (hbooted : s.booted = true) (hup : s.boot.diesUp.getD die false = true)
    (haway : aPkg a ≠ s.board.pkgId) :
    execUcieMemoryAccess die c a n (some bs) s = .next (s.sendMsg (aPkg a) 0x22 c [a] (toLE 8 a ++ bs)) :=
  (if_neg (by rw [hup, hbooted]; simp)).trans (if_pos haway)

theorem ucieRead_away {a n : Nat} (hbooted : s.booted = true) (hup : s.boot.diesUp.getD die false = true) (haway : aPkg a ≠ s.board.pkgId) :
    execUcieMemoryAccess die c a n none s = .next (s.sendMsg (aPkg a) 0x20 c [a, n] (toLE 8 a ++ toLE 8 n)) :=
  (if_neg (by rw [hup, hbooted]; simp)).trans (if_pos haway)

end

/-- Settles O43: a row is kept once for its slot, and a die's accesses are served here or go to the package they name. -/
theorem dieTraffic : Obligations.DieTraffic := by
  unfold Obligations.DieTraffic
  refine ⟨?_, fun die c epoch l b slot row s hno => ?_, fun die c a n bs s hbooted hup => ?_, fun to_ c bs s hup => ?_⟩
  · intro die c epoch l b slot row m md s k g hup hman hepoch hmodel hl hlow hhigh hlen
    have hfits := Ctx.rowFits_man hman hepoch hmodel hl hlow hhigh
    refine ⟨fun hnew => ?_, fun hold => congrArg Host.Outcome.next (hiddenRow_known hold), fun hfused hold hnew => ?_⟩
    · intro conv
      exact ⟨_, congrArg Host.Outcome.next (hiddenRow_new hup hfits hlen hnew)⟩
    · intro f bs place
      refine ⟨_, congrArg Host.Outcome.next (residualRow_new hup hfits hlen hfused hold hnew), putBytes_rest .., fun a ha => ?_,
        fun i hi a ha honly => ?_⟩
      · refine (putBytes_other fun z hz => ?_).trans rfl
        obtain ⟨-, hlt, -⟩ := List.mem_zipIdx hz
        exact ha z.2 (by rwa [Nat.zero_add] at hlt)
      · exact putBytes_only hi (by rw [Nat.zero_add]; exact ha) fun j hj hja => honly j hj (by rw [Nat.zero_add] at hja; exact hja)
  · obtain ⟨hhidden, hresidual⟩ := rows_ignored (epoch := epoch) (l := l) (slot := slot) (b := b) (row := row) hno
    exact ⟨congrArg Host.Outcome.next hhidden, congrArg Host.Outcome.next hresidual⟩
  · refine ⟨fun hhere hexists => ?_, fun hhere hexists hclean => ?_, fun hhere hexists hhit => ?_, fun hhere hexists => ?_,
      fun hhere hexists => ?_, fun haway => ?_⟩
    · exact (ucieWrite_here (n := n) hbooted hup hhere).trans (if_pos hexists)
    · refine (ucieRead_here hbooted hup hhere).trans ((if_pos hexists).trans ?_)
      rw [State.takePoison_clean hclean]
      rfl
    · obtain ⟨line, hline, hlow, hhigh⟩ := hhit
      have htaken : (s.takePoison (a % 2 ^ 57) n).1 = true := List.any_eq_true.mpr ⟨line, hline, decide_eq_true ⟨hlow, hhigh⟩⟩
      refine ⟨_, (ucieRead_here hbooted hup hhere).trans (if_pos hexists), rfl, ?_, fun k => ?_⟩
      · rw [htaken]
        exact List.mem_append_right _ (List.mem_singleton_self _)
      · refine List.mem_filter.trans (and_congr_right fun _ => ?_)
        rw [Bool.not_eq_true', decide_eq_false_iff_not]
        omega
    · exact (ucieRead_here hbooted hup hhere).trans (if_neg (by rw [hexists]; decide))
    · exact (ucieWrite_here (n := n) hbooted hup hhere).trans (if_neg (by rw [hexists]; decide))
    · exact ⟨_, _, ucieWrite_away (n := n) hbooted hup haway, State.sendMsg_mem .., State.sendMsg_out .., ucieRead_away hbooted hup haway,
        State.sendMsg_mem .., State.sendMsg_out ..⟩
  · have hdata (p : Bool) : memReadData (.die to_ c) bs p s = s.emit (if p then .uciePoison to_ c bs else .ucie to_ 0x9 c 0 0 false 0 false bs) :=
      if_neg (by rw [hup]; decide)
    exact ⟨congrArg Host.Outcome.next (hdata false), congrArg Host.Outcome.next (hdata true)⟩

end Machine
end Sys2Proof
end

section
/-! PROOFS. A layout command that is both poisoned and marked as failing its checks (10 R223, R226): its completion counts an
uncorrectable error and no rejection. -/

namespace Sys2Proof
namespace Machine

/-! ### The state that refutes O30 -/

/-- A command that runs, that its checks rejected with `ST_FORMAT`, and whose word was poisoned. -/
def poisonedCmd : Cmd := { raw := 0, layGen := 0, maps := none, running := true, sliceAt := 0, poisoned := true
                           bad := some Status.format.code, launch := none, answer := false }

def poisonedLayout : State := { State.reset with ctxs := [{ Ctx.fresh with
  lanes := { Ctx.fresh.lanes with cmds := [poisonedCmd] } }] }

/-- Its completion counts the uncorrectable error and leaves the counter of rejections. -/
theorem poisonedLayout_counts : ctrGet ((layoutComplete 0 0 none poisonedLayout).ctx 0).ctr .layoutRejects = 0 ∧
    ctrGet ((layoutComplete 0 0 none poisonedLayout).ctx 0).ctr .layoutUe = 1 := by decide +kernel

/-- Refutes O30 in its clause on the completion of a rejected command: the clause asks that it counts a rejection, and the command
of `poisonedLayout`, whose word was poisoned, completes FAULTED instead. -/
theorem not_layoutCommands : ¬ Obligations.LayoutCommands := by
  unfold Obligations.LayoutCommands
  rintro ⟨-, -, -, -, -, -, -, -, hrejected⟩
  obtain ⟨t, hnext, -, -, -, hcount⟩ := hrejected 0 0 Status.format.code poisonedCmd none poisonedLayout rfl rfl rfl
  have ht : layoutComplete 0 0 none poisonedLayout = t := Host.Outcome.next.inj hnext
  have hone := hcount (by decide +kernel)
  rw [← ht, poisonedLayout_counts.1] at hone
  exact absurd hone (by decide)

end Machine
end Sys2Proof
end

section
/-! PROOFS. Models, their images and the host's capacity plans (7 R147, R149, 5 R113, 17 R372). -/

namespace Sys2Proof
namespace Machine

section
variable {s t u : State} {c l h w : Nat} {m : Msg} {x : Manifest} {y : Model}

/-! ### Tables by key -/

/-- A table made of a list of keys holds at a listed key what was made for it. -/
theorem Tbl.find_map_of_mem {α : Type} (f : Nat → α) {ks : List Nat} {k : Nat} (hk : k ∈ ks) :
    Tbl.find (ks.map (fun k => (k, f k))) k = some (f k) := by
  induction ks with
  | nil => cases hk
  | cons a r ih =>
    rw [List.map_cons, Tbl.find]
    by_cases ha : a = k
    · rw [if_pos ha, ha]
    · rw [if_neg ha, ih ((List.mem_cons.mp hk).resolve_left (Ne.symm ha))]

/-- Entries changed in turn at distinct keys: a key of the run holds its own change. -/
theorem Tbl.find_foldl_adjust {α : Type} {g : Nat → Nat} (hg : ∀ i j, g i = g j → i = j) (f : Nat → α → α) (n : Nat) (t : Tbl α) (i : Nat) :
    ((List.range n).foldl (fun t j => t.adjust (g j) (f j)) t).find (g i) = if i < n then (t.find (g i)).map (f i) else t.find (g i) := by
  induction n with
  | zero => rfl
  | succ n ih =>
    rw [List.range_succ, List.foldl_append, List.foldl_cons, List.foldl_nil, Tbl.find_adjust, ih]
    by_cases hi : i = n
    · rw [if_pos (by rw [hi]), if_neg (by omega), if_pos (by omega), hi]
    · have hbelow : i < n + 1 ↔ i < n := by omega
      rw [if_neg (fun hn => hi (hg _ _ hn).symm), if_congr hbelow rfl rfl]

/-! ### Loading a model (17 R372) -/

/-- The format of a whole descriptor covers the format of its header. -/
theorem State.headerFormat_of_format {d : Nat} (hf : s.modelFormatBad c d y = false) :
    s.modelFormatBad c d { y with attn := [], last := [] } = false := by
  simp only [State.modelFormatBad, Bool.or_eq_false_iff, List.any_nil] at hf ⊢
  simp only [hf, and_self]

theorem modelLoad_loads {src : Tbl Source} (hbuf : s.bufBad c h 64 = none) (htier : hTier h = 1)
    (hstoch : bit (ofLE (s.bufBytes h 0 64)) 41 = true →
      (((s.session m.sess).map (fun (z : Session) => z.granted)).getD 0).testBit 11 = true)
    (hy : s.readModel h (ofLE (s.bufBytes h 0 64)) = y) (hformat : s.modelFormatBad c (ofLE (s.bufBytes h 0 64)) y = false)
    (hbounds : modelBoundsBad (ofLE (s.bufBytes h 0 64)) y = false)
    (hwhole : s.bufBad c h (modelBytes (bits (ofLE (s.bufBytes h 0 64)) 58 10) y.moe) = none) (hnone : (s.ctx c).model = none)
    (hsrc : (s.onCtx c (fun x => { x with model := some y })).placeSources c (imageSpan y.imageBytes)
      (if y.share.isSome then [] else y.experts.map (fun k => (k, (s.primary c k).1))) [] = some src)
    (hfit : s.fitCopies c (Route.bytes { layers := [], experts := s.firstExperts c y } y.moe
      (ceilDiv (y.experts.length * headroomBp s.appliance) 10000)) = (true, u)) :
    modelLoad c [h] m s = .ok (u.takeModel c y src) [] := by
  rw [modelLoad]
  dsimp only
  rw [hy, State.handleUse, if_pos rfl, hbuf, State.handleUse, if_pos rfl, hwhole, checked_pass, hsrc]
  · dsimp only
    rw [hfit]
    rfl
  · intro x hx
    simp only [List.mem_append, List.mem_cons, List.not_mem_nil, or_false, false_or] at hx
    rcases hx with (rfl | rfl | rfl | rfl) | rfl | rfl
    · simp [htier]
    · cases hbit : bit (ofLE (s.bufBytes h 0 64)) 41 with
      | false => rfl
      | true => simp [hstoch hbit]
    · dsimp only
      exact State.headerFormat_of_format hformat
    · exact hbounds
    · dsimp only
      exact hformat
    · simp [hnone]

/-- Every expert of a model loaded without sharing starts available, with its primary as the only replica. -/
theorem State.firstExperts_primary (hshare : y.share = none) {e : Nat} (hl : l < y.moe) (he : e ≤ y.last.getD l 0) :
    (Tbl.getD (s.firstExperts c y) (expKey l e) ⟨false, false, false, 0, []⟩).avail = true ∧
      (Tbl.getD (s.firstExperts c y) (expKey l e) ⟨false, false, false, 0, []⟩).replicas.length = 1 := by
  have hmem : expKey l e ∈ y.experts := by
    simp only [Model.experts, List.mem_flatten, List.mem_map, List.mem_range]
    exact ⟨_, ⟨l, hl, rfl⟩, List.mem_map.mpr ⟨e, List.mem_range.mpr (by omega), rfl⟩⟩
  rw [Tbl.getD_eq_find, State.firstExperts, hshare]
  dsimp only
  rw [Tbl.find_map_of_mem _ hmem]
  exact ⟨rfl, rfl⟩

/-! ### Images (7 R147) -/

/-- The load of a model is marked complete, or not, in every context of a list. -/
def State.markLoads (s : State) (full : Bool) (l : List Nat) : State :=
  l.foldl (fun t k => t.onCtx k (fun y => { y with model := y.model.map (fun z => { z with complete := full }) })) s

theorem State.markLoads_keeps (full : Bool) (l : List Nat) (s : State) (hc : c < s.ctxs.length) :
    ((s.markLoads full l).ctx c).resid = (s.ctx c).resid ∧ (s.markLoads full l).mem = s.mem ∧ (s.markLoads full l).seqs = s.seqs := by
  induction l generalizing s with
  | nil => exact ⟨rfl, rfl, rfl⟩
  | cons k r ih =>
    obtain ⟨hresid, hmem, hseqs⟩ := ih (s.onCtx k (fun y => { y with model := y.model.map (fun z => { z with complete := full }) }))
      (by rw [State.onCtx, updAt_length]; exact hc)
    refine ⟨hresid.trans ?_, hmem, hseqs⟩
    by_cases hk : k = c
    · rw [hk, State.ctx_onCtx _ _ _ _ hc, if_pos rfl]
    · simp only [State.ctx, State.onCtx, updAt_getD, hk, false_and, if_false]

/-- The images of a buffer, as sources of the experts they are of. -/
def State.withImages (s : State) (c l f n h : Nat) : State :=
  s.onResid c (fun r => { r with sources := (List.range n).foldl (fun t i =>
    t.adjust (expKey l (f + i)) (fun q => { q with
      image := s.bufBytes h (i * imageSpan (s.imageBytes c)) (s.imageBytes c)
      crcs := s.imageCrcs h (i * imageSpan (s.imageBytes c)) (s.imageBytes c) })) r.sources })

theorem State.withImages_source {f n i : Nat} {q : Source} (hc : c < s.ctxs.length) (hi : i < n)
    (hq : (s.ctx c).resid.sources.find (expKey l (f + i)) = some q) :
    ((s.withImages c l f n h).ctx c).resid.sources.find (expKey l (f + i)) = some { q with
      image := s.bufBytes h (i * imageSpan (s.imageBytes c)) (s.imageBytes c)
      crcs := s.imageCrcs h (i * imageSpan (s.imageBytes c)) (s.imageBytes c) } := by
  have hkeys : ∀ a b, expKey l (f + a) = expKey l (f + b) → a = b := by
    intro a b hab
    simp only [expKey] at hab
    omega
  rw [State.withImages, State.resid_onResid hc]
  refine (Tbl.find_foldl_adjust hkeys (fun i (q : Source) => { q with
      image := s.bufBytes h (i * imageSpan (s.imageBytes c)) (s.imageBytes c)
      crcs := s.imageCrcs h (i * imageSpan (s.imageBytes c)) (s.imageBytes c) }) n _ i).trans ?_
  rw [if_pos hi, hq]
  rfl

/-- All images of the model are here once those of the buffer are. -/
def State.fillsLoad (s : State) (c l f n h : Nat) : Bool := ((s.withImages c l f n h).ctx c).allImages

/-- What is left when images came. -/
def State.imagesTaken (s : State) (c l f n h : Nat) : State :=
  let t := (s.withImages c l f n h).markLoads (s.fillsLoad c l f n h) ((s.withImages c l f n h).sharers c)
  if s.fillsLoad c l f n h then (t.planReplicas c true).startMirrors c else t

theorem modelImages_takes {f n : Nat} (hmodel : (s.ctx c).model = some y) (hshare : y.share = none) (hl : l < y.moe)
    (hlast : f + n ≤ (s.ctx c).lastExpert l + 1)
    (huse : ∀ k ∈ s.handleUse c h (n != 0 || h != 0) (n * imageSpan (s.imageBytes c)), k.1 = false)
    (himages : ∀ i < n, s.imageOk h (i * imageSpan (s.imageBytes c)) (s.imageBytes c) = true) :
    modelImages c [l, f, n, h] m s = if y.complete then .ok s [(.u8, 1)]
      else .ok (s.imagesTaken c l f n h) [(.u8, b2n (s.fillsLoad c l f n h))] := by
  rw [modelImages]
  dsimp only
  rw [hmodel, checked_pass]
  · rfl
  · intro x hx
    simp only [List.mem_append, List.mem_cons, List.not_mem_nil, or_false] at hx
    rcases hx with ((rfl | rfl | rfl) | hx) | rfl
    · simp [hshare]
    · simpa using hl
    · exact decide_eq_false (by omega)
    · exact huse x hx
    · simpa using himages

/-! ### The host's plans (5 R113) -/

/-- What the host's plan of one layer says: the capacities of both convoys by expert and replica. -/
def hostCaps (t : Tbl (Tbl Nat)) (zs : List (Nat × List (Nat × Nat × Nat × Nat))) : Tbl (Tbl Nat) :=
  (zs.map (fun z => (z.1, z.2.foldl (fun (t : Tbl Nat) e => t.put (capKey e.1 e.2.1) e.2.2.2) ([] : Tbl Nat)))).foldl
    (fun t e => t.put e.1 e.2) t

theorem hostCaps_getD (t : Tbl (Tbl Nat)) {zs : List (Nat × List (Nat × Nat × Nat × Nat))} (hkeys : (zs.map (·.1)).Nodup)
    {z : Nat × List (Nat × Nat × Nat × Nat)} (hz : z ∈ zs) :
    (hostCaps t zs).getD z.1 [] = z.2.foldl (fun (t : Tbl Nat) e => t.put (capKey e.1 e.2.1) e.2.2.2) [] := by
  induction zs using List.reverseRecOn with
  | nil => cases hz
  | append_singleton r a ih =>
    have hlast : hostCaps t (r ++ [a]) = (hostCaps t r).put a.1
        (a.2.foldl (fun (t : Tbl Nat) e => t.put (capKey e.1 e.2.1) e.2.2.2) []) := by
      simp only [hostCaps, List.map_append, List.foldl_append, List.map_cons, List.map_nil, List.foldl_cons, List.foldl_nil]
    rw [List.map_append, List.nodup_append] at hkeys
    obtain ⟨hr, -, hne⟩ := hkeys
    rw [hlast]
    rcases List.mem_append.mp hz with hz | hz
    · rw [Tbl.getD_put_other _ _ _ _ _ (Ne.symm (hne z.1 (List.mem_map_of_mem hz) a.1 (by simp))), ih hr hz]
    · rw [List.mem_singleton.mp hz, Tbl.getD_put_same]

theorem State.planArrays_one (r : Route) (h l : Nat) : ∃ p q, s.planArrays r h [l] 0 = [(layKey l false, p), (layKey l true, q)] :=
  ⟨_, _, rfl⟩

theorem State.planArrays_nodup (r : Route) (h l : Nat) : ((s.planArrays r h [l] 0).map (·.1)).Nodup := by
  obtain ⟨p, q, hpq⟩ := s.planArrays_one r h l
  simp [hpq, layKey, b2n]

/-- Plans of an ended step are refused. -/
theorem planSet_ended {epoch : Nat} (hother : ∀ x, (s.ctx c).steps.man = some x → x.epoch ≠ epoch)
    (hended : (s.ctx c).steps.doneMask.testBit epoch = true ∨ (s.ctx c).steps.killedMask.testBit epoch = true) :
    planSet c [epoch, 0, 0, 0, 0] m s = .no s .cancelled := by
  have hflight : ((s.ctx c).steps.man.map (·.epoch) == some epoch) = false := by
    cases hman : (s.ctx c).steps.man with
    | none => rfl
    | some x => simpa using hother x hman
  have hdone : ((s.ctx c).steps.doneMask.testBit epoch || (s.ctx c).steps.killedMask.testBit epoch) = true := by simpa using hended
  rw [planSet]
  dsimp only
  rw [hflight, hdone]
  simp [onesOf, checked, firstBad]

/-- A plan of one layer of the step in flight, whose route is not sealed yet, is kept. -/
theorem planSet_keeps (hman : (s.ctx c).steps.man = some x) (hmodel : (s.ctx c).model = some y) (hl : l < y.moe)
    (hbuf : s.bufBad c h (planBytes (s.ctx c).boundRoute [l]) = none)
    (hfits : ((s.planArrays (s.ctx c).boundRoute h [l] 0).any (fun z => s.planOver c (s.ctx c).boundRoute z)) = false)
    (heven : ((s.ctx c).layer (2 * l)).sealing = false) (hodd : ((s.ctx c).layer (2 * l + 1)).sealing = false) :
    planSet c [x.epoch, l, 1, h, 0] m s = .ok (s.onCtx c (fun z => { z with plans := { z.plans with
      host := hostCaps (s.ctx c).plans.host (s.planArrays (s.ctx c).boundRoute h [l] 0) } })) [] := by
  have hlayers : (List.range 1).map (· + l) = [l] := by simp
  have hmarked : onesOf 512 0 = [] := by simp [onesOf]
  rw [planSet]
  dsimp only
  rw [hlayers, hmarked, List.append_nil, checked_pass]
  · obtain ⟨p, q, hpq⟩ := s.planArrays_one (s.ctx c).boundRoute h l
    have hsecond : (2 * l + 1) / 2 * 2 = 2 * l := by omega
    rw [hpq]
    refine congrArg (Act.ok · []) (State.onCtx_congr ?_)
    simp [hman, layKey, b2n, heven, hodd, hostCaps, hsecond, Nat.mul_comm l 2]
  · intro x hx
    have huse : s.handleUse c h (1 != 0 || h != 0) (planBytes (s.ctx c).boundRoute [l]) = [] := by
      rw [State.handleUse, if_pos (by simp), hbuf]
    simp only [huse, List.mem_append, List.mem_cons, List.not_mem_nil, or_false, List.flatMap_cons, List.flatMap_nil, State.layerChecks] at hx
    rcases hx with ((rfl | rfl) | rfl) | rfl | rfl
    · simp [hmodel]
    · simp [hmodel, hl]
    · simp [hman]
    · exact hfits
    · simp

end

/-- Settles O15: a model loads with its sources and first experts, images become those of their experts, and a host's plan is kept
for a step in flight and refused for an ended one. -/
theorem modelMessages : Obligations.ModelMessages := by
  unfold Obligations.ModelMessages
  refine ⟨?_, ?_, ?_, ?_⟩
  · intro w c h src u m s htakes hspells hadmits d y hbuf htier hstoch hformat hbounds hwhole hnone hsrc hfit
    have hform : u.form = s.form := by
      have hform := s.fitCopies_form c (Route.bytes { layers := [], experts := s.firstExperts c y } y.moe
        (ceilDiv (y.experts.length * headroomBp s.appliance) 10000))
      rw [hfit] at hform
      exact hform
    have hseqs : u.seqs = s.seqs := by
      have hseqs := State.fitCopies_seqs (s := s) c (Route.bytes { layers := [], experts := s.firstExperts c y } y.moe
        (ceilDiv (y.experts.length * headroomBp s.appliance) 10000))
      rw [hfit] at hseqs
      exact hseqs
    have hcu : c < u.ctxs.length := by
      rw [State.ctxs_length_of_form hform]
      exact State.lt_of_active hadmits.given
    have htaken : (u.takeModel c y src).ctx c = _ := (State.ctx_onCtx _ _ _ _ hcu).trans (if_pos rfl)
    refine ⟨u.takeModel c y src, congrArg Host.Outcome.next ((commitCtx_outcome modelLoad htakes hspells hadmits).trans ?_), ?_, ?_,
      (State.mem_of_form hform : u.mem = s.mem), hseqs, fun hshare l hl e he => ?_⟩
    · rw [modelLoad_loads hbuf htier hstoch rfl hformat hbounds hwhole hnone hsrc hfit]
      rfl
    · rw [htaken]
    · rw [htaken]
    · rw [htaken]
      exact u.firstExperts_primary hshare hl he
  · intro w c l f n h y m s htakes hspells hadmits hmodel hshare hl hlast huse himages
    have hc := State.lt_of_active hadmits.given
    have hout := (commitCtx_outcome modelImages htakes hspells hadmits).trans (congrArg (Act.outcome m 0x0201)
      (modelImages_takes hmodel hshare hl hlast huse himages))
    by_cases hdone : y.complete = true
    · refine ⟨s, true, congrArg Host.Outcome.next (hout.trans ?_), fun _ => ⟨rfl, rfl⟩, nofun⟩
      rw [if_pos hdone]
      rfl
    · refine ⟨s.imagesTaken c l f n h, s.fillsLoad c l f n h, congrArg Host.Outcome.next (hout.trans ?_), fun hy => absurd hy hdone,
        fun hpart => ?_⟩
      · rw [if_neg hdone]
        rfl
      · obtain ⟨hresid, hmem, hseqs⟩ := State.markLoads_keeps (s.fillsLoad c l f n h) ((s.withImages c l f n h).sharers c)
          (s.withImages c l f n h) (c := c) (by rw [State.withImages, State.onResid, State.onCtx, updAt_length]; exact hc)
        have htaken : s.imagesTaken c l f n h = _ := if_neg (by rw [hpart]; exact Bool.false_ne_true)
        rw [htaken]
        refine ⟨hmem, hseqs, fun i hi q hq => ?_⟩
        rw [hresid]
        exact State.withImages_source hc hi hq
  · intro w c epoch m s htakes hadmits hother hended hspells
    exact congrArg Host.Outcome.next ((commitCtx_outcome planSet htakes hspells hadmits).trans
      (congrArg (Act.outcome m 0x0215) (planSet_ended hother hended)))
  · intro w c l h x y m s htakes hadmits hman hmodel hl hbuf hfits hspells heven hodd
    exact ⟨_, congrArg Host.Outcome.next ((commitCtx_outcome planSet htakes hspells hadmits).trans
      (congrArg (Act.outcome m 0x0215) (planSet_keeps hman hmodel hl hbuf hfits heven hodd))),
      fun z hz => hostCaps_getD _ (s.planArrays_nodup ..) hz⟩

end Machine
end Sys2Proof
end

section
/-! PROOFS. The sequence and step messages between boundaries (3 R43 to R50, R54, R62, R66, R70, R420, R421). -/

namespace Sys2Proof
namespace Machine

section
variable {s t u : State} {c q w : Nat} {m : Msg}

/-! ### Checks that sequence messages share -/

theorem unlessHeld_free (hheld : (s.ctx c).holdsMessages = false) (k : Act) : unlessHeld c s k = k :=
  if_neg (by rw [hheld]; exact Bool.false_ne_true)

theorem State.seqChecks_pass (hq : q < 2 ^ 17) (hshare : (s.ctx c).hasSeq q = true) : ∀ x ∈ s.seqChecks c q, x.1 = false := by
  intro x hx
  simp only [State.seqChecks, List.mem_cons, List.not_mem_nil, or_false] at hx
  rcases hx with rfl | rfl
  · exact decide_eq_false (by omega)
  · simp [hshare]

theorem Seq.holds_iff {e : Seq} : e.holds = true ↔ (e.st = .prefill ∨ e.st = .decode ∨ e.st = .idle) := by
  simp [Seq.holds, or_assoc]

theorem State.feedTokens_length (h n : Nat) : (s.feedTokens h n).length = n := by
  simp [State.feedTokens, State.bufWords]

/-! ### What leaves the Sequence Table as it is -/

@[simp] theorem State.onLayer_seqs (k : Nat) (f : Layer → Layer) : (s.onLayer c k f).seqs = s.seqs := by rfl

@[simp] theorem State.onMan_seqs (f : Manifest → Manifest) : (s.onMan c f).seqs = s.seqs := by rfl

@[simp] theorem State.setSlotGen_seqs (slot g : Nat) : (s.setSlotGen c slot g).seqs = s.seqs := by rfl

@[simp] theorem State.emptySlot_seqs (l : Nat) (b : Bool) (slot : Nat) : (s.emptySlot c l b slot).seqs = s.seqs := by
  unfold State.emptySlot
  dsimp only
  split <;> simp

@[simp] theorem State.holdSet_seqs (k : Nat) (b : Bool) : (s.holdSet c k b).seqs = s.seqs := by
  unfold State.holdSet
  dsimp only
  split_ifs <;> simp

@[simp] theorem State.raiseGen_seqs (e : Entry) : (s.raiseGen c e).seqs = s.seqs := by
  unfold State.raiseGen
  split
  · rfl
  · refine (seqs_foldl _ _ fun t l => ?_).trans ((seqs_foldl _ _ fun t l => ?_).trans (seqs_foldl _ _ fun t n => by simp))
    · split <;> simp
    · exact seqs_foldl _ _ fun u n => by simp

@[simp] theorem State.freeSegs_seqs (l : List (Nat × Nat)) : (s.freeSegs l).seqs = s.seqs := seqs_foldl _ _ fun _ _ => by simp

@[simp] theorem State.forkCol_seqs (n : Nat) : (s.forkCol c n).2.seqs = s.seqs := by
  unfold State.forkCol
  dsimp only
  split
  · rfl
  · split <;> rfl

@[simp] theorem forkCols_seqs (l : List Nat) (s : State) : (forkCols c l s).2.seqs = s.seqs := by
  induction l generalizing s with
  | nil => rfl
  | cons n r ih =>
    rw [forkCols]
    exact (ih _).trans (State.forkCol_seqs n)

theorem forkCols_length (l : List Nat) (s : State) : (forkCols c l s).1.length = l.length := by
  induction l generalizing s with
  | nil => rfl
  | cons n r ih =>
    rw [forkCols]
    exact congrArg (· + 1) (ih _)

/-! ### Leaving (3 R54, R420) -/

theorem State.seq_of_seqs (h : t.seqs = s.seqs) (r : Nat) : t.seq r = s.seq r := by rw [State.seq, h, ← State.seq]

theorem State.seq_onCtx (f : Ctx → Ctx) (r : Nat) : (s.onCtx c f).seq r = s.seq r := rfl

theorem State.seq_leave (r : Nat) : (s.leave q).seq r =
    if q = r then { s.seq q with st := .leaving, feed := [], segs := [], stamps := [], pendTok := none } else s.seq r := by
  rw [State.leave, State.seq_onSeq, State.seq_of_seqs (State.freeSegs_seqs _), State.seq_of_seqs (State.freeSegs_seqs _)]

/-- What a message that lets a sequence leave does to the Sequence Table. -/
theorem State.leave_notes {flags : Nat} (hseqs : t.seqs = s.seqs) : let u := (t.leave q).note c q flags
    (u.seq q).st = .leaving ∧ (u.seq q).feed = [] ∧ (u.seq q).pendTok = none ∧ (u.seq q).cols = (s.seq q).cols ∧
      (∀ r, r ≠ q → u.seq r = s.seq r) := by
  have hkept : ∀ r, ((t.leave q).note c q flags).seq r = (t.leave q).seq r := State.seq_of_seqs rfl
  have hleft := State.seq_leave (s := t) (q := q) q
  rw [if_pos rfl] at hleft
  refine ⟨?_, ?_, ?_, ?_, fun r hr => ?_⟩
  · rw [hkept, hleft]
  · rw [hkept, hleft]
  · rw [hkept, hleft]
  · rw [hkept, hleft, State.seq_of_seqs hseqs]
  · rw [hkept, State.seq_leave, if_neg (Ne.symm hr), State.seq_of_seqs hseqs]

theorem State.cancelSeq_leaves (flags : Nat) : ∃ (t : State) (f : Nat), s.cancelSeq c q flags = (t.leave q).note c q f ∧ t.seqs = s.seqs := by
  rw [State.cancelSeq]
  refine ⟨_, _, rfl, ?_⟩
  split
  · split <;> simp
  · rfl

theorem State.seq_freeSequence (r : Nat) : (s.freeSequence q).seq r = if q = r then Seq.fresh else s.seq r := by
  rw [State.freeSequence]
  dsimp only
  rw [State.seq_onCtx, State.seq_onSeq, State.seq_onCtx, State.seq_of_seqs (s := s) (by simp)]

/-! ### Messages -/

theorem seqRetire_retires (hheld : (s.ctx c).holdsMessages = false) (hq : q < 2 ^ 17) (hshare : (s.ctx c).hasSeq q = true)
    (hst : (s.seq q).st = .prefill ∨ (s.seq q).st = .decode ∨ (s.seq q).st = .idle) :
    seqRetire c [q] m s = .ok (if ((s.ctx c).inStep q).isSome then s.onSeq q (fun e => { e with retire := true })
      else (s.leave q).note c q fLeft) [] := by
  rw [seqRetire, unlessHeld_free hheld]
  rw [checked_pass]
  intro x hx
  rcases List.mem_append.mp hx with hx | hx
  · exact State.seqChecks_pass hq hshare x hx
  · rw [List.mem_singleton.mp hx]
    simp [Seq.holds_iff.mpr hst]

theorem seqCancel_cancels (hheld : (s.ctx c).holdsMessages = false) (hq : q < 2 ^ 17) (hshare : (s.ctx c).hasSeq q = true)
    (hfree : (s.seq q).st ≠ .free) (hleaving : (s.seq q).st ≠ .leaving) :
    seqCancel c [q] m s = if (s.seq q).st = .waiting then
      .ok (((s.host.msgs.filter (fun m => m.phase == .openWait q)).foldl (fun t m => t.complete m (owner m.op) .cancelled []) s).freeSequence q) []
      else .ok (s.cancelSeq c q 0) [] := by
  rw [seqCancel, unlessHeld_free hheld]
  dsimp only
  rw [checked_pass]
  intro x hx
  rcases List.mem_append.mp hx with hx | hx
  · exact State.seqChecks_pass hq hshare x hx
  · rw [List.mem_singleton.mp hx]
    simp [hfree, hleaving]

theorem seqSetSampler_sets {temp topP topK stop turn : Nat} (hheld : (s.ctx c).holdsMessages = false) (hq : q < 2 ^ 17)
    (hshare : (s.ctx c).hasSeq q = true) (hfree : (s.seq q).st ≠ .free) (hleaving : (s.seq q).st ≠ .leaving)
    (hsampler : ∀ k ∈ samplerChecks temp topP stop turn, k.1 = false) :
    seqSetSampler c [q, temp, topP, topK, stop, turn] m s = .ok (s.onSeq q (fun e => { e with
      temp := temp, topP := topP, topK := (s.ctx c).topK topK, stopSet := stop, turnSet := turn })) [] := by
  rw [seqSetSampler, unlessHeld_free hheld]
  dsimp only
  rw [checked_pass]
  intro x hx
  simp only [List.mem_append, List.mem_singleton] at hx
  rcases hx with (hx | rfl) | hx
  · exact State.seqChecks_pass hq hshare x hx
  · simp [hfree, hleaving]
  · exact hsampler x hx

theorem stepConfig_sets {limit chunk : Nat} {y : Ctx} (hheld : (s.ctx c).holdsMessages = false) (hlimit : 0 < limit) (hmax : limit ≤ 262144)
    (hchunk : 0 < chunk) (hlong : chunk ≤ 8192)
    (hfit : (s.ctx c).fitSpill (spillBytes limit (s.ctx c).share.dModel (planesOf (s.ctx c).steps.mode (s.ctx c).draft)) = some y)
    (hland : y.landingFits limit (s.ctx c).draft.kmax = true) : stepConfig c [limit, chunk] m s =
      .ok (s.onCtx c (fun _ => { y with steps := { y.steps with tokenLimit := limit, prefillChunk := chunk } })) [] := by
  rw [stepConfig, unlessHeld_free hheld]
  dsimp only
  rw [checked_pass, hfit]
  · dsimp only
    rw [hland, if_pos rfl]
  · intro x hx
    rw [List.mem_singleton.mp hx]
    exact decide_eq_false (by omega)

/-! ### Feeding (3 R47, R420, R421) -/

/-- An entry with a feed appended: its tokens, their segment and the stamp they came with. -/
def Seq.appended (e : Seq) (toks : List Nat) (seg n stamp : Nat) : Seq :=
  { e with feed := e.feed ++ toks, segs := e.segs ++ [(seg, n)], stamps := e.stamps ++ [(stamp, n)] }

theorem Seq.arm_keeps (e : Seq) (stamp : Nat) : (e.arm stamp).segs = e.segs ∧ (e.arm stamp).stamps = e.stamps ∧ (e.arm stamp).cols = e.cols ∧
    (e.arm stamp).feed = e.feed ∧ (e.arm stamp).pendTok = e.pendTok := by
  unfold Seq.arm
  split <;> exact ⟨rfl, rfl, rfl, rfl, rfl⟩

/-- An idle entry with a feed moves to PREFILL and keeps what it holds. -/
theorem Seq.fed_idle {e : Seq} (hfeed : e.feed.isEmpty = false) (hst : e.st = .idle) : e.fed.st = .prefill ∧ e.fed.segs = e.segs ∧
    e.fed.stamps = e.stamps ∧ e.fed.cols = e.cols ∧ e.fed.feed = e.feed ∧ e.fed.pendTok = e.pendTok := by
  rw [Seq.fed, if_neg (by rw [hfeed]; exact Bool.false_ne_true), if_pos (by rw [hst]; rfl)]
  split
  · exact ⟨rfl, e.arm_keeps _⟩
  · exact ⟨rfl, rfl, rfl, rfl, rfl, rfl⟩

/-- A decoding entry with a feed moves to PREFILL, its pending token first. -/
theorem Seq.fed_decode {e : Seq} (hfeed : e.feed.isEmpty = false) (hst : e.st = .decode) :
    e.fed = { e with st := .prefill, feed := e.pendTok.toList ++ e.feed, pendTok := none } := by
  rw [Seq.fed, if_neg (by rw [hfeed]; exact Bool.false_ne_true), if_neg (by rw [hst]; decide), Seq.feedMoves, if_pos (by simp [hst, hfeed])]

/-- An entry in another state only takes the tokens. -/
theorem Seq.fed_other {e : Seq} (hfeed : e.feed.isEmpty = false) (hidle : e.st ≠ .idle) (hdecode : e.st ≠ .decode) : e.fed = e := by
  rw [Seq.fed, if_neg (by rw [hfeed]; exact Bool.false_ne_true), if_neg (by simpa using hidle), Seq.feedMoves, if_neg (by simp [hdecode])]

/-- What a feed leaves of an entry that is not in the step in flight. -/
theorem Seq.fed_appended (e : Seq) {toks : List Nat} (htoks : toks ≠ []) (seg n stamp : Nat) : let f := (e.appended toks seg n stamp).fed
    f.segs = e.segs ++ [(seg, n)] ∧ f.stamps = e.stamps ++ [(stamp, n)] ∧ f.cols = e.cols ∧
      ((e.st = .decode ∨ e.st = .idle) → f.st = .prefill) ∧
      (e.st = .decode → f.pendTok = none ∧ f.feed = e.pendTok.toList ++ (e.feed ++ toks)) ∧
      (e.st ≠ .decode → f.feed = e.feed ++ toks ∧ f.pendTok = e.pendTok) := by
  have hfeed : (e.appended toks seg n stamp).feed.isEmpty = false := by simp [Seq.appended, htoks]
  by_cases hdecode : e.st = .decode
  · intro f
    have hf : f = _ := Seq.fed_decode hfeed hdecode
    rw [hf]
    exact ⟨rfl, rfl, rfl, fun _ => rfl, fun _ => ⟨rfl, rfl⟩, fun hne => absurd hdecode hne⟩
  · by_cases hidle : e.st = .idle
    · obtain ⟨hst, hsegs, hstamps, hcols, hkept, hpend⟩ := Seq.fed_idle hfeed hidle
      exact ⟨hsegs, hstamps, hcols, fun _ => hst, fun h => absurd h hdecode, fun _ => ⟨hkept, hpend⟩⟩
    · intro f
      have hf : f = _ := Seq.fed_other hfeed hidle hdecode
      rw [hf]
      exact ⟨rfl, rfl, rfl, fun h => (h.elim hdecode hidle).elim, fun h => absurd h hdecode, fun _ => ⟨rfl, rfl⟩⟩

theorem State.onSeq_of_eq {f : Seq → Seq} {e : Seq} (h : f (s.seq q) = e) : s.onSeq q f = s.onSeq q (fun _ => e) := by
  rw [State.onSeq, h, State.onSeq]

theorem State.allocOr_alloc {n h a : Nat} (hn : 0 < n) (halloc : t.khanAlloc c 1 0 0x1 n = (some (h, a), u)) :
    s.allocOr t c n = .inr (u, h) := by
  rw [State.allocOr, if_neg (by omega), halloc]

theorem seqFeed_feeds {h n seg a : Nat} (hheld : (s.ctx c).holdsMessages = false) (hq : q < 2 ^ 17) (hshare : (s.ctx c).hasSeq q = true)
    (hfree : (s.seq q).st ≠ .free) (hleaving : (s.seq q).st ≠ .leaving) (hn : 0 < n) (hhandle : s.handleBad c h = none)
    (hextent : 4 * n ≤ (s.slotOf h).extent)
    (hlen : (s.seq q).pos + (s.seq q).feed.length + b2n (s.seq q).pendTok.isSome + n ≤ (s.seq q).maxLen)
    (hvocab : ∀ t ∈ s.feedTokens h n, t < ((s.ctx c).model.map (·.vocab)).getD 0)
    (halloc : s.khanAlloc c 1 0 0x1 (4 * n) = (some (seg, a), u)) : seqFeed c [q, h, n] m s =
      .ok ((u.writeFeed seg (s.feedTokens h n)).onSeq q (fun _ =>
        if ((s.ctx c).inStep q).isSome then (s.seq q).appended (s.feedTokens h n) seg n m.stamp
        else ((s.seq q).appended (s.feedTokens h n) seg n m.stamp).fed)) [] := by
  have hseqs : (u.writeFeed seg (s.feedTokens h n)).seqs = s.seqs :=
    (congrArg (fun x => x.2.seqs) halloc).symm.trans (State.khanAlloc_seqs ..)
  rw [seqFeed, unlessHeld_free hheld]
  dsimp only
  rw [checked_pass, if_neg (by omega), State.allocOr_alloc (by omega) halloc]
  · refine congrArg (Act.ok · []) (State.onSeq_of_eq ?_)
    rw [State.seq_of_seqs hseqs]
    rfl
  · intro x hx
    rw [State.feedChecks, if_neg (by omega), hhandle] at hx
    simp only [List.mem_append, List.mem_cons, List.not_mem_nil, or_false, false_or] at hx
    rcases hx with (hx | rfl) | rfl | rfl
    · exact State.seqChecks_pass hq hshare x hx
    · simp [hfree, hleaving]
    · exact decide_eq_false (by omega)
    · simpa using hvocab

/-! ### Opening (3 R44, R46, R67, R421) -/

theorem State.seedFor_keeps (seed : Nat) : (s.seedFor c seed).2.seqs = s.seqs ∧ (s.seedFor c seed).2.mem = s.mem ∧
    (seed ≠ 0 → s.seedFor c seed = (seed, s)) := by
  rw [State.seedFor]
  refine ⟨by split <;> rfl, by split <;> rfl, fun h => if_neg (by simp [h])⟩

theorem State.allocOr_keeps {n h : Nat} (halloc : s.allocOr t c n = .inr (u, h)) : u.seqs = t.seqs ∧ u.mem = t.mem := by
  unfold State.allocOr at halloc
  split_ifs at halloc with hn
  · cases halloc
    exact ⟨rfl, rfl⟩
  · split at halloc
    · next g v hv =>
      cases halloc
      exact ⟨(congrArg (fun x => x.2.seqs) hv).symm.trans (State.khanAlloc_seqs ..),
        (congrArg (fun x => x.2.mem) hv).symm.trans (State.mem_of_form (State.khanAlloc_form ..))⟩
    · cases halloc

/-- The entry of a sequence that a message opens. -/
def State.opened (s : State) (c flags tag ws tpf period maxLen seed temp topP topK stop turn cb seg n stamp : Nat) (toks : List Nat) : Seq :=
  { Seq.fresh with
    st := .waiting, ctx := c, part := (s.ctx c).share.partition, emitWs := ws, perFrame := tpf, tag := tag, maxLen := maxLen
    deadline := if tpf = 0 then noDeadline else 0
    period := period, seed := seed, cb := cb, temp := temp, topP := topP, topK := (s.ctx c).topK topK, stopSet := stop
    turnSet := turn
    feed := toks, segs := if n = 0 then [] else [(seg, n)]
    stamps := if n = 0 then [] else [(stamp, n)]
    openStamp := stamp, usePrefix := bit flags 0 }

theorem seqOpen_opens {flags tag ws tpf period maxLen seed temp topP topK stop turn h n cb seg : Nat} {y : Model}
    (hheld : (s.ctx c).holdsMessages = false) (hmodel : (s.ctx c).model = some y) (hfull : y.complete = true)
    (hroute : ∀ l < y.moe, (s.ctx c).route.active.has l = true) (hflags : flags < 2) (hring : flags = 1 → (s.ctx c).ringLen = 0)
    (hpos : 0 < maxLen) (hmax : maxLen ≤ 16777216) (htpf : tpf ≤ 15) (hperiod : period < 2 ^ 24) (hframe : period = 0 → tpf = 0)
    (hsampler : ∀ k ∈ samplerChecks temp topP stop turn, k.1 = false) (hws : s.emitWsBad c ws = false)
    (hfeed : ∀ k ∈ s.feedChecks c h n 0 maxLen, k.1 = false) (hfree : s.freeSeq c = some q)
    (hblock : s.allocOr s c (256 + 4 * (s.ctx c).cover maxLen + 4 * (s.ctx c).ringLen) = .inr (t, cb))
    (hseg : s.allocOr t c (4 * n) = .inr (u, seg)) :
    seqOpen c [flags, tag, ws, tpf, period, maxLen, seed, temp, topP, topK, stop, turn, h, n] m s =
      .hold (((u.writeFeed seg (s.feedTokens h n)).seedFor c seed).2.onSeq q (fun _ => s.opened c flags tag ws tpf period maxLen
        ((u.writeFeed seg (s.feedTokens h n)).seedFor c seed).1 temp topP topK stop turn cb seg n m.stamp (s.feedTokens h n)))
        (.openWait q) := by
  have hwhole : s.allocOr s c ((s.ctx c).blockBytes maxLen) = .inr (t, cb) := hblock
  rw [seqOpen, unlessHeld_free hheld]
  dsimp only
  rw [checked_pass, hwhole]
  · dsimp only
    rw [hseg, hfree]
    rfl
  · intro x hx
    simp only [List.mem_append, List.mem_cons, List.not_mem_nil, or_false] at hx
    rcases hx with ((((rfl | rfl | rfl | rfl) | hx) | rfl) | hx) | rfl
    · exact decide_eq_false (by omega)
    · simpa [hmodel, hfull] using hroute
    · by_cases hone : flags = 1
      · simp [hring hone]
      · have hzero : flags = 0 := by omega
        simp [hzero, bit]
    · exact decide_eq_false (by omega)
    · exact hsampler x hx
    · exact hws
    · exact hfeed x hx
    · simp [hfree]

/-! ### Forking (3 R62) -/

theorem Kv.col_adjust (k : Kv) {n r : Nat} (f : Col → Col) (hr : n ≠ r) : Kv.col { k with cols := k.cols.adjust n f } r = k.col r := by
  rw [Kv.col, Tbl.getD_eq_find, Tbl.find_adjust, if_neg hr, Kv.col, Tbl.getD_eq_find]

/-- What a state shares with another but for the counts of its columns. -/
structure State.Shares (s t : State) : Prop where
  mem    : t.mem = s.mem
  length : t.ctxs.length = s.ctxs.length
  khan   : ∀ d, (t.ctx d).khan = (s.ctx d).khan
  model  : ∀ d, (t.ctx d).model = (s.ctx d).model

theorem State.Shares.slotOf (h : s.Shares t) (b : Nat) : t.slotOf b = s.slotOf b := by rw [State.slotOf, h.khan, ← State.slotOf]

theorem State.Shares.cover (h : s.Shares t) (d n : Nat) : (t.ctx d).cover n = (s.ctx d).cover n := by
  rw [Ctx.cover, Ctx.page, h.model, ← Ctx.page, ← Ctx.cover]

theorem State.Shares.trans {v : State} (h : s.Shares t) (h' : t.Shares v) : s.Shares v where
  mem := h'.mem.trans h.mem
  length := h'.length.trans h.length
  khan := fun d => (h'.khan d).trans (h.khan d)
  model := fun d => (h'.model d).trans (h.model d)

theorem State.onCtx_shares (hc : c < s.ctxs.length) {f : Ctx → Ctx} (hk : (f (s.ctx c)).khan = (s.ctx c).khan)
    (hm : (f (s.ctx c)).model = (s.ctx c).model) : s.Shares (s.onCtx c f) where
  mem := rfl
  length := by rw [State.onCtx, updAt_length]
  khan := fun d => by
    rw [State.ctx_onCtx _ _ _ _ hc]
    split
    · next h => rw [hk, h]
    · rfl
  model := fun d => by
    rw [State.ctx_onCtx _ _ _ _ hc]
    split
    · next h => rw [hm, h]
    · rfl

/-- A fork's child shares columns that are not named twice and whose counts have room. -/
theorem forkCols_shared {l : List Nat} (hc : c < s.ctxs.length) (hl : l.Nodup) (hroom : ∀ n ∈ l, ((s.ctx c).kv.col n).count < 65535) :
    (forkCols c l s).1 = l ∧ s.Shares (forkCols c l s).2 ∧
      ∀ r ∉ l, (((forkCols c l s).2.ctx c).kv.col r) = (s.ctx c).kv.col r := by
  induction l generalizing s with
  | nil => exact ⟨rfl, ⟨rfl, rfl, fun _ => rfl, fun _ => rfl⟩, fun _ _ => rfl⟩
  | cons n r ih =>
    obtain ⟨hn, hr⟩ := List.nodup_cons.mp hl
    have hfirst : s.forkCol c n = (n, s.onCtx c (fun x => x.ref n)) := if_pos (hroom n (by simp))
    have hshare : s.Shares (s.onCtx c (fun x => x.ref n)) := State.onCtx_shares hc rfl rfl
    have hcol : ∀ a, a ≠ n → ((s.onCtx c (fun x => x.ref n)).ctx c).kv.col a = (s.ctx c).kv.col a := by
      intro a ha
      rw [State.ctx_onCtx _ _ _ _ hc, if_pos rfl]
      exact Kv.col_adjust _ _ (Ne.symm ha)
    obtain ⟨hlist, hrest, hcols⟩ := ih (s := s.onCtx c (fun x => x.ref n)) (by rw [hshare.length]; exact hc) hr (fun a ha => by
      rw [hcol a (fun h => hn (h ▸ ha))]
      exact hroom a (by simp [ha]))
    rw [forkCols, hfirst]
    refine ⟨congrArg (n :: ·) hlist, hshare.trans hrest, fun a ha => ?_⟩
    obtain ⟨hne, hnot⟩ := not_or.mp (List.mem_cons.not.mp ha)
    exact (hcols a hnot).trans (hcol a hne)

/-- The columns and then the ring of a fork's parent, shared. -/
theorem forkCols_both {l l' : List Nat} (hc : c < s.ctxs.length) (hl : (l ++ l').Nodup)
    (hroom : ∀ n ∈ l ++ l', ((s.ctx c).kv.col n).count < 65535) : (forkCols c l s).1 = l ∧
      (forkCols c l' (forkCols c l s).2).1 = l' ∧ s.Shares (forkCols c l' (forkCols c l s).2).2 := by
  obtain ⟨hfirst, hsecond, hdisjoint⟩ := List.nodup_append.mp hl
  obtain ⟨hcols, hshares, hkept⟩ := forkCols_shared hc hfirst (fun n hn => hroom n (List.mem_append_left _ hn))
  obtain ⟨hring, hboth, -⟩ := forkCols_shared (s := (forkCols c l s).2) (by rw [hshares.length]; exact hc) hsecond (fun n hn => by
    rw [hkept n (fun h => hdisjoint n h n hn rfl)]
    exact hroom n (List.mem_append_right _ hn))
  exact ⟨hcols, hring, hshares.trans hboth⟩

/-- The state in which a fork's child is made, with its columns, its ring and its seed. -/
def State.forkedFrom (s : State) (c p seed : Nat) : State × List Nat × List Nat × Nat :=
  let f := forkCols c (s.seq p).cols s
  let r := forkCols c (s.seq p).ring f.2
  let d := r.2.freed.seedFor c seed
  (d.2, f.1, r.1, d.1)

/-- The child of a fork. -/
def Seq.child (e : Seq) (c tag seed cb : Nat) (cols ring : List Nat) : Seq :=
  { Seq.fresh with
    st := .idle, ctx := c, part := e.part, kvFar := e.kvFar, emitWs := e.emitWs, perFrame := e.perFrame, tag := tag
    pos := e.pos, maxLen := e.maxLen, deadline := noDeadline, period := e.period, seed := seed, cb := cb
    temp := e.temp, topP := e.topP, topK := e.topK, stopSet := e.stopSet, turnSet := e.turnSet, cols := cols, ring := ring }

theorem seqFork_forks {p tag seed cb a : Nat} (hheld : (s.ctx c).holdsMessages = false) (hp : p < 2 ^ 17) (hshare : (s.ctx c).hasSeq p = true)
    (hst : (s.seq p).st = .prefill ∨ (s.seq p).st = .decode ∨ (s.seq p).st = .idle) (hfree : s.freeSeq c = some q)
    (hfits : (s.ctx c).fits ((s.ctx c).fullCounts (s.seq p).cols) ((s.ctx c).fullCounts (s.seq p).ring) = true)
    (halloc : s.khanAlloc c 1 0 0x1 (256 + 4 * (s.ctx c).cover (s.seq p).maxLen + 4 * (s.ctx c).ringLen) = (some (cb, a), u)) :
    seqFork c [p, tag, seed] m s =
      let d := u.forkedFrom c p seed
      .ok ((d.1.onSeq q (fun _ => (s.seq p).child c tag d.2.2.2 cb d.2.1 d.2.2.1)).writeLists q) [(.u32, q), (.u64, d.2.2.2)] := by
  have hseqs : u.seqs = s.seqs := (congrArg (fun x => x.2.seqs) halloc).symm.trans (State.khanAlloc_seqs ..)
  have hblock : s.allocOr s c ((s.ctx c).blockBytes (s.seq p).maxLen) = .inr (u, cb) :=
    State.allocOr_alloc (by simp only [Ctx.blockBytes]; omega) halloc
  rw [seqFork, unlessHeld_free hheld]
  dsimp only
  rw [checked_pass, hfits, if_neg (by decide), hblock, hfree]
  · dsimp only
    rw [State.forkedFrom, State.seq_of_seqs hseqs]
    rfl
  · intro x hx
    simp only [List.mem_append, List.mem_cons, List.not_mem_nil, or_false] at hx
    rcases hx with hx | rfl | rfl
    · exact State.seqChecks_pass hp hshare x hx
    · simp [Seq.holds_iff.mpr hst]
    · simp [hfree]

theorem State.forkedFrom_keeps (p seed : Nat) : let d := s.forkedFrom c p seed
    d.1.seqs = s.seqs ∧ d.2.1.length = (s.seq p).cols.length ∧ (seed ≠ 0 → d.2.2.2 = seed) := by
  rw [State.forkedFrom]
  dsimp only
  obtain ⟨hseqs, -, hseed⟩ := State.seedFor_keeps (s := (forkCols c (s.seq p).ring (forkCols c (s.seq p).cols s).2).2.freed) (c := c) seed
  exact ⟨hseqs.trans ((forkCols_seqs _ _).trans (forkCols_seqs _ _)), forkCols_length _ _, fun h => congrArg Prod.fst (hseed h)⟩

theorem State.seedFor_shares (seed : Nat) : s.Shares (s.seedFor c seed).2 := by
  rw [State.seedFor]
  split
  · exact ⟨rfl, rfl, fun _ => rfl, fun _ => rfl⟩
  · exact ⟨rfl, rfl, fun _ => rfl, fun _ => rfl⟩

/-- A fork whose columns are all shared. -/
theorem State.forkedFrom_shared {p : Nat} (seed : Nat) (hc : c < s.ctxs.length) (hnodup : ((s.seq p).cols ++ (s.seq p).ring).Nodup)
    (hroom : ∀ n ∈ (s.seq p).cols ++ (s.seq p).ring, ((s.ctx c).kv.col n).count < 65535) : let d := s.forkedFrom c p seed
      d.2.1 = (s.seq p).cols ∧ d.2.2.1 = (s.seq p).ring ∧ s.Shares d.1 := by
  obtain ⟨hcols, hring, hshares⟩ := forkCols_both hc hnodup hroom
  refine ⟨hcols, hring, hshares.trans (State.Shares.trans (t := (forkCols c (s.seq p).ring (forkCols c (s.seq p).cols s).2).2.freed) ?_
    (State.seedFor_shares seed))⟩
  exact ⟨rfl, rfl, fun _ => rfl, fun _ => rfl⟩

theorem State.seq_writeLists (r : Nat) : (s.writeLists q).seq r = s.seq r := rfl

theorem State.writeLists_mem : (s.writeLists q).mem = memWrite (memWrite s.mem ((s.slotOf (s.seq q).cb).base + 256)
      ((s.seq q).cols.flatMap (fun n => toLE 4 (Config.columnEntry n))))
    ((s.slotOf (s.seq q).cb).base + 256 + 4 * (s.ctx (s.seq q).ctx).cover (s.seq q).maxLen)
      ((s.seq q).ring.flatMap (fun n => toLE 4 (Config.columnEntry n))) := by rfl

/-- What the child of a fork with shared columns writes into its control block. -/
theorem State.Shares.writeLists_mem {e : Seq} (h : s.Shares t) : ((t.onSeq q (fun _ => e)).writeLists q).mem =
    memWrite (memWrite s.mem ((s.slotOf e.cb).base + 256) (e.cols.flatMap (fun n => toLE 4 (Config.columnEntry n))))
      ((s.slotOf e.cb).base + 256 + 4 * (s.ctx e.ctx).cover e.maxLen) (e.ring.flatMap (fun n => toLE 4 (Config.columnEntry n))) := by
  have hseq : (t.onSeq q (fun _ => e)).seq q = e := by rw [State.seq_onSeq, if_pos rfl]
  have hmem : (t.onSeq q (fun _ => e)).mem = s.mem := h.mem
  have hslot : ∀ b, (t.onSeq q (fun _ => e)).slotOf b = s.slotOf b := h.slotOf
  have hcover : ∀ d n, ((t.onSeq q (fun _ => e)).ctx d).cover n = (s.ctx d).cover n := h.cover
  rw [State.writeLists_mem, hseq, hmem, hslot, hcover]

end

/-- Settles O14: the sequence and step messages change the named sequence or the settings, and wait during a boundary. -/
theorem sequenceMessages : Obligations.SequenceMessages := by
  unfold Obligations.SequenceMessages
  refine ⟨?_, ?_, ?_, ?_, ?_, ?_, ?_, ?_, ?_, ?_, ?_⟩
  · intro w c flags tag ws tpf period maxLen seed temp topP topK stop turn h n q cb seg y t u m s htakes hspells hadmits hheld hmodel hfull
      hroute hflags hring hpos hmax htpf hperiod hframe hsampler hws hfeed hfree hblock hseg
    obtain ⟨hseqs, hmem⟩ := State.allocOr_keeps hblock
    obtain ⟨hseqs', hmem'⟩ := State.allocOr_keeps hseg
    obtain ⟨hkept, hsame, hseed⟩ := State.seedFor_keeps (s := u.writeFeed seg (s.feedTokens h n)) (c := c) seed
    refine ⟨s.opened c flags tag ws tpf period maxLen ((u.writeFeed seg (s.feedTokens h n)).seedFor c seed).1 temp topP topK stop turn cb seg n
        m.stamp (s.feedTokens h n), ((u.writeFeed seg (s.feedTokens h n)).seedFor c seed).2,
      congrArg Host.Outcome.next ((commitCtx_outcome seqOpen htakes hspells hadmits).trans (congrArg (Act.outcome m 0x0100)
        (seqOpen_opens hheld hmodel hfull hroute hflags hring hpos hmax htpf hperiod hframe hsampler hws hfeed hfree hblock hseg))),
      rfl, rfl, rfl, rfl, rfl, rfl, rfl, rfl, rfl, rfl, rfl, rfl, rfl, rfl, rfl, rfl, rfl, hkept.trans (hseqs'.trans hseqs),
      fun hne => ⟨congrArg Prod.snd (hseed hne), congrArg Prod.fst (hseed hne)⟩, hsame.trans ?_⟩
    rw [State.writeFeed, State.writeAt, hmem', hmem]
  · intro w c q h n seg a u m s htakes hspells hadmits hheld hq hshare hfree hleaving hn hhandle hextent hlen hvocab halloc
    have htoks : s.feedTokens h n ≠ [] := by
      intro hnil
      have hlength := s.feedTokens_length h n
      rw [hnil] at hlength
      exact absurd hlength (by simpa using hn.ne)
    obtain ⟨hsegs, hstamps, hcols, hmoves, hdecode, hothers⟩ := (s.seq q).fed_appended htoks seg n m.stamp
    have hmem : u.mem = s.mem := (congrArg (fun x => x.2.mem) halloc).symm.trans (State.mem_of_form (State.khanAlloc_form ..))
    refine ⟨_, congrArg Host.Outcome.next ((commitCtx_outcome seqFeed htakes hspells hadmits).trans (congrArg (Act.outcome m 0x0101)
        (seqFeed_feeds hheld hq hshare hfree hleaving hn hhandle hextent hlen hvocab halloc))), hmem, ?_⟩
    cases hstep : ((s.ctx c).inStep q).isSome with
    | true => exact ⟨rfl, rfl, rfl, fun _ => rfl, nofun, nofun, fun _ => ⟨rfl, rfl⟩⟩
    | false => exact ⟨hsegs, hstamps, hcols, nofun, fun _ => hmoves, fun _ => hdecode, hothers⟩
  · intro w c q m s htakes hspells hadmits hheld hq hshare hst
    have hout := (commitCtx_outcome seqRetire htakes hspells hadmits).trans (congrArg (Act.outcome m 0x0102)
      (seqRetire_retires hheld hq hshare hst))
    refine ⟨fun hstep => congrArg Host.Outcome.next (hout.trans ?_), fun hstep => ?_⟩
    · rw [if_pos hstep]
      rfl
    · obtain ⟨hleft, hfeed, hpend, hcols, hothers⟩ := State.leave_notes (s := s) (t := s) (c := c) (q := q) (flags := fLeft) rfl
      refine ⟨(s.leave q).note c q fLeft, congrArg Host.Outcome.next (hout.trans ?_), hleft, hfeed, hpend, hcols, hothers,
        (State.mem_of_form (State.leave_form ..) : (s.leave q).mem = s.mem)⟩
      rw [hstep, if_neg Bool.false_ne_true]
      rfl
  · intro w c q m s htakes hspells hadmits hheld hq hshare hst
    have hne : (s.seq q).st ≠ .free ∧ (s.seq q).st ≠ .leaving ∧ (s.seq q).st ≠ .waiting := by
      rcases hst with h | h | h <;> simp [h]
    obtain ⟨hfree, hleaving, hwaiting⟩ := hne
    obtain ⟨t, f, hcancel, hseqs⟩ := s.cancelSeq_leaves (c := c) (q := q) 0
    obtain ⟨hleft, hfeed, hpend, -, hothers⟩ := State.leave_notes (c := c) (q := q) (flags := f) hseqs
    rw [← hcancel] at hleft hfeed hpend hothers
    refine ⟨s.cancelSeq c q 0, congrArg Host.Outcome.next ((commitCtx_outcome seqCancel htakes hspells hadmits).trans ?_), hleft, hfeed, hpend,
      hothers, State.mem_of_form (State.cancelSeq_form ..)⟩
    rw [seqCancel_cancels hheld hq hshare hfree hleaving, if_neg hwaiting]
    rfl
  · intro w c q m s htakes hspells hadmits hheld hq hshare hst hnone
    refine ⟨s.freeSequence q, congrArg Host.Outcome.next ((commitCtx_outcome seqCancel htakes hspells hadmits).trans ?_), ?_, fun r hr => ?_,
      State.mem_of_form (State.freeSequence_form ..)⟩
    · rw [seqCancel_cancels hheld hq hshare (by simp [hst]) (by simp [hst]), if_pos hst, hnone]
      rfl
    · rw [State.seq_freeSequence, if_pos rfl]
    · rw [State.seq_freeSequence, if_neg (Ne.symm hr)]
  · intro w c p q tag seed cb a u m s htakes hspells hadmits hheld hp hshare hst hfree hfits halloc
    have hseqs : u.seqs = s.seqs := (congrArg (fun x => x.2.seqs) halloc).symm.trans (State.khanAlloc_seqs ..)
    have hmem : u.mem = s.mem := (congrArg (fun x => x.2.mem) halloc).symm.trans (State.mem_of_form (State.khanAlloc_form ..))
    have hbare : (u.ctx c).bare = (s.ctx c).bare :=
      State.ctx_bare_of ((congrArg (fun x => x.2.bare) halloc).symm.trans (State.khanAlloc_bare ..)) c
    have hkv : (u.ctx c).kv = (s.ctx c).kv := by
      have hkv := congrArg Ctx.kv hbare
      exact hkv
    have hmodel : (u.ctx c).model = (s.ctx c).model := by
      have hmodel := congrArg Ctx.model hbare
      exact hmodel
    have hcover : ∀ n, (u.ctx c).cover n = (s.ctx c).cover n := fun n => by
      rw [Ctx.cover, Ctx.page, hmodel, ← Ctx.page, ← Ctx.cover]
    have hparent : u.seq p = s.seq p := State.seq_of_seqs hseqs p
    obtain ⟨hkept, hlength, hseed⟩ := u.forkedFrom_keeps (c := c) p seed
    have hchild : ∀ r, ((((u.forkedFrom c p seed).1.onSeq q (fun _ => (s.seq p).child c tag (u.forkedFrom c p seed).2.2.2 cb
        (u.forkedFrom c p seed).2.1 (u.forkedFrom c p seed).2.2.1)).writeLists q).seq r) =
        if q = r then (s.seq p).child c tag (u.forkedFrom c p seed).2.2.2 cb (u.forkedFrom c p seed).2.1 (u.forkedFrom c p seed).2.2.1
        else s.seq r := fun r => by
      rw [State.seq_writeLists, State.seq_onSeq, State.seq_of_seqs (hkept.trans hseqs)]
    have hown := (hchild q).trans (if_pos rfl)
    refine ⟨((u.forkedFrom c p seed).1.onSeq q (fun _ => (s.seq p).child c tag (u.forkedFrom c p seed).2.2.2 cb
        (u.forkedFrom c p seed).2.1 (u.forkedFrom c p seed).2.2.1)).writeLists q, congrArg Host.Outcome.next ((commitCtx_outcome seqFork htakes hspells hadmits).trans ((congrArg (Act.outcome m 0x0104)
        (seqFork_forks hheld hp hshare hst hfree hfits halloc)).trans ?_)), ?_, ?_, ?_, ?_, ?_, ?_, ?_, ?_, fun r hr => ?_, fun hnodup hroom => ?_⟩
    · rw [hown]
      rfl
    · rw [hown]
      rfl
    · rw [hown, ← hparent]
      exact hlength
    · rw [hown]
      rfl
    · rw [hown]
      rfl
    · rw [hown]
      rfl
    · rw [hown]
      rfl
    · rw [hown]
      rfl
    · rw [hown]
      exact hseed
    · rw [hchild r, if_neg (Ne.symm hr)]
    · obtain ⟨hcols, hring, hshares⟩ := u.forkedFrom_shared (p := p) (c := c) seed (by
        rw [State.ctxs_length_of_form ((congrArg (fun x => x.2.form) halloc).symm.trans (State.khanAlloc_form ..))]
        exact State.lt_of_active hadmits.given) (by rw [hparent]; exact hnodup) (by rw [hparent, hkv]; exact hroom)
      rw [hparent] at hcols hring
      intro list at_
      refine ⟨?_, ?_, hshares.writeLists_mem.trans ?_⟩
      · rw [hown]
        exact hcols
      · rw [hown]
        exact hring
      · rw [hcols, hring, hmem, Seq.child]
        dsimp only
        rw [hcover]
  · intro w c q m s htakes hadmits hheld
    refine ⟨fun hspells hq hshare => ?_, fun hspells => ?_⟩
    · refine congrArg Host.Outcome.next ((commitCtx_outcome seqQuery htakes hspells hadmits).trans ?_)
      rw [seqQuery, unlessHeld_free hheld]
      rw [if_neg (by decide), checked_pass]
      · rfl
      · intro x hx
        rcases List.mem_append.mp hx with hx | hx
        · rw [List.mem_singleton.mp hx]
          rfl
        · exact State.seqChecks_pass hq hshare x hx
    · refine congrArg Host.Outcome.next ((commitCtx_outcome seqQuery htakes hspells hadmits).trans ?_)
      rw [seqQuery, unlessHeld_free hheld]
      rfl
  · intro w c q temp topP topK stop turn m s htakes hspells hadmits hheld hq hshare hfree hleaving hsampler
    exact congrArg Host.Outcome.next ((commitCtx_outcome seqSetSampler htakes hspells hadmits).trans (congrArg (Act.outcome m 0x0106)
      (seqSetSampler_sets hheld hq hshare hfree hleaving hsampler)))
  · intro w c limit chunk y m s htakes hspells hadmits hheld hlimit hmax hchunk hlong hfit hland
    exact congrArg Host.Outcome.next ((commitCtx_outcome stepConfig htakes hspells hadmits).trans (congrArg (Act.outcome m 0x0110)
      (stepConfig_sets hheld hlimit hmax hchunk hlong hfit hland)))
  · intro w c m s htakes hspells hadmits hheld
    refine congrArg Host.Outcome.next ((commitCtx_outcome stepRecords htakes hspells hadmits).trans ?_)
    rw [stepRecords, unlessHeld_free hheld]
    rfl
  · intro w c q m s htakes hspells hadmits hheld
    refine congrArg Host.Outcome.next ((commitCtx_outcome seqRetire htakes hspells hadmits).trans ?_)
    rw [seqRetire, unlessHeld, if_pos hheld]
    rfl

end Machine
end Sys2Proof
end

section
/-! PROOFS. Heat, replica entries, removals and drains (7 R157 to R159, R161). -/

namespace Sys2Proof
namespace Machine

/-! ### Who shares images -/

/-- What decides which contexts share images. -/
def State.kinds (s : State) : List (CtxSt × Option Model) := s.ctxs.map (fun x => (x.st, x.model))

section
variable {s t : State} {c l e i : Nat}

theorem State.kind_of_kinds (h : t.kinds = s.kinds) (c : Nat) : (t.ctx c).st = (s.ctx c).st ∧ (t.ctx c).model = (s.ctx c).model := by
  have hmap (u : State) : ((u.ctx c).st, (u.ctx c).model) = u.kinds.getD c (Ctx.fresh.st, Ctx.fresh.model) :=
    (List.getD_map (f := fun x : Ctx => (x.st, x.model)) (l := u.ctxs) (d := Ctx.fresh)).symm
  have hpair : ((t.ctx c).st, (t.ctx c).model) = ((s.ctx c).st, (s.ctx c).model) := by rw [hmap, h, ← hmap]
  exact ⟨congrArg Prod.fst hpair, congrArg Prod.snd hpair⟩

theorem State.imgOwner_of_kinds (h : t.kinds = s.kinds) (c : Nat) : t.imgOwner c = s.imgOwner c := by
  rw [State.imgOwner, (State.kind_of_kinds h c).2, ← State.imgOwner]

theorem State.users_of_kinds (h : t.kinds = s.kinds) (c : Nat) : t.users c = s.users c := by
  have hshare : ∀ o, t.sharers o = s.sharers o := fun o => by
    simp only [State.sharers, State.imgOwner_of_kinds h, State.kind_of_kinds h]
  simp only [State.users, hshare, State.imgOwner_of_kinds h]

theorem State.kinds_of_plain (h : t.plain = s.plain) : t.kinds = s.kinds := by
  have hmap : ∀ u : State, u.kinds = u.plain.ctxs.map (fun x => (x.st, x.model)) := fun u => by
    rw [State.plain_ctxs, List.map_map]
    rfl
  rw [hmap, h, ← hmap]

theorem State.kinds_of_ctxs (h : t.ctxs = s.ctxs) : t.kinds = s.kinds := by rw [State.kinds, h, ← State.kinds]

theorem State.onResid_kinds (c : Nat) (f : Resid → Resid) : (s.onResid c f).kinds = s.kinds := updAt_map_of_eq _ _ fun _ => rfl

theorem State.ctx_of_ctxs (h : t.ctxs = s.ctxs) (c : Nat) : t.ctx c = s.ctx c := by rw [State.ctx, h, ← State.ctx]

theorem State.guideAll_alone (h : s.users c = [c]) (g : GuideChange) : s.guideAll c g = s.guideChange c g := by
  rw [State.guideAll, h]
  rfl

/-! ### Routes and steps -/

/-- The route tables and steps of every context. -/
def State.routed (s : State) : List (Gen Route × Steps) := s.ctxs.map (fun x => (x.route, x.steps))

theorem State.route_of_routed (h : t.routed = s.routed) (c : Nat) : (t.ctx c).route = (s.ctx c).route ∧ (t.ctx c).steps = (s.ctx c).steps := by
  have hmap (u : State) : ((u.ctx c).route, (u.ctx c).steps) = u.routed.getD c (Ctx.fresh.route, Ctx.fresh.steps) :=
    (List.getD_map (f := fun x : Ctx => (x.route, x.steps)) (l := u.ctxs) (d := Ctx.fresh)).symm
  have hpair : ((t.ctx c).route, (t.ctx c).steps) = ((s.ctx c).route, (s.ctx c).steps) := by rw [hmap, h, ← hmap]
  exact ⟨congrArg Prod.fst hpair, congrArg Prod.snd hpair⟩

theorem State.onCtx_routed (c : Nat) {f : Ctx → Ctx} (h : ∀ x, (f x).route = x.route ∧ (f x).steps = x.steps) :
    (s.onCtx c f).routed = s.routed := updAt_map_of_eq _ _ fun x => Prod.ext (h x).1 (h x).2

theorem State.routed_of_bare (h : t.bare = s.bare) : t.routed = s.routed := by
  have hmap : ∀ u : State, u.routed = u.bare.ctxs.map (fun x => (x.route, x.steps)) := fun u => by
    simp only [State.routed, State.bare, State.stripped, State.still, List.map_map]
    rfl
  rw [hmap, h, ← hmap]

theorem State.fitCopies_routed (n : Nat) : (s.fitCopies c n).2.routed = s.routed := by
  have hdrop : ((s.ctx c).copyH.foldl State.khanDrop s).bare = s.bare := bare_foldl _ fun _ h => State.khanDrop_bare h
  unfold State.fitCopies
  split
  · rfl
  · split
    · exact State.onCtx_routed c fun _ => ⟨rfl, rfl⟩
    · next g t ht =>
      have htb : t.bare = s.bare := (congrArg (fun x => x.2.bare) ht).symm.trans ((State.khanAlloc_bare ..).trans hdrop)
      split
      · exact State.onCtx_routed c fun _ => ⟨rfl, rfl⟩
      · next k u hu =>
        have hub : u.bare = s.bare := (congrArg (fun x => x.2.bare) hu).symm.trans ((State.khanAlloc_bare ..).trans htb)
        exact (State.onCtx_routed c fun _ => ⟨by rfl, by rfl⟩).trans (State.routed_of_bare hub)

/-! ### A change of Guide where no old copy is held (4 R89, 7 R158) -/

theorem State.mergeGuide_route (hc : c < s.ctxs.length) (hfree : (s.ctx c).route.other = .free) (g : GuideChange) :
    ((s.onCtx c fun x => x.mergeGuide g).ctx c).route = { (s.ctx c).route with other := .shadow ((s.ctx c).route.active.guide g) } := by
  rw [State.ctx_onCtx _ _ _ _ hc, if_pos rfl, Ctx.mergeGuide, hfree]

/-- The state in which a change is merged and the copies have room, before it flips. -/
def State.guided (s : State) (c : Nat) (g : GuideChange) : State :=
  if g.adds then (s.onCtx c fun x => x.mergeGuide g).growCopies c else s.onCtx c fun x => x.mergeGuide g

theorem State.guideChange_guided (hfree : (s.ctx c).route.other = .free) (g : GuideChange) :
    s.guideChange c g = (s.guided c g).flipIdle c 0 := by
  have hold : (s.ctx c).holdsOld 0 = false := by rw [Ctx.holdsOld, if_pos rfl, hfree]
  unfold State.guideChange
  dsimp only
  rw [State.releaseOld_of_none hold, if_neg (by rw [hold]; exact Bool.false_ne_true)]
  rfl

theorem State.guided_routed (g : GuideChange) : (s.guided c g).routed = (s.onCtx c fun x => x.mergeGuide g).routed := by
  unfold State.guided
  split
  · exact State.fitCopies_routed _
  · rfl

theorem State.guided_route (hc : c < s.ctxs.length) (hfree : (s.ctx c).route.other = .free) (g : GuideChange) :
    ((s.guided c g).ctx c).route = { (s.ctx c).route with other := .shadow ((s.ctx c).route.active.guide g) } ∧
      ((s.guided c g).ctx c).steps = (s.ctx c).steps := by
  obtain ⟨hroute, hsteps⟩ := State.route_of_routed (State.guided_routed g) c
  refine ⟨hroute.trans (State.mergeGuide_route hc hfree g), hsteps.trans ?_⟩
  rw [State.ctx_onCtx _ _ _ _ hc, if_pos rfl, Ctx.mergeGuide]

theorem State.guided_length (g : GuideChange) : (s.guided c g).ctxs.length = s.ctxs.length := by
  have hlen := congrArg List.length (State.guided_routed (s := s) (c := c) g)
  simpa [State.routed, State.onCtx, updAt_length] using hlen

/-- Between steps the change flips at once. -/
theorem State.guideChange_flips (hc : c < s.ctxs.length) (hfree : (s.ctx c).route.other = .free) (hman : (s.ctx c).steps.man = none)
    (hbetween : (s.ctx c).steps.between = false) (g : GuideChange) :
    ((s.guideChange c g).ctx c).route =
      ⟨((s.ctx c).route.gen + 1) % 2 ^ 32, (s.ctx c).route.active.guide g, .old (s.ctx c).route.active⟩ := by
  obtain ⟨hroute, hsteps⟩ := State.guided_route hc hfree g
  have hflip := State.flip_route (s := s.guided c g) (c := c) (r := (s.ctx c).route.active.guide g)
    (by rw [State.guided_length]; exact hc) (by rw [hroute])
  have hidle : ((s.guided c g).ctx c).idle = true := by
    rw [Ctx.idle, hsteps, hman, hbetween]
    rfl
  rw [State.guideChange_guided hfree, State.flipIdle, hidle, if_pos rfl, hflip, hroute]

/-- During a step it stays in the shadow copy. -/
theorem State.guideChange_waits {m : Manifest} (hc : c < s.ctxs.length) (hfree : (s.ctx c).route.other = .free)
    (hman : (s.ctx c).steps.man = some m) (g : GuideChange) :
    ((s.guideChange c g).ctx c).route = { (s.ctx c).route with other := .shadow ((s.ctx c).route.active.guide g) } ∧
      ((s.guideChange c g).ctx c).steps = (s.ctx c).steps := by
  obtain ⟨hroute, hsteps⟩ := State.guided_route hc hfree g
  have hidle : ((s.guided c g).ctx c).idle = false := by
    rw [Ctx.idle, hsteps, hman]
    rfl
  rw [State.guideChange_guided hfree, State.flipIdle, hidle, if_neg Bool.false_ne_true]
  exact ⟨hroute, hsteps⟩

/-! ### The entries of a route table -/

theorem Route.expert_onExpert (r : Route) (f : Expert → Expert) (h : (r.experts.find (expKey l e)).isSome = true) :
    (r.onExpert l e f).expert l e = f (r.expert l e) := by
  obtain ⟨x, hx⟩ := Option.isSome_iff_exists.mp h
  rw [Route.expert, Tbl.getD_eq_find, Route.onExpert, Tbl.find_adjust, if_pos rfl, hx, Route.expert, Tbl.getD_eq_find, hx]
  rfl

/-- An entry next after the last one of an expert. -/
theorem Route.guide_entry (r : Route) (x : Replica) (h : (r.experts.find (expKey l e)).isSome = true)
    (hi : i = (r.expert l e).replicas.length) (hmax : i < 16) :
    ((r.guide (.entry l e i x)).expert l e).replicas = (r.expert l e).replicas ++ [x] := by
  rw [Route.guide, Route.expert_onExpert _ _ h, if_pos ⟨by omega, hmax⟩]
  simp [hi]

/-! ### Messages of Guide -/

theorem State.sendGuide_says (fields : List Nat) {ps : List Nat} {p : Nat} (hp : p ∈ ps) (hother : p ≠ s.board.pkgId) :
    ∃ bs, Out.msg p 0x31 c fields bs ∈ (s.sendGuide c fields ps).out := by
  have hmem : p ∈ ps.filter (fun p => p != s.board.pkgId) := by simp [hp, hother]
  refine ⟨Config.bodyCode 0x31 fields ++ [], ?_⟩
  rw [State.sendGuide]
  generalize ps.filter (fun p => p != s.board.pkgId) = qs at hmem
  clear hp hother
  induction qs generalizing s with
  | nil => cases hmem
  | cons q r ih =>
    rw [List.foldl_cons]
    rcases List.mem_cons.mp hmem with rfl | hr
    · exact (works_foldl (.refl _) r fun t a ht => State.sendOpen_works ht ..).out (State.sendMsg_out ..)
    · exact ih hr

theorem State.leader_of_kept (hpkg : t.board.pkgId = s.board.pkgId) (hres : (t.ctx c).resid.resident = (s.ctx c).resid.resident) :
    t.leader c = s.leader c := by rw [State.leader, hpkg, hres, ← State.leader]

theorem State.leads_iff : s.leads c = true ↔ s.leader c = s.board.pkgId := by simp [State.leads]

/-! ### Reports of heat (7 R157) -/

/-- A report of a package's heat and level as the leader keeps it. -/
def State.reported (s : State) (src c level : Nat) (heats : List (Nat × Nat)) : State :=
  let s1 := s.onResid c (fun r => { r with
    reports := heats.foldl (fun t e => t.setD 0 (src * 2 ^ 25 + e.1 % 2 ^ 25) (e.2 % 2 ^ 32)) r.reports })
  { s1 with fab := { s1.fab with peerLevel := Tbl.setD s1.fab.peerLevel 0 src level } }

section
variable {src level : Nat} {heats : List (Nat × Nat)}

theorem State.ctx_reported (hc : c < s.ctxs.length) (d : Nat) : (s.reported src c level heats).ctx d = if c = d then
    { s.ctx c with resid := { (s.ctx c).resid with
      reports := heats.foldl (fun t e => t.setD 0 (src * 2 ^ 25 + e.1 % 2 ^ 25) (e.2 % 2 ^ 32)) (s.ctx c).resid.reports } } else s.ctx d :=
  State.ctx_onCtx _ _ _ _ hc

/-- Under `FREEZE` the leader only keeps the report. -/
theorem heatReport_frozen (hc : c < s.ctxs.length) (hst : (s.ctx c).st = .active) (hlead : s.leader c = s.board.pkgId)
    (hrun : (s.fw fwGuide).st = .running) (hfreeze : bit (s.ctx (s.imgOwner c)).resid.planPolicy 3 = true) :
    heatReport src c level heats s = s.reported src c level heats := by
  have hgo : ¬((s.ctx c).st ≠ .active ∨ (!s.leads c) = true ∨ (s.fw fwGuide).st ≠ .running) := by
    simp [hst, State.leads, hlead, hrun]
  have hfrozen : (s.reported src c level heats).frozen (s.imgOwner c) = true := by
    rw [State.frozen, State.ctx_reported hc]
    split
    · next h => rw [h]; exact hfreeze
    · exact hfreeze
  have hsync : (s.reported src c level heats).syncShares (s.imgOwner c) = s.reported src c level heats := if_pos (Or.inr (Or.inr hfrozen))
  have hreport : heatReport src c level heats s =
      if ((s.reported src c level heats).syncShares (s.imgOwner c)).frozen (s.imgOwner c) then
        (s.reported src c level heats).syncShares (s.imgOwner c)
      else ((s.reported src c level heats).syncShares (s.imgOwner c)).planReplicas (s.imgOwner c) false := if_neg hgo
  rw [hreport, hsync, if_pos hfrozen]

end

/-! ### A replica entry (7 R158) -/

theorem State.leader_onResid (hc : c < s.ctxs.length) {f : Resid → Resid} (hf : (f (s.ctx c).resid).resident = (s.ctx c).resid.resident) :
    (s.onResid c f).leader c = s.leader c :=
  State.leader_of_kept rfl (by rw [State.resid_onResid hc, hf])

theorem State.onResid_routed (f : Resid → Resid) : (s.onResid c f).routed = s.routed := State.onCtx_routed c fun _ => ⟨rfl, rfl⟩

/-- An entry after the last one of its expert, in a context that shares its images with none, between steps. -/
theorem State.writeEntry_appends {r : Replica} (hc : c < s.ctxs.length) (hi : i ≠ 0) (hmax : i < 16) (husers : s.users c = [c])
    (hfree : (s.ctx c).route.other = .free) (hman : (s.ctx c).steps.man = none) (hbetween : (s.ctx c).steps.between = false)
    (hexp : ((s.ctx c).route.active.experts.find (expKey l e)).isSome = true)
    (hlast : i = ((s.ctx c).route.active.expert l e).replicas.length) :
    (((s.writeEntry c l e i r).ctx c).route.active.expert l e).replicas = ((s.ctx c).route.active.expert l e).replicas ++ [r] ∧
      ((s.writeEntry c l e i r).ctx c).route.gen = ((s.ctx c).route.gen + 1) % 2 ^ 32 := by
  generalize hu : s.onResid c (fun q => { q with
    orders := q.orders.filter (fun x => !(x.layer == l && x.expert == e && x.replica == i)) }) = u
  obtain ⟨hroute, hsteps⟩ := State.route_of_routed (t := u) (s := s) (by rw [← hu]; exact State.onResid_routed _) c
  have hflips := State.guideChange_flips (s := u) (c := c) (by rw [← hu, State.onResid, State.onCtx, updAt_length]; exact hc)
    (by rw [hroute, hfree]) (by rw [hsteps, hman]) (by rw [hsteps, hbetween]) (.entry l e i r)
  have hshare : u.users c = [c] := by
    rw [State.users_of_kinds (t := u) (s := s) (by rw [← hu]; exact State.onResid_kinds c _), husers]
  have hwritten : ((s.writeEntry c l e i r).ctx c).route = ((u.guideChange c (.entry l e i r)).ctx c).route := by
    unfold State.writeEntry
    dsimp only
    rw [hu, if_neg (by simp [hi]), if_neg (by simp [hi]),
      State.guideAll_alone hshare]
    exact (State.route_of_routed (State.routed_of_bare (State.bumpCtx_bare ..)) c).1
  rw [hwritten, hflips, hroute]
  exact ⟨Route.guide_entry _ r hexp hlast hmax, rfl⟩

theorem State.writeEntry_works {v : State} (hs : v.Works s) (o l e i : Nat) (r : Replica) : v.Works (s.writeEntry o l e i r) := by
  unfold State.writeEntry
  dsimp only
  have hall (t : State) (ht : v.Works t) (g : GuideChange) : v.Works (t.guideAll o g) :=
    works_foldl ht _ fun t k ht => State.guideChange_works ht ..
  have hkept := State.onResid_works hs o fun q => { q with
    orders := q.orders.filter (fun x => !(x.layer == l && x.expert == e && x.replica == i)) }
  refine works_ite (hall _ hkept _) (works_ite (hall _ ?_ _) ?_)
  · exact State.bumpCtx_works (hall _ hkept _) ..
  · exact State.bumpCtx_works (hall _ hkept _) ..

/-! ### A removal and its acknowledgements (7 R159) -/

/-- While the active copy still holds a removed replica as active in some user, it is not acknowledged. -/
theorem State.sendAcks_waits (howner : s.imgOwner c = c) (hwait : ∀ k ∈ (s.ctx c).resid.toAck, ∃ u ∈ s.users c, (s.ctx u).removalDone k = false) :
    s.sendAcks c = s.onResid c id := by
  have hnone : (s.ctx c).resid.toAck.filter (fun k => (s.users c).all (fun u => (s.ctx u).removalDone k)) = [] := by
    refine List.filter_eq_nil_iff.mpr fun k hk => ?_
    obtain ⟨u, hu, hdone⟩ := hwait k hk
    simp only [List.all_eq_true, not_forall]
    exact ⟨u, hu, by simp [hdone]⟩
  rw [State.sendAcks, howner, hnone, List.foldl_nil]
  refine State.onCtx_congr ?_
  simp

/-- A removal that is written here during a step. -/
theorem State.removeHere_waits {m : Manifest} {r : Replica} (hc : c < s.ctxs.length) (howner : s.imgOwner c = c) (husers : s.users c = [c])
    (hfree : (s.ctx c).route.other = .free) (hman : (s.ctx c).steps.man = some m)
    (hrep : ((s.ctx c).route.active.expert l e).replicas[i]? = some r) (hact : r.active = true) (hack : (s.ctx c).resid.toAck = [])
    (hrem : (s.ctx c).resid.removals = []) : let t := (s.removeHere c l e i).sendAcks c
      (t.ctx c).resid.toAck = [(l, e, i)] ∧
      (t.ctx c).resid.removals = (if ((s.ctx c).resid.frame l e i).isSome then [⟨l, e, i, [], none⟩] else []) ∧
      (t.ctx c).route.other = .shadow ((s.ctx c).route.active.guide (.deactivate l e i)) ∧
      (t.ctx c).route.active = (s.ctx c).route.active := by
  generalize hu : s.onResid c (fun r => { r with asked := r.asked.filter (fun k => k != (l, e, i)) }) = u
  have huc : c < u.ctxs.length := by rw [← hu, State.onResid, State.onCtx, updAt_length]; exact hc
  obtain ⟨hroute, hsteps⟩ := State.route_of_routed (t := u) (s := s) (by rw [← hu]; exact State.onResid_routed _) c
  have hkinds : u.kinds = s.kinds := by rw [← hu]; exact State.onResid_kinds c _
  have hresid : (u.ctx c).resid = { (s.ctx c).resid with asked := (s.ctx c).resid.asked.filter (fun k => k != (l, e, i)) } := by
    rw [← hu, State.resid_onResid hc]
  have hshare : u.users c = [c] := by rw [State.users_of_kinds hkinds, husers]
  obtain ⟨hmerged, hstep⟩ := State.guideChange_waits (s := u) huc (by rw [hroute, hfree]) (by rw [hsteps, hman]) (.deactivate l e i)
  have hplain := State.guideChange_plain (s := u) c (.deactivate l e i)
  generalize hv : u.guideChange c (.deactivate l e i) = v at hmerged hstep hplain
  have hvc : c < v.ctxs.length := by rw [State.ctxs_length_of_plain hplain]; exact huc
  have hvresid : (v.ctx c).resid = (u.ctx c).resid := State.resid_of_plain hplain c
  have hvkinds : v.kinds = s.kinds := (State.kinds_of_plain hplain).trans hkinds
  generalize hz : v.onResid c (fun q => { q with
    toAck := q.toAck ++ [(l, e, i)]
    removals := if (q.frame l e i).isSome then q.removals ++ [⟨l, e, i, [], none⟩] else q.removals }) = z
  have hzc : c < z.ctxs.length := by rw [← hz, State.onResid, State.onCtx, updAt_length]; exact hvc
  have hremoved : s.removeHere c l e i = z := by
    unfold State.removeHere
    dsimp only
    rw [howner, hu, hack, hrem, if_neg (by simp), State.guideAll_alone hshare, hv, hz]
  have hzkinds : z.kinds = s.kinds := by
    rw [← hz]
    exact (State.onResid_kinds c _).trans hvkinds
  obtain ⟨hzroute, hzsteps⟩ := State.route_of_routed (t := z) (s := v) (by rw [← hz]; exact State.onResid_routed _) c
  have hzresid : (z.ctx c).resid = { (u.ctx c).resid with
      toAck := (u.ctx c).resid.toAck ++ [(l, e, i)]
      removals := if ((u.ctx c).resid.frame l e i).isSome then (u.ctx c).resid.removals ++ [⟨l, e, i, [], none⟩]
        else (u.ctx c).resid.removals } := by
    rw [← hz, State.resid_onResid hvc, hvresid]
  have hundone : (z.ctx c).removalDone (l, e, i) = false := by
    rw [Ctx.removalDone, hzroute, hmerged, hroute]
    simp [hrep, hact]
  have hacks : z.sendAcks c = z.onResid c id := State.sendAcks_waits (by rw [State.imgOwner_of_kinds hzkinds, howner]) (by
    rw [hzresid, hresid, State.users_of_kinds hzkinds, husers]
    intro k hk
    rw [hack] at hk
    rw [List.mem_singleton.mp hk]
    exact ⟨c, List.mem_singleton_self c, hundone⟩)
  obtain ⟨hlast, -⟩ := State.route_of_routed (t := z.onResid c id) (s := z) (State.onResid_routed _) c
  intro t
  have ht : t = z.onResid c id := (congrArg (State.sendAcks · c) hremoved).trans hacks
  rw [ht, State.resid_onResid hzc, id, hlast, hzroute, hmerged, hzresid, hresid, hack, hrem, hroute]
  exact ⟨rfl, rfl, rfl, rfl⟩

/-! ### Acknowledgements that come in (7 R159) -/

theorem updAt_updAt {α : Type} (xs : List α) (n : Nat) (f g : α → α) : updAt (updAt xs n f) n g = updAt xs n (fun x => g (f x)) := by
  induction xs generalizing n with
  | nil => rfl
  | cons x r ih =>
    cases n with
    | zero => rfl
    | succ n => exact congrArg (x :: ·) (ih n)

theorem State.onCtx_onCtx (f g : Ctx → Ctx) : (s.onCtx c f).onCtx c g = s.onCtx c (fun x => g (f x)) := by
  rw [State.onCtx, State.onCtx, State.onCtx]
  exact congrArg (fun cs => { s with ctxs := cs }) (updAt_updAt ..)

/-- What an acknowledgement makes of the only removal under way. -/
theorem State.takeAck_one {src : Nat} {x : Removal} (hrem : (s.ctx (s.imgOwner c)).resid.removals = [x]) (hl : x.layer = l) (he : x.expert = e)
    (hi : x.replica = i) (hopen : x.ackedAt = none) (hnew : src ∉ x.acks) : s.takeAck src c l e i = s.onCtx (s.imgOwner c) (fun z => { z with
      resid := { z.resid with removals := [{ x with
        acks := x.acks ++ [src], ackedAt := if s.allAcked (s.imgOwner c) (x.acks ++ [src]) then some s.now else none }] } }) := by
  have hc : s.imgOwner c < s.ctxs.length := by
    by_contra hout
    have hfresh : s.ctx (s.imgOwner c) = Ctx.fresh := List.getD_eq_default _ _ (by omega)
    rw [hfresh] at hrem
    cases hrem
  unfold State.takeAck State.settleAcks
  dsimp only
  generalize s.imgOwner c = o at hrem hc ⊢
  generalize hu : s.onResid o (fun r => { r with removals := r.removals.map (fun x =>
    if x.layer = l ∧ x.expert = e ∧ x.replica = i ∧ !x.acks.contains src then { x with acks := x.acks ++ [src] } else x) }) = u
  have hall : u.allAcked o = s.allAcked o := by
    funext acks
    have hres : (u.ctx o).resid.resident = (s.ctx o).resid.resident := by rw [← hu, State.resid_onResid hc]
    rw [State.allAcked, State.homes, hres, ← hu]
    rfl
  have hnow : u.now = s.now := by rw [← hu]; rfl
  rw [hall, hnow, ← hu]
  refine (State.onCtx_onCtx ..).trans (State.onCtx_congr ?_)
  have hcond : x.layer = l ∧ x.expert = e ∧ x.replica = i ∧ (!x.acks.contains src) = true := ⟨hl, he, hi, by simp [hnew]⟩
  dsimp only
  rw [hrem, List.map_singleton, List.map_singleton, if_pos hcond]
  cases hacked : s.allAcked o (x.acks ++ [src]) with
  | true => simp [hopen]
  | false => simp [hopen]

theorem State.allAcked_iff (o : Nat) (acks : List Nat) :
    s.allAcked o acks = true ↔ ∀ p ∈ s.board.pkgId :: (s.ctx o).resid.resident, p ∈ acks ∨ p ∈ s.fab.departed := by
  simp [State.allAcked, State.homes]

/-! ### The drain (7 R159) -/

/-- Residency without the frame of a replica. -/
def Resid.without (r : Resid) (l e i : Nat) : Resid :=
  match r.frame l e i with
  | none => r
  | some f => { r with frames := r.frames.filter (fun g => g != f) }

theorem State.resid_freeFrame {o : Nat} (ho : o < s.ctxs.length) (l e i : Nat) :
    ((s.freeFrame o l e i).ctx o).resid = (s.ctx o).resid.without l e i := by
  rw [State.freeFrame, Resid.without]
  cases (s.ctx o).resid.frame l e i with
  | none => rfl
  | some f =>
    refine (congrArg Ctx.resid ((State.ctx_onCtx _ _ _ _ ho).trans (if_pos rfl))).trans ?_
    dsimp only
    rw [Ctx.dropGranules_resid]

/-- The only frame is given up if it is the replica's. -/
theorem Resid.frame_without {r : Resid} {f : Frame} (h : r.frames = [f]) (l e i : Nat) : (r.without l e i).frame l e i = none := by
  rw [Resid.without]
  cases hf : r.frame l e i with
  | none => exact hf
  | some g =>
    have hg : g = f := by
      have hmem := List.mem_of_find?_eq_some hf
      rw [h] at hmem
      exact List.mem_singleton.mp hmem
    simp [Resid.frame, h, hg]

theorem Resid.without_removals (r : Resid) (l e i : Nat) : (r.without l e i).removals = r.removals := by
  rw [Resid.without]
  split <;> rfl

theorem State.freeFrame_length (o l e i : Nat) : (s.freeFrame o l e i).ctxs.length = s.ctxs.length :=
  State.ctxs_length_of_form (State.freeFrame_form ..)

end

/-- Settles O51: heat goes to the leader, entries and removals go into the tables, acknowledgements are counted, and a frame drains. -/
theorem placement : Obligations.Placement := by
  unfold Obligations.Placement
  refine ⟨?_, ?_, ?_, ?_, ?_, ?_, ?_⟩
  · intro c s r
    refine ⟨fun hno => congrArg Host.Outcome.next (if_pos hno), fun hst hdue hrun hheld => ?_⟩
    have hc : c < s.ctxs.length := State.lt_of_active (by rw [hst]; decide)
    have hgo : ¬((s.ctx c).st ≠ .active ∨ s.now < r.lastPlan + r.planPeriod * 100000 ∨ (s.fw fwGuide).st ≠ .running) := by
      rintro (h | h | h)
      · exact h hst
      · omega
      · exact h hrun
    generalize hu : s.onResid c (fun r => { r with lastPlan := s.now, planPolicy := r.policy }) = u
    have huresid : (u.ctx c).resid = { (s.ctx c).resid with lastPlan := s.now, planPolicy := (s.ctx c).resid.policy } := by
      rw [← hu, State.resid_onResid hc]
    have hretry : u.retryHints c = u := State.retryHints_of_none (by rw [huresid]; exact hheld)
    have hleader : u.leader c = s.leader c := State.leader_of_kept (by rw [← hu]; rfl) (by rw [huresid])
    have hpkg : u.board.pkgId = s.board.pkgId := by rw [← hu]; rfl
    have hplan : planPeriod c s = if u.leads c then (if (u.syncShares c).frozen c then u.syncShares c else (u.syncShares c).planReplicas c false)
        else u.sendOpen (u.leader c) 0x31 c ([0x1, u.packageLevel] ++ (r.heat.map (fun e => [e.1, e.2])).flatten) [] := by
      unfold planPeriod
      dsimp only
      rw [if_neg hgo, hu, hretry]
    refine ⟨fun hlead hfreeze => congrArg Host.Outcome.next ?_, fun hother => ?_⟩
    · have hfrozen : u.frozen c = true := by
        rw [State.frozen, huresid]
        exact hfreeze
      have hsync : u.syncShares c = u := if_pos (Or.inr (Or.inr hfrozen))
      rw [hplan, if_pos (State.leads_iff.mpr (by rw [hleader, hpkg, hlead])), hsync, if_pos hfrozen, ← hu]
      rfl
    · have hnot : ¬ u.leads c = true := fun h => hother (by rw [← hleader, State.leads_iff.mp h, hpkg])
      have hlevel : u.packageLevel = s.packageLevel := by rw [← hu]; rfl
      refine ⟨planPeriod c s, rfl, ?_, Config.bodyCode 0x31 ([0x1, s.packageLevel] ++ (r.heat.map (fun e => [e.1, e.2])).flatten) ++ [], ?_⟩
      · rw [hplan, if_neg hnot]
        refine (State.sendMsg_mem ..).trans ?_
        rw [← hu]
        rfl
      · rw [hplan, if_neg hnot, hleader, hlevel]
        exact State.sendMsg_out ..
  · intro src c level k v s hc hst hlead hrun hk hv hfreeze
    have hown := (State.ctx_reported (src := src) (level := level) (heats := [(k, v)]) hc c).trans (if_pos rfl)
    refine ⟨s.reported src c level [(k, v)], congrArg Host.Outcome.next (heatReport_frozen hc hst hlead hrun hfreeze), rfl, ?_,
      Tbl.getD_setD_same .., by rw [hown]⟩
    rw [hown]
    dsimp only [List.foldl_cons, List.foldl_nil]
    rw [Nat.mod_eq_of_lt hk, Nat.mod_eq_of_lt hv, Tbl.getD_setD_same]
  · intro src c level h s hno
    refine congrArg Host.Outcome.next (if_pos ?_)
    rcases hno with h | h | h
    · exact Or.inl h
    · exact Or.inr (Or.inl (by simpa [State.leads] using h))
    · exact Or.inr (Or.inr h)
  · intro c l e i pkg die share on s lead given hc hst hi hmax howner husers hfree hman hbetween hmsgs hexp hlast
    generalize hu : (if s.leads c then s.sendGuide c (entryFields l e i ⟨pkg % 128, die % 4, on, given⟩) (s.ctx c).resid.resident
      else s) = u
    have hentry : replicaEntry c l e i pkg die share on s = u.writeEntry c l e i ⟨pkg % 128, die % 4, on, given⟩ := by
      have hgiven : (if s.leads c = true ∧ (!s.frozen c) = true then s.shareOf (pkg % 128) else share % 256) = given :=
        if_congr (and_congr State.leads_iff (by rw [Bool.not_eq_true']; rfl)) rfl rfl
      unfold replicaEntry
      dsimp only
      rw [if_neg (by simp [hst]; omega), howner, hgiven, hu, if_neg (by simp [hi]), if_neg (by simp [hi])]
    have hctxs : u.ctxs = s.ctxs := by
      rw [← hu]
      split
      · exact State.sendGuide_ctxs ..
      · rfl
    have hctx := State.ctx_of_ctxs hctxs c
    obtain ⟨hreps, hgen⟩ := State.writeEntry_appends (s := u) (c := c) (l := l) (e := e) (i := i) (r := ⟨pkg % 128, die % 4, on, given⟩) (by rw [hctxs]; exact hc) hi hmax
      (by rw [State.users_of_kinds (State.kinds_of_ctxs hctxs), husers]) (by rw [hctx, hfree]) (by rw [hctx, hman]) (by rw [hctx, hbetween])
      (by rw [hctx]; exact hexp) (by rw [hctx]; exact hlast)
    rw [hctx] at hreps hgen
    refine ⟨_, congrArg Host.Outcome.next hentry, (State.mem_of_form (State.writeEntry_form ..)).trans ?_, hreps, hgen, fun hlead p hp hother => ?_⟩
    · rw [← hu]
      split
      · exact State.mem_of_form (State.sendGuide_form ..)
      · rfl
    · obtain ⟨bs, hbs⟩ := State.sendGuide_says (s := s) (c := c) (entryFields l e i ⟨pkg % 128, die % 4, on, given⟩) hp hother
      refine ⟨bs, (State.writeEntry_works (.refl u) ..).out ?_⟩
      rw [← hu, if_pos (State.leads_iff.mpr hlead)]
      exact hbs
  · intro c l e i m r s hc hst hi howner husers hfree hman hrep hact hack hrem hasked
    generalize hu : (if s.leads c then s.sendGuide c [0x4, l, e, i] (s.ctx c).resid.resident else s) = u
    have hremoval : guideRemoval c l e i s = (u.removeHere c l e i).sendAcks c := by
      unfold guideRemoval
      dsimp only
      rw [if_neg (by simp [hst, hi]), howner, ← hu]
      by_cases hlead : s.leads c = true
      · have hretire : s.retire c l e i = (s.sendRemoval c l e i).removeHere c l e i := by
          rw [State.retire, if_neg (by simp [Resid.leaving, hack, hrem, hasked]), if_pos hlead]
        rw [if_pos hlead, if_pos hlead, hretire, State.sendRemoval]
      · rw [if_neg hlead, if_neg hlead]
    have hctxs : u.ctxs = s.ctxs := by
      rw [← hu]
      split
      · exact State.sendGuide_ctxs ..
      · rfl
    have hctx := State.ctx_of_ctxs hctxs c
    obtain ⟨htoAck, hremovals, hother, hactive⟩ := State.removeHere_waits (s := u) (c := c) (l := l) (e := e) (i := i) (m := m) (r := r)
      (by rw [hctxs]; exact hc) (by rw [State.imgOwner_of_kinds (State.kinds_of_ctxs hctxs), howner])
      (by rw [State.users_of_kinds (State.kinds_of_ctxs hctxs), husers]) (by rw [hctx, hfree]) (by rw [hctx, hman]) (by rw [hctx]; exact hrep) hact
      (by rw [hctx, hack]) (by rw [hctx, hrem])
    rw [hctx] at hremovals hother hactive
    refine ⟨_, congrArg Host.Outcome.next hremoval, ?_, htoAck, hremovals, hother, hactive, fun hlead p hp hne => ?_⟩
    · refine (State.mem_of_form ((State.sendAcks_form ..).trans (State.removeHere_form ..))).trans ?_
      rw [← hu]
      split
      · exact State.mem_of_form (State.sendGuide_form ..)
      · rfl
    · obtain ⟨bs, hbs⟩ := State.sendGuide_says (s := s) (c := c) [0x4, l, e, i] hp hne
      refine ⟨bs, (State.sendAcks_works (State.removeHere_works (.refl u) c l e i) c).out ?_⟩
      rw [← hu, if_pos (State.leads_iff.mpr hlead)]
      exact hbs
  · intro src c l e i x s o hrem hl he hi hopen hnew
    refine ⟨_, congrArg Host.Outcome.next (State.takeAck_one hrem hl he hi hopen hnew), rfl, hl, he, hi, ?_⟩
    rw [← State.allAcked_iff]
    cases s.allAcked o (x.acks ++ [src]) with
    | true => simp
    | false => simp
  · intro c l e i n x s o ho hrem hl he hi hacked
    have hfind : (s.ctx o).resid.removals.find? (fun x => x.layer == l && x.expert == e && x.replica == i) = some x := by
      rw [hrem]
      simp [hl, he, hi]
    have hdrain : replicaDrain c l e i s = if s.now ≤ n + (s.ctx o).returnUs * 1000 then s
        else if s.frameRows o l e i then s.onResid o (fun r => r.onFrame l e i (fun f => { f with st := 3 }))
        else ((s.freeFrame o l e i).onResid o (fun r => { r with
          removals := r.removals.filter (fun y => y != x) })).bumpCtx o .replicasRetired 1 := by
      unfold replicaDrain
      dsimp only
      rw [hfind]
      dsimp only
      rw [hacked]
    refine ⟨fun hearly => congrArg Host.Outcome.next (hdrain.trans (if_pos hearly)), fun hlate hrows => congrArg Host.Outcome.next ?_,
      fun hlate hrows => ⟨_, congrArg Host.Outcome.next (hdrain.trans ((if_neg (by omega)).trans (if_neg (by rw [hrows]; decide)))), ?_, ?_, ?_⟩⟩
    · exact hdrain.trans ((if_neg (by omega)).trans (if_pos hrows))
    · exact State.mem_of_form ((State.bumpCtx_form ..).trans ((State.onResid_form ..).trans (State.freeFrame_form ..)))
    · rw [State.resid_of_plain (State.bumpCtx_plain ..), State.resid_onResid (by rw [State.freeFrame_length]; exact ho),
        State.resid_freeFrame ho]
      dsimp only
      rw [Resid.without_removals, hrem]
      simp
    · intro f hf
      rw [State.resid_of_plain (State.bumpCtx_plain ..), State.resid_onResid (by rw [State.freeFrame_length]; exact ho),
        State.resid_freeFrame ho]
      exact Resid.frame_without hf l e i

end Machine
end Sys2Proof
end

section
/-! PROOFS. Fetches of experts: requests, starts, chunks, completions and the eviction of frames (7 R148, R151 to R155, R166, R169). -/

namespace Sys2Proof
namespace Machine

section
variable {s : State} {r : Resid} {f : Fetch} {c l e i p die d : Nat}

/-! ### The arbiter's requests by key -/

theorem Resid.fetch_one (h : r.fetches = [f]) (hl : f.layer = l) (he : f.expert = e) (hi : f.replica = i) : r.fetch l e i = some f := by
  simp [Resid.fetch, h, hl, he, hi]

theorem Resid.onFetch_one (h : r.fetches = [f]) (hl : f.layer = l) (he : f.expert = e) (hi : f.replica = i) (g : Fetch → Fetch) :
    r.onFetch l e i g = { r with fetches := [g f] } := by
  simp [Resid.onFetch, h, hl, he, hi]

theorem Resid.fetch_append (h : r.fetch l e i = none) (hl : f.layer = l) (he : f.expert = e) (hi : f.replica = i) :
    Resid.fetch { r with fetches := r.fetches ++ [f] } l e i = some f := by
  rw [Resid.fetch] at h ⊢
  rw [List.find?_append, h]
  simp [hl, he, hi]

theorem Resid.fetch_dropFetch (r : Resid) (l e i : Nat) : (r.dropFetch l e i).fetch l e i = none := by
  refine List.find?_eq_none.mpr fun x hx hkey => ?_
  obtain ⟨-, hne⟩ := List.mem_filter.mp hx
  simp_all

/-! ### A request (7 R153) -/

/-- The die that a request is for. -/
def State.askedDie (s : State) (c l e i p die : Nat) : Option Nat := if p = 3 ∨ p ≥ 5 then some (die % 4) else s.replicaDie c l e i

theorem State.fetchRequest_new (hframe : (s.ctx (s.imgOwner c)).resid.frame l e i = none) (hdie : s.askedDie c l e i p die = some d)
    (hnew : (s.ctx (s.imgOwner c)).resid.fetch l e i = none) : s.fetchRequest c l e i p die =
      if p = 4 ∧ (s.ctx (s.imgOwner c)).resid.prefetchFull d then s.bumpCtx (s.imgOwner c) .prefetchShed 1
      else s.onResid (s.imgOwner c) (fun r => { r with fetches := r.fetches ++ [⟨l, e, i, d, p, s.now, false, false, 2, 0, 0, []⟩] }) := by
  have hnone : (s.ctx (s.imgOwner c)).resid.fetches.any (fun f => f.layer == l && f.expert == e && f.replica == i) = false := by
    rw [← Bool.not_eq_true, List.any_eq_true]
    rintro ⟨f, hf, hkey⟩
    exact List.find?_eq_none.mp hnew f hf hkey
  unfold State.fetchRequest
  dsimp only
  rw [hframe]
  dsimp only
  rw [← State.askedDie, hdie]
  dsimp only
  rw [hnone, if_neg Bool.false_ne_true]

theorem State.fetchRequest_framed {f : Frame} (hframe : (s.ctx (s.imgOwner c)).resid.frame l e i = some f) :
    s.fetchRequest c l e i p die = if f.st = 1 then s.bumpCtx (s.imgOwner c) .fetchMerged 1 else s := by
  unfold State.fetchRequest
  dsimp only
  rw [hframe]

theorem fetchRequestCmd_asks (hst : (s.ctx c).st = .active) (hp : 1 ≤ p) (hmax : p ≤ 6) (h2 : p ≠ 2) :
    fetchRequestCmd c l e i p die s = s.fetchRequest c l e i p die := by
  rw [fetchRequestCmd, if_neg (by simp [hst]; omega), if_neg h2]

/-! ### A reload (7 R169) -/

theorem State.freeFrame_routed (o l e i : Nat) : (s.freeFrame o l e i).routed = s.routed := by
  rw [State.freeFrame]
  split
  · rfl
  · refine State.onCtx_routed o fun x => ?_
    dsimp only
    exact List.foldlRecOn (motive := fun y : Ctx => y.route = x.route ∧ y.steps = x.steps) _ _ ⟨rfl, rfl⟩ fun _ hy _ _ => hy

theorem State.freeFrame_kinds (o l e i : Nat) : (s.freeFrame o l e i).kinds = s.kinds := by
  rw [State.freeFrame]
  split
  · rfl
  · refine updAt_map_of_eq _ _ fun x => ?_
    dsimp only
    exact List.foldlRecOn (motive := fun y : Ctx => (y.st, y.model) = (x.st, x.model)) _ _ rfl fun _ hy _ _ => hy

theorem Resid.frame_without_all (h : ∀ f ∈ r.frames, f.layer = l → f.expert = e → f.replica = i → r.frame l e i = some f) :
    (r.without l e i).frame l e i = none := by
  rw [Resid.without]
  cases hf : r.frame l e i with
  | none => exact hf
  | some g =>
    refine List.find?_eq_none.mpr fun x hx hkey => ?_
    obtain ⟨hmem, hne⟩ := List.mem_filter.mp hx
    simp only [Bool.and_eq_true, beq_iff_eq] at hkey
    obtain ⟨⟨hl, he⟩, hi⟩ := hkey
    have hsame := h x hmem hl he hi
    rw [hf] at hsame
    cases hsame
    simp at hne

/-- What a reload does to residency: the source is good again, the frame and its fetch go, and a fetch of reload priority waits. -/
theorem State.reload_resid (hc : c < s.ctxs.length) (howner : s.imgOwner c = c)
    (hframes : ∀ f ∈ (s.ctx c).resid.frames, f.layer = l → f.expert = e → f.replica = 0 → (s.ctx c).resid.frame l e 0 = some f)
    (hprim : (((s.ctx c).route.active.expert l e).replicas[0]?).map (fun r => (r.pkg, r.die)) = some (s.board.pkgId, d)) :
    let t := (s.onSource c l e (fun q => { q with bad := false })).reloadHere c l e die
    (t.ctx c).resid.frame l e 0 = none ∧ (t.ctx c).resid.fetch l e 0 = some ⟨l, e, 0, d, 2, s.now, false, false, 2, 0, 0, []⟩ ∧
      (t.ctx c).resid.sources.find (expKey l e) = ((s.ctx c).resid.sources.find (expKey l e)).map (fun q => { q with bad := false }) := by
  generalize hu : s.onSource c l e (fun q => { q with bad := false }) = u
  have huc : c < u.ctxs.length := by rw [← hu, State.onSource, State.onResid, State.onCtx, updAt_length]; exact hc
  have huresid : (u.ctx c).resid = { (s.ctx c).resid with
      sources := (s.ctx c).resid.sources.adjust (expKey l e) (fun q => { q with bad := false }) } := by
    rw [← hu, State.onSource, State.resid_onResid hc]
  generalize hw : (u.freeFrame c l e 0).onResid c (fun r => r.dropFetch l e 0) = w
  have hwc : c < w.ctxs.length := by rw [← hw, State.onResid, State.onCtx, updAt_length, State.freeFrame_length]; exact huc
  have hwresid : (w.ctx c).resid = ((u.ctx c).resid.without l e 0).dropFetch l e 0 := by
    rw [← hw, State.resid_onResid (by rw [State.freeFrame_length]; exact huc), State.resid_freeFrame huc]
  have hkinds : w.kinds = s.kinds := by
    rw [← hw, ← hu]
    exact (State.onResid_kinds ..).trans ((State.freeFrame_kinds ..).trans (State.onResid_kinds ..))
  have hroute : (w.ctx c).route = (s.ctx c).route := by
    refine (State.route_of_routed (t := w) (s := s) ?_ c).1
    rw [← hw, ← hu]
    exact (State.onResid_routed _).trans ((State.freeFrame_routed ..).trans (State.onResid_routed _))
  have howner' : w.imgOwner c = c := by rw [State.imgOwner_of_kinds hkinds, howner]
  have hpkg : w.board.pkgId = s.board.pkgId ∧ w.now = s.now := by
    rw [← hw, ← hu, State.freeFrame]
    split <;> exact ⟨rfl, rfl⟩
  have hframe : (w.ctx c).resid.frame l e 0 = none := by
    rw [hwresid, Resid.dropFetch]
    refine (Resid.frame_without_all (r := (u.ctx c).resid) (l := l) (e := e) (i := 0) ?_)
    rw [huresid]
    exact hframes
  have hdie : w.askedDie c l e 0 2 die = some d := by
    obtain ⟨r, hr, hplace⟩ := Option.map_eq_some_iff.mp hprim
    rw [State.askedDie, if_neg (by decide), State.replicaDie, State.frames, howner', hframe, hroute, hpkg.1]
    dsimp only
    rw [hr]
    dsimp only
    rw [if_pos (congrArg Prod.fst hplace)]
    exact congrArg some (congrArg Prod.snd hplace)
  have hfetch : (w.ctx c).resid.fetch l e 0 = none := by
    rw [hwresid]
    exact Resid.fetch_dropFetch ..
  have hnew := State.fetchRequest_new (s := w) (c := c) (by rw [howner']; exact hframe) hdie (by rw [howner']; exact hfetch)
  rw [if_neg (by simp), howner'] at hnew
  have hresid : ((u.reloadHere c l e die).ctx c).resid = { (w.ctx c).resid with
      fetches := (w.ctx c).resid.fetches ++ [⟨l, e, 0, d, 2, s.now, false, false, 2, 0, 0, []⟩] } := by
    rw [State.reloadHere, hw, hnew, State.resid_onResid hwc, hpkg.2]
  dsimp only
  rw [hresid]
  refine ⟨hframe, Resid.fetch_append hfetch rfl rfl rfl, ?_⟩
  have hsources : (w.ctx c).resid.sources = (u.ctx c).resid.sources := by
    rw [hwresid, Resid.dropFetch, Resid.without]
    split <;> rfl
  dsimp only
  rw [hsources, huresid]
  dsimp only
  rw [Tbl.find_adjust, if_pos rfl]

/-! ### The start of a fetch (7 R151, R153, R155) -/

theorem Ctx.takeGranules_resid (engine : Nat) (x : Ctx) (l : List Nat) : (x.takeGranules engine l).resid = x.resid :=
  List.foldlRecOn (motive := fun y : Ctx => y.resid = x.resid) _ _ rfl fun _ hy _ _ => hy

theorem Resid.frame_append {g : Frame} (h : r.frame l e i = none) (hl : g.layer = l) (he : g.expert = e) (hi : g.replica = i) :
    Resid.frame { r with frames := r.frames ++ [g] } l e i = some g := by
  rw [Resid.frame] at h ⊢
  rw [List.find?_append, h]
  simp [hl, he, hi]

theorem Resid.prefetchFull_one (h : r.fetches = [f]) (hstart : f.started = false) (hprio : f.prio ≠ 4 ∨ 0 < bits r.policy 88 16) :
    ¬ (f.prio = 4 ∧ r.prefetchFull f.die = true) := by
  rintro ⟨h4, hfull⟩
  have hnone : countP (fun (x : Fetch) => x.prio == 4 && x.die == f.die && x.started) r.fetches = 0 := by
    simp [h, countP, hstart]
  rw [Resid.prefetchFull, hnone, decide_eq_true_eq, Resid.prefetchLimit] at hfull
  omega

theorem fetchStart_idle {o : Nat} (ho : s.imgOwner c = o) (hf : (s.ctx o).resid.fetch l e i = some f)
    (h : f.started = true ∨ s.nextFetch o f.die ≠ some (o, f)) : fetchStart c l e i s = s := by
  rw [fetchStart, ho]
  dsimp only
  rw [hf]
  exact if_pos h

theorem fetchStart_shed {o : Nat} (ho : s.imgOwner c = o) (hf : (s.ctx o).resid.fetch l e i = some f) (hstart : f.started = false)
    (hnext : s.nextFetch o f.die = some (o, f)) (h4 : f.prio = 4) (hfull : (s.ctx o).resid.prefetchFull f.die = true) :
    fetchStart c l e i s = (s.onResid o (fun r => r.dropFetch l e i)).bumpCtx o .prefetchShed 1 := by
  rw [fetchStart, ho]
  dsimp only
  rw [hf]
  dsimp only
  rw [if_neg (by simp [hstart, hnext]), if_pos ⟨h4, hfull⟩]

end

section
variable {s : State} {f : Fetch} {c l e i n o : Nat} {p : Nat × Nat} {ps : List (Nat × Nat)}
  (ho : s.imgOwner c = o) (hlen : o < s.ctxs.length) (hone : (s.ctx o).resid.fetches = [f]) (hl : f.layer = l) (he : f.expert = e)
  (hi : f.replica = i) (hstart : f.started = false) (h6 : f.prio ≠ 6) (hnext : s.nextFetch o f.die = some (o, f))
  (hprio : f.prio ≠ 4 ∨ 0 < bits (s.ctx o).resid.policy 88 16) (hcopy : s.copies o f = p :: ps)
  (hup : s.boot.diesUp.getD f.die false = true)

include ho hlen hone hl he hi hstart h6 hnext hprio hcopy hup

/-- With room for its granules the arbiter's next request starts: its frame is FETCHING on free granules of the die. -/
theorem fetchStart_starts (hframe : (s.ctx o).resid.frame l e i = none) (hroom : s.frameGran o ≤ (s.ctx o).granOn 0x6 f.die)
    (hfree : s.frameGran o ≤ (((s.ctx o).pool (2 + f.die)).freeBlocks 4).length) :
    ∃ (t : State) (g : Frame), fetchStart c l e i s = t ∧ t.mem = s.mem ∧
      (t.ctx o).resid.fetches = [{ f with started := true, copy := p.1, source := p.2 }] ∧
      (t.ctx o).resid.frame l e i = some g ∧ g.st = 1 ∧ g.die = f.die ∧ g.granules.length = s.frameGran o ∧
      ∀ a ∈ g.granules, a ∈ ((s.ctx o).pool (2 + f.die)).freeBlocks 4 := by
  let g := (((s.ctx o).pool (2 + f.die)).freeBlocks 4).take (s.frameGran o)
  have hg : g.length = s.frameGran o := List.length_take_of_le hfree
  let u := s.freed.onCtx o (fun x =>
    let y := x.takeGranules 0x6 g
    { y with resid := { (y.resid.onFetch l e i (fun f => { f.reads p with started := true })) with
      frames := y.resid.frames ++ [⟨l, e, i, f.die, 1, g, s.now, false⟩] } })
  have hu : (u.ctx o).resid = { (s.ctx o).resid with
      fetches := [{ f with started := true, copy := p.1, source := p.2 }],
      frames := (s.ctx o).resid.frames ++ [⟨l, e, i, f.die, 1, g, s.now, false⟩] } := by
    refine (congrArg Ctx.resid ((State.ctx_onCtx (s := s.freed) o o _ hlen).trans (if_pos rfl))).trans ?_
    dsimp only
    rw [Ctx.takeGranules_resid, Resid.onFetch_one (r := (s.freed.ctx o).resid) hone hl he hi]
    rfl
  have hkeep : ∃ t : State, fetchStart c l e i s = t ∧ t.mem = s.mem ∧ (t.ctx o).resid = (u.ctx o).resid := by
    have hbump (k : Ctr) : ((u.bumpCtx o k 1).ctx o).resid = (u.ctx o).resid := State.resid_of_plain (State.bumpCtx_plain ..) o
    rw [fetchStart, ho]
    dsimp only
    rw [Resid.fetch_one hone hl he hi]
    dsimp only
    rw [if_neg (by simp [hstart, hnext]), if_neg (Resid.prefetchFull_one hone hstart hprio), hcopy]
    dsimp only
    rw [if_neg h6, if_neg (by rw [hup]; decide), if_neg (Nat.not_lt.mpr hroom)]
    dsimp only
    rw [show s.freed.ctx o = s.ctx o from rfl, show Nat.min _ _ = _ from Nat.min_eq_left hroom, if_neg (by rw [hg]; exact Nat.lt_irrefl _)]
    refine ⟨_, rfl, ?_⟩
    split
    · exact ⟨rfl, hbump _⟩
    · split
      · exact ⟨rfl, hbump _⟩
      · split
        · exact ⟨rfl, hbump _⟩
        · exact ⟨rfl, rfl⟩
  obtain ⟨t, ht, hmem, hresid⟩ := hkeep
  refine ⟨t, ⟨l, e, i, f.die, 1, g, s.now, false⟩, ht, hmem, ?_, ?_, rfl, rfl, hg, fun a ha => List.mem_of_mem_take ha⟩
  · rw [hresid, hu]
  · rw [hresid, hu]
    exact Resid.frame_append (r := { (s.ctx o).resid with
      fetches := [{ f with started := true, copy := p.1, source := p.2 }] }) hframe rfl rfl rfl

/-- Without room, and with nothing to evict, the request waits. -/
theorem fetchStart_waits (hshort : (s.ctx o).granOn 0x6 f.die < s.frameGran o) (hnothing : s.freed.victims o f.die = []) :
    ∃ t : State, fetchStart c l e i s = t ∧ t.mem = s.mem ∧
      (t.ctx o).resid = { (s.ctx o).resid with fetches := [{ f with waited := true }] } := by
  have hevict (k : Nat) : s.freed.evictOn o f.die k = (false, s.freed) := by
    rw [State.evictOn, hnothing]
    rfl
  rw [fetchStart, ho]
  dsimp only
  rw [Resid.fetch_one hone hl he hi]
  dsimp only
  rw [if_neg (by simp [hstart, hnext]), if_neg (Resid.prefetchFull_one hone hstart hprio), hcopy]
  dsimp only
  rw [if_neg h6, if_neg (by rw [hup]; decide), if_pos hshort, hevict]
  dsimp only
  rw [show s.freed.ctx o = s.ctx o from rfl, if_pos (lt_of_le_of_lt (List.length_take_le ..) (lt_of_le_of_lt (Nat.min_le_right ..) hshort))]
  refine ⟨_, rfl, rfl, ?_⟩
  refine (State.resid_of_plain ((State.bumpCtx_plain ..).trans ((State.bumpCtx_plain ..).trans (State.bumpCtx_plain ..))) o).trans ?_
  rw [State.resid_onResid (s := s.freed) hlen]
  exact Resid.onFetch_one hone hl he hi _

end

section
variable {s : State} {f : Fetch} {q : Source} {g : Frame} {c l e i o : Nat}
  (ho : s.imgOwner c = o) (hlen : o < s.ctxs.length) (hone : (s.ctx o).resid.fetches = [f]) (hl : f.layer = l) (he : f.expert = e)
  (hi : f.replica = i) (hstart : f.started = true)

include ho hlen hone hl he hi hstart

/-! ### A chunk of a fetch (7 R148, R152, R166) -/

/-- A chunk whose CRC matches is written at its place in the frame, and the fetch goes on to the next. -/
theorem fetchChunk_writes {part : List Byte} (hmore : f.chunk < ceilDiv (s.imageBytes o) 4096)
    (hsrc : (s.ctx o).resid.sources.find (expKey l e) = some q)
    (hheld : f.copy = 0 → ∃ h : Frame, (s.ctx o).resid.frame l e f.source = some h ∧ 2 ≤ h.st ∧
      part = s.bytesAt (h.chunkAt f.chunk) (Nat.min 4096 (s.imageBytes o - 4096 * f.chunk)))
    (hpoison : f.copy = 0 → s.poison = [])
    (helse : f.copy ≠ 0 → part = (q.image.drop (4096 * f.chunk)).take (Nat.min 4096 (s.imageBytes o - 4096 * f.chunk)))
    (hcrc : Num.crc32c part = q.crcs.getD f.chunk 0) (hframe : (s.ctx o).resid.frame l e i = some g) :
    ∃ t : State, fetchChunk c l e i false s = t ∧ t.mem = (s.writeAt (g.chunkAt f.chunk) part).mem ∧
      (t.ctx o).resid.fetches = [{ f with chunk := f.chunk + 1 }] := by
  have hdone (u : State) (k : Nat) (hu : u.mem = (s.writeAt (g.chunkAt f.chunk) part).mem) (hctxs : u.ctxs = s.ctxs) :
      let t := (u.onResid o (fun r => r.onFetch l e i (fun f => { f with chunk := f.chunk + 1 }))).bumpCtx o .fetchBytes k
      t.mem = (s.writeAt (g.chunkAt f.chunk) part).mem ∧ (t.ctx o).resid.fetches = [{ f with chunk := f.chunk + 1 }] := by
    refine ⟨hu, ?_⟩
    rw [State.resid_of_plain (State.bumpCtx_plain ..), State.resid_onResid (by rw [hctxs]; exact hlen), State.ctx_of_ctxs hctxs,
      Resid.onFetch_one hone hl he hi]
  have hcharge (v : State) (a n : Nat) : (v.charge o a n).mem = v.mem ∧ (v.charge o a n).ctxs = v.ctxs := by
    rw [State.charge_eq]
    exact ⟨rfl, rfl⟩
  rw [fetchChunk, ho]
  dsimp only
  rw [Resid.fetch_one hone hl he hi, hsrc, hframe]
  dsimp only
  rw [if_neg (by simp [hstart]; omega)]
  by_cases h0 : f.copy = 0
  · obtain ⟨h, hh, hst, hpart⟩ := hheld h0
    rw [hh, Option.filter_some, if_pos (decide_eq_true hst), if_neg (by simp)]
    simp only [if_pos h0, Option.map_some, Option.getD_some, State.takePoison_clean (s := s) (by simp [hpoison h0]), ← hpart, hcrc,
      Bool.false_or, bne_self_eq_false, Bool.not_false, if_true]
    refine ⟨_, rfl, hdone _ _ ?_ ?_⟩
    · rw [(hcharge ..).1, if_neg (by rw [h0]; simp)]
    · rw [(hcharge ..).2, if_neg (by rw [h0]; simp)]
      rfl
  · rw [if_neg (by simp [h0])]
    simp only [if_neg h0, Option.map_some, Option.getD_some, ← helse h0, hcrc,
      Bool.false_or, bne_self_eq_false, Bool.not_false, if_true]
    refine ⟨_, rfl, hdone _ _ ?_ ?_⟩
    · rw [(hcharge ..).1]
      split
      · exact congrArg (memWrite · _ _) (hcharge ..).1
      · rfl
    · rw [(hcharge ..).2]
      split
      · exact (hcharge ..).2
      · rfl

/-- A source that fails gives way to the mirror. -/
theorem fetchChunk_mirror {bad : Bool} {k : Nat × Nat} (hmore : f.chunk < ceilDiv (s.imageBytes o) 4096) (h2 : f.copy = 2)
    (hsrc : (s.ctx o).resid.sources.find (expKey l e) = some q)
    (hbad : bad = true ∨ Num.crc32c ((q.image.drop (4096 * f.chunk)).take (Nat.min 4096 (s.imageBytes o - 4096 * f.chunk))) ≠
      q.crcs.getD f.chunk 0)
    (hmirror : q.mirror = some k) (hmirrored : ((s.ctx o).route.active.expert l e).mirrored = true) :
    ∃ t : State, fetchChunk c l e i bad s = t ∧ t.mem = s.mem ∧ (t.ctx o).resid.fetches = [{ f with copy := 3, source := 0 }] ∧
      (t.ctx o).resid.sources.find (expKey l e) = some { q with bad := true } ∧
      ∃ m ∈ t.flt.arriving, m.kind = 0x21 ∧ m.source = 0x80A ∧ m.cls = 0 := by
  rw [fetchChunk, ho]
  dsimp only
  rw [Resid.fetch_one hone hl he hi, hsrc]
  dsimp only
  rw [if_neg (by simp [hstart]; omega), if_neg (by simp [h2])]
  have h0 : ¬ f.copy = 0 := by omega
  simp only [Option.map_some, Option.getD_some, Option.bind_some, hmirror, hmirrored, Option.isSome_some, h2, and_self, if_true]
  rw [if_neg (by simpa [or_iff_not_imp_left] using hbad), if_neg (by decide)]
  have hresid : ((((s.bumpCtx o .weightUe 1).onSource o l e (fun q => { q with bad := true })).onResid o (fun r =>
      r.onFetch l e i (fun f => f.reads (3, 0)))).ctx o).resid = { (s.ctx o).resid with
        sources := (s.ctx o).resid.sources.adjust (expKey l e) (fun q => { q with bad := true }),
        fetches := [{ f with copy := 3, source := 0 }] } := by
    have hlen' : o < (s.bumpCtx o .weightUe 1).ctxs.length := by rw [State.ctxs_length_of_plain (State.bumpCtx_plain ..)]; exact hlen
    rw [State.resid_onResid (by rw [State.onSource, State.onResid, State.onCtx, updAt_length]; exact hlen'), State.onSource,
      State.resid_onResid hlen', State.resid_of_plain (State.bumpCtx_plain ..)]
    exact Resid.onFetch_one (r := { (s.ctx o).resid with
      sources := (s.ctx o).resid.sources.adjust (expKey l e) (fun q => { q with bad := true }) }) hone hl he hi _
  obtain ⟨m, hm, hsource, hkind, hcls⟩ := State.raise_arrives (((s.bumpCtx o .weightUe 1).onSource o l e
    (fun q => { q with bad := true })).onResid o (fun r => r.onFetch l e i (fun f => f.reads (3, 0)))) 0x80A 0x21 0 o 3 (layerExpert l e)
  refine ⟨_, rfl, rfl, ?_, ?_, m, hm, hkind, hsource, hcls⟩
  · exact congrArg Resid.fetches hresid
  · refine (congrArg (fun r : Resid => r.sources.find (expKey l e)) hresid).trans ?_
    dsimp only
    rw [Tbl.find_adjust, if_pos rfl, hsrc, ← hmirror]
    rfl

end

section
variable {s : State} {f : Fetch} {g : Frame} {c l e i o : Nat}

/-! ### The end of a fetch (7 R151) -/

theorem State.handShared_none (h : ∀ k ∈ s.users o, (s.ctx k).rx.batches = []) : s.handShared o = s := by
  have hnone : (s.users o).flatMap (fun k => (s.ctx k).rx.batches.map (fun b => (k, b))) = [] :=
    List.flatMap_eq_nil_iff.mpr fun k hk => by rw [h k hk]; rfl
  rw [State.handShared, hnone]
  rfl

theorem State.rx_onResid (k : Nat) (f : Resid → Resid) : ((s.onResid o f).ctx k).rx = (s.ctx k).rx := by
  simp only [State.onResid, State.ctx, State.onCtx, updAt_getD]
  split
  · next h => rw [h.1]
  · rfl

/-- A demand fetch or prefetch whose chunks are all checked leaves its frame RESIDENT. -/
theorem fetchComplete_resident (ho : s.imgOwner c = o) (hone : (s.ctx o).resid.fetches = [f]) (hl : f.layer = l)
    (he : f.expert = e) (hi : f.replica = i) (hstart : f.started = true) (hall : ceilDiv (s.imageBytes o) 4096 ≤ f.chunk)
    (hprio : f.prio = 1 ∨ f.prio = 4) (hcopy : f.copy ≠ 3) (hframes : (s.ctx o).resid.frames = [g]) (hgl : g.layer = l)
    (hge : g.expert = e) (hgi : g.replica = i) (hidle : ∀ k ∈ s.users o, (s.ctx k).rx.batches = []) :
    fetchComplete c l e i s = s.onCtx o (fun x => { x with resid := { x.resid with
      fetches := [], frames := [{ g with st := 2, stamp := s.now, prefetched := f.prio == 4 }] } }) := by
  generalize hu : ((s.onResid o (fun r => { r with fetches := r.fetches.filter (fun x => x != f) })).onResid o (fun r =>
    r.onFrame l e i (fun g => { g with st := 2, stamp := s.now, prefetched := f.prio == 4 }))) = u
  have hfetched : u.fetched o f = u := by
    rw [State.fetched]
    dsimp only
    rw [if_neg hcopy, if_neg (by omega), if_neg (by omega), if_neg (by omega)]
  have hshared : u.handShared o = u := by
    refine State.handShared_none fun k hk => ?_
    rw [← hu, State.users_of_kinds ((State.onResid_kinds ..).trans (State.onResid_kinds ..))] at hk
    rw [← hu, State.rx_onResid, State.rx_onResid]
    exact hidle k hk
  rw [fetchComplete, ho]
  dsimp only
  rw [Resid.fetch_one hone hl he hi]
  dsimp only
  rw [if_neg (by simp [hstart]; omega), if_neg (by omega), hu, hfetched, hshared, ← hu]
  refine (State.onCtx_onCtx ..).trans (State.onCtx_congr ?_)
  simp [hone, Resid.onFrame, hframes, hgl, hge, hgi]

theorem fetchComplete_early (ho : s.imgOwner c = o) (hf : (s.ctx o).resid.fetch l e i = some f)
    (h : f.started = false ∨ f.chunk < ceilDiv (s.imageBytes o) 4096) : fetchComplete c l e i s = s := by
  rw [fetchComplete, ho]
  dsimp only
  rw [hf]
  exact if_pos (by simpa using h)

/-! ### Eviction for a context's request (7 R154, 11 R240) -/

theorem ctrGet_ctrAdd_other (t : Tbl Nat) {k j : Ctr} (n : Nat) (h : k.ctorIdx ≠ j.ctorIdx) : ctrGet (ctrAdd t k n) j = ctrGet t j := by
  rw [ctrGet, ctrAdd, Tbl.getD_setD, if_neg h, ← ctrGet]

theorem Ctx.dropGranules_ctr (x : Ctx) (ls : List Nat) : (x.dropGranules ls).ctr = ctrAdd x.ctr .khanFrees ls.length :=
  congrArg (fun t => ctrAdd t .khanFrees ls.length)
    (List.foldlRecOn (motive := fun y : Ctx => y.ctr = x.ctr) _ _ rfl fun _ hy _ _ => hy)

/-- The frame of a lone evictable primary goes, and counts. -/
theorem evictItems_frame {ask : State → Option (Nat × Nat) × State} {here : List Nat → Nat} {v : Evicted} {age low : Nat}
    (hf : (s.ctx o).resid.frame l e 0 = some g) (hshort : v.short ≠ 0) (hev : s.frameEvictable o g = true) :
    evictItems o here ask [(age, low, .frame l e 0)] v s =
      (v.got (here g.granules), (s.freeFrame o l e 0).bumpCtx o .evictFrames 1) := by
  rw [evictItems, hf]
  dsimp only
  rw [if_neg (by simp [hshort, hev]), if_pos rfl, evictItems]

theorem kvEviction_frame {grant : Option (Nat × Nat)} {age low : Nat} (h16 : c < 16) (hlen : c < s.ctxs.length)
    (hst : (s.ctx c).st = .active) (hvictims : s.allVictims c = [(age, low, .frame l e 0)])
    (hframes : (s.ctx c).resid.frames = [g]) (hf : (s.ctx c).resid.frame l e 0 = some g) (hev : s.frameEvictable c g = true)
    {want : Nat} (hwant : (s.ctx c).kv.wanted.1 * (s.ctx c).colGran false + (s.ctx c).kv.wanted.2 * (s.ctx c).colGran true = want)
    (hlack : (s.ctx c).kv.covered < want) (henough : want ≤ (s.ctx c).kv.covered + g.granules.length) :
    ∃ t : State, kvEviction c grant s = t ∧ (t.ctx c).kv.wanted = (0, 0) ∧ (t.ctx c).resid.frames = [] ∧
      t.mem = s.mem ∧ t.seqs = s.seqs ∧
      ctrGet (t.ctx c).ctr .evictFrames = Ctr.plus .evictFrames (ctrGet (s.ctx c).ctr .evictFrames) 1 := by
  generalize hu : s.freeFrame c l e 0 = u
  have hulen : c < u.ctxs.length := by rw [← hu, State.freeFrame_length]; exact hlen
  have hresid : (u.ctx c).resid.frames = [] := by
    rw [← hu, State.resid_freeFrame hlen, Resid.without, hf]
    simp [hframes]
  have hctr : ctrGet (u.ctx c).ctr .evictFrames = ctrGet (s.ctx c).ctr .evictFrames := by
    rw [← hu, State.freeFrame, hf]
    refine (congrArg (fun x : Ctx => ctrGet x.ctr .evictFrames) ((State.ctx_onCtx _ _ _ _ hlen).trans (if_pos rfl))).trans ?_
    dsimp only
    rw [Ctx.dropGranules_ctr]
    exact ctrGet_ctrAdd_other _ _ (by decide)
  have hdone : want - (s.ctx c).kv.covered - g.granules.length = 0 := by omega
  have hwalk (ask : State → Option (Nat × Nat) × State) :
      evictItems c List.length ask (s.allVictims c) ⟨want - (s.ctx c).kv.covered, 0, false⟩ s =
        (⟨0, 0 + g.granules.length, false⟩, u.bumpCtx c .evictFrames 1) := by
    rw [hvictims, evictItems_frame hf (by dsimp only; omega) hev, hu, Evicted.got, hdone]
  rw [kvEviction]
  dsimp only
  rw [hwant, if_neg (by simp [hst]; omega), hwalk]
  have hmem : u.mem = s.mem := by rw [← hu]; exact State.mem_of_form (State.freeFrame_form ..)
  have hseqs : u.seqs = s.seqs := by rw [← hu]; exact State.freeFrame_seqs ..
  have hvlen : c < (u.bumpCtx c .evictFrames 1).ctxs.length := by rw [State.ctxs_length_of_plain (State.bumpCtx_plain ..)]; exact hulen
  generalize hv : (u.bumpCtx c .evictFrames 1).onCtx c _ = v
  have hvctx : v.ctx c = { (u.bumpCtx c .evictFrames 1).ctx c with kv := (v.ctx c).kv } ∧ (v.ctx c).kv.wanted = (0, 0) := by
    rw [← hv, State.ctx_onCtx _ _ _ _ hvlen, if_pos rfl]
    exact ⟨rfl, rfl⟩
  have hvlen' : c < v.ctxs.length := by rw [← hv, State.onCtx, updAt_length]; exact hvlen
  refine ⟨_, rfl, ?_, ?_, ?_, ?_, ?_⟩
  · rw [State.ctx_bumpCtx]
    exact hvctx.2
  · rw [State.resid_of_plain (State.bumpCtx_plain ..), hvctx.1]
    exact (congrArg Resid.frames (State.resid_of_plain (State.bumpCtx_plain ..) c)).trans hresid
  · rw [← hv]; exact hmem
  · rw [← hv]; exact hseqs
  · have hother : ctrGet ((v.bumpCtx c .evictBlocked (b2n false)).ctx c).ctr .evictFrames = ctrGet (v.ctx c).ctr .evictFrames := by
      rw [State.bumpCtx, State.ctx, updAt_getD_same _ _ _ _ hvlen']
      exact ctrGet_ctrAdd_other _ _ (by decide)
    refine hother.trans ?_
    rw [hvctx.1]
    exact (State.ctrGet_bumpCtx u .evictFrames 1 hulen).trans (by rw [hctr])

end

/-- Settles O50: a request waits at its die's arbiter or is shed, a fetch starts or waits, its chunks are checked and written, a failed
source gives way to the mirror, the last chunk leaves the frame RESIDENT, and a context's request evicts a frame by age. -/
theorem fetches : Obligations.Fetches := by
  unfold Obligations.Fetches
  refine ⟨?_, ?_, ?_, ?_, ?_, ?_, ?_, ?_, ?_, ?_, ?_⟩
  · intro c l e i p die d s o r running hst hp hmax h2 hframe hforced hplaced
    have hdie : s.askedDie c l e i p die = some d := by
      rw [State.askedDie]
      split
      · next h => rw [hforced (by omega)]
      · next h => exact hplaced (by omega) (by omega)
    have hfull : r.prefetchFull d = true ↔ bits r.policy 88 16 ≤ running := decide_eq_true_iff
    refine ⟨fun hnew hroom => ?_, fun hnew h4 hover => ?_⟩
    · refine congrArg Host.Outcome.next ((fetchRequestCmd_asks hst hp hmax h2).trans
        ((State.fetchRequest_new hframe hdie hnew).trans (if_neg ?_)))
      rintro ⟨h4, h⟩
      exact absurd (hfull.mp h) (by omega)
    · exact congrArg Host.Outcome.next ((fetchRequestCmd_asks hst hp hmax h2).trans
        ((State.fetchRequest_new hframe hdie hnew).trans (if_pos ⟨h4, hfull.mpr hover⟩)))
  · intro c l e i die d s hc hst howner hframes hprim
    refine ⟨(s.onSource c l e (fun q => { q with bad := false })).reloadHere c l e die, ?_, ?_, State.reload_resid hc howner hframes hprim⟩
    · refine congrArg Host.Outcome.next ?_
      rw [fetchRequestCmd, if_neg (by simp [hst]), if_pos rfl, howner]
    · exact (State.mem_of_form (State.reloadHere_form ..)).trans rfl
  · intro c l e i p die f s hst hp hmax h2 hframe
    exact congrArg Host.Outcome.next ((fetchRequestCmd_asks hst hp hmax h2).trans (State.fetchRequest_framed hframe))
  · intro c l e i p die s h
    exact congrArg Host.Outcome.next (if_pos h)
  · intro c l e i f p ps s o r n hlen hone hl he hi hstart h6 hnext hprio hcopy hframe hup
    refine ⟨fun hroom hfree => ?_, fun hshort hnothing => ?_⟩
    · obtain ⟨t, g, ht, hrest⟩ := fetchStart_starts rfl hlen hone hl he hi hstart h6 hnext hprio hcopy hup hframe hroom hfree
      exact ⟨t, g, congrArg Host.Outcome.next ht, hrest⟩
    · obtain ⟨t, ht, hrest⟩ := fetchStart_waits rfl hlen hone hl he hi hstart h6 hnext hprio hcopy hup hshort hnothing
      exact ⟨t, congrArg Host.Outcome.next ht, hrest⟩
  · intro c l e i f s o hf
    exact ⟨fun h => congrArg Host.Outcome.next (fetchStart_idle rfl hf h), fun hstart hnext h4 hfull =>
      congrArg Host.Outcome.next (fetchStart_shed rfl hf hstart hnext h4 (decide_eq_true hfull))⟩
  · intro c l e i f q g h s o a len part hlen hone hl he hi hstart hmore hsrc hheld hcrc hframe
    obtain ⟨t, ht, hmem, hfetches⟩ := fetchChunk_writes (part := part) rfl hlen hone hl he hi hstart hmore hsrc
      (fun h0 => ⟨h, (hheld h0).1, (hheld h0).2.1, if_pos h0⟩) (fun h0 => (hheld h0).2.2) (fun h0 => if_neg h0) hcrc hframe
    have hbyte (b : Nat) : t.byteAt b = (s.writeAt a part).byteAt b := by
      rw [State.byteAt, hmem, ← State.byteAt]
      rfl
    refine ⟨t, congrArg Host.Outcome.next ht, ?_, fun b hb => ?_, hfetches⟩
    · exact (State.bytesAt_congr fun x _ _ => hbyte x).trans (State.bytesAt_writeAt_same ..)
    · rw [hbyte, State.byteAt_writeAt, if_neg (by omega)]
  · intro c l e i f q k bad s o len hlen hone hl he hi hstart hmore h2 hsrc hbad hmirror hmirrored
    obtain ⟨t, ht, hrest⟩ := fetchChunk_mirror rfl hlen hone hl he hi hstart hmore h2 hsrc hbad hmirror hmirrored
    exact ⟨t, congrArg Host.Outcome.next ht, hrest⟩
  · intro c l e i f g s o hlen hone hl he hi hstart hall hprio hcopy hframes hgl hge hgi hidle
    exact congrArg Host.Outcome.next (fetchComplete_resident rfl hone hl he hi hstart hall hprio hcopy hframes hgl hge hgi hidle)
  · intro c l e i f s hf h
    exact congrArg Host.Outcome.next (fetchComplete_early rfl hf h)
  · intro c age low l e f g s h16 hlen hst hvictims hframes hf hev want hlack henough
    obtain ⟨t, ht, hrest⟩ := kvEviction_frame (grant := g) h16 hlen hst hvictims hframes hf hev rfl hlack henough
    exact ⟨t, congrArg Host.Outcome.next ht, hrest⟩

end Machine
end Sys2Proof
end

section
/-! PROOFS. Reception: notes, rows, batches, the answers of the dies and retire notices (5 R106, R115 to R117, R122). -/

namespace Sys2Proof
namespace Machine

/-! ### What settling a batch changes -/

/-- A batch after it may have closed and been handed over. -/
structure Batch.Settles (b y : Batch) : Prop where
  same   : { y with closed := b.closed, closedAt := b.closedAt, handed := b.handed } = b
  closed : b.closed = true → y.closed = true
  handed : b.handed = true → y.handed = true

/-- Reception whose batches may have closed and been handed over, the rest as it was. -/
structure Rx.Settles (r r' : Rx) : Prop where
  same : { r' with batches := [] } = { r with batches := [] }
  from_ : ∀ y ∈ r'.batches, ∃ b ∈ r.batches, b.Settles y
  onto : ∀ b ∈ r.batches, ∃ y ∈ r'.batches, b.Settles y

/-- A state in which one context's batches may have closed and been handed over: the other receptions and the fabric are as they
were. -/
structure State.Settles (c : Nat) (s t : State) : Prop where
  fab    : t.fab = s.fab
  length : t.ctxs.length = s.ctxs.length
  others : ∀ d, d ≠ c → (t.ctx d).rx = (s.ctx d).rx
  rx     : (s.ctx c).rx.Settles (t.ctx c).rx

theorem Batch.Settles.refl (b : Batch) : b.Settles b := ⟨rfl, id, id⟩

theorem Batch.Settles.trans {a b d : Batch} (h : a.Settles b) (h' : b.Settles d) : a.Settles d := by
  refine ⟨?_, fun ha => h'.closed (h.closed ha), fun ha => h'.handed (h.handed ha)⟩
  have hab := h.same
  rw [← h'.same] at hab
  exact hab

theorem Batch.Settles.key {b y : Batch} (h : b.Settles y) (l e i : Nat) : y.key l e i = b.key l e i := by
  rw [← h.same]
  rfl

theorem Batch.Settles.rows {b y : Batch} (h : b.Settles y) : y.rows = b.rows := by
  rw [← h.same]

theorem Rx.Settles.refl (r : Rx) : r.Settles r := ⟨rfl, fun y hy => ⟨y, hy, .refl y⟩, fun y hy => ⟨y, hy, .refl y⟩⟩

theorem Rx.Settles.trans {p q r : Rx} (h : p.Settles q) (h' : q.Settles r) : p.Settles r := by
  refine ⟨h'.same.trans h.same, fun y hy => ?_, fun b hb => ?_⟩
  · obtain ⟨x, hx, hxy⟩ := h'.from_ y hy
    obtain ⟨b, hb, hbx⟩ := h.from_ x hx
    exact ⟨b, hb, hbx.trans hxy⟩
  · obtain ⟨x, hx, hbx⟩ := h.onto b hb
    obtain ⟨y, hy, hxy⟩ := h'.onto x hx
    exact ⟨y, hy, hbx.trans hxy⟩

theorem Rx.Settles.notes {r r' : Rx} (h : r.Settles r') : r'.notes = r.notes := by
  have hnotes := congrArg Rx.notes h.same
  exact hnotes

theorem Rx.Settles.retired {r r' : Rx} (h : r.Settles r') : r'.retired = r.retired := by
  have hretired := congrArg Rx.retired h.same
  exact hretired

section
variable {s t u : State} {c l e i : Nat}

theorem State.Settles.refl (c : Nat) (s : State) : s.Settles c s := ⟨rfl, rfl, fun _ _ => rfl, .refl _⟩

theorem State.Settles.trans (h : s.Settles c t) (h' : t.Settles c u) : s.Settles c u :=
  ⟨h'.fab.trans h.fab, h'.length.trans h.length, fun d hd => (h'.others d hd).trans (h.others d hd), h.rx.trans h'.rx⟩

theorem State.rx_of_homing (h : t.homing = s.homing) (d : Nat) : (t.ctx d).rx = (s.ctx d).rx := by
  have hpair := congrArg (fun l : List (List Nat × Rx) => l.getD d (Ctx.fresh.resid.resident, Ctx.fresh.rx)) h
  rw [State.getD_homing, State.getD_homing] at hpair
  exact congrArg Prod.snd hpair

theorem State.Settles.of_homing (hfab : t.fab = s.fab) (h : t.homing = s.homing) : s.Settles c t :=
  ⟨hfab, by simpa [State.homing] using congrArg List.length h, fun d _ => State.rx_of_homing h d, by rw [State.rx_of_homing h]; exact .refl _⟩

theorem State.rx_onRx_other {d : Nat} (h : d ≠ c) (f : Rx → Rx) : ((s.onRx c f).ctx d).rx = (s.ctx d).rx := by
  simp only [State.onRx, State.ctx, State.onCtx, updAt_getD]
  rw [if_neg fun hd => h hd.1.symm]

theorem State.rx_onRx (hc : c < s.ctxs.length) (f : Rx → Rx) : ((s.onRx c f).ctx c).rx = f (s.ctx c).rx := by
  rw [State.onRx, State.ctx_onCtx _ _ _ _ hc, if_pos rfl]

theorem State.Settles.onRx {f : Rx → Rx} (h : (s.ctx c).rx.Settles (f (s.ctx c).rx)) : s.Settles c (s.onRx c f) := by
  refine ⟨rfl, updAt_length .., fun d hd => State.rx_onRx_other hd f, ?_⟩
  by_cases hc : c < s.ctxs.length
  · rw [State.rx_onRx hc]
    exact h
  · simp only [State.onRx, State.ctx, State.onCtx, updAt_getD]
    rw [if_neg fun h => hc h.2]
    exact .refl _

theorem settles_foldl {α : Type} {f : State → α → State} (l : List α) (h : ∀ (t : State) a, t.Settles c (f t a)) : s.Settles c (l.foldl f s) :=
  List.foldlRecOn (motive := fun t : State => s.Settles c t) _ _ (.refl c s) fun _ ht _ _ => ht.trans (h _ _)

/-! ### The hand-over and the close of a batch (5 R117) -/

theorem State.onCtx_homing (k : Nat) {f : Ctx → Ctx} (h : ∀ x, ((f x).resid.resident, (f x).rx) = (x.resid.resident, x.rx)) :
    (s.onCtx k f).homing = s.homing := updAt_map_of_eq _ _ h

theorem State.bumpCtx_homing (k : Nat) (r : Ctr) (n : Nat) : (s.bumpCtx k r n).homing = s.homing := State.onCtx_homing k fun _ => by rfl

theorem State.raiseRated_keeps (source kind ctx dtype detail : Nat) : (s.raiseRated source kind ctx dtype detail).ctxs = s.ctxs ∧
    (s.raiseRated source kind ctx dtype detail).fab = s.fab := by
  unfold State.raiseRated
  split
  · split <;> exact ⟨rfl, rfl⟩
  · exact ⟨rfl, rfl⟩

theorem State.homing_of_ctxs (h : t.ctxs = s.ctxs) : t.homing = s.homing := by rw [State.homing, h, ← State.homing]

theorem State.handBatch_settles (c : Nat) (b : Batch) (d : Nat) : s.Settles c (s.handBatch c b d) := by
  have hkeep {α : Type} {f : State → α → State} (l : List α) (v : State) (hf : ∀ t a, (f t a).ctxs = t.ctxs ∧ (f t a).fab = t.fab) :
      (l.foldl f v).ctxs = v.ctxs ∧ (l.foldl f v).fab = v.fab :=
    List.foldlRecOn (motive := fun t : State => t.ctxs = v.ctxs ∧ t.fab = v.fab) _ _ ⟨rfl, rfl⟩ fun t ht a _ =>
      ⟨(hf t a).1.trans ht.1, (hf t a).2.trans ht.2⟩
  unfold State.handBatch
  dsimp only
  generalize h1 : List.foldl _ s b.order = s1
  have hrows : s1.ctxs = s.ctxs ∧ s1.fab = s.fab := by rw [← h1]; exact hkeep _ s fun _ _ => ⟨rfl, rfl⟩
  generalize h2 : List.foldl _ s1 b.pads = s2
  have hpads : s2.ctxs = s1.ctxs ∧ s2.fab = s1.fab := by
    rw [← h2]
    exact hkeep _ s1 fun t a => hkeep _ t fun _ _ => ⟨rfl, rfl⟩
  refine .of_homing (hpads.2.trans hrows.2) ((State.onResid_homing _ fun _ => by rfl).trans ((State.bumpCtx_homing ..).trans
    ((State.bumpCtx_homing ..).trans (State.homing_of_ctxs (hpads.1.trans hrows.1)))))

theorem handAll_settles (c : Nat) (l : List Batch) : s.Settles c (handAll c l s) := by
  induction l generalizing s with
  | nil => exact .refl c s
  | cons b rest ih =>
    rw [handAll]
    split
    · split
      · refine ((State.handBatch_settles c b _).trans (.onRx ?_)).trans ih
        refine ⟨rfl, fun y hy => ?_, fun x hx => ⟨_, List.mem_map_of_mem hx, ?_⟩⟩
        · obtain ⟨x, hx, rfl⟩ := List.mem_map.mp hy
          refine ⟨x, hx, ?_⟩
          split
          · exact ⟨rfl, id, fun _ => rfl⟩
          · exact .refl x
        · split
          · exact ⟨rfl, id, fun _ => rfl⟩
          · exact .refl x
      · exact ih
    · exact ih

theorem Rx.close_settles (r : Rx) (l e i now : Nat) : r.Settles (r.close l e i now) := by
  have hclosed (b : Batch) (h : (b.key l e i && !b.closed) = true) : b.Settles { b with closed := true, closedAt := now } :=
    ⟨rfl, fun _ => rfl, id⟩
  refine ⟨rfl, fun y hy => ?_, fun b hb => ?_⟩
  · rcases List.mem_append.mp hy with hy | hy
    · exact ⟨y, List.mem_of_mem_filter hy, .refl y⟩
    · obtain ⟨b, hb, rfl⟩ := List.mem_map.mp hy
      obtain ⟨hmem, hopen⟩ := List.mem_filter.mp hb
      exact ⟨b, hmem, hclosed b hopen⟩
  · by_cases hopen : (b.key l e i && !b.closed) = true
    · exact ⟨_, List.mem_append_right _ (List.mem_map_of_mem (List.mem_filter.mpr ⟨hb, hopen⟩)), hclosed b hopen⟩
    · exact ⟨b, List.mem_append_left _ (List.mem_filter.mpr ⟨hb, (Bool.not_eq_true' _).mpr (Bool.eq_false_iff.mpr hopen)⟩), .refl b⟩

theorem Rx.close_closed {r : Rx} {now : Nat} : ∀ b ∈ (r.close l e i now).batches, b.key l e i = true → b.closed = true := by
  intro b hb hkey
  rcases List.mem_append.mp hb with hb | hb
  · have hopen := (List.mem_filter.mp hb).2
    simpa [hkey] using hopen
  · obtain ⟨x, -, rfl⟩ := List.mem_map.mp hb
    rfl

theorem State.settleRow_settles (c l e i : Nat) : s.Settles c (s.settleRow c l e i) := by
  unfold State.settleRow
  dsimp only
  split
  · exact handAll_settles ..
  · exact (State.Settles.onRx (Rx.close_settles ..)).trans (handAll_settles ..)

theorem State.settleNote_settles (c : Nat) (n : RxNote) : s.Settles c (s.settleNote c n) :=
  settles_foldl _ fun _ _ => State.settleRow_settles ..

/-! ### Requests and messages keep reception -/

theorem State.fetchRequest_homing (c l e i prio die : Nat) : (s.fetchRequest c l e i prio die).homing = s.homing := by
  unfold State.fetchRequest
  dsimp only
  split
  · exact homing_ite (State.bumpCtx_homing ..) rfl
  · split
    · rfl
    · exact homing_ite (State.onResid_homing _ fun _ => by rfl) (homing_ite (State.bumpCtx_homing ..) (State.onResid_homing _ fun _ => by rfl))

theorem State.fetchRequest_fab (c l e i prio die : Nat) : (s.fetchRequest c l e i prio die).fab = s.fab := by
  unfold State.fetchRequest
  dsimp only
  split
  · split <;> rfl
  · split
    · rfl
    · split
      · rfl
      · split <;> rfl

theorem State.fetchRequest_settles (k c l e i prio die : Nat) : s.Settles k (s.fetchRequest c l e i prio die) :=
  .of_homing (State.fetchRequest_fab ..) (State.fetchRequest_homing ..)

theorem State.sendMsg_homing (dst type k : Nat) (fields : List Nat) (body : List Byte) : (s.sendMsg dst type k fields body).homing = s.homing :=
  State.homing_of_plain (State.plain_of_bare (State.sendMsg_bare ..))

theorem State.sendMsg_heldRx (dst type k : Nat) (fields : List Nat) (body : List Byte) :
    (s.sendMsg dst type k fields body).fab.heldRx = s.fab.heldRx ∧ (s.sendMsg dst type k fields body).ctxs = s.ctxs := by
  unfold State.sendMsg
  dsimp only
  split <;> exact ⟨rfl, rfl⟩

theorem State.serveRx_none (h : s.fab.heldRx = []) : s.serveRx = s := by
  rw [State.serveRx, h]
  rfl

theorem State.heldFrom_none {src : Nat} (h : s.fab.heldRx = []) : s.heldFrom src = false := by
  rw [State.heldFrom, h]
  rfl

/-! ### Notes (5 R116) -/

variable {src h bill : Nat} {es : List Nat} {bs : List Byte}

theorem noteReceive_now (hbooted : s.booted = true) (hfree : s.fab.heldRx = []) : noteReceive src h es s = s.noteNow src h es := by
  rw [noteReceive, if_neg (by rw [hbooted]; decide), State.heldFrom_none hfree, if_neg (by decide)]

theorem State.noteNow_damaged (hcrc : noteCrcOk h = false) :
    src ∈ (s.noteNow src h es).fab.noNote ∧ ∀ c, ((s.noteNow src h es).ctx c).rx = (s.ctx c).rx := by
  rw [State.noteNow]
  dsimp only
  rw [if_pos (by rw [hcrc]; rfl)]
  refine ⟨?_, fun c => State.rx_of_homing ((State.bumpCtx_homing ..).trans rfl) c⟩
  change src ∈ (if s.fab.noNote.contains src then s.fab.noNote else s.fab.noNote ++ [src])
  split
  · next h => exact List.contains_iff_mem.mp h
  · exact List.mem_append_right _ (List.mem_singleton_self _)

theorem State.noteNow_absent (hcrc : noteCrcOk h = true) (hst : (s.ctx (bits h 16 4)).st ≠ .active) :
    s.noteNow src h es = { s with fab := { s.fab with noNote := s.fab.noNote.filter (fun p => p != src) } } := by
  rw [State.noteNow]
  dsimp only
  rw [if_neg (by rw [hcrc]; decide)]
  exact if_pos hst

/-- The record of a note at its arrival (5 R116, Table 5-4). -/
def RxNote.arriving (id src h now : Nat) (es : List Nat) : RxNote :=
  ⟨id, src, bits h 0 16, bits h 27 9, bit h 36, bit h 37, bit h 38, bit h 39, bits h 40 17, bits h 64 18, bits h 100 5,
    es.map (fun w => (bits w 0 16, bits w 16 4, bits w 20 18, bits w 38 18, 0)), now, 0, false⟩

/-- Reception with a note that has arrived. -/
def Rx.noted (r : Rx) (src h now : Nat) (es : List Nat) : Rx :=
  { r with
    nextNote := r.nextNote + 1
    retired := r.retired.filter (fun e => e != (src, bits h 0 16))
    notes := r.notes.filter (fun n => !(n.expired && n.src == src)) ++ [.arriving r.nextNote src h now es] }

/-- An intact note joins the notes of its context, and its home's rows are taken again. -/
theorem State.noteNow_kept (hc : c < s.ctxs.length) (hctx : bits h 16 4 = c) (hcrc : noteCrcOk h = true) (hst : (s.ctx c).st = .active)
    (hrows : 0 < bits h 64 18) :
    let t := s.noteNow src h es
    src ∉ t.fab.noNote ∧ ∃ n ∈ (t.ctx c).rx.notes, n.id = (s.ctx c).rx.nextNote ∧ (t.ctx c).rx.nextNote = (s.ctx c).rx.nextNote + 1 ∧
      n.src = src ∧ n.epoch = bits h 0 16 ∧ n.layer = bits h 27 9 ∧ n.convoyB = h.testBit 36 ∧ n.rows = bits h 64 18 ∧ n.arrived = s.now ∧
      n.got = 0 ∧ n.expired = false ∧ (src, bits h 0 16) ∉ (t.ctx c).rx.retired ∧
      n.entries = es.map (fun w => (bits w 0 16, bits w 16 4, bits w 20 18, bits w 38 18, 0)) := by
  dsimp only
  rw [State.noteNow]
  dsimp only
  rw [if_neg (by rw [hcrc]; decide), hctx, if_neg (not_not.mpr hst)]
  generalize h1 : { s with fab := { s.fab with noNote := s.fab.noNote.filter (fun p => p != src) } } = s1
  have hs1 : s1.ctxs = s.ctxs ∧ s1.fab.noNote = s.fab.noNote.filter (fun p => p != src) := by rw [← h1]; exact ⟨rfl, rfl⟩
  generalize h2 : s1.onRx c _ = s2
  have hs2 : (s2.ctx c).rx = (s.ctx c).rx.noted src h s.now es := by
    rw [← h2, State.rx_onRx (by rw [hs1.1]; exact hc), State.ctx_of_ctxs hs1.1]
    rfl
  generalize h3 : List.foldl _ s2 _ = s3
  have hs3 : s2.Settles c s3 := by
    rw [← h3]
    refine settles_foldl _ fun t e => ?_
    split
    · exact .refl c t
    · split
      · exact State.fetchRequest_settles ..
      · exact .refl c t
  have hrx : ((s3.onRx c (fun r => { r with notes := r.notes.filter (fun n => n.rows != 0) })).ctx c).rx =
      { (s3.ctx c).rx with notes := (s3.ctx c).rx.notes.filter (fun n => n.rows != 0) } :=
    State.rx_onRx (by rw [hs3.length, ← h2, State.onRx, State.onCtx, updAt_length, hs1.1]; exact hc) _
  have hnext : (s3.ctx c).rx.nextNote = (s.ctx c).rx.nextNote + 1 := by
    have hkept := congrArg Rx.nextNote hs3.rx.same
    rw [hs2] at hkept
    exact hkept
  rw [hrx]
  dsimp only
  rw [hs3.rx.notes, hs3.rx.retired, hs2, hnext]
  refine ⟨?_, RxNote.arriving (s.ctx c).rx.nextNote src h s.now es, List.mem_filter.mpr ⟨List.mem_append_right _ (List.mem_singleton_self _), ?_⟩,
    rfl, rfl, rfl, rfl, rfl, rfl, rfl, rfl, rfl, rfl, ?_, rfl⟩
  · have hfab : (s3.onRx c (fun r => { r with notes := r.notes.filter (fun n => n.rows != 0) })).fab.noNote = s1.fab.noNote := by
      refine (congrArg Fabric.noNote hs3.fab).trans ?_
      rw [← h2]
      rfl
    rw [hfab, hs1.2]
    simp
  · exact bne_iff_ne.mpr (Nat.pos_iff_ne_zero.mp hrows)
  · simp [Rx.noted]

/-! ### Rows (5 R115 to R117) -/

theorem rowReceive_now (hbooted : s.booted = true) (hfree : s.fab.heldRx = []) :
    rowReceive src bill bs s = (s.rowNow src bill bs).getD (s.holdRx ⟨src, 0, bill, [], bs⟩) := by
  rw [rowReceive, if_neg (by rw [hbooted]; decide), State.heldFrom_none hfree, if_neg (by decide)]

theorem State.lt_of_note {n : RxNote} (h : n ∈ (s.ctx c).rx.notes) : c < s.ctxs.length := by
  by_contra hout
  rw [State.ctx, List.getD_eq_default _ _ (Nat.not_lt.mp hout)] at h
  cases h

/-- The notes once one row of a key of one of them is taken. -/
def Rx.took (r : Rx) (n : RxNote) (e i : Nat) : List RxNote :=
  (r.notes.map (fun x => if x.id = n.id then x.take e i else x)).filter (fun x => decide (x.got < x.rows))

theorem State.rowGone_keeps {n : RxNote} : ∀ d, d ≠ c → ((s.rowGone c n e i).ctx d).rx = (s.ctx d).rx := fun d hd =>
  ((State.settleRow_settles ..).others d hd).trans (State.rx_onRx_other hd _)

theorem State.rowGone_notes {n : RxNote} (hc : c < s.ctxs.length) : ((s.rowGone c n e i).ctx c).rx.notes = (s.ctx c).rx.took n e i := by
  rw [State.rowGone, (State.settleRow_settles ..).rx.notes, State.rx_onRx hc]
  dsimp only
  generalize (if (s.refuse c n.layer e i).isSome = true then 0 else n.pads e i) = k
  have hpads : (if k = 0 then (s.ctx c).rx else (s.ctx c).rx.addPads n.layer e i s.now n.fixed (n.epoch, n.convoyB, k)).notes =
      (s.ctx c).rx.notes := by
    split
    · rfl
    · unfold Rx.addPads
      dsimp only
      split <;> rfl
  rw [hpads]
  rfl

theorem State.nextRow_of_homing (h : t.homing = s.homing) (src : Nat) : t.nextRow src = s.nextRow src := by
  simp only [State.nextRow, State.rx_of_homing h]

theorem minBy_mem {α : Type} {key : α → Nat} {x : α} {l : List α} (h : minBy key l = some x) : x ∈ l := by
  induction l generalizing x with
  | nil => cases h
  | cons a r ih =>
    rw [minBy] at h
    split at h
    · cases h
      exact List.mem_cons_self
    · next y hy =>
      split at h <;> cases h
      · exact List.mem_cons_of_mem _ (ih hy)
      · exact List.mem_cons_self

theorem State.nextRow_note {n : RxNote} {src : Nat} (h : s.nextRow src = some (c, n, e, i)) : n ∈ (s.ctx c).rx.notes := by
  obtain ⟨x, hmin, hentry⟩ := Option.bind_eq_some_iff.mp h
  obtain ⟨y, -, hy⟩ := Option.map_eq_some_iff.mp hentry
  cases hy
  obtain ⟨k, -, hk⟩ := List.mem_flatMap.mp (minBy_mem hmin)
  obtain ⟨m, hm, hpair⟩ := List.mem_map.mp hk
  cases hpair
  exact List.mem_of_mem_filter hm

theorem Rx.addRow_holds (r : Rx) (b : Bill) (x : RxRow) (now : Nat) (pads : List (Nat × Bool × Nat)) (fixed : Bool) :
    ∃ z ∈ (r.addRow b x now pads fixed).batches, z.layer = b.layer ∧ z.expert = b.expert ∧ z.replica = b.replica ∧ x ∈ z.rows := by
  unfold Rx.addRow
  dsimp only
  split
  · next hany =>
    obtain ⟨y, hy, hopen⟩ := List.any_eq_true.mp hany
    refine ⟨_, List.mem_map_of_mem hy, ?_⟩
    rw [if_pos hopen]
    simp only [Batch.key, Bool.and_eq_true, beq_iff_eq] at hopen
    obtain ⟨⟨⟨hl, he⟩, hi⟩, -⟩ := hopen
    exact ⟨hl, he, hi, List.mem_append_right _ (List.mem_singleton_self _)⟩
  · exact ⟨_, List.mem_append_right _ (List.mem_singleton_self _), rfl, rfl, rfl, List.mem_singleton_self _⟩

/-- An accepted row stands in a batch of its key. -/
theorem State.acceptRow_holds (hc : (Bill.read bill).ctx < s.ctxs.length) :
    let b := Bill.read bill
    ∃ (z : Batch) (x : RxRow), z ∈ ((s.acceptRow src bill bs).ctx b.ctx).rx.batches ∧ z.layer = b.layer ∧ z.expert = b.expert ∧
      z.replica = b.replica ∧ x ∈ z.rows ∧ x.bill = bill ∧ x.src = src ∧ x.data = bs := by
  unfold State.acceptRow
  dsimp only
  generalize hb : Bill.read bill = b at hc ⊢
  generalize ((s.ctx b.ctx).rx.noteFor src b) = n
  generalize hx : RxRow.mk _ bill src _ bs = x
  generalize h1 : s.onRx b.ctx _ = s1
  have hadd : ∃ z ∈ (s1.ctx b.ctx).rx.batches, z.layer = b.layer ∧ z.expert = b.expert ∧ z.replica = b.replica ∧ x ∈ z.rows := by
    rw [← h1, State.rx_onRx hc]
    exact Rx.addRow_holds ..
  obtain ⟨z, hz, hl, he, hi, hrow⟩ := hadd
  have hbump (t : State) (k : Nat) (r : Ctr) (m : Nat) : t.Settles b.ctx (t.bumpCtx k r m) := .of_homing rfl (State.bumpCtx_homing ..)
  have hsettled {p q : Prop} [Decidable p] [Decidable q] (u : State) (hu : s1.Settles b.ctx u) : s1.Settles b.ctx
      (if p then (if q then u.fetchRequest b.ctx b.layer b.expert b.replica 1 0 else u)
        else (if q then u.fetchRequest b.ctx b.layer b.expert b.replica 1 0 else u).settleRow b.ctx b.layer b.expert b.replica) := by
    have hfetch : s1.Settles b.ctx (if q then u.fetchRequest b.ctx b.layer b.expert b.replica 1 0 else u) := by
      split
      · exact hu.trans (State.fetchRequest_settles ..)
      · exact hu
    split
    · exact hfetch
    · exact hfetch.trans (State.settleRow_settles ..)
  suffices hheld : ∀ t : State, s1.Settles b.ctx t → ∃ (y : Batch) (x : RxRow), y ∈ (t.ctx b.ctx).rx.batches ∧ y.layer = b.layer ∧
      y.expert = b.expert ∧ y.replica = b.replica ∧ x ∈ y.rows ∧ x.bill = bill ∧ x.src = src ∧ x.data = bs by
    exact hheld _ (hsettled _ ((hbump s1 b.ctx .rxRows 1).trans (hbump _ _ _ _)))
  intro t ht
  obtain ⟨y, hy, hzy⟩ := ht.rx.onto z hz
  refine ⟨y, x, hy, ?_, ?_, ?_, by rw [hzy.rows]; exact hrow, ?_⟩
  · exact (congrArg Batch.layer hzy.same).trans hl
  · exact (congrArg Batch.expert hzy.same).trans he
  · exact (congrArg Batch.replica hzy.same).trans hi
  · rw [← hx]
    exact ⟨rfl, rfl, rfl⟩

/-- A row whose waybill is damaged counts as the next row of its path. -/
theorem State.rowNow_damaged (hnote : s.fab.noNote.contains src = false) (hcrc : billCrcOk bill = false) :
    ∃ t : State, s.rowNow src bill bs = some t ∧ t.mem = s.mem ∧ (s.nextRow src = none → ∀ c, (t.ctx c).rx = (s.ctx c).rx) ∧
      ∀ c n e i, s.nextRow src = some (c, n, e, i) → (∀ d, d ≠ c → (t.ctx d).rx = (s.ctx d).rx) ∧ (t.ctx c).rx.notes = (s.ctx c).rx.took n e i := by
  rw [State.rowNow]
  dsimp only
  rw [if_neg (by rw [hnote]; decide), if_pos (by rw [hcrc]; rfl)]
  generalize hu : State.raiseRated _ _ _ _ _ _ = u
  have hhoming : u.homing = s.homing := by
    rw [← hu]
    exact (State.homing_of_ctxs (State.raiseRated_keeps ..).1).trans (State.bumpCtx_homing ..)
  have hmem : u.mem = s.mem := by
    rw [← hu]
    exact State.mem_of_form (by simp)
  cases hnext : s.nextRow src with
  | none => exact ⟨u, rfl, hmem, fun _ c => State.rx_of_homing hhoming c, nofun⟩
  | some x =>
    obtain ⟨c, n, e, i⟩ := x
    have hc : c < u.ctxs.length := State.lt_of_note (n := n) (by rw [State.rx_of_homing hhoming]; exact State.nextRow_note hnext)
    refine ⟨u.rowGone c n e i, rfl, (State.mem_of_form (by simp)).trans hmem, nofun, fun c' n' e' i' h => ?_⟩
    cases h
    refine ⟨fun d hd => (State.rowGone_keeps d hd).trans (State.rx_of_homing hhoming d), ?_⟩
    rw [State.rowGone_notes hc, State.rx_of_homing hhoming]

theorem State.live_of_notes {b : Bill} (h : ∀ n, (s.ctx c).rx.noteFor src b = some n → n.expired = false) :
    (((s.ctx c).rx.noteFor src b).map (·.expired)).getD false = false := by
  cases hn : (s.ctx c).rx.noteFor src b with
  | none => rfl
  | some n => exact h n hn

section
variable (hnote : s.fab.noNote.contains src = false) (hcrc : billCrcOk bill = true)
include hnote hcrc

theorem State.rowNow_misrouted (hdst : (Bill.read bill).dst ≠ s.board.pkgId) : s.rowNow src bill bs =
    some ((s.bumpCtx (s.rxCtx (Bill.read bill).ctx) .rxMisrouted 1).raise (0xA00 + src) 0x14 0 (s.rxCtx (Bill.read bill).ctx) 3 src) := by
  rw [State.rowNow]
  dsimp only
  rw [if_neg (by rw [hnote]; decide), if_neg (by rw [hcrc]; decide)]
  exact if_pos hdst

variable (hdst : (Bill.read bill).dst = s.board.pkgId)
include hdst

theorem State.rowNow_retired (hret : (s.ctx (Bill.read bill).ctx).rx.retired.contains ((Bill.read bill).src, (Bill.read bill).epoch) = true) :
    s.rowNow src bill bs = some (s.bumpCtx (s.rxCtx (Bill.read bill).ctx) .rxRetired 1) := by
  rw [State.rowNow]
  dsimp only
  rw [if_neg (by rw [hnote]; decide), if_neg (by rw [hcrc]; decide), if_neg (not_not.mpr hdst)]
  exact if_pos hret

variable (hret : (s.ctx (Bill.read bill).ctx).rx.retired.contains ((Bill.read bill).src, (Bill.read bill).epoch) = false)
  (hnotes : ∀ n, (s.ctx (Bill.read bill).ctx).rx.noteFor src (Bill.read bill) = some n → n.expired = false)
include hret hnotes

theorem State.rowNow_refused {code : Nat}
    (hcode : s.refuse (Bill.read bill).ctx (Bill.read bill).layer (Bill.read bill).expert (Bill.read bill).replica = some code) :
    s.rowNow src bill bs = some (((s.ctx (Bill.read bill).ctx).rx.noteFor src (Bill.read bill)).elim
      ((s.bumpCtx (s.rxCtx (Bill.read bill).ctx) .rxRefused 1).sendRefusal bill code)
      (fun n => ((s.bumpCtx (s.rxCtx (Bill.read bill).ctx) .rxRefused 1).sendRefusal bill code).rowGone (Bill.read bill).ctx n
        (Bill.read bill).expert (Bill.read bill).replica)) := by
  rw [State.rowNow]
  dsimp only
  rw [if_neg (by rw [hnote]; decide), if_neg (by rw [hcrc]; decide), if_neg (not_not.mpr hdst), if_neg (by rw [hret]; decide),
    if_neg (by rw [State.live_of_notes hnotes]; decide), hcode]
  dsimp only
  cases (s.ctx (Bill.read bill).ctx).rx.noteFor src (Bill.read bill) <;> rfl

theorem State.rowNow_hosted
    (hcode : s.refuse (Bill.read bill).ctx (Bill.read bill).layer (Bill.read bill).expert (Bill.read bill).replica = none) :
    ((s.ctx (Bill.read bill).ctx).share.rxMib * mib < (s.ctx (Bill.read bill).ctx).rx.used + bs.length + 32 →
      s.rowNow src bill bs = none) ∧
    ((s.ctx (Bill.read bill).ctx).rx.used + bs.length + 32 ≤ (s.ctx (Bill.read bill).ctx).share.rxMib * mib →
      s.rowNow src bill bs = some (s.acceptRow src bill bs)) := by
  rw [State.rowNow]
  dsimp only
  rw [if_neg (by rw [hnote]; decide), if_neg (by rw [hcrc]; decide), if_neg (not_not.mpr hdst), if_neg (by rw [hret]; decide),
    if_neg (by rw [State.live_of_notes hnotes]; decide), hcode]
  dsimp only
  exact ⟨fun h => if_pos h, fun h => if_neg (Nat.not_lt.mpr h)⟩

end

theorem refusalWord_code (code pkg : Nat) : bits (packF [(0, 8, code), (16, 7, pkg)]) 0 8 = code % 2 ^ 8 :=
  bits_packF (lo := 0) (hi := 23) (by simp [Apart]) (by simp)

/-- A refused row of a note still fills the note's entry, and its home hears of the refusal. -/
theorem State.refused_gone {n : RxNote} {k code : Nat} (hn : n ∈ (s.ctx c).rx.notes) :
    let t := ((s.bumpCtx k .rxRefused 1).sendRefusal bill code).rowGone c n e i
    t.mem = s.mem ∧ (t.ctx c).rx.notes = (s.ctx c).rx.took n e i ∧
      ∃ x r, Out.msg (bits bill 221 7) 0x05 (bits bill 228 4) [bill, x] r ∈ t.out ∧ bits x 0 8 = code % 2 ^ 8 := by
  have hhoming : ((s.bumpCtx k .rxRefused 1).sendRefusal bill code).homing = s.homing :=
    (State.sendMsg_homing ..).trans (State.bumpCtx_homing ..)
  refine ⟨State.mem_of_form (by simp), ?_, _, _, (State.rowGone_works (.refl _) ..).out (State.sendMsg_out ..), ?_⟩
  · rw [State.rowGone_notes (State.lt_of_note (n := n) (by rw [State.rx_of_homing hhoming]; exact hn)), State.rx_of_homing hhoming]
  · exact refusalWord_code ..

/-! ### The batch window (5 R117) -/

theorem batchWindowExpiry_closes (hc : c < s.ctxs.length)
    (h : ∃ b ∈ (s.ctx c).rx.batches, b.key l e i = true ∧ b.closed = false ∧ b.opened + (s.ctx c).batchWindow l ≤ s.now) :
    ∀ b ∈ ((batchWindowExpiry c l e i s).ctx c).rx.batches, b.key l e i = true → b.closed = true := by
  obtain ⟨b, hb, hkey, hopen, hdue⟩ := h
  rw [batchWindowExpiry, if_pos (List.any_eq_true.mpr ⟨b, hb, by simp [hkey, hopen, hdue]⟩)]
  intro y hy hykey
  obtain ⟨x, hx, hxy⟩ := (handAll_settles ..).rx.from_ y hy
  rw [State.rx_onRx hc] at hx
  exact hxy.closed (Rx.close_closed x hx (by rw [← hxy.key]; exact hykey))

/-! ### Retire notices and incomplete notes (5 R122) -/

theorem State.discardRows_rx (hc : c < s.ctxs.length) (p : RxRow → Bool) (k : Ctr) :
    ((s.discardRows c p (some k)).ctx c).rx = { (s.ctx c).rx with batches :=
      ((s.ctx c).rx.batches.filter (fun b => b.handed || b.rows.isEmpty || b.rows.any (fun x => !p x))).map (fun b =>
        if b.handed then b else { b with rows := b.rows.filter (fun x => !p x) }) } :=
  (State.rx_of_homing (State.bumpCtx_homing ..) c).trans (State.rx_onRx hc _)

/-- Rows that a discard picked are on no batch that waits for the die. -/
theorem State.Settles.discarded {p : RxRow → Bool} (h : s.Settles c t)
    (hs : (s.ctx c).rx.batches = (u.ctx c).rx.batches) {k : Ctr} {v : State} (hc : c < v.ctxs.length)
    (hu : u = v.discardRows c p (some k)) : ∀ b ∈ (t.ctx c).rx.batches, b.handed = false → ∀ x ∈ b.rows, p x = false := by
  intro y hy hwait x hx
  obtain ⟨b, hb, hby⟩ := h.rx.from_ y hy
  have hbwait : b.handed = false := by
    by_contra hhanded
    rw [hby.handed (by simpa using hhanded)] at hwait
    cases hwait
  rw [hs, hu, State.discardRows_rx hc] at hb
  obtain ⟨z, -, rfl⟩ := List.mem_map.mp hb
  rw [hby.rows] at hx
  split at hx
  · next hz =>
    rw [if_pos hz, hz] at hbwait
    cases hbwait
  · simpa using (List.mem_filter.mp hx).2

theorem State.retireNow_drops {epoch : Nat} (hc : c < s.ctxs.length) (hst : (s.ctx c).st = .active) :
    let t := s.retireNow src c epoch
    t.fab = s.fab ∧ (src, epoch) ∈ (t.ctx c).rx.retired ∧ (∀ n ∈ (t.ctx c).rx.notes, ¬ (n.src = src ∧ n.epoch = epoch)) ∧
      ∀ b ∈ (t.ctx c).rx.batches, b.handed = false → ∀ x ∈ b.rows, x.of src epoch = false := by
  dsimp only
  rw [State.retireNow, if_neg (not_not.mpr hst)]
  dsimp only
  generalize hu : s.discardRows c (fun x => x.of src epoch) (some .rxRetired) = u
  have hulen : c < u.ctxs.length := by
    rw [← hu, State.discardRows, State.ctxs_length_of_plain (State.bumpCtx_plain ..), State.onRx, State.onCtx, updAt_length]
    exact hc
  have hufab : u.fab = s.fab := by rw [← hu]; rfl
  generalize hv : u.onRx c _ = v
  have hvrx : (v.ctx c).rx = { (u.ctx c).rx with
      notes := (u.ctx c).rx.notes.filter (fun n => !(n.src == src && n.epoch == epoch))
      retired := if (u.ctx c).rx.retired.contains (src, epoch) then (u.ctx c).rx.retired else (u.ctx c).rx.retired ++ [(src, epoch)] } := by
    rw [← hv, State.rx_onRx hulen]
  have hsettle (l : List RxNote) : v.Settles c (l.foldl (fun t n => t.settleNote c n) v) :=
    settles_foldl l fun _ _ => State.settleNote_settles ..
  refine ⟨?_, ?_, fun n hn => ?_, (hsettle _).discarded (by rw [hvrx]) hc hu.symm⟩
  · rw [(hsettle _).fab, ← hufab, ← hv]
    rfl
  · rw [(hsettle _).rx.retired, hvrx]
    dsimp only
    split
    · next h => exact List.contains_iff_mem.mp h
    · exact List.mem_append_right _ (List.mem_singleton_self _)
  · rw [(hsettle _).rx.notes, hvrx] at hn
    have hkept := (List.mem_filter.mp hn).2
    rintro ⟨hsrc, hepoch⟩
    simp [hsrc, hepoch] at hkept

theorem incompleteNote_expires {n : RxNote} (hc : c < s.ctxs.length) (hn : (s.ctx c).rx.notes.find? (fun y => y.id == n.id) = some n)
    (hlive : n.expired = false) (hdue : n.arrived + (s.ctx c).returnUs * 1000 < s.now) (hfree : s.fab.heldRx = []) :
    let t := incompleteNote c n.id s
    t.mem = s.mem ∧ { n with expired := true } ∈ (t.ctx c).rx.notes ∧
      ∀ b ∈ (t.ctx c).rx.batches, b.handed = false → ∀ x ∈ b.rows, x.note ≠ n.id := by
  dsimp only
  refine ⟨State.mem_of_form (by simp), ?_⟩
  rw [incompleteNote, hn]
  dsimp only
  rw [if_pos (by simp [hlive, hdue])]
  generalize hu : s.discardRows c (fun x => x.note == n.id) (some .rxRetired) = u
  have hulen : c < u.ctxs.length := by
    rw [← hu, State.discardRows, State.ctxs_length_of_plain (State.bumpCtx_plain ..), State.onRx, State.onCtx, updAt_length]
    exact hc
  have hunotes : (u.ctx c).rx.notes = (s.ctx c).rx.notes := by rw [← hu, State.discardRows_rx hc]
  generalize hv : u.onRx c _ = v
  have hvrx : (v.ctx c).rx = { (u.ctx c).rx with
      notes := (u.ctx c).rx.notes.map (fun y => if y.id = n.id then { y with expired := true } else y) } := by
    rw [← hv, State.rx_onRx hulen]
  have hsettle : v.Settles c (v.settleNote c n) := State.settleNote_settles ..
  rw [State.serveRx_none (by rw [hsettle.fab, ← hv, ← hu]; exact hfree)]
  refine ⟨?_, fun b hb hwait x hx => ?_⟩
  · rw [hsettle.rx.notes, hvrx, hunotes]
    refine List.mem_map.mpr ⟨n, List.mem_of_find?_eq_some hn, if_pos rfl⟩
  · simpa using hsettle.discarded (by rw [hvrx]) hc hu.symm b hb hwait x hx

/-! ### Answers of the dies (5 R106, R117) -/

/-- Room for the one row that waits lets it in. -/
theorem State.serveRx_row {w : Nat} (hheld : s.fab.heldRx = [⟨src, 0, w, [], bs⟩]) (hnow : s.rowNow src w bs = some u)
    (hkept : u.fab.heldRx = s.fab.heldRx) : s.serveRx.fab.heldRx = [] ∧ s.serveRx.ctxs = u.ctxs := by
  have hone : s.serveOne [⟨src, 0, w, [], bs⟩] [] =
      some { u with fab := { u.fab with heldRx := eraseFirst (fun x => decide (x = ⟨src, 0, w, [], bs⟩)) u.fab.heldRx } } := by
    rw [State.serveOne, if_neg (by simp), State.heldNow, if_pos rfl, hnow]
  rw [State.serveRx, hheld, List.length_singleton, serveHeld, hheld, hone]
  dsimp only
  rw [serveHeld, hkept, hheld]
  refine ⟨?_, rfl⟩
  dsimp only
  rw [eraseFirst, if_pos (decide_eq_true rfl)]

theorem answerFromDie_row {die w : Nat} {row : List Nat} (hup : s.boot.diesUp.getD die false = true)
    (hheld : s.fab.heldRx = [⟨src, 0, w, [], bs⟩])
    (hnow : (s.onRx (Bill.read bill).ctx (fun r => r.answered bill)).rowNow src w bs = some u) (hkept : u.fab.heldRx = s.fab.heldRx) :
    (answerFromDie die false bill none row s).fab.heldRx = [] ∧ (answerFromDie die false bill none row s).ctxs = u.ctxs := by
  obtain ⟨hnone, hctxs⟩ := State.serveRx_row (s := s.onRx (Bill.read bill).ctx (fun r => r.answered bill)) hheld hnow hkept
  rw [answerFromDie]
  dsimp only
  rw [if_neg (by rw [hup]; decide)]
  exact ⟨(State.sendMsg_heldRx ..).1.trans hnone, (State.sendMsg_heldRx ..).2.trans hctxs⟩

/-- The answer of a die goes home, and the space of its row is free. -/
theorem answerFromDie_home {die : Nat} {row : List Nat} (r : Option Nat) (hup : s.boot.diesUp.getD die false = true)
    (hc : (Bill.read bill).ctx < s.ctxs.length) : let t := answerFromDie die false bill r row s
    (s.fab.heldRx = [] → t.mem = s.mem ∧ (t.ctx (Bill.read bill).ctx).rx = (s.ctx (Bill.read bill).ctx).rx.answered bill) ∧
      (r = none → Out.msg (Bill.read bill).src 0x04 (Bill.read bill).ctx [bill] (toLE 32 bill ++ (row.map (toLE 2)).flatten) ∈ t.out) ∧
      ∀ code, r = some code → ∃ x z, Out.msg (Bill.read bill).src 0x05 (Bill.read bill).ctx [bill, x] z ∈ t.out ∧ bits x 0 8 = code % 2 ^ 8 := by
  dsimp only
  rw [answerFromDie]
  dsimp only
  rw [if_neg (by rw [hup]; decide)]
  generalize hv : (s.onRx (Bill.read bill).ctx (fun r => r.answered bill)).serveRx = v
  have hfreed (hfree : s.fab.heldRx = []) : v = s.onRx (Bill.read bill).ctx (fun r => r.answered bill) := by
    rw [← hv]
    exact State.serveRx_none hfree
  have hsent (dst type k : Nat) (fields : List Nat) (body : List Byte) (hfree : s.fab.heldRx = []) :
      (v.sendMsg dst type k fields body).mem = s.mem ∧
        ((v.sendMsg dst type k fields body).ctx (Bill.read bill).ctx).rx = (s.ctx (Bill.read bill).ctx).rx.answered bill := by
    rw [State.sendMsg_mem, State.rx_of_homing (State.sendMsg_homing ..), hfreed hfree, State.rx_onRx hc]
    exact ⟨rfl, rfl⟩
  cases r with
  | none => exact ⟨hsent _ _ _ _ _, fun _ => State.sendMsg_out .., nofun⟩
  | some code =>
    refine ⟨hsent _ _ _ _ _, nofun, fun k hk => ⟨_, _, State.sendMsg_out .., ?_⟩⟩
    cases hk
    exact refusalWord_code ..

end

/-- Settles O48: notes and rows take effect or wait, batches close and are handed over, answers go home, and notes retire. -/
theorem reception : Obligations.Reception := by
  unfold Obligations.Reception
  refine ⟨?_, ?_, ?_, ?_, ?_, ?_, ?_, ?_, ?_, ?_, ?_, ?_, ?_⟩
  · intro src w c epoch es bs x s hbooted hx hsrc held
    have hfrom : s.heldFrom src = true := List.any_eq_true.mpr ⟨x, hx, beq_iff_eq.mpr hsrc⟩
    refine ⟨congrArg Host.Outcome.next ?_, congrArg Host.Outcome.next ?_, congrArg Host.Outcome.next (if_pos hfrom)⟩
    · rw [noteReceive, if_neg (by rw [hbooted]; decide), if_pos hfrom]
      rfl
    · rw [rowReceive, if_neg (by rw [hbooted]; decide), if_pos hfrom]
      rfl
  · intro die bill src w row bs u s b hup hheld hnow hkept
    obtain ⟨hnone, hctxs⟩ := answerFromDie_row (row := row) hup hheld hnow hkept
    exact ⟨_, rfl, hnone, hctxs⟩
  · intro src h es s hbooted hfree hcrc
    obtain ⟨hmem, hrx⟩ := State.noteNow_damaged (s := s) (src := src) (es := es) hcrc
    exact ⟨s.noteNow src h es, congrArg Host.Outcome.next (noteReceive_now hbooted hfree), hmem, State.mem_of_form (by simp), hrx⟩
  · intro src h es s c hc hbooted hfree hcrc hst hrows
    obtain ⟨hpath, n, hn, hrest⟩ := State.noteNow_kept (src := src) (es := es) hc rfl hcrc hst hrows
    exact ⟨s.noteNow src h es, n, congrArg Host.Outcome.next (noteReceive_now hbooted hfree), State.mem_of_form (by simp), hpath, hn, hrest⟩
  · intro src h es s hbooted hfree hcrc hst
    exact congrArg Host.Outcome.next ((noteReceive_now hbooted hfree).trans (State.noteNow_absent hcrc hst))
  · intro src bill bs s b hbooted hfree
    have hrow {t : State} (h : s.rowNow src bill bs = some t) : exec (.rowReceive src bill bs) s = .next t :=
      congrArg Host.Outcome.next ((rowReceive_now hbooted hfree).trans (by rw [h]; rfl))
    have hout (h : src ∉ s.fab.noNote) : s.fab.noNote.contains src = false := by simpa using h
    refine ⟨fun h => ?_, fun hnote hcrc hdst => ?_, fun hnote hcrc hdst hret => ?_, fun hnote hcrc hdst hret hnotes => ?_, fun hnote hcrc => ?_⟩
    · refine hrow ?_
      rw [State.rowNow]
      exact if_pos (List.contains_iff_mem.mpr h)
    · exact hrow (State.rowNow_misrouted (hout hnote) hcrc hdst)
    · exact hrow (State.rowNow_retired (hout hnote) hcrc hdst (List.contains_iff_mem.mpr hret))
    · have hret' : (s.ctx b.ctx).rx.retired.contains (b.src, b.epoch) = false := by simpa using hret
      refine ⟨fun code hcode hn => hrow ?_, fun code n hcode hn => ?_, fun hcode hfull => ?_, fun hcode hc hroom => ?_⟩
      · rw [State.rowNow_refused (hout hnote) hcrc hdst hret' hnotes hcode, hn, Option.elim_none]
      · refine ⟨_, hrow ((State.rowNow_refused (hout hnote) hcrc hdst hret' hnotes hcode).trans (by rw [hn, Option.elim_some])), ?_⟩
        exact State.refused_gone (List.mem_of_find?_eq_some hn)
      · refine congrArg Host.Outcome.next ((rowReceive_now hbooted hfree).trans ?_)
        rw [(State.rowNow_hosted (hout hnote) hcrc hdst hret' hnotes hcode).1 hfull, State.holdRx, hfree]
        rfl
      · obtain ⟨z, x, hz⟩ := State.acceptRow_holds (src := src) (bs := bs) hc
        exact ⟨s.acceptRow src bill bs, z, x, hrow ((State.rowNow_hosted (hout hnote) hcrc hdst hret' hnotes hcode).2 hroom),
          State.mem_of_form (by simp), hz⟩
    · obtain ⟨t, ht, hmem, hrest⟩ := State.rowNow_damaged (bs := bs) (hout hnote) hcrc
      exact ⟨t, hrow ht, hmem, hrest⟩
  · intro c l e i s hc h
    exact ⟨_, rfl, State.mem_of_form (by simp), batchWindowExpiry_closes hc h⟩
  · intro c l e i s h
    refine congrArg Host.Outcome.next (if_neg fun hany => ?_)
    obtain ⟨b, hb, hdue⟩ := List.any_eq_true.mp hany
    simp only [Bool.and_eq_true, Bool.not_eq_true', decide_eq_true_eq] at hdue
    obtain ⟨⟨hkey, hopen⟩, hdue⟩ := hdue
    exact absurd hdue (Nat.not_le.mpr (h b hb hkey hopen))
  · intro die bill row s b hup hc
    obtain ⟨hkept, hanswer, -⟩ := answerFromDie_home (row := row) none hup hc
    refine ⟨⟨_, rfl, hkept, hanswer rfl⟩, fun code => ?_⟩
    obtain ⟨hkept, -, hrefusal⟩ := answerFromDie_home (row := row) (some code) hup hc
    exact ⟨_, rfl, hkept, hrefusal code rfl⟩
  · intro die bill row r s
    refine congrArg Host.Outcome.next ?_
    rw [answerFromDie]
    exact if_pos (Or.inl rfl)
  · intro src c epoch s hc hfree hst
    obtain ⟨hfab, hdrops⟩ := State.retireNow_drops (src := src) (epoch := epoch) hc hst
    refine ⟨s.retireNow src c epoch, congrArg Host.Outcome.next ?_, State.mem_of_form (by simp), hdrops⟩
    rw [retireNotice, State.heldFrom_none hfree, if_neg (by decide), State.serveRx_none (by rw [hfab]; exact hfree)]
  · intro src c epoch s hfree hst
    refine congrArg Host.Outcome.next ?_
    rw [retireNotice, State.heldFrom_none hfree, if_neg (by decide), State.retireNow, if_pos hst, State.serveRx_none hfree]
  · intro c n s hc hn hlive
    refine ⟨fun hearly => congrArg Host.Outcome.next ?_, fun hdue => ⟨_, rfl, incompleteNote_expires hc hn hlive hdue⟩⟩
    rw [incompleteNote, hn]
    exact if_neg fun h => absurd h.2 (Nat.not_lt.mpr hearly)

end Machine
end Sys2Proof
end

section
/-! PROOFS. Answers and refusals, late sub-convoys, bays, and rows handed back (6 R125 to R134, R137, R140 to R145). -/

namespace Sys2Proof
namespace Machine

section
variable {s t : State} {c k l slot : Nat} {b : Bool} {z : LandBuf}

/-! ### A layer of a context -/

theorem State.ctx_onLayer (hc : c < s.ctxs.length) (k : Nat) (f : Layer → Layer) :
    (s.onLayer c k f).ctx c = { s.ctx c with layers := (s.ctx c).layers.put k (f ((s.ctx c).layer k)) } := by
  rw [State.onLayer, State.ctx_onCtx _ _ _ _ hc, if_pos rfl]

theorem State.layer_onLayer (hc : c < s.ctxs.length) (k : Nat) (f : Layer → Layer) :
    ((s.onLayer c k f).ctx c).layer k = f ((s.ctx c).layer k) := by
  rw [State.ctx_onLayer hc]
  exact Tbl.getD_put_same ..

theorem State.onLayer_length (c k : Nat) (f : Layer → Layer) : (s.onLayer c k f).ctxs.length = s.ctxs.length := updAt_length ..

theorem State.onCtx_length (c : Nat) (f : Ctx → Ctx) : (s.onCtx c f).ctxs.length = s.ctxs.length := updAt_length ..

theorem Layer.slot_onSlot (y : Layer) (n : Nat) (f : Slot → Slot) : (y.onSlot n f).slot n = f (y.slot n) := Tbl.getD_put_same ..

/-! ### Landing buffers -/

/-- What names a landing buffer. -/
def LandBuf.key (z : LandBuf) : Nat × Nat × Bool := (z.epoch, z.layer, z.convoyB)

theorem State.lt_of_land (h : (s.ctx c).lands = [z]) : c < s.ctxs.length := by
  by_contra hout
  rw [State.ctx, List.getD_eq_default _ _ (Nat.not_lt.mp hout)] at h
  cases h

theorem Ctx.noteCosts_keep (us : List Sub) (x : Ctx) (now : Nat) :
    us.foldl (fun y u => y.noteCost now u) x = { x with steps := { x.steps with lastSubs := (us.foldl (fun y u => y.noteCost now u) x).steps.lastSubs } } := by
  refine List.foldlRecOn (motive := fun y : Ctx => y = { x with steps := { x.steps with lastSubs := y.steps.lastSubs } }) _ _ rfl fun y hy u _ => ?_
  unfold Ctx.noteCost
  split
  · exact hy
  · rw [hy]

/-- What setting an entry of a landing buffer leaves of its context: the buffers but for that entry, and the buffer's layer but for its
sub-convoys. -/
theorem State.setLanding_ctx (hc : c < s.ctxs.length) (z : LandBuf) (i v : Nat) : ∃ subs lastSubs layers,
    (s.setLanding c z i v).ctx c = { s.ctx c with
      lands := (s.ctx c).lands.map (fun y => if y.epoch = z.epoch ∧ y.layer = z.layer ∧ y.convoyB = z.convoyB then
        { y with entries := updAt y.entries i (fun e => { e with st := v }) } else y)
      layers := layers
      steps := { (s.ctx c).steps with lastSubs := lastSubs } } ∧
    layers.getD (layKey z.layer z.convoyB) Layer.fresh = { (s.ctx c).layer (layKey z.layer z.convoyB) with subs := subs } := by
  generalize hu : s.onLand c z (fun y => { y with entries := updAt y.entries i (fun e => { e with st := v }) }) = u
  have huctx : u.ctx c = { s.ctx c with lands := (s.ctx c).lands.map (fun y =>
      if y.epoch = z.epoch ∧ y.layer = z.layer ∧ y.convoyB = z.convoyB then
        { y with entries := updAt y.entries i (fun e => { e with st := v }) } else y) } := by
    rw [← hu, State.onLand, State.ctx_onCtx _ _ _ _ hc, if_pos rfl]
  have huc : c < u.ctxs.length := by rw [← hu, State.onLand, State.onCtx_length]; exact hc
  rw [State.setLanding]
  dsimp only
  rw [hu]
  split
  · rw [State.ctx_onCtx _ _ _ _ (by rw [State.onLayer_length]; exact huc), if_pos rfl, Ctx.noteCosts_keep, State.ctx_onLayer huc, huctx]
    exact ⟨_, _, _, rfl, Tbl.getD_put_same ..⟩
  · exact ⟨_, _, _, huctx, rfl⟩

theorem LandBuf.one_set (z : LandBuf) (i v : Nat) : [z].map (fun y => if y.epoch = z.epoch ∧ y.layer = z.layer ∧ y.convoyB = z.convoyB then
    { y with entries := updAt y.entries i (fun e => { e with st := v }) } else y) =
      [{ z with entries := updAt z.entries i (fun e => { e with st := v }) }] := by
  simp

theorem LandBuf.set_st {es : List Landing} {i : Nat} {e : Landing} (h : es[i]? = some e) (v : Nat) :
    ((updAt es i (fun e => { e with st := v }))[i]?).map (·.st) = some v := by
  rw [updAt_getElem?, if_pos rfl, h]
  rfl

/-- A slot with a rank dropped (5 R102, 6 R131). -/
def Slot.dropped (rank cause : Nat) (r : Slot) : Slot :=
  { r with
    dropMask := r.dropMask ||| 2 ^ rank, causes := updAt r.causes rank (fun _ => cause)
    degraded := r.degraded || decide (2 ≤ cause)
    late := r.late || decide (4 ≤ cause), done := r.done + (if 4 ≤ cause then 1 else 0) }

theorem State.dropRank_ctx (hc : c < s.ctxs.length) (k slot rank cause : Nat) : ∃ man,
    (s.dropRank c k slot rank cause).ctx c = { s.ctx c with
      layers := (s.ctx c).layers.put k (((s.ctx c).layer k).onSlot slot (Slot.dropped rank cause))
      steps := { (s.ctx c).steps with man := man } } ∧ man.map (·.epoch) = (s.ctx c).steps.man.map (·.epoch) := by
  rw [State.dropRank]
  dsimp only
  rw [State.onMan, State.ctx_onCtx _ _ _ _ (by rw [State.onLayer_length]; exact hc), if_pos rfl, State.ctx_onLayer hc]
  exact ⟨_, rfl, by rw [Option.map_map]; rfl⟩

/-! ### The checks of an answer (6 R127) -/

section
variable {src bill : Nat} {row : Option (List Nat)} {e : Landing} {w : Bill}

theorem State.takeReturn_misdirected (hcrc : billCrcOk bill = true) (hsrc : (Bill.read bill).src ≠ s.board.pkgId) :
    s.takeReturn src bill row = (s.raise (0xA00 + src) 0x16 0 0 3 src).bumpCtx (s.rxCtx (Bill.read bill).ctx) .retMisdirected 1 := by
  rw [State.takeReturn]
  dsimp only
  rw [if_neg (by rw [hcrc]; decide)]
  exact if_pos hsrc

theorem State.takeReturn_checked (hcrc : billCrcOk bill = true) (hsrc : (Bill.read bill).src = s.board.pkgId)
    (hopen : ∀ z ∈ (s.ctx (Bill.read bill).ctx).lands, z.matches (Bill.read bill) = true → z.quarantined = false) :
    s.takeReturn src bill row = (s.expireFor (Bill.read bill)).takeLive (Bill.read bill) row := by
  have hnone : (s.ctx (Bill.read bill).ctx).lands.find? (fun z => z.quarantined && z.matches (Bill.read bill)) = none :=
    List.find?_eq_none.mpr fun z hz h => by
      rw [Bool.and_eq_true] at h
      rw [hopen z hz h.2] at h
      exact absurd h.1 (by decide)
  rw [State.takeReturn]
  dsimp only
  rw [if_neg (by rw [hcrc]; decide), if_neg (not_not.mpr hsrc), hnone]

theorem State.expire_none {p : Outstanding → Bool} (h : ∀ o ∈ (s.ctx c).outstanding z, p o = true → s.now ≤ o.deadline) : s.expire c z p = s := by
  have hnone : ((s.ctx c).outstanding z).filter (fun o => p o && decide (o.deadline < s.now)) = [] :=
    List.filter_eq_nil_iff.mpr fun o ho hlate => by
      simp only [Bool.and_eq_true, decide_eq_true_eq] at hlate
      exact absurd (h o ho hlate.1) (by omega)
  rw [State.expire, hnone]
  exact ite_self _

theorem State.expireFor_one (hlands : (s.ctx w.ctx).lands = [z]) (hm : z.matches w = true) :
    s.expireFor w = s.expire w.ctx z (fun _ => true) := by
  rw [State.expireFor, hlands, List.filter_singleton, hm]
  rfl

theorem State.expireFor_quiet (h : ∀ z ∈ (s.ctx w.ctx).lands, z.matches w = true → ∀ o ∈ (s.ctx w.ctx).outstanding z, s.now ≤ o.deadline) :
    s.expireFor w = s := by
  refine List.foldlRecOn (motive := fun t : State => t = s) _ _ rfl fun t ht z hz => ?_
  obtain ⟨hmem, hm⟩ := List.mem_filter.mp hz
  rw [ht]
  exact State.expire_none fun o ho _ => h z hmem hm o ho

theorem State.takeLive_unmatched (h : ∀ z ∈ (s.ctx w.ctx).lands, z.matches w = false) :
    s.takeLive w row = s.bumpCtx (s.rxCtx w.ctx) .retUnmatched 1 := by
  have hnone : (s.ctx w.ctx).lands.find? (fun z => !z.quarantined && z.matches w) = none :=
    List.find?_eq_none.mpr fun z hz hm => by simp [h z hz] at hm
  rw [State.takeLive]
  dsimp only
  rw [hnone]

theorem State.takeLive_stale (hlands : (s.ctx w.ctx).lands = [z]) (hq : z.quarantined = false) (hm : z.matches w = true)
    (hgen : (s.ctx w.ctx).slotGen z w.slot ≠ w.gen) (he : z.entries[w.ret]? = some e) : s.takeLive w row =
      if e.st = 0 then (s.bumpCtx w.ctx .staleReturns 1).setLanding w.ctx z w.ret 4 else s.bumpCtx w.ctx .staleReturns 1 := by
  have hfind : [z].find? (fun z => !z.quarantined && z.matches w) = some z := by simp [hq, hm]
  rw [State.takeLive]
  dsimp only
  rw [hlands, hfind]
  dsimp only
  rw [if_pos hgen, he]
  simp only [Option.map_some, Option.some.injEq]

/-- The checks of an entry that an answer names (6 R127, R128). -/
theorem State.takeLive_named (hlands : (s.ctx w.ctx).lands = [z]) (hq : z.quarantined = false) (hm : z.matches w = true)
    (hgen : (s.ctx w.ctx).slotGen z w.slot = w.gen) (he : z.entries[w.ret]? = some e) : s.takeLive w row =
      if e.slot ≠ w.slot ∨ e.rank ≠ w.rank then
        (s.raise 0x805 0x17 0 w.ctx 2 (workDetail w.epoch w.seq w.slot)).bumpCtx w.ctx .retMismatch 1
      else if e.st = 3 then s.bumpCtx w.ctx .lateReturns 1
      else if e.st ≠ 0 then s.bumpCtx w.ctx .dupReturns 1
      else row.elim
        (((s.setLanding w.ctx z w.ret 2).dropRank w.ctx (layKey z.layer z.convoyB) w.slot w.rank 4).bumpCtx w.ctx .refusals 1)
        (fun r => ((((s.setLanding w.ctx z w.ret 1).bumpCtx w.ctx .answersCombined 1).onLayer w.ctx (layKey z.layer z.convoyB)
          (fun y => y.onSlot w.slot (fun q => { q with done := q.done + 1 }))).combine w.ctx w z.convoyB r)) := by
  have hfind : [z].find? (fun z => !z.quarantined && z.matches w) = some z := by simp [hq, hm]
  rw [State.takeLive]
  dsimp only
  rw [hlands, hfind]
  dsimp only
  rw [if_neg (not_not.mpr hgen), he]
  cases row <;> rfl

/-- A refusal drops its rank and fills its entry. -/
theorem State.refused_entry (hc : c < s.ctxs.length) (hlands : (s.ctx c).lands = [z]) {i rank : Nat} (he : z.entries[i]? = some e) :
    let t := ((s.setLanding c z i 2).dropRank c (layKey z.layer z.convoyB) slot rank 4).bumpCtx c .refusals 1
    t.mem = s.mem ∧ (∃ x, (t.ctx c).lands = [x] ∧ (x.entries[i]?).map (·.st) = some 2) ∧
      (((t.ctx c).layer (layKey z.layer z.convoyB)).slot slot) =
        Slot.dropped rank 4 (((s.ctx c).layer (layKey z.layer z.convoyB)).slot slot) := by
  dsimp only
  obtain ⟨subs, lastSubs, layers, hset, hlayer⟩ := State.setLanding_ctx hc z i 2
  have hlen : c < (s.setLanding c z i 2).ctxs.length := by rw [State.ctxs_length_of_form (State.setLanding_form ..)]; exact hc
  obtain ⟨man, hdrop, -⟩ := State.dropRank_ctx hlen (layKey z.layer z.convoyB) slot rank 4
  rw [State.ctx_bumpCtx, hdrop, hset, hlands]
  refine ⟨State.mem_of_form (by simp), ⟨_, LandBuf.one_set z i 2, LandBuf.set_st he 2⟩, ?_⟩
  refine (congrArg (Layer.slot · slot) (Tbl.getD_put_same ..)).trans ((Layer.slot_onSlot ..).trans ?_)
  have hslot := congrArg (fun y : Layer => Slot.dropped rank 4 (y.slot slot)) hlayer
  exact hslot

/-! ### An answer that is combined (6 R129) -/

theorem addAnswer_getD (v : BitVec 16) (row : List Nat) (acc : Row) (j : Nat) (hj : j < row.length) : (addAnswer v row acc).getD j 0#32 =
    Num.fadd (acc.getD j 0#32) (Num.fmul (Num.widen v) (Num.widen (BitVec.ofNat 16 (row.getD j 0)))) := by
  induction row generalizing acc j with
  | nil => exact absurd hj (Nat.not_lt_zero j)
  | cons a r ih =>
    rw [addAnswer]
    cases j with
    | zero => cases acc <;> rfl
    | succ j =>
      refine (ih acc.tail j (by simpa using hj)).trans ?_
      cases acc <;> simp

theorem Slot.sealDrops_zero {r : Slot} (h : r.dropMask = 0) : r.sealDrops = 0 := by
  have hranks : ranksOf 0 = [] := by decide
  rw [Slot.sealDrops, h, hranks]
  rfl

/-- A spilled row takes a free-mode answer at once. -/
theorem State.combine_spilled {conv : Bool} {r : List Nat} (hfixed : (s.ctx c).man.fixed = false)
    (hspilled : (((s.ctx c).layer (layKey w.layer conv)).group (groupOf (rowBytes (s.ctx c).share.dModel) ((s.ctx c).convoy conv).1 w.slot)).spilled = true)
    (hmask : (((s.ctx c).layer (layKey w.layer conv)).slot w.slot).dropMask = 0) (hc : c < s.ctxs.length) :
    let t := s.combine c w conv r
    (t.ctx c).lands = (s.ctx c).lands ∧ ((t.ctx c).layer (layKey w.layer conv)).slot w.slot =
      { ((s.ctx c).layer (layKey w.layer conv)).slot w.slot with
        acc := addAnswer (BitVec.ofNat 16 w.weight) r (((s.ctx c).layer (layKey w.layer conv)).slot w.slot).acc } := by
  dsimp only
  rw [State.combine]
  dsimp only
  rw [if_pos hspilled]
  generalize hu : s.bumpCtx c .nonfiniteReturns (b2n (nonfinite r)) = u
  have huctx : u.ctx c = { s.ctx c with ctr := (u.ctx c).ctr } := by rw [← hu]; exact State.ctx_bumpCtx ..
  have huc : c < u.ctxs.length := by rw [← hu, State.ctxs_length_of_plain (State.bumpCtx_plain ..)]; exact hc
  have hufixed : (u.ctx c).man.fixed = false := by rw [huctx]; exact hfixed
  have hulayer : (u.ctx c).layer (layKey w.layer conv) = (s.ctx c).layer (layKey w.layer conv) := by rw [huctx]; rfl
  rw [State.combineNow, hufixed]
  dsimp only
  rw [State.ctx_onLayer huc]
  refine ⟨by rw [huctx], ?_⟩
  refine (congrArg (Layer.slot · w.slot) (Tbl.getD_put_same ..)).trans ((Layer.slot_onSlot ..).trans ?_)
  rw [hulayer, if_neg Bool.false_ne_true, Slot.sealDrops_zero hmask, if_pos rfl]

/-- An answer in free mode to a spilled row fills its entry and is added with its weight. -/
theorem State.answered_entry {r : List Nat} (hc : w.ctx < s.ctxs.length) (hlands : (s.ctx w.ctx).lands = [z]) (hlayer : z.layer = w.layer)
    (he : z.entries[w.ret]? = some e) (hfixed : (s.ctx w.ctx).man.fixed = false)
    (hmask : (((s.ctx w.ctx).layer (layKey z.layer z.convoyB)).slot w.slot).dropMask = 0)
    (hspilled : (((s.ctx w.ctx).layer (layKey z.layer z.convoyB)).group
      (groupOf (rowBytes (s.ctx w.ctx).share.dModel) ((s.ctx w.ctx).convoy z.convoyB).1 w.slot)).spilled = true) :
    let t := (((s.setLanding w.ctx z w.ret 1).bumpCtx w.ctx .answersCombined 1).onLayer w.ctx (layKey z.layer z.convoyB)
      (fun y => y.onSlot w.slot (fun q => { q with done := q.done + 1 }))).combine w.ctx w z.convoyB r
    t.mem = s.mem ∧ (∃ x, (t.ctx w.ctx).lands = [x] ∧ (x.entries[w.ret]?).map (·.st) = some 1) ∧
      ((t.ctx w.ctx).layer (layKey z.layer z.convoyB)).slot w.slot =
        { ((s.ctx w.ctx).layer (layKey z.layer z.convoyB)).slot w.slot with
          done := (((s.ctx w.ctx).layer (layKey z.layer z.convoyB)).slot w.slot).done + 1
          acc := addAnswer (BitVec.ofNat 16 w.weight) r (((s.ctx w.ctx).layer (layKey z.layer z.convoyB)).slot w.slot).acc } := by
  dsimp only
  refine ⟨State.mem_of_form (by simp), ?_⟩
  obtain ⟨subs, lastSubs, layers, hset, hlayers⟩ := State.setLanding_ctx hc z w.ret 1
  generalize hu : (s.setLanding w.ctx z w.ret 1).bumpCtx w.ctx .answersCombined 1 = u
  have huc : w.ctx < u.ctxs.length := by
    rw [← hu, State.ctxs_length_of_plain (State.bumpCtx_plain ..), State.ctxs_length_of_form (State.setLanding_form ..)]
    exact hc
  have huctx : u.ctx w.ctx = { (s.setLanding w.ctx z w.ret 1).ctx w.ctx with ctr := (u.ctx w.ctx).ctr } := by
    rw [← hu]
    exact State.ctx_bumpCtx ..
  have hulayer : (u.ctx w.ctx).layer (layKey z.layer z.convoyB) = { (s.ctx w.ctx).layer (layKey z.layer z.convoyB) with subs := subs } := by
    rw [huctx, hset]
    exact hlayers
  generalize hv : u.onLayer w.ctx (layKey z.layer z.convoyB) _ = v
  have hvc : w.ctx < v.ctxs.length := by rw [← hv, State.onLayer_length]; exact huc
  have hvctx : v.ctx w.ctx = { u.ctx w.ctx with layers := (v.ctx w.ctx).layers } := by rw [← hv, State.ctx_onLayer huc]
  have hvlayer : (v.ctx w.ctx).layer (layKey w.layer z.convoyB) = { (s.ctx w.ctx).layer (layKey z.layer z.convoyB) with subs := subs }.onSlot
      w.slot (fun q => { q with done := q.done + 1 }) := by
    rw [← hlayer, ← hv, State.layer_onLayer huc, hulayer]
  have hkept : v.ctx w.ctx = { s.ctx w.ctx with
      ctr := (v.ctx w.ctx).ctr, lands := [{ z with entries := updAt z.entries w.ret (fun e => { e with st := 1 }) }]
      layers := (v.ctx w.ctx).layers, steps := { (s.ctx w.ctx).steps with lastSubs := lastSubs } } := by
    rw [hvctx, huctx, hset, hlands, LandBuf.one_set]
  have hslot : ((v.ctx w.ctx).layer (layKey w.layer z.convoyB)).slot w.slot =
      { ((s.ctx w.ctx).layer (layKey z.layer z.convoyB)).slot w.slot with
        done := (((s.ctx w.ctx).layer (layKey z.layer z.convoyB)).slot w.slot).done + 1 } := by
    rw [hvlayer]
    exact Layer.slot_onSlot ..
  obtain ⟨hsame, hadd⟩ := State.combine_spilled (s := v) (c := w.ctx) (w := w) (conv := z.convoyB) (r := r)
    (by rw [hkept]; exact hfixed) (by rw [hvlayer, hkept]; exact hspilled) (by rw [hslot]; exact hmask) hvc
  refine ⟨⟨_, hsame.trans (by rw [hkept]), LandBuf.set_st he 1⟩, ?_⟩
  rw [hlayer, hadd, hslot, ← hlayer]

/-! ### Rows past their deadline (6 R140) -/

/-- A landing row past its deadline: LOST, its rank dropped unless its slot was emptied, and the timeout logged. -/
def State.lostRow (s : State) (c : Nat) (z : LandBuf) (w : Nat × Nat) (e : Landing) : State :=
  let k := layKey z.layer z.convoyB
  let s1 := (s.setLanding c z w.1 3).bumpCtx c .lostReturns 1
  let s2 := if (s.ctx c).live z ∧ !(((s.ctx c).layer k).slot e.slot).emptied then s1.dropRank c k e.slot e.rank 5 else s1
  s2.logTimeout c z (workDetail z.epoch w.2 e.slot)

theorem loseRows_lost {w : Nat × Nat} (he : z.entries[w.1]? = some e) (h0 : e.st = 0) (r : List (Nat × Nat)) :
    loseRows c z (w :: r) s = loseRows c z r (s.lostRow c z w e) := by
  rw [loseRows, he]
  exact if_neg (not_not.mpr h0)

theorem loseRows_skip {w : Nat × Nat} (h : ∀ e, z.entries[w.1]? = some e → e.st ≠ 0) (r : List (Nat × Nat)) :
    loseRows c z (w :: r) s = loseRows c z r s := by
  rw [loseRows]
  split
  · rfl
  · next e he => exact if_pos (h e he)

/-- What names a buffer, and its entries. -/
def LandBuf.face (z : LandBuf) : (Nat × Nat × Bool) × List Landing := (z.key, z.entries)

theorem Ctx.live_of_epoch {x y : Ctx} (h : x.steps.man.map (·.epoch) = y.steps.man.map (·.epoch)) (z : LandBuf) : x.live z = y.live z := by
  have hlive (x : Ctx) : x.live z = ((x.steps.man.map (·.epoch)).map (· == z.epoch)).getD false := by
    unfold Ctx.live
    cases x.steps.man <;> rfl
  rw [hlive, h, ← hlive]

theorem State.logTimeout_ctx (hc : c < s.ctxs.length) (z : LandBuf) (detail : Nat) : ∃ lands man,
    (s.logTimeout c z detail).ctx c = { s.ctx c with lands := lands, steps := { (s.ctx c).steps with man := man } } ∧
    lands.map LandBuf.face = (s.ctx c).lands.map LandBuf.face ∧ man.map (·.epoch) = (s.ctx c).steps.man.map (·.epoch) := by
  unfold State.logTimeout
  split
  · unfold State.raiseOnce
    split
    · exact ⟨_, _, rfl, rfl, rfl⟩
    · split
      · exact ⟨_, _, rfl, rfl, rfl⟩
      · rw [State.onMan, State.ctx_onCtx _ _ _ _ (by exact hc), if_pos rfl]
        exact ⟨_, _, rfl, rfl, by rw [Option.map_map]; rfl⟩
  · split
    · exact ⟨_, _, rfl, rfl, rfl⟩
    · rw [State.ctx_onCtx _ _ _ _ (by exact hc), if_pos rfl]
      refine ⟨_, _, rfl, ?_, rfl⟩
      rw [List.map_map]
      refine List.map_congr_left fun y _ => ?_
      dsimp only [Function.comp_apply]
      split <;> rfl

theorem LandBuf.face_set (x : LandBuf) (hkey : x.key = z.key) (i v : Nat) :
    [x].map (fun y => if y.epoch = z.epoch ∧ y.layer = z.layer ∧ y.convoyB = z.convoyB then
      { y with entries := updAt y.entries i (fun e => { e with st := v }) } else y) =
      [{ x with entries := updAt x.entries i (fun e => { e with st := v }) }] := by
  simp only [LandBuf.key, Prod.mk.injEq] at hkey
  simp [hkey]

theorem State.lostRow_ctx {x : LandBuf} {w : Nat × Nat} (hc : c < s.ctxs.length) (hlands : (s.ctx c).lands = [x]) (hkey : x.key = z.key) :
    let t := s.lostRow c z w e
    t.ctxs.length = s.ctxs.length ∧
    (∃ y, (t.ctx c).lands = [y] ∧ y.face = (z.key, updAt x.entries w.1 (fun e => { e with st := 3 }))) ∧
    (t.ctx c).live z = (s.ctx c).live z ∧
    ((t.ctx c).layer (layKey z.layer z.convoyB)).slot e.slot =
      if (s.ctx c).live z ∧ !(((s.ctx c).layer (layKey z.layer z.convoyB)).slot e.slot).emptied then
        (((s.ctx c).layer (layKey z.layer z.convoyB)).slot e.slot).dropped e.rank 5
      else ((s.ctx c).layer (layKey z.layer z.convoyB)).slot e.slot := by
  obtain ⟨subs, lastSubs, layers, hset, hlayers⟩ := State.setLanding_ctx hc z w.1 3
  rw [State.lostRow]
  dsimp only
  generalize hu : (s.setLanding c z w.1 3).bumpCtx c .lostReturns 1 = u
  have hulen : u.ctxs.length = s.ctxs.length := by
    rw [← hu, State.ctxs_length_of_plain (State.bumpCtx_plain ..), State.ctxs_length_of_form (State.setLanding_form ..)]
  have huctx : u.ctx c = { s.ctx c with
      ctr := (u.ctx c).ctr, lands := [{ x with entries := updAt x.entries w.1 (fun e => { e with st := 3 }) }]
      layers := layers, steps := { (s.ctx c).steps with lastSubs := lastSubs } } := by
    rw [← hu, State.ctx_bumpCtx, hset, hlands, LandBuf.face_set x hkey]
  have hulayer : (u.ctx c).layer (layKey z.layer z.convoyB) = { (s.ctx c).layer (layKey z.layer z.convoyB) with subs := subs } := by
    rw [huctx]
    exact hlayers
  have huslot : ((u.ctx c).layer (layKey z.layer z.convoyB)).slot e.slot = ((s.ctx c).layer (layKey z.layer z.convoyB)).slot e.slot := by
    rw [hulayer]
    rfl
  generalize hv : (ite ((s.ctx c).live z = true ∧ (!(((s.ctx c).layer (layKey z.layer z.convoyB)).slot e.slot).emptied) = true)
    (u.dropRank c (layKey z.layer z.convoyB) e.slot e.rank 5) u) = v
  have hvlen : v.ctxs.length = s.ctxs.length := by
    rw [← hv, ← hulen]
    split
    · exact State.ctxs_length_of_form (State.dropRank_form ..)
    · rfl
  have hvctx : (v.ctx c).lands = (u.ctx c).lands ∧ (v.ctx c).steps.man.map (·.epoch) = (s.ctx c).steps.man.map (·.epoch) ∧
      ((v.ctx c).layer (layKey z.layer z.convoyB)).slot e.slot =
        if (s.ctx c).live z ∧ !(((s.ctx c).layer (layKey z.layer z.convoyB)).slot e.slot).emptied then
          (((s.ctx c).layer (layKey z.layer z.convoyB)).slot e.slot).dropped e.rank 5
        else ((s.ctx c).layer (layKey z.layer z.convoyB)).slot e.slot := by
    rw [← hv]
    split
    · obtain ⟨man, hdrop, hman⟩ := State.dropRank_ctx (s := u) (by rw [hulen]; exact hc) (layKey z.layer z.convoyB) e.slot e.rank 5
      rw [hdrop]
      refine ⟨rfl, hman.trans (by rw [huctx]), ?_⟩
      refine (congrArg (Layer.slot · e.slot) (Tbl.getD_put_same ..)).trans ((Layer.slot_onSlot ..).trans ?_)
      rw [huslot]
    · exact ⟨rfl, by rw [huctx], huslot⟩
  obtain ⟨hvlands, hvman, hvslot⟩ := hvctx
  obtain ⟨lands, man, hlog, hfaces, hman⟩ := State.logTimeout_ctx (s := v) (by rw [hvlen]; exact hc) z (workDetail z.epoch w.2 e.slot)
  refine ⟨(State.ctxs_length_of_form (by simp)).trans hvlen, ?_, Ctx.live_of_epoch (by rw [hlog]; exact hman.trans hvman) z, ?_⟩
  · rw [hvlands, huctx] at hfaces
    obtain ⟨y, hy, hface⟩ := List.map_eq_singleton_iff.mp hfaces
    exact ⟨y, by rw [hlog]; exact hy, hface.trans (by rw [LandBuf.face, ← hkey]; rfl)⟩
  · rw [← hvslot, hlog]
    rfl

theorem loseRows_land {x : LandBuf} (rows : List (Nat × Nat)) (hlands : (s.ctx c).lands = [x]) (hkey : x.key = z.key) :
    ∃ y, ((loseRows c z rows s).ctx c).lands = [y] ∧ y.key = z.key := by
  induction rows generalizing s x with
  | nil => exact ⟨x, hlands, hkey⟩
  | cons w r ih =>
    by_cases hlost : ∃ e, z.entries[w.1]? = some e ∧ e.st = 0
    · obtain ⟨e, he, h0⟩ := hlost
      obtain ⟨-, ⟨y, hy, hface⟩, -⟩ := State.lostRow_ctx (w := w) (e := e) (State.lt_of_land hlands) hlands hkey
      rw [loseRows_lost he h0]
      exact ih hy (congrArg Prod.fst hface)
    · rw [loseRows_skip fun e he h0 => hlost ⟨e, he, h0⟩]
      exact ih hlands hkey

theorem State.expire_land {x : LandBuf} (p : Outstanding → Bool) (hlands : (s.ctx c).lands = [x]) (hkey : x.key = z.key) :
    ∃ y, ((s.expire c z p).ctx c).lands = [y] ∧ y.key = z.key := by
  unfold State.expire
  split
  · exact ⟨x, hlands, hkey⟩
  · refine List.foldlRecOn (motive := fun t : State => ∃ y, (t.ctx c).lands = [y] ∧ y.key = z.key) _ _ ⟨x, hlands, hkey⟩ fun t ht o _ => ?_
    obtain ⟨y, hy, hykey⟩ := ht
    exact loseRows_land o.rows hy hykey

/-- The row of the one sub-convoy past its deadline is LOST before its answer is looked at. -/
theorem State.expire_one {o : Outstanding} {i q : Nat} (hlands : (s.ctx c).lands = [z]) (hq : z.quarantined = false)
    (hout : (s.ctx c).outstanding z = [o]) (hlate : o.deadline < s.now) (hrows : o.rows = [(i, q)]) (he : z.entries[i]? = some e) (h0 : e.st = 0) :
    ∃ y, ((s.expire c z (fun _ => true)).ctx c).lands = [y] ∧ (y.entries[i]?).map (·.st) = some 3 := by
  have hone : s.expire c z (fun _ => true) = s.lostRow c z (i, q) e := by
    rw [State.expire, hq, if_neg Bool.false_ne_true, hout, List.filter_cons_of_pos (by simpa using hlate), List.filter_nil]
    change loseRows c z o.rows s = _
    rw [hrows, loseRows_lost he h0]
    rfl
  obtain ⟨-, ⟨y, hy, hface⟩, -⟩ := State.lostRow_ctx (w := (i, q)) (e := e) (State.lt_of_land hlands) hlands rfl
  refine ⟨y, by rw [hone]; exact hy, ?_⟩
  rw [show y.entries = _ from congrArg Prod.snd hface]
  exact LandBuf.set_st he 3

/-- An entry that has left EMPTY stays, whatever comes for it. -/
theorem State.takeLive_taken {y : LandBuf} {v : Nat} (hlands : (s.ctx w.ctx).lands = [y]) (hst : (y.entries[w.ret]?).map (·.st) = some v)
    (h0 : v ≠ 0) : ((s.takeLive w row).ctx w.ctx).lands = [y] := by
  have hbump (u : State) (k : Nat) (r : Ctr) (hu : u.ctxs = s.ctxs) : ((u.bumpCtx k r 1).ctx w.ctx).lands = [y] := by
    rw [State.ctx_bumpCtx, State.ctx_of_ctxs hu]
    exact hlands
  obtain ⟨e, he, hest⟩ := Option.map_eq_some_iff.mp hst
  cases hm : !y.quarantined && y.matches w with
  | false =>
    have hnone : [y].find? (fun z => !z.quarantined && z.matches w) = none := by rw [List.find?_cons_of_neg (by rw [hm]; decide)]; rfl
    rw [State.takeLive]
    dsimp only
    rw [hlands, hnone]
    exact hbump s _ _ rfl
  | true =>
    obtain ⟨hq, hmatch⟩ := Bool.and_eq_true_iff.mp hm
    rw [Bool.not_eq_true'] at hq
    by_cases hgen : (s.ctx w.ctx).slotGen y w.slot = w.gen
    · rw [State.takeLive_named hlands hq hmatch hgen he]
      split
      · exact hbump _ _ _ rfl
      · split
        · exact hbump s _ _ rfl
        · rw [if_pos (by rw [hest]; exact h0)]
          exact hbump s _ _ rfl
    · rw [State.takeLive_stale hlands hq hmatch hgen he, if_neg (by rw [hest]; exact h0)]
      exact hbump s _ _ rfl

theorem State.takeLive_stale_entry (hlands : (s.ctx w.ctx).lands = [z]) (hq : z.quarantined = false) (hm : z.matches w = true)
    (hgen : (s.ctx w.ctx).slotGen z w.slot ≠ w.gen) (he : z.entries[w.ret]? = some e) (h0 : e.st = 0) :
    ∃ x, ((s.takeLive w row).ctx w.ctx).lands = [x] ∧ (x.entries[w.ret]?).map (·.st) = some 4 := by
  have hc : w.ctx < (s.bumpCtx w.ctx .staleReturns 1).ctxs.length := by
    rw [State.ctxs_length_of_plain (State.bumpCtx_plain ..)]
    exact State.lt_of_land hlands
  obtain ⟨subs, lastSubs, layers, hset, -⟩ := State.setLanding_ctx hc z w.ret 4
  rw [State.takeLive_stale hlands hq hm hgen he, if_pos h0, hset, State.ctx_bumpCtx, hlands]
  exact ⟨_, LandBuf.one_set z w.ret 4, LandBuf.set_st he 4⟩

/-! ### The timeout of a sub-convoy (6 R140) -/

/-- The drop mask of a slot whose lost rank drops unless the slot was emptied. -/
def Slot.lostMask (r : Slot) (rank : Nat) : Nat := if r.emptied then r.dropMask else r.dropMask ||| 2 ^ rank

/-- One row of a live buffer may be lost by now: what the steps of `loseRows` keep. -/
structure State.Losing (c j : Nat) (z : LandBuf) (e : Landing) (r : Slot) (t : State) : Prop where
  live : (t.ctx c).live z = true
  land : ∃ x, (t.ctx c).lands = [x] ∧ x.key = z.key ∧ (x.entries[j]?).isSome
  emptied : (((t.ctx c).layer (layKey z.layer z.convoyB)).slot e.slot).emptied = r.emptied
  mask : (((t.ctx c).layer (layKey z.layer z.convoyB)).slot e.slot).dropMask = r.dropMask ∨
    (((t.ctx c).layer (layKey z.layer z.convoyB)).slot e.slot).dropMask = r.lostMask e.rank

/-- That row is lost. -/
def State.HasLost (c j : Nat) (z : LandBuf) (e : Landing) (r : Slot) (t : State) : Prop :=
  t.Losing c j z e r ∧ (∃ x, (t.ctx c).lands = [x] ∧ (x.entries[j]?).map (·.st) = some 3) ∧
    (((t.ctx c).layer (layKey z.layer z.convoyB)).slot e.slot).dropMask = r.lostMask e.rank

theorem State.Losing.lost {j q : Nat} {r : Slot} (h : s.Losing c j z e r) : (s.lostRow c z (j, q) e).HasLost c j z e r := by
  obtain ⟨x, hx, hkey, hsome⟩ := h.land
  obtain ⟨old, hold⟩ := Option.isSome_iff_exists.mp hsome
  obtain ⟨-, ⟨y, hy, hface⟩, hlive, hslot⟩ := State.lostRow_ctx (w := (j, q)) (e := e) (State.lt_of_land hx) hx hkey
  rw [h.live, h.emptied] at hslot
  have hst : (y.entries[j]?).map (·.st) = some 3 := by
    rw [show y.entries = _ from congrArg Prod.snd hface]
    exact LandBuf.set_st hold 3
  have hsome' : (y.entries[j]?).isSome := by
    obtain ⟨e', he', -⟩ := Option.map_eq_some_iff.mp hst
    rw [he']
    rfl
  have hmask : ((((s.lostRow c z (j, q) e).ctx c).layer (layKey z.layer z.convoyB)).slot e.slot).dropMask = r.lostMask e.rank ∧
      ((((s.lostRow c z (j, q) e).ctx c).layer (layKey z.layer z.convoyB)).slot e.slot).emptied = r.emptied := by
    rw [hslot, Slot.lostMask]
    cases hr : r.emptied with
    | true =>
      rw [if_neg (by decide), if_pos rfl]
      have hm := h.mask
      rw [Slot.lostMask, hr, if_pos rfl, or_self] at hm
      exact ⟨hm, h.emptied.trans hr⟩
    | false =>
      rw [if_pos (by decide), if_neg (by decide)]
      refine ⟨?_, h.emptied.trans hr⟩
      have hm := h.mask
      rw [Slot.lostMask, hr, if_neg (by decide)] at hm
      rw [Slot.dropped]
      rcases hm with hm | hm <;> rw [hm]
      rw [Nat.or_assoc, Nat.or_self]
  exact ⟨⟨hlive.trans h.live, ⟨y, hy, congrArg Prod.fst hface, hsome'⟩, hmask.2, .inr hmask.1⟩, ⟨y, hy, hst⟩, hmask.1⟩

theorem loseRows_loses {j : Nat} {r : Slot} (rows : List (Nat × Nat)) (he : z.entries[j]? = some e) (h0 : e.st = 0)
    (hrest : ∀ w ∈ rows, w.1 ≠ j → ∀ f, z.entries[w.1]? = some f → f.st ≠ 0) (h : s.Losing c j z e r)
    (hsome : (∃ w ∈ rows, w.1 = j) ∨ s.HasLost c j z e r) : (loseRows c z rows s).HasLost c j z e r := by
  induction rows generalizing s with
  | nil => exact hsome.resolve_left fun ⟨w, hw, _⟩ => List.not_mem_nil hw
  | cons w rows ih =>
    have hrest' : ∀ v ∈ rows, v.1 ≠ j → ∀ f, z.entries[v.1]? = some f → f.st ≠ 0 := fun v hv => hrest v (List.mem_cons_of_mem _ hv)
    by_cases hw : w.1 = j
    · rw [loseRows_lost (by rw [hw]; exact he) h0]
      have hlost : (s.lostRow c z w e).HasLost c j z e r := by
        obtain ⟨i, q⟩ := w
        cases hw
        exact h.lost
      exact ih hrest' hlost.1 (.inr hlost)
    · rw [loseRows_skip (hrest w List.mem_cons_self hw)]
      refine ih hrest' h (hsome.imp_left fun ⟨v, hv, hvj⟩ => ⟨v, (List.mem_cons.mp hv).resolve_left ?_, hvj⟩)
      rintro rfl
      exact hw hvj

theorem returnTimeout_alone {dst i : Nat} (hlands : (s.ctx c).lands = [z]) (hl : z.layer = l) (hb : z.convoyB = b) :
    returnTimeout c l b dst i s = s.expire c z (fun o => o.dst == dst && o.index == i) := by
  rw [returnTimeout, hlands, List.filter_cons_of_pos (by simp [hl, hb]), List.filter_nil]
  rfl

/-- The sub-convoys that a timeout names are the one that the layer holds. -/
theorem Ctx.outstanding_named {x : Ctx} {u : Sub} {dst i : Nat} (hlive : x.live z = true)
    (honly : ∀ v ∈ (x.layer (layKey z.layer z.convoyB)).subs, v.dst = dst → v.index = i → v = u) :
    ∀ o ∈ x.outstanding z, (o.dst == dst && o.index == i) = true → o.deadline = u.deadline ∧ o.rows = u.bills.map (fun w => (w.ret, w.seq)) := by
  intro o ho hname
  rw [Ctx.outstanding, hlive, if_pos rfl] at ho
  obtain ⟨v, hv, rfl⟩ := List.mem_map.mp ho
  simp only [Bool.and_eq_true, beq_iff_eq] at hname
  rw [honly v (List.mem_of_mem_filter hv) hname.1 hname.2]
  exact ⟨rfl, rfl⟩

theorem returnTimeout_early {u : Sub} {dst i : Nat} (hlands : (s.ctx c).lands = [z]) (hl : z.layer = l) (hb : z.convoyB = b)
    (hlive : (s.ctx c).live z = true)
    (honly : ∀ v ∈ ((s.ctx c).layer (layKey z.layer z.convoyB)).subs, v.dst = dst → v.index = i → v = u) (hearly : s.now ≤ u.deadline) :
    returnTimeout c l b dst i s = s := by
  rw [returnTimeout_alone hlands hl hb]
  refine State.expire_none fun o ho hname => ?_
  rw [(Ctx.outstanding_named hlive honly o ho hname).1]
  exact hearly

theorem returnTimeout_loses {u : Sub} {dst i j : Nat} (hlands : (s.ctx c).lands = [z]) (hl : z.layer = l) (hb : z.convoyB = b)
    (hq : z.quarantined = false) (hlive : (s.ctx c).live z = true)
    (hu : ((s.ctx c).layer (layKey z.layer z.convoyB)).sub dst i = some u) (hinj : u.injected = true)
    (honly : ∀ v ∈ ((s.ctx c).layer (layKey z.layer z.convoyB)).subs, v.dst = dst → v.index = i → v = u)
    (hlate : u.deadline < s.now) (hset : u.deadline ≠ 0) (hj : ∃ w ∈ u.bills, w.ret = j) (he : z.entries[j]? = some e) (h0 : e.st = 0)
    (hrest : ∀ w ∈ u.bills, w.ret ≠ j → ∀ f, z.entries[w.ret]? = some f → f.st ≠ 0) :
    (returnTimeout c l b dst i s).HasLost c j z e (((s.ctx c).layer (layKey z.layer z.convoyB)).slot e.slot) := by
  have hstart : s.Losing c j z e (((s.ctx c).layer (layKey z.layer z.convoyB)).slot e.slot) :=
    ⟨hlive, ⟨z, hlands, rfl, by rw [he]; rfl⟩, rfl, .inl rfl⟩
  have hrows : ∀ o ∈ ((s.ctx c).outstanding z).filter (fun o => (o.dst == dst && o.index == i) && decide (o.deadline < s.now)),
      o.rows = u.bills.map (fun w => (w.ret, w.seq)) := fun o ho => by
    obtain ⟨hmem, hpass⟩ := List.mem_filter.mp ho
    exact (Ctx.outstanding_named hlive honly o hmem (Bool.and_eq_true_iff.mp hpass).1).2
  have hfold (os : List Outstanding) (t : State) (hos : ∀ o ∈ os, o.rows = u.bills.map (fun w => (w.ret, w.seq)))
      (ht : t.Losing c j z e (((s.ctx c).layer (layKey z.layer z.convoyB)).slot e.slot))
      (hsome : os ≠ [] ∨ t.HasLost c j z e (((s.ctx c).layer (layKey z.layer z.convoyB)).slot e.slot)) :
      (os.foldl (fun t o => loseRows c z o.rows t) t).HasLost c j z e (((s.ctx c).layer (layKey z.layer z.convoyB)).slot e.slot) := by
    induction os generalizing t with
    | nil => exact hsome.resolve_left fun h => h rfl
    | cons o os ih =>
      have hlost : (loseRows c z o.rows t).HasLost c j z e (((s.ctx c).layer (layKey z.layer z.convoyB)).slot e.slot) := by
        rw [hos o List.mem_cons_self]
        refine loseRows_loses _ he h0 (fun w hw => ?_) ht (.inl ?_)
        · obtain ⟨v, hv, rfl⟩ := List.mem_map.mp hw
          exact hrest v hv
        · obtain ⟨v, hv, hvj⟩ := hj
          exact ⟨_, List.mem_map_of_mem hv, hvj⟩
      exact ih _ (fun p hp => hos p (List.mem_cons_of_mem _ hp)) hlost.1 (.inr hlost)
  rw [returnTimeout_alone hlands hl hb, State.expire, hq, if_neg Bool.false_ne_true]
  refine hfold _ s hrows hstart (.inl (List.ne_nil_of_mem (a := ⟨u.dst, u.index, u.deadline, u.bills.map (fun w => (w.ret, w.seq))⟩) ?_))
  have hkey := List.find?_some hu
  simp only [Bool.and_eq_true, beq_iff_eq] at hkey
  refine List.mem_filter.mpr ⟨?_, by simp [hkey, hlate]⟩
  rw [Ctx.outstanding, hlive, if_pos rfl]
  exact List.mem_map.mpr ⟨u, List.mem_filter.mpr ⟨List.mem_of_find?_eq_some hu, by simp [hinj, hset]⟩, rfl⟩

/-! ### Landing buffers that go (6 R125, R142) -/

theorem State.khanDrop_lands (h : Nat) : ((s.khanDrop h).ctx c).lands = (s.ctx c).lands := by
  have hlands := congrArg Ctx.lands (State.ctx_bare_of (State.khanDrop_bare (s := s) h) c)
  exact hlands

theorem State.dropLand_last {x : LandBuf} (hlands : (s.ctx c).lands = [x]) (hkey : x.key = z.key) : ((s.dropLand c z).ctx c).lands = [] := by
  rw [State.dropLand, State.khanDrop_lands, State.ctx_onCtx _ _ _ _ (State.lt_of_land hlands), if_pos rfl]
  simp only [LandBuf.key, Prod.mk.injEq] at hkey
  simp [hlands, hkey]

end

end

/-! ### Row groups (6 R135, R137) -/

theorem Layer.group_index (y : Layer) (g : Nat) : (y.group g).index = g := by
  unfold Layer.group
  cases hf : y.groups.find? (fun r => r.index == g) with
  | none => rfl
  | some r =>
    have hindex := List.find?_some hf
    exact beq_iff_eq.mp hindex

theorem Layer.group_mem {y : Layer} {g n : Nat} (h : (y.group g).waitFrom = some n) : y.group g ∈ y.groups := by
  unfold Layer.group at h ⊢
  cases hf : y.groups.find? (fun r => r.index == g) with
  | none =>
    rw [hf] at h
    cases h
  | some r => exact List.mem_of_find?_eq_some hf

theorem Layer.mem_onGroup {y : Layer} {g : Nat} {f : Group → Group} {r : Group} (h : r ∈ (y.onGroup g f).groups) :
    (r ∈ y.groups ∧ r.index ≠ g) ∨ r = f (y.group g) := by
  rcases List.mem_append.mp h with h | h
  · obtain ⟨hmem, hne⟩ := List.mem_filter.mp h
    exact .inl ⟨hmem, by simpa using hne⟩
  · exact .inr (List.mem_singleton.mp h)

theorem Layer.group_onGroup (y : Layer) (g : Nat) {f : Group → Group} (hf : ∀ r, (f r).index = r.index) (h : Nat) :
    (y.onGroup g f).group h = if h = g then f (y.group g) else y.group h := by
  have hlast : (f (y.group g)).index = g := (hf _).trans (y.group_index g)
  have hkept : (y.onGroup g f).groups = y.groups.filter (fun r => r.index != g) ++ [f (y.group g)] := rfl
  rw [Layer.group, hkept, List.find?_append, List.find?_filter]
  split
  · next hg =>
    rw [hg]
    have hnone : y.groups.find? (fun r => decide ((r.index != g) = true ∧ (r.index == g) = true)) = none :=
      List.find?_eq_none.mpr fun r _ hr => by simp at hr
    rw [hnone]
    simp [hlast]
  · next hg =>
    have hsame : (fun r : Group => decide ((r.index != g) = true ∧ (r.index == h) = true)) = (fun r => r.index == h) := by
      funext r
      by_cases hr : r.index = h <;> simp [hr, hg]
    have hmiss : [f (y.group g)].find? (fun r => r.index == h) = none := by simp [hlast, Ne.symm hg]
    rw [hsame, hmiss, Option.or_none, ← Layer.group]

theorem Tbl.mem_put {α : Type} {t : Tbl α} {k : Nat} {v : α} {e : Nat × α} (h : e ∈ t.put k v) : e = (k, v) ∨ e ∈ t := by
  induction t with
  | nil => exact .inl (List.mem_singleton.mp h)
  | cons a r ih =>
    obtain ⟨k', v'⟩ := a
    rw [Tbl.put] at h
    split at h
    · exact List.mem_cons.mp h
    · split at h
      · exact (List.mem_cons.mp h).imp_right (List.mem_cons_of_mem _)
      · rcases List.mem_cons.mp h with h | h
        · exact .inr (by rw [h]; exact List.mem_cons_self)
        · exact (ih h).imp_right (List.mem_cons_of_mem _)

theorem Tbl.mem_of_getD {α : Type} {t : Tbl α} {k : Nat} {d v : α} (h : t.getD k d = v) (hv : v ≠ d) : (k, v) ∈ t := by
  induction t with
  | nil => exact absurd h.symm hv
  | cons a r ih =>
    obtain ⟨k', v'⟩ := a
    rw [Tbl.getD] at h
    split at h
    · next hk =>
      rw [hk, h]
      exact List.mem_cons_self
    · exact List.mem_cons_of_mem _ (ih h)

section
variable {s t : State} {c k l g : Nat} {b : Bool}

/-! ### Claims that wait (6 R137) -/

theorem State.mem_claims {w : Nat × Nat × Nat × Nat} : w ∈ s.waitingClaims ↔
    ∃ c < 16, ∃ e ∈ (s.ctx c).layers, ∃ r ∈ e.2.groups, ∃ n, r.waitFrom = some n ∧ w = (n, c, e.1, r.index) := by
  simp only [State.waitingClaims, List.mem_flatten, List.mem_map, List.mem_range]
  constructor
  · rintro ⟨-, ⟨c, hc, rfl⟩, hw⟩
    obtain ⟨m, hm, hw⟩ := List.mem_flatten.mp hw
    obtain ⟨e, he, rfl⟩ := List.mem_map.mp hm
    obtain ⟨r, hr, hrw⟩ := List.mem_filterMap.mp hw
    obtain ⟨n, hn, rfl⟩ := Option.map_eq_some_iff.mp hrw
    exact ⟨c, hc, e, he, r, hr, n, hn, rfl⟩
  · rintro ⟨c, hc, e, he, r, hr, n, hn, rfl⟩
    exact ⟨_, ⟨c, hc, rfl⟩, List.mem_flatten.mpr ⟨_, List.mem_map_of_mem he, List.mem_filterMap.mpr ⟨r, hr, by rw [hn]; rfl⟩⟩⟩

theorem State.claims_layer {r : Group} {n : Nat} (h16 : c < 16) (hr : r ∈ ((s.ctx c).layer k).groups) (hn : r.waitFrom = some n) :
    (n, c, k, r.index) ∈ s.waitingClaims := by
  refine State.mem_claims.mpr ⟨c, h16, _, Tbl.mem_of_getD (v := (s.ctx c).layer k) rfl fun h => ?_, r, hr, n, hn, rfl⟩
  rw [h] at hr
  cases hr

/-- A change of a layer that opens no wait opens no claim. -/
theorem State.claims_onLayer {f : Layer → Layer} {w : Nat × Nat × Nat × Nat}
    (h : ∀ r ∈ (f ((s.ctx c).layer k)).groups, ∀ n, r.waitFrom = some n →
      ∃ q ∈ ((s.ctx c).layer k).groups, q.waitFrom = some n ∧ q.index = r.index)
    (hw : w ∈ (s.onLayer c k f).waitingClaims) : w ∈ s.waitingClaims := by
  obtain ⟨d, hd, e, he, r, hr, n, hn, rfl⟩ := State.mem_claims.mp hw
  by_cases hchanged : c = d ∧ c < s.ctxs.length
  · obtain ⟨rfl, hc⟩ := hchanged
    rw [State.ctx_onLayer hc] at he
    rcases Tbl.mem_put he with rfl | he
    · obtain ⟨q, hq, hqn, hindex⟩ := h r hr n hn
      rw [← hindex]
      exact State.claims_layer hd hq hqn
    · exact State.mem_claims.mpr ⟨c, hd, e, he, r, hr, n, hn, rfl⟩
  · simp only [State.onLayer, State.onCtx, State.ctx, updAt_getD, if_neg hchanged] at he
    exact State.mem_claims.mpr ⟨d, hd, e, he, r, hr, n, hn, rfl⟩

theorem State.claims_of_layers (h : ∀ d, (t.ctx d).layers = (s.ctx d).layers) : t.waitingClaims = s.waitingClaims := by
  simp only [State.waitingClaims, h]

/-! ### A spilled row group (6 R137) -/

theorem cutSoft_getD (n k : Nat) (ys : Tbl Layer) : ∃ v, (cutSoft n ys).2.getD k Layer.fresh = { ys.getD k Layer.fresh with softBays := v } := by
  induction ys generalizing n with
  | nil => exact ⟨_, rfl⟩
  | cons a r ih =>
    obtain ⟨k', y⟩ := a
    rw [cutSoft]
    dsimp only
    rw [Tbl.getD, Tbl.getD]
    split
    · exact ⟨_, rfl⟩
    · exact ih _

theorem cutSoftAll_getD (n c : Nat) (xs : List Ctx) : ∃ m, (cutSoftAll n xs).getD c Ctx.fresh =
    { xs.getD c Ctx.fresh with layers := (cutSoft m (xs.getD c Ctx.fresh).layers).2 } := by
  induction xs generalizing n c with
  | nil => exact ⟨0, rfl⟩
  | cons x r ih =>
    rw [cutSoftAll]
    cases c with
    | zero => exact ⟨n, rfl⟩
    | succ c => exact ih _ c

theorem Ctx.convoy_of_steps {x y : Ctx} (h : x.steps = y.steps) (b : Bool) : x.convoy b = y.convoy b := by
  rw [Ctx.convoy, Ctx.man, h, ← Ctx.man, ← Ctx.convoy]

/-- A context's row group is spilled, nothing waits in its layer, and the layer's queue is known. -/
structure State.Spilt (x : Ctx) (n c k g : Nat) (Q : List (Bill × List Nat)) (t : State) : Prop where
  length  : t.ctxs.length = n
  share   : (t.ctx c).share = x.share
  steps   : (t.ctx c).steps = x.steps
  queue   : ((t.ctx c).layer k).queue = Q
  waits   : ∀ r ∈ ((t.ctx c).layer k).groups, r.waitFrom = none
  spilled : (((t.ctx c).layer k).group g).spilled = true

section
variable {x : Ctx} {n : Nat} {Q : List (Bill × List Nat)}

theorem State.Spilt.onLayer (h : s.Spilt x n c k g Q) (hc : c < n) {f : Layer → Layer} (hq : (f ((s.ctx c).layer k)).queue = Q)
    (hw : ∀ r ∈ (f ((s.ctx c).layer k)).groups, r.waitFrom = none) (hs : ((f ((s.ctx c).layer k)).group g).spilled = true) :
    (s.onLayer c k f).Spilt x n c k g Q := by
  have hlen : c < s.ctxs.length := by rw [h.length]; exact hc
  have hlayer := State.layer_onLayer hlen k f
  exact ⟨(State.onLayer_length ..).trans h.length, by rw [State.ctx_onLayer hlen]; exact h.share,
    by rw [State.ctx_onLayer hlen]; exact h.steps, by rw [hlayer]; exact hq, by rw [hlayer]; exact hw, by rw [hlayer]; exact hs⟩

theorem State.Spilt.of_same (h : s.Spilt x n c k g Q) (hlen : t.ctxs.length = s.ctxs.length) (hshare : (t.ctx c).share = (s.ctx c).share)
    (hsteps : (t.ctx c).steps = (s.ctx c).steps) {v : Nat} (hlayer : (t.ctx c).layer k = { (s.ctx c).layer k with softBays := v }) :
    t.Spilt x n c k g Q := by
  refine ⟨hlen.trans h.length, hshare.trans h.share, hsteps.trans h.steps, ?_, ?_, ?_⟩
  · rw [hlayer]; exact h.queue
  · rw [hlayer]; exact h.waits
  · rw [hlayer]; exact h.spilled

theorem State.Spilt.combineNow (h : s.Spilt x n c k g Q) (hc : c < n) (w : Bill) (row : List Nat) : (s.combineNow c w k row).Spilt x n c k g Q :=
  h.onLayer hc (f := fun y => y.onSlot w.slot _) h.queue h.waits h.spilled

theorem State.Spilt.onGroup (h : s.Spilt x n c k g Q) (j : Nat) {f : Group → Group} (hindex : ∀ r, (f r).index = r.index)
    (hwait : ∀ r, r.waitFrom = none → (f r).waitFrom = none) (hspill : ∀ r, (f r).spilled = r.spilled) :
    (∀ r ∈ (((s.ctx c).layer k).onGroup j f).groups, r.waitFrom = none) ∧
      ((((s.ctx c).layer k).onGroup j f).group g).spilled = true := by
  refine ⟨fun r hr => ?_, ?_⟩
  · rcases Layer.mem_onGroup hr with ⟨hr, -⟩ | rfl
    · exact h.waits r hr
    · refine hwait _ ?_
      by_contra hsome
      obtain ⟨m, hm⟩ := Option.ne_none_iff_exists'.mp hsome
      exact hsome (h.waits _ (Layer.group_mem hm))
  · rw [Layer.group_onGroup _ _ hindex]
    split
    · next hg =>
      rw [hspill, ← hg]
      exact h.spilled
    · exact h.spilled

theorem State.Spilt.drainGroup (h : s.Spilt x n c (layKey l b) g Q) (hc : c < n)
    (hQ : Q.filter (fun q => groupOf (rowBytes x.share.dModel) (x.convoy b).1 q.1.slot != g) = Q) :
    (s.drainGroup c l b g).Spilt x n c (layKey l b) g Q := by
  rw [State.drainGroup]
  dsimp only
  rw [h.share, Ctx.convoy_of_steps h.steps]
  obtain ⟨hw, hs⟩ := h.onGroup g (f := fun r => { r with waitFrom := none }) (fun _ => rfl) (fun _ _ => rfl) (fun _ => rfl)
  refine List.foldlRecOn (motive := fun t : State => t.Spilt x n c (layKey l b) g Q) _ _ ?_ fun t ht q _ => ht.combineNow hc ..
  exact h.onLayer hc (by dsimp only; rw [h.queue]; exact hQ) hw hs

theorem State.Spilt.drainHeld (h : s.Spilt x n c (layKey l b) g Q) : (s.drainHeld c l b).Spilt x n c (layKey l b) g Q := by
  have hnone : ((s.ctx c).layer (layKey l b)).groups.filter (fun g => g.waitFrom.isSome && s.holds c l b g.index) = [] :=
    List.filter_eq_nil_iff.mpr fun r hr hheld => by
      rw [h.waits r hr] at hheld
      cases hheld
  rw [State.drainHeld, hnone]
  exact h

theorem State.Spilt.trimSoft (h : s.Spilt x n c k g Q) : s.trimSoft.Spilt x n c k g Q := by
  unfold State.trimSoft
  split
  · exact h
  · obtain ⟨m, hm⟩ := cutSoftAll_getD (s.softTotal - s.poolFree) c s.ctxs
    obtain ⟨v, hv⟩ := cutSoft_getD m k (s.ctx c).layers
    refine h.of_same (cutSoftAll_length ..) ?_ ?_ (v := v) ?_
    · have hshare := congrArg Ctx.share hm
      exact hshare
    · have hsteps := congrArg Ctx.steps hm
      exact hsteps
    · have hlayer := congrArg (fun y : Ctx => y.layer k) hm
      exact hlayer.trans hv

/-- Bays taken for a place. -/
theorem State.Spilt.took (h : s.Spilt x n c k g Q) (hc : c < n) (col m q r left soft : Nat) :
    (s.onLayer c k (fun y => { (y.onGroup col (fun g => { g with fromMin := m, fromSet := q, fromPool := r })) with
      minLeft := y.minLeft - left, softBays := y.softBays - soft })).Spilt x n c k g Q := by
  obtain ⟨hw, hs⟩ := h.onGroup col (f := fun g => { g with fromMin := m, fromSet := q, fromPool := r }) (fun _ => rfl) (fun _ h => h)
    fun _ => rfl
  exact h.onLayer hc h.queue hw hs

theorem State.Spilt.claimCol {p col : Nat} (h : s.Spilt x n c (layKey l b) g Q) (hc : c < n) (ht : s.claimCol c l b p col = some t) :
    t.Spilt x n c (layKey l b) g Q := by
  unfold State.claimCol at ht
  dsimp only at ht
  split at ht
  · cases ht
    exact h
  · split at ht <;> cases ht
    have hused (q r : Nat) : ({ (s.onCtx c (fun x => { x with setUsed := x.setUsed + q })) with poolUsed := r } : State).Spilt x n c (layKey l b) g Q := by
      have hctx : ({ (s.onCtx c (fun x => { x with setUsed := x.setUsed + q })) with poolUsed := r } : State).ctx c =
          { s.ctx c with setUsed := (s.ctx c).setUsed + q } :=
        (State.ctx_onCtx _ _ _ _ (by rw [h.length]; exact hc)).trans (if_pos rfl)
      exact h.of_same (State.onCtx_length ..) (by rw [hctx]) (by rw [hctx]) (v := ((s.ctx c).layer (layKey l b)).softBays) (by rw [hctx]; rfl)
    exact ((hused _ _).took hc col ..).trimSoft

theorem State.Spilt.claimAll {p : Nat} (cols : List Nat) {s t : State} (h : s.Spilt x n c (layKey l b) g Q) (hc : c < n)
    (ht : claimAll c l b p cols s = some t) : t.Spilt x n c (layKey l b) g Q := by
  induction cols generalizing s with
  | nil =>
    cases ht
    exact h
  | cons col r ih =>
    rw [Machine.claimAll] at ht
    split at ht
    · cases ht
    · next u hu => exact ih (h.claimCol hc hu) ht

theorem State.Spilt.claimGroup (h : s.Spilt x n c (layKey l b) g Q) (hc : c < n) (ht : s.claimGroup c l b g = some t) :
    t.Spilt x n c (layKey l b) g Q := by
  unfold State.claimGroup at ht
  dsimp only at ht
  split at ht
  · cases ht
  · next u hu =>
    split at ht <;> cases ht
    exact State.Spilt.claimAll _ h hc hu

/-- A layer one of whose groups spills. -/
def Layer.spill (y : Layer) (rb first g : Nat) : Layer :=
  { (y.onGroup g (fun r => { r with spilled := true })) with
    slots := y.slots.mapV (fun n r => if groupOf rb first n = g then { r with spilled := true } else r) }

/-- A layer one of whose groups waits no more. -/
def Layer.drain (y : Layer) (rb first g : Nat) : Layer :=
  { (y.onGroup g (fun r => { r with waitFrom := none })) with
    queue := y.queue.filter (fun q => groupOf rb first q.1.slot != g) }

theorem State.drainGroup_eq : s.drainGroup c l b g =
    (((s.ctx c).layer (layKey l b)).queue.filter (fun q =>
      groupOf (rowBytes (s.ctx c).share.dModel) ((s.ctx c).convoy b).1 q.1.slot == g)).foldl
      (fun t q => t.combineNow c q.1 (layKey l b) q.2)
      (s.onLayer c (layKey l b) (fun y => y.drain (rowBytes (s.ctx c).share.dModel) ((s.ctx c).convoy b).1 g)) := rfl

theorem State.spillGroup_eq : s.spillGroup c l b g =
    ((s.onLayer c (layKey l b) (fun y => y.spill (rowBytes (s.ctx c).share.dModel) ((s.ctx c).convoy b).1 g)).bumpCtx c
      .spilledGroups 1).drainGroup c l b g := rfl

theorem Layer.mem_spill {y : Layer} {rb first : Nat} {r : Group} (h : r ∈ (y.spill rb first g).groups) :
    (r ∈ y.groups ∧ r.index ≠ g) ∨ r = { y.group g with spilled := true } :=
  Layer.mem_onGroup (y := y) (f := fun r => { r with spilled := true }) h

theorem Layer.mem_drain {y : Layer} {rb first : Nat} {r : Group} (h : r ∈ (y.drain rb first g).groups) :
    (r ∈ y.groups ∧ r.index ≠ g) ∨ r.waitFrom = none :=
  (Layer.mem_onGroup (y := y) (f := fun r => { r with waitFrom := none }) h).imp_right fun h => by rw [h]

theorem Layer.spilled_drain_spill (y : Layer) (rb first p q : Nat) : (((y.spill rb first g).drain p q g).group g).spilled = true := by
  have hspill : (y.spill rb first g).group g = { y.group g with spilled := true } :=
    (y.group_onGroup g (f := fun r => { r with spilled := true }) (fun _ => rfl) g).trans (if_pos rfl)
  have hdrain : ((y.spill rb first g).drain p q g).group g = { (y.spill rb first g).group g with waitFrom := none } :=
    ((y.spill rb first g).group_onGroup g (f := fun r => { r with waitFrom := none }) (fun _ => rfl) g).trans (if_pos rfl)
  rw [hdrain, hspill]

/-- A spilled group waits no more, and its answers have left the queue. -/
theorem State.spillGroup_spilt (hc : c < s.ctxs.length)
    (hothers : ∀ r ∈ ((s.ctx c).layer (layKey l b)).groups, r.index ≠ g → r.waitFrom = none) :
    (s.spillGroup c l b g).Spilt (s.ctx c) s.ctxs.length c (layKey l b) g (((s.ctx c).layer (layKey l b)).queue.filter (fun q =>
      groupOf (rowBytes (s.ctx c).share.dModel) ((s.ctx c).convoy b).1 q.1.slot != g)) := by
  rw [State.spillGroup_eq]
  generalize hu : (s.onLayer c (layKey l b) (fun y => y.spill (rowBytes (s.ctx c).share.dModel) ((s.ctx c).convoy b).1 g)).bumpCtx c
    .spilledGroups 1 = u
  have huc : c < u.ctxs.length := by
    rw [← hu, State.ctxs_length_of_plain (State.bumpCtx_plain ..), State.onLayer_length]
    exact hc
  have huctx : u.ctx c = { s.ctx c with ctr := (u.ctx c).ctr, layers := (u.ctx c).layers } := by
    rw [← hu, State.ctx_bumpCtx, State.ctx_onLayer hc]
  have hulayer : (u.ctx c).layer (layKey l b) =
      ((s.ctx c).layer (layKey l b)).spill (rowBytes (s.ctx c).share.dModel) ((s.ctx c).convoy b).1 g := by
    rw [← hu, State.ctx_bumpCtx]
    exact State.layer_onLayer hc ..
  have hconvoy : (u.ctx c).convoy b = (s.ctx c).convoy b := Ctx.convoy_of_steps (by rw [huctx]) b
  have hshare : (u.ctx c).share = (s.ctx c).share := by rw [huctx]
  rw [State.drainGroup_eq, hconvoy, hshare]
  refine List.foldlRecOn (motive := fun t : State => t.Spilt (s.ctx c) s.ctxs.length c (layKey l b) g _) _ _ ?_ fun t ht q _ => ht.combineNow hc ..
  have hvlayer := State.layer_onLayer huc (layKey l b) (fun y => y.drain (rowBytes (s.ctx c).share.dModel) ((s.ctx c).convoy b).1 g)
  rw [hulayer] at hvlayer
  refine ⟨?_, ?_, ?_, by rw [hvlayer]; rfl, fun r hr => ?_, by rw [hvlayer]; exact Layer.spilled_drain_spill ..⟩
  · rw [State.onLayer_length, ← hu, State.ctxs_length_of_plain (State.bumpCtx_plain ..), State.onLayer_length]
  · rw [State.ctx_onLayer huc]
    exact hshare
  · rw [State.ctx_onLayer huc, huctx]
  · rw [hvlayer] at hr
    rcases Layer.mem_drain hr with ⟨hr, hne⟩ | hnone
    · rcases Layer.mem_spill hr with ⟨hr, -⟩ | rfl
      · exact hothers r hr hne
      · exact absurd (Layer.group_index ..) hne
    · exact hnone

/-- A spill opens no claim. -/
theorem State.claims_spillGroup {w : Nat × Nat × Nat × Nat} (hw : w ∈ (s.spillGroup c l b g).waitingClaims) : w ∈ s.waitingClaims := by
  have hcombine (u : State) (q : Bill × List Nat) (h : w ∈ (u.combineNow c q.1 (layKey l b) q.2).waitingClaims) : w ∈ u.waitingClaims :=
    State.claims_onLayer (fun r hr n hn => ⟨r, hr, hn, rfl⟩) h
  have hfold (qs : List (Bill × List Nat)) (u : State)
      (h : w ∈ (qs.foldl (fun t q => t.combineNow c q.1 (layKey l b) q.2) u).waitingClaims) : w ∈ u.waitingClaims := by
    induction qs generalizing u with
    | nil => exact h
    | cons q qs ih => exact hcombine u q (ih _ h)
  rw [State.spillGroup_eq, State.drainGroup_eq] at hw
  have hdrained := State.claims_onLayer (fun r hr n hn => by
    rcases Layer.mem_drain hr with ⟨hr, -⟩ | hnone
    · exact ⟨r, hr, hn, rfl⟩
    · rw [hnone] at hn
      cases hn) (hfold _ _ hw)
  have hbump (v : State) : (v.bumpCtx c .spilledGroups 1).waitingClaims = v.waitingClaims :=
    State.claims_of_layers fun d => by rw [State.ctx_bumpCtx]
  rw [hbump] at hdrained
  refine State.claims_onLayer (fun r hr n hn => ?_) hdrained
  rcases Layer.mem_spill hr with ⟨hr, -⟩ | rfl
  · exact ⟨r, hr, hn, rfl⟩
  · exact ⟨_, Layer.group_mem hn, hn, rfl⟩

theorem bayWaitSpill_spills {n : Nat} (hc : c < s.ctxs.length) (hwait : (((s.ctx c).layer (layKey l b)).group g).waitFrom = some n)
    (hheld : s.holds c l b g = false) (hdue : n + 1000 ≤ s.now) (hclaims : s.waitingClaims = [(n, c, layKey l b, g)]) :
    let t := bayWaitSpill c l b g s
    (((t.ctx c).layer (layKey l b)).group g).spilled = true ∧ (((t.ctx c).layer (layKey l b)).group g).waitFrom = none ∧
      ((t.ctx c).layer (layKey l b)).queue = ((s.ctx c).layer (layKey l b)).queue.filter (fun q =>
        groupOf (rowBytes (s.ctx c).share.dModel) ((s.ctx c).convoy b).1 q.1.slot != g) := by
  have h16 : c < 16 := by
    have hmem : (n, c, layKey l b, g) ∈ s.waitingClaims := by
      rw [hclaims]
      exact List.mem_singleton_self _
    obtain ⟨d, hd, e, -, r, -, m, -, heq⟩ := State.mem_claims.mp hmem
    simp only [Prod.mk.injEq] at heq
    rw [heq.2.1]
    exact hd
  have hothers : ∀ r ∈ ((s.ctx c).layer (layKey l b)).groups, r.index ≠ g → r.waitFrom = none := fun r hr hne => by
    by_contra hsome
    obtain ⟨m, hm⟩ := Option.ne_none_iff_exists'.mp hsome
    have hclaim := State.claims_layer h16 hr hm
    rw [hclaims, List.mem_singleton] at hclaim
    simp only [Prod.mk.injEq] at hclaim
    exact hne hclaim.2.2.2
  have hspilt := State.spillGroup_spilt hc hothers
  have hend : (bayWaitSpill c l b g s).Spilt (s.ctx c) s.ctxs.length c (layKey l b) g (((s.ctx c).layer (layKey l b)).queue.filter (fun q =>
      groupOf (rowBytes (s.ctx c).share.dModel) ((s.ctx c).convoy b).1 q.1.slot != g)) := by
    rw [bayWaitSpill, hwait]
    dsimp only
    rw [if_neg (by rw [hheld]; decide), if_pos hdue, hclaims, List.length_singleton, serveClaims]
    split
    · exact hspilt
    · next d k j hmin =>
      have hclaim := State.claims_spillGroup (minBy_mem hmin)
      rw [hclaims, List.mem_singleton] at hclaim
      simp only [Prod.mk.injEq] at hclaim
      obtain ⟨-, rfl, rfl, rfl⟩ := hclaim
      have hkey : layKey l b / 2 = l ∧ (layKey l b % 2 == 1) = b := by
        have hbit : b2n b < 2 := by cases b <;> decide
        refine ⟨by rw [layKey]; omega, ?_⟩
        rw [layKey, Nat.mul_add_mod, Nat.mod_eq_of_lt hbit]
        cases b <;> rfl
      rw [hkey.1, hkey.2]
      split
      · next t ht => exact (((hspilt.claimGroup hc ht).drainGroup hc (by simp)).drainHeld)
      · exact hspilt
  refine ⟨hend.spilled, ?_, hend.queue⟩
  by_contra hsome
  obtain ⟨m, hm⟩ := Option.ne_none_iff_exists'.mp hsome
  exact hsome (hend.waits _ (Layer.group_mem hm))

/-! ### The row of a slot is handed back (6 R144, R145) -/

/-- The hand-back of a slot's row: the row is final, the residual row is written where a fused pass ran, and the die has it. -/
def State.handBack (s : State) (c l : Nat) (b : Bool) (slot die epoch : Nat) (acc : Row) (upd : List Nat) (body : List Byte)
    (fused clamped own : Bool) (fmt renorm : Nat) : State :=
  let k := layKey l b
  let s0 := s.onLayer c k (fun y => { (y.onSlot slot (fun r => { r with
      summed := true, handed := true, acc := acc, planes := [] })) with
    resid := if fused then y.resid.adjust slot (fun z => (z.1, upd)) else y.resid })
  let s1 := if fused then s0.residWrite c l slot fmt upd else s0
  let s2 := (s1.bumpCtx c .renormSlots renorm).bumpCtx c .normClamps (b2n clamped)
  let s3 := if own then s2.ownStrings c false true else s2
  ((s3.emit (.ucie die 0x3 c epoch l b slot false body)).freeRow c l b slot).completeLayer c l b

theorem State.slots_onLayer {f : Layer → Layer} (hf : (f ((s.ctx c).layer k)).slots = ((s.ctx c).layer k).slots) :
    (((s.onLayer c k f).ctx c).layer k).slots = ((s.ctx c).layer k).slots := by
  by_cases hc : c < s.ctxs.length
  · rw [State.layer_onLayer hc]
    exact hf
  · simp only [State.onLayer, State.onCtx, State.ctx, updAt_getD]
    rw [if_neg fun h => hc h.2]

theorem State.layers_onCtx (d : Nat) {f : Ctx → Ctx} (hf : ∀ x, (f x).layers = x.layers) : ((s.onCtx d f).ctx c).layers = (s.ctx c).layers := by
  simp only [State.onCtx, State.ctx, updAt_getD]
  split
  · next h =>
    rw [hf, h.1]
  · rfl

theorem State.slots_of_layers (h : (t.ctx c).layers = (s.ctx c).layers) : ((t.ctx c).layer k).slots = ((s.ctx c).layer k).slots := by
  rw [Ctx.layer, h, ← Ctx.layer]

theorem State.slots_freeCol (col : Nat) : (((s.freeCol c k col).ctx c).layer k).slots = ((s.ctx c).layer k).slots := by
  refine Eq.trans ?_ (State.slots_onLayer (f := fun y => { (y.onGroup col (fun g => { g with fromMin := 0, fromSet := 0, fromPool := 0 })) with
    minLeft := y.minLeft + (((s.ctx c).layer k).group col).fromMin }) rfl)
  exact State.slots_of_layers (State.layers_onCtx c (f := fun x => { x with setUsed := x.setUsed - (((s.ctx c).layer k).group col).fromSet })
    fun _ => rfl)

theorem State.slots_freeRow (slot : Nat) : (((s.freeRow c l b slot).ctx c).layer (layKey l b)).slots = ((s.ctx c).layer (layKey l b)).slots :=
  List.foldlRecOn (motive := fun t : State => ((t.ctx c).layer (layKey l b)).slots = _) _ _ rfl fun _ ht _ _ =>
    (State.slots_freeCol _).trans ht

theorem State.slots_completeLayer : (((s.completeLayer c l b).ctx c).layer (layKey l b)).slots = ((s.ctx c).layer (layKey l b)).slots := by
  unfold State.completeLayer
  dsimp only
  split
  · rfl
  · refine (State.slots_of_layers (State.layers_onCtx c fun _ => by rfl)).trans ((State.slots_onLayer
      (f := fun y => { y with softBays := 0, softCredits := [] }) rfl).trans ((State.slots_onLayer (f := fun y => { y with done := true })
        rfl).trans (State.slots_of_layers ?_)))
    exact List.foldlRecOn (motive := fun t : State => (t.ctx c).layers = (s.ctx c).layers) _ _ rfl fun _ ht _ _ => ht

theorem State.freeRow_works {u : State} (hs : u.Works s) (c l : Nat) (b : Bool) (slot : Nat) : u.Works (s.freeRow c l b slot) :=
  works_foldl hs _ fun _ _ ht => State.freeCol_works ht ..

theorem State.completeLayer_works {u : State} (hs : u.Works s) (c l : Nat) (b : Bool) : u.Works (s.completeLayer c l b) := by
  unfold State.completeLayer
  exact works_ite hs (State.onCtx_works (State.releaseSoft_works (State.onLayer_works (works_foldl hs _ fun _ _ ht =>
    State.emit_works ht _) ..) ..) c fun _ => by rfl)

theorem State.ownStrings_layers (mma sfn : Bool) : ((s.ownStrings c mma sfn).ctx c).layers = (s.ctx c).layers := by
  have hlayers := congrArg Ctx.layers (State.ctx_bare_of (State.ownStrings_bare (s := s) c mma sfn) c)
  exact hlayers

theorem State.residWrite_keeps (slot fmt : Nat) (row : List Nat) : (s.residWrite c l slot fmt row).ctxs = s.ctxs ∧
    (s.residWrite c l slot fmt row).out = s.out := by
  refine List.foldlRecOn (motive := fun t : State => t.ctxs = s.ctxs ∧ t.out = s.out) _ _ ⟨rfl, rfl⟩ fun t ht z _ => ?_
  split <;> exact ht

theorem residBytes_length (fmt : Nat) (row : List Nat) : (row.flatMap (fun v => toLE (outBytes fmt) v)).length = row.length * outBytes fmt := by
  rw [List.length_flatMap]
  simp [toLE_length]

/-- A residual row changes no byte outside its place. -/
theorem State.residWrite_outside {a slot fmt : Nat} {row : List Nat}
    (h : ∀ i < row.length * outBytes fmt, (s.ctx c).residAt c l slot i ≠ some a) : (s.residWrite c l slot fmt row).byteAt a = s.byteAt a := by
  refine List.foldlRecOn (motive := fun t : State => t.byteAt a = s.byteAt a) _ _ rfl fun t ht z hz => ?_
  have hlt := List.snd_lt_of_mem_zipIdx hz
  rw [residBytes_length] at hlt
  split
  · next v hv =>
    rw [State.byteAt_writeAt, if_neg ?_]
    · exact ht
    · intro hin
      rw [List.length_singleton] at hin
      rw [show v = a by omega] at hv
      exact h _ (by omega) hv
  · exact ht

theorem State.handBack_hands {slot die epoch fmt renorm : Nat} {acc : Row} {upd : List Nat} {body : List Byte} {fused clamped own : Bool}
    (hc : c < s.ctxs.length) : let t := s.handBack c l b slot die epoch acc upd body fused clamped own fmt renorm
    (((t.ctx c).layer (layKey l b)).slot slot).handed = true ∧ Out.ucie die 0x3 c epoch l b slot false body ∈ t.out ∧
      (fused = false → t.mem = s.mem) ∧
      (∀ a, (∀ i < upd.length * outBytes fmt, (s.ctx c).residAt c l slot i ≠ some a) → t.byteAt a = s.byteAt a) := by
  dsimp only
  rw [State.handBack]
  dsimp only
  generalize h0 : s.onLayer c (layKey l b) _ = s0
  have hs0 : (((s0.ctx c).layer (layKey l b)).slot slot).handed = true := by
    rw [← h0, State.layer_onLayer hc]
    exact congrArg Slot.handed (Tbl.getD_put_same ..)
  have hunits : ∀ i, (s0.ctx c).residAt c l slot i = (s.ctx c).residAt c l slot i := fun i => by
    rw [← h0, State.ctx_onLayer hc]
    rfl
  have hmem0 : s0.mem = s.mem := by rw [← h0]; rfl
  generalize h1 : (if fused then s0.residWrite c l slot fmt upd else s0) = s1
  have hs1 : s1.ctxs = s0.ctxs ∧ (fused = false → s1.mem = s.mem) ∧
      ∀ a, (∀ i < upd.length * outBytes fmt, (s.ctx c).residAt c l slot i ≠ some a) → s1.byteAt a = s.byteAt a := by
    rw [← h1]
    cases fused with
    | true =>
      refine ⟨(State.residWrite_keeps ..).1, nofun, fun a ha => (State.residWrite_outside fun i hi => ?_).trans (State.byteAt_of_mem hmem0 a)⟩
      rw [hunits]
      exact ha i hi
    | false => exact ⟨rfl, fun _ => hmem0, fun a _ => State.byteAt_of_mem hmem0 a⟩
  generalize h2 : (s1.bumpCtx c .renormSlots renorm).bumpCtx c .normClamps (b2n clamped) = s2
  generalize h3 : (if own then s2.ownStrings c false true else s2) = s3
  have hs3 : (s3.ctx c).layers = (s0.ctx c).layers ∧ s3.mem = s1.mem := by
    have hs2 : (s2.ctx c).layers = (s0.ctx c).layers ∧ s2.mem = s1.mem := by
      rw [← h2, State.ctx_bumpCtx, State.ctx_bumpCtx, State.ctx_of_ctxs hs1.1]
      exact ⟨rfl, rfl⟩
    rw [← h3]
    split
    · exact ⟨(State.ownStrings_layers ..).trans hs2.1, (State.mem_of_form (State.ownStrings_form ..)).trans hs2.2⟩
    · exact hs2
  have hmem : (((s3.emit (.ucie die 0x3 c epoch l b slot false body)).freeRow c l b slot).completeLayer c l b).mem = s1.mem :=
    (State.mem_of_form ((State.completeLayer_form ..).trans (State.freeRow_form ..))).trans hs3.2
  have hslots : (((((s3.emit (.ucie die 0x3 c epoch l b slot false body)).freeRow c l b slot).completeLayer c l b).ctx c).layer (layKey l b)).slots =
      ((s0.ctx c).layer (layKey l b)).slots :=
    State.slots_completeLayer.trans ((State.slots_freeRow slot).trans (State.slots_of_layers hs3.1))
  refine ⟨?_, ?_, fun hf => hmem.trans (hs1.2.1 hf), fun a ha => (State.byteAt_of_mem hmem a).trans (hs1.2.2 a ha)⟩
  · rw [Layer.slot, hslots]
    exact hs0
  · exact (State.completeLayer_works (State.freeRow_works (.refl _) ..) ..).out (List.mem_append_right _ (List.mem_singleton_self _))

theorem Sfn.normalise_length (rev : Nat) (h : List (BitVec 32)) (mean : Bool) (eps : BitVec 32) (gamma beta : List (BitVec 16)) :
    (Sfn.normalise rev h mean eps gamma beta).1.length = h.length := by
  unfold Sfn.normalise
  dsimp only
  split
  · exact List.length_map ..
  · split
    · exact (List.length_map ..).trans List.length_range
    · exact (List.length_map ..).trans List.length_range

theorem rowBytes_length (f : BitVec 32 → Nat) (n : Nat) (row : Row) : ((row.map (fun v => toLE n (f v))).flatten).length = row.length * n := by
  rw [List.length_flatten, List.map_map]
  simp [Function.comp_def, toLE_length]

/-- A complete slot's row is handed back; where no fused pass runs, it is the final combine row. -/
theorem fusedPass_hands {slot die : Nat} {x : List Nat} {m : Manifest} (hman : (s.ctx c).steps.man = some m)
    (hhidden : ((s.ctx c).layer (layKey l b)).hidden.find slot = some (die, x)) (hlo : ((s.ctx c).convoy b).1 ≤ slot)
    (hhi : slot < ((s.ctx c).convoy b).2) (hdone : (s.ctx c).slotComplete (layKey l b) slot = true)
    (hopen : (((s.ctx c).layer (layKey l b)).slot slot).handed = false)
    (hres : combFused ((s.ctx c).boundRoute.layer l).comb = false ∨ (((s.ctx c).layer (layKey l b)).resid.find slot).isSome = true) :
    ∃ acc upd body clamped own renorm, fusedPass c l b slot s = s.handBack c l b slot die m.epoch acc upd body
        (combFused ((s.ctx c).boundRoute.layer l).comb) clamped own (combResid ((s.ctx c).boundRoute.layer l).comb) renorm ∧
      upd.length = (s.ctx c).share.dModel ∧
      (combFused ((s.ctx c).boundRoute.layer l).comb = true →
        body.length = (s.ctx c).share.dModel * outBytes (combOut ((s.ctx c).boundRoute.layer l).comb)) ∧
      (combFused ((s.ctx c).boundRoute.layer l).comb = false → (((s.ctx c).layer (layKey l b)).slot slot).empty = false →
        (s.ctx c).gone slot = false →
        body = (((((s.ctx c).layer (layKey l b)).slot slot).final m.fixed ((s.ctx c).cfgOf l) (s.ctx c).share.dModel).map (fun v =>
          toLE (outBytes (combOut ((s.ctx c).boundRoute.layer l).comb)) (outVal (combOut ((s.ctx c).boundRoute.layer l).comb) v))).flatten) := by
  have hguard : (decide (((s.ctx c).convoy b).1 ≤ slot ∧ slot < ((s.ctx c).convoy b).2) && (s.ctx c).slotComplete (layKey l b) slot &&
      !(((s.ctx c).layer (layKey l b)).slot slot).handed && (!combFused ((s.ctx c).boundRoute.layer l).comb ||
        (((s.ctx c).layer (layKey l b)).resid.find slot).isSome)) = true := by
    rw [decide_eq_true ⟨hlo, hhi⟩, hdone, hopen]
    rcases hres with hres | hres <;> simp [hres]
  have hgone : (s.ctx c).gone slot = (match m.entryOf slot with | some e => e.skipped | none => false) := by
    rw [Ctx.gone, Ctx.man, hman]
    rfl
  rw [fusedPass]
  dsimp only
  rw [hman, hhidden]
  dsimp only
  rw [if_neg (by rw [hguard]; decide)]
  refine ⟨_, _, _, _, _, _, rfl, ?_, fun hfused => ?_, fun hfused hfull hkept => ?_⟩
  · rw [List.length_map, List.length_map, List.length_range]
  · rw [rowBytes_length, if_pos hfused, Sfn.normalise_length, List.length_map, List.length_range]
  · rw [hgone] at hkept
    rw [hfused, if_neg Bool.false_ne_true, hfull, Bool.false_or]
    refine congrArg (fun a : Row => (a.map (fun v => toLE (outBytes (combOut ((s.ctx c).boundRoute.layer l).comb))
      (outVal (combOut ((s.ctx c).boundRoute.layer l).comb) v))).flatten) (if_neg fun h => ?_)
    exact absurd (hkept.symm.trans h) (by decide)

theorem fusedPass_idle {slot die : Nat} {x : List Nat} {m : Manifest} (hman : (s.ctx c).steps.man = some m)
    (hhidden : ((s.ctx c).layer (layKey l b)).hidden.find slot = some (die, x))
    (h : (s.ctx c).slotComplete (layKey l b) slot = false ∨ combFused ((s.ctx c).boundRoute.layer l).comb = true ∧
      ((s.ctx c).layer (layKey l b)).resid.find slot = none) : fusedPass c l b slot s = s := by
  rw [fusedPass]
  dsimp only
  rw [hman, hhidden]
  dsimp only
  refine if_pos ?_
  rcases h with h | ⟨hfused, hnone⟩
  · simp [h]
  · simp [hfused, hnone]

end

end

/-- Settles O49: answers and refusals are checked, combined or dropped, late rows are lost, a row group spills, a complete slot is handed
back, and landing buffers go. -/
theorem returns : Obligations.Returns := by
  unfold Obligations.Returns
  refine ⟨?_, ?_, ?_, ?_, ?_, ?_⟩
  · intro src bill row s b c
    have hquiet {z : LandBuf} (hlands : (s.ctx b.ctx).lands = [z]) (h : ∀ o ∈ (s.ctx b.ctx).outstanding z, s.now ≤ o.deadline) :
        s.expireFor b = s := State.expireFor_quiet fun y hy _ => by
      rw [hlands, List.mem_singleton] at hy
      rw [hy]
      exact h
    have hchecked {z : LandBuf} (r : Option (List Nat)) (hcrc : billCrcOk bill = true) (hsrc : b.src = s.board.pkgId)
        (hlands : (s.ctx b.ctx).lands = [z]) (hq : z.quarantined = false) : s.takeReturn src bill r = (s.expireFor b).takeLive b r :=
      State.takeReturn_checked hcrc hsrc fun y hy _ => by
        rw [hlands, List.mem_singleton] at hy
        rw [hy]
        exact hq
    refine ⟨fun hcrc hsrc => ?_, fun hcrc hsrc hnone => ?_, fun z e hcrc hsrc hlands hq hm hlive hgen he hout => ?_,
      fun z e hcrc hsrc hlands hq hm he h0 => ⟨fun hout hgen => ?_, fun o q hout hlate hrows hgen hslot hrank => ?_⟩⟩
    · exact ⟨congrArg Host.Outcome.next (State.takeReturn_misdirected hcrc hsrc), congrArg Host.Outcome.next (State.takeReturn_misdirected hcrc hsrc)⟩
    · have hunmatched (r : Option (List Nat)) : s.takeReturn src bill r = s.bumpCtx c .retUnmatched 1 := by
        rw [State.takeReturn_checked hcrc hsrc fun z hz hm => absurd ((hnone z hz).symm.trans hm) (by decide),
          State.expireFor_quiet fun z hz hm => absurd ((hnone z hz).symm.trans hm) (by decide)]
        exact State.takeLive_unmatched hnone
      exact ⟨congrArg Host.Outcome.next (hunmatched _), congrArg Host.Outcome.next (hunmatched _)⟩
    · have hnamed (r : Option (List Nat)) := (hchecked r hcrc hsrc hlands hq).trans
        ((congrArg (fun t : State => t.takeLive b r) (hquiet hlands hout)).trans (State.takeLive_named hlands hq hm hgen he))
      refine ⟨fun hwrong => congrArg Host.Outcome.next ((hnamed _).trans (if_pos hwrong)), fun hslot hrank h3 => ?_,
        fun hslot hrank h1 => ?_, fun hslot hrank h0 hc => ?_⟩
      · exact congrArg Host.Outcome.next ((hnamed _).trans ((if_neg (by simp [hslot, hrank])).trans (if_pos h3)))
      · exact congrArg Host.Outcome.next ((hnamed _).trans ((if_neg (by simp [hslot, hrank])).trans
          ((if_neg (by omega)).trans (if_pos (by omega)))))
      · have hopen (r : Option (List Nat)) := (hnamed r).trans ((if_neg (by simp [hslot, hrank])).trans
          ((if_neg (by omega)).trans (if_neg (by omega))))
        have hlayer : z.layer = b.layer := by
          simp only [LandBuf.matches, Bool.and_eq_true, beq_iff_eq] at hm
          exact hm.1.2
        refine ⟨?_, fun hfixed hmask hspilled => ?_⟩
        · obtain ⟨hmem, hland, hrow⟩ := State.refused_entry (slot := b.slot) (rank := b.rank) hc hlands he
          refine ⟨_, congrArg Host.Outcome.next (hopen none), hmem, hland, ?_, ?_⟩
          · exact congrArg Slot.dropMask hrow
          · exact congrArg Slot.done hrow
        · obtain ⟨hmem, hland, hrow⟩ := State.answered_entry (w := b) (r := row) hc hlands hlayer he hfixed hmask hspilled
          refine ⟨_, congrArg Host.Outcome.next (hopen (some row)), hmem, hland, ?_, fun j hj => ?_⟩
          · exact congrArg Slot.done hrow
          · exact (congrArg (fun r : Slot => r.acc.getD j 0#32) hrow).trans (addAnswer_getD _ _ _ _ hj)
    · obtain ⟨x, hx, hst⟩ := State.takeLive_stale_entry (row := some row) hlands hq hm hgen he h0
      refine ⟨_, congrArg Host.Outcome.next ((hchecked _ hcrc hsrc hlands hq).trans
        (congrArg (fun t : State => t.takeLive b (some row)) (hquiet hlands hout))), State.mem_of_form (by simp), x, hx, hst⟩
    · obtain ⟨y, hy, hst⟩ := State.expire_one hlands hq hout hlate hrows he h0
      have hexpired : s.expireFor b = s.expire b.ctx z (fun _ => true) := State.expireFor_one hlands hm
      refine ⟨(s.expireFor b).takeLive b (some row), congrArg Host.Outcome.next (hchecked _ hcrc hsrc hlands hq), State.mem_of_form (by simp),
        y, ?_, hst⟩
      exact State.takeLive_taken (by rw [hexpired]; exact hy) hst (by decide)
  · intro c l g n b s hc y hwait
    refine ⟨fun hheld => congrArg Host.Outcome.next ?_, fun hheld hearly => congrArg Host.Outcome.next ?_, fun hheld hdue hclaims => ?_⟩
    · rw [bayWaitSpill, show (((s.ctx c).layer (layKey l b)).group g).waitFrom = some n from hwait]
      exact if_pos hheld
    · rw [bayWaitSpill, show (((s.ctx c).layer (layKey l b)).group g).waitFrom = some n from hwait]
      dsimp only
      rw [if_neg (by rw [hheld]; decide), if_neg (by omega)]
    · exact ⟨_, rfl, State.mem_of_form (by simp), bayWaitSpill_spills hc hwait hheld hdue hclaims⟩
  · intro c l slot die b x m s k y g hc hman hhidden hlo hhi
    refine ⟨fun hpart => ?_, fun hdone hopen hplain hfull hkept => ?_, fun hdone hopen hfused hnone => ?_, fun hdone hopen hfused hsome => ?_⟩
    · exact congrArg Host.Outcome.next (fusedPass_idle hman hhidden (.inl hpart))
    · obtain ⟨acc, upd, body, clamped, own, renorm, heq, -, -, hbody⟩ := fusedPass_hands hman hhidden hlo hhi hdone hopen (.inl hplain)
      obtain ⟨hhanded, hout, hmem, -⟩ := State.handBack_hands (l := l) (b := b) (slot := slot) (die := die) (epoch := m.epoch) (acc := acc) (upd := upd)
        (body := body) (fused := combFused g) (clamped := clamped) (own := own) (fmt := combResid g) (renorm := renorm) hc
      refine ⟨_, congrArg Host.Outcome.next heq, hmem hplain, hhanded, ?_⟩
      obtain rfl := hbody hplain hfull hkept
      exact hout
    · exact congrArg Host.Outcome.next (fusedPass_idle hman hhidden (.inr ⟨hfused, hnone⟩))
    · obtain ⟨acc, upd, body, clamped, own, renorm, heq, hupd, hbody, -⟩ := fusedPass_hands hman hhidden hlo hhi hdone hopen (.inr hsome)
      obtain ⟨hhanded, hout, -, hbytes⟩ := State.handBack_hands (l := l) (b := b) (slot := slot) (die := die) (epoch := m.epoch) (acc := acc) (upd := upd)
        (body := body) (fused := combFused g) (clamped := clamped) (own := own) (fmt := combResid g) (renorm := renorm) hc
      rw [hupd] at hbytes
      exact ⟨_, body, congrArg Host.Outcome.next heq, hbytes, hhanded, hbody hfused, hout⟩
  · intro c l dst i j b m u z e s k y hc hman hsub hlands hlive hl hb hq hinj honly
    have hkey : layKey z.layer z.convoyB = k := by rw [hl, hb]; rfl
    refine ⟨fun hearly => ?_, fun hlate hset hj he h0 hrest => ?_⟩
    · exact congrArg Host.Outcome.next (returnTimeout_early hlands hl hb hlive (by rw [hkey]; exact honly) hearly)
    · obtain ⟨-, hland, hmask⟩ := returnTimeout_loses hlands hl hb hq hlive (by rw [hkey]; exact hsub) hinj (by rw [hkey]; exact honly) hlate hset
        hj he h0 hrest
      rw [hkey] at hmask
      exact ⟨_, rfl, State.mem_of_form (by simp), hland, hmask⟩
  · intro c z n s hlands hfrom
    have hfree (hq : z.quarantined = false) : landingFree c z.epoch z.layer z.convoyB s =
        if n + z.returnUs * 1000 < s.now then (s.expire c z (fun _ => true)).dropLand c z else s := by
      have hfind : [z].find? (fun y => y.epoch == z.epoch && y.layer == z.layer && y.convoyB == z.convoyB && !y.quarantined) = some z := by
        simp [hq]
      rw [landingFree, hlands, hfind]
      dsimp only
      rw [hfrom]
    have hquarantine (hq : z.quarantined = true) : quarantineExpiry c z.epoch z.layer z.convoyB s =
        if n + z.returnUs * 1000 < s.now then (s.dropLand c z).bumpCtx c .quarantineExpiries 1 else s := by
      have hfind : [z].find? (fun y => y.epoch == z.epoch && y.layer == z.layer && y.convoyB == z.convoyB && y.quarantined) = some z := by
        simp [hq]
      rw [quarantineExpiry, hlands, hfind]
      dsimp only
      rw [hfrom]
    refine ⟨fun hdue => ⟨fun hq => ⟨?_, fun hout => ?_⟩, fun hq => ?_⟩, fun hearly => ⟨congrArg Host.Outcome.next ?_, congrArg Host.Outcome.next ?_⟩⟩
    · obtain ⟨x, hx, hkey⟩ := State.expire_land (z := z) (fun _ => true) hlands rfl
      exact ⟨_, congrArg Host.Outcome.next ((hfree hq).trans (if_pos hdue)), State.dropLand_last hx hkey, State.mem_of_form (by simp)⟩
    · refine congrArg Host.Outcome.next ((hfree hq).trans ((if_pos hdue).trans ?_))
      rw [State.expire_none fun o ho _ => hout o ho]
    · exact congrArg Host.Outcome.next ((hquarantine hq).trans (if_pos hdue))
    · cases hq : z.quarantined with
      | false => exact (hfree hq).trans (if_neg (Nat.not_lt.mpr hearly))
      | true =>
        rw [landingFree, hlands]
        simp [hq]
    · cases hq : z.quarantined with
      | true => exact (hquarantine hq).trans (if_neg (Nat.not_lt.mpr hearly))
      | false =>
        rw [quarantineExpiry, hlands]
        simp [hq]
  · intro c z s hc hlands
    exact ⟨State.dropLand_last hlands rfl, State.mem_of_form (State.dropLand_form ..)⟩

end Machine
end Sys2Proof
end

section
/-! PROOFS. From waybills to injected sub-convoys: the route seal, the sort and the cut, the final seal and injection (5 R96 to R121). -/

namespace Sys2Proof
namespace Machine

section
variable {s t : State} {c k l : Nat} {b : Bool} {w : Bill} {r : List Bill} {m : Manifest}

/-! ### The route seal (5 R99 to R102) -/

theorem State.holdSet_layer (hc : c < s.ctxs.length) : ∃ due from_, ((s.holdSet c k b).ctx c).layer k =
    { (s.ctx c).layer k with due := due, stallFrom := from_ } := by
  unfold State.holdSet
  dsimp only
  split
  · exact ⟨_, _, rfl⟩
  · split
    · split
      · exact ⟨_, _, rfl⟩
      · exact ⟨_, _, State.layer_onLayer hc ..⟩
    · split
      · rw [State.ctx_bumpCtx]
        exact ⟨_, _, State.layer_onLayer hc ..⟩
      · exact ⟨_, _, rfl⟩

theorem State.layer_bumpCtx (s : State) (c d : Nat) (q : Ctr) (n k : Nat) : ((s.bumpCtx d q n).ctx c).layer k = (s.ctx c).layer k := by
  rw [State.ctx_bumpCtx]
  rfl

theorem State.beginSeal_begun (h : ((s.ctx c).layer (layKey l b)).sealing = true) : s.beginSeal c l b = s := by
  rw [State.beginSeal]
  exact if_pos h

/-- The state in which the next waybill of a set leaves those that wait. -/
def State.takeRaw (s : State) (c k : Nat) : State := s.onLayer c k (fun y => { y with raw := y.raw.drop 1 })

theorem State.takeRaw_ctx (hc : c < s.ctxs.length) (hraw : ((s.ctx c).layer k).raw = w :: r) :
    (s.takeRaw c k).ctx c = { s.ctx c with layers := ((s.takeRaw c k).ctx c).layers } ∧
      ((s.takeRaw c k).ctx c).layer k = { (s.ctx c).layer k with raw := r } ∧ (s.takeRaw c k).ctxs.length = s.ctxs.length := by
  refine ⟨?_, ?_, State.onLayer_length ..⟩
  · rw [State.takeRaw, State.ctx_onLayer hc]
  · rw [State.takeRaw, State.layer_onLayer hc, hraw]
    rfl

/-- One active replica takes the pick, whatever the round robin's state. -/
theorem pickOne_single (n : Nat) (cur : List Int) : (pickOne [n] cur).2 = 0 := by
  cases cur with
  | nil => rfl
  | cons a cur => simp [pickOne]

theorem sharesOf_single (i : Nat) (rep : Replica) : ∃ n, sharesOf [(i, rep)] = [n] := by
  unfold sharesOf
  split <;> exact ⟨_, rfl⟩

theorem routeSeal_seals (hman : (s.ctx c).steps.man = some m) (hraw : ((s.ctx c).layer (layKey l b)).raw = w :: r)
    (hseal : ((s.ctx c).layer (layKey l b)).sealing = true) :
    routeSeal c l b s = ((s.takeRaw c (layKey l b)).sealBill c l b w).holdSet c (layKey l b) b := by
  rw [routeSeal]
  dsimp only
  rw [hman, hraw]
  dsimp only
  rw [State.beginSeal_begun hseal]
  rfl

theorem routeSeal_none (hraw : ((s.ctx c).layer (layKey l b)).raw = []) : routeSeal c l b s = s := by
  rw [routeSeal]
  dsimp only
  rw [hraw]
  cases (s.ctx c).steps.man <;> rfl

/-- A dropped waybill leaves its cause in its slot. -/
theorem State.sealDrop_layer (hc : c < s.ctxs.length) (cause : Nat) : ((s.sealDrop c k w cause).ctx c).layer k =
    ((s.ctx c).layer k).onSlot w.slot (Slot.dropped w.rank cause) := by
  obtain ⟨man, hdrop, -⟩ := State.dropRank_ctx hc k w.slot w.rank cause
  rw [State.sealDrop, hdrop]
  exact Tbl.getD_put_same ..

theorem Slot.dropped_cause {q : Slot} {rank : Nat} (h16 : rank < 16) (hlen : q.causes.length = 16) (cause : Nat) :
    (q.dropped rank cause).causes.getD rank 0 = cause := by
  rw [Slot.dropped]
  exact updAt_getD_same _ _ _ _ (by rw [hlen]; exact h16)

section
variable (hc : c < s.ctxs.length) (hman : (s.ctx c).steps.man = some m) (hraw : ((s.ctx c).layer (layKey l b)).raw = w :: r)
  (hseal : ((s.ctx c).layer (layKey l b)).sealing = true)
include hc hman hraw hseal

/-- What the route seal leaves of a layer once one waybill has passed. -/
theorem routeSeal_layer : ∃ due from_, ((routeSeal c l b s).ctx c).layer (layKey l b) =
    { (((s.takeRaw c (layKey l b)).sealBill c l b w).ctx c).layer (layKey l b) with due := due, stallFrom := from_ } := by
  have hlen : c < ((s.takeRaw c (layKey l b)).sealBill c l b w).ctxs.length := by
    rw [State.ctxs_length_of_form (State.sealBill_form ..), State.takeRaw, State.onLayer_length]
    exact hc
  rw [routeSeal_seals hman hraw hseal]
  exact State.holdSet_layer hlen

theorem routeSeal_unavailable (havail : ((s.ctx c).boundRoute.expert l w.expert).avail = false) :
    ∃ due from_, ((routeSeal c l b s).ctx c).layer (layKey l b) =
      { { (s.ctx c).layer (layKey l b) with raw := r }.onSlot w.slot (Slot.dropped w.rank 2) with due := due, stallFrom := from_ } := by
  obtain ⟨hctx, hlayer, hlen⟩ := State.takeRaw_ctx hc hraw
  obtain ⟨due, from_, hend⟩ := routeSeal_layer hc hman hraw hseal
  refine ⟨due, from_, hend.trans ?_⟩
  have hroute : ((s.takeRaw c (layKey l b)).ctx c).boundRoute = (s.ctx c).boundRoute := by rw [hctx]; rfl
  have hdrop : (s.takeRaw c (layKey l b)).sealBill c l b w = (s.takeRaw c (layKey l b)).sealDrop c (layKey l b) w 2 := by
    rw [State.sealBill]
    dsimp only
    rw [hroute, havail]
    rfl
  rw [hdrop, State.sealDrop_layer (by rw [hlen]; exact hc), hlayer]

theorem routeSeal_full {i : Nat} {rep : Replica} (havail : ((s.ctx c).boundRoute.expert l w.expert).avail = true)
    (hone : (s.ctx c).boundRoute.actives l w.expert = [(i, rep)]) (hres : ((s.ctx c).layer (layKey l b)).reserved = true)
    (hfull : ((s.ctx c).layer (layKey l b)).caps.getD (capKey w.expert i) 0 ≤ ((s.ctx c).layer (layKey l b)).keptBy.getD (capKey w.expert i) 0) :
    ∃ due from_ robin, ((routeSeal c l b s).ctx c).layer (layKey l b) =
      { { (s.ctx c).layer (layKey l b) with raw := r, robin := robin }.onSlot w.slot (Slot.dropped w.rank 1) with
        due := due, stallFrom := from_ } := by
  obtain ⟨hctx, hlayer, hlen⟩ := State.takeRaw_ctx hc hraw
  obtain ⟨due, from_, hend⟩ := routeSeal_layer hc hman hraw hseal
  have hroute : ((s.takeRaw c (layKey l b)).ctx c).boundRoute = (s.ctx c).boundRoute := by rw [hctx]; rfl
  generalize s.takeRaw c (layKey l b) = u at hroute hlayer hlen hend
  obtain ⟨share, hshare⟩ := sharesOf_single i rep
  have hdrop : ∃ cur : List Int, u.sealBill c l b w =
      ((u.onLayer c (layKey l b) (fun y => { y with robin := y.robin.put w.expert cur })).sealDrop c (layKey l b) w 1).bumpCtx c .capacityDrops 1 := by
    refine ⟨(pickOne [share] ((((u.ctx c).layer (layKey l b)).robin.find w.expert).getD
      (startRobin [share] ((u.board.pkgId + l) % Nat.max 1 (sumN [share]))))).1, ?_⟩
    rw [State.sealBill]
    dsimp only
    rw [hroute, havail, hone, hshare, if_neg (by decide), if_neg (by simp), pickOne_single]
    exact if_pos (by rw [hlayer]; simp [hres, hfull])
  obtain ⟨cur, hdrop⟩ := hdrop
  refine ⟨due, from_, ((s.ctx c).layer (layKey l b)).robin.put w.expert cur, hend.trans ?_⟩
  have hdropped := State.sealDrop_layer (s := u.onLayer c (layKey l b) (fun y => { y with robin := y.robin.put w.expert cur })) (w := w)
    (k := layKey l b) (by rw [State.onLayer_length, hlen]; exact hc) 1
  rw [State.layer_onLayer (by rw [hlen]; exact hc), hlayer] at hdropped
  rw [hdrop, State.layer_bumpCtx, hdropped]

theorem routeSeal_keeps {i : Nat} {rep : Replica} (havail : ((s.ctx c).boundRoute.expert l w.expert).avail = true)
    (hone : (s.ctx c).boundRoute.actives l w.expert = [(i, rep)]) (hres : ((s.ctx c).layer (layKey l b)).reserved = false)
    (hcause : ((s.ctx c).boundRoute.expert l w.expert).cause ≠ 3) :
    ∃ due from_ robin keptBy, ((routeSeal c l b s).ctx c).layer (layKey l b) =
      { ((s.ctx c).layer (layKey l b)).onSlot w.slot (fun q => { q with kept := q.kept + 1 }) with
        raw := r, robin := robin, keptBy := keptBy, due := due, stallFrom := from_
        kept := ((s.ctx c).layer (layKey l b)).kept ++ [{ w with
          dst := rep.pkg, replica := i, flags := w.flags ||| (if rep.pkg = s.board.pkgId then 32 else 0) }] } := by
  obtain ⟨hctx, hlayer, hlen⟩ := State.takeRaw_ctx hc hraw
  obtain ⟨due, from_, hend⟩ := routeSeal_layer hc hman hraw hseal
  have hroute : ((s.takeRaw c (layKey l b)).ctx c).boundRoute = (s.ctx c).boundRoute := by rw [hctx]; rfl
  have hboard : (s.takeRaw c (layKey l b)).board = s.board := rfl
  generalize s.takeRaw c (layKey l b) = u at hroute hlayer hlen hend hboard
  obtain ⟨share, hshare⟩ := sharesOf_single i rep
  have hkeep : ∃ (cur : List Int) (keptBy : Layer → Tbl Nat), u.sealBill c l b w =
      (u.onLayer c (layKey l b) (fun y => { y with robin := y.robin.put w.expert cur })).onLayer c (layKey l b) (fun y =>
        { (y.onSlot w.slot (fun q => { q with kept := q.kept + 1 })) with
          kept := y.kept ++ [{ w with dst := rep.pkg, replica := i, flags := w.flags ||| (if rep.pkg = s.board.pkgId then 32 else 0) }]
          keptBy := keptBy y }) := by
    refine ⟨(pickOne [share] ((((u.ctx c).layer (layKey l b)).robin.find w.expert).getD
      (startRobin [share] ((u.board.pkgId + l) % Nat.max 1 (sumN [share]))))).1,
      fun y => y.keptBy.put (capKey w.expert i) (y.keptBy.getD (capKey w.expert i) 0 + 1), ?_⟩
    have hstall : (((s.ctx c).boundRoute.expert l w.expert).cause == 3) = false := by simpa using hcause
    rw [State.sealBill]
    dsimp only
    rw [hroute, havail, hone, hshare, if_neg (by decide), if_neg (by simp), pickOne_single, hlayer]
    dsimp only
    rw [hres, Bool.false_and, if_neg (by decide), hstall, hboard]
    simp only [Bool.false_and, Bool.false_eq_true, if_false, Nat.or_zero, flLocal, List.getD_cons_zero]
    rfl
  obtain ⟨cur, keptBy, hkeep⟩ := hkeep
  refine ⟨due, from_, ((s.ctx c).layer (layKey l b)).robin.put w.expert cur,
    keptBy { (s.ctx c).layer (layKey l b) with raw := r, robin := ((s.ctx c).layer (layKey l b)).robin.put w.expert cur }, hend.trans ?_⟩
  rw [hkeep, State.layer_onLayer (by rw [State.onLayer_length, hlen]; exact hc), State.layer_onLayer (by rw [hlen]; exact hc), hlayer]
  rfl

end

/-! ### A set held for stalled experts (7 R168) -/

theorem stallExpiry_early {n : Nat} (hfrom : ((s.ctx c).layer (layKey l b)).stallFrom = some n)
    (hearly : s.now ≤ n + (s.ctx c).resid.stallMs * 1000000) : stallExpiry c l b s = s := by
  rw [stallExpiry]
  dsimp only
  rw [hfrom]
  exact if_pos (Or.inr hearly)

theorem stallExpiry_clears {n : Nat} (hc : c < s.ctxs.length) (hfrom : ((s.ctx c).layer (layKey l b)).stallFrom = some n)
    (hstalled : ((s.ctx c).layer (layKey l b)).stalled ≠ []) (hdue : n + (s.ctx c).resid.stallMs * 1000000 < s.now) :
    (((stallExpiry c l b s).ctx c).layer (layKey l b)).stalled = [] := by
  have hend : ∃ u : State, stallExpiry c l b s =
      (u.onLayer c (layKey l b) (fun y => { y with stalled := [], due := some s.now })).bumpCtx c .stallExpiries 1 := by
    rw [stallExpiry]
    dsimp only
    rw [hfrom]
    refine ⟨_, if_neg ?_⟩
    rw [not_or, List.isEmpty_iff]
    exact ⟨hstalled, Nat.not_le.mpr hdue⟩
  obtain ⟨u, hu⟩ := hend
  have hlen : c < u.ctxs.length := by
    have hkept := State.ctxs_length_of_form (stallExpiry_form c l b (s := s))
    rw [hu, State.ctxs_length_of_plain (State.bumpCtx_plain ..), State.onLayer_length] at hkept
    rw [hkept]
    exact hc
  rw [hu, State.layer_bumpCtx, State.layer_onLayer hlen]

/-! ### The sort (5 R103) -/

/-- Waybills with their places in the sort. -/
def numbered (ws : List Bill) : List Bill := ws.zipIdx.map (fun p => { p.1 with ret := p.2 })

theorem numbered_ret (ws : List Bill) : (numbered ws).map (·.ret) = List.range ws.length := by
  rw [numbered, List.map_map]
  exact List.zipIdx_map_snd 0 ws |>.trans (List.range_eq_range' ..).symm

theorem numbered_length (ws : List Bill) : (numbered ws).length = ws.length := by rw [numbered, List.length_map, List.length_zipIdx]

theorem numbered_group (ws : List Bill) : (numbered ws).map Bill.group = ws.map Bill.group := by
  rw [numbered, List.map_map]
  refine Eq.trans ?_ (congrArg (List.map Bill.group) (List.zipIdx_map_fst 0 ws))
  rw [List.map_map]
  rfl

theorem numbered_holds {ws : List Bill} (hw : w ∈ ws) : ∃ v ∈ numbered ws, v = { w with ret := v.ret } := by
  obtain ⟨i, hi, rfl⟩ := List.mem_iff_getElem.mp hw
  exact ⟨{ ws[i] with ret := i }, List.mem_map.mpr ⟨(ws[i], i), List.mem_zipIdx_iff_getElem?.mpr (List.getElem?_eq_getElem hi), rfl⟩, rfl⟩

theorem numbered_nodup (ws : List Bill) : (numbered ws).Nodup :=
  List.Nodup.of_map (·.ret) (by rw [numbered_ret]; exact List.nodup_range)

theorem State.sortBills_perm (fixed : Bool) (ws : List Bill) : (s.sortBills fixed ws).Perm ws := by
  unfold State.sortBills
  exact ((sortBy_perm _ _).map Prod.fst).trans (.of_eq (List.zipIdx_map_fst 0 ws))

theorem State.sortBills_groups (fixed : Bool) (ws : List Bill) : (s.sortBills fixed ws).Pairwise (fun a d => a.group ≤ d.group) := by
  unfold State.sortBills
  dsimp only
  rw [List.pairwise_map]
  refine List.Pairwise.imp (fun {a d} h => ?_) (sortBy_pairwise _ (fun a d => ?_) (fun a d e had hde => ?_) _)
  · rw [decide_eq_true_eq] at h
    omega
  · rw [decide_eq_true_eq, decide_eq_true_eq]
    omega
  · rw [decide_eq_true_eq] at *
    omega

/-! ### The cut (5 R107) -/

theorem cutBy_piece {α : Type} {a n : Nat} {xs p : List α} (hp : p ∈ cutBy a n xs) : p.length ≤ a := by
  induction n generalizing xs with
  | zero => cases hp
  | succ n ih =>
    rw [cutBy] at hp
    split at hp
    · cases hp
    · rcases List.mem_cons.mp hp with rfl | hp
      · exact List.length_take_le ..
      · exact ih hp

theorem cutBy_covers {α : Type} {a n : Nat} {xs : List α} {x : α} (ha : 1 ≤ a) (hn : xs.length ≤ n) (hx : x ∈ xs) :
    ∃ p ∈ cutBy a n xs, x ∈ p := by
  induction n generalizing xs with
  | zero =>
    rw [List.length_eq_zero_iff.mp (Nat.le_zero.mp hn)] at hx
    cases hx
  | succ n ih =>
    rw [cutBy, if_neg (by rw [List.isEmpty_iff]; exact List.ne_nil_of_mem hx)]
    rw [← List.take_append_drop a xs] at hx
    rcases List.mem_append.mp hx with hx | hx
    · exact ⟨_, List.mem_cons_self, hx⟩
    · obtain ⟨p, hp, hxp⟩ := ih (xs := xs.drop a) (by rw [List.length_drop]; omega) hx
      exact ⟨p, List.mem_cons_of_mem _ hp, hxp⟩

theorem splitPlanned_perm (caps : Tbl Nat) (ws : List Bill) (n : Tbl Nat) :
    ((splitPlanned caps ws n).1 ++ (splitPlanned caps ws n).2).Perm ws := by
  induction ws generalizing n with
  | nil => exact .refl _
  | cons v r ih =>
    rw [splitPlanned]
    split
    · exact (ih _).cons v
    · exact List.perm_middle.trans ((ih _).cons v)

/-- What a sub-convoy is as the set is cut. -/
structure Sub.Cut (a d : Nat) (rows : List Bill) (u : Sub) : Prop where
  dst      : u.dst = d
  room     : u.bills.length ≤ a
  fresh    : u.sealed_ = false ∧ u.injected = false
  released : u.released = true ↔ u.index = 0
  rows     : ∀ w ∈ u.bills, w ∈ rows

theorem cutSubs_cut {caps : Tbl Nat} {a d now : Nat} {rows : List Bill} (hrows : rows.Nodup) {u : Sub} (hu : u ∈ cutSubs caps a d now rows) :
    u.Cut a d rows := by
  obtain ⟨x, hx, rfl⟩ := List.mem_map.mp hu
  refine ⟨rfl, ?_, ⟨rfl, rfl⟩, beq_iff_eq, fun w hw => List.mem_of_mem_filter hw⟩
  have hsub : rows.filter (fun v => x.1.contains v) ⊆ x.1 := fun v hv => List.contains_iff_mem.mp (List.mem_filter.mp hv).2
  exact ((hrows.filter _).subperm hsub).length_le.trans (cutBy_piece (List.fst_mem_of_mem_zipIdx hx))

theorem cutSubs_covers {caps : Tbl Nat} {a d now : Nat} {rows : List Bill} (ha : 1 ≤ a) (hw : w ∈ rows) :
    ∃ u ∈ cutSubs caps a d now rows, w ∈ u.bills := by
  have hperm := splitPlanned_perm caps rows []
  obtain ⟨p, hp, hwp⟩ := cutBy_covers (a := a) ha hperm.length_eq.le (hperm.mem_iff.mpr hw)
  obtain ⟨i, hi, rfl⟩ := List.mem_iff_getElem.mp hp
  exact ⟨_, List.mem_map.mpr ⟨(_, i), List.mem_zipIdx_iff_getElem?.mpr (List.getElem?_eq_getElem hi), rfl⟩,
    List.mem_filter.mpr ⟨hw, List.contains_iff_mem.mpr hwp⟩⟩

theorem mem_collected {α : Type} {f : α → Nat} (xs : List α) (acc : List Nat) {d : Nat} (h : d ∈ acc ∨ ∃ x ∈ xs, f x = d) :
    d ∈ xs.foldl (fun (a : List Nat) x => if a.contains (f x) then a else a ++ [f x]) acc := by
  induction xs generalizing acc with
  | nil => exact h.resolve_right fun ⟨x, hx, _⟩ => List.not_mem_nil hx
  | cons y xs ih =>
    rw [List.foldl_cons]
    refine ih _ ?_
    rcases h with h | ⟨x, hx, rfl⟩
    · left
      split
      · exact h
      · exact List.mem_append_left _ h
    · rcases List.mem_cons.mp hx with rfl | hx
      · left
        split
        · next hin => exact List.contains_iff_mem.mp hin
        · exact List.mem_append_right _ (List.mem_singleton_self _)
      · exact .inr ⟨x, hx, rfl⟩

theorem State.allow_pos (d : Nat) (r : Route) : 1 ≤ s.allow c d r l := by
  unfold State.allow State.allowance
  split
  · decide
  · exact Nat.le_max_left ..

theorem State.kept_beginSeal : (((s.beginSeal c l b).ctx c).layer (layKey l b)).kept = ((s.ctx c).layer (layKey l b)).kept := by
  unfold State.beginSeal
  dsimp only
  split
  · rfl
  · have hman (u : State) (f : Manifest → Manifest) : ((u.onMan c f).ctx c).layer (layKey l b) = (u.ctx c).layer (layKey l b) := by
      rw [Ctx.layer, State.onMan, State.layers_onCtx c fun _ => by rfl, ← Ctx.layer]
    rw [hman, State.layer_bumpCtx, State.layer_bumpCtx, State.layer_bumpCtx]
    by_cases hc : c < s.ctxs.length
    · rw [State.layer_onLayer hc]
    · simp only [State.onLayer, State.onCtx, State.ctx, updAt_getD]
      rw [if_neg fun h => hc h.2]

theorem State.layer_writeHist : ((s.writeHist c k b).ctx c).layer k = (s.ctx c).layer k := by
  unfold State.writeHist
  split
  · rw [Ctx.layer, State.layers_onCtx c fun _ => by rfl, ← Ctx.layer]
  · rfl

/-- The set as the Sorting Yard leaves it: in group order, numbered, and cut under each destination's allowance. -/
structure Layer.Sorted (s : State) (c l : Nat) (y z : Layer) : Prop where
  sorted : z.sorted = true
  length : z.kept.length = y.kept.length
  places : z.kept.map (·.ret) = List.range y.kept.length
  order  : ∀ i j, i ≤ j → j < z.kept.length → (z.kept.map Bill.group).getD i 0 ≤ (z.kept.map Bill.group).getD j 0
  held   : ∀ w ∈ y.kept, ∃ v ∈ z.kept, v = { w with ret := v.ret }
  cut    : ∀ u ∈ z.subs, u.bills.length ≤ Nat.max 1 (s.allow c u.dst (s.ctx c).boundRoute l) ∧ u.sealed_ = false ∧ u.injected = false ∧
    (u.released = true ↔ u.index = 0) ∧ ∀ w ∈ u.bills, w.dst = u.dst ∧ w ∈ z.kept
  whole  : ∀ w ∈ z.kept, ∃ u ∈ z.subs, w ∈ u.bills

/-- Waybills in the sort's order, numbered and cut by destination. -/
theorem Layer.sorted_of {v y z : Layer} {fixed : Bool} {now : Nat} {caps : Tbl Nat} {ws : List Bill}
    (hws : ws = numbered (t.sortBills fixed y.kept)) (hy : y.kept = v.kept) (hsorted : z.sorted = true) (hkept : z.kept = ws)
    (hsubs : z.subs = (ws.foldl (fun (a : List Nat) w => if a.contains w.dst then a else a ++ [w.dst]) []).flatMap (fun d =>
      cutSubs caps (s.allow c d (s.ctx c).boundRoute l) d now (ws.filter (fun w => w.dst == d)))) : Layer.Sorted s c l v z := by
  have hperm := State.sortBills_perm (s := t) fixed y.kept
  have hnodup : ws.Nodup := by rw [hws]; exact numbered_nodup _
  refine ⟨hsorted, ?_, ?_, fun i j hij hj => ?_, fun w hw => ?_, fun u hu => ?_, fun w hw => ?_⟩
  · rw [hkept, hws, numbered_length, hperm.length_eq, hy]
  · rw [hkept, hws, numbered_ret, hperm.length_eq, hy]
  · rw [hkept, hws, numbered_group]
    rw [hkept, hws, numbered_length] at hj
    have hpair : ((t.sortBills fixed y.kept).map Bill.group).Pairwise (· ≤ ·) := List.pairwise_map.mpr (State.sortBills_groups ..)
    rw [List.getD_eq_getElem _ _ (by rw [List.length_map]; omega), List.getD_eq_getElem _ _ (by rw [List.length_map]; exact hj)]
    rcases Nat.lt_or_eq_of_le hij with hlt | rfl
    · exact List.pairwise_iff_getElem.mp hpair _ _ _ _ hlt
    · exact Nat.le_refl _
  · rw [hkept, hws]
    exact numbered_holds (hperm.mem_iff.mpr (by rw [hy]; exact hw))
  · rw [hsubs] at hu
    obtain ⟨d, -, hu⟩ := List.mem_flatMap.mp hu
    obtain ⟨hdst, hroom, hfresh, hreleased, hrows⟩ := cutSubs_cut (hnodup.filter _) hu
    refine ⟨?_, hfresh.1, hfresh.2, hreleased, fun w hw => ?_⟩
    · rw [hdst]
      exact hroom.trans (Nat.le_max_right ..)
    · obtain ⟨hmem, hwd⟩ := List.mem_filter.mp (hrows w hw)
      exact ⟨(beq_iff_eq.mp hwd).trans hdst.symm, by rw [hkept]; exact hmem⟩
  · rw [hkept] at hw
    obtain ⟨u, hu, hwu⟩ := cutSubs_covers (caps := caps) (d := w.dst) (now := now) (rows := ws.filter (fun v => v.dst == w.dst)) (State.allow_pos (s := s) (c := c) (l := l) w.dst (s.ctx c).boundRoute)
      (List.mem_filter.mpr ⟨hw, beq_self_eq_true w.dst⟩)
    rw [hsubs]
    exact ⟨u, List.mem_flatMap.mpr ⟨w.dst, mem_collected ws [] (.inr ⟨w, hw, rfl⟩), hu⟩, hwu⟩

theorem sortSet_sorts {md : Model} (hc : c < s.ctxs.length) (hman : (s.ctx c).steps.man = some m) (hmodel : (s.ctx c).model = some md)
    (hmoe : l < md.moe) (hslots : (m.slots b).1 < (m.slots b).2) (hgated : ((s.ctx c).layer (layKey l b)).gated = true)
    (hselected : (s.ctx c).selectionDone (layKey l b) b = true) (hraw : ((s.ctx c).layer (layKey l b)).raw = [])
    (hopen : ((s.ctx c).layer (layKey l b)).sorted = false) (hstalled : ((s.ctx c).layer (layKey l b)).stalled = [])
    (hfirst : s.setBefore ((s.ctx c).layer (layKey l b)).due (fun z => !z.sorted) = false) :
    Layer.Sorted s c l ((s.ctx c).layer (layKey l b)) (((sortSet c l b s).ctx c).layer (layKey l b)) := by
  have hguard : ¬ ((m.slots b).1 == (m.slots b).2 || decide (((s.ctx c).model.map (·.moe)).getD 0 ≤ l) ||
      !((s.ctx c).layer (layKey l b)).gated || !(s.ctx c).selectionDone (layKey l b) b || !((s.ctx c).layer (layKey l b)).raw.isEmpty ||
      ((s.ctx c).layer (layKey l b)).sorted) = true := by
    simp [hmodel, hgated, hselected, hraw, hopen]
    omega
  rw [sortSet]
  dsimp only
  rw [hman]
  dsimp only
  rw [if_neg hguard, if_neg (by rw [hstalled]; decide), if_neg (by rw [hfirst]; decide)]
  generalize hu : (s.writeHist c (layKey l b) b).beginSeal c l b = u
  have hulen : c < u.freed.ctxs.length := by
    have hlen : u.ctxs.length = s.ctxs.length := by
      rw [← hu]
      exact State.ctxs_length_of_form ((State.beginSeal_form ..).trans (State.writeHist_form ..))
    exact hlen.symm ▸ hc
  have hkept : ((u.ctx c).layer (layKey l b)).kept = ((s.ctx c).layer (layKey l b)).kept := by
    rw [← hu, State.kept_beginSeal, State.layer_writeHist]
  rw [State.layer_bumpCtx, State.layer_onLayer hulen]
  exact Layer.sorted_of rfl hkept rfl rfl rfl

theorem sortSet_sorted (h : ((s.ctx c).layer (layKey l b)).sorted = true) : sortSet c l b s = s := by
  rw [sortSet]
  dsimp only
  split
  · rfl
  · exact if_pos (by rw [h]; simp)

/-- A set waits for one that became complete before it. -/
theorem sortSet_waits {d k' n j : Nat} {z : Layer} (hstalled : ((s.ctx c).layer (layKey l b)).stalled = [])
    (hdue : ((s.ctx c).layer (layKey l b)).due = some n) (hd : d < 16) (hz : (k', z) ∈ (s.ctx d).layers) (hopen : z.sorted = false)
    (hj : j < n) (hzdue : z.due = some j) : sortSet c l b s = s := by
  have hbefore : s.setBefore ((s.ctx c).layer (layKey l b)).due (fun z => !z.sorted) = true := by
    refine List.any_eq_true.mpr ⟨d, List.mem_range.mpr hd, List.any_eq_true.mpr ⟨(k', z), hz, ?_⟩⟩
    simp [hopen, hzdue, hdue, hj]
  rw [sortSet]
  dsimp only
  split
  · rfl
  · split
    · rfl
    · exact if_neg (by rw [hstalled]; decide)

/-! ### The final seal (5 R114) -/

theorem finalSeal_sealed {dst i : Nat} {u : Sub} (hman : (s.ctx c).steps.man = some m) (hsub : ((s.ctx c).layer (layKey l b)).sub dst i = some u)
    (h : u.sealed_ = true) : finalSeal c l b dst i s = s := by
  rw [finalSeal]
  dsimp only
  rw [hman, hsub]
  exact if_pos h

theorem finalSeal_seals {dst i : Nat} {u : Sub} (hman : (s.ctx c).steps.man = some m) (hsub : ((s.ctx c).layer (layKey l b)).sub dst i = some u)
    (hopen : u.sealed_ = false) (hland : ∃ z ∈ (s.ctx c).lands, (s.ctx c).live z = true ∧ z.layer = l ∧ z.convoyB = b)
    (hturn : ((s.ctx c).layer (layKey l b)).landWait = true ∨ (∃ v ∈ ((s.ctx c).layer (layKey l b)).subs, v.sealed_ = true) ∨
      s.setBefore ((s.ctx c).layer (layKey l b)).due (fun z =>
        z.sorted && !z.landWait && !z.subs.isEmpty && !z.subs.any (fun u => u.sealed_)) = false) :
    finalSeal c l b dst i s = s.onSub c (layKey l b) dst i (fun u => { u with
      sealed_ := true, bills := u.bills.map (fun w => Bill.seal { w with flags := w.flags ||| (if i = 0 then 0 else flSub) }) }) := by
  have hfound : s.landing c l b m = some s := by
    obtain ⟨z, hz, hlive, hzl, hzb⟩ := hland
    rw [State.landing]
    exact if_pos (List.any_eq_true.mpr ⟨z, hz, by simp [hlive, hzl, hzb]⟩)
  rw [finalSeal]
  dsimp only
  rw [hman, hsub]
  dsimp only
  rw [if_neg (by rw [hopen]; decide), hfound]
  refine if_neg ?_
  rcases hturn with hwait | ⟨v, hv, hvs⟩ | hfirst
  · simp [hwait]
  · rw [show ((s.ctx c).layer (layKey l b)).subs.any (fun u => u.sealed_) = true from List.any_eq_true.mpr ⟨v, hv, hvs⟩]
    simp
  · rw [hfirst]
    simp

/-! ### Injection (5 R115, R119 to R121) -/

theorem Layer.claimFirst_subs (y : Layer) : y.claimFirst.subs = y.subs := by
  unfold Layer.claimFirst
  split
  · rfl
  · exact List.foldlRecOn (motive := fun z : Layer => z.subs = y.subs) _ _ rfl fun z hz u _ => hz

theorem State.sub_onSub (hc : c < s.ctxs.length) (dst i : Nat) {f : Sub → Sub} (hf : ∀ u, (f u).dst = u.dst ∧ (f u).index = u.index) :
    (((s.onSub c k dst i f).ctx c).layer k).sub dst i = (((s.ctx c).layer k).sub dst i).map f := by
  have hkeys : ((fun u : Sub => u.dst == dst && u.index == i) ∘ fun u => if u.dst = dst ∧ u.index = i then f u else u) =
      fun u => u.dst == dst && u.index == i := by
    funext u
    rw [Function.comp_apply]
    split
    · rw [(hf u).1, (hf u).2]
    · rfl
  rw [State.onSub, State.layer_onLayer hc, Layer.sub, Layer.sub, List.find?_map, hkeys]
  refine Option.map_congr fun u hu => if_pos ?_
  simpa using List.find?_some hu

/-- The body of a row's message: its waybill, then its data. -/
def rowBody (rows : Tbl (List Byte)) (w : Bill) : List Byte := toLE 32 w.pack ++ rows.getD w.slot []

/-- The rows of a sub-convoy go after its note, one message each. -/
def State.sendRows (s : State) (c dst : Nat) (rows : Tbl (List Byte)) (go : List Bill) : State :=
  go.foldl (fun t w => t.sendMsg dst 0x02 c [w.pack] (rowBody rows w)) s

theorem State.sendMsg_ctxs (s : State) (dst type c : Nat) (fields : List Nat) (body : List Byte) :
    (s.sendMsg dst type c fields body).ctxs = s.ctxs := by rw [State.sendMsg_eq]

theorem State.sendRows_ctxs (s : State) (c dst : Nat) (rows : Tbl (List Byte)) (go : List Bill) : (s.sendRows c dst rows go).ctxs = s.ctxs :=
  List.foldlRecOn (motive := fun t : State => t.ctxs = s.ctxs) _ _ rfl fun t ht _ _ => (t.sendMsg_ctxs ..).trans ht

theorem State.sendRows_kept (s : State) (c dst : Nat) (rows : Tbl (List Byte)) (go : List Bill) : s.out ⊆ (s.sendRows c dst rows go).out :=
  (works_foldl (.refl s) go fun _ _ ht => State.sendMsg_works ht ..).out

theorem State.sendRows_sends (s : State) (c dst : Nat) (rows : Tbl (List Byte)) {go : List Bill} (hw : w ∈ go) :
    Out.msg dst 0x02 c [w.pack] (rowBody rows w) ∈ (s.sendRows c dst rows go).out := by
  have hsaid (t : State) (v : Bill) : Out.msg dst 0x02 c [v.pack] (rowBody rows v) ∈
      (t.sendMsg dst 0x02 c [v.pack] (rowBody rows v)).out := t.sendMsg_out ..
  exact State.mem_out_foldl_send hsaid (fun t _ => (State.sendMsg_works (.refl t) ..).out) hw s

/-- A sub-convoy once its rows are on their way. -/
def Sub.sent (due : Nat) (go : List Bill) (u : Sub) : Sub :=
  { u with injected := true, deadline := if go.isEmpty then 0 else due, waits := go.map (·.ret) }

/-- A note's header opens with the epoch. -/
theorem noteHeader_epoch (epoch ctx src layer : Nat) (b r l f : Bool) (sub rows n fmt gen : Nat) :
    bits (noteHeader epoch ctx src layer b r l f sub rows n fmt gen) 0 16 = epoch % 2 ^ 16 := by
  unfold noteHeader
  extract_lets x
  have hx : bits x 0 16 = epoch % 2 ^ 16 := bits_packF (lo := 0) (hi := 224) (by simp [Apart]) List.mem_cons_self
  rw [← hx, bits, bits, Nat.shiftRight_zero, Nat.shiftRight_zero]
  omega

section
variable {dst i : Nat} {u : Sub} (hman : (s.ctx c).steps.man = some m) (hsub : ((s.ctx c).layer (layKey l b)).sub dst i = some u)
include hman hsub

theorem subInject_unready (h : u.ready = false) : subInject c l b dst i s = s := by
  rw [subInject]
  dsimp only
  rw [hman, hsub]
  exact if_pos (by rw [h]; rfl)

/-- Another destination whose turn is earlier goes first. -/
theorem subInject_turn {v : Sub} (hv : v ∈ ((s.ctx c).layer (layKey l b)).subs) (hready : v.ready = true)
    (hturn : turnOf s.board.pkgId v.dst < turnOf s.board.pkgId dst) : subInject c l b dst i s = s := by
  have hbefore : ((s.ctx c).layer (layKey l b)).turnBefore s.board.pkgId dst = true :=
    List.any_eq_true.mpr ⟨v, hv, by rw [hready]; simpa using hturn⟩
  rw [subInject]
  dsimp only
  rw [hman, hsub]
  exact if_pos (by rw [hbefore, Bool.or_true])

/-- What an injection does: claims, the note, the rows, the sub-convoy's deadline, credits and counts. -/
theorem subInject_runs (hready : u.ready = true) (hearly : (s.ctx c).earlierReady (layKey l b) = false)
    (hturn : ∀ v ∈ ((s.ctx c).layer (layKey l b)).subs, v.ready = true → turnOf s.board.pkgId dst ≤ turnOf s.board.pkgId v.dst) :
    ∃ (h : Nat) (es : List Nat) (bs : List Byte) (go : List Bill) (f : Layer → Tbl Nat) (n₁ n₂ n₃ n₄ : Nat),
      go = u.bills.filter (fun w => w.gen == (((s.ctx c).layer (layKey l b)).slot w.slot).gen) ∧
      noteCrcOk h = true ∧ bits h 0 16 = m.epoch % 2 ^ 16 ∧ subInject c l b dst i s =
        (((((((((s.onLayer c (layKey l b) Layer.claimFirst).sendMsg dst 0x01 c (h :: es) bs).sendRows c dst
          ((s.ctx c).layer (layKey l b)).convRows go).onSub c (layKey l b) dst i (Sub.sent (s.now + m.returnUs * 1000) go)).onLayer
          c (layKey l b) (fun y => { y with hardCredits := f y })).bumpCtx c .staleSkips n₁).bumpCtx c .rowsDispatched n₂).bumpCtx
          c .rowsLocal n₃).bumpCtx c .bytesInjected n₄) := by
  have hfirst : ((s.ctx c).layer (layKey l b)).turnBefore s.board.pkgId dst = false := by
    refine List.any_eq_false.mpr fun v hv hgo => ?_
    rw [Bool.and_eq_true, decide_eq_true_eq] at hgo
    exact Nat.not_lt.mpr (hturn v hv hgo.1) hgo.2
  have hguard : ¬ ((!u.ready || (s.ctx c).earlierReady (layKey l b) || ((s.ctx c).layer (layKey l b)).turnBefore s.board.pkgId dst) = true) := by
    rw [hready, hearly, hfirst]
    decide
  rw [subInject]
  dsimp only
  rw [hman, hsub]
  dsimp only
  rw [if_neg hguard]
  iterate 9 apply Exists.intro
  exact ⟨rfl, noteCrcOk_noteHeader .., noteHeader_epoch .., rfl⟩

/-- What an injected sub-convoy looks like, and what was sent for it. -/
theorem subInject_injects (hc : c < s.ctxs.length) (hready : u.ready = true) (hearly : (s.ctx c).earlierReady (layKey l b) = false)
    (hturn : ∀ v ∈ ((s.ctx c).layer (layKey l b)).subs, v.ready = true → turnOf s.board.pkgId dst ≤ turnOf s.board.pkgId v.dst) :
    ∃ (x : Sub) (h : Nat), (((subInject c l b dst i s).ctx c).layer (layKey l b)).sub dst i = some x ∧ x.injected = true ∧
      x.deadline = (if x.waits = [] then 0 else s.now + m.returnUs * 1000) ∧
      x.waits = (u.bills.filter (fun w => w.gen == (((s.ctx c).layer (layKey l b)).slot w.slot).gen)).map (·.ret) ∧
      noteCrcOk h = true ∧ bits h 0 16 = m.epoch % 2 ^ 16 ∧
      (∃ es bs, Out.msg dst 0x01 c (h :: es) bs ∈ (subInject c l b dst i s).out) ∧
      ∀ w ∈ u.bills, w.gen = (((s.ctx c).layer (layKey l b)).slot w.slot).gen →
        Out.msg dst 0x02 c [w.pack] (rowBody ((s.ctx c).layer (layKey l b)).convRows w) ∈ (subInject c l b dst i s).out := by
  obtain ⟨h, es, bs, go, f, n₁, n₂, n₃, n₄, hgo, hcrc, hepoch, hrun⟩ := subInject_runs hman hsub hready hearly hturn
  generalize hv : ((s.onLayer c (layKey l b) Layer.claimFirst).sendMsg dst 0x01 c (h :: es) bs).sendRows c dst
    ((s.ctx c).layer (layKey l b)).convRows go = v at hrun
  have hctxs : v.ctxs = (s.onLayer c (layKey l b) Layer.claimFirst).ctxs := by rw [← hv, State.sendRows_ctxs, State.sendMsg_ctxs]
  have hvlen : c < v.ctxs.length := by
    rw [hctxs, State.onLayer_length]
    exact hc
  have hvsub : ((v.ctx c).layer (layKey l b)).sub dst i = some u := by
    rw [State.ctx_of_ctxs hctxs, State.layer_onLayer hc, Layer.sub, Layer.claimFirst_subs]
    exact hsub
  have hout : v.out ⊆ (subInject c l b dst i s).out := by
    rw [hrun]
    exact (State.bumpCtx_works (State.bumpCtx_works (State.bumpCtx_works (State.bumpCtx_works (State.onLayer_works
      (State.onLayer_works (.refl v) ..) ..) ..) ..) ..) ..).out
  refine ⟨Sub.sent (s.now + m.returnUs * 1000) go u, h, ?_, rfl, ?_, by rw [hgo]; rfl, hcrc, hepoch, ⟨es, bs, ?_⟩, fun w hw hgen => ?_⟩
  · rw [hrun, State.layer_bumpCtx, State.layer_bumpCtx, State.layer_bumpCtx, State.layer_bumpCtx,
      State.layer_onLayer (by rw [State.onSub, State.onLayer_length]; exact hvlen)]
    refine (State.sub_onSub hvlen dst i fun _ => ?_).trans (congrArg _ hvsub)
    exact ⟨rfl, rfl⟩
  · cases go <;> rfl
  · refine hout ?_
    rw [← hv]
    exact State.sendRows_kept _ _ _ _ _ (State.sendMsg_out ..)
  · refine hout ?_
    rw [← hv]
    refine State.sendRows_sends _ _ _ _ ?_
    rw [hgo]
    exact List.mem_filter.mpr ⟨hw, beq_iff_eq.mpr hgen⟩

/-! ### The release of later sub-convoys (5 R108) -/

theorem subRelease_releases {p : Sub} (hi : 0 < i) (hprev : ((s.ctx c).layer (layKey l b)).sub dst (i - 1) = some p)
    (hopen : u.released = false) (hsent : p.injected = true) (hdone : p.waits = []) : subRelease c l b dst i s =
      (s.onSub c (layKey l b) dst i (fun u => { u with released := true, releasedAt := s.now })).onLayer c (layKey l b) (fun y =>
        y.claimCredits dst u.bills.length) := by
  rw [subRelease]
  rw [hman, hsub, if_neg (Nat.ne_of_gt hi), hprev]
  exact if_neg (by rw [hopen, hsent, hdone]; decide)

theorem subRelease_waits {p : Sub} (hprev : ((s.ctx c).layer (layKey l b)).sub dst (i - 1) = some p) (hwait : p.waits ≠ []) :
    subRelease c l b dst i s = s := by
  rw [subRelease]
  rw [hman, hsub]
  by_cases hi : i = 0
  · rw [if_pos hi]
  · rw [if_neg hi, hprev]
    exact if_pos (by simp [hwait])

end

end

/-- Settles O46. -/
theorem dispatch : Obligations.Dispatch := by
  unfold Obligations.Dispatch
  refine ⟨?_, ?_, ?_, ?_, ?_, ?_, ?_⟩
  · intro c l b w r m s k y e hc hman hraw hseal
    refine ⟨fun havail h16 hlen => ?_, fun rep i havail hone hres hcause => ?_, fun rep i havail hone hres hfull h16 hlen => ?_⟩
    · obtain ⟨due, from_, hend⟩ := routeSeal_unavailable hc hman hraw hseal havail
      refine ⟨_, rfl, State.mem_of_form (by simp), ?_⟩
      rw [show ((routeSeal c l b s).ctx c).layer k = _ from hend]
      have hslot := Layer.slot_onSlot { (s.ctx c).layer k with raw := r } w.slot (Slot.dropped w.rank 2)
      exact ⟨rfl, rfl, (congrArg Slot.dropMask hslot), (congrArg (fun q : Slot => q.causes.getD w.rank 0) hslot).trans
        (Slot.dropped_cause h16 hlen 2), (congrArg Slot.degraded hslot).trans (Bool.or_true _)⟩
    · obtain ⟨due, from_, robin, keptBy, hend⟩ := routeSeal_keeps hc hman hraw hseal havail hone hres hcause
      refine ⟨_, rfl, State.mem_of_form (by simp), ?_⟩
      rw [show ((routeSeal c l b s).ctx c).layer k = _ from hend]
      exact ⟨rfl, rfl, congrArg Slot.kept (Layer.slot_onSlot y w.slot (fun q => { q with kept := q.kept + 1 }))⟩
    · obtain ⟨due, from_, robin, hend⟩ := routeSeal_full hc hman hraw hseal havail hone hres hfull
      refine ⟨_, rfl, State.mem_of_form (by simp), ?_⟩
      rw [show ((routeSeal c l b s).ctx c).layer k = _ from hend]
      have hslot := Layer.slot_onSlot { (s.ctx c).layer k with raw := r, robin := robin } w.slot (Slot.dropped w.rank 1)
      exact ⟨rfl, rfl, (congrArg (fun q : Slot => q.causes.getD w.rank 0) hslot).trans (Slot.dropped_cause h16 hlen 1)⟩
  · intro c l b s hraw
    exact congrArg Host.Outcome.next (routeSeal_none hraw)
  · intro c l n b s y hc hfrom hstalled
    exact ⟨fun hearly => congrArg Host.Outcome.next (stallExpiry_early hfrom hearly),
      fun hdue => ⟨_, rfl, State.mem_of_form (by simp), stallExpiry_clears hc hfrom hstalled hdue⟩⟩
  · intro c l b m md s k y hc hman hmodel hmoe hslots hgated hselected hraw hopen hstalled hfirst
    obtain ⟨hsorted, hlength, hplaces, horder, hheld, hcut, hwhole⟩ :=
      sortSet_sorts hc hman hmodel hmoe hslots hgated hselected hraw hopen hstalled hfirst
    exact ⟨_, rfl, State.mem_of_form (by simp), hsorted, hlength, hplaces, horder, hheld, hcut, hwhole⟩
  · intro c l b s h
    exact congrArg Host.Outcome.next (sortSet_sorted h)
  · intro c l d k n b z s y hstalled hdue hd hz hopen hj
    obtain ⟨j, hj, hzdue⟩ := hj
    exact congrArg Host.Outcome.next (sortSet_waits hstalled hdue hd hz hopen hj hzdue)
  · intro c l dst i b m u s k y hc hman hsub
    refine ⟨fun h => congrArg Host.Outcome.next (finalSeal_sealed hman hsub h),
      fun hopen hland hturn => congrArg Host.Outcome.next (finalSeal_seals hman hsub hopen hland hturn),
      fun hready hearly hturn => ?_, fun h => congrArg Host.Outcome.next (subInject_unready hman hsub h),
      fun v hv hready hturn => congrArg Host.Outcome.next (subInject_turn hman hsub hv hready hturn),
      fun p hi hprev hopen hsent hdone => congrArg Host.Outcome.next (subRelease_releases hman hsub hi hprev hopen hsent hdone),
      fun p hprev hwait => congrArg Host.Outcome.next (subRelease_waits hman hsub hprev hwait)⟩
    obtain ⟨x, h, hx, hinj, hdead, hwaits, hcrc, hepoch, hnote, hrows⟩ := subInject_injects hman hsub hc hready hearly hturn
    exact ⟨_, rfl, State.mem_of_form (by simp), x, h, hx, hinj, hdead, hwaits, hcrc, hepoch, hnote, hrows⟩

end Machine
end Sys2Proof
end


section
/-! PROOFS. The step boundary: what it waits for, the commit of a step, and the build of the next (3 R56 to R61, R68 to R70). -/

namespace Sys2Proof
namespace Machine

section
variable {s t u : State} {c q v : Nat} {m : Manifest} {n : Entry} {e : Seq}

/-! ### The boundary waits -/

theorem stepBoundary_shut (h : 16 ≤ c ∨ (s.ctx c).st ≠ .active ∨ (s.part (s.ctx c).share.partition).halted = true) : stepBoundary c s = s := by
  rw [stepBoundary]
  exact if_pos h

theorem stepBoundary_runs (hbetween : (s.ctx c).steps.between = false) (hman : (s.ctx c).steps.man = some m)
    (hend : (s.ctx c).stepEnded m = false) : stepBoundary c s = s := by
  rw [stepBoundary]
  dsimp only
  rw [hman]
  refine ite_eq_left_iff.mpr fun _ => ?_
  rw [if_neg (by rw [hbetween]; decide)]
  exact if_pos (by rw [hend]; rfl)

theorem stepBoundary_held (hbetween : (s.ctx c).steps.between = true) (hmay : s.mayBuild c = false) : stepBoundary c s = s := by
  rw [stepBoundary]
  refine ite_eq_left_iff.mpr fun _ => ?_
  rw [if_pos hbetween]
  exact if_neg (by rw [hmay]; decide)

section
variable (hc : c < 16) (hst : (s.ctx c).st = .active) (hrun : (s.part (s.ctx c).share.partition).halted = false)
include hc hst hrun

theorem State.boundary_open : ¬ (16 ≤ c ∨ (s.ctx c).st ≠ .active ∨ (s.part (s.ctx c).share.partition).halted = true) := by
  simp [hst, hrun, hc]

theorem stepBoundary_stalls (hbetween : (s.ctx c).steps.between = false) (hman : (s.ctx c).steps.man = some m)
    (hend : (s.ctx c).stepEnded m = true) (hroom : s.emitRoom m = false) :
    stepBoundary c s = if (s.ctx c).steps.stalled then s else
      (s.onCtx c (fun x => { x with steps := { x.steps with stalled := true } })).bumpCtx c .emitStalls 1 := by
  rw [stepBoundary]
  dsimp only
  rw [if_neg (State.boundary_open hc hst hrun), if_neg (by rw [hbetween]; decide), hman]
  dsimp only
  rw [if_neg (by rw [hend]; decide)]
  exact if_pos (by rw [hroom]; rfl)

theorem stepBoundary_commits (hbetween : (s.ctx c).steps.between = false) (hman : (s.ctx c).steps.man = some m)
    (hend : (s.ctx c).stepEnded m = true) (hroom : s.emitRoom m = true) :
    stepBoundary c s = (((((s.commitStep c m).onCtx c (fun x => { x with steps := { x.steps with stalled := false } })).releaseLeavers
      c).flipAll c).buildOrWait c) := by
  rw [stepBoundary]
  dsimp only
  rw [if_neg (State.boundary_open hc hst hrun), if_neg (by rw [hbetween]; decide), hman]
  dsimp only
  rw [if_neg (by rw [hend]; decide)]
  exact if_neg (by rw [hroom]; decide)

theorem stepBoundary_builds (hbetween : (s.ctx c).steps.between = true) (hmay : s.mayBuild c = true) :
    stepBoundary c s = (s.flipAll c).phases34 c := by
  rw [stepBoundary]
  dsimp only
  rw [if_neg (State.boundary_open hc hst hrun), if_pos hbetween]
  exact if_pos hmay

end

/-! ### What does nothing when nothing waits -/

theorem State.flipAll_none (hroute : (s.ctx c).route.other = .free) (hsfn : (s.ctx c).sfn.other = .free)
    (hlay : (s.ctx c).lay.other = .free) : s.flipAll c = s := by
  have hnone (k : Nat) : s.flip c k = s := State.flip_of_none (by unfold Ctx.holdsShadow; rw [hroute, hsfn, hlay]; split_ifs <;> rfl)
  rw [State.flipAll, hnone, hnone, hnone]

theorem State.releaseHeld_none (h : s.host.msgs = []) : s.releaseHeld c = s := by
  rw [State.releaseHeld, h]
  rfl

theorem State.answerOpens_none (h : s.host.msgs = []) : s.answerOpens c = s := by
  rw [State.answerOpens, h]
  rfl

theorem State.applyHeld_none (h : (s.ctx c).kv.heldHints = []) : s.applyHeld c = s := by
  rw [State.applyHeld, h]
  rfl

/-! ### The only sequence -/

theorem State.seq_sole (h : s.seqs = [(q, e)]) : s.seq q = e := by
  rw [State.seq, h]
  simp [Tbl.getD]

theorem State.onSeq_sole (h : s.seqs = [(q, e)]) {f : Seq → Seq} (hf : (f e).st = .decode) :
    s.onSeq q f = { s with seqs := [(q, f e)] } := by
  have hne : f e ≠ Seq.fresh := fun h => by
    rw [h] at hf
    cases hf
  rw [State.onSeq, State.seq_sole h, Tbl.setD, if_neg hne, h]
  simp [Tbl.put]

/-! ### What a commit's writes leave alone -/

/-- Queues, messages, and all that writes and counts leave alone. -/
def State.desk (s : State) : State × Tbl Ws × HostIf := (s.bare, s.ws, s.host)

theorem State.bare_of_desk (h : t.desk = s.desk) : t.bare = s.bare := congrArg (fun x : State × Tbl Ws × HostIf => x.1) h

theorem State.ws_of_desk (h : t.desk = s.desk) : t.ws = s.ws := congrArg (fun x : State × Tbl Ws × HostIf => x.2.1) h

theorem State.host_of_desk (h : t.desk = s.desk) : t.host = s.host := congrArg (fun x : State × Tbl Ws × HostIf => x.2.2) h

theorem desk_foldl {α : Type} {f : State → α → State} (l : List α) (h : ∀ t a, (f t a).desk = t.desk) : (l.foldl f s).desk = s.desk :=
  List.foldlRecOn (motive := fun t : State => t.desk = s.desk) _ _ rfl fun t ht a _ => (h t a).trans ht

theorem State.bumpCtx_desk (s : State) (c : Nat) (k : Ctr) (n : Nat) : (s.bumpCtx c k n).desk = s.desk := by
  rw [State.desk, State.bumpCtx_bare]
  rfl

theorem State.freed_desk (s : State) : s.freed.desk = s.desk := rfl

theorem State.ownStrings_desk (s : State) (c : Nat) (mma sfn : Bool) : (s.ownStrings c mma sfn).desk = s.desk :=
  (State.freed_desk _).trans ((State.bumpCtx_desk ..).trans ((State.bumpCtx_desk ..).trans
    ((State.bumpCtx_desk ..).trans (State.bumpCtx_desk ..))))

theorem State.charge_desk (s : State) (c a n : Nat) : (s.charge c a n).desk = s.desk := by
  rw [State.desk, State.charge_bare]
  unfold State.charge
  split <;> rfl

theorem State.granWrite_desk (s : State) (gs : List Nat) (o : Nat) (bs : List Byte) : (s.granWrite gs o bs).desk = s.desk := by
  unfold State.granWrite
  refine desk_foldl _ fun t z => ?_
  split <;> rfl

theorem State.kvRow_desk (s : State) (c q p n : Nat) (m : Model) (f : Nat × Nat × Nat) : (s.kvRow c q p n m f).desk = s.desk := by
  unfold State.kvRow
  exact (State.charge_desk ..).trans (desk_foldl _ fun t z => t.granWrite_desk ..)

theorem State.kvToken_desk (s : State) (c q p : Nat) : (s.kvToken c q p).desk = s.desk := by
  have hrows (t : State) (m : Model) (k : Nat) (fs : List (Nat × Nat × Nat)) :
      (fs.foldl (fun u f => u.kvRow c q p k m f) t).desk = t.desk := desk_foldl _ fun t f => t.kvRow_desk ..
  unfold State.kvToken
  split
  · rfl
  · dsimp only
    split <;> split
    · exact (hrows ..).trans (hrows ..)
    · exact hrows ..
    · exact hrows ..
    · rfl

theorem State.kvTokens_desk (s : State) (c q p n : Nat) : (s.kvTokens c q p n).desk = s.desk := by
  unfold State.kvTokens
  split
  · rfl
  · exact (State.ownStrings_desk ..).trans (desk_foldl (List.range n) fun t i => t.kvToken_desk c q (p + i))

/-- A record goes to the end of the ring's list. -/
theorem State.writeRecord_enters (s : State) (c : Nat) (body : List Byte) : ∃ (u : State) (f : Ctx → Steps), u.desk = s.desk ∧
    s.writeRecord c body = u.onCtx c (fun x => { x with steps := f x }) ∧
    (∀ x, ((f x).records.getLast?.map (·.2)) = some body.length ∧ f x = { x.steps with
      ringHead := (f x).ringHead, ringOldest := (f x).ringOldest, records := (f x).records }) := by
  refine ⟨_, _, ?_, rfl, fun x => ⟨?_, rfl⟩⟩
  · refine (State.bumpCtx_desk ..).trans ((State.charge_desk ..).trans ?_)
    split <;> rfl
  · simp

/-! ### The commit of one entry (3 R51, R57, R68) -/

theorem State.outcome_of_bare (h : t.bare = s.bare) (c : Nat) (n : Entry) : t.outcome c n = s.outcome c n := by
  have hmodel : (t.ctx c).model = (s.ctx c).model := by
    have hmodel := congrArg Ctx.model (State.ctx_bare_of h c)
    exact hmodel
  rw [State.outcome, State.outcome, State.seq_of_seqs (State.seqs_of_bare h), hmodel]

theorem Seq.fed_dry (h : e.feed = []) : e.fed = e := by
  rw [Seq.fed, h]
  rfl

/-- A sequence that goes on after a sampled token. -/
def Seq.advanced (e : Seq) (k : Nat) (v : Option Nat) : Seq :=
  { e with pos := e.pos + k, degraded := false, retire := false, st := .decode, pendTok := v }

theorem State.wsPush_desk_of (h : t.desk = s.desk) (w : Nat) (vs : List Nat) : (t.wsPush w vs).desk = (s.wsPush w vs).desk := by
  have hbare : (t.wsPush w vs).bare = (s.wsPush w vs).bare := (State.bare_of_still (State.wsPush_still ..)).trans
    ((State.bare_of_desk h).trans (State.bare_of_still (State.wsPush_still ..)).symm)
  have hws : (t.wsPush w vs).ws = (s.wsPush w vs).ws := by
    show t.ws.setD Ws.fresh w (vs.foldl (fun r v => r.push v t.now) (t.ws.getD w Ws.fresh)) = _
    rw [State.ws_of_desk h, State.now_of_bare (State.bare_of_desk h)]
    rfl
  have hhost : (t.wsPush w vs).host = (s.wsPush w vs).host := congrArg (fun x : State × Tbl Ws × HostIf => x.2.2) h
  rw [State.desk, hbare, hws, hhost]
  rfl

/-- The only sequence takes its sampled token and goes on. -/
theorem State.moveSeq_advances (h : s.seqs = [(q, e)]) (hfeed : e.feed = []) :
    s.moveSeq q ⟨some (some v), false, false⟩ = { s with seqs := [(q, { e with st := .decode, pendTok := some v })] } := by
  have hfed : Seq.fed { e with st := .decode, pendTok := some v } = { e with st := .decode, pendTok := some v } := Seq.fed_dry hfeed
  have hmove := State.onSeq_sole h (f := fun e => Seq.fed { e with st := .decode, pendTok := some v }) (congrArg Seq.st hfed)
  exact hmove.trans (congrArg (fun y => { s with seqs := [(q, y)] }) hfed)

/-- A sampled entry whose sequence goes on: its emit record is pushed, and the sequence holds its token. -/
theorem State.commitEntry_advances {epoch : Nat} (hseqs : s.seqs = [(q, e)]) (hst : e.st = .decode) (hfeed : e.feed = [])
    (hframe : e.perFrame = 0) (hprefix : e.usePrefix = false) (hseq : n.seq = q) (hcan : n.cancelled = false)
    (hout : s.outcome c n = ⟨some (some v), false, false⟩) : ∃ u : State,
      u.desk = (s.wsPush e.emitWs [emitRecord (some v) (n.start + n.tokens - 1) q epoch false false false false
        (n.degraded || e.degraded)]).desk ∧
      (s.commitEntry c epoch n).1 = { u with seqs := [(q, e.advanced n.tokens (some v))] } := by
  subst hseq
  have ha := s.kvTokens_desk c n.seq n.start n.tokens
  unfold State.commitEntry
  generalize s.kvTokens c n.seq n.start n.tokens = a at ha
  have hseqs' : a.seqs = [(n.seq, e)] := (State.seqs_of_bare (State.bare_of_desk ha)).trans hseqs
  have hprefix' : a.commitPrefix c n = a := by
    rw [State.commitPrefix, State.seq_sole hseqs']
    exact if_neg (by rw [hprefix]; decide)
  have hstand : (if (some (some v)).isSome = true then e.frame a.now else (e, false, false)) = (e, false, false) :=
    (if_pos rfl).trans (if_pos hframe)
  have hdesk := State.wsPush_desk_of ha e.emitWs [emitRecord (some v) (n.start + n.tokens - 1) n.seq epoch false false false false
    (n.degraded || e.degraded)]
  refine ⟨_, (State.bumpCtx_desk _ c .framesLate 0).trans hdesk, ?_⟩
  dsimp only
  rw [if_neg (by rw [hcan]; decide), State.outcome_of_bare (State.bare_of_desk ha), hout, State.seq_sole hseqs', hprefix']
  dsimp only
  rw [hstand, State.onSeq_sole hseqs' hst]
  refine (State.moveSeq_advances (e := { e with
    pos := e.pos + n.tokens, retire := false, degraded := (n.degraded || e.degraded) && (some (some v)).isNone }) rfl hfeed).trans ?_
  rw [Option.isNone_some, Bool.and_false]
  rfl

/-! ### The commit of a step (3 R57, R69) -/

theorem Ctx.dropGranules_bare (x : Ctx) (l : List Nat) : (x.dropGranules l).bare = x.bare :=
  List.foldlRecOn (motive := fun y : Ctx => y.bare = x.bare) l _ rfl fun _ hy _ _ => hy

theorem Ctx.joinEvicted_bare (x : Ctx) : x.joinEvicted.bare = { x with kv := { x.kv with evicted := [] } }.bare :=
  congrArg (fun y : Ctx => { y with kv := { y.kv with evicted := [] } }) (x.dropGranules_bare x.kv.evicted)

theorem Ctx.kept_of_bare {x y : Ctx} (h : y.bare = x.bare) :
    y.steps = x.steps ∧ y.route = x.route ∧ y.sfn = x.sfn ∧ y.lay = x.lay ∧ y.held = x.held ∧ y.plans = x.plans ∧ y.kv = x.kv := by
  have hsteps := congrArg Ctx.steps h
  have hroute := congrArg Ctx.route h
  have hsfn := congrArg Ctx.sfn h
  have hlay := congrArg Ctx.lay h
  have hheld := congrArg Ctx.held h
  have hplans := congrArg Ctx.plans h
  have hkv := congrArg Ctx.kv h
  exact ⟨hsteps, hroute, hsfn, hlay, hheld, hplans, hkv⟩

/-- A context once its step is committed and its record of one entry is written. -/
structure Ctx.Committed (epoch : Nat) (x y : Ctx) : Prop where
  man    : y.steps.man = none
  done   : y.steps.doneMask = x.steps.doneMask ||| 2 ^ epoch
  next   : y.steps.nextEpoch = x.steps.nextEpoch
  record : (y.steps.records.getLast?.map (·.2)) = some 48
  route  : y.route = x.route
  sfn    : y.sfn = x.sfn
  lay    : y.lay = x.lay
  held   : y.held = x.held

theorem Ctx.Committed.joinEvicted {epoch : Nat} {x y : Ctx} (h : x.Committed epoch y) : x.Committed epoch y.joinEvicted := by
  obtain ⟨hsteps, hroute, hsfn, hlay, hheld, -⟩ := Ctx.kept_of_bare y.joinEvicted_bare
  exact ⟨hsteps ▸ h.man, hsteps ▸ h.done, hsteps ▸ h.next, hsteps ▸ h.record, hroute.trans h.route, hsfn.trans h.sfn,
    hlay.trans h.lay, hheld.trans h.held⟩

/-- A record of a step of one entry holds that entry alone where no sequence has a note. -/
theorem State.recEntries_one (hentries : m.entries = [n]) (hnotes : (s.ctx c).steps.notes = []) (hgone : (s.ctx c).steps.gone = [])
    (f : Nat × Nat) : (s.recEntries c m [f]).length = 1 := by
  rw [State.recEntries]
  simp [hentries, hnotes, hgone, sortBy]

/-- The plans of a step are over: what the boundary of its commit leaves of them. -/
def Ctx.unplanned (x : Ctx) : Ctx := { x with plans := { x.plans with
  now := [], host := [], hostReserved := [], hist := [], pred := [], pairs := [], requests := [] } }

theorem State.endPlans_none (h : (s.ctx c).plans.requests = []) : s.endPlans c = s.onCtx c Ctx.unplanned := by
  rw [State.endPlans, h]
  rfl

/-- The commit of a step of one sampled entry whose sequence goes on. -/
theorem State.commitStep_one (hc : c < s.ctxs.length) (hnotes : (s.ctx c).steps.notes = []) (hgone : (s.ctx c).steps.gone = [])
    (hreq : (s.ctx c).plans.requests = []) (hentries : m.entries = [n]) {e' : Seq} {rec : Nat}
    (hentry : ∃ u : State, u.desk = (s.wsPush e.emitWs [rec]).desk ∧ (s.commitEntry c m.epoch n).1 = { u with seqs := [(q, e')] }) :
    (s.commitStep c m).seqs = [(q, e')] ∧ (s.commitStep c m).ws = (s.wsPush e.emitWs [rec]).ws ∧ (s.commitStep c m).host = s.host ∧
      c < (s.commitStep c m).ctxs.length ∧ (s.ctx c).Committed m.epoch ((s.commitStep c m).ctx c) := by
  obtain ⟨u, hu, hentry⟩ := hentry
  generalize hr : ({ u with seqs := [(q, e')] } : State) = r at hentry
  have hall : commitAll c m.epoch m.entries s = ([(n.seq, (s.commitEntry c m.epoch n).2)], r) := by
    rw [hentries, ← hentry]
    rfl
  have hbare : u.bare = s.bare := (State.bare_of_desk hu).trans (State.bare_of_still (State.wsPush_still ..))
  have hkept : (r.ctx c).bare = (s.ctx c).bare := by
    rw [← hr]
    exact State.ctx_bare_of hbare c
  obtain ⟨hsteps, -⟩ := Ctx.kept_of_bare hkept
  have hone := State.recEntries_one (s := r) hentries (hsteps ▸ hnotes) (hsteps ▸ hgone) (n.seq, (s.commitEntry c m.epoch n).2)
  rw [State.commitStep, hall]
  dsimp only
  generalize r.recEntries c m [(n.seq, (s.commitEntry c m.epoch n).2)] = ents at hone
  obtain ⟨a, rfl⟩ := List.length_eq_one_iff.mp hone
  have hbody : (toLE 32 (recHeader m c [a].length s.now) ++ ([a].map (toLE 16)).flatten).length = 48 := by simp [toLE_length]
  obtain ⟨y, f, hy, hrec, hf⟩ := r.writeRecord_enters c (toLE 32 (recHeader m c [a].length s.now) ++ ([a].map (toLE 16)).flatten)
  rw [hrec]
  rw [hbody] at hf
  generalize hw : (((y.onCtx c (fun x => { x with steps := f x })).bumpCtx c .stepsCommitted 1).bumpCtx c .lateCancels
    (countP (fun e : Entry => e.cancelled && !e.skipped) m.entries)).bumpCtx c .fixedSteps (b2n m.fixed) = w
  have hwdesk : w.desk = (y.onCtx c (fun x => { x with steps := f x })).desk := by
    rw [← hw, State.bumpCtx_desk, State.bumpCtx_desk, State.bumpCtx_desk]
  have hylen : c < y.ctxs.length := by
    have hyr : y.bare = r.bare := State.bare_of_desk hy
    have hrl : r.ctxs.length = u.ctxs.length := by rw [← hr]
    rw [State.ctxs_length_of_bare hyr, hrl, State.ctxs_length_of_bare hbare]
    exact hc
  have hwlen : c < w.ctxs.length := by
    rw [State.ctxs_length_of_bare (State.bare_of_desk hwdesk), State.onCtx_length]
    exact hylen
  have hwctx : (w.ctx c).bare = { y.ctx c with steps := f (y.ctx c) }.bare := by
    rw [State.ctx_bare_of (State.bare_of_desk hwdesk) c, State.ctx_onCtx _ _ _ _ hylen, if_pos rfl]
  have hyctx : (y.ctx c).bare = (s.ctx c).bare := (State.ctx_bare_of (State.bare_of_desk hy) c).trans hkept
  obtain ⟨hwsteps, hwroute, hwsfn, hwlay, hwheld, hwplans, -⟩ := Ctx.kept_of_bare hwctx
  obtain ⟨hysteps, hyroute, hysfn, hylay, hyheld, hyplans, -⟩ := Ctx.kept_of_bare hyctx
  obtain ⟨hrecord, hrest⟩ := hf (y.ctx c)
  have hwreq : (w.ctx c).plans.requests = [] := by
    rw [hwplans, hyplans]
    exact hreq
  rw [State.endPlans_none (by rw [State.ctx_onCtx _ _ _ _ hwlen, if_pos rfl]; exact hwreq)]
  refine ⟨?_, ?_, ?_, by rw [State.onCtx_length, State.onCtx_length]; exact hwlen, ?_⟩
  · have hseqs := State.seqs_of_bare (State.bare_of_desk hwdesk)
    refine hseqs.trans ((State.seqs_of_bare (State.bare_of_desk hy)).trans ?_)
    rw [← hr]
  · have hws := State.ws_of_desk hwdesk
    refine hws.trans ((State.ws_of_desk hy).trans (Eq.trans ?_ (State.ws_of_desk hu)))
    rw [← hr]
  · have hhost := State.host_of_desk hwdesk
    have huhost := State.host_of_desk hu
    refine hhost.trans ((State.host_of_desk hy).trans (Eq.trans ?_ huhost))
    rw [← hr]
  · rw [State.ctx_onCtx _ _ _ _ (by rw [State.onCtx_length]; exact hwlen), if_pos rfl, State.ctx_onCtx _ _ _ _ hwlen, if_pos rfl]
    have hfsteps : (w.ctx c).steps = f (y.ctx c) := hwsteps
    have hdone : (w.ctx c).steps.doneMask = (s.ctx c).steps.doneMask := by
      rw [hfsteps, congrArg Steps.doneMask hrest, hysteps]
    have hnext : (w.ctx c).steps.nextEpoch = (s.ctx c).steps.nextEpoch := by
      rw [hfsteps, congrArg Steps.nextEpoch hrest, hysteps]
    have hlast : ((w.ctx c).steps.records.getLast?.map (·.2)) = some 48 := by
      rw [hfsteps]
      exact hrecord
    exact ⟨rfl, congrArg (· ||| 2 ^ m.epoch) hdone, hnext, hlast, hwroute.trans hyroute, hwsfn.trans hysfn, hwlay.trans hylay,
      hwheld.trans hyheld⟩

/-! ### The boundary of a held context -/

theorem State.releaseLeavers_none (hseqs : s.seqs = [(q, e)]) (hst : e.st = .decode) : s.releaseLeavers c = s.onCtx c Ctx.joinEvicted := by
  rw [State.releaseLeavers, hseqs]
  simp [hst]

theorem State.buildOrWait_held (hheld : (s.ctx c).held = true) (hmsgs : s.host.msgs = []) :
    s.buildOrWait c = s.onCtx c (fun x => { x with steps := { x.steps with between := true } }) := by
  rw [State.buildOrWait, if_neg (by simp [State.mayBuild, hheld]), if_pos hheld, State.releaseHeld_none hmsgs]

/-- The commit of a held context: what its boundary leaves. -/
theorem stepBoundary_pauses (hc : c < 16) (hst : (s.ctx c).st = .active)
    (hrun : (s.part (s.ctx c).share.partition).halted = false) (hheld : (s.ctx c).held = true)
    (hbetween : (s.ctx c).steps.between = false) (hman : (s.ctx c).steps.man = some m) (hend : (s.ctx c).stepEnded m = true)
    (hroom : s.emitRoom m = true) (hroute : (s.ctx c).route.other = .free) (hsfn : (s.ctx c).sfn.other = .free)
    (hlay : (s.ctx c).lay.other = .free) (hmsgs : s.host.msgs = []) (hdecode : e.st = .decode)
    (hcommit : (s.commitStep c m).seqs = [(q, e)] ∧ (s.commitStep c m).ws = t.ws ∧ (s.commitStep c m).host = s.host ∧
      c < (s.commitStep c m).ctxs.length ∧ (s.ctx c).Committed m.epoch ((s.commitStep c m).ctx c)) :
    (stepBoundary c s).seqs = [(q, e)] ∧ (stepBoundary c s).ws = t.ws ∧
      (s.ctx c).Committed m.epoch ((stepBoundary c s).ctx c) ∧ ((stepBoundary c s).ctx c).steps.between = true := by
  rw [stepBoundary_commits hc hst hrun hbetween hman hend hroom]
  obtain ⟨hseqs, hws, hhost, hulen, hdone⟩ := hcommit
  generalize s.commitStep c m = u at hseqs hws hhost hulen hdone
  have hleave : (u.onCtx c (fun x => { x with steps := { x.steps with stalled := false } })).releaseLeavers c =
      (u.onCtx c (fun x => { x with steps := { x.steps with stalled := false } })).onCtx c Ctx.joinEvicted :=
    State.releaseLeavers_none hseqs hdecode
  rw [hleave, State.onCtx_onCtx]
  have hdone' : (s.ctx c).Committed m.epoch (Ctx.joinEvicted { u.ctx c with steps := { (u.ctx c).steps with stalled := false } }) :=
    Ctx.Committed.joinEvicted ⟨hdone.man, hdone.done, hdone.next, hdone.record, hdone.route, hdone.sfn, hdone.lay, hdone.held⟩
  generalize hf : (fun x : Ctx => Ctx.joinEvicted { x with steps := { x.steps with stalled := false } }) = f
  have hctx : (u.onCtx c f).ctx c = Ctx.joinEvicted { u.ctx c with steps := { (u.ctx c).steps with stalled := false } } := by
    rw [State.ctx_onCtx _ _ _ _ hulen, if_pos rfl, ← hf]
  rw [← hctx] at hdone'
  rw [State.flipAll_none (hdone'.route ▸ hroute) (hdone'.sfn ▸ hsfn) (hdone'.lay ▸ hlay),
    State.buildOrWait_held (s := u.onCtx c f) (hdone'.held.trans hheld) ((congrArg HostIf.msgs hhost).trans hmsgs)]
  refine ⟨hseqs, hws, ?_⟩
  rw [State.ctx_onCtx _ _ _ _ (by rw [State.onCtx_length]; exact hulen), if_pos rfl]
  exact ⟨⟨hdone'.man, hdone'.done, hdone'.next, hdone'.record, hdone'.route, hdone'.sfn, hdone'.lay, hdone'.held⟩, rfl⟩

/-! ### Phase 3: the only sequence is selected (3 R58) -/

theorem State.grow_none (hseqs : s.seqs = [(q, e)]) (hst : e.st = .decode) (hdemand : (s.ctx c).demand e 1 = (0, 0)) (die : Nat) :
    s.grow c q 1 die = s := by
  obtain ⟨hfull, hring⟩ := Prod.mk.inj hdemand
  obtain ⟨hmore, hshared⟩ := Nat.add_eq_zero_iff.mp hfull
  rw [State.grow, State.seq_sole hseqs, List.length_eq_zero_iff.mp hshared, List.length_eq_zero_iff.mp hring, List.foldl_nil, List.foldl_nil, hmore,
    Ctx.newCols]
  dsimp only
  rw [State.onCtx_of_eq rfl, State.onSeq_sole hseqs (by exact hst), List.append_nil]
  refine Eq.trans (if_pos rfl) ?_
  rw [← hseqs]

/-- The entry of a sequence that places the token it holds. -/
def Seq.entry (e : Seq) (q v : Nat) : Entry :=
  ⟨q, 0, 1, false, true, e.pos, e.cb, e.temp, e.topP, e.topK, e.seed, e.stopSet, e.turnSet, [v], [], false, false, false, 0, false, none⟩

/-- The columns of a sequence are stamped. -/
def Seq.stampCols (e : Seq) (now : Nat) (x : Ctx) : Ctx :=
  (e.cols ++ e.ring).foldl (fun y k => y.onCol k (fun z => { z with stamp := now })) x

theorem Seq.stampCols_cols (e : Seq) (now : Nat) (x : Ctx) : ∃ cols, e.stampCols now x = { x with kv := { x.kv with cols := cols } } :=
  List.foldlRecOn (motive := fun y : Ctx => ∃ cols, y = { x with kv := { x.kv with cols := cols } }) _ _ ⟨_, rfl⟩ fun _ hy _ _ => by
    obtain ⟨cols, rfl⟩ := hy
    exact ⟨_, rfl⟩

/-- The state in which the only sequence, in DECODE, is selected. -/
def State.picked (s : State) (c q : Nat) (e : Seq) : State :=
  { s.onCtx c (e.stampCols s.now) with seqs := [(q, { e with pendTok := none })] }

theorem State.select_decode (hseqs : s.seqs = [(q, e)]) (hst : e.st = .decode) (hpend : e.pendTok = some v) :
    s.select c q 1 false =
      (e.entry q v, s.picked c q e) := by
  have hon : (s.onCtx c (e.stampCols s.now)).onSeq q (fun e => { e with pendTok := none }) =
      s.picked c q e :=
    State.onSeq_sole (s := s.onCtx c (e.stampCols s.now)) hseqs hst
  rw [← hon, State.select]
  dsimp only
  rw [State.seq_sole hseqs, hst, hpend]
  rfl

theorem Ctx.fitsD_none (x : Ctx) : x.fitsD (0, 0) = true := by
  rw [Ctx.fitsD, Ctx.fits, Ctx.shortfall]
  simp

/-- A sequence with its columns takes its one token's place. -/
theorem growAll_one {chunk b : Nat} (hseqs : s.seqs = [(q, e)]) (hst : e.st = .decode) (hdemand : (s.ctx c).demand e 1 = (0, 0))
    (hb : 0 < b) (hpend : e.pendTok = some v) : growAll c chunk [q] b s = ([e.entry q v], b - 1, s.draw.2.picked c q e) := by
  have hone : Nat.min (if e.st == .decode then 1 else Nat.min e.feed.length chunk) b = 1 := by
    rw [hst]
    exact Nat.min_eq_left hb
  have hfits : (s.ctx c).fitsD ((s.ctx c).demand e 1) = true := by
    rw [hdemand]
    exact Ctx.fitsD_none _
  have hfirst : firstBelow 1 (fun i => (s.ctx c).fitsD ((s.ctx c).demand e (1 - i))) = some 0 := by
    rw [firstBelow, List.range_one]
    exact List.find?_cons_of_pos hfits
  have hdraw : s.draw.2.grow c q 1 (s.draw.1 % 4) = s.draw.2 := State.grow_none (s := s.draw.2) hseqs hst hdemand _
  rw [growAll]
  dsimp only
  rw [State.seq_sole hseqs, hone, if_neg (by decide), if_pos hfits, hfirst, Option.map_some]
  dsimp only
  rw [Nat.sub_zero, hdraw, show decide (1 < 1) = false from rfl, State.select_decode (s := s.draw.2) hseqs hst hpend]
  rfl

/-! ### Phases 3 and 4 of one sequence (3 R56, R58 to R61) -/

/-- The boundary forgets what the last one asked for, and no sequence of the context is paused. -/
def State.cleared (s : State) (c : Nat) : State :=
  { (s.onCtx c (fun x => { x with kv := { x.kv with wanted := (0, 0), covered := 0, blocked := false } })) with
    seqs := s.seqs.mapV (fun _ e => if e.ctx = c then { e with paused := false } else e) }

theorem State.cleared_seqs (hseqs : s.seqs = [(q, e)]) (hctx : e.ctx = c) : (s.cleared c).seqs = [(q, { e with paused := false })] := by
  rw [State.cleared, hseqs]
  simp [Tbl.mapV, hctx]

theorem State.candidates_sole (hseqs : s.seqs = [(q, e)]) (hctx : e.ctx = c) (hst : e.st = .decode) (hnear : e.kvFar = false) :
    s.candidates c = [q] := by
  rw [State.candidates, hseqs]
  simp [hctx, hst, hnear, sortBy, insertBy]

theorem State.joiners_none (hseqs : s.seqs = [(q, e)]) (hst : e.st = .decode) : s.joiners c = [] := by
  rw [State.joiners, hseqs]
  simp [hst, sortBy]

theorem Ctx.dropLists_bare (x : Ctx) : x.dropLists.bare = { x with kv := { x.kv with freeFull := [], freeRing := [] } }.bare :=
  congrArg (fun y : Ctx => { y with kv := { y.kv with freeFull := [], freeRing := [] } })
    (x.dropGranules_bare (x.kv.freeFull.flatten ++ x.kv.freeRing.flatten))

theorem State.cleared_ctx (hc : c < s.ctxs.length) : (s.cleared c).ctx c =
    { s.ctx c with kv := { (s.ctx c).kv with wanted := (0, 0), covered := 0, blocked := false } } := by
  have hctx := State.ctx_onCtx (s := s) c c (fun x => { x with kv := { x.kv with wanted := (0, 0), covered := 0, blocked := false } }) hc
  rw [if_pos rfl] at hctx
  exact hctx

theorem State.cleared_length (s : State) (c : Nat) : (s.cleared c).ctxs.length = s.ctxs.length := updAt_length ..

theorem State.picked_length (s : State) (c q : Nat) (e : Seq) : (s.picked c q e).ctxs.length = s.ctxs.length := updAt_length ..

theorem State.picked_ctx (hc : c < s.ctxs.length) : (s.picked c q e).ctx c = e.stampCols s.now (s.ctx c) := by
  have hctx := State.ctx_onCtx (s := s) c c (e.stampCols s.now) hc
  rw [if_pos rfl] at hctx
  exact hctx

/-- The state in which the only sequence is selected and the lists of free columns are given back. -/
def State.chosen (s : State) (c q : Nat) (e : Seq) : State :=
  ((s.cleared c).draw.2.picked c q { e with paused := false }).onCtx c Ctx.dropLists

theorem State.chosen_length (s : State) (c q : Nat) (e : Seq) : (s.chosen c q e).ctxs.length = s.ctxs.length := by
  rw [State.chosen, State.onCtx_length, State.picked_length]
  exact s.cleared_length c

theorem State.chosen_ctx (hc : c < s.ctxs.length) : ((s.chosen c q e).ctx c).steps = (s.ctx c).steps ∧
    ((s.chosen c q e).ctx c).route = (s.ctx c).route ∧ ((s.chosen c q e).ctx c).kv.heldHints = (s.ctx c).kv.heldHints := by
  have hlen : c < (s.cleared c).draw.2.ctxs.length := by
    have hcleared := s.cleared_length c
    exact hcleared.symm ▸ hc
  have hpicked := State.picked_ctx (q := q) (e := { e with paused := false }) hlen
  obtain ⟨cols, hcols⟩ := Seq.stampCols_cols { e with paused := false } (s.cleared c).draw.2.now ((s.cleared c).draw.2.ctx c)
  have hdraw : (s.cleared c).draw.2.ctx c = (s.cleared c).ctx c := rfl
  have hctx : (s.chosen c q e).ctx c = Ctx.dropLists (((s.cleared c).draw.2.picked c q { e with paused := false }).ctx c) := by
    rw [State.chosen, State.ctx_onCtx _ _ _ _ (by rw [State.picked_length]; exact hlen), if_pos rfl]
  obtain ⟨hsteps, hroute, -, -, -, -, hkv⟩ := Ctx.kept_of_bare (Ctx.dropLists_bare
    (((s.cleared c).draw.2.picked c q { e with paused := false }).ctx c))
  rw [hctx, hsteps, hroute, hkv, hpicked, hcols, hdraw, State.cleared_ctx hc]
  exact ⟨rfl, rfl, rfl⟩

theorem State.planRequests_idle (hfw : (s.fw fwCaravan).st ≠ .running) (m : Manifest) : s.planRequests c m = s := by
  rw [State.planRequests]
  exact if_pos hfw

/-- Phase 3 selects one entry, and none joins. -/
theorem State.phases34_of {b : Nat} (hgrow : growAll c (s.ctx c).steps.prefillChunk ((s.cleared c).candidates c)
      (Nat.min (s.ctx c).steps.tokenLimit (2097152 / (s.ctx c).route.active.kmax)) (s.cleared c) = ([n], b, u))
    (hjoin : u.joiners c = []) : s.phases34 c = (((((((u.onCtx c Ctx.dropLists).build c [n]).onCtx c (fun x =>
      { x with steps := { x.steps with between := false } })).answerOpens c).releaseHeld c).applyHeld c).sendAcks c) := by
  rw [State.cleared] at hgrow
  rw [State.phases34]
  dsimp only
  rw [hgrow]
  dsimp only
  rw [hjoin, admitAll]
  rfl

/-- The phases over the only sequence: it is selected. -/
theorem State.phases34_one (hc : c < s.ctxs.length) (hseqs : s.seqs = [(q, e)]) (hctx : e.ctx = c) (hst : e.st = .decode)
    (hnear : e.kvFar = false) (hpend : e.pendTok = some v) (hdemand : (s.ctx c).demand e 1 = (0, 0))
    (hlimit : 0 < (s.ctx c).steps.tokenLimit) (hbudget : 0 < 2097152 / (s.ctx c).route.active.kmax) :
    s.phases34 c = (((((((s.chosen c q e).build c [e.entry q v]).onCtx c (fun x =>
      { x with steps := { x.steps with between := false } })).answerOpens c).releaseHeld c).applyHeld c).sendAcks c) := by
  have hcleared := State.cleared_seqs hseqs hctx
  have hdemand' : ((s.cleared c).ctx c).demand { e with paused := false } 1 = (0, 0) := by
    rw [State.cleared_ctx hc]
    exact hdemand
  have hgrow := growAll_one (chunk := (s.ctx c).steps.prefillChunk) hcleared hst hdemand' (Nat.lt_min.mpr ⟨hlimit, hbudget⟩) hpend
  rw [← State.candidates_sole hcleared hctx hst hnear] at hgrow
  exact State.phases34_of hgrow (State.joiners_none rfl hst)

/-! ### The Manifest of one entry (3 R60, R61) -/

/-- The Manifest of one entry of one token. -/
def Ctx.manifest (x : Ctx) (now : Nat) (n : Entry) (switched : List Nat) : Manifest :=
  ⟨x.steps.nextEpoch, x.steps.mode, 1, 1, [{ n with slot := 0, convoyB := false }], 0, 0, 0, 0, now, x.route.gen, x.sfn.gen, x.lay.gen,
    x.returnUs, 0, false, switched, []⟩

theorem State.build_one (hfw : (s.fw fwCaravan).st ≠ .running) (htokens : n.tokens = 1) :
    ∃ (switched : List Nat) (f g : Ctx → Nat) (slice : Nat), s.build c [n] = s.onCtx c (fun x => { x with
      layers := []
      steps := { x.steps with
        man := some ((s.ctx c).manifest s.now n switched), nextEpoch := ((s.ctx c).steps.nextEpoch + 1) % 65536, doneMask := f x
        killedMask := g x, sliceAt := slice } }) := by
  have hsum : sumN ([n].map (·.tokens)) = 1 := by
    rw [List.map_singleton, htokens]
    rfl
  have hcut : cutConvoys (Nat.max 1 (1 / 2)) [n] 0 = [{ n with slot := 0, convoyB := false }] := rfl
  have hfirst : sumN (([{ n with slot := 0, convoyB := false }].filter (fun e : Entry => !e.convoyB)).map (·.tokens)) = 1 := hsum
  rw [State.build]
  dsimp only
  rw [hsum, hcut, hfirst, State.planRequests_idle (by exact hfw), State.onMan, State.onCtx_onCtx]
  exact ⟨_, _, _, _, rfl⟩

/-! ### Acknowledgements go out (7 R166) -/

theorem State.takeAck_engaged (s : State) (src c l e i : Nat) : (s.takeAck src c l e i).engaged = s.engaged :=
  (State.onCtx_engaged _ fun _ => by rfl).trans (State.onCtx_engaged _ fun _ => by rfl)

theorem State.sendAcks_engaged (s : State) (c : Nat) : (s.sendAcks c).engaged = s.engaged := by
  unfold State.sendAcks
  refine (engaged_foldl (fun t k => ?_) _ _).trans (State.onCtx_engaged _ fun _ => by rfl)
  split
  · split
    · exact State.takeAck_engaged ..
    · rw [State.sendOpen_eq]
      rfl
  · rfl

theorem State.sendAcks_seqs (s : State) (c : Nat) : (s.sendAcks c).seqs = s.seqs := by
  unfold State.sendAcks
  refine List.foldlRecOn (motive := fun t : State => t.seqs = s.seqs) _ _ rfl fun t ht k _ => ?_
  split
  · split
    · exact ht
    · rw [State.sendOpen_eq]
      exact ht
  · exact ht

/-! ### The boundary that builds -/

/-- What a boundary leaves once the Manifest of its one entry is built. -/
theorem State.build_ends (hc : c < u.ctxs.length) (hfw : (u.fw fwCaravan).st ≠ .running) (htokens : n.tokens = 1)
    (hmsgs : u.host.msgs = []) (hhints : (u.ctx c).kv.heldHints = []) (ht : t = ((((((u.build c [n]).onCtx c (fun x =>
      { x with steps := { x.steps with between := false } })).answerOpens c).releaseHeld c).applyHeld c).sendAcks c)) :
    (∃ switched, (t.ctx c).steps.man = some ((u.ctx c).manifest u.now n switched)) ∧
      (t.ctx c).steps.nextEpoch = ((u.ctx c).steps.nextEpoch + 1) % 65536 ∧ (t.ctx c).steps.between = false ∧
      t.seqs = u.seqs ∧ t.mem = u.mem := by
  obtain ⟨switched, f, g, slice, hbuild⟩ := State.build_one (c := c) hfw htokens
  rw [hbuild, State.onCtx_onCtx] at ht
  generalize hv : u.onCtx c _ = v at ht
  have hvctx := congrArg (fun y : State => y.ctx c) hv.symm
  dsimp only at hvctx
  rw [State.ctx_onCtx _ _ _ _ hc, if_pos rfl] at hvctx
  have hvmsgs : v.host.msgs = [] := by rw [← hv]; exact hmsgs
  have hvhints : (v.ctx c).kv.heldHints = [] := by rw [hvctx]; exact hhints
  rw [State.answerOpens_none hvmsgs, State.releaseHeld_none hvmsgs, State.applyHeld_none hvhints] at ht
  have hsteps : (t.ctx c).steps = (v.ctx c).steps := by
    rw [ht]
    exact congrArg (·.1) (State.ctx_engaged_of (v.sendAcks_engaged c) c)
  rw [hsteps, hvctx]
  refine ⟨⟨switched, rfl⟩, rfl, rfl, ?_, ?_⟩
  · rw [ht, State.sendAcks_seqs, ← hv]
    rfl
  · rw [ht, State.mem_of_form (State.sendAcks_form ..), ← hv]
    rfl

theorem State.chosen_kept (s : State) (c q : Nat) (e : Seq) : (s.chosen c q e).seqs = [(q, { e with paused := false, pendTok := none })] ∧
    (s.chosen c q e).host = s.host ∧ (s.chosen c q e).mem = s.mem ∧ (s.chosen c q e).now = s.now ∧ (s.chosen c q e).fws = s.fws := by
  unfold State.chosen State.picked State.cleared State.draw State.onCtx
  exact ⟨rfl, rfl, rfl, rfl, rfl⟩

/-- The boundary of a context whose only sequence decodes: its Manifest, and the sequence without the token that it places. -/
theorem stepBoundary_next (hc : c < 16) (hlen : c < s.ctxs.length) (hact : (s.ctx c).st = .active)
    (hrun : (s.part (s.ctx c).share.partition).halted = false) (hbetween : (s.ctx c).steps.between = true) (hmay : s.mayBuild c = true)
    (hroute : (s.ctx c).route.other = .free) (hsfn : (s.ctx c).sfn.other = .free) (hlay : (s.ctx c).lay.other = .free)
    (hfw : (s.fw fwCaravan).st ≠ .running) (hmsgs : s.host.msgs = []) (hhints : (s.ctx c).kv.heldHints = [])
    (hseqs : s.seqs = [(q, e)]) (hctx : e.ctx = c) (hst : e.st = .decode) (hnear : e.kvFar = false) (hpend : e.pendTok = some v)
    (hdemand : (s.ctx c).demand e 1 = (0, 0)) (hlimit : 0 < (s.ctx c).steps.tokenLimit)
    (hbudget : 0 < 2097152 / (s.ctx c).route.active.kmax) (ht : t = stepBoundary c s) :
    ∃ m : Manifest, (t.ctx c).steps.man = some m ∧
      (t.ctx c).steps.nextEpoch = ((s.ctx c).steps.nextEpoch + 1) % 65536 ∧ (t.ctx c).steps.between = false ∧
      m.epoch = (s.ctx c).steps.nextEpoch ∧ m.fixed = (s.ctx c).steps.mode ∧ m.tokens = 1 ∧ m.tokensA = 1 ∧ m.buildTick = s.now ∧
      m.routeGen = (s.ctx c).route.gen ∧ m.entries = [e.entry q v] ∧
      t.seqs = [(q, { e with paused := false, pendTok := none })] ∧ t.mem = s.mem := by
  obtain ⟨hsteps, hroutes, hheld⟩ := State.chosen_ctx (q := q) (e := e) hlen
  obtain ⟨huseqs, huhost, humem, hunow, hufws⟩ := s.chosen_kept c q e
  have hulen : c < (s.chosen c q e).ctxs.length := by
    rw [State.chosen_length]
    exact hlen
  rw [stepBoundary_builds hc hact hrun hbetween hmay, State.flipAll_none hroute hsfn hlay,
    State.phases34_one hlen hseqs hctx hst hnear hpend hdemand hlimit hbudget] at ht
  generalize s.chosen c q e = u at hsteps hroutes hheld hulen huseqs huhost humem hunow hufws ht
  have hufw : (u.fw fwCaravan).st ≠ .running := by
    rw [State.fw, hufws]
    exact hfw
  obtain ⟨⟨switched, hman⟩, hnext, hdone, htseqs, htmem⟩ := State.build_ends (n := e.entry q v) hulen hufw rfl
    (by rw [huhost]; exact hmsgs) (hheld.trans hhints) ht
  refine ⟨_, hman, by rw [hnext, hsteps], hdone, congrArg Steps.nextEpoch hsteps, congrArg Steps.mode hsteps, rfl, rfl, hunow, ?_, rfl,
    htseqs.trans huseqs, htmem.trans humem⟩
  exact congrArg Gen.gen hroutes

end

/-- Settles O41. -/
theorem stepBoundaries : Obligations.StepBoundaries := by
  unfold Obligations.StepBoundaries
  refine ⟨fun c s h => congrArg Host.Outcome.next (stepBoundary_shut h),
    fun c m s hbetween hman hend => congrArg Host.Outcome.next (stepBoundary_runs hbetween hman hend),
    fun c m s hc hst hrun hbetween hman hend hroom => congrArg Host.Outcome.next (stepBoundary_stalls hc hst hrun hbetween hman hend hroom),
    fun c s hbetween hmay => congrArg Host.Outcome.next (stepBoundary_held hbetween hmay), ?_, ?_⟩
  · intro c q v m n e s hc hlen hst hrun hheld hbetween hman hend hroom hreq hnotes hgone hroute hsfn hlay _ hmsgs hseqs _ _ hdecode hfeed
      hframe hprefix hentries hseq _ hcan hout hwidth
    have hentry := State.commitEntry_advances (c := c) (epoch := m.epoch) hseqs hdecode hfeed hframe hprefix hseq hcan hout
    have hcommit := State.commitStep_one hlen hnotes hgone hreq hentries hentry
    obtain ⟨htseqs, htws, hdone, hpaused⟩ := stepBoundary_pauses hc hst hrun hheld hbetween hman hend hroom hroute hsfn hlay hmsgs
      rfl hcommit
    refine ⟨_, rfl, hdone.man, hpaused, ?_, hdone.next, ?_, ?_, ?_, ?_, hdone.record⟩
    · rw [hdone.done]
      simp
    · rw [State.seq_sole htseqs]
      rfl
    · rw [State.seq_sole htseqs]
      rfl
    · rw [State.seq_sole htseqs]
      rfl
    · rw [State.wst, htws, ← State.wst, State.wst_wsPush_one, Ws.push_words, Ws.wordBytes, hwidth, show 8 * (4 * 2 ^ 2) = 128 from rfl]
  · intro c q v e s hc hlen hst hrun hbetween hmay hroute hsfn hlay hfw hmsgs hhints _ hseqs _ hctx hdecode hnear hpend hdemand hlimit hbudget
    obtain ⟨m, hman, hnext, hdone, hepoch, hfixed, htokens, htokensA, htick, hgen, hentries, htseqs, htmem⟩ := stepBoundary_next hc hlen hst
      hrun hbetween hmay hroute hsfn hlay hfw hmsgs hhints hseqs hctx hdecode hnear hpend hdemand hlimit hbudget rfl
    refine ⟨_, m, e.entry q v, rfl, hman, hnext, hdone, hepoch, hfixed, htokens, htokensA, htick, hgen, hentries, rfl, rfl, rfl, rfl, rfl,
      rfl, rfl, ?_, ?_, htmem⟩
    · rw [State.seq_sole htseqs]
    · rw [State.seq_sole htseqs]
      exact hdecode

end Machine
end Sys2Proof
end
